-- ==== Sys2Proof/Word.lean ====
section
/-! DEFINITION. The word types of the register space (R4): a register is 32 bits wide, a quantity
wider than that occupies consecutive words with its least significant word at the lowest address. -/
namespace Sys2Proof

/-- A register word (R4). -/
abbrev Word := BitVec 32
/-- A 64-bit quantity (R4). -/
abbrev Dword := BitVec 64
/-- A byte of a frame or of a memory. -/
abbrev Byte := BitVec 8

end Sys2Proof
end

