-- ==== Sys2Proof/Syntax.lean ====
section
/-! DEFINITION. The commands of the block: one constructor of `Instr` per row of spec/opcode_table.json, with the row's
operands, and the types of those operands. A command that is the head of a stream names the stream (k = 4 × host + stream);
an event that depends on what the world outside does (a sample, a level, a frame) carries it as an operand. -/
namespace Sys2Proof
/-- Who performs a register access: a host, under its identity (R275), or the supervisor (R284, R287). -/
inductive Writer where
  | host (h : Fin 8)
  | supervisor
deriving DecidableEq, Repr
/-- Where a word with an uncorrectable error was read (R119): an engine memory (0 program, 1 data, 2 trace), or cell
memory by an engine or a host; `word` is the word offset. -/
inductive EccSite where
  | engineMem (e : Fin 20) (mem : Fin 3) (word : Fin 16384)
  | cellByEngine (e : Fin 20) (word : Fin 131072)
  | cellByHost (word : Fin 131072)
deriving DecidableEq, Repr
/-- An Announce message as the BMCA sees it (R346). -/
structure AnnounceMsg where
  prio1 : BitVec 8
  cls : BitVec 8
  acc : BitVec 8
  var : BitVec 16
  prio2 : BitVec 8
  gm : BitVec 64
  steps : BitVec 16
deriving DecidableEq, Repr
/-- The servo registers that one row covers (R351). -/
inductive CtReg where
  | servo
  | thr
deriving DecidableEq, Repr
/-- The front-panel registers that one row covers (R453). -/
inductive FpReg where
  | cfg
  | mirbase
  | prescfg
  | pad (k : Fin 8)
  | slot (n : Fin 16)
  | lamp (l : Fin 8)
deriving DecidableEq, Repr
/-- How a path of a presence test ends (R448). -/
inductive PathEnd where
  | decided
  | timeout
  | skipped
  | tripped
deriving DecidableEq, Repr
/-- A window monitor named by a command (R230). -/
inductive Monitor where
  | supply (x : Fin 6)
  | vgd (g : Fin 4)
  | vh (c : Fin 32)
  | die (g : Fin 4)
deriving DecidableEq, Repr
/-- A commutation event of a channel: a compare edge toward one side, or the end of the dead time (R187). -/
inductive Edge where
  | edge (toHigh : Bool)
  | deadEnd
deriving DecidableEq, Repr
/-- A group configuration register (R195). -/
inductive PwmgReg where
  | cfg
  | phofs
  | refr
deriving DecidableEq, Repr
/-- The registers of FB_CONFIG_WRITE. -/
inductive FbReg where
  | cfg
  | aunum
  | auden
  | ssi
deriving DecidableEq, Repr
/-- The registers of PCO_CONFIG_WRITE. -/
inductive PcoReg where
  | cfg
  | pos (high : Bool)
  | step (high : Bool)
deriving DecidableEq, Repr
/-- A write that HOST_CFG_WRITE covers (R277). -/
inductive HostReg where
  | cfg (v : Word)
  | mac (m : BitVec 48)
deriving DecidableEq, Repr
/-- The strap balls at the release of reset (R403). -/
structure StrapPins where
  boot : Fin 4
  hostif : Fin 4
  gdm : BitVec 4
  safe : Bool
  untested : Bool
  node : Fin 8
  cspw : Bool
deriving DecidableEq, Repr
/-- A command of the table: register writes, frames, route instructions of an engine, and events. -/
inductive Instr where
  /-- CELL_TICK (R19). -/
  | cellTick
  /-- TICK_PERIOD_CHANGE (R21). -/
  | tickPeriodChange
  /-- TICKUS_WRITE (R21). -/
  | tickusWrite (v : Word)
  /-- CARRIER_VALLEY (R180). -/
  | carrierValley (g : Fin 4) (dev : Int)
  /-- CARRIER_PEAK (R180). -/
  | carrierPeak (g : Fin 4)
  /-- COUNTER_START (R182). -/
  | counterStart (g : Fin 4)
  /-- REFRESH_INSERT (R191). -/
  | refreshInsert (c : Fin 32)
  /-- ENGINE_PASS_START (R121). -/
  | enginePassStart (e : Fin 20)
  /-- BIND_WRITE (R15). -/
  | bindWrite (w : Writer) (n : Fin 16) (v : Word)
  /-- ENGSEL_WRITE (R18). -/
  | engselWrite (w : Writer) (n : Fin 16) (v : Word)
  /-- ENERGISE (R28). -/
  | energise (w : Writer) (n : Fin 16)
  /-- DEENERGISE (R28). -/
  | deenergise (w : Writer) (n : Fin 16)
  /-- CLEAR (R214). -/
  | clear (w : Writer) (n : Fin 16)
  /-- SVC_OUT (R217). -/
  | svcOut (w : Writer) (n : Fin 16)
  /-- SVC_IN (R218): what the pins answer to the checks, by channel of the slot and by path (the bits at
Machine.checkTrips). -/
  | svcIn (w : Writer) (n : Fin 16) (phys : List Nat)
  /-- SHUTDOWN_COMPLETE (R28). -/
  | shutdownComplete (n : Fin 16)
  /-- MCFG_WRITE (R34). -/
  | mcfgWrite (w : Writer) (n : Fin 16) (v : Word)
  /-- PITCH_OFFER (R38). -/
  | pitchOffer (w : Writer) (n : Fin 16) (v : Word)
  /-- PITCH_START (R40). -/
  | pitchStart (n : Fin 16)
  /-- FLUSH (R50). -/
  | flush (w : Writer) (n : Fin 16)
  /-- GO (R50). -/
  | go (w : Writer) (n : Fin 16)
  /-- SETPOINT_OFFER (R52). -/
  | setpointOffer (w : Writer) (n : Fin 16) (v : Word)
  /-- SETPOINT_HOLDOVER_EXPIRY (R55). -/
  | setpointHoldoverExpiry (n : Fin 16)
  /-- LOAD (R57). -/
  | load (w : Writer) (n : Fin 16)
  /-- GEAR_LOAD_APPLY (R58). -/
  | gearLoadApply (n : Fin 16)
  /-- STEP_PULSE (R59). -/
  | stepPulse (n : Fin 16)
  /-- CC_CFG_WRITE (R74). -/
  | ccCfgWrite (w : Writer) (n : Fin 16) (v : Word)
  /-- OFSCAL (R70). -/
  | ofscal (w : Writer) (n : Fin 16)
  /-- KCAL (R71). -/
  | kcal (w : Writer) (n : Fin 16)
  /-- ALIGN (R72). -/
  | align (w : Writer) (n : Fin 16)
  /-- CALIBRATION_DONE (R69). -/
  | calibrationDone (n : Fin 16) (r : List (Int × Int)) (notReached : Bool)
  /-- APPLY (R79). -/
  | apply (w : Writer) (n : Fin 16) (hold : Bool)
  /-- STAGED_APPLY_TAKE (R79). -/
  | stagedApplyTake (n : Fin 16)
  /-- HOLD_DLY_EXPIRY (R82). -/
  | holdDlyExpiry (n : Fin 16)
  /-- HOLDING (R82). -/
  | holding (n : Fin 16)
  /-- BRAKE_RELEASE_START (R86). -/
  | brakeReleaseStart (n : Fin 16)
  /-- BRAKE_PULL_END (R86). -/
  | brakePullEnd (n : Fin 16)
  /-- BRAKE_ENGAGE_END (R86). -/
  | brakeEngageEnd (n : Fin 16)
  /-- SEARCH_LOCK (R95). -/
  | searchLock (n : Fin 16)
  /-- POLARITY_DONE (R95): the rise times along +d̂ and −d̂. -/
  | polarityDone (n : Fin 16) (tp : Nat) (tn : Nat)
  /-- SEARCH_TIMEOUT (R95). -/
  | searchTimeout (n : Fin 16)
  /-- FORCED_ALIGN_END (R95). -/
  | forcedAlignEnd (n : Fin 16)
  /-- INJECTION_OFF (R97). -/
  | injectionOff (n : Fin 16)
  /-- STALL_REARM (R101). -/
  | stallRearm (n : Fin 16)
  /-- MODEL (R110). -/
  | model (n : Fin 16)
  /-- AUTOCL_RETURN (R111). -/
  | autoclReturn (n : Fin 16)
  /-- PR_CFG_WRITE (R104). -/
  | prCfgWrite (w : Writer) (n : Fin 16) (v : Word)
  /-- PR_PARAM_WRITE (R105). -/
  | prParamWrite (w : Writer) (n : Fin 16) (i : Fin 8) (v : Word)
  /-- RESEARCH (R106). -/
  | research (w : Writer) (n : Fin 16)
  /-- RESUMECL (R111). -/
  | resumecl (w : Writer) (n : Fin 16)
  /-- IDENT (R109). -/
  | ident (w : Writer) (n : Fin 16)
  /-- IDENT_DONE (R109). -/
  | identDone (n : Fin 16) (rw : Int) (ld : Int) (lq : Int) (notReached : Bool)
  /-- ECC_UNCORRECTABLE (R119). -/
  | eccUncorrectable (site : EccSite)
  /-- EMERGENCY_GAP (R136). -/
  | emergencyGap (n : Fin 16)
  /-- EMERGENCY_TAKEOVER (R136). -/
  | emergencyTakeover (n : Fin 16)
  /-- PROGRAM_MEMORY_WRITE (R116). -/
  | programMemoryWrite (e : Fin 20) (i : Fin 16384) (v : Word)
  /-- DATA_MEMORY_WRITE (R127). -/
  | dataMemoryWrite (e : Fin 20) (i : Fin 8192) (v : Word)
  /-- ENGINE_LOAD (R123). -/
  | engineLoad (w : Writer) (e : Fin 20) (route : Fin 256)
  /-- LOAD_DONE (R123). -/
  | loadDone (e : Fin 20)
  /-- START (R123). -/
  | start (w : Writer) (e : Fin 20)
  /-- HALT_ACTION (R123). -/
  | haltAction (w : Writer) (e : Fin 20)
  /-- TRACE_ARM (R129). -/
  | traceArm (e : Fin 20)
  /-- TRACE_STOP (R129). -/
  | traceStop (e : Fin 20)
  /-- TRACE_FORCE (R129). -/
  | traceForce (e : Fin 20)
  /-- TRACE_DONE (R129). -/
  | traceDone (e : Fin 20)
  /-- SWAP_GO (R133). -/
  | swapGo (w : Writer) (n : Fin 16) (v : Word)
  /-- SWAP_CANCEL (R135). -/
  | swapCancel (w : Writer) (n : Fin 16) (v : Word)
  /-- SWAP_LOAD_DONE (R134). -/
  | swapLoadDone (n : Fin 16)
  /-- WAITCKP_TIMEOUT (R134). -/
  | waitckpTimeout (n : Fin 16)
  /-- SHADOW_MISMATCH_END (R134). -/
  | shadowMismatchEnd (n : Fin 16)
  /-- SWITCH (R134). -/
  | switch (n : Fin 16)
  /-- SWAP_RELEASE (R134). -/
  | swapRelease (n : Fin 16)
  /-- UNRETIRE (R137). -/
  | unretire (e : Fin 32)
  /-- UNRETIRE_DONE (R137). -/
  | unretireDone (e : Fin 20)
  /-- RETIRE (R137). -/
  | retire (e : Fin 32)
  /-- ADD (R144). -/
  | add (e : Fin 20)
  /-- SUB (R144). -/
  | sub (e : Fin 20)
  /-- AND (R144). -/
  | and (e : Fin 20)
  /-- OR (R144). -/
  | or (e : Fin 20)
  /-- XOR (R144). -/
  | xor (e : Fin 20)
  /-- SHL (R144). -/
  | shl (e : Fin 20)
  /-- SHR (R144). -/
  | shr (e : Fin 20)
  /-- SAR (R144). -/
  | sar (e : Fin 20)
  /-- MUL (R144). -/
  | mul (e : Fin 20)
  /-- MULH (R144). -/
  | mulh (e : Fin 20)
  /-- MIN (R144). -/
  | min (e : Fin 20)
  /-- MAX (R144). -/
  | max (e : Fin 20)
  /-- CMP (R148). -/
  | cmp (e : Fin 20)
  /-- LD (R147). -/
  | ld (e : Fin 20)
  /-- ST (R147). -/
  | st (e : Fin 20)
  /-- LDI (R146). -/
  | ldi (e : Fin 20)
  /-- LDI_H (R146). -/
  | ldiH (e : Fin 20)
  /-- BLD (R150). -/
  | bld (e : Fin 20)
  /-- BST (R150). -/
  | bst (e : Fin 20)
  /-- BMAC (R151). -/
  | bmac (e : Fin 20)
  /-- BMSU (R151). -/
  | bmsu (e : Fin 20)
  /-- BACC (R152). -/
  | bacc (e : Fin 20)
  /-- BNORM (R153). -/
  | bnorm (e : Fin 20)
  /-- BSCALE (R153). -/
  | bscale (e : Fin 20)
  /-- BSAT (R153). -/
  | bsat (e : Fin 20)
  /-- BSAT_V (R153). -/
  | bsatV (e : Fin 20)
  /-- BINT (R118). -/
  | bint (e : Fin 20)
  /-- BCVT (R154). -/
  | bcvt (e : Fin 20)
  /-- SINCOS (R155). -/
  | sincos (e : Fin 20)
  /-- ATAN2 (R155). -/
  | atan2 (e : Fin 20)
  /-- SQRT (R155). -/
  | sqrt (e : Fin 20)
  /-- RCP (R155). -/
  | rcp (e : Fin 20)
  /-- BR (R156). -/
  | br (e : Fin 20)
  /-- CALL (R156). -/
  | call (e : Fin 20)
  /-- RET (R156). -/
  | ret (e : Fin 20)
  /-- LOOP (R157). -/
  | loop (e : Fin 20)
  /-- WAIT (R156). -/
  | wait (e : Fin 20)
  /-- HALT (R158). -/
  | halt (e : Fin 20)
  /-- TRAP (R158). -/
  | trap (e : Fin 20)
  /-- RDI (R163). -/
  | rdi (e : Fin 20)
  /-- RDI_W (R163). -/
  | rdiW (e : Fin 20)
  /-- RDV (R164). -/
  | rdv (e : Fin 20)
  /-- RDF (R165). -/
  | rdf (e : Fin 20)
  /-- POS (R166). -/
  | pos (e : Fin 20)
  /-- PIT (R167). -/
  | pit (e : Fin 20)
  /-- PIT_LVL (R167). -/
  | pitLvl (e : Fin 20)
  /-- WRV (R168). -/
  | wrv (e : Fin 20)
  /-- WRA (R170). -/
  | wra (e : Fin 20)
  /-- CAP (R171). -/
  | cap (e : Fin 20)
  /-- TRC (R172). -/
  | trc (e : Fin 20)
  /-- FLT (R173). -/
  | flt (e : Fin 20)
  /-- EVT (R174). -/
  | evt (e : Fin 20)
  /-- SGN (R175). -/
  | sgn (e : Fin 20)
  /-- SGN_R (R175). -/
  | sgnR (e : Fin 20)
  /-- MAILBOX_DELIVERY (R175). -/
  | mailboxDelivery (e : Fin 20)
  /-- CKP (R176). -/
  | ckp (e : Fin 20)
  /-- MFS (R178). -/
  | mfs (e : Fin 20)
  /-- MTS (R178). -/
  | mts (e : Fin 20)
  /-- PWMG_CONFIG_WRITE (R195). -/
  | pwmgConfigWrite (g : Fin 4) (r : PwmgReg) (v : Word)
  /-- SHORT_CIRCUIT_TRIP (R210). -/
  | shortCircuitTrip (c : Fin 32) (iH : Int) (iL : Int)
  /-- VH_UNDERVOLTAGE_TRIP (R210). -/
  | vhUndervoltageTrip (c : Fin 32) (v : Int) (blocked : Bool)
  /-- VGD_UNDERVOLTAGE_TRIP (R210). -/
  | vgdUndervoltageTrip (g : Fin 4) (v : Int)
  /-- OVER_TEMPERATURE_TRIP (R210). -/
  | overTemperatureTrip (g : Fin 4) (v : Int)
  /-- MONITORED_DECISION (R228). -/
  | monitoredDecision (c : Fin 32) (iH : Int) (iL : Int)
  /-- SAFEOFF_N_LOW (R215). -/
  | safeoffNLow
  /-- SAFEOFF_N_HIGH (R215). -/
  | safeoffNHigh
  /-- GD_CFG_WRITE (R219). -/
  | gdCfgWrite (g : Fin 4) (v : Word)
  /-- SCTHR_WRITE (R221). -/
  | scthrWrite (g : Fin 4) (k : Fin 8) (v : Word)
  /-- CMP_SCF_WRITE (R228). -/
  | cmpScfWrite (c : Fin 32) (v : Word)
  /-- WINDOW_EXCURSION (R230). -/
  | windowExcursion (x : Fin 6) (v : Int)
  /-- WINDOW_RETURN (R231). -/
  | windowReturn (m : Monitor) (v : Int)
  /-- MON_FILT_WRITE (R231). -/
  | monFiltWrite (v : Word)
  /-- MON_THR_WRITE (R232). -/
  | monThrWrite (x : Fin 6) (v : Word)
  /-- DECIMATED_OUTPUT (R236, R237): what the modulator inputs of the channel saw at the clocks of its period: the mirror
currents of the high and of the low side in nA (for a bus channel `iH` is the bus voltage in mV), each listed value for
`each` clocks, and `rH` and `rL` from there on. -/
  | decimatedOutput (c : Fin 36) (iH : List Int) (iL : List Int) (each : Nat) (rH : Int) (rL : Int)
  /-- DEC_CFG_WRITE (R242). -/
  | decCfgWrite (c : Fin 36) (v : Word)
  /-- DEC_SETTLED (R240). -/
  | decSettled (c : Fin 36)
  /-- BUS_WIN_WRITE (R243). -/
  | busWinWrite (g : Fin 4) (v : Word)
  /-- HKC_RUN (R255). -/
  | hkcRun (run : Bool)
  /-- ISW (R248). -/
  | isw
  /-- HKC_INJECTED_TRIGGER (R248). -/
  | hkcInjectedTrigger
  /-- HKC_CONVERSION_DONE (R247). -/
  | hkcConversionDone (k : Int)
  /-- RIDX_WRITE (R251). -/
  | ridxWrite (v : Word)
  /-- HKC_REF_WRITE (R252). -/
  | hkcRefWrite (v : Word)
  /-- REF_SETTLED (R252). -/
  | refSettled
  /-- HKC_CAL_GO (R253). -/
  | hkcCalGo
  /-- HKC_CALIBRATION_DONE (R253). -/
  | hkcCalibrationDone (o0 : Int) (g0 : Int) (o1 : Int) (g1 : Int) (o2 : Int) (g2 : Int) (o3 : Int) (g3 : Int)
  /-- HKC_CONFIG_WRITE (R255). -/
  | hkcConfigWrite (off : Fin 1024) (v : Word)
  /-- QUADRATURE_COUNT (R261): A and B show these levels. -/
  | quadratureCount (p : Fin 8) (a : Bool) (b : Bool)
  /-- Z_LATCH (R261): Z shows this level. -/
  | zLatch (p : Fin 8) (z : Bool)
  /-- MAGNETIC_SWITCH_COUNT (R262): U, V and W show these levels. -/
  | magneticSwitchCount (p : Fin 8) (u : Bool) (v : Bool) (w : Bool)
  /-- SSI_FRAME_DONE (R263): the data bits of the frame, the first in the highest place. -/
  | ssiFrameDone (p : Fin 8) (raw : Nat)
  /-- FB_CONFIG_WRITE (R267). -/
  | fbConfigWrite (p : Fin 8) (r : FbReg) (v : Word)
  /-- STEP_INPUT_PULSE (R268): an edge of this kind at STEP (or at DIR), with the level of DIR (or of STEP). -/
  | stepInputPulse (i : Fin 8) (onDir : Bool) (rising : Bool) (dir : Bool)
  /-- SI_CFG_WRITE (R268). -/
  | siCfgWrite (i : Fin 8) (v : Word)
  /-- SO_CFG_WRITE (R269). -/
  | soCfgWrite (o : Fin 8) (v : Word)
  /-- CAPTURE_EDGE (R270): an edge of this kind at capture input `k`. -/
  | captureEdge (k : Fin 8) (rising : Bool)
  /-- RELEASE (R271). -/
  | release (k : Fin 8)
  /-- ARM (R272). -/
  | arm (q : Fin 4)
  /-- DISARM (R273). -/
  | disarm (q : Fin 4)
  /-- FORCE (R273). -/
  | force (q : Fin 4)
  /-- COMPARE_FIRE (R272). -/
  | compareFire (q : Fin 4) (t : Nat)
  /-- COMPARE_PULSE_END (R272). -/
  | comparePulseEnd (q : Fin 4)
  /-- PCO_CONFIG_WRITE (R273). -/
  | pcoConfigWrite (q : Fin 4) (r : PcoReg) (v : Word)
  /-- FRAME_RECEIVE (R299). -/
  | frameReceive (port : Fin 4)
  /-- READ (R278). -/
  | read (k : Fin 32)
  /-- WRITE (R278). -/
  | write (k : Fin 32)
  /-- RMW (R283). -/
  | rmw (k : Fin 32)
  /-- PITCH (R304). -/
  | pitch (k : Fin 32)
  /-- SETPOINT (R304). -/
  | setpoint (k : Fin 32)
  /-- CTRL (R304). -/
  | ctrl (k : Fin 32)
  /-- QCTRL (R304). -/
  | qctrl (k : Fin 32)
  /-- COMMAND_ROOM_FREED (R304). -/
  | commandRoomFreed (k : Fin 32)
  /-- WAITDONE_MET (R304). -/
  | waitdoneMet (k : Fin 32)
  /-- ANCHOR (R288). -/
  | anchor (k : Fin 32)
  /-- RELEASE_ANCHORS (R288). -/
  | releaseAnchors (k : Fin 32)
  /-- FENCE (R310). -/
  | fence (k : Fin 32)
  /-- FENCE_COMPLETE (R310). -/
  | fenceComplete (k : Fin 32)
  /-- RESUME (R312). -/
  | resume (k : Fin 32) (seq : BitVec 16) (stray : Bool)
  /-- STREAM_FLUSH (R312). -/
  | streamFlush (k : Fin 32) (seq : BitVec 16) (stray : Bool)
  /-- STREAM_RESYNC (R313). -/
  | streamResync (k : Fin 32) (seq : BitVec 16) (stray : Bool)
  /-- SWAP (R305). -/
  | swap (k : Fin 32)
  /-- RESPONSE_SEND (R309). -/
  | responseSend (k : Fin 32)
  /-- WRITE_STAGE_EXPIRY (R282). -/
  | writeStageExpiry (h : Fin 8)
  /-- HOST_CFG_WRITE (R277). -/
  | hostCfgWrite (w : Writer) (n : Fin 8) (r : HostReg)
  /-- HOST_LOSS_TIMEOUT (R291). -/
  | hostLossTimeout (h : Fin 8)
  /-- LOSE (R292). -/
  | lose (w : Writer) (h : Fin 8)
  /-- CSP_CFG_WRITE (R325). -/
  | cspCfgWrite (n : Fin 4) (v : Word)
  /-- CSP_CFG_APPLY (R325). -/
  | cspCfgApply (n : Fin 4)
  /-- QIN_WRITE (R327). -/
  | qinWrite (n : Fin 4) (v : Word)
  /-- CSP_ENTRY_START (R328). -/
  | cspEntryStart (n : Fin 4)
  /-- CSP_ENTRY_DONE (R330). -/
  | cspEntryDone (n : Fin 4) (got : List Word)
  /-- STROBE_TIMEOUT (R329). -/
  | strobeTimeout (n : Fin 4) (got : List Word)
  /-- CSP_QUEUE_FLUSH (R330). -/
  | cspQueueFlush (n : Fin 4)
  /-- SS0_FALL (R331). -/
  | ss0Fall (n : Fin 4)
  /-- SS0_RISE (R332). -/
  | ss0Rise (n : Fin 4) (mid : Bool)
  /-- CSP_SLAVE_WORD (R332). -/
  | cspSlaveWord (n : Fin 4) (w : Word)
  /-- UNDERRUN_RESEND (R333). -/
  | underrunResend (n : Fin 4)
  /-- SRXD_READ (R334). -/
  | srxdRead (n : Fin 4)
  /-- STXD_WRITE (R334). -/
  | stxdWrite (n : Fin 4) (v : Word)
  /-- ETH_FRAME_RECEIVE (R339). -/
  | ethFrameReceive (p : Fin 2) (b : List Byte) (symErr : Bool)
  /-- EGRESS_FRAME_START (R344). -/
  | egressFrameStart (p : Fin 2)
  /-- GATE_ENTRY_CHANGE (R344). -/
  | gateEntryChange (p : Fin 2)
  /-- QBV_APPLY (R345). -/
  | qbvApply (p : Fin 2)
  /-- QBV_CONFIG_CHANGE (R345). -/
  | qbvConfigChange (p : Fin 2)
  /-- MDIO_GO (R338). -/
  | mdioGo
  /-- MDIO_DONE (R338). -/
  | mdioDone (d : BitVec 16)
  /-- LINK_UP (R352). -/
  | linkUp (p : Fin 2)
  /-- LINK_DOWN (R357). -/
  | linkDown (p : Fin 2)
  /-- SYNC_TRANSMIT (R346). -/
  | syncTransmit
  /-- FOLLOW_UP (R349): offset in ns by the timestamp at the serial interface, and the grandmaster's rate in ppb. -/
  | followUp (p : Fin 2) (off : Int) (rate : Int)
  /-- SLEW_END (R349). -/
  | slewEnd
  /-- PDELAY (R346): the delay in ns by timestamps at the serial interfaces; none when the measurement failed. -/
  | pdelay (p : Fin 2) (d : Option (BitVec 32))
  /-- ANNOUNCE (R346). -/
  | announce (p : Fin 2) (a : AnnounceMsg)
  /-- RECEIPT_TIMEOUT (R348). -/
  | receiptTimeout (p : Fin 2) (ann : Bool)
  /-- CT_SET_GO (R350). -/
  | ctSetGo
  /-- CT_SERVO_WRITE (R351). -/
  | ctServoWrite (r : CtReg) (v : Word)
  /-- GPTP_CFG_WRITE (R353). -/
  | gptpCfgWrite (v : Word)
  /-- FAULT_RAISE (R360). -/
  | faultRaise (src : Fin 1024) (kind : Fin 64) (detail : BitVec 16) (addr : BitVec 24)
  /-- FAULT_RECORD (R365). -/
  | faultRecord
  /-- NOTIFY (R369). -/
  | notify (h : Fin 8)
  /-- FLT_SEV_WRITE (R372). -/
  | fltSevWrite (w : Writer) (i : Fin 1024) (v : Word)
  /-- FLT_SUBSCRIBE (R374). -/
  | fltSubscribe (w : Writer) (v : Word)
  /-- LOG_RECORD_WRITE (R377). -/
  | logRecordWrite
  /-- FREEZE (R380). -/
  | freeze (k : Fin 32)
  /-- FREEZE_TIMEOUT (R380). -/
  | freezeTimeout
  /-- CLEAR_LOG (R383). -/
  | clearLog (k : Fin 32)
  /-- LOG_MIRROR (R384). -/
  | logMirror
  /-- SAG_START (R389). -/
  | sagStart (v : Int)
  /-- SAVE_COMPLETE (R391). -/
  | saveComplete
  /-- SUPPLY_RECOVERY (R396). -/
  | supplyRecovery
  /-- BELAY_REARM (R397). -/
  | belayRearm
  /-- BLY_CFG_WRITE (R400). -/
  | blyCfgWrite (v : Word)
  /-- ACK (R401). -/
  | ack (w : Writer) (n : Fin 16)
  /-- BEGIN (R413). -/
  | begin (k : Fin 32)
  /-- DATA (R412). -/
  | data (k : Fin 32)
  /-- COMMIT (R408). -/
  | commit (k : Fin 32)
  /-- ABORT (R412). -/
  | abort (k : Fin 32)
  /-- ERASE (R413). -/
  | erase (k : Fin 32)
  /-- SETFLAG (R412). -/
  | setflag (k : Fin 32)
  /-- HANDOVER (R416). -/
  | handover (k : Fin 32)
  /-- HANDOVER_READY (R416). -/
  | handoverReady
  /-- HANDOVER_SWITCH (R416). -/
  | handoverSwitch
  /-- HANDOVER_TIMEOUT (R417). -/
  | handoverTimeout
  /-- IMAGE_APPLY (R419). -/
  | imageApply (k : Fin 32)
  /-- KEYPROG (R412). -/
  | keyprog (k : Fin 32)
  /-- REVOKE (R412). -/
  | revoke (k : Fin 32)
  /-- SECPROG (R412). -/
  | secprog (k : Fin 32)
  /-- ACCEPT_UNTESTED (R415). -/
  | acceptUntested (k : Fin 32)
  /-- POWER_ON_RESET (R423). -/
  | powerOnReset
  /-- RESET_PIN (R435). -/
  | resetPin
  /-- WATCHDOG_EXPIRY (R437). -/
  | watchdogExpiry (active : Bool)
  /-- PWR_CTRL_WRITE (R438). -/
  | pwrCtrlWrite (v : Word)
  /-- CLOCK_LOSS (R426). -/
  | clockLoss
  /-- RESET_RELEASE (R409). -/
  | resetRelease (p : StrapPins)
  /-- XBC_LOSS (R427). -/
  | xbcLoss
  /-- BIVOUAC_ENTRY (R430). -/
  | bivouacEntry
  /-- BIVOUAC_ENTERED (R430). -/
  | bivouacEntered
  /-- WAKE (R432). -/
  | wake (src : Fin 7)
  /-- HOSTS_SERVED (R433). -/
  | hostsServed
  /-- VBC_LOSS (R435). -/
  | vbcLoss
  /-- PWR_CFG_WRITE (R440). -/
  | pwrCfgWrite (v : Word)
  /-- TOUCH_SCAN (R444). -/
  | touchScan (cs : List (BitVec 16))
  /-- RECAL (R444). -/
  | recal (k : Fin 8)
  /-- INPUT_SAMPLE (R445). -/
  | inputSample (pb : BitVec 4) (pres : BitVec 8)
  /-- PRESENCE_TEST (R447). -/
  | presenceTest (n : Fin 16)
  /-- PRESENCE_PATH_DONE (R448). -/
  | presencePathDone (n : Fin 16) (e : PathEnd)
  /-- FP_CONFIG_WRITE (R453). -/
  | fpConfigWrite (r : FpReg) (v : Word)
  /-- READ_CLEAR (R5). -/
  | readClear (w : Writer) (a : BitVec 24)
  /-- REGISTER_WRITE (R5). -/
  | registerWrite (w : Writer) (a : BitVec 24) (v : Word)
  /-- COMMUTATION (R187). -/
  | commutation (c : Fin 32) (e : Edge)
  /-- COMPARATOR_SAMPLE (R223). -/
  | comparatorSample (c : Fin 32) (iH : Int) (iL : Int)
  /-- WINDOW_SAMPLE (R223). -/
  | windowSample (m : Monitor) (v : Int)
  /-- ANNOUNCE_TRANSMIT (R346). -/
  | announceTransmit
  /-- STANDBY_READY (R437). -/
  | standbyReady
  /-- XBC_START (R427). -/
  | xbcStart
  /-- LAMP_BLINK (R446). -/
  | lampBlink (l : Fin 8)
deriving DecidableEq, Repr
end Sys2Proof
end

