-- ==== Sys2Proof/WellFormed.lean ====
section
/-! DEFINITION. Which operands describe a command: the checks that the operand types do not already make. -/
namespace Sys2Proof

/-- Every number of the list has at most fourteen bits: what the pins answer to the checks of SVC_IN (R218). -/
def checksOk (l : List Nat) : Bool := l.all (fun x => decide (x < 2 ^ 14))

/-- A command is well formed. SVC_IN and CALIBRATION_DONE name at most the five channels and the two brake channels of a
slot; a serial entry receives at most 64 words (R326); a touch scan names the eight pads (R444); a register has a
word-aligned address (R4); a frame on the wire is a sequence of at most 2,048 bytes; a frame of a serial encoder has
at most 48 bits (R263, R265). -/
def Instr.wf : Instr → Bool
  | .svcIn _ _ phys => decide (phys.length ≤ 7) && checksOk phys
  | .calibrationDone _ r _ => decide (r.length ≤ 7)
  | .cspEntryDone _ got => decide (got.length ≤ 64)
  | .strobeTimeout _ got => decide (got.length ≤ 64)
  | .touchScan cs => decide (cs.length = 8)
  | .readClear _ a => decide (a.toNat % 4 = 0)
  | .registerWrite _ a _ => decide (a.toNat % 4 = 0)
  | .ethFrameReceive _ b _ => decide (b.length ≤ 2048)
  | .ssiFrameDone _ raw => decide (raw < 2 ^ 48)
  | _ => true

end Sys2Proof
end

