-- ==== Sys2Proof/Decode.lean ====
section
/-! DEFINITION. The command that a table word spells. spec/opcode_table.json gives no row of this block any bits (every
row's list of fields is empty), so no word spells a command. -/
namespace Sys2Proof

/-- The command that the `nbits` bits `w` spell by the table's bits: none, as no row gives bits. -/
def decodeTableWord (nbits w : Nat) : Option Instr :=
  match nbits, w with
  | _, _ => none

end Sys2Proof
end

