-- ==== Sys2Proof/Config.lean ====
section
/-! DEFINITION. The values the spec leaves open. Each is a constant with no body: no proof can use a value
of it, so a claim about it holds for every value. A fresh value is the constant applied to the model's own
counter of values drawn (`State.drawn`); notes/assumptions/ names each. -/
namespace Sys2Proof

/-- A 64-bit value of the on-die random source (R382 LOG_NONCE, R420 IMG_NONCE). -/
opaque Config.nonce : Nat → BitVec 64
/-- The contents of OTP word `i` of a fresh part, before any programming by this model's commands (R405). -/
opaque Config.otpWord : Nat → BitVec 32
/-- The converter trim that HKC_CALOFSr (0 to 3) and HKC_CALGAINr (4 to 7) take from OTP at reset (R257). -/
opaque Config.hkcTrim : Nat → BitVec 32
/-- The flash contents of a fresh part: bank, word index within the bank. -/
opaque Config.flashWord : Nat → Nat → BitVec 32
/-- The first 16 bytes of HMAC-SHA-256: key words and message bytes to a 128-bit tag (R382). -/
opaque Config.hmacTag : List (BitVec 32) → List (BitVec 8) → BitVec 128
/-- Word `i` of the header fields of factory route `k` (1 control, 2 Prusik) that the spec leaves to the image (R405):
0 ENTRY, 1 BMASK, 2 NW, 3 DBASE, 4 program words, 5 data words, 16 to 31 the signature. -/
opaque Config.factoryField : Nat → Nat → BitVec 32
/-- The words of factory route `k`: program from 0, data from 16,384 (R405). -/
opaque Config.factoryWord : Nat → Nat → BitVec 32
/-- Ed25519 verification (R407, R412): public-key words, the message's bytes and the sixteen words of the signature. -/
opaque Config.ed25519Ok : List (BitVec 32) → List (BitVec 8) → List (BitVec 32) → Bool
/-- The error of a capture time, by the time of the edge at the ball (R270). -/
opaque Config.captureError : Int → BitVec 32
/-- An unstated word result of an instruction or command; the argument numbers the draw. -/
opaque Config.freeWord : Nat → BitVec 32
/-- An unstated rational result, in the unit of its place; the argument numbers the draw. -/
opaque Config.freeRat : Nat → Rat
/-- An unstated choice; the argument numbers the draw. -/
opaque Config.freeBit : Nat → Bool
/-- The part of an approximation error that the spec bounds but does not fix (sine, cosine, arctangent, square
root, reciprocal: R151 to R154 and the factory routes), by operand. -/
opaque Config.approxError : Rat → Rat

end Sys2Proof
end

