-- ==== Sys2Proof/Machine/RegMap.lean ====
section
/-! DEFINITION. The register map of R484 to R487 and of every register table of the spec: one address
per register, one `Fld` per field, and for each block the list of its registers with the reset value and
the access type (R5) of every bit. The names are the spec's; `n`, `e`, `c` … number the instance and `i`
the element of an array inside it. The chapter files of spec/ that hold the tables are named block by block. -/
namespace Sys2Proof.Machine

/-- A field [hi:lo] of the register word at host byte address `a`; a field above bit 31 lies in the
64-bit quantity whose low word is at `a` (R4). -/
structure Fld where
  a : Nat
  hi : Nat
  lo : Nat
deriving DecidableEq, Repr

/-- One register (or array of registers) of a block: byte offset, element count, element stride, whether
it is a 64-bit quantity, its reset value, and the bit masks by access type (R5): RW, RWA, W1C, RC, and
the action bits (taken at the write, read as zero) for any host and for the anchor owner. -/
structure RegDef where
  off : Nat
  rep : Nat
  stride : Nat
  wide : Bool
  rst : Nat
  rw : Nat
  rwa : Nat
  w1c : Nat
  rc : Nat
  act : Nat
  acta : Nat
deriving DecidableEq, Repr

/-- A block or instance array of R484. -/
structure Block where
  base : Nat
  stride : Nat
  count : Nat
  regs : List RegDef
deriving DecidableEq, Repr

/-! ### Block ID: base 0x000000 (R487; 25_register_blocks.md) -/

def DEV_ID : Nat := 0x000000
def DEV_ID_PART : Fld := ⟨DEV_ID, 31, 16⟩
def DEV_ID_STEP : Fld := ⟨DEV_ID, 15, 8⟩
def DEV_ID_ISA : Fld := ⟨DEV_ID, 7, 0⟩
def DEV_UID : Nat := 0x000008
def DEV_UID_V : Fld := ⟨DEV_UID, 63, 0⟩

/-- The registers of block ID. -/
def regsID : List RegDef := [
  ⟨0x0, 1, 4, false, 0x48320003, 0, 0, 0, 0, 0, 0⟩,
  ⟨0x8, 1, 4, true, 0, 0, 0, 0, 0, 0, 0⟩]

/-! ### Block PWR: base 0x010000 (R440, R441; 21_power_clocks.md) -/

def PWR_ST : Nat := 0x010000
def PWR_ST_BLOCK : Fld := ⟨PWR_ST, 23, 13⟩
def PWR_ST_WAKEPEND : Fld := ⟨PWR_ST, 3, 3⟩
def PWR_ST_PSTATE : Fld := ⟨PWR_ST, 2, 0⟩
def PWR_CFG : Nat := 0x010004
def PWR_CFG_BIVEN : Fld := ⟨PWR_CFG, 16, 16⟩
def PWR_CFG_BIVDLY : Fld := ⟨PWR_CFG, 15, 0⟩
def PWR_WAKEEN : Nat := 0x010008
def PWR_WAKEEN_EN : Fld := ⟨PWR_WAKEEN, 6, 0⟩
def PWR_WAKEST : Nat := 0x01000C
def PWR_WAKEST_SEEN : Fld := ⟨PWR_WAKEST, 6, 0⟩
def PWR_ALARM : Nat := 0x010010
def PWR_ALARM_V : Fld := ⟨PWR_ALARM, 63, 0⟩
def PWR_CTRL : Nat := 0x010018
def PWR_CTRL_KEY : Fld := ⟨PWR_CTRL, 31, 16⟩
def PWR_CTRL_REFUSED : Fld := ⟨PWR_CTRL, 2, 2⟩
def PWR_CTRL_FORCE : Fld := ⟨PWR_CTRL, 1, 1⟩
def PWR_CTRL_RESET : Fld := ⟨PWR_CTRL, 0, 0⟩
def RST_CAUSE : Nat := 0x010020
def RST_CAUSE_CAUSE : Fld := ⟨RST_CAUSE, 5, 0⟩
def RST_CNT : Nat := 0x010024
def RST_CNT_V : Fld := ⟨RST_CNT, 31, 0⟩
def CLK_ST : Nat := 0x010028
def CLK_ST_XBCOK : Fld := ⟨CLK_ST, 2, 2⟩
def CLK_ST_XINOK : Fld := ⟨CLK_ST, 1, 1⟩
def CLK_ST_PLLOK : Fld := ⟨CLK_ST, 0, 0⟩
def PWR_BIVCNT : Nat := 0x01002C
def PWR_BIVCNT_V : Fld := ⟨PWR_BIVCNT, 31, 0⟩

/-- The registers of block PWR. -/
def regsPWR : List RegDef := [
  ⟨0x0, 1, 4, false, 0x1, 0, 0, 0, 0, 0, 0⟩,
  ⟨0x4, 1, 4, false, 0x3E8, 0x1FFFF, 0, 0, 0, 0, 0⟩,
  ⟨0x8, 1, 4, false, 0x1F, 0x7F, 0, 0, 0, 0, 0⟩,
  ⟨0xC, 1, 4, false, 0, 0, 0, 0x7F, 0, 0, 0⟩,
  ⟨0x10, 1, 4, true, 0, 0xFFFFFFFFFFFFFFFF, 0, 0, 0, 0, 0⟩,
  ⟨0x18, 1, 4, false, 0, 0, 0, 0x4, 0, 0xFFFF0003, 0⟩,
  ⟨0x20, 1, 4, false, 0, 0, 0, 0x3F, 0, 0, 0⟩,
  ⟨0x24, 1, 4, false, 0, 0, 0, 0, 0, 0, 0⟩,
  ⟨0x28, 1, 4, false, 0, 0, 0, 0, 0, 0, 0⟩,
  ⟨0x2C, 1, 4, false, 0, 0, 0, 0, 0, 0, 0⟩]

/-! ### Block BOOT: base 0x020000 (R404, R420; 20_images.md) -/

def STRAP_ST : Nat := 0x020000
def STRAP_ST_CSPW : Fld := ⟨STRAP_ST, 13, 13⟩
def STRAP_ST_NODE : Fld := ⟨STRAP_ST, 12, 10⟩
def STRAP_ST_UNTESTED : Fld := ⟨STRAP_ST, 9, 9⟩
def STRAP_ST_SAFE : Fld := ⟨STRAP_ST, 8, 8⟩
def STRAP_ST_GDM : Fld := ⟨STRAP_ST, 7, 4⟩
def STRAP_ST_HOSTIF : Fld := ⟨STRAP_ST, 3, 2⟩
def STRAP_ST_BOOT : Fld := ⟨STRAP_ST, 1, 0⟩
def BOOT_ST : Nat := 0x020004
def BOOT_ST_REFB : Fld := ⟨BOOT_ST, 31, 28⟩
def BOOT_ST_REFA : Fld := ⟨BOOT_ST, 27, 24⟩
def BOOT_ST_CALSKIP : Fld := ⟨BOOT_ST, 19, 19⟩
def BOOT_ST_TOPOSKIP : Fld := ⟨BOOT_ST, 18, 18⟩
def BOOT_ST_ACCEPTED : Fld := ⟨BOOT_ST, 17, 17⟩
def BOOT_ST_QUAR : Fld := ⟨BOOT_ST, 16, 16⟩
def BOOT_ST_LOADER : Fld := ⟨BOOT_ST, 7, 7⟩
def BOOT_ST_ACTIVE : Fld := ⟨BOOT_ST, 6, 6⟩
def BOOT_ST_STBYOK : Fld := ⟨BOOT_ST, 5, 5⟩
def BOOT_ST_BANK : Fld := ⟨BOOT_ST, 4, 4⟩
def BOOT_ST_FLAG : Fld := ⟨BOOT_ST, 3, 3⟩
def BOOT_ST_HOPHASE : Fld := ⟨BOOT_ST, 2, 0⟩
def SFW_VER : Nat := 0x020008
def SFW_VER_V : Fld := ⟨SFW_VER, 31, 0⟩
def SFW_EPOCH : Nat := 0x02000C
def SFW_EPOCH_SIMIN : Fld := ⟨SFW_EPOCH, 31, 16⟩
def SFW_EPOCH_SIEPOCH : Fld := ⟨SFW_EPOCH, 15, 0⟩
def IMG_ST : Nat := 0x020010
def IMG_ST_OWNER : Fld := ⟨IMG_ST, 26, 24⟩
def IMG_ST_OPEN : Fld := ⟨IMG_ST, 23, 23⟩
def IMG_ST_KIND : Fld := ⟨IMG_ST, 22, 20⟩
def IMG_ST_BANK : Fld := ⟨IMG_ST, 19, 19⟩
def IMG_ST_WORDS : Fld := ⟨IMG_ST, 17, 0⟩
def IMG_LEN : Nat := 0x020014
def IMG_LEN_V : Fld := ⟨IMG_LEN, 31, 0⟩
def IMG_APPLYREF : Nat := 0x020018
def IMG_APPLYREF_V : Fld := ⟨IMG_APPLYREF, 31, 0⟩
def IMG_ACCFAIL : Nat := 0x02001C
def IMG_ACCFAIL_V : Fld := ⟨IMG_ACCFAIL, 31, 0⟩
def IMG_NONCE : Nat := 0x020020
def IMG_NONCE_V : Fld := ⟨IMG_NONCE, 63, 0⟩
def IMG_HOCNT : Nat := 0x020028
def IMG_HOCNT_FAIL : Fld := ⟨IMG_HOCNT, 31, 16⟩
def IMG_HOCNT_DONE : Fld := ⟨IMG_HOCNT, 15, 0⟩
def RDIR (i : Nat) : Nat := 0x020100 + 0x4 * i
def RDIR_VALID (i : Nat) : Fld := ⟨RDIR i, 31, 31⟩
def RDIR_UNTESTED (i : Nat) : Fld := ⟨RDIR i, 30, 30⟩
def RDIR_ACCEPTED (i : Nat) : Fld := ⟨RDIR i, 29, 29⟩
def RDIR_ROLE (i : Nat) : Fld := ⟨RDIR i, 27, 26⟩
def RDIR_ISA (i : Nat) : Fld := ⟨RDIR i, 23, 16⟩
def RDIR_RIEPOCH (i : Nat) : Fld := ⟨RDIR i, 15, 0⟩

/-- The registers of block BOOT. -/
def regsBOOT : List RegDef := [
  ⟨0x0, 1, 4, false, 0, 0, 0, 0, 0, 0, 0⟩,
  ⟨0x4, 1, 4, false, 0, 0, 0, 0, 0, 0, 0⟩,
  ⟨0x8, 1, 4, false, 0, 0, 0, 0, 0, 0, 0⟩,
  ⟨0xC, 1, 4, false, 0, 0, 0, 0, 0, 0, 0⟩,
  ⟨0x10, 1, 4, false, 0, 0, 0, 0, 0, 0, 0⟩,
  ⟨0x14, 1, 4, false, 0, 0, 0, 0, 0, 0, 0⟩,
  ⟨0x18, 1, 4, false, 0, 0, 0, 0, 0, 0, 0⟩,
  ⟨0x1C, 1, 4, false, 0, 0, 0, 0, 0, 0, 0⟩,
  ⟨0x20, 1, 4, true, 0, 0, 0, 0, 0, 0, 0⟩,
  ⟨0x28, 1, 4, false, 0, 0, 0, 0, 0, 0, 0⟩,
  ⟨0x100, 255, 4, false, 0, 0, 0, 0, 0, 0, 0⟩]

/-! ### Block HOST: base 0x030000, 8 instances, stride 0x20 (R295; 13_register_access.md) -/

def HOST_CFG (n : Nat) : Nat := 0x030000 + 0x20 * n + 0x0
def HOST_CFG_SRC (n : Nat) : Fld := ⟨HOST_CFG n, 1, 0⟩
def HOST_TMO (n : Nat) : Nat := 0x030000 + 0x20 * n + 0x4
def HOST_TMO_TMO (n : Nat) : Fld := ⟨HOST_TMO n, 13, 0⟩
def HOST_MAC (n : Nat) : Nat := 0x030000 + 0x20 * n + 0x8
def HOST_MAC_V (n : Nat) : Fld := ⟨HOST_MAC n, 47, 0⟩
def HOST_ST (n : Nat) : Nat := 0x030000 + 0x20 * n + 0x10
def HOST_ST_ANCHORS (n : Nat) : Fld := ⟨HOST_ST n, 13, 8⟩
def HOST_ST_PORT (n : Nat) : Fld := ⟨HOST_ST n, 4, 3⟩
def HOST_ST_REFUSED (n : Nat) : Fld := ⟨HOST_ST n, 2, 2⟩
def HOST_ST_LOSTSEEN (n : Nat) : Fld := ⟨HOST_ST n, 1, 1⟩
def HOST_ST_LIVE (n : Nat) : Fld := ⟨HOST_ST n, 0, 0⟩
def HOST_LOSTCNT (n : Nat) : Nat := 0x030000 + 0x20 * n + 0x14
def HOST_LOSTCNT_V (n : Nat) : Fld := ⟨HOST_LOSTCNT n, 31, 0⟩

/-- The registers of block HOST. -/
def regsHOST : List RegDef := [
  ⟨0x0, 1, 4, false, 0, 0x3, 0, 0, 0, 0, 0⟩,
  ⟨0x4, 1, 4, false, 0x3E8, 0x3FFF, 0, 0, 0, 0, 0⟩,
  ⟨0x8, 1, 4, true, 0, 0xFFFFFFFFFFFF, 0, 0, 0, 0, 0⟩,
  ⟨0x10, 1, 4, false, 0, 0, 0, 0x6, 0, 0, 0⟩,
  ⟨0x14, 1, 4, false, 0, 0, 0, 0, 0, 0, 0⟩]

/-! ### Block HCTL: base 0x030100 (R296; 13_register_access.md) -/

def HOST_CTRL : Nat := 0x030100
def HOST_CTRL_REFUSED : Fld := ⟨HOST_CTRL, 4, 4⟩
def HOST_CTRL_LOSE : Fld := ⟨HOST_CTRL, 3, 3⟩
def HOST_CTRL_HOST : Fld := ⟨HOST_CTRL, 2, 0⟩
def HOST_UNKNOWN : Nat := 0x030104
def HOST_UNKNOWN_V : Fld := ⟨HOST_UNKNOWN, 31, 0⟩
def HOST_SELF : Nat := 0x030108
def HOST_SELF_VALID : Fld := ⟨HOST_SELF, 3, 3⟩
def HOST_SELF_HOST : Fld := ⟨HOST_SELF, 2, 0⟩
def ANC_ST (i : Nat) : Nat := 0x030200 + 0x4 * i
def ANC_ST_GEN (i : Nat) : Fld := ⟨ANC_ST i, 31, 16⟩
def ANC_ST_HELD (i : Nat) : Fld := ⟨ANC_ST i, 8, 8⟩
def ANC_ST_OWNER (i : Nat) : Fld := ⟨ANC_ST i, 2, 0⟩
def ANC_MASK (i : Nat) : Nat := 0x030300 + 0x8 * i
def ANC_MASK_V (i : Nat) : Fld := ⟨ANC_MASK i, 35, 0⟩

/-- The registers of block HCTL. -/
def regsHCTL : List RegDef := [
  ⟨0x0, 1, 4, false, 0, 0x7, 0, 0x10, 0, 0x8, 0⟩,
  ⟨0x4, 1, 4, false, 0, 0, 0, 0, 0, 0, 0⟩,
  ⟨0x8, 1, 4, false, 0, 0, 0, 0, 0, 0, 0⟩,
  ⟨0x100, 36, 4, false, 0, 0, 0, 0, 0, 0, 0⟩,
  ⟨0x200, 8, 8, true, 0, 0, 0, 0, 0, 0, 0⟩]

/-! ### Block STR: base 0x040000, 32 instances, stride 0x20 (R319; 14_command_streams.md) -/

def STR_ST (k : Nat) : Nat := 0x040000 + 0x20 * k + 0x0
def STR_ST_REASON (k : Nat) : Fld := ⟨STR_ST k, 31, 28⟩
def STR_ST_STATE (k : Nat) : Fld := ⟨STR_ST k, 25, 24⟩
def STR_ST_DEVCRED (k : Nat) : Fld := ⟨STR_ST k, 20, 16⟩
def STR_ST_QUEUED (k : Nat) : Fld := ⟨STR_ST k, 12, 8⟩
def STR_ST_UNSYNCED (k : Nat) : Fld := ⟨STR_ST k, 6, 6⟩
def STR_ST_FENCEWAIT (k : Nat) : Fld := ⟨STR_ST k, 5, 5⟩
def STR_ST_PENDRSP (k : Nat) : Fld := ⟨STR_ST k, 4, 0⟩
def STR_SEQ (k : Nat) : Nat := 0x040000 + 0x20 * k + 0x4
def STR_SEQ_LASTSEQ (k : Nat) : Fld := ⟨STR_SEQ k, 31, 16⟩
def STR_SEQ_NEXTSEQ (k : Nat) : Fld := ⟨STR_SEQ k, 15, 0⟩
def STR_HALTSEQ (k : Nat) : Nat := 0x040000 + 0x20 * k + 0x8
def STR_HALTSEQ_INT (k : Nat) : Fld := ⟨STR_HALTSEQ k, 31, 31⟩
def STR_HALTSEQ_DISCARD (k : Nat) : Fld := ⟨STR_HALTSEQ k, 20, 16⟩
def STR_HALTSEQ_V (k : Nat) : Fld := ⟨STR_HALTSEQ k, 15, 0⟩
def STR_ACCEPT (k : Nat) : Nat := 0x040000 + 0x20 * k + 0xC
def STR_ACCEPT_V (k : Nat) : Fld := ⟨STR_ACCEPT k, 31, 0⟩
def STR_SEQERR (k : Nat) : Nat := 0x040000 + 0x20 * k + 0x10
def STR_SEQERR_V (k : Nat) : Fld := ⟨STR_SEQERR k, 31, 0⟩
def STR_NOCRED (k : Nat) : Nat := 0x040000 + 0x20 * k + 0x14
def STR_NOCRED_V (k : Nat) : Fld := ⟨STR_NOCRED k, 31, 0⟩
def STR_FLUSHED (k : Nat) : Nat := 0x040000 + 0x20 * k + 0x18
def STR_FLUSHED_V (k : Nat) : Fld := ⟨STR_FLUSHED k, 31, 0⟩

/-- The registers of block STR. -/
def regsSTR : List RegDef := [
  ⟨0x0, 1, 4, false, 0, 0, 0, 0, 0, 0, 0⟩,
  ⟨0x4, 1, 4, false, 0, 0, 0, 0, 0, 0, 0⟩,
  ⟨0x8, 1, 4, false, 0, 0, 0, 0, 0, 0, 0⟩,
  ⟨0xC, 1, 4, false, 0, 0, 0, 0, 0, 0, 0⟩,
  ⟨0x10, 1, 4, false, 0, 0, 0, 0, 0, 0, 0⟩,
  ⟨0x14, 1, 4, false, 0, 0, 0, 0, 0, 0, 0⟩,
  ⟨0x18, 1, 4, false, 0, 0, 0, 0, 0, 0, 0⟩]

/-! ### Block SLST: base 0x040400 (R320; 14_command_streams.md) -/

def STR_SLOTLOST : Nat := 0x040400
def STR_SLOTLOST_V : Fld := ⟨STR_SLOTLOST, 15, 0⟩

/-- The registers of block SLST. -/
def regsSLST : List RegDef := [
  ⟨0x0, 1, 4, false, 0, 0, 0, 0xFFFF, 0, 0, 0⟩]

/-! ### Block CSP: base 0x050000, 4 instances, stride 0x1000 (R324, R326, R327, R330, R334; 15_serial_ports.md) -/

def CSP_CFG (n : Nat) : Nat := 0x050000 + 0x1000 * n + 0x0
def CSP_CFG_SSIDLE (n : Nat) : Fld := ⟨CSP_CFG n, 31, 28⟩
def CSP_CFG_SSLAG (n : Nat) : Fld := ⟨CSP_CFG n, 27, 24⟩
def CSP_CFG_SSLEAD (n : Nat) : Fld := ⟨CSP_CFG n, 23, 20⟩
def CSP_CFG_RXDLY (n : Nat) : Fld := ⟨CSP_CFG n, 19, 16⟩
def CSP_CFG_DIV (n : Nat) : Fld := ⟨CSP_CFG n, 15, 8⟩
def CSP_CFG_STRB (n : Nat) : Fld := ⟨CSP_CFG n, 6, 6⟩
def CSP_CFG_CPOL (n : Nat) : Fld := ⟨CSP_CFG n, 5, 5⟩
def CSP_CFG_DDR (n : Nat) : Fld := ⟨CSP_CFG n, 4, 4⟩
def CSP_CFG_LANES (n : Nat) : Fld := ⟨CSP_CFG n, 3, 2⟩
def CSP_CFG_MODE (n : Nat) : Fld := ⟨CSP_CFG n, 1, 0⟩
def CSP_ST (n : Nat) : Nat := 0x050000 + 0x1000 * n + 0x4
def CSP_ST_CFGPEND (n : Nat) : Fld := ⟨CSP_ST n, 15, 15⟩
def CSP_ST_SELECTED (n : Nat) : Fld := ⟨CSP_ST n, 14, 14⟩
def CSP_ST_FRAMED (n : Nat) : Fld := ⟨CSP_ST n, 13, 13⟩
def CSP_ST_REFUSED (n : Nat) : Fld := ⟨CSP_ST n, 7, 7⟩
def CSP_ST_LINKBRK (n : Nat) : Fld := ⟨CSP_ST n, 6, 6⟩
def CSP_ST_STRBTO (n : Nat) : Fld := ⟨CSP_ST n, 5, 5⟩
def CSP_ST_FRAMEERR (n : Nat) : Fld := ⟨CSP_ST n, 4, 4⟩
def CSP_ST_ABORT (n : Nat) : Fld := ⟨CSP_ST n, 3, 3⟩
def CSP_ST_OVERRUN (n : Nat) : Fld := ⟨CSP_ST n, 2, 2⟩
def CSP_ST_UNDERRUN (n : Nat) : Fld := ⟨CSP_ST n, 1, 1⟩
def CSP_ST_ATN (n : Nat) : Fld := ⟨CSP_ST n, 0, 0⟩
def CSP_CRCERR (n : Nat) : Nat := 0x050000 + 0x1000 * n + 0x8
def CSP_CRCERR_V (n : Nat) : Fld := ⟨CSP_CRCERR n, 31, 0⟩
def CSP_UNDERCNT (n : Nat) : Nat := 0x050000 + 0x1000 * n + 0xC
def CSP_UNDERCNT_V (n : Nat) : Fld := ⟨CSP_UNDERCNT n, 31, 0⟩
def CSP_OVERCNT (n : Nat) : Nat := 0x050000 + 0x1000 * n + 0x10
def CSP_OVERCNT_V (n : Nat) : Fld := ⟨CSP_OVERCNT n, 31, 0⟩
def CSP_ABORTCNT (n : Nat) : Nat := 0x050000 + 0x1000 * n + 0x14
def CSP_ABORTCNT_V (n : Nat) : Fld := ⟨CSP_ABORTCNT n, 31, 0⟩
def CSP_FERRCNT (n : Nat) : Nat := 0x050000 + 0x1000 * n + 0x18
def CSP_FERRCNT_V (n : Nat) : Fld := ⟨CSP_FERRCNT n, 31, 0⟩
def CSP_QIN (n : Nat) : Nat := 0x050000 + 0x1000 * n + 0x20
def CSP_QIN_V (n : Nat) : Fld := ⟨CSP_QIN n, 31, 0⟩
def CSP_QST (n : Nat) : Nat := 0x050000 + 0x1000 * n + 0x24
def CSP_QST_FLUSH (n : Nat) : Fld := ⟨CSP_QST n, 16, 16⟩
def CSP_QST_LASTERR (n : Nat) : Fld := ⟨CSP_QST n, 9, 8⟩
def CSP_QST_ACTIVE (n : Nat) : Fld := ⟨CSP_QST n, 5, 5⟩
def CSP_QST_LEVEL (n : Nat) : Fld := ⟨CSP_QST n, 4, 0⟩
def CSP_QACC (n : Nat) : Nat := 0x050000 + 0x1000 * n + 0x28
def CSP_QACC_V (n : Nat) : Fld := ⟨CSP_QACC n, 31, 0⟩
def CSP_QDONE (n : Nat) : Nat := 0x050000 + 0x1000 * n + 0x2C
def CSP_QDONE_V (n : Nat) : Fld := ⟨CSP_QDONE n, 31, 0⟩
def CSP_QFLSH (n : Nat) : Nat := 0x050000 + 0x1000 * n + 0x30
def CSP_QFLSH_V (n : Nat) : Fld := ⟨CSP_QFLSH n, 31, 0⟩
def CSP_QTIME (n : Nat) : Nat := 0x050000 + 0x1000 * n + 0x38
def CSP_QTIME_V (n : Nat) : Fld := ⟨CSP_QTIME n, 63, 0⟩
def CSP_RAW (n : Nat) : Nat := 0x050000 + 0x1000 * n + 0x40
def CSP_RAW_WLEN (n : Nat) : Fld := ⟨CSP_RAW n, 4, 0⟩
def CSP_SRXD (n : Nat) : Nat := 0x050000 + 0x1000 * n + 0x44
def CSP_SRXD_V (n : Nat) : Fld := ⟨CSP_SRXD n, 31, 0⟩
def CSP_STXD (n : Nat) : Nat := 0x050000 + 0x1000 * n + 0x48
def CSP_STXD_V (n : Nat) : Fld := ⟨CSP_STXD n, 31, 0⟩
def CSP_RAWLVL (n : Nat) : Nat := 0x050000 + 0x1000 * n + 0x4C
def CSP_RAWLVL_TXLVL (n : Nat) : Fld := ⟨CSP_RAWLVL n, 22, 16⟩
def CSP_RAWLVL_RXLVL (n : Nat) : Fld := ⟨CSP_RAWLVL n, 6, 0⟩

/-- The registers of block CSP. -/
def regsCSP : List RegDef := [
  ⟨0x0, 1, 4, false, 0x22200810, 0xFFFFFF7F, 0, 0, 0, 0, 0⟩,
  ⟨0x4, 1, 4, false, 0, 0, 0, 0xFE, 0, 0, 0⟩,
  ⟨0x8, 1, 4, false, 0, 0, 0, 0, 0, 0, 0⟩,
  ⟨0xC, 1, 4, false, 0, 0, 0, 0, 0, 0, 0⟩,
  ⟨0x10, 1, 4, false, 0, 0, 0, 0, 0, 0, 0⟩,
  ⟨0x14, 1, 4, false, 0, 0, 0, 0, 0, 0, 0⟩,
  ⟨0x18, 1, 4, false, 0, 0, 0, 0, 0, 0, 0⟩,
  ⟨0x20, 1, 4, false, 0, 0, 0, 0, 0, 0xFFFFFFFF, 0⟩,
  ⟨0x24, 1, 4, false, 0, 0, 0, 0, 0, 0x10000, 0⟩,
  ⟨0x28, 1, 4, false, 0, 0, 0, 0, 0, 0, 0⟩,
  ⟨0x2C, 1, 4, false, 0, 0, 0, 0, 0, 0, 0⟩,
  ⟨0x30, 1, 4, false, 0, 0, 0, 0, 0, 0, 0⟩,
  ⟨0x38, 1, 4, true, 0, 0, 0, 0, 0, 0, 0⟩,
  ⟨0x40, 1, 4, false, 0x1F, 0x1F, 0, 0, 0, 0, 0⟩,
  ⟨0x44, 1, 4, false, 0, 0, 0, 0, 0xFFFFFFFF, 0, 0⟩,
  ⟨0x48, 1, 4, false, 0, 0, 0, 0, 0, 0xFFFFFFFF, 0⟩,
  ⟨0x4C, 1, 4, false, 0, 0, 0, 0, 0, 0, 0⟩]

/-! ### Block ETH: base 0x060000, 2 instances, stride 0x400 (R352; 16_backbone.md) -/

def ETH_CFG (p : Nat) : Nat := 0x060000 + 0x400 * p + 0x0
def ETH_CFG_RELAY (p : Nat) : Fld := ⟨ETH_CFG p, 3, 3⟩
def ETH_CFG_PACE100 (p : Nat) : Fld := ⟨ETH_CFG p, 2, 2⟩
def ETH_CFG_ANEN (p : Nat) : Fld := ⟨ETH_CFG p, 1, 1⟩
def ETH_CFG_EN (p : Nat) : Fld := ⟨ETH_CFG p, 0, 0⟩
def ETH_ST (p : Nat) : Nat := 0x060000 + 0x400 * p + 0x4
def ETH_ST_LINKDOWNSEEN (p : Nat) : Fld := ⟨ETH_ST p, 3, 3⟩
def ETH_ST_ASCAP (p : Nat) : Fld := ⟨ETH_ST p, 2, 2⟩
def ETH_ST_ANDONE (p : Nat) : Fld := ⟨ETH_ST p, 1, 1⟩
def ETH_ST_LINK (p : Nat) : Fld := ⟨ETH_ST p, 0, 0⟩
def ETH_TSLAT (p : Nat) : Nat := 0x060000 + 0x400 * p + 0x8
def ETH_TSLAT_TXLAT (p : Nat) : Fld := ⟨ETH_TSLAT p, 31, 16⟩
def ETH_TSLAT_RXLAT (p : Nat) : Fld := ⟨ETH_TSLAT p, 15, 0⟩
def ETH_RXGOOD (p i : Nat) : Nat := 0x060000 + 0x400 * p + 0x10 + 0x4 * i
def ETH_RXGOOD_V (p i : Nat) : Fld := ⟨ETH_RXGOOD p i, 31, 0⟩
def QBV_CTRL (p : Nat) : Nat := 0x060000 + 0x400 * p + 0x100
def QBV_CTRL_LEN (p : Nat) : Fld := ⟨QBV_CTRL p, 14, 8⟩
def QBV_CTRL_ERR (p : Nat) : Fld := ⟨QBV_CTRL p, 3, 3⟩
def QBV_CTRL_PEND (p : Nat) : Fld := ⟨QBV_CTRL p, 2, 2⟩
def QBV_CTRL_APPLY (p : Nat) : Fld := ⟨QBV_CTRL p, 1, 1⟩
def QBV_CTRL_EN (p : Nat) : Fld := ⟨QBV_CTRL p, 0, 0⟩
def QBV_BASE (p : Nat) : Nat := 0x060000 + 0x400 * p + 0x108
def QBV_BASE_V (p : Nat) : Fld := ⟨QBV_BASE p, 63, 0⟩
def QBV_CYCLE (p : Nat) : Nat := 0x060000 + 0x400 * p + 0x110
def QBV_CYCLE_V (p : Nat) : Fld := ⟨QBV_CYCLE p, 31, 0⟩
def QBV_ST (p : Nat) : Nat := 0x060000 + 0x400 * p + 0x114
def QBV_ST_ENTRY (p : Nat) : Fld := ⟨QBV_ST p, 5, 0⟩
def QBV_GCL (p i : Nat) : Nat := 0x060000 + 0x400 * p + 0x200 + 0x4 * i
def QBV_GCL_GATES (p i : Nat) : Fld := ⟨QBV_GCL p i, 31, 24⟩
def QBV_GCL_INTERVAL (p i : Nat) : Fld := ⟨QBV_GCL p i, 23, 0⟩
def QBV_OPER (p i : Nat) : Nat := 0x060000 + 0x400 * p + 0x300 + 0x4 * i
def QBV_OPER_V (p i : Nat) : Fld := ⟨QBV_OPER p i, 31, 0⟩

/-- The registers of block ETH. -/
def regsETH : List RegDef := [
  ⟨0x0, 1, 4, false, 0xA, 0xF, 0, 0, 0, 0, 0⟩,
  ⟨0x4, 1, 4, false, 0, 0, 0, 0x8, 0, 0, 0⟩,
  ⟨0x8, 1, 4, false, 0, 0xFFFFFFFF, 0, 0, 0, 0, 0⟩,
  ⟨0x10, 6, 4, false, 0, 0, 0, 0, 0, 0, 0⟩,
  ⟨0x100, 1, 4, false, 0, 0x7F01, 0, 0x8, 0, 0x2, 0⟩,
  ⟨0x108, 1, 4, true, 0, 0xFFFFFFFFFFFFFFFF, 0, 0, 0, 0, 0⟩,
  ⟨0x110, 1, 4, false, 0x1E848, 0xFFFFFFFF, 0, 0, 0, 0, 0⟩,
  ⟨0x114, 1, 4, false, 0, 0, 0, 0, 0, 0, 0⟩,
  ⟨0x200, 64, 4, false, 0xFF000000, 0xFFFFFFFF, 0, 0, 0, 0, 0⟩,
  ⟨0x300, 64, 4, false, 0, 0, 0, 0, 0, 0, 0⟩]

/-! ### Block BB: base 0x060800 (R20, R353; 01_axis_fabric.md, 16_backbone.md) -/

def ETH_MAC : Nat := 0x060800
def ETH_MAC_V : Fld := ⟨ETH_MAC, 63, 0⟩
def ETH_VLAN : Nat := 0x060808
def ETH_VLAN_TAGEN : Fld := ⟨ETH_VLAN, 31, 31⟩
def ETH_VLAN_PCP : Fld := ⟨ETH_VLAN, 30, 28⟩
def ETH_VLAN_HOSTQ : Fld := ⟨ETH_VLAN, 27, 25⟩
def ETH_VLAN_DEFPCP : Fld := ⟨ETH_VLAN, 24, 22⟩
def ETH_VLAN_VID : Fld := ⟨ETH_VLAN, 11, 0⟩
def ETH_HTYPE : Nat := 0x06080C
def ETH_HTYPE_V : Fld := ⟨ETH_HTYPE, 15, 0⟩
def MDIO_CMD : Nat := 0x060810
def MDIO_CMD_GO : Fld := ⟨MDIO_CMD, 31, 31⟩
def MDIO_CMD_BUSY : Fld := ⟨MDIO_CMD, 30, 30⟩
def MDIO_CMD_REFUSED : Fld := ⟨MDIO_CMD, 29, 29⟩
def MDIO_CMD_WR : Fld := ⟨MDIO_CMD, 28, 28⟩
def MDIO_CMD_PHYAD : Fld := ⟨MDIO_CMD, 25, 21⟩
def MDIO_CMD_REGAD : Fld := ⟨MDIO_CMD, 20, 16⟩
def MDIO_CMD_DATA : Fld := ⟨MDIO_CMD, 15, 0⟩
def CT_TIME : Nat := 0x061000
def CT_TIME_V : Fld := ⟨CT_TIME, 63, 0⟩
def CT_TICKCFG : Nat := 0x061008
def CT_TICKCFG_REFUSED : Fld := ⟨CT_TICKCFG, 31, 31⟩
def CT_TICKCFG_TICKUS : Fld := ⟨CT_TICKCFG, 9, 0⟩
def CT_ST : Nat := 0x06100C
def CT_ST_SLEWING : Fld := ⟨CT_ST, 8, 8⟩
def CT_ST_SLVPORT : Fld := ⟨CT_ST, 7, 6⟩
def CT_ST_REFUSED : Fld := ⟨CT_ST, 5, 5⟩
def CT_ST_HOLDSEEN : Fld := ⟨CT_ST, 4, 4⟩
def CT_ST_STEPPED : Fld := ⟨CT_ST, 3, 3⟩
def CT_ST_MODE : Fld := ⟨CT_ST, 2, 0⟩
def CT_OFFSET : Nat := 0x061010
def CT_OFFSET_V : Fld := ⟨CT_OFFSET, 31, 0⟩
def CT_SERVO : Nat := 0x061014
def CT_SERVO_SLEWPPM : Fld := ⟨CT_SERVO, 31, 24⟩
def CT_SERVO_BW : Fld := ⟨CT_SERVO, 23, 16⟩
def CT_THR : Nat := 0x061018
def CT_THR_STEPTHR : Fld := ⟨CT_THR, 31, 16⟩
def CT_THR_LOCKTHR : Fld := ⟨CT_THR, 15, 0⟩
def CT_RATE : Nat := 0x06101C
def CT_RATE_V : Fld := ⟨CT_RATE, 31, 0⟩
def CT_SET : Nat := 0x061020
def CT_SET_V : Fld := ⟨CT_SET, 63, 0⟩
def CT_SETCTRL : Nat := 0x061028
def CT_SETCTRL_GO : Fld := ⟨CT_SETCTRL, 0, 0⟩
def CT_HOLDCNT : Nat := 0x06102C
def CT_HOLDCNT_V : Fld := ⟨CT_HOLDCNT, 31, 0⟩
def GPTP_CFG : Nat := 0x061100
def GPTP_CFG_PRIO1 : Fld := ⟨GPTP_CFG, 31, 24⟩
def GPTP_CFG_PRIO2 : Fld := ⟨GPTP_CFG, 23, 16⟩
def GPTP_CFG_GMCAP : Fld := ⟨GPTP_CFG, 15, 15⟩
def GPTP_CFG_EXTCFG : Fld := ⟨GPTP_CFG, 14, 14⟩
def GPTP_CFG_ROLE1 : Fld := ⟨GPTP_CFG, 13, 12⟩
def GPTP_CFG_ROLE0 : Fld := ⟨GPTP_CFG, 11, 10⟩
def GPTP_CFG_SYNCLOG : Fld := ⟨GPTP_CFG, 3, 0⟩
def GPTP_GMID : Nat := 0x061108
def GPTP_GMID_V : Fld := ⟨GPTP_GMID, 63, 0⟩
def GPTP_PDLY (i : Nat) : Nat := 0x061110 + 0x4 * i
def GPTP_PDLY_V (i : Nat) : Fld := ⟨GPTP_PDLY i, 31, 0⟩
def GPTP_NDTHR : Nat := 0x061118
def GPTP_NDTHR_V : Fld := ⟨GPTP_NDTHR, 31, 0⟩
def GPTP_DISC : Nat := 0x06111C
def GPTP_DISC_V : Fld := ⟨GPTP_DISC, 31, 0⟩

/-- The registers of block BB. -/
def regsBB : List RegDef := [
  ⟨0x0, 1, 4, true, 0, 0, 0, 0, 0, 0, 0⟩,
  ⟨0x8, 1, 4, false, 0x6C000000, 0xFFC00FFF, 0, 0, 0, 0, 0⟩,
  ⟨0xC, 1, 4, false, 0x88B5, 0xFFFF, 0, 0, 0, 0, 0⟩,
  ⟨0x10, 1, 4, false, 0, 0x13FFFFFF, 0, 0x20000000, 0, 0x80000000, 0⟩,
  ⟨0x800, 1, 4, true, 0, 0, 0, 0, 0, 0, 0⟩,
  ⟨0x808, 1, 4, false, 0x7D, 0x3FF, 0, 0x80000000, 0, 0, 0⟩,
  ⟨0x80C, 1, 4, false, 0, 0, 0, 0x38, 0, 0, 0⟩,
  ⟨0x810, 1, 4, false, 0, 0, 0, 0, 0, 0, 0⟩,
  ⟨0x814, 1, 4, false, 0x140A0000, 0xFFFF0000, 0, 0, 0, 0, 0⟩,
  ⟨0x818, 1, 4, false, 0x100C8, 0xFFFFFFFF, 0, 0, 0, 0, 0⟩,
  ⟨0x81C, 1, 4, false, 0, 0, 0, 0, 0, 0, 0⟩,
  ⟨0x820, 1, 4, true, 0, 0xFFFFFFFFFFFFFFFF, 0, 0, 0, 0, 0⟩,
  ⟨0x828, 1, 4, false, 0, 0, 0, 0, 0, 0x1, 0⟩,
  ⟨0x82C, 1, 4, false, 0, 0, 0, 0, 0, 0, 0⟩,
  ⟨0x900, 1, 4, false, 0xF8F8800D, 0xFFFFFC0F, 0, 0, 0, 0, 0⟩,
  ⟨0x908, 1, 4, true, 0, 0, 0, 0, 0, 0, 0⟩,
  ⟨0x910, 2, 4, false, 0, 0, 0, 0, 0, 0, 0⟩,
  ⟨0x918, 1, 4, false, 0x320, 0xFFFFFFFF, 0, 0, 0, 0, 0⟩,
  ⟨0x91C, 1, 4, false, 0, 0, 0, 0, 0, 0, 0⟩]

/-! ### Block AX: base 0x080000, 16 instances, stride 0x1000 (R14, R17, R26, R27, R33, R37, R38, R50, R52, R57, R59, R60, R61, R69, R71, R73, R75, R76, R79, R85, R104, R105, R106, R107, R131, R132, R216, R294, R401; 01_axis_fabric.md, 02_motion_planning.md, 03_current_control.md, 04_sensorless.md, 05_kondoeth_engines.md, 09_gate_drive.md, 13_register_access.md, 19_belay.md) -/

def AX_BIND (n : Nat) : Nat := 0x080000 + 0x1000 * n + 0x0
def AX_BIND_BRKBASE (n : Nat) : Fld := ⟨AX_BIND n, 26, 24⟩
def AX_BIND_BRKGRP (n : Nat) : Fld := ⟨AX_BIND n, 23, 22⟩
def AX_BIND_BRKEN (n : Nat) : Fld := ⟨AX_BIND n, 20, 20⟩
def AX_BIND_SOUT (n : Nat) : Fld := ⟨AX_BIND n, 18, 16⟩
def AX_BIND_FBEN (n : Nat) : Fld := ⟨AX_BIND n, 15, 15⟩
def AX_BIND_FBPORT (n : Nat) : Fld := ⟨AX_BIND n, 14, 12⟩
def AX_BIND_BASE (n : Nat) : Fld := ⟨AX_BIND n, 10, 8⟩
def AX_BIND_GRP (n : Nat) : Fld := ⟨AX_BIND n, 5, 4⟩
def AX_BIND_KIND (n : Nat) : Fld := ⟨AX_BIND n, 2, 0⟩
def AX_ENGSEL (n : Nat) : Nat := 0x080000 + 0x1000 * n + 0x4
def AX_ENGSEL_ESTEN (n : Nat) : Fld := ⟨AX_ENGSEL n, 13, 13⟩
def AX_ENGSEL_ESTENG (n : Nat) : Fld := ⟨AX_ENGSEL n, 12, 8⟩
def AX_ENGSEL_CTLEN (n : Nat) : Fld := ⟨AX_ENGSEL n, 5, 5⟩
def AX_ENGSEL_CTLENG (n : Nat) : Fld := ⟨AX_ENGSEL n, 4, 0⟩
def AX_STATE (n : Nat) : Nat := 0x080000 + 0x1000 * n + 0x8
def AX_STATE_STOPREASON (n : Nat) : Fld := ⟨AX_STATE n, 15, 12⟩
def AX_STATE_ERR (n : Nat) : Fld := ⟨AX_STATE n, 11, 8⟩
def AX_STATE_ENABLEPENDING (n : Nat) : Fld := ⟨AX_STATE n, 4, 4⟩
def AX_STATE_STATE (n : Nat) : Fld := ⟨AX_STATE n, 3, 0⟩
def AX_CTRL (n : Nat) : Nat := 0x080000 + 0x1000 * n + 0xC
def AX_CTRL_SVCIN (n : Nat) : Fld := ⟨AX_CTRL n, 4, 4⟩
def AX_CTRL_SVCOUT (n : Nat) : Fld := ⟨AX_CTRL n, 3, 3⟩
def AX_CTRL_CLEAR (n : Nat) : Fld := ⟨AX_CTRL n, 2, 2⟩
def AX_CTRL_DEENERGISE (n : Nat) : Fld := ⟨AX_CTRL n, 1, 1⟩
def AX_CTRL_ENERGISE (n : Nat) : Fld := ⟨AX_CTRL n, 0, 0⟩
def AX_MCFG (n : Nat) : Nat := 0x080000 + 0x1000 * n + 0x10
def AX_MCFG_CAPSRC (n : Nat) : Fld := ⟨AX_MCFG n, 5, 5⟩
def AX_MCFG_RAPEND (n : Nat) : Fld := ⟨AX_MCFG n, 4, 4⟩
def AX_MCFG_UNDER (n : Nat) : Fld := ⟨AX_MCFG n, 3, 3⟩
def AX_MCFG_UNREACH (n : Nat) : Fld := ⟨AX_MCFG n, 2, 2⟩
def AX_MCFG_SRC (n : Nat) : Fld := ⟨AX_MCFG n, 1, 0⟩
def AX_SWAP (n : Nat) : Nat := 0x080000 + 0x1000 * n + 0x14
def AX_SWAP_SWTOL (n : Nat) : Fld := ⟨AX_SWAP n, 31, 24⟩
def AX_SWAP_GAP (n : Nat) : Fld := ⟨AX_SWAP n, 23, 23⟩
def AX_SWAP_SHADOWN (n : Nat) : Fld := ⟨AX_SWAP n, 22, 16⟩
def AX_SWAP_ROUTE (n : Nat) : Fld := ⟨AX_SWAP n, 15, 8⟩
def AX_SWAP_GO (n : Nat) : Fld := ⟨AX_SWAP n, 7, 7⟩
def AX_SWAP_CANCEL (n : Nat) : Fld := ⟨AX_SWAP n, 6, 6⟩
def AX_SWAP_ROLE (n : Nat) : Fld := ⟨AX_SWAP n, 5, 5⟩
def AX_SWAP_TARGET (n : Nat) : Fld := ⟨AX_SWAP n, 4, 0⟩
def AX_SWAPST (n : Nat) : Nat := 0x080000 + 0x1000 * n + 0x18
def AX_SWAPST_SHADOWS (n : Nat) : Fld := ⟨AX_SWAPST n, 23, 16⟩
def AX_SWAPST_RESULT (n : Nat) : Fld := ⟨AX_SWAPST n, 15, 12⟩
def AX_SWAPST_GAPRUN (n : Nat) : Fld := ⟨AX_SWAPST n, 11, 11⟩
def AX_SWAPST_PHASE (n : Nat) : Fld := ⟨AX_SWAPST n, 3, 0⟩
def AX_CKP (n : Nat) : Nat := 0x080000 + 0x1000 * n + 0x1C
def AX_CKP_ESTAGE (n : Nat) : Fld := ⟨AX_CKP n, 31, 16⟩
def AX_CKP_CTLAGE (n : Nat) : Fld := ⟨AX_CKP n, 15, 0⟩
def AX_VMAX (n : Nat) : Nat := 0x080000 + 0x1000 * n + 0x20
def AX_VMAX_V (n : Nat) : Fld := ⟨AX_VMAX n, 63, 0⟩
def AX_AMAX (n : Nat) : Nat := 0x080000 + 0x1000 * n + 0x28
def AX_AMAX_V (n : Nat) : Fld := ⟨AX_AMAX n, 63, 0⟩
def AX_JMAX (n : Nat) : Nat := 0x080000 + 0x1000 * n + 0x30
def AX_JMAX_V (n : Nat) : Fld := ⟨AX_JMAX n, 63, 0⟩
def AX_RAPPEL_DEC (n : Nat) : Nat := 0x080000 + 0x1000 * n + 0x38
def AX_RAPPEL_DEC_V (n : Nat) : Fld := ⟨AX_RAPPEL_DEC n, 63, 0⟩
def AX_HOME_BACK (n : Nat) : Nat := 0x080000 + 0x1000 * n + 0x40
def AX_HOME_BACK_V (n : Nat) : Fld := ⟨AX_HOME_BACK n, 31, 0⟩
def AX_HOME_RANGE (n : Nat) : Nat := 0x080000 + 0x1000 * n + 0x44
def AX_HOME_RANGE_V (n : Nat) : Fld := ⟨AX_HOME_RANGE n, 31, 0⟩
def AX_SPB_HOLDOVER (n : Nat) : Nat := 0x080000 + 0x1000 * n + 0x48
def AX_SPB_HOLDOVER_V (n : Nat) : Fld := ⟨AX_SPB_HOLDOVER n, 15, 0⟩
def AX_SAG (n : Nat) : Nat := 0x080000 + 0x1000 * n + 0x4C
def AX_SAG_SAGBRK (n : Nat) : Fld := ⟨AX_SAG n, 0, 0⟩
def AX_HLR (n : Nat) : Nat := 0x080000 + 0x1000 * n + 0x50
def AX_HLR_HLR (n : Nat) : Fld := ⟨AX_HLR n, 1, 0⟩
def AX_RESTORE (n : Nat) : Nat := 0x080000 + 0x1000 * n + 0x54
def AX_RESTORE_PREVSTATE (n : Nat) : Fld := ⟨AX_RESTORE n, 11, 8⟩
def AX_RESTORE_PREVSTOP (n : Nat) : Fld := ⟨AX_RESTORE n, 7, 4⟩
def AX_RESTORE_MISMATCH (n : Nat) : Fld := ⟨AX_RESTORE n, 3, 3⟩
def AX_RESTORE_CONFIRMED (n : Nat) : Fld := ⟨AX_RESTORE n, 2, 2⟩
def AX_RESTORE_ACK (n : Nat) : Fld := ⟨AX_RESTORE n, 1, 1⟩
def AX_RESTORE_POSITIONASSUMED (n : Nat) : Fld := ⟨AX_RESTORE n, 0, 0⟩
def AX_RSTDIFF (n : Nat) : Nat := 0x080000 + 0x1000 * n + 0x58
def AX_RSTDIFF_V (n : Nat) : Fld := ⟨AX_RSTDIFF n, 63, 0⟩
def AX_SP_POS (n : Nat) : Nat := 0x080000 + 0x1000 * n + 0x80
def AX_SP_POS_V (n : Nat) : Fld := ⟨AX_SP_POS n, 63, 0⟩
def AX_SP_VEL (n : Nat) : Nat := 0x080000 + 0x1000 * n + 0x88
def AX_SP_VEL_V (n : Nat) : Fld := ⟨AX_SP_VEL n, 63, 0⟩
def AX_SP_ACC (n : Nat) : Nat := 0x080000 + 0x1000 * n + 0x90
def AX_SP_ACC_V (n : Nat) : Fld := ⟨AX_SP_ACC n, 63, 0⟩
def AX_SP_JERK (n : Nat) : Nat := 0x080000 + 0x1000 * n + 0x98
def AX_SP_JERK_V (n : Nat) : Fld := ⟨AX_SP_JERK n, 63, 0⟩
def AX_SP_TICK (n : Nat) : Nat := 0x080000 + 0x1000 * n + 0xA0
def AX_SP_TICK_V (n : Nat) : Fld := ⟨AX_SP_TICK n, 31, 0⟩
def AX_REBASE (n : Nat) : Nat := 0x080000 + 0x1000 * n + 0xA8
def AX_REBASE_V (n : Nat) : Fld := ⟨AX_REBASE n, 63, 0⟩
def AX_PITQ_IN (n i : Nat) : Nat := 0x080000 + 0x1000 * n + 0x100 + 0x4 * i
def AX_PITQ_IN_V (n i : Nat) : Fld := ⟨AX_PITQ_IN n i, 31, 0⟩
def AX_PITQ_LVL (n : Nat) : Nat := 0x080000 + 0x1000 * n + 0x120
def AX_PITQ_LVL_LEVEL (n : Nat) : Fld := ⟨AX_PITQ_LVL n, 6, 0⟩
def AX_PITQ_CTRL (n : Nat) : Nat := 0x080000 + 0x1000 * n + 0x124
def AX_PITQ_CTRL_LIMIT (n : Nat) : Fld := ⟨AX_PITQ_CTRL n, 14, 14⟩
def AX_PITQ_CTRL_HOMEFAIL (n : Nat) : Fld := ⟨AX_PITQ_CTRL n, 13, 13⟩
def AX_PITQ_CTRL_OVERSHOOT (n : Nat) : Fld := ⟨AX_PITQ_CTRL n, 12, 12⟩
def AX_PITQ_CTRL_UNREACH (n : Nat) : Fld := ⟨AX_PITQ_CTRL n, 11, 11⟩
def AX_PITQ_CTRL_BADPITCH (n : Nat) : Fld := ⟨AX_PITQ_CTRL n, 10, 10⟩
def AX_PITQ_CTRL_FULL (n : Nat) : Fld := ⟨AX_PITQ_CTRL n, 9, 9⟩
def AX_PITQ_CTRL_QHELD (n : Nat) : Fld := ⟨AX_PITQ_CTRL n, 8, 8⟩
def AX_PITQ_CTRL_GO (n : Nat) : Fld := ⟨AX_PITQ_CTRL n, 1, 1⟩
def AX_PITQ_CTRL_FLUSH (n : Nat) : Fld := ⟨AX_PITQ_CTRL n, 0, 0⟩
def AX_PITST (n : Nat) : Nat := 0x080000 + 0x1000 * n + 0x128
def AX_PITST_TAG (n : Nat) : Fld := ⟨AX_PITST n, 31, 16⟩
def AX_PITST_UNDERRUN (n : Nat) : Fld := ⟨AX_PITST n, 6, 6⟩
def AX_PITST_WAITSTART (n : Nat) : Fld := ⟨AX_PITST n, 5, 5⟩
def AX_PITST_ACTIVE (n : Nat) : Fld := ⟨AX_PITST n, 4, 4⟩
def AX_PITST_TYPE (n : Nat) : Fld := ⟨AX_PITST n, 3, 0⟩
def AX_PITSTART (n : Nat) : Nat := 0x080000 + 0x1000 * n + 0x12C
def AX_PITSTART_V (n : Nat) : Fld := ⟨AX_PITSTART n, 31, 0⟩
def AX_PITFLUSH (n : Nat) : Nat := 0x080000 + 0x1000 * n + 0x130
def AX_PITFLUSH_V (n : Nat) : Fld := ⟨AX_PITFLUSH n, 31, 0⟩
def AX_PITNEXT (n : Nat) : Nat := 0x080000 + 0x1000 * n + 0x134
def AX_PITNEXT_V (n : Nat) : Fld := ⟨AX_PITNEXT n, 31, 0⟩
def AX_LATE (n : Nat) : Nat := 0x080000 + 0x1000 * n + 0x138
def AX_LATE_V (n : Nat) : Fld := ⟨AX_LATE n, 31, 0⟩
def AX_UNDERRUN (n : Nat) : Nat := 0x080000 + 0x1000 * n + 0x13C
def AX_UNDERRUN_V (n : Nat) : Fld := ⟨AX_UNDERRUN n, 31, 0⟩
def AX_SPORD (n : Nat) : Nat := 0x080000 + 0x1000 * n + 0x140
def AX_SPORD_V (n : Nat) : Fld := ⟨AX_SPORD n, 31, 0⟩
def AX_SPDISC (n : Nat) : Nat := 0x080000 + 0x1000 * n + 0x144
def AX_SPDISC_V (n : Nat) : Fld := ⟨AX_SPDISC n, 31, 0⟩
def AX_GEAR_NUM (n : Nat) : Nat := 0x080000 + 0x1000 * n + 0x150
def AX_GEAR_NUM_V (n : Nat) : Fld := ⟨AX_GEAR_NUM n, 31, 0⟩
def AX_GEAR_DEN (n : Nat) : Nat := 0x080000 + 0x1000 * n + 0x154
def AX_GEAR_DEN_V (n : Nat) : Fld := ⟨AX_GEAR_DEN n, 31, 0⟩
def AX_GEAR_CTRL (n : Nat) : Nat := 0x080000 + 0x1000 * n + 0x158
def AX_GEAR_CTRL_REFUSED (n : Nat) : Fld := ⟨AX_GEAR_CTRL n, 4, 4⟩
def AX_GEAR_CTRL_LOAD (n : Nat) : Fld := ⟨AX_GEAR_CTRL n, 3, 3⟩
def AX_GEAR_CTRL_SISEL (n : Nat) : Fld := ⟨AX_GEAR_CTRL n, 2, 0⟩
def AX_GEAR_REM (n : Nat) : Nat := 0x080000 + 0x1000 * n + 0x15C
def AX_GEAR_REM_V (n : Nat) : Fld := ⟨AX_GEAR_REM n, 31, 0⟩
def AX_GEAR_ACC (n : Nat) : Nat := 0x080000 + 0x1000 * n + 0x160
def AX_GEAR_ACC_V (n : Nat) : Fld := ⟨AX_GEAR_ACC n, 63, 0⟩
def AX_GEAR_APPL (n : Nat) : Nat := 0x080000 + 0x1000 * n + 0x168
def AX_GEAR_APPL_V (n : Nat) : Fld := ⟨AX_GEAR_APPL n, 63, 0⟩
def AX_SPB_LVL (n : Nat) : Nat := 0x080000 + 0x1000 * n + 0x170
def AX_SPB_LVL_STARVED (n : Nat) : Fld := ⟨AX_SPB_LVL n, 9, 9⟩
def AX_SPB_LVL_FULL (n : Nat) : Fld := ⟨AX_SPB_LVL n, 8, 8⟩
def AX_SPB_LVL_LEVEL (n : Nat) : Fld := ⟨AX_SPB_LVL n, 4, 0⟩
def AX_SO_STEPAU (n : Nat) : Nat := 0x080000 + 0x1000 * n + 0x178
def AX_SO_STEPAU_V (n : Nat) : Fld := ⟨AX_SO_STEPAU n, 23, 0⟩
def AX_SO_BACKLOG (n : Nat) : Nat := 0x080000 + 0x1000 * n + 0x17C
def AX_SO_BACKLOG_V (n : Nat) : Fld := ⟨AX_SO_BACKLOG n, 31, 0⟩
def AX_SPB_IN0 (n : Nat) : Nat := 0x080000 + 0x1000 * n + 0x180
def AX_SPB_IN0_VELOK (n : Nat) : Fld := ⟨AX_SPB_IN0 n, 0, 0⟩
def AX_SPB_T (n : Nat) : Nat := 0x080000 + 0x1000 * n + 0x184
def AX_SPB_T_V (n : Nat) : Fld := ⟨AX_SPB_T n, 63, 0⟩
def AX_SPB_P (n : Nat) : Nat := 0x080000 + 0x1000 * n + 0x18C
def AX_SPB_P_V (n : Nat) : Fld := ⟨AX_SPB_P n, 63, 0⟩
def AX_SPB_V (n : Nat) : Nat := 0x080000 + 0x1000 * n + 0x194
def AX_SPB_V_V (n : Nat) : Fld := ⟨AX_SPB_V n, 63, 0⟩
def AX_CC_CFG (n : Nat) : Nat := 0x080000 + 0x1000 * n + 0x200
def AX_CC_CFG_HOLDDIV (n : Nat) : Fld := ⟨AX_CC_CFG n, 23, 16⟩
def AX_CC_CFG_VLIM (n : Nat) : Fld := ⟨AX_CC_CFG n, 15, 8⟩
def AX_CC_CFG_FF (n : Nat) : Fld := ⟨AX_CC_CFG n, 7, 7⟩
def AX_CC_CFG_DIR (n : Nat) : Fld := ⟨AX_CC_CFG n, 6, 6⟩
def AX_CC_CFG_DTC (n : Nat) : Fld := ⟨AX_CC_CFG n, 5, 5⟩
def AX_CC_CFG_UPD (n : Nat) : Fld := ⟨AX_CC_CFG n, 4, 4⟩
def AX_CC_CFG_ASRC (n : Nat) : Fld := ⟨AX_CC_CFG n, 2, 2⟩
def AX_CC_CFG_MODE (n : Nat) : Fld := ⟨AX_CC_CFG n, 1, 0⟩
def AX_CC_IRUN (n : Nat) : Nat := 0x080000 + 0x1000 * n + 0x204
def AX_CC_IRUN_V (n : Nat) : Fld := ⟨AX_CC_IRUN n, 15, 0⟩
def AX_CC_IHOLD (n : Nat) : Nat := 0x080000 + 0x1000 * n + 0x208
def AX_CC_IHOLD_V (n : Nat) : Fld := ⟨AX_CC_IHOLD n, 15, 0⟩
def AX_CC_HOLD (n : Nat) : Nat := 0x080000 + 0x1000 * n + 0x20C
def AX_CC_HOLD_HOLDDLY (n : Nat) : Fld := ⟨AX_CC_HOLD n, 15, 0⟩
def AX_CC_HOLD_HOLDRAMP (n : Nat) : Fld := ⟨AX_CC_HOLD n, 31, 16⟩
def AX_CC_KP (n : Nat) : Nat := 0x080000 + 0x1000 * n + 0x210
def AX_CC_KP_V (n : Nat) : Fld := ⟨AX_CC_KP n, 31, 0⟩
def AX_CC_KI (n : Nat) : Nat := 0x080000 + 0x1000 * n + 0x214
def AX_CC_KI_V (n : Nat) : Fld := ⟨AX_CC_KI n, 31, 0⟩
def AX_CC_MOTOR (n : Nat) : Nat := 0x080000 + 0x1000 * n + 0x218
def AX_CC_MOTOR_RW (n : Nat) : Fld := ⟨AX_CC_MOTOR n, 15, 0⟩
def AX_CC_MOTOR_LW (n : Nat) : Fld := ⟨AX_CC_MOTOR n, 31, 16⟩
def AX_CC_KE (n : Nat) : Nat := 0x080000 + 0x1000 * n + 0x21C
def AX_CC_KE_V (n : Nat) : Fld := ⟨AX_CC_KE n, 15, 0⟩
def AX_CC_IDTZ (n : Nat) : Nat := 0x080000 + 0x1000 * n + 0x220
def AX_CC_IDTZ_V (n : Nat) : Fld := ⟨AX_CC_IDTZ n, 15, 0⟩
def AX_CC_DBIAS (n : Nat) : Nat := 0x080000 + 0x1000 * n + 0x224
def AX_CC_DBIAS_V (n : Nat) : Fld := ⟨AX_CC_DBIAS n, 15, 0⟩
def AX_CC_ANGOFS (n : Nat) : Nat := 0x080000 + 0x1000 * n + 0x228
def AX_CC_ANGOFS_V (n : Nat) : Fld := ⟨AX_CC_ANGOFS n, 15, 0⟩
def AX_PL_KPP (n : Nat) : Nat := 0x080000 + 0x1000 * n + 0x230
def AX_PL_KPP_V (n : Nat) : Fld := ⟨AX_PL_KPP n, 31, 0⟩
def AX_PL_KPV (n : Nat) : Nat := 0x080000 + 0x1000 * n + 0x234
def AX_PL_KPV_V (n : Nat) : Fld := ⟨AX_PL_KPV n, 31, 0⟩
def AX_PL_KIV (n : Nat) : Nat := 0x080000 + 0x1000 * n + 0x238
def AX_PL_KIV_V (n : Nat) : Fld := ⟨AX_PL_KIV n, 31, 0⟩
def AX_PL_KFA (n : Nat) : Nat := 0x080000 + 0x1000 * n + 0x23C
def AX_PL_KFA_V (n : Nat) : Fld := ⟨AX_PL_KFA n, 31, 0⟩
def AX_PL_FERR (n : Nat) : Nat := 0x080000 + 0x1000 * n + 0x240
def AX_PL_FERR_V (n : Nat) : Fld := ⟨AX_PL_FERR n, 31, 0⟩
def AX_CC_PSTAGE (n : Nat) : Nat := 0x080000 + 0x1000 * n + 0x244
def AX_CC_PSTAGE_PEND (n : Nat) : Fld := ⟨AX_CC_PSTAGE n, 2, 2⟩
def AX_CC_PSTAGE_APPLY (n : Nat) : Fld := ⟨AX_CC_PSTAGE n, 1, 1⟩
def AX_CC_PSTAGE_HOLDW (n : Nat) : Fld := ⟨AX_CC_PSTAGE n, 0, 0⟩
def AX_CC_CAL (n : Nat) : Nat := 0x080000 + 0x1000 * n + 0x250
def AX_CC_CAL_FAILCODE (n : Nat) : Fld := ⟨AX_CC_CAL n, 15, 12⟩
def AX_CC_CAL_FAIL (n : Nat) : Fld := ⟨AX_CC_CAL n, 10, 10⟩
def AX_CC_CAL_DONE (n : Nat) : Fld := ⟨AX_CC_CAL n, 9, 9⟩
def AX_CC_CAL_BUSY (n : Nat) : Fld := ⟨AX_CC_CAL n, 8, 8⟩
def AX_CC_CAL_ALIGN (n : Nat) : Fld := ⟨AX_CC_CAL n, 2, 2⟩
def AX_CC_CAL_KCAL (n : Nat) : Fld := ⟨AX_CC_CAL n, 1, 1⟩
def AX_CC_CAL_OFSCAL (n : Nat) : Fld := ⟨AX_CC_CAL n, 0, 0⟩
def AX_CC_KCALI (n : Nat) : Nat := 0x080000 + 0x1000 * n + 0x254
def AX_CC_KCALI_V (n : Nat) : Fld := ⟨AX_CC_KCALI n, 15, 0⟩
def AX_CC_ID (n : Nat) : Nat := 0x080000 + 0x1000 * n + 0x260
def AX_CC_ID_V (n : Nat) : Fld := ⟨AX_CC_ID n, 15, 0⟩
def AX_CC_IQ (n : Nat) : Nat := 0x080000 + 0x1000 * n + 0x264
def AX_CC_IQ_V (n : Nat) : Fld := ⟨AX_CC_IQ n, 15, 0⟩
def AX_CC_VDQ (n : Nat) : Nat := 0x080000 + 0x1000 * n + 0x268
def AX_CC_VDQ_VQ (n : Nat) : Fld := ⟨AX_CC_VDQ n, 31, 16⟩
def AX_CC_VDQ_VD (n : Nat) : Fld := ⟨AX_CC_VDQ n, 15, 0⟩
def AX_CC_ANGLE (n : Nat) : Nat := 0x080000 + 0x1000 * n + 0x26C
def AX_CC_ANGLE_V (n : Nat) : Fld := ⟨AX_CC_ANGLE n, 15, 0⟩
def AX_CC_IRES (n : Nat) : Nat := 0x080000 + 0x1000 * n + 0x270
def AX_CC_IRES_V (n : Nat) : Fld := ⟨AX_CC_IRES n, 31, 0⟩
def AX_CC_WDSKIP (n : Nat) : Nat := 0x080000 + 0x1000 * n + 0x274
def AX_CC_WDSKIP_V (n : Nat) : Fld := ⟨AX_CC_WDSKIP n, 31, 0⟩
def AX_CC_ST (n : Nat) : Nat := 0x080000 + 0x1000 * n + 0x278
def AX_CC_ST_HOLDING (n : Nat) : Fld := ⟨AX_CC_ST n, 4, 4⟩
def AX_CC_ST_LOWRATE (n : Nat) : Fld := ⟨AX_CC_ST n, 3, 3⟩
def AX_CC_ST_ISAT (n : Nat) : Fld := ⟨AX_CC_ST n, 2, 2⟩
def AX_CC_ST_ILIM (n : Nat) : Fld := ⟨AX_CC_ST n, 1, 1⟩
def AX_CC_ST_VSAT (n : Nat) : Fld := ⟨AX_CC_ST n, 0, 0⟩
def AX_CC_IPH (n i : Nat) : Nat := 0x080000 + 0x1000 * n + 0x280 + 0x4 * i
def AX_CC_IPH_V (n i : Nat) : Fld := ⟨AX_CC_IPH n i, 31, 0⟩
def AX_BRK_CFG (n : Nat) : Nat := 0x080000 + 0x1000 * n + 0x2A0
def AX_BRK_CFG_DECAY (n : Nat) : Fld := ⟨AX_BRK_CFG n, 2, 2⟩
def AX_BRK_CFG_POL (n : Nat) : Fld := ⟨AX_BRK_CFG n, 1, 1⟩
def AX_BRK_V (n : Nat) : Nat := 0x080000 + 0x1000 * n + 0x2A4
def AX_BRK_V_PULLMV (n : Nat) : Fld := ⟨AX_BRK_V n, 15, 0⟩
def AX_BRK_V_HOLDMV (n : Nat) : Fld := ⟨AX_BRK_V n, 31, 16⟩
def AX_BRK_T (n : Nat) : Nat := 0x080000 + 0x1000 * n + 0x2A8
def AX_BRK_T_TPULL (n : Nat) : Fld := ⟨AX_BRK_T n, 15, 0⟩
def AX_BRK_T_TENG (n : Nat) : Fld := ⟨AX_BRK_T n, 31, 16⟩
def AX_BRK_ST (n : Nat) : Nat := 0x080000 + 0x1000 * n + 0x2AC
def AX_BRK_ST_VCLIP (n : Nat) : Fld := ⟨AX_BRK_ST n, 4, 4⟩
def AX_BRK_ST_BRKWAIT (n : Nat) : Fld := ⟨AX_BRK_ST n, 3, 3⟩
def AX_BRK_ST_BSTATE (n : Nat) : Fld := ⟨AX_BRK_ST n, 2, 0⟩
def AX_PR_CFG (n : Nat) : Nat := 0x080000 + 0x1000 * n + 0x300
def AX_PR_CFG_REN (n : Nat) : Fld := ⟨AX_PR_CFG n, 23, 16⟩
def AX_PR_CFG_SLIP (n : Nat) : Fld := ⟨AX_PR_CFG n, 15, 8⟩
def AX_PR_CFG_AUTOCL (n : Nat) : Fld := ⟨AX_PR_CFG n, 7, 7⟩
def AX_PR_CFG_FALLBK (n : Nat) : Fld := ⟨AX_PR_CFG n, 6, 6⟩
def AX_PR_CFG_HINJ (n : Nat) : Fld := ⟨AX_PR_CFG n, 5, 5⟩
def AX_PR_CFG_CSLIP (n : Nat) : Fld := ⟨AX_PR_CFG n, 4, 4⟩
def AX_PR_CFG_CDELTA (n : Nat) : Fld := ⟨AX_PR_CFG n, 3, 3⟩
def AX_PR_CFG_POLEN (n : Nat) : Fld := ⟨AX_PR_CFG n, 2, 2⟩
def AX_PR_CFG_INJEN (n : Nat) : Fld := ⟨AX_PR_CFG n, 1, 1⟩
def AX_PR_OBS (n : Nat) : Nat := 0x080000 + 0x1000 * n + 0x304
def AX_PR_OBS_BWOBS (n : Nat) : Fld := ⟨AX_PR_OBS n, 15, 0⟩
def AX_PR_OBS_OBSK (n : Nat) : Fld := ⟨AX_PR_OBS n, 23, 16⟩
def AX_PR_PLL (n : Nat) : Nat := 0x080000 + 0x1000 * n + 0x308
def AX_PR_PLL_BWPLL (n : Nat) : Fld := ⟨AX_PR_PLL n, 15, 0⟩
def AX_PR_INJ (n : Nat) : Nat := 0x080000 + 0x1000 * n + 0x30C
def AX_PR_INJ_VINJ (n : Nat) : Fld := ⟨AX_PR_INJ n, 15, 0⟩
def AX_PR_INJ_FINJ (n : Nat) : Fld := ⟨AX_PR_INJ n, 31, 16⟩
def AX_PR_BAND (n : Nat) : Nat := 0x080000 + 0x1000 * n + 0x310
def AX_PR_BAND_FLO (n : Nat) : Fld := ⟨AX_PR_BAND n, 15, 0⟩
def AX_PR_BAND_FHI (n : Nat) : Fld := ⟨AX_PR_BAND n, 31, 16⟩
def AX_PR_DELTA (n : Nat) : Nat := 0x080000 + 0x1000 * n + 0x314
def AX_PR_DELTA_DELTAST (n : Nat) : Fld := ⟨AX_PR_DELTA n, 15, 0⟩
def AX_PR_DELTA_DELTAHYS (n : Nat) : Fld := ⟨AX_PR_DELTA n, 31, 16⟩
def AX_PR_STALL (n : Nat) : Nat := 0x080000 + 0x1000 * n + 0x318
def AX_PR_STALL_STALLANG (n : Nat) : Fld := ⟨AX_PR_STALL n, 15, 0⟩
def AX_PR_L (n : Nat) : Nat := 0x080000 + 0x1000 * n + 0x31C
def AX_PR_L_LD (n : Nat) : Fld := ⟨AX_PR_L n, 15, 0⟩
def AX_PR_L_LQ (n : Nat) : Fld := ⟨AX_PR_L n, 31, 16⟩
def AX_PR_LOCK (n : Nat) : Nat := 0x080000 + 0x1000 * n + 0x320
def AX_PR_LOCK_LOCKMS (n : Nat) : Fld := ⟨AX_PR_LOCK n, 15, 0⟩
def AX_PR_CTRL (n : Nat) : Nat := 0x080000 + 0x1000 * n + 0x324
def AX_PR_CTRL_FAILCODE (n : Nat) : Fld := ⟨AX_PR_CTRL n, 15, 12⟩
def AX_PR_CTRL_FAIL (n : Nat) : Fld := ⟨AX_PR_CTRL n, 10, 10⟩
def AX_PR_CTRL_DONE (n : Nat) : Fld := ⟨AX_PR_CTRL n, 9, 9⟩
def AX_PR_CTRL_BUSY (n : Nat) : Fld := ⟨AX_PR_CTRL n, 8, 8⟩
def AX_PR_CTRL_RESEARCH (n : Nat) : Fld := ⟨AX_PR_CTRL n, 2, 2⟩
def AX_PR_CTRL_RESUMECL (n : Nat) : Fld := ⟨AX_PR_CTRL n, 1, 1⟩
def AX_PR_CTRL_IDENT (n : Nat) : Fld := ⟨AX_PR_CTRL n, 0, 0⟩
def AX_PR_ST (n : Nat) : Nat := 0x080000 + 0x1000 * n + 0x340
def AX_PR_ST_EMODE (n : Nat) : Fld := ⟨AX_PR_ST n, 19, 16⟩
def AX_PR_ST_FALLBACK (n : Nat) : Fld := ⟨AX_PR_ST n, 9, 9⟩
def AX_PR_ST_VALID (n : Nat) : Fld := ⟨AX_PR_ST n, 8, 8⟩
def AX_PR_ST_OVERSPD (n : Nat) : Fld := ⟨AX_PR_ST n, 7, 7⟩
def AX_PR_ST_MODEL (n : Nat) : Fld := ⟨AX_PR_ST n, 6, 6⟩
def AX_PR_ST_EMFLOW (n : Nat) : Fld := ⟨AX_PR_ST n, 5, 5⟩
def AX_PR_ST_INJSAT (n : Nat) : Fld := ⟨AX_PR_ST n, 4, 4⟩
def AX_PR_ST_LOWSAL (n : Nat) : Fld := ⟨AX_PR_ST n, 3, 3⟩
def AX_PR_ST_POLFAIL (n : Nat) : Fld := ⟨AX_PR_ST n, 2, 2⟩
def AX_PR_ST_SEARCHFAIL (n : Nat) : Fld := ⟨AX_PR_ST n, 1, 1⟩
def AX_PR_ST_STALLED (n : Nat) : Fld := ⟨AX_PR_ST n, 0, 0⟩
def AX_PR_ANG (n : Nat) : Nat := 0x080000 + 0x1000 * n + 0x344
def AX_PR_ANG_THETA (n : Nat) : Fld := ⟨AX_PR_ANG n, 15, 0⟩
def AX_PR_ANG_LOADANG (n : Nat) : Fld := ⟨AX_PR_ANG n, 31, 16⟩
def AX_PR_EMF (n : Nat) : Nat := 0x080000 + 0x1000 * n + 0x348
def AX_PR_EMF_V (n : Nat) : Fld := ⟨AX_PR_EMF n, 15, 0⟩
def AX_PR_SAL (n : Nat) : Nat := 0x080000 + 0x1000 * n + 0x34C
def AX_PR_SAL_V (n : Nat) : Fld := ⟨AX_PR_SAL n, 15, 0⟩
def AX_PR_VEL (n : Nat) : Nat := 0x080000 + 0x1000 * n + 0x350
def AX_PR_VEL_V (n : Nat) : Fld := ⟨AX_PR_VEL n, 63, 0⟩
def AX_PR_POS (n : Nat) : Nat := 0x080000 + 0x1000 * n + 0x358
def AX_PR_POS_V (n : Nat) : Fld := ⟨AX_PR_POS n, 63, 0⟩
def AX_PR_STALLCNT (n : Nat) : Nat := 0x080000 + 0x1000 * n + 0x360
def AX_PR_STALLCNT_V (n : Nat) : Fld := ⟨AX_PR_STALLCNT n, 31, 0⟩
def AX_PR_STPOS (n : Nat) : Nat := 0x080000 + 0x1000 * n + 0x368
def AX_PR_STPOS_V (n : Nat) : Fld := ⟨AX_PR_STPOS n, 63, 0⟩
def AX_PR_STTIME (n : Nat) : Nat := 0x080000 + 0x1000 * n + 0x370
def AX_PR_STTIME_V (n : Nat) : Fld := ⟨AX_PR_STTIME n, 63, 0⟩

/-- The registers of block AX. -/
def regsAX : List RegDef := [
  ⟨0x0, 1, 4, false, 0, 0, 0x7D7F737, 0, 0, 0, 0⟩,
  ⟨0x4, 1, 4, false, 0, 0, 0x3F3F, 0, 0, 0, 0⟩,
  ⟨0x8, 1, 4, false, 0, 0, 0, 0, 0xF00, 0, 0⟩,
  ⟨0xC, 1, 4, false, 0, 0, 0, 0, 0, 0, 0x1F⟩,
  ⟨0x10, 1, 4, false, 0, 0, 0x3F, 0, 0, 0, 0⟩,
  ⟨0x14, 1, 4, false, 0x802FF00, 0, 0xFFFFFF3F, 0, 0, 0, 0xC0⟩,
  ⟨0x18, 1, 4, false, 0, 0, 0, 0x800, 0, 0, 0⟩,
  ⟨0x1C, 1, 4, false, 0xFFFFFFFF, 0, 0, 0, 0, 0, 0⟩,
  ⟨0x20, 1, 4, true, 0, 0, 0xFFFFFFFFFFFFFFFF, 0, 0, 0, 0⟩,
  ⟨0x28, 1, 4, true, 0, 0, 0xFFFFFFFFFFFFFFFF, 0, 0, 0, 0⟩,
  ⟨0x30, 1, 4, true, 0, 0, 0xFFFFFFFFFFFFFFFF, 0, 0, 0, 0⟩,
  ⟨0x38, 1, 4, true, 0, 0, 0xFFFFFFFFFFFFFFFF, 0, 0, 0, 0⟩,
  ⟨0x40, 1, 4, false, 0x4000, 0, 0xFFFFFFFF, 0, 0, 0, 0⟩,
  ⟨0x44, 1, 4, false, 0, 0, 0xFFFFFFFF, 0, 0, 0, 0⟩,
  ⟨0x48, 1, 4, false, 0x8, 0, 0xFFFF, 0, 0, 0, 0⟩,
  ⟨0x4C, 1, 4, false, 0, 0, 0x1, 0, 0, 0, 0⟩,
  ⟨0x50, 1, 4, false, 0x1, 0, 0x3, 0, 0, 0, 0⟩,
  ⟨0x54, 1, 4, false, 0, 0, 0, 0x4, 0, 0, 0x2⟩,
  ⟨0x58, 1, 4, true, 0, 0, 0, 0, 0, 0, 0⟩,
  ⟨0x80, 1, 4, true, 0, 0, 0, 0, 0, 0, 0⟩,
  ⟨0x88, 1, 4, true, 0, 0, 0, 0, 0, 0, 0⟩,
  ⟨0x90, 1, 4, true, 0, 0, 0, 0, 0, 0, 0⟩,
  ⟨0x98, 1, 4, true, 0, 0, 0, 0, 0, 0, 0⟩,
  ⟨0xA0, 1, 4, false, 0, 0, 0, 0, 0, 0, 0⟩,
  ⟨0xA8, 1, 4, true, 0, 0, 0, 0, 0, 0, 0⟩,
  ⟨0x100, 8, 4, false, 0, 0, 0xFFFFFFFF, 0, 0, 0, 0⟩,
  ⟨0x120, 1, 4, false, 0, 0, 0, 0, 0, 0, 0⟩,
  ⟨0x124, 1, 4, false, 0, 0, 0, 0x7E00, 0, 0, 0x3⟩,
  ⟨0x128, 1, 4, false, 0, 0, 0, 0, 0, 0, 0⟩,
  ⟨0x12C, 1, 4, false, 0, 0, 0, 0, 0, 0, 0⟩] ++ [
  ⟨0x130, 1, 4, false, 0, 0, 0, 0, 0, 0, 0⟩,
  ⟨0x134, 1, 4, false, 0, 0, 0, 0, 0, 0, 0⟩,
  ⟨0x138, 1, 4, false, 0, 0, 0, 0, 0, 0, 0⟩,
  ⟨0x13C, 1, 4, false, 0, 0, 0, 0, 0, 0, 0⟩,
  ⟨0x140, 1, 4, false, 0, 0, 0, 0, 0, 0, 0⟩,
  ⟨0x144, 1, 4, false, 0, 0, 0, 0, 0, 0, 0⟩,
  ⟨0x150, 1, 4, false, 0x1, 0, 0xFFFFFFFF, 0, 0, 0, 0⟩,
  ⟨0x154, 1, 4, false, 0x1, 0, 0xFFFFFFFF, 0, 0, 0, 0⟩,
  ⟨0x158, 1, 4, false, 0, 0, 0x7, 0x10, 0, 0, 0x8⟩,
  ⟨0x15C, 1, 4, false, 0, 0, 0, 0, 0, 0, 0⟩,
  ⟨0x160, 1, 4, true, 0, 0, 0, 0, 0, 0, 0⟩,
  ⟨0x168, 1, 4, true, 0, 0, 0, 0, 0, 0, 0⟩,
  ⟨0x170, 1, 4, false, 0, 0, 0, 0x100, 0, 0, 0⟩,
  ⟨0x178, 1, 4, false, 0x400, 0, 0xFFFFFF, 0, 0, 0, 0⟩,
  ⟨0x17C, 1, 4, false, 0, 0, 0, 0, 0, 0, 0⟩,
  ⟨0x180, 1, 4, false, 0, 0, 0x1, 0, 0, 0, 0⟩,
  ⟨0x184, 1, 4, true, 0, 0, 0xFFFFFFFFFFFFFFFF, 0, 0, 0, 0⟩,
  ⟨0x18C, 1, 4, true, 0, 0, 0xFFFFFFFFFFFFFFFF, 0, 0, 0, 0⟩,
  ⟨0x194, 1, 4, true, 0, 0, 0xFFFFFFFFFFFFFFFF, 0, 0, 0, 0⟩,
  ⟨0x200, 1, 4, false, 0x45FA0, 0, 0xFFFFF7, 0, 0, 0, 0⟩,
  ⟨0x204, 1, 4, false, 0, 0, 0xFFFF, 0, 0, 0, 0⟩,
  ⟨0x208, 1, 4, false, 0, 0, 0xFFFF, 0, 0, 0, 0⟩,
  ⟨0x20C, 1, 4, false, 0x1900064, 0, 0xFFFFFFFF, 0, 0, 0, 0⟩,
  ⟨0x210, 1, 4, false, 0, 0, 0xFFFFFFFF, 0, 0, 0, 0⟩,
  ⟨0x214, 1, 4, false, 0, 0, 0xFFFFFFFF, 0, 0, 0, 0⟩,
  ⟨0x218, 1, 4, false, 0, 0, 0xFFFFFFFF, 0, 0, 0, 0⟩,
  ⟨0x21C, 1, 4, false, 0, 0, 0xFFFF, 0, 0, 0, 0⟩,
  ⟨0x220, 1, 4, false, 0x32, 0, 0xFFFF, 0, 0, 0, 0⟩,
  ⟨0x224, 1, 4, false, 0, 0, 0xFFFF, 0, 0, 0, 0⟩,
  ⟨0x228, 1, 4, false, 0, 0, 0xFFFF, 0, 0, 0, 0⟩] ++ [
  ⟨0x230, 1, 4, false, 0, 0, 0xFFFFFFFF, 0, 0, 0, 0⟩,
  ⟨0x234, 1, 4, false, 0, 0, 0xFFFFFFFF, 0, 0, 0, 0⟩,
  ⟨0x238, 1, 4, false, 0, 0, 0xFFFFFFFF, 0, 0, 0, 0⟩,
  ⟨0x23C, 1, 4, false, 0, 0, 0xFFFFFFFF, 0, 0, 0, 0⟩,
  ⟨0x240, 1, 4, false, 0, 0, 0xFFFFFFFF, 0, 0, 0, 0⟩,
  ⟨0x244, 1, 4, false, 0, 0, 0x1, 0, 0, 0, 0x2⟩,
  ⟨0x250, 1, 4, false, 0, 0, 0, 0x600, 0, 0, 0x7⟩,
  ⟨0x254, 1, 4, false, 0x1F4, 0, 0xFFFF, 0, 0, 0, 0⟩,
  ⟨0x260, 1, 4, false, 0, 0, 0, 0, 0, 0, 0⟩,
  ⟨0x264, 1, 4, false, 0, 0, 0, 0, 0, 0, 0⟩,
  ⟨0x268, 1, 4, false, 0, 0, 0, 0, 0, 0, 0⟩,
  ⟨0x26C, 1, 4, false, 0, 0, 0, 0, 0, 0, 0⟩,
  ⟨0x270, 1, 4, false, 0, 0, 0, 0, 0, 0, 0⟩,
  ⟨0x274, 1, 4, false, 0, 0, 0, 0, 0, 0, 0⟩,
  ⟨0x278, 1, 4, false, 0, 0, 0, 0, 0, 0, 0⟩,
  ⟨0x280, 5, 4, false, 0, 0, 0, 0, 0, 0, 0⟩,
  ⟨0x2A0, 1, 4, false, 0, 0, 0x6, 0, 0, 0, 0⟩,
  ⟨0x2A4, 1, 4, false, 0, 0, 0xFFFFFFFF, 0, 0, 0, 0⟩,
  ⟨0x2A8, 1, 4, false, 0x640064, 0, 0xFFFFFFFF, 0, 0, 0, 0⟩,
  ⟨0x2AC, 1, 4, false, 0, 0, 0, 0, 0, 0, 0⟩,
  ⟨0x300, 1, 4, false, 0x101E1E, 0, 0xFFFFFE, 0, 0, 0, 0⟩,
  ⟨0x304, 1, 4, false, 0x800C8, 0, 0xFFFFFF, 0, 0, 0, 0⟩,
  ⟨0x308, 1, 4, false, 0x64, 0, 0xFFFF, 0, 0, 0, 0⟩,
  ⟨0x30C, 1, 4, false, 0x7D007D0, 0, 0xFFFFFFFF, 0, 0, 0, 0⟩,
  ⟨0x310, 1, 4, false, 0x1E0014, 0, 0xFFFFFFFF, 0, 0, 0, 0⟩,
  ⟨0x314, 1, 4, false, 0xE3938E4, 0, 0xFFFFFFFF, 0, 0, 0, 0⟩,
  ⟨0x318, 1, 4, false, 0x800, 0, 0xFFFF, 0, 0, 0, 0⟩,
  ⟨0x31C, 1, 4, false, 0, 0, 0xFFFFFFFF, 0, 0, 0, 0⟩,
  ⟨0x320, 1, 4, false, 0xC8, 0, 0xFFFF, 0, 0, 0, 0⟩,
  ⟨0x324, 1, 4, false, 0, 0, 0, 0x600, 0, 0, 0x7⟩] ++ [
  ⟨0x340, 1, 4, false, 0, 0, 0, 0x7, 0, 0, 0⟩,
  ⟨0x344, 1, 4, false, 0, 0, 0, 0, 0, 0, 0⟩,
  ⟨0x348, 1, 4, false, 0, 0, 0, 0, 0, 0, 0⟩,
  ⟨0x34C, 1, 4, false, 0, 0, 0, 0, 0, 0, 0⟩,
  ⟨0x350, 1, 4, true, 0, 0, 0, 0, 0, 0, 0⟩,
  ⟨0x358, 1, 4, true, 0, 0, 0, 0, 0, 0, 0⟩,
  ⟨0x360, 1, 4, false, 0, 0, 0, 0, 0, 0, 0⟩,
  ⟨0x368, 1, 4, true, 0, 0, 0, 0, 0, 0, 0⟩,
  ⟨0x370, 1, 4, true, 0, 0, 0, 0, 0, 0, 0⟩]

/-! ### Block KE: base 0x100000, 20 instances, stride 0x2000 (R123, R124, R125, R129; 05_kondoeth_engines.md) -/

def KE_CTRL (e : Nat) : Nat := 0x100000 + 0x2000 * e + 0x0
def KE_CTRL_ROUTE (e : Nat) : Fld := ⟨KE_CTRL e, 15, 8⟩
def KE_CTRL_HALT (e : Nat) : Fld := ⟨KE_CTRL e, 2, 2⟩
def KE_CTRL_START (e : Nat) : Fld := ⟨KE_CTRL e, 1, 1⟩
def KE_CTRL_LOAD (e : Nat) : Fld := ⟨KE_CTRL e, 0, 0⟩
def KE_STATUS (e : Nat) : Nat := 0x100000 + 0x2000 * e + 0x4
def KE_STATUS_TRAP (e : Nat) : Fld := ⟨KE_STATUS e, 31, 28⟩
def KE_STATUS_ERR (e : Nat) : Fld := ⟨KE_STATUS e, 27, 24⟩
def KE_STATUS_SLOT (e : Nat) : Fld := ⟨KE_STATUS e, 19, 16⟩
def KE_STATUS_ROLE (e : Nat) : Fld := ⟨KE_STATUS e, 15, 14⟩
def KE_STATUS_POOL (e : Nat) : Fld := ⟨KE_STATUS e, 13, 12⟩
def KE_STATUS_LOADED (e : Nat) : Fld := ⟨KE_STATUS e, 7, 7⟩
def KE_STATUS_RUN (e : Nat) : Fld := ⟨KE_STATUS e, 2, 0⟩
def KE_ISA (e : Nat) : Nat := 0x100000 + 0x2000 * e + 0x8
def KE_ISA_ISA (e : Nat) : Fld := ⟨KE_ISA e, 31, 24⟩
def KE_ISA_RIDX (e : Nat) : Fld := ⟨KE_ISA e, 23, 16⟩
def KE_ISA_EPOCH (e : Nat) : Fld := ⟨KE_ISA e, 15, 0⟩
def KE_CYC (e : Nat) : Nat := 0x100000 + 0x2000 * e + 0xC
def KE_CYC_CYCMAX (e : Nat) : Fld := ⟨KE_CYC e, 31, 16⟩
def KE_CYC_CYCLAST (e : Nat) : Fld := ⟨KE_CYC e, 15, 0⟩
def KE_OVERRUN (e : Nat) : Nat := 0x100000 + 0x2000 * e + 0x10
def KE_OVERRUN_V (e : Nat) : Fld := ⟨KE_OVERRUN e, 31, 0⟩
def KE_LATEWAIT (e : Nat) : Nat := 0x100000 + 0x2000 * e + 0x14
def KE_LATEWAIT_V (e : Nat) : Fld := ⟨KE_LATEWAIT e, 31, 0⟩
def KE_ECC (e : Nat) : Nat := 0x100000 + 0x2000 * e + 0x18
def KE_ECC_UE (e : Nat) : Fld := ⟨KE_ECC e, 31, 31⟩
def KE_ECC_MEM (e : Nat) : Fld := ⟨KE_ECC e, 30, 28⟩
def KE_ECC_CECNT (e : Nat) : Fld := ⟨KE_ECC e, 15, 0⟩
def KE_ECCADR (e : Nat) : Nat := 0x100000 + 0x2000 * e + 0x1C
def KE_ECCADR_V (e : Nat) : Fld := ⟨KE_ECCADR e, 31, 0⟩
def KE_TRCFG (e : Nat) : Nat := 0x100000 + 0x2000 * e + 0x100
def KE_TRCFG_POST (e : Nat) : Fld := ⟨KE_TRCFG e, 27, 16⟩
def KE_TRCFG_TRPRED (e : Nat) : Fld := ⟨KE_TRCFG e, 11, 9⟩
def KE_TRCFG_TREVT (e : Nat) : Fld := ⟨KE_TRCFG e, 8, 8⟩
def KE_TRCFG_STATE (e : Nat) : Fld := ⟨KE_TRCFG e, 5, 4⟩
def KE_TRCFG_FORCE (e : Nat) : Fld := ⟨KE_TRCFG e, 3, 3⟩
def KE_TRCFG_DROP (e : Nat) : Fld := ⟨KE_TRCFG e, 2, 2⟩
def KE_TRCFG_STOP (e : Nat) : Fld := ⟨KE_TRCFG e, 1, 1⟩
def KE_TRCFG_ARM (e : Nat) : Fld := ⟨KE_TRCFG e, 0, 0⟩
def KE_TRPOS (e : Nat) : Nat := 0x100000 + 0x2000 * e + 0x104
def KE_TRPOS_TRIGIDX (e : Nat) : Fld := ⟨KE_TRPOS e, 27, 16⟩
def KE_TRPOS_COUNT (e : Nat) : Fld := ⟨KE_TRPOS e, 12, 0⟩
def KE_TRTIME (e : Nat) : Nat := 0x100000 + 0x2000 * e + 0x108
def KE_TRTIME_V (e : Nat) : Fld := ⟨KE_TRTIME e, 63, 0⟩
def KE_TRPAGE (e : Nat) : Nat := 0x100000 + 0x2000 * e + 0x110
def KE_TRPAGE_PAGE (e : Nat) : Fld := ⟨KE_TRPAGE e, 1, 0⟩

/-- The registers of block KE. -/
def regsKE : List RegDef := [
  ⟨0x0, 1, 4, false, 0, 0, 0xFF00, 0, 0, 0, 0x7⟩,
  ⟨0x4, 1, 4, false, 0, 0, 0, 0, 0xF000000, 0, 0⟩,
  ⟨0x8, 1, 4, false, 0, 0, 0, 0, 0, 0, 0⟩,
  ⟨0xC, 1, 4, false, 0, 0, 0, 0, 0xFFFF0000, 0, 0⟩,
  ⟨0x10, 1, 4, false, 0, 0, 0, 0, 0, 0, 0⟩,
  ⟨0x14, 1, 4, false, 0, 0, 0, 0, 0, 0, 0⟩,
  ⟨0x18, 1, 4, false, 0, 0, 0, 0, 0, 0, 0⟩,
  ⟨0x1C, 1, 4, false, 0, 0, 0, 0, 0, 0, 0⟩,
  ⟨0x100, 1, 4, false, 0, 0xFFF0F00, 0, 0x4, 0, 0xB, 0⟩,
  ⟨0x104, 1, 4, false, 0, 0, 0, 0, 0, 0, 0⟩,
  ⟨0x108, 1, 4, true, 0, 0, 0, 0, 0, 0, 0⟩,
  ⟨0x110, 1, 4, false, 0, 0x3, 0, 0, 0, 0, 0⟩]

/-! ### Block ENG: base 0x128000 (R31, R137; 01_axis_fabric.md, 05_kondoeth_engines.md) -/

def ENG_POOL : Nat := 0x128000
def ENG_POOL_INSWAP : Fld := ⟨ENG_POOL, 28, 24⟩
def ENG_POOL_RETIRED : Fld := ⟨ENG_POOL, 20, 16⟩
def ENG_POOL_IDLE : Fld := ⟨ENG_POOL, 12, 8⟩
def ENG_POOL_ASSIGNED : Fld := ⟨ENG_POOL, 4, 0⟩
def ENG_RET : Nat := 0x128004
def ENG_RET_V : Fld := ⟨ENG_RET, 19, 0⟩
def ENG_RETCMD : Nat := 0x128008
def ENG_RETCMD_UNRETIRE : Fld := ⟨ENG_RETCMD, 7, 7⟩
def ENG_RETCMD_RETIRE : Fld := ⟨ENG_RETCMD, 6, 6⟩
def ENG_RETCMD_REFUSED : Fld := ⟨ENG_RETCMD, 5, 5⟩
def ENG_RETCMD_ENG : Fld := ⟨ENG_RETCMD, 4, 0⟩

/-- The registers of block ENG. -/
def regsENG : List RegDef := [
  ⟨0x0, 1, 4, false, 0, 0, 0, 0, 0, 0, 0⟩,
  ⟨0x4, 1, 4, false, 0, 0, 0, 0, 0, 0, 0⟩,
  ⟨0x8, 1, 4, false, 0, 0x1F, 0, 0, 0, 0xE0, 0⟩]

/-! ### Block PWMG: base 0x200000, 4 instances, stride 0x100 (R194, R196; 08_pwm.md) -/

def PWMG_CFG (g : Nat) : Nat := 0x200000 + 0x100 * g + 0x0
def PWMG_CFG_CFGERR (g : Nat) : Fld := ⟨PWMG_CFG g, 31, 31⟩
def PWMG_CFG_MPM (g : Nat) : Fld := ⟨PWMG_CFG g, 25, 24⟩
def PWMG_CFG_TMINP (g : Nat) : Fld := ⟨PWMG_CFG g, 23, 16⟩
def PWMG_CFG_DT (g : Nat) : Fld := ⟨PWMG_CFG g, 15, 8⟩
def PWMG_CFG_K (g : Nat) : Fld := ⟨PWMG_CFG g, 6, 0⟩
def PWMG_PER (g : Nat) : Nat := 0x200000 + 0x100 * g + 0x4
def PWMG_PER_PER (g : Nat) : Fld := ⟨PWMG_PER g, 15, 0⟩
def PWMG_PHOFS (g : Nat) : Nat := 0x200000 + 0x100 * g + 0x8
def PWMG_PHOFS_PHOFS (g : Nat) : Fld := ⟨PWMG_PHOFS g, 20, 0⟩
def PWMG_REFR (g : Nat) : Nat := 0x200000 + 0x100 * g + 0xC
def PWMG_REFR_TREFRESH (g : Nat) : Fld := ⟨PWMG_REFR g, 17, 8⟩
def PWMG_REFR_REFRESHN (g : Nat) : Fld := ⟨PWMG_REFR g, 7, 0⟩
def PWMG_STAT (g : Nat) : Nat := 0x200000 + 0x100 * g + 0x10
def PWMG_STAT_SYNCDEV (g : Nat) : Fld := ⟨PWMG_STAT g, 31, 16⟩
def PWMG_STAT_RUN (g : Nat) : Fld := ⟨PWMG_STAT g, 3, 3⟩
def PWMG_STAT_SYNCLOST (g : Nat) : Fld := ⟨PWMG_STAT g, 2, 2⟩
def PWMG_STAT_REFUSED (g : Nat) : Fld := ⟨PWMG_STAT g, 1, 1⟩
def PWMG_STAT_BOOT (g : Nat) : Fld := ⟨PWMG_STAT g, 0, 0⟩
def PWMG_CNT (g : Nat) : Nat := 0x200000 + 0x100 * g + 0x14
def PWMG_CNT_DOWN (g : Nat) : Fld := ⟨PWMG_CNT g, 16, 16⟩
def PWMG_CNT_COUNT (g : Nat) : Fld := ⟨PWMG_CNT g, 15, 0⟩

/-- The registers of block PWMG. -/
def regsPWMG : List RegDef := [
  ⟨0x0, 1, 4, false, 0x119FF05, 0x3FFFF7F, 0, 0, 0, 0, 0⟩,
  ⟨0x4, 1, 4, false, 0xC35, 0, 0, 0, 0, 0, 0⟩,
  ⟨0x8, 1, 4, false, 0, 0x1FFFFF, 0, 0, 0, 0, 0⟩,
  ⟨0xC, 1, 4, false, 0x6420, 0x3FFFF, 0, 0, 0, 0, 0⟩,
  ⟨0x10, 1, 4, false, 0, 0, 0, 0x6, 0, 0, 0⟩,
  ⟨0x14, 1, 4, false, 0, 0, 0, 0, 0, 0, 0⟩]

/-! ### Block PWM: base 0x201000, 32 instances, stride 0x40 (R197; 08_pwm.md) -/

def PWM_CMP (c : Nat) : Nat := 0x201000 + 0x40 * c + 0x0
def PWM_CMP_CMP (c : Nat) : Fld := ⟨PWM_CMP c, 18, 0⟩
def PWM_CMPN (c : Nat) : Nat := 0x201000 + 0x40 * c + 0x4
def PWM_CMPN_CMPN (c : Nat) : Fld := ⟨PWM_CMPN c, 18, 0⟩
def PWM_STAT (c : Nat) : Nat := 0x201000 + 0x40 * c + 0x8
def PWM_STAT_UPD (c : Nat) : Fld := ⟨PWM_STAT c, 7, 7⟩
def PWM_STAT_REFRESHED (c : Nat) : Fld := ⟨PWM_STAT c, 6, 6⟩
def PWM_STAT_STRETCHED (c : Nat) : Fld := ⟨PWM_STAT c, 5, 5⟩
def PWM_STAT_DROPPED (c : Nat) : Fld := ⟨PWM_STAT c, 4, 4⟩
def PWM_STAT_MODE (c : Nat) : Fld := ⟨PWM_STAT c, 2, 0⟩
def PWM_CARRY (c : Nat) : Nat := 0x201000 + 0x40 * c + 0xC
def PWM_CARRY_V (c : Nat) : Fld := ⟨PWM_CARRY c, 31, 0⟩
def PWM_DROPCNT (c : Nat) : Nat := 0x201000 + 0x40 * c + 0x10
def PWM_DROPCNT_V (c : Nat) : Fld := ⟨PWM_DROPCNT c, 31, 0⟩
def PWM_STRCNT (c : Nat) : Nat := 0x201000 + 0x40 * c + 0x14
def PWM_STRCNT_V (c : Nat) : Fld := ⟨PWM_STRCNT c, 31, 0⟩
def PWM_REFRESH_INSERTED (c : Nat) : Nat := 0x201000 + 0x40 * c + 0x18
def PWM_REFRESH_INSERTED_V (c : Nat) : Fld := ⟨PWM_REFRESH_INSERTED c, 31, 0⟩

/-- The registers of block PWM. -/
def regsPWM : List RegDef := [
  ⟨0x0, 1, 4, false, 0, 0, 0, 0, 0, 0, 0⟩,
  ⟨0x4, 1, 4, false, 0, 0, 0, 0, 0, 0, 0⟩,
  ⟨0x8, 1, 4, false, 0, 0, 0, 0, 0, 0, 0⟩,
  ⟨0xC, 1, 4, false, 0, 0, 0, 0, 0, 0, 0⟩,
  ⟨0x10, 1, 4, false, 0, 0, 0, 0, 0, 0, 0⟩,
  ⟨0x14, 1, 4, false, 0, 0, 0, 0, 0, 0, 0⟩,
  ⟨0x18, 1, 4, false, 0, 0, 0, 0, 0, 0, 0⟩]

/-! ### Block SOG: base 0x202000, 8 instances, stride 0x40 (R199; 08_pwm.md) -/

def SOG_CFG (s : Nat) : Nat := 0x202000 + 0x40 * s + 0x0
def SOG_CFG_PW (s : Nat) : Fld := ⟨SOG_CFG s, 5, 0⟩
def SOG_CNT (s : Nat) : Nat := 0x202000 + 0x40 * s + 0x4
def SOG_CNT_V (s : Nat) : Fld := ⟨SOG_CNT s, 31, 0⟩
def SOG_STAT (s : Nat) : Nat := 0x202000 + 0x40 * s + 0x8
def SOG_STAT_DIR (s : Nat) : Fld := ⟨SOG_STAT s, 1, 1⟩
def SOG_STAT_HELD (s : Nat) : Fld := ⟨SOG_STAT s, 0, 0⟩

/-- The registers of block SOG. -/
def regsSOG : List RegDef := [
  ⟨0x0, 1, 4, false, 0x19, 0x3F, 0, 0, 0, 0, 0⟩,
  ⟨0x4, 1, 4, false, 0, 0, 0, 0, 0, 0, 0⟩,
  ⟨0x8, 1, 4, false, 0, 0, 0, 0, 0, 0, 0⟩]

/-! ### Block GD: base 0x240000, 4 instances, stride 0x1000 (R219, R220, R221; 09_gate_drive.md) -/

def GD_CFG (g : Nat) : Nat := 0x240000 + 0x1000 * g + 0x0
def GD_CFG_OTTHR (g : Nat) : Fld := ⟨GD_CFG g, 23, 16⟩
def GD_CFG_VGDUV (g : Nat) : Fld := ⟨GD_CFG g, 11, 10⟩
def GD_CFG_VHUV (g : Nat) : Fld := ⟨GD_CFG g, 9, 8⟩
def GD_CFG_STO (g : Nat) : Fld := ⟨GD_CFG g, 2, 2⟩
def GD_CFG_SAFE (g : Nat) : Fld := ⟨GD_CFG g, 0, 0⟩
def GD_STAT (g : Nat) : Nat := 0x240000 + 0x1000 * g + 0x4
def GD_STAT_SAFEOFF (g : Nat) : Fld := ⟨GD_STAT g, 7, 7⟩
def GD_STAT_SAFEOFFSEEN (g : Nat) : Fld := ⟨GD_STAT g, 6, 6⟩
def GD_STAT_OTACTIVE (g : Nat) : Fld := ⟨GD_STAT g, 5, 5⟩
def GD_STAT_VGDUVACTIVE (g : Nat) : Fld := ⟨GD_STAT g, 4, 4⟩
def GD_STAT_REFUSED (g : Nat) : Fld := ⟨GD_STAT g, 1, 1⟩
def GD_DRV (g i : Nat) : Nat := 0x240000 + 0x1000 * g + 0x100 + 0x20 * i
def GD_DRV_SOFFL (g i : Nat) : Fld := ⟨GD_DRV g i, 14, 12⟩
def GD_DRV_SONL (g i : Nat) : Fld := ⟨GD_DRV g i, 10, 8⟩
def GD_DRV_SOFFH (g i : Nat) : Fld := ⟨GD_DRV g i, 6, 4⟩
def GD_DRV_SONH (g i : Nat) : Fld := ⟨GD_DRV g i, 2, 0⟩
def GD_SCTHR (g i : Nat) : Nat := 0x240000 + 0x1000 * g + 0x104 + 0x20 * i
def GD_SCTHR_HARD (g i : Nat) : Fld := ⟨GD_SCTHR g i, 15, 8⟩
def GD_SCTHR_MAIN (g i : Nat) : Fld := ⟨GD_SCTHR g i, 7, 0⟩
def GD_CHSTAT (g i : Nat) : Nat := 0x240000 + 0x1000 * g + 0x108 + 0x20 * i
def GD_CHSTAT_OOS (g i : Nat) : Fld := ⟨GD_CHSTAT g i, 18, 18⟩
def GD_CHSTAT_SVCFAIL (g i : Nat) : Fld := ⟨GD_CHSTAT g i, 17, 17⟩
def GD_CHSTAT_VHOK (g i : Nat) : Fld := ⟨GD_CHSTAT g i, 16, 16⟩
def GD_CHSTAT_TRIPACTIVE (g i : Nat) : Fld := ⟨GD_CHSTAT g i, 15, 15⟩
def GD_CHSTAT_OT (g i : Nat) : Fld := ⟨GD_CHSTAT g i, 7, 7⟩
def GD_CHSTAT_VGDUV (g i : Nat) : Fld := ⟨GD_CHSTAT g i, 6, 6⟩
def GD_CHSTAT_VHUV (g i : Nat) : Fld := ⟨GD_CHSTAT g i, 5, 5⟩
def GD_CHSTAT_HARDL (g i : Nat) : Fld := ⟨GD_CHSTAT g i, 4, 4⟩
def GD_CHSTAT_HARDH (g i : Nat) : Fld := ⟨GD_CHSTAT g i, 3, 3⟩
def GD_CHSTAT_MAINL (g i : Nat) : Fld := ⟨GD_CHSTAT g i, 2, 2⟩
def GD_CHSTAT_MAINH (g i : Nat) : Fld := ⟨GD_CHSTAT g i, 1, 1⟩
def GD_CHSTAT_TRIPPED (g i : Nat) : Fld := ⟨GD_CHSTAT g i, 0, 0⟩
def GD_TRIPCNT (g i : Nat) : Nat := 0x240000 + 0x1000 * g + 0x10C + 0x20 * i
def GD_TRIPCNT_V (g i : Nat) : Fld := ⟨GD_TRIPCNT g i, 31, 0⟩

/-- The registers of block GD. -/
def regsGD : List RegDef := [
  ⟨0x0, 1, 4, false, 0x8C0504, 0xFF0F05, 0, 0, 0, 0, 0⟩,
  ⟨0x4, 1, 4, false, 0, 0, 0, 0x42, 0, 0, 0⟩,
  ⟨0x100, 8, 32, false, 0x3333, 0x7777, 0, 0, 0, 0, 0⟩,
  ⟨0x104, 8, 32, false, 0xFAC8, 0xFFFF, 0, 0, 0, 0, 0⟩,
  ⟨0x108, 8, 32, false, 0, 0, 0, 0, 0, 0, 0⟩,
  ⟨0x10C, 8, 32, false, 0, 0, 0, 0, 0, 0, 0⟩]

/-! ### Block CMP: base 0x260000, 32 instances, stride 0x10 (R228, R229; 10_comparators.md) -/

def CMP_SCF (c : Nat) : Nat := 0x260000 + 0x10 * c + 0x0
def CMP_SCF_MON (c : Nat) : Fld := ⟨CMP_SCF c, 16, 16⟩
def CMP_SCF_N (c : Nat) : Fld := ⟨CMP_SCF c, 14, 12⟩
def CMP_SCF_M (c : Nat) : Fld := ⟨CMP_SCF c, 10, 8⟩
def CMP_SCF_BLANK (c : Nat) : Fld := ⟨CMP_SCF c, 7, 0⟩
def CMP_SST (c : Nat) : Nat := 0x260000 + 0x10 * c + 0x4
def CMP_SST_REFUSED (c : Nat) : Fld := ⟨CMP_SST c, 7, 7⟩
def CMP_SST_RAWL (c : Nat) : Fld := ⟨CMP_SST c, 4, 4⟩
def CMP_SST_RAWH (c : Nat) : Fld := ⟨CMP_SST c, 3, 3⟩
def CMP_SST_MSEENL (c : Nat) : Fld := ⟨CMP_SST c, 1, 1⟩
def CMP_SST_MSEENH (c : Nat) : Fld := ⟨CMP_SST c, 0, 0⟩

/-- The registers of block CMP. -/
def regsCMP : List RegDef := [
  ⟨0x0, 1, 4, false, 0x533E, 0x177FF, 0, 0, 0, 0, 0⟩,
  ⟨0x4, 1, 4, false, 0, 0, 0, 0x83, 0, 0, 0⟩]

/-! ### Block MON: base 0x261000 (R231, R232, R233; 10_comparators.md) -/

def MON_FILT : Nat := 0x261000
def MON_FILT_OT : Fld := ⟨MON_FILT, 31, 24⟩
def MON_FILT_VH : Fld := ⟨MON_FILT, 23, 16⟩
def MON_FILT_VGD : Fld := ⟨MON_FILT, 15, 8⟩
def MON_FILT_SUP : Fld := ⟨MON_FILT, 7, 0⟩
def MON_ST : Nat := 0x261004
def MON_ST_REFUSED : Fld := ⟨MON_ST, 31, 31⟩
def MON_ST_HIGHSEEN : Fld := ⟨MON_ST, 29, 24⟩
def MON_ST_LOWSEEN : Fld := ⟨MON_ST, 21, 16⟩
def MON_ST_HIGH : Fld := ⟨MON_ST, 13, 8⟩
def MON_ST_LOW : Fld := ⟨MON_ST, 5, 0⟩
def MON_THR (i : Nat) : Nat := 0x261100 + 0x4 * i
def MON_THR_HI (i : Nat) : Fld := ⟨MON_THR i, 31, 16⟩
def MON_THR_LO (i : Nat) : Fld := ⟨MON_THR i, 15, 0⟩

/-- The registers of block MON. -/
def regsMON : List RegDef := [
  ⟨0x0, 1, 4, false, 0x32323232, 0xFFFFFFFF, 0, 0, 0, 0, 0⟩,
  ⟨0x4, 1, 4, false, 0, 0, 0, 0xBF3F0000, 0, 0, 0⟩,
  ⟨0x100, 6, 4, false, 0, 0xFFFFFFFF, 0, 0, 0, 0, 0⟩]

/-! ### Block DEC: base 0x280000, 36 instances, stride 0x10 (R241; 11_converters.md) -/

def DEC_CFG (c : Nat) : Nat := 0x280000 + 0x10 * c + 0x0
def DEC_CFG_OSR (c : Nat) : Fld := ⟨DEC_CFG c, 24, 16⟩
def DEC_CFG_L (c : Nat) : Fld := ⟨DEC_CFG c, 14, 8⟩
def DEC_CFG_ORD (c : Nat) : Fld := ⟨DEC_CFG c, 2, 0⟩
def DEC_ST (c : Nat) : Nat := 0x280000 + 0x10 * c + 0x4
def DEC_ST_REFUSED (c : Nat) : Fld := ⟨DEC_ST c, 7, 7⟩
def DEC_ST_OVRL (c : Nat) : Fld := ⟨DEC_ST c, 2, 2⟩
def DEC_ST_OVRH (c : Nat) : Fld := ⟨DEC_ST c, 1, 1⟩
def DEC_ST_VALID (c : Nat) : Fld := ⟨DEC_ST c, 0, 0⟩
def DEC_OVRCNT (c : Nat) : Nat := 0x280000 + 0x10 * c + 0x8
def DEC_OVRCNT_V (c : Nat) : Fld := ⟨DEC_OVRCNT c, 31, 0⟩
def DEC_VAL (c : Nat) : Nat := 0x280000 + 0x10 * c + 0xC
def DEC_VAL_V (c : Nat) : Fld := ⟨DEC_VAL c, 31, 0⟩

/-- The registers of block DEC. -/
def regsDEC : List RegDef := [
  ⟨0x0, 1, 4, false, 0x103, 0x1FF7F07, 0, 0, 0, 0, 0⟩,
  ⟨0x4, 1, 4, false, 0, 0, 0, 0x86, 0, 0, 0⟩,
  ⟨0x8, 1, 4, false, 0, 0, 0, 0, 0, 0, 0⟩,
  ⟨0xC, 1, 4, false, 0, 0, 0, 0, 0, 0, 0⟩]

/-! ### Block BUS: base 0x280300 (R243; 11_converters.md) -/

def BUS_WIN (i : Nat) : Nat := 0x280300 + 0x4 * i
def BUS_WIN_HI (i : Nat) : Fld := ⟨BUS_WIN i, 31, 16⟩
def BUS_WIN_LO (i : Nat) : Fld := ⟨BUS_WIN i, 15, 0⟩

/-- The registers of block BUS. -/
def regsBUS : List RegDef := [
  ⟨0x0, 4, 4, false, 0x20D002BC, 0xFFFFFFFF, 0, 0, 0, 0, 0⟩]

/-! ### Block SNS: base 0x284000, 32 instances, stride 0x20 (R64; 03_current_control.md) -/

def SNS_KH (c : Nat) : Nat := 0x284000 + 0x20 * c + 0x0
def SNS_KH_V (c : Nat) : Fld := ⟨SNS_KH c, 31, 0⟩
def SNS_KL (c : Nat) : Nat := 0x284000 + 0x20 * c + 0x4
def SNS_KL_V (c : Nat) : Fld := ⟨SNS_KL c, 31, 0⟩
def SNS_OFSH (c : Nat) : Nat := 0x284000 + 0x20 * c + 0x8
def SNS_OFSH_V (c : Nat) : Fld := ⟨SNS_OFSH c, 31, 0⟩
def SNS_OFSL (c : Nat) : Nat := 0x284000 + 0x20 * c + 0xC
def SNS_OFSL_V (c : Nat) : Fld := ⟨SNS_OFSL c, 31, 0⟩
def SNS_I (c : Nat) : Nat := 0x284000 + 0x20 * c + 0x10
def SNS_I_V (c : Nat) : Fld := ⟨SNS_I c, 31, 0⟩
def SNS_WD (c : Nat) : Nat := 0x284000 + 0x20 * c + 0x14
def SNS_WD_V (c : Nat) : Fld := ⟨SNS_WD c, 15, 0⟩
def SNS_KREF (c : Nat) : Nat := 0x284000 + 0x20 * c + 0x18
def SNS_KREF_V (c : Nat) : Fld := ⟨SNS_KREF c, 0, 0⟩

/-- The registers of block SNS. -/
def regsSNS : List RegDef := [
  ⟨0x0, 1, 4, false, 0x3E80000, 0xFFFFFFFF, 0, 0, 0, 0, 0⟩,
  ⟨0x4, 1, 4, false, 0x3E80000, 0xFFFFFFFF, 0, 0, 0, 0, 0⟩,
  ⟨0x8, 1, 4, false, 0, 0xFFFFFFFF, 0, 0, 0, 0, 0⟩,
  ⟨0xC, 1, 4, false, 0, 0xFFFFFFFF, 0, 0, 0, 0, 0⟩,
  ⟨0x10, 1, 4, false, 0, 0, 0, 0, 0, 0, 0⟩,
  ⟨0x14, 1, 4, false, 0, 0, 0, 0, 0, 0, 0⟩,
  ⟨0x18, 1, 4, false, 0, 0, 0, 0x1, 0, 0, 0⟩]

/-! ### Block HKC: base 0x288000 (R255, R256, R257; 11_converters.md) -/

def HKC_CTRL : Nat := 0x288000
def HKC_CTRL_ISW : Fld := ⟨HKC_CTRL, 2, 2⟩
def HKC_CTRL_ROLL : Fld := ⟨HKC_CTRL, 1, 1⟩
def HKC_CTRL_RUN : Fld := ⟨HKC_CTRL, 0, 0⟩
def HKC_ST : Nat := 0x288004
def HKC_ST_ENTRY : Fld := ⟨HKC_ST, 28, 24⟩
def HKC_ST_REFUSED : Fld := ⟨HKC_ST, 15, 15⟩
def HKC_ST_RIDXERR : Fld := ⟨HKC_ST, 14, 14⟩
def HKC_ST_RINGWAIT : Fld := ⟨HKC_ST, 13, 13⟩
def HKC_ST_INJ : Fld := ⟨HKC_ST, 12, 12⟩
def HKC_ST_ENABLEPENDING : Fld := ⟨HKC_ST, 3, 3⟩
def HKC_ST_STOPPING : Fld := ⟨HKC_ST, 2, 2⟩
def HKC_ST_BUSY : Fld := ⟨HKC_ST, 1, 1⟩
def HKC_ST_REFSETTLED : Fld := ⟨HKC_ST, 0, 0⟩
def HKC_REF : Nat := 0x288008
def HKC_REF_REFMV : Fld := ⟨HKC_REF, 31, 16⟩
def HKC_REF_SEL : Fld := ⟨HKC_REF, 1, 0⟩
def HKC_SEQCFG : Nat := 0x28800C
def HKC_SEQCFG_ILEN : Fld := ⟨HKC_SEQCFG, 26, 24⟩
def HKC_SEQCFG_OVWR : Fld := ⟨HKC_SEQCFG, 9, 9⟩
def HKC_SEQCFG_RING : Fld := ⟨HKC_SEQCFG, 8, 8⟩
def HKC_SEQCFG_LEN : Fld := ⟨HKC_SEQCFG, 5, 0⟩
def HKC_RBASE : Nat := 0x288010
def HKC_RBASE_V : Fld := ⟨HKC_RBASE, 31, 0⟩
def HKC_RSIZE : Nat := 0x288014
def HKC_RSIZE_RSIZE : Fld := ⟨HKC_RSIZE, 3, 0⟩
def HKC_WIDX : Nat := 0x288018
def HKC_WIDX_V : Fld := ⟨HKC_WIDX, 31, 0⟩
def HKC_RIDX : Nat := 0x28801C
def HKC_RIDX_V : Fld := ⟨HKC_RIDX, 31, 0⟩
def HKC_ROVF : Nat := 0x288020
def HKC_ROVF_V : Fld := ⟨HKC_ROVF, 31, 0⟩
def HKC_ITRIG : Nat := 0x288024
def HKC_ITRIG_EVTC : Fld := ⟨HKC_ITRIG, 30, 23⟩
def HKC_ITRIG_ENG : Fld := ⟨HKC_ITRIG, 22, 18⟩
def HKC_ITRIG_FSRC : Fld := ⟨HKC_ITRIG, 17, 8⟩
def HKC_ITRIG_TICKV : Fld := ⟨HKC_ITRIG, 6, 6⟩
def HKC_ITRIG_PEAK : Fld := ⟨HKC_ITRIG, 5, 5⟩
def HKC_ITRIG_GRP : Fld := ⟨HKC_ITRIG, 4, 3⟩
def HKC_ITRIG_SRC : Fld := ⟨HKC_ITRIG, 2, 0⟩
def HKC_IMISS : Nat := 0x288028
def HKC_IMISS_V : Fld := ⟨HKC_IMISS, 31, 0⟩
def HKC_ROLL : Nat := 0x28802C
def HKC_ROLL_ROLLREJ : Fld := ⟨HKC_ROLL, 31, 16⟩
def HKC_ROLL_ROLLN : Fld := ⟨HKC_ROLL, 7, 0⟩
def HKC_ABORT : Nat := 0x288030
def HKC_ABORT_V : Fld := ⟨HKC_ABORT, 31, 0⟩
def HKC_CAL : Nat := 0x288034
def HKC_CAL_FAILRANGE : Fld := ⟨HKC_CAL, 11, 8⟩
def HKC_CAL_STALE : Fld := ⟨HKC_CAL, 4, 4⟩
def HKC_CAL_FAIL : Fld := ⟨HKC_CAL, 3, 3⟩
def HKC_CAL_DONE : Fld := ⟨HKC_CAL, 2, 2⟩
def HKC_CAL_BUSY : Fld := ⟨HKC_CAL, 1, 1⟩
def HKC_CAL_GO : Fld := ⟨HKC_CAL, 0, 0⟩
def HKC_ITIME : Nat := 0x288038
def HKC_ITIME_V : Fld := ⟨HKC_ITIME, 63, 0⟩
def HKC_CALOFS (i : Nat) : Nat := 0x288040 + 0x4 * i
def HKC_CALOFS_V (i : Nat) : Fld := ⟨HKC_CALOFS i, 31, 0⟩
def HKC_CALGAIN (i : Nat) : Nat := 0x288050 + 0x4 * i
def HKC_CALGAIN_V (i : Nat) : Fld := ⟨HKC_CALGAIN i, 31, 0⟩
def HKC_SEQ (i : Nat) : Nat := 0x288100 + 0x4 * i
def HKC_SEQ_RATE (i : Nat) : Fld := ⟨HKC_SEQ i, 10, 8⟩
def HKC_SEQ_GAIN (i : Nat) : Fld := ⟨HKC_SEQ i, 6, 5⟩
def HKC_SEQ_INPUT (i : Nat) : Fld := ⟨HKC_SEQ i, 4, 0⟩
def HKC_ISEQ (i : Nat) : Nat := 0x288180 + 0x4 * i
def HKC_ISEQ_V (i : Nat) : Fld := ⟨HKC_ISEQ i, 31, 0⟩
def HKC_RES (i : Nat) : Nat := 0x288200 + 0x8 * i
def HKC_RES_V (i : Nat) : Fld := ⟨HKC_RES i, 31, 0⟩
def HKC_ENG (i : Nat) : Nat := 0x288204 + 0x8 * i
def HKC_ENG_V (i : Nat) : Fld := ⟨HKC_ENG i, 31, 0⟩
def HKC_IRES (i : Nat) : Nat := 0x288280 + 0x8 * i
def HKC_IRES_V (i : Nat) : Fld := ⟨HKC_IRES i, 31, 0⟩
def HKC_IENG (i : Nat) : Nat := 0x288284 + 0x8 * i
def HKC_IENG_V (i : Nat) : Fld := ⟨HKC_IENG i, 31, 0⟩

/-- The registers of block HKC. -/
def regsHKC : List RegDef := [
  ⟨0x0, 1, 4, false, 0, 0x3, 0, 0, 0, 0x4, 0⟩,
  ⟨0x4, 1, 4, false, 0, 0, 0, 0xC000, 0, 0, 0⟩,
  ⟨0x8, 1, 4, false, 0x8000000, 0xFFFF0003, 0, 0, 0, 0, 0⟩,
  ⟨0xC, 1, 4, false, 0, 0x700033F, 0, 0, 0, 0, 0⟩,
  ⟨0x10, 1, 4, false, 0x600000, 0xFFFFFFFF, 0, 0, 0, 0, 0⟩,
  ⟨0x14, 1, 4, false, 0x8, 0xF, 0, 0, 0, 0, 0⟩,
  ⟨0x18, 1, 4, false, 0, 0, 0, 0, 0, 0, 0⟩,
  ⟨0x1C, 1, 4, false, 0, 0xFFFFFFFF, 0, 0, 0, 0, 0⟩,
  ⟨0x20, 1, 4, false, 0, 0, 0, 0, 0, 0, 0⟩,
  ⟨0x24, 1, 4, false, 0, 0x7FFFFF7F, 0, 0, 0, 0, 0⟩,
  ⟨0x28, 1, 4, false, 0, 0, 0, 0, 0, 0, 0⟩,
  ⟨0x2C, 1, 4, false, 0x10, 0xFF, 0, 0, 0, 0, 0⟩,
  ⟨0x30, 1, 4, false, 0, 0, 0, 0, 0, 0, 0⟩,
  ⟨0x34, 1, 4, false, 0, 0, 0, 0xC, 0, 0x1, 0⟩,
  ⟨0x38, 1, 4, true, 0, 0, 0, 0, 0, 0, 0⟩,
  ⟨0x40, 4, 4, false, 0, 0xFFFFFFFF, 0, 0, 0, 0, 0⟩,
  ⟨0x50, 4, 4, false, 0, 0xFFFFFFFF, 0, 0, 0, 0, 0⟩,
  ⟨0x100, 32, 4, false, 0x717, 0x77F, 0, 0, 0, 0, 0⟩,
  ⟨0x180, 4, 4, false, 0x717, 0xFFFFFFFF, 0, 0, 0, 0, 0⟩,
  ⟨0x200, 16, 8, false, 0, 0, 0, 0, 0, 0, 0⟩,
  ⟨0x204, 16, 8, false, 0, 0, 0, 0, 0, 0, 0⟩,
  ⟨0x280, 4, 8, false, 0, 0, 0, 0, 0, 0, 0⟩,
  ⟨0x284, 4, 8, false, 0, 0, 0, 0, 0, 0, 0⟩]

/-! ### Block FB: base 0x2C0000, 8 instances, stride 0x40 (R266, R267; 12_feedback_ports.md) -/

def FB_CFG (p : Nat) : Nat := 0x2C0000 + 0x40 * p + 0x0
def FB_CFG_FILT (p : Nat) : Fld := ⟨FB_CFG p, 25, 20⟩
def FB_CFG_SPDAVG (p : Nat) : Fld := ⟨FB_CFG p, 19, 18⟩
def FB_CFG_ZLAT (p : Nat) : Fld := ⟨FB_CFG p, 17, 17⟩
def FB_CFG_DIRINV (p : Nat) : Fld := ⟨FB_CFG p, 16, 16⟩
def FB_CFG_SPDTMO (p : Nat) : Fld := ⟨FB_CFG p, 15, 8⟩
def FB_CFG_MODE (p : Nat) : Fld := ⟨FB_CFG p, 2, 0⟩
def FB_AUNUM (p : Nat) : Nat := 0x2C0000 + 0x40 * p + 0x4
def FB_AUNUM_V (p : Nat) : Fld := ⟨FB_AUNUM p, 31, 0⟩
def FB_AUDEN (p : Nat) : Nat := 0x2C0000 + 0x40 * p + 0x8
def FB_AUDEN_V (p : Nat) : Fld := ⟨FB_AUDEN p, 31, 0⟩
def FB_SSI (p : Nat) : Nat := 0x2C0000 + 0x40 * p + 0xC
def FB_SSI_CLKDIV (p : Nat) : Fld := ⟨FB_SSI p, 31, 22⟩
def FB_SSI_GRAY (p : Nat) : Fld := ⟨FB_SSI p, 14, 14⟩
def FB_SSI_MT (p : Nat) : Fld := ⟨FB_SSI p, 13, 8⟩
def FB_SSI_BITS (p : Nat) : Fld := ⟨FB_SSI p, 5, 0⟩
def FB_ST (p : Nat) : Nat := 0x2C0000 + 0x40 * p + 0x10
def FB_ST_CFGERR (p : Nat) : Fld := ⟨FB_ST p, 7, 7⟩
def FB_ST_REFUSED (p : Nat) : Fld := ⟨FB_ST p, 6, 6⟩
def FB_ST_ZSEEN (p : Nat) : Fld := ⟨FB_ST p, 5, 5⟩
def FB_ST_SPDOK (p : Nat) : Fld := ⟨FB_ST p, 4, 4⟩
def FB_ST_DIR (p : Nat) : Fld := ⟨FB_ST p, 3, 3⟩
def FB_ST_LEVELS (p : Nat) : Fld := ⟨FB_ST p, 2, 0⟩
def FB_CNT (p : Nat) : Nat := 0x2C0000 + 0x40 * p + 0x18
def FB_CNT_V (p : Nat) : Fld := ⟨FB_CNT p, 63, 0⟩
def FB_POS (p : Nat) : Nat := 0x2C0000 + 0x40 * p + 0x20
def FB_POS_V (p : Nat) : Fld := ⟨FB_POS p, 63, 0⟩
def FB_VEL (p : Nat) : Nat := 0x2C0000 + 0x40 * p + 0x28
def FB_VEL_V (p : Nat) : Fld := ⟨FB_VEL p, 63, 0⟩
def FB_ZCNT (p : Nat) : Nat := 0x2C0000 + 0x40 * p + 0x30
def FB_ZCNT_V (p : Nat) : Fld := ⟨FB_ZCNT p, 63, 0⟩
def FB_SSIRAW (p : Nat) : Nat := 0x2C0000 + 0x40 * p + 0x38
def FB_SSIRAW_V (p : Nat) : Fld := ⟨FB_SSIRAW p, 63, 0⟩

/-- The registers of block FB. -/
def regsFB : List RegDef := [
  ⟨0x0, 1, 4, false, 0x281400, 0x3FFFF07, 0, 0, 0, 0, 0⟩,
  ⟨0x4, 1, 4, false, 0x1, 0xFFFFFFFF, 0, 0, 0, 0, 0⟩,
  ⟨0x8, 1, 4, false, 0x1, 0xFFFFFFFF, 0, 0, 0, 0, 0⟩,
  ⟨0xC, 1, 4, false, 0x19004C19, 0xFFC07F3F, 0, 0, 0, 0, 0⟩,
  ⟨0x10, 1, 4, false, 0, 0, 0, 0x60, 0, 0, 0⟩,
  ⟨0x18, 1, 4, true, 0, 0, 0, 0, 0, 0, 0⟩,
  ⟨0x20, 1, 4, true, 0, 0, 0, 0, 0, 0, 0⟩,
  ⟨0x28, 1, 4, true, 0, 0, 0, 0, 0, 0, 0⟩,
  ⟨0x30, 1, 4, true, 0, 0, 0, 0, 0, 0, 0⟩,
  ⟨0x38, 1, 4, true, 0, 0, 0, 0, 0, 0, 0⟩]

/-! ### Block SI: base 0x2C0400, 8 instances, stride 0x10 (R268; 12_feedback_ports.md) -/

def SI_CFG (s : Nat) : Nat := 0x2C0400 + 0x10 * s + 0x0
def SI_CFG_FILT (s : Nat) : Fld := ⟨SI_CFG s, 13, 8⟩
def SI_CFG_DIRINV (s : Nat) : Fld := ⟨SI_CFG s, 3, 3⟩
def SI_CFG_EDGE (s : Nat) : Fld := ⟨SI_CFG s, 2, 2⟩
def SI_CFG_MODE (s : Nat) : Fld := ⟨SI_CFG s, 1, 0⟩
def SI_CNT (s : Nat) : Nat := 0x2C0400 + 0x10 * s + 0x4
def SI_CNT_V (s : Nat) : Fld := ⟨SI_CNT s, 31, 0⟩
def SI_ST (s : Nat) : Nat := 0x2C0400 + 0x10 * s + 0x8
def SI_ST_REFUSED (s : Nat) : Fld := ⟨SI_ST s, 1, 1⟩
def SI_ST_DIR (s : Nat) : Fld := ⟨SI_ST s, 0, 0⟩

/-- The registers of block SI. -/
def regsSI : List RegDef := [
  ⟨0x0, 1, 4, false, 0x200, 0x3F0F, 0, 0, 0, 0, 0⟩,
  ⟨0x4, 1, 4, false, 0, 0, 0, 0, 0, 0, 0⟩,
  ⟨0x8, 1, 4, false, 0, 0, 0, 0x2, 0, 0, 0⟩]

/-! ### Block SO: base 0x2C0500, 8 instances, stride 0x10 (R269; 12_feedback_ports.md) -/

def SO_CFG (s : Nat) : Nat := 0x2C0500 + 0x10 * s + 0x0
def SO_CFG_DSU (s : Nat) : Fld := ⟨SO_CFG s, 15, 8⟩
def SO_CFG_OD (s : Nat) : Fld := ⟨SO_CFG s, 3, 3⟩
def SO_CFG_DIRINV (s : Nat) : Fld := ⟨SO_CFG s, 2, 2⟩
def SO_CFG_STPINV (s : Nat) : Fld := ⟨SO_CFG s, 1, 1⟩
def SO_ST (s : Nat) : Nat := 0x2C0500 + 0x10 * s + 0x4
def SO_ST_REFUSED (s : Nat) : Fld := ⟨SO_ST s, 0, 0⟩

/-- The registers of block SO. -/
def regsSO : List RegDef := [
  ⟨0x0, 1, 4, false, 0x3200, 0xFF0E, 0, 0, 0, 0, 0⟩,
  ⟨0x4, 1, 4, false, 0, 0, 0, 0x1, 0, 0, 0⟩]

/-! ### Block CAP: base 0x2C1000, 8 instances, stride 0x100 (R271; 12_feedback_ports.md) -/

def CAP_CFG (k : Nat) : Nat := 0x2C1000 + 0x100 * k + 0x0
def CAP_CFG_FILT (k : Nat) : Fld := ⟨CAP_CFG k, 13, 8⟩
def CAP_CFG_LOCK (k : Nat) : Fld := ⟨CAP_CFG k, 3, 3⟩
def CAP_CFG_EDGE (k : Nat) : Fld := ⟨CAP_CFG k, 1, 0⟩
def CAP_CTRL (k : Nat) : Nat := 0x2C1000 + 0x100 * k + 0x4
def CAP_CTRL_COUNT (k : Nat) : Fld := ⟨CAP_CTRL k, 31, 16⟩
def CAP_CTRL_HELD (k : Nat) : Fld := ⟨CAP_CTRL k, 1, 1⟩
def CAP_CTRL_RELEASE (k : Nat) : Fld := ⟨CAP_CTRL k, 0, 0⟩
def CAP_MISS (k : Nat) : Nat := 0x2C1000 + 0x100 * k + 0x8
def CAP_MISS_V (k : Nat) : Fld := ⟨CAP_MISS k, 31, 0⟩
def CAP_TIME (k : Nat) : Nat := 0x2C1000 + 0x100 * k + 0x10
def CAP_TIME_V (k : Nat) : Fld := ⟨CAP_TIME k, 63, 0⟩
def CAP_POS (k i : Nat) : Nat := 0x2C1000 + 0x100 * k + 0x20 + 0x8 * i
def CAP_POS_V (k i : Nat) : Fld := ⟨CAP_POS k i, 63, 0⟩

/-- The registers of block CAP. -/
def regsCAP : List RegDef := [
  ⟨0x0, 1, 4, false, 0x200, 0x3F0B, 0, 0, 0, 0, 0⟩,
  ⟨0x4, 1, 4, false, 0, 0, 0, 0, 0, 0x1, 0⟩,
  ⟨0x8, 1, 4, false, 0, 0, 0, 0, 0, 0, 0⟩,
  ⟨0x10, 1, 4, true, 0, 0, 0, 0, 0, 0, 0⟩,
  ⟨0x20, 16, 8, true, 0, 0, 0, 0, 0, 0, 0⟩]

/-! ### Block PCO: base 0x2C2000, 4 instances, stride 0x40 (R273; 12_feedback_ports.md) -/

def PCO_CFG (q : Nat) : Nat := 0x2C2000 + 0x40 * q + 0x0
def PCO_CFG_PWIDTH (q : Nat) : Fld := ⟨PCO_CFG q, 31, 16⟩
def PCO_CFG_REPEAT (q : Nat) : Fld := ⟨PCO_CFG q, 7, 7⟩
def PCO_CFG_POL (q : Nat) : Fld := ⟨PCO_CFG q, 6, 6⟩
def PCO_CFG_DIR (q : Nat) : Fld := ⟨PCO_CFG q, 5, 4⟩
def PCO_CFG_SLOT (q : Nat) : Fld := ⟨PCO_CFG q, 3, 0⟩
def PCO_CTRL (q : Nat) : Nat := 0x2C2000 + 0x40 * q + 0x4
def PCO_CTRL_REFUSED (q : Nat) : Fld := ⟨PCO_CTRL q, 10, 10⟩
def PCO_CTRL_ACTIVE (q : Nat) : Fld := ⟨PCO_CTRL q, 9, 9⟩
def PCO_CTRL_ARMED (q : Nat) : Fld := ⟨PCO_CTRL q, 8, 8⟩
def PCO_CTRL_FORCE (q : Nat) : Fld := ⟨PCO_CTRL q, 2, 2⟩
def PCO_CTRL_DISARM (q : Nat) : Fld := ⟨PCO_CTRL q, 1, 1⟩
def PCO_CTRL_ARM (q : Nat) : Fld := ⟨PCO_CTRL q, 0, 0⟩
def PCO_POS (q : Nat) : Nat := 0x2C2000 + 0x40 * q + 0x8
def PCO_POS_V (q : Nat) : Fld := ⟨PCO_POS q, 63, 0⟩
def PCO_STEP (q : Nat) : Nat := 0x2C2000 + 0x40 * q + 0x10
def PCO_STEP_V (q : Nat) : Fld := ⟨PCO_STEP q, 63, 0⟩
def PCO_LEFT (q : Nat) : Nat := 0x2C2000 + 0x40 * q + 0x18
def PCO_LEFT_V (q : Nat) : Fld := ⟨PCO_LEFT q, 31, 0⟩
def PCO_FIRES (q : Nat) : Nat := 0x2C2000 + 0x40 * q + 0x1C
def PCO_FIRES_V (q : Nat) : Fld := ⟨PCO_FIRES q, 31, 0⟩
def PCO_MISS (q : Nat) : Nat := 0x2C2000 + 0x40 * q + 0x20
def PCO_MISS_V (q : Nat) : Fld := ⟨PCO_MISS q, 31, 0⟩
def PCO_FTIME (q : Nat) : Nat := 0x2C2000 + 0x40 * q + 0x28
def PCO_FTIME_V (q : Nat) : Fld := ⟨PCO_FTIME q, 63, 0⟩

/-- The registers of block PCO. -/
def regsPCO : List RegDef := [
  ⟨0x0, 1, 4, false, 0x1F40000, 0xFFFF00FF, 0, 0, 0, 0, 0⟩,
  ⟨0x4, 1, 4, false, 0, 0, 0, 0x400, 0, 0x7, 0⟩,
  ⟨0x8, 1, 4, true, 0, 0xFFFFFFFFFFFFFFFF, 0, 0, 0, 0, 0⟩,
  ⟨0x10, 1, 4, true, 0, 0xFFFFFFFFFFFFFFFF, 0, 0, 0, 0, 0⟩,
  ⟨0x18, 1, 4, false, 0, 0xFFFFFFFF, 0, 0, 0, 0, 0⟩,
  ⟨0x1C, 1, 4, false, 0, 0, 0, 0, 0, 0, 0⟩,
  ⟨0x20, 1, 4, false, 0, 0, 0, 0, 0, 0, 0⟩,
  ⟨0x28, 1, 4, true, 0, 0, 0, 0, 0, 0, 0⟩]

/-! ### Block FP: base 0x300000 (R453; 22_front_panel.md) -/

def FP_CFG : Nat := 0x300000
def FP_CFG_DBMS : Fld := ⟨FP_CFG, 23, 16⟩
def FP_CFG_TDEB : Fld := ⟨FP_CFG, 11, 8⟩
def FP_CFG_MIREN : Fld := ⟨FP_CFG, 1, 1⟩
def FP_CFG_SCANEN : Fld := ⟨FP_CFG, 0, 0⟩
def FP_ST : Nat := 0x300004
def FP_ST_REFUSED : Fld := ⟨FP_ST, 24, 24⟩
def FP_ST_PRES : Fld := ⟨FP_ST, 23, 16⟩
def FP_ST_PB : Fld := ⟨FP_ST, 11, 8⟩
def FP_ST_TOUCHED : Fld := ⟨FP_ST, 7, 0⟩
def FP_EVSEQ : Nat := 0x300008
def FP_EVSEQ_V : Fld := ⟨FP_EVSEQ, 31, 0⟩
def FP_MIRBASE : Nat := 0x30000C
def FP_MIRBASE_V : Fld := ⟨FP_MIRBASE, 31, 0⟩
def FP_PRESCFG : Nat := 0x300010
def FP_PRESCFG_PRESTHR : Fld := ⟨FP_PRESCFG, 31, 24⟩
def FP_PRESCFG_TCP : Fld := ⟨FP_PRESCFG, 23, 16⟩
def FP_PRESCFG_PRESPER : Fld := ⟨FP_PRESCFG, 15, 0⟩
def FP_TP_CFG (i : Nat) : Nat := 0x300100 + 0x10 * i
def FP_TP_CFG_MAXON (i : Nat) : Fld := ⟨FP_TP_CFG i, 31, 24⟩
def FP_TP_CFG_HYS (i : Nat) : Fld := ⟨FP_TP_CFG i, 23, 16⟩
def FP_TP_CFG_THR (i : Nat) : Fld := ⟨FP_TP_CFG i, 15, 0⟩
def FP_TP_ST (i : Nat) : Nat := 0x300104 + 0x10 * i
def FP_TP_ST_TOUCHED (i : Nat) : Fld := ⟨FP_TP_ST i, 16, 16⟩
def FP_TP_ST_DELTA (i : Nat) : Fld := ⟨FP_TP_ST i, 15, 0⟩
def FP_TP_BASE (i : Nat) : Nat := 0x300108 + 0x10 * i
def FP_TP_BASE_RECAL (i : Nat) : Fld := ⟨FP_TP_BASE i, 16, 16⟩
def FP_TP_BASE_BASE (i : Nat) : Fld := ⟨FP_TP_BASE i, 15, 0⟩
def FP_MPR (i : Nat) : Nat := 0x300200 + 0x4 * i
def FP_MPR_TESTS (i : Nat) : Fld := ⟨FP_MPR i, 31, 16⟩
def FP_MPR_PRESEN (i : Nat) : Fld := ⟨FP_MPR i, 8, 8⟩
def FP_MPR_PATH (i : Nat) : Fld := ⟨FP_MPR i, 7, 4⟩
def FP_MPR_RESULT (i : Nat) : Fld := ⟨FP_MPR i, 3, 0⟩
def FP_LMP (i : Nat) : Nat := 0x300280 + 0x4 * i
def FP_LMP_ON (i : Nat) : Fld := ⟨FP_LMP i, 31, 24⟩
def FP_LMP_PER (i : Nat) : Fld := ⟨FP_LMP i, 23, 16⟩
def FP_LMP_CUR (i : Nat) : Fld := ⟨FP_LMP i, 9, 4⟩
def FP_LMP_MODE (i : Nat) : Fld := ⟨FP_LMP i, 1, 0⟩

/-- The registers of block FP. -/
def regsFP : List RegDef := [
  ⟨0x0, 1, 4, false, 0x140301, 0xFF0F03, 0, 0, 0, 0, 0⟩,
  ⟨0x4, 1, 4, false, 0, 0, 0, 0x1000000, 0, 0, 0⟩,
  ⟨0x8, 1, 4, false, 0, 0, 0, 0, 0, 0, 0⟩,
  ⟨0xC, 1, 4, false, 0x65F800, 0xFFFFFFFF, 0, 0, 0, 0, 0⟩,
  ⟨0x10, 1, 4, false, 0xA3203E8, 0xFFFFFFFF, 0, 0, 0, 0, 0⟩,
  ⟨0x100, 8, 16, false, 0x1E0A0032, 0xFFFFFFFF, 0, 0, 0, 0, 0⟩,
  ⟨0x104, 8, 16, false, 0, 0, 0, 0, 0, 0, 0⟩,
  ⟨0x108, 8, 16, false, 0, 0, 0, 0, 0, 0x10000, 0⟩,
  ⟨0x200, 16, 4, false, 0x100, 0x100, 0, 0, 0, 0, 0⟩,
  ⟨0x280, 8, 4, false, 0x32640140, 0xFFFF03F3, 0, 0, 0, 0, 0⟩]

/-! ### Block FLT: base 0x340000 (R372, R373, R374; 17_faults.md) -/

def FLT_SRC (i : Nat) : Nat := 0x340000 + 0x4 * i
def FLT_SRC_COUNT (i : Nat) : Fld := ⟨FLT_SRC i, 31, 20⟩
def FLT_SRC_SEEN (i : Nat) : Fld := ⟨FLT_SRC i, 19, 19⟩
def FLT_SRC_SUB (i : Nat) : Fld := ⟨FLT_SRC i, 15, 8⟩
def FLT_SRC_SEV (i : Nat) : Fld := ⟨FLT_SRC i, 2, 0⟩
def FLT_RAISED : Nat := 0x341000
def FLT_RAISED_V : Fld := ⟨FLT_RAISED, 31, 0⟩
def FLT_RECORDED : Nat := 0x341004
def FLT_RECORDED_V : Fld := ⟨FLT_RECORDED, 31, 0⟩
def FLT_COALESCED : Nat := 0x341008
def FLT_COALESCED_V : Fld := ⟨FLT_COALESCED, 31, 0⟩
def FLT_OVF : Nat := 0x34100C
def FLT_OVF_V : Fld := ⟨FLT_OVF, 31, 0⟩
def FLT_SUBSCRIBE : Nat := 0x341010
def FLT_SUBSCRIBE_ON : Fld := ⟨FLT_SUBSCRIBE, 31, 31⟩
def FLT_SUBSCRIBE_SRC : Fld := ⟨FLT_SUBSCRIBE, 9, 0⟩
def FLT_ST : Nat := 0x341014
def FLT_ST_S4SEEN : Fld := ⟨FLT_ST, 2, 2⟩
def FLT_ST_OVFSEEN : Fld := ⟨FLT_ST, 1, 1⟩
def FLT_ST_REFUSED : Fld := ⟨FLT_ST, 0, 0⟩
def FLT_NST (i : Nat) : Nat := 0x341020 + 0x4 * i
def FLT_NST_NSEQ (i : Nat) : Fld := ⟨FLT_NST i, 31, 16⟩
def FLT_NST_LOST (i : Nat) : Fld := ⟨FLT_NST i, 7, 7⟩
def FLT_NST_NLVL (i : Nat) : Fld := ⟨FLT_NST i, 6, 0⟩
def FLT_NLOST (i : Nat) : Nat := 0x341040 + 0x4 * i
def FLT_NLOST_V (i : Nat) : Fld := ⟨FLT_NLOST i, 31, 0⟩
def FLT_LAST (i : Nat) : Nat := 0x341080 + 0x4 * i
def FLT_LAST_V (i : Nat) : Fld := ⟨FLT_LAST i, 31, 0⟩

/-- The registers of block FLT. -/
def regsFLT : List RegDef := [
  ⟨0x0, 1024, 4, false, 0, 0x7, 0, 0x80000, 0, 0, 0⟩,
  ⟨0x1000, 1, 4, false, 0, 0, 0, 0, 0, 0, 0⟩,
  ⟨0x1004, 1, 4, false, 0, 0, 0, 0, 0, 0, 0⟩,
  ⟨0x1008, 1, 4, false, 0, 0, 0, 0, 0, 0, 0⟩,
  ⟨0x100C, 1, 4, false, 0, 0, 0, 0, 0, 0, 0⟩,
  ⟨0x1010, 1, 4, false, 0, 0, 0, 0, 0, 0x800003FF, 0⟩,
  ⟨0x1014, 1, 4, false, 0, 0, 0, 0x7, 0, 0, 0⟩,
  ⟨0x1020, 8, 4, false, 0, 0, 0, 0x80, 0, 0, 0⟩,
  ⟨0x1040, 8, 4, false, 0, 0, 0, 0, 0, 0, 0⟩,
  ⟨0x1080, 4, 4, false, 0, 0, 0, 0, 0, 0, 0⟩]

/-! ### Block LOG: base 0x360000 (R386; 18_summit_log.md) -/

def LOG_ST : Nat := 0x360000
def LOG_ST_NOKEY : Fld := ⟨LOG_ST, 11, 11⟩
def LOG_ST_FRZHOST : Fld := ⟨LOG_ST, 10, 8⟩
def LOG_ST_CLRFAILSEEN : Fld := ⟨LOG_ST, 1, 1⟩
def LOG_ST_FROZEN : Fld := ⟨LOG_ST, 0, 0⟩
def LOG_LEVEL : Nat := 0x360004
def LOG_LEVEL_LEVEL : Fld := ⟨LOG_LEVEL, 13, 0⟩
def LOG_WSEQ : Nat := 0x360008
def LOG_WSEQ_V : Fld := ⟨LOG_WSEQ, 31, 0⟩
def LOG_OFFERED : Nat := 0x36000C
def LOG_OFFERED_V : Fld := ⟨LOG_OFFERED, 31, 0⟩
def LOG_FRZCNT : Nat := 0x360010
def LOG_FRZCNT_V : Fld := ⟨LOG_FRZCNT, 31, 0⟩
def LOG_OVERWR : Nat := 0x360014
def LOG_OVERWR_V : Fld := ⟨LOG_OVERWR, 31, 0⟩
def LOG_CLEARED : Nat := 0x360018
def LOG_CLEARED_V : Fld := ⟨LOG_CLEARED, 31, 0⟩
def LOG_FRZNOW : Nat := 0x36001C
def LOG_FRZNOW_V : Fld := ⟨LOG_FRZNOW, 31, 0⟩
def LOG_CLRFAIL : Nat := 0x360020
def LOG_CLRFAIL_V : Fld := ⟨LOG_CLRFAIL, 31, 0⟩
def LOG_MIRST : Nat := 0x360024
def LOG_MIRST_MIRSKIP : Fld := ⟨LOG_MIRST, 31, 16⟩
def LOG_MIRST_LAG : Fld := ⟨LOG_MIRST, 6, 0⟩
def LOG_FRZTMO : Nat := 0x360028
def LOG_FRZTMO_V : Fld := ⟨LOG_FRZTMO, 15, 0⟩
def LOG_PAGE : Nat := 0x36002C
def LOG_PAGE_PAGE : Fld := ⟨LOG_PAGE, 1, 0⟩
def LOG_NONCE : Nat := 0x360030
def LOG_NONCE_V : Fld := ⟨LOG_NONCE, 63, 0⟩

/-- The registers of block LOG. -/
def regsLOG : List RegDef := [
  ⟨0x0, 1, 4, false, 0, 0, 0, 0x2, 0, 0, 0⟩,
  ⟨0x4, 1, 4, false, 0, 0, 0, 0, 0, 0, 0⟩,
  ⟨0x8, 1, 4, false, 0, 0, 0, 0, 0, 0, 0⟩,
  ⟨0xC, 1, 4, false, 0, 0, 0, 0, 0, 0, 0⟩,
  ⟨0x10, 1, 4, false, 0, 0, 0, 0, 0, 0, 0⟩,
  ⟨0x14, 1, 4, false, 0, 0, 0, 0, 0, 0, 0⟩,
  ⟨0x18, 1, 4, false, 0, 0, 0, 0, 0, 0, 0⟩,
  ⟨0x1C, 1, 4, false, 0, 0, 0, 0, 0, 0, 0⟩,
  ⟨0x20, 1, 4, false, 0, 0, 0, 0, 0, 0, 0⟩,
  ⟨0x24, 1, 4, false, 0, 0, 0, 0, 0, 0, 0⟩,
  ⟨0x28, 1, 4, false, 0x3E8, 0xFFFF, 0, 0, 0, 0, 0⟩,
  ⟨0x2C, 1, 4, false, 0, 0x3, 0, 0, 0, 0, 0⟩,
  ⟨0x30, 1, 4, true, 0, 0, 0, 0, 0, 0, 0⟩]

/-! ### Block BLY: base 0x380000 (R400; 19_belay.md) -/

def BLY_CFG : Nat := 0x380000
def BLY_CFG_THR : Fld := ⟨BLY_CFG, 6, 0⟩
def BLY_ST : Nat := 0x380004
def BLY_ST_REFUSED : Fld := ⟨BLY_ST, 5, 5⟩
def BLY_ST_CUTSEEN : Fld := ⟨BLY_ST, 4, 4⟩
def BLY_ST_SAVEDSEEN : Fld := ⟨BLY_ST, 3, 3⟩
def BLY_ST_SAVING : Fld := ⟨BLY_ST, 2, 2⟩
def BLY_ST_SAGNOW : Fld := ⟨BLY_ST, 1, 1⟩
def BLY_ST_ARMED : Fld := ⟨BLY_ST, 0, 0⟩
def BLY_SAVECNT : Nat := 0x380008
def BLY_SAVECNT_V : Fld := ⟨BLY_SAVECNT, 31, 0⟩
def BLY_USED : Nat := 0x38000C
def BLY_USED_V : Fld := ⟨BLY_USED, 31, 0⟩
def BLY_LASTDUR : Nat := 0x380010
def BLY_LASTDUR_V : Fld := ⟨BLY_LASTDUR, 15, 0⟩
def BLY_RSTTIME : Nat := 0x380018
def BLY_RSTTIME_V : Fld := ⟨BLY_RSTTIME, 63, 0⟩

/-- The registers of block BLY. -/
def regsBLY : List RegDef := [
  ⟨0x0, 1, 4, false, 0x69, 0x7F, 0, 0, 0, 0, 0⟩,
  ⟨0x4, 1, 4, false, 0, 0, 0, 0x38, 0, 0, 0⟩,
  ⟨0x8, 1, 4, false, 0, 0, 0, 0, 0, 0, 0⟩,
  ⟨0xC, 1, 4, false, 0, 0, 0, 0, 0, 0, 0⟩,
  ⟨0x10, 1, 4, false, 0, 0, 0, 0, 0, 0, 0⟩,
  ⟨0x18, 1, 4, true, 0, 0, 0, 0, 0, 0, 0⟩]

/-- The blocks and instance arrays of R484. -/
def blocks : List Block := [
  ⟨0x000000, 0x10000, 1, regsID⟩,
  ⟨0x010000, 0x10000, 1, regsPWR⟩,
  ⟨0x020000, 0x10000, 1, regsBOOT⟩,
  ⟨0x030000, 0x20, 8, regsHOST⟩,
  ⟨0x030100, 0xFF00, 1, regsHCTL⟩,
  ⟨0x040000, 0x20, 32, regsSTR⟩,
  ⟨0x040400, 0xFC00, 1, regsSLST⟩,
  ⟨0x050000, 0x1000, 4, regsCSP⟩,
  ⟨0x060000, 0x400, 2, regsETH⟩,
  ⟨0x060800, 0xF800, 1, regsBB⟩,
  ⟨0x080000, 0x1000, 16, regsAX⟩,
  ⟨0x100000, 0x2000, 20, regsKE⟩,
  ⟨0x128000, 0x8000, 1, regsENG⟩,
  ⟨0x200000, 0x100, 4, regsPWMG⟩,
  ⟨0x201000, 0x40, 32, regsPWM⟩,
  ⟨0x202000, 0x40, 8, regsSOG⟩,
  ⟨0x240000, 0x1000, 4, regsGD⟩,
  ⟨0x260000, 0x10, 32, regsCMP⟩,
  ⟨0x261000, 0xF000, 1, regsMON⟩,
  ⟨0x280000, 0x10, 36, regsDEC⟩,
  ⟨0x280300, 0x3D00, 1, regsBUS⟩,
  ⟨0x284000, 0x20, 32, regsSNS⟩,
  ⟨0x288000, 0x1000, 1, regsHKC⟩,
  ⟨0x2C0000, 0x40, 8, regsFB⟩,
  ⟨0x2C0400, 0x10, 8, regsSI⟩,
  ⟨0x2C0500, 0x10, 8, regsSO⟩,
  ⟨0x2C1000, 0x100, 8, regsCAP⟩,
  ⟨0x2C2000, 0x40, 4, regsPCO⟩,
  ⟨0x300000, 0x1000, 1, regsFP⟩,
  ⟨0x340000, 0x2000, 1, regsFLT⟩,
  ⟨0x360000, 0x10000, 1, regsLOG⟩,
  ⟨0x380000, 0x3000, 1, regsBLY⟩]

end Sys2Proof.Machine
end

