-- ==== Sys2Proof/Machine/Units.lean ====
section
/-! DEFINITION. The plain records that State is made of, chapter by chapter: what the spec gives a slot's
generator, a stream, a log, a collector and so on beside their registers. Every field is data. -/
namespace Sys2Proof.Machine

/-- A field that hardware or software has set to a non-zero value (R6): in which fabric cycle, the register word, the
bits set to 1 and the word before. -/
structure SetBits where
  cycle : Nat := 0
  a : Nat := 0
  bits : Nat := 0
  old : Word := 0
deriving DecidableEq, Repr

/-- The strap balls latched at reset (R8, R404). -/
structure Straps where
  boot : Nat := 0
  hostif : Nat := 0
  gdm : Nat := 0
  safe : Bool := false
  untested : Bool := false
  node : Nat := 0
  cspw : Bool := false
deriving DecidableEq, Repr

/-- Where the device stands (R409, R423, R430). -/
inductive Power where
  | running      -- out of reset
  | inReset      -- held in reset
  | entering     -- entering bivouac (R430)
  | bivouac      -- the motion die is off
  | waking       -- R432, R433
deriving DecidableEq, Repr

/-! ### Motion (02_motion_planning.md) -/

/-- A generator state in units of 2^−32 au, au/tick, au/tick², au/tick³ (R36). -/
structure Motion where
  p : Int := 0
  v : Int := 0
  a : Int := 0
  j : Int := 0
deriving DecidableEq, Repr

/-- A phase of constant jerk: ticks left, jerk, and the value `a` takes at its first tick (R36). -/
structure Phase where
  ticks : Nat := 0
  jerk : Int := 0
  acc : Option Int := none
deriving DecidableEq, Repr

/-- What the generator sets exactly at the last tick of a pitch or stop (the second table of R36). -/
inductive Finish where
  | target (p v : Int)
  | speed (v : Int)
  | rest
deriving DecidableEq, Repr

/-- Where a running pitch stands. -/
inductive Stage where
  | moving          -- a planned trapezoid, S-curve, cubic or rappel pitch; its end ends the pitch
  | overshoot       -- R44, UNREACH = 0: stopping, then planning again
  | giveUp          -- R44, UNREACH = 1: stopping, then abandoned
  | toSpeed         -- R46: the change of a velocity pitch; R47 step 2
  | atSpeed         -- R46: at the target velocity; R47 step 3
  | rangeEnd        -- R47: stopping at the end of HOME_RANGE
  | stalled         -- R47: a stall was declared; steps 4 and 5 follow at the next tick
  | backoff         -- R47 step 6
deriving DecidableEq, Repr

/-- The running pitch, with the limits it started with (R37). -/
structure Pitch where
  words : List Word := []
  index : Nat := 0
  stage : Stage := .moving
  vmax : Rat := 0
  amax : Rat := 0
  jmax : Rat := 0
  rapdec : Rat := 0
  range : Nat := 0            -- HOME_RANGE and HOME_BACK of a homing pitch, au
  back : Nat := 0
  ipct : Rat := 1             -- part of the run current that a homing pitch uses
  target : Int := 0
  v1 : Int := 0
  start : Int := 0
  overshot : Bool := false    -- the target was overshot (R44)
  under : Bool := false
  unreach : Bool := false
deriving DecidableEq, Repr

/-- A timestamped setpoint with its effective time (R53). -/
structure SetPoint where
  t : Nat := 0
  p : Int := 0
  v : Int := 0
  velok : Bool := false
deriving DecidableEq, Repr

/-- What moves the generator when no pitch does. -/
inductive Drift where
  | coast           -- continues at its velocity with zero acceleration
  | underStop       -- R49, UNDER = 1
  | rappel          -- R48, a slot in RAPPEL
  | starveStop      -- R55
deriving DecidableEq, Repr

/-- The pitch generator of a slot (R33 to R62). -/
structure Gen where
  m : Motion := {}          -- setpoint N, published
  run : Motion := {}        -- the values of the tick that runs from T_N (R62)
  nxt : Motion := {}        -- setpoint N + 1, computed during tick N
  prevP : Int := 0          -- position of setpoint N − 1, for R59
  prevRun : Motion := {}    -- the values of the tick before (R62)
  plan : List Phase := []
  fin : Option Finish := none
  pitch : Option Pitch := none
  drift : Drift := .coast
  queue : List (List Word) := []
  under : Bool := false     -- continuing in underrun (R50, PITST.UNDERRUN)
  rapDe : Bool := false     -- the rappel was entered or joined by DEENERGISE (R28)
  joined : Bool := false    -- PITCH_START has acted at this tick instant
  headAt : Nat := 0         -- cell time at which the head entry reached the head (R40)
  late : Nat := 0           -- setpoints late in the present tick (R357)
  -- setpoints (R52 to R55)
  points : List SetPoint := []
  segFrom : Option SetPoint := none
  segV : Option Int := none
  coastLeft : Nat := 0
  starving : Bool := false
  -- gear (R56 to R58)
  gearNum : Int := 1
  gearDen : Nat := 1
  gearLoad : Bool := false
  gearCount : Int := 0
  gearIdle : Nat := 64
  -- step output (R59, R60)
  sent : Nat := 0           -- steps of this tick already emitted
  sched : Nat := 0          -- steps scheduled for this tick
  stepDir : Bool := false
  setup : Nat := 0          -- direction setup time of this tick, ns (R59)
  blSeen : Bool := false    -- the backlog that stands has raised its source (R367)
deriving DecidableEq, Repr

/-! ### Prusik (04_sensorless.md) -/

/-- The estimator's own state (R91 to R111). Angles in au, speeds in electrical rad/s. -/
structure Prusik where
  th : Rat := 0
  om : Rat := 0
  iA : Rat := 0             -- observer currents, A
  iB : Rat := 0
  eA : Rat := 0             -- back-EMF, V
  eB : Rat := 0
  w : Rat := 0              -- blend weight
  pos : Rat := 0            -- p̂, au
  at_ : Nat := 0            -- cell time of the latest estimate
  inj : Bool := false
  n : Nat := 0              -- injection phase
  fade : Nat := 0           -- estimator instants left of the ramp-down
  warm : Nat := 0           -- estimator instants until einj is valid again
  s : List (Option Rat) := []        -- demodulated samples, newest first
  hI : List (Rat × Rat) := []        -- currents of the last injection period
  hV : List (Rat × Rat) := []
  qh : Rat := 0             -- q component of the last current, A
  searchAt : Nat := 0
  lockAt : Option Nat := none        -- cell time since which |einj| < 0.05
  noPol : Bool := false     -- the search runs without a polarity test (R112)
  forced : Option Nat := none        -- cell time at which forced alignment began
  slow : Nat := 0           -- consecutive ticks above F_HI
  pol : Nat := 0            -- the polarity test drives along +d̂ (0), along −d̂ (1), or has ended both (2)
  prev : Option (Rat × Rat × Nat) := none -- the estimate before the latest: angle, speed and instant (R90)
  resumed : Bool := false   -- restored from a record (R112)
  blocked : Bool := false   -- a failed search with FALLBK = 0 blocks the generator
  searched : Bool := false  -- the search has completed, or none was called for
  crit : Option (Nat × Int) := none  -- the load-angle criterion holds: instants so far, setpoint position at its start
  slip : Option (Nat × Int) := none  -- the same for the speed deficit
  armed : Bool := true      -- a stall may be declared
  clear_ : Nat := 0         -- consecutive ticks with both criteria clear
  critNow : Bool := false
  sq : Rat := 0             -- sum of |ei|² in the tick, A²
  sqN : Nat := 0
  bad : Nat := 0            -- consecutive ticks with a large residual
  good : Nat := 0           -- consecutive ticks of VALID in fallback
  par : Tab Word := []      -- parameters as read at the last tick instant, by slot offset
  thI : Rat := 0            -- θ_i, the angle of the commanded current vector
  recover : Bool := false   -- VALID waits for a run in EMF mode or a new lock after an emergency swap (R112)
  emfAt : Option Nat := none -- cell time since which EMODE is EMF
deriving DecidableEq, Repr

/-! ### Current control (03_current_control.md) -/

/-- The hold ramp of R82. Ticks are counted at tick instants. -/
inductive Ramp where
  | run                     -- at IRUN
  | delay (ticks : Nat)     -- in HOLD, HOLD_DLY not yet over
  | fall (ticks : Nat)      -- ramping from IRUN to IHOLD, ticks done
  | held                    -- at IHOLD
  | wait                    -- entry from IDLE, before the rise: no current
  | rise (ticks off : Nat)  -- rising from zero to IHOLD: ticks done, and the part of the first tick before the rise, ns
  | down (ticks : Nat)      -- the shutdown ramp
deriving DecidableEq, Repr

/-- The inputs a route sees: the snapshot of R161. -/
structure Snapshot where
  time : Nat := 0           -- cell time of the scheduled instant
  tau : Nat := 0            -- time since T_N, ns
  cur : List Rat := []      -- currents of the channel roles, mA
  wd : List Rat := []       -- blind weights, 0 to 1
  brk : List Rat := []      -- the same of the brake bridge
  brkWd : List Rat := []
  corr : List Rat := []     -- the corrected currents of R66
  vbus : Nat := 0           -- bus voltage of the local channels' group, mV
  vbrk : Nat := 0           -- bus voltage of the brake bridge's group, mV
  fbpos : Int := 0          -- rebase included
  fbvel : Int := 0          -- 32.32
  fbst : Nat := 0           -- sel 4 of rdf (R165)
  sp : Motion := {}         -- the setpoint in effect, with the acceleration and jerk of the tick
  spTick : Nat := 0         -- T_N
  lidx : Nat := 0
  peak : Bool := false
  st : Nat := 0             -- sel 10 of pos (R166)
deriving DecidableEq, Repr

/-- The factory control route's own state (R63 to R87). -/
structure Cc where
  xd : Rat := 0             -- integrators, V
  xq : Rat := 0
  xv : Rat := 0             -- speed integrator, mA
  iqRef : Rat := 0
  held : List Rat := []     -- the last corrected channel currents, mA
  ramp : Ramp := .run
  lastRun : Option Nat := none  -- cell time of the stage's previous loop instant (R77)
  lidx : Nat := 0           -- index of the latest loop instant within its tick (R178)
  peak : Bool := false      -- that instant is a peak
  estCount : Nat := 0       -- loop instants since HOLD was entered, for R89
  shadow : Tab Word := []   -- the shadow of R79, by slot offset
  staged : Bool := false    -- it holds writes that no APPLY has covered
  apply : Bool := false     -- APPLY given for it, to be taken at the next tick instant
  frozen : Option (Tab Word) := none -- the shadow to take when staging ended with its APPLY
  cfgNext : Option Word := none -- an accepted CC_CFG change, applied at the next tick (R74)
  ilim : Nat := 0           -- current amplitude now, mA (R82)
  calKind : Nat := 0        -- 0 none, 1 OFSCAL, 2 KCAL, 3 ALIGN, 4 IDENT (R109)
  calStep : Nat := 0        -- the step of KCAL under way
  calFree : Nat := 0        -- the number of the free value that stands for the length of IDENT's first injection
  calAt : Nat := 0          -- cell time at which the calibration began
  ferr : Bool := false      -- the following error is beyond FERR (R367)
  brkAt : Nat := 0          -- cell time at which the brake's present state began (R86)
  vNew : Nat × Rat × Rat := (0, 0, 0)  -- the latest vector written, α and β in V, with its loop instant
  vOld : Nat × Rat × Rat := (0, 0, 0)  -- the one before
  latch : Option Snapshot := none      -- the snapshot of the latest instant (R161)
  prLast : Option (Nat × Nat × Bool × Prusik) := none -- the estimator as a trip stopped it: cell time, EMODE, VALID, state (R114)
  late : Option (List (Nat × Nat × Nat)) := none -- a vector that missed its update point (R169): channel, request, compare
deriving DecidableEq, Repr

/-! ### PWM, gate drive and comparators (08, 09, 10) -/

/-- The latest turn-off of a gate: its cell time, whether a trip made it, and the filter histories that it cleared, by
which a sample of that same instant is still judged (R222, R235). -/
structure Cut where
  at_ : Nat := 0
  trip : Bool := false
  main : List Bool := []
  hard : List Bool := []
deriving DecidableEq, Repr

/-- One gate of a channel with the comparators of its sense input. -/
structure Gate where
  on : Bool := false
  onAt : Nat := 0           -- cell time of the latest turn-on (R225)
  scf : Word := 0x0000533E  -- SCF in force since that turn-on (R228)
  main : List Bool := []    -- main-comparator history, newest first (R226)
  hard : List Bool := []    -- hard-comparator history (R227)
  setting : Nat := 3        -- the drive setting that the latest edge used (R204)
  soft : Bool := false      -- that edge was a soft turn-off, 0.5 A for 300 ns and then setting 7 (R211)
  cut : Option Cut := none
deriving DecidableEq, Repr

/-- A PWM channel beside its registers (R184 to R193). Edge times are cell times in steps of 500 ps. -/
structure PwmChan where
  h : Gate := {}              -- high side
  l : Gate := {}              -- low side
  incoming : Option Bool := none -- in dead time: the side applied when it runs out (true: high)
  deadAt : Nat := 0           -- when it runs out
  edges : List (Nat × Bool) := [] -- compare edges still to come, in order, and whether they ask for the high side
  pulse : Option Nat := none  -- when the high-side pulse of the period turns on; none while it has none
  extra : Int := 0            -- carry taken into this period: on-time of the high side, or negative of the low side (R188)
  lead : Nat := 0             -- half of what a carry adds to the low-side pulse at the coming valley: it delays the next rising edge
  skip : Bool := false        -- the high side stays on through the coming valley
  lowLen : Option (Nat × Bool) := none -- a low-side pulse at the coming tick valley at or near the minimum: requested length, dropped already
  noLow : Nat := 0            -- carrier periods without low-side conduction (R191)
  lowSeen : Bool := false     -- the low side has conducted in this period
  refresh : Bool := false     -- a refresh pulse runs at the coming valley (R191)
  vhArmed : Bool := false     -- VH comparator armed in a bootstrap group (R203)
  disarmed : Option (Nat × Bool) := none -- when a trip or reaction disarmed the channel, and whether its VH comparator was armed
  want : Nat := 0             -- mode requested by the modulator: 0 OFF, 1 SWITCH, 2 LOWON (R193)
  offLog : List (Nat × Bool) := [] -- changes of its gates, newest first: cell time, and whether both are off from then (R65)
  sampAt : Option Nat := none -- cell time of its latest comparator sample (R223)
  thrOld : Option (Nat × Word) := none -- a write of SCTHR: its cell time and the word before it (R222)
  scfOld : Option (Nat × Word) := none -- the same of CMPc_SCF (R235)
deriving DecidableEq, Repr

/-- A side of a channel. -/
def PwmChan.gate (x : PwmChan) (high : Bool) : Gate := if high then x.h else x.l
def PwmChan.setGate (x : PwmChan) (high : Bool) (g : Gate) : PwmChan := if high then { x with h := g } else { x with l := g }

/-- A group counter beside its registers (R180 to R183). -/
structure PwmGroup where
  down : Bool := false        -- the counter counts down (the last event was a peak)
  idx : Nat := 0              -- valleys since the tick valley
  valley : Nat := 0           -- cell time of the latest valley, in steps of 500 ps
  lost : Bool := false        -- the difference found at the latest tick valley was above 16 counts (R183)
  sampAt : Option Nat := none -- cell time of the latest comparator sample of the group (R223)
deriving DecidableEq, Repr

/-- A window monitor (R231): for each of the last samples whether it lay beyond the threshold and whether it lay back at
the release level, newest first; whether the value is outside; and the cell time of the latest sample. -/
structure Window where
  hist : List (Bool × Bool) := []
  outside : Bool := false
  at_ : Option Nat := none
deriving DecidableEq, Repr

/-! ### Streams (14_command_streams.md) -/

/-- A command held in stream memory (R306). -/
structure Cmd where
  seq : Nat := 0
  op : Nat := 0
  bad : Nat := 0              -- DETAIL of BAD_FRAME by R301, 0 when well formed
  words : List Word := []
  acc : Nat := 0              -- acceptance number, for FENCE (R310)
deriving DecidableEq, Repr

/-- A response formed and not yet sent (R303). -/
structure Rsp where
  seq : Nat := 0
  op : Nat := 0
  status : Nat := 0
  words : List Word := []
  credit : Bool := true
  reset : Bool := false       -- a reset by PWR_CTRL follows this response (R438)
deriving DecidableEq, Repr

/-- Where the running command of a stream stands. -/
inductive Progress where
  | idle                                     -- no command runs
  | placing (next : Nat) (ixs : List Nat)    -- a COMMAND offering its entries (R304): entries placed, and the indices given
  | waiting (ixs : List Nat)                 -- WAITDONE: the indices of the pitches it carries
  | stuck (ixs : List Nat)                   -- the same, but FLUSH has discarded the last of them: its end never comes
  | working                                  -- FENCE, SWAP and commands that complete when their work does
deriving DecidableEq, Repr

/-- A stream (R306 to R316). -/
structure Stream where
  queue : List Cmd := []
  prog : Progress := .idle
  pend : List Rsp := []
  state : Nat := 0            -- 0 IDLE, 1 ACTIVE, 2 HALTED, 3 SUSPENDED
  heldState : Nat := 0        -- the state before a suspension
  reason : Nat := 0
  haltAfter : Nat := 0        -- REASON of a halt that waits for the running command (R315)
  haltSeq : Nat := 0
  int : Bool := false
  discard : Nat := 0
  lastSeq : Nat := 0
  nextSeq : Nat := 0
  unsynced : Bool := true
  ctrl : Option (Nat × Nat × Nat) := none  -- control frame held during a suspension: opcode, SEQ, LEN-error flag
deriving DecidableEq, Repr

/-- The Ethernet header of a host frame (R341, R342). -/
structure EthHead where
  dst : Nat := 0
  src : Nat := 0
  tag : Option Nat := none    -- the tag's PCP and VID
  etype : Nat := 0
deriving DecidableEq, Repr

/-- A host frame sent or to be sent. -/
structure OutFrame where
  port : Nat := 0             -- once sent: 0 CSP0, 1 CSP1, 2 ETH0, 3 ETH1
  host : Nat := 0
  stream : Nat := 0
  op : Nat := 0
  seq : Nat := 0
  status : Nat := 0
  cred : Nat := 0
  words : List Word := []
  eth : Option EthHead := none -- on the backbone (R341, R342)
deriving DecidableEq, Repr

/-- What a host identity holds beside its registers (R281, R282, R291). -/
structure HostSt where
  shadow : Option (Nat × Word × Nat) := none  -- address of the quantity, high word, cell time of the latch
  stage : Option (Nat × Word × Nat) := none   -- address, held low word, cell time
  lastFrame : Nat := 0
  page : Nat := 0                             -- its LOG_PAGE (R381)
  notify : List (Word × Word × Nat) := []     -- its notification queue (R370)
  notifyBusy : Option OutFrame := none        -- a notification frame waiting to be sent
deriving DecidableEq, Repr

/-! ### Faults and the log (17, 18) -/

/-- A fault message (R355): words 0 and 1 and TIME. -/
structure Msg where
  w0 : Word := 0
  w1 : Word := 0
  time : Nat := 0
deriving DecidableEq, Repr

/-- A log record (R376): words 0 and 1 and TIME. -/
structure LogRec where
  w0 : Word := 0
  w1 : Word := 0
  time : Nat := 0
deriving DecidableEq, Repr

/-- The collector's buffer (R363, R365). -/
structure Collector where
  buffer : List Msg := []
  recent : List Msg := []     -- the messages recorded last, oldest first, at most 16 (R392)
  taken : Tab Nat := []       -- cell time of the last message taken, keyed by 64 × source + kind
  recAt : Option Nat := none  -- the fabric cycle in which the latest message was recorded (R365)
deriving DecidableEq, Repr

/-- The summit log (R376 to R385). -/
structure SummitLog where
  ring : Tab LogRec := []
  offers : List LogRec := []  -- records offered by blocks other than the collector, waiting (R377)
  fromCollector : List LogRec := []
  wrAt : Option Nat := none   -- the fabric cycle in which offered records were written last (R377)
  frzStart : Nat := 0
  frzFrom : Nat := 0          -- cell time from which the freeze timeout runs
  frzTmo : Nat := 0
  waiting : List LogRec := [] -- waiting to be mirrored, oldest first (R384)
  tail : List LogRec := []    -- the state-store tail, oldest first, at most 512
deriving DecidableEq, Repr

/-! ### Engines and swaps (05, 06, 07) -/

/-! ### Engines (05, 06, 07) -/

/-- A stage block: sixteen 24-bit mantissas and one exponent (R115, R117). -/
structure Blk where
  m : List Int := List.replicate 16 0
  e : Int := -128
deriving DecidableEq, Repr

/-- An accumulator: A × 2^(Ea − 46) (R151). -/
structure Acc where
  a : Int := 0
  e : Int := 0
deriving DecidableEq, Repr

/-- An active hardware loop (R157). -/
structure LoopRec where
  first : Nat := 0
  last : Nat := 0
  left : Nat := 0           -- passes still to run, the present one included
  depth : Nat := 0
deriving DecidableEq, Repr

/-- A route image as an engine or a bank holds it (R407). -/
structure Route where
  factory : Nat := 0        -- 0 a committed image; 1 the factory control route; 2 the factory Prusik route
  sig : List Word := []
  isa : Nat := 0
  epoch : Nat := 0
  role : Nat := 0
  entry : Nat := 0
  bmask : Nat := 0
  nw : Nat := 0
  dbase : Nat := 0
  prog : List Word := []
  data : List Word := []
deriving DecidableEq, Repr

/-- A lead swap or an emergency swap of a slot (R132 to R136). -/
structure Swap where
  src : Nat := 0
  tgt : Nat := 0
  role : Nat := 0
  route : Nat := 0
  ticks : Nat := 0            -- cell ticks spent in WAITCKP
  passes : Nat := 0           -- shadow passes run
  streak : Nat := 0           -- consecutive matches
  srcOut : Option (Nat × Option (List Int)) := none -- the source's latest pass: its instant, and what it wrote
  tgtOut : Option (Nat × Option (List Int)) := none -- (compare values, or θ̂)
  same : Bool := false        -- both engines hold the same factory route
  vec : List (Nat × Nat × Nat) := [] -- the target's captured vector: channel, request, compare
  matchAt : Nat := 0          -- the instant of the pass that reached SHADOWN matches
  matched : Bool := false     -- SHADOWN matches reached
  instants : Nat := 0         -- loop instants since an emergency began
  warm : Bool := false
  loaded : Bool := false
  gapped : Bool := false
  switched : Bool := false
  emerg : Bool := false       -- an emergency swap of its role runs (R136)
  img : Option Route := none  -- the route that its target is to run
deriving DecidableEq, Repr

/-- What a target of the flash holds (R405, R413): a bank's SFW, CAL or TOPO area or one route index. -/
structure Img where
  st : Nat := 0             -- 0 erased, 1 being written by the session, 2 valid
  untested : Bool := false
  accepted : Bool := false
  factory : Bool := false   -- an image of the factory fill, whose words R405 leaves to the flash
  words : List Word := []
deriving DecidableEq, Repr

/-- A message on its way to a mailbox (R175). -/
structure Send where
  dest : Nat := 0           -- engine number; 31 the partner
  ch : Nat := 0
  slot : Option Nat := none -- the sender's slot and role, for the partner
  role : Nat := 0
  words : List Word := []
deriving DecidableEq, Repr

/-- An engine's copy of a capture record (R171). -/
structure CapCopy where
  time : Nat := 0
  pos : List Int := []
  count : Nat := 0
deriving DecidableEq, Repr

/-- What an engine holds beside its registers and memories (R115, R121, R129, R175). -/
structure Engine where
  g : Tab Word := []
  acc : Tab Acc := []
  blk : Tab Blk := []
  sat : Nat := 0
  preds : Nat := 0          -- p7 to p1 in bits 7 to 1
  astat : Nat := 0
  estat : Nat := 0          -- WLATE, EDROP
  pc : Nat := 0
  stack : List Nat := []    -- return stack, top first
  loops : List LoopRec := []-- innermost first
  fresh : Bool := true      -- the next pass is a start of the route (R143)
  inPass : Bool := false    -- a pass runs and has not reached wait
  due : Option Nat := none  -- cell time of a scheduled instant that waits for ENGINE_PASS_START
  cyc : Nat := 0            -- the next cycle of the pass at which an instruction can issue
  rdy : Tab Nat := []       -- cycle of the pass from which a result or a unit is free (R141)
  passn : Nat := 0
  inst : Nat := 0           -- cell time of the scheduled instant
  endAt : Nat := 0          -- cell time at which the latest pass reached wait
  skipped : Nat := 0        -- instants skipped by the present overrun
  ctimeh : Word := 0
  snap : Snapshot := {}
  route : Option Route := none
  pbase : Nat := 0          -- the factory route (1 or 2) whose program memory holds where nothing has written since
  dbase : Nat := 0          -- 16 + the free value that stands for its data words; 0 none
  written : List Nat := []  -- words (program, then data from 16,384) written over a factory route's
  loading : Option (Nat × Route) := none
  unret : Bool := false     -- UNRETIRE is re-initialising the memories
  halt : Bool := false      -- HALT given, taken at the next wait
  trace : Tab Nat := []     -- entry index to value + 2^32 × tag
  trNext : Nat := 0
  trPass : Nat := 0         -- entries recorded in this pass
  trLeft : Nat := 0         -- entries still recorded after the trigger
  evts : Nat := 0           -- evt records offered in this pass
  boxes : Tab (List Word × Nat) := []
  outbox : List Send := []
  caps : Tab CapCopy := []
  angle : Option Nat := none -- the angle that wra gives the pass (R170)
  wrote : Bool := false     -- the pass wrote its vector, or sent to its partner on channel 0
deriving DecidableEq, Repr

/-- The checkpoint buffer of a slot and role: the half with the latest valid record, the tick it belongs to, and for a
record of a factory route the state it carries. -/
structure Ckp where
  half : Option Nat := none
  tick : Option Nat := none
  fac0 : Option Nat := none  -- a factory record in half 0: the free value that stands for its words
  fac1 : Option Nat := none
  pend : Option (Nat × Nat × Nat) := none -- a record still being written: half, tick, and cell time of its last word (R179)
  xs : Rat × Rat × Rat := (0, 0, 0) -- x_d, x_q and xv of the control route
  pr : Prusik := {}
deriving DecidableEq, Repr

/-! ### Converters and ports (11, 12) -/

/-- A decimated channel beside its registers (R236 to R242). -/
structure Dec where
  settleAt : Nat := 0       -- cell time from which it settles (R240)
  outAt : Option Nat := none -- cell time of its latest output
  old : Option (Nat × Word) := none -- a change of DECc_CFG that waits for the next output: its cell time and the setting in force
  ins : List (Int × Int × Bool) := [] -- the inputs of the filter, newest first: mirror currents (nA) or bus voltage (mV), and the blind input
  outs : List (Rat × Rat) := [] -- filter outputs that the notch averages, newest first: value and blind weight
  val : Rat := 0            -- the output published last: i_c in mA, or mV
  wd : Rat := 0             -- its blind weight
  winOld : Option (Nat × Word) := none -- the latest write of the bus window: its fabric cycle and the word before (R258)
deriving DecidableEq, Repr

/-- The housekeeping converter (R244 to R257). -/
structure Hkc where
  conv : Nat := 0           -- 0 none, 1 regular, 2 injected, 3 rolling calibration
  idx : Nat := 0            -- injected entry running
  start : Nat := 0          -- cell time at which the conversion began
  injRun : Bool := false    -- an injected sequence has entries left
  injPend : Option Nat := none -- a pending one, with the cell time of its trigger
  trig : List Nat := []     -- triggers that have arrived, by cell time
  passes : Nat := 0
  rollDue : Bool := false
  rollStep : Nat := 0
  refAt : Nat := 0          -- cell time of the latest change of reference
  autoCal : Bool := false   -- the calibration of this power-up has started
  calAt : Nat := 0
deriving DecidableEq, Repr

/-- An input line behind its level filter (R260): the accepted level and the cell time of its acceptance, plus 1. -/
structure Line where
  lvl : Bool := false
  at_ : Nat := 0
deriving DecidableEq, Repr

/-- The level of an output ball: driven, or released by an open-drain output (R259, R269, R273). -/
inductive PinLevel where
  | low
  | high
  | released
deriving DecidableEq, Repr

/-- A port's count and what its velocity rests on, as they stood before fabric cycle `cycle` (R274). -/
structure FbBefore where
  cycle : Nat := 0
  cnt : Nat := 0
  times : List Nat := []
  up : Bool := false
  step : Int := 0
  frames : Nat := 0
deriving DecidableEq, Repr

/-- A feedback port (R259 to R264). -/
structure FbPort where
  uvw : Nat := 0            -- the magnetic-switch state to which the next one is relative, 0 when none
  jump : Bool := false      -- a jump or an invalid state has come since (R262)
  old : Option FbBefore := none -- the port before the cycle of its latest change of count (R274)
  zAt : Nat := 0            -- cell time of the latest Z latch, plus 1
  times : List Nat := []    -- cell times of the counts in one direction, newest first, at most five
  up : Bool := false
  first : Bool := true      -- no SSI frame since the mode was set
  busy : Bool := false      -- an SSI frame runs
  raw : Nat := 0            -- previous decoded frame
  step : Int := 0           -- counts added by the latest frame
  frames : Nat := 0         -- frames since the mode was set, at most 2
deriving DecidableEq, Repr

/-- A position-compare output (R272, R273). -/
structure Pco where
  armReq : Bool := false    -- ARM given, effective at the next tick instant
  armedAt : Nat := 0        -- cell time from which it watches
  prev : Option Int := none -- position before the latest count edge (CAPSRC = 1)
  edgeAt : Nat := 0         -- cell time of that edge
  endAt : Nat := 0          -- cell time at which the pulse ends or ended
  fired : Bool := false     -- a pulse has run since reset
deriving DecidableEq, Repr

/-! ### Belay (19_belay.md) -/

/-- The belay unit: the two save-set areas as words, whether each is valid, and the save in progress. -/
structure Belay where
  area0 : List Word := []
  area1 : List Word := []
  valid0 : Bool := false
  valid1 : Bool := false
  cut : Bool := false         -- the save written last was cut short (state store)
  saveCount : Nat := 0        -- state store
  used : Nat := 0             -- state store
  start : Nat := 0
  sag : Bool := false
  s4 : Bool := false
  shed : Bool := false        -- load has been shed (R390)
  pendingSave : List Word := [] -- slot, port and stream records taken at the start (R393)
  saving : Bool := false
  stopped : Bool := false     -- command execution stopped by a sag (R389)
  armed : Bool := false       -- R397; BLY_ST.ARMED reads 0 at reset
  sagAt : Nat := 0            -- cell time of the latest sag start, plus 1; 0 when none since reset
  mark : Nat := 0             -- frames accepted when the streams were recorded: those are counted in DISCARD (R402)
  hdrTime : Nat := 0
deriving DecidableEq, Repr

/-! ### Clocked serial ports (15_serial_ports.md) -/

/-- A clocked serial port beside its registers (R322 to R334). -/
structure Csp where
  queue : List Word := []     -- master entries as written to QIN, head first; the head runs while `active`
  active : Bool := false
  linked : Bool := false      -- the head started with the select still low (R328)
  startAt : Nat := 0          -- cell time at which the running entry began
  headAt : Nat := 0           -- cell time at which the head reached the head
  highAt : Nat := 0           -- cell time at which the latest entry released its select, in ns, 0 when none has
  cfgNext : Option Word := none -- an accepted CFG write that waits (R325)
  low : Bool := false         -- SS0 is low
  phase : Nat := 0            -- of the assertion: 0 first word to come, 1 words come in, 2 the device drives words, 3 discarded
  left : Nat := 0             -- words of COUNT still to drive in phase 2 (R331)
  asm : List Word := []       -- the host frame being received, oldest word first
  frames : List (List Word) := [] -- whole host frames in the receive FIFO
  keep : Bool := false        -- a host rebound away stays framed until SS0 rises (R335)
  rx : List Word := []        -- raw receive FIFO, oldest first
  tx : List Word := []        -- raw transmit FIFO
  lastTx : Word := 0          -- the raw word sent last
deriving DecidableEq, Repr

/-! ### Backbone and cell time (16_backbone.md) -/

/-- What an egress queue holds (R343). -/
inductive EgBody where
  | relayed (bytes : List Byte)
  | response (f : OutFrame)
  | gptp (message : Nat)      -- messageType of IEEE 802.1AS: 0 Sync, 2 Pdelay_Req, 8 Follow_Up, 0xB Announce
deriving DecidableEq, Repr

/-- A frame in egress memory with its length, FCS included. -/
structure EgFrame where
  len : Nat := 64
  body : EgBody := .gptp 0
  at_ : Nat := 0              -- cell time at which it was queued
deriving DecidableEq, Repr

/-- A gate control list with its cycle (R344, R345). -/
structure GateCfg where
  en : Bool := false
  base : Nat := 0
  cycle : Nat := 125000
  list : List Word := []
deriving DecidableEq, Repr

/-- An Ethernet port beside its registers. -/
structure EthPort where
  inbox : List (Nat × List Byte) := []  -- host frames received: source MAC, payload
  queues : Tab (List EgFrame) := []
  busy : Nat := 0             -- cell time at which the transmission under way ends, gap included
  relay : List (Nat × Nat) := [] -- frames in relay memory: the cell time at which each has left it, its length (R340)
  cfgOld : Option (Nat × Word) := none -- ETHp_CFG as it applies until the frame boundary at that cell time (R352)
  oper : GateCfg := {}
  adm : Option (GateCfg × Nat) := none  -- the values of the latest APPLY, with their change instant
deriving DecidableEq, Repr

/-- An Announce kept by the BMCA: priority1, class, accuracy, variance, priority2, identity, steps removed. -/
structure AnnRec where
  key : List Nat := []
  at_ : Nat := 0
deriving DecidableEq, Repr

/-- The time-aware system (R346 to R350). -/
structure Gptp where
  ann : Tab AnnRec := []
  syncAt : Nat := 0           -- cell time of the latest Sync
  good : Nat := 0             -- consecutive Syncs within LOCKTHR
  slewEnd : Nat := 0
  gmRate : Int := 0           -- the estimated grandmaster rate against the crystal, ppb
  mdioAt : Nat := 0           -- cell time at which the MDIO transaction ends
  syncTx : Nat := 0           -- cell time at which the next Sync is due
  annTx : Nat := 0            -- cell time at which the next Announce is due
  pdlyTx : Tab Nat := []      -- by port, cell time at which the next peer delay measurement is due
  headOld : List (Nat × Word × Word) := [] -- writes of ETH_HTYPE and ETH_VLAN, latest first: cell time, both words before (R354)
deriving DecidableEq, Repr

/-! ### Power and front panel (21, 22) -/

/-- Bivouac: what the base camp domain latches (R430 to R434). -/
structure Bivouac where
  entryAt : Nat := 0          -- cell time at entry
  mode : Nat := 0             -- CT_ST.MODE at entry
  inten : Bool := false       -- a wake event arrived during entry
  wakeAt : Nat := 0           -- estimate of cell time at the waking event
deriving DecidableEq, Repr

/-- A touch pad (R444). -/
structure Pad where
  count : Nat := 0            -- consecutive scans that call for a change
  since : Nat := 0            -- cell time at which it was touched
  started : Bool := false     -- a scan has set the baseline
  recal : Bool := false
deriving DecidableEq, Repr

/-- A motor-presence test under way on a slot (R447, R448). -/
structure PresTest where
  path : Nat := 0             -- the path under test
  failed : Option Nat := none -- the first path that failed
  skipped : Bool := false
  tcp : Nat := 50             -- TCP as the test began: a write applies from the next test (R453)
  bind : Option (Writer × Word) := none -- a bind write of KIND 0 that waits for the end of the test (R454)
deriving DecidableEq, Repr

/-- The front panel beside its registers. -/
structure Panel where
  pads : Tab Pad := []
  ins : Tab Nat := []         -- consecutive samples at the other level: 0 to 3 buttons, 8 to 15 presence balls
  ring : Tab (List Word) := []
  held : List (Nat × Nat × Nat × Nat) := [] -- events decided in bivouac: type, detail, number, cell time (R450)
  tests : Tab PresTest := []
  nextTest : Tab Nat := []    -- cell time of a slot's next periodic test
  flip : List Nat := []       -- slots whose next test drives the paths in reverse
  lamps : List Nat := []      -- lamp drivers that are on
deriving DecidableEq, Repr

end Sys2Proof.Machine
end

