-- ==== Sys2Proof/Machine/ResetValues.lean ====
section
/-! DEFINITION. Finding a register by its address (R484, R485) and the value each register has after reset:
the value of its row, or, where the row gives none, the value that its rule or the assumption log names. -/
namespace Sys2Proof.Machine

/-- A register word found in the map: its row, the element index and whether it is the high word of a
64-bit quantity. -/
structure RegHit where
  inst : Nat
  row : RegDef
  idx : Nat
  high : Bool
deriving DecidableEq, Repr

/-- Whether byte offset `off` of an instance lies in a word of row `r`. -/
def regRowHit (inst off : Nat) (r : RegDef) : Option RegHit :=
  let width := if r.wide then 8 else 4
  if off < r.off then none else
    let d := off - r.off
    if r.rep ≤ 1 then (if d < width then some ⟨inst, r, 0, decide (4 ≤ d)⟩ else none)
    else if d < r.rep * r.stride ∧ d % r.stride < width then some ⟨inst, r, d / r.stride, decide (4 ≤ d % r.stride)⟩
    else none

/-- The block that holds address `a`, with the instance and the offset in it. -/
def blockAt (a : Nat) : Option (Block × Nat × Nat) :=
  (blocks.find? (fun b => decide (b.base ≤ a ∧ a < b.base + b.stride * b.count))).map
    (fun b => (b, (a - b.base) / b.stride, (a - b.base) % b.stride))

/-- The register that holds address `a`, if one is listed. -/
def findReg (a : Nat) : Option RegHit :=
  match blockAt a with
  | none => none
  | some (b, inst, off) => b.regs.findSome? (regRowHit inst off)

/-- The half of a 64-bit constant that a word of a row holds. -/
def halfOf (h : RegHit) (v : Nat) : Nat := if h.high then v / 2 ^ 32 % 2 ^ 32 else v % 2 ^ 32

/-- The default severity of source `i` (R357); unused IDs have none. -/
def defaultSev (i : Nat) : Option Nat :=
  if i = 0 then some 3
  else if i = 1 then some 4
  else if i ≤ 6 then some 1
  else if i ≤ 8 then some 0
  else if i ≤ 0xC then some 1
  else if 0x10 ≤ i ∧ i < 0x18 then some 1
  else if 0x40 ≤ i ∧ i < 0x50 then some (if i % 4 < 2 then 3 else 1)
  else if 0x100 ≤ i ∧ i < 0x200 then
    (if i % 16 = 0 ∨ i % 16 = 7 then some 0 else if i % 16 = 9 then some 2 else if i % 16 < 9 then some 1 else none)
  else if 0x200 ≤ i ∧ i < 0x2A0 then
    (if i % 8 = 0 then some 0 else if i % 8 = 2 then some 3 else if i % 8 ≤ 4 then some 1 else none)
  else if 0x300 ≤ i ∧ i < 0x380 then some 1
  else none

/-- The window thresholds after reset (R232); index 4 LO reports the sag threshold of R400. -/
def monThrReset (x : Nat) : Nat :=
  match x with
  | 0 => 840 * 65536 + 760
  | 1 => 1890 * 65536 + 1710
  | 2 => 3465 * 65536 + 3135
  | 3 => 3780 * 65536 + 1710
  | 4 => 13200 * 65536 + 10500
  | _ => 130 * 65536 + (65536 - 45)

/-- The binding source of host `n` after reset (R276). -/
def hostSrcReset (hostif n : Nat) : Nat :=
  if n = 0 then (if hostif = 1 then 0 else 1)
  else if n = 1 then (if hostif = 3 then 1 else 0)
  else (if hostif = 0 then 0 else 2)

/-- OTP word `i` of a fresh part (R406): stepping, device number, MAC base and the Hualalis key in slot 0 are
device-specific; key slots 1 to 3, REVOKED and both secret keys are blank; the rest is trim. -/
def otpReset (i : Nat) : Word :=
  if i = 0 then 0xB2
  else if i = 1 then 0
  else if i = 4 then BitVec.ofNat 32 ((Config.otpWord 4).toNat / 8 * 8)
  else if i = 5 then BitVec.ofNat 32 ((Config.otpWord 5).toNat % 2 ^ 16)
  else if 0x48 ≤ i ∧ i ≤ 0x60 then 0
  else if 0x80 ≤ i ∧ i < 0x90 then 0
  else Config.otpWord i

/-- The words whose reset value is not a plain number of their row: strap values (R8), values by index, values
from OTP and from the boot of the factory image. -/
def resetSpecial (p : Straps) (a : Nat) : Option Nat :=
  if a < 0x010000 then
    (if a = DEV_ID then some 0x4832B203
     else if a = DEV_UID then some (otpReset 2).toNat
     else if a = DEV_UID + 4 then some (otpReset 3).toNat else none)
  else if a < 0x020000 then (if a = RST_CAUSE ∨ a = RST_CNT then some 1 else none)
  else if a < 0x030000 then
    (if a = STRAP_ST then
      some ((if p.cspw then 0x2000 else 0) + p.node * 0x400 + (if p.untested then 0x200 else 0)
        + (if p.safe then 0x100 else 0) + p.gdm * 16 + p.hostif * 4 + p.boot)
     else if a = BOOT_ST then some 0x01000000
     else if a = IMG_NONCE then some ((Config.nonce 0).toNat % 2 ^ 32)
     else if a = IMG_NONCE + 4 then some ((Config.nonce 0).toNat / 2 ^ 32)
     else if a = SFW_VER then some 1
     else if a = SFW_EPOCH then some 0x00010001
     else if a = RDIR 0 then some 0x80030001
     else if a = RDIR 1 then some 0x84030001
     else none)
  else if a < 0x040000 then
    (if a < 0x030100 ∧ a % 0x20 = 0 then some (hostSrcReset p.hostif ((a - 0x030000) / 0x20)) else none)
  else if a < 0x060000 then
    (if a = CSP_CFG 0 then some (0x22200810 + (if p.hostif = 1 then 0 else 2) + (if p.cspw then 8 else 0))
     else if a = CSP_CFG 1 then some (0x22200810 + (if p.hostif = 3 then 2 else 0)) else none)
  else if a < 0x080000 then
    (if a = ETH_CFG 0 ∨ a = ETH_CFG 1 then some (if p.hostif = 0 then 0xA else 0xB)
     else if a = ETH_MAC then some ((otpReset 4).toNat + p.node)
     else if a = ETH_MAC + 4 then some (otpReset 5).toNat else none)
  else if a < 0x100000 then (if a % 0x1000 = 0x4C then some (if p.safe then 1 else 0) else none)
  else if a < 0x201000 then
    (if 0x200000 ≤ a ∧ a < 0x200400 ∧ a % 0x100 = 0x10 then some (p.gdm / 2 ^ ((a - 0x200000) / 0x100) % 2) else none)
  else if a < 0x250000 then
    (if 0x240000 ≤ a ∧ a < 0x244000 ∧ a % 0x1000 = 0 then some (0x8C0504 + (if p.safe then 1 else 0)) else none)
  else if a < 0x280000 then
    (if 0x261100 ≤ a ∧ a < 0x261118 then some (monThrReset ((a - 0x261100) / 4)) else none)
  else if a < 0x2C0000 then
    (if 0x280000 ≤ a ∧ a < 0x280200 ∧ a % 0x10 = 0 then some 0x200103
     else if 0x280200 ≤ a ∧ a < 0x280240 ∧ a % 0x10 = 0 then some 0x1000103
     else if 0x288040 ≤ a ∧ a < 0x288050 then some (Config.hkcTrim ((a - 0x288040) / 4)).toNat
     else if 0x288050 ≤ a ∧ a < 0x288060 then some (Config.hkcTrim (4 + (a - 0x288050) / 4)).toNat else none)
  else if 0x340000 ≤ a ∧ a < 0x341000 then some ((defaultSev ((a - 0x340000) / 4)).getD 0)
  else if a = LOG_NONCE then some ((Config.nonce 1).toNat % 2 ^ 32)
  else if a = LOG_NONCE + 4 then some ((Config.nonce 1).toNat / 2 ^ 32)
  else none

/-- The value of the register word at `a` after reset; zero where no register is listed. -/
def resetWord (p : Straps) (a : Nat) : Word :=
  match resetSpecial p a with
  | some v => BitVec.ofNat 32 v
  | none =>
    match findReg a with
    | some h => BitVec.ofNat 32 (halfOf h h.row.rst)
    | none => 0

end Sys2Proof.Machine
end

