-- ==== Sys2Proof/Machine/State.lean ====
section
/-! DEFINITION. The state of the block: every register of the register space by its address, the memories of the
address space, the queue of waiting commands, and the records the chapters give beside the registers. -/
namespace Sys2Proof.Machine

/-- The model stops with a fault only where a command's operands describe no command of the table. -/
inductive Fault where
  /-- Raised by `execTouchScan` when the list does not name the eight pads, and by `execRegisterWrite` and
  `execReadClear` for an address that is not word-aligned (R4): operands that describe no command (`Instr.wf` is false).
  Safe: the hardware has no such command. -/
  | illFormed
deriving DecidableEq, Repr

/-- Why the model gives a command no meaning. -/
inductive Refusal where
  /-- Answered by an arm of `exec` that has no meaning yet. Safe: nothing is claimed of it. -/
  | notModelled (mnemonic : String)
deriving DecidableEq, Repr

/-- The state. A table lists only what differs from its default; see notes/assumptions/ for the defaults. -/
structure State where
  pending : List Instr := []
  straps : Straps := {}
  power : Power := .running
  regs : Tab Word := []
  mem : List Host.Cell := []
  now : Nat := 0              -- cell time, ns
  tickAt : Nat := 0           -- cell time of the last cell tick instant
  tickLeft : Bool := false    -- a tick instant has occurred since reset
  tickDue : Bool := false     -- the present instant is a tick instant not yet taken (R21, R350)
  drawn : Nat := 2            -- free values drawn so far (the model's own counter)
  accepts : Nat := 0          -- queued frames accepted so far (the model's own acceptance order, R310)
  newTick : Option (Nat × Nat × Bool) := none -- an accepted TICKUS value that waits, the cell time after which it applies, and whether cell time was stepped since (R21)
  setNow : List SetBits := [] -- fields set in the present fabric cycle, latest first (R6)
  gens : Tab Gen := []
  ccs : Tab Cc := []
  chans : Tab PwmChan := []
  groups : Tab PwmGroup := []
  windows : Tab Window := []
  filtOld : Option (Nat × Word × Tab Window) := none -- the latest accepted write of MON_FILT: its cell time, the word before it and the histories it cleared (R235)
  streams : Tab Stream := []
  hosts : Tab HostSt := []
  swaps : Tab Swap := []
  engines : Tab Engine := []
  ckps : Tab Ckp := []        -- by 2 × slot + role
  prs : Tab Prusik := []
  decs : Tab Dec := []
  hkc : Hkc := {}
  fbs : Tab FbPort := []
  lines : Tab Line := []      -- filtered inputs (R260): port p's A, B, Z at 4p to 4p + 2, SIs_STP and SIs_DIR at 32 + 2s and 33 + 2s, CAPk at 48 + k
  capAt : Tab Nat := []       -- cell time of the last latched edge of a capture input, plus 1
  pcos : Tab Pco := []
  coll : Collector := {}
  log : SummitLog := {}
  flash : Tab Img := []       -- images, by imgKey
  otp : Tab Word := []        -- OTP words, by word index (R406)
  bly : Belay := {}
  safeoff : Bool := false     -- SAFEOFF_N is low
  pulses : List Nat := []     -- channels that carry a continuity pulse (R208, R447)
  csps : Tab Csp := []
  eths : Tab EthPort := []
  gptp : Gptp := {}
  sent : List OutFrame := []  -- host frames sent on the ports, oldest first
  dataOut : Word := 0         -- what the latest direct register read returned
  imgIdx : Nat := 0           -- route index of the open image session (R413)
  hoCmd : Option (Nat × Nat × Bool) := none -- a handover under way: stream, bank, PERSIST (R416)
  hoAt : Nat := 0             -- cell time of its suspension
  hoDead : Bool := false      -- a sag or an S4 reaction has ended its chance of a switch (R417), or the standby core restarts after its watchdog (R437)
  rstReq : Bool := false      -- a software reset has been taken and follows the response (R438)
  biv : Bivouac := {}
  panel : Panel := {}
  portsOff : Bool := false    -- ports and links have stopped for bivouac (step 3 of R430)
deriving DecidableEq, Repr

/-- The state right after power-on reset with every strap low, booted from the factory image (R1, R409). -/
def State.reset : State := {}

/-- The motion die is powered and out of reset: everything but power and reset events needs it. -/
def State.up (s : State) : Bool := s.power == .running || s.power == .entering

/-- The outcome of a command. -/
abbrev Out := Host.Outcome State Fault Refusal

end Sys2Proof.Machine
end

