-- ==== Sys2Proof/Machine/Ops.lean ====
section
/-! DEFINITION. The named operations over the state: register words and fields, memory, free values, the records
kept per instance, and what a slot, a channel and an engine are bound to. -/
namespace Sys2Proof.Machine

/-- The effect of a command: on everything but the queue of waiting commands. -/
def State.effect (s : State) (f : State → State) : State := { f s with pending := s.pending }
/-- A command of the running device: it has its effect while the motion die is powered and out of reset, and nothing
happens otherwise. -/
def live (s : State) (f : State → State) : Out := .next (if s.up then s.effect f else s)
/-- An event that has its effect whatever state the device is in. -/
def always (s : State) (f : State → State) : Out := .next (s.effect f)

/-! ### Register words and fields (R4) -/

/-- The register word at byte address `a`. -/
def State.rd (s : State) (a : Nat) : Word := tabGet (resetWord s.straps) s.regs a

/-- Write the register word at byte address `a`. -/
def State.wr (s : State) (a : Nat) (v : Word) : State :=
  { s with regs := tabSet (resetWord s.straps) s.regs a v }

/-- The 64-bit quantity whose low word is at `a`. -/
def State.rd64 (s : State) (a : Nat) : Nat := (s.rd (a + 4)).toNat * 2 ^ 32 + (s.rd a).toNat

/-- Write the 64-bit quantity whose low word is at `a`. -/
def State.wr64 (s : State) (a : Nat) (v : Nat) : State :=
  (s.wr a (BitVec.ofNat 32 v)).wr (a + 4) (BitVec.ofNat 32 (v / 2 ^ 32))

/-- Bits hi … lo of a number. -/
def bitsOf (x hi lo : Nat) : Nat := x / 2 ^ lo % 2 ^ (hi + 1 - lo)

/-- A number with its bits hi … lo replaced. -/
def withBits (x hi lo v : Nat) : Nat :=
  x % 2 ^ lo + v % 2 ^ (hi + 1 - lo) * 2 ^ lo + x / 2 ^ (hi + 1) * 2 ^ (hi + 1)

/-- The value of a field. -/
def State.get (s : State) (f : Fld) : Nat :=
  if f.hi < 32 then bitsOf (s.rd f.a).toNat f.hi f.lo else bitsOf (s.rd64 f.a) f.hi f.lo

/-- The present fabric cycle of 5 ns (R19). -/
def State.cycle (s : State) : Nat := s.now / 5
/-- Note that bits of the register word at `a` are set in the present fabric cycle (R6). -/
def State.noteSet (s : State) (a bits : Nat) : State :=
  if bits = 0 then s
  else { s with setNow := ⟨s.cycle, a, bits, s.rd a⟩ :: s.setNow.filter (fun x => x.cycle == s.cycle) }
/-- The bits of the register word at `a` that were set in the present fabric cycle. -/
def State.setBits (s : State) (a : Nat) : Nat :=
  (s.setNow.filter (fun x => x.cycle == s.cycle && x.a == a)).foldl (fun b x => b ||| x.bits) 0
/-- The register word at `a` as it stood before the present fabric cycle set any of the bits `m` in it. -/
def State.rdBefore (s : State) (a m : Nat) : Word :=
  match (s.setNow.filter (fun x => x.cycle == s.cycle && x.a == a && x.bits &&& m != 0)).getLast? with
  | some x => x.old
  | none => s.rd a

/-- The register word at `a` as it stood at the start of the present fabric cycle, as far as writes have been noted. -/
def State.rdStart (s : State) (a : Nat) : Word := s.rdBefore a (2 ^ 32 - 1)
/-- Write a configuration word that events of the same cycle do not see yet (R274). -/
def State.wrNoted (s : State) (a : Nat) (v : Word) : State := (s.noteSet a (2 ^ 32 - 1)).wr a v

/-- Set a field, leaving the other bits of its word or quantity. -/
def State.put (s : State) (f : Fld) (v : Nat) : State :=
  if f.hi < 32 then
    (s.noteSet f.a (v % 2 ^ (f.hi + 1 - f.lo) * 2 ^ f.lo)).wr f.a (BitVec.ofNat 32 (withBits (s.rd f.a).toNat f.hi f.lo v))
  else s.wr64 f.a (withBits (s.rd64 f.a) f.hi f.lo v)

/-- Two's complement of `w` bits. -/
def signedOf (w x : Nat) : Int := if x % 2 ^ w < 2 ^ (w - 1) then (x % 2 ^ w : Nat) else ((x % 2 ^ w : Nat) : Int) - (2 ^ w : Nat)

/-- The low `w` bits of an integer. -/
def unsignedOf (w : Nat) (x : Int) : Nat := (x % ((2 ^ w : Nat) : Int)).toNat

/-- A field read as a signed number. -/
def State.geti (s : State) (f : Fld) : Int := signedOf (f.hi + 1 - f.lo) (s.get f)
/-- Set a field to the low bits of an integer. -/
def State.puti (s : State) (f : Fld) (v : Int) : State := s.put f (unsignedOf (f.hi + 1 - f.lo) v)
/-- A one-bit field. -/
def State.bit (s : State) (f : Fld) : Bool := s.get f != 0
/-- Set a one-bit field. -/
def State.flag (s : State) (f : Fld) (b : Bool) : State := s.put f (if b then 1 else 0)
/-- A write of 1 to the W1C bit `f` of the word `v` clears it, unless hardware sets it in the same fabric cycle (R5, R6). -/
def State.w1c (s : State) (f : Fld) (v : Word) : State :=
  if bitsOf v.toNat f.hi f.lo = 1 ∧ (s.setBits f.a).testBit f.lo = false then s.put f 0 else s
/-- Add to a counter field that wraps at its width. -/
def State.inc (s : State) (f : Fld) (k : Nat := 1) : State := s.put f (s.get f + k)
/-- Add to a counter field that saturates at its width. -/
def State.incSat (s : State) (f : Fld) (k : Nat := 1) : State := s.put f (min (s.get f + k) (2 ^ (f.hi + 1 - f.lo) - 1))

/-- A field of a word that is being written. -/
def fieldOf (v : Word) (f : Fld) : Nat := bitsOf v.toNat f.hi f.lo

/-- Apply an update when a condition holds. -/
def State.when (s : State) (c : Bool) (f : State → State) : State := if c then f s else s

/-- Apply an update for each element of a list, in order. -/
def State.each {α : Type} (s : State) (l : List α) (f : α → State → State) : State := l.foldl (fun t x => f x t) s

/-! ### Memory: the engine memories and cell memory of R486, and the checkpoint buffers -/

/-- The contents of a byte that nothing has written: every memory is cleared at reset (R436). -/
def memDefault (_ : Nat) : Byte := 0
/-- One byte of memory, by host address. -/
def State.rdByte (s : State) (a : Nat) : Byte := tabGet memDefault s.mem a
/-- Write one byte of memory. -/
def State.wrByte (s : State) (a : Nat) (v : Byte) : State := { s with mem := tabSet memDefault s.mem a v }
/-- The canonical form of memory. -/
def Memory.wf (m : List Host.Cell) : Bool := tabWf memDefault m
/-- A word of memory, least significant byte at the lowest address. -/
def State.rdMem (s : State) (a : Nat) : Word :=
  (s.rdByte (a + 3)) ++ (s.rdByte (a + 2)) ++ (s.rdByte (a + 1)) ++ (s.rdByte a)
/-- Write a word of memory. -/
def State.wrMem (s : State) (a : Nat) (v : Word) : State :=
  (((s.wrByte a (v.extractLsb' 0 8)).wrByte (a + 1) (v.extractLsb' 8 8)).wrByte (a + 2)
    (v.extractLsb' 16 8)).wrByte (a + 3) (v.extractLsb' 24 8)
/-- Consecutive words of memory. -/
def State.wrMems (s : State) (a : Nat) : List Word → State
  | [] => s
  | v :: vs => (s.wrMem a v).wrMems (a + 4) vs
def State.rdMems (s : State) (a : Nat) : Nat → List Word
  | 0 => []
  | k + 1 => s.rdMem a :: s.rdMems (a + 4) k

/-- Drop every byte of memory in [lo, hi): those bytes read as cleared. -/
def State.clearMem (s : State) (lo hi : Nat) : State :=
  { s with mem := s.mem.filter (fun c => decide (c.1 < lo ∨ hi ≤ c.1)) }

/-- Engine program memory (R116). -/
def progBase (e : Nat) : Nat := 0x400000 + 0x18000 * e
/-- Engine data memory (R116). -/
def dataBase (e : Nat) : Nat := 0x410000 + 0x18000 * e
/-- A half of a slot's checkpoint buffer (R131). -/
def ckpBase (n role half : Nat) : Nat := 0x660000 + 0x2000 * n + 0x1000 * role + 0x800 * half

/-! ### Free values -/

/-- The number of the next free value, counting it as drawn. -/
def State.draw (s : State) : State := { s with drawn := s.drawn + 1 }

/-! ### Records kept per instance -/

def State.gen (s : State) (n : Nat) : Gen := tabGet (fun _ => {}) s.gens n
def State.setGen (s : State) (n : Nat) (g : Gen) : State := { s with gens := tabPut s.gens n g }
def State.modGen (s : State) (n : Nat) (f : Gen → Gen) : State := s.setGen n (f (s.gen n))
def State.cc (s : State) (n : Nat) : Cc := tabGet (fun _ => {}) s.ccs n
def State.setCc (s : State) (n : Nat) (c : Cc) : State := { s with ccs := tabPut s.ccs n c }
def State.modCc (s : State) (n : Nat) (f : Cc → Cc) : State := s.setCc n (f (s.cc n))
def State.chan (s : State) (c : Nat) : PwmChan := tabGet (fun _ => {}) s.chans c
def State.setChan (s : State) (c : Nat) (x : PwmChan) : State := { s with chans := tabPut s.chans c x }
def State.modChan (s : State) (c : Nat) (f : PwmChan → PwmChan) : State := s.setChan c (f (s.chan c))
def State.group (s : State) (g : Nat) : PwmGroup := tabGet (fun _ => {}) s.groups g
def State.setGroup (s : State) (g : Nat) (x : PwmGroup) : State := { s with groups := tabPut s.groups g x }
def State.window (s : State) (w : Nat) : Window := tabGet (fun _ => {}) s.windows w
def State.setWindow (s : State) (w : Nat) (x : Window) : State := { s with windows := tabPut s.windows w x }
def State.stream (s : State) (k : Nat) : Stream := tabGet (fun _ => {}) s.streams k
def State.setStream (s : State) (k : Nat) (x : Stream) : State := { s with streams := tabPut s.streams k x }
def State.modStream (s : State) (k : Nat) (f : Stream → Stream) : State := s.setStream k (f (s.stream k))
def State.host (s : State) (h : Nat) : HostSt := tabGet (fun _ => {}) s.hosts h
def State.setHost (s : State) (h : Nat) (x : HostSt) : State := { s with hosts := tabPut s.hosts h x }
def State.modHost (s : State) (h : Nat) (f : HostSt → HostSt) : State := s.setHost h (f (s.host h))

/-- Where the emergency swap of a role (0 control, 1 estimator) of slot `n` is kept: beside the slot's lead swap (R136). -/
def emKey (n role : Nat) : Nat := 16 * (role + 1) + n
def State.swap (s : State) (n : Nat) : Swap := tabGet (fun _ => {}) s.swaps n
def State.setSwap (s : State) (n : Nat) (x : Swap) : State := { s with swaps := tabPut s.swaps n x }

def State.engine (s : State) (e : Nat) : Engine := tabGet (fun _ => {}) s.engines e
def State.setEngine (s : State) (e : Nat) (x : Engine) : State := { s with engines := tabPut s.engines e x }
def State.modEngine (s : State) (e : Nat) (f : Engine → Engine) : State := s.setEngine e (f (s.engine e))
def State.ckp (s : State) (n role : Nat) : Ckp := tabGet (fun _ => {}) s.ckps (2 * n + role)
def State.setCkp (s : State) (n role : Nat) (x : Ckp) : State := { s with ckps := tabPut s.ckps (2 * n + role) x }
def State.pr (s : State) (n : Nat) : Prusik := tabGet (fun _ => {}) s.prs n
def State.setPr (s : State) (n : Nat) (x : Prusik) : State := { s with prs := tabPut s.prs n x }
def State.modPr (s : State) (n : Nat) (f : Prusik → Prusik) : State := s.setPr n (f (s.pr n))
def State.fb (s : State) (p : Nat) : FbPort := tabGet (fun _ => {}) s.fbs p
def State.setFb (s : State) (p : Nat) (x : FbPort) : State := { s with fbs := tabPut s.fbs p x }
def State.line (s : State) (i : Nat) : Line := tabGet (fun _ => {}) s.lines i
def State.setLine (s : State) (i : Nat) (x : Line) : State := { s with lines := tabPut s.lines i x }
def State.pco (s : State) (q : Nat) : Pco := tabGet (fun _ => {}) s.pcos q
def State.setPco (s : State) (q : Nat) (x : Pco) : State := { s with pcos := tabPut s.pcos q x }
def State.modSwap (s : State) (n : Nat) (f : Swap → Swap) : State := { s with swaps := tabPut s.swaps n (f (tabGet (fun _ => {}) s.swaps n)) }

def State.dec (s : State) (c : Nat) : Dec := tabGet (fun _ => {}) s.decs c
def State.setDec (s : State) (c : Nat) (x : Dec) : State := { s with decs := tabPut s.decs c x }
def State.csp (s : State) (n : Nat) : Csp := tabGet (fun _ => {}) s.csps n
def State.setCsp (s : State) (n : Nat) (x : Csp) : State := { s with csps := tabPut s.csps n x }
def State.modCsp (s : State) (n : Nat) (f : Csp → Csp) : State := s.setCsp n (f (s.csp n))
def State.eth (s : State) (p : Nat) : EthPort := tabGet (fun _ => {}) s.eths p
def State.setEth (s : State) (p : Nat) (x : EthPort) : State := { s with eths := tabPut s.eths p x }
def State.pad (s : State) (k : Nat) : Pad := tabGet (fun _ => {}) s.panel.pads k
def State.setPad (s : State) (k : Nat) (x : Pad) : State := { s with panel := { s.panel with pads := tabPut s.panel.pads k x } }
def State.test (s : State) (n : Nat) : Option PresTest := (s.panel.tests.find? (fun x => x.1 == n)).map (·.2)
def State.setTest (s : State) (n : Nat) (t : PresTest) : State :=
  { s with panel := { s.panel with tests := tabPut s.panel.tests n t } }
/-- The presence test of a slot ends with both gates of its channels off (R448, R454). -/
def State.endTest (s : State) (n : Nat) : State := { s with panel := { s.panel with tests := tabDrop s.panel.tests n } }

/-! ### Slots (R10 to R28) -/

/-- Slot states of R26. -/
def stUnbound : Nat := 0
def stIdle : Nat := 1
def stHold : Nat := 2
def stRun : Nat := 3
def stRappel : Nat := 4
def stShutdown : Nat := 5
def stTripped : Nat := 6
def stOos : Nat := 7

/-- The number of channels of a local binding kind (R10). -/
def kindChans (kind : Nat) : Nat := match kind with | 1 => 4 | 2 => 3 | 3 => 5 | _ => 0

/-- The local channels named by a BIND word, base first (R14). -/
def localChansOf (v : Word) : List Nat :=
  (List.range (kindChans (fieldOf v (AX_BIND_KIND 0)))).map
    (fun r => 8 * fieldOf v (AX_BIND_GRP 0) + fieldOf v (AX_BIND_BASE 0) + r)

/-- The brake-bridge channels named by a BIND word (R11). -/
def brakeChansOf (v : Word) : List Nat :=
  if fieldOf v (AX_BIND_BRKEN 0) = 0 ∨ fieldOf v (AX_BIND_KIND 0) = 0 then [] else
    let b := 8 * fieldOf v (AX_BIND_BRKGRP 0) + fieldOf v (AX_BIND_BRKBASE 0)
    [b, b + 1]

def State.slotState (s : State) (n : Nat) : Nat := s.get (AX_STATE_STATE n)
def State.kind (s : State) (n : Nat) : Nat := s.get (AX_BIND_KIND n)
def State.isLocal (s : State) (n : Nat) : Bool := decide (1 ≤ s.kind n ∧ s.kind n ≤ 3)
def State.isRemote (s : State) (n : Nat) : Bool := s.kind n == 4
def State.localChans (s : State) (n : Nat) : List Nat := localChansOf (s.rd (AX_BIND n))
def State.brakeChans (s : State) (n : Nat) : List Nat := brakeChansOf (s.rd (AX_BIND n))
def State.slotChans (s : State) (n : Nat) : List Nat := s.localChans n ++ s.brakeChans n
/-- HOLD, RUN, RAPPEL or SHUTDOWN. -/
def State.energised (s : State) (n : Nat) : Bool := decide (2 ≤ s.slotState n ∧ s.slotState n ≤ 5)

/-- All slot numbers, engines, channels, groups, hosts and streams. -/
def slots16 : List Nat := List.range 16
def engines20 : List Nat := List.range 20
def chans32 : List Nat := List.range 32
def groups4 : List Nat := List.range 4
def hosts8 : List Nat := List.range 8
def streams32 : List Nat := List.range 32

/-- The slot that owns channel `c`, as a local or a brake-bridge channel. -/
def State.ownerOf (s : State) (c : Nat) : Option Nat := slots16.find? (fun n => (s.slotChans n).contains c)
/-- Channel `c` is in use by a slot in HOLD, RUN, RAPPEL or SHUTDOWN. -/
def State.chanUsed (s : State) (c : Nat) : Bool :=
  match s.ownerOf c with | some n => s.energised n | none => false
/-- A calibration or identification drives the slot's channels: KCAL, ALIGN or IDENT (R71, R72, R109). -/
def State.calDrives (s : State) (n : Nat) : Bool := decide (2 ≤ (s.cc n).calKind)
/-- Channel `c` needs its group counter: its slot is energised, or a calibration drives it (R182; DEDUCED,
notes/assumptions/34). -/
def State.chanRuns (s : State) (c : Nat) : Bool :=
  match s.ownerOf c with | some n => s.energised n || (s.calDrives n && (s.localChans n).contains c) | none => false
/-- Some energised slot uses a channel of group `g` (R195, R219). -/
def State.groupUsed (s : State) (g : Nat) : Bool :=
  slots16.any (fun n => s.energised n && (s.slotChans n).any (fun c => c / 8 == g))
/-- The groups a slot's channels lie in. -/
def State.slotGroups (s : State) (n : Nat) : List Nat := ((s.slotChans n).map (· / 8)).eraseDups
/-- The slot bound to step output `o`. -/
def State.soOwner (s : State) (o : Nat) : Option Nat :=
  slots16.find? (fun n => s.isRemote n && s.get (AX_BIND_SOUT n) == o)

/-- Set AXn_STATE.ERR (R26). -/
def State.err (s : State) (n e : Nat) : State := s.put (AX_STATE_ERR n) e

/-! ### Engines (R30, R123, R124) -/

def State.pool (s : State) (e : Nat) : Nat := s.get (KE_STATUS_POOL e)
def State.run (s : State) (e : Nat) : Nat := s.get (KE_STATUS_RUN e)
/-- Engine `e`, named in AXn_ENGSEL, holds this role of slot `n` (R18): an engine that was lost no longer does. -/
def State.holdsRole (s : State) (e n role : Nat) : Bool :=
  (s.pool e == 1 || s.pool e == 2) && s.get (KE_STATUS_ROLE e) == role && s.get (KE_STATUS_SLOT e) == n
/-- The control engine of a slot. -/
def State.ctlEngine (s : State) (n : Nat) : Option Nat :=
  let e := s.get (AX_ENGSEL_CTLENG n)
  if s.bit (AX_ENGSEL_CTLEN n) ∧ s.holdsRole e n 1 then some e else none
/-- The estimator engine of a slot. -/
def State.estEngine (s : State) (n : Nat) : Option Nat :=
  let e := s.get (AX_ENGSEL_ESTENG n)
  if s.bit (AX_ENGSEL_ESTEN n) ∧ s.holdsRole e n 2 then some e else none
/-- The route of a role (0 control, 1 estimator) of a slot: of the engine that holds the role, or while an emergency swap
runs the route that its target is to run (R18, R136). -/
def State.roleRoute (s : State) (n role : Nat) : Option Route :=
  match (if role = 0 then s.ctlEngine n else s.estEngine n) with
  | some e => (s.engine e).route
  | none => if (s.swap (emKey n role)).emerg then (s.swap (emKey n role)).img else none
/-- A rope team is clock-gated while all four of its engines are IDLE or RETIRED and none loads (R32, R120). -/
def State.teamGated (s : State) (team : Nat) : Bool :=
  ((List.range 4).map (4 * team + ·)).all (fun e => (s.pool e == 0 || s.pool e == 3) && s.run e != 1)
/-- RUN of an engine as KEn_STATUS reads it: a stopped engine of a gated team reads GATED (R32, R120, R124), and every one
while load is shed (R390). -/
def State.runView (s : State) (e : Nat) : Nat := if s.run e = 0 ∧ (s.teamGated (e / 4) ∨ s.bly.shed) then 5 else s.run e
/-- The engines that serve a slot. -/
def State.slotEngines (s : State) (n : Nat) : List Nat := (s.ctlEngine n).toList ++ (s.estEngine n).toList

/-! ### Time (R19 to R21) -/

/-- The nanoseconds of a TICKUS value (R20). -/
def tickNs (us : Nat) : Nat := if us = 31 then 31250 else us * 1000
/-- The cell-tick period P in ns. -/
def State.period (s : State) : Nat := tickNs (s.get CT_TICKCFG_TICKUS)
/-- The next instant after the present at which cell time is a multiple of `p`. -/
def State.nextMultiple (s : State) (p : Nat) : Nat := (s.now / max p 1 + 1) * max p 1
/-- The next multiple of P that is a tick instant if no change of P waits: the present instant if it has not been taken. -/
def State.nextTick (s : State) : Nat :=
  let p := max s.period 1
  if s.now % p = 0 ∧ (s.tickDue ∨ !s.tickLeft ∨ s.tickAt < s.now) then s.now else s.nextMultiple p
/-- The instant at which an accepted period `us` takes effect: the first multiple after cell time `t`, not yet past (R21). -/
def State.periodChangeAt (s : State) (us t : Nat) : Nat :=
  let p := max (tickNs us) 1
  max ((t / p + 1) * p) ((s.now + p - 1) / p * p)
/-- The waiting change of P comes before any further tick instant of the old P (R21, R350). -/
def State.changeFirst (s : State) : Bool :=
  match s.newTick with
  | some (us, w, stepped) => !s.tickDue && (stepped || decide (s.periodChangeAt us w ≤ s.nextTick))
  | none => false
/-- The next cell tick instant (R19, R21). -/
def State.tickNext (s : State) : Nat :=
  match s.newTick with
  | some (us, w, _) => if s.changeFirst then s.periodChangeAt us w else s.nextTick
  | none => s.nextTick

/-! ### Loop instants of a slot (R22, R24) -/

/-- The carrier of group `g` is above 100 kHz: no double update (R24). -/
def State.fastCarrier (s : State) (g : Nat) : Bool := decide (s.period < 10000 * s.get (PWMG_CFG_K g))
/-- Slot `n` runs in double update: UPD = 1 and a carrier of at most 100 kHz (R24, R73; that a slot with UPD = 1 and a
faster carrier runs in single update is DEDUCED, notes/assumptions/64). -/
def State.double (s : State) (n : Nat) : Bool := s.bit (AX_CC_CFG_UPD n) && !s.fastCarrier (s.get (AX_BIND_GRP n))
/-- The loop rate of a slot per tick: K, or 2 K in double update. -/
def State.instantsPerTick (s : State) (n : Nat) : Nat :=
  s.get (PWMG_CFG_K (s.get (AX_BIND_GRP n))) * (if s.double n then 2 else 1)

/-! ### Anchors (R286, R289) -/

/-- Anchor `a` is held by host `h`. -/
def State.holds (s : State) (h a : Nat) : Bool := s.bit (ANC_ST_HELD a) && s.get (ANC_ST_OWNER a) == h
/-- The writer may write the RWA fields of anchor `a` (R287). -/
def State.owns (s : State) (w : Writer) (a : Nat) : Bool :=
  match w with | .supervisor => true | .host h => s.holds h a
/-- The anchor that decides for engine `e` (R286). -/
def State.engineAnchor (s : State) (e : Nat) : Nat :=
  if s.get (KE_STATUS_ROLE e) = 0 then 16 + e else s.get (KE_STATUS_SLOT e)

/-- One fabric cycle of 5 ns passes (R19). Nothing happens in it: every event that has an effect is a row of the table.
Cell time stands in reset and is not counted while the motion die is off (R434). -/
def State.idle (s : State) : State := if s.up then { s with now := s.now + 5 } else s

end Sys2Proof.Machine
end

