-- ==== Sys2Proof/Machine/Slots.lean ====
section
/-! DEFINITION. What a change of a slot's state does to its parts (R28): streams that wait on it, its channels and
brake bridge, its engines and swap, its generator. These operations are shared by commands, trips and reactions. -/
namespace Sys2Proof.Machine

/-! ### Answering the running command of a stream (R302, R305, R311) -/

/-- The slot that a COMMAND or SWAP frame acts on (R300, R304). -/
def Cmd.slot? (c : Cmd) : Option Nat :=
  if c.op = 4 ∨ c.op = 0xE then (c.words.head?).map (fun w => bitsOf w.toNat 27 24) else none
/-- The FUNC of a COMMAND frame (R304). -/
def Cmd.func (c : Cmd) : Nat := match c.words.head? with | some w => bitsOf w.toNat 23 20 | none => 15
/-- WAITDONE of a COMMAND frame. -/
def Cmd.waitdone (c : Cmd) : Bool := match c.words.head? with | some w => bitsOf w.toNat 19 19 == 1 | none => false
/-- The word of a CTRL or QCTRL command. -/
def Cmd.ctrlWord (c : Cmd) : Nat := match c.words with | _ :: w :: _ => w.toNat | _ => 0

/-- Set the state of a stream; while it is suspended, the state it will resume at (R311, R316). -/
def Stream.setState (st : Stream) (x : Nat) : Stream :=
  if st.state = 3 then { st with heldState := x } else { st with state := x }
/-- The state of a stream, or the one it will resume at. -/
def Stream.real (st : Stream) : Nat := if st.state = 3 then st.heldState else st.state

/-- Answer the command at the head (R303, R305) and go on as R311 gives: a failing status halts the stream with
REASON `halt`, and so does a halt that waited for the command (R315). -/
def Stream.answer (st : Stream) (status detail flags : Nat) (ws : List Word) (halt : Nat := 1) : Stream :=
  match st.queue with
  | [] => st
  | c :: rest =>
    let st1 := { st with
      queue := rest, prog := .idle, lastSeq := c.seq
      pend := st.pend ++ [Rsp.mk c.seq c.op status (BitVec.ofNat 32 (detail % 65536 * 65536 + flags) :: ws) true false] }
    if st.haltAfter ≠ 0 then
      { st1 with reason := st.haltAfter, haltSeq := c.seq, haltAfter := 0, int := false }.setState 2
    else if 1 ≤ status ∧ status ≤ 6 then
      { st1 with reason := halt, haltSeq := c.seq, int := false }.setState 2
    else st1.setState (if rest.isEmpty then 0 else 1)

/-- The MASK of a FENCE and its BAR bit (R300). -/
def Cmd.fenceMask (c : Cmd) : Nat := match c.words.head? with | some w => bitsOf w.toNat 3 0 | none => 0
def Cmd.fenceBar (c : Cmd) : Bool := match c.words.head? with | some w => bitsOf w.toNat 4 4 == 1 | none => false

/-- A FENCE with BAR in another stream of the host, accepted before this command of stream `k` and not yet complete,
holds it (R310). -/
def State.barred (s : State) (k : Nat) (c : Cmd) : Bool :=
  (List.range 4).any (fun i =>
    let j := k / 4 * 4 + i
    j != k && (s.stream j).queue.any (fun f =>
      f.op == 7 && f.bad == 0 && f.fenceBar && f.fenceMask / 2 ^ (k % 4) % 2 == 1 && decide (f.acc < c.acc)))

/-- The command that stream `k` can start now: the head of an active stream with none running, not held by a
FENCE, while execution is not stopped by a sag (R305, R310, R389). -/
def State.ready (s : State) (k : Nat) : Option Cmd :=
  let st := s.stream k
  match st.queue with
  | c :: _ => if st.state = 1 ∧ st.prog = .idle ∧ !s.barred k c ∧ !s.bly.stopped then some c else none
  | [] => none

/-- The head of stream `k` as it reaches its turn (R301, R311): one on a slot with its SLOTLOST bit set is not run and
halts the stream with REASON 2; a badly formed one is answered BAD_FRAME. -/
def State.reachHead (s : State) (k : Nat) : State :=
  match s.ready k with
  | none => s
  | some c =>
    if c.bad ≠ 0 then s.modStream k (fun st => st.answer 1 c.bad 0 [])
    else match c.slot? with
      | some n =>
        if s.get STR_SLOTLOST_V / 2 ^ n % 2 = 1 then
          s.modStream k (fun st => { st with reason := 2, haltSeq := c.seq, int := false }.setState 2)
        else s
      | none => s

/-- The heads of the streams of stream `k`'s host reach their turn. -/
def State.reachHeads (s : State) (k : Nat) : State :=
  s.each ((List.range 4).map (k / 4 * 4 + ·)) (fun j t => t.reachHead j)

/-- Answer the running command of stream `k`; the next one reaches the head, and commands that a FENCE held may. -/
def State.answer (s : State) (k status detail flags : Nat) (ws : List Word) (halt : Nat := 1) : State :=
  (s.modStream k (fun st => st.answer status detail flags ws halt)).reachHeads k

/-- The command that stream `k` can start now, if its opcode is `op`. -/
def State.readyOp (s : State) (k op : Nat) : Option Cmd :=
  match s.ready k with
  | some c => if c.op = op then some c else none
  | none => none

/-- Run the head of stream `k` when it can start and is the command that `op` and `p` ask for (R305): it runs, and `f` has
its effect. The ROM loader serves READ and IMAGE only (R411). -/
def State.runHead (s : State) (k op : Nat) (p : Cmd → Bool) (f : Cmd → State → State) : State :=
  let s := s.reachHead k
  match s.readyOp k op with
  | none => s
  | some c =>
    if !p c then s
    else
      let s := s.modStream k (fun st => { st with prog := .working })
      if s.bit BOOT_ST_LOADER ∧ op ≠ 1 ∧ op ≠ 0xD then s.answer k 4 6 0 [] else f c s

/-- Answer command `c` of stream `k`, unless an interruption has answered it already. -/
def State.finish (s : State) (k : Nat) (c : Cmd) (status detail flags : Nat) (ws : List Word) : State :=
  match (s.stream k).queue with
  | d :: _ => if d.acc = c.acc ∧ (s.stream k).prog ≠ .idle then s.answer k status detail flags ws else s
  | [] => s

/-- Halt a stream with no command left running; a halted stream keeps its halt, but an S4 shows (R315, R321). -/
def Stream.halt (st : Stream) (reason : Nat) : Stream :=
  if st.real = 2 then (if reason = 4 then { st with reason := 4 } else st)
  else { st with reason := reason, haltSeq := st.lastSeq, int := false }.setState 2

/-- The index of the pitch reached, as an INTERRUPTED response gives it (R305). -/
def State.pitchReached (s : State) (n : Nat) : Word := s.rd (AX_PITSTART n) - 1

/-- End INTERRUPTED each running command for which `p` holds. -/
def State.interrupt (s : State) (p : Stream → Cmd → Bool) (halt : Nat) : State :=
  s.each streams32 (fun k t =>
    let st := t.stream k
    match st.queue with
    | c :: _ =>
      if st.prog ≠ .idle ∧ p st c then
        t.answer k 6 0 0 (match c.slot? with
          | some n => if c.op = 4 then [t.pitchReached n] else [BitVec.ofNat 32 (t.get (AX_SWAPST_RESULT n))]
          | none => []) halt
      else t
    | [] => t)

/-- R305: slot `n` enters state `new`; a WAITDONE command on it is cut off unless its own CTRL action did it. While a sag
has stopped execution, a running command stays as it was recorded (R389, R396). -/
def State.interruptWait (s : State) (n new reason : Nat) : State :=
  if s.bly.stopped then s else s.interrupt (fun st c =>
    (match st.prog with | .waiting _ | .stuck _ => true | .placing _ _ => c.waitdone | _ => false) && c.slot? == some n &&
    !(c.func == 2 &&
      ((decide (new = stRappel ∨ new = stShutdown) && reason == 1 && bitsOf c.ctrlWord 1 1 == 1) ||
       (new == stOos && bitsOf c.ctrlWord 3 3 == 1)))) 1

/-- R305: slot `n` abandons the pitch with index `i`; a WAITDONE command that carries it is cut off. -/
def State.interruptPitch (s : State) (n i : Nat) : State :=
  if s.bly.stopped then s else s.interrupt (fun st c =>
    (match st.prog with
     | .waiting ixs | .stuck ixs => c.func == 0 && ixs.contains i
     | .placing _ ixs => c.func == 0 && c.waitdone && ixs.contains i
     | _ => false) && c.slot? == some n) 1

/-- R314, R315: end INTERRUPTED every COMMAND or SWAP running on a slot that `p` names. -/
def State.interruptSlot (s : State) (p : Nat → Bool) (halt : Nat) : State :=
  s.interrupt (fun _ c => match c.slot? with | some n => p n | none => false) halt

/-- R305: a swap on slot `n` has ended with RESULT `r`; the SWAP command that waits for it is answered. -/
def State.swapAnswer (s : State) (n r : Nat) : State :=
  if s.bly.stopped then s else s.each streams32 (fun k t =>
    let st := t.stream k
    match st.queue, st.prog with
    | c :: _, .working =>
      if c.op = 0xE ∧ c.slot? = some n then
        let cancel := bitsOf c.ctrlWord 6 6 == 1
        if (cancel && r == 8) || (!cancel && r == 1) then t.answer k 0 0 0 [BitVec.ofNat 32 r]
        else t.answer k 5 r 0 [BitVec.ofNat 32 r]
      else t
    | _, _ => t)

/-! ### Channels (R192, R193, R213) -/

/-- PWM modes of R197. -/
def mOff : Nat := 0
def mSwitch : Nat := 1
def mLowon : Nat := 2
def mHighon : Nat := 3
def mKilled : Nat := 4

/-- Window keys: index x LO and HI, VGD and die temperature per group, VH per channel. -/
def winLo (x : Nat) : Nat := x
def winHi (x : Nat) : Nat := 10 + x
def winVgd (g : Nat) : Nat := 20 + g
def winOt (g : Nat) : Nat := 30 + g
def winVh (c : Nat) : Nat := 40 + c

/-- A channel is armed (R208): its slot is in HOLD, RUN, RAPPEL or SHUTDOWN, or it carries a continuity pulse. -/
def State.armed (s : State) (c : Nat) : Bool := s.chanUsed c || s.pulses.contains c
/-- The VH comparator of a channel is armed (R203). -/
def State.vhArmed (s : State) (c : Nat) : Bool :=
  s.armed c && (!s.bit (PWMG_STAT_BOOT (c / 8)) || (s.chan c).vhArmed)
/-- An armed channel is about to be disarmed: samples of this same instant still find it armed (R210, R222). -/
def State.noteArmed (s : State) (c : Nat) : State :=
  if s.armed c then s.modChan c (fun x => { x with disarmed := some (s.now, s.vhArmed c) }) else s

/-- The dead time of channel `c` in steps of 500 ps (R187). -/
def State.deadTd (s : State) (c : Nat) : Nat := 8 * s.get (PWMG_CFG_DT (c / 8))

/-- Note whether both gates of a channel are off from the present on, for its blind weight (R65). What lies further back
than the longest period of an output, 12.8 µs, is forgotten but for the latest. -/
def PwmChan.noteOff (x : PwmChan) (now : Nat) : PwmChan :=
  let l := x.offLog.takeWhile (fun y => decide (now < y.1 + 12800))
  { x with offLog := (now, !x.h.on && !x.l.on) :: (l ++ (x.offLog.drop l.length).take 1) }
/-- The input of the blind-weight decimator at cell time `t` (R65): both gates of the channel are commanded off. -/
def PwmChan.blind (x : PwmChan) (t : Nat) : Bool :=
  match x.offLog.find? (fun y => decide (y.1 ≤ t)) with | some y => y.2 | none => true

/-- One gate of channel `c` turns off: its comparators stop sampling and their histories clear (R224), and the edge takes
the turn-off setting in force, or that of a soft turn-off (R204, R211). In a bootstrap group the end of a low-side
conduction arms the VH comparator of an enabled channel (R203). -/
def State.gateOff (s : State) (c : Nat) (high : Bool) (trip : Bool := false) (soft : Bool := false) : State :=
  let g := (s.chan c).gate high
  if !g.on then s else
  let own := s.get (if high then GD_DRV_SOFFH (c / 8) (c % 8) else GD_DRV_SOFFL (c / 8) (c % 8))
  let used := s.armed c
  (s.put (if high then CMP_SST_RAWH c else CMP_SST_RAWL c) 0).modChan c (fun x =>
    { (x.setGate high { g with on := false, main := [], hard := [], setting := if soft then 7 else own, soft := soft
                               cut := some ⟨s.now, trip, g.main, g.hard⟩ }).noteOff s.now with
      vhArmed := x.vhArmed || (!high && used) })

/-- One gate of channel `c` turns on: blanking starts with the CMPc_SCF then in force (R225, R228), and the edge takes the
turn-on setting (R204). A low side that conducts resets the refresh count (R191). The two gates of a channel are never
on together. -/
def State.gateOn (s : State) (c : Nat) (high : Bool) : State :=
  let x := s.chan c
  let g := x.gate high
  if g.on || (x.gate (!high)).on then s else
  let own := s.get (if high then GD_DRV_SONH (c / 8) (c % 8) else GD_DRV_SONL (c / 8) (c % 8))
  let x := { (x.setGate high { g with on := true, onAt := s.now, scf := s.rd (CMP_SCF c), main := [], hard := [], setting := own, soft := false }).noteOff s.now with
    incoming := none }
  s.setChan c (if high then x else { x with noLow := 0, lowSeen := true })

/-- Force a channel: its mode, with the low side on or both gates off. A gate that is on and must not be is removed at
once; a low side that must come on waits for the dead time of the high side (R187, R192). A stop or trip discards the
carry (R190), the edges still to come and a refresh pulse (R200). `soft`: a short-circuit trip with STO = 1 (R211). -/
def State.force (s : State) (c mode : Nat) (low : Bool) (soft : Bool := false) : State :=
  let x := s.chan c
  let td := s.deadTd c
  let s := s.put (PWM_STAT_MODE c) mode
  let s := if mode = mLowon then s else s.wr (PWM_CARRY c) 0
  let s := s.gateOff c true (mode == mKilled) soft
  let s := if low then s else s.gateOff c false (mode == mKilled) soft
  let wait : Bool := low && !x.l.on && ((x.h.on && td != 0) || x.incoming.isSome)
  let s := s.modChan c (fun y => { y with
    incoming := if wait then some false else none, deadAt := if x.h.on then 2 * s.now + td else y.deadAt
    edges := [], pulse := none, extra := 0, lead := 0, skip := false, lowLen := none, refresh := false
    vhArmed := y.vhArmed && mode != mOff && mode != mKilled })
  if low && !wait then s.gateOn c false else s

/-- VGDg is below its under-voltage threshold: no low side of the group can be driven (R205, R213). -/
def State.vgdLow (s : State) (g : Nat) : Bool := (s.window (winVgd g)).outside

/-- Channel `c` goes to its group's safe state after a trip or reaction: brake only while it is not itself tripped
and VGDg is up (R213), and never while SAFEOFF_N is low. -/
def State.safeState (s : State) (c : Nat) : State :=
  let g := c / 8
  s.force c mKilled (s.bit (GD_CFG_SAFE g) && !s.bit (GD_CHSTAT_TRIPPED g (c % 8)) && !s.vgdLow g && !s.safeoff)

/-- The continuity pulses on the channels `cs` end: both gates turn off, the mode stays (R448). -/
def State.endPulses (s : State) (cs : List Nat) : State :=
  { (s.each (cs.filter s.pulses.contains) (fun c t => t.force c (t.get (PWM_STAT_MODE c)) false)) with
    pulses := s.pulses.filter (fun c => !cs.contains c) }
/-- The presence test of a slot is abandoned with both gates of the path off (R454). -/
def State.dropTest (s : State) (n : Nat) : State := (s.endPulses (s.slotChans n)).endTest n
/-- The bind write that waited for the presence test of slot `n` finds the slot neither UNBOUND nor IDLE (R15, R454). -/
def State.missBind (s : State) (n : Nat) : State :=
  match (s.test n).bind (·.bind) with
  | some x => if s.owns x.1 n then s.err n 5 else s
  | none => s

/-- Both brake gates off at once, engaged with no wait (R86). VCLIP clears with the drive that it describes (R85; DEDUCED,
notes/assumptions/66). -/
def State.brakeOff (s : State) (n : Nat) (mode : Nat) : State :=
  match s.brakeChans n with
  | [] => s
  | cs => (((s.each cs (fun c t => t.force c mode false)).put (AX_BRK_ST_BSTATE n) 0).put (AX_BRK_ST_BRKWAIT n) 0).put
    (AX_BRK_ST_VCLIP n) 0

/-! ### Engines and swaps of a slot -/

/-- End the slot's swap before its switch: the target becomes IDLE and the source ASSIGNED (R135). -/
def State.swapAbandon (s : State) (n result : Nat) : State :=
  let x := s.swap n
  let s := ((s.put (KE_STATUS_POOL x.tgt) 0).put (KE_STATUS_RUN x.tgt) 0)
  let s := ((s.put (KE_STATUS_ROLE x.tgt) 0).put (KE_STATUS_SLOT x.tgt) 0)
  let s := if s.pool x.src = 2 then s.put (KE_STATUS_POOL x.src) 1 else s
  (((s.put (AX_SWAPST_PHASE n) 0).put (AX_SWAPST_RESULT n) result).setSwap n {}).swapAnswer n result

/-- The emergency swap of a role is over: PHASE follows what still runs (R132). -/
def State.emergencyClose (s : State) (n role : Nat) : State :=
  let s := s.setSwap (emKey n role) {}
  if (s.swap (emKey n (1 - role))).emerg then s else s.put (AX_SWAPST_PHASE n) 0
/-- A supply sag abandons the emergency swap of a role: its target becomes IDLE (R136, R389). -/
def State.emergencyAbandon (s : State) (n role : Nat) : State :=
  let x := s.swap (emKey n role)
  if !x.emerg then s else
  let s := ((s.put (KE_STATUS_POOL x.tgt) 0).put (KE_STATUS_RUN x.tgt) 0)
  let s := ((s.put (KE_STATUS_ROLE x.tgt) 0).put (KE_STATUS_SLOT x.tgt) 0)
  (s.emergencyClose n role).put (AX_SWAPST_RESULT n) 9
/-- A swap of slot `n` runs and has not reached its switch. -/
def State.swapEarly (s : State) (n : Nat) : Bool :=
  decide (1 ≤ s.get (AX_SWAPST_PHASE n) ∧ s.get (AX_SWAPST_PHASE n) ≤ 3)

/-- The routes of a slot's engines stop, a trapped one keeps its trap (R126). -/
def State.stopRoutes (s : State) (n : Nat) : State :=
  s.each (s.slotEngines n) (fun e t => if t.run e = 2 then t.put (KE_STATUS_RUN e) 0 else t)

/-! ### The generator (R34, R48) -/

/-- Word `i` of an entry. -/
def entryWord (e : List Word) (i : Nat) : Nat := (e.getD i 0).toNat
/-- TSTART of an entry (R39). -/
def entryTstart (e : List Word) : Bool := bitsOf (entryWord e 0) 5 5 == 1
/-- The start time of an entry: the cell time nearest to the present whose low 32 bits equal START (R40). -/
def startTime (now : Nat) (e : List Word) : Int :=
  (now : Int) + signedOf 32 (unsignedOf 32 ((entryWord e 7 : Int) - now))

/-- A standstill search holds the slot's current and motion (R95). The search that follows an emergency swap holds
neither (R112). -/
def State.searchHolds (s : State) (n : Nat) : Bool :=
  let m := s.get (AX_PR_ST_EMODE n)
  (m == 1 && !(s.pr n).noPol) || m == 2
/-- The generator starts no motion: the brake, a standstill search, its failure or the need of a new search holds it
(R87, R95, R98). -/
def State.genHeld (s : State) (n : Nat) : Bool :=
  s.bit (AX_BRK_ST_BRKWAIT n) || s.searchHolds n || s.get (AX_PR_ST_EMODE n) == 6 || (s.pr n).blocked || (s.pr n).forced.isSome

/-- The conditions under which a head entry is taken at a tick instant (R40, R87): SRC 0, HOLD or RUN, not held, no
pitch running. -/
def State.canStart (s : State) (n : Nat) : Bool :=
  let g := s.gen n
  s.get (AX_MCFG_SRC n) == 0 && (s.slotState n == stHold || s.slotState n == stRun) &&
  !s.bit (AX_PITQ_CTRL_QHELD n) && !s.genHeld n && g.pitch == none && !g.joined && s.tickLeft && s.now == s.tickAt

/-- The head entry starts at this tick instant, if nothing stops it first (R40). -/
def State.headStarts (s : State) (n : Nat) : Bool :=
  s.canStart n && (match (s.gen n).queue with
    | e :: _ => !entryTstart e || decide (startTime s.now e ≤ s.now)
    | [] => false)
/-- S2 or DEENERGISE in the tick in which a pitch would start: the pitch stays at the head and QHELD is set (R51). -/
def State.keepHead (s : State) (n : Nat) : State :=
  if s.slotState n = stHold ∧ s.headStarts n then s.put (AX_PITQ_CTRL_QHELD n) 1 else s

/-- The index of the running pitch. -/
def State.pitchIndex (s : State) (n : Nat) : Nat :=
  match (s.gen n).pitch with | some q => q.index | none => 0

/-- No pitch runs (R50, AXn_PITST). -/
def State.clearPitst (s : State) (n : Nat) : State :=
  (((s.put (AX_PITST_ACTIVE n) 0).put (AX_PITST_TYPE n) 0).put (AX_PITST_TAG n) 0)

/-- Abandon the running pitch, if any, with QHELD set; a command that waits on it is cut off (R44, R48, R305). -/
def State.abandonPitch (s : State) (n : Nat) : State :=
  match (s.gen n).pitch with
  | none => s
  | some q =>
    (((s.modGen n (fun g => { g with pitch := none, plan := [], fin := none })).clearPitst n).interruptPitch n q.index)

/-- What entry to RAPPEL does to the slot's source (the table of R48). Pulses counted and not yet read are discarded (DESIGN
CHOICE, notes/assumptions/68). -/
def State.sourceOff (s : State) (n : Nat) : State :=
  match s.get (AX_MCFG_SRC n) with
  | 0 =>
    let g := s.gen n
    match g.pitch with
    | some q =>
      if g.joined then   -- R51: the pitch that would start in this tick stays at the head
        let back : Gen := { g with
          pitch := none, plan := [], fin := none, queue := q.words :: g.queue, run := { p := g.m.p, v := g.m.v }, nxt := { p := g.m.p + g.m.v, v := g.m.v } }
        ((((s.setGen n back).clearPitst n).put (AX_PITSTART_V n) (s.get (AX_PITSTART_V n) + 2 ^ 32 - 1)).put (AX_PITQ_CTRL_QHELD n) 1).put
          (AX_PITQ_LVL_LEVEL n) (g.queue.length + 1)
      else (s.abandonPitch n).put (AX_PITQ_CTRL_QHELD n) 1
    | none => s.put (AX_PITQ_CTRL_QHELD n) 1
  | 1 => s.modGen n (fun g => { g with gearCount := 0 })
  | _ =>
    let k := (s.gen n).points.length
    ((s.inc (AX_SPDISC_V n) k).put (AX_SPB_LVL_LEVEL n) 0).modGen n
      (fun g => { g with points := [], segFrom := none, segV := none, starving := false })

/-- The generator stops at once where it stands: on entry to TRIPPED (notes/assumptions, DEDUCED). -/
def State.stopGen (s : State) (n : Nat) : State :=
  let s := if s.get (AX_MCFG_SRC n) = 0 ∧ (s.gen n).pitch ≠ none then
      (s.abandonPitch n).put (AX_PITQ_CTRL_QHELD n) 1 else s
  let s := s.modGen n (fun g =>
    { g with nxt := { p := g.m.p }, plan := [], fin := none, pitch := none, drift := .coast, under := false
             rapDe := false, segFrom := none, segV := none, starving := false, gearCount := 0 })
  (s.put (AX_PITST_UNDERRUN n) 0).put (AX_PITST_WAITSTART n) 0

/-- The instant at which step `i` of the present tick goes out (R59), on the 4 ns grid. -/
def State.stepTime (s : State) (g : Gen) (i : Nat) : Nat :=
  (s.tickAt + (g.setup + i * (s.period - g.setup) / max g.sched 1)) / 4 * 4

/-- The slot's step output emits `k` more of its scheduled steps: SOGs_CNT counts them by direction (R59, R199). -/
def State.emitSteps (s : State) (n k : Nat) : State :=
  let o := s.get (AX_BIND_SOUT n)
  (s.modGen n (fun g => { g with sent := g.sent + k })).puti (SOG_CNT_V o)
    (s.geti (SOG_CNT_V o) + (if (s.gen n).stepDir then (k : Int) else -(k : Int)))

/-- The scheduled steps whose instant has passed and that no STEP_PULSE has shown yet: one at the present instant is not
emitted when an S4 reaction holds the output there (R200). -/
def State.stepsDue (s : State) (n : Nat) : Nat :=
  let g := s.gen n
  ((List.range g.sched).filter (fun i => decide (g.sent ≤ i) && decide (s.stepTime g i < s.now))).length

/-- The step output of slot `n` goes to its inactive levels (R269): the steps due by now have gone out, and the others of
the tick join the backlog, or with `drop` are given up. -/
def State.cutSteps (s : State) (n : Nat) (drop : Bool) : State :=
  if s.isRemote n then
    let s := s.emitSteps n (s.stepsDue n)
    let g := s.gen n
    let left : Int := (g.sched - g.sent : Nat)
    let s := s.setGen n { g with sched := 0, sent := 0 }
    if drop then s
    else s.puti (AX_SO_BACKLOG_V n) (s.geti (AX_SO_BACKLOG_V n) + (if g.stepDir then left else -left))
  else s
/-- A REMOTE slot's step output stops with the slot's trip. When an S4 reaction or a supply sag holds the generator, the
steps not emitted join the backlog (R198); another trip drops them, for no rule adds them. -/
def State.stopSteps (s : State) (n : Nat) (held : Bool) : State :=
  let s := s.cutSteps n (!held)
  if s.isRemote n && held then s.put (SOG_STAT_HELD (s.get (AX_BIND_SOUT n))) 1 else s

/-- The estimator of a slot stops (R88): EMODE OFF; VALID, FALLBACK and the conditions that it tests clear. -/
def State.prStop (s : State) (n : Nat) : State :=
  let s := ((s.put (AX_PR_ST_EMODE n) 0).put (AX_PR_ST_VALID n) 0).put (AX_PR_ST_FALLBACK n) 0
  let s := ((s.put (AX_PR_ST_EMFLOW n) 0).put (AX_PR_ST_INJSAT n) 0).put (AX_PR_ST_OVERSPD n) 0
  (s.put (AX_PR_ST_MODEL n) 0).setPr n {}

/-! ### State changes (R28) -/

/-- How the channels of a slot end on entry to TRIPPED. -/
inductive SafeHow where
  | safe          -- the group's safe state, mode KILLED (R192, R213)
  | coast         -- gates off whatever the safe state (R294, R216)
  | brake         -- low sides on (R216)
deriving DecidableEq, Repr

/-- Of two reactions that reach a slot in one cycle, `new` is shown in place of `old`: a local trip (4) before an S4 (6), that
before an S3 (3) and a sag (8) (R362, R402). -/
def tripStronger (new old : Nat) : Bool := (new == 4 && (old == 6 || old == 3 || old == 8)) || (new == 6 && (old == 3 || old == 8))
/-- STOP_REASON was written in the present cycle. -/
def State.reasonNow (s : State) (n : Nat) : Bool :=
  let f := AX_STATE_STOPREASON n
  s.setBits f.a &&& ((2 ^ (f.hi + 1 - f.lo) - 1) * 2 ^ f.lo) != 0

/-- Enter TRIPPED from HOLD, RUN, RAPPEL or SHUTDOWN (R28). A slot that a reaction finds in TRIPPED stays as it is, but shows
the stronger of two reactions of one cycle (R362). -/
def State.toTripped (s : State) (n reason : Nat) (how : SafeHow) (held : Bool := false) : State :=
  if s.energised n then
    let s := s.each (s.slotChans n) (fun c t => t.noteArmed c)
    let s := ((s.put (AX_STATE_STATE n) stTripped).put (AX_STATE_STOPREASON n) reason).put (AX_STATE_ENABLEPENDING n) 0
    let s := s.each (s.localChans n) (fun c t => match how with
      | .safe => t.safeState c
      | .coast => t.force c mOff false
      | .brake => if t.vgdLow (c / 8) || t.safeoff then t.force c mOff false else t.force c mLowon true)
    let s := s.brakeOff n (match how with | .safe => mKilled | _ => mOff)
    let s := (s.stopSteps n held).stopGen n
    let s := if s.swapEarly n then s.swapAbandon n 9 else s
    let last := (s.now, s.get (AX_PR_ST_EMODE n), s.bit (AX_PR_ST_VALID n), s.pr n)
    let s := ((s.stopRoutes n).modCc n (fun c => { c with
      ramp := .run, ilim := 0, xd := 0, xq := 0, xv := 0, late := none, prLast := some last })).prStop n
    let s := ((s.put (AX_CC_ST_LOWRATE n) 0).put (AX_CC_ST_HOLDING n) 0)
    s.interruptWait n stTripped reason
  else if s.slotState n = stTripped ∧ s.reasonNow n ∧ tripStronger reason (s.get (AX_STATE_STOPREASON n)) then
    s.put (AX_STATE_STOPREASON n) reason
  else s

/-- Enter RAPPEL from RUN (R28, R48); `de`: by DEENERGISE. -/
def State.toRappel (s : State) (n reason : Nat) (de : Bool) : State :=
  if s.slotState n = stRun then
    let s := (s.put (AX_STATE_STATE n) stRappel).put (AX_STATE_STOPREASON n) reason
    let s := (s.cutSteps n false).sourceOff n
    let s := s.modGen n (fun g => { g with plan := [], fin := none, pitch := none, drift := .rappel, rapDe := de, under := false })
    let s := ((s.put (AX_PITST_UNDERRUN n) 0).put (AX_PITST_WAITSTART n) 0)
    s.interruptWait n stRappel reason
  else s

/-- Enter SHUTDOWN from HOLD or RAPPEL: the brake engages, then the current ramps down (R28, R86). -/
def State.toShutdown (s : State) (n reason : Nat) : State :=
  let s := (s.put (AX_STATE_STATE n) stShutdown).put (AX_STATE_STOPREASON n) reason
  let brake := decide (s.brakeChans n ≠ [])
  let s := if !brake then s else
    let low := s.bit (AX_BRK_CFG_DECAY n)
    ((((s.each (s.brakeChans n) (fun c t =>
      (t.force c (if low then mLowon else mOff) low).modChan c (fun x => { x with want := if low then 2 else 0 }))).put
      (AX_BRK_ST_BSTATE n) 3).put (AX_BRK_ST_BRKWAIT n) 0).put (AX_BRK_ST_VCLIP n) 0).modCc n (fun c => { c with brkAt := s.now })
  let s := if s.swapEarly n then s.swapAbandon n 9 else s
  let s := ((s.cutSteps n false).modGen n (fun g => { g with drift := .coast, rapDe := false })).modCc n
    (fun c => { c with ramp := if brake then .held else .down 0 })
  let s := s.prStop n
  let s := ((s.put (AX_CC_ST_LOWRATE n) 0).put (AX_CC_ST_HOLDING n) 0)
  s.interruptWait n stShutdown reason

/-- HOLD to RUN: every loop instant at once, the current at IRUN (R28, R82). -/
def State.toRun (s : State) (n : Nat) : State :=
  if s.slotState n = stHold then
    (((s.put (AX_STATE_STATE n) stRun).modCc n (fun c => { c with ramp := .run })).put
      (AX_CC_ST_LOWRATE n) 0).put (AX_CC_ST_HOLDING n) 0
  else s

/-- RUN or RAPPEL to HOLD: the wait of HOLD_DLY begins (R28, R82). -/
def State.toHold (s : State) (n : Nat) : State :=
  (s.put (AX_STATE_STATE n) stHold).modCc n (fun c => { c with ramp := .delay 0 })

end Sys2Proof.Machine
end

