-- ==== Sys2Proof/Machine/Collector.lean ====
section
/-! DEFINITION. The shared operations of the fault collector, the summit log and the belay save: offering and
writing a log record, raising a fault message with its reaction (R355 to R367), and starting a save set (R392). -/
namespace Sys2Proof.Machine

/-! ### ADDRESS and log records (R356, R376) -/

/-- ADDRESS of a slot (R356). -/
def addrSlot (n : Nat) : Nat := 0x10 + n
/-- ADDRESS of an engine, and of the slot it serves (R356). -/
def State.addrEngine (s : State) (e : Nat) : Nat :=
  0x800000 + e * 0x10000 + (if s.get (KE_STATUS_ROLE e) = 0 then 0 else addrSlot (s.get (KE_STATUS_SLOT e)))
/-- Word 1 of a log record: ADDRESS or other upper field, ISSUER and TYPE. -/
def logW1 (upper issuer type : Nat) : Word := BitVec.ofNat 32 (upper * 256 + issuer * 16 + type)
/-- ISSUER: the host, or 8 for the supervisor (R376). -/
def issuerOf : Writer → Nat
  | .host h => h.val
  | .supervisor => 8

/-- A block other than the collector offers a record (R377). -/
def State.offer (s : State) (r : LogRec) : State := { s with log := { s.log with offers := s.log.offers ++ [r] } }

/-- A record waits to be mirrored; the oldest of more than 64 is pushed out (R384). -/
def State.mirrorWait (s : State) (r : LogRec) : State :=
  let w := s.log.waiting ++ [r]
  let s := if w.length ≤ 64 then { s with log := { s.log with waiting := w } }
    else ({ s with log := { s.log with waiting := w.drop 1 } }).inc LOG_MIRST_MIRSKIP
  s.put LOG_MIRST_LAG (min w.length 64)

/-- Write a record into the ring, or count it while the log is frozen (R378 to R380). -/
def State.logWrite (s : State) (r : LogRec) : State :=
  let s := s.inc LOG_OFFERED_V
  if s.bit LOG_ST_FROZEN then (s.inc LOG_FRZCNT_V).incSat LOG_FRZNOW_V
  else
    let q := s.get LOG_WSEQ_V
    let s := { s with log := { s.log with ring := tabPut s.log.ring (q % 8192) r } }
    let s := s.inc LOG_WSEQ_V
    let s := if s.get LOG_LEVEL_LEVEL = 8192 then s.inc LOG_OVERWR_V else s.inc LOG_LEVEL_LEVEL
    s.mirrorWait r

/-- The FREEZE_SUMMARY of the freeze in force: its count, length in ms, end and issuer (R376). -/
def State.freezeSummary (s : State) (endCode : Nat) : LogRec :=
  ⟨s.rd LOG_FRZNOW, BitVec.ofNat 32 (min ((s.now - s.log.frzStart) / 1000000) (2 ^ 20 - 1) * 4096
    + endCode * 1024 + s.get LOG_ST_FRZHOST * 16 + 5), s.now⟩

/-- End a freeze and write its summary (R380). -/
def State.unfreeze (s : State) (endCode : Nat) : State :=
  let r := s.freezeSummary endCode
  ((s.put LOG_ST_FROZEN 0).wr LOG_FRZNOW 0).logWrite r

/-! ### The save set (R389 to R394) -/

/-- The two words of a 64-bit quantity, low word first. -/
def words64 (x : Int) : List Word := let n := unsignedOf 64 x; [BitVec.ofNat 32 n, BitVec.ofNat 32 (n / 2 ^ 32)]
def words64N (n : Nat) : List Word := [BitVec.ofNat 32 n, BitVec.ofNat 32 (n / 2 ^ 32)]

/-- A slot record (R393). -/
def State.saveSlot (s : State) (n : Nat) : List Word :=
  let g := s.gen n
  let pos : Int := g.m.p / 2 ^ 32 -
    (if s.isRemote n then s.geti (AX_SO_BACKLOG_V n) * (s.get (AX_SO_STEPAU_V n) : Int) else 0)
  let fben := s.get (AX_BIND_FBEN n)
  [s.rd (AX_BIND n),
   BitVec.ofNat 32 (s.slotState n + s.get (AX_STATE_STOPREASON n) * 16 + s.get (AX_MCFG_SRC n) * 256)] ++
  words64 pos ++ (if fben = 0 then [0, 0] else words64 (match (s.cc n).latch with | some x => x.fbpos | none => 0)) ++
  [s.rd (AX_REBASE n), s.rd (AX_REBASE n + 4),
   BitVec.ofNat 32 (s.get (AX_RESTORE_POSITIONASSUMED n) + 2 * fben)] ++ List.replicate 7 0

/-- A stream record: STRk_SEQ and STRk_HALTSEQ with the values of R318. -/
def State.saveStream (s : State) (k : Nat) : List Word :=
  let st := s.stream k
  let running := st.prog ≠ .idle
  let hs := if running then (match st.queue with | c :: _ => c.seq | [] => st.lastSeq) else st.lastSeq
  let discard := st.queue.length - (if running then 1 else 0)
  [BitVec.ofNat 32 (st.lastSeq * 65536 + st.nextSeq),
   BitVec.ofNat 32 ((if running then 2 ^ 31 else 0) + discard * 65536 + hs), 0, 0]

/-- A save starts: the records of slots, ports, streams and retired engines are taken as they stand (R392, R393).
A save that already runs serves both causes (R394). -/
def State.startSave (s : State) (sag s4 : Bool) : State :=
  if s.bly.saving then { s with bly := { s.bly with sag := s.bly.sag || sag, s4 := s.bly.s4 || s4 } }
  else
    let body := slots16.flatMap s.saveSlot ++
      (List.range 8).flatMap (fun p => [s.rd (FB_CFG p), s.rd (FB_SSI p), s.rd (FB_CNT p), s.rd (FB_CNT p + 4)]) ++
      streams32.flatMap s.saveStream ++ [s.rd ENG_RET, 0, 0, 0]
    ({ s with bly := { s.bly with pendingSave := body, saving := true, sag := sag, s4 := s4, hdrTime := s.now,
                                  start := s.now, mark := s.accepts } }).put
      BLY_ST_SAVING 1

/-! ### Reactions (R359) -/

/-- The slot that a source concerns: a slot source, or an engine that serves a slot (R359). -/
def State.sourceSlot (s : State) (src : Nat) : Option Nat :=
  if 0x100 ≤ src ∧ src < 0x200 then some ((src - 0x100) / 16)
  else if 0x200 ≤ src ∧ src < 0x2A0 then
    (let e := (src - 0x200) / 8
     if s.get (KE_STATUS_ROLE e) = 0 then none else some (s.get (KE_STATUS_SLOT e)))
  else none
/-- The channel of a channel source. -/
def sourceChan (src : Nat) : Option Nat := if 0x300 ≤ src ∧ src < 0x380 then some ((src - 0x300) / 4) else none
/-- The group of a group source. -/
def sourceGroup (src : Nat) : Option Nat := if 0x40 ≤ src ∧ src < 0x50 then some ((src - 0x40) / 4) else none

/-- The slots an S2 affects. -/
def State.affectedSlots (s : State) (src : Nat) : List Nat :=
  match s.sourceSlot src, sourceChan src, sourceGroup src with
  | some n, _, _ => [n]
  | _, some c, _ => (s.ownerOf c).toList
  | _, _, some g => slots16.filter (fun n => (s.slotGroups n).contains g)
  | _, _, _ => slots16
/-- The groups an S3 affects. -/
def State.affectedGroups (s : State) (src : Nat) : List Nat :=
  match s.sourceSlot src, sourceChan src, sourceGroup src with
  | some n, _, _ => s.slotGroups n
  | _, some c, _ => [c / 8]
  | _, _, some g => [g]
  | _, _, _ => groups4
/-- The REMOTE slots an S3 affects: the cause itself, or every one for a source of the kind "any other". -/
def State.affectedRemotes (s : State) (src : Nat) : List Nat :=
  match s.sourceSlot src, sourceChan src, sourceGroup src with
  | some n, _, _ => if s.isRemote n then [n] else []
  | _, some _, _ => []
  | _, _, some _ => []
  | _, _, _ => slots16.filter s.isRemote

/-- S3 on groups `gs` and REMOTE slots `rs` (R359, R213): slots that use an affected group enter TRIPPED, REMOTE
slots only as named, and every brake bridge in an affected group engages (R86). -/
def State.reactS3 (s : State) (gs rs : List Nat) (reason : Nat) (held : Bool) : State :=
  s.each slots16 (fun n t =>
    let touched := (t.slotGroups n).any gs.contains
    if t.isRemote n then
      (if rs.contains n then t.toTripped n reason .safe held
       else if touched && t.energised n then t.brakeOff n mKilled else t)
    else if touched && t.isLocal n then t.toTripped n reason .safe held
    else if touched && t.energised n then t.brakeOff n mKilled else t)

/-- A handover under way can no longer switch (R417). -/
def State.killHandover (s : State) : State := { s with hoDead := s.hoDead || s.get BOOT_ST_HOPHASE != 0 }

/-- S4: all groups and every REMOTE slot, step outputs held, every stream halted, a belay save written. -/
def State.reactS4 (s : State) : State :=
  let s := s.startSave false true
  let s := s.killHandover.put FLT_ST_S4SEEN 1
  let s := s.reactS3 groups4 (slots16.filter s.isRemote) 6 true
  let s := s.each slots16 (fun n t =>
    if t.isRemote n && t.slotState n == stTripped then t.put (SOG_STAT_HELD (t.get (AX_BIND_SOUT n))) 1 else t)
  let s := s.interruptSlot (fun _ => true) 4
  s.each streams32 (fun k t => t.modStream k (fun st =>
    if st.prog = .idle then st.halt 4 else { st with haltAfter := 4 }))

/-- The reaction of a severity (R359). -/
def State.react (s : State) (src sev : Nat) : State :=
  if sev = 2 then s.each (s.affectedSlots src) (fun n t => (t.keepHead n).toRappel n 2 false)
  else if sev = 3 then
    s.reactS3 (s.affectedGroups src) (s.affectedRemotes src) 3 false
  else if 4 ≤ sev then s.reactS4
  else s

/-! ### Raising a message (R355 to R370) -/

/-- The anchor whose owner is notified of a source (R368). -/
def State.sourceAnchor (s : State) (src : Nat) : Option Nat :=
  match s.sourceSlot src with
  | some n => some n
  | none =>
    if 0x200 ≤ src ∧ src < 0x2A0 then some (16 + (src - 0x200) / 8)
    else match sourceChan src with
      | some c => s.ownerOf c
      | none => none

/-- Put a message into host `h`'s notification queue, or count it as lost (R368, R370). -/
def State.notifyHost (s : State) (m : Msg) (h : Nat) : State :=
  let q := (s.host h).notify
  if s.bit (HOST_ST_LIVE h) && decide (q.length < 64) then
    (s.modHost h (fun x => { x with notify := q ++ [(m.w0, m.w1, m.time)] })).put (FLT_NST_NLVL h) (q.length + 1)
  else (s.inc (FLT_NLOST_V h)).put (FLT_NST_LOST h) 1

/-- The hosts notified of a source: the anchor's owner and the subscribers, each once (R368), as they stood before a
subscription of the same cycle (R375). -/
def State.notified (s : State) (src h : Nat) : Bool :=
  (match s.sourceAnchor src with | some a => s.holds h a | none => false) ||
  (fieldOf (s.rdBefore (FLT_SRC src) 0xFF00) (FLT_SRC_SUB src) / 2 ^ h % 2 == 1)

/-- The trigger of an armed trace, at cell time `time` (R129). -/
def State.traceTrigger (s : State) (e time : Nat) : State :=
  if s.get (KE_TRCFG_STATE e) = 1 then
    (((s.put (KE_TRCFG_STATE e) 2).put (KE_TRPOS_TRIGIDX e) (((s.engine e).trNext + 4095) % 4096)).wr64 (KE_TRTIME e) time).modEngine e
      (fun x => { x with trLeft := s.get (KE_TRCFG_POST e) })
  else s

/-- An injected trigger has arrived at the housekeeping converter (R248). -/
def State.hkcSignal (s : State) (c : Bool) (time : Nat) : State :=
  if c then { s with hkc := { s.hkc with trig := s.hkc.trig ++ [time] } } else s

/-- A message is raised (R360, R363, R365, R366): counted, coalesced or taken, notified, and its reaction taken.
`time` is the cell time of the deciding event, `loc` that the gates concerned are already off, `sevIs` a severity
that R126 fixes in place of SEV. A SEV written in the same cycle does not apply yet (R375). -/
def State.raise (s : State) (src kind detail addr time : Nat) (loc : Bool := false) (sevIs : Option Nat := none) : State :=
  let sev := sevIs.getD (fieldOf (s.rdBefore (FLT_SRC src) 7) (FLT_SRC_SEV src))
  let m : Msg := ⟨BitVec.ofNat 32 (src * 2 ^ 22 + kind % 64 * 65536 + detail % 65536),
    BitVec.ofNat 32 (addr * 256 + sev * 32 + (if loc then 16 else 0)), time⟩
  let key := 64 * src + kind % 64
  let last := tabGet (fun _ => 0) s.coll.taken key      -- the TIME last taken plus 1; 0 when none
  let s := ((s.inc FLT_RAISED_V).inc (FLT_SRC_COUNT src)).put (FLT_SRC_SEEN src) 1
  let s :=
    if last ≠ 0 ∧ time < last - 1 + 1000 then s.inc FLT_COALESCED_V
    else if 512 ≤ s.coll.buffer.length then ((s.inc FLT_COALESCED_V).inc FLT_OVF_V).put FLT_ST_OVFSEEN 1
    else
      let s := s.inc FLT_RECORDED_V
      let s := { s with coll := { s.coll with buffer := s.coll.buffer ++ [m], taken := tabPut s.coll.taken key (time + 1) } }
      if 1 ≤ sev then s.each hosts8 (fun h t => if t.notified src h then t.notifyHost m h else t) else s
  let s := match (s.sourceSlot src).or ((sourceChan src).bind s.ownerOf) with
    | some n => s.each (s.slotEngines n) (fun e t => if t.bit (KE_TRCFG_TREVT e) then t.traceTrigger e time else t)
    | none => s
  let s := s.hkcSignal (s.get HKC_ITRIG_SRC == 2 && s.get HKC_ITRIG_FSRC == src) time
  s.react src sev

/-- A slot source that the route of role `role` (0 control, 1 estimator) raises: its ADDRESS names the engine and the slot
(R356, R357). -/
def State.raiseRoute (s : State) (n role k detail : Nat) : State :=
  let addr := match (if role = 0 then s.ctlEngine n else s.estEngine n) with
    | some e => 0x800000 + e * 0x10000 + addrSlot n
    | none => addrSlot n
  s.raise (0x100 + 16 * n + k) 0 detail addr s.now

/-- A slot source (R357): k of the table, detail. -/
def State.raiseSlot (s : State) (n k detail : Nat) (kind : Nat := 0) : State :=
  s.raise (0x100 + 16 * n + k) kind detail (addrSlot n) s.now

end Sys2Proof.Machine
end

