-- ==== Sys2Proof/Machine/Planner.lean ====
section
/-! DEFINITION. The arithmetic of the pitch generator: rounding, one tick of a phase, and the plans of R41 to R48. -/
namespace Sys2Proof.Machine

/-- Nearest integer, a tie going to the even one (R36, R149). -/
def roundEven (r : Rat) : Int :=
  let f := r.floor
  let d := r - f
  if d < 1 / 2 then f else if 1 / 2 < d then f + 1 else if f % 2 = 0 then f else f + 1

/-- A 2^−32 quantity as a rational. -/
def fixToRat (x : Int) : Rat := (x : Rat) / 4294967296
/-- A rational rounded to 2^−32 (R36). -/
def ratToFix (r : Rat) : Int := roundEven (r * 4294967296)
def ratAbs (r : Rat) : Rat := if r < 0 then -r else r
def ratSign (r : Rat) : Int := if r < 0 then -1 else if r = 0 then 0 else 1
/-- The least natural number not below `r`. -/
def ratCeil (r : Rat) : Nat := (r.ceil).toNat

/-- The bits of an integer square root, from bit `k` down. -/
def sqrtBits (x : Nat) : Nat → Nat → Nat
  | 0, r => r
  | k + 1, r => let c := r + 2 ^ k; sqrtBits x k (if c * c ≤ x then c else r)
/-- Integer square root of a number below 2^128. -/
def isqrt (x : Nat) : Nat := sqrtBits x 64 0
/-- The least natural number whose square is not below `r`. -/
def ceilSqrt (r : Rat) : Nat :=
  let c := ratCeil r
  let q := isqrt c
  if q * q = c then q else q + 1

/-- One tick of a phase of constant jerk (R36): position, velocity and acceleration after it, without bound (DESIGN CHOICE,
notes/assumptions/71). -/
def tickMotion (p v a j : Int) : Motion :=
  { p := roundEven ((p + v : Int) + (a : Rat) / 2 + (j : Rat) / 6)
    v := roundEven ((v : Rat) + a + (j : Rat) / 2)
    a := a + j
    j := j }

/-- What a tick leaves: the values it runs with, the motion after it and the plan that remains. -/
structure TickResult where
  run : Motion
  next : Motion
  plan : List Phase
deriving DecidableEq, Repr

/-- Run one tick of a plan from motion `m`; with no phase left the velocity continues with zero acceleration. -/
def runTick (m : Motion) : List Phase → TickResult
  | [] => ⟨{ p := m.p, v := m.v }, tickMotion m.p m.v 0 0, []⟩
  | ph :: rest =>
    if ph.ticks = 0 then runTick m rest
    else
      let a := ph.acc.getD m.a
      ⟨{ p := m.p, v := m.v, a := a, j := ph.jerk }, tickMotion m.p m.v a ph.jerk,
       if ph.ticks ≤ 1 then rest.filter (fun q => q.ticks ≠ 0) else { ph with ticks := ph.ticks - 1, acc := none } :: rest⟩

/-- Set the end values exactly (the second table of R36). -/
def finishMotion (m : Motion) : Finish → Motion
  | .target p v => { m with p := p, v := v, a := 0 }
  | .speed v => { m with v := v, a := 0 }
  | .rest => { m with v := 0, a := 0 }

/-- Tj and Ta of a velocity change by `dv` (R41). -/
def changeTicks (dv A J : Rat) (scurve : Bool) : Nat × Nat :=
  let d := ratAbs dv
  if !scurve then (0, ratCeil (d / A))
  else if A * A / J ≤ d then (ratCeil (A / J), ratCeil (d / A - A / J))
  else (ceilSqrt (d / J), 0)

/-- The length of a change in ticks. -/
def changeLen (t : Nat × Nat) : Nat := 2 * t.1 + t.2

/-- The phases of a change by `dv` over (Tj, Ta) (R41); an S-curve at the start of a pitch begins with a = 0. -/
def changePhases (dv : Rat) (t : Nat × Nat) (first : Bool) : List Phase :=
  if t.1 + t.2 = 0 then []
  else
    let a := dv / ((t.1 + t.2 : Nat) : Rat)
    if t.1 = 0 then [⟨t.2, 0, some (ratToFix a)⟩]
    else
      let j := ratToFix (a / (t.1 : Rat))
      [⟨t.1, j, if first then some 0 else none⟩] ++
        (if t.2 = 0 then [] else [⟨t.2, 0, some (ratToFix a)⟩]) ++ [⟨t.1, -j, none⟩]

/-- Dn(X) of R42. -/
def planDistance (v0 v1 A J : Rat) (sc : Bool) (x : Rat) : Rat :=
  (v0 + x) * (changeLen (changeTicks (x - v0) A J sc) : Nat) / 2 +
  (x + v1) * (changeLen (changeTicks (v1 - x) A J sc) : Nat) / 2

/-- The bisection of R42. -/
def bisect (f : Rat → Bool) : Nat → Rat → Rat → Rat × Rat
  | 0, lo, hi => (lo, hi)
  | k + 1, lo, hi => let mid := (lo + hi) / 2; if f mid then bisect f k mid hi else bisect f k lo mid

/-- The phases of a reachable move along +1 from speed v0 to v1 over distance D (R42). -/
def planPhases (v0 v1 V A J D : Rat) (sc : Bool) : List Phase × Rat :=
  let dn := planDistance v0 v1 A J sc
  let top := if dn V ≤ D then V else
    let r := bisect (fun x => decide (dn x ≤ D)) 24 (max (max v0 v1) 0) V
    if r.1 = 0 then r.2 else r.1
  let c1 := changeTicks (top - v0) A J sc
  let c3 := changeTicks (v1 - top) A J sc
  let t1 : Rat := (changeLen c1 : Nat)
  let t3 : Rat := (changeLen c3 : Nat)
  let tv := ratCeil ((D - dn top) / top)
  let vp := (D - v0 * t1 / 2 - v1 * t3 / 2) / (t1 / 2 + (tv : Nat) + t3 / 2)
  (changePhases (vp - v0) c1 true ++ (if tv = 0 then [] else [⟨tv, 0, some 0⟩]) ++
    changePhases (v1 - vp) c3 (c1.1 + c1.2 = 0 && tv == 0), v1)

/-- Mirror a plan to run along −1. -/
def mirrorPlan (s : Int) (l : List Phase) : List Phase :=
  l.map (fun ph => { ph with jerk := s * ph.jerk, acc := ph.acc.map (s * ·) })

/-- Plan a trapezoid or S-curve (R42): `none` when the target is unreachable; otherwise the phases and the end
velocity kept. Positions and velocities in 2^−32 au. -/
def planMove (p0 v0 target : Int) (v1 V A J : Rat) (sc : Bool) : Option (List Phase × Int) :=
  let d := fixToRat (target - p0)
  let v := fixToRat v0
  let s : Int := if d ≠ 0 then ratSign d else if v ≠ 0 then ratSign v else 1
  let D := ratAbs d
  let u := v * s
  let fits (w : Rat) : Bool := decide (planDistance u w A J sc (max (max u w) 0) ≤ D)
  if fits v1 then (let r := planPhases u v1 V A J D sc; some (mirrorPlan s r.1, ratToFix (r.2 * s)))
  else if v1 ≠ 0 ∧ fits 0 then (let r := planPhases u 0 V A J D sc; some (mirrorPlan s r.1, 0))
  else none

/-- A stop at limits A and J (R44), or without jerk limit (R48). -/
def planStop (v0 : Int) (A J : Rat) (sc : Bool) : List Phase :=
  let v := fixToRat v0
  changePhases (-v) (changeTicks v A J sc) true

/-- The coefficients c2 and c3 of R45, over h ticks, in au. -/
def cubicCoeffs (p0 v0 p1 v1 h : Rat) : Rat × Rat :=
  ((3 * (p1 - p0) - (2 * v0 + v1) * h) / (h * h), (-2 * (p1 - p0) + (v0 + v1) * h) / (h * h * h))

/-- A cubic exceeds VMAX at τ = 0, τ = h or its extremum, or AMAX at an end (R45). -/
def cubicExceeds (v0 v1 c2 c3 h vmax amax : Rat) : Bool :=
  let vext := -c2 / (3 * c3)
  let inside := c3 ≠ 0 ∧ 0 < vext ∧ vext < h
  decide (vmax < ratAbs v0 ∨ vmax < ratAbs v1 ∨
    (inside ∧ vmax < ratAbs (v0 + 2 * c2 * vext + 3 * c3 * vext * vext)) ∨
    amax < ratAbs (2 * c2) ∨ amax < ratAbs (2 * c2 + 6 * c3 * h))

end Sys2Proof.Machine
end

