-- ==== Sys2Proof/Machine/Motion.lean ====
section
/-! DEFINITION. The pitch generator of a slot: limits, offering and starting pitches, computing the next setpoint
from queue, gear or setpoint buffer, and the commands of 02_motion_planning.md (R33 to R60). -/
namespace Sys2Proof.Machine

/-! ### Limits (R37, R39) -/

/-- The magnitude of a 32.32 limit, au per tick^k. -/
def State.limit (s : State) (f : Fld) : Rat := ratAbs (fixToRat (s.geti f))
def State.vmax (s : State) (n : Nat) : Rat := s.limit (AX_VMAX_V n)
def State.amax (s : State) (n : Nat) : Rat := s.limit (AX_AMAX_V n)
def State.jmax (s : State) (n : Nat) : Rat := s.limit (AX_JMAX_V n)
/-- The rappel deceleration; 0 uses AMAX (R37). -/
def State.rapDec (s : State) (n : Nat) : Rat :=
  let d := s.limit (AX_RAPPEL_DEC_V n)
  if d = 0 then s.amax n else d
/-- A scale of an entry: the value / 65,536 of the limit; 0 gives the full limit (R39). -/
def scaled (lim : Rat) (k : Nat) : Rat := if k = 0 then lim else lim * (k : Nat) / 65536

/-! ### Pitch entries (R39) -/

def entryType (e : List Word) : Nat := bitsOf (entryWord e 0) 3 0
def entryTag (e : List Word) : Nat := bitsOf (entryWord e 0) 31 16
def entryRel (e : List Word) : Bool := bitsOf (entryWord e 0) 6 6 == 1
def entryBlend (e : List Word) : Bool := bitsOf (entryWord e 0) 4 4 == 1
def entryP1 (e : List Word) : Int := signedOf 64 (entryWord e 2 * 2 ^ 32 + entryWord e 1)
def entryP2 (e : List Word) : Int := signedOf 64 (entryWord e 4 * 2 ^ 32 + entryWord e 3)
def entryVscale (e : List Word) : Nat := bitsOf (entryWord e 5) 15 0
def entryAscale (e : List Word) : Nat := bitsOf (entryWord e 5) 31 16
def entryJscale (e : List Word) : Nat := bitsOf (entryWord e 6) 15 0
def entryAux (e : List Word) : Nat := bitsOf (entryWord e 6) 31 16

/-- The entry is refused as BADPITCH (R38): a reserved type, a reserved field not zero, or a cubic with DUR = 0. The
fields that R39 shows as zero for a type count as reserved. -/
def entryBad (e : List Word) : Bool :=
  let t := entryType e
  let w0 := bitsOf (entryWord e 0) 15 7 != 0
  let p2 := entryWord e 3 != 0 || entryWord e 4 != 0
  decide (5 < t) || w0 || (t == 2 && entryAux e == 0) ||
  ((t == 0 || t == 1) && (p2 || entryAux e != 0)) || (t == 3 && p2) ||
  (t == 4 && bitsOf (entryAux e) 15 8 != 0) ||
  (t == 5 && (p2 || entryAux e != 0))

/-- AXn_PITQ_LVL follows the queue (R50). -/
def State.syncQueue (s : State) (n : Nat) : State := s.put (AX_PITQ_LVL_LEVEL n) (s.gen n).queue.length

/-- What offering an entry came to (R38). -/
inductive OfferResult where
  | queued (index : Nat)
  | bad
  | full
deriving DecidableEq, Repr

/-- Offer a pitch entry (R38): queued with the index PITNEXT, or refused with BADPITCH or FULL. -/
def State.offerPitch (s : State) (n : Nat) (e : List Word) : State × OfferResult :=
  if entryBad e then (s.put (AX_PITQ_CTRL_BADPITCH n) 1, .bad)
  else if 64 ≤ (s.gen n).queue.length then (s.put (AX_PITQ_CTRL_FULL n) 1, .full)
  else
    let i := s.get (AX_PITNEXT_V n)
    let s := s.modGen n (fun g =>
      { g with queue := g.queue ++ [e], headAt := if g.queue.isEmpty then s.now else g.headAt })
    ((s.inc (AX_PITNEXT_V n)).syncQueue n, .queued i)

/-- The indices of the entries that the queue of slot `n` holds. -/
def State.queuedIxs (s : State) (n : Nat) : List Nat :=
  let k := (s.gen n).queue.length
  (List.range k).map (fun i => (s.get (AX_PITNEXT_V n) + 2 ^ 32 - k + i) % 2 ^ 32)

/-- A WAITDONE command that carries the pitches `ixs` waits on in vain once its last pitch is discarded (R304). -/
def State.strandWaits (s : State) (n : Nat) : State :=
  let gone := s.queuedIxs n
  s.each streams32 (fun k t => match (t.stream k).queue, (t.stream k).prog with
    | c :: _, .waiting ixs =>
      (match ixs.getLast? with
       | some i => if c.func = 0 ∧ c.slot? = some n ∧ gone.contains i then t.modStream k (fun st => { st with prog := .stuck ixs }) else t
       | none => t)
    | _, _ => t)

/-- FLUSH (R50): discard every queued entry; the running pitch continues. -/
def State.flushQueue (s : State) (n : Nat) : State :=
  let k := (s.gen n).queue.length
  let s := s.strandWaits n
  (((s.modGen n (fun g => { g with queue := [] })).inc (AX_PITFLUSH_V n) k).syncQueue n).put (AX_PITST_WAITSTART n) 0

/-- GO (R50): clear QHELD in HOLD or RUN. -/
def State.goQueue (s : State) (n : Nat) : State :=
  if s.slotState n = stHold ∨ s.slotState n = stRun then s.put (AX_PITQ_CTRL_QHELD n) 0 else s

/-- AXn_PITST.WAITSTART: the head waits for its START (R40, R50). -/
def State.syncWait (s : State) (n : Nat) : State :=
  let g := s.gen n
  let w := match g.queue with
    | e :: _ => entryTstart e && g.pitch == none && !s.bit (AX_PITQ_CTRL_QHELD n) && s.get (AX_MCFG_SRC n) == 0 &&
        decide ((s.now : Int) < startTime s.now e) && (s.slotState n == stHold || s.slotState n == stRun)
    | [] => false
  s.flag (AX_PITST_WAITSTART n) w

/-! ### Rest and underrun (R35, R49) -/

/-- The generator is at rest (R35). -/
def State.atRest (s : State) (n : Nat) : Bool :=
  let g := s.gen n
  g.m.v == 0 && g.m.a == 0 && g.nxt.v == 0 && g.nxt.a == 0 &&
  (match s.get (AX_MCFG_SRC n) with
   | 0 => g.pitch == none && g.queue.isEmpty
   | 1 => decide (64 ≤ g.gearIdle)
   | _ => g.points.isEmpty)

/-- The running pitch ends (R36): OVERSHOOT when it was overshot; an underrun when it ends with velocity and the
queue is empty and not held (R49). -/
def State.endPitch (s : State) (n : Nat) (q : Pitch) : State :=
  let s := if q.overshot then s.put (AX_PITQ_CTRL_OVERSHOOT n) 1 else s
  let s := (s.modGen n (fun g => { g with pitch := none, plan := [], fin := none })).clearPitst n
  let g := s.gen n
  if g.m.v ≠ 0 ∧ g.queue = [] ∧ s.bit (AX_PITQ_CTRL_QHELD n) = false then
    let s := (s.inc (AX_UNDERRUN_V n)).put (AX_PITST_UNDERRUN n) 1
    let s := s.modGen n (fun g => { g with under := true, drift := if q.under then .underStop else .coast })
    s.raiseSlot n 1 (entryTag q.words)
  else s

/-! ### Starting a pitch (R40 to R48) -/

/-- The end speed of a blended pitch (R43), signed along its direction `dir`. -/
def State.blendSpeed (s : State) (n : Nat) (e : List Word) (target dir : Int) (V : Rat) : Rat :=
  if !entryBlend e then 0 else
  match (s.gen n).queue with
  | f :: _ =>
    let t2 := if entryRel f then target + entryP1 f * 2 ^ 32 else entryP1 f * 2 ^ 32
    if entryType f ≤ 1 ∧ !entryTstart f ∧ (t2 - target).sign = dir then
      min V (scaled (s.vmax n) (entryVscale f)) else 0
  | [] => 0

/-- The pitch cannot run: QHELD and BADPITCH (R44, R47). -/
def State.pitchNotRun (s : State) (n i : Nat) : State :=
  ((s.put (AX_PITQ_CTRL_QHELD n) 1).put (AX_PITQ_CTRL_BADPITCH n) 1).interruptPitch n i

/-- Set the plan of the running pitch and compute the next setpoint from the published one with its first tick; without a
phase the generator goes on at its velocity. -/
def State.beginPlan (s : State) (n : Nat) (q : Pitch) (plan : List Phase) (fin : Finish) : State :=
  let s := s.modGen n (fun g =>
    let plan := plan.filter (fun ph => ph.ticks ≠ 0)
    match plan with
    | [] => { g with pitch := some q, plan := [], fin := none, nxt := tickMotion g.m.p g.m.v 0 0, run := { p := g.m.p, v := g.m.v }, under := false, drift := .coast }
    | _ =>
      let r := runTick g.m plan
      { g with
        pitch := some q, run := r.run, plan := r.plan, under := false, drift := .coast
        nxt := if r.plan.isEmpty then finishMotion r.next fin else r.next
        fin := if r.plan.isEmpty then none else some fin })
  let s := (((s.put (AX_PITST_ACTIVE n) 1).put (AX_PITST_TYPE n) (entryType q.words)).put (AX_PITST_TAG n) (entryTag q.words))
  (s.put (AX_PITST_UNDERRUN n) 0).toRun n

/-- The part of the run current that a homing pitch asks for (R47): IPCT %; a free value where IPCT lies outside the 10 to
100 that R39 gives it, for which the spec states no current. -/
def State.homingPart (s : State) (e : List Word) : Rat :=
  let k := bitsOf (entryAux e) 7 0
  if 10 ≤ k ∧ k ≤ 100 then (k : Rat) / 100 else Config.freeRat s.drawn

/-- A velocity pitch at its target velocity: it runs for DUR ticks, or until a successor is queued; at rest it ends (R46). -/
def State.holdSpeed (s : State) (n : Nat) (q : Pitch) : State :=
  if entryAux q.words ≠ 0 then s.beginPlan n q [⟨entryAux q.words, 0, some 0⟩] (.speed q.v1)
  else if q.v1 = 0 ∨ (s.gen n).queue ≠ [] then (s.toRun n).endPitch n q
  else s.beginPlan n q [] (.speed q.v1)

/-- Take the head entry `e` and start it as the pitch with index `i` from the published setpoint (R42 to R48). A
velocity or homing pitch whose effective A, or J, is zero is not run, like the pitches of R44: the spec gives no reaction
for types 3 and 4 (DESIGN CHOICE, notes/assumptions/67). -/
def State.startPitch (s : State) (n : Nat) (e : List Word) (i : Nat) : State :=
  let g := s.gen n
  let m := g.m
  let V := scaled (s.vmax n) (entryVscale e)
  let A := scaled (s.amax n) (entryAscale e)
  let J := scaled (s.jmax n) (entryJscale e)
  let q : Pitch := { words := e, index := i, vmax := V, amax := A, jmax := J, rapdec := s.rapDec n, start := m.p
                     under := s.bit (AX_MCFG_UNDER n), unreach := s.bit (AX_MCFG_UNREACH n)
                     range := s.get (AX_HOME_RANGE_V n), back := s.get (AX_HOME_BACK_V n) }
  match entryType e with
  | 0 | 1 =>
    let sc := entryType e == 1
    if V = 0 ∨ A = 0 ∨ (sc ∧ J = 0) then s.pitchNotRun n i
    else
      let target := if entryRel e then m.p + entryP1 e * 2 ^ 32 else entryP1 e * 2 ^ 32
      let dir : Int := if target = m.p then (if m.v = 0 then 1 else m.v.sign) else (target - m.p).sign
      let v1 := s.blendSpeed n e target dir V
      if target = m.p ∧ m.v = 0 then (s.toRun n).endPitch n q
      else
        match planMove m.p m.v target v1 V A J sc with
        | some (plan, w) => s.beginPlan n { q with target := target, v1 := w } plan (.target target w)
        | none =>
          s.beginPlan n { q with target := target, stage := if q.unreach then .giveUp else .overshoot }
            (planStop m.v A J sc) .rest
  | 2 =>
    let h : Rat := (entryAux e : Nat)
    let target := if entryRel e then m.p + entryP1 e * 2 ^ 32 else entryP1 e * 2 ^ 32
    let c := cubicCoeffs (fixToRat m.p) (fixToRat m.v) (fixToRat target) (fixToRat (entryP2 e)) h
    let s := if cubicExceeds (fixToRat m.v) (fixToRat (entryP2 e)) c.1 c.2 h (s.vmax n) (s.amax n) then
      s.put (AX_PITQ_CTRL_LIMIT n) 1 else s
    s.beginPlan n { q with target := target, v1 := entryP2 e }
      [⟨entryAux e, ratToFix (6 * c.2), some (ratToFix (2 * c.1))⟩] (.target target (entryP2 e))
  | 3 =>
    let sc := decide (s.jmax n ≠ 0)
    let dv := fixToRat (entryP1 e - m.v)
    if A = 0 ∨ (sc ∧ J = 0) then s.pitchNotRun n i
    else if dv = 0 then s.holdSpeed n { q with stage := .atSpeed, v1 := entryP1 e }
    else s.beginPlan n { q with stage := .toSpeed, v1 := entryP1 e } (changePhases dv (changeTicks dv A J sc) true)
      (.speed (entryP1 e))
  | 4 =>
    if !s.bit (AX_ENGSEL_ESTEN n) ∨ s.get (AX_HOME_RANGE_V n) = 0 ∨ entryP2 e = 0 ∨ A = 0 then s.pitchNotRun n i
    else
      let dv := fixToRat (entryP2 e - m.v)
      let q := { q with v1 := entryP2 e, ipct := s.homingPart e }
      let s := s.draw
      if dv = 0 then s.beginPlan n { q with stage := .atSpeed } [] (.speed (entryP2 e))
      else s.beginPlan n { q with stage := .toSpeed } (changePhases dv (changeTicks dv A 0 false) true)
        (.speed (entryP2 e))
  | _ =>
    let d := if entryP1 e = 0 then s.rapDec n else ratAbs (fixToRat (entryP1 e))
    if m.v = 0 ∨ d = 0 then s.beginPlan n q [⟨1, 0, some 0⟩] .rest
    else s.beginPlan n q (planStop m.v d 0 false) .rest

/-- PITCH_START: take the head entry once its start time is reached; a start time that had passed when the entry
reached the head counts in AXn_LATE (R40). -/
def State.pitchStart (s : State) (n : Nat) : State :=
  let g := s.gen n
  match g.queue with
  | [] => s
  | e :: rest =>
    let t := startTime s.now e
    if s.headStarts n then
      let s := if entryTstart e ∧ t < g.headAt then s.inc (AX_LATE_V n) else s
      let i := (s.get (AX_PITNEXT_V n) + 2 ^ 32 - g.queue.length) % 2 ^ 32   -- the index it was accepted with
      let s := (s.setGen n { g with queue := rest, joined := true, headAt := s.now }).inc (AX_PITSTART_V n)
      ((((s.syncQueue n).startPitch n e i)).syncWait n)
    else s

/-! ### Homing (R47) -/

/-- The positions that the compare outputs of slot `n` compare with the next count edge move with its frame (R47, R272). -/
def State.movePco (s : State) (n : Nat) (au : Int) : State :=
  s.each (List.range 4) (fun q t =>
    if t.get (PCO_CFG_SLOT q) = n then t.setPco q { t.pco q with prev := (t.pco q).prev.map (· + au) } else t)
/-- Add an offset to the generator position and to every reported position of the slot (R47). -/
def State.rebase (s : State) (n : Nat) (au : Int) : State :=
  let d := au * 2 ^ 32
  let s := s.modGen n (fun g =>
    { g with m := { g.m with p := g.m.p + d }, run := { g.run with p := g.run.p + d }
             nxt := { g.nxt with p := g.nxt.p + d }, prevP := g.prevP + d, prevRun := { g.prevRun with p := g.prevRun.p + d } })
  let s := (s.modPr n (fun x => { x with pos := x.pos + au })).movePco n au
  let s := s.puti (AX_SP_POS_V n) (s.geti (AX_SP_POS_V n) + au)
  (s.puti (AX_PR_POS_V n) (s.geti (AX_PR_POS_V n) + au))

/-- A stall declared during the travel of a stall-homing pitch: the next tick stops and rebases (R47). -/
def State.homingStall (s : State) (n : Nat) : State :=
  match (s.gen n).pitch with
  | some q => if entryType q.words = 4 ∧ (q.stage = .toSpeed ∨ q.stage = .atSpeed) then
      s.modGen n (fun g => { g with pitch := some { q with stage := .stalled } }) else s
  | none => s

/-! ### Stage changes at a tick instant -/

/-- The running pitch has travelled HOME_RANGE with no stall (R47). -/
def homeRangeOver (q : Pitch) (p : Int) : Bool :=
  entryType q.words == 4 && (q.stage == .toSpeed || q.stage == .atSpeed) && decide ((q.range : Int) * 2 ^ 32 ≤ ((p - q.start).natAbs : Int))

/-- At a tick instant, with the setpoint published: what the running pitch goes on with. -/
def State.advanceStage (s : State) (n : Nat) : State :=
  let g := s.gen n
  match g.pitch with
  | none => s
  | some q =>
    let setStage (s : State) (st : Stage) (plan : List Phase) (fin : Option Finish) : State :=
      s.modGen n (fun g => { g with pitch := some { q with stage := st }, plan := plan, fin := fin })
    if q.stage = .stalled then
      -- R47 steps 4 to 6: stop, rebase, back off against the homing direction
      let p := g.m.p / 2 ^ 32
      let off := entryP1 q.words - p
      let s := s.modGen n (fun g => { g with m := { p := g.m.p } })
      let s := ((s.puti (AX_SP_VEL_V n) 0).puti (AX_SP_ACC_V n) 0).puti (AX_SP_JERK_V n) 0
      let s := ((s.rebase n off).puti (AX_REBASE_V n) off).put (AX_RESTORE_POSITIONASSUMED n) 0
      let m := (s.gen n).m
      let target := m.p - (entryP2 q.words).sign * (q.back : Nat) * 2 ^ 32
      match planMove m.p 0 target 0 (ratAbs (fixToRat (entryP2 q.words))) q.amax 0 false with
      | some (plan, w) =>
        if target = m.p then s.endPitch n q else setStage s .backoff plan (some (.target target w))
      | none => s.endPitch n q
    else if homeRangeOver q g.m.p then
      setStage s .rangeEnd (planStop g.m.v q.amax 0 false) (some .rest)
    else if g.plan ≠ [] then s
    else
      match q.stage with
      | .moving | .backoff => s.endPitch n q
      | .overshoot =>
        let sc := entryType q.words == 1
        match planMove g.m.p 0 q.target 0 q.vmax q.amax q.jmax sc with
        | some (plan, w) =>
          if q.target = g.m.p then s.endPitch n { q with overshot := true }
          else s.modGen n (fun g => { g with pitch := some { q with stage := .moving, overshot := true }, plan := plan
                                             fin := some (.target q.target w) })
        | none => s.endPitch n { q with overshot := true }
      | .giveUp =>
        (((s.abandonPitch n).put (AX_PITQ_CTRL_QHELD n) 1).put (AX_PITQ_CTRL_UNREACH n) 1)
      | .rangeEnd =>
        let s := (s.modGen n (fun g => { g with pitch := none, plan := [], fin := none })).clearPitst n
        (s.put (AX_PITQ_CTRL_QHELD n) 1).put (AX_PITQ_CTRL_HOMEFAIL n) 1
      | .toSpeed =>
        if entryType q.words = 4 then setStage s .atSpeed [] none
        else if entryAux q.words ≠ 0 then setStage s .atSpeed [⟨entryAux q.words, 0, some 0⟩] (some (.speed q.v1))
        else if q.v1 = 0 ∨ g.queue ≠ [] then s.endPitch n q
        else setStage s .atSpeed [] none
      | .atSpeed =>
        if entryType q.words = 4 then s
        else if entryAux q.words ≠ 0 ∨ g.queue ≠ [] then s.endPitch n q
        else s
      | .stalled => s

/-! ### Timestamped setpoints (R52 to R55) -/

/-- The earliest tick instant whose setpoint is not yet being computed (R53). -/
def State.nextFree (s : State) : Nat :=
  if s.tickLeft then s.tickAt + 2 * s.period else (s.now / s.period + 1) * s.period

/-- Buffer a setpoint with its effective time (R53). -/
def State.bufferPoint (s : State) (n : Nat) (velok : Bool) (t : Nat) (p v : Int) : State :=
  let g := s.gen n
  let tu := s.nextFree
  let late := decide (t < tu)
  let t1 := if late then tu else t
  let prev := g.points.getLast?
  let follow := match prev with | some q => !late && decide (t ≤ q.t) | none => false
  let t2 := if follow then (match prev with | some q => q.t + s.period | none => t1) else t1
  let s := if late then s.inc (AX_LATE_V n) else s
  let s := if follow then s.inc (AX_SPORD_V n) else s
  let s := s.setGen n { g with points := g.points ++ [⟨t2, p * 2 ^ 32, v, velok⟩], late := g.late + (if late then 1 else 0) }
  let s := ((s.put (AX_SPB_LVL_LEVEL n) (g.points.length + 1)).put (AX_SPB_LVL_STARVED n) 0).put (AX_PITST_UNDERRUN n) 0
  let s := if g.points.isEmpty ∧ !s.genHeld n then s.toRun n else s
  if late then s.raiseSlot n 0 (s.gen n).late else s

/-- The velocity that a point without its own takes from two points, `ticks` apart; a free value `z` where they have the
same time. -/
def meanVelocity (z : Rat) (dp : Int) (ns P : Int) : Int :=
  ratToFix (if ns = 0 then z else fixToRat dp / ((ns : Rat) / (P : Rat)))
/-- The velocity at the end of the segment in use, fixed when the segment is first evaluated (R54 point 4). -/
def endVelocity (z : Rat) (P : Nat) (f q : SetPoint) (after : List SetPoint) : Int :=
  if q.velok then q.v else
  match after with
  | r :: _ => meanVelocity z (r.p - f.p) ((r.t : Int) - f.t) P
  | [] => meanVelocity z (q.p - f.p) ((q.t : Int) - f.t) P
/-- Drop the points that `t` has passed; the last of them starts the segment in use. A point whose segment was never
evaluated takes its velocity as that segment gives it (R54). -/
def dropPassed (z : Rat) (P t : Nat) : SetPoint → Option Int → List SetPoint → SetPoint × Option Int × List SetPoint
  | f, w, [] => (f, w, [])
  | f, w, q :: rest =>
    if q.t ≤ t then dropPassed z P t { q with v := w.getD (endVelocity z P f q rest) } none rest
    else (f, w, q :: rest)

/-- The setpoint published at `t` on the segment from `f` to (tq, pq, w) (R54 point 3). -/
def segmentAt (P t : Nat) (f : SetPoint) (tq : Nat) (pq w : Int) : Motion :=
  let h : Rat := ((tq - f.t : Nat) : Rat) / (P : Nat)
  let x : Rat := ((t - f.t : Nat) : Rat) / (P : Nat)
  let c := cubicCoeffs (fixToRat f.p) (fixToRat f.v) (fixToRat pq) (fixToRat w) h
  { p := ratToFix (fixToRat f.p + fixToRat f.v * x + c.1 * x * x + c.2 * x * x * x)
    v := ratToFix (fixToRat f.v + 2 * c.1 * x + 3 * c.2 * x * x)
    a := ratToFix (2 * c.1 + 6 * c.2 * x)
    j := ratToFix (6 * c.2) }

/-! ### Computing the next setpoint -/

/-- Without a pitch, segment or gear: coast, or run the stop in force (R40, R48, R49, R55). -/
def Gen.driftTick (g : Gen) (dec : Rat) : Gen :=
  match g.drift with
  | .coast => { g with run := { p := g.m.p, v := g.m.v }, nxt := tickMotion g.m.p g.m.v 0 0 }
  | _ =>
    let plan := if g.fin = none then (if g.m.v = 0 then [] else if dec = 0 then [⟨1, 0, some 0⟩] else planStop g.m.v dec 0 false) else g.plan
    match plan with
    | [] => { g with run := { p := g.m.p }, nxt := { p := g.m.p }, plan := [], fin := none }
    | _ =>
      let r := runTick g.m plan
      { g with run := r.run, plan := r.plan
               nxt := if r.plan.isEmpty then finishMotion r.next .rest else r.next
               fin := if r.plan.isEmpty then none else some .rest }

/-- Compute setpoint N + 1 from a running pitch or without one (SRC 0). -/
def State.computeQueue (s : State) (n : Nat) : State :=
  let g := s.gen n
  match g.pitch, g.plan with
  | some _, _ :: _ =>
    let r := runTick g.m g.plan
    let fin := g.fin.getD .rest
    s.setGen n { g with run := r.run, plan := r.plan
                        nxt := if r.plan.isEmpty then finishMotion r.next fin else r.next
                        fin := if r.plan.isEmpty then none else some fin }
  | some _, [] => s.setGen n { g with run := { p := g.m.p, v := g.m.v }, nxt := tickMotion g.m.p g.m.v 0 0 }
  | none, _ => s.setGen n (g.driftTick (s.rapDec n))

/-- The gear reading of R56, from the pulses counted since the previous one. The tick runs at v = delta with a = j = 0 for
R62 (DEDUCED, notes/assumptions/70). -/
def State.computeGear (s : State) (n : Nat) : State :=
  let g := s.gen n
  let c := g.gearCount
  let acc : Int := (s.get (AX_GEAR_REM_V n) : Int) + c * g.gearNum
  let delta := if g.gearDen = 0 then 0 else acc / (g.gearDen : Int)
  let rem := acc - delta * g.gearDen
  let v := delta * 2 ^ 32
  let nxt : Motion := { p := g.m.p + v, v := v, a := v - g.m.v, j := v - g.m.v - g.m.a }
  let s := s.setGen n { g with gearCount := 0, gearIdle := if c = 0 then g.gearIdle + 1 else 0, nxt := nxt
                               run := { p := g.m.p, v := v } }
  let s := s.puti (AX_GEAR_REM_V n) rem
  let s := s.puti (AX_GEAR_ACC_V n) (s.geti (AX_GEAR_ACC_V n) + c)
  let s := s.puti (AX_GEAR_APPL_V n) (s.geti (AX_GEAR_APPL_V n) + delta)
  if delta = 0 then s else s.toRun n

/-- Setpoint starvation (R55): counted once, STARVED set, the coast of SPB_HOLDOVER ticks begins. -/
def State.starve (s : State) (n : Nat) : State :=
  let s := ((s.inc (AX_UNDERRUN_V n)).put (AX_SPB_LVL_STARVED n) 1).put (AX_PITST_UNDERRUN n) 1
  let s := s.modGen n (fun g => { g with starving := true, drift := .coast, coastLeft := s.get (AX_SPB_HOLDOVER_V n)
                                         plan := [], fin := none })
  s

/-- The setpoint for `t` with the segment in use starting at point `f` (R54, R55). -/
def State.segmentTick (s : State) (n t : Nat) (f : SetPoint) : State :=
  let g := s.gen n
  let P := s.period
  let z := Config.freeRat s.drawn
  let s := s.draw
  let r := dropPassed z P t f g.segV g.points
  let g := { g with segFrom := some r.1, segV := r.2.1, points := r.2.2 }
  match r.2.2 with
  | [] =>
    -- the last point is passed: its velocity from its time on
    let x : Rat := ((t - r.1.t : Nat) : Rat) / (P : Nat)
    let m : Motion := { p := ratToFix (fixToRat r.1.p + fixToRat r.1.v * x), v := r.1.v }
    ((s.setGen n { g with segFrom := none, segV := none, nxt := m, run := { p := g.m.p, v := g.m.v } }).put
      (AX_SPB_LVL_LEVEL n) 0).starve n
  | q :: after =>
    let w := match g.segV with | some w => w | none => endVelocity z P r.1 q after
    let m := segmentAt P t r.1 q.t q.p w
    (s.setGen n { g with segV := some w, nxt := m, run := g.m }).put (AX_SPB_LVL_LEVEL n) (q :: after).length

/-- The first tick after the brake or a search has released the generator (R87): the points whose time has passed are
consumed, and the generator begins from an implicit point that holds its state at this tick. With no point left it stays
at rest (DEDUCED, notes/assumptions/78). -/
def State.releasePoints (s : State) (n t : Nat) : State :=
  let g := s.gen n
  let l := g.points.filter (fun q => decide (s.now < q.t))
  let s := (s.setGen n { g with points := l, segV := none, starving := false, drift := .coast, plan := [], fin := none
                                run := { p := g.m.p }, nxt := { p := g.m.p } }).put (AX_SPB_LVL_LEVEL n) l.length
  if l.isEmpty then s else (s.toRun n).segmentTick n t ⟨s.now, g.m.p, 0, true⟩

/-- Compute the setpoint for `t` from the setpoint buffer (R54, R55). -/
def State.computePoints (s : State) (n t : Nat) : State :=
  let g := s.gen n
  match g.segFrom with
  | none =>
    if g.points ≠ [] ∧ s.slotState n = stHold then s.releasePoints n t else
    -- coasting, stopping or at rest; with a point buffered the state at `t` is the implicit point
    let g := g.driftTick (s.rapDec n)
    let g := if g.starving then { g with coastLeft := g.coastLeft - 1 } else g
    s.setGen n (if g.points.isEmpty then g else
      { g with segFrom := some ⟨t, g.nxt.p, g.nxt.v, true⟩, segV := none, starving := false, drift := .coast, plan := [], fin := none })
  | some f => s.segmentTick n t f

/-- Compute setpoint N + 1 of a slot at tick instant T_N (R25, R36). -/
def State.compute (s : State) (n : Nat) : State :=
  let st := s.slotState n
  if st = stRappel then s.setGen n ((s.gen n).driftTick (s.rapDec n))
  else if st = stHold ∨ st = stRun then
    (if s.genHeld n then s.setGen n { s.gen n with run := { p := (s.gen n).m.p }, nxt := { p := (s.gen n).m.p } }
     else match s.get (AX_MCFG_SRC n) with
       | 0 => s.computeQueue n
       | 1 => s.computeGear n
       | _ => s.computePoints n (s.now + s.period))
  else s.setGen n { s.gen n with run := { p := (s.gen n).m.p }, nxt := { p := (s.gen n).m.p } }

/-- Publish setpoint N, all fields together (R25, R61). -/
def State.publish (s : State) (n : Nat) : State :=
  let g := s.gen n
  let m := g.nxt
  let s := s.setGen n { g with prevP := g.m.p, prevRun := { g.run with p := g.m.p }, m := m, joined := false, late := 0 }
  let s := ((s.puti (AX_SP_POS_V n) (m.p / 2 ^ 32)).puti (AX_SP_VEL_V n) m.v)
  ((s.puti (AX_SP_ACC_V n) m.a).puti (AX_SP_JERK_V n) m.j).put (AX_SP_TICK_V n) s.now

/-- Step-output backlog (R60, R367): a backlog left at the end of a tick raises its source, once until it has ended. -/
def State.backlogCheck (s : State) (n : Nat) : State :=
  let b := s.geti (AX_SO_BACKLOG_V n)
  if b = 0 then s.modGen n (fun g => { g with blSeen := false })
  else if (s.gen n).blSeen then s
  else (s.modGen n (fun g => { g with blSeen := true })).raiseSlot n 2 (min b.natAbs 65535)

/-- At a tick instant a REMOTE slot's step output has emitted all the steps of the tick that ends (R59, R60). -/
def State.finishSteps (s : State) (n : Nat) : State :=
  if !s.isRemote n then s else
  let s := (s.emitSteps n ((s.gen n).sched - (s.gen n).sent)).backlogCheck n
  s.modGen n (fun g => { g with sched := 0, sent := 0 })

/-- The outputs of a REMOTE slot carry steps: in HOLD and RUN, while no S4 reaction or sag holds them (R198, R269). -/
def State.stepsOn (s : State) (n : Nat) : Bool :=
  (s.slotState n == stHold || s.slotState n == stRun) && !s.bit (SOG_STAT_HELD (s.get (AX_BIND_SOUT n)))

/-- The steps of setpoint N of a REMOTE slot (R59, R60): of setpoint N's steps and the backlog, those that fit are
scheduled and the rest is the new backlog. In RAPPEL and SHUTDOWN the outputs rest (R269), and every step joins the backlog
(DEDUCED, notes/assumptions/80). The first step in the positive direction counts as a reversal (DESIGN CHOICE,
notes/assumptions/69). -/
def State.scheduleSteps (s : State) (n : Nat) : State :=
  if s.isRemote n && s.energised n then
    let g := s.gen n
    let au : Int := s.get (AX_SO_STEPAU_V n) * 2 ^ 32
    let k : Int := g.m.p / au - g.prevP / au + s.geti (AX_SO_BACKLOG_V n)
    if s.stepsOn n then
      let dir := if k = 0 then g.stepDir else decide (0 < k)
      let setup := if dir = g.stepDir then 0 else s.get (SO_CFG_DSU (s.get (AX_BIND_SOUT n))) * 4
      let m := min k.natAbs ((s.period - setup) / 250)
      let rest : Int := (if 0 < k then 1 else -1) * ((k.natAbs - m : Nat) : Int)
      (s.setGen n { g with sched := m, stepDir := dir, setup := setup }).puti (AX_SO_BACKLOG_V n) rest
    else s.puti (AX_SO_BACKLOG_V n) k
  else s

/-- RUN at rest drops to HOLD; a rappel at standstill ends by its end setting (R28, R48), with the STOP_REASON that the
rappel has, joined by DEENERGISE or not (DESIGN CHOICE, notes/assumptions/72). -/
def State.settle (s : State) (n : Nat) : State :=
  let g := s.gen n
  if s.slotState n = stRun then
    (if s.atRest n then ((s.toHold n).modGen n (fun g => { g with under := false })).put (AX_PITST_UNDERRUN n) 0 else s)
  else if s.slotState n = stRappel then
    (if g.m.v = 0 ∧ g.m.a = 0 then
      (if g.rapDe ∨ s.bit (AX_MCFG_RAPEND n) then s.toShutdown n (s.get (AX_STATE_STOPREASON n))
       else (s.toHold n).modGen n (fun g => { g with drift := .coast }))
     else s)
  else s

/-! ### The commands -/

/-- MCFG_WRITE (R34): accepted only with a legal SRC and CAPSRC and in the states R34 names, else ERR 5. -/
def mcfgWrite (w : Writer) (n : Nat) (v : Word) (s : State) : State :=
  if !s.owns w n then s else
  let src := fieldOf v (AX_MCFG_SRC n)
  let okSrc := src ≤ 2 ∧ (fieldOf v (AX_MCFG_CAPSRC n) = 0 ∨ s.bit (AX_BIND_FBEN n))
  let st := s.slotState n
  let g := s.gen n
  let okState := src = s.get (AX_MCFG_SRC n) ∨ st ≤ stIdle ∨ (st = stHold ∧ g.queue = [] ∧ g.points = [])
  if okSrc ∧ okState then s.wr (AX_MCFG n) (BitVec.ofNat 32 (v.toNat % 64)) else s.err n 5

/-- PITCH_OFFER (R38): the write to PITQ_IN7 offers the eight staged words. -/
def pitchOffer (w : Writer) (n : Nat) (v : Word) (s : State) : State :=
  if !s.owns w n then s else
  let s := s.wr (AX_PITQ_IN n 7) v
  ((s.offerPitch n ((List.range 8).map (fun i => s.rd (AX_PITQ_IN n i)))).1).syncWait n

/-- FLUSH (R50). -/
def pitqFlush (w : Writer) (n : Nat) (s : State) : State := if s.owns w n then s.flushQueue n else s
/-- GO (R50). -/
def pitqGo (w : Writer) (n : Nat) (s : State) : State := if s.owns w n then s.goQueue n else s

/-- SETPOINT_OFFER (R52): the write to offset 0x198, the high word of v, offers the staged setpoint; refused with
ERR 5 while SRC ≠ 2 and with FULL when sixteen are buffered. -/
def setpointOffer (w : Writer) (n : Nat) (v : Word) (s : State) : State :=
  if !s.owns w n then s else
  let s := s.wr (AX_SPB_V n + 4) v
  if s.get (AX_MCFG_SRC n) ≠ 2 ∨ s.slotState n = stUnbound then s.err n 5
  else if 16 ≤ (s.gen n).points.length then s.put (AX_SPB_LVL_FULL n) 1
  else s.bufferPoint n (s.bit (AX_SPB_IN0_VELOK n)) (s.rd64 (AX_SPB_T n)) (s.geti (AX_SPB_P_V n)) (s.geti (AX_SPB_V_V n))

/-- SETPOINT_HOLDOVER_EXPIRY (R55): the coast of SPB_HOLDOVER ticks is over; the generator decelerates. -/
def holdoverExpiry (n : Nat) (s : State) : State :=
  let g := s.gen n
  if g.starving ∧ g.drift = .coast ∧ g.coastLeft = 0 ∧ g.segFrom = none then
    s.setGen n { g with drift := .starveStop, plan := [], fin := none }
  else s

/-- LOAD (R57): stages a ratio change, refused when DEN = 0. -/
def gearLoad (w : Writer) (n : Nat) (s : State) : State :=
  if !s.owns w n then s else
  if s.rd (AX_GEAR_DEN n) = 0 then s.put (AX_GEAR_CTRL_REFUSED n) 1
  else s.modGen n (fun g => { g with gearLoad := true })

/-- GEAR_LOAD_APPLY (R58): at a tick boundary, the remainder goes to the position fraction, rounded down, the gear
counters restart and the staged ratio applies. -/
def gearLoadApply (n : Nat) (s : State) : State :=
  let g := s.gen n
  if g.gearLoad ∧ s.tickLeft ∧ s.now = s.tickAt then
    if s.rd (AX_GEAR_DEN n) = 0 then (s.setGen n { g with gearLoad := false }).put (AX_GEAR_CTRL_REFUSED n) 1
    else
      let add : Int := (s.get (AX_GEAR_REM_V n) : Int) * 2 ^ 32 / (g.gearDen : Int)
      let s := s.setGen n { g with gearLoad := false, gearNum := (s.rd (AX_GEAR_NUM n)).toInt
                                   gearDen := (s.rd (AX_GEAR_DEN n)).toNat, nxt := { g.nxt with p := g.nxt.p + add } }
      ((s.wr (AX_GEAR_REM n) 0).wr64 (AX_GEAR_ACC n) 0).wr64 (AX_GEAR_APPL n) 0
  else s

/-- STEP_PULSE (R59, R198): the slot's step output emits its next scheduled step, at the instant R59 gives. -/
def stepPulse (n : Nat) (s : State) : State :=
  let g := s.gen n
  if s.isRemote n && decide (g.sent < g.sched) && !s.bit (SOG_STAT_HELD (s.get (AX_BIND_SOUT n))) then
    { s with now := max s.now (s.stepTime g g.sent) }.emitSteps n 1
  else s

/-! ### Their meanings as commands -/

def execMcfgWrite (w : Writer) (n : Fin 16) (v : Word) (s : State) : Out := live s (mcfgWrite w n.val v)
def execPitchOffer (w : Writer) (n : Fin 16) (v : Word) (s : State) : Out := live s (pitchOffer w n.val v)
def execPitchStart (n : Fin 16) (s : State) : Out := live s (fun s => s.pitchStart n.val)
def execFlush (w : Writer) (n : Fin 16) (s : State) : Out := live s (pitqFlush w n.val)
def execGo (w : Writer) (n : Fin 16) (s : State) : Out := live s (pitqGo w n.val)
def execSetpointOffer (w : Writer) (n : Fin 16) (v : Word) (s : State) : Out := live s (setpointOffer w n.val v)
def execSetpointHoldoverExpiry (n : Fin 16) (s : State) : Out := live s (holdoverExpiry n.val)
def execLoad (w : Writer) (n : Fin 16) (s : State) : Out := live s (gearLoad w n.val)
def execGearLoadApply (n : Fin 16) (s : State) : Out := live s (gearLoadApply n.val)
def execStepPulse (n : Fin 16) (s : State) : Out := live s (stepPulse n.val)

end Sys2Proof.Machine
end

