-- ==== Sys2Proof/Machine/GateDrive.lean ====
section
/-! DEFINITION. Gate drive and power-stage protection (09_gate_drive.md, R201 to R222): arming, local trips, SAFEOFF_N,
clearing, taking a slot out of service, and the configuration writes of a bridge die. -/
namespace Sys2Proof.Machine

/-- The latch fields of a channel: its bits [7:1] (R221). -/
def State.latchBits (s : State) (c : Nat) : Nat := bitsOf (s.rd (GD_CHSTAT (c / 8) (c % 8))).toNat 7 1
/-- A channel is tripped. -/
def State.tripped (s : State) (c : Nat) : Bool := s.bit (GD_CHSTAT_TRIPPED (c / 8) (c % 8))
/-- The channel is armed, or a trip or reaction has disarmed it at this very instant: a sample of the instant still acts
(R210, R222). -/
def State.armedNow (s : State) (c : Nat) : Bool :=
  s.armed c || (match (s.chan c).disarmed with | some (t, _) => t == s.now | none => false)
/-- The same of its VH comparator. -/
def State.vhArmedNow (s : State) (c : Nat) : Bool :=
  s.vhArmed c || (match (s.chan c).disarmed with | some (t, v) => t == s.now && v | none => false)

/-- TRIP_ACTIVE of a channel: a latched cause is still active (R214): the supply lies below its rising threshold, or its
window monitor has not returned inside. A short is none with the gates off. -/
def State.causeActive (s : State) (c : Nat) : Bool :=
  let g := c / 8
  let k := c % 8
  (s.bit (GD_CHSTAT_VHUV g k) && ((s.window (winVh c)).outside || !s.bit (GD_CHSTAT_VHOK g k))) ||
  (s.bit (GD_CHSTAT_VGDUV g k) && s.bit (GD_STAT_VGDUVACTIVE g)) ||
  (s.bit (GD_CHSTAT_OT g k) && s.bit (GD_STAT_OTACTIVE g))
/-- Bring TRIP_ACTIVE of a channel up to date. -/
def State.syncActive (s : State) (c : Nat) : State :=
  s.flag (GD_CHSTAT_TRIPACTIVE (c / 8) (c % 8)) (s.causeActive c)

/-- The drive of a calibration or identification ends: every gate of the slot's channels off. -/
def State.calDriveOff (s : State) (n : Nat) : State := s.each (s.localChans n) (fun c t =>
  if t.get (PWM_STAT_MODE c) = mKilled then t else t.force c mOff false)

/-- A calibration or identification of the slot that a trip ends: FAIL with FAILCODE 4, nothing stored (R69, R109). -/
def State.calTrip (s : State) (n : Nat) : State :=
  let s := if s.bit (AX_CC_CAL_BUSY n) then
      ((((s.put (AX_CC_CAL_BUSY n) 0).put (AX_CC_CAL_DONE n) 0).put (AX_CC_CAL_FAIL n) 1).put (AX_CC_CAL_FAILCODE n) 4).modCc n
        (fun c => { c with calKind := 0 }) |>.calDriveOff n else s
  if s.bit (AX_PR_CTRL_BUSY n) then
    (((((s.put (AX_PR_CTRL_BUSY n) 0).put (AX_PR_CTRL_DONE n) 0).put (AX_PR_CTRL_FAIL n) 1).put (AX_PR_CTRL_FAILCODE n) 4).modCc n
      (fun c => { c with calKind := 0 })).calDriveOff n
  else s

/-- Latch a local trip on channel `c` with the latch bits `bits` of CHSTAT [7:1]: both gates off at once, mode KILLED,
counted (R210, R192); with STO = 1 a short circuit turns the conducting gate off softly (R211). -/
def State.latchTrip (s : State) (c bits : Nat) : State :=
  let a := GD_CHSTAT (c / 8) (c % 8)
  let s := (s.noteArmed c).wr a ((s.rd a) ||| BitVec.ofNat 32 (bits * 2 + 1))
  let s := { s with pulses := s.pulses.filter (· ≠ c) }
  (((s.inc (GD_TRIPCNT_V (c / 8) (c % 8))).force c mKilled false (bits % 16 != 0 && s.bit (GD_CFG_STO (c / 8)))).syncActive c)

/-- The slot of a tripped channel enters TRIPPED with STOP_REASON 4; its other channels take the safe state (R212). -/
def State.tripOwner (s : State) (c : Nat) : State :=
  match s.ownerOf c with
  | some n => (s.toTripped n 4 .safe).calTrip n
  | none => s

/-- DETAIL of a channel source: CHSTAT [7:0] at the latch (R212). -/
def State.tripDetail (s : State) (c : Nat) : Nat := bitsOf (s.rd (GD_CHSTAT (c / 8) (c % 8))).toNat 7 0

/-- A VH under-voltage local trip on channel `c` (R203, R210). -/
def State.vhTrip (s : State) (c : Nat) : State :=
  let s := (s.latchTrip c 0x10).tripOwner c
  s.raise (0x300 + 4 * c + 2) 0 (s.tripDetail c) c s.now true

/-- A trip cause of group `g` acts on its armed channels: each latches, and its slot enters TRIPPED (R208, R210). -/
def State.latchGroup (s : State) (g bits : Nat) : State :=
  let armed := ((List.range 8).map (8 * g + ·)).filter s.armedNow
  (s.each armed (fun c t => t.latchTrip c bits)).each armed (fun c t => t.tripOwner c)

/-- A trip on all channels of group `g`: latched on the armed ones, its source raised (R208, R210). -/
def State.groupTrip (s : State) (g bits src : Nat) : State :=
  let acts := s.safeoff || ((List.range 8).map (8 * g + ·)).any s.armedNow
  let s := s.latchGroup g bits
  s.raise (0x40 + 4 * g + src) 0 0 (0x80 + g) s.now acts

/-- VGDg is below its threshold: a group in brake coasts at once (R213, R222). -/
def State.dropBrake (s : State) (g : Nat) : State :=
  s.each ((List.range 8).map (8 * g + ·)) (fun c t =>
    match t.ownerOf c with
    | some n => if t.slotState n = stTripped then t.force c (t.get (PWM_STAT_MODE c)) false else t
    | none => t)

/-! ### SAFEOFF_N (R215) -/

/-- SAFEOFF_N_LOW: every gate off by the die paths, every armed channel KILLED, the source raised with its reaction
on all groups. -/
def safeoffLow (s : State) : State :=
  if s.safeoff then s else
  let s := { s with safeoff := true }
  let s := s.each groups4 (fun g t => (t.put (GD_STAT_SAFEOFF g) 1).put (GD_STAT_SAFEOFFSEEN g) 1)
  let s := s.each chans32 (fun c t => (t.noteArmed c).force c (if t.armed c then mKilled else t.get (PWM_STAT_MODE c)) false)
  let s := { s with pulses := [], panel := { s.panel with tests := [] } }
  let s := s.each slots16 (fun n t => t.calTrip n)
  s.raise 0 0 0 0xFF s.now true

/-- SAFEOFF_N_HIGH: GDg_STAT.SAFEOFF clears and nothing is restored. -/
def safeoffHigh (s : State) : State :=
  s.each groups4 (fun g t => { t with safeoff := false }.put (GD_STAT_SAFEOFF g) 0)

/-! ### Clearing and service (R214, R217, R218) -/

/-- Clear the latch bits of a channel. -/
def State.clearLatch (s : State) (c : Nat) : State :=
  let a := GD_CHSTAT (c / 8) (c % 8)
  s.wr a ((s.rd a) &&& 0xFFFF7F00#32)

/-- The account of a held step output is settled without emitting the held steps (R198). -/
def State.settleBacklog (s : State) (n : Nat) : State :=
  let o := s.get (AX_BIND_SOUT n)
  if s.isRemote n && s.bit (SOG_STAT_HELD o) then
    let b := s.geti (AX_SO_BACKLOG_V n)
    let s := s.rebase n (-(b * (s.get (AX_SO_STEPAU_V n) : Int)))
    (s.wr (AX_SO_BACKLOG n) 0).put (SOG_STAT_HELD o) 0
  else s

/-- Word 0 of a CLEAR_WHILE_ACTIVE record: the roles with an active cause (R376). -/
def State.activeRoles (s : State) (n : Nat) : Nat :=
  let mark (base : Nat) (cs : List Nat) : Nat :=
    (cs.zipIdx.map (fun x => if s.safeoff || s.bit (GD_CHSTAT_TRIPACTIVE (x.1 / 8) (x.1 % 8)) then 2 ^ (base + x.2) else 0)).sum
  mark 0 (s.localChans n) + mark 5 (s.brakeChans n) + (if s.safeoff then 128 else 0)

/-- CLEAR (R214, R28): in TRIPPED with no active cause the latches clear and the slot returns to IDLE; with one it
stays and CLEAR_WHILE_ACTIVE is recorded; in any other state ERR 5. -/
def State.clearTrip (s : State) (w : Writer) (n : Nat) : State :=
  if s.slotState n ≠ stTripped then s.err n 5
  else if s.safeoff || (s.slotChans n).any (fun c => s.bit (GD_CHSTAT_TRIPACTIVE (c / 8) (c % 8))) then
    s.offer ⟨BitVec.ofNat 32 (s.activeRoles n), logW1 (addrSlot n) (issuerOf w) 2, s.now⟩
  else
    let s := s.each (s.slotChans n) (fun c t => (t.clearLatch c).force c mOff false)
    (s.settleBacklog n).put (AX_STATE_STATE n) stIdle

/-- SVC_OUT (R217, R28): from IDLE or TRIPPED; the channels are OFF and out of service and their latches clear, one
SVC_CLEARED record for each channel that had any. -/
def State.svcOut (s : State) (w : Writer) (n : Nat) : State :=
  if s.slotState n = stIdle ∨ s.slotState n = stTripped then
    let s := (s.missBind n).dropTest n
    let s := s.each (s.slotChans n) (fun c t =>
      let bits := t.latchBits c
      let t := if bits = 0 then t else
        t.offer ⟨BitVec.ofNat 32 (c * 65536 + bits * 2), logW1 (addrSlot n) (issuerOf w) 3, t.now⟩
      (((t.clearLatch c).force c mOff false).put (GD_CHSTAT_OOS (c / 8) (c % 8)) 1))
    (s.put (AX_STATE_STATE n) stOos).interruptWait n stOos 0
  else s.err n 5

/-! ### The paths of the motor-presence test (R447, R448) -/

/-- The paths of a slot: drive and return channel (R447). -/
def State.presPaths (s : State) (n : Nat) : List (Nat × Nat) :=
  let c := s.localChans n
  let at_ (i j : Nat) : Nat × Nat := (c.getD i 0, c.getD j 0)
  (match s.kind n with
   | 1 => [at_ 0 1, at_ 2 3]
   | 2 => [at_ 0 1, at_ 1 2]
   | 3 => [at_ 0 1, at_ 1 2, at_ 2 3, at_ 3 4]
   | _ => []) ++
  (match s.brakeChans n with | [a, b] => [(a, b)] | _ => [])
/-- The drive and return channel of path `i`, reversed at every other test. -/
def State.presPath (s : State) (n i : Nat) : Nat × Nat :=
  let p := (s.presPaths n).getD i (0, 0)
  if s.panel.flip.contains n then (p.2, p.1) else p
/-- The supplies of a path are ready (step 1 of R448). -/
def State.presReady (s : State) (n i : Nat) : Bool :=
  let (d, r) := s.presPath n i
  !s.bit (GD_STAT_VGDUVACTIVE (d / 8)) && !s.bit (GD_STAT_VGDUVACTIVE (r / 8)) &&
  (s.bit (PWMG_STAT_BOOT (d / 8)) || s.bit (GD_CHSTAT_VHOK (d / 8) (d % 8)))
/-- The drive direction of a slot's paths reverses after a test. -/
def State.flipPaths (s : State) (n : Nat) : State :=
  let rest := s.panel.flip.filter (fun x => x != n)
  { s with panel := { s.panel with flip := if s.panel.flip.contains n then rest else rest ++ [n] } }

/-! ### SVC_IN (R218) -/

/-- What the pins answer to the checks of one channel or path, as one number: bit 1 VHc is not above its rising threshold
after the low-side pulse of a bootstrap group, bit 2 a sense input reads beyond ±20 µA, bit 3 path i gives no decision
within TCP; bits [8:4] and [13:9] the trips, in the order of CHSTAT [5:1], that end path i on its drive and return
channels. -/
def checkTrips (p : Nat) : Nat × Nat := (p / 16 % 32, p / 512 % 32)

/-- A local trip ends the continuity pulse on channel `c`: latched and reported; the slot keeps its state (R210, R448). -/
def State.pulseTrip (s : State) (c bits : Nat) : State :=
  if bits = 0 then s else
  let s := s.latchTrip c bits
  s.raise (0x300 + 4 * c + (if bits / 4 % 4 ≠ 0 then 1 else if bits % 4 ≠ 0 then 0 else 2)) 0 (s.tripDetail c) c s.now true

/-- The test of path `i` at SVC_IN: a path whose supplies are not ready is skipped; a local trip acts. -/
def State.svcPath (s : State) (n i p : Nat) : State :=
  if !s.presReady n i then s else
  (s.pulseTrip (s.presPath n i).1 (checkTrips p).1).pulseTrip (s.presPath n i).2 (checkTrips p).2

/-- Path `i` fails: it is skipped, gives no decision, or a trip ends it. -/
def State.svcPathFails (s : State) (n i p : Nat) : Bool :=
  !s.presReady n i || p / 8 % 2 == 1 || checkTrips p != (0, 0)

/-- The checks that channel `c` fails (R218), as the source's detail bits: `p` what its own pins answer, `bad` the channels
of the paths that failed. -/
def State.svcFailed (s : State) (c p : Nat) (bad : List Nat) : Nat :=
  let g := c / 8
  (if s.bit (GD_STAT_VGDUVACTIVE g) then 1 else 0) +
  (if s.bit (PWMG_STAT_BOOT g) then p / 2 % 2 * 2 else if s.bit (GD_CHSTAT_VHOK g (c % 8)) then 0 else 2) +
  p / 4 % 2 * 4 + (if bad.contains c then 8 else 0)

/-- SVC_IN (R218): every path of the slot is tested, then each channel judged in turn; the slot enters IDLE whatever the
results. `phys`: what the pins answer, by channel of the slot and by path. -/
def State.svcIn (s : State) (n : Nat) (phys : List Nat) : State :=
  if s.slotState n = stOos then
    let s := s.each (s.slotChans n) (fun c t => t.put (GD_CHSTAT_OOS (c / 8) (c % 8)) 0)
    let paths := List.range (s.presPaths n).length
    let bad := (paths.filter (fun i => s.svcPathFails n i (phys.getD i 0))).flatMap (fun i => [(s.presPath n i).1, (s.presPath n i).2])
    let s := s.each paths (fun i t => t.svcPath n i (phys.getD i 0))
    let s := s.each (s.slotChans n).zipIdx (fun x t =>
      let failed := t.svcFailed x.1 (phys.getD x.2 0) bad
      let t := t.flag (GD_CHSTAT_SVCFAIL (x.1 / 8) (x.1 % 8)) (failed != 0)
      if failed = 0 then t else t.raise (0x300 + 4 * x.1 + 3) 0 failed x.1 t.now)
    let s := if s.isLocal n then ((s.put (FP_MPR_RESULT n) 0).inc (FP_MPR_TESTS n)).flipPaths n else s
    s.put (AX_STATE_STATE n) stIdle
  else s.err n 5

/-! ### Configuration writes (R219, R221) -/

/-- GD_CFG_WRITE (R219): taken whole when no slot that uses the group is energised and OTTHR is 100 to 150. -/
def gdCfgWrite (g : Nat) (v : Word) (s : State) : State :=
  let ot := fieldOf v (GD_CFG_OTTHR g)
  if !s.groupUsed g ∧ 100 ≤ ot ∧ ot ≤ 150 then s.wr (GD_CFG g) (v &&& 0xFF0F05#32)
  else s.put (GD_STAT_REFUSED g) 1

/-- SCTHR_WRITE (R221): both codes at least 2; a sample of the same instant is judged by the codes before (R222). -/
def scthrWrite (g k : Nat) (v : Word) (s : State) : State :=
  if 2 ≤ fieldOf v (GD_SCTHR_MAIN g k) ∧ 2 ≤ fieldOf v (GD_SCTHR_HARD g k) then
    (s.modChan (8 * g + k) (fun x => { x with thrOld := some (s.now, s.rd (GD_SCTHR g k)) })).wr (GD_SCTHR g k)
      (BitVec.ofNat 32 (v.toNat % 65536))
  else s.put (GD_STAT_REFUSED g) 1

/-! ### Their meanings as commands -/

/-- The level at the ball is there whether or not the device is out of reset; the logic acts on it when it is. -/
def execSafeoffNLow (s : State) : Out := always s (fun s => if s.up then safeoffLow s else { s with safeoff := true })
def execSafeoffNHigh (s : State) : Out := always s (fun s => if s.up then safeoffHigh s else { s with safeoff := false })
def execGdCfgWrite (g : Fin 4) (v : Word) (s : State) : Out := live s (gdCfgWrite g.val v)
def execScthrWrite (g : Fin 4) (k : Fin 8) (v : Word) (s : State) : Out := live s (scthrWrite g.val k.val v)

end Sys2Proof.Machine
end

