-- ==== Sys2Proof/Machine/Comparators.lean ====
section
/-! DEFINITION. Sampled comparators and window monitors (10_comparators.md, R223 to R235): one sample of a
short-circuit comparator or of a window monitor, the decision of its m-of-n filter, and the configuration writes. -/
namespace Sys2Proof.Machine

/-- At least `m` of the last `n` samples lie above (R226). -/
def mOfN (m n : Nat) (h : List Bool) : Bool := decide (m ≤ (h.take n).countP id)

/-- The comparators of one input for one sample: the histories after it, the raw main sample and the decisions. -/
structure InputSample where
  main : List Bool
  hard : List Bool
  raw : Bool
  mainHit : Bool
  hardHit : Bool
deriving DecidableEq, Repr

/-- One 62.5 MHz sample of an input (R224 to R227): taken only while its transistor is on; the main sample is not
taken during blanking. `i` is the mirror current in µA, `scf` the setting in force since the turn-on. -/
def sampleInput (on : Bool) (now onAt : Nat) (scf : Word) (mainThr hardThr : Nat) (mh hh : List Bool) (i : Int) : InputSample :=
  if !on then ⟨[], [], false, false, false⟩ else
  let blanked := decide (now ≤ onAt + fieldOf scf (CMP_SCF_BLANK 0) * 8)
  let above (thr : Nat) : Bool := decide (thr * 10 < i.natAbs)
  let hh := (above hardThr :: hh).take 3
  if blanked then ⟨[], hh, false, false, mOfN 2 3 hh⟩
  else
    let n := fieldOf scf (CMP_SCF_N 0)
    let mh := (above mainThr :: mh).take 7
    ⟨mh, hh, above mainThr, mOfN (fieldOf scf (CMP_SCF_M 0)) n mh, mOfN 2 3 hh⟩

/-- What a comparator sample of a channel decides (R207, R228). -/
inductive ScDecision where
  | none
  | monitored
  | trip
deriving DecidableEq, Repr

/-- The next comparator sample of channel `c`: its group samples every 16 ns on its 4 ns grid, and a channel once at each
of those instants (R223). -/
def State.sampleTime (s : State) (c : Nat) : Nat :=
  match (s.group (c / 8)).sampAt with
  | none => (s.now + 3) / 4 * 4
  | some t =>
    let u := t + 16 * ((s.now - t + 15) / 16)
    if (s.chan c).sampAt = some u then u + 16 else u
/-- The sample instant comes. -/
def State.toSample (s : State) (c : Nat) : State :=
  let u := max s.now (s.sampleTime c)
  ({ s with now := u }.setGroup (c / 8) { s.group (c / 8) with sampAt := some u }).modChan c (fun x => { x with sampAt := some u })

/-- A register word as a sample of the present instant sees it: as before a write of this instant (R222, R235). -/
def State.before (s : State) (a : Nat) (old : Option (Nat × Word)) : Word :=
  match old with
  | some (t, v) => if t = s.now then v else s.rd a
  | none => s.rd a
/-- The thresholds and the setting of channel `c` that the sample of this instant is judged by. -/
def State.scThr (s : State) (c : Nat) : Word := s.before (GD_SCTHR (c / 8) (c % 8)) (s.chan c).thrOld
def State.scMon (s : State) (c : Nat) : Bool := fieldOf (s.before (CMP_SCF c) (s.chan c).scfOld) (CMP_SCF_MON c) != 0

/-- The short-circuit comparators of channel `c` act: it is armed, or it stands in brake (R208, R213). -/
def State.scArmed (s : State) (c : Nat) : Bool :=
  s.armed c || ((s.chan c).l.on && (match s.ownerOf c with | some n => s.slotState n == stTripped | none => false))

/-- One input of channel `c` sampled with mirror current `i`, in µA. A gate that a trip of this same instant has turned
off is judged as if it were on (R222); one that turned off at this instant in any other way is judged by its hard
comparator alone (R235). -/
def State.sampleGate (s : State) (c : Nat) (high : Bool) (i : Int) : InputSample :=
  let x := (s.chan c).gate high
  let main := fieldOf (s.scThr c) (GD_SCTHR_MAIN (c / 8) (c % 8))
  let hard := fieldOf (s.scThr c) (GD_SCTHR_HARD (c / 8) (c % 8))
  if x.on then sampleInput (s.scArmed c) s.now x.onAt x.scf main hard x.main x.hard i
  else match x.cut with
    | some k =>
      if k.at_ ≠ s.now ∨ !s.armedNow c then sampleInput false s.now 0 0 main hard [] [] i
      else if k.trip then sampleInput true s.now x.onAt x.scf main hard k.main k.hard i
      else { sampleInput true s.now x.onAt x.scf main hard k.main k.hard i with raw := false, mainHit := false }
    | none => sampleInput false s.now 0 0 main hard [] [] i

/-- What the sample decides: with MON = 1 a main comparator latches no trip (R228). -/
def State.scDecide (s : State) (c : Nat) (iH iL : Int) : ScDecision :=
  let h := s.sampleGate c true iH
  let l := s.sampleGate c false iL
  if h.hardHit || l.hardHit || (!s.scMon c && (h.mainHit || l.mainHit)) then .trip
  else if h.mainHit || l.mainHit then .monitored
  else .none

/-- A sample enters the histories of a gate; one that is off keeps none (R224). -/
def Gate.take (x : Gate) (i : InputSample) : Gate := if x.on then { x with main := i.main, hard := i.hard } else x
/-- The sample enters the histories, RAW and MSEEN (R229). -/
def State.takeSample (s : State) (c : Nat) (iH iL : Int) : State :=
  let h := s.sampleGate c true iH
  let l := s.sampleGate c false iL
  let x := s.chan c
  let s := s.setChan c { x with h := x.h.take h, l := x.l.take l }
  let s := (s.flag (CMP_SST_RAWH c) (h.raw && x.h.on)).flag (CMP_SST_RAWL c) (l.raw && x.l.on)
  let s := if h.mainHit then s.put (CMP_SST_MSEENH c) 1 else s
  if l.mainHit then s.put (CMP_SST_MSEENL c) 1 else s

/-- COMPARATOR_SAMPLE (R223): a sample that decides nothing. -/
def comparatorSample (c : Nat) (iH iL : Int) (s : State) : State :=
  let t := s.toSample c
  if t.scDecide c iH iL = .none then t.takeSample c iH iL else s

/-- MONITORED_DECISION (R228): with MON = 1 a main decision sets MSEEN and latches no trip. -/
def monitoredDecision (c : Nat) (iH iL : Int) (s : State) : State :=
  let t := s.toSample c
  if t.scDecide c iH iL = .monitored then t.takeSample c iH iL else s

/-- The latch bits [4:1] of a deciding sample (R210, R222): one for each comparator that decides; MON masks the main ones. -/
def State.scBits (s : State) (c : Nat) (iH iL : Int) : Nat :=
  let h := s.sampleGate c true iH
  let l := s.sampleGate c false iL
  let mon := s.scMon c
  (if h.mainHit && !mon then 1 else 0) + (if l.mainHit && !mon then 2 else 0) +
    (if h.hardHit then 4 else 0) + (if l.hardHit then 8 else 0)

/-- SHORT_CIRCUIT_TRIP (R210, R212, R222): every deciding comparator latches its bit, one message from the hard
source when a hard comparator decided. -/
def shortCircuitTrip (c : Nat) (iH iL : Int) (s : State) : State :=
  let t := s.toSample c
  if t.scDecide c iH iL = .trip then
    let bits := t.scBits c iH iL
    let s := ((t.takeSample c iH iL).latchTrip c bits).tripOwner c
    s.raise (0x300 + 4 * c + (if 4 ≤ bits then 1 else 0)) 0 (s.tripDetail c) c s.now true
  else s

/-! ### Window monitors (R230 to R233) -/

/-- A monitored quantity (R230): an indexed supply or temperature, VGDg, VHc, or the temperature of a bridge die. -/
def mvFalling (code : Nat) : Int := 8500 + 500 * code

/-- A write of MON_FILT was taken at the present instant: the sample of this instant is judged by the filter and the
histories before it (R235). -/
def State.filtBefore (s : State) : Option (Word × Tab Window) :=
  match s.filtOld with
  | some (t, v, ws) => if t = s.now then some (v, ws) else none
  | none => none

/-- The m and n of a window class (R231): 0 SUP, 1 VGD, 2 VH, 3 OT. -/
def State.winFilter (s : State) (cls : Nat) : Nat × Nat :=
  let v := match s.filtBefore with | some (v, _) => v | none => s.rd MON_FILT
  let b := v.toNat / 2 ^ (8 * cls) % 256
  (b % 8, b / 16 % 8)
/-- A window with the history that a sample of this instant finds. -/
def State.windowNow (s : State) (k : Nat) : Window :=
  match s.filtBefore with
  | some (_, ws) => { s.window k with hist := (tabGet (fun _ => {}) ws k).hist }
  | none => s.window k

/-- One window sample on one side: the history after it and whether the side changes (R231). `beyond` says the
sample lies beyond the threshold, `back` that it lies back at the release level; m of the last n samples decide, whichever
side the value was on when they were taken. -/
def windowStep (mn : Nat × Nat) (w : Window) (beyond back : Bool) : Window × Bool :=
  let h := ((beyond, back) :: w.hist).take 7
  let turn := mOfN mn.1 mn.2 (h.map (fun x => if w.outside then x.2 else x.1))
  ({ w with hist := h, outside := w.outside != turn }, turn)

/-- The sides of a monitor: window key, filter class, and for a value whether it is beyond and back. -/
def State.monSides (s : State) (m : Monitor) (v : Int) : List (Nat × Nat × Bool × Bool) :=
  match m with
  | .supply x =>
    let lo : Int := if x.val = 4 then (s.get BLY_CFG_THR : Int) * 100 else if x.val = 5 then s.geti (MON_THR_LO 5) else (s.get (MON_THR_LO x.val) : Int)
    let hi : Int := if x.val = 5 then s.geti (MON_THR_HI 5) else (s.get (MON_THR_HI x.val) : Int)
    let cls := if x.val = 5 then 3 else 0
    let backLo := if x.val = 5 then decide (lo + 5 ≤ v) else decide (lo * 101 ≤ v * 100)
    let backHi := if x.val = 5 then decide (v ≤ hi - 5) else decide (v * 100 ≤ hi * 99)
    [(winLo x.val, cls, decide (v < lo), backLo), (winHi x.val, cls, decide (hi < v), backHi)]
  | .vgd g =>
    let f := mvFalling (s.get (GD_CFG_VGDUV g.val))
    [(winVgd g.val, 1, decide (v < f), decide (f + 500 ≤ v))]
  | .vh c =>
    let f := mvFalling (s.get (GD_CFG_VHUV (c.val / 8)))
    [(winVh c.val, 2, decide (v < f), decide (f + 500 ≤ v))]
  | .die g =>
    let t : Int := s.get (GD_CFG_OTTHR g.val)
    [(winOt g.val, 3, decide (t < v), decide (v ≤ t - 20))]

/-- The key of a monitor's first side. -/
def monKey : Monitor → Nat
  | .supply x => winLo x.val
  | .vgd g => winVgd g.val
  | .vh c => winVh c.val
  | .die g => winOt g.val
/-- The next window sample of a monitor falls at a whole microsecond of cell time, and it samples once at each (R223). -/
def State.toWindow (s : State) (m : Monitor) : State :=
  let u := (s.now + 999) / 1000 * 1000
  { s with now := if (s.window (monKey m)).at_ = some u then u + 1000 else u }

/-- The sides that change with this sample. -/
def State.monChanges (s : State) (m : Monitor) (v : Int) : List (Nat × Bool) :=
  (s.monSides m v).filterMap (fun x =>
    let w := s.windowNow x.1
    if (windowStep (s.winFilter x.2.1) w x.2.2.1 x.2.2.2).2 then some (x.1, !w.outside) else none)

/-- The bit of monitor `x` in a field of MON_ST; `only` keeps one that is set. -/
def State.monBit (s : State) (f : Fld) (x : Nat) (b only : Bool) : State :=
  let old := s.get f
  let one := old / 2 ^ x % 2 == 1
  if b && !one then s.put f (old + 2 ^ x) else if !b && one && !only then s.put f (old - 2 ^ x) else s

/-- The sample enters the histories, and the bits that show the value now follow it (R220, R221, R233): a gate supply is
below its rising threshold while a sample reads so or its monitor is outside. -/
def State.monTake (s : State) (m : Monitor) (v : Int) : State :=
  let cleared := s.filtBefore.isSome
  let sides := s.monSides m v
  let s := s.each sides (fun x t =>
    let w := (windowStep (t.winFilter x.2.1) (t.windowNow x.1) x.2.2.1 x.2.2.2).1
    t.setWindow x.1 { w with hist := if cleared then [] else w.hist, at_ := some t.now })
  match m with
  | .supply x =>
    let low := (sides.head?.map (·.2.2.1)).getD false
    let high := (sides.getLast?.map (·.2.2.1)).getD false
    (((s.monBit MON_ST_LOW x.val low false).monBit MON_ST_HIGH x.val high false).monBit MON_ST_LOWSEEN x.val low true).monBit
      MON_ST_HIGHSEEN x.val high true
  | .vh c =>
    (s.flag (GD_CHSTAT_VHOK (c.val / 8) (c.val % 8)) (decide (mvFalling (s.get (GD_CFG_VHUV (c.val / 8))) + 500 ≤ v))).syncActive c.val
  | .vgd g =>
    (s.flag (GD_STAT_VGDUVACTIVE g.val) (decide (v < mvFalling (s.get (GD_CFG_VGDUV g.val)) + 500) || s.vgdLow g.val)).each
      ((List.range 8).map (8 * g.val + ·)) (fun c t => t.syncActive c)
  | .die g =>
    (if (s.window (winOt g.val)).outside then s else s.put (GD_STAT_OTACTIVE g.val) 0).each
      ((List.range 8).map (8 * g.val + ·)) (fun c t => t.syncActive c)

/-- The monitor is outside its window after this sample. -/
def State.monOutside (s : State) (m : Monitor) (v : Int) : Bool :=
  (s.monSides m v).any (fun x => (windowStep (s.winFilter x.2.1) (s.windowNow x.1) x.2.2.1 x.2.2.2).1.outside)

/-- The sample finds a gate supply or die outside its window and an armed channel that has not latched it: the onset,
or a channel armed onto the fault (R208, R218). -/
def State.tripDue (s : State) (m : Monitor) (v : Int) : Bool :=
  s.monOutside m v && (match m with
  | .supply _ => false
  | .vh c => s.vhArmedNow c.val && !s.bit (GD_CHSTAT_VHUV (c.val / 8) (c.val % 8))
  | .vgd g => (List.range 8).any (fun k => s.armedNow (8 * g.val + k) && !s.bit (GD_CHSTAT_VGDUV g.val k))
  | .die g => (List.range 8).any (fun k => s.armedNow (8 * g.val + k) && !s.bit (GD_CHSTAT_OT g.val k)))

/-- A change of window that has no command of its own: the LO side of index 4 leaves while the sag comparator is not
armed (R233, R397), and a gate supply whose comparator is not armed (R203). -/
def State.quiet (s : State) (m : Monitor) (x : Nat × Bool) : Bool :=
  x.2 && (match m with
  | .supply _ => x.1 == winLo 4 && !s.bly.armed
  | .vh c => !s.vhArmedNow c.val
  | _ => false)

/-- WINDOW_SAMPLE (R223): a window sample with no change of window that a command of its own reports, and no trip. -/
def windowSample (m : Monitor) (v : Int) (s : State) : State :=
  let t := s.toWindow m
  if (t.monChanges m v).filter (fun x => !t.quiet m x) = [] ∧ !t.tripDue m v then t.monTake m v else s

/-- WINDOW_EXCURSION (R230): an indexed monitor leaves its window and raises its source, with the index and the side.
The LO side of index 4 is the sag comparator, which has its own command. -/
def windowExcursion (x : Fin 6) (v : Int) (s : State) : State :=
  let t := s.toWindow (.supply x)
  match (t.monChanges (.supply x) v).filter (·.2) with
  | [] => s
  | (k, _) :: _ =>
    if k = winLo 4 then s else
    let s := t.monTake (.supply x) v
    let high := decide (10 ≤ k)
    let src := if x.val = 5 then (if high then 6 else 7) else 1 + x.val
    s.raise src (if high then 2 else 1) (x.val * 256 + (if high then 1 else 0)) (if x.val = 5 then 5 else x.val) s.now

/-- WINDOW_RETURN (R231): a monitor returns inside at its release level; an ended cause clears TRIP_ACTIVE. -/
def windowReturn (m : Monitor) (v : Int) (s : State) : State :=
  let t := s.toWindow m
  if ((t.monChanges m v).filter (fun x => !x.2)) = [] then s else t.monTake m v

/-- VH_UNDERVOLTAGE_TRIP (R203, R210): the window filter decides, or, with `blocked`, a high-side turn-on asked for at the
end of a dead time finds VHc below the rising threshold and is not made. Only an armed comparator acts. -/
def vhUndervoltage (c : Fin 32) (v : Int) (blocked : Bool) (s : State) : State :=
  if blocked then
    (if s.vhArmed c.val ∧ (s.chan c.val).incoming = some true ∧ v < mvFalling (s.get (GD_CFG_VHUV (c.val / 8))) + 500 then
      let s := { s with now := max s.now ((s.chan c.val).deadAt / 2) }
      (s.put (GD_CHSTAT_VHOK (c.val / 8) (c.val % 8)) 0).vhTrip c.val
    else s)
  else
    let t := s.toWindow (.vh c)
    if !t.vhArmedNow c.val ∨ (((t.monChanges (.vh c) v).filter (·.2)) = [] ∧ !t.tripDue (.vh c) v) then s
    else (t.monTake (.vh c) v).vhTrip c.val

/-- VGD_UNDERVOLTAGE_TRIP (R208, R210): the source is raised at every occurrence, the latch set on armed channels; a
channel armed while the condition persists latches with no further message (R218, R367). -/
def vgdUndervoltage (g : Fin 4) (v : Int) (s : State) : State :=
  let t := s.toWindow (.vgd g)
  if ((t.monChanges (.vgd g) v).filter (·.2)) = [] then
    (if t.tripDue (.vgd g) v then (t.monTake (.vgd g) v).latchGroup g.val 0x20 else s)
  else ((t.monTake (.vgd g) v).dropBrake g.val).groupTrip g.val 0x20 0

/-- OVER_TEMPERATURE_TRIP (R208, R210), in the same way. -/
def overTemperature (g : Fin 4) (v : Int) (s : State) : State :=
  let t := s.toWindow (.die g)
  if ((t.monChanges (.die g) v).filter (·.2)) = [] then
    (if t.tripDue (.die g) v then (t.monTake (.die g) v).latchGroup g.val 0x40 else s)
  else ((t.monTake (.die g) v).put (GD_STAT_OTACTIVE g.val) 1).groupTrip g.val 0x40 1

/-! ### Configuration writes -/

/-- CMP_SCF_WRITE (R228): taken whole when 1 ≤ M ≤ N; a sample of the same instant is judged with the old MON (R235). -/
def cmpScfWrite (c : Nat) (v : Word) (s : State) : State :=
  let m := fieldOf v (CMP_SCF_M c)
  let n := fieldOf v (CMP_SCF_N c)
  if 1 ≤ m ∧ m ≤ n then
    (s.modChan c (fun x => { x with scfOld := some (s.now, s.rd (CMP_SCF c)) })).wr (CMP_SCF c) (v &&& 0x177FF#32)
  else s.put (CMP_SST_REFUSED c) 1

/-- Every byte has 1 ≤ M ≤ N (R231). -/
def filtOk (v : Word) : Bool :=
  (List.range 4).all (fun k => let b := v.toNat / 2 ^ (8 * k) % 256; decide (1 ≤ b % 8 ∧ b % 8 ≤ b / 16 % 8))

/-- MON_FILT_WRITE (R231): taken whole; every window history clears, after the sample of the same instant (R235). -/
def monFiltWrite (v : Word) (s : State) : State :=
  if filtOk v then
    { s.wr MON_FILT (v &&& 0x77777777#32) with filtOld := some (s.now, s.rd MON_FILT, s.windows), windows := s.windows.map (fun x => (x.1, { x.2 with hist := [] })) }
  else s.put MON_ST_REFUSED 1

/-- MON_THR_WRITE (R232): refused when LO ≥ HI; LO of index 4 is read-only and reports the sag threshold. -/
def monThrWrite (x : Nat) (v : Word) (s : State) : State :=
  let hi := v.toNat / 65536
  let lo := if x = 4 then s.get BLY_CFG_THR * 100 else v.toNat % 65536
  let ok := if x = 5 then decide (signedOf 16 lo < signedOf 16 hi) else decide (lo < hi)
  if ok then s.wr (MON_THR x) (BitVec.ofNat 32 (hi * 65536 + lo)) else s.put MON_ST_REFUSED 1

/-! ### Their meanings as commands -/

def execShortCircuitTrip (c : Fin 32) (iH iL : Int) (s : State) : Out := live s (shortCircuitTrip c.val iH iL)
def execVhUndervoltageTrip (c : Fin 32) (v : Int) (blocked : Bool) (s : State) : Out := live s (vhUndervoltage c v blocked)
def execVgdUndervoltageTrip (g : Fin 4) (v : Int) (s : State) : Out := live s (vgdUndervoltage g v)
def execOverTemperatureTrip (g : Fin 4) (v : Int) (s : State) : Out := live s (overTemperature g v)
def execMonitoredDecision (c : Fin 32) (iH iL : Int) (s : State) : Out := live s (monitoredDecision c.val iH iL)
def execComparatorSample (c : Fin 32) (iH iL : Int) (s : State) : Out := live s (comparatorSample c.val iH iL)
def execWindowSample (m : Monitor) (v : Int) (s : State) : Out := live s (windowSample m v)
def execWindowExcursion (x : Fin 6) (v : Int) (s : State) : Out := live s (windowExcursion x v)
def execWindowReturn (m : Monitor) (v : Int) (s : State) : Out := live s (windowReturn m v)
def execCmpScfWrite (c : Fin 32) (v : Word) (s : State) : Out := live s (cmpScfWrite c.val v)
def execMonFiltWrite (v : Word) (s : State) : Out := live s (monFiltWrite v)
def execMonThrWrite (x : Fin 6) (v : Word) (s : State) : Out := live s (monThrWrite x.val v)

end Sys2Proof.Machine
end

