-- ==== Sys2Proof/Machine/Pwm.lean ====
section
/-! DEFINITION. Centre-aligned PWM (08_pwm.md, R180 to R200): the group counters, what a valley and a peak do to each
channel (compare update, dead time, minimum pulse, carry, refresh), commutation and the group configuration. -/
namespace Sys2Proof.Machine

/-- PER for a cell tick of P ns and divisor K: rounded down, at most 65,535 (R22, R196). -/
def perOf (P K : Nat) : Nat := min (P / (8 * K)) 65535
/-- CFGERR (R194): PER is not whole, or the carrier lies outside 8 kHz to 200 kHz, or tREFRESH + 2 t_D is not below the
carrier period. -/
def cfgErr (P K dt trefresh : Nat) : Bool :=
  decide (P % (8 * K) ≠ 0 ∨ P < 5000 * K ∨ 125000 * K < P ∨ P ≤ (trefresh * 4 + 2 * (dt * 4)) * K)

/-- PER and CFGERR of a group follow P, K, DT and TREFRESH (R195, R196). -/
def State.recomputePer (s : State) (g : Nat) : State :=
  let K := s.get (PWMG_CFG_K g)
  let P := s.period
  (s.wr (PWMG_PER g) (BitVec.ofNat 32 (perOf P K))).flag (PWMG_CFG_CFGERR g)
    (cfgErr P K (s.get (PWMG_CFG_DT g)) (s.get (PWMG_REFR_TREFRESH g)))

/-- The sum of phase offsets O_g, in 500 ps units (R181). -/
def State.groupOffset (s : State) : Nat → Nat
  | 0 => 0
  | g + 1 => (s.groupOffset g + s.get (PWMG_PHOFS_PHOFS (g + 1))) % (2 * s.period)

/-- The channels of a group. -/
def groupChans (g : Nat) : List Nat := (List.range 8).map (8 * g + ·)

/-- The slot of channel `c` runs in double update (R186): its local channels only. -/
def State.doubleUpd (s : State) (c : Nat) : Bool :=
  match s.ownerOf c with
  | some n => (s.localChans n).contains c && s.double n
  | none => false

/-! ### The pulses of a period (R184 to R190)

Times and lengths in steps of 500 ps, in which a compare value is half the requested on-time and a count is 8. -/

/-- The lengths that the pulses of a channel's period are made of: half a period, the longest requested on-time that is
dropped (tMINP + t_D: the effective on-time is t_D shorter), t_D, tMINP, tREFRESH and MPM. -/
structure PulseEnv where
  half : Nat
  lim : Nat
  td : Nat
  tmin : Nat
  tref : Nat
  mpm : Nat
deriving DecidableEq, Repr

def State.pulseEnv (s : State) (c : Nat) : PulseEnv :=
  let g := c / 8
  let td := 8 * s.get (PWMG_CFG_DT g)
  let tmin := 8 * s.get (PWMG_CFG_TMINP g)
  ⟨8 * s.get (PWMG_PER_PER g), tmin + td, td, tmin, 8 * s.get (PWMG_REFR_TREFRESH g), s.get (PWMG_CFG_MPM g)⟩

/-- What R188 makes of one pulse: what is left of its requested on-time, what is carried, and whether it is dropped or
stretched. -/
structure PulseRule where
  len : Int
  carry : Int := 0
  dropped : Bool := false
  stretched : Bool := false
deriving DecidableEq, Repr

/-- The minimum-pulse rule of R188 for a pulse of requested on-time `len`, of which a drop carries `owed`. A request of
nothing is no pulse, and what is owed is carried on all the same. -/
def pulseRule (e : PulseEnv) (len owed : Int) : PulseRule :=
  let carry := if e.mpm = 1 then owed else 0
  if len ≤ 0 then ⟨0, carry, false, false⟩
  else if (e.lim : Int) < len then ⟨len, 0, false, false⟩
  else if e.mpm = 2 then ⟨e.lim, 0, false, true⟩
  else ⟨0, carry, true, false⟩

/-- Count a pulse that was dropped or stretched (R188, R197). -/
def State.countPulse (s : State) (c : Nat) (dropped stretched : Bool) : State :=
  let s := if dropped then (s.put (PWM_STAT_DROPPED c) 1).inc (PWM_DROPCNT_V c) else s
  if stretched then (s.put (PWM_STAT_STRETCHED c) 1).inc (PWM_STRCNT_V c) else s

/-- The low-side pulse that begins at the falling edge of the period and straddles its closing valley at `close`, of
requested on-time `len`: it is issued, dropped so that the high side stays on, or stretched about its centre (R188). A
correction of up to 16 counts may still change one at a tick valley, which is then settled there (R183, R200): `lowLen`
keeps its length. -/
def State.lowPulse (s : State) (c : Nat) (e : PulseEnv) (close fall : Nat) (len : Int) (tick : Bool) : State :=
  let near := tick && decide (len ≤ e.lim + 128)
  let r := pulseRule e len (-len)
  if near && decide (e.lim < len + 128) then
    -- the correction decides: the falling edge waits for the valley
    s.modChan c (fun x => { x with skip := true, lowLen := some (len.toNat, false) })
  else if r.len = 0 then
    ((s.countPulse c r.dropped false).puti (PWM_CARRY_V c) r.carry).modChan c (fun x =>
      { x with skip := true, lowLen := if near then some (len.toNat, true) else none })
  else
    let fall := if r.stretched then close - e.lim / 2 else fall
    (s.countPulse c false r.stretched).modChan c (fun x =>
      { x with skip := false, edges := x.edges ++ [(fall, false)], lead := if r.stretched then ((e.lim : Int) - len).toNat / 2 else (-x.extra).toNat / 2 })

/-- The valley at `V` settles a low-side pulse whose length its correction changes by `corr` (R183, R200): a dropped one
carries its corrected length; one close to the minimum is dropped, stretched or issued by it. -/
def State.settleLow (s : State) (c : Nat) (e : PulseEnv) (V : Nat) (corr : Int) : State :=
  match (s.chan c).lowLen with
  | none => s
  | some (len, true) =>
    (if e.mpm = 1 ∧ 0 < len then s.puti (PWM_CARRY_V c) (s.geti (PWM_CARRY_V c) + corr) else s).modChan c
      (fun x => { x with lowLen := none })
  | some (len, false) =>
    let r := pulseRule e (len - corr) (corr - len)
    if r.len = 0 then
      ((s.countPulse c r.dropped false).puti (PWM_CARRY_V c) r.carry).modChan c (fun x => { x with lowLen := none })
    else (s.countPulse c false r.stretched).modChan c (fun x =>
      { x with lowLen := none, skip := false, edges := x.edges ++ [(V - r.len.toNat / 2, false)]
               lead := if r.stretched then ((e.lim : Int) - len + corr).toNat / 2 else (-x.extra).toNat / 2 })

/-- A period of SWITCH with active value `cmp` from the valley at `V`: its high-side pulse with the carry of R188, and in
single update the low-side pulse that follows it. `from`: the high side stays on through the valley; `first`: the first
period of a bootstrap channel that must keep its low side on for tREFRESH (R193). -/
def State.switchPulses (s : State) (c : Nat) (e : PulseEnv) (V cmp : Nat) (stay first double tick : Bool) : State :=
  let x := s.chan c
  let carry := s.geti (PWM_CARRY_V c)
  let owedHigh := max carry 0
  let owedLow := max (-carry) 0
  let want : Int := 2 * cmp + owedHigh
  let s := (s.puti (PWM_CARRY_V c) 0).modChan c (fun y => { y with extra := carry, lead := 0, pulse := none, skip := false })
  let fall0 : Int := e.half + (want - owedLow) / 2
  if 2 * (e.half : Int) ≤ want then
    -- the carried pulse fills the period; the rest is carried on
    (s.puti (PWM_CARRY_V c) (want - 2 * e.half)).modChan c (fun y =>
      { y with edges := if stay then y.edges else y.edges ++ [(V, true)], pulse := some V, skip := true })
  else
    let rise0 : Int := if first then max (e.half - want / 2) e.tref else e.half - want / 2 + x.lead
    let r := pulseRule e (fall0 - rise0) (if first then max 0 (fall0 - rise0) else want - x.lead - owedLow)
    if !stay && decide (r.len = 0) then
      -- no high-side pulse: the low side stays on through the period
      (s.countPulse c r.dropped false).puti (PWM_CARRY_V c) r.carry
    else
      let rise := if stay then 0 else if r.stretched then (max 0 ((rise0 + fall0) / 2 - e.lim / 2)).toNat else rise0.toNat
      let fall := if !stay && r.stretched then rise + e.lim else (max 0 fall0).toNat
      let s := (s.countPulse c false (!stay && r.stretched)).modChan c (fun y =>
        { y with edges := if stay then y.edges else y.edges ++ [(V + rise, true)], pulse := some (V + if stay then 0 else rise + e.td) })
      if double then s.modChan c (fun y => { y with edges := y.edges ++ [(V + fall, false)] })
      else s.lowPulse c e (V + 2 * e.half) (V + fall) (2 * (e.half : Int) - want + owedLow) tick

/-- The modulator's request SWITCH at a valley: the next value becomes active (R184 to R193). -/
def State.switchPeriod (s : State) (c : Nat) (corr : Int) : State :=
  let g := c / 8
  let x := s.chan c
  let e := s.pulseEnv c
  let V := (s.group g).valley
  let mode := s.get (PWM_STAT_MODE c)
  let cmp := s.get (PWM_CMPN_CMPN c)
  let fresh := mode = mOff
  let first := decide fresh && s.bit (PWMG_STAT_BOOT g) && decide (e.half < cmp + e.tref)
  let tick := (s.group g).idx + 1 == s.get (PWMG_CFG_K g)
  let s := (s.put (PWM_CMP_CMP c) cmp).settleLow c e V corr
  -- an enabled channel begins with its low side on (R193)
  let s := if fresh then s.gateOn c false else s
  -- after an inserted refresh pulse the high side comes on again (R191)
  let s := if x.refresh then s.modChan c (fun y => { y with edges := y.edges ++ [(V + e.tref / 2, true)] }) else s
  let stay := (s.chan c).skip && decide (mode = mSwitch ∨ mode = mHighon)
  if e.half ≤ cmp then
    -- the high side on through the whole period; the carry is discarded (R185, R190)
    ((s.put (PWM_STAT_MODE c) mHighon).wr (PWM_CARRY c) 0).modChan c (fun y =>
      { y with edges := if stay then y.edges else y.edges ++ [(if first then V + e.tref else V, true)]
               pulse := some V, extra := 0, lead := 0, skip := true, refresh := false })
  else
    let s := s.put (PWM_STAT_MODE c) mSwitch
    if cmp = 0 then
      (s.wr (PWM_CARRY c) 0).modChan c (fun y =>
        { y with edges := if stay then y.edges ++ [(V, false)] else y.edges
                 pulse := none, extra := 0, lead := 0, skip := false, refresh := false })
    else
      let double := s.doubleUpd c
      -- out of HIGHON the low side comes on at the valley, unless that half pulse is dropped too
      let out := stay && decide (mode = mHighon)
      let short : Int := 2 * ((e.half : Int) - cmp)
      let r := pulseRule e short (-(short / 2))
      let s := if !out then s
        else if r.len = 0 then (s.countPulse c r.dropped false).puti (PWM_CARRY_V c) r.carry
        else s.modChan c (fun y => { y with edges := y.edges ++ [(V, false)] })
      (s.switchPulses c e V cmp (stay && !(out && r.len != 0)) first double tick).modChan c (fun y => { y with refresh := false })

/-- The start of a carrier period of channel `c` at a valley that a correction of `corr` has shortened: the mode that the
modulator asked for is taken (R193), and the fields of the channel change together (R197). -/
def State.startPeriod (s : State) (c : Nat) (corr : Int) : State :=
  let g := c / 8
  let x := s.chan c
  let mode := s.get (PWM_STAT_MODE c)
  if mode = mKilled ∨ s.bit (GD_CHSTAT_OOS g (c % 8)) ∨ s.chanUsed c = false then s
  else
    let s := ((s.flag (PWM_STAT_REFRESHED c) x.refresh).put (PWM_STAT_STRETCHED c) 0).put (PWM_STAT_DROPPED c) 0
    let s := if x.refresh then s.inc (PWM_REFRESH_INSERTED_V c) else s
    let s := s.flag (PWM_STAT_UPD c) (s.doubleUpd c)
    -- the periods in which the low side has not conducted (R191)
    let s := s.modChan c (fun y => { y with noLow := if y.lowSeen || y.l.on then 0 else y.noLow + 1, lowSeen := y.l.on })
    if x.want = 0 then (if mode = mOff then s else s.force c mOff false)
    else if x.want = 2 then (s.force c mLowon true).modChan c (fun y => { y with noLow := 0 })
    else s.switchPeriod c corr

/-- At a peak in double update the next value becomes active and moves only the falling edge of the high-side pulse in
flight, which stays at least tMINP after the gate turned on; the low-side pulse that begins there is then tested (R186,
R189). -/
def State.peakUpdate (s : State) (c : Nat) : State :=
  let g := c / 8
  let x := s.chan c
  let mode := s.get (PWM_STAT_MODE c)
  if s.doubleUpd c ∧ (mode = mSwitch ∨ mode = mHighon) ∧ x.want = 1 then
    let cmp := s.get (PWM_CMPN_CMPN c)
    let e := s.pulseEnv c
    let V := (s.group g).valley
    let tick := (s.group g).idx + 1 == s.get (PWMG_CFG_K g)
    let s := (s.put (PWM_CMP_CMP c) cmp).modChan c (fun y => { y with edges := y.edges.filter (fun k => k.2), skip := false, lead := 0 })
    if e.half ≤ cmp then
      ((s.put (PWM_STAT_MODE c) mHighon).wr (PWM_CARRY c) 0).modChan c (fun y =>
        { y with edges := if x.pulse.isSome then y.edges else y.edges ++ [(V + e.half, true)]
                 pulse := some (x.pulse.getD (V + e.half)), extra := 0, skip := true })
    else
      let s := s.put (PWM_STAT_MODE c) mSwitch
      let s := if cmp = 0 then s.wr (PWM_CARRY c) 0 else s
      match x.pulse with
      | none => s
      | some on =>
        let extra : Int := if cmp = 0 then 0 else x.extra
        let fall := max ((V + e.half : Nat) + (2 * (cmp : Int) + extra) / 2).toNat (on + e.tmin)
        s.lowPulse c e (V + 2 * e.half) fall (2 * (e.half : Int) - 2 * cmp - extra) tick
  else s

/-- The hold-rate divisor j in force (R82): the largest value not above HOLDDIV that keeps 2 kHz or more. -/
def State.holdDiv (s : State) (n : Nat) : Nat :=
  let hd := max (s.get (AX_CC_CFG_HOLDDIV n)) 1
  max 1 (min hd (s.instantsPerTick n * 1000000000 / (s.period * 2000)))
/-- m of R89: loop rate / 50 kHz, rounded up. -/
def State.estDiv (s : State) (n : Nat) : Nat := (s.instantsPerTick n * 1000000000 + s.period * 50000 - 1) / (s.period * 50000)

/-- A scheduled instant of engine `e` begins: it waits for its ENGINE_PASS_START (R121). -/
def State.schedule (s : State) (e : Nat) : State :=
  if s.run e = 2 ∨ s.run e = 3 then
    s.modEngine e (fun x => { x with due := some s.now }) else s

/-- A vector that missed the update point just passed becomes the next value (R169). -/
def State.takeLate (s : State) (n : Nat) : State :=
  match (s.cc n).late with
  | none => s
  | some l => (s.each l (fun x t => (if x.2.1 = 1 then t.put (PWM_CMPN_CMPN x.1) x.2.2 else t).modChan x.1 (fun y => { y with want := x.2.1 }))).modCc n
      (fun c => { c with late := none })

/-- A multiple of `p` plus `o` that lies nearest to `t`. -/
def nearest (t o p : Int) : Int := o + (t - o + p / 2) / p * p

/-- The natural instant of the valley that comes next, in steps of 500 ps: a carrier period after the last (R180). -/
def State.naturalValley (s : State) (g : Nat) : Nat := (s.group g).valley + 16 * s.get (PWMG_PER_PER g)

/-- The counts by which a tick valley at its natural instant plus `dev` counts differs from its sync instant T_N + O_g
(R181, R183). -/
def State.syncDiff (s : State) (g : Nat) (dev : Int) : Int :=
  let t : Int := s.naturalValley g + 8 * dev
  (t - nearest t (s.groupOffset g) (2 * max s.period 1)) / 8

/-- What the next valley of group `g` does to its counter: the new record, and by how many steps of 500 ps the half-cycle
that ends there is shortened. -/
def State.nextValley (s : State) (g : Nat) (dev : Int) : PwmGroup × Int :=
  let x := s.group g
  if x.idx + 1 < s.get (PWMG_CFG_K g) then ({ x with idx := x.idx + 1, down := false, valley := s.naturalValley g }, 0)
  else
    let d := s.syncDiff g dev
    let corr := 8 * max (-16) (min 16 d)
    ({ x with idx := 0, down := false, lost := decide (16 < d.natAbs)
              valley := ((s.naturalValley g : Int) + 8 * dev - corr).toNat }, corr)

/-- The report of a tick valley that differs by `d` counts (R183). SYNCDEV is a free value where `d` does not fit it. The
source is raised when the difference is first found above 16 counts. -/
def State.syncReport (s : State) (g : Nat) (d : Int) (was : Bool) : State :=
  let fits := decide (-32768 ≤ d ∧ d ≤ 32767)
  let v := if fits then unsignedOf 16 d else bitsOf (Config.freeWord s.drawn).toNat 15 0
  let s := (if fits then s else s.draw).put (PWMG_STAT_SYNCDEV g) v
  if 16 < d.natAbs then
    let s := s.put (PWMG_STAT_SYNCLOST g) 1
    if was then s else s.raise (0x40 + 4 * g + 2) 0 v (0x80 + g) s.now
  else s

/-- A channel of a counter that stops requests both gates off (R182). One that is KILLED stays so, and a brake of the safe
state holds while its slot is TRIPPED (R213; DEDUCED, notes/assumptions/65). -/
def State.stopChan (s : State) (c : Nat) : State :=
  let tripped := match s.ownerOf c with | some n => s.slotState n == stTripped | none => false
  let mode := s.get (PWM_STAT_MODE c)
  if tripped && (mode == mKilled || mode == mLowon) then s.wr (PWM_CARRY c) 0
  else s.force c (if mode = mKilled then mKilled else mOff) false

/-- REFRESH_INSERT (R191, R200): in a bootstrap group, after REFRESH_N periods without low-side conduction, a refresh
pulse of tREFRESH is inserted, centred on the coming valley, unless that valley carries another low-side pulse: the high
side goes off, and the low side comes on when the dead time has run out. The valley itself counts it. -/
def refreshInsert (c : Nat) (s : State) : State :=
  let g := c / 8
  let x := s.chan c
  let e := s.pulseEnv c
  let t := s.naturalValley g - e.tref / 2 - e.td
  let mode := s.get (PWM_STAT_MODE c)
  if s.bit (PWMG_STAT_BOOT g) && s.bit (PWMG_STAT_RUN g) && x.h.on && x.skip && x.edges.isEmpty && x.incoming.isNone &&
      !x.refresh && (mode == mSwitch || mode == mHighon && decide (e.half ≤ s.get (PWM_CMPN_CMPN c))) && x.lowLen.isNone &&
      decide (s.get (PWMG_REFR_REFRESHN g) ≤ x.noLow) then
    let s := { s with now := max s.now (t / 2) }.gateOff c true
    let s := s.modChan c (fun y => { y with incoming := some false, deadAt := max (2 * s.now) t + e.td, refresh := true })
    if e.td = 0 then s.gateOn c false else s
  else s

/-- The incoming gate is applied: blanking and the comparator filters start (R187, R225); a high-side turn-on below
the rising threshold of an armed VH comparator is not made and trips (R203). -/
def State.turnOn (s : State) (c : Nat) (high : Bool) : State :=
  if high ∧ s.vhArmed c ∧ !s.bit (GD_CHSTAT_VHOK (c / 8) (c % 8)) then
    (s.modChan c (fun x => { x with incoming := none })).vhTrip c
  else s.gateOn c high

/-- COMMUTATION (R187, R192): at a compare edge the outgoing gate is removed and the dead time begins; when it runs
out the incoming gate is applied. A killed channel has no edge left and no turn-on to come, but in brake. -/
def commutation (c : Nat) (e : Edge) (s : State) : State :=
  let x := s.chan c
  if s.safeoff then s else
  match e with
  | .edge toHigh =>
    match x.edges with
    | (t, up) :: rest =>
      if up ≠ toHigh then s else
      let s := { s with now := max s.now (t / 2) }.modChan c (fun y => { y with edges := rest })
      if (x.gate toHigh).on then s else
      let s := s.gateOff c (!toHigh)
      let td := s.deadTd c
      let s := s.modChan c (fun y => { y with incoming := some toHigh, deadAt := max (2 * s.now) t + td })
      if td = 0 then s.turnOn c toHigh else s
    | [] => s
  | .deadEnd =>
    match x.incoming with
    | some high => { s with now := max s.now (x.deadAt / 2) }.turnOn c high
    | none => s

/-- Every field of a group configuration write holds an allowed value (R194, R196). -/
def State.pwmgValueOk (s : State) (g : Nat) (r : PwmgReg) (v : Word) : Bool :=
  match r with
  | .cfg => decide (1 ≤ fieldOf v (PWMG_CFG_K g) ∧ fieldOf v (PWMG_CFG_K g) ≤ 64 ∧ fieldOf v (PWMG_CFG_MPM g) ≤ 2)
  | .phofs => decide (fieldOf v (PWMG_PHOFS_PHOFS g) < 2 * s.period)
  | .refr => decide (10 ≤ fieldOf v (PWMG_REFR_TREFRESH g) ∧ fieldOf v (PWMG_REFR_TREFRESH g) ≤ 1000 ∧ fieldOf v (PWMG_REFR_REFRESHN g) ≠ 0)

/-- PWMG_CONFIG_WRITE (R195): taken whole only when no slot that uses the group is energised and every field holds an
allowed value; PHOFS of GD0 is read-only zero. -/
def pwmgConfigWrite (g : Nat) (r : PwmgReg) (v : Word) (s : State) : State :=
  if s.groupUsed g || !s.pwmgValueOk g r v then s.put (PWMG_STAT_REFUSED g) 1
  else match r with
    | .cfg => (s.wr (PWMG_CFG g) ((s.rd (PWMG_CFG g) &&& 0x80000000#32) ||| (v &&& 0x3FFFF7F#32))).recomputePer g
    | .phofs => if g = 0 then s else s.wr (PWMG_PHOFS g) (v &&& 0x1FFFFF#32)
    | .refr => (s.wr (PWMG_REFR g) (v &&& 0x3FFFF#32)).recomputePer g

/-! ### Their meanings as commands -/

def execRefreshInsert (c : Fin 32) (s : State) : Out := live s (refreshInsert c.val)
def execCommutation (c : Fin 32) (e : Edge) (s : State) : Out := live s (commutation c.val e)
def execPwmgConfigWrite (g : Fin 4) (r : PwmgReg) (v : Word) (s : State) : Out := live s (pwmgConfigWrite g.val r v)

end Sys2Proof.Machine
end

