-- ==== Sys2Proof/Machine/Faults.lean ====
section
/-! DEFINITION. The fault collector's commands (17_faults.md, R355 to R375): a hardware message with no command of its
own, recording, notification, and the writes of severities and subscriptions. -/
namespace Sys2Proof.Machine

/-- The KIND of a message of source `src` (R358): of a hardware source by its detail, 5 to 8 for an ECC error by its memory,
1 or 2 for a window source by its side, 3 or 4 for a host lost, else 0; of a source that routes raise, as `kind` says. -/
def kindOf (src kind detail : Nat) : Nat :=
  if 1 ≤ src ∧ src ≤ 7 ∨ (0x40 ≤ src ∧ src < 0x50 ∧ src % 4 = 3) then 1 + detail % 2
  else if src = 8 ∨ src = 9 then 8
  else if 0x10 ≤ src ∧ src < 0x18 then (if kind = 4 then 4 else 3)
  else if 0x200 ≤ src ∧ src < 0x2A0 ∧ src % 8 < 2 then 5 + detail / 2 ^ 14 % 4
  else if (0x100 ≤ src ∧ src < 0x200 ∧ 3 ≤ src % 16 ∧ src % 16 ≤ 8) ∨ (0x200 ≤ src ∧ src < 0x2A0 ∧ src % 8 = 4) then kind
  else 0

/-- FAULT_RAISE (R360): a hardware source raises a message; a correctable error of an engine also counts in KEn_ECC
(R119, R125). For such an error `addr` is the byte offset of the word in its memory, from which its detail and KEn_ECCADR
follow, and the message has the engine's address (R356, R357). An unused source ID raises nothing. -/
def faultRaise (src kind detail addr : Nat) (s : State) : State :=
  if src < 1024 ∧ (defaultSev src).isSome then
    if 0x200 ≤ src ∧ src < 0x2A0 ∧ src % 8 = 0 then
      let e := (src - 0x200) / 8
      let mem := detail / 2 ^ 14 % 4
      let s := ((s.incSat (KE_ECC_CECNT e)).put (KE_ECC_MEM e) mem).wr (KE_ECCADR e) (BitVec.ofNat 32 (addr % 2 ^ 24))
      s.raise src (kindOf src kind detail) (mem * 2 ^ 14 + addr / 4 % 2 ^ 14) (s.addrEngine e) s.now
    else s.raise src (kindOf src kind detail) detail (addr % 2 ^ 24) s.now
  else s

/-- Message `a` is recorded before `b` (R364): TIME, then SOURCE, then KIND. -/
def Msg.before (a b : Msg) : Bool :=
  decide (a.time < b.time ∨ (a.time = b.time ∧ a.w0.toNat / 65536 < b.w0.toNat / 65536))

/-- The first message of a buffer in the order of R364, and the others. -/
def firstMsg : List Msg → Option (Msg × List Msg)
  | [] => none
  | m :: rest =>
    match firstMsg rest with
    | none => some (m, [])
    | some (b, others) => if b.before m then some (b, m :: others) else some (m, b :: others)

/-- FAULT_RECORD (R365): one buffered message is recorded and offered to the summit log, one in a fabric cycle. -/
def faultRecord (s : State) : State :=
  match firstMsg s.coll.buffer with
  | none => s
  | some (m, rest) =>
    let at_ := match s.coll.recAt with | some c => max s.now ((c + 1) * 5) | none => s.now
    let s := { s with
      now := at_
      coll := { s.coll with buffer := rest, recAt := some (at_ / 5), recent := (s.coll.recent ++ [m]).drop ((s.coll.recent.length + 1) - 16) }
      log := { s.log with fromCollector := s.log.fromCollector ++ [LogRec.mk m.w0 m.w1 m.time] } }
    (((s.wr (FLT_LAST 0) m.w0).wr (FLT_LAST 1) m.w1).wr (FLT_LAST 2) (BitVec.ofNat 32 m.time)).wr (FLT_LAST 3)
      (BitVec.ofNat 32 (m.time / 2 ^ 32))

/-- NOTIFY (R369, R370): a frame of up to 15 messages to host `h` is formed when none waits to be sent; not while a
supervisor handover runs. -/
def notify (h : Nat) (s : State) : State :=
  let x := s.host h
  if x.notify = [] ∨ x.notifyBusy ≠ none ∨ s.get BOOT_ST_HOPHASE ≠ 0 then s else
  let ms := x.notify.take 15
  let seq := s.get (FLT_NST_NSEQ h)
  let f : OutFrame := { host := h, op := 0x10, seq := seq, words := ms.flatMap (fun m => [m.1, m.2.1] ++ words64N m.2.2) }
  let s := s.setHost h { x with notify := x.notify.drop 15, notifyBusy := some f }
  (s.inc (FLT_NST_NSEQ h)).put (FLT_NST_NLVL h) (x.notify.length - 15)

/-- FLT_SEV_WRITE (R372): SEV 0 to 4; SAFEOFF_N and route traps take 3 for a value below 3; the words of slot sources
belong to the slot's anchor; a W1C 1 clears SEEN. -/
def fltSevWrite (w : Writer) (i : Nat) (v : Word) (s : State) : State :=
  if (defaultSev i).isNone then s else
  let s := s.w1c (FLT_SRC_SEEN i) v
  if 0x100 ≤ i ∧ i < 0x200 ∧ !s.owns w ((i - 0x100) / 16) then s
  else
    let sev := fieldOf v (FLT_SRC_SEV i)
    let s := s.noteSet (FLT_SRC i) 7
    if 4 < sev then s.put FLT_ST_REFUSED 1
    else if i = 0 ∨ (0x200 ≤ i ∧ i < 0x2A0 ∧ i % 8 = 2) then s.put (FLT_SRC_SEV i) (max sev 3)
    else s.put (FLT_SRC_SEV i) sev

/-- FLT_SUBSCRIBE (R374): sets or clears the writing host's bit of SUB; refused for the supervisor and for an unused
ID. -/
def fltSubscribe (w : Writer) (v : Word) (s : State) : State :=
  let i := fieldOf v FLT_SUBSCRIBE_SRC
  match w with
  | .supervisor => s.put FLT_ST_REFUSED 1
  | .host h =>
    if (defaultSev i).isNone then s.put FLT_ST_REFUSED 1
    else
      let s := s.noteSet (FLT_SRC i) 0xFF00
      let old := s.get (FLT_SRC_SUB i)
      let on := old / 2 ^ h.val % 2 == 1
      if fieldOf v FLT_SUBSCRIBE_ON = 1 then (if on then s else s.put (FLT_SRC_SUB i) (old + 2 ^ h.val))
      else (if on then s.put (FLT_SRC_SUB i) (old - 2 ^ h.val) else s)

/-! ### Their meanings as commands -/

def execFaultRaise (src : Fin 1024) (kind : Fin 64) (detail : BitVec 16) (addr : BitVec 24) (s : State) : Out :=
  live s (faultRaise src.val kind.val detail.toNat addr.toNat)
def execFaultRecord (s : State) : Out := live s faultRecord
def execFltSevWrite (w : Writer) (i : Fin 1024) (v : Word) (s : State) : Out := live s (fltSevWrite w i.val v)
def execFltSubscribe (w : Writer) (v : Word) (s : State) : Out := live s (fltSubscribe w v)

end Sys2Proof.Machine
end

