-- ==== Sys2Proof/Machine/SummitLogOps.lean ====
section
/-! DEFINITION. The summit log's commands (18_summit_log.md, R376 to R387). -/
namespace Sys2Proof.Machine

/-- The place of an offered record in the order of R377: route events by engine number, then types 2 to 4. -/
def LogRec.turn (r : LogRec) : Nat :=
  let w := r.w1.toNat
  if w % 16 = 1 then bitsOf w 28 24 else 20 + w % 16
/-- The record of the offering blocks whose turn it is, and the others: the first of the lowest place. -/
def nextOffer : List LogRec → Option (LogRec × List LogRec)
  | [] => none
  | r :: rest =>
    match nextOffer rest with
    | none => some (r, [])
    | some (b, others) => if b.turn < r.turn then some (b, r :: others) else some (r, b :: others)

/-- LOG_RECORD_WRITE (R377): up to two records in one cycle, the collector's first. -/
def logRecordWrite (s : State) : State :=
  if s.log.fromCollector = [] ∧ s.log.offers = [] then s else
  let at_ := match s.log.wrAt with | some c => max s.now ((c + 1) * 5) | none => s.now
  let s := { s with now := at_, log := { s.log with wrAt := some (at_ / 5) } }
  let s := match s.log.fromCollector with
    | r :: rest => ({ s with log := { s.log with fromCollector := rest } }).logWrite r
    | [] => s
  match nextOffer s.log.offers with
  | some (r, rest) => ({ s with log := { s.log with offers := rest } }).logWrite r
  | none => s

/-- FREEZE (R380): the command at the head of stream `k`. -/
def freezeCmd (k : Nat) (s : State) : State :=
  s.runHead k 0xB (fun _ => true) fun c s =>
    let h := k / 4
    let on := match c.words.head? with | some w => w.toNat % 2 == 1 | none => false
    let frozen := s.bit LOG_ST_FROZEN
    let owner := s.get LOG_ST_FRZHOST
    if on then
      if frozen ∧ owner ≠ h then s.answer k 4 (4 + 256 * owner) 0 []
      else
        let s := { s with log := { s.log with
          frzStart := if frozen then s.log.frzStart else s.now, frzFrom := s.now, frzTmo := s.get LOG_FRZTMO_V } }
        let s := (s.put LOG_ST_FROZEN 1).put LOG_ST_FRZHOST h
        s.answer k 0 0 0 [s.rd LOG_WSEQ, s.rd LOG_LEVEL]
    else if frozen ∧ owner = h then (s.unfreeze 0).answer k 0 0 0 []
    else s.answer k 4 5 0 []

/-- FREEZE_TIMEOUT (R380): LOG_FRZTMO has passed without a renewal. -/
def freezeTimeout (s : State) : State :=
  if s.bit LOG_ST_FROZEN then { s with now := max s.now (s.log.frzFrom + s.log.frzTmo * 1000000) }.unfreeze 1 else s

/-- The log clear key of OTP (R406), eight words. -/
def State.otpWord (s : State) (i : Nat) : Word := tabGet otpReset s.otp i
def State.clearKey (s : State) : List Word := (List.range 8).map (fun i => s.otpWord (0x80 + i))
/-- The bytes of a 64-bit number, most significant first. -/
def bytes64 (x : Nat) : List Byte := (List.range 8).map (fun i => BitVec.ofNat 8 (x / 2 ^ (8 * (7 - i))))
/-- The message that CLEAR_LOG authenticates (R382). -/
def clearMessage (nonce host op : Nat) : List Byte := bytes64 nonce ++ [BitVec.ofNat 8 host, BitVec.ofNat 8 op]
/-- Four words as a 128-bit number, the first most significant. -/
def words128 (ws : List Word) : BitVec 128 := BitVec.ofNat 128 (ws.foldl (fun a w => a * 2 ^ 32 + w.toNat) 0)

/-- The reason for refusing a CLEAR_LOG, the first that holds of 3, 1, 2, 4; 0 when accepted (R383). -/
def State.clearReason (s : State) (h : Nat) (ws : List Word) : Nat :=
  let key := s.clearKey
  let nonce := s.rd64 LOG_NONCE
  let given := match ws with | a :: b :: _ => a.toNat * 2 ^ 32 + b.toNat | _ => 0
  if key.all (· == 0) then 3
  else if given ≠ nonce then 1
  else if words128 (ws.drop 2) ≠ Config.hmacTag key (clearMessage nonce h 0xC) then 2
  else if s.bit LOG_ST_FROZEN ∧ s.get LOG_ST_FRZHOST ≠ h then 4
  else 0

/-- A new LOG_NONCE is drawn (R383). -/
def State.newLogNonce (s : State) : State := (s.wr64 LOG_NONCE (Config.nonce s.drawn).toNat).draw

/-- CLEAR_LOG (R383): the command at the head of stream `k`. Records that wait to be mirrored are discarded with the held
ones, as they are among them (DEDUCED, notes/assumptions/85). -/
def clearLogCmd (k : Nat) (s : State) : State :=
  s.runHead k 0xC (fun _ => true) fun c s =>
    let h := k / 4
    let r := s.clearReason h c.words
    if r ≠ 0 then
      let s := ((s.inc LOG_CLRFAIL_V).put LOG_ST_CLRFAILSEEN 1).logWrite ⟨BitVec.ofNat 32 r, logW1 0 h 7, s.now⟩
      s.newLogNonce.answer k 4 r 0 []
    else
      let frz := s.bit LOG_ST_FROZEN
      let summary := s.freezeSummary 3
      let s := if frz then (s.put LOG_ST_FROZEN 0).wr LOG_FRZNOW 0 else s
      let level := s.get LOG_LEVEL_LEVEL
      let s := (s.inc LOG_CLEARED_V level).put LOG_LEVEL_LEVEL 0
      let s := ({ s with log := { s.log with ring := [], tail := [], waiting := [], wrAt := some s.cycle } }).put LOG_MIRST_LAG 0
      let s := s.logWrite ⟨BitVec.ofNat 32 level, logW1 0 h 6, s.now⟩
      let s := if frz then s.logWrite summary else s
      s.newLogNonce.answer k 0 0 0 [BitVec.ofNat 32 level]

/-- LOG_MIRROR (R384): the oldest waiting record is mirrored into the tail of 512. -/
def logMirror (s : State) : State :=
  match s.log.waiting with
  | [] => s
  | r :: rest =>
    ({ s with log := { s.log with waiting := rest, tail := (s.log.tail ++ [r]).drop ((s.log.tail.length + 1) - 512) } }).put
      LOG_MIRST_LAG rest.length

/-- The log's start at a boot (R385): the ring cleared, the tail loaded oldest first, then a RESTORE record. -/
def State.logBoot (s : State) (belay : Bool) : State :=
  let tail := s.log.tail
  let s := { s with log := { tail := tail } }
  let s := s.each tail (fun r t =>
    let q := t.get LOG_WSEQ_V
    ((({ t with log := { t.log with ring := tabPut t.log.ring (q % 8192) r } }).inc LOG_WSEQ_V).inc LOG_OFFERED_V).inc LOG_LEVEL_LEVEL)
  s.logWrite ⟨BitVec.ofNat 32 (tail.length + (if belay then 65536 else 0)), logW1 0 0 8, s.now⟩

/-! ### Their meanings as commands -/

def execLogRecordWrite (s : State) : Out := live s logRecordWrite
def execFreeze (k : Fin 32) (s : State) : Out := live s (freezeCmd k.val)
def execFreezeTimeout (s : State) : Out := live s freezeTimeout
def execClearLog (k : Fin 32) (s : State) : Out := live s (clearLogCmd k.val)
def execLogMirror (s : State) : Out := live s logMirror

end Sys2Proof.Machine
end

