-- ==== Sys2Proof/Machine/ImageStore.lean ====
section
/-! DEFINITION. What flash and OTP hold (20_images.md): the header fields of an image, the checks of R408, the route
directory of the running bank, and the words that a host reads in the flash windows. -/
namespace Sys2Proof.Machine

/-! ### Targets -/

/-- The key of a target: bank (0 A, 1 B), KIND (1 SFW, 2 ROUTE, 3 CAL, 4 TOPO) and route index. -/
def imgKey (bank kind idx : Nat) : Nat := bank * 2048 + kind * 256 + idx
/-- A fresh part (R405): the factory SFW and routes 0 and 1 in bank A, everything else erased. -/
def imgReset (k : Nat) : Img :=
  if k = imgKey 0 1 0 ∨ k = imgKey 0 2 0 ∨ k = imgKey 0 2 1 then { st := 2, factory := true } else {}
def State.img (s : State) (bank kind idx : Nat) : Img := tabGet imgReset s.flash (imgKey bank kind idx)
def State.setImg (s : State) (bank kind idx : Nat) (x : Img) : State :=
  { s with flash := tabSet imgReset s.flash (imgKey bank kind idx) x }
/-- The bank of the running supervisor firmware. -/
def State.bank (s : State) : Nat := s.get BOOT_ST_BANK

/-! ### Header fields (R407) -/

/-- Field [hi:lo] of header word `w`. -/
def Img.hdr (x : Img) (w hi lo : Nat) : Nat := bitsOf (x.words.getD w 0).toNat hi lo
/-- The header and body words, which the signature covers, and the signature. -/
def Img.signed (x : Img) : List Word := x.words.take (x.words.length - 16)
def Img.sig (x : Img) : List Word := x.words.drop (x.words.length - 16)
/-- Factory header values of R405. -/
def Img.version (x : Img) : Nat := if x.factory then 1 else x.hdr 3 31 0
def Img.siepoch (x : Img) : Nat := if x.factory then 1 else x.hdr 6 15 0
def Img.simin (x : Img) : Nat := if x.factory then 1 else x.hdr 6 31 16
def Img.keyslot (x : Img) : Nat := if x.factory then 0 else x.hdr 1 17 16
/-- The stepping list holds 0xB2. -/
def Img.listed (x : Img) : Bool :=
  x.factory || ((x.words.drop 4).take 2).any (fun w => (List.range 4).any (fun i => bitsOf w.toNat (8 * i + 7) (8 * i) == 0xB2))

/-- The number of ones in a number below 2^16. -/
def popcount16 (x : Nat) : Nat := (List.range 16).countP (fun i => x.testBit i)

/-- The limits of R130 on a checkpoint: 17 words a block and NW words, and the data range inside data memory. -/
def ckpFits (bmask nw dbase : Nat) : Bool := decide (17 * popcount16 bmask + nw ≤ 508 ∧ dbase + nw ≤ 8192)

/-- Factory route `k` as an engine holds it (R405). -/
def factoryRouteOf (k : Nat) : Route :=
  { factory := k, sig := (List.range 16).map (fun i => Config.factoryField k (16 + i)), isa := 3, epoch := 1, role := k - 1
    entry := (Config.factoryField k 0).toNat % 16384, bmask := (Config.factoryField k 1).toNat % 65536
    nw := (Config.factoryField k 2).toNat % 512, dbase := (Config.factoryField k 3).toNat % 65536 }

/-- The route that a valid image of kind ROUTE at index `i` is. -/
def Img.route (x : Img) (i : Nat) : Route :=
  if x.factory then factoryRouteOf (i + 1)
  else
    let prog := x.hdr 10 14 0
    { sig := x.sig, isa := x.hdr 7 7 0, epoch := x.hdr 7 31 16, role := x.hdr 8 1 0, entry := x.hdr 8 15 2
      bmask := x.hdr 8 31 16, nw := x.hdr 9 8 0, dbase := x.hdr 9 31 16
      prog := (x.words.drop 16).take prog, data := (x.words.drop (16 + prog)).take (x.hdr 10 29 16) }

/-! ### Keys and checks (R406, R408) -/

/-- The public key of slot `k`, eight OTP words. -/
def State.keyWords (s : State) (k : Nat) : List Word := (List.range 8).map (fun i => s.otpWord (0x40 + 8 * k + i))
/-- Slot `k` is programmed; slot 0 holds the Hualalis key from shipment on (R406). -/
def State.keyProgrammed (s : State) (k : Nat) : Bool := k == 0 || (s.keyWords k).any (· ≠ 0)
/-- Slot `k` is revoked. -/
def State.keyRevoked (s : State) (k : Nat) : Bool := (s.otpWord 0x60).toNat.testBit k
/-- Slot `k` may sign: programmed and not revoked. -/
def State.keyUsable (s : State) (k : Nat) : Bool := s.keyProgrammed k && !s.keyRevoked k
/-- The bytes of a word as stored, least significant first (R407). -/
def storedBytes (w : Word) : List Byte := [w.extractLsb' 0 8, w.extractLsb' 8 8, w.extractLsb' 16 8, w.extractLsb' 24 8]
/-- The signature of an image verifies under the key of its slot. The factory images are signed with slot 0 (R405). -/
def State.sigVerifies (s : State) (x : Img) : Bool :=
  x.factory || Config.ed25519Ok (s.keyWords x.keyslot) (x.signed.flatMap storedBytes) x.sig
/-- Checks 2 and 3 of R408, as LOAD and a lead swap make them (R124, R133). -/
def State.sigOk (s : State) (x : Img) : Bool := s.keyUsable x.keyslot && s.sigVerifies x

/-- Check 1 of R408: every word of the header as R407 gives it, and the lengths agree. -/
def headerOk (kind : Nat) (x : Img) : Bool :=
  let w (i : Nat) : Nat := (x.words.getD i 0).toNat
  let body := w 2 / 4
  let rt := kind == 2
  let prog := x.hdr 10 14 0
  let data := x.hdr 10 29 16
  decide (32 ≤ x.words.length) && w 0 == 0x4C415548 && x.hdr 1 7 0 == kind && x.hdr 1 15 8 == 1 && x.hdr 1 31 18 == 0 &&
  w 2 % 4 == 0 && x.words.length == 32 + body && (kind == 1 || x.hdr 6 31 16 == 0) &&
  (List.range 5).all (fun i => w (11 + i) == 0) &&
  (if rt then x.hdr 7 15 8 == 0 && x.hdr 9 15 9 == 0 && x.hdr 10 15 15 == 0 && x.hdr 10 31 30 == 0 &&
      decide (1 ≤ prog ∧ prog ≤ 16384 ∧ data ≤ 8192) && body == prog + data
   else w 7 == 0 && w 8 == 0 && w 9 == 0 && w 10 == 0) &&
  (decide (kind < 3) || (body % 2 == 0 && (List.range (body / 2)).all (fun i => decide (w (16 + 2 * i) < 2 ^ 24))))

/-- Detail 6 of R414: the ROUTE fields. -/
def routeFieldsOk (x : Img) : Bool :=
  x.hdr 8 1 0 != 3 && decide (x.hdr 8 15 2 < x.hdr 10 14 0) && ckpFits (x.hdr 8 31 16) (x.hdr 9 8 0) (x.hdr 9 31 16)

/-- Check 5 of R408 for an image other than SFW: its SIEPOCH lies within SIMIN … SIEPOCH of the running firmware. -/
def State.epochOk (s : State) (x : Img) : Bool :=
  decide (s.get SFW_EPOCH_SIMIN ≤ x.siepoch ∧ x.siepoch ≤ s.get SFW_EPOCH_SIEPOCH)

/-- The image of route index `i` in the directory: one whose SIEPOCH lies outside the epochs of the running firmware is
skipped (R408). -/
def State.dirImg (s : State) (i : Nat) : Img :=
  let x := s.img s.bank 2 i
  if s.epochOk x then x else {}

/-- The first check of R408 that fails, 0 when none: a stepping not listed passes with the UNTESTED strap high. -/
def State.checkImage (s : State) (kind : Nat) (x : Img) : Nat :=
  if !x.factory && !headerOk kind x then 1
  else if !s.keyUsable x.keyslot then 2
  else if !s.sigVerifies x then 3
  else if !x.listed && !s.bit STRAP_ST_UNTESTED then 4
  else if kind ≠ 1 ∧ !s.epochOk x then 5
  else 0

/-! ### The directory (R420) -/

/-- RDIRi of an image. -/
def rdirWord (x : Img) (i : Nat) : Word :=
  if x.st ≠ 2 then 0
  else
    let r := x.route i
    BitVec.ofNat 32 (2 ^ 31 + (if x.untested then 2 ^ 30 else 0) + (if x.accepted then 2 ^ 29 else 0) +
      r.role % 4 * 2 ^ 26 + r.isa % 256 * 2 ^ 16 + r.epoch % 65536)
/-- RDIRi follows the image of index `i` in the running bank. -/
def State.syncRdir (s : State) (i : Nat) : State := s.wr (RDIR i) (rdirWord (s.dirImg i) i)
/-- The whole directory follows the running bank. -/
def State.syncDirectory (s : State) : State :=
  if s.bit BOOT_ST_LOADER then s
  else s.each ((List.range 255).map (fun i => (RDIR i, rdirWord (s.dirImg i) i))) (fun x t => t.wr x.1 x.2)

/-- Erase or replace an image; the directory follows. -/
def State.storeImg (s : State) (bank kind idx : Nat) (x : Img) : State :=
  let s := s.setImg bank kind idx x
  if kind = 2 ∧ bank = s.bank ∧ !s.bit BOOT_ST_LOADER then s.syncRdir idx else s
/-- The open session ends without a COMMIT: its target stays erased (R413). -/
def State.endSession (s : State) : State :=
  if s.bit IMG_ST_OPEN then (s.storeImg (s.get IMG_ST_BANK) (s.get IMG_ST_KIND) s.imgIdx {}).put IMG_ST_OPEN 0 else s

/-- A route usable by LOAD or a swap as far as the directory and R415 go. -/
def Img.usable (x : Img) : Bool := x.st == 2 && (!x.untested || x.accepted)

/-! ### Words of the flash windows (R405) -/

/-- Some route index of bank `b` holds anything. -/
def State.anyRoute (s : State) (b : Nat) : Bool := (List.range 255).any (fun i => (s.img b 2 i).st != 0)

/-- A word of an area with one image; past the image the area is erased. -/
def areaWord (x : Img) (bank off i : Nat) : Word :=
  if x.factory then Config.flashWord bank (off + i) else x.words.getD i 0xFFFFFFFF

/-- Word `i` of a bank's window. Where a route lies in its area the spec leaves open: with a route in the bank, a word
of the route area is a free value. -/
def State.flashRead (s : State) (bank i : Nat) : Word :=
  if i < 0x40000 then areaWord (s.img bank 1 0) bank 0 i
  else if i < 0xE0000 then (if s.anyRoute bank then Config.freeWord s.drawn else 0xFFFFFFFF)
  else if i < 0xF0000 then areaWord (s.img bank 3 0) bank 0xE0000 (i - 0xE0000)
  else areaWord (s.img bank 4 0) bank 0xF0000 (i - 0xF0000)

end Sys2Proof.Machine
end

