-- ==== Sys2Proof/Machine/Belay.lean ====
section
/-! DEFINITION. Belay (19_belay.md, R388 to R402): the sag start, the save set, recovery, re-arming and the restore at
boot. -/
namespace Sys2Proof.Machine

/-- One bit of CRC-32 of IEEE 802.3, reflected. -/
def crc32Bit (c : Nat) : Nat := if c % 2 = 1 then (c / 2) ^^^ 0xEDB88320 else c / 2
/-- One byte of CRC-32. -/
def crc32Byte (c b : Nat) : Nat :=
  crc32Bit (crc32Bit (crc32Bit (crc32Bit (crc32Bit (crc32Bit (crc32Bit (crc32Bit (c ^^^ b))))))))
/-- The bytes of a word, least significant first (R392). -/
def leBytes (w : Word) : List Nat := [w.toNat % 256, w.toNat / 256 % 256, w.toNat / 65536 % 256, w.toNat / 16777216]
/-- CRC-32 of IEEE 802.3 over words stored least significant byte first. -/
def crc32Words (ws : List Word) : Word := BitVec.ofNat 32 ((ws.flatMap leBytes).foldl crc32Byte 0xFFFFFFFF ^^^ 0xFFFFFFFF)

/-- A list of words brought to length `n` with zeros. -/
def padWords (n : Nat) (ws : List Word) : List Word := ws.take n ++ List.replicate (n - ws.length) 0

/-- The save set of the save in progress (R392). -/
def State.saveSet (s : State) : List Word :=
  let b := s.bly
  let hdr := [1, BitVec.ofNat 32 ((if b.sag then 1 else 0) + (if b.s4 then 2 else 0))] ++ words64N b.hdrTime ++
    [BitVec.ofNat 32 (b.saveCount + 1), 0, 0, 0]
  let msgs := padWords 64 (s.coll.recent.flatMap (fun m => [m.w0, m.w1] ++ words64N m.time))
  let recs := padWords 256 (s.log.waiting.flatMap (fun r => [r.w0, r.w1] ++ words64N r.time))
  let body := hdr ++ padWords 420 b.pendingSave ++ msgs ++ recs ++
    [BitVec.ofNat 32 s.log.waiting.length, 0, 0]
  body ++ [crc32Words body]

/-- A save-set area holds a valid set: its trailer CRC matches (R394). -/
def saveValid (ws : List Word) : Bool := ws.length == 752 && ws.getD 751 0 == crc32Words (ws.take 751)

/-- Every engine stops at its present cycle; a free-standing one becomes IDLE with its route loaded (R390, R396). -/
def State.shedEngines (s : State) : State :=
  s.each engines20 (fun e t =>
    if t.pool e = 3 ∨ t.run e = 0 then t
    else
      let t := t.put (KE_STATUS_RUN e) 0
      if t.pool e = 1 ∧ t.get (KE_STATUS_ROLE e) = 0 then t.put (KE_STATUS_POOL e) 0 else t)

/-- The sag reaction of every driven slot (R216, R389). -/
def State.sagSlots (s : State) : State :=
  s.each slots16 (fun n t =>
    if t.isRemote n then t.toTripped n 8 .coast true
    else if t.isLocal n then t.toTripped n 8 (if t.bit (AX_SAG_SAGBRK n) then .brake else .coast)
    else t)

/-- SAG_START (R388, R389, R390): the SUP filter decides VSYS_SNS below the sag threshold with sample `v`, in mV; the
slots take their sag reactions, execution stops, load is shed and the save begins. Not in bivouac, not before the
comparator is armed again. -/
def sagStart (v : Int) (s : State) : State :=
  let t := s.toWindow (.supply 4)
  if !t.bly.armed ∨ ((t.monChanges (.supply 4) v).filter (fun x => x.2 && x.1 == winLo 4)) = [] then s else
  let s := t.monTake (.supply 4) v
  let s := s.startSave true false
  let s := { s with bly := { s.bly with armed := false, stopped := true, shed := true, start := s.now, sagAt := s.now + 1 } }
  let s := s.endPulses s.pulses
  let s := { s with panel := { s.panel with tests := [], lamps := [] } }
  let s := s.sagSlots
  let s := s.each slots16 (fun n t => ((if t.swapEarly n then t.swapAbandon n 9 else t).emergencyAbandon n 0).emergencyAbandon n 1)
  let s := (s.put BLY_ST_SAGNOW 1).put BLY_ST_ARMED 0
  let s := s.shedEngines.endSession.killHandover
  let s := { (((((s.put HKC_CTRL_RUN 0).put HKC_ST_BUSY 0).put HKC_ST_STOPPING 0).put HKC_ST_ENABLEPENDING 0).put HKC_ST_INJ 0).put HKC_ST_RINGWAIT 0 with
    hkc := { s.hkc with conv := 0, injRun := false, injPend := none, trig := [] } }
  (s.put (ETH_ST_LINK 0) 0).put (ETH_ST_LINK 1) 0

/-- The area that the next save is written to: not the one that holds the latest valid set (R394). -/
def Belay.nextArea (b : Belay) : Nat :=
  if b.valid0 ∧ (b.valid1 = false ∨ (b.area1.getD 4 0).toNat < (b.area0.getD 4 0).toNat) then 1 else 0

/-- SAVE_COMPLETE (R391, R394): the trailer is written into the area that does not hold the latest valid set. -/
def saveComplete (s : State) : State :=
  if !s.bly.saving then s else
  let ws := s.saveSet
  let area := s.bly.nextArea
  let cnt := (s.bly.saveCount + 1) % 2 ^ 32
  let b := { s.bly with saving := false, pendingSave := [], saveCount := cnt, cut := false, sag := false, s4 := false }
  let b := if area = 0 then { b with area0 := ws, valid0 := true } else { b with area1 := ws, valid1 := true }
  let recs := s.log.waiting
  let s := { s with bly := b, log := { s.log with waiting := [], tail := (s.log.tail ++ recs).drop ((s.log.tail ++ recs).length - 512) } }
  ((((s.put LOG_MIRST_LAG 0).put BLY_ST_SAVING 0).put BLY_ST_SAVEDSEEN 1).wr BLY_SAVECNT (BitVec.ofNat 32 cnt)).put
    BLY_LASTDUR_V (min ((s.now - s.bly.start) / 1000) 65535)

/-- The commands that a stream held when it was recorded are answered after a save with no reset: the running one
INTERRUPTED, the others FLUSHED; a later one keeps its place. The stream halts with REASON 5 and the values of R318 (R396,
R402). -/
def Stream.recover (st : Stream) (mark : Nat) : Stream :=
  let running := st.prog ≠ .idle
  let old := st.queue.filter (fun c => decide (c.acc < mark))
  let ans := old.zipIdx.map (fun x => Rsp.mk x.1.seq x.1.op (if running && x.2 == 0 then 6 else 7) [0] true false)
  { st with queue := st.queue.filter (fun c => !decide (c.acc < mark)), prog := .idle, pend := st.pend ++ ans, reason := 5
            haltSeq := if running then (match st.queue with | c :: _ => c.seq | [] => st.lastSeq) else st.lastSeq
            int := running, discard := old.length - (if running then 1 else 0), haltAfter := 0 }.setState 2

/-- SUPPLY_RECOVERY (R396): no reset has followed a completed save. -/
def supplyRecovery (s : State) : State :=
  if s.bly.shed ∧ !s.bly.saving then
    let s := { s with bly := { s.bly with shed := false, stopped := false } }
    s.each streams32 (fun k t =>
      let st := (t.stream k).recover s.bly.mark
      (t.setStream k st).inc (STR_FLUSHED_V k) st.discard)
  else s

/-- BELAY_REARM (R397): VSYS_SNS has stayed at or above the threshold plus 500 mV for 10 ms, none of them before the sag. -/
def belayRearm (s : State) : State :=
  if s.bly.armed then s else
  ({ s with now := max s.now (s.bly.sagAt + 10000000), bly := { s.bly with armed := true } }.setWindow (winLo 4) {}).put BLY_ST_SAGNOW 0 |>.put BLY_ST_ARMED 1

/-- BLY_CFG_WRITE (R400): THR 80 to 115; MON4_THR reports it in LO. -/
def blyCfgWrite (v : Word) (s : State) : State :=
  let t := fieldOf v BLY_CFG_THR
  if 80 ≤ t ∧ t ≤ 115 then (s.wr BLY_CFG (BitVec.ofNat 32 t)).put (MON_THR_LO 4) (t * 100) else s.put BLY_ST_REFUSED 1

/-- ACK (R401): clears POSITION_ASSUMED; a confirmation of the same cycle is taken all the same (R402). -/
def restoreAck (w : Writer) (n : Nat) (s : State) : State :=
  if s.owns w n then (s.noteSet (AX_RESTORE n) 1).put (AX_RESTORE_POSITIONASSUMED n) 0 else s

/-! ### Restore at boot (R398) -/

/-- Word `i` of a save set as a number, and a 64-bit quantity at `i`. -/
def setWord (ws : List Word) (i : Nat) : Nat := (ws.getD i 0).toNat
def setQuad (ws : List Word) (i : Nat) : Int := signedOf 64 (setWord ws (i + 1) * 2 ^ 32 + setWord ws i)

/-- The valid set to restore: the one whose SAVECNT exceeds BLY_USED, the latest when both do. -/
def State.restorable (s : State) : Option (List Word) :=
  let ok (v : Bool) (ws : List Word) : Bool := v && saveValid ws && decide (s.bly.used < setWord ws 4)
  match ok s.bly.valid0 s.bly.area0, ok s.bly.valid1 s.bly.area1 with
  | true, true => if setWord s.bly.area0 4 < setWord s.bly.area1 4 then some s.bly.area1 else some s.bly.area0
  | true, false => some s.bly.area0
  | false, true => some s.bly.area1
  | false, false => none

/-- Restore slot `n` from its record (R393, R398); one whose binding differs is not restored. -/
def State.restoreSlot (s : State) (ws : List Word) (n : Nat) : State :=
  let b := 8 + 16 * n
  if setWord ws b ≠ (s.rd (AX_BIND n)).toNat then s.put (AX_RESTORE_MISMATCH n) 1
  else if s.kind n ≠ 0 then
    let fb := bitsOf (setWord ws (b + 8)) 1 1 = 1 ∧ s.bit (AX_BIND_FBEN n)
    let pos := setQuad ws (b + (if fb then 4 else 2))
    let s := s.modGen n (fun g => { g with m := { p := pos * 2 ^ 32 }, nxt := { p := pos * 2 ^ 32 }, run := { p := pos * 2 ^ 32 }, prevP := pos * 2 ^ 32 })
    let s := (s.puti (AX_SP_POS_V n) pos).puti (AX_REBASE_V n) (setQuad ws (b + 6))
    let s := (s.put (AX_RESTORE_POSITIONASSUMED n) 1).put (AX_RESTORE_PREVSTATE n) (bitsOf (setWord ws (b + 1)) 3 0)
    s.put (AX_RESTORE_PREVSTOP n) (bitsOf (setWord ws (b + 1)) 7 4)
  else s

/-- Restore the save set at a boot, after TOPO and before any host is served (R398). -/
def State.restore (s : State) : State :=
  match s.restorable with
  | none => s
  | some ws =>
    let s := s.each streams32 (fun k t =>
      let b := 0x128 + 4 * k
      let seq := setWord ws b
      let hs := setWord ws (b + 1)
      t.setStream k { state := 2, reason := 5, lastSeq := seq / 65536, nextSeq := seq % 65536, haltSeq := hs % 65536
                      discard := bitsOf hs 20 16, int := bitsOf hs 31 31 == 1, unsynced := false })
    let s := s.each (List.range 8) (fun p t =>
      let b := 0x108 + 4 * p
      let mode := t.get (FB_CFG_MODE p)
      if (t.rd (FB_CFG p)).toNat = setWord ws b ∧ (t.rd (FB_SSI p)).toNat = setWord ws (b + 1) ∧ (mode = 1 ∨ mode = 2) then
        t.wr64 (FB_CNT p) (setWord ws (b + 3) * 2 ^ 32 + setWord ws (b + 2)) else t)
    let s := s.each slots16 (fun n t => t.restoreSlot ws n)
    let s := { s with bly := { s.bly with used := setWord ws 4 } }
    (s.wr BLY_USED (BitVec.ofNat 32 (setWord ws 4))).wr64 BLY_RSTTIME (setWord ws 3 * 2 ^ 32 + setWord ws 2)

/-! ### Their meanings as commands -/

def execSagStart (v : Int) (s : State) : Out := live s (sagStart v)
def execSaveComplete (s : State) : Out := live s saveComplete
def execSupplyRecovery (s : State) : Out := live s supplyRecovery
def execBelayRearm (s : State) : Out := live s belayRearm
def execBlyCfgWrite (v : Word) (s : State) : Out := live s (blyCfgWrite v)
def execAck (w : Writer) (n : Fin 16) (s : State) : Out := live s (restoreAck w n.val)

end Sys2Proof.Machine
end

