-- ==== Sys2Proof/Machine/Converters.lean ====
section
/-! DEFINITION. Sigma-delta converters (11_converters.md, R236 to R258): the outputs of the decimated channels, their
configuration, the bus windows, and the housekeeping converter with its sequences, ring, reference and calibration. -/
namespace Sys2Proof.Machine

/-! ### Decimated channels (R63 to R65, R236 to R243) -/

/-- The setting of a channel that is in force: a change of DECc_CFG waits for the next output (R242). -/
def State.decCfg (s : State) (c : Nat) : Word := match (s.dec c).old with | some (_, v) => v | none => s.rd (DEC_CFG c)
def State.decOrd (s : State) (c : Nat) : Nat := fieldOf (s.decCfg c) (DEC_CFG_ORD c)
def State.decOsr (s : State) (c : Nat) : Nat := fieldOf (s.decCfg c) (DEC_CFG_OSR c)
def State.decL (s : State) (c : Nat) : Nat := fieldOf (s.decCfg c) (DEC_CFG_L c)
/-- The settling time of a channel, ns (R237). -/
def State.settleTime (s : State) (c : Nat) : Nat := (s.decOrd c + s.decL c - 1) * s.decOsr c * 50

/-- A channel clears VALID (R240): a sense channel reports zero current and w_D as 1, the largest 0.16 value. -/
def State.unsettle (s : State) (c : Nat) : State :=
  let s := (s.put (DEC_ST_VALID c) 0).setDec c { s.dec c with settleAt := s.now, ins := [], outs := [], val := if c < 32 then 0 else (s.dec c).val, wd := 1 }
  if c < 32 then (s.wr (SNS_I c) 0).put (SNS_WD_V c) 0xFFFF else s

/-- The mirror current lies beyond ±2.5 mA, or the bus voltage beyond 102,400 mV: the modulator is overloaded (R239). -/
def overloaded (c : Nat) (x : Int) : Bool := if c < 32 then decide (2500000 < x.natAbs) else decide (102400 < x)
/-- The contribution of one sense input (R63, R64, R239): offset subtracted, limited at ±2.5 mA while overloaded. -/
def senseTerm (c : Nat) (i ofs : Int) : Int :=
  let x := i - ofs
  if overloaded c i then max (-2500000) (min 2500000 x) else x
/-- The input of the filter at one modulator clock: K_H × i_SNH − K_L × i_SNL in mA (R63), or the bus voltage in mV. -/
def State.decTerm (s : State) (c : Nat) (x : Int × Int × Bool) : Rat :=
  if c < 32 then
    ((s.get (SNS_KH_V c) : Rat) * senseTerm c x.1 (s.geti (SNS_OFSH_V c)) - (s.get (SNS_KL_V c) : Rat) * senseTerm c x.2.1 (s.geti (SNS_OFSL_V c)))
      / 65536000000
  else (max 0 (min x.1 102400) : Int)

/-- Sums of `r` consecutive entries. -/
def runSums (r : Nat) (l : List Rat) : List Rat := (List.range (l.length + 1 - r)).map (fun i => ((l.drop i).take r).sum)
/-- `k` running sums of `r` entries, one after the other. -/
def sincSums (r : Nat) : Nat → List Rat → List Rat
  | 0, l => l
  | k + 1, l => sincSums r k (runSums r l)
/-- The output of a sinc filter of order `ord` at ratio `r` on its latest inputs, newest first (R237). -/
def sinc (ord r : Nat) (l : List Rat) : Rat :=
  (sincSums r ord ((List.range (ord * (r - 1) + 1)).map (fun i => l.getD i 0))).headD 0 / ((r ^ ord : Nat) : Rat)
/-- The mean of the last `k` outputs: the notch (R237). -/
def notch (k : Nat) (l : List Rat) : Rat := ((l.take k).sum : Rat) / (k : Nat)

/-- The modulator clocks of an output at cell time `t`, newest first, and the blind input at each (R65). -/
def State.decBlind (s : State) (c t osr : Nat) : List Bool := (List.range osr).map (fun i => (s.chan c).blind (t - 50 * i))
/-- An input that takes the listed values in turn, each for `each` clocks, and goes on at `rest`. -/
def heldValues (l : List Int) (each : Nat) (rest : Int) : List Int := l.flatMap (fun x => List.replicate each x) ++ [rest]
/-- The inputs that a list of values in order of time spells for `k` clocks, newest first; the last value goes on. -/
def clockValues (l : List Int) (k : Nat) : List Int := ((List.range k).map (fun i => l.getD i (l.getLastD 0))).reverse

/-- Keys of the bus windows. -/
def winBusLo (g : Nat) : Nat := 80 + g
def winBusHi (g : Nat) : Nat := 90 + g

/-- One side of a bus window for a value in mV (R243): outside beyond the limit, inside again once the value lies 1 %
of the limit inside it. Answers whether the value leaves the window. -/
def State.busSide (s : State) (key : Nat) (beyond back : Bool) : State × Bool :=
  let w := s.window key
  if w.outside then (if back then (s.setWindow key { w with outside := false }, false) else (s, false))
  else if beyond then (s.setWindow key { w with outside := true }, true) else (s, false)

/-- BUS_WINDOW_EXCURSION (R243): an output in the cycle of a write of the window is judged by the old limits (R258). -/
def State.busWindow (s : State) (g : Nat) (mv : Nat) : State :=
  let w := match (s.dec (32 + g)).winOld with | some (t, v) => if t = s.cycle then v else s.rd (BUS_WIN g) | none => s.rd (BUS_WIN g)
  let lo := fieldOf w (BUS_WIN_LO g) * 10
  let hi := fieldOf w (BUS_WIN_HI g) * 10
  let (s, l) := s.busSide (winBusLo g) (decide (mv < lo)) (decide (lo * 101 ≤ mv * 100))
  let s := if l then s.raise (0x40 + 4 * g + 3) 1 0 g s.now else s
  let (s, h) := s.busSide (winBusHi g) (decide (hi < mv)) (decide (mv * 100 ≤ hi * 99))
  if h then s.raise (0x40 + 4 * g + 3) 2 1 g s.now else s

/-- A change of the setting applies at the output instant after the cycle of the write: a new order, ratio or length
clears VALID (R240, R242). -/
def State.decApply (s : State) (c : Nat) : State :=
  match (s.dec c).old with
  | some (t, v) =>
    if t / 5 < s.now / 5 then
      let s := s.setDec c { s.dec c with old := none }
      if v &&& 0x1FF7F07#32 = s.rd (DEC_CFG c) &&& 0x1FF7F07#32 then s else s.unsettle c
    else s
  | none => s

/-- An output of channel `c`: the filter and the notch on the inputs of its period, and the same on the blind input
(R65, R237, R238). It is published while VALID = 1 (R240). -/
def State.decimated (s : State) (c : Nat) (iH iL : List Int) : State :=
  let osr := s.decOsr c
  let d := s.dec c
  let h := clockValues iH osr
  let l := clockValues iL osr
  let ins := (((h.zip l).zip (s.decBlind c s.now osr)).map (fun x => (x.1.1, x.1.2, x.2)) ++ d.ins).take (s.decOrd c * osr)
  let y := sinc (s.decOrd c) osr (ins.map (s.decTerm c))
  let w := sinc (s.decOrd c) osr (ins.map (fun x => if x.2.2 then 1 else 0))
  let outs := ((y, w) :: d.outs).take (s.decL c)
  let val := notch (s.decL c) (outs.map (·.1))
  let wd := notch (s.decL c) (outs.map (·.2))
  let oH := h.any (overloaded c)
  let oL := decide (c < 32) && l.any (overloaded c)
  let s := if oH then s.put (DEC_ST_OVRH c) 1 else s
  let s := if oL then s.put (DEC_ST_OVRL c) 1 else s
  let s := if oH || oL then s.inc (DEC_OVRCNT_V c) else s
  let d := { s.dec c with outAt := some s.now, ins := ins, outs := outs }
  if !s.bit (DEC_ST_VALID c) then s.setDec c d
  else
    let s := s.setDec c { d with val := val, wd := wd }
    if c < 32 then (s.puti (SNS_I_V c) (roundEven val)).put (SNS_WD_V c) (min (wd * 65536).floor.toNat 0xFFFF)
    else
      let mv := (roundEven val).toNat
      (s.wr (DEC_VAL c) (BitVec.ofNat 32 mv)).busWindow (c - 32) mv

/-- The next output instant of a channel: a whole number of output periods after its latest output, not yet past. -/
def State.decTime (s : State) (c : Nat) : Nat :=
  match (s.dec c).outAt with
  | some t => let p := max (s.decOsr c * 50) 1; if s.now ≤ t + p then t + p else t + (s.now - t + p - 1) / p * p
  | none => s.now
/-- DECIMATED_OUTPUT (R236): channel `c` produces an output. `iH` and `iL` are the mirror currents in nA (for a bus channel
`iH` is the bus voltage in mV) at the modulator clocks of its period, in order of time; the last value listed goes on. An
output while VALID = 0 is produced and not published (R240); the modulators stop while load is shed (R390). -/
def decimatedOutput (c : Nat) (iH iL : List Int) (s : State) : State :=
  if s.bly.shed then s else ({ s with now := s.decTime c }.decApply c).decimated c iH iL
def execDecimatedOutput (c : Fin 36) (iH iL : List Int) (each : Nat) (rH rL : Int) (s : State) : Out :=
  live s (decimatedOutput c.val (heldValues iH each rH) (heldValues iL each rL))

/-- Some energised slot includes channel `c`, or uses a channel of the group of bus channel `c` (R242). -/
def State.decUsed (s : State) (c : Nat) : Bool := if c < 32 then s.chanUsed c else s.groupUsed (c - 32)

/-- DEC_CFG_WRITE (R242). -/
def decCfgWrite (c : Nat) (v : Word) (s : State) : State :=
  let osr := fieldOf v (DEC_CFG_OSR c)
  let l := fieldOf v (DEC_CFG_L c)
  let ord := fieldOf v (DEC_CFG_ORD c)
  if 8 ≤ osr ∧ osr ≤ 256 ∧ 1 ≤ l ∧ l ≤ 64 ∧ 1 ≤ ord ∧ ord ≤ 5 ∧ !s.decUsed c then
    let was := match (s.dec c).old with | some (_, x) => x | none => s.rd (DEC_CFG c)
    (s.wr (DEC_CFG c) (v &&& 0x1FF7F07#32)).setDec c { s.dec c with old := some (s.now, was) }
  else s.put (DEC_ST_REFUSED c) 1
def execDecCfgWrite (c : Fin 36) (v : Word) (s : State) : Out := live s (decCfgWrite c.val v)

/-- DEC_SETTLED (R240): t_S has passed since the change or the wake. -/
def decSettled (c : Nat) (s : State) : State :=
  if s.bit (DEC_ST_VALID c) || (s.dec c).old.isSome then s
  else { s with now := max s.now ((s.dec c).settleAt + s.settleTime c) }.put (DEC_ST_VALID c) 1
def execDecSettled (c : Fin 36) (s : State) : Out := live s (decSettled c.val)

/-- BUS_WIN_WRITE (R243). -/
def busWinWrite (g : Nat) (v : Word) (s : State) : State :=
  if fieldOf v (BUS_WIN_LO g) < fieldOf v (BUS_WIN_HI g) then
    let d := s.dec (32 + g)
    let old := match d.winOld with | some (t, x) => if t = s.cycle then x else s.rd (BUS_WIN g) | none => s.rd (BUS_WIN g)
    (s.setDec (32 + g) { d with winOld := some (s.cycle, old) }).wr (BUS_WIN g) v
  else s.put (DEC_ST_REFUSED (32 + g)) 1
def execBusWinWrite (g : Fin 4) (v : Word) (s : State) : Out := live s (busWinWrite g.val v)

/-! ### Housekeeping converter (R244 to R257) -/

/-- Conversion time of a rate code, ns (R244). -/
def hkcTime (rate : Nat) : Nat :=
  match rate with
  | 0 => 20000 | 1 => 40000 | 2 => 100000 | 3 => 400000 | 4 => 1000000 | 5 => 10000000 | 6 => 20000000 | _ => 100000000

/-- The entry word of the conversion that runs. -/
def State.hkcEntry (s : State) : Word :=
  if s.hkc.conv = 2 then s.rd (HKC_ISEQ s.hkc.idx) else s.rd (HKC_SEQ (s.get HKC_ST_ENTRY))

/-- The reference in mV (R252); VDDA's value is the board's. -/
def State.hkcVref (s : State) : Rat :=
  match s.get HKC_REF_SEL with
  | 0 => 2048
  | 1 => (s.get HKC_REF_REFMV : Nat)
  | _ => Config.freeRat 0

/-- k24 with OVR (R246): the correction is rounded to the nearest integer. -/
def State.hkcCorrect (s : State) (r : Nat) (k : Int) : Int × Bool :=
  let x := roundEven (((k - s.geti (HKC_CALOFS_V r) : Int) : Rat) * (s.get (HKC_CALGAIN_V r) : Nat) / 1073741824)
  if x < -8388608 then (-8388608, true) else if 8388607 < x then (8388607, true) else (x, false)

/-- The engineering value (R245, R246): mV at the ball, or °C. -/
def State.hkcValue (s : State) (input gain : Nat) (k24 : Int) : Rat :=
  let v : Rat := (k24 : Rat) / 8388608 * s.hkcVref
  if input < 8 then v / (2 ^ gain : Nat)
  else if input ≤ 12 then v * 2
  else if input = 13 then v * 8
  else if input ≤ 17 then v * 10
  else if input ≤ 22 then 25 + (640 - v) * 5 / 9
  else v

/-- The result word of an entry (R246). -/
def hkcResult (entry : Nat) (r : Int × Bool) : Word :=
  BitVec.ofNat 32 (entry * 2 ^ 27 + (if r.2 then 2 ^ 26 else 0) + unsignedOf 24 r.1)

/-- Ring length in words (R250), and whether the ring is full. -/
def State.ringSize (s : State) : Nat := 2 ^ s.get HKC_RSIZE_RSIZE
def State.ringFull (s : State) : Bool :=
  decide (s.ringSize ≤ (s.get HKC_WIDX_V + 2 ^ 32 - s.get HKC_RIDX_V) % 2 ^ 32)

/-- A regular result enters the ring; a full ring in OVERWRITE releases its oldest word first (R250). -/
def State.ringPut (s : State) (v : Word) : State :=
  let s := if s.ringFull then (s.inc HKC_RIDX_V).inc HKC_ROVF_V else s
  let i := s.get HKC_WIDX_V
  (s.wrMem (s.get HKC_RBASE_V + 4 * (i % s.ringSize)) v).inc HKC_WIDX_V

/-- Begin a conversion of kind `conv` at cell time `t`. -/
def State.hkcBegin (s : State) (conv : Nat) : State :=
  { s with hkc := { s.hkc with conv := conv, start := s.now } }.put HKC_ST_BUSY 1

/-- A pending injected sequence of no entries starts and ends at once: its trigger's time is latched (R248). -/
def State.hkcEmpty (s : State) : State :=
  match s.hkc.injPend with
  | some t => if s.get HKC_SEQCFG_ILEN = 0 then ({ s with hkc := { s.hkc with injPend := none } }.put HKC_ST_INJ 0).wr64 HKC_ITIME t else s
  | none => s
/-- The next conversion starts when the one before it ends (R247, R248, R250, R252, R254). With LEN = 0 rolling calibration
converts alone: each pass of the empty sequence takes no time (R247; DEDUCED, notes/assumptions/79). -/
def State.hkcNext (s : State) : State :=
  if s.hkc.conv ≠ 0 ∨ !s.bit HKC_CTRL_RUN ∨ !s.bit HKC_ST_REFSETTLED ∨ s.bit HKC_CAL_BUSY then s
  else if s.hkc.injRun then s.hkcBegin 2
  else
    let s := s.hkcEmpty
    let h := s.hkc
    match h.injPend with
    | some t => (({ s with hkc := { h with injPend := none, injRun := true, idx := 0 } }.put HKC_ST_INJ 1).wr64 HKC_ITIME t).hkcBegin 2
    | none =>
      if h.rollDue then s.hkcBegin 3
      else if s.get HKC_SEQCFG_LEN = 0 then (if s.bit HKC_CTRL_ROLL then s.hkcBegin 3 else s)
      else if s.bit HKC_SEQCFG_RING && s.ringFull && !s.bit HKC_SEQCFG_OVWR then s.put HKC_ST_RINGWAIT 1
      else (s.put HKC_ST_RINGWAIT 0).hkcBegin 1

/-- Start from rest (R255): the ring indices restart and the sequence begins at entry 0. -/
def State.hkcStart (s : State) : State :=
  let s := ((((s.wr HKC_WIDX 0).wr HKC_RIDX 0).wr HKC_ROVF 0).put HKC_ST_ENTRY 0).put HKC_CTRL_RUN 1
  { s with hkc := { s.hkc with passes := 0, rollDue := false, injRun := false, injPend := none } }.hkcNext

/-- Stop at the end of the present conversion: a pending injected sequence is counted in IMISS (R255). -/
def State.hkcStopped (s : State) : State :=
  let s := if s.hkc.injPend.isSome then s.inc HKC_IMISS_V else s
  let s := { s with hkc := { s.hkc with conv := 0, injRun := false, injPend := none } }
  let s := (((s.flag HKC_ST_BUSY (s.bit HKC_CAL_BUSY)).put HKC_ST_STOPPING 0).put HKC_ST_INJ 0).put HKC_ST_RINGWAIT 0
  if s.bit HKC_ST_ENABLEPENDING then (s.put HKC_ST_ENABLEPENDING 0).hkcStart else s

/-- HKC_RUN (R255): a write of RUN. -/
def hkcRun (run : Bool) (s : State) : State :=
  if run then
    (if s.bit HKC_ST_STOPPING then s.put HKC_ST_ENABLEPENDING 1
     else if s.bit HKC_CTRL_RUN then s else s.hkcStart)
  else
    let s := s.put HKC_ST_ENABLEPENDING 0
    if !s.bit HKC_CTRL_RUN then s
    else
      let s := s.put HKC_CTRL_RUN 0
      if s.hkc.conv = 0 then s.hkcStopped else s.put HKC_ST_STOPPING 1
def execHkcRun (run : Bool) (s : State) : Out := live s (hkcRun run)

/-- ISW (R248): an injected trigger from a host arrives. -/
def hkcIsw (s : State) : State := s.hkcSignal true s.now
def execIsw (s : State) : Out := live s hkcIsw

/-- The rate code of the conversion that runs, and the cell time at which it ends (R244, R254). -/
def State.hkcRate (s : State) : Nat := if s.hkc.conv = 3 then 4 else bitsOf s.hkcEntry.toNat 10 8
def State.hkcEnd (s : State) : Nat := s.hkc.start + hkcTime s.hkcRate

/-- HKC_INJECTED_TRIGGER (R248, R249): the oldest trigger that has arrived is judged; a trigger of a further one in the
same cycle only counts. -/
def hkcTrigger (s : State) : State :=
  match s.hkc.trig with
  | [] => s
  | t :: rest =>
    let extra := (rest.filter (fun u => u / 5 == t / 5)).length
    let s := { s with hkc := { s.hkc with trig := rest.filter (fun u => u / 5 != t / 5) } }.inc HKC_IMISS_V extra
    let h := s.hkc
    if !s.bit HKC_CTRL_RUN || s.bit HKC_CAL_BUSY || h.injPend.isSome then s.inc HKC_IMISS_V
    else
      let s := { s with hkc := { h with injPend := some t } }.put HKC_ST_INJ 1
      if h.injRun then s
      else if h.conv = 1 ∨ h.conv = 3 then
        (if s.hkcEnd / 5 = t / 5 then s        -- a conversion that ends in the trigger's cycle ends (R258)
         else
           -- one that runs is aborted, and restarts once the injected sequence ends; one that was to begin in the trigger's
           -- cycle only waits (R258)
           let s := { s with hkc := { s.hkc with conv := 0 } }.put HKC_ST_BUSY 0
           (if h.start / 5 = t / 5 then s else s.inc HKC_ABORT_V).hkcNext)
      else s.hkcNext
def execHkcInjectedTrigger (s : State) : Out := live s hkcTrigger

/-- A rolling calibration measurement `m` (R254): steps 0, 2, 4, 6 measure zero and 1, 3, 5, 7 the reference, at gains
1, 2, 4 and 8. -/
def State.hkcRoll (s : State) (m : Int) : State :=
  let st := s.hkc.rollStep
  let r := st / 2
  let f := if st % 2 = 0 then HKC_CALOFS_V r else HKC_CALGAIN_V r
  let full : Int := if st % 2 = 0 then 8388608 else 1073741824
  let old : Int := if st % 2 = 0 then s.geti f else (s.get f : Int)
  let d := m - old
  let s := { s with hkc := { s.hkc with rollDue := false, rollStep := (st + 1) % 8 } }
  if full < 1000 * (d.natAbs : Int) then s.inc HKC_ROLL_ROLLREJ
  else s.puti f (old + roundEven ((d : Rat) / 8))

/-- HKC_CONVERSION_DONE (R246, R247): the running conversion ends with modulator code `k` (for a rolling calibration,
the new measurement of the offset or gain). -/
def hkcDone (k : Int) (s : State) : State :=
  let h := s.hkc
  if h.conv = 0 then s else
  let w := s.hkcEntry
  let s := { s with now := max s.now s.hkcEnd, hkc := { h with conv := 0 } }
  let gain := bitsOf w.toNat 6 5
  let input := bitsOf w.toNat 4 0
  let c := s.hkcCorrect gain k
  let eng := BitVec.ofNat 32 (unsignedOf 32 (roundEven (s.hkcValue input gain c.1 * 65536)))
  let s :=
    if h.conv = 1 then
      let e := s.get HKC_ST_ENTRY
      let res := hkcResult e c
      let s := if e < 16 then (s.wr (HKC_RES e) res).wr (HKC_ENG e) eng else s
      let s := if s.bit HKC_SEQCFG_RING then s.ringPut res else s
      if e + 1 < s.get HKC_SEQCFG_LEN then s.put HKC_ST_ENTRY (e + 1)
      else
        let p := if s.bit HKC_CTRL_ROLL then s.hkc.passes + 1 else 0
        let roll := s.bit HKC_CTRL_ROLL && decide (s.get HKC_ROLL_ROLLN ≤ p)
        { s with hkc := { s.hkc with passes := if roll then 0 else p, rollDue := s.hkc.rollDue || roll } }.put HKC_ST_ENTRY 0
    else if h.conv = 2 then
      let s := (s.wr (HKC_IRES h.idx) (hkcResult h.idx c)).wr (HKC_IENG h.idx) eng
      if h.idx + 1 < s.get HKC_SEQCFG_ILEN then { s with hkc := { s.hkc with idx := h.idx + 1 } }
      else { s with hkc := { s.hkc with injRun := false, idx := 0 } }.flag HKC_ST_INJ h.injPend.isSome
    else s.hkcRoll k
  if s.bit HKC_ST_STOPPING then s.hkcStopped
  else (s.put HKC_ST_BUSY 0).hkcNext
def execHkcConversionDone (k : Int) (s : State) : Out := live s (hkcDone k)

/-- RIDX_WRITE (R251): taken when 0 ≤ new − RIDX ≤ WIDX − RIDX; a waiting sequence resumes. -/
def ridxWrite (v : Word) (s : State) : State :=
  let r := s.get HKC_RIDX_V
  let d := signedOf 32 (v.toNat + 2 ^ 32 - r)
  let m := signedOf 32 (s.get HKC_WIDX_V + 2 ^ 32 - r)
  if 0 ≤ d ∧ d ≤ m then (s.wr HKC_RIDX v).hkcNext else s.put HKC_ST_RIDXERR 1
def execRidxWrite (v : Word) (s : State) : Out := live s (ridxWrite v)

/-- Configuration writes are open: stopped and no calibration (11_converters.md, HKC registers). -/
def State.hkcStoppedNow (s : State) : Bool := !s.bit HKC_CTRL_RUN && !s.bit HKC_ST_STOPPING && !s.bit HKC_CAL_BUSY

/-- HKC_REF_WRITE (R252): a change clears REF_SETTLED and marks the calibration stale. -/
def hkcRefWrite (v : Word) (s : State) : State :=
  let mv := fieldOf v HKC_REF_REFMV
  if s.hkcStoppedNow ∧ fieldOf v HKC_REF_SEL < 3 ∧ 1000 ≤ mv ∧ mv ≤ 2500 then
    let v := v &&& 0xFFFF0003#32
    if v = s.rd HKC_REF then s
    else (({ s with hkc := { s.hkc with refAt := s.now } }.wr HKC_REF v).put HKC_ST_REFSETTLED 0).put HKC_CAL_STALE 1
  else s.put HKC_ST_REFUSED 1
def execHkcRefWrite (v : Word) (s : State) : Out := live s (hkcRefWrite v)

/-- Start a self-calibration of eight conversions of 6 ms (R253). -/
def State.hkcCalStart (s : State) : State :=
  ({ s with hkc := { s.hkc with calAt := s.now } }.put HKC_CAL_BUSY 1).put HKC_ST_BUSY 1

/-- REF_SETTLED (R252, R253): the reference has settled, REFIN and VDDA after 100 µs; the calibration of this power-up
starts the first time. -/
def refSettled (s : State) : State :=
  if s.bit HKC_ST_REFSETTLED then s else
  let s := if s.get HKC_REF_SEL = 0 then s else { s with now := max s.now (s.hkc.refAt + 100000) }
  let s := s.put HKC_ST_REFSETTLED 1
  if s.hkc.autoCal then s.hkcNext else { s with hkc := { s.hkc with autoCal := true } }.hkcCalStart
def execRefSettled (s : State) : Out := live s refSettled

/-- HKC_CAL_GO (R253, R257): taken when RUN = 0 and REF_SETTLED = 1; a GO while stopping or calibrating is refused. -/
def hkcCalGo (s : State) : State :=
  if s.hkcStoppedNow ∧ s.bit HKC_ST_REFSETTLED then s.hkcCalStart else s.put HKC_ST_REFUSED 1
def execHkcCalGo (s : State) : Out := live s hkcCalGo

/-- A calibration result is stored when the offset lies within ±1 % of full scale and the gain within 0.97 to 1.03. -/
def calRangeOk (ofs gain : Int) : Bool :=
  decide (100 * ofs.natAbs ≤ 8388608 ∧ 97 * 1073741824 ≤ 100 * gain ∧ 100 * gain ≤ 103 * 1073741824)

/-- HKC_CALIBRATION_DONE (R253, R257): the measured offset and gain (2.30) of each range 0 to 3. A result outside its limits
is not stored, sets FAIL and names its range; DONE, FAIL and STALE speak of the calibration that has just ended. -/
def hkcCalDone (res : Fin 4 → Int × Int) (s : State) : State :=
  if !s.bit HKC_CAL_BUSY then s else
  let s := { s with now := max s.now (s.hkc.calAt + 48000000) }
  let s := (s.put HKC_CAL_BUSY 0).put HKC_ST_BUSY 0
  let bad := (List.finRange 4).filter (fun r => !calRangeOk (res r).1 (res r).2)
  let mask : Nat := (bad.map (fun r => 2 ^ r.val)).sum
  let s := s.each (List.finRange 4) (fun r t =>
    if calRangeOk (res r).1 (res r).2 then (t.puti (HKC_CALOFS_V r.val) (res r).1).puti (HKC_CALGAIN_V r.val) (res r).2 else t)
  let s := s.put HKC_CAL_FAILRANGE mask
  (((s.flag HKC_CAL_DONE (mask == 0)).flag HKC_CAL_FAIL (mask != 0)).put HKC_CAL_STALE 0).hkcNext
def execHkcCalibrationDone (o0 g0 o1 g1 o2 g2 o3 g3 : Int) (s : State) : Out :=
  live s (hkcCalDone (fun r => match r.val with | 0 => (o0, g0) | 1 => (o1, g1) | 2 => (o2, g2) | _ => (o3, g3)))

/-- A housekeeping configuration register (R255 to R257). -/
def hkcCfgReg (a : Nat) : Bool :=
  a == HKC_SEQCFG || a == HKC_RBASE || a == HKC_RSIZE || a == HKC_ITRIG ||
  (decide (HKC_CALOFS 0 ≤ a ∧ a < HKC_CALOFS 4) && a % 4 == 0) || (decide (HKC_CALGAIN 0 ≤ a ∧ a < HKC_CALGAIN 4) && a % 4 == 0) ||
  (decide (HKC_SEQ 0 ≤ a ∧ a < HKC_SEQ 32) && a % 4 == 0) || (decide (HKC_ISEQ 0 ≤ a ∧ a < HKC_ISEQ 4) && a % 4 == 0)

/-- The ring lies whole and aligned in its part of cell memory (R250). -/
def ringOk (base size : Nat) : Bool :=
  decide (8 ≤ size ∧ size ≤ 14 ∧ 0x600000 ≤ base ∧ base % (4 * 2 ^ size) = 0 ∧ base + 4 * 2 ^ size ≤ 0x660000)

/-- Every field of a configuration write is allowed (R247, R250, R255 to R257). -/
def State.hkcValueOk (s : State) (a : Nat) (v : Word) : Bool :=
  if a = HKC_SEQCFG then
    decide (fieldOf v HKC_SEQCFG_ILEN ≤ 4 ∧ fieldOf v HKC_SEQCFG_LEN ≤ 32 ∧ (16 < fieldOf v HKC_SEQCFG_LEN → fieldOf v HKC_SEQCFG_RING = 1))
  else if a = HKC_RBASE then ringOk v.toNat (s.get HKC_RSIZE_RSIZE)
  else if a = HKC_RSIZE then ringOk (s.get HKC_RBASE_V) (fieldOf v HKC_RSIZE_RSIZE)
  else if a = HKC_ITRIG then decide (fieldOf v HKC_ITRIG_SRC ≤ 3)
  else if a < HKC_SEQ 0 then true
  else
    let input := bitsOf v.toNat 4 0
    decide (input < 24 ∧ (8 ≤ input → bitsOf v.toNat 6 5 = 0))

/-- The bits of a configuration register that hold a field. -/
def hkcMask (a : Nat) : Word :=
  if a = HKC_SEQCFG then 0x700033F else if a = HKC_RSIZE then 0xF else if a = HKC_ITRIG then 0x7FFFFF7F
  else if a < HKC_SEQ 0 then 0xFFFFFFFF else 0x77F

/-- HKC_CONFIG_WRITE (R255): a write to a configuration register other than HKC_REF. -/
def hkcConfigWrite (a : Nat) (v : Word) (s : State) : State :=
  if s.hkcStoppedNow ∧ s.hkcValueOk a v then s.wr a (v &&& hkcMask a) else s.put HKC_ST_REFUSED 1
def execHkcConfigWrite (off : Fin 1024) (v : Word) (s : State) : Out :=
  live s (fun s => if hkcCfgReg (0x288000 + 4 * off.val) then hkcConfigWrite (0x288000 + 4 * off.val) v s else s)

end Sys2Proof.Machine
end

