-- ==== Sys2Proof/Machine/FeedbackPorts.lean ====
section
/-! DEFINITION. Feedback, step and capture ports (12_feedback_ports.md, R259 to R274): counts, positions and velocities,
the capture records, and the position-compare outputs. -/
namespace Sys2Proof.Machine

/-! ### Level filters (R259, R260) -/

/-- Input `i` shows level `x` behind a filter of `n` clocks. It is accepted as a change when the present level has lasted
long enough for a new one to have been stable for `n` clocks of 5 ns since (R260); an earlier one is a glitch and is
ignored. -/
def State.lineTakes (s : State) (i n : Nat) (x : Bool) : Bool :=
  let l := s.line i
  x != l.lvl && (l.at_ == 0 || decide (l.at_ - 1 + n * 5 ≤ s.now))
/-- The line after it shows level `x` (R260). -/
def State.lineSet (s : State) (i n : Nat) (x : Bool) : State :=
  if s.lineTakes i n x then s.setLine i ⟨x, s.now + 1⟩ else s

/-- The lines of port `p` show levels `a`, `b` and `z`; LEVELS follows those accepted, in every mode (R260, R267). -/
def State.fbLevels (s : State) (p : Nat) (a b z : Bool) : State :=
  let n := fieldOf (s.rdStart (FB_CFG p)) (FB_CFG_FILT p)
  let s := ((s.lineSet (4 * p) n a).lineSet (4 * p + 1) n b).lineSet (4 * p + 2) n z
  s.put (FB_ST_LEVELS p) ((if (s.line (4 * p)).lvl then 1 else 0) + (if (s.line (4 * p + 1)).lvl then 2 else 0) +
    (if (s.line (4 * p + 2)).lvl then 4 else 0))

/-- FBp_CLK (R259, R263): driven low in modes 1 and 2; in mode 3 the clock of the frame, BITS + 1 periods that each begin
with the falling edge, and high between frames (DEDUCED, notes/assumptions/81); no use in mode 0. -/
def State.fbClk (s : State) (p : Nat) : PinLevel :=
  let mode := s.get (FB_CFG_MODE p)
  if mode = 1 ∨ mode = 2 then .low
  else if mode = 3 then
    let half := s.get (FB_SSI_CLKDIV p) * 5
    let k := (s.now - s.tickAt) / half
    if (s.fb p).busy && decide (k < 2 * (s.get (FB_SSI_BITS p) + 1)) && k % 2 == 0 then .low else .high
  else .released

/-! ### Positions and velocities (R62, R264) -/

/-- AUNUM / AUDEN of a port. -/
def State.fbRatio (s : State) (p : Nat) : Rat := (s.geti (FB_AUNUM_V p) : Rat) / (s.get (FB_AUDEN_V p) : Nat)
/-- Feedback position in au, without rebase (R264). -/
def State.fbPos (s : State) (p : Nat) : Int :=
  if s.get (FB_AUDEN_V p) = 0 then 0 else s.geti (FB_CNT_V p) * s.geti (FB_AUNUM_V p) / (s.get (FB_AUDEN_V p) : Int)
/-- E of R264. -/
def State.fbE (s : State) (p : Nat) : Nat := 2 ^ s.get (FB_CFG_SPDAVG p)

/-- Velocity at cell time `t`, au per tick, and whether it rests on a measured interval (R264). -/
def State.fbSpeed (s : State) (p t : Nat) : Rat × Bool :=
  let f := s.fb p
  let mode := s.get (FB_CFG_MODE p)
  let r := s.fbRatio p
  let sgn : Rat := if f.up then 1 else -1
  if mode = 3 then (if f.frames < 2 then (0, false) else ((f.step : Rat) * r, true))
  else
    let ts := f.times.map (· / 5 * 5)
    let e := min (s.fbE p) (ts.length - 1)
    match ts with
    | [] => (0, false)
    | t0 :: _ =>
      if e = 0 then (0, false)
      else
        let tE : Nat := t0 - ts.getD e 0
        let tx : Nat := t / 5 * 5 - t0
        if max (s.get (FB_CFG_SPDTMO p)) 1 * 1000000 < tx then (0, false)
        else if tE < tx * e then (sgn * r * (s.period : Nat) / (tx : Nat), true)
        else if tE = 0 then (0, false)
        else (sgn * (e : Nat) * r * (s.period : Nat) / (tE : Nat), true)
/-- Velocity in 32.32 au per tick. -/
def State.fbVel (s : State) (p t : Nat) : Int := ratToFix (s.fbSpeed p t).1
def State.fbSpdOk (s : State) (p t : Nat) : Bool := (s.fbSpeed p t).2

/-- The feedback position of a slot, rebase included (R264, R47). -/
def State.slotFbPos (s : State) (n : Nat) : Int :=
  if s.bit (AX_BIND_FBEN n) then s.fbPos (s.get (AX_BIND_FBPORT n)) + s.geti (AX_REBASE_V n) else 0
/-- The feedback velocity of a slot, 32.32. -/
def State.slotFbVel (s : State) (n t : Nat) : Int :=
  if s.bit (AX_BIND_FBEN n) then s.fbVel (s.get (AX_BIND_FBPORT n)) t else 0
/-- Port `p` is about to change its count: what it held before this cycle is kept (R274). -/
def State.fbKeep (s : State) (p : Nat) : State :=
  let f := s.fb p
  if f.old.any (fun o => o.cycle == s.cycle) then s
  else s.setFb p { f with old := some ⟨s.cycle, s.rd64 (FB_CNT p), f.times, f.up, f.step, f.frames⟩ }
/-- Port `p` as a snapshot at cell time `t` finds it: a count that becomes available in that cycle is not in it (R274). -/
def State.fbAsOf (s : State) (p t : Nat) : State :=
  match (s.fb p).old with
  | some o =>
    if t / 5 ≤ o.cycle then
      (s.setFb p { s.fb p with times := o.times, up := o.up, step := o.step, frames := o.frames }).wr64 (FB_CNT p) o.cnt
    else s
  | none => s
/-- Bits of rdf sel 4 (R165). -/
def State.slotFbStatus (s : State) (n t : Nat) : Nat :=
  let p := s.get (AX_BIND_FBPORT n)
  if s.bit (AX_BIND_FBEN n) then 1 + (if s.fbSpdOk p t then 2 else 0) + (if s.get (FB_CFG_MODE p) = 3 then 4 else 0) else 0

/-- The polynomial of R62 at time `t`: from T_N the values of the tick that runs, before it those of the tick before. -/
def State.commanded (s : State) (n : Nat) (t : Int) : Rat :=
  let g := s.gen n
  let P := s.period
  let (m, t0) : Motion × Int := if t < s.tickAt then ({ g.prevRun with p := g.prevP }, (s.tickAt : Int) - P) else ({ g.run with p := g.m.p }, (s.tickAt : Int))
  let x : Rat := ((t - t0 : Int) : Rat) / (P : Nat)
  fixToRat m.p + fixToRat m.v * x + fixToRat m.a * x * x / 2 + fixToRat m.j * x * x * x / 6

/-- A slot's position at cell time `t` by its CAPSRC, whole au (R62). -/
def State.capturedPos (s : State) (n : Nat) (t : Int) : Int :=
  if s.kind n = 0 then 0
  else if s.bit (AX_MCFG_CAPSRC n) then s.slotFbPos n
  else (s.commanded n t).floor

/-! ### Counting (R261 to R263) -/

/-- The slots bound to port `p`. -/
def State.portSlots (s : State) (p : Nat) : List Nat :=
  slots16.filter (fun n => s.bit (AX_BIND_FBEN n) && s.get (AX_BIND_FBPORT n) == p)
/-- A slot bound to the port is energised (R267). -/
def State.portUsed (s : State) (p : Nat) : Bool := (s.portSlots p).any s.energised

/-- Each armed compare output that watches a count of port `p` remembers the position before it (R272). -/
def State.watchCount (s : State) (p : Nat) : State :=
  s.each (List.range 4) (fun q t =>
    let n := t.get (PCO_CFG_SLOT q)
    if (t.portSlots p).contains n then t.setPco q { t.pco q with prev := some (t.slotFbPos n), edgeAt := t.now } else t)

/-- One count up or down at the present cell time (R261, R262). The interval of the first count after a reversal is
discarded (R264). A Z latch of the same accepted sample holds the new count (R274). -/
def State.fbCount (s : State) (p : Nat) (up : Bool) : State :=
  let s := (s.watchCount p).fbKeep p
  let f := s.fb p
  let times := if f.times = [] ∨ f.up = up then (s.now :: f.times).take 5 else [s.now]
  let s := s.setFb p { f with up := up, times := times }
  let s := (s.puti (FB_CNT_V p) (s.geti (FB_CNT_V p) + (if up then 1 else -1))).flag (FB_ST_DIR p) (up == Config.freeBit 0)
  if f.zAt = s.now + 1 then s.wr64 (FB_ZCNT p) (s.rd64 (FB_CNT p)) else s

/-- One quadrature step from levels (a0, b0) to (a, b): up when A leads B. -/
def quadUp (a0 a b : Bool) : Bool := if a ≠ a0 then a != b else a == b

/-- QUADRATURE_COUNT (R261): A and B show levels `a` and `b`. Each accepted edge counts; a change of both in one accepted
sample is not counted. The configuration is that before this cycle (R274). -/
def quadratureCount (p : Nat) (a b : Bool) (s : State) : State :=
  let cfg := s.rdStart (FB_CFG p)
  let a0 := (s.line (4 * p)).lvl
  let b0 := (s.line (4 * p + 1)).lvl
  let s := s.fbLevels p a b (s.line (4 * p + 2)).lvl
  let a := (s.line (4 * p)).lvl
  let b := (s.line (4 * p + 1)).lvl
  if fieldOf cfg (FB_CFG_MODE p) ≠ 1 ∨ (a0 != a) = (b0 != b) then s
  else s.fbCount p (quadUp a0 a b != (fieldOf cfg (FB_CFG_DIRINV p) == 1))
def execQuadratureCount (p : Fin 8) (a b : Bool) (s : State) : Out := live s (quadratureCount p.val a b)

/-- Z_LATCH (R261): Z shows level `z`; with ZLAT = 1 an accepted rising edge copies the count. -/
def zLatch (p : Nat) (z : Bool) (s : State) : State :=
  let cfg := s.rdStart (FB_CFG p)
  let z0 := (s.line (4 * p + 2)).lvl
  let s := s.fbLevels p (s.line (4 * p)).lvl (s.line (4 * p + 1)).lvl z
  if fieldOf cfg (FB_CFG_MODE p) = 1 ∧ !z0 ∧ (s.line (4 * p + 2)).lvl ∧ fieldOf cfg (FB_CFG_ZLAT p) = 1 then
    ((s.wr64 (FB_ZCNT p) (s.rd64 (FB_CNT p))).put (FB_ST_ZSEEN p) 1).setFb p { s.fb p with zAt := s.now + 1 }
  else s
def execZLatch (p : Fin 8) (z : Bool) (s : State) : Out := live s (zLatch p.val z)

/-- The place of a valid magnetic-switch state in the cycle of six; U is bit 0, V bit 1, W bit 2. -/
def uvwPlace (x : Nat) : Option Nat :=
  match x with | 1 => some 0 | 3 => some 1 | 2 => some 2 | 6 => some 3 | 4 => some 4 | 5 => some 5 | _ => none

/-- MAGNETIC_SWITCH_COUNT (R262): U, V and W show levels `u`, `v` and `w`. A change to an adjacent valid state counts. A
change to a non-adjacent state, to 000 or to 111 is not counted, and the state before it stays the one to which the next
valid state is relative; from that one counting resumes (DEDUCED, notes/assumptions/82). -/
def magneticCount (p : Nat) (u v w : Bool) (s : State) : State :=
  let cfg := s.rdStart (FB_CFG p)
  let s := s.fbLevels p u v w
  let x := s.get (FB_ST_LEVELS p)
  let f := s.fb p
  let inv := fieldOf cfg (FB_CFG_DIRINV p) == 1
  if fieldOf cfg (FB_CFG_MODE p) ≠ 2 ∨ x = f.uvw then s
  else match uvwPlace x, uvwPlace f.uvw with
    | none, _ => s.setFb p { f with jump := true }
    | some _, none => s.setFb p { f with uvw := x, jump := false }
    | some k, some k0 =>
      let s' := s.setFb p { f with uvw := x, jump := false }
      if k = (k0 + 1) % 6 then s'.fbCount p (!inv)
      else if k0 = (k + 1) % 6 then s'.fbCount p inv
      else if f.jump then s'
      else s.setFb p { f with jump := true }
def execMagneticSwitchCount (p : Fin 8) (u v w : Bool) (s : State) : Out := live s (magneticCount p.val u v w)

/-- Gray code of at most 64 bits to binary. -/
def grayToBin (x : Nat) : Nat :=
  let x := x ^^^ (x / 2)
  let x := x ^^^ (x / 4)
  let x := x ^^^ (x / 16)
  let x := x ^^^ (x / 256)
  let x := x ^^^ (x / 65536)
  x ^^^ (x / 4294967296)

/-- CFGERR of a port (R263). -/
def State.fbCfgErr (s : State) (p : Nat) : Bool :=
  s.get (FB_CFG_MODE p) == 3 && decide (s.period < (s.get (FB_SSI_BITS p) + 1) * (2 * s.get (FB_SSI_CLKDIV p) * 5) + 20000)

/-- SSI_FRAME_START (R263): at every cell tick instant. -/
def State.ssiStart (s : State) (p : Nat) : State :=
  if s.get (FB_CFG_MODE p) = 3 ∧ !s.bit (FB_ST_CFGERR p) then s.setFb p { s.fb p with busy := true } else s

/-- POSITION_CONFIRM (R399): a restored slot on a multi-turn SSI port takes the feedback position at the first frame. -/
def State.confirm (s : State) (n : Nat) : State :=
  if fieldOf (s.rdBefore (AX_RESTORE n) 1) (AX_RESTORE_POSITIONASSUMED n) = 1 ∧ !s.bit (AX_RESTORE_CONFIRMED n) then
    let fb := s.slotFbPos n
    let old := s.geti (AX_SP_POS_V n)
    let q := fb * 2 ^ 32
    let s := s.modGen n (fun g => { g with m := { g.m with p := q }, run := { g.run with p := q }, nxt := { g.nxt with p := q }
                                           prevP := q, prevRun := { g.prevRun with p := q } })
    let s := (s.puti (AX_RSTDIFF_V n) (fb - old)).puti (AX_SP_POS_V n) fb
    (s.put (AX_RESTORE_POSITIONASSUMED n) 0).put (AX_RESTORE_CONFIRMED n) 1
  else s

/-- SSI_FRAME_DONE (R263, R399): the frame that runs ends with data bits `raw`; the count is available 100 ns after the
last clock. -/
def ssiFrameDone (p raw : Nat) (s : State) : State :=
  let f := s.fb p
  if s.get (FB_CFG_MODE p) ≠ 3 ∨ !f.busy then s else
  let bits := s.get (FB_SSI_BITS p)
  let x := raw % 2 ^ bits
  let bin := if s.bit (FB_SSI_GRAY p) then grayToBin x else x
  let s := { s with now := max s.now (s.tickAt + (bits + 1) * (2 * s.get (FB_SSI_CLKDIV p) * 5) + 100) }
  let s := ((s.wr64 (FB_SSIRAW p) bin).watchCount p).fbKeep p
  let f := s.fb p
  let inv : Int := if s.bit (FB_CFG_DIRINV p) then -1 else 1
  if f.first then
    let v : Int := if s.get (FB_SSI_MT p) = 0 then (bin : Int) else signedOf bits bin
    let s := (s.puti (FB_CNT_V p) (inv * v)).setFb p { f with busy := false, first := false, raw := bin, step := 0, frames := 1 }
    if 1 ≤ s.get (FB_SSI_MT p) then s.each (s.portSlots p) (fun n t => t.confirm n) else s
  else
    let d := inv * signedOf bits (bin + 2 ^ bits - f.raw)
    let s := s.setFb p { f with busy := false, raw := bin, step := d, frames := 2, up := decide (0 < d) || (f.up && d == 0) }
    let s := if d = 0 then s else s.flag (FB_ST_DIR p) (decide (0 < d) == Config.freeBit 0)
    s.puti (FB_CNT_V p) (s.geti (FB_CNT_V p) + d)
def execSsiFrameDone (p : Fin 8) (raw : Nat) (s : State) : Out := live s (ssiFrameDone p.val raw)

/-! ### Configuration of a port (R266, R267) -/

/-- Every field holds an allowed value. -/
def fbValueOk (p : Nat) (r : FbReg) (v : Word) : Bool :=
  match r with
  | .cfg => decide (fieldOf v (FB_CFG_MODE p) ≤ 3 ∧ fieldOf v (FB_CFG_SPDAVG p) ≤ 2)
  | .aunum => true
  | .auden => v != 0
  | .ssi =>
    let b := fieldOf v (FB_SSI_BITS p)
    decide (10 ≤ fieldOf v (FB_SSI_CLKDIV p) ∧ fieldOf v (FB_SSI_CLKDIV p) ≤ 1000 ∧ 8 ≤ b ∧ b ≤ 48 ∧ fieldOf v (FB_SSI_MT p) ≤ b - 1)

/-- FB_CONFIG_WRITE (R267): a change of MODE sets the count to zero and clears SPDOK. -/
def fbConfigWrite (p : Nat) (r : FbReg) (v : Word) (s : State) : State :=
  if !fbValueOk p r v || s.portUsed p then s.put (FB_ST_REFUSED p) 1
  else
    let s := match r with
      | .cfg =>
        let change := decide (fieldOf v (FB_CFG_MODE p) ≠ s.get (FB_CFG_MODE p))
        let s := s.wrNoted (FB_CFG p) (v &&& 0x3FFFF07#32)
        if change then (s.wr64 (FB_CNT p) 0).setFb p { uvw := s.get (FB_ST_LEVELS p) } else s
      | .aunum => s.wr (FB_AUNUM p) v
      | .auden => s.wr (FB_AUDEN p) v
      | .ssi => s.wr (FB_SSI p) (v &&& 0xFFC07F3F#32)
    s.flag (FB_ST_CFGERR p) (s.fbCfgErr p)
def execFbConfigWrite (p : Fin 8) (r : FbReg) (v : Word) (s : State) : Out := live s (fbConfigWrite p.val r v)

/-! ### Step inputs and outputs (R268, R269) -/

/-- What one accepted edge of step input `i` counts: on STP, or with `onDir` on DIR; `dir` is the filtered DIR level and
`cfg` its configuration (R268). -/
def stepCount (i : Nat) (cfg : Word) (onDir rising dir : Bool) : Int :=
  let mode := fieldOf cfg (SI_CFG_MODE i)
  let active := rising != (fieldOf cfg (SI_CFG_EDGE i) == 1)
  let c : Int :=
    if mode = 1 then (if onDir || !active then 0 else if dir then 1 else -1)
    else if mode = 2 then (if !active then 0 else if onDir then -1 else 1)
    else 0
  if fieldOf cfg (SI_CFG_DIRINV i) = 1 then -c else c

/-- STEP_INPUT_PULSE (R268, R56): an edge comes on STP, or with `onDir` on DIR, `rising` or falling, with DIR at level
`dir` when it comes on STP. Both lines pass the filter of R260. Slots in HOLD or RUN that follow the input count what it
counts. -/
def stepInputPulse (i : Nat) (onDir rising dir : Bool) (s : State) : State :=
  let cfg := s.rdStart (SI_CFG i)
  let n := fieldOf cfg (SI_CFG_FILT i)
  let s := if onDir then s else s.lineSet (33 + 2 * i) n dir
  let l := if onDir then 33 + 2 * i else 32 + 2 * i
  let edge := s.lineTakes l n rising
  let s := s.lineSet l n rising
  let d := (s.line (33 + 2 * i)).lvl
  let s := s.flag (SI_ST_DIR i) d
  let c := if edge then stepCount i cfg onDir rising d else 0
  if c = 0 then s
  else
    (s.puti (SI_CNT_V i) (s.geti (SI_CNT_V i) + c)).each slots16 (fun n t =>
      if t.get (AX_MCFG_SRC n) == 1 && t.get (AX_GEAR_CTRL_SISEL n) == i && (t.slotState n == stHold || t.slotState n == stRun) then
        t.modGen n (fun g => { g with gearCount := g.gearCount + c }) else t)
def execStepInputPulse (i : Fin 8) (onDir rising dir : Bool) (s : State) : Out := live s (stepInputPulse i.val onDir rising dir)

/-- SI_CFG_WRITE (R268). -/
def siCfgWrite (i : Nat) (v : Word) (s : State) : State :=
  let used := slots16.any (fun n => s.get (AX_MCFG_SRC n) == 1 && s.get (AX_GEAR_CTRL_SISEL n) == i &&
    (s.slotState n == stHold || s.slotState n == stRun))
  if fieldOf v (SI_CFG_MODE i) = 3 ∨ used then s.put (SI_ST_REFUSED i) 1 else s.wrNoted (SI_CFG i) (v &&& 0x3F0F#32)
def execSiCfgWrite (i : Fin 8) (v : Word) (s : State) : Out := live s (siCfgWrite i.val v)

/-- SO_CFG_WRITE (R269). -/
def soCfgWrite (o : Nat) (v : Word) (s : State) : State :=
  let used := slots16.any (fun n => s.isRemote n && s.get (AX_BIND_SOUT n) == o && decide (stIdle < s.slotState n))
  let dsu := fieldOf v (SO_CFG_DSU o)
  if used ∨ dsu < 25 then s.put (SO_ST_REFUSED o) 1 else s.wr (SO_CFG o) (v &&& 0xFF0E#32)
def execSoCfgWrite (o : Fin 8) (v : Word) (s : State) : Out := live s (soCfgWrite o.val v)

/-- The REMOTE slot whose step output is `o`. -/
def State.stepSlot (s : State) (o : Nat) : Option Nat := slots16.find? (fun n => s.isRemote n && s.get (AX_BIND_SOUT n) == o)
/-- Step output `o` is enabled: its slot is in HOLD or RUN and nothing holds it (R198, R269). -/
def State.stepEnabled (s : State) (o : Nat) : Bool :=
  match s.stepSlot o with
  | some n => s.stepsOn n
  | none => false
/-- A pulse of step output `o` lasts at the present cell time (R198). -/
def State.stepPulseOn (s : State) (o : Nat) : Bool :=
  match s.stepSlot o with
  | some n =>
    let g := s.gen n
    s.stepEnabled o && (List.range g.sched).any (fun i =>
      decide (s.stepTime g i ≤ s.now ∧ s.now < s.stepTime g i + s.get (SOG_CFG_PW o) * 4))
  | none => false
/-- The direction level of step output `o` (R199, R269): that of its slot's steps, or the inactive one; DIRINV inverts it. -/
def State.stepDirLevel (s : State) (o : Nat) : Bool :=
  (match s.stepSlot o with
  | some n => s.stepEnabled o && (s.gen n).stepDir
  | none => false) != s.bit (SO_CFG_DIRINV o)
/-- A level on the balls of step output `o`: an open-drain output releases the high one (R269); in reset the ball is
released (R436, R461). -/
def State.soLevel (s : State) (o : Nat) (high : Bool) : PinLevel :=
  if s.power = .inReset then .released
  else if !high then .low else if s.bit (SO_CFG_OD o) then .released else .high
/-- SOs_STP (R269): active during a pulse, high or with STPINV low; inactive outside HOLD and RUN. -/
def State.stpPin (s : State) (o : Nat) : PinLevel := s.soLevel o (s.stepPulseOn o != s.bit (SO_CFG_STPINV o))
/-- SOs_DIR (R269). -/
def State.dirPin (s : State) (o : Nat) : PinLevel := s.soLevel o (s.stepDirLevel o)

/-! ### Capture inputs (R270, R271) -/

/-- The filter delay of R260 in ns. -/
def filterDelay (n : Nat) : Nat := (n + 2) * 5

/-- HELD was set before this cycle, and a RELEASE of this cycle cleared it (R274). -/
def State.capHeldAtStart (s : State) (k : Nat) : Bool := fieldOf (s.rdBefore (CAP_CTRL k) 2) (CAP_CTRL_HELD k) == 1

/-- A capture time for an edge at the ball at `t`: within ±8 ns of it (R270), the same for every input with that edge
(R274). -/
def captureTime (t : Int) : Int := t + ((Config.captureError t).toNat % 17 : Nat) - 8

/-- CAPTURE_EDGE (R270): capture input `k` shows a rising or falling edge. One that its filter accepts and EDGE selects
latches a record whole, or counts in MISS. The configuration, and HELD, are those before this cycle (R274). -/
def captureEdge (k : Nat) (rising : Bool) (s : State) : State :=
  let cfg := s.rdStart (CAP_CFG k)
  let n := fieldOf cfg (CAP_CFG_FILT k)
  let sel := fieldOf cfg (CAP_CFG_EDGE k)
  let edge := s.lineTakes (48 + k) n rising
  let s := s.lineSet (48 + k) n rising
  if !edge || !(if rising then sel % 2 == 1 else decide (2 ≤ sel)) then s else
  let last := tabGet (fun _ => 0) s.capAt k
  let lock := fieldOf cfg (CAP_CFG_LOCK k) == 1
  if (last ≠ 0 ∧ s.now < last - 1 + 100) ∨ (lock ∧ (s.bit (CAP_CTRL_HELD k) ∨ s.capHeldAtStart k)) then s.inc (CAP_MISS_V k)
  else
    let t := captureTime ((s.now : Int) - filterDelay n)
    let s := ({ s with capAt := tabPut s.capAt k (s.now + 1) }.wr64 (CAP_TIME k) (unsignedOf 64 t)).inc (CAP_CTRL_COUNT k)
    let s := if lock then s.put (CAP_CTRL_HELD k) 1 else s
    s.each slots16 (fun n u => u.wr64 (CAP_POS k n) (unsignedOf 64 (u.capturedPos n t)))
def execCaptureEdge (k : Fin 8) (rising : Bool) (s : State) : Out := live s (captureEdge k.val rising)

/-- RELEASE (R271); an edge of the same cycle still finds the record held (R274). -/
def capRelease (k : Nat) (s : State) : State := (s.noteSet (CAP_CTRL k) 2).put (CAP_CTRL_HELD k) 0
/-- A write to CAPk_CFG; an edge of the same cycle is judged by the word before (R271, R274). -/
def capCfgWrite (k : Nat) (v : Word) (s : State) : State := s.wrNoted (CAP_CFG k) (v &&& 0x3F0B#32)
def execRelease (k : Fin 8) (s : State) : Out := live s (capRelease k.val)

/-! ### Position-compare outputs (R272, R273) -/

/-- A crossing of `pos` from position `a` to `b` in direction 0 rising, 1 falling, 2 either (R272). -/
def crosses (dir : Nat) (pos : Int) (a b : Rat) : Bool :=
  (dir != 1 && decide (a < pos ∧ (pos : Rat) ≤ b)) || (dir != 0 && decide ((pos : Rat) < a ∧ b ≤ pos))

/-- A crossing is found for output `q` at cell time `t`: with CAPSRC = 0 the polynomial crosses between the 4 ns grid
instant before `t`, not before the arming, and `t`; with CAPSRC = 1 the latest count edge makes it, at most 40 ns before `t`, at its own time. -/
def State.pcoCrossing (s : State) (q t : Nat) : Bool :=
  let n := s.get (PCO_CFG_SLOT q)
  let pos := s.geti (PCO_POS_V q)
  let dir := s.get (PCO_CFG_DIR q)
  if s.bit (AX_MCFG_CAPSRC n) then
    match (s.pco q).prev with
    | some a => decide ((s.pco q).edgeAt ≤ t ∧ t ≤ (s.pco q).edgeAt + 40) && crosses dir pos a (s.slotFbPos n)
    | none => false
  else
    s.tickLeft && decide (t % 4 = 0 ∧ s.tickAt ≤ t ∧ t < s.tickAt + s.period ∧ s.kind n ≠ 0) &&
      crosses dir pos (s.commanded n (max ((s.pco q).armedAt : Int) ((t : Int) - 4))) (s.commanded n t)

/-- Output `q` fires at `t` (R272): the pulse begins, and without REPEAT, or with LEFT counted down from 1, it disarms. -/
def State.pcoPulse (s : State) (q t : Nat) : State :=
  let s := s.setPco q { s.pco q with endAt := t + s.get (PCO_CFG_PWIDTH q) * 20, fired := true }
  let s := ((s.put (PCO_CTRL_ACTIVE q) 1).wr64 (PCO_FTIME q) t).inc (PCO_FIRES_V q)
  let l := s.get (PCO_LEFT_V q)
  if !s.bit (PCO_CFG_REPEAT q) then s.put (PCO_CTRL_ARMED q) 0
  else if l = 0 then s
  else
    let s := s.put (PCO_LEFT_V q) (l - 1)
    if l = 1 then s.put (PCO_CTRL_ARMED q) 0 else s

/-- PCOq (R273): high while active, or with POL = 1 low; released in reset (R436). -/
def State.pcoPin (s : State) (q : Nat) : PinLevel :=
  if s.power = .inReset then .released else if s.bit (PCO_CTRL_ACTIVE q) != s.bit (PCO_CFG_POL q) then .high else .low

/-- POS advances by STEP with REPEAT = 1. -/
def State.pcoAdvance (s : State) (q : Nat) : State :=
  if s.bit (PCO_CFG_REPEAT q) then s.puti (PCO_POS_V q) (s.geti (PCO_POS_V q) + s.geti (PCO_STEP_V q)) else s

/-- COMPARE_FIRE (R272): a crossing at cell time `t` fires, or counts in MISS while the output is active or within
100 ns after it. -/
def compareFire (q t : Nat) (s : State) : State :=
  if !s.bit (PCO_CTRL_ARMED q) ∨ !s.pcoCrossing q t then s else
  let s := { s with now := max s.now t }
  let x := s.pco q
  let s := s.setPco q { x with prev := none }
  if s.bit (PCO_CTRL_ACTIVE q) ∨ (x.fired ∧ t < x.endAt + 100) then (s.inc (PCO_MISS_V q)).pcoAdvance q
  else (s.pcoPulse q t).pcoAdvance q
def execCompareFire (q : Fin 4) (t : Nat) (s : State) : Out := live s (compareFire q.val t)

/-- COMPARE_PULSE_END (R272). -/
def comparePulseEnd (q : Nat) (s : State) : State :=
  if s.bit (PCO_CTRL_ACTIVE q) then { s with now := max s.now (s.pco q).endAt }.put (PCO_CTRL_ACTIVE q) 0 else s
def execComparePulseEnd (q : Fin 4) (s : State) : Out := live s (comparePulseEnd q.val)

/-- ARM (R272, R273): takes effect at the next cell tick instant. -/
def pcoArm (q : Nat) (s : State) : State :=
  let st := s.geti (PCO_STEP_V q)
  let dir := s.get (PCO_CFG_DIR q)
  if s.bit (PCO_CFG_REPEAT q) ∧ (st = 0 ∨ (dir = 0 ∧ st < 0) ∨ (dir = 1 ∧ 0 < st)) then s.put (PCO_CTRL_REFUSED q) 1
  else s.setPco q { s.pco q with armReq := true }
def execArm (q : Fin 4) (s : State) : Out := live s (pcoArm q.val)

/-- DISARM (R273). -/
def pcoDisarm (q : Nat) (s : State) : State := (s.setPco q { s.pco q with armReq := false, prev := none }).put (PCO_CTRL_ARMED q) 0
def execDisarm (q : Fin 4) (s : State) : Out := live s (pcoDisarm q.val)

/-- FORCE (R273, R274): fires now, with everything a fire does but the change of POS; refused while active. -/
def pcoForce (q : Nat) (s : State) : State :=
  if s.bit (PCO_CTRL_ACTIVE q) then s.put (PCO_CTRL_REFUSED q) 1 else s.pcoPulse q s.now
def execForce (q : Fin 4) (s : State) : Out := live s (pcoForce q.val)

/-- PCO_CONFIG_WRITE (R273): refused while armed, with PWIDTH = 0 and with DIR = 3. -/
def pcoConfigWrite (q : Nat) (r : PcoReg) (v : Word) (s : State) : State :=
  if s.bit (PCO_CTRL_ARMED q) then s.put (PCO_CTRL_REFUSED q) 1
  else match r with
    | .cfg =>
      if fieldOf v (PCO_CFG_PWIDTH q) = 0 ∨ fieldOf v (PCO_CFG_DIR q) = 3 then s.put (PCO_CTRL_REFUSED q) 1
      else s.wr (PCO_CFG q) (v &&& 0xFFFF00FF#32)
    | .pos high => s.wr (PCO_POS q + (if high then 4 else 0)) v
    | .step high => s.wr (PCO_STEP q + (if high then 4 else 0)) v
def execPcoConfigWrite (q : Fin 4) (r : PcoReg) (v : Word) (s : State) : Out := live s (pcoConfigWrite q.val r v)

/-- At a cell tick instant each requested ARM takes effect (R272). -/
def State.pcoTick (s : State) (q : Nat) : State :=
  if (s.pco q).armReq then (s.setPco q { s.pco q with armReq := false, armedAt := s.now, prev := none }).put (PCO_CTRL_ARMED q) 1 else s

end Sys2Proof.Machine
end

