-- ==== Sys2Proof/Machine/Numbers.lean ====
section
/-! DEFINITION. Sine, cosine, square root and arctangent as the engines and the factory routes use them: a rational
value close to the exact one, plus the part of the error that R155 bounds and does not fix, as a free value. -/
namespace Sys2Proof.Machine

/-- A free error of magnitude at most `b`. -/
def boundedError (b x : Rat) : Rat := max (-b) (min b (Config.approxError x))
/-- 2^−22, the error bound of R155. -/
def ulp22 : Rat := 1 / 4194304

/-- π to 10^−18. -/
def piR : Rat := 3141592653589793238 / 1000000000000000000
/-- √3 and 2 sin 36°, to 10^−15. -/
def sqrt3 : Rat := 1732050807568877 / 1000000000000000
def twoSin36 : Rat := 1175570504584946 / 1000000000000000

/-- Sums of the sine and cosine series: `x2` is x², `k` terms left, `j` the next factor. -/
def sinSeries (x2 : Rat) : Nat → Nat → Rat
  | 0, _ => 1
  | k + 1, j => 1 - x2 / (j * (j + 1) : Nat) * sinSeries x2 k (j + 2)

/-- x modulo m, for m > 0. -/
def ratMod (x m : Rat) : Rat := x - m * (x / m).floor

/-- Sine of an angle in [0, 16384] au. -/
def sinQuarter (a : Rat) : Rat := let x := a * piR / 32768; x * sinSeries (x * x) 10 2
/-- Cosine of an angle in [0, 16384] au. -/
def cosQuarter (a : Rat) : Rat := let x := a * piR / 32768; sinSeries (x * x) 10 1
/-- Sine of an angle in au. -/
def sinAu (a : Rat) : Rat :=
  let r := ratMod a 65536
  if r < 16384 then sinQuarter r else if r < 32768 then cosQuarter (r - 16384)
  else if r < 49152 then -sinQuarter (r - 32768) else -cosQuarter (r - 49152)
/-- Cosine of an angle in au. -/
def cosAu (a : Rat) : Rat := sinAu (a + 16384)

/-- Square root to 2^−32, rounded down. -/
def ratSqrt (x : Rat) : Rat := if x ≤ 0 then 0 else (isqrt (x * 18446744073709551616).floor.toNat : Nat) / (4294967296 : Rat)

/-- Arctangent of z in [0, 1], au: two halvings, then the series. -/
def atanSeries (z2 : Rat) : Nat → Nat → Rat
  | 0, j => 1 / (j : Nat)
  | k + 1, j => 1 / (j : Nat) - z2 * atanSeries z2 k (j + 2)
def halfTan (z : Rat) : Rat := z / (1 + ratSqrt (1 + z * z))
def atanUnit (z : Rat) : Rat := let h := halfTan (halfTan z); 4 * h * atanSeries (h * h) 8 1 * 32768 / piR
/-- The angle of the vector (x, y) in [0, 65536) au; 0 for (0, 0). -/
def atan2Au (y x : Rat) : Rat :=
  let ax := ratAbs x
  let ay := ratAbs y
  if ax = 0 ∧ ay = 0 then 0 else
  let a := if ay ≤ ax then atanUnit (ay / ax) else 16384 - atanUnit (ax / ay)
  let b := if x < 0 then 32768 - a else a
  ratMod (if y < 0 then -b else b) 65536

/-- wrap of R92: −32768 to 32767 au and a fraction. -/
def wrapAu (x : Rat) : Rat := ratMod (x + 32768) 65536 - 32768

end Sys2Proof.Machine
end

