-- ==== Sys2Proof/Machine/CurrentControl.lean ====
section
/-! DEFINITION. Phase current control (03_current_control.md, R63 to R87): the snapshot of a slot, the pass of the
factory control route with its hold ramp and brake sequencer, calibration, and staged parameters. -/
namespace Sys2Proof.Machine

/-! ### The snapshot (R161) -/

/-- The current of a channel and its blind weight as the slot's engines see them (R163, R240): the published output, or zero
and 1 while VALID = 0. -/
def State.sense (s : State) (c : Nat) : Rat × Rat := if s.bit (DEC_ST_VALID c) then ((s.dec c).val, (s.dec c).wd) else (0, 1)

/-- Corrected channel currents, mA: a channel with w_D above 0.5 keeps its corrected value of the previous loop instant; with
none, a free value, numbered from `free` (R66). -/
def correctedCurrents (cur wd held : List Rat) (free : Nat) : List Rat :=
  cur.zipIdx.map (fun q =>
    let w := wd.getD q.2 0
    if 2 * w ≤ 1 then q.1 / (1 - w) else held.getD q.2 (Config.freeRat (free + q.2)))

/-- What sel 10 of pos reads (R166). -/
def State.posStatus (s : State) (n : Nat) : Nat :=
  s.slotState n + s.get (AX_PITST_TYPE n) * 2 ^ 4 + s.get (AX_PITST_ACTIVE n) * 2 ^ 8 + s.get (AX_PITST_UNDERRUN n) * 2 ^ 9 +
  s.get (AX_PITST_WAITSTART n) * 2 ^ 10 + s.get (AX_PITQ_CTRL_QHELD n) * 2 ^ 11 + s.get (AX_MCFG_SRC n) * 2 ^ 12 +
  s.get (AX_PITST_TAG n) * 2 ^ 16

/-- Latch the inputs of slot `n` for the scheduled instant `t`. -/
def State.snapshot (s : State) (n t : Nat) : Snapshot :=
  let c := s.cc n
  let i := (s.localChans n).map s.sense
  let b := (s.brakeChans n).map s.sense
  let u := s.fbAsOf (s.get (AX_BIND_FBPORT n)) t
  { time := t, tau := t - s.tickAt
    cur := i.map (·.1), wd := i.map (·.2), brk := b.map (·.1), brkWd := b.map (·.2)
    corr := correctedCurrents (i.map (·.1)) (i.map (·.2)) c.held s.drawn
    vbus := if s.isLocal n then s.get (DEC_VAL_V (32 + s.get (AX_BIND_GRP n))) else 0
    vbrk := if b = [] then 0 else s.get (DEC_VAL_V (32 + s.get (AX_BIND_BRKGRP n)))
    fbpos := u.slotFbPos n, fbvel := u.slotFbVel n t, fbst := u.slotFbStatus n t
    sp := (s.gen n).m, spTick := s.tickAt, lidx := c.lidx, peak := c.peak, st := s.posStatus n }

/-- A new snapshot of slot `n`; its corrected currents are those of the slot's latest loop instant from then on. -/
def State.newSnapshot (s : State) (n t : Nat) : State × Snapshot :=
  let y := s.snapshot n t
  ({ s with drawn := s.drawn + 5 }.modCc n (fun c => { c with latch := some y, held := y.corr }), y)
/-- The snapshot that every engine of slot `n` sees at instant `t`: the one already latched for `t`, or a new one. -/
def State.latchSnapshot (s : State) (n t : Nat) : State × Snapshot :=
  match (s.cc n).latch with
  | some x => if x.time = t then (s, x) else s.newSnapshot n t
  | none => s.newSnapshot n t

/-! ### Angles and amplitudes (R75, R80 to R82) -/

/-- Sine and cosine as the route computes them, within 2^−22 (R155). -/
def sinE (a : Rat) : Rat := sinAu a + boundedError ulp22 a
def cosE (a : Rat) : Rat := cosAu a + boundedError ulp22 (a + 16384)

/-- The electrical angle of a position, with DIR (R80). -/
def State.elec (s : State) (n : Nat) (p : Rat) : Rat :=
  let x : Rat := p.floor
  ratMod (if s.bit (AX_CC_CFG_DIR n) then -x else x) 65536
/-- θ(p_sp) at `tau` ns after the setpoint's tick (R80). -/
def State.thetaSp (s : State) (n : Nat) (sp : Motion) (tau : Nat) : Rat :=
  let x : Rat := (tau : Rat) / (s.period : Nat)
  s.elec n ((sp.p / 2 ^ 32 : Int) + fixToRat sp.v * x + fixToRat sp.a * x * x / 2)

/-- An estimate θ̂, ω̂ of cell time `at_` extrapolated to cell time `t`. -/
def extrapolate (th om : Rat) (at_ t : Nat) : Rat :=
  ratMod (th + om * 32768 / piR * (((t : Int) - at_ : Int) : Rat) / 1000000000) 65536
/-- θ̂ extrapolated to the instant `t` (R90): an instant uses the latest estimate of an instant before it. -/
def State.prAngle (s : State) (n t : Nat) : Rat :=
  let p := s.pr n
  let e := if p.at_ < t then (p.th, p.om, p.at_) else p.prev.getD (p.th, p.om, p.at_)
  extrapolate e.1 e.2.1 e.2.2 t
/-- The latest θ̂ extrapolated to the present. -/
def State.prAngleNow (s : State) (n : Nat) : Rat := extrapolate (s.pr n).th (s.pr n).om (s.pr n).at_ s.now

/-- 90 % of the smallest full scale of the slot's channels, mA (R64, R75). -/
def State.clampI (s : State) (n : Nat) : Rat :=
  match (s.localChans n).map (fun c => min (s.get (SNS_KH_V c)) (s.get (SNS_KL_V c))) with
  | [] => 0
  | k :: ks => (ks.foldl min k : Nat) * 9 / 4 / 65536
/-- IHOLD and IRUN in force, mA: clamped (R75), IRUN reduced to IPCT % during a stall-homing pitch (R47). -/
def State.ihold (s : State) (n : Nat) : Rat := min (s.get (AX_CC_IHOLD_V n) : Nat) (s.clampI n)
def State.irun (s : State) (n : Nat) : Rat :=
  let i : Rat := min ((s.get (AX_CC_IRUN_V n) : Nat) : Rat) (s.clampI n)
  match (s.gen n).pitch with
  | some q => if entryType q.words = 4 then i * q.ipct else i
  | none => i
/-- IRUN or IHOLD is clamped. -/
def State.iClamped (s : State) (n : Nat) : Bool :=
  decide (s.clampI n < (max (s.get (AX_CC_IRUN_V n)) (s.get (AX_CC_IHOLD_V n)) : Nat))

/-- The part of HOLD_RAMP that has passed, `tau` ns after the tick instant, at most 1. -/
def State.rampDone (s : State) (n tau : Nat) : Rat :=
  let R := s.get (AX_CC_HOLD_HOLDRAMP n)
  let (k, off) : Nat × Nat := match (s.cc n).ramp with | .fall k => (k, 0) | .rise k off => (k, off) | _ => (0, 0)
  if R = 0 then 1 else min 1 ((((k * s.period + tau : Nat) : Int) - (off : Int) : Int) / ((R * s.period : Nat) : Rat))

/-- The present current amplitude, mA (R82). -/
def State.amplitude (s : State) (n tau : Nat) : Rat :=
  match (s.cc n).ramp with
  | .run | .delay _ => s.irun n
  | .fall _ => s.irun n + (s.ihold n - s.irun n) * s.rampDone n tau
  | .held => s.ihold n
  | .wait => 0
  | .rise _ _ => s.ihold n * s.rampDone n tau
  | .down _ => (s.cc n).ilim

/-! ### Transforms and modulation (R66, R83, R84) -/

/-- Some channel used a held value. -/
def Snapshot.skips (x : Snapshot) : Bool := x.wd.any (fun w => decide (1 < 2 * w))

/-- α and β of the channel currents (R83). -/
def alphaBeta (kind : Nat) (i : List Rat) : Rat × Rat :=
  let a (k : Nat) : Rat := i.getD k 0
  match kind with
  | 1 => ((a 0 - a 1) / 2, (a 2 - a 3) / 2)
  | 2 => (a 0, (a 0 + 2 * a 1) / sqrt3)
  | _ =>
    let x : Rat := ((List.range 5).map (fun k => a k * cosE ((k : Rat) * 65536 / 5))).sum
    let y : Rat := ((List.range 5).map (fun k => a k * sinE ((k : Rat) * 65536 / 5))).sum
    (2 / 5 * x, 2 / 5 * y)

/-- v_0 of R83. -/
def zeroSequence (v : List Rat) : Rat :=
  match v with
  | [] => 0
  | a :: l => -(l.foldl max a + l.foldl min a) / 2
/-- Channel voltages of a vector, the zero sequence included (R83). -/
def channelVolts (kind : Nat) (va vb : Rat) : List Rat :=
  if kind = 1 then [va / 2, -va / 2, vb / 2, -vb / 2]
  else
    let m : Nat := if kind = 2 then 3 else 5
    let v := (List.range m).map (fun (k : Nat) => va * cosE ((k : Rat) * 65536 / m) + vb * sinE ((k : Rat) * 65536 / m))
    v.map (· + zeroSequence v)

/-- The linear limit of the vector for bus voltage `V` (R83). -/
def linearLimit (kind : Nat) (V : Rat) : Rat :=
  match kind with | 1 => V | 2 => V / sqrt3 | _ => V / (2 * cosE (65536 / 20))

/-- α and β of a vector from its channel voltages, the zero sequence taken out (R83). -/
def vectorOf (kind : Nat) (v : List Rat) : Rat × Rat :=
  if kind = 1 then (v.getD 0 0 - v.getD 1 0, v.getD 2 0 - v.getD 3 0)
  else alphaBeta kind (v.map (fun x => x - (v.sum : Rat) / (max v.length 1 : Nat)))

/-- CMP of a channel voltage, eighths of a count (R84). With no bus voltage the quotient is the free value `free`. -/
def State.cmpOf (s : State) (c : Nat) (v vbus : Rat) (free : Nat) : Nat :=
  let d := if vbus = 0 then Config.freeRat free else 1 / 2 + v / vbus
  (roundEven (8 * (s.get (PWMG_PER_PER (c / 8)) : Nat) * max 0 (min 1 d))).toNat

/-- The modulator takes a vector for the slot's channels: the next compare values, drive request SWITCH (R168, R193). -/
def State.takeVector (s : State) (cs cmps : List Nat) : State :=
  s.each (cs.zip cmps) (fun x t => (t.put (PWM_CMPN_CMPN x.1) x.2).modChan x.1 (fun y => { y with want := 1 }))

/-- A drive request without a compare value: 0 OFF, 2 LOWON. -/
def State.wantAll (s : State) (cs : List Nat) (w : Nat) : State := s.each cs (fun c t => t.modChan c (fun y => { y with want := w }))

/-- The brake bridge driven at `v` volts, clamped, by POL (R85, R168). -/
def State.driveBrake (s : State) (n : Nat) (v vbrk : Rat) : State :=
  match s.brakeChans n with
  | [a, b] =>
    let (sw, lo) := if s.bit (AX_BRK_CFG_POL n) then (b, a) else (a, b)
    let s := s.flag (AX_BRK_ST_VCLIP n) (decide (vbrk < v))
    let per := s.get (PWMG_PER_PER (sw / 8))
    let d := if vbrk ≤ v then 1 else max 0 v / vbrk
    ((s.put (PWM_CMPN_CMPN sw) (roundEven (8 * (per : Nat) * d)).toNat).wantAll [sw] 1).wantAll [lo] 2
  | _ => s

/-- The brake sequencer's part of a pass: the coil at its voltage for the present state (R85, R86). -/
def State.brakePass (s : State) (n : Nat) (x : Snapshot) : State :=
  let vb : Rat := (x.vbrk : Rat) / 1000
  match s.get (AX_BRK_ST_BSTATE n) with
  | 1 => s.driveBrake n ((s.get (AX_BRK_V_PULLMV n) : Rat) / 1000) vb
  | 2 => s.driveBrake n ((s.get (AX_BRK_V_HOLDMV n) : Rat) / 1000) vb
  | _ => s

/-! ### The pass of the factory control route -/

/-- The slot is controlled by the factory control route. -/
def State.ctlFactory (s : State) (n : Nat) : Bool := match s.roleRoute n 0 with | some r => r.factory == 1 | none => false
/-- Prusik serves the slot (R88). -/
def State.usesPrusik (s : State) (n : Nat) : Bool :=
  s.isLocal n && (match s.roleRoute n 1 with | some r => r.factory == 2 | none => false)

/-- A value for a signed 16-bit field; one that does not fit is a free value. -/
def fit16 (free : Nat) (x : Int) : Nat :=
  if -32768 ≤ x ∧ x ≤ 32767 then unsignedOf 16 x else (Config.freeWord free).toNat % 65536

/-- What the route aims at: the angle of its dq frame, the current references in mA, or a voltage along d (R95). -/
structure Aim where
  th : Rat := 0
  idRef : Rat := 0
  iqRef : Rat := 0
  volt : Option Rat := none
deriving DecidableEq, Repr

/-- The speed of the angle source in au per tick, for R77: the setpoint's in open loop. -/
def State.sourceSpeed (s : State) (n : Nat) (x : Snapshot) (closed : Bool) : Rat :=
  let v : Rat := if !closed then fixToRat x.sp.v
    else if s.bit (AX_CC_CFG_ASRC n) then fixToRat (s.geti (AX_PR_VEL_V n)) else fixToRat x.fbvel
  if s.bit (AX_CC_CFG_DIR n) then -v else v

/-- The position and speed loop of R81, at loop instant 0 of each tick; `lim` is Ilim, mA. -/
def State.speedLoop (s : State) (n : Nat) (x : Snapshot) (lim : Rat) : State :=
  let P : Rat := (s.period : Rat) / 1000000000
  let g (f : Fld) : Rat := (s.get f : Rat) / 65536
  let pr := s.bit (AX_CC_CFG_ASRC n)
  let pfb : Int := if pr then s.geti (AX_PR_POS_V n) else x.fbpos
  let vfb : Rat := if pr then fixToRat (s.geti (AX_PR_VEL_V n)) else fixToRat x.fbvel
  let psp : Int := x.sp.p / 2 ^ 32
  let e := fixToRat x.sp.v + g (AX_PL_KPP_V n) * ((psp - pfb : Int) : Rat) * P - vfb
  let c := s.cc n
  let iq := g (AX_PL_KPV_V n) * e + c.xv + g (AX_PL_KFA_V n) * fixToRat x.sp.a
  let sat := decide (lim < ratAbs iq)
  let s := (s.setCc n { c with
    iqRef := if sat then ratSign iq * lim else iq
    xv := if sat then c.xv else c.xv + g (AX_PL_KPV_V n) * g (AX_PL_KIV_V n) * e * P }).flag (AX_CC_ST_ISAT n) sat
  let ferr := s.get (AX_PL_FERR_V n)
  let bad := decide (ferr ≠ 0 ∧ ferr < (psp - pfb).natAbs)
  let s := s.modCc n (fun c => { c with ferr := bad })
  if bad && !c.ferr then s.draw.raiseRoute n 0 3 ((Config.freeWord s.drawn).toNat % 65536) else s

/-- R111: in closed loop on Prusik a clear VALID turns the route to open-loop microstepping. -/
def State.fallback (s : State) (n : Nat) : State :=
  let p := s.pr n
  if s.get (AX_CC_CFG_MODE n) = 1 ∧ s.bit (AX_CC_CFG_ASRC n) ∧ !s.bit (AX_PR_ST_VALID n) ∧ !s.bit (AX_PR_ST_FALLBACK n) ∧
      !s.searchHolds n ∧ !p.blocked ∧ p.forced = none ∧ 2 ≤ s.slotState n ∧ s.slotState n ≤ 4 then
    (s.put (AX_PR_ST_FALLBACK n) 1).modCc n (fun c => { c with xv := 0, iqRef := 0 })
  else s

/-- The route runs in closed loop (R73, R111); a calibration runs it in open loop (R72). -/
def State.closedLoop (s : State) (n : Nat) : Bool :=
  s.get (AX_CC_CFG_MODE n) == 1 && !s.bit (AX_PR_ST_FALLBACK n) && !s.calDrives n
/-- The references of a pass (R72, R80, R81, R86, R95). -/
def State.aim (s : State) (n : Nat) (x : Snapshot) (amp : Rat) : Aim :=
  let m := s.get (AX_PR_ST_EMODE n)
  let p := s.pr n
  let th := s.prAngle n x.time
  let open_ : Aim := { th := s.thetaSp n x.sp x.tau, idRef := amp }
  if s.calDrives n then { idRef := amp }     -- ALIGN and IDENT: electrical angle 0 (R72, R109)
  else if m = 2 ∧ p.pol < 2 then { th := th, volt := some ((if p.pol = 0 then 1 else -1) * (x.vbus : Rat) / 2000) }
  else if s.searchHolds n then { th := th }
  else if p.blocked then { th := th }
  else if p.forced.isSome then open_
  else if p.searched ∧ s.bit (AX_BRK_ST_BRKWAIT n) ∧ s.usesPrusik n then { th := th, idRef := amp }
  else if s.closedLoop n then
    { th := if s.bit (AX_CC_CFG_ASRC n) then th else
        ratMod (s.elec n x.fbpos + (s.get (AX_CC_ANGOFS_V n) : Nat)) 65536
      idRef := (s.geti (AX_CC_DBIAS_V n) : Rat), iqRef := (s.cc n).iqRef }
  else open_

/-- A parameter of Prusik as the estimator read it at the last tick instant (R105). -/
def State.prPar (s : State) (n : Nat) (f : Fld) : Nat :=
  bitsOf (tabGet (fun _ => s.rd f.a) (s.pr n).par (f.a - AX_BIND n)).toNat f.hi f.lo

/-- What IDENT injects along d and q at cell time `t`, V: after 200 ms of alignment V_INJ at F_INJ along d, for a time that
the spec leaves open, and then along q (R109). -/
def State.identVolt (s : State) (n t : Nat) : Rat × Rat :=
  let c := s.cc n
  if c.calKind ≠ 4 ∨ t < c.calAt + 200000000 then (0, 0) else
  let e := t - (c.calAt + 200000000)
  let v := (s.get (AX_PR_INJ_VINJ n) : Rat) / 1000 * cosE (((s.get (AX_PR_INJ_FINJ n) * e : Nat) : Rat) * 65536 / 1000000000)
  if e < (Config.freeWord c.calFree).toNat then (v, 0) else (0, v)

/-- v_h of R93, V along θ̂; the ramp-down of R97 included. -/
def State.injectionVolt (s : State) (n : Nat) : Rat :=
  let p := s.pr n
  let F := max (s.prPar n (AX_PR_INJ_FINJ n)) 1
  let fest : Rat := ((s.instantsPerTick n : Nat) : Rat) * 1000000000 / ((s.period * s.estDiv n : Nat) : Rat)
  let N := fest / (F : Nat)
  let v := (s.prPar n (AX_PR_INJ_VINJ n) : Rat) / 1000
  if !s.usesPrusik n ∨ N = 0 then 0
  else if p.inj then v * cosE ((p.n : Nat) * 65536 / N)
  else if p.fade ≠ 0 then v * (p.fade : Nat) / N * cosE ((p.n : Nat) * 65536 / N)
  else 0

/-- The dead-time correction of a channel with current `i`, mA (R67). -/
def State.deadTime (s : State) (n c : Nat) (i vbus : Rat) : Rat :=
  if !s.bit (AX_CC_CFG_DTC n) then 0 else
  let g := c / 8
  let band : Rat := (max (s.get (AX_CC_IDTZ_V n)) 1 : Nat)
  let k := if band ≤ ratAbs i then (ratSign i : Rat) else i / band
  vbus * ((s.get (PWMG_CFG_DT g) * 4 : Nat) : Rat) * (s.get (PWMG_CFG_K g) : Nat) / (s.period : Nat) * k

/-- The amplitude of a pass: that of R82, or IHOLD in a calibration (R72, R109). -/
def State.passAmplitude (s : State) (n tau : Nat) : Rat := if s.calDrives n then s.ihold n else s.amplitude n tau

/-- The polarity test goes on when the current has reached IRUN along +d̂, and then along −d̂ (R95). -/
def State.polarityStep (s : State) (n : Nat) (id : Rat) : State :=
  if s.get (AX_PR_ST_EMODE n) ≠ 2 then s else
  let p := s.pr n
  if p.pol = 0 ∧ s.irun n ≤ id then s.setPr n { p with pol := 1 }
  else if p.pol = 1 ∧ s.irun n ≤ -id then s.setPr n { p with pol := 2 }
  else s

/-- One pass of the factory control route of a local slot (R72 to R84) on snapshot `x`: the state after it and the
compare values of its vector. The vector is handed over by the caller. -/
def State.controlPass (s : State) (n : Nat) (x : Snapshot) : State × List Nat :=
  let kind := s.kind n
  let s := s.fallback n
  let term : Rat := if kind = 3 then twoSin36 else 1
  let s := match (s.cc n).ramp with
    | .down _ => (s.modCc n (fun c => { c with ilim := min c.ilim (Config.freeRat s.drawn).floor.toNat })).draw
    | _ => s.modCc n (fun c => { c with ilim := (s.passAmplitude n x.tau).floor.toNat })
  let amp := s.passAmplitude n x.tau * term
  let s := if s.closedLoop n then (if x.lidx = 0 then s.speedLoop n x amp else s)
    else if s.get (AX_CC_CFG_MODE n) = 1 then s else s.put (AX_CC_ST_ISAT n) 0
  let c := s.cc n
  let iph := x.corr
  let ab := alphaBeta kind iph
  let a := s.aim n x amp
  let co := cosE a.th
  let si := sinE a.th
  let id := (ab.1 * co + ab.2 * si) / 1000        -- A
  let iq := (ab.2 * co - ab.1 * si) / 1000
  let ed := a.idRef / 1000 - id
  let eq := a.iqRef / 1000 - iq
  let kp : Rat := (s.get (AX_CC_KP_V n) : Rat) / 65536
  let ki : Rat := (s.get (AX_CC_KI_V n) : Rat) / 256
  let fe : Rat := s.sourceSpeed n x (s.closedLoop n) / 65536 * 1000000000 / (s.period : Nat)   -- electrical Hz
  let w := 2 * piR * fe
  let rw : Rat := (s.get (AX_CC_MOTOR_RW n) : Rat) / 1000
  let lw : Rat := (s.get (AX_CC_MOTOR_LW n) : Rat) / 1000000
  let ke : Rat := (s.get (AX_CC_KE_V n) : Rat) / 1000000
  let ff := s.bit (AX_CC_CFG_FF n)
  let vd := kp * ed + c.xd + (if ff then rw * a.idRef / 1000 - w * lw * iq else 0)
  let vq := kp * eq + c.xq + (if ff then rw * a.iqRef / 1000 + w * lw * id + ke * fe else 0)
  let vh := s.injectionVolt n
  let dth := s.prAngle n x.time - a.th
  let ident := s.identVolt n x.time
  let vd := (match a.volt with | some v => v | none => vd) + vh * cosE dth + ident.1
  let vq := (match a.volt with | some _ => 0 | none => vq) + vh * sinE dth + ident.2
  let V : Rat := (x.vbus : Rat) / 1000
  let pct := s.get (AX_CC_CFG_VLIM n)
  let lim := linearLimit kind V * ((if 50 ≤ pct ∧ pct ≤ 100 then pct else 100 : Nat) : Rat) / 100
  let mag := ratSqrt (vd * vd + vq * vq)
  let vsat := decide (lim < mag)
  let k := if vsat then lim / mag else 1
  let vd := vd * k
  let vq := vq * k
  let dt : Rat := match c.lastRun with | some t => ((x.time - t : Nat) : Rat) / 1000000000 | none => ratAbs (Config.freeRat s.drawn)
  let d := s.drawn
  let va := vd * co - vq * si
  let vb := vd * si + vq * co
  let volts := (channelVolts kind va vb).zipIdx.map (fun v =>
    v.1 + s.deadTime n ((s.localChans n).getD v.2 0) (iph.getD v.2 0) V)
  let cmps := (volts.zip (s.localChans n)).zipIdx.map (fun v => s.cmpOf v.1.2 v.1.1 V (d + 5 + v.2))
  let s := s.setCc n { c with
    xd := if vsat then c.xd else c.xd + ki * ed * dt
    xq := if vsat then c.xq else c.xq + ki * eq * dt
    lastRun := some x.time, vOld := c.vNew, vNew := (x.time, va, vb) }
  let s := s.modPr n (fun p => { p with thI := ratMod (a.th + atan2Au a.iqRef a.idRef) 65536 })
  let s := { s with drawn := d + 10 }.polarityStep n (id * 1000)
  let s := s.wr (AX_CC_ID n) (BitVec.ofInt 32 (signedOf 16 (fit16 (d + 4) (roundEven (id * 1000)))))
  let s := s.wr (AX_CC_IQ n) (BitVec.ofInt 32 (signedOf 16 (fit16 (d + 1) (roundEven (iq * 1000)))))
  let s := (s.put (AX_CC_VDQ_VD n) (fit16 (d + 2) (roundEven (vd * 1000)))).put (AX_CC_VDQ_VQ n) (fit16 (d + 3) (roundEven (vq * 1000)))
  let s := s.put (AX_CC_ANGLE_V n) (a.th.floor.toNat % 65536)
  let s := s.puti (AX_CC_IRES_V n) (roundEven (iph.sum : Rat))
  let s := s.each (List.range 5) (fun i t => t.puti (AX_CC_IPH_V n i) (roundEven (iph.getD i 0)))
  let s := if x.skips then s.inc (AX_CC_WDSKIP_V n) else s
  ((s.flag (AX_CC_ST_VSAT n) vsat).flag (AX_CC_ST_ILIM n) (s.iClamped n), cmps)

/-- The rise of R82 begins at the first loop instant in HOLD that no search holds back. -/
def State.beginRise (s : State) (n tau : Nat) : State :=
  if (s.cc n).ramp = .wait ∧ s.slotState n = stHold ∧ !s.searchHolds n ∧ !(s.pr n).blocked then
    s.modCc n (fun c => { c with ramp := .rise 0 tau }) else s

/-! ### Commands: configuration and calibration (R69 to R74) -/

/-- CC_CFG_WRITE (R74). A change of MODE, ASRC, UPD or DIR waits for the next tick instant. -/
def ccCfgWrite (w : Writer) (n : Nat) (v : Word) (s : State) : State :=
  if !s.owns w n then s else
  let v := v &&& 0x00FFFFF7#32
  let old := (s.cc n).cfgNext.getD (s.rd (AX_CC_CFG n))
  let key (x : Word) : Nat × Nat := (bitsOf x.toNat 2 0, fieldOf x (AX_CC_CFG_UPD n) * 2 + fieldOf x (AX_CC_CFG_DIR n))
  if key v = key old then
    (if (s.cc n).cfgNext = none then s.wr (AX_CC_CFG n) v else s.modCc n (fun c => { c with cfgNext := some v }))
  else
    let mode := fieldOf v (AX_CC_CFG_MODE n)
    let src := if fieldOf v (AX_CC_CFG_ASRC n) = 0 then s.bit (AX_BIND_FBEN n) else s.bit (AX_ENGSEL_ESTEN n)
    if (s.slotState n = stIdle ∨ s.slotState n = stHold) ∧ mode ≤ 1 ∧ (mode = 1 → src = true) then
      s.modCc n (fun c => { c with cfgNext := some v })
    else s.err n 5
def execCcCfgWrite (w : Writer) (n : Fin 16) (v : Word) (s : State) : Out := live s (ccCfgWrite w n.val v)

/-- A calibration ends: DONE, or FAIL with its code (R69). -/
def State.calEnd (s : State) (n code : Nat) : State :=
  let s := ((s.put (AX_CC_CAL_BUSY n) 0).modCc n (fun c => { c with calKind := 0 })).when (s.calDrives n) (fun s => s.calDriveOff n)
  ((s.flag (AX_CC_CAL_DONE n) (code == 0)).flag (AX_CC_CAL_FAIL n) (code != 0)).put (AX_CC_CAL_FAILCODE n) code

/-- The drive of a calibration or identification of kind `k` begins, with the route's state at zero. -/
def State.calBegin (s : State) (n k : Nat) : State :=
  s.draw.modCc n (fun c => { c with
    calKind := k, calAt := s.now, calStep := 0, calFree := s.drawn, xd := 0, xq := 0, held := [], lastRun := none, latch := none })

/-- The steps of KCAL (R71): the driven channel, the channel whose low side is held on, and whether the first is chopped. -/
def State.kcalSteps (s : State) (n : Nat) : List (Nat × Nat × Bool) :=
  let l := s.localChans n
  let ch (i : Nat) : Nat := l.getD (i % max l.length 1) 0
  if s.kind n = 1 then [(ch 0, ch 1, true), (ch 1, ch 0, true), (ch 0, ch 1, false), (ch 2, ch 3, true), (ch 3, ch 2, true), (ch 2, ch 3, false)]
  else (List.range l.length).flatMap (fun i => [(ch i, ch (i + 1), true), (ch i, ch (i + 1), false)])
/-- One pass of the present step of KCAL (R71): its channel is chopped at 50 %, or its high side held on, with the low side of
its partner on and the slot's other channels off. From KCALI on both low sides carry the current on, and a free choice
ends the step (DESIGN CHOICE, notes/assumptions/34). -/
def State.kcalDrive (s : State) (n : Nat) (x : Snapshot) (last : Nat) : Option (Nat × Nat × Bool) → State
  | none => s
  | some (a, b, chop) =>
    let k := (s.cc n).calStep
    let full := decide ((s.get (AX_CC_KCALI_V n) : Rat) ≤ ratAbs (x.corr.getD (a - (s.localChans n).headD 0) 0))
    let s := if full ∧ k + 1 < last ∧ Config.freeBit s.drawn then s.modCc n (fun c => { c with calStep := k + 1 }) else s
    let s := (s.draw.wantAll (s.localChans n) 0).wantAll [b] 2
    if full then s.wantAll [a] 2
    else s.takeVector [a] [s.get (PWMG_PER_PER (a / 8)) * (if chop then 4 else 8)]
/-- KCAL at a carrier valley (R71): AXn_CC_IPH shows the currents, and the present step is driven. -/
def State.kcalPass (s : State) (n t : Nat) : State :=
  let r := s.newSnapshot n t
  let x := r.2
  let s := r.1.each (List.range 5) (fun i u => u.puti (AX_CC_IPH_V n i) (roundEven (x.corr.getD i 0)))
  let steps := s.kcalSteps n
  s.kcalDrive n x steps.length steps[(s.cc n).calStep]?
/-- A carrier valley at `t` while a calibration drives slot `n`: ALIGN and IDENT run the control route (R72, R109). -/
def State.calPass (s : State) (n t : Nat) : State :=
  if (s.cc n).calKind = 2 then s.kcalPass n t
  else
    let r := s.newSnapshot n t
    let p := r.1.controlPass n r.2
    p.1.takeVector (s.localChans n) p.2

/-- A calibration action of kind `k` (R69); ALIGN needs FBEN (R72). -/
def calStart (k : Nat) (w : Writer) (n : Nat) (s : State) : State :=
  if !s.owns w n then s
  else if s.slotState n ≠ stIdle ∨ s.bit (AX_CC_CAL_BUSY n) then s.err n 5
  else if k = 3 ∧ !s.bit (AX_BIND_FBEN n) then s.calEnd n 1
  else (s.put (AX_CC_CAL_BUSY n) 1).calBegin n k
/-- A write to AXn_CC_CAL: only one action bit may be set (R69); a W1C 1 clears DONE or FAIL. -/
def ccCalWrite (w : Writer) (n : Nat) (v : Word) (s : State) : State :=
  let s := s.w1c (AX_CC_CAL_DONE n) v
  let s := s.w1c (AX_CC_CAL_FAIL n) v
  if !s.owns w n then s else
  match bitsOf v.toNat 2 0 with
  | 0 => s | 1 => calStart 1 w n s | 2 => calStart 2 w n s | 4 => calStart 3 w n s | _ => s.err n 5
def execOfscal (w : Writer) (n : Fin 16) (s : State) : Out := live s (calStart 1 w n.val)
def execKcal (w : Writer) (n : Fin 16) (s : State) : Out := live s (calStart 2 w n.val)
def execAlign (w : Writer) (n : Fin 16) (s : State) : Out := live s (calStart 3 w n.val)

/-- CALIBRATION_DONE (R69 to R72): the running calibration ends with the measured pairs `r`, or with `notReached`.
OFSCAL: the offsets of SNH and SNL of each channel of the slot and its brake bridge, nA. KCAL: K_H and K_L of each local
channel, 16.16; K_H of the base channel is not changed. ALIGN: nothing, the offset follows from the feedback. -/
def calibrationDone (n : Nat) (r : List (Int × Int)) (notReached : Bool) (s : State) : State :=
  let c := s.cc n
  if !s.bit (AX_CC_CAL_BUSY n) then s
  else match c.calKind with
    | 1 =>
      if r.length ≠ (s.slotChans n).length then s
      else (s.each ((s.slotChans n).zip r) (fun x t => (t.puti (SNS_OFSH_V x.1) x.2.1).puti (SNS_OFSL_V x.1) x.2.2)).calEnd n 0
    | 2 =>
      if notReached then s.calEnd n 2
      else if r.length ≠ (s.localChans n).length then s
      else
        let ok (k : Int) : Bool := decide (500 * 65536 ≤ k ∧ k ≤ 50000 * 65536)
        if !(r.zipIdx.all (fun x => (x.2 == 0 || ok x.1.1) && ok x.1.2)) then s.calEnd n 3
        else (s.each ((s.localChans n).zip r).zipIdx (fun x t =>
          let t := t.puti (SNS_KL_V x.1.1) x.1.2.2
          if x.2 = 0 then t else t.puti (SNS_KH_V x.1.1) x.1.2.1)).calEnd n 0
    | _ =>
      let s := { s with now := max s.now (c.calAt + 200000000) }
      (s.put (AX_CC_ANGOFS_V n) (ratMod (-(s.elec n (s.slotFbPos n))) 65536).floor.toNat).calEnd n 0
def execCalibrationDone (n : Fin 16) (r : List (Int × Int)) (notReached : Bool) (s : State) : Out :=
  live s (calibrationDone n.val r notReached)

/-! ### Staged parameters (R79) -/

/-- The staged offsets, 0x204 to 0x240. -/
def stagedOffsets : List Nat := (List.range 16).map (fun i => 0x204 + 4 * i)
/-- The shadow as a copy of the active values. -/
def State.shadowCopy (s : State) (n : Nat) : Tab Word := stagedOffsets.map (fun o => (o, s.rd (AX_BIND n + o)))

/-- The writable bits of the staged offsets (R75). -/
def stagedMask (off : Nat) : Word :=
  if off = 0x204 ∨ off = 0x208 ∨ (0x21C ≤ off ∧ off ≤ 0x228) then 0xFFFF else if off = 0x22C then 0 else 0xFFFFFFFF
/-- A write to a parameter at offset 0x204 to 0x240: to the shadow while HOLDW = 1 (R79), which then holds staged values. -/
def ccParamWrite (w : Writer) (n off : Nat) (v : Word) (s : State) : State :=
  if !s.owns w n then s
  else if s.bit (AX_CC_PSTAGE_HOLDW n) then
    (s.modCc n (fun c => { c with shadow := tabPut c.shadow off (v &&& stagedMask off), staged := true })).put (AX_CC_PSTAGE_PEND n) 1
  else s.wr (AX_BIND n + off) (v &&& stagedMask off)

/-- A write to AXn_CC_PSTAGE. -/
def pstageWrite (w : Writer) (n : Nat) (v : Word) (s : State) : State :=
  if !s.owns w n then s else
  let was := s.bit (AX_CC_PSTAGE_HOLDW n)
  let hold := fieldOf v (AX_CC_PSTAGE_HOLDW n) == 1
  let apply := fieldOf v (AX_CC_PSTAGE_APPLY n) == 1
  let s := s.flag (AX_CC_PSTAGE_HOLDW n) hold
  if was && !hold then
    (if apply then s.modCc n (fun c => { c with frozen := some c.shadow, shadow := [], apply := false, staged := false })
     else (s.modCc n (fun c => { c with shadow := [], apply := false, staged := false })).flag (AX_CC_PSTAGE_PEND n)
       (s.bit (AX_CC_PSTAGE_PEND n) && (s.cc n).frozen.isSome))
  else if !was && hold then s.modCc n (fun c => { c with shadow := s.shadowCopy n, apply := false, staged := false })
  else if was && apply then s.modCc n (fun c => { c with apply := true })
  else s
/-- APPLY (R79), in a write that leaves HOLDW at `hold`. -/
def execApply (w : Writer) (n : Fin 16) (hold : Bool) (s : State) : Out :=
  live s (pstageWrite w n.val (BitVec.ofNat 32 (2 + (if hold then 1 else 0))))

/-- STAGED_APPLY_TAKE (R79): at the tick instant after APPLY the whole shadow becomes active; of a shadow whose staging has
ended and one begun since, both with their APPLY, the later comes last. -/
def stagedTake (n : Nat) (s : State) : State :=
  let c := s.cc n
  if (c.apply ∨ c.frozen.isSome) ∧ s.tickLeft ∧ s.now = s.tickAt then
    let l := c.frozen.getD [] ++ (if c.apply then c.shadow else [])
    ((s.each l (fun x t => t.wr (AX_BIND n + x.1) x.2)).modCc n (fun c =>
      { c with apply := false, frozen := none, staged := c.staged && !c.apply })).flag (AX_CC_PSTAGE_PEND n) (c.staged && !c.apply)
  else s
def execStagedApplyTake (n : Fin 16) (s : State) : Out := live s (stagedTake n.val)

/-! ### The hold ramp and the brake sequencer (R82, R86) -/

/-- HOLD_DLY_EXPIRY (R82): HOLD_DLY ticks at rest have passed. -/
def holdDlyExpiry (n : Nat) (s : State) : State :=
  match (s.cc n).ramp with
  | .delay k => if s.slotState n = stHold ∧ s.get (AX_CC_HOLD_HOLDDLY n) ≤ k then s.modCc n (fun c => { c with ramp := .fall 0 }) else s
  | _ => s
def execHoldDlyExpiry (n : Fin 16) (s : State) : Out := live s (holdDlyExpiry n.val)

/-- Injection keeps the slot from the hold rate (R98). -/
def State.injecting (s : State) (n : Nat) : Bool := s.usesPrusik n && ((s.pr n).inj || decide ((s.pr n).fade ≠ 0))

/-- At IHOLD, in MODE 0 with HINJ = 0, injection stops and the estimate freezes (R98). -/
def State.prHeld (s : State) (n : Nat) : State :=
  if s.bit (AX_CC_ST_HOLDING n) ∧ s.injecting n ∧ s.get (AX_CC_CFG_MODE n) = 0 ∧ !s.bit (AX_PR_CFG_HINJ n) then
    ((s.modPr n (fun p => { p with inj := false, fade := 0, om := 0 })).put (AX_PR_ST_EMODE n) 6).put (AX_CC_ST_LOWRATE n) 1
  else s
/-- HOLDING (R82, R98): the ramp or the rise has reached IHOLD; the hold rate starts unless injection goes on. -/
def holding (n : Nat) (s : State) : State :=
  let reached : Bool := match (s.cc n).ramp with
    | .fall _ | .rise _ _ => decide (1 ≤ s.rampDone n (s.now - s.tickAt)) | _ => false
  if s.slotState n = stHold ∧ reached = true then
    let s := (s.modCc n (fun c => { c with ramp := .held })).put (AX_CC_ST_HOLDING n) 1
    if s.injecting n then s.prHeld n else s.put (AX_CC_ST_LOWRATE n) 1
  else s
def execHolding (n : Fin 16) (s : State) : Out := live s (holding n.val)

/-- BRAKE_RELEASE_START (R86): the motor current has reached IHOLD, or the slot has no motor current. -/
def brakeReleaseStart (n : Nat) (s : State) : State :=
  if s.bit (AX_BRK_ST_BRKWAIT n) ∧ s.get (AX_BRK_ST_BSTATE n) = 0 ∧ s.slotState n = stHold ∧ s.ctlFactory n ∧
      (s.isRemote n ∨ s.bit (AX_CC_ST_HOLDING n)) ∧ !s.searchHolds n ∧ !(s.pr n).blocked then
    (s.put (AX_BRK_ST_BSTATE n) 1).modCc n (fun c => { c with brkAt := s.now })
  else s
def execBrakeReleaseStart (n : Fin 16) (s : State) : Out := live s (brakeReleaseStart n.val)

/-- BRAKE_PULL_END (R86): T_PULL has passed; the 200 ms of a forced alignment count from here. -/
def brakePullEnd (n : Nat) (s : State) : State :=
  if s.get (AX_BRK_ST_BSTATE n) = 1 then
    let s := { s with now := max s.now ((s.cc n).brkAt + s.get (AX_BRK_T_TPULL n) * 1000000) }
    ((s.put (AX_BRK_ST_BSTATE n) 2).put (AX_BRK_ST_BRKWAIT n) 0).modPr n
      (fun p => { p with forced := if p.forced.isSome then some s.now else none })
  else s
def execBrakePullEnd (n : Fin 16) (s : State) : Out := live s (brakePullEnd n.val)

/-- BRAKE_ENGAGE_END (R86): T_ENG has passed and the motor current ramps down. -/
def brakeEngageEnd (n : Nat) (s : State) : State :=
  if s.get (AX_BRK_ST_BSTATE n) = 3 then
    let s := { s with now := max s.now ((s.cc n).brkAt + s.get (AX_BRK_T_TENG n) * 1000000) }
    (s.put (AX_BRK_ST_BSTATE n) 0).modCc n (fun c => { c with ramp := .down 0 })
  else s
def execBrakeEngageEnd (n : Fin 16) (s : State) : Out := live s (brakeEngageEnd n.val)

end Sys2Proof.Machine
end

