-- ==== Sys2Proof/Machine/Prusik.lean ====
section
/-! DEFINITION. Prusik, the factory estimator route (04_sensorless.md, R88 to R114): an estimator instant, the
standstill search, what a tick instant does to its counts, and the commands of its registers. -/
namespace Sys2Proof.Machine

/-! ### Parameters, rates and quotients -/

/-- The estimator reads its parameters (R105). -/
def State.prLatch (s : State) (n : Nat) : State :=
  s.modPr n (fun p => { p with par := (List.range 9).map (fun i => (0x300 + 4 * i, s.rd (AX_PR_CFG n + 4 * i))) })

/-- A quotient; with a zero divisor, which the spec leaves open, a free value. -/
def quot (free : Nat) (a b : Rat) : Rat := if b = 0 then Config.freeRat free else a / b

/-- f_est in Hz (R89). -/
def State.fEst (s : State) (n : Nat) : Rat :=
  ((s.instantsPerTick n : Nat) : Rat) * 1000000000 / ((s.period * s.estDiv n : Nat) : Rat)
/-- N_I of R93, rounded down. -/
def State.nInj (s : State) (n : Nat) : Nat := (s.fEst n / (max (s.prPar n (AX_PR_INJ_FINJ n)) 1 : Nat)).floor.toNat
/-- N_I is a whole number of at least 8 (R93). -/
def State.nInjOk (s : State) (n : Nat) : Bool :=
  let r := s.fEst n / (max (s.prPar n (AX_PR_INJ_FINJ n)) 1 : Nat)
  decide ((r.floor : Rat) = r ∧ 8 ≤ r)

/-- Electrical Hz of a velocity in au per tick. -/
def State.elecHz (s : State) (v : Rat) : Rat := v / 65536 * 1000000000 / (s.period : Nat)
/-- |f_cmd| (R97). -/
def State.fCmd (s : State) (n : Nat) : Rat := ratAbs (s.elecHz (fixToRat (s.gen n).m.v))
/-- |f̂_e|. -/
def State.fHat (s : State) (n : Nat) : Rat := ratAbs (s.pr n).om / (2 * piR)
/-- Setpoint position at `tau` ns after the tick, whole au. -/
def State.spAt (s : State) (sp : Motion) (tau : Nat) : Int :=
  let x : Rat := (tau : Rat) / (s.period : Nat)
  ((sp.p / 2 ^ 32 : Int) + fixToRat sp.v * x + fixToRat sp.a * x * x / 2).floor

/-! ### The search (R95) -/

/-- The search runs with Prusik for this configuration (R95). -/
def State.searchCalled (s : State) (n : Nat) : Bool :=
  (s.get (AX_CC_CFG_MODE n) == 1 && s.bit (AX_CC_CFG_ASRC n)) || (s.get (AX_CC_CFG_MODE n) == 0 && s.bit (AX_PR_CFG_INJEN n))

/-- Injection starts at phase 0; its result is valid after one injection period (R97). -/
def Prusik.injectOn (p : Prusik) (N : Nat) : Prusik := { p with inj := true, n := 0, warm := N, fade := 0, s := [], hI := [], hV := [] }

/-- A standstill search starts; `noPol` runs it without a polarity test (R112). -/
def State.searchStart (s : State) (n : Nat) (noPol : Bool := false) : State :=
  let s := s.prLatch n
  let N := s.nInj n
  let s := s.modPr n (fun p => { (p.injectOn N) with
    searchAt := s.now, lockAt := none, noPol := noPol, forced := none, blocked := false, searched := false, pol := 0 })
  (((s.put (AX_PR_ST_EMODE n) 1).put (AX_PR_ST_VALID n) 0).put (AX_CC_ST_LOWRATE n) 0).modCc n (fun c =>
    { c with ramp := if s.slotState n = stHold ∧ !noPol then .wait else c.ramp })

/-- The estimator starts as its slot enters HOLD from IDLE or SHUTDOWN (R88, R95). Where no search is called for, none has
completed, and VALID stays clear (R110; DEDUCED, notes/assumptions/73). -/
def State.prStart (s : State) (n : Nat) : State :=
  if s.usesPrusik n then
    let s := ((s.setPr n {}).prLatch n).put (AX_PR_ST_FALLBACK n) 0
    if s.searchCalled n then s.searchStart n
    else
      let inj := s.bit (AX_PR_CFG_INJEN n)
      let N := s.nInj n
      (s.modPr n (fun p => if inj then p.injectOn N else p)).put (AX_PR_ST_EMODE n) (if inj then 3 else 7)
  else s

/-- p̂ at the end of a search (R92). -/
def State.prPlace (s : State) (n : Nat) : State :=
  let tau := s.now - s.tickAt
  let sp := (s.gen n).m
  let pos : Rat := (s.spAt sp tau : Rat) + wrapAu (s.prAngleNow n - s.thetaSp n sp tau)
  (s.modPr n (fun p => { p with pos := pos })).puti (AX_PR_POS_V n) pos.floor

/-- The detail that names a flag (R110): its coding is a free value. -/
def State.flagDetail (s : State) : Nat := (Config.freeWord s.drawn).toNat % 65536

/-! ### An estimator instant (R89 to R103) -/

/-- One axis of the observer of R91: current, back-EMF and residual after the instant. -/
def observe (i ih e v r dt ls l1 l2 : Rat) (free : Nat) : Rat × Rat × Rat :=
  let ei := i - ih
  let e := e - l2 * ei
  (ih + quot free dt ls * (v - r * i - e) + l1 * ei, e, ei)

/-- The mean of a list of vectors. -/
def meanVec (l : List (Rat × Rat)) : Rat × Rat :=
  let k : Rat := (max l.length 1 : Nat)
  (((l.map (·.1)).sum : Rat) / k, ((l.map (·.2)).sum : Rat) / k)

/-- einj of R94 from the last samples: the mean of those not left out, over E_h. -/
def State.injError (s : State) (n : Nat) (l : List (Option Rat)) : Rat :=
  let kept := l.filterMap id
  let ld : Rat := (s.prPar n (AX_PR_L_LD n) : Rat) / 1000000
  let lq : Rat := (s.prPar n (AX_PR_L_LQ n) : Rat) / 1000000
  let wh := 2 * piR * (s.get (AX_PR_INJ_FINJ n) : Nat)
  let eh := quot (s.drawn + 1) ((s.get (AX_PR_INJ_VINJ n) : Rat) / 1000 * (ld - lq)) (4 * wh * ld * lq)
  quot (s.drawn + 3) (quot (s.drawn + 2) (kept.sum : Rat) (kept.length : Nat)) eh

/-- BW_eff of R91, Hz. -/
def State.bwEff (s : State) (n : Nat) : Rat :=
  min (max ((s.prPar n (AX_PR_OBS_BWOBS n) : Nat) : Rat) ((s.prPar n (AX_PR_OBS_OBSK n) : Nat) * s.fHat n)) (s.fEst n / 10)

/-- A state restored from a record is extrapolated by its ω̂ to the estimator instant before `t` (R112). -/
def Prusik.resume (p : Prusik) (t : Nat) (dt : Rat) (dir : Bool) : Prusik :=
  if !p.resumed then p else
  let d := p.om * 32768 / piR * ((((t : Int) - p.at_ : Int) : Rat) / 1000000000 - dt)
  { p with resumed := false, th := ratMod (p.th + d) 65536, pos := p.pos + (if dir then -d else d) }

/-- The observer and the PLL (R91, R92) with the injection's demodulation (R94) and the weight (R97). -/
def State.prAngleStep (s : State) (n : Nat) (x : Snapshot) : State :=
  let kind := s.kind n
  let fest := s.fEst n
  let dt := 1 / fest
  let p := (s.pr n).resume x.time dt (s.bit (AX_CC_CFG_DIR n))
  let N := s.nInj n
  let cur := alphaBeta kind (x.corr.map (· / 1000))
  let c := s.cc n
  let vec := if c.vNew.1 < x.time then c.vNew.2 else c.vOld.2
  -- demodulation, in the frame of the latest estimate extrapolated to the instant (DESIGN CHOICE, notes/assumptions/75)
  let th0 := s.prAngle n x.time
  let iq := cur.2 * cosE th0 - cur.1 * sinE th0
  let smp : Option Rat := if s.bit (AX_CC_ST_VSAT n) || x.skips then none
    else some (iq * sinE (quot s.drawn ((p.n : Nat) * 65536) (N : Nat)))
  let smps := if p.inj then (smp :: p.s).take (max N 1) else []
  let warm := p.warm - 1
  let einj : Rat := if !p.inj then 0 else if warm ≠ 0 then Config.freeRat (s.drawn + 4) else s.injError n smps
  let hI := if p.inj then (cur :: p.hI).take (max N 1) else []
  let hV := if p.inj then (vec :: p.hV).take (max N 1) else []
  let i := if p.inj then meanVec hI else cur
  let v := if p.inj then meanVec hV else vec
  -- observer
  let wo := 2 * piR * s.bwEff n
  let ls : Rat := ((s.prPar n (AX_PR_L_LD n) + s.prPar n (AX_PR_L_LQ n) : Nat) : Rat) / 2000000
  let r : Rat := (s.get (AX_CC_MOTOR_RW n) : Rat) / 1000
  let a := observe i.1 p.iA p.eA v.1 r dt ls (2 * wo * dt) (wo * wo * dt * ls) (s.drawn + 5)
  let b := observe i.2 p.iB p.eB v.2 r dt ls (2 * wo * dt) (wo * wo * dt * ls) (s.drawn + 5)
  -- PLL
  let ke : Rat := (s.get (AX_CC_KE_V n) : Rat) / 1000000
  let flo : Rat := (s.prPar n (AX_PR_BAND_FLO n) : Nat)
  let fhi : Rat := (s.prPar n (AX_PR_BAND_FHI n) : Nat)
  let emag := ratSqrt (a.2.1 * a.2.1 + b.2.1 * b.2.1)
  let eemf := quot (s.drawn + 6) ((ratSign p.om : Rat) * (-a.2.1 * cosE p.th - b.2.1 * sinE p.th)) (max emag (ke * flo / 2))
  let w := if warm ≠ 0 ∧ p.inj then p.w else max 0 (min 1 (quot (s.drawn + 7) (s.fHat n - flo) (fhi - flo)))
  let e := (1 - w) * einj / 2 + w * eemf
  let wp := 2 * piR * (s.prPar n (AX_PR_PLL_BWPLL n) : Nat)
  let om := p.om + wp * wp * e * dt
  let dth := (om + 2 * wp * e) * dt * 32768 / piR
  let lock := if p.inj ∧ warm = 0 ∧ ratAbs einj < 1 / 20 then (match p.lockAt with | some t => some t | none => some x.time) else none
  { s with drawn := s.drawn + 8 }.setPr n { p with
    prev := some (p.th, p.om, p.at_), th := ratMod (p.th + dth) 65536, om := om, iA := a.1, iB := b.1, eA := a.2.1, eB := b.2.1, w := w
    pos := p.pos + (if s.bit (AX_CC_CFG_DIR n) then -dth else dth), at_ := x.time
    n := if N = 0 then 0 else (p.n + 1) % N, warm := warm, fade := p.fade - 1, s := smps, hI := hI, hV := hV, qh := iq
    lockAt := lock, sq := p.sq + a.2.2 * a.2.2 + b.2.2 * b.2.2, sqN := p.sqN + 1 }

/-- Injection starts; while it is on the slot does not run at the hold rate (R98). -/
def State.injectStart (s : State) (n : Nat) : State :=
  (s.modPr n (fun p => p.injectOn (s.nInj n))).put (AX_CC_ST_LOWRATE n) 0
/-- Injection and EMODE by R97 (outside the search): injection comes back when either speed falls. -/
def State.prMode (s : State) (n : Nat) : State :=
  let p := s.pr n
  let m := s.get (AX_PR_ST_EMODE n)
  let flo : Rat := (s.prPar n (AX_PR_BAND_FLO n) : Nat)
  let fhi : Rat := (s.prPar n (AX_PR_BAND_FHI n) : Nat)
  if m = 1 ∨ m = 2 ∨ p.blocked ∨ p.forced.isSome then s
  else
    let on := s.bit (AX_PR_CFG_INJEN n) && (p.inj || decide (s.fHat n ≤ fhi ∨ s.fCmd n ≤ fhi))
    let m := if !s.bit (AX_PR_CFG_INJEN n) then (if s.fHat n ≤ flo then 7 else 5) else if !on then 5 else if p.w = 0 then 3 else 4
    let s := if on && !p.inj then s.injectStart n else s
    (s.modPr n (fun p => { p with emfAt := if m = 5 then some (p.emfAt.getD s.now) else none })).put (AX_PR_ST_EMODE n) m

/-- The validity conditions of R110 that the estimator tests at an instant, with the flags they set; answers whether a
condition of the estimate-invalid source holds. -/
def State.prConditions (s : State) (n : Nat) : State × Bool :=
  let p := s.pr n
  let m := s.get (AX_PR_ST_EMODE n)
  let N := s.nInj n
  let ke : Rat := (s.get (AX_CC_KE_V n) : Rat) / 1000000
  let emag := ratSqrt (p.eA * p.eA + p.eB * p.eB)
  let injsat := p.inj && decide (N ≤ p.s.length ∧ N ≤ 2 * p.s.countP (· == none))
  let emflow := m == 5 && decide (emag < ke * (s.prPar n (AX_PR_BAND_FLO n) : Nat) / 2)
  let fast := decide (s.fEst n / 10 < s.fHat n)
  let lowsal := decide (s.get (AX_PR_SAL_V n) < 4301 ∨ s.prPar n (AX_PR_L_LD n) ≤ s.prPar n (AX_PR_L_LQ n))
  let s := (s.flag (AX_PR_ST_LOWSAL n) lowsal).flag (AX_PR_ST_MODEL n) (s.bit (AX_PR_ST_MODEL n) && p.bad != 0)
  let s := ((s.flag (AX_PR_ST_INJSAT n) injsat).flag (AX_PR_ST_EMFLOW n) emflow).flag (AX_PR_ST_OVERSPD n) fast
  (s, ((lowsal || injsat) && (m == 3 || m == 4)) || emflow || fast)

/-- VALID by R110; a change from 1 to 0 raises the sources of the conditions that hold. After an emergency swap it waits for
3 / BW_eff in EMF mode, or for a new lock (R112). -/
def State.prValid (s : State) (n : Nat) : State :=
  let m := s.get (AX_PR_ST_EMODE n)
  if m = 1 ∨ m = 2 ∨ m = 6 then s else
  let (s, inval) := s.prConditions n
  let p := s.pr n
  let model := s.bit (AX_PR_ST_MODEL n)
  let was := s.bit (AX_PR_ST_VALID n)
  let ran : Bool := match p.emfAt with
    | some t => decide (t + ratCeil (quot s.drawn 3000000000 (s.bwEff n)) ≤ s.now) | none => false
  let rec_ := p.recover && !ran
  let s := s.draw.setPr n { p with recover := rec_ }
  let ok := p.searched && !p.blocked && p.forced.isNone && m != 7 && m != 0 && !inval && !model && !rec_
  let s := s.flag (AX_PR_ST_VALID n) ok
  if was && !ok then
    let s := if inval then s.draw.raiseRoute n 1 5 s.flagDetail else s
    if model then s.draw.raiseRoute n 1 7 s.flagDetail else s
  else s

/-- δ of R99, signed au: positive when the rotor lags the current vector in the direction of the setpoint velocity. -/
def State.loadAngle (s : State) (n : Nat) : Rat :=
  let p := s.pr n
  let dir : Rat := (if (s.gen n).m.v < 0 then -1 else 1) * (if s.bit (AX_CC_CFG_DIR n) then -1 else 1)
  dir * wrapAu (p.thI - p.th)

/-- One criterion's persistence (R101): instants without a break, and the setpoint position at the first. -/
def persist (c : Option (Nat × Int)) (holds : Bool) (pos : Int) : Option (Nat × Int) :=
  if !holds then none else match c with | some (k, p) => some (k + 1, p) | none => some (1, pos)
/-- The criterion has held over two instants and STALL_ANG au of setpoint travel. -/
def persisted (c : Option (Nat × Int)) (pos : Int) (ang : Nat) : Bool :=
  match c with | some (k, p) => decide (2 ≤ k ∧ ang ≤ (pos - p).natAbs) | none => false

/-- The stall criteria of R100 and the declaration of R101 and R103. -/
def State.prStall (s : State) (n : Nat) (x : Snapshot) : State :=
  let p := s.pr n
  let mode := s.get (AX_CC_CFG_MODE n)
  let ke : Rat := (s.get (AX_CC_KE_V n) : Rat) / 1000000
  let fc := s.fCmd n
  let speed := quot s.drawn (ratSqrt (p.eA * p.eA + p.eB * p.eB)) ke
  let s := s.draw
  let sl0 := s.prPar n (AX_PR_CFG_SLIP n)
  let slip : Rat := (if 5 ≤ sl0 ∧ sl0 ≤ 90 then sl0 else 30 : Nat)
  let fast := decide ((s.prPar n (AX_PR_BAND_FHI n) : Nat) ≤ fc)
  let d := ratAbs (s.loadAngle n)
  let angleUsed := s.prPar n (AX_PR_CFG_CDELTA n) == 1 && mode == 0 && s.bit (AX_PR_ST_VALID n)
  let c1 := angleUsed && decide ((s.prPar n (AX_PR_DELTA_DELTAST n) : Nat) ≤ d)
  let c2 := s.prPar n (AX_PR_CFG_CSLIP n) == 1 && fast && decide (speed < (1 - slip / 100) * fc) && (mode == 0 || s.bit (AX_CC_ST_ISAT n))
  let near := c1 || c2 ||
    (angleUsed && decide (((s.prPar n (AX_PR_DELTA_DELTAST n) : Int) - s.prPar n (AX_PR_DELTA_DELTAHYS n) : Int) < d)) ||
    (fast && decide (speed ≤ (1 - slip / 200) * fc))
  let pos := s.spAt x.sp x.tau
  let p := { p with crit := persist p.crit c1 pos, slip := persist p.slip c2 pos, critNow := p.critNow || near }
  let ang := s.prPar n (AX_PR_STALL_STALLANG n)
  let s := s.setPr n p
  if p.armed && (persisted p.crit pos ang || persisted p.slip pos ang) then
    let s := s.setPr n { p with armed := false, clear_ := 0 }
    let s := ((s.inc (AX_PR_STALLCNT_V n)).puti (AX_PR_STPOS_V n) pos).put (AX_PR_STTIME_V n) x.time
    let homing : Bool := match (s.gen n).pitch with
      | some q => entryType q.words == 4 && (q.stage == .toSpeed || q.stage == .atSpeed) | none => false
    if homing = true then s.homingStall n
    else (s.put (AX_PR_ST_STALLED n) 1).draw.raiseRoute n 1 4 ((Config.freeWord s.drawn).toNat % 65536)
  else s

/-- The status registers of the estimate change together at the end of an estimator instant (R107). -/
def State.prRegisters (s : State) (n : Nat) : State :=
  let p := s.pr n
  let th := p.th.floor.toNat % 65536
  let la := unsignedOf 16 (s.loadAngle n).floor
  let emf := (ratSqrt (p.eA * p.eA + p.eB * p.eB) * 1000).floor.toNat
  let vel : Rat := p.om * 32768 / piR * (s.period : Nat) / 1000000000 * (if s.bit (AX_CC_CFG_DIR n) then -1 else 1)
  let s := (s.put (AX_PR_ANG_THETA n) th).put (AX_PR_ANG_LOADANG n) la
  let s := s.put (AX_PR_EMF_V n) (if emf < 65536 then emf else (Config.freeWord s.drawn).toNat % 65536)
  (s.draw.puti (AX_PR_VEL_V n) (ratToFix vel)).puti (AX_PR_POS_V n) p.pos.floor
/-- The registers change, and the message of R175 goes to the partner. -/
def State.prPublish (s : State) (n e : Nat) (x : Snapshot) : State :=
  let s := s.prRegisters n
  let p := s.pr n
  let th := p.th.floor.toNat % 65536
  let la := unsignedOf 16 (s.loadAngle n).floor
  let omv := unsignedOf 64 (ratToFix (p.om * 32768 / piR * (s.period : Nat) / 1000000000))
  let w4 := s.get (AX_PR_ST_EMODE n) + 16 * s.get (AX_PR_ST_VALID n) + 32 * s.get (AX_PR_ST_STALLED n)
  s.modEngine e (fun g => { g with outbox := g.outbox ++ [Send.mk 31 0 (some n) 2
    [BitVec.ofNat 32 (th + la * 65536), BitVec.ofNat 32 omv, BitVec.ofNat 32 (omv / 2 ^ 32), BitVec.ofNat 32 x.time,
     BitVec.ofNat 32 w4, 0, 0, 0]] })

/-- SEARCH_COMPLETE (R95): p̂ is set, EMODE is INJ, and VALID is set unless a condition of R110 stands against it. -/
def State.searchComplete (s : State) (n : Nat) : State :=
  (((((s.prPlace n).modPr n (fun p => { p with searched := true, lockAt := none, pol := 0, recover := false })).put
    (AX_PR_ST_EMODE n) 3).prValid n).prHeld n).prRegisters n

/-- A search fails (R95): SEARCHFAIL, its source, and the reaction of FALLBK. A search after an emergency swap has no
reaction of its own (R112; DEDUCED, notes/assumptions/76). -/
def State.searchFail (s : State) (n : Nat) : State :=
  let s := ((s.put (AX_PR_ST_SEARCHFAIL n) 1).put (AX_PR_ST_VALID n) 0).put (AX_PR_ST_EMODE n) 7
  let hold := s.prPar n (AX_PR_CFG_FALLBK n) == 1
  let s := s.modPr n (fun p => { p with inj := false, fade := 0, lockAt := none, pol := 0, noPol := false
                                        blocked := !hold && !p.noPol, forced := if hold && !p.noPol then some s.now else none })
  (s.draw.raiseRoute n 1 6 s.flagDetail).prRegisters n

/-- ESTIMATOR_INSTANT (R90): one pass of the factory Prusik route on engine `e` for slot `n`. -/
def State.estimatorPass (s : State) (n e : Nat) (x : Snapshot) : State :=
  let m := s.get (AX_PR_ST_EMODE n)
  if m = 0 ∨ m = 6 then s
  else (((((s.prAngleStep n x).prMode n).prValid n).prStall n x).prPublish n e x)
/-- The estimator instant in which a trip has stopped the estimator still declares its stall (R114). -/
def State.lateStall (s : State) (n t : Nat) : State :=
  match (s.cc n).prLast with
  | some (u, m, v, p) =>
    if u ≠ t ∨ m = 0 ∨ m = 6 then s
    else
      let r := s.latchSnapshot n t
      let s := ((r.1.setPr n p).put (AX_PR_ST_EMODE n) m).flag (AX_PR_ST_VALID n) v
      ((s.prAngleStep n r.2).prStall n r.2).prStop n
  | none => s

/-! ### A tick instant (R101, R105, R110, R111) -/

/-- What a tick instant does to a running estimator: parameters, SAL, the residual of the tick, the counts. -/
def State.prTick (s : State) (n : Nat) : State :=
  if !s.usesPrusik n ∨ s.get (AX_PR_ST_EMODE n) = 0 then s else
  let s := s.prLatch n
  let ld := s.get (AX_PR_L_LD n)
  let lq := s.get (AX_PR_L_LQ n)
  let sal := roundEven (quot s.drawn ((ld : Rat) * 4096) (lq : Nat))
  let sal16 := if 0 ≤ sal ∧ sal < 65536 then sal.toNat else (Config.freeWord s.drawn).toNat % 65536
  let s := s.draw.put (AX_PR_SAL_V n) sal16
  let p := s.pr n
  let i10 := s.irun n / 10000          -- 10 % of IRUN, A
  let big := decide (p.sqN ≠ 0 ∧ i10 * i10 * (p.sqN : Nat) < p.sq)
  let fhi : Rat := (s.prPar n (AX_PR_BAND_FHI n) : Nat)
  s.setPr n { p with
    sq := 0, sqN := 0, bad := if big then p.bad + 1 else 0
    slow := if fhi ≤ s.fHat n ∧ fhi < s.fCmd n then p.slow + 1 else 0
    good := if s.bit (AX_PR_ST_VALID n) ∧ s.bit (AX_PR_ST_FALLBACK n) then p.good + 1 else 0
    clear_ := if p.armed then 0 else if p.critNow then 0 else p.clear_ + 1, critNow := false }

/-! ### The commands -/

/-- SEARCH_LOCK (R95): |einj| has stayed below 0.05 for 10 ms. -/
def searchLock (n : Nat) (s : State) : State :=
  match (s.pr n).lockAt with
  | some t =>
    if s.get (AX_PR_ST_EMODE n) = 1 then
      let s := { s with now := max s.now (t + 10000000) }
      if s.bit (AX_PR_CFG_POLEN n) ∧ !(s.pr n).noPol then (s.modPr n (fun p => { p with pol := 0 })).put (AX_PR_ST_EMODE n) 2
      else s.searchComplete n
    else s
  | none => s
def execSearchLock (n : Fin 16) (s : State) : Out := live s (searchLock n.val)

/-- POLARITY_DONE (R95): the route has driven the current to IRUN along +d̂ and −d̂, in the rise times `tp` and `tn`, ns. -/
def polarityDone (n tp tn : Nat) (s : State) : State :=
  if s.get (AX_PR_ST_EMODE n) ≠ 2 ∨ (s.pr n).pol ≠ 2 ∨ tp + tn = 0 then s
  else if 200 * ((tp : Int) - tn).natAbs < 3 * (tp + tn) then (s.put (AX_PR_ST_POLFAIL n) 1).searchFail n
  else (if tn < tp then s.modPr n (fun p => { p with
    th := ratMod (p.th + 32768) 65536, prev := p.prev.map (fun e => (ratMod (e.1 + 32768) 65536, e.2)) }) else s).searchComplete n
def execPolarityDone (n : Fin 16) (tp tn : Nat) (s : State) : Out := live s (polarityDone n.val tp tn)

/-- SEARCH_TIMEOUT (R95): no lock within LOCK_MS. -/
def searchTimeout (n : Nat) (s : State) : State :=
  if s.get (AX_PR_ST_EMODE n) = 1 then
    { s with now := max s.now ((s.pr n).searchAt + s.prPar n (AX_PR_LOCK_LOCKMS n) * 1000000) }.searchFail n
  else s
def execSearchTimeout (n : Fin 16) (s : State) : Out := live s (searchTimeout n.val)

/-- FORCED_ALIGN_END (R95, R86): 200 ms of forced alignment, counted from RELEASED where there is a brake. -/
def forcedAlignEnd (n : Nat) (s : State) : State :=
  match (s.pr n).forced with
  | some t =>
    if s.bit (AX_BRK_ST_BRKWAIT n) then s else
    let s := { s with now := max s.now (t + 200000000) }
    let th := s.thetaSp n (s.gen n).m (s.now - s.tickAt)
    let inj := s.bit (AX_PR_CFG_INJEN n)
    let s := s.modPr n (fun p => { p with forced := none, searched := true, th := th, prev := none, at_ := s.now })
    let s := if inj then s.injectStart n else s
    ((((s.prPlace n).put (AX_PR_ST_EMODE n) (if inj then 3 else 7)).prValid n).prHeld n).prRegisters n
  | none => s
def execForcedAlignEnd (n : Fin 16) (s : State) : Out := live s (forcedAlignEnd n.val)

/-- INJECTION_OFF (R97): eight consecutive ticks above F_HI. -/
def injectionOff (n : Nat) (s : State) : State :=
  let p := s.pr n
  let m := s.get (AX_PR_ST_EMODE n)
  if p.inj ∧ 8 ≤ p.slow ∧ (m = 3 ∨ m = 4) then
    ((s.setPr n { p with inj := false, fade := s.nInj n, s := [], hI := [], hV := [], emfAt := some s.now }).put (AX_PR_ST_EMODE n) 5).prRegisters n
  else s
def execInjectionOff (n : Fin 16) (s : State) : Out := live s (injectionOff n.val)

/-- STALL_REARM (R101): RE_N consecutive ticks with both criteria clear. -/
def stallRearm (n : Nat) (s : State) : State :=
  let p := s.pr n
  if !p.armed ∧ max (s.prPar n (AX_PR_CFG_REN n)) 1 ≤ p.clear_ then s.setPr n { p with armed := true, crit := none, slip := none } else s
def execStallRearm (n : Fin 16) (s : State) : Out := live s (stallRearm n.val)

/-- MODEL (R110): eight consecutive ticks of a large residual; the source is raised when VALID clears. -/
def modelMismatch (n : Nat) (s : State) : State :=
  if 8 ≤ (s.pr n).bad ∧ !s.bit (AX_PR_ST_MODEL n) then
    let was := s.bit (AX_PR_ST_VALID n)
    let s := (s.put (AX_PR_ST_MODEL n) 1).put (AX_PR_ST_VALID n) 0
    (if was then s.draw.raiseRoute n 1 7 s.flagDetail else s).prRegisters n
  else s
def execModel (n : Fin 16) (s : State) : Out := live s (modelMismatch n.val)

/-- The conditions of a return from fallback (R111). -/
def State.canResume (s : State) (n : Nat) : Bool :=
  s.bit (AX_PR_ST_FALLBACK n) && s.slotState n == stHold && s.atRest n && s.bit (AX_PR_ST_VALID n)
/-- The control route returns to closed loop. -/
def State.resumeClosed (s : State) (n : Nat) : State :=
  (s.put (AX_PR_ST_FALLBACK n) 0).modCc n (fun c => { c with xv := 0, iqRef := 0 })

/-- AUTOCL_RETURN (R111). -/
def autoclReturn (n : Nat) (s : State) : State :=
  if s.prPar n (AX_PR_CFG_AUTOCL n) == 1 && s.canResume n && decide (64 ≤ (s.pr n).good) then s.resumeClosed n else s
def execAutoclReturn (n : Fin 16) (s : State) : Out := live s (autoclReturn n.val)

/-- RESUMECL (R111). -/
def resumeCl (w : Writer) (n : Nat) (s : State) : State :=
  if !s.owns w n then s else if s.canResume n then s.resumeClosed n else s.err n 5
def execResumecl (w : Writer) (n : Fin 16) (s : State) : Out := live s (resumeCl w n.val)

/-- RESEARCH (R106): the search again, in HOLD at rest, also where ENERGISE calls for none (DESIGN CHOICE, notes/assumptions/74). -/
def research (w : Writer) (n : Nat) (s : State) : State :=
  if !s.owns w n then s
  else if s.slotState n = stHold ∧ s.atRest n ∧ s.usesPrusik n then
    ((s.put (AX_CC_ST_HOLDING n) 0).put (AX_CC_ST_LOWRATE n) 0).searchStart n
  else s.err n 5
def execResearch (w : Writer) (n : Fin 16) (s : State) : Out := live s (research w n.val)

/-- IDENT (R109). -/
def identStart (w : Writer) (n : Nat) (s : State) : State :=
  if !s.owns w n then s
  else if s.slotState n = stIdle ∧ !s.bit (AX_CC_CAL_BUSY n) ∧ !s.bit (AX_PR_CTRL_BUSY n) then (s.put (AX_PR_CTRL_BUSY n) 1).calBegin n 4
  else s.err n 5
def execIdent (w : Writer) (n : Fin 16) (s : State) : Out := live s (identStart w n.val)

/-- A write to AXn_PR_CTRL: the actions in ascending bit order; a W1C 1 clears DONE or FAIL. -/
def prCtrlWrite (w : Writer) (n : Nat) (v : Word) (s : State) : State :=
  let s := s.w1c (AX_PR_CTRL_DONE n) v
  let s := s.w1c (AX_PR_CTRL_FAIL n) v
  let s := if fieldOf v (AX_PR_CTRL_IDENT n) = 1 then identStart w n s else s
  let s := if fieldOf v (AX_PR_CTRL_RESUMECL n) = 1 then resumeCl w n s else s
  if fieldOf v (AX_PR_CTRL_RESEARCH n) = 1 then research w n s else s

/-- IDENT ends (R106). -/
def State.identEnd (s : State) (n code : Nat) : State :=
  let s := (s.modCc n (fun c => { c with calKind := 0 })).calDriveOff n
  (((s.put (AX_PR_CTRL_BUSY n) 0).flag (AX_PR_CTRL_DONE n) (code == 0)).flag (AX_PR_CTRL_FAIL n) (code != 0)).put (AX_PR_CTRL_FAILCODE n) code

/-- IDENT_DONE (R109): measured R_w in mΩ, LD and LQ in µH, or IHOLD not reached. -/
def identDone (n : Nat) (rw ld lq : Int) (notReached : Bool) (s : State) : State :=
  if !s.bit (AX_PR_CTRL_BUSY n) then s
  else if notReached then s.identEnd n 2
  else if ld ≤ 0 ∨ lq ≤ 0 ∨ 65535 < ld ∨ 65535 < lq then s.identEnd n 3
  else
    let r16 := if 0 ≤ rw ∧ rw < 65536 then rw.toNat else (Config.freeWord s.drawn).toNat % 65536
    let lw := (ld + lq + (if Config.freeBit s.drawn then 1 else 0)) / 2
    let s := (s.draw.put (AX_CC_MOTOR_RW n) r16).put (AX_CC_MOTOR_LW n) lw.toNat
    ((s.put (AX_PR_L_LD n) ld.toNat).put (AX_PR_L_LQ n) lq.toNat).identEnd n 0
def execIdentDone (n : Fin 16) (rw ld lq : Int) (notReached : Bool) (s : State) : Out :=
  live s (identDone n.val rw ld lq notReached)

/-- PR_CFG_WRITE (R104): INJEN, POLEN and HINJ change only in IDLE. -/
def prCfgWrite (w : Writer) (n : Nat) (v : Word) (s : State) : State :=
  if !s.owns w n then s else
  let v := v &&& 0x00FFFFFE#32
  if (v ^^^ s.rd (AX_PR_CFG n)) &&& 0x26#32 ≠ 0 ∧ s.slotState n ≠ stIdle then s.err n 5 else s.wr (AX_PR_CFG n) v
def execPrCfgWrite (w : Writer) (n : Fin 16) (v : Word) (s : State) : Out := live s (prCfgWrite w n.val v)

/-- The value of parameter register `i` (offset 0x304 + 4 i) lies in its range (R105). -/
def State.prParamOk (s : State) (n i : Nat) (v : Word) : Bool :=
  match i with
  | 0 => decide (20 ≤ fieldOf v (AX_PR_OBS_BWOBS n) ∧ fieldOf v (AX_PR_OBS_BWOBS n) ≤ 5000 ∧ 1 ≤ fieldOf v (AX_PR_OBS_OBSK n) ∧ fieldOf v (AX_PR_OBS_OBSK n) ≤ 32)
  | 1 => decide (10 ≤ fieldOf v (AX_PR_PLL_BWPLL n) ∧ fieldOf v (AX_PR_PLL_BWPLL n) ≤ 1000)
  | 2 => decide (1000 ≤ fieldOf v (AX_PR_INJ_FINJ n) ∧ fieldOf v (AX_PR_INJ_FINJ n) ≤ 4000 ∧ ¬ (1 ≤ s.get (AX_PR_ST_EMODE n) ∧ s.get (AX_PR_ST_EMODE n) ≤ 4))
  | 3 => decide (fieldOf v (AX_PR_BAND_FLO n) ≠ 0 ∧ fieldOf v (AX_PR_BAND_FLO n) + 2 ≤ fieldOf v (AX_PR_BAND_FHI n))
  | 4 => decide (fieldOf v (AX_PR_DELTA_DELTAHYS n) < fieldOf v (AX_PR_DELTA_DELTAST n))
  | 7 => decide (20 ≤ fieldOf v (AX_PR_LOCK_LOCKMS n) ∧ fieldOf v (AX_PR_LOCK_LOCKMS n) ≤ 5000)
  | _ => true
/-- The bits of a parameter register that hold a field. -/
def prParamMask (i : Nat) : Word := match i with | 0 => 0x00FFFFFF | 1 | 5 | 7 => 0xFFFF | _ => 0xFFFFFFFF

/-- PR_PARAM_WRITE (R105). -/
def prParamWrite (w : Writer) (n i : Nat) (v : Word) (s : State) : State :=
  if !s.owns w n then s
  else if s.prParamOk n i v then s.wr (AX_PR_CFG n + 4 + 4 * i) (v &&& prParamMask i) else s.err n 5
def execPrParamWrite (w : Writer) (n : Fin 16) (i : Fin 8) (v : Word) (s : State) : Out := live s (prParamWrite w n.val i.val v)

end Sys2Proof.Machine
end

