-- ==== Sys2Proof/Machine/Carrier.lean ====
section
/-! DEFINITION. The carrier's valleys and peaks with the loop instants that they begin (08_pwm.md, R180 to R190; R24, R82,
R89, R121). -/
namespace Sys2Proof.Machine

/-- A loop instant begins for every slot with local channels in group `g` (R24): its index, its engines' scheduled
instants by R121, R82 and R89, the two-instant bound of an emergency swap (R136), and a valley of a calibration's drive (R71, R72, R109). -/
def State.loopInstants (s : State) (g : Nat) (peak first : Bool) : State :=
  s.each slots16 (fun n t =>
    if t.isLocal n && t.energised n && t.get (AX_BIND_GRP n) == g && (!peak || t.double n) then
      let t := t.takeLate n
      let x := t.cc n
      let idx := if first then 0 else x.lidx + 1
      let t := t.setCc n { x with lidx := idx, peak := peak, estCount := x.estCount + 1 }
      let ctl := !t.bit (AX_CC_ST_LOWRATE n) || idx % t.holdDiv n == 0
      let est := x.estCount % max (t.estDiv n) 1 == 0
      let sw := t.swap n
      let inSwap := decide (3 ≤ t.get (AX_SWAPST_PHASE n) ∧ t.get (AX_SWAPST_PHASE n) ≤ 4)
      let t := t.each (t.ctlEngine n).toList (fun e u => if ctl then u.schedule e else u)
      let t := t.each (t.estEngine n).toList (fun e u => if est then u.schedule e else u)
      let t := if inSwap && (if sw.role = 0 then ctl else est) then t.schedule sw.tgt else t
      let t := t.each [0, 1] (fun role u =>
        let x := u.swap (emKey n role)
        if x.emerg then
          let u := u.setSwap (emKey n role) { x with instants := x.instants + 1 }
          if x.loaded && (if role = 0 then ctl else est) then u.schedule x.tgt else u
        else u)
      if t.get (AX_SWAPST_PHASE n) = 4 ∧ !peak then t.modSwap n (fun y => { y with switched := true }) else t
    else if t.isLocal n && t.calDrives n && t.get (AX_BIND_GRP n) == g && !peak then t.calPass n t.now
    else t)

/-- CARRIER_VALLEY (R180 to R190): the counter of group `g` reaches 0. `dev` is, at a tick valley, the signed count
by which the count clock has drifted from cell time since the last one. -/
def carrierValley (g : Nat) (dev : Int) (s : State) : State :=
  let x := (s.nextValley g dev).1
  let corr := (s.nextValley g dev).2
  let t := max s.now (x.valley / 2)
  if !s.bit (PWMG_STAT_RUN g) ∨ s.tickNext ≤ t then s else
  let tick := x.idx == 0
  let was := (s.group g).lost
  let d := s.syncDiff g dev
  let s := { s with now := t }.setGroup g x
  let s := if tick then s.syncReport g d was else s
  let s := s.hkcSignal (s.get HKC_ITRIG_SRC == 1 && s.get HKC_ITRIG_GRP == g && !s.bit HKC_ITRIG_PEAK &&
    (tick || !s.bit HKC_ITRIG_TICKV)) s.now
  if (groupChans g).any s.chanRuns then
    (s.each (groupChans g) (fun c t => t.startPeriod c corr)).loopInstants g false tick
  else
    -- COUNTER_STOP (R182)
    (s.each (groupChans g) (fun c t => t.stopChan c)).put (PWMG_STAT_RUN g) 0

/-- CARRIER_PEAK (R180, R186): the counter reaches PER. -/
def carrierPeak (g : Nat) (s : State) : State :=
  let x := s.group g
  let t := max s.now ((x.valley + 8 * s.get (PWMG_PER_PER g)) / 2)
  if !s.bit (PWMG_STAT_RUN g) ∨ x.down ∨ s.tickNext ≤ t then s else
  let s := { s with now := t }.setGroup g { x with down := true }
  let s := s.hkcSignal (s.get HKC_ITRIG_SRC == 1 && s.get HKC_ITRIG_GRP == g && s.bit HKC_ITRIG_PEAK && !s.bit HKC_ITRIG_TICKV) s.now
  (s.each (groupChans g) (fun c t => t.peakUpdate c)).loopInstants g true false

/-- COUNTER_START (R182): at the tick valley T_N + O_g after a slot with a channel of the group has entered HOLD,
or a calibration has begun to drive one. -/
def counterStart (g : Nat) (s : State) : State :=
  let V := 2 * s.tickAt + s.groupOffset g
  if !s.bit (PWMG_STAT_RUN g) && !s.bit (PWMG_CFG_CFGERR g) && s.tickLeft && (groupChans g).any s.chanRuns &&
      decide (s.now ≤ V / 2) then
    let s := { s with now := V / 2 }.setGroup g { idx := 0, valley := V, sampAt := (s.group g).sampAt }
    ((s.put (PWMG_STAT_RUN g) 1).each (groupChans g) (fun c t => t.startPeriod c 0)).loopInstants g false true
  else s

def execCarrierValley (g : Fin 4) (dev : Int) (s : State) : Out := live s (carrierValley g.val dev)
def execCarrierPeak (g : Fin 4) (s : State) : Out := live s (carrierPeak g.val)
def execCounterStart (g : Fin 4) (s : State) : Out := live s (counterStart g.val)

end Sys2Proof.Machine
end

