-- ==== Sys2Proof/Machine/Engines.lean ====
section
/-! DEFINITION. Kondoeth engines and lead swap (05_kondoeth_engines.md, R115 to R137): an engine's memories, the start
and end of a pass, loading, traps and retirement, checkpoints, lead swaps and emergency swaps, and their commands. -/
namespace Sys2Proof.Machine

/-! ### Memories (R115, R116) -/

/-- Word `i` of program memory as the engine and a host read it. -/
def State.progWord (s : State) (e i : Nat) : Word :=
  let x := s.engine e
  if x.pbase ≠ 0 ∧ !x.written.contains i then Config.factoryWord x.pbase i else s.rdMem (progBase e + 4 * i)
/-- Word `i` of data memory. The words of a factory route's data that nothing has written since are free values. -/
def State.dataWord (s : State) (e i : Nat) : Word :=
  let x := s.engine e
  if x.dbase ≠ 0 ∧ !x.written.contains (16384 + i) then Config.factoryWord x.dbase i else s.rdMem (dataBase e + 4 * i)
/-- Note word `i` of the two memories as written over a factory route's. -/
def Engine.note (x : Engine) (i : Nat) : Engine :=
  if (x.pbase = 0 ∧ x.dbase = 0) ∨ x.written.contains i then x else { x with written := i :: x.written }
/-- A write of a program word: the memory no longer holds the verified route (R124). -/
def State.setProgWord (s : State) (e i : Nat) (v : Word) : State :=
  ((s.wrMem (progBase e + 4 * i) v).put (KE_STATUS_LOADED e) 0).modEngine e (fun x => { (x.note i) with route := x.route.map (fun r => { r with factory := 0 }) })
def State.setDataWord (s : State) (e i : Nat) (v : Word) : State :=
  (s.wrMem (dataBase e + 4 * i) v).modEngine e (fun x => x.note (16384 + i))
/-- Consecutive data words from word `i`. -/
def State.setDataWords (s : State) (e i : Nat) (l : List Word) : State :=
  s.each l.zipIdx (fun x t => t.setDataWord e (i + x.2) x.1)

/-! ### Pool, roles and routes (R30, R123) -/

/-- The slot an engine serves or is to serve, when it has a role. -/
def State.engineSlot (s : State) (e : Nat) : Option Nat :=
  if s.get (KE_STATUS_ROLE e) = 0 then none else some (s.get (KE_STATUS_SLOT e))
/-- The engine takes a role of a slot: 1 control, 2 estimator. -/
def State.setRole (s : State) (e role n : Nat) : State := (s.put (KE_STATUS_ROLE e) role).put (KE_STATUS_SLOT e) n
/-- The engine stops and serves nothing; a RETIRED one stays so, any other becomes IDLE and keeps its route. -/
def State.engineIdle (s : State) (e : Nat) : State :=
  let s := (s.setRole e 0 0).modEngine e (fun x => { x with inPass := false, due := none, halt := false })
  if s.pool e = 3 then s else (s.put (KE_STATUS_POOL e) 0).put (KE_STATUS_RUN e) 0
/-- AXn_ENGSEL names engine `e` for a role (0 control, 1 estimator). -/
def State.nameEngine (s : State) (n role e : Nat) : State :=
  if role = 0 then (s.put (AX_ENGSEL_CTLENG n) e).put (AX_ENGSEL_CTLEN n) 1
  else (s.put (AX_ENGSEL_ESTENG n) e).put (AX_ENGSEL_ESTEN n) 1
/-- The engine of a role of a slot. -/
def State.roleEngine (s : State) (n role : Nat) : Option Nat := if role = 0 then s.ctlEngine n else s.estEngine n

/-- The route of engine `e` of kind `k` for the factory routes, 0 for a user route. -/
def State.factoryKind (s : State) (e : Nat) : Nat := match (s.engine e).route with | some r => r.factory | none => 0
/-- Two routes are one image (R136, R416): the same signature. -/
def sameImage (a b : Option Route) : Bool :=
  match a, b with | some r, some q => r.factory == q.factory && r.sig == q.sig | _, _ => false

/-- A start of the route (R143): the engine's registers, stacks and status at their start values. -/
def State.routeStart (s : State) (e : Nat) : State :=
  (s.put (KE_STATUS_TRAP e) 0).modEngine e (fun x => { x with
    g := [], acc := [], blk := [], sat := 0, preds := 0, astat := 0, estat := 0, stack := [], loops := []
    pc := match x.route with | some r => r.entry | none => 0
    inPass := false, due := none, passn := 0, boxes := [], halt := false, skipped := 0, wrote := false })

/-- In a swap's SHADOW phase engine `e` is the target (R134). -/
def State.inShadow (s : State) (e : Nat) : Bool :=
  match s.engineSlot e with
  | some n => s.pool e == 2 && s.get (AX_SWAPST_PHASE n) == 3 && (s.swap n).tgt == e
  | none => false
/-- The slot acts on what engine `e` writes: it serves the slot, or has taken over in a swap. The source of a mailbox
changes at the valley that ends the switch; a source that has been released writes no more (R134, R136). -/
def State.serves (s : State) (e n : Nat) : Bool :=
  if s.pool e = 1 then true
  else if s.pool e = 2 then
    (let p := s.get (AX_SWAPST_PHASE n)
     let x := s.swap n
     if p = 5 then [0, 1].any (fun role => (s.swap (emKey n role)).emerg && (s.swap (emKey n role)).loaded && (s.swap (emKey n role)).tgt == e)
     else if p = 4 then (x.tgt == e) == (x.role == 0 || x.switched)
     else decide (1 ≤ p ∧ x.tgt ≠ e))
  else false

/-- The interval between the scheduled instants of engine `e`, ns (R121). -/
def State.instantInterval (s : State) (e : Nat) : Nat :=
  match s.engineSlot e with
  | none => s.period
  | some n =>
    if !s.isLocal n then s.period
    else
      let k := max (s.instantsPerTick n) 1
      if s.get (KE_STATUS_ROLE e) = 2 then s.period * s.estDiv n / k
      else if s.bit (AX_CC_ST_LOWRATE n) then s.period * s.holdDiv n / k
      else s.period / k

/-! ### Checkpoints (R130, R131) -/

/-- Word `i` of a half of a checkpoint buffer; a factory route's record carries words that the spec does not give. -/
def State.ckpWord (s : State) (n role half i : Nat) : Word :=
  match (if half = 0 then (s.ckp n role).fac0 else (s.ckp n role).fac1), decide (4 ≤ i) with
  | some d, true => Config.factoryWord (16 + d) (0x10000 + i)
  | _, _ => s.rdMem (ckpBase n role half + 4 * i)

/-- The words of a block: sixteen mantissas and one word with SAT and e (R130). -/
def blockWords (b : Blk) (sat : Bool) : List Word :=
  b.m.map (fun m => BitVec.ofInt 32 m) ++ [BitVec.ofNat 32 ((if sat then 256 else 0) + unsignedOf 8 b.e)]

/-- The blocks named by a mask, in ascending order. -/
def maskBlocks (m : Nat) : List Nat := (List.range 16).filter (fun k => m.testBit k)

def Engine.block (x : Engine) (k : Nat) : Blk := tabGet (fun _ => {}) x.blk k
def Engine.setBlock (x : Engine) (k : Nat) (b : Blk) : Engine := { x with blk := tabPut x.blk k b }
/-- Set or clear SAT bit `k`. -/
def Engine.setSat (x : Engine) (k : Nat) (b : Bool) : Engine :=
  { x with sat := withBits x.sat k k (if b then 1 else 0) }

/-- The half that the next record goes to. -/
def Ckp.target (c : Ckp) : Nat := match c.half with | some 0 => 1 | _ => 0
/-- A record of the tick at `tick` is valid in half `h`; `fac` stands for the body of a factory route's record. -/
def State.ckpValid (s : State) (n role h tick : Nat) (fac : Option Nat) : State :=
  let c := s.ckp n role
  let c := { c with half := some h, tick := some tick }
  let c := if h = 0 then { c with fac0 := fac } else { c with fac1 := fac }
  let c := if role = 0 then { c with xs := ((s.cc n).xd, (s.cc n).xq, (s.cc n).xv) } else { c with pr := s.pr n }
  (s.setCkp n role c).put (if role = 0 then AX_CKP_CTLAGE n else AX_CKP_ESTAGE n) 0

/-- The header words of a record (R130). -/
def ckpHeader (r : Route) (tick : Nat) : List Word :=
  [BitVec.ofNat 32 (r.epoch * 65536 + r.bmask), BitVec.ofNat 32 (r.dbase * 65536 + r.nw),
   BitVec.ofNat 32 tick, BitVec.ofNat 32 (tick / 2 ^ 32)]

/-- Deliver the latest valid record of a role into engine `e` (R134, R136). -/
def State.deliver (s : State) (n role e : Nat) : State :=
  match (s.ckp n role).half, (s.engine e).route with
  | some h, some r =>
    if r.factory ≠ 0 then s
    else
      let ks := maskBlocks r.bmask
      let s := s.each ks.zipIdx (fun x t =>
        let w (i : Nat) : Nat := (t.ckpWord n role h (4 + 17 * x.2 + i)).toNat
        t.modEngine e (fun y => (y.setBlock x.1
          { m := (List.range 16).map (fun i => signedOf 24 (w i)), e := signedOf 8 (w 16) }).setSat x.1 (bitsOf (w 16) 8 8 == 1)))
      s.setDataWords e r.dbase ((List.range r.nw).map (fun i => s.ckpWord n role h (4 + 17 * ks.length + i)))
  | _, _ => s

/-! ### Swaps: what a record, a shadow pass and a lost engine do (R133 to R136) -/

/-- SWAP_CKP_DELIVERY (R134): the next record written ends WAITCKP; the target starts its route with the record. A
factory target that follows another route starts with free values in place of its own state. -/
def State.swapCkp (s : State) (n role : Nat) : State :=
  let x := s.swap n
  if s.get (AX_SWAPST_PHASE n) = 2 ∧ x.role = role then
    let s := ((s.routeStart x.tgt).deliver n role x.tgt).put (KE_STATUS_RUN x.tgt) 3
    let s := if s.factoryKind x.tgt = 1 ∧ s.factoryKind x.src ≠ 1 then
        ({ s with drawn := s.drawn + 3 }).modCc n (fun c => { c with
          xd := Config.freeRat s.drawn, xq := Config.freeRat (s.drawn + 1), xv := Config.freeRat (s.drawn + 2), lastRun := none })
      else s
    ((s.put (AX_SWAPST_PHASE n) 3).put (AX_SWAPST_SHADOWS n) 0).setSwap n
      { x with passes := 0, streak := 0, srcOut := none, tgtOut := none, matched := false
               same := s.factoryKind x.tgt != 0 && sameImage (s.engine x.src).route (s.engine x.tgt).route }
  else s

/-- A record of slot `n` and `role` was written by a serving engine. -/
def State.ckpTaken (s : State) (n role h tick : Nat) (fac : Option Nat) : State := (s.ckpValid n role h tick fac).swapCkp n role

/-- A record still being written at cell time `t` becomes valid after its last word (R131, R179). -/
def State.ckpCommit (s : State) (n role t : Nat) : State :=
  match (s.ckp n role).pend with
  | some (h, tick, a) => if a ≤ t then (s.setCkp n role { s.ckp n role with pend := none }).ckpTaken n role h tick none else s
  | none => s
/-- A record that the loss of its engine cuts short never becomes valid. -/
def State.ckpCut (s : State) (n role : Nat) : State :=
  (s.ckpCommit n role s.now).setCkp n role { (s.ckpCommit n role s.now).ckp n role with pend := none }

/-- The checkpoint of a factory route, in the first pass of each tick: its state, and the four header words in memory. -/
def State.factoryCkp (s : State) (n role e : Nat) : State :=
  match (s.engine e).route with
  | some r =>
    let c := s.ckp n role
    if c.tick = some s.tickAt then s
    else ((s.wrMems (ckpBase n role c.target) (ckpHeader r s.tickAt)).draw).ckpTaken n role c.target s.tickAt (some s.drawn)
  | none => s

/-- Whether two outputs match within SWTOL (R132): compare values in eighths, or θ̂ in units of 16 au. -/
def outMatch (role tol : Nat) (a b : Option (List Int)) : Bool :=
  match a, b with
  | some l, some r =>
    l.length == r.length && (l.zip r).all (fun x =>
      if role = 0 then decide ((x.1 - x.2).natAbs ≤ tol)
      else decide (ratAbs (wrapAu ((x.1 - x.2 : Int) : Rat)) ≤ (16 * tol : Nat)))
  | _, _ => false

/-- SHADOW_COMPARE (R134): both engines have ended the pass of one instant. A pass after the match is no shadow pass. -/
def State.shadowCompare (s : State) (n : Nat) : State :=
  let x := s.swap n
  if s.get (AX_SWAPST_PHASE n) ≠ 3 ∨ x.matched then s else
  match x.srcOut, x.tgtOut with
  | some (t, a), some (u, b) =>
    if t ≠ u then s else
    let ok := if x.same then a.isSome && b.isSome else outMatch x.role (s.get (AX_SWAP_SWTOL n)) a b
    let streak := if ok then x.streak + 1 else 0
    let hit := decide (max 2 (s.get (AX_SWAP_SHADOWN n)) ≤ streak)
    (s.incSat (AX_SWAPST_SHADOWS n)).setSwap n { x with
      passes := x.passes + 1, streak := streak, matched := hit
      matchAt := if hit then t else x.matchAt, srcOut := none, tgtOut := none }
  | _, _ => s

/-- What engine `e` wrote in the pass of instant `t` enters the comparison of its swap. -/
def State.swapOutput (s : State) (e t : Nat) (o : Option (List Int)) : State :=
  match s.engineSlot e with
  | some n =>
    let x := s.swap n
    if s.pool e ≠ 2 ∨ s.get (AX_SWAPST_PHASE n) ≠ 3 then s
    else if x.tgt = e then s.setSwap n { x with tgtOut := some (t, o) }
    else s.setSwap n { x with srcOut := some (t, o) }
  | none => s

/-- A pass has ended or was skipped: an engine that wrote nothing enters the comparison with nothing; for the control
route of a REMOTE slot reaching wait is the output. -/
def State.swapPassEnd (s : State) (e t : Nat) (reached : Bool) : State :=
  match s.engineSlot e with
  | some n =>
    let x := s.swap n
    let out := if x.tgt = e then x.tgtOut else x.srcOut
    let has : Bool := match out with | some (u, _) => u == t | none => false
    let s := if has then s
      else s.swapOutput e t (if reached && s.isRemote n && x.role == 0 then some [] else none)
    s.shadowCompare n
  | none => s

/-- The target is lost before the switch (R135): RESULT 10, the source continues. -/
def State.swapTargetLost (s : State) (n : Nat) : State :=
  let x := s.swap n
  let s := if s.pool x.src = 2 then s.put (KE_STATUS_POOL x.src) 1 else s
  (((s.put (AX_SWAPST_PHASE n) 0).put (AX_SWAPST_RESULT n) 10).setSwap n {}).swapAnswer n 10

/-- The engine that takes over for an image (R136): the lowest warm one, else the lowest IDLE one. -/
def State.chooseTarget (s : State) (r : Option Route) : Option (Nat × Bool) :=
  match engines20.find? (fun e => s.pool e == 0 && s.bit (KE_STATUS_LOADED e) && s.run e == 0 && sameImage (s.engine e).route r) with
  | some e => some (e, true)
  | none => (engines20.find? (fun e => s.pool e == 0)).map (fun e => (e, false))

/-- A slot has lost an engine of a role for good (R28, R112, R136). -/
def State.roleLost (s : State) (n role : Nat) : State :=
  if role = 0 then
    (if 2 ≤ s.slotState n ∧ s.slotState n ≤ 4 then s.toTripped n 5 .safe else s)
  else
    let was := s.bit (AX_PR_ST_VALID n)
    let s := (s.put (AX_PR_ST_EMODE n) 0).put (AX_PR_ST_VALID n) 0
    let s := s.modPr n (fun p => { p with inj := false, fade := 0, lockAt := none })
    if was then s.draw.raiseRoute n 1 5 s.flagDetail else s

/-- The target of a role's emergency swap is loaded and takes the latest record (R136); a factory estimator restarts by R112. -/
def State.emergencyLoaded (s : State) (n role : Nat) : State :=
  let x := s.swap (emKey n role)
  let s := (((s.ckpCommit n x.role s.now).routeStart x.tgt).deliver n x.role x.tgt).put (KE_STATUS_RUN x.tgt) 2
  let s := s.setSwap (emKey n role) { x with loaded := true }
  let c := s.ckp n x.role
  match s.factoryKind x.tgt with
  | 1 =>
    let xs := if c.half.isSome then c.xs else (0, 0, 0)
    s.modCc n (fun y => { y with xd := xs.1, xq := xs.2.1, xv := xs.2.2 })
  | 2 =>
    if s.get (AX_PR_ST_EMODE n) = 0 then s else
    let p := if c.half.isSome then c.pr else {}
    let m := s.get (AX_PR_ST_EMODE n)
    let s := (s.setPr n { p with crit := none, slip := none, par := (s.pr n).par, resumed := c.half.isSome, recover := true
                                 emfAt := if m = 5 then some s.now else none }).put (AX_PR_ST_VALID n) 0
    if m = 5 ∨ m = 7 then s
    else if s.searchHolds n ∨ (s.pr n).blocked ∨ (s.pr n).forced.isSome then s.searchStart n
    else s.searchStart n true
  | _ => s

/-- An emergency swap of a role of slot `n` begins for the retired engine `src`, or a new target takes the place of a lost
one (R136); with no IDLE engine the role is lost (R28). -/
def State.emergency (s : State) (n role src : Nat) (img : Option Route) (idx : Nat) : State :=
  let old := s.swap (emKey n role)
  match s.chooseTarget img with
  | none =>
    let s := if old.emerg then (s.emergencyClose n role).put (AX_SWAPST_RESULT n) 10 else s
    s.roleLost n role
  | some (e, warm) =>
    let s := ((s.put (KE_STATUS_POOL e) 2).setRole e (role + 1) n).put (AX_SWAPST_PHASE n) 5
    let s := s.setSwap (emKey n role) { src := src, tgt := e, role := role, route := idx, img := img, warm := warm, emerg := true
                                        instants := if old.emerg then old.instants else 0, gapped := old.emerg && old.gapped }
    match warm, img with
    | false, some q =>
      ((s.put (KE_STATUS_RUN e) 1).put (KE_STATUS_LOADED e) 0).modEngine e (fun x =>
        { x with loading := some (idx, q), due := none, inPass := false, wrote := false })
    | _, _ => s.emergencyLoaded n role

/-- The lead swap of slot `n` goes on as an emergency swap of its role, with its target (R135). -/
def State.emergencyTakes (s : State) (n : Nat) (loaded : Bool) : State :=
  let x := s.swap n
  let y := s.engine x.tgt
  let s := (s.setSwap n {}).setSwap (emKey n x.role)
    { src := x.src, tgt := x.tgt, role := x.role, route := x.route, img := match y.loading with | some l => some l.2 | none => y.route
      warm := loaded, loaded := loaded, emerg := true }
  (s.put (AX_SWAPST_PHASE n) 5).modEngine x.tgt (fun z => { z with wrote := false })

/-- The emergency swap of a role ends: its target is ASSIGNED and named in AXn_ENGSEL. -/
def State.emergencyEnd (s : State) (n role : Nat) : State :=
  let x := s.swap (emKey n role)
  let s := (s.put (KE_STATUS_POOL x.tgt) 1).nameEngine n x.role x.tgt
  (s.emergencyClose n role).put (AX_SWAPST_RESULT n) (if x.gapped then 12 else 11)

/-- Release (R134): the target is named in AXn_ENGSEL; the source becomes IDLE at its next wait, a RETIRED one stays so. -/
def State.releaseSwap (s : State) (n : Nat) : State :=
  let x := s.swap n
  let s := (s.put (KE_STATUS_POOL x.tgt) 1).nameEngine n x.role x.tgt
  let s := if (s.engine x.src).inPass ∧ s.pool x.src = 2 then s.modEngine x.src (fun y => { y with halt := true }) else s.engineIdle x.src
  (((s.put (AX_SWAPST_PHASE n) 0).put (AX_SWAPST_RESULT n) 1).setSwap n {}).swapAnswer n 1

/-! ### Traps (R126, R159) -/

/-- Engine `e` traps with `code`; `operand` is that of a trap instruction. -/
def State.engineTrap (s : State) (e code operand : Nat) : State :=
  let n := s.get (KE_STATUS_SLOT e)
  let slot := (s.engineSlot e).isSome
  let ph := s.get (AX_SWAPST_PHASE n)
  let target := slot && s.pool e == 2 && (s.swap n).tgt == e && decide (1 ≤ ph ∧ ph ≤ 3)
  let role := s.get (KE_STATUS_ROLE e) - 1
  let em := s.swap (emKey n role)
  let s := ((s.put (KE_STATUS_RUN e) 4).put (KE_STATUS_TRAP e) code).modEngine e (fun x => { x with inPass := false, due := none, halt := false })
  let detail := code + operand % 256 * 256
  let addr := s.addrEngine e
  let src := 0x200 + 8 * e + 2
  if target then
    let s := ((s.put (KE_STATUS_POOL e) 0).setRole e 0 0).swapTargetLost n
    s.raise src 0 detail addr s.now false (some 1)
  else if !slot then s.raise src 0 detail addr s.now false (some 1)
  else if em.emerg && em.tgt == e then
    -- the slot's engine from its take-over on: it stays ASSIGNED, and no further emergency swap runs (R126)
    (s.emergencyEnd n role).raise src 0 detail addr s.now false (some (max 3 (s.get (FLT_SRC_SEV src))))
  else s.raise src 0 detail addr s.now false (some (max 3 (s.get (FLT_SRC_SEV src))))

/-! ### Retirement (R119, R136, R137) -/

/-- Engine `e` becomes RETIRED and stops. -/
def State.retire (s : State) (e : Nat) : State :=
  (((s.put (KE_STATUS_POOL e) 3).put (KE_STATUS_RUN e) 0).put ENG_RET_V (withBits (s.get ENG_RET_V) e e 1)).modEngine e
    (fun x => { x with inPass := false, due := none, halt := false, loading := none })

/-- R314: slot `n` has lost a serving engine. -/
def State.slotLost (s : State) (n : Nat) : State :=
  (s.put STR_SLOTLOST_V (withBits (s.get STR_SLOTLOST_V) n n 1)).interruptSlot (· == n) 2

/-- What the loss of engine `e`, just retired, means for the slot it served or was to serve (R135, R136, R314). -/
def State.engineLost (s : State) (e : Nat) : State :=
  match s.engineSlot e with
  | none => s
  | some n =>
    let role := s.get (KE_STATUS_ROLE e) - 1
    let s := s.ckpCut n role
    let ph := s.get (AX_SWAPST_PHASE n)
    let x := s.swap n
    let em := s.swap (emKey n role)
    let img := (s.engine e).route
    let idx := s.get (KE_ISA_RIDX e)
    if em.emerg && em.tgt == e then s.emergency n role e em.img em.route   -- before it was ASSIGNED
    else if ph = 0 ∨ ph = 5 then (s.slotLost n).emergency n role e img idx
    else if x.role ≠ role then     -- a lead swap of the other role runs: the spec does not say (notes/assumptions)
      ((if ph = 4 then s.releaseSwap n else s.swapAbandon n 9).slotLost n).emergency n role e img idx
    else if x.tgt = e then
      (if ph ≤ 3 then s.swapTargetLost n
       else
         let s := (s.engineIdle x.src).nameEngine n role e
         (((s.setSwap n {}).put (AX_SWAPST_PHASE n) 0).slotLost n).emergency n role e img idx)
    else if ph = 4 then s                                -- the release still completes
    else if ph = 3 then ((s.slotLost n).emergencyTakes n true).put (KE_STATUS_RUN x.tgt) 2
    else
      let loaded := decide (ph = 2) || (s.engine x.tgt).loading.isNone
      let s := (s.slotLost n).emergencyTakes n loaded
      if loaded then s.emergencyLoaded n role else s

/-- Where a word with a double-bit error was read (R119). -/
def State.eccUncorrectable (s : State) (site : EccSite) : State :=
  match site with
  | .engineMem e mem word =>
    let e := e.val
    let s := ((s.put (KE_ECC_UE e) 1).put (KE_ECC_MEM e) mem.val).wr (KE_ECCADR e) (BitVec.ofNat 32 (4 * word.val))
    let addr := s.addrEngine e
    let was := s.pool e
    let target : Bool := match s.engineSlot e with
      | some n => (s.swap n).tgt == e && decide (was = 2 ∧ 1 ≤ s.get (AX_SWAPST_PHASE n) ∧ s.get (AX_SWAPST_PHASE n) ≤ 3) | none => false
    let s := s.retire e
    let s := if was = 1 ∨ was = 2 then s.engineLost e else s
    let s := if target then s.setRole e 0 0 else s
    let s := s.raise (0x200 + 8 * e + 1) (5 + mem.val) (mem.val * 2 ^ 14 + word.val) addr s.now
    s.setRole e 0 0
  | .cellByEngine e word =>
    if (s.engine e.val).inPass then
      let s := ((s.put (KE_ECC_MEM e.val) 3).wr (KE_ECCADR e.val) (BitVec.ofNat 32 (4 * word.val)))
      (s.raise 9 8 (4 * word.val) (s.addrEngine e.val) s.now).engineTrap e.val 4 0
    else s
  | .cellByHost word => s.raise 9 8 (4 * word.val) 0 s.now
def execEccUncorrectable (site : EccSite) (s : State) : Out := live s (fun s => s.eccUncorrectable site)

/-! ### The start and the end of a pass (R121, R122, R125) -/

/-- A pass of engine `e` reaches wait after `cyc` cycles; with none the count is a free value (a factory route). -/
def State.endPass (s : State) (e : Nat) (cyc : Option Nat) : State :=
  let x := s.engine e
  let t := s.instantInterval e
  let c := match cyc with | some c => c | none => (Config.freeWord s.drawn).toNat % 901
  let last := if c < 65536 then c else (Config.freeWord (s.drawn + 1)).toNat % 65536
  let s := { s with drawn := s.drawn + 2 }
  let ns := (5 * (c - 1) + 1) / 2     -- wait issues one cycle before the count
  let s := (s.put (KE_CYC_CYCLAST e) last).put (KE_CYC_CYCMAX e) (max (s.get (KE_CYC_CYCMAX e)) last)
  let s := if t - ns % max t 1 < 1500 then s.inc (KE_LATEWAIT_V e) else s
  let s := s.setEngine e { x with inPass := false, endAt := x.inst + ns, passn := x.passn + 1, skipped := 0, fresh := false, halt := false }
  let s := match x.angle, s.engineSlot e with
    | some a, some n => ((s.put (AX_CC_ANGLE_V n) a).modPr n (fun p => { p with thI := (a : Nat) })).modEngine e (fun y => { y with angle := none })
    | _, _ => s
  let s := match s.engineSlot e with | some n => s.ckpCommit n (s.get (KE_STATUS_ROLE e) - 1) (x.inst + ns) | none => s
  let s := s.swapPassEnd e x.inst true
  if x.halt then s.engineIdle e else s

/-- The whole pass of a factory route at its instant: it acts for the slot, or in shadow only on its own state. -/
def State.factoryPass (s : State) (e k : Nat) (x : Snapshot) : State :=
  let n := s.get (KE_STATUS_SLOT e)
  let s := s.modEngine e (fun y => { y with written := y.written.filter (· < 16384), dbase := 16 + s.drawn, wrote := true })
  let s := s.draw
  let s :=
    if k = 1 then
      if s.serves e n then
        let s := s.beginRise n x.tau
        let r := if s.isLocal n then s.controlPass n x else (s, [])
        let s := if s.energised n && s.isLocal n then r.1.takeVector (s.localChans n) r.2 else r.1
        let s := if s.energised n then s.brakePass n x else s
        let s := s.swapOutput e x.time (some (r.2.map (fun (c : Nat) => (c : Int))))
        s.factoryCkp n 0 e
      else if s.inShadow e then
        if (s.swap n).same then s.swapOutput e x.time (some [])
        else
          let r := s.controlPass n x
          let s := { s with ccs := r.1.ccs, prs := r.1.prs, drawn := r.1.drawn }
          (s.swapOutput e x.time (some (r.2.map (fun (c : Nat) => (c : Int))))).modSwap n
            (fun y => { y with vec := ((s.localChans n).zip r.2).map (fun v => (v.1, 1, v.2)) })
      else s
    else if s.serves e n then
      let s := s.estimatorPass n e x
      (s.swapOutput e x.time (some [(s.pr n).th.floor])).factoryCkp n 1 e
    else if s.inShadow e then s.swapOutput e x.time (some [(s.pr n).th.floor])
    else s
  s.endPass e none

/-- A scheduled instant begins while a pass runs (R122): it is skipped. -/
def State.overrun (s : State) (e t : Nat) : State :=
  let s := (s.inc (KE_OVERRUN_V e)).modEngine e (fun x => { x with skipped := x.skipped + 1 })
  let s := s.raise (0x200 + 8 * e + 3) 0 (min (s.engine e).skipped 65535) (s.addrEngine e) s.now
  s.swapPassEnd e t false

/-- ENGINE_PASS_START (R121, R161): the snapshot is latched and the pass starts, or the instant is skipped. -/
def enginePassStart (e : Nat) (s : State) : State :=
  let x := s.engine e
  match x.due with
  | none => s
  | some t =>
    let s := s.setEngine e { x with due := none }
    if s.run e ≠ 2 ∧ s.run e ≠ 3 then
      (match s.engineSlot e with
       | some n => if s.get (KE_STATUS_ROLE e) = 2 ∧ s.factoryKind e = 2 then s.lateStall n t else s
       | none => s)
    else if x.inPass ∨ t < x.endAt then s.overrun e t
    else
      let begin_ (snap : Snapshot) (s : State) : State := s.modEngine e (fun y => { y with
        inst := t, cyc := 0, rdy := [], trPass := 0, evts := 0, wrote := false, angle := none, snap := snap, inPass := true })
      match s.engineSlot e with
      | none => begin_ {} s
      | some n =>
        let (s, snap) := s.latchSnapshot n t
        let s := begin_ snap s
        let k := s.factoryKind e
        if k = 1 ∨ k = 2 then s.factoryPass e k snap
        else if s.get (KE_STATUS_ROLE e) = 1 ∧ s.serves e n then s.beginRise n snap.tau else s
def execEnginePassStart (e : Fin 20) (s : State) : Out := live s (enginePassStart e.val)

/-! ### Emergency commands (R136) -/

/-- EMERGENCY_GAP: a cold control target is not loaded after two loop instants. -/
def emergencyGap (n : Nat) (s : State) : State :=
  let x := s.swap (emKey n 0)
  if x.emerg ∧ 2 ≤ x.instants ∧ !x.gapped ∧ !x.loaded ∧ s.isLocal n ∧ s.energised n then
    let low := s.bit (AX_SWAP_GAP n)
    let s := s.each (s.localChans n) (fun c t =>
      let on := low && !t.vgdLow (c / 8) && !t.safeoff
      (t.force c (if on then mLowon else mOff) on).modChan c (fun y => { y with want := if low then 2 else 0 }))
    ((s.put (AX_SWAPST_GAPRUN n) 1).setSwap (emKey n 0) { x with gapped := true }).raise (0x100 + 16 * n + 9) 0 x.tgt
      (0x800000 + x.src * 0x10000 + addrSlot n) s.now
  else s
def execEmergencyGap (n : Fin 16) (s : State) : Out := live s (emergencyGap n.val)

/-- The target of a role's emergency swap takes over: it is loaded, holds the record and has written its first vector (a
REMOTE slot's control route, which writes none, has ended a pass), or the slot is not energised. -/
def State.takesOver (s : State) (n role : Nat) : Bool :=
  let x := s.swap (emKey n role)
  let y := s.engine x.tgt
  x.emerg && x.loaded && (!s.energised n || y.wrote || (s.isRemote n && y.passn != 0))
/-- EMERGENCY_TAKEOVER, of the control role first. -/
def emergencyTakeover (n : Nat) (s : State) : State :=
  match [0, 1].find? (s.takesOver n) with
  | some role =>
    let tgt := (s.swap (emKey n role)).tgt
    if s.energised n then s.emergencyEnd n role else (s.emergencyEnd n role).put (KE_STATUS_RUN tgt) 0
  | none => s
def execEmergencyTakeover (n : Fin 16) (s : State) : Out := live s (emergencyTakeover n.val)

/-! ### Host writes to engine memories (R116, R127) -/

/-- PROGRAM_MEMORY_WRITE (R116): taken for an IDLE, STOPPED engine, else discarded with ERR 1. -/
def programWrite (e i : Nat) (v : Word) (s : State) : State :=
  if s.pool e = 0 ∧ s.run e = 0 then s.setProgWord e i v else s.put (KE_STATUS_ERR e) 1
def execProgramMemoryWrite (e : Fin 20) (i : Fin 16384) (v : Word) (s : State) : Out := live s (programWrite e.val i.val v)
/-- DATA_MEMORY_WRITE (R116, R127): the word lands whole. -/
def dataWrite (e i : Nat) (v : Word) (s : State) : State := s.setDataWord e i v
def execDataMemoryWrite (e : Fin 20) (i : Fin 8192) (v : Word) (s : State) : Out := live s (dataWrite e.val i.val v)

/-! ### KEn_CTRL (R123, R124) -/

/-- The ERR of a LOAD, 0 when taken. -/
def State.loadErr (s : State) (e idx : Nat) : Nat :=
  let x := s.dirImg idx
  if s.pool e = 3 then 5
  else if s.pool e ≠ 0 ∨ s.run e ≠ 0 then 1
  else if idx = 255 ∨ x.st ≠ 2 then 2
  else if !x.usable then 1
  else if 3 < (x.route idx).isa then 3
  else if !s.sigOk x then 4
  else 0
/-- LOAD: a write of KEn_CTRL with ROUTE and LOAD, route `idx` into an IDLE, STOPPED engine. -/
def engineLoad (w : Writer) (e idx : Nat) (s : State) : State :=
  if !s.owns w (s.engineAnchor e) then s else
  let s := s.put (KE_CTRL_ROUTE e) idx
  let err := s.loadErr e idx
  if err ≠ 0 then s.put (KE_STATUS_ERR e) err
  else ((s.put (KE_STATUS_RUN e) 1).put (KE_STATUS_LOADED e) 0).modEngine e (fun x => { x with loading := some (idx, (s.dirImg idx).route idx) })

/-- The route being loaded is in the engine's memories: IDLE with LOADED = 1. -/
def State.loadFinish (s : State) (e : Nat) : State :=
  match (s.engine e).loading with
  | none => s
  | some (idx, r) =>
    let s := s.modEngine e (fun x => { x with route := some r, loading := none, pbase := r.factory
                                              dbase := if r.factory = 0 then 0 else 16 + s.drawn, written := [] })
    let s := if r.factory = 0 then (s.wrMems (progBase e) r.prog).wrMems (dataBase e) r.data else s.draw
    let s := ((s.put (KE_ISA_ISA e) r.isa).put (KE_ISA_RIDX e) idx).put (KE_ISA_EPOCH e) r.epoch
    (s.put (KE_STATUS_LOADED e) 1).put (KE_STATUS_RUN e) 0
/-- LOAD_DONE (R123): the load completes; an emergency target then takes the record (R136). -/
def loadDone (e : Nat) (s : State) : State :=
  match s.engineSlot e with
  | none => s.loadFinish e
  | some n =>
    if s.pool e ≠ 2 then s.loadFinish e
    else match [0, 1].find? (fun role => (s.swap (emKey n role)).emerg && (s.swap (emKey n role)).tgt == e) with
      | some role => if (s.engine e).loading.isSome then (s.loadFinish e).emergencyLoaded n role else s
      | none => s
def execLoadDone (e : Fin 20) (s : State) : Out := live s (loadDone e.val)
def execEngineLoad (w : Writer) (e : Fin 20) (route : Fin 256) (s : State) : Out := live s (engineLoad w e.val route.val)

/-- START: the loaded route runs as free-standing. -/
def engineStart (w : Writer) (e : Nat) (s : State) : State :=
  if !s.owns w (s.engineAnchor e) then s
  else if s.pool e = 3 then s.put (KE_STATUS_ERR e) 5
  else if s.pool e ≠ 0 ∨ s.run e ≠ 0 ∨ !s.bit (KE_STATUS_LOADED e) then s.put (KE_STATUS_ERR e) 1
  else match (s.engine e).route with
    | some r =>
      if r.role ≠ 2 then s.put (KE_STATUS_ERR e) 6
      else ((s.routeStart e).put (KE_STATUS_POOL e) 1).put (KE_STATUS_RUN e) 2
    | none => s.put (KE_STATUS_ERR e) 1
def execStart (w : Writer) (e : Fin 20) (s : State) : Out := live s (engineStart w e.val)

/-- HALT: a free-standing route stops at its next wait, at once when TRAPPED. -/
def haltAction (w : Writer) (e : Nat) (s : State) : State :=
  if !s.owns w (s.engineAnchor e) then s
  else if s.pool e = 3 then s.put (KE_STATUS_ERR e) 5
  else if s.get (KE_STATUS_ROLE e) = 0 ∧ s.run e = 4 then s.engineIdle e
  else if s.get (KE_STATUS_ROLE e) = 0 ∧ s.pool e = 1 ∧ s.run e = 2 then s.modEngine e (fun x => { x with halt := true })
  else s.put (KE_STATUS_ERR e) 1
def execHaltAction (w : Writer) (e : Fin 20) (s : State) : Out := live s (haltAction w e.val)

/-- A write to KEn_CTRL: ROUTE, then the actions in ascending bit order. -/
def keCtrlWrite (w : Writer) (e : Nat) (v : Word) (s : State) : State :=
  if !s.owns w (s.engineAnchor e) then s else
  let idx := fieldOf v (KE_CTRL_ROUTE e)
  let s := s.put (KE_CTRL_ROUTE e) idx
  let s := if fieldOf v (KE_CTRL_LOAD e) = 1 then engineLoad w e idx s else s
  let s := if fieldOf v (KE_CTRL_START e) = 1 then engineStart w e s else s
  if fieldOf v (KE_CTRL_HALT e) = 1 then haltAction w e s else s

/-! ### Trace (R129) -/

def traceArm (e : Nat) (s : State) : State :=
  ((s.put (KE_TRPOS_COUNT e) 0).put (KE_TRCFG_STATE e) 1).modEngine e (fun x => { x with trNext := 0, trLeft := 0 })
def execTraceArm (e : Fin 20) (s : State) : Out := live s (traceArm e.val)
def traceStop (e : Nat) (s : State) : State := s.put (KE_TRCFG_STATE e) 0
def execTraceStop (e : Fin 20) (s : State) : Out := live s (traceStop e.val)
def traceForce (e : Nat) (s : State) : State := s.traceTrigger e s.now
def execTraceForce (e : Fin 20) (s : State) : Out := live s (traceForce e.val)
/-- TRACE_DONE: POST further entries are recorded. -/
def traceDone (e : Nat) (s : State) : State :=
  if s.get (KE_TRCFG_STATE e) = 2 ∧ (s.engine e).trLeft = 0 then s.put (KE_TRCFG_STATE e) 3 else s
def execTraceDone (e : Fin 20) (s : State) : Out := live s (traceDone e.val)
/-- A write to KEn_TRCFG: the fields, then the actions in ascending bit order. -/
def trcfgWrite (e : Nat) (v : Word) (s : State) : State :=
  let s := ((s.put (KE_TRCFG_POST e) (fieldOf v (KE_TRCFG_POST e))).put (KE_TRCFG_TRPRED e) (fieldOf v (KE_TRCFG_TRPRED e))).put
    (KE_TRCFG_TREVT e) (fieldOf v (KE_TRCFG_TREVT e))
  let s := s.w1c (KE_TRCFG_DROP e) v
  let s := if fieldOf v (KE_TRCFG_ARM e) = 1 then traceArm e s else s
  let s := if fieldOf v (KE_TRCFG_STOP e) = 1 then traceStop e s else s
  if fieldOf v (KE_TRCFG_FORCE e) = 1 then traceForce e s else s

/-! ### Lead swap commands (R132 to R135) -/

/-- The RESULT of a refused GO with fields `v`, 0 when accepted (R133). -/
def State.swapRefusal (s : State) (n : Nat) (v : Word) : Nat :=
  let role := fieldOf v (AX_SWAP_ROLE n)
  let tgt := fieldOf v (AX_SWAP_TARGET n)
  let idx := fieldOf v (AX_SWAP_ROUTE n)
  if s.slotState n < 2 ∨ 4 < s.slotState n then 2
  else if s.get (AX_SWAPST_PHASE n) ≠ 0 then 3
  else if 19 < tgt ∨ s.roleEngine n role = some tgt ∨ s.pool tgt ≠ 0 then 4
  else match s.roleEngine n role with
    | none => 5
    | some src =>
      let idx := if idx = 255 then s.get (KE_ISA_RIDX src) else idx
      let img := s.dirImg idx
      if !img.usable ∨ 3 < (img.route idx).isa ∨ !s.sigOk img then 5
      else match (s.engine src).route with
        | none => 5
        | some r =>
          let q := img.route idx
          if q.epoch ≠ r.epoch ∨ q.role ≠ r.role ∨ q.bmask ≠ r.bmask ∨ q.dbase ≠ r.dbase ∨ q.nw ≠ r.nw then 6 else 0

/-- GO (R133, R134): refused with RESULT and nothing else, or the swap enters LOAD. -/
def State.swapStart (s : State) (n : Nat) (v : Word) : State :=
  let r := s.swapRefusal n v
  if r ≠ 0 then s.put (AX_SWAPST_RESULT n) r
  else
    let role := fieldOf v (AX_SWAP_ROLE n)
    let tgt := fieldOf v (AX_SWAP_TARGET n)
    match s.roleEngine n role with
    | none => s
    | some src =>
      let idx := if fieldOf v (AX_SWAP_ROUTE n) = 255 then s.get (KE_ISA_RIDX src) else fieldOf v (AX_SWAP_ROUTE n)
      let q := (s.dirImg idx).route idx
      let s := (s.wr (AX_SWAP n) (v &&& 0xFFFFFF3F#32)).setSwap n { src := src, tgt := tgt, role := role, route := idx }
      let s := ((s.put (KE_STATUS_POOL src) 2).put (KE_STATUS_POOL tgt) 2).setRole tgt (role + 1) n
      let s := ((s.put (AX_SWAPST_PHASE n) 1).put (AX_SWAPST_RESULT n) 0).put (AX_SWAPST_SHADOWS n) 0
      if s.bit (KE_STATUS_LOADED tgt) ∧ sameImage (s.engine tgt).route (some q) then s
      else ((s.put (KE_STATUS_RUN tgt) 1).put (KE_STATUS_LOADED tgt) 0).modEngine tgt (fun x => { x with loading := some (idx, q) })

/-- CANCEL (R135): before the switch of a lead swap. -/
def State.swapCancel (s : State) (n : Nat) : State := if s.swapEarly n then s.swapAbandon n 8 else s

/-- A write to AXn_SWAP (R132). -/
def swapWrite (w : Writer) (n : Nat) (v : Word) (s : State) : State :=
  if !s.owns w n then s
  else
    let go := fieldOf v (AX_SWAP_GO n) == 1
    let cancel := fieldOf v (AX_SWAP_CANCEL n) == 1
    if go && cancel then s.err n 5
    else if go then s.swapStart n v
    else
      let s := s.wr (AX_SWAP n) (v &&& 0xFFFFFF3F#32)
      if cancel then s.swapCancel n else s
/-- SWAP_GO: a write of AXn_SWAP with fields `v` and GO set. -/
def execSwapGo (w : Writer) (n : Fin 16) (v : Word) (s : State) : Out := live s (swapWrite w n.val ((v ||| 0x80#32) &&& 0xFFFFFFBF#32))
/-- SWAP_CANCEL: a write of AXn_SWAP with fields `v` and CANCEL set. -/
def execSwapCancel (w : Writer) (n : Fin 16) (v : Word) (s : State) : Out := live s (swapWrite w n.val ((v ||| 0x40#32) &&& 0xFFFFFF7F#32))

/-- SWAP_LOAD_DONE (R134): the target holds its route and the swap waits for a record. -/
def swapLoadDone (n : Nat) (s : State) : State :=
  let x := s.swap n
  if s.get (AX_SWAPST_PHASE n) = 1 then
    ((s.loadFinish x.tgt).put (AX_SWAPST_PHASE n) 2).setSwap n { x with ticks := 0 }
  else s
def execSwapLoadDone (n : Fin 16) (s : State) : Out := live s (swapLoadDone n.val)

/-- WAITCKP_TIMEOUT (R134): 64 ticks with no record. -/
def waitckpTimeout (n : Nat) (s : State) : State :=
  if s.get (AX_SWAPST_PHASE n) = 2 ∧ 64 ≤ (s.swap n).ticks then s.swapAbandon n 13 else s
def execWaitckpTimeout (n : Fin 16) (s : State) : Out := live s (waitckpTimeout n.val)

/-- SHADOW_MISMATCH_END (R134): 64 shadow passes without SHADOWN matches. -/
def shadowMismatch (n : Nat) (s : State) : State :=
  if s.get (AX_SWAPST_PHASE n) = 3 ∧ 64 ≤ (s.swap n).passes ∧ !(s.swap n).matched then s.swapAbandon n 7 else s
def execShadowMismatchEnd (n : Fin 16) (s : State) : Out := live s (shadowMismatch n.val)

/-- The present pass may carry the switch (R134): it began after the match and its update point is a valley, or no pass
of the slot has one; for a REMOTE slot, the first tick instant after the match. -/
def State.switchPass (s : State) (n : Nat) : Bool :=
  let x := s.swap n
  if s.isRemote n then decide (x.matchAt < s.tickAt)
  else
    let t := match (s.cc n).latch with | some y => y.time | none => 0
    let c := s.cc n
    decide (x.matchAt < t) && (!s.double n || c.peak ||
      (s.bit (AX_CC_ST_LOWRATE n) && s.holdDiv n % 2 == 0))

/-- SWITCH (R134): the modulator takes the target's vector, the one already captured in this pass included. -/
def swapSwitch (n : Nat) (s : State) : State :=
  let x := s.swap n
  if s.get (AX_SWAPST_PHASE n) = 3 ∧ x.matched ∧ s.switchPass n then
    let s := (s.put (AX_SWAPST_PHASE n) 4).put (KE_STATUS_RUN x.tgt) 2
    let s := s.setSwap n { x with switched := s.isRemote n }
    let wrote : Bool := match x.tgtOut, (s.cc n).latch with | some o, some y => o.1 == y.time | _, _ => false
    if x.role = 0 ∧ s.energised n ∧ wrote then
      s.each x.vec (fun v t => (if v.2.1 = 1 then t.put (PWM_CMPN_CMPN v.1) v.2.2 else t).modChan v.1 (fun y => { y with want := v.2.1 }))
    else s
  else s
def execSwitch (n : Fin 16) (s : State) : Out := live s (swapSwitch n.val)

/-- SWAP_RELEASE (R134): the valley, or tick instant, that ends the switch. -/
def swapRelease (n : Nat) (s : State) : State :=
  if s.get (AX_SWAPST_PHASE n) = 4 ∧ ((s.swap n).switched ∨ !s.energised n) then s.releaseSwap n else s
def execSwapRelease (n : Fin 16) (s : State) : Out := live s (swapRelease n.val)

/-! ### ENG_RETCMD (R137) -/

/-- UNRETIRE of engine number `e`: taken only when RETIRED. -/
def unretire (e : Nat) (s : State) : State :=
  let s := s.put ENG_RETCMD_ENG e
  if e < 20 ∧ s.pool e = 3 then s.modEngine e (fun x => { x with unret := true }) else s.put ENG_RETCMD_REFUSED 1
def execUnretire (e : Fin 32) (s : State) : Out := live s (unretire e.val)
/-- RETIRE of engine number `e`: taken only when IDLE. -/
def retireAction (e : Nat) (s : State) : State :=
  let s := s.put ENG_RETCMD_ENG e
  if e < 20 ∧ s.pool e = 0 then s.retire e else s.put ENG_RETCMD_REFUSED 1
def execRetire (e : Fin 32) (s : State) : Out := live s (retireAction e.val)
/-- A write to ENG_RETCMD: the W1C of REFUSED, then RETIRE and UNRETIRE. -/
def retcmdWrite (v : Word) (s : State) : State :=
  let e := fieldOf v ENG_RETCMD_ENG
  let s := s.put ENG_RETCMD_ENG e
  let s := s.w1c ENG_RETCMD_REFUSED v
  let s := if fieldOf v ENG_RETCMD_RETIRE = 1 then retireAction e s else s
  if fieldOf v ENG_RETCMD_UNRETIRE = 1 then unretire e s else s

/-- UNRETIRE_DONE (R137): every memory of the engine is cleared and it is IDLE with no route. -/
def unretireDone (e : Nat) (s : State) : State :=
  if (s.engine e).unret ∧ s.pool e = 3 then
    let s := s.clearMem (progBase e) (progBase e + 0x18000)
    let s := ((s.wr (KE_ISA e) 0).put (KE_STATUS_LOADED e) 0).setRole e 0 0
    let s := ((s.put (KE_ECC_UE e) 0).put (KE_ECC_MEM e) 0).wr (KE_ECCADR e) 0
    let s := ((s.put (KE_STATUS_POOL e) 0).put (KE_STATUS_RUN e) 0).put ENG_RET_V (withBits (s.get ENG_RET_V) e e 0)
    s.setEngine e {}
  else s
def execUnretireDone (e : Fin 20) (s : State) : Out := live s (unretireDone e.val)

end Sys2Proof.Machine
end

