-- ==== Sys2Proof/Machine/KondoethCompute.lean ====
section
/-! DEFINITION. Kondoeth instructions: integer, block-floating, transcendental and flow (06_kondoeth_compute.md, R138 to
R159). A command names the engine; the word is the one its program counter addresses, and the command acts when that
word is of its row. Cycles are those of R141: `Engine.rdy` holds the cycle from which a result or a unit is free. -/
namespace Sys2Proof.Machine

/-! ### Registers, fetch, guard and issue (R138, R139, R141) -/

def Engine.reg (x : Engine) (r : Nat) : Word := if r = 0 then 0 else tabGet (fun _ => 0) x.g r
/-- Write a g register; a write to g0 is discarded (R115). -/
def Engine.setReg (x : Engine) (r : Nat) (v : Word) : Engine := if r = 0 then x else { x with g := tabPut x.g r v }
/-- A predicate; p0 reads 1. -/
def Engine.pred (x : Engine) (p : Nat) : Bool := p == 0 || x.preds.testBit p
/-- Write a predicate; a write to p0 is discarded. -/
def Engine.setPred (x : Engine) (p : Nat) (b : Bool) : Engine :=
  if p = 0 then x else { x with preds := withBits x.preds p p (if b then 1 else 0) }
def Engine.accum (x : Engine) (a : Nat) : Acc := tabGet (fun _ => {}) x.acc a

/-- Keys of the scoreboard: g registers, accumulators, predicates, block elements, SAT bits, the two units. -/
def kReg (r : Nat) : Nat := r
def kAcc (a : Nat) : Nat := 32 + a
def kPred (p : Nat) : Nat := 40 + p
def kElem (b i : Nat) : Nat := 64 + 16 * b + i
def kBlock (b : Nat) : List Nat := (List.range 16).map (kElem b)
def kSat (b : Nat) : Nat := 320 + b
def kBlockUnit : Nat := 400
def kTransUnit : Nat := 401

/-- The cycle at which an instruction that needs these keys can issue. -/
def Engine.ready (x : Engine) (keys : List Nat) : Nat := keys.foldl (fun t k => max t (tabGet (fun _ => 0) x.rdy k)) x.cyc

/-- The end test of the loops at `pc` (R157): the next program counter and the loops that remain. -/
def loopAdvance (pc depth : Nat) : List LoopRec → Nat × List LoopRec
  | [] => (pc + 1, [])
  | l :: rest =>
    if l.last = pc ∧ l.depth = depth then
      (if 1 < l.left then (l.first, { l with left := l.left - 1 } :: rest) else loopAdvance pc depth rest)
    else (pc + 1, l :: rest)

/-- Go on to the instruction after `pc`. -/
def Engine.advance (x : Engine) (pc : Nat) : Engine :=
  let r : Nat × List LoopRec := loopAdvance pc x.stack.length x.loops
  { x with pc := r.1, loops := r.2 }

/-- The instruction issued at `start`, occupying `occ` cycles; each result is ready at its cycle. -/
def Engine.finish (x : Engine) (start occ : Nat) (results : List (Nat × Nat)) : Engine :=
  { x with cyc := start + occ, rdy := results.foldl (fun (t : Tab Nat) (r : Nat × Nat) => tabPut t r.1 r.2) x.rdy }.advance x.pc

/-- The opcode, the predicate and N of a word (R138). -/
def opOf (w : Word) : Nat := bitsOf w.toNat 31 26
def guardPred (w : Word) : Nat := bitsOf w.toNat 24 22
def guardHolds (x : Engine) (w : Word) : Bool := x.pred (guardPred w) != (bitsOf w.toNat 25 25 == 1)
/-- Field [hi:lo] of an instruction word. -/
def fw (w : Word) (hi lo : Nat) : Nat := bitsOf w.toNat hi lo

/-- The engine executes instructions: a pass runs and its route is not a factory route's. -/
def State.executes (s : State) (e : Nat) : Bool :=
  (s.engine e).inPass && (s.run e == 2 || s.run e == 3) && s.factoryKind e == 0

/-- Execute the next instruction of engine `e` if its word is one that `sel` names; with a false guard it is a
one-cycle no-operation that waits only for the predicate (R139). `body` gets the word and the issue cycle's lower bound. -/
def State.kstep (s : State) (e : Nat) (sel : Word → Bool) (body : Word → Engine → State → State) : State :=
  let x := s.engine e
  if !s.executes e ∨ 16384 ≤ x.pc then s
  else
    let w := s.progWord e x.pc
    if !sel w then s
    else
      let t := x.ready [kPred (guardPred w)]
      if guardHolds x w then body w { x with cyc := t } s
      else s.setEngine e (x.finish t 1 [])

/-- The instruction changes only the engine: its new registers, its issue cycle, occupancy and results. -/
def State.kput (s : State) (e : Nat) (x : Engine) (start occ : Nat) (results : List (Nat × Nat)) : State :=
  s.setEngine e (x.finish start occ results)

/-! ### Integer instructions (R142, R144, R145) -/

/-- An integer row: register form `func`, immediate form opcode `imm` (0: none); `sh` for shifts. -/
def State.intRow (s : State) (e func imm lat : Nat) (sh : Bool) (f : Word → Word → Word) : State :=
  s.kstep e (fun w => (opOf w == 1 && fw w 6 0 == func) || (imm != 0 && opOf w == imm)) (fun w x s =>
    let rd := fw w 21 17
    let ra := fw w 16 12
    if opOf w = 1 then
      let rb := fw w 11 7
      let t := x.ready [kReg ra, kReg rb]
      s.kput e (x.setReg rd (f (x.reg ra) (x.reg rb))) t 1 [(kReg rd, t + lat)]
    else if sh && fw w 11 5 != 0 then s.engineTrap e 2 0
    else
      let t := x.ready [kReg ra]
      s.kput e (x.setReg rd (f (x.reg ra) (BitVec.ofInt 32 (signedOf 12 (fw w 11 0))))) t 1 [(kReg rd, t + lat)])

def execAdd (e : Fin 20) (s : State) : Out := live s (fun s => s.intRow e.val 0x00 0x02 1 false (· + ·))
def execSub (e : Fin 20) (s : State) : Out := live s (fun s => s.intRow e.val 0x01 0 1 false (· - ·))
def execAnd (e : Fin 20) (s : State) : Out := live s (fun s => s.intRow e.val 0x02 0x03 1 false (· &&& ·))
def execOr (e : Fin 20) (s : State) : Out := live s (fun s => s.intRow e.val 0x03 0x04 1 false (· ||| ·))
def execXor (e : Fin 20) (s : State) : Out := live s (fun s => s.intRow e.val 0x04 0x05 1 false (· ^^^ ·))
/-- Bits [31:5] of a shift count are ignored. -/
def shiftCount (b : Word) : Nat := b.toNat % 32
def execShl (e : Fin 20) (s : State) : Out := live s (fun s => s.intRow e.val 0x05 0x06 1 true (fun a b => a <<< shiftCount b))
def execShr (e : Fin 20) (s : State) : Out := live s (fun s => s.intRow e.val 0x06 0x07 1 true (fun a b => a >>> shiftCount b))
def execSar (e : Fin 20) (s : State) : Out := live s (fun s => s.intRow e.val 0x07 0x08 1 true (fun a b => a.sshiftRight (shiftCount b)))
def execMul (e : Fin 20) (s : State) : Out := live s (fun s => s.intRow e.val 0x08 0x09 3 false (· * ·))
def execMulh (e : Fin 20) (s : State) : Out :=
  live s (fun s => s.intRow e.val 0x09 0 3 false (fun a b => BitVec.ofInt 32 (a.toInt * b.toInt / 4294967296)))
def execMin (e : Fin 20) (s : State) : Out := live s (fun s => s.intRow e.val 0x0A 0x0A 1 false (fun a b => if a.slt b then a else b))
def execMax (e : Fin 20) (s : State) : Out := live s (fun s => s.intRow e.val 0x0B 0x0B 1 false (fun a b => if a.slt b then b else a))

/-- LDI (R146), H = 0. -/
def State.ldiRow (s : State) (e h : Nat) : State :=
  s.kstep e (fun w => opOf w == 0x10 && fw w 16 16 == h) (fun w x s =>
    let rd := fw w 21 17
    let imm := fw w 15 0
    let t := if h = 0 then x.cyc else x.ready [kReg rd]
    let v : Word := if h = 0 then BitVec.ofInt 32 (signedOf 16 imm) else BitVec.ofNat 32 (withBits (x.reg rd).toNat 31 16 imm)
    s.kput e (x.setReg rd v) t 1 [(kReg rd, t + 1)])
def execLdi (e : Fin 20) (s : State) : Out := live s (fun s => s.ldiRow e.val 0)
/-- LDI_H (R146): the upper half, the lower kept. -/
def execLdiH (e : Fin 20) (s : State) : Out := live s (fun s => s.ldiRow e.val 1)

/-- The conditions of R148. -/
def condHolds (c : Nat) (a b : Word) : Bool :=
  match c with
  | 0 => a == b | 1 => a != b | 2 => a.slt b | 3 => !a.slt b | 4 => !b.slt a | 5 => b.slt a | 6 => a.ult b | _ => !a.ult b
/-- CMP (R148). -/
def State.cmpRow (s : State) (e : Nat) : State :=
  s.kstep e (fun w => opOf w == 0x0C || opOf w == 0x0D) (fun w x s =>
    let pd := fw w 21 19
    let ra := fw w 18 14
    let reg := opOf w == 0x0C
    if reg && fw w 3 0 != 0 then s.engineTrap e 2 0
    else
      let rb := fw w 13 9
      let b := if reg then x.reg rb else BitVec.ofInt 32 (signedOf 9 (fw w 8 0))
      let c := condHolds (if reg then fw w 8 6 else fw w 13 11) (x.reg ra) b
      let mode := if reg then fw w 5 4 else fw w 10 9
      let t := x.ready ([kReg ra] ++ (if reg then [kReg rb] else []) ++ (if mode = 1 ∨ mode = 2 then [kPred pd] else []))
      let v := match mode with | 0 => c | 1 => x.pred pd && c | 2 => x.pred pd || c | _ => !c
      s.kput e (x.setPred pd v) t 1 [(kPred pd, t + 1)])
def execCmp (e : Fin 20) (s : State) : Out := live s (fun s => s.cmpRow e.val)

/-! ### Memory (R147) -/

/-- What an engine address names. -/
inductive Place where
  | data (word : Nat)
  | cell (host : Nat)
  | bad
deriving DecidableEq, Repr
/-- The engine's address space. -/
def placeOf (a : Nat) : Place :=
  if a % 4 ≠ 0 then .bad
  else if a < 0x8000 then .data (a / 4)
  else if 0x80000 ≤ a ∧ a < 0x100000 then .cell (0x600000 + (a - 0x80000))
  else .bad
/-- A word of cell memory at a host address; a checkpoint buffer reads its record. -/
def State.cellWord (s : State) (h : Nat) : Word :=
  if h < 0x660000 then s.rdMem h
  else let o := h - 0x660000; s.ckpWord (o / 0x2000) (o / 0x1000 % 2) (o / 0x800 % 2) (o % 0x800 / 4)
/-- The place may be stored to: not the checkpoint buffers. -/
def Place.storable : Place → Bool
  | .data _ => true | .cell h => decide (h < 0x660000) | .bad => false
def Place.ok : Place → Bool | .bad => false | _ => true
def Place.isCell : Place → Bool | .cell _ => true | _ => false
def State.loadPlace (s : State) (e : Nat) : Place → Word
  | .data i => s.dataWord e i | .cell h => s.cellWord h | .bad => 0
def State.storePlace (s : State) (e : Nat) (v : Word) : Place → State
  | .data i => s.setDataWord e i v | .cell h => s.wrMem h v | .bad => s
/-- The address ga + 4 × the signed offset, modulo 2^32. -/
def addrOf (ga : Word) (off : Int) : Nat := (ga + BitVec.ofInt 32 (4 * off)).toNat
/-- Stall cycles of a contended access to cell memory, at most 40. -/
def State.contention (s : State) : Nat := (Config.freeWord s.drawn).toNat % 41

/-- LD (R147). -/
def State.ldRow (s : State) (e : Nat) : State :=
  s.kstep e (fun w => opOf w == 0x0E) (fun w x s =>
    let rd := fw w 21 17
    let ra := fw w 16 12
    let pl := placeOf (addrOf (x.reg ra) (signedOf 12 (fw w 11 0)))
    let t := x.ready [kReg ra]
    if !pl.ok then s.engineTrap e 3 0
    else
      let v := s.loadPlace e pl
      let lat := if pl.isCell then 8 + s.contention else 2
      (if pl.isCell then s.draw else s).kput e (x.setReg rd v) t 1 [(kReg rd, t + lat)])
def execLd (e : Fin 20) (s : State) : Out := live s (fun s => s.ldRow e.val)
/-- ST (R147). -/
def State.stRow (s : State) (e : Nat) : State :=
  s.kstep e (fun w => opOf w == 0x0F) (fun w x s =>
    let rs := fw w 21 17
    let ra := fw w 16 12
    let pl := placeOf (addrOf (x.reg ra) (signedOf 12 (fw w 11 0)))
    let t := x.ready [kReg ra, kReg rs]
    if !pl.storable then s.engineTrap e 3 0
    else
      let s := s.setEngine e x
      let s := s.storePlace e (x.reg rs) pl
      s.kput e (s.engine e) t 1 [])
def execSt (e : Fin 20) (s : State) : Out := live s (fun s => s.stRow e.val)

/-! ### Blocks (R115, R117, R118) -/

/-- 2^k for an integer k. -/
def pow2 (k : Int) : Rat := if 0 ≤ k then (2 ^ k.toNat : Nat) else 1 / ((2 ^ (-k).toNat : Nat) : Rat)
/-- The value of an element. -/
def Blk.val (b : Blk) (i : Nat) : Rat := (b.m.getD i 0 : Int) * pow2 (b.e - 23)
/-- The mantissa of a value at exponent `e`, rounded. -/
def mantissa (v : Rat) (e : Int) : Int := roundEven (v / pow2 (e - 23))
def mFits (m : Int) : Bool := decide (-8388608 ≤ m ∧ m ≤ 8388607)
def mClamp (m : Int) : Int := max (-8388608) (min 8388607 m)
/-- The smallest exponent from `lo` at which every value fits after rounding. -/
def fitExp (lo : Int) (vs : List Rat) : Option Int :=
  ((List.range 256).map (fun i => lo + (i : Nat))).find? (fun e => decide (e ≤ 127) && vs.all (fun v => mFits (mantissa v e)))

/-- A write of all sixteen elements: the block and whether the exponent overflowed (R117). -/
def writeWhole (vs : List Rat) : Blk × Bool :=
  match fitExp (-128) vs with
  | some e => ({ m := vs.map (fun v => mantissa v e), e := e }, false)
  | none => ({ m := vs.map (fun v => mClamp (mantissa v 127)), e := 127 }, true)

/-- What a partial write does: the block, whether it raised e, and whether the exponent overflowed. -/
structure PartWrite where
  b : Blk
  raised : Bool
  overflow : Bool
deriving DecidableEq, Repr

/-- A write of fewer than sixteen elements (R117). -/
def writePart (b : Blk) (news : List (Nat × Rat)) : PartWrite :=
  let place (e : Int) (old : List Int) : List Int :=
    old.zipIdx.map (fun x => match news.find? (fun n => n.1 == x.2) with | some n => mClamp (mantissa n.2 e) | none => x.1)
  match fitExp b.e (news.map (·.2)) with
  | some e =>
    let d := (e - b.e).toNat
    let old := if d = 0 then b.m else b.m.map (fun (m : Int) => roundEven ((m : Rat) / ((2 ^ d : Nat) : Rat)))
    ⟨{ m := place e old, e := e }, decide (d ≠ 0), false⟩
  | none =>
    let d := (127 - b.e).toNat
    ⟨{ m := place 127 (b.m.map (fun (m : Int) => roundEven ((m : Rat) / ((2 ^ d : Nat) : Rat)))), e := 127 }, decide (d ≠ 0), true⟩

/-- Write an element or elements of block `k`; an exponent overflow sets its SAT bit. -/
def Engine.putPart (x : Engine) (k : Nat) (p : PartWrite) : Engine :=
  let y := x.setBlock k p.b
  if p.overflow then y.setSat k true else y
/-- Write all of block `k`. -/
def Engine.putWhole (x : Engine) (k : Nat) (r : Blk × Bool) : Engine :=
  let y := x.setBlock k r.1
  if r.2 then y.setSat k true else y

/-- The value of the element that an eight-bit reference names (R149), and its scoreboard key. -/
def Engine.elem (x : Engine) (ref : Nat) : Rat := (x.block (ref / 16)).val (ref % 16)
def kRef (ref : Nat) : Nat := kElem (ref / 16) (ref % 16)

/-- The ready cycles of a whole block. -/
def readyBlock (b t : Nat) : List (Nat × Nat) := (kBlock b).map (fun k => (k, t))

/-- The seventeen places of a block in memory. -/
def blockPlaces (ga : Word) (off : Int) : List Place := (List.range 17).map (fun i => placeOf ((addrOf ga off + 4 * i) % 2 ^ 32))
/-- Cycles a block access occupies: 17 to data memory, 25 to 65 to cell memory. -/
def State.blockIssue (s : State) (pl : List Place) : Nat := if pl.any Place.isCell then 25 + s.contention else 17

/-- BLD (R150): SAT does not change, whatever the exponent. -/
def State.bldRow (s : State) (e : Nat) : State :=
  s.kstep e (fun w => opOf w == 0x14) (fun w x s =>
    let bd := fw w 21 18
    let ga := fw w 17 13
    let pl := blockPlaces (x.reg ga) (signedOf 13 (fw w 12 0))
    if !pl.all Place.ok then s.engineTrap e 3 0
    else
      let t := x.ready [kReg ga, kBlockUnit]
      let iss := s.blockIssue pl
      let ws := pl.map (fun p => s.loadPlace e p)
      let ex := signedOf 8 (ws.getD 16 0).toNat
      let vs := (ws.take 16).map (fun v => (v.toInt : Rat) * pow2 (ex - 23))
      s.draw.kput e (x.setBlock bd (writeWhole vs).1) t 1 ((kBlockUnit, t + iss) :: readyBlock bd (t + iss + 1)))
def execBld (e : Fin 20) (s : State) : Out := live s (fun s => s.bldRow e.val)

/-- BST (R150). -/
def State.bstRow (s : State) (e : Nat) : State :=
  s.kstep e (fun w => opOf w == 0x15) (fun w x s =>
    let bs := fw w 21 18
    let ga := fw w 17 13
    let pl := blockPlaces (x.reg ga) (signedOf 13 (fw w 12 0))
    if !pl.all Place.storable then s.engineTrap e 3 0
    else
      let t := x.ready ([kReg ga, kBlockUnit, kSat bs] ++ kBlock bs)
      let iss := s.blockIssue pl
      let ws := blockWords (x.block bs) (x.sat.testBit bs)
      let s := s.draw.setEngine e x
      let s := s.each (pl.zip ws) (fun p u => u.storePlace e p.2 p.1)
      s.kput e (s.engine e) t 1 [(kBlockUnit, t + iss)])
def execBst (e : Fin 20) (s : State) : Out := live s (fun s => s.bstRow e.val)

/-- One step of R151 on accumulator `a` with product `p` of exponent sum `sx`: the accumulator, AOV, and whether it was
rescaled. -/
def macStep (a : Acc) (p sx : Int) (z : Bool) : Acc × Bool × Bool :=
  let lim (v : Int) : Int × Bool := if 2 ^ 55 - 1 < v then (2 ^ 55 - 1, true) else if v < -2 ^ 55 then (-2 ^ 55, true) else (v, false)
  if z ∨ a.a = 0 then (let l := lim p; ({ a := l.1, e := sx }, l.2, false))
  else
    let up := decide (a.e < sx)
    let b := if up then roundEven ((a.a : Rat) / pow2 (sx - a.e)) else a.a
    let ea := if up then sx else a.e
    let l := lim (b + roundEven ((p : Rat) / pow2 (ea - sx)))
    ({ a := l.1, e := ea }, l.2, up)

/-- BMAC and BMSU (R151): `neg` subtracts. -/
def State.macRow (s : State) (e op : Nat) (neg : Bool) : State :=
  s.kstep e (fun w => opOf w == op) (fun w x s =>
    if fw w 18 16 ≠ 0 then s.engineTrap e 2 0
    else
      let a := fw w 21 20
      let rx := fw w 15 8
      let ry := fw w 7 0
      let bx := x.block (rx / 16)
      let by' := x.block (ry / 16)
      let p := bx.m.getD (rx % 16) 0 * by'.m.getD (ry % 16) 0
      let t := x.ready [kBlockUnit, kRef rx, kRef ry]
      let r := macStep (x.accum a) (if neg then -p else p) (bx.e + by'.e) (fw w 19 19 == 1)
      let iss := if r.2.2 then 2 else 1
      let y := { x with acc := tabPut x.acc a r.1, astat := if r.2.1 then withBits x.astat 0 0 1 else x.astat }
      s.kput e y t 1 [(kBlockUnit, t + iss), (kAcc a, t + iss + 2)])
def execBmac (e : Fin 20) (s : State) : Out := live s (fun s => s.macRow e.val 0x16 false)
def execBmsu (e : Fin 20) (s : State) : Out := live s (fun s => s.macRow e.val 0x17 true)

/-- BACC (R152). -/
def State.baccRow (s : State) (e : Nat) : State :=
  s.kstep e (fun w => opOf w == 0x18) (fun w x s =>
    let lim := fw w 19 19 == 1
    let rl := fw w 7 0
    if fw w 18 16 ≠ 0 ∨ (!lim ∧ rl ≠ 0) then s.engineTrap e 2 0
    else
      let a := fw w 21 20
      let rd := fw w 15 8
      let d := rd / 16
      let v := ((x.accum a).a : Rat) * pow2 ((x.accum a).e - 46)
      let l := ratAbs (x.elem rl)
      let sat := lim && decide (l < ratAbs v)
      let p := writePart (x.block d) [(rd % 16, if sat then ratSign v * l else v)]
      let t := x.ready ([kBlockUnit, kAcc a] ++ (if lim then [kRef rl] else []))
      let iss := if p.raised then 6 else 2
      s.kput e ((x.setBlock d p.b).setSat d (sat || p.overflow)) t 1
        ([(kBlockUnit, t + iss), (kSat d, t + iss)] ++ (if p.raised then readyBlock d (t + iss) else [(kRef rd, t + iss)])))
def execBacc (e : Fin 20) (s : State) : Out := live s (fun s => s.baccRow e.val)

/-- BNORM (R153): e falls to the smallest value at which every present element fits. -/
def State.bnormRow (s : State) (e : Nat) : State :=
  s.kstep e (fun w => opOf w == 0x19) (fun w x s =>
    if fw w 17 0 ≠ 0 then s.engineTrap e 2 0
    else
      let bd := fw w 21 18
      let b := x.block bd
      let lower := (List.range 256).find? (fun d => b.m.any (fun m => !mFits (m * (2 ^ (d + 1) : Nat))) || decide (b.e - (d : Nat) ≤ -128))
      let d := lower.getD 0
      let t := x.ready (kBlockUnit :: kBlock bd)
      s.kput e (x.setBlock bd { m := b.m.map (fun m => m * (2 ^ d : Nat)), e := b.e - (d : Nat) }) t 1
        ((kBlockUnit, t + 3) :: readyBlock bd (t + 3)))
def execBnorm (e : Fin 20) (s : State) : Out := live s (fun s => s.bnormRow e.val)

/-- bscale by 2^k (R153). -/
def scaleExp (b : Blk) (k : Int) : Blk × Bool :=
  let ex := b.e + k
  if 127 < ex then ({ m := b.m.map (fun m => mClamp (m * (2 ^ (ex - 127).toNat : Nat))), e := 127 }, true)
  else if ex < -128 then ({ m := b.m.map (fun (m : Int) => roundEven ((m : Rat) * pow2 (ex + 128))), e := -128 }, false)
  else ({ b with e := ex }, false)
/-- BSCALE (R153). -/
def State.bscaleRow (s : State) (e : Nat) : State :=
  s.kstep e (fun w => opOf w == 0x1A) (fun w x s =>
    if fw w 12 8 ≠ 0 then s.engineTrap e 2 0
    else
      let bd := fw w 21 18
      let bs := fw w 17 14
      if fw w 13 13 = 1 then
        let t := x.ready (kBlockUnit :: kBlock bs)
        s.kput e (x.putWhole bd (scaleExp (x.block bs) (signedOf 8 (fw w 7 0)))) t 1
          ((kBlockUnit, t + 1) :: (kSat bd, t + 1) :: readyBlock bd (t + 1))
      else
        let r := fw w 7 0
        let t := x.ready ([kBlockUnit, kRef r] ++ kBlock bs)
        let b := x.block bs
        s.kput e (x.putWhole bd (writeWhole ((List.range 16).map (fun i => b.val i * x.elem r)))) t 1
          ((kBlockUnit, t + 18) :: (kSat bd, t + 18) :: readyBlock bd (t + 18)))
def execBscale (e : Fin 20) (s : State) : Out := live s (fun s => s.bscaleRow e.val)

/-- The integer nearest to √q, a tie going to the even one. -/
def sqrtNearest (q : Rat) : Int :=
  let f := isqrt (4 * q).floor.toNat
  if f % 2 = 1 ∧ ((f * f : Nat) : Rat) = 4 * q then (let r := f / 2; if r % 2 = 0 then r else r + 1 : Nat) else ((f + 1) / 2 : Nat)

/-- BSAT and BSAT_V (R153). -/
def State.bsatRow (s : State) (e : Nat) (vec : Bool) : State :=
  s.kstep e (fun w => opOf w == 0x1B && (fw w 9 9 == 1) == vec) (fun w x s =>
    let bd := fw w 21 18
    let st := fw w 17 14
    let n := fw w 13 10 + 1
    if fw w 8 8 ≠ 0 ∨ 16 < st + n then s.engineTrap e 2 0
    else
      let r := fw w 7 0
      let b := x.block bd
      let idx := (List.range n).map (st + ·)
      -- in units of the block's resolution
      let l := ratAbs (x.elem r) / pow2 (b.e - 23)
      let m (k : Nat) : Int := b.m.getD k 0
      let sq : Rat := ((idx.map (fun k => m k * m k)).sum : Int)
      let hit (k : Nat) : Bool := idx.contains k && (if vec then decide (l * l < sq) else decide (l < ((m k).natAbs : Rat)))
      let lim (k : Nat) : Int := if vec then ratSign (m k) * sqrtNearest ((m k * m k : Int) * (l * l) / sq) else ratSign (m k) * roundEven l
      let t := x.ready ([kBlockUnit, kRef r] ++ idx.map (kElem bd))
      let iss := if vec then n + 24 else n + 2
      let y := (x.setBlock bd { b with m := b.m.zipIdx.map (fun z => if hit z.2 then mClamp (lim z.2) else z.1) }).setSat bd (idx.any hit)
      s.kput e y t 1 ([(kBlockUnit, t + iss), (kSat bd, t + iss)] ++ idx.map (fun k => (kElem bd k, t + iss))))
def execBsat (e : Fin 20) (s : State) : Out := live s (fun s => s.bsatRow e.val false)
def execBsatV (e : Fin 20) (s : State) : Out := live s (fun s => s.bsatRow e.val true)

/-- BINT (R118, R153). -/
def State.bintRow (s : State) (e : Nat) : State :=
  s.kstep e (fun w => opOf w == 0x1C) (fun w x s =>
    if fw w 9 0 ≠ 0 then s.engineTrap e 2 0
    else
      let bi := fw w 21 18
      let bg := fw w 17 14
      let bs := fw w 13 10
      let t := x.ready ([kBlockUnit, kSat bs] ++ kBlock bi ++ kBlock bg)
      if x.sat.testBit bs then s.kput e x t 1 [(kBlockUnit, t + 1)]
      else
        let a := x.block bi
        let b := x.block bg
        s.kput e (x.putWhole bi (writeWhole ((List.range 16).map (fun i => a.val i + b.val i)))) t 1
          ((kBlockUnit, t + 6) :: (kSat bi, t + 6) :: readyBlock bi (t + 6)))
def execBint (e : Fin 20) (s : State) : Out := live s (fun s => s.bintRow e.val)

/-- Round and saturate to 32 bits; whether it saturated (R154). -/
def toInt32 (v : Rat) : Int × Bool :=
  let r := roundEven v
  if r < -2147483648 then (-2147483648, true) else if 2147483647 < r then (2147483647, true) else (r, false)
/-- BCVT (R154). -/
def State.bcvtRow (s : State) (e : Nat) : State :=
  s.kstep e (fun w => opOf w == 0x1D) (fun w x s =>
    let form := fw w 21 20
    let g := fw w 19 15
    let q := fw w 4 0
    if fw w 6 5 ≠ 0 ∨ form = 3 ∨ (form = 2 ∧ fw w 14 9 ≠ 0) then s.engineTrap e 2 0
    else if form = 0 then
      let r := fw w 14 7
      let t := x.ready [kBlockUnit, kReg g]
      let p := writePart (x.block (r / 16)) [(r % 16, ((x.reg g).toInt : Rat) * pow2 (-(q : Int)))]
      s.kput e (x.putPart (r / 16) p) t 1 ((kBlockUnit, t + 2) :: (if p.raised then readyBlock (r / 16) (t + 2) else [(kRef r, t + 2)]))
    else
      let src : Nat × Rat := if form = 1 then (kRef (fw w 14 7), x.elem (fw w 14 7))
        else (kAcc (fw w 8 7), ((x.accum (fw w 8 7)).a : Rat) * pow2 ((x.accum (fw w 8 7)).e - 46))
      let v := toInt32 (src.2 * pow2 q)
      let t := x.ready [kBlockUnit, src.1]
      let y := if v.2 then { x with astat := withBits x.astat 2 2 1 } else x
      s.kput e (y.setReg g (BitVec.ofInt 32 v.1)) t 1 [(kBlockUnit, t + 2), (kReg g, t + 2)])
def execBcvt (e : Fin 20) (s : State) : Out := live s (fun s => s.bcvtRow e.val)

/-! ### Transcendental instructions (R155) -/

/-- SINCOS. A raised exponent takes the extra cycles of bacc (R152, R155; DEDUCED, notes/assumptions/77). -/
def State.sincosRow (s : State) (e : Nat) : State :=
  s.kstep e (fun w => opOf w == 0x20) (fun w x s =>
    let r := fw w 21 14
    let ga := fw w 13 9
    if fw w 8 0 ≠ 0 ∨ r % 16 = 15 then s.engineTrap e 2 0
    else
      let th : Rat := ((x.reg ga).toNat % 65536 : Nat)
      let d := r / 16
      let p := writePart (x.block d) [(r % 16, sinE th), (r % 16 + 1, cosE th)]
      let t := x.ready [kTransUnit, kReg ga]
      s.kput e (x.putPart d p) t 1 ((kTransUnit, t + 12 + (if p.raised then 4 else 0)) ::
        (if p.raised then readyBlock d (t + 16) else [(kRef r, t + 12), (kRef r + 1, t + 12)])))
def execSincos (e : Fin 20) (s : State) : Out := live s (fun s => s.sincosRow e.val)

/-- An integer within 1 au of an angle; which of them is left open (R155). -/
def angleWithin (a : Rat) : Nat :=
  let r := roundEven (a + boundedError 1 a)
  ((if ratAbs ((r : Rat) - a) ≤ 1 then r else roundEven a) % 65536).toNat
/-- ATAN2. -/
def State.atan2Row (s : State) (e : Nat) : State :=
  s.kstep e (fun w => opOf w == 0x21) (fun w x s =>
    let rd := fw w 21 17
    let ry := fw w 15 8
    let rx := fw w 7 0
    if fw w 16 16 ≠ 0 then s.engineTrap e 2 0
    else
      let vy := x.elem ry
      let vx := x.elem rx
      let zero := decide (vy = 0 ∧ vx = 0)
      let y := if zero then { x with astat := withBits x.astat 1 1 1 } else x
      let t := x.ready [kTransUnit, kRef ry, kRef rx]
      s.kput e (y.setReg rd (BitVec.ofNat 32 (if zero then 0 else angleWithin (atan2Au vy vx)))) t 1 [(kTransUnit, t + 16), (kReg rd, t + 16)])
def execAtan2 (e : Fin 20) (s : State) : Out := live s (fun s => s.atan2Row e.val)

/-- √ of m × 2^(e − 23) for m ≥ 0, to 2^−32 of the mantissa's root. -/
def sqrtElem (m : Nat) (e : Int) : Rat :=
  let k := e - 23
  let m2 := if k % 2 = 0 then m else 2 * m
  let h := (if k % 2 = 0 then k else k - 1) / 2
  ((isqrt (m2 * 2 ^ 64) : Nat) : Rat) / 4294967296 * pow2 h
/-- A value within a relative 2^−22 of `v`. -/
def relE (v : Rat) : Rat := v * (1 + boundedError ulp22 v)

/-- A value within a relative 2^−22 of the root of `v`, near the root `r` found to 2^−32 (R155). -/
def rootE (v r : Rat) : Rat :=
  let y := relE r
  if v * (1 - ulp22) * (1 - ulp22) ≤ y * y ∧ y * y ≤ v * (1 + ulp22) * (1 + ulp22) then y else r

/-- SQRT. -/
def State.sqrtRow (s : State) (e : Nat) : State :=
  s.kstep e (fun w => opOf w == 0x22) (fun w x s =>
    if fw w 21 16 ≠ 0 then s.engineTrap e 2 0
    else
      let rd := fw w 15 8
      let rs := fw w 7 0
      let b := x.block (rs / 16)
      let m := b.m.getD (rs % 16) 0
      let y := if m < 0 then { x with astat := withBits x.astat 1 1 1 } else x
      let p := writePart (x.block (rd / 16)) [(rd % 16, if m < 0 then 0 else rootE (b.val (rs % 16)) (sqrtElem m.toNat b.e))]
      let t := x.ready [kTransUnit, kRef rs]
      s.kput e (y.putPart (rd / 16) p) t 1 ((kTransUnit, t + 14) ::
        (if p.raised then readyBlock (rd / 16) (t + 14) else [(kRef rd, t + 14)])))
def execSqrt (e : Fin 20) (s : State) : Out := live s (fun s => s.sqrtRow e.val)

/-- RCP: the reciprocal of zero is positive and needs an exponent above 127. -/
def State.rcpRow (s : State) (e : Nat) : State :=
  s.kstep e (fun w => opOf w == 0x23) (fun w x s =>
    if fw w 21 16 ≠ 0 then s.engineTrap e 2 0
    else
      let rd := fw w 15 8
      let rs := fw w 7 0
      let v := x.elem rs
      let p := writePart (x.block (rd / 16)) [(rd % 16, if v = 0 then pow2 200 else relE (1 / v))]
      let t := x.ready [kTransUnit, kRef rs]
      s.kput e (x.putPart (rd / 16) p) t 1 ((kTransUnit, t + 12) :: (kSat (rd / 16), t + 12) ::
        (if p.raised then readyBlock (rd / 16) (t + 12) else [(kRef rd, t + 12)])))
def execRcp (e : Fin 20) (s : State) : Out := live s (fun s => s.rcpRow e.val)

/-! ### Flow (R156, R157, R158) -/

/-- The instruction at the program counter is the last of a loop's body (R157). -/
def Engine.endsBody (x : Engine) : Bool := x.loops.any (fun l => l.last == x.pc && l.depth == x.stack.length)
/-- Jump to `target`, out of every loop of this depth whose body it leaves. -/
def Engine.jump (x : Engine) (target start occ : Nat) : Engine :=
  { x with pc := target, cyc := start + occ
           loops := x.loops.dropWhile (fun l => l.depth == x.stack.length && !decide (l.first ≤ target ∧ target ≤ l.last)) }
/-- A program address lies in 0 to 16,383. -/
def progOk (a : Int) : Bool := decide (0 ≤ a ∧ a ≤ 16383)

/-- BR. -/
def State.brRow (s : State) (e : Nat) : State :=
  s.kstep e (fun w => opOf w == 0x28) (fun w x s =>
    let a : Int := (x.pc : Int) + signedOf 22 (fw w 21 0)
    if x.endsBody then s.engineTrap e 2 0
    else if !progOk a then s.engineTrap e 3 0
    else s.setEngine e (x.jump a.toNat x.cyc 2))
def execBr (e : Fin 20) (s : State) : Out := live s (fun s => s.brRow e.val)
/-- CALL: the loops of the caller stay. -/
def State.callRow (s : State) (e : Nat) : State :=
  s.kstep e (fun w => opOf w == 0x29) (fun w x s =>
    let a : Int := (x.pc : Int) + signedOf 22 (fw w 21 0)
    if x.endsBody ∨ 8 ≤ x.stack.length then s.engineTrap e 2 0
    else if !progOk a then s.engineTrap e 3 0
    else s.setEngine e { x with pc := a.toNat, cyc := x.cyc + 2, stack := (x.pc + 1) :: x.stack })
def execCall (e : Fin 20) (s : State) : Out := live s (fun s => s.callRow e.val)
/-- RET: every loop entered at its depth ends. -/
def State.retRow (s : State) (e : Nat) : State :=
  s.kstep e (fun w => opOf w == 0x2A) (fun w x s =>
    if fw w 21 0 ≠ 0 ∨ x.endsBody then s.engineTrap e 2 0
    else match x.stack with
      | [] => s.engineTrap e 2 0
      | a :: rest =>
        if !progOk a then s.engineTrap e 3 0
        else s.setEngine e { x with pc := a, cyc := x.cyc + 2, stack := rest, loops := x.loops.filter (fun l => l.depth ≠ x.stack.length) })
def execRet (e : Fin 20) (s : State) : Out := live s (fun s => s.retRow e.val)
/-- LOOP (R157). -/
def State.loopRow (s : State) (e : Nat) : State :=
  s.kstep e (fun w => opOf w == 0x2B) (fun w x s =>
    let gc := fw w 21 17
    let n := fw w 13 0
    if fw w 16 14 ≠ 0 ∨ n = 0 ∨ x.endsBody ∨ 4 ≤ x.loops.length then s.engineTrap e 2 0
    else
      let t := x.ready [kReg gc]
      let c := (x.reg gc).toNat
      if c = 0 then s.setEngine e ({ x with cyc := t + 2 }.advance (x.pc + n))
      else s.setEngine e { x with cyc := t + 1, pc := x.pc + 1, loops := ⟨x.pc + 1, x.pc + n, c, x.stack.length⟩ :: x.loops })
def execLoop (e : Fin 20) (s : State) : Out := live s (fun s => s.loopRow e.val)
/-- WAIT: the pass ends; the next instruction executes at the next scheduled instant. -/
def State.waitRow (s : State) (e : Nat) : State :=
  s.kstep e (fun w => opOf w == 0x2C) (fun w x s =>
    if fw w 21 0 ≠ 0 ∨ x.endsBody then s.engineTrap e 2 0
    else (s.setEngine e (x.finish x.cyc 1 [])).endPass e (some (x.cyc + 1)))
def execWait (e : Fin 20) (s : State) : Out := live s (fun s => s.waitRow e.val)
/-- HALT: a free-standing engine stops and becomes IDLE; in a slot route it is trap #0. -/
def State.haltRow (s : State) (e : Nat) : State :=
  s.kstep e (fun w => opOf w == 0x2D) (fun w x s =>
    if fw w 21 0 ≠ 0 ∨ x.endsBody then s.engineTrap e 2 0
    else if s.get (KE_STATUS_ROLE e) = 0 then (s.setEngine e { x with pc := x.pc + 1, cyc := x.cyc + 1 }).engineIdle e
    else s.engineTrap e 1 0)
def execHalt (e : Fin 20) (s : State) : Out := live s (fun s => s.haltRow e.val)

/-- A reserved opcode or func (R140, R144, R160). -/
def illegalWord (w : Word) : Bool :=
  let op := opOf w
  (op == 1 && decide (0x0B < fw w 6 0)) ||
  [0x00, 0x11, 0x12, 0x13, 0x1E, 0x1F, 0x24, 0x25, 0x26, 0x27, 0x2F, 0x3F].contains op
/-- TRAP (R158), and the traps of a word that is no instruction and of a program counter outside the memory (R159). -/
def State.trapRow (s : State) (e : Nat) : State :=
  if s.executes e ∧ 16384 ≤ (s.engine e).pc then s.engineTrap e 3 0
  else s.kstep e (fun w => opOf w == 0x2E || illegalWord w) (fun w _ s =>
    if illegalWord w ∨ fw w 21 8 ≠ 0 then s.engineTrap e 2 0
    else s.engineTrap e 1 (fw w 7 0))
def execTrap (e : Fin 20) (s : State) : Out := live s (fun s => s.trapRow e.val)

end Sys2Proof.Machine
end

