-- ==== Sys2Proof/Machine/KondoethIo.lean ====
section
/-! DEFINITION. Kondoeth instructions that reach slots, bridges, ports, other engines and checkpoints, and the special
registers (07_kondoeth_motion_io.md, R160 to R179). -/
namespace Sys2Proof.Machine

/-- Cell time at cycle `t` of the pass. -/
def Engine.timeAt (x : Engine) (t : Nat) : Nat := x.inst + t * 5 / 2
/-- Bits of a 64-bit value: word 0 low, word 1 high. -/
def half64 (v : Int) (hi : Bool) : Word := BitVec.ofNat 32 (if hi then unsignedOf 64 v / 2 ^ 32 else unsignedOf 64 v)

/-- A slot field (R162): a slot and whether it is another one than the engine's own; none traps. -/
def State.slotField (s : State) (e sl : Nat) : Option (Nat × Bool) :=
  if sl < 16 then some (sl, decide (s.engineSlot e ≠ some sl))
  else if sl = 31 then (s.engineSlot e).map (fun n => (n, false))
  else none
/-- The slot of an instruction that acts on the own slot only, LOCAL2, LOCAL3 or LOCAL5 where `local_` (R162). -/
def State.ownSlot (s : State) (e : Nat) (local_ : Bool) : Option Nat :=
  match s.engineSlot e with
  | some n => if local_ && !s.isLocal n then none else some n
  | none => none

/-! ### Reading the slot (R163 to R167) -/

/-- RDI and RDI_W (R163). -/
def State.rdiRow (s : State) (e f : Nat) : State :=
  s.kstep e (fun w => opOf w == 0x30 && fw w 17 17 == f) (fun w x s =>
    match s.ownSlot e true with
    | none => s.engineTrap e 2 0
    | some _ =>
      if fw w 16 0 ≠ 0 then s.engineTrap e 2 0
      else
        let bd := fw w 21 18
        let y := x.snap
        let v (i : Nat) : Rat :=
          if f = 0 then (if i < 5 then y.cur.getD i 0 else if i < 7 then y.brk.getD (i - 5) 0 else 0) / 1000
          else if i < 5 then y.wd.getD i 0 else if i < 7 then y.brkWd.getD (i - 5) 0 else 0
        let t := x.cyc
        s.kput e (x.putWhole bd (writeWhole ((List.range 16).map v))) t 1 ((kSat bd, t + 12) :: readyBlock bd (t + 12)))
def execRdi (e : Fin 20) (s : State) : Out := live s (fun s => s.rdiRow e.val 0)
def execRdiW (e : Fin 20) (s : State) : Out := live s (fun s => s.rdiRow e.val 1)

/-- RDV (R164), in the block unit (the budget of 07_kondoeth_motion_io.md). -/
def State.rdvRow (s : State) (e : Nat) : State :=
  s.kstep e (fun w => opOf w == 0x31) (fun w x s =>
    let r := fw w 21 14
    if s.ownSlot e true = none ∨ fw w 13 0 ≠ 0 ∨ r % 16 = 15 then s.engineTrap e 2 0
    else
      let p := writePart (x.block (r / 16)) [(r % 16, (x.snap.vbus : Rat) / 1000), (r % 16 + 1, (x.snap.vbrk : Rat) / 1000)]
      let t := x.ready [kBlockUnit]
      s.kput e (x.putPart (r / 16) p) t 1 ((kBlockUnit, t + 1) ::
        (if p.raised then readyBlock (r / 16) (t + 4) else [(kRef r, t + 4), (kRef r + 1, t + 4)])))
def execRdv (e : Fin 20) (s : State) : Out := live s (fun s => s.rdvRow e.val)

/-- RDF (R165). -/
def State.rdfRow (s : State) (e : Nat) : State :=
  s.kstep e (fun w => opOf w == 0x32) (fun w x s =>
    let sel := fw w 11 8
    match s.slotField e (fw w 16 12) with
    | none => s.engineTrap e 2 0
    | some (n, other) =>
      if fw w 7 0 ≠ 0 ∨ 4 < sel then s.engineTrap e 2 0
      else
        let t := x.cyc
        let now := max s.now (x.timeAt t)
        let pos := if other then s.slotFbPos n else x.snap.fbpos
        let vel := if other then s.slotFbVel n now else x.snap.fbvel
        let st := if other then s.slotFbStatus n now else x.snap.fbst
        let v : Word := match sel with
          | 0 => half64 pos false | 1 => half64 pos true | 2 => half64 vel false | 3 => half64 vel true | _ => BitVec.ofNat 32 st
        s.kput e (x.setReg (fw w 21 17) v) t 1 [(kReg (fw w 21 17), t + (if other then 8 else 2))])
def execRdf (e : Fin 20) (s : State) : Out := live s (fun s => s.rdfRow e.val)

/-- POS (R166). -/
def State.posRow (s : State) (e : Nat) : State :=
  s.kstep e (fun w => opOf w == 0x33) (fun w x s =>
    let sel := fw w 11 8
    match s.slotField e (fw w 16 12) with
    | none => s.engineTrap e 2 0
    | some (n, other) =>
      if fw w 7 0 ≠ 0 ∨ 10 < sel then s.engineTrap e 2 0
      else
        let t := x.cyc
        let m := if other then (s.gen n).m else x.snap.sp
        let tN := if other then s.tickAt else x.snap.spTick
        let v : Word :=
          if (if other then s.slotState n else x.snap.st % 16) = stUnbound then 0
          else match sel with
            | 0 => half64 (m.p / 2 ^ 32) false | 1 => half64 (m.p / 2 ^ 32) true
            | 2 => half64 m.v false | 3 => half64 m.v true
            | 4 => half64 m.a false | 5 => half64 m.a true
            | 6 => half64 m.j false | 7 => half64 m.j true
            | 8 => BitVec.ofNat 32 tN
            | 9 => BitVec.ofNat 32 (if other then max s.now (x.timeAt t) - s.tickAt else x.snap.tau)
            | _ => BitVec.ofNat 32 (if other then s.posStatus n else x.snap.st)
        s.kput e (x.setReg (fw w 21 17) v) t 1 [(kReg (fw w 21 17), t + (if other then 8 else 2))])
def execPos (e : Fin 20) (s : State) : Out := live s (fun s => s.posRow e.val)

/-- The eight places of an entry or message at byte address `a`. -/
def eightPlaces (a : Word) : List Place := (List.range 8).map (fun i => placeOf ((a.toNat + 4 * i) % 2 ^ 32))

/-- PIT (R167). -/
def State.pitRow (s : State) (e : Nat) : State :=
  s.kstep e (fun w => opOf w == 0x34 && fw w 6 6 == 0) (fun w x s =>
    let rd := fw w 21 17
    let ra := fw w 16 12
    match s.slotField e (fw w 11 7) with
    | none => s.engineTrap e 2 0
    | some (n, other) =>
      if fw w 5 0 ≠ 0 then s.engineTrap e 2 0
      else if s.inShadow e then s.kput e x x.cyc 1 []
      else
        let pl := eightPlaces (x.reg ra)
        if !pl.all Place.ok then s.engineTrap e 3 0
        else
          let t := x.ready [kReg ra]
          let r : State × Word :=
            if s.slotState n = stUnbound then (s, 3)
            else match s.offerPitch n (pl.map (fun p => s.loadPlace e p)) with
              | (u, .queued i) => (u, BitVec.ofNat 32 (i % 2 ^ 24 * 256))
              | (u, .full) => (u, 1)
              | (u, .bad) => (u, 2)
          r.1.kput e (x.setReg rd r.2) t 9 [(kReg rd, t + (if other then 30 else 24))])
def execPit (e : Fin 20) (s : State) : Out := live s (fun s => s.pitRow e.val)
/-- PIT_LVL (R167). -/
def State.pitLvlRow (s : State) (e : Nat) : State :=
  s.kstep e (fun w => opOf w == 0x34 && fw w 6 6 == 1) (fun w x s =>
    let rd := fw w 21 17
    match s.slotField e (fw w 11 7) with
    | none => s.engineTrap e 2 0
    | some (n, other) =>
      if fw w 5 0 ≠ 0 ∨ fw w 16 12 ≠ 0 then s.engineTrap e 2 0
      else
        let v := s.get (AX_PITQ_LVL_LEVEL n) + s.get (AX_PITQ_CTRL_QHELD n) * 256 + s.get (AX_PITSTART_V n) % 65536 * 65536
        let t := x.cyc
        s.kput e (x.setReg rd (BitVec.ofNat 32 v)) t 1 [(kReg rd, t + (if other then 10 else 4))])
def execPitLvl (e : Fin 20) (s : State) : Out := live s (fun s => s.pitLvlRow e.val)

/-! ### Writing the bridges (R168 to R170) -/

/-- The requests that drive the brake bridge at `v` volts: channel, request, compare, and VCLIP (R85, R168). -/
def State.brakeVector (s : State) (n : Nat) (v vbrk : Rat) : List (Nat × Nat × Nat) × Bool :=
  match s.brakeChans n with
  | [a, b] =>
    let c := if s.bit (AX_BRK_CFG_POL n) then (b, a) else (a, b)
    let d := if vbrk ≤ v then 1 else max 0 v / vbrk
    ([(c.1, 1, (roundEven (8 * (s.get (PWMG_PER_PER (c.1 / 8)) : Nat) * d)).toNat), (c.2, 2, 0)], decide (vbrk < v))
  | _ => ([], false)

/-- Requests reach the modulator. -/
def State.takeRequests (s : State) (l : List (Nat × Nat × Nat)) : State :=
  s.each l (fun v t => (if v.2.1 = 1 then t.put (PWM_CMPN_CMPN v.1) v.2.2 else t).modChan v.1 (fun y => { y with want := v.2.1 }))

/-- The next update point after cell time `a` is at least 100 ns away (R169). -/
def State.vectorInTime (s : State) (n : Nat) (x : Engine) (a : Nat) : Bool :=
  let k := max (s.instantsPerTick n) 1
  let T : Rat := (s.period : Rat) / (k : Nat)
  decide (100 ≤ T - ratMod ((a - x.inst : Nat) : Rat) T)

/-- WRV (R168, R169, R177). -/
def State.wrvRow (s : State) (e : Nat) : State :=
  s.kstep e (fun w => opOf w == 0x35) (fun w x s =>
    match s.ownSlot e true with
    | none => s.engineTrap e 2 0
    | some n =>
      if fw w 14 0 ≠ 0 ∨ s.get (KE_STATUS_ROLE e) ≠ 1 then s.engineTrap e 2 0
      else
        let b := x.block (fw w 21 18)
        let cs := s.localChans n
        let V : Rat := (x.snap.vbus : Rat) / 1000
        let v := (List.range cs.length).map b.val
        let v0 : Rat := if fw w 17 17 = 1 then zeroSequence v else 0
        let cmps := (cs.zip v).zipIdx.map (fun z => s.cmpOf z.1.1 (z.1.2 + v0) V (s.drawn + z.2))
        let br : List (Nat × Nat × Nat) × Option Bool := match fw w 16 15 with
          | 0 => ([], none)
          | 1 => (let r := s.brakeVector n (b.val 5) ((x.snap.vbrk : Rat) / 1000); (r.1, some r.2))
          | 2 => ((s.brakeChans n).map (fun c => (c, 0, 0)), none)
          | _ => ((s.brakeChans n).map (fun c => (c, 2, 0)), none)
        let req := (cs.zip cmps).map (fun z => (z.1, 1, z.2)) ++ br.1
        let t := x.ready ((List.range cs.length).map (kElem (fw w 21 18)) ++ (if fw w 16 15 = 1 then [kElem (fw w 21 18) 5] else []))
        let y := { x with wrote := true }
        let s := if V = 0 then { s with drawn := s.drawn + cs.length } else s
        let out := some (cmps.map (fun (c : Nat) => (c : Int)))
        if s.inShadow e then
          ((s.swapOutput e x.inst out).modSwap n (fun z => { z with vec := req })).kput e y t 2 []
        else
          let s := s.swapOutput e x.inst out
          if !s.serves e n ∨ !s.energised n then s.kput e y t 2 []
          else
            let s := match br.2 with | some c => s.flag (AX_BRK_ST_VCLIP n) c | none => s
            let ab := vectorOf (s.kind n) v
            let s := s.modCc n (fun c => { c with vOld := c.vNew, vNew := (x.inst, ab.1, ab.2) })
            if s.vectorInTime n x (x.timeAt (t + 8)) then (s.takeRequests req).kput e y t 2 []
            else (s.modCc n (fun c => { c with late := some req })).kput e { y with estat := withBits y.estat 0 0 1 } t 2 [])
def execWrv (e : Fin 20) (s : State) : Out := live s (fun s => s.wrvRow e.val)

/-- WRA (R170): the angle appears at the end of the pass. -/
def State.wraRow (s : State) (e : Nat) : State :=
  s.kstep e (fun w => opOf w == 0x36) (fun w x s =>
    match s.ownSlot e false with
    | none => s.engineTrap e 2 0
    | some n =>
      let ga := fw w 21 17
      let t := x.ready [kReg ga]
      let a := (x.reg ga).toNat % 65536
      if fw w 16 0 ≠ 0 then s.engineTrap e 2 0
      else if s.inShadow e then s.kput e x x.cyc 1 []
      else if !s.serves e n then s.kput e x t 1 []
      else s.kput e { x with angle := some a } t 1 [])
def execWra (e : Fin 20) (s : State) : Out := live s (fun s => s.wraRow e.val)

/-! ### Captures, trace, faults and events (R171 to R174) -/

/-- CAP (R171). -/
def State.capRow (s : State) (e : Nat) : State :=
  s.kstep e (fun w => opOf w == 0x37) (fun w x s =>
    let rd := fw w 21 17
    let ch := fw w 16 14
    let sel := fw w 8 6
    match s.slotField e (fw w 13 9) with
    | none => s.engineTrap e 2 0
    | some (n, other) =>
      if fw w 5 0 ≠ 0 ∨ 4 < sel then s.engineTrap e 2 0
      else
        let t := x.cyc
        let lat := if other then 10 else 4
        let old := tabGet (fun _ => ({} : CapCopy)) x.caps ch
        if sel = 0 then
          let k := s.get (CAP_CTRL_COUNT ch)
          let c : CapCopy := { time := s.get (CAP_TIME_V ch), pos := slots16.map (fun m => s.geti (CAP_POS_V ch m)), count := k }
          let y := { x with caps := tabPut x.caps ch c }
          s.kput e (y.setReg rd (BitVec.ofNat 32 (k + (if k = old.count then 0 else 65536)))) t 1 [(kReg rd, t + lat)]
        else
          let v := match sel with
            | 1 => half64 old.time false | 2 => half64 old.time true
            | 3 => half64 (old.pos.getD n 0) false | _ => half64 (old.pos.getD n 0) true
          s.kput e (x.setReg rd v) t 1 [(kReg rd, t + lat)])
def execCap (e : Fin 20) (s : State) : Out := live s (fun s => s.capRow e.val)

/-- Append a tagged entry to the trace RAM of engine `e` (R129). -/
def State.traceEntry (s : State) (e : Nat) (v : Word) (node : Nat) : State :=
  let x := s.engine e
  let st := s.get (KE_TRCFG_STATE e)
  if st = 1 ∨ (st = 2 ∧ x.trLeft ≠ 0) then
    if 8 ≤ x.trPass then s.put (KE_TRCFG_DROP e) 1
    else
      let tag := node + (if x.trPass = 0 then 8 else 0)
      (s.setEngine e { x with trace := tabPut x.trace x.trNext (v.toNat + tag * 2 ^ 32), trNext := (x.trNext + 1) % 4096
                              trPass := x.trPass + 1, trLeft := if st = 2 then x.trLeft - 1 else x.trLeft }).put
        (KE_TRPOS_COUNT e) (min 4096 (s.get (KE_TRPOS_COUNT e) + 1))
  else s
/-- TRC (R172). -/
def State.trcRow (s : State) (e : Nat) : State :=
  s.kstep e (fun w => opOf w == 0x38) (fun w x s =>
    if fw w 13 0 ≠ 0 then s.engineTrap e 2 0
    else
      let ga := fw w 21 17
      let p := s.get (KE_TRCFG_TRPRED e)
      let t := x.ready ([kReg ga] ++ (if p = 0 then [] else [kPred p]))
      let s := (s.setEngine e x).traceEntry e (x.reg ga) (fw w 16 14)
      let s := if p ≠ 0 ∧ x.pred p then s.traceTrigger e (x.timeAt t) else s
      s.kput e (s.engine e) t 1 [])
def execTrc (e : Fin 20) (s : State) : Out := live s (fun s => s.trcRow e.val)

/-- The fault source that an flt selects (R173). -/
def State.fltSource (s : State) (e src : Nat) : Option Nat :=
  match s.engineSlot e with
  | none => if src = 0 then some (0x200 + 8 * e + 4) else none
  | some n => match src with
    | 0 => some (0x100 + 16 * n + 8) | 1 => some (0x100 + 16 * n + 3) | 2 => some (0x100 + 16 * n + 4)
    | 3 => some (0x100 + 16 * n + 5) | 4 => some (0x100 + 16 * n + 6) | 5 => some (0x100 + 16 * n + 7) | _ => none
/-- FLT (R173). -/
def State.fltRow (s : State) (e : Nat) : State :=
  s.kstep e (fun w => opOf w == 0x39) (fun w x s =>
    let ga := fw w 21 17
    match s.fltSource e (fw w 16 14) with
    | none => s.engineTrap e 2 0
    | some src =>
      if fw w 7 0 ≠ 0 then s.engineTrap e 2 0
      else if s.inShadow e then s.kput e x x.cyc 1 []
      else
        let t := x.ready [kReg ga]
        (s.kput e x t 1 []).raise src (fw w 13 8) ((x.reg ga).toNat % 65536) (s.addrEngine e) (x.timeAt t))
def execFlt (e : Fin 20) (s : State) : Out := live s (fun s => s.fltRow e.val)

/-- EVT (R174). -/
def State.evtRow (s : State) (e : Nat) : State :=
  s.kstep e (fun w => opOf w == 0x3A) (fun w x s =>
    let ga := fw w 21 17
    if fw w 8 0 ≠ 0 then s.engineTrap e 2 0
    else if s.inShadow e then s.kput e x x.cyc 1 []
    else
      let t := x.ready [kReg ga]
      let s := if s.bit (KE_TRCFG_TREVT e) then (s.setEngine e x).traceTrigger e (x.timeAt t) else s.setEngine e x
      let x := s.engine e
      let trig := s.get HKC_ITRIG_SRC == 3 && s.get HKC_ITRIG_ENG == e && s.get HKC_ITRIG_EVTC == fw w 16 9
      let s := s.hkcSignal trig (x.timeAt t)
      if 2 ≤ x.evts then s.kput e { x with estat := withBits x.estat 1 1 1 } t 1 []
      else (s.offer ⟨x.reg ga, logW1 (s.addrEngine e + fw w 16 9 * 256) 0 1, x.timeAt t⟩).kput e { x with evts := x.evts + 1 } t 1 [])
def execEvt (e : Fin 20) (s : State) : Out := live s (fun s => s.evtRow e.val)

/-! ### Mailboxes (R175) -/

/-- SGN (R175). -/
def State.sgnRow (s : State) (e : Nat) : State :=
  s.kstep e (fun w => opOf w == 0x3B && fw w 9 9 == 0) (fun w x s =>
    let ga := fw w 21 17
    let gt := fw w 16 12
    let ch := fw w 11 10
    let dest := (x.reg gt).toNat % 32
    let pl := eightPlaces (x.reg ga)
    let partner := decide (dest = 31 ∧ ch = 0)
    if fw w 8 0 ≠ 0 ∨ (20 ≤ dest ∧ dest ≠ 31) then s.engineTrap e 2 0
    else if s.inShadow e ∧ !partner then s.kput e x x.cyc 1 []
    else if !pl.all Place.ok then s.engineTrap e 3 0
    else
      let ws := pl.map (fun p => s.loadPlace e p)
      let t := x.ready [kReg ga, kReg gt]
      let n := s.engineSlot e
      let s := if partner ∧ s.get (KE_STATUS_ROLE e) = 2 then
          s.swapOutput e x.inst (some [((ws.getD 0 0).toNat % 65536 : Nat)]) else s
      let x := if partner then { x with wrote := true } else x
      let live_ : Bool := match n with | some m => s.serves e m | none => true
      let x := if live_ then { x with outbox := x.outbox ++ [Send.mk dest ch n (s.get (KE_STATUS_ROLE e)) ws] } else x
      s.kput e x t 10 [])
def execSgn (e : Fin 20) (s : State) : Out := live s (fun s => s.sgnRow e.val)

/-- SGN_R (R175). -/
def State.sgnrRow (s : State) (e : Nat) : State :=
  s.kstep e (fun w => opOf w == 0x3B && fw w 9 9 == 1) (fun w x s =>
    let ga := fw w 21 17
    let rd := fw w 16 12
    let ch := fw w 11 10
    let pl := eightPlaces (x.reg ga)
    if fw w 8 0 ≠ 0 then s.engineTrap e 2 0
    else if !pl.all Place.storable then s.engineTrap e 3 0
    else
      let t := x.ready [kReg ga]
      let m := tabGet (fun _ => (List.replicate 8 (0 : Word), 0)) x.boxes ch
      let s := (s.setEngine e x).each (pl.zip m.1) (fun p u => u.storePlace e p.2 p.1)
      s.kput e ((s.engine e).setReg rd (BitVec.ofNat 32 m.2)) t 10 [(kReg rd, t + 12)])
def execSgnR (e : Fin 20) (s : State) : Out := live s (fun s => s.sgnrRow e.val)

/-- The engines a message goes to: the partner is the other engine of the slot that the sender served, as AXn_ENGSEL gives
it at the delivery; in SHADOW of a control-role swap the source and the target. -/
def State.sendTargets (s : State) (m : Send) : List Nat :=
  if m.dest ≠ 31 then [m.dest]
  else match m.slot with
    | none => []
    | some n =>
      if m.role = 2 then
        (s.ctlEngine n).toList ++ (if s.get (AX_SWAPST_PHASE n) = 3 ∧ (s.swap n).role = 0 then [(s.swap n).tgt] else [])
      else (s.estEngine n).toList
/-- MAILBOX_DELIVERY (R175): the first message sent by engine `e` and not yet delivered. -/
def mailboxDelivery (e : Nat) (s : State) : State :=
  match (s.engine e).outbox with
  | [] => s
  | m :: rest =>
    let ts := s.sendTargets m
    (s.modEngine e (fun x => { x with outbox := rest })).each ts (fun g t =>
      if t.pool g = 0 ∨ t.pool g = 3 then t
      else t.modEngine g (fun x =>
        let k := (tabGet (fun _ => (List.replicate 8 (0 : Word), 0)) x.boxes m.ch).2
        { x with boxes := tabPut x.boxes m.ch (m.words, k + 1) }))
def execMailboxDelivery (e : Fin 20) (s : State) : Out := live s (mailboxDelivery e.val)

/-! ### Checkpoints (R176) -/

/-- The record of R130 of engine `e` for its route `r`. -/
def State.ckpRecord (s : State) (e : Nat) (r : Route) (tick : Nat) : List Word :=
  let x := s.engine e
  ckpHeader r tick ++ (maskBlocks r.bmask).flatMap (fun k => blockWords (x.block k) (x.sat.testBit k)) ++
  (List.range r.nw).map (fun i => s.dataWord e (r.dbase + i))
/-- CKP (R176, R177): the record becomes valid after its last word (R179). -/
def State.ckpRow (s : State) (e : Nat) : State :=
  s.kstep e (fun w => opOf w == 0x3C) (fun w x s =>
    match s.ownSlot e false with
    | none => s.engineTrap e 2 0
    | some n =>
      let role := s.get (KE_STATUS_ROLE e) - 1
      let c := s.ckp n role
      if fw w 21 0 ≠ 0 then s.engineTrap e 2 0
      else if s.inShadow e ∨ c.tick = some x.snap.spTick ∨ c.pend.any (fun p => p.2.1 == x.snap.spTick) then s.kput e x x.cyc 1 []
      else match x.route with
        | none => s.kput e x x.cyc 1 []
        | some r =>
          let t := x.ready (kBlockUnit :: (maskBlocks r.bmask).flatMap kBlock)
          let s := s.ckpCommit n role (x.timeAt t)
          let c := s.ckp n role
          let s := s.wrMems (ckpBase n role c.target) (s.ckpRecord e r x.snap.spTick)
          let occ := 4 + 17 * popcount16 r.bmask + r.nw
          let s := s.kput e x t occ []
          s.setCkp n role { s.ckp n role with pend := some (c.target, x.snap.spTick, x.timeAt (t + occ)) })
def execCkp (e : Fin 20) (s : State) : Out := live s (fun s => s.ckpRow e.val)

/-! ### Special registers (R178) -/

/-- The value of a special register at cycle `t`; none for one not listed. -/
def State.special (s : State) (e sr t : Nat) : Option Word :=
  let x := s.engine e
  let n := s.engineSlot e
  match sr with
  | 0x00 => some (BitVec.ofNat 32 (x.inst / max s.period 1))
  | 0x01 => some (BitVec.ofNat 32 (x.timeAt t))
  | 0x02 => some x.ctimeh
  | 0x03 => some (BitVec.ofNat 32 x.inst)
  | 0x04 => some (match n with | some m => BitVec.ofNat 32 (m + 32 + s.get (KE_STATUS_ROLE e) * 64) | none => 0)
  | 0x05 => some (BitVec.ofNat 32 e)
  | 0x06 => some (match n with
    | some m => BitVec.ofNat 32 (x.snap.lidx % 65536 + (if x.snap.peak then 65536 else 0) + s.get (AX_CC_ST_LOWRATE m) * 131072)
    | none => 0)
  | 0x07 => some (BitVec.ofNat 32 (x.sat % 65536))
  | 0x08 => some (BitVec.ofNat 32 (x.astat % 8))
  | 0x09 => some (BitVec.ofNat 32 (x.preds % 256 / 2 * 2 + 1))
  | 0x0A => some (BitVec.ofNat 32 t)
  | 0x0B => some (BitVec.ofNat 32 (x.estat % 4 + (if s.inShadow e then 4 else 0)))
  | 0x0C => some (BitVec.ofNat 32 (s.instantInterval e))
  | 0x0D => some (BitVec.ofNat 32 x.passn)
  | _ => none
/-- What a special register's read waits for. -/
def specialKeys (sr : Nat) : List Nat :=
  match sr with
  | 0x07 => kBlockUnit :: (List.range 16).map kSat
  | 0x08 => [kBlockUnit, kTransUnit]
  | 0x09 => (List.range 8).map kPred
  | _ => []
/-- MFS. -/
def State.mfsRow (s : State) (e : Nat) : State :=
  s.kstep e (fun w => opOf w == 0x3D) (fun w x s =>
    let rd := fw w 21 17
    let sr := fw w 7 0
    let t := x.ready (specialKeys sr)
    match s.special e sr t with
    | none => s.engineTrap e 2 0
    | some v =>
      if fw w 16 8 ≠ 0 then s.engineTrap e 2 0
      else
        let x := if sr = 1 then { x with ctimeh := BitVec.ofNat 32 (x.timeAt t / 2 ^ 32) } else x
        s.kput e (x.setReg rd v) t 1 [(kReg rd, t + 1)])
def execMfs (e : Fin 20) (s : State) : Out := live s (fun s => s.mfsRow e.val)

/-- MTS: a write to an RO register is discarded. -/
def State.mtsRow (s : State) (e : Nat) : State :=
  s.kstep e (fun w => opOf w == 0x3E) (fun w x s =>
    let ga := fw w 21 17
    let sr := fw w 7 0
    let t := x.ready (kReg ga :: specialKeys sr)
    let v := (x.reg ga).toNat
    if fw w 16 8 ≠ 0 ∨ 0x0D < sr then s.engineTrap e 2 0
    else match sr with
      | 0x07 => s.kput e { x with sat := v % 65536 } t 1 ((List.range 16).map (fun k => (kSat k, t + 1)))
      | 0x08 => s.kput e { x with astat := x.astat &&& (7 - v % 8) } t 1 []
      | 0x09 => s.kput e { x with preds := v % 256 / 2 * 2 } t 1 ((List.range 8).map (fun k => (kPred k, t + 1)))
      | 0x0B => s.kput e { x with estat := x.estat &&& (3 - v % 4) } t 1 []
      | _ => s.kput e x t 1 [])
def execMts (e : Fin 20) (s : State) : Out := live s (fun s => s.mtsRow e.val)

end Sys2Proof.Machine
end

