-- ==== Sys2Proof/Machine/Fabric.lean ====
section
/-! DEFINITION. The axis fabric (01_axis_fabric.md, R9 to R32): binding and engine selection, the commands of AXn_CTRL
and the end of a shutdown, the cell tick and a change of its period. -/
namespace Sys2Proof.Machine

/-! ### Binding (R10 to R16) -/

/-- The bits of AXn_BIND that hold a field (R14). -/
def bindMask : Word := 0x07D7F737
/-- What a BIND word claims of the slots' pools: channels, step output, feedback port. -/
def bindChans (v : Word) : List Nat := localChansOf v ++ brakeChansOf v
def bindStep (v : Word) : Option Nat := if fieldOf v (AX_BIND_KIND 0) = 4 then some (fieldOf v (AX_BIND_SOUT 0)) else none
def bindPort (v : Word) : Option Nat :=
  if fieldOf v (AX_BIND_KIND 0) ≠ 0 ∧ fieldOf v (AX_BIND_FBEN 0) = 1 then some (fieldOf v (AX_BIND_FBPORT 0)) else none

/-- The ERR of a bind write, 0 when taken (R15). -/
def State.bindErr (s : State) (n : Nat) (v : Word) : Nat :=
  let kind := fieldOf v (AX_BIND_KIND 0)
  let others := (slots16.filter (· ≠ n)).map (fun m => s.rd (AX_BIND m))
  let brk := fieldOf v (AX_BIND_BRKEN 0) == 1
  let base := 8 * fieldOf v (AX_BIND_BRKGRP 0) + fieldOf v (AX_BIND_BRKBASE 0)
  if (s.slotState n ≠ stUnbound ∧ s.slotState n ≠ stIdle) ∨ s.get (AX_SWAPST_PHASE n) ≠ 0 then 5
  else if kind = 0 then 0
  else if 6 ≤ kind then 1
  else if 1 ≤ kind ∧ kind ≤ 3 ∧ 8 < fieldOf v (AX_BIND_BASE 0) + kindChans kind then 2
  else if kind = 5 ∧ fieldOf v (AX_BIND_FBEN 0) = 0 then 6
  else if brk && (decide (6 < fieldOf v (AX_BIND_BRKBASE 0)) || [base, base + 1].any (localChansOf v).contains) then 7
  else if others.any (fun o => (bindChans o).any (bindChans v).contains) then 3
  else if others.any (fun o => ((bindStep v).isSome && bindStep o == bindStep v) || ((bindPort v).isSome && bindPort o == bindPort v)) then 4
  else 0

/-- Release the engines that AXn_ENGSEL names and clear its enables (R18). -/
def State.releaseEngines (s : State) (n : Nat) : State :=
  let s := s.each (s.slotEngines n) (fun e t => t.engineIdle e)
  (s.put (AX_ENGSEL_CTLEN n) 0).put (AX_ENGSEL_ESTEN n) 0

/-- All counters of the slot clear, and with them the queue, whose level they balance (R50). -/
def State.clearCounters (s : State) (n : Nat) : State :=
  let s := ((s.strandWaits n).modGen n (fun g => { g with queue := [] })).syncQueue n
  s.each [AX_PITSTART n, AX_PITFLUSH n, AX_PITNEXT n, AX_LATE n, AX_UNDERRUN n, AX_SPORD n, AX_SPDISC n, AX_CC_WDSKIP n,
    AX_PR_STALLCNT n] (fun a t => t.wr a 0)

/-- A bind write is judged (R15). -/
def bindNow (w : Writer) (n : Nat) (v : Word) (s : State) : State :=
  if !s.owns w n then s
  else
    let err := s.bindErr n v
    if err ≠ 0 then s.err n err
    else if fieldOf v (AX_BIND_KIND 0) = 0 then
      if s.slotState n = stUnbound then s
      else
        let s := (s.releaseEngines n).wr (AX_BIND n) 0
        let s := ((s.setCkp n 0 {}).setCkp n 1 {}).wr (AX_CKP n) 0xFFFFFFFF
        let s := s.clearCounters n
        (s.put (AX_STATE_STATE n) stUnbound).put (FP_MPR_RESULT n) 0
    else
      let s := (((s.dropTest n).wr (AX_BIND n) (v &&& bindMask)).put (AX_STATE_STATE n) stIdle).put (FP_MPR_RESULT n) 0
      -- the steps emitted count from the binding (R199)
      if s.isRemote n then s.wr (SOG_CNT (s.get (AX_BIND_SOUT n))) 0 else s
/-- BIND_WRITE (R15): a write of KIND 0 during a presence test is judged after the test ends (R454). -/
def bindWrite (w : Writer) (n : Nat) (v : Word) (s : State) : State :=
  match s.test n with
  | some x => if fieldOf v (AX_BIND_KIND 0) = 0 then s.setTest n { x with bind := some (w, v) } else bindNow w n v s
  | none => bindNow w n v s
def execBindWrite (w : Writer) (n : Fin 16) (v : Word) (s : State) : Out := live s (bindWrite w n.val v)

/-! ### Engine selection (R17, R18) -/

/-- The engines that an ENGSEL word names: engine and role (1 control, 2 estimator). -/
def engselNames (v : Word) : List (Nat × Nat) :=
  (if fieldOf v (AX_ENGSEL_CTLEN 0) = 1 then [(fieldOf v (AX_ENGSEL_CTLENG 0), 1)] else []) ++
  (if fieldOf v (AX_ENGSEL_ESTEN 0) = 1 then [(fieldOf v (AX_ENGSEL_ESTENG 0), 2)] else [])
/-- Engine `e` serves slot `n` in this role. -/
def State.servesAs (s : State) (e n role : Nat) : Bool :=
  s.pool e == 1 && s.get (KE_STATUS_ROLE e) == role && s.get (KE_STATUS_SLOT e) == n
/-- The ERR of an ENGSEL write, 0 when taken. -/
def State.engselErr (s : State) (n : Nat) (v : Word) : Nat :=
  let l := engselNames v
  if 2 ≤ s.slotState n ∨ s.get (AX_SWAPST_PHASE n) ≠ 0 then 5
  else if l.any (fun x => decide (20 ≤ x.1)) then 8
  else if l.any (fun x => s.pool x.1 != 0 && !s.servesAs x.1 n x.2) ∨ (l.length = 2 ∧ (l.map (·.1)).eraseDups.length = 1) then 9
  else 0
/-- ENGSEL_WRITE. -/
def engselWrite (w : Writer) (n : Nat) (v : Word) (s : State) : State :=
  if !s.owns w n then s
  else
    let err := s.engselErr n v
    if err ≠ 0 then s.err n err
    else
      let l := engselNames v
      -- an engine that the slot has lost serves it no more, and is assigned anew when it is named again
      let old := (engselNames (s.rd (AX_ENGSEL n))).filter (fun x => s.servesAs x.1 n x.2)
      let s := s.each (old.filter (fun x => !l.contains x)) (fun x t => t.engineIdle x.1)
      let s := s.each (l.filter (fun x => !old.contains x)) (fun x t => (t.put (KE_STATUS_POOL x.1) 1).setRole x.1 x.2 n)
      s.wr (AX_ENGSEL n) (v &&& 0x3F3F#32)
def execEngselWrite (w : Writer) (n : Fin 16) (v : Word) (s : State) : Out := live s (engselWrite w n.val v)

/-! ### ENERGISE and DEENERGISE (R28) -/

/-- The control engine's route is loaded and runs at this ISA level. -/
def State.controlReady (s : State) (n : Nat) : Bool :=
  match s.ctlEngine n with
  | some e => s.pool e == 1 && s.bit (KE_STATUS_LOADED e) && decide (s.get (KE_ISA_ISA e) ≤ 3)
  | none => false
/-- The ERR of an ENERGISE on an IDLE slot, 0 when its checks are met (R28, R69, R74, R93, R105, R109, R136, R196, R263). -/
def State.energiseErr (s : State) (n : Nat) : Nat :=
  let loc := s.isLocal n
  if s.kind n = 5 ∨ s.bit (AX_CC_CAL_BUSY n) ∨ s.bit (AX_PR_CTRL_BUSY n) ∨ s.get (AX_SWAPST_PHASE n) = 5 then 5
  else if loc && !s.controlReady n then 10
  else if s.bit BOOT_ST_QUAR then 11
  else if (s.slotGroups n).any (fun g => s.bit (PWMG_CFG_CFGERR g)) then 10
  else if s.bit (AX_BIND_FBEN n) && s.bit (FB_ST_CFGERR (s.get (AX_BIND_FBPORT n))) then 10
  else if loc && fieldOf ((s.cc n).cfgNext.getD (s.rd (AX_CC_CFG n))) (AX_CC_CFG_UPD n) == 1 && s.fastCarrier (s.get (AX_BIND_GRP n)) then 10
  else if s.usesPrusik n && s.bit (AX_PR_CFG_INJEN n) && !s.nInjOk n then 10
  else if s.usesPrusik n && (s.get (AX_PR_L_LD n) == 0 || s.get (AX_PR_L_LQ n) == 0) then 10
  else if loc && s.get (AX_CC_CFG_MODE n) == 1 && s.bit (AX_CC_CFG_ASRC n) && !s.bit (AX_PR_CFG_INJEN n) then 10
  else 0

/-- The slot enters HOLD: its routes start, its current rises from zero, its brake waits, its search begins. -/
def State.enterHold (s : State) (n : Nat) : State :=
  let s := ((s.missBind n).dropTest n).put (AX_STATE_STATE n) stHold |>.put (AX_STATE_ENABLEPENDING n) 0
  let s := s.each (s.slotEngines n) (fun e t =>
    if t.pool e ≠ 3 ∧ t.bit (KE_STATUS_LOADED e) then (t.routeStart e).put (KE_STATUS_RUN e) 2 else t)
  let s := s.each (s.slotChans n) (fun c t => t.modChan c (fun x => { x with want := 0 }))
  let s := s.modCc n (fun c => { c with
    xd := 0, xq := 0, xv := 0, iqRef := 0, held := [], ramp := .wait, lastRun := none, estCount := 0, ilim := 0
    vNew := (0, 0, 0), vOld := (0, 0, 0), latch := none, late := none, ferr := false, calKind := 0, prLast := none })
  let s := (s.put (AX_CC_ST_LOWRATE n) 0).put (AX_CC_ST_HOLDING n) 0
  let s := s.modGen n (fun g => { g with drift := .coast, rapDe := false, under := false })
  let s := if s.brakeChans n ≠ [] ∧ s.ctlFactory n then (s.put (AX_BRK_ST_BSTATE n) 0).put (AX_BRK_ST_BRKWAIT n) 1 else s
  let s := s.prStart n
  if s.safeoff then s.toTripped n (if s.get (FLT_SRC_SEV 0) = 4 then 6 else 3) .safe
  else if (s.slotChans n).any s.tripped then s.toTripped n 4 .safe
  else s

/-- ENERGISE of a slot, by whoever may. -/
def State.energise (s : State) (n : Nat) : State :=
  let st := s.slotState n
  if st = stShutdown ∨ (st = stRappel ∧ (s.bit (AX_MCFG_RAPEND n) ∨ (s.gen n).rapDe)) then s.put (AX_STATE_ENABLEPENDING n) 1
  else if st ≠ stIdle then s.err n 5
  else
    let e := s.energiseErr n
    if e ≠ 0 then s.err n e else s.enterHold n
/-- DEENERGISE of a slot. -/
def State.deenergise (s : State) (n : Nat) : State :=
  let st := s.slotState n
  if st = stRun then s.toRappel n 1 true
  else if st = stRappel then s.modGen n (fun g => { g with rapDe := true })
  else if st = stHold then (s.keepHead n).toShutdown n 1
  else s.err n 5

def execEnergise (w : Writer) (n : Fin 16) (s : State) : Out := live s (fun s => if s.owns w n.val then s.energise n.val else s)
def execDeenergise (w : Writer) (n : Fin 16) (s : State) : Out := live s (fun s => if s.owns w n.val then s.deenergise n.val else s)
def execClear (w : Writer) (n : Fin 16) (s : State) : Out := live s (fun s => if s.owns w n.val then s.clearTrip w n.val else s)
def execSvcOut (w : Writer) (n : Fin 16) (s : State) : Out := live s (fun s => if s.owns w n.val then s.svcOut w n.val else s)
/-- SVC_IN with the checks measured at the pins, per channel of the slot. -/
def execSvcIn (w : Writer) (n : Fin 16) (phys : List Nat) (s : State) : Out :=
  live s (fun s => if s.owns w n.val then s.svcIn n.val phys else s)

/-- SVC_IN where nobody names the measurements: they are free values. -/
def State.svcInFree (s : State) (n : Nat) : State :=
  let d := s.drawn
  { s with drawn := d + (s.slotChans n).length }.svcIn n ((List.range (s.slotChans n).length).map (fun i => (Config.freeWord (d + i)).toNat % 2 ^ 14))

/-- A write of AXn_CTRL (R27): DEENERGISE, CLEAR, SVC_OUT, SVC_IN, ENERGISE in this order. -/
def axCtrl (w : Writer) (n : Nat) (v : Word) (s : State) : State :=
  if !s.owns w n then s else
  let de := fieldOf v (AX_CTRL_DEENERGISE n) == 1
  let s := s.when de (fun s => s.deenergise n)
  let s := s.when (fieldOf v (AX_CTRL_CLEAR n) == 1) (fun s => s.clearTrip w n)
  let s := s.when (fieldOf v (AX_CTRL_SVCOUT n) == 1) (fun s => s.svcOut w n)
  let s := s.when (fieldOf v (AX_CTRL_SVCIN n) == 1) (fun s => s.svcInFree n)
  s.when (fieldOf v (AX_CTRL_ENERGISE n) == 1 && !de) (fun s => s.energise n)

/-- SHUTDOWN_COMPLETE: the current is zero and the gates are off. -/
def shutdownComplete (n : Nat) (s : State) : State :=
  let down : Bool := match (s.cc n).ramp with | .down _ => true | _ => s.isRemote n
  if s.slotState n = stShutdown ∧ down = true ∧ s.get (AX_BRK_ST_BSTATE n) ≠ 3 then
    let s := s.each (s.slotChans n) (fun c t => (t.force c mOff false).modChan c (fun x => { x with want := 0 }))
    let s := (s.stopRoutes n).modCc n (fun c => { c with ramp := .run, ilim := 0, xd := 0, xq := 0, xv := 0, late := none })
    let again := s.bit (AX_STATE_ENABLEPENDING n)
    let s := (s.put (AX_STATE_STATE n) stIdle).put (AX_STATE_ENABLEPENDING n) 0
    if again then s.energise n else s
  else s
def execShutdownComplete (n : Fin 16) (s : State) : Out := live s (shutdownComplete n.val)

/-! ### The cell tick (R19 to R25) -/

/-- Motion waits for a new search (R98): the head may start, pulses were counted or a point is buffered. -/
def State.motionPending (s : State) (n : Nat) : Bool :=
  let g := s.gen n
  match s.get (AX_MCFG_SRC n) with
  | 0 => !s.bit (AX_PITQ_CTRL_QHELD n) && (match g.queue with
    | e :: _ => !entryTstart e || decide (startTime s.now e ≤ s.now) | [] => false)
  | 1 => g.gearCount != 0
  | _ => !g.points.isEmpty
/-- A HELD estimator searches again before motion starts (R98). -/
def State.holdSearch (s : State) (n : Nat) : State :=
  if s.get (AX_PR_ST_EMODE n) = 6 ∧ s.slotState n = stHold ∧ s.motionPending n ∧ !s.bit (AX_BRK_ST_BRKWAIT n) then
    ((s.put (AX_CC_ST_HOLDING n) 0).put (AX_CC_ST_LOWRATE n) 0).searchStart n
  else s

/-- The counts of ticks of a slot's ramp (R82). -/
def Ramp.tick : Ramp → Ramp
  | .delay k => .delay (k + 1)
  | .fall k => .fall (k + 1)
  | .rise k off => .rise (k + 1) off
  | .down k => .down (k + 1)
  | r => r

/-- A record's age in ticks (R131): it saturates, and 65,535 stands for none. -/
def State.ckpAge (s : State) (n : Nat) : State :=
  let s := (s.ckpCommit n 0 s.now).ckpCommit n 1 s.now
  let s := if (s.ckp n 0).half.isSome then s.incSat (AX_CKP_CTLAGE n) else s
  if (s.ckp n 1).half.isSome then s.incSat (AX_CKP_ESTAGE n) else s

/-- What a tick instant does to slot `n`: setpoint N is published and N + 1 computed, counts go on, waiting changes
apply (R25, R60, R74, R82, R101, R131, R134). -/
def State.tickSlot (s : State) (n : Nat) : State :=
  if s.kind n = 0 then s else
  let s := s.finishSteps n
  let s := match (s.cc n).cfgNext with
    | some v => (s.wr (AX_CC_CFG n) v).modCc n (fun c => { c with cfgNext := none })
    | none => s
  let s := s.modCc n (fun c => { c with ramp := c.ramp.tick })
  let s := (s.prTick n).holdSearch n
  let s := ((((s.publish n).advanceStage n).compute n).settle n).scheduleSteps n
  let s := (s.ckpAge n).syncWait n
  if s.get (AX_SWAPST_PHASE n) = 2 then s.modSwap n (fun x => { x with ticks := x.ticks + 1 }) else s

/-- The engines whose scheduled instants are the tick instants: free-standing routes, those of an energised REMOTE slot
and its swap's target (R121). -/
def State.tickEngine (s : State) (e : Nat) : Bool :=
  match s.engineSlot e with
  | none => s.pool e == 1
  | some n => s.isRemote n && s.energised n && (s.pool e == 1 || s.pool e == 2)

/-- The tick instant `t`. -/
def State.tickInstant (s : State) (t : Nat) : State :=
  let s := { s with now := t, tickAt := t, tickLeft := true, tickDue := false }
  let s := s.each slots16 (fun n u => u.tickSlot n)
  let s := s.each (List.range 8) (fun p u => u.ssiStart p)
  let s := s.each (List.range 4) (fun q u => u.pcoTick q)
  s.each engines20 (fun e u => if u.tickEngine e then u.schedule e else u)

/-- CELL_TICK (R19, R21). When the change of an accepted period comes first, no instant of the old period does. -/
def cellTick (s : State) : State := if s.changeFirst then s else s.tickInstant s.nextTick
def execCellTick (s : State) : Out := live s cellTick

/-- TICK_PERIOD_CHANGE (R21): the accepted value takes effect; that instant is the next tick instant. -/
def tickPeriodChange (s : State) : State :=
  match s.newTick with
  | none => s
  | some (us, w, _) =>
    if !s.changeFirst then s else
    let s := { s with now := s.periodChangeAt us w, newTick := none, tickDue := true }.put CT_TICKCFG_TICKUS us
    let s := s.put CT_SERVO_SLEWPPM (min (s.get CT_SERVO_SLEWPPM) (64000000 / s.period - 25))   -- R351
    let s := s.each groups4 (fun g t => t.recomputePer g)
    s.each (List.range 8) (fun p t => t.flag (FB_ST_CFGERR p) (t.fbCfgErr p))
def execTickPeriodChange (s : State) : Out := live s tickPeriodChange

/-- TICKUS_WRITE (R21): accepted when no slot is energised and the value is 31 to 1000. -/
def tickusWrite (v : Word) (s : State) : State :=
  let us := fieldOf v CT_TICKCFG_TICKUS
  let s := s.w1c CT_TICKCFG_REFUSED v
  if slots16.any s.energised ∨ us < 31 ∨ 1000 < us then s.put CT_TICKCFG_REFUSED 1
  else { s with newTick := some (us, s.now, false) }
def execTickusWrite (v : Word) (s : State) : Out := live s (tickusWrite v)

end Sys2Proof.Machine
end

