-- ==== Sys2Proof/Machine/SerialPorts.lean ====
section
/-! DEFINITION. Clocked serial ports (15_serial_ports.md, R322 to R335): configuration, the master queue, the framing of
a slave port that a host is bound to, and raw words. -/
namespace Sys2Proof.Machine

/-- The port's mode (R324): 0 off, 1 master, 2 slave. -/
def State.cspMode (s : State) (n : Nat) : Nat := s.get (CSP_CFG_MODE n)
/-- The lane count of a configuration word. -/
def cspLanes (v : Word) : Nat := match fieldOf v (CSP_CFG_LANES 0) with | 0 => 1 | 1 => 2 | _ => 4
/-- A host is bound to port `n` (R275). -/
def State.cspBound (s : State) (n : Nat) : Bool := decide (n < 2) && s.get (HOST_CFG_SRC n) == 1 && s.cspMode n == 2
/-- The port exchanges host frames (R331, R335). -/
def State.framed (s : State) (n : Nat) : Bool := s.cspBound n || ((s.csp n).keep && (s.csp n).low)

/-- The status fields that show the port's queue, pending configuration and FIFOs (R326, R330, R334). -/
def State.syncCsp (s : State) (n : Nat) : State :=
  let x := s.csp n
  let s := (s.flag (CSP_ST_CFGPEND n) x.cfgNext.isSome).flag (CSP_ST_SELECTED n) (x.low && s.cspMode n == 2)
  let s := (s.put (CSP_QST_LEVEL n) x.queue.length).flag (CSP_QST_ACTIVE n) x.active
  (s.put (CSP_RAWLVL_RXLVL n) x.rx.length).put (CSP_RAWLVL_TXLVL n) x.tx.length
/-- Change a port's record, its status fields with it. -/
def State.upCsp (s : State) (n : Nat) (x : Csp) : State := (s.setCsp n x).syncCsp n

/-- The ports and links run: not while load is shed and not once they have stopped for bivouac (R390, R430). -/
def State.portsRun (s : State) : Bool := !s.bly.shed && !s.portsOff

/-- The values of CSPn_CFG that are taken (R324, R325). -/
def cspCfgOk (v : Word) : Bool :=
  decide (fieldOf v (CSP_CFG_MODE 0) ≠ 3 ∧ fieldOf v (CSP_CFG_LANES 0) ≠ 3 ∧ 2 ≤ fieldOf v (CSP_CFG_DIV 0) ∧
    fieldOf v (CSP_CFG_SSIDLE 0) ≠ 0 ∧ fieldOf v (CSP_CFG_SSLAG 0) ≠ 0 ∧ fieldOf v (CSP_CFG_SSLEAD 0) ≠ 0)

/-- The port is at a point where a configuration applies (R325). -/
def State.cspFree (s : State) (n : Nat) : Bool :=
  let x := s.csp n
  match s.cspMode n with
  | 1 => x.queue.isEmpty && !x.active
  | 2 => !x.low
  | _ => true

/-- Apply the pending configuration, if any. -/
def State.cspApply (s : State) (n : Nat) : State :=
  match (s.csp n).cfgNext with
  | some v => (s.wr (CSP_CFG n) v).upCsp n { s.csp n with cfgNext := none }
  | none => s

/-- CSP_CFG_WRITE (R325). -/
def cspCfgWrite (n : Nat) (v : Word) (s : State) : State :=
  if !cspCfgOk v ∨ (s.cspBound n ∧ fieldOf v (CSP_CFG_MODE 0) ≠ 2) then s.put (CSP_ST_REFUSED n) 1
  else
    let s := s.upCsp n { s.csp n with cfgNext := some (v &&& 0xFFFFFF7F#32) }
    if s.cspFree n then s.cspApply n else s
def execCspCfgWrite (n : Fin 4) (v : Word) (s : State) : Out := live s (cspCfgWrite n.val v)

/-- CSP_CFG_APPLY (R325): the master queue is empty, or SS0 is high. -/
def cspCfgApply (n : Nat) (s : State) : State := if s.cspFree n then s.cspApply n else s
def execCspCfgApply (n : Fin 4) (s : State) : Out := live s (cspCfgApply n.val)

/-! ### Master queue (R327 to R330) -/

/-- Fields of a queue entry (R327). -/
def qinLink (v : Word) : Bool := v.toNat.testBit 29
def qinTick (v : Word) : Bool := v.toNat.testBit 28
def qinRxofs (v : Word) : Nat := bitsOf v.toNat 27 22
def qinTxofs (v : Word) : Nat := bitsOf v.toNat 21 16
def qinDir (v : Word) : Nat := bitsOf v.toNat 15 14
def qinCont (v : Word) : Bool := v.toNat.testBit 13
def qinSs (v : Word) : Nat := bitsOf v.toNat 12 11
def qinWords (v : Word) : Nat := bitsOf v.toNat 10 5 + 1
def qinBits (v : Word) : Nat := bitsOf v.toNat 4 0 + 1
/-- The entry reads. -/
def qinReads (v : Word) : Bool := qinDir v == 1 || qinDir v == 2
/-- The entry writes. -/
def qinWrites (v : Word) : Bool := qinDir v == 0 || qinDir v == 2

/-- An entry is taken by R327. -/
def State.qinOk (s : State) (n : Nat) (v : Word) : Bool :=
  let cfg := s.rd (CSP_CFG n)
  s.cspMode n == 1 && decide ((s.csp n).queue.length < 16) && decide (v.toNat / 2 ^ 30 = 0 ∧ qinDir v ≠ 3 ∧ 8 ≤ qinBits v) &&
  decide (qinBits v % cspLanes cfg = 0) && !(qinDir v == 2 && fieldOf cfg (CSP_CFG_LANES 0) != 0) &&
  !(qinLink v && !qinCont v) &&
  !(qinWrites v && decide (64 < qinTxofs v + qinWords v)) && !(qinReads v && decide (64 < qinRxofs v + qinWords v))

/-- QIN_WRITE (R327). -/
def qinWrite (n : Nat) (v : Word) (s : State) : State :=
  if s.qinOk n v then
    let x := s.csp n
    (s.upCsp n { x with queue := x.queue ++ [v], headAt := if x.queue.isEmpty then s.now else x.headAt }).inc (CSP_QACC_V n)
  else s.put (CSP_ST_REFUSED n) 1
def execQinWrite (n : Fin 4) (v : Word) (s : State) : Out := live s (qinWrite n.val v)

/-- A half period of SCK, in units of 2.5 ns (R324). -/
def cspHalf (cfg : Word) : Nat := fieldOf cfg (CSP_CFG_DIV 0)
/-- Half periods from the first to the last edge of SCK for `bits` bits in a row (R323). -/
def cspEdges (cfg : Word) (bits : Nat) : Nat :=
  let e := bits / cspLanes cfg
  if fieldOf cfg (CSP_CFG_DDR 0) = 1 then e - 1 else 2 * e - 1
/-- How long an entry runs, ns (R328). -/
def cspDuration (cfg v : Word) (linked : Bool) : Nat :=
  let lead := if linked then 0 else fieldOf cfg (CSP_CFG_SSLEAD 0)
  let half := if qinCont v then
      lead + cspEdges cfg (qinBits v * qinWords v) + (if qinLink v then 0 else fieldOf cfg (CSP_CFG_SSLAG 0))
    else qinWords v * (fieldOf cfg (CSP_CFG_SSLEAD 0) + cspEdges cfg (qinBits v) + fieldOf cfg (CSP_CFG_SSLAG 0)) +
      (qinWords v - 1) * fieldOf cfg (CSP_CFG_SSIDLE 0)
  half * cspHalf cfg * 5 / 2

/-- The earliest cell time at which the select may fall again: SSIDLE half periods after it rose (R324, R328). -/
def State.cspIdleEnd (s : State) (n : Nat) : Nat :=
  let x := s.csp n
  if x.highAt = 0 then 0 else x.highAt + fieldOf (s.rd (CSP_CFG n)) (CSP_CFG_SSIDLE 0) * cspHalf (s.rd (CSP_CFG n)) * 5 / 2

/-- CSP_ENTRY_START (R328, R335): the head starts; with TICK at a tick instant after the one at which it came to the
head, if it came there at one. Its select falls no sooner than SSIDLE allows after the entry before (DEDUCED,
notes/assumptions/84). -/
def cspEntryStart (n : Nat) (s : State) : State :=
  let x := s.csp n
  match x.queue with
  | v :: _ =>
    if s.cspMode n = 1 ∧ !x.active ∧ s.portsRun ∧ (!qinTick v ∨ (s.now = s.tickAt ∧ x.headAt < s.now)) then
      s.upCsp n { x with active := true, linked := false, startAt := max s.now (s.cspIdleEnd n) }
    else s
  | [] => s
def execCspEntryStart (n : Fin 4) (s : State) : Out := live s (cspEntryStart n.val)

/-- The running entry ends with the words `got` received; `timeout` that its strobe failed (R328 to R330). -/
def State.cspEnd (s : State) (n : Nat) (got : List Word) (timeout : Bool) : State :=
  let x := s.csp n
  match x.active, x.queue with
  | true, v :: rest =>
    let cfg := s.rd (CSP_CFG n)
    let first := x.startAt + (if x.linked then 0 else fieldOf cfg (CSP_CFG_SSLEAD 0) * cspHalf cfg * 5 / 2)
    let finish := if timeout then first + 64 * cspHalf cfg * 5 else x.startAt + cspDuration cfg v x.linked
    let s := { s with now := max s.now finish }
    let s := if qinReads v then
        s.each (got.take (qinWords v - (if timeout then 1 else 0))).zipIdx (fun y t =>
          t.wrMem (0x050500 + 0x1000 * n + 4 * (qinRxofs v + y.2)) (BitVec.ofNat 32 (y.1.toNat % 2 ^ qinBits v)))
      else s
    let next : Bool := match rest with | w :: _ => qinSs w == qinSs v && !qinTick w | [] => false
    let joined := qinLink v && !timeout && next
    let broken := qinLink v && !timeout && !next
    let s := (s.inc (CSP_QDONE_V n)).wr64 (CSP_QTIME n) first
    let s := s.put (CSP_QST_LASTERR n) (if timeout then 1 else if broken then 2 else 0)
    let s := if timeout then s.put (CSP_ST_STRBTO n) 1 else if broken then s.put (CSP_ST_LINKBRK n) 1 else s
    s.upCsp n { x with queue := rest, active := joined, linked := joined, headAt := s.now, startAt := s.now
                       highAt := if joined then x.highAt else s.now }
  | _, _ => s

/-- A response or a notification frame is ready to be sent on the port (R333). -/
def State.cspReady (s : State) (n : Nat) : Bool :=
  s.framed n && ((List.range 4).any (fun i => !(s.stream (4 * n + i)).pend.isEmpty) || (s.host n).notifyBusy.isSome)

/-! ### The balls of a master port (R322, R323) -/

/-- How far the running entry has come: the word that is under way, and the half periods of SCK since its select fell. -/
def State.cspPlace (s : State) (n : Nat) (v : Word) : Nat × Nat :=
  let cfg := s.rd (CSP_CFG n)
  let x := s.csp n
  let k := (s.now - x.startAt) * 2 / (5 * cspHalf cfg)
  let lead := if x.linked then 0 else fieldOf cfg (CSP_CFG_SSLEAD 0)
  if qinCont v then (0, k + (fieldOf cfg (CSP_CFG_SSLEAD 0) - lead))
  else
    let per := fieldOf cfg (CSP_CFG_SSLEAD 0) + cspEdges cfg (qinBits v) + fieldOf cfg (CSP_CFG_SSLAG 0) + fieldOf cfg (CSP_CFG_SSIDLE 0)
    (k / per, k % per)
/-- The bits that go out between two falls of the select. -/
def qinRun (v : Word) : Nat := if qinCont v then qinBits v * qinWords v else qinBits v
/-- The entry that runs on a master port. -/
def State.cspRunning (s : State) (n : Nat) : Option Word :=
  if s.cspMode n = 1 ∧ (s.csp n).active then (s.csp n).queue.head? else none
/-- The edges of SCK that the running entry has made since its select fell (R323). -/
def State.cspEdgesMade (s : State) (n : Nat) (v : Word) : Nat :=
  let cfg := s.rd (CSP_CFG n)
  let lead := fieldOf cfg (CSP_CFG_SSLEAD 0)
  let h := (s.cspPlace n v).2
  if h < lead ∨ s.now < (s.csp n).startAt then 0 else min (h - lead + 1) (cspEdges cfg (qinRun v) + 1)
/-- CSPn_SCK of a master (R322, R323): it rests at CPOL; a slave takes its clock in, and an off port releases the ball. -/
def State.sckPin (s : State) (n : Nat) : PinLevel :=
  if s.cspMode n ≠ 1 ∨ s.power = .inReset then .released
  else
    let k := match s.cspRunning n with | some v => s.cspEdgesMade n v | none => 0
    if (k % 2 == 1) != s.bit (CSP_CFG_CPOL n) then .high else .low
/-- CSPn_SSi (R322, R328): a master holds the select of the running entry low from SSLEAD before the first edge to SSLAG
after the last; a slave drives SS1 low as ATN; every other one is released. -/
def State.ssPin (s : State) (n i : Nat) : PinLevel :=
  if s.power = .inReset then .released else
  match s.cspMode n with
  | 1 =>
    (match s.cspRunning n with
     | some v =>
       let cfg := s.rd (CSP_CFG n)
       let inside := decide ((s.cspPlace n v).2 ≤ fieldOf cfg (CSP_CFG_SSLEAD 0) + cspEdges cfg (qinRun v) + fieldOf cfg (CSP_CFG_SSLAG 0))
       if qinSs v = i ∧ (s.csp n).startAt ≤ s.now ∧ inside then .low else .high
     | none => .high)
  | 2 => if i = 1 then (if s.cspReady n then .low else .high) else .released
  | _ => .released
/-- Word `j` of the running entry as its data lanes carry it out (R326, R327): from TXBUF, upper bits ignored. -/
def State.cspTxWord (s : State) (n : Nat) (v : Word) (j : Nat) : Nat :=
  (s.rdMem (0x050400 + 0x1000 * n + 4 * (qinTxofs v + j))).toNat % 2 ^ qinBits v
/-- The bits that data edge `k` of a word carries, one a lane, the highest-numbered lane the most significant (R323). -/
def laneBits (lanes bits w k : Nat) : Nat := w / 2 ^ (bits - lanes * (k + 1)) % 2 ^ lanes

/-- CSP_ENTRY_DONE (R330): the entry completes with the words the peripheral drove. -/
def execCspEntryDone (n : Fin 4) (got : List Word) (s : State) : Out := live s (fun s => s.cspEnd n.val got false)
/-- STROBE_TIMEOUT (R329): a strobed read ends with the words completed so far. -/
def execStrobeTimeout (n : Fin 4) (got : List Word) (s : State) : Out :=
  live s (fun s => match (s.csp n.val).queue with
    | v :: _ => if qinDir v = 1 ∧ s.bit (CSP_CFG_STRB n.val) then s.cspEnd n.val got true else s
    | [] => s)

/-- CSP_QUEUE_FLUSH (R330): every entry not started is discarded. -/
def cspFlush (n : Nat) (s : State) : State :=
  let x := s.csp n
  let stay := if x.active then x.queue.take 1 else []
  (s.upCsp n { x with queue := stay }).inc (CSP_QFLSH_V n) (x.queue.length - stay.length)
def execCspQueueFlush (n : Fin 4) (s : State) : Out := live s (cspFlush n.val)

/-! ### Slave operation (R331 to R334) -/

/-- SS0_FALL (R331): an assertion begins. -/
def ss0Fall (n : Nat) (s : State) : State :=
  if s.cspMode n = 2 ∧ s.portsRun then
    s.upCsp n { s.csp n with low := true, asm := [], phase := if s.get (CSP_CFG_LANES n) = 0 then 1 else 0 }
  else s.upCsp n { s.csp n with low := true, asm := [], phase := 3 }
/-- In bivouac the assertion that wakes the device is discarded and counted (R335, R431). -/
def ss0FallAsleep (n : Nat) (s : State) : State :=
  if s.cspMode n = 2 then (s.upCsp n { s.csp n with low := true, asm := [], phase := 3 }).inc (CSP_ABORTCNT_V n) else s
def execSs0Fall (n : Fin 4) (s : State) : Out :=
  if s.power = .bivouac then always s (ss0FallAsleep n.val) else live s (ss0Fall n.val)

/-- SS0_RISE (R332, R333, R325): a frame in progress is discarded, and a response in progress (`mid`) is sent again
later; both set ABORT. A pending configuration applies. -/
def ss0Rise (n : Nat) (mid : Bool) (s : State) : State :=
  let x := s.csp n
  let cut := s.framed n && x.low && (!x.asm.isEmpty || (mid && s.cspReady n))
  let s := if cut then (s.put (CSP_ST_ABORT n) 1).inc (CSP_ABORTCNT_V n) else s
  let s := s.upCsp n { x with low := false, asm := [], phase := 0, keep := false }
  s.cspApply n
def execSs0Rise (n : Fin 4) (mid : Bool) (s : State) : Out := live s (ss0Rise n.val mid)

/-- The rest of the assertion is discarded and a framing error counted (R331, R332). -/
def State.cspFrameErr (s : State) (n : Nat) : State :=
  ((s.upCsp n { s.csp n with phase := 3, asm := [] }).put (CSP_ST_FRAMEERR n) 1).inc (CSP_FERRCNT_V n)

/-- The words that the receive FIFO of a framed port holds. -/
def Csp.fifo (x : Csp) : Nat := (x.frames.map List.length).sum + x.asm.length

/-- A word of a host frame (R332). -/
def State.cspFrameWord (s : State) (n : Nat) (w : Word) : State :=
  let x := s.csp n
  if 64 ≤ x.fifo then
    ((s.upCsp n { x with phase := 3, asm := [] }).put (CSP_ST_OVERRUN n) 1).inc (CSP_OVERCNT_V n)
  else if x.asm = [] ∧ w = 0 then s
  else
    let a := x.asm ++ [w]
    let len := (a.getD 1 0).toNat / 65536
    if a.length = 2 ∧ (244 < len ∨ len % 4 ≠ 0) then s.cspFrameErr n
    else if 2 ≤ a.length ∧ a.length = 3 + len / 4 then s.upCsp n { x with asm := [], frames := x.frames ++ [a] }
    else s.upCsp n { x with asm := a }

/-- A word of a raw port: one word comes in, one goes out (R334). -/
def State.cspRawWord (s : State) (n : Nat) (w : Word) : State :=
  if s.get (CSP_CFG_LANES n) ≠ 0 then s else
  let x := s.csp n
  let w := BitVec.ofNat 32 (w.toNat % 2 ^ (s.get (CSP_RAW_WLEN n) + 1))
  let s := if 64 ≤ x.rx.length then (s.put (CSP_ST_OVERRUN n) 1).inc (CSP_OVERCNT_V n) else s
  let rx := if 64 ≤ x.rx.length then x.rx else x.rx ++ [w]
  match x.tx with
  | [] => ((s.upCsp n { x with rx := rx }).put (CSP_ST_UNDERRUN n) 1).inc (CSP_UNDERCNT_V n)
  | t :: rest => s.upCsp n { x with rx := rx, tx := rest, lastTx := t }

/-- CSP_SLAVE_WORD (R331, R332, R334): a whole word is received. -/
def cspSlaveWord (n : Nat) (w : Word) (s : State) : State :=
  let x := s.csp n
  if s.cspMode n ≠ 2 ∨ !x.low ∨ !s.portsRun then s
  else if !s.framed n then s.cspRawWord n w
  else match x.phase with
    | 0 =>
      if w = 0x57000000 then s.upCsp n { x with phase := 1 }
      else if w.toNat / 65536 = 0x5200 ∧ w.toNat % 65536 ≠ 0 then s.upCsp n { x with phase := 2, left := w.toNat % 65536 }
      else s.cspFrameErr n
    | 1 => s.cspFrameWord n w
    | _ => s
def execCspSlaveWord (n : Fin 4) (w : Word) (s : State) : Out := live s (cspSlaveWord n.val w)

/-- UNDERRUN_RESEND (R333): the response under way stays in stream memory and is sent again whole. -/
def underrunResend (n : Nat) (s : State) : State :=
  if s.cspReady n ∧ (s.csp n).low then (s.put (CSP_ST_UNDERRUN n) 1).inc (CSP_UNDERCNT_V n) else s
def execUnderrunResend (n : Fin 4) (s : State) : Out := live s (underrunResend n.val)

/-- The oldest raw received word, zero when there is none (R334). -/
def State.srxdWord (s : State) (n : Nat) : Word := (s.csp n).rx.headD 0
/-- SRXD_READ (R334): the oldest raw received word is returned and removed. -/
def srxdRead (n : Nat) (s : State) : State := s.upCsp n { s.csp n with rx := (s.csp n).rx.drop 1 }
def execSrxdRead (n : Fin 4) (s : State) : Out :=
  live s (fun s => { srxdRead n.val s with dataOut := s.srxdWord n.val })

/-- STXD_WRITE (R334). -/
def stxdWrite (n : Nat) (v : Word) (s : State) : State :=
  let x := s.csp n
  if 64 ≤ x.tx.length then s.put (CSP_ST_REFUSED n) 1 else s.upCsp n { x with tx := x.tx ++ [v] }
def execStxdWrite (n : Fin 4) (v : Word) (s : State) : Out := live s (stxdWrite n.val v)

/-- A write of CSPn_RAW (R334): WLEN below 7 is refused. -/
def cspRawWrite (n : Nat) (v : Word) (s : State) : State :=
  if fieldOf v (CSP_RAW_WLEN n) < 7 then s.put (CSP_ST_REFUSED n) 1 else s.put (CSP_RAW_WLEN n) (fieldOf v (CSP_RAW_WLEN n))

end Sys2Proof.Machine
end

