-- ==== Sys2Proof/Machine/Backbone.lean ====
section
/-! DEFINITION. Backbone Ethernet and cell time (16_backbone.md, R336 to R354): receiving and relaying, egress with gate
lists, MDIO, the time-aware system, and the steps and slews of cell time. -/
namespace Sys2Proof.Machine

/-- A big-endian number. -/
def beNat (l : List Byte) : Nat := l.foldl (fun a b => a * 256 + b.toNat) 0
/-- The counters of a port in the order of R352. -/
def rxGood : Nat := 0
def rxBad : Nat := 1
def rxDrop : Nat := 2
def rlyDrop : Nat := 3
def txGood : Nat := 4
def tooBig : Nat := 5
def State.ethCount (s : State) (p i : Nat) : State := s.inc (ETH_RXGOOD_V p i)
/-- ETHp_CFG as it applies: a write takes effect at the next frame boundary of the port (R352). -/
def State.ethCfg (s : State) (p : Nat) : Word :=
  match (s.eth p).cfgOld with
  | some (t, v) => if s.now < t then v else s.rd (ETH_CFG p)
  | none => s.rd (ETH_CFG p)
/-- A one-bit field of ETHp_CFG as it applies. -/
def State.ethBit (s : State) (p : Nat) (f : Fld) : Bool := fieldOf (s.ethCfg p) f == 1
/-- A write of ETHp_CFG (R352). -/
def ethCfgWrite (p : Nat) (v : Word) (s : State) : State :=
  let x := s.eth p
  let old := if s.now < x.busy then some (x.busy, s.ethCfg p) else none
  (s.setEth p { x with cfgOld := old }).wr (ETH_CFG p) (v &&& 0xF#32)
/-- The link of port `p` is up and the port runs. -/
def State.linkUp (s : State) (p : Nat) : Bool := s.bit (ETH_ST_LINK p) && s.ethBit p (ETH_CFG_EN p) && s.portsRun

/-! ### Egress memory (R343) -/

def EthPort.queue (x : EthPort) (q : Nat) : List EgFrame := tabGet (fun _ => []) x.queues q
/-- Bytes held in the 16 KiB of egress memory. -/
def EthPort.used (x : EthPort) : Nat := (((List.range 8).map (fun q => ((x.queue q).map EgFrame.len).sum)).sum : Nat)
/-- Egress memory of port `p` has room for `len` bytes more. -/
def State.egressRoom (s : State) (p len : Nat) : Bool := decide ((s.eth p).used + len ≤ 16384)
/-- The frame is one of the device's own. -/
def EgFrame.own (f : EgFrame) : Bool := match f.body with | .relayed _ => false | _ => true
/-- A queue with a frame added: at its end, but a device frame goes before the relayed frames that reached the queue in the
same cycle (R343). -/
def addEgress (l : List EgFrame) (f : EgFrame) : List EgFrame :=
  let late := if f.own then (l.reverse.takeWhile (fun x => !x.own && x.at_ / 5 == f.at_ / 5)).length else 0
  l.take (l.length - late) ++ [f] ++ l.drop (l.length - late)
/-- Put a frame of `len` bytes into an egress queue. -/
def State.enqueue (s : State) (p q len : Nat) (body : EgBody) : State :=
  let x := s.eth p
  s.setEth p { x with queues := tabPut x.queues q (addEgress (x.queue q) ⟨len, body, s.now⟩) }
/-- A gPTP message of the device, in queue 7; its length is free within the limits of R336. -/
def State.sendGptp (s : State) (p message : Nat) : State :=
  let len := 64 + (Config.freeWord s.drawn).toNat % 1459
  let s := s.draw
  if s.egressRoom p len then s.enqueue p 7 len (.gptp message) else s
/-- The queue of a relayed frame (R343). -/
def pcpQueue (pcp : Nat) : Nat := match pcp with | 0 => 1 | 1 => 0 | k => k

/-! ### Gate lists (R344, R345) -/

def gclGates (w : Word) : Nat := bitsOf w.toNat 31 24
def gclLen (w : Word) : Nat := bitsOf w.toNat 23 0 * 8
/-- Time since the start of the cycle that `t` lies in. -/
def GateCfg.offset (g : GateCfg) (t : Nat) : Nat := (((t : Int) - (g.base : Int)) % (max g.cycle 1 : Nat)).toNat
/-- The entry in effect `t` ns into a cycle, and the time into the cycle at which it ends, with nothing for one that holds
to the cycle's end. -/
def gateWalk : List Word → Nat → Nat → Nat → Nat × Option Nat
  | [], _, i, _ => (i - 1, none)
  | [_], _, i, _ => (i, none)
  | w :: l, start, i, t => if t < start + gclLen w then (i, some (start + gclLen w)) else gateWalk l (start + gclLen w) (i + 1) t
/-- The operational entry in effect at cell time `t`. -/
def GateCfg.entryAt (g : GateCfg) (t : Nat) : Nat := if g.en then (gateWalk g.list 0 0 (g.offset t)).1 else 0
/-- The next instant after `t` at which an entry or the cycle ends. -/
def GateCfg.nextChange (g : GateCfg) (t : Nat) : Nat :=
  let o := g.offset t
  match (gateWalk g.list 0 0 o).2 with
  | some e => t + (min e g.cycle - o)
  | none => t + (g.cycle - o)
/-- Queue `q` is open in entry `i`. -/
def GateCfg.opens (g : GateCfg) (i q : Nat) : Bool := !g.en || (gclGates (g.list.getD i 0)).testBit q
/-- Queue `q` stays open from `t` for `need` ns more, over at most `fuel` entries. -/
def GateCfg.staysOpen (g : GateCfg) (q : Nat) : Nat → Nat → Nat → Bool
  | 0, _, _ => true
  | fuel + 1, t, need =>
    if !g.en then true
    else if !g.opens (g.entryAt t) q then need == 0
    else
      let e := g.nextChange t
      if need ≤ e - t then true else g.staysOpen q fuel e (need - (e - t))
/-- How long a frame of `len` bytes takes: preamble, frame and a 12-byte gap, at 8 or 80 ns a byte (R337, R344). -/
def State.wireTime (s : State) (p len : Nat) : Nat := (8 + len + 12) * (if s.ethBit p (ETH_CFG_PACE100 p) then 80 else 8)
/-- The head of queue `q` of port `p` may start now. -/
def State.mayStart (s : State) (p q : Nat) : Bool :=
  let x := s.eth p
  match x.queue q with
  | [] => false
  | f :: _ => x.oper.opens (x.oper.entryAt s.now) q && x.oper.staysOpen q 129 s.now (s.wireTime p f.len)
/-- The head of queue `q` fits no window: it could start at no entry of a cycle. -/
def State.fitsNever (s : State) (p q : Nat) : Bool :=
  let x := s.eth p
  match x.queue q with
  | [] => false
  | f :: _ =>
    let starts := (x.oper.list.foldl (fun (a : Nat × List Nat) w => (a.1 + gclLen w, a.2 ++ [a.1])) (0, [])).2
    x.oper.en && starts.all (fun o => decide (x.oper.cycle ≤ o) ||
      !(x.oper.opens (x.oper.entryAt (s.now + (x.oper.cycle - x.oper.offset s.now) + o)) q &&
        x.oper.staysOpen q 129 (s.now + (x.oper.cycle - x.oper.offset s.now) + o) (s.wireTime p f.len)))

/-- EGRESS_FRAME_START (R343, R344): the head of the highest queue that may start. -/
def egressStart (p : Nat) (s : State) : State :=
  let x := s.eth p
  if !s.linkUp p ∨ s.now < x.busy then s else
  match [7, 6, 5, 4, 3, 2, 1, 0].find? (s.mayStart p) with
  | none => s
  | some q =>
    match x.queue q with
    | [] => s
    | f :: rest =>
      let s := (s.setEth p { x with queues := tabPut x.queues q rest, busy := s.now + s.wireTime p f.len }).ethCount p txGood
      match f.body with
      | .response r => { s with sent := s.sent ++ [{ r with port := 2 + p }] }
      | _ => s
def execEgressFrameStart (p : Fin 2) (s : State) : Out := live s (egressStart p.val)

/-- GATE_ENTRY_CHANGE (R344): the next entry takes effect; at the start of a cycle each head that fits no window counts. -/
def gateEntryChange (p : Nat) (s : State) : State :=
  let g := (s.eth p).oper
  if !g.en ∨ g.list = [] then s else
  let s := if s.get (QBV_ST_ENTRY p) = g.entryAt s.now then { s with now := g.nextChange s.now } else s
  let s := s.put (QBV_ST_ENTRY p) (g.entryAt s.now)
  if g.offset s.now = 0 then
    s.inc (ETH_RXGOOD_V p tooBig) (((List.range 8).filter (s.fitsNever p)).length)
  else s
def execGateEntryChange (p : Fin 2) (s : State) : Out := live s (gateEntryChange p.val)

/-- The first instant base + k × cycle after `t`. -/
def GateCfg.changeAt (g : GateCfg) (t : Nat) : Nat := t + (g.cycle - g.offset t)

/-- QBV_APPLY (R345): the administrative values are pended, or ERR is set. -/
def qbvApply (p : Nat) (s : State) : State :=
  let len := s.get (QBV_CTRL_LEN p)
  let cyc := s.get (QBV_CYCLE_V p)
  let en := s.bit (QBV_CTRL_EN p)
  if cyc < 1000 ∨ 1000000000 < cyc ∨ 64 < len ∨ (len = 0 ∧ en) then s.put (QBV_CTRL_ERR p) 1
  else
    let g : GateCfg := ⟨en, s.get (QBV_BASE_V p), cyc, (List.range len).map (fun i => s.rd (QBV_GCL p i))⟩
    (s.setEth p { s.eth p with adm := some (g, g.changeAt s.now) }).put (QBV_CTRL_PEND p) 1
def execQbvApply (p : Fin 2) (s : State) : Out := live s (qbvApply p.val)
/-- A write of QBVp_CTRL. -/
def qbvCtrlWrite (p : Nat) (v : Word) (s : State) : State :=
  let s := (s.put (QBV_CTRL_LEN p) (fieldOf v (QBV_CTRL_LEN p))).put (QBV_CTRL_EN p) (fieldOf v (QBV_CTRL_EN p))
  let s := s.w1c (QBV_CTRL_ERR p) v
  if fieldOf v (QBV_CTRL_APPLY p) = 1 then qbvApply p s else s

/-- QBV_CONFIG_CHANGE (R345): at the change instant the pended list becomes operational. -/
def qbvConfigChange (p : Nat) (s : State) : State :=
  match (s.eth p).adm with
  | none => s
  | some (g, t) =>
    let s := { s with now := max s.now t }
    let s := s.setEth p { s.eth p with oper := g, adm := none }
    let s := s.each (List.range 64) (fun i t => t.wr (QBV_OPER p i) (g.list.getD i 0))
    (s.put (QBV_CTRL_PEND p) 0).put (QBV_ST_ENTRY p) 0
def execQbvConfigChange (p : Fin 2) (s : State) : Out := live s (qbvConfigChange p.val)

/-! ### MDIO (R338) -/

/-- MDIO_GO: a transaction starts, or the GO is refused while one runs. -/
def mdioGo (s : State) : State :=
  if s.bit MDIO_CMD_BUSY then s.put MDIO_CMD_REFUSED 1
  else { s with gptp := { s.gptp with mdioAt := s.now + 25600 } }.put MDIO_CMD_BUSY 1
def execMdioGo (s : State) : Out := live s mdioGo
/-- A write of MDIO_CMD. -/
def mdioWrite (v : Word) (s : State) : State :=
  let s := s.w1c MDIO_CMD_REFUSED v
  if fieldOf v MDIO_CMD_GO = 1 ∧ s.bit MDIO_CMD_BUSY then s.put MDIO_CMD_REFUSED 1
  else
    let s := ((s.put MDIO_CMD_WR (fieldOf v MDIO_CMD_WR)).put MDIO_CMD_PHYAD (fieldOf v MDIO_CMD_PHYAD)).put
      MDIO_CMD_REGAD (fieldOf v MDIO_CMD_REGAD)
    let s := s.put MDIO_CMD_DATA (fieldOf v MDIO_CMD_DATA)
    if fieldOf v MDIO_CMD_GO = 1 then mdioGo s else s
/-- MDIO_DONE: 64 MDC periods have passed; a read leaves the PHY's word `d` in DATA. -/
def mdioDone (d : BitVec 16) (s : State) : State :=
  if !s.bit MDIO_CMD_BUSY then s else
  let s := { s with now := max s.now s.gptp.mdioAt }.put MDIO_CMD_BUSY 0
  if s.bit MDIO_CMD_WR then s else s.put MDIO_CMD_DATA d.toNat
def execMdioDone (d : BitVec 16) (s : State) : Out := live s (mdioDone d)

/-! ### Receiving and relaying (R339 to R342) -/

/-- The FCS at the end of a frame is that of the bytes before it. -/
def fcsOk (b : List Byte) : Bool :=
  let body := b.take (b.length - 4)
  let fcs := b.drop (b.length - 4)
  ((body.foldl (fun c x => crc32Byte c x.toNat) 0xFFFFFFFF) ^^^ 0xFFFFFFFF) == beNat fcs.reverse

/-- A frame's VLAN tag, if any, its EtherType and the payload without FCS. -/
def ethParts (b : List Byte) : Option Nat × Nat × List Byte :=
  let d := (b.take (b.length - 4)).drop 12
  let t := beNat (d.take 2)
  if t = 0x8100 then (some (beNat ((d.drop 2).take 2)), beNat ((d.drop 4).take 2), d.drop 6) else (none, t, d.drop 2)

/-- A gPTP message that the device discards and counts: another domain, a one-step Sync, a Signaling message (R336, R346). -/
def gptpDropped (payload : List Byte) : Bool :=
  let kind := (payload.getD 0 0).toNat % 16
  (payload.getD 4 0 != 0) || (kind == 0 && !(payload.getD 6 0).toNat.testBit 1) || kind == 0xC

/-- ETH_HTYPE and ETH_VLAN as they were at cell time `t`, the first byte of a frame (R354). -/
def State.headAt (s : State) (t : Nat) : Word × Word :=
  match (s.gptp.headOld.filter (fun x => decide (t < x.1))).getLast? with
  | some x => x.2
  | none => (s.rd ETH_HTYPE, s.rd ETH_VLAN)
/-- A write of ETH_HTYPE or ETH_VLAN is about to change what later frames are judged by: the words before are kept for as
long as a frame of 1,522 bytes takes. -/
def State.keepHeads (s : State) : State :=
  let old := s.gptp.headOld.filter (fun x => decide (s.now ≤ x.1 + 1522 * 8))
  { s with gptp := { s.gptp with headOld := (s.now, s.rd ETH_HTYPE, s.rd ETH_VLAN) :: old } }
/-- A write of ETH_VLAN (R353). -/
def vlanWrite (v : Word) (s : State) : State := s.keepHeads.wr ETH_VLAN (v &&& 0xFFC00FFF#32)

/-- A frame of `len` bytes goes from port `p` to the other one (R340): through the 32 KiB of relay memory, which it has left
at the latest 1 µs later, into an egress queue; it is dropped where either memory is full. -/
def State.relay (s : State) (p q len : Nat) (b : List Byte) : State :=
  let x := s.eth p
  let held := x.relay.filter (fun y => decide (s.now < y.1))
  if 32768 < (held.map (·.2)).sum + len ∨ !s.egressRoom (1 - p) len then s.ethCount p rlyDrop
  else (s.setEth p { x with relay := held ++ [(s.now + 1000, len)] }).enqueue (1 - p) q len (.relayed b)

/-- ETH_FRAME_RECEIVE (R339): the frame's bytes from destination to FCS; `symErr` that a symbol was in error. -/
def ethFrameReceive (p : Nat) (b : List Byte) (symErr : Bool) (s : State) : State :=
  if !s.linkUp p then s
  else if symErr ∨ b.length < 64 ∨ 1522 < b.length ∨ !fcsOk b then s.ethCount p rxBad
  else
    let s := s.ethCount p rxGood
    let dst := beNat (b.take 6)
    let src := beNat ((b.drop 6).take 6)
    let (tag, ty, payload) := ethParts b
    let (htype, vl) := s.headAt (s.now - 8 * b.length)
    if dst = 0x0180C200000E ∧ ty = 0x88F7 then (if gptpDropped payload then s.inc GPTP_DISC_V else s)
    else if 0x0180C2000000 ≤ dst ∧ dst ≤ 0x0180C200000F ∨ ty = 0x8808 then s.ethCount p rxDrop
    else if dst = s.get ETH_MAC_V then
      let vlan : Bool := match tag with | none => true | some t => t % 4096 == 0 || t % 4096 == fieldOf vl ETH_VLAN_VID
      if ty = fieldOf htype ETH_HTYPE_V ∧ vlan then s.setEth p { s.eth p with inbox := (s.eth p).inbox ++ [(src, payload)] }
      else s.ethCount p rxDrop
    else if s.ethBit 0 (ETH_CFG_RELAY 0) ∧ s.ethBit 1 (ETH_CFG_RELAY 1) then
      s.relay p (pcpQueue (match tag with | some t => t / 8192 | none => fieldOf vl ETH_VLAN_DEFPCP)) b.length b
    else s.ethCount p rxDrop
def execEthFrameReceive (p : Fin 2) (b : List Byte) (symErr : Bool) (s : State) : Out := live s (ethFrameReceive p.val b symErr)

/-! ### Cell time (R348 to R351) -/

/-- A step of cell time is allowed (R350). -/
def State.stepAllowed (s : State) : Bool := !slots16.any s.energised

/-- `t` moved with a step of cell time by `d`. -/
def movedBy (d : Int) (t : Nat) : Nat := (t + d).toNat

/-- A gate and a channel moved with a step of cell time by `d`; what is kept for one instant of the old time ends. -/
def Gate.moved (d : Int) (x : Gate) : Gate := { x with onAt := movedBy d x.onAt, cut := none }
def PwmChan.moved (d : Int) (x : PwmChan) : PwmChan :=
  let f := movedBy (2 * d)
  { x with
    h := x.h.moved d, l := x.l.moved d, deadAt := f x.deadAt, edges := x.edges.map (fun e => (f e.1, e.2)), pulse := x.pulse.map f
    disarmed := none, sampAt := none, thrOld := none, scfOld := none }

/-- The instants from which running times are measured move with a step of cell time by `d`: a step changes no elapsed
time (notes/assumptions, DEDUCED). -/
def State.moveTimers (s : State) (d : Int) : State :=
  let f := movedBy d
  { s with
    hosts := s.hosts.map (fun x => (x.1, { x.2 with
      lastFrame := f x.2.lastFrame, stage := x.2.stage.map (fun y => (y.1, y.2.1, f y.2.2)), shadow := x.2.shadow.map (fun y => (y.1, y.2.1, f y.2.2)) }))
    ccs := s.ccs.map (fun x => (x.1, { x.2 with calAt := f x.2.calAt, brkAt := f x.2.brkAt }))
    chans := s.chans.map (fun x => (x.1, x.2.moved d))
    groups := s.groups.map (fun x => (x.1, { x.2 with valley := (x.2.valley + 2 * d).toNat, sampAt := none }))
    windows := s.windows.map (fun x => (x.1, { x.2 with at_ := none }))
    filtOld := none
    coll := { s.coll with recAt := none }
    setNow := []
    fbs := s.fbs.map (fun x => (x.1, { x.2 with times := x.2.times.map f, old := none, zAt := f x.2.zAt }))
    lines := s.lines.map (fun x => (x.1, { x.2 with at_ := f x.2.at_ }))
    engines := s.engines.map (fun x => (x.1, { x.2 with endAt := f x.2.endAt }))
    csps := s.csps.map (fun x => (x.1, { x.2 with startAt := f x.2.startAt, headAt := f x.2.headAt, highAt := f x.2.highAt }))
    eths := s.eths.map (fun x => (x.1, { x.2 with
      busy := f x.2.busy, relay := x.2.relay.map (fun y => (f y.1, y.2)), cfgOld := x.2.cfgOld.map (fun y => (f y.1, y.2))
      queues := x.2.queues.map (fun y => (y.1, y.2.map (fun z => { z with at_ := f z.at_ }))) }))
    pcos := s.pcos.map (fun x => (x.1, { x.2 with armedAt := f x.2.armedAt, edgeAt := f x.2.edgeAt, endAt := f x.2.endAt }))
    decs := s.decs.map (fun x => (x.1, { x.2 with settleAt := f x.2.settleAt, outAt := x.2.outAt.map f, old := none }))
    capAt := s.capAt.map (fun x => (x.1, f x.2))
    log := { s.log with wrAt := none, frzStart := f s.log.frzStart, frzFrom := f s.log.frzFrom }
    hkc := { s.hkc with
      start := f s.hkc.start, refAt := f s.hkc.refAt, calAt := f s.hkc.calAt, injPend := s.hkc.injPend.map f, trig := s.hkc.trig.map f }
    gptp := { s.gptp with
      ann := s.gptp.ann.map (fun x => (x.1, { x.2 with at_ := f x.2.at_ })), syncAt := f s.gptp.syncAt, slewEnd := f s.gptp.slewEnd, mdioAt := f s.gptp.mdioAt
      syncTx := f s.gptp.syncTx, annTx := f s.gptp.annTx, pdlyTx := s.gptp.pdlyTx.map (fun x => (x.1, f x.2))
      headOld := s.gptp.headOld.map (fun x => (f x.1, x.2)) }
    panel := { s.panel with
      nextTest := s.panel.nextTest.map (fun x => (x.1, f x.2)), pads := s.panel.pads.map (fun x => (x.1, { x.2 with since := f x.2.since })) }
    bly := { s.bly with start := f s.bly.start, sagAt := f s.bly.sagAt }
    hoAt := f s.hoAt }

/-- Step cell time to `t`: the record, STEPPED, and the instants that follow (R350, R354). The tick instant of `t` itself
does not occur. -/
def State.stepCellTime (s : State) (t : Nat) : State :=
  let d : Int := (t : Int) - (s.now : Int)
  let s := { s.moveTimers d with now := t, tickAt := t, tickLeft := true, tickDue := false, newTick := s.newTick.map (fun (x : Nat × Nat × Bool) => (x.1, t, true)) }
  let s := s.offer ⟨BitVec.ofNat 32 (unsignedOf 32 d), BitVec.ofNat 32 (unsignedOf 28 (d / 4294967296) * 16 + 4), t⟩
  let s := s.each [0, 1] (fun p u => match (u.eth p).adm with
    | some (g, at_) => if at_ ≤ t then u.setEth p { u.eth p with adm := some (g, g.changeAt t) } else u
    | none => u)
  s.put CT_ST_STEPPED 1

/-- CT_SET_GO (R350): cell time becomes CT_SET, or the GO is refused. -/
def ctSetGo (s : State) : State :=
  if (s.get CT_ST_MODE = 0 ∨ s.get CT_ST_MODE = 4) ∧ s.stepAllowed then s.stepCellTime (s.get CT_SET_V)
  else s.put CT_ST_REFUSED 1
def execCtSetGo (s : State) : Out := live s ctSetGo

/-- CT_SERVO_WRITE (R351, R353). -/
def ctServoWrite (r : CtReg) (v : Word) (s : State) : State :=
  match r with
  | .servo =>
    let ppm := fieldOf v CT_SERVO_SLEWPPM
    let bw := fieldOf v CT_SERVO_BW
    if 1 ≤ ppm ∧ ppm ≤ 100 ∧ 1 ≤ bw ∧ bw ≤ 100 ∧ (ppm + 25) * s.period ≤ 64000000 then s.wr CT_SERVO (v &&& 0xFFFF0000#32)
    else s.put CT_ST_REFUSED 1
  | .thr =>
    if 1 ≤ fieldOf v CT_THR_STEPTHR ∧ 20 ≤ fieldOf v CT_THR_LOCKTHR then s.wr CT_THR v else s.put CT_ST_REFUSED 1
def execCtServoWrite (r : CtReg) (v : Word) (s : State) : Out := live s (ctServoWrite r v)

/-- GPTP_CFG_WRITE (R353). -/
def gptpCfgWrite (v : Word) (s : State) : State :=
  let l := fieldOf v GPTP_CFG_SYNCLOG
  let ok := l = 0 ∨ 11 ≤ l
  if ok ∧ ¬(fieldOf v GPTP_CFG_EXTCFG = 1 ∧ fieldOf v GPTP_CFG_ROLE0 = 2 ∧ fieldOf v GPTP_CFG_ROLE1 = 2) then
    s.wr GPTP_CFG (v &&& 0xFFFFFC0F#32)
  else s.put CT_ST_REFUSED 1
def execGptpCfgWrite (v : Word) (s : State) : Out := live s (gptpCfgWrite v)

/-- A write of ETH_HTYPE (R353). -/
def htypeWrite (v : Word) (s : State) : State :=
  let t := v.toNat % 65536
  if t < 0x600 ∨ t = 0x8100 ∨ t = 0x8808 ∨ t = 0x88F7 then s.put MDIO_CMD_REFUSED 1 else s.keepHeads.put ETH_HTYPE_V t

/-! ### The time-aware system (R346, R348, R349) -/

/-- The device's clock identity (R346). -/
def State.ownId (s : State) : Nat :=
  let m := s.get ETH_MAC_V
  m / 2 ^ 24 % 2 ^ 24 * 2 ^ 40 + 0xFFFE * 2 ^ 24 + m % 2 ^ 24
/-- The device's own priority vector. -/
def State.ownKey (s : State) : List Nat :=
  [if s.bit GPTP_CFG_GMCAP then s.get GPTP_CFG_PRIO1 else 255, 248, 0xFE, 0x436A, s.get GPTP_CFG_PRIO2, s.ownId, 0]
/-- One priority vector precedes another. -/
def keyLt : List Nat → List Nat → Bool
  | [], [] => false
  | [], _ :: _ => true
  | _ :: _, [] => false
  | a :: l, b :: m => decide (a < b) || (a == b && keyLt l m)
/-- The Announce kept for port `p`. -/
def State.annOf (s : State) (p : Nat) : Option AnnRec := (s.gptp.ann.find? (fun x => x.1 == p)).map (·.2)
/-- The best port of the BMCA: the one whose Announce precedes the device's own vector and the other port's. -/
def State.bestPort (s : State) : Option Nat :=
  let better (p : Nat) : Bool := match s.annOf p with | some a => keyLt a.key s.ownKey | none => false
  match better 0, better 1 with
  | true, true => (match s.annOf 0, s.annOf 1 with
      | some a, some b => if keyLt b.key a.key then some 1 else some 0
      | _, _ => some 0)
  | true, false => some 0
  | false, true => some 1
  | false, false => none
/-- The slave port in force: by role with EXTCFG, else the one the BMCA selected (R346). -/
def State.slavePort (s : State) : Option Nat :=
  if s.bit GPTP_CFG_EXTCFG then
    (if s.get GPTP_CFG_ROLE0 = 2 then some 0 else if s.get GPTP_CFG_ROLE1 = 2 then some 1 else none)
  else match s.get CT_ST_SLVPORT with | 1 => some 0 | 2 => some 1 | _ => none
/-- Port `p` is a master port on which gPTP messages are sent. -/
def State.masterPort (s : State) (p : Nat) : Bool :=
  s.linkUp p && s.bit (ETH_ST_ASCAP p) &&
  (if s.bit GPTP_CFG_EXTCFG then s.get (if p = 0 then GPTP_CFG_ROLE0 else GPTP_CFG_ROLE1) == 1
   else s.slavePort != some p && (match s.annOf p, s.slavePort with | some a, some _ => !keyLt a.key s.ownKey | _, _ => true))

/-- FREERUN: cell time runs at the crystal rate (R348). -/
def State.freerun (s : State) : State := (s.put CT_ST_MODE 0).wr CT_RATE 0
/-- Entry to HOLDOVER (R348): cell time goes on at the last estimate of the grandmaster's rate. -/
def State.holdover (s : State) : State :=
  let m := s.get CT_ST_MODE
  let s := (((((s.puti CT_RATE_V s.gptp.gmRate).put CT_ST_MODE 3).put CT_ST_HOLDSEEN 1).inc CT_HOLDCNT_V).put CT_ST_SLEWING 0)
  ({ s with gptp := { s.gptp with good := 0 } }).raise 0xA 0 m 0 s.now

/-- The device becomes grandmaster: cell time goes on (R348). -/
def State.becomeGm (s : State) : State :=
  ((s.put CT_ST_MODE 4).put CT_ST_SLVPORT 0).put CT_ST_SLEWING 0 |>.wr64 GPTP_GMID s.ownId

/-- The BMCA (R346, R348): the best Announce selects the slave port; with none better the device, if it may, becomes
grandmaster. -/
def State.bmca (s : State) : State :=
  if s.bit GPTP_CFG_EXTCFG then s else
  match s.bestPort with
  | some p =>
    let gm := match s.annOf p with | some a => a.key.getD 5 0 | none => 0
    let new := s.get CT_ST_SLVPORT ≠ p + 1 ∨ s.get GPTP_GMID_V ≠ gm
    let s := (s.put CT_ST_SLVPORT (p + 1)).wr64 GPTP_GMID gm
    if s.get CT_ST_MODE = 4 then s.freerun
    else if new ∧ s.get CT_ST_MODE = 2 then { s with gptp := { s.gptp with good := 0 } }.put CT_ST_MODE 1
    else s
  | none =>
    if s.bit GPTP_CFG_GMCAP then s.becomeGm
    else
      let m := s.get CT_ST_MODE
      let s := (s.put CT_ST_SLVPORT 0).wr64 GPTP_GMID 0
      if m = 1 ∨ m = 2 then s.holdover else if m = 4 then s.freerun else s

/-- ANNOUNCE (R346): a received Announce is taken into the BMCA. -/
def announce (p : Nat) (a : AnnounceMsg) (s : State) : State :=
  if !s.linkUp p ∨ !s.bit (ETH_ST_ASCAP p) ∨ s.bit GPTP_CFG_EXTCFG ∨ a.gm.toNat = s.ownId then s
  else
    let key := [a.prio1.toNat, a.cls.toNat, a.acc.toNat, a.var.toNat, a.prio2.toNat, a.gm.toNat, a.steps.toNat]
    ({ s with gptp := { s.gptp with ann := tabPut s.gptp.ann p ⟨key, s.now⟩ } }).bmca
def execAnnounce (p : Fin 2) (a : AnnounceMsg) (s : State) : Out := live s (announce p.val a)

/-- ANNOUNCE_TRANSMIT (R346): an Announce on each master port, 1 s after the one before. -/
def announceTransmit (s : State) : State :=
  let t := max s.now s.gptp.annTx
  let s := { s with now := t, gptp := { s.gptp with annTx := t + 1000000000 } }
  s.each ([0, 1].filter s.masterPort) (fun p t => t.sendGptp p 0xB)
def execAnnounceTransmit (s : State) : Out := live s announceTransmit

/-- 2^SYNCLOG s in ns (R346, R353). -/
def State.syncInterval (s : State) : Nat := 1000000000 / 2 ^ ((16 - s.get GPTP_CFG_SYNCLOG) % 16)
/-- SYNC_TRANSMIT (R346): as grandmaster, a two-step Sync and its Follow_Up on each master port, one Sync interval after
those before. -/
def syncTransmit (s : State) : State :=
  let s := if s.bit GPTP_CFG_EXTCFG ∧ s.slavePort = none ∧ [0, 1].any s.masterPort then s.becomeGm else s
  if s.get CT_ST_MODE = 4 then
    let t := max s.now s.gptp.syncTx
    let s := { s with now := t, gptp := { s.gptp with syncTx := t + s.syncInterval } }
    s.each ([0, 1].filter s.masterPort) (fun p t => (t.sendGptp p 0).sendGptp p 8)
  else s
def execSyncTransmit (s : State) : Out := live s syncTransmit

/-- Signed latency of port `p` at the external PHY (R347, R352). -/
def State.rxLat (s : State) (p : Nat) : Int := s.geti (ETH_TSLAT_RXLAT p)
def State.txLat (s : State) (p : Nat) : Int := s.geti (ETH_TSLAT_TXLAT p)
/-- PDELAY (R346, R347): a peer delay exchange, one a second, gives the mean link delay, or fails. `d` is the delay by the
timestamps at the serial interface; TSLAT takes the PHY's part out of it. -/
def pdelay (p : Nat) (d : Option (BitVec 32)) (s : State) : State :=
  if !s.linkUp p then s else
  let t := max s.now (tabGet (fun _ => 0) s.gptp.pdlyTx p)
  let s := { s with now := t, gptp := { s.gptp with pdlyTx := tabPut s.gptp.pdlyTx p (t + 1000000000) } }
  match d with
  | some d =>
    let m := ((d.toNat : Int) - (s.rxLat p + s.txLat p) / 2).toNat
    (s.wr (GPTP_PDLY p) (BitVec.ofNat 32 m)).flag (ETH_ST_ASCAP p) (decide (m ≤ s.get GPTP_NDTHR_V))
  | none => s.put (ETH_ST_ASCAP p) 0
def execPdelay (p : Fin 2) (d : Option (BitVec 32)) (s : State) : Out := live s (pdelay p.val d)

/-- The rate the servo sets (R349): the grandmaster rate and a correction of at most SLEWPPM, whose value is free. -/
def State.servoRate (s : State) : State :=
  let lim : Nat := s.get CT_SERVO_SLEWPPM * 1000
  let c : Int := ((Config.freeWord s.drawn).toNat % (2 * lim + 1) : Nat) - (lim : Int)
  s.draw.puti CT_RATE_V (s.gptp.gmRate + c)

/-- FOLLOW_UP (R347 to R349): the offset, in ns, and the grandmaster rate against the crystal, in ppb, are measured; `off` is
the offset by the timestamp at the serial interface, from which RXLAT is subtracted. -/
def followUp (p : Nat) (off rate : Int) (s : State) : State :=
  if !s.linkUp p ∨ !s.bit (ETH_ST_ASCAP p) ∨ s.slavePort ≠ some p then s else
  let off := off - s.rxLat p
  let a := off.natAbs
  let good := if a ≤ s.get CT_THR_LOCKTHR then min (s.gptp.good + 1) 8 else 0
  let s := { s with gptp := { s.gptp with syncAt := s.now, good := good, gmRate := rate } }
  let s := (s.put CT_ST_MODE (if good = 8 then 2 else 1)).put CT_ST_SLVPORT (p + 1)
  let s := s.puti CT_OFFSET_V (max (-2147483648) (min 2147483647 off))
  let thr := s.get CT_THR_STEPTHR * 1000
  let s :=
    if a ≤ thr then s.servoRate.put CT_ST_SLEWING 0
    else if s.stepAllowed then ((s.stepCellTime ((s.now : Int) - off).toNat).servoRate).put CT_ST_SLEWING 0
    else
      let ppm := s.get CT_SERVO_SLEWPPM
      ({ s with gptp := { s.gptp with slewEnd := s.now + (a - thr) * 1000000 / max ppm 1 } }.puti CT_RATE_V
        (rate + (if 0 < off then -((ppm * 1000 : Nat) : Int) else ((ppm * 1000 : Nat) : Int)))).put CT_ST_SLEWING 1
  s.each ([0, 1].filter s.masterPort) (fun q t => (t.sendGptp q 0).sendGptp q 8)
def execFollowUp (p : Fin 2) (off rate : Int) (s : State) : Out := live s (followUp p.val off rate)

/-- SLEW_END (R349): the slew has brought the offset to STEPTHR; the servo takes over. -/
def slewEnd (s : State) : State :=
  if s.bit CT_ST_SLEWING then ({ s with now := max s.now s.gptp.slewEnd }.servoRate).put CT_ST_SLEWING 0 else s
def execSlewEnd (s : State) : Out := live s slewEnd

/-- RECEIPT_TIMEOUT (R346, R348): no Announce (`ann`), or no Sync on the slave port, for three intervals. -/
def receiptTimeout (p : Nat) (ann : Bool) (s : State) : State :=
  if ann then
    let at_ := match s.annOf p with | some a => a.at_ + 3000000000 | none => 0
    ({ s with now := max s.now at_, gptp := { s.gptp with ann := tabDrop s.gptp.ann p } }).bmca
  else if s.slavePort = some p ∧ (s.get CT_ST_MODE = 1 ∨ s.get CT_ST_MODE = 2) then s.holdover
  else s
def execReceiptTimeout (p : Fin 2) (ann : Bool) (s : State) : Out := live s (receiptTimeout p.val ann)

/-- LINK_UP (R336, R352). -/
def linkUpEvent (p : Nat) (s : State) : State :=
  if s.bit (ETH_CFG_EN p) ∧ s.portsRun ∧ !s.bit (BOOT_ST_LOADER) then
    (s.put (ETH_ST_LINK p) 1).put (ETH_ST_ANDONE p) (s.get (ETH_CFG_ANEN p))
  else s
def execLinkUp (p : Fin 2) (s : State) : Out := live s (linkUpEvent p.val)

/-- LINK_DOWN (R357, R354): the source is raised; a slave port's loss is holdover. -/
def linkDownEvent (p : Nat) (s : State) : State :=
  if !s.bit (ETH_ST_LINK p) then s else
  let s := ((s.put (ETH_ST_LINK p) 0).put (ETH_ST_ANDONE p) 0).put (ETH_ST_ASCAP p) 0
  let s := (s.put (ETH_ST_LINKDOWNSEEN p) 1).raise (0xB + p) 0 0 p s.now
  if s.slavePort = some p ∧ (s.get CT_ST_MODE = 1 ∨ s.get CT_ST_MODE = 2) then s.holdover else s
def execLinkDown (p : Fin 2) (s : State) : Out := live s (linkDownEvent p.val)

end Sys2Proof.Machine
end

