-- ==== Sys2Proof/Machine/FrontPanel.lean ====
section
/-! DEFINITION. Touch, buttons, lamps and plug detection (22_front_panel.md, R443 to R454). -/
namespace Sys2Proof.Machine

/-- A command of the base camp domain: it acts unless the device is held in reset. -/
def campLive (s : State) (f : State → State) : Out := .next (if s.power = .inReset then s else s.effect f)

/-- The estimate of cell time in bivouac: whole XBC periods since entry (R434). -/
def State.campTime (s : State) : Nat :=
  if s.power = .bivouac ∨ s.power = .waking then
    s.biv.entryAt + ((s.now - s.biv.entryAt) * 32768 / 1000000000) * 1000000000 / 32768
  else s.now

/-! ### Events (R450, R451) -/

/-- Record an event in the ring, and in cell memory with MIREN = 1. -/
def State.fpRecord (s : State) (ty detail num time : Nat) : State :=
  let q := s.get FP_EVSEQ_V
  let ws : List Word := [BitVec.ofNat 32 (ty * 2 ^ 24 + detail % 65536 * 256 + num), BitVec.ofNat 32 q,
    BitVec.ofNat 32 time, BitVec.ofNat 32 (time / 2 ^ 32)]
  let s := { s with panel := { s.panel with ring := tabPut s.panel.ring (q % 64) ws } }.put FP_EVSEQ_V (q + 1)
  if s.bit FP_CFG_MIREN then
    let base := s.get FP_MIRBASE_V
    (s.wrMems (base + 0x10 + 16 * (q % 64)) ws).wrMem base (s.rd FP_EVSEQ)
  else s
/-- An event is decided: recorded, or kept until the wake while the device is in bivouac. -/
def State.fpEvent (s : State) (ty detail num : Nat) : State :=
  if s.power = .bivouac ∨ s.power = .waking then
    { s with panel := { s.panel with held := s.panel.held ++ [(ty, detail, num, s.campTime)] } }
  else s.fpRecord ty detail num s.now
/-- The kept events enter the ring at the wake, in order. -/
def State.fpFlush (s : State) : State :=
  let l := s.panel.held
  { s with panel := { s.panel with held := [] } }.each l (fun x t => t.fpRecord x.1 x.2.1 x.2.2.1 x.2.2.2)

/-! ### Touch (R443, R444) -/

def State.setTouched (s : State) (k : Nat) (b : Bool) : State :=
  let all := s.get FP_ST_TOUCHED
  let bit := 2 ^ k
  let all' := if b then (if all.testBit k then all else all + bit) else (if all.testBit k then all - bit else all)
  (s.flag (FP_TP_ST_TOUCHED k) b).put FP_ST_TOUCHED all'

/-- One pad of a scan, with the capacitance measured, in 10 fF units. -/
def State.scanPad (s : State) (k c : Nat) : State :=
  let x := s.pad k
  let base := s.get (FP_TP_BASE_BASE k)
  if !x.started ∨ x.recal then
    (((s.setTouched k false).put (FP_TP_BASE_BASE k) c).puti (FP_TP_ST_DELTA k) 0).setPad k { started := true }
  else
    let d : Int := (c : Int) - (base : Int)
    let s := s.puti (FP_TP_ST_DELTA k) d
    let thr : Int := s.get (FP_TP_CFG_THR k)
    let tdeb := s.get FP_CFG_TDEB
    if s.bit (FP_TP_ST_TOUCHED k) then
      if x.since + s.get (FP_TP_CFG_MAXON k) * 1000000000 ≤ s.now then
        (((s.setTouched k false).put (FP_TP_BASE_BASE k) c).setPad k { started := true }).fpEvent 3 0 k
      else
        let n := if d < thr - (s.get (FP_TP_CFG_HYS k) : Int) then x.count + 1 else 0
        if tdeb ≤ n then ((s.setTouched k false).setPad k { x with count := 0 }).fpEvent 2 0 k
        else s.setPad k { x with count := n }
    else
      let n := if thr ≤ d then x.count + 1 else 0
      if tdeb ≤ n then ((s.setTouched k true).setPad k { x with count := 0, since := s.now }).fpEvent 1 (unsignedOf 16 d) k
      else (s.put (FP_TP_BASE_BASE k) ((base : Int) + d.tdiv 64).toNat).setPad k { x with count := n }

/-- TOUCH_SCAN (R444): the capacitances of the eight pads. -/
def touchScan (cs : List (BitVec 16)) (s : State) : State :=
  if s.bit FP_CFG_SCANEN ∧ !s.bly.shed then s.each cs.zipIdx (fun x t => t.scanPad x.2 x.1.toNat) else s
def execTouchScan (cs : List (BitVec 16)) (s : State) : Out :=
  if cs.length = 8 then campLive s (touchScan cs) else .fault .illFormed

/-- RECAL (R444, R454): the baseline is set at the next scan. -/
def fpRecal (k : Nat) (s : State) : State := s.setPad k { s.pad k with recal := true }
def execRecal (k : Fin 8) (s : State) : Out := live s (fpRecal k.val)

/-! ### Buttons and presence balls (R445) -/

/-- One input of a sample: the accepted level follows one that has been stable for DBMS samples. -/
def State.debounce (s : State) (i : Nat) (f : Fld) (bit : Nat) (low : Bool) (on off : Nat) : State :=
  let all := s.get f
  let old := all.testBit bit
  let n := if low = old then 0 else tabGet (fun _ => 0) s.panel.ins i + 1
  if n ≠ 0 ∧ s.get FP_CFG_DBMS ≤ n then
    let s := { s with panel := { s.panel with ins := tabPut s.panel.ins i 0 } }
    (s.put f (if low then all + 2 ^ bit else all - 2 ^ bit)).fpEvent (if low then on else off) 0 bit
  else { s with panel := { s.panel with ins := tabPut s.panel.ins i n } }

/-- INPUT_SAMPLE (R445): the levels of PB0 to PB3 and PRES0 to PRES7, a set bit for a low ball. -/
def inputSample (pb : BitVec 4) (pres : BitVec 8) (s : State) : State :=
  let s := s.each (List.range 4) (fun i t => t.debounce i FP_ST_PB i (pb.toNat.testBit i) 4 5)
  s.each (List.range 8) (fun i t => t.debounce (8 + i) FP_ST_PRES i (pres.toNat.testBit i) 6 7)
def execInputSample (pb : BitVec 4) (pres : BitVec 8) (s : State) : Out := campLive s (inputSample pb pres)

/-! ### Lamps (R446) -/

/-- The output of a lamp driver at the present cell time. -/
def State.lampLevel (s : State) (l : Nat) : Bool :=
  match s.get (FP_LMP_MODE l) with
  | 0 => false
  | 1 => true
  | _ => decide (s.now % (max (s.get (FP_LMP_PER l)) 1 * 10000000) < s.get (FP_LMP_ON l) * 10000000)
def State.setLamp (s : State) (l : Nat) (b : Bool) : State :=
  let off := s.panel.lamps.filter (fun x => x != l)
  { s with panel := { s.panel with lamps := if b then off ++ [l] else off } }
def State.syncLamp (s : State) (l : Nat) : State :=
  if s.bly.shed then s.setLamp l false else s.setLamp l (s.lampLevel l)

/-- LAMP_BLINK (R446): in MODE 2 the driver turns on or off at the next crossing of its on-time. -/
def lampBlink (l : Nat) (s : State) : State :=
  if s.get (FP_LMP_MODE l) ≠ 2 ∨ s.bly.shed then s else
  let per := max (s.get (FP_LMP_PER l)) 1 * 10000000
  let on := s.get (FP_LMP_ON l) * 10000000
  if on = 0 ∨ per ≤ on ∨ s.panel.lamps.contains l ≠ s.lampLevel l then s.syncLamp l
  else
    let o := s.now % per
    ({ s with now := s.now + ((if o < on then on else per) - o) }).syncLamp l
def execLampBlink (l : Fin 8) (s : State) : Out := live s (lampBlink l.val)

/-! ### Motor presence (R447, R448) -/

/-- A path test starts (R448): both channels are armed, and the return channel's low side turns on with the drive channel's
high side. In a bootstrap group both low sides are on for 20 µs first; the drive channel then commutates. -/
def State.startPath (s : State) (n i : Nat) : State :=
  if s.presReady n i then
    let d := (s.presPath n i).1
    let r := (s.presPath n i).2
    let s := { s with pulses := [d, r] ++ s.pulses.filter (fun c => c != d && c != r) }.gateOn r false
    if s.bit (PWMG_STAT_BOOT (d / 8)) then
      (s.gateOn d false).modChan d (fun x => { x with edges := [(2 * s.now + 40000, true)] })
    else s.gateOn d true
  else s
/-- Both gates of a path turn off. -/
def State.stopPath (s : State) (n i : Nat) : State := s.endPulses [(s.presPath n i).1, (s.presPath n i).2]

/-- A slot on which the periodic test runs (R447); a latch set by a local trip during a test stops the tests (R448). -/
def State.presEligible (s : State) (n : Nat) : Bool :=
  s.isLocal n && s.bit (FP_MPR_PRESEN n) && !s.safeoff && !s.bit BOOT_ST_QUAR && !s.bly.shed &&
  (s.slotState n == stIdle || s.slotState n == stTripped) && !(s.slotChans n).any s.tripped

/-- PRESENCE_TEST (R447): the periodic test of slot `n` starts. -/
def presenceTest (n : Nat) (s : State) : State :=
  if s.presEligible n ∧ (s.test n).isNone ∧ s.power = .running then
    let at_ := tabGet (fun _ => 0) s.panel.nextTest n
    let s := { s with now := max s.now at_ }
    let s := { s with panel := { s.panel with nextTest := tabPut s.panel.nextTest n (s.now + s.get FP_PRESCFG_PRESPER * 1000000) } }
    (s.setTest n { tcp := s.get FP_PRESCFG_TCP }).startPath n 0
  else s
def execPresenceTest (n : Fin 16) (s : State) : Out := live s (presenceTest n.val)

/-- The result of a finished test, with its event (R448, R450); a bind write that waited is judged (R454). -/
def State.presFinish (s : State) (n result path : Nat) : State :=
  let old := s.get (FP_MPR_RESULT n)
  let bind := (s.test n).bind (·.bind)
  let s := (s.endTest n).inc (FP_MPR_TESTS n)
  let s := s.flipPaths n
  let s := (s.put (FP_MPR_RESULT n) result).put (FP_MPR_PATH n) path
  let s := if old = 2 ∧ result = 1 then s.fpEvent 8 0 n else if old = 1 ∧ result = 2 then s.fpEvent 9 path n else s
  match bind with
  | some x => bindNow x.1 n x.2 s
  | none => s

/-- PRESENCE_PATH_DONE (R448): the path under test ends; after the last the slot's RESULT is updated. -/
def presencePathDone (n : Nat) (e : PathEnd) (s : State) : State :=
  match s.test n with
  | none => s
  | some t =>
    let (d, r) := s.presPath n t.path
    let fits : Bool := match e with
      | .decided | .timeout => (s.chan d).h.on && (s.chan r).l.on && !s.tripped d && !s.tripped r
      | .skipped => !s.presReady n t.path
      | .tripped => s.tripped d || s.tripped r
    if !fits then s
    else
      let s := if e = .timeout then { s with now := max s.now ((s.chan d).h.onAt + t.tcp * 1000) } else s
      let s := s.stopPath n t.path
      match e with
      | .tripped => s.presFinish n 4 0
      | _ =>
        let t := { t with
          failed := match t.failed with | some i => some i | none => if e = .timeout then some t.path else none
          skipped := t.skipped || e == .skipped, path := t.path + 1 }
        if t.path < (s.presPaths n).length then (s.setTest n t).startPath n t.path
        else match t.failed with
          | some i => s.presFinish n 2 i
          | none => s.presFinish n (if t.skipped then 3 else 1) 0
def execPresencePathDone (n : Fin 16) (e : PathEnd) (s : State) : Out := live s (presencePathDone n.val e)

/-! ### Registers (R453) -/

/-- Whether every field of a front-panel write is in range. -/
def fpWriteOk (r : FpReg) (v : Word) : Bool :=
  match r with
  | .cfg => decide (1 ≤ fieldOf v FP_CFG_DBMS ∧ 1 ≤ fieldOf v FP_CFG_TDEB)
  | .mirbase => decide (v.toNat % 2048 = 0 ∧ 0x600000 ≤ v.toNat ∧ v.toNat ≤ 0x65F800)
  | .prescfg => decide (2 ≤ fieldOf v FP_PRESCFG_PRESTHR ∧ 5 ≤ fieldOf v FP_PRESCFG_TCP ∧
      10 ≤ fieldOf v FP_PRESCFG_PRESPER ∧ fieldOf v FP_PRESCFG_PRESPER ≤ 10000)
  | .pad k => decide (1 ≤ fieldOf v (FP_TP_CFG_MAXON k) ∧ fieldOf v (FP_TP_CFG_HYS k) < fieldOf v (FP_TP_CFG_THR k))
  | .slot _ => true
  | .lamp l => decide (1 ≤ fieldOf v (FP_LMP_PER l) ∧ 4 ≤ fieldOf v (FP_LMP_CUR l) ∧ fieldOf v (FP_LMP_CUR l) ≤ 40 ∧
      fieldOf v (FP_LMP_MODE l) ≠ 3)

/-- FP_CONFIG_WRITE (R453): taken whole, or refused with FP_ST.REFUSED. -/
def fpConfigWrite (r : FpReg) (v : Word) (s : State) : State :=
  if !fpWriteOk r v then s.put FP_ST_REFUSED 1
  else match r with
    | .cfg => s.wr FP_CFG (v &&& 0x00FF0F03#32)
    | .mirbase => s.wr FP_MIRBASE v
    | .prescfg => s.wr FP_PRESCFG v
    | .pad k => s.wr (FP_TP_CFG k) v
    | .slot n => s.put (FP_MPR_PRESEN n) (fieldOf v (FP_MPR_PRESEN n))
    | .lamp l => (s.wr (FP_LMP l) (v &&& 0xFFFF03F3#32)).syncLamp l
def execFpConfigWrite (r : FpReg) (v : Word) (s : State) : Out := live s (fpConfigWrite r v)

/-- A word of FP_EVRING (R451). -/
def State.fpRingWord (s : State) (i : Nat) : Word := (tabGet (fun _ => []) s.panel.ring (i / 4)).getD (i % 4) 0

end Sys2Proof.Machine
end

