-- ==== Sys2Proof/Machine/Hosts.lean ====
section
/-! DEFINITION. Host identities, anchors and host loss (13_register_access.md, R275 to R277 and R286 to R297). -/
namespace Sys2Proof.Machine

/-! ### Anchors (R286 to R290) -/

/-- Anchors of a mask that host `h` holds. -/
def State.heldBy (s : State) (h : Nat) : List Nat := (List.range 36).filter (s.holds h)
/-- Anchor `a` becomes host `h`'s; a change of owner counts in GEN. -/
def State.claimAnchor (s : State) (h a : Nat) : State :=
  if s.holds h a then s else ((s.inc (ANC_ST_GEN a)).put (ANC_ST_HELD a) 1).put (ANC_ST_OWNER a) h
/-- Anchor `a` ends (R290). -/
def State.freeAnchor (s : State) (a : Nat) : State :=
  if s.bit (ANC_ST_HELD a) then ((s.inc (ANC_ST_GEN a)).put (ANC_ST_HELD a) 0).put (ANC_ST_OWNER a) 0 else s
/-- Every anchor of host `h` is released. -/
def State.releaseAll (s : State) (h : Nat) : State := s.each (s.heldBy h) (fun a t => t.freeAnchor a)

/-! ### Bindings (R275 to R277) -/

/-- The binding source of a host. -/
def State.src (s : State) (n : Nat) : Nat := s.get (HOST_CFG_SRC n)

/-- The streams of host `n` halt after their running commands (R315). -/
def State.haltHost (s : State) (n reason : Nat) : State :=
  s.each [4 * n, 4 * n + 1, 4 * n + 2, 4 * n + 3] (fun k t => t.modStream k (fun st =>
    if st.prog = .idle then st.halt reason else { st with haltAfter := reason }))

/-- The source by which host `n` is recognised changes. -/
def State.rebind (s : State) (n : Nat) : State :=
  let s := if s.bit (HOST_ST_LIVE n) then s.haltHost n 6 else s
  (s.put (HOST_ST_LIVE n) 0).releaseAll n

/-- No other backbone host has MAC address `m` (R277). -/
def State.macFree (s : State) (n m : Nat) : Bool :=
  hosts8.all (fun j => j == n || s.src j != 2 || s.get (HOST_MAC_V j) != m)
/-- The writer may change the binding of host `n`. -/
def State.mayBind (s : State) (w : Writer) (n : Nat) : Bool :=
  !s.bit (HOST_ST_LIVE n) || (match w with | .host h => h.val == n | .supervisor => false)

/-- A write of HOSTn_CFG (R277). -/
def hostCfg (w : Writer) (n : Nat) (v : Word) (s : State) : State :=
  let src := fieldOf v (HOST_CFG_SRC n)
  let allowed := src = 0 ∨ (src = 1 ∧ n < 2 ∧ s.cspMode n = 2) ∨ (src = 2 ∧ s.macFree n (s.get (HOST_MAC_V n)))
  if s.mayBind w n ∧ allowed then
    let old := s.src n
    if old = src then s
    else
      let s := (s.put (HOST_CFG_SRC n) src).rebind n
      if old = 1 ∧ (s.csp n).low then s.setCsp n { s.csp n with keep := true } else s
  else s.put (HOST_ST_REFUSED n) 1

/-- A write of HOSTn_MAC (R277). -/
def hostMac (w : Writer) (n m : Nat) (s : State) : State :=
  if s.mayBind w n ∧ (s.src n ≠ 2 ∨ s.macFree n m) then
    let changed := s.src n = 2 ∧ s.get (HOST_MAC_V n) ≠ m
    let s := s.wr64 (HOST_MAC n) m
    if changed then s.rebind n else s
  else s.put (HOST_ST_REFUSED n) 1

/-- HOST_CFG_WRITE (R277). -/
def hostCfgWrite (w : Writer) (n : Nat) (r : HostReg) (s : State) : State :=
  match r with
  | .cfg v => hostCfg w n v s
  | .mac m => hostMac w n m.toNat s
def execHostCfgWrite (w : Writer) (n : Fin 8) (r : HostReg) (s : State) : Out := live s (hostCfgWrite w n.val r)

/-- A write of HOSTn_TMO (R295). -/
def hostTmoWrite (n : Nat) (v : Word) (s : State) : State :=
  let t := fieldOf v (HOST_TMO_TMO n)
  if t ≤ 10000 then s.put (HOST_TMO_TMO n) t else s.put (HOST_ST_REFUSED n) 1

/-! ### Host loss (R291 to R294) -/

/-- The reaction of a slot in RUN or RAPPEL to the loss of its anchor's owner (R294). -/
def State.hostLossSlot (s : State) (n : Nat) : State :=
  match s.get (AX_HLR_HLR n) with
  | 1 => s.toRappel n 7 false
  | 2 => s.toTripped n 7 .coast
  | _ => s

/-- Host `h` is subscribed to nothing (R374). -/
def State.clearSubs (s : State) (h : Nat) : State :=
  s.each ((List.range 1024).filter (fun i => s.get (FLT_SRC_SUB i) / 2 ^ h % 2 == 1)) (fun i t =>
    t.put (FLT_SRC_SUB i) (t.get (FLT_SRC_SUB i) - 2 ^ h))
/-- What host `h` owned of the log and the images ends with its loss: a freeze (R380) and a session (R413). -/
def State.hostEnds (s : State) (h : Nat) : State :=
  let s := if s.bit LOG_ST_FROZEN ∧ s.get LOG_ST_FRZHOST = h then s.unfreeze 2 else s
  if s.bit IMG_ST_OPEN ∧ s.get IMG_ST_OWNER = h then s.endSession else s

/-- Host `h` is declared lost (R293, R315, R370): `kind` 3 by timeout, 4 by LOSE. -/
def State.hostLost (s : State) (h kind : Nat) : State :=
  let s := ((s.put (HOST_ST_LIVE h) 0).put (HOST_ST_LOSTSEEN h) 1).inc (HOST_LOSTCNT_V h)
  let q := (s.host h).notify.length
  let s := if q = 0 then s else
    (((s.inc (FLT_NLOST_V h) q).put (FLT_NST_LOST h) 1).put (FLT_NST_NLVL h) 0).modHost h (fun x => { x with notify := [] })
  let s := (((s.raise (0x10 + h) kind h h s.now).clearSubs h).hostEnds h).haltHost h 3
  let s := s.each (slots16.filter (s.holds h)) (fun n t =>
    if t.slotState n = stRun ∨ t.slotState n = stRappel then t.hostLossSlot n else t)
  s.releaseAll h

/-- HOST_LOSS_TIMEOUT (R291): the timeout of a live host ends; not while a handover suspends execution (R316). -/
def hostLossTimeout (h : Nat) (s : State) : State :=
  let tmo := s.get (HOST_TMO_TMO h)
  if s.bit (HOST_ST_LIVE h) ∧ tmo ≠ 0 ∧ s.get BOOT_ST_HOPHASE ≠ 2 then
    ({ s with now := max s.now ((s.host h).lastFrame + tmo * 1000000) }).hostLost h 3
  else s
def execHostLossTimeout (h : Fin 8) (s : State) : Out := live s (hostLossTimeout h.val)

/-- LOSE (R292): a host bound to a clocked serial port declares another host lost. -/
def lose (w : Writer) (h : Nat) (s : State) : State :=
  let ok : Bool := match w with | .host x => s.src x.val == 1 && x.val != h | .supervisor => false
  if ok then s.hostLost h 4 else s.put HOST_CTRL_REFUSED 1
def execLose (w : Writer) (h : Fin 8) (s : State) : Out := live s (lose w h.val)
/-- A write of HOST_CTRL (R296). -/
def hostCtrlWrite (w : Writer) (v : Word) (s : State) : State :=
  let s := s.w1c HOST_CTRL_REFUSED v
  let s := s.put HOST_CTRL_HOST (fieldOf v HOST_CTRL_HOST)
  if fieldOf v HOST_CTRL_LOSE = 1 then lose w (fieldOf v HOST_CTRL_HOST) s else s

/-- A write of AXn_HLR (R294): 3 is refused with ERR 5. -/
def hlrWrite (w : Writer) (n : Nat) (v : Word) (s : State) : State :=
  if !s.owns w n then s
  else if fieldOf v (AX_HLR_HLR n) = 3 then s.err n 5 else s.put (AX_HLR_HLR n) (fieldOf v (AX_HLR_HLR n))

end Sys2Proof.Machine
end

