-- ==== Sys2Proof/Machine/PowerClocks.lean ====
section
/-! DEFINITION. Supplies, clocks, reset and bivouac (21_power_clocks.md, R422 to R442), but for the boot itself. -/
namespace Sys2Proof.Machine

/-! ### Device state and blockers (R428, R429) -/

/-- The blockers of R429, bit i for blocker i. -/
def State.blockers (s : State) : Nat :=
  let b (i : Nat) (c : Bool) : Nat := if c then 2 ^ i else 0
  b 0 (slots16.any (fun n => s.slotState n != stUnbound)) +
  b 1 (engines20.any (fun e => s.pool e == 1 || s.pool e == 2)) +
  b 2 (streams32.any (fun k => (s.stream k).state != 0 || !(s.stream k).pend.isEmpty) ||
    hosts8.any (fun h => !(s.host h).notify.isEmpty)) +
  b 3 (s.bit IMG_ST_OPEN || s.get BOOT_ST_HOPHASE != 0) +
  b 4 (s.bit HKC_CTRL_RUN || s.bit HKC_ST_STOPPING || s.bit HKC_CAL_BUSY) +
  b 5 ((List.range 4).any (fun n => s.cspMode n == 1 && !(s.csp n).queue.isEmpty)) +
  b 6 (s.bit LOG_ST_FROZEN) + b 7 s.bly.saving + b 8 (!s.bit PWR_CFG_BIVEN) + b 9 (!s.bit CLK_ST_XBCOK) +
  b 10 (s.get PWR_WAKEEN_EN == 0)

/-- PWR_ST.PSTATE (R428). -/
def State.pstate (s : State) : Nat :=
  match s.power with
  | .entering => 2
  | .bivouac => 3
  | .waking => 4
  | _ =>
    if slots16.any (fun n => s.slotState n == stRun || s.slotState n == stRappel || s.slotState n == stShutdown) ||
       engines20.any (fun e => (s.pool e == 1 && s.get (KE_STATUS_ROLE e) == 0) || s.pool e == 2) then 0 else 1

/-! ### Reset (R435 to R438) -/

/-- Every reset (R436): every gate off and every register, memory and record gone but for what the state store, flash,
OTP and the base camp domain keep; a save under way is cut short (R394). `cause` is the bit of RST_CAUSE. -/
def State.enterReset (s : State) (cause : Nat) : State :=
  let b := s.bly
  let kept : Belay := { area0 := b.area0, area1 := b.area1, valid0 := b.valid0, valid1 := b.valid1, cut := b.cut || b.saving
                        saveCount := b.saveCount, used := b.used }
  let kept := if b.saving then
      (if b.nextArea = 0 then { kept with area0 := [], valid0 := false } else { kept with area1 := [], valid1 := false })
    else kept
  let r : State := { straps := s.straps, power := .inReset, pending := s.pending, flash := s.flash, otp := s.otp
                     drawn := s.drawn, safeoff := s.safeoff, sent := s.sent, log := { tail := s.log.tail }, bly := kept }
  let r := (r.wr RST_CAUSE (s.rd RST_CAUSE ||| BitVec.ofNat 32 (2 ^ cause))).wr RST_CNT (s.rd RST_CNT + 1)
  (r.put BOOT_ST_FLAG (s.get BOOT_ST_FLAG)).wr ENG_RET (s.rd ENG_RET)

/-- POWER_ON_RESET (R423, R424): a rail outside its range; VCORE, VDDA and VIO may be off in bivouac. -/
def powerOnReset (s : State) : State := if s.power = .bivouac then s else s.enterReset 0
def execPowerOnReset (s : State) : Out := always s powerOnReset
/-- RESET_PIN (R435). -/
def resetPin (s : State) : State := s.enterReset 1
def execResetPin (s : State) : Out := always s resetPin
/-- WATCHDOG_EXPIRY (R437): of the active core, or of the standby core, which restarts; a handover begun before it is ready
again fails, and one that has suspended the streams cannot switch. -/
def watchdogExpiry (active : Bool) (s : State) : State :=
  if active then s.enterReset 2
  else { s.put BOOT_ST_STBYOK 0 with hoDead := s.hoDead || s.get BOOT_ST_HOPHASE == 0 }
def execWatchdogExpiry (active : Bool) (s : State) : Out := live s (watchdogExpiry active)
/-- CLOCK_LOSS (R426): no save set is written. -/
def clockLoss (s : State) : State := if s.power = .bivouac then s else s.enterReset 4
def execClockLoss (s : State) : Out := always s clockLoss
/-- VBC_LOSS (R435): in bivouac, the bivouac state and the base camp registers are lost. -/
def vbcLoss (s : State) : State :=
  if s.power = .bivouac then ((s.enterReset 5).wr RST_CAUSE 0x20).wr RST_CNT 1 else s
def execVbcLoss (s : State) : Out := always s vbcLoss

/-- The reset that a taken write asks for follows (R438). -/
def State.takeReset (s : State) : State := if s.rstReq then s.enterReset 3 else s
/-- A write of PWR_CTRL (R438): the reset is asked for, or REFUSED is set. -/
def pwrCtrl (v : Word) (s : State) : State :=
  let s := s.w1c PWR_CTRL_REFUSED v
  if fieldOf v PWR_CTRL_RESET = 0 then s
  else if fieldOf v PWR_CTRL_KEY = 0xA5 ∧ (!slots16.any s.energised ∨ fieldOf v PWR_CTRL_FORCE = 1) then { s with rstReq := true }
  else s.put PWR_CTRL_REFUSED 1
/-- PWR_CTRL_WRITE (R438). -/
def pwrCtrlWrite (v : Word) (s : State) : State := (pwrCtrl v s).takeReset
def execPwrCtrlWrite (v : Word) (s : State) : Out := live s (pwrCtrlWrite v)

/-- PWR_CFG_WRITE (R440). -/
def pwrCfgWrite (v : Word) (s : State) : State :=
  let d := fieldOf v PWR_CFG_BIVDLY
  if 100 ≤ d ∧ d ≤ 60000 then s.wr PWR_CFG (v &&& 0x1FFFF#32) else s.put PWR_CTRL_REFUSED 1
def execPwrCfgWrite (v : Word) (s : State) : Out := live s (pwrCfgWrite v)

/-! ### The base camp crystal (R427) -/

/-- XBC_LOSS: no oscillation for 1 ms. -/
def xbcLoss (s : State) : State := s.put CLK_ST_XBCOK 0
def execXbcLoss (s : State) : Out := campLive s xbcLoss
/-- XBC_START: XBC oscillates again. -/
def xbcStart (s : State) : State := s.put CLK_ST_XBCOK 1
def execXbcStart (s : State) : Out := campLive s xbcStart

/-! ### Bivouac (R429 to R434) -/

/-- BIVOUAC_ENTRY (R429): every blocker has been clear for BIVDLY ms. -/
def bivouacEntry (s : State) : State :=
  if s.power = .running ∧ s.blockers = 0 then
    ({ s with power := .entering, biv := { s.biv with inten := false } }.put PWR_WAKEST_SEEN 0).put PWR_ST_WAKEPEND 0
  else s
def execBivouacEntry (s : State) : Out := live s bivouacEntry

/-- The records that wait are all mirrored (step 1 of R430). -/
def State.mirrorAll (s : State) : State :=
  let t := s.log.tail ++ s.log.waiting
  ({ s with log := { s.log with waiting := [], tail := t.drop (t.length - 512) } }).put LOG_MIRST_LAG 0

/-- What bivouac loses (R430). -/
def State.bivouacLose (s : State) : State :=
  let s := s.clearMem 0x400000 0x680000
  let s := s.each engines20 (fun e t => (t.put (KE_STATUS_LOADED e) 0).modEngine e (fun x =>
    { x with route := none, pbase := 0, dbase := 0, written := [], trace := [], loading := none }))
  let s := s.each [0, 1] (fun p t => ((t.put (ETH_ST_LINK p) 0).put (ETH_ST_ANDONE p) 0).put (ETH_ST_ASCAP p) 0)
  let s := s.each (List.range 36) (fun c t => t.put (DEC_ST_VALID c) 0)
  { (s.put HKC_ST_REFSETTLED 0) with panel := { s.panel with lamps := [] }, ckps := [] }

/-- BIVOUAC_ENTERED (R430): not while a save set is being written; a wake event that came during entry takes effect. -/
def bivouacEntered (s : State) : State :=
  if s.power ≠ .entering ∨ s.bly.saving then s else
  let s := s.mirrorAll.bivouacLose
  { s with power := if s.biv.inten then .waking else .bivouac, portsOff := true
           biv := { s.biv with entryAt := s.now, mode := s.get CT_ST_MODE, wakeAt := s.now } }
def execBivouacEntered (s : State) : Out := live s bivouacEntered

/-- The cell time at which the estimate reaches PWR_ALARM (R434). -/
def State.alarmAt (s : State) : Nat :=
  let a := s.get PWR_ALARM_V
  if a ≤ s.campTime then s.now
  else s.biv.entryAt + (((a - s.biv.entryAt) * 32768 + 999999999) / 1000000000) * 1000000000 / 32768 + 1

/-- WAKE (R432, R439): an enabled wake event of source `src`; the alarm comes when the estimate reaches it. -/
def wake (src : Nat) (s : State) : State :=
  if !(s.get PWR_WAKEEN_EN).testBit src then s
  else match s.power with
    | .entering =>
      let s := s.put PWR_WAKEST_SEEN (s.get PWR_WAKEST_SEEN ||| 2 ^ src)
      { s with biv := { s.biv with inten := true } }.put PWR_ST_WAKEPEND 1
    | .bivouac =>
      let s := { s with now := if src = 6 then max s.now s.alarmAt else s.now }.put PWR_WAKEST_SEEN (s.get PWR_WAKEST_SEEN ||| 2 ^ src)
      { s with power := .waking, biv := { s.biv with wakeAt := s.now } }
    | .waking => s.put PWR_WAKEST_SEEN (s.get PWR_WAKEST_SEEN ||| 2 ^ src)
    | _ => s
def execWake (src : Fin 7) (s : State) : Out := campLive s (wake src.val)

/-- HOSTS_SERVED (R433, R434): cell time is restored and the hosts are served. -/
def hostsServed (s : State) : State :=
  if s.power ≠ .waking then s else
  let t := s.campTime
  let m := s.biv.mode
  let s := s.fpFlush
  let s := { s with power := .running, portsOff := false, now := t, tickAt := t, tickLeft := true, tickDue := false }
  let s := s.each hosts8 (fun h u => u.modHost h (fun x => { x with lastFrame := t }))
  let s := s.each (List.range 36) (fun c u => u.unsettle c)
  let s := { s with hkc := { s.hkc with refAt := t } }
  let s := if m = 1 ∨ m = 2 ∨ m = 3 then (s.put CT_ST_MODE m).holdover else s.put CT_ST_MODE 0
  let s := s.each (List.range 8) (fun l u => u.syncLamp l)
  (s.put PWR_ST_WAKEPEND 0).inc PWR_BIVCNT_V
def execHostsServed (s : State) : Out := campLive s hostsServed

/-- STANDBY_READY (R437): the standby core runs and is ready. -/
def standbyReady (s : State) : State :=
  if s.get BOOT_ST_HOPHASE = 0 ∧ !s.bit BOOT_ST_LOADER then { s.put BOOT_ST_STBYOK 1 with hoDead := false } else s
def execStandbyReady (s : State) : Out := live s standbyReady

end Sys2Proof.Machine
end

