-- ==== Sys2Proof/Machine/RegisterAccess.lean ====
section
/-! DEFINITION. Register access (13_register_access.md, 25_register_blocks.md, R5 to R7, R278 to R285, R484 to R487): the
value that a read of a word returns, what a write of a word does, the extents and windows of the address space, the
64-bit read shadow and write stage, and READ, WRITE and RMW words as frames carry them. -/
namespace Sys2Proof.Machine

/-! ### Stream registers (R319) -/

/-- Responses formed and not yet sent that hold a slot of stream memory (R306, R307). -/
def Stream.pendRsp (st : Stream) : Nat := st.pend.countP (fun r => r.credit)
/-- DEVCRED of a stream (R307). -/
def Stream.devCred (st : Stream) : Nat := st.queue.length + st.pendRsp
/-- A stream is held by a FENCE: its own runs, or one with BAR holds its head (R310). -/
def State.fenceWait (s : State) (k : Nat) : Bool :=
  let st := s.stream k
  match st.queue, st.prog with
  | c :: _, .working => c.op == 7
  | c :: _, .idle => s.barred k c
  | _, _ => false
def State.strSt (s : State) (k : Nat) : Word :=
  let st := s.stream k
  BitVec.ofNat 32 (st.reason * 2 ^ 28 + st.state * 2 ^ 24 + st.devCred % 32 * 65536 + st.queue.length % 32 * 256 +
    (if st.unsynced then 64 else 0) + (if s.fenceWait k then 32 else 0) + st.pendRsp % 32)
def Stream.seqWord (st : Stream) : Word := BitVec.ofNat 32 (st.lastSeq * 65536 + st.nextSeq)
def Stream.haltWord (st : Stream) : Word :=
  BitVec.ofNat 32 ((if st.int then 2 ^ 31 else 0) + st.discard % 32 * 65536 + st.haltSeq)

/-! ### Values computed at the read -/

/-- ENG_POOL (R31). -/
def State.poolWord (s : State) : Word :=
  let count (p : Nat) : Nat := engines20.countP (fun e => s.pool e == p)
  BitVec.ofNat 32 (count 2 * 2 ^ 24 + count 3 * 65536 + count 0 * 256 + count 1)
/-- PWMGg_CNT at the present cell time (R180, R181, R196): up from 0 at the valley to PER at the peak and down again, 4 ns
a count. -/
def State.counterView (s : State) (g : Nat) : Word :=
  if !s.bit (PWMG_STAT_RUN g) then 0 else
  let per := s.get (PWMG_PER_PER g)
  let d := (2 * s.now - (s.group g).valley) / 8
  if d < per then BitVec.ofNat 32 d else BitVec.ofNat 32 (65536 + (2 * per - d))
/-- The bits of an anchor mask that host `h` holds. -/
def State.anchorMask (s : State) (h : Nat) : Nat := ((s.heldBy h).map (fun a => 2 ^ a)).sum
/-- Half of a 64-bit value. -/
def quadHalf (x : Int) (high : Bool) : Word :=
  let n := unsignedOf 64 x
  BitVec.ofNat 32 (if high then n / 2 ^ 32 else n)

/-- The value of the register word at `a` for this reader: the stored word, or what the spec has the read report. -/
def State.view (s : State) (w : Writer) (a : Nat) : Word :=
  let v := s.rd a
  if a < 0x030000 then
    if a = PWR_ST then BitVec.ofNat 32 (s.blockers * 2 ^ 13 + bitsOf v.toNat 3 3 * 8 + s.pstate)
    else if a = CLK_ST then (v &&& 4#32) ||| (if s.up then 3#32 else 0#32) else v
  else if a < 0x040000 then
    if a < 0x030100 then
      (if a % 0x20 = 0x10 then BitVec.ofNat 32 (withBits v.toNat 13 8 (s.heldBy ((a - 0x030000) / 0x20)).length) else v)
    else if a = HOST_SELF then (match w with | .host h => BitVec.ofNat 32 (8 + h.val) | .supervisor => 0)
    else if ANC_MASK 0 ≤ a ∧ a < ANC_MASK 8 then
      BitVec.ofNat 32 (s.anchorMask ((a - ANC_MASK 0) / 8) / (if a % 8 = 0 then 1 else 2 ^ 32))
    else v
  else if a < 0x050000 then
    let k := (a - 0x040000) / 0x20
    if 32 ≤ k then v
    else match (a - 0x040000) % 0x20 with
      | 0 => s.strSt k
      | 4 => (s.stream k).seqWord
      | 8 => (s.stream k).haltWord
      | _ => v
  else if a < 0x060000 then
    let n := (a - 0x050000) / 0x1000
    if a = CSP_ST n then
      BitVec.ofNat 32 (withBits (withBits v.toNat 13 13 (if s.framed n then 1 else 0)) 0 0 (if s.cspReady n then 1 else 0))
    else if a = CSP_SRXD n then s.srxdWord n else v
  else if a < 0x080000 then
    if a = CT_TIME then quadHalf s.now false else if a = CT_TIME + 4 then quadHalf s.now true
    else if a = CT_TICKCFG then (match s.newTick with | some x => BitVec.ofNat 32 (withBits v.toNat 9 0 x.1) | none => v) else v
  else if a < 0x100000 then
    let n := (a - 0x080000) / 0x1000
    let off := (a - 0x080000) % 0x1000
    if off = 0x200 then (s.cc n).cfgNext.getD v
    else if 0x340 ≤ off ∧ off < 0x378 ∧ !s.bit (AX_ENGSEL_ESTEN n) then 0
    else v
  else if a < 0x200000 then
    if a = ENG_POOL then s.poolWord
    else if a < 0x128000 ∧ a % 0x2000 = 4 then BitVec.ofNat 32 (withBits v.toNat 2 0 (s.runView ((a - 0x100000) / 0x2000)))
    else v
  else if a < 0x201000 then
    (if a % 0x100 = 0x14 ∧ a < 0x200400 then s.counterView ((a - 0x200000) / 0x100) else v)
  else if 0x202000 ≤ a ∧ a < 0x202200 then
    let o := (a - 0x202000) / 0x40
    if a = SOG_STAT o then BitVec.ofNat 32 (withBits v.toNat 1 1 (if s.stepDirLevel o then 1 else 0)) else v
  else if 0x2C0000 ≤ a ∧ a < 0x2C0200 then
    let p := (a - 0x2C0000) / 0x40
    if a = FB_ST p then BitVec.ofNat 32 (withBits v.toNat 4 4 (if s.fbSpdOk p s.now then 1 else 0))
    else if a = FB_POS p ∨ a = FB_POS p + 4 then quadHalf (s.fbPos p) (decide (a = FB_POS p + 4))
    else if a = FB_VEL p ∨ a = FB_VEL p + 4 then quadHalf (s.fbVel p s.now) (decide (a = FB_VEL p + 4))
    else v
  else if a = LOG_ST then
    BitVec.ofNat 32 (withBits v.toNat 11 11 (if s.clearKey.all (· == 0) then 1 else 0))
  else if a = LOG_PAGE then
    (match w with | .host h => BitVec.ofNat 32 (s.host h.val).page | .supervisor => 0)
  else v

/-- The RC bits of the word at `a` (R5). -/
def rcMask (a : Nat) : Word :=
  match findReg a with
  | some h => BitVec.ofNat 32 (halfOf h h.row.rc)
  | none => 0
/-- What a read of the word at `a` returns: an RC field that hardware has set in this same cycle reads as before it
(R6). -/
def State.rcView (s : State) (w : Writer) (a : Nat) : Word :=
  let m := rcMask a
  if s.setBits a &&& m.toNat = 0 then s.view w a else (s.view w a &&& ~~~ m) ||| (s.rdBefore a m.toNat &&& m)
/-- Clear the RC fields of a word that has been read (R5, R285); what hardware has set in this same cycle stays set (R6),
and another reader of the cycle finds the field before it cleared. A read of CSPn_SRXD takes its word (R334). -/
def State.clearRc (s : State) (a : Nat) : State :=
  let m := rcMask a
  if m = 0 then s
  else if 0x050000 ≤ a ∧ a < 0x054000 then srxdRead ((a - 0x050000) / 0x1000) s
  else { s.wr a (s.rd a &&& (~~~ m ||| BitVec.ofNat 32 (s.setBits a))) with
    setNow := s.setNow.map (fun x => if x.a = a then { x with old := x.old &&& ~~~ m } else x) }

/-- READ_CLEAR (R5): a read of a word with RC fields returns its value and clears them. -/
def readClear (w : Writer) (a : Nat) (s : State) : State :=
  if rcMask a = 0 then s else { s.clearRc a with dataOut := s.rcView w a }
def execReadClear (w : Writer) (a : BitVec 24) (s : State) : Out :=
  if a.toNat % 4 = 0 then live s (readClear w a.toNat) else .fault .illFormed

/-! ### Writes -/

/-- The anchor that decides for the RWA fields of the word at `a` (R286); the severity words of slot sources belong to
their slot's anchor (R372). -/
def State.anchorOf (s : State) (a : Nat) : Option Nat :=
  if 0x080000 ≤ a ∧ a < 0x090000 then some ((a - 0x080000) / 0x1000)
  else if 0x100000 ≤ a ∧ a < 0x128000 then some (s.engineAnchor ((a - 0x100000) / 0x2000))
  else if FLT_SRC 0x100 ≤ a ∧ a < FLT_SRC 0x200 then some ((a - FLT_SRC 0x100) / 64)
  else none

/-- The writer does not own the anchor that a write to the word at `a` needs (R289). -/
def State.notOwner (s : State) (w : Writer) (a : Nat) : Bool :=
  match findReg a, s.anchorOf a with
  | some h, some k => (halfOf h (h.row.rwa ||| h.row.acta) != 0 || decide (0x340000 ≤ a)) && !s.owns w k
  | _, _ => false

/-- Each field of a word by its access type (R5): RW, RWA for the owner, W1C; the other bits keep their value. -/
def plainWrite (w : Writer) (a : Nat) (v : Word) (s : State) : State :=
  match findReg a with
  | none => s
  | some h =>
    let own := match s.anchorOf a with | some k => s.owns w k | none => true
    let m := BitVec.ofNat 32 (halfOf h (if own then h.row.rw ||| h.row.rwa else h.row.rw))
    s.wr a ((s.rd a &&& ~~~ m) ||| (v &&& m))
/-- A write of 1 clears each W1C bit, but for one that hardware sets in the same cycle (R5, R6). -/
def clearW1c (a : Nat) (v : Word) (s : State) : State :=
  match findReg a with
  | none => s
  | some h =>
    let m := v &&& BitVec.ofNat 32 (halfOf h h.row.w1c) &&& ~~~ BitVec.ofNat 32 (s.setBits a)
    if m = 0 then s else s.wr a (s.rd a &&& ~~~ m)

/-- Sense scales lie in 500.0 to 50,000.0 (R64). -/
def snsWrite (a : Nat) (v : Word) (s : State) : State :=
  let off := (a - 0x284000) % 0x20
  if off < 8 ∧ (v.toNat < 500 * 65536 ∨ 50000 * 65536 < v.toNat) then s.put (SNS_KREF_V ((a - 0x284000) / 0x20)) 1
  else if off < 16 then s.wr a v else s
/-- The step pulse width is 25 to 37 (R199). -/
def sogCfgWrite (a : Nat) (v : Word) (s : State) : State :=
  let pw := v.toNat % 64
  if 25 ≤ pw ∧ pw ≤ 37 then s.wr a (BitVec.ofNat 32 pw) else s
/-- A write to HKC_CTRL: ROLL, RUN and the ISW action (R248, R254, R255). -/
def hkcCtrlWrite (v : Word) (s : State) : State :=
  let roll := fieldOf v HKC_CTRL_ROLL
  let s := if s.get HKC_CTRL_ROLL = 0 ∧ roll = 1 then { s with hkc := { s.hkc with passes := 0 } } else s
  let s := hkcRun (v.toNat.testBit 0) (s.put HKC_CTRL_ROLL roll)
  if v.toNat.testBit 2 then hkcIsw s else s
/-- A write to HKC_ROLL: ROLLN 1 to 255, 0 refused (R256). -/
def hkcRollWrite (v : Word) (s : State) : State :=
  if v.toNat % 256 = 0 then s.put HKC_ST_REFUSED 1 else s.put HKC_ROLL_ROLLN (v.toNat % 256)
/-- A write to PCOq_CTRL: ARM, DISARM and FORCE (R273). -/
def pcoCtrlWrite (q : Nat) (v : Word) (s : State) : State :=
  let s := if v.toNat.testBit 0 then pcoArm q s else s
  let s := if v.toNat.testBit 1 then pcoDisarm q s else s
  if v.toNat.testBit 2 then pcoForce q s else s
/-- A write to AXn_PITQ_CTRL (R50): FLUSH, then GO. -/
def pitqCtrlWrite (w : Writer) (n : Nat) (v : Word) (s : State) : State :=
  let s := if v.toNat.testBit 0 then pitqFlush w n s else s
  (if v.toNat.testBit 1 then pitqGo w n s else s).syncWait n

/-- A write to a word of an axis slot. -/
def slotWrite (w : Writer) (n off : Nat) (v : Word) (s : State) : State :=
  let a := AX_BIND n + off
  if off = 0 then bindWrite w n v s
  else if off = 0x4 then engselWrite w n v s
  else if off = 0xC then axCtrl w n v s
  else if off = 0x10 then mcfgWrite w n v s
  else if off = 0x14 then swapWrite w n v s
  else if off = 0x50 then hlrWrite w n v s
  else if off = 0x54 then (if v.toNat.testBit 1 then restoreAck w n s else s)
  else if off = 0x11C then pitchOffer w n v s
  else if off = 0x124 then pitqCtrlWrite w n v s
  else if off = 0x158 then
    (if v.toNat.testBit 3 then gearLoad w n (plainWrite w a v s) else plainWrite w a v s)
  else if off = 0x178 then (if v.toNat % 2 ^ 24 = 0 then s else plainWrite w a v s)
  else if off = 0x198 then setpointOffer w n v s
  else if off = 0x200 then ccCfgWrite w n v s
  else if 0x204 ≤ off ∧ off ≤ 0x240 then ccParamWrite w n off v s
  else if off = 0x244 then pstageWrite w n v s
  else if off = 0x250 then ccCalWrite w n v s
  else if off = 0x300 then prCfgWrite w n v s
  else if 0x304 ≤ off ∧ off ≤ 0x320 then prParamWrite w n ((off - 0x304) / 4) v s
  else if off = 0x324 then prCtrlWrite w n v s
  else plainWrite w a v s

/-- A write to a word of the front panel. -/
def panelWrite (a : Nat) (v : Word) (s : State) : State :=
  if a = FP_CFG then fpConfigWrite .cfg v s
  else if a = FP_MIRBASE then fpConfigWrite .mirbase v s
  else if a = FP_PRESCFG then fpConfigWrite .prescfg v s
  else
    let off := a - 0x300000
    if 0x100 ≤ off ∧ off < 0x180 then
      let k := (off - 0x100) / 16
      if off % 16 = 0 then fpConfigWrite (.pad (Fin.ofNat 8 k)) v s
      else if off % 16 = 8 ∧ v.toNat.testBit 16 then fpRecal k s else s
    else if 0x200 ≤ off ∧ off < 0x240 then fpConfigWrite (.slot (Fin.ofNat 16 ((off - 0x200) / 4))) v s
    else if 0x280 ≤ off ∧ off < 0x2A0 then fpConfigWrite (.lamp (Fin.ofNat 8 ((off - 0x280) / 4))) v s
    else plainWrite .supervisor a v s

/-- A write of a word to a register that is not half of a 64-bit RW or RWA quantity, its W1C bits already taken. -/
def wordWrite (w : Writer) (a : Nat) (v : Word) (s : State) : State :=
  if a < 0x030000 then
    if a = PWR_CFG then pwrCfgWrite v s else if a = PWR_CTRL then pwrCtrl v s else plainWrite w a v s
  else if a < 0x040000 then
    if a = HOST_CTRL then hostCtrlWrite w v s
    else
      let n := (a - 0x030000) / 0x20
      if a = HOST_CFG n then hostCfg w n v s else if a = HOST_TMO n then hostTmoWrite n v s else plainWrite w a v s
  else if a < 0x050000 then plainWrite w a v s
  else if a < 0x060000 then
    let n := (a - 0x050000) / 0x1000
    match (a - 0x050000) % 0x1000 with
    | 0x00 => cspCfgWrite n v s
    | 0x20 => qinWrite n v s
    | 0x24 => if v.toNat.testBit 16 then cspFlush n s else s
    | 0x40 => cspRawWrite n v s
    | 0x48 => stxdWrite n v s
    | _ => plainWrite w a v s
  else if a < 0x080000 then
    if a = QBV_CTRL 0 then qbvCtrlWrite 0 v s else if a = QBV_CTRL 1 then qbvCtrlWrite 1 v s
    else if a = ETH_CFG 0 then ethCfgWrite 0 v s else if a = ETH_CFG 1 then ethCfgWrite 1 v s
    else if a = ETH_VLAN then vlanWrite v s
    else if a = ETH_HTYPE then htypeWrite v s else if a = MDIO_CMD then mdioWrite v s
    else if a = CT_TICKCFG then tickusWrite v s else if a = CT_SERVO then ctServoWrite .servo v s
    else if a = CT_THR then ctServoWrite .thr v s
    else if a = CT_SETCTRL then (if v.toNat.testBit 0 then ctSetGo s else s)
    else if a = GPTP_CFG then gptpCfgWrite v s else plainWrite w a v s
  else if a < 0x100000 then slotWrite w ((a - 0x080000) / 0x1000) ((a - 0x080000) % 0x1000) v s
  else if a < 0x128000 then
    let e := (a - 0x100000) / 0x2000
    if a = KE_CTRL e then keCtrlWrite w e v s else if a = KE_TRCFG e then trcfgWrite e v s else plainWrite w a v s
  else if a < 0x200000 then (if a = ENG_RETCMD then retcmdWrite v s else plainWrite w a v s)
  else if a < 0x201000 then
    let g := (a - 0x200000) / 0x100
    match a % 0x100 with
    | 0x00 => pwmgConfigWrite g .cfg v s
    | 0x08 => pwmgConfigWrite g .phofs v s
    | 0x0C => pwmgConfigWrite g .refr v s
    | _ => plainWrite w a v s
  else if a < 0x240000 then (if 0x202000 ≤ a ∧ a % 0x40 = 0 then sogCfgWrite a v s else plainWrite w a v s)
  else if a < 0x260000 then
    let g := (a - 0x240000) / 0x1000
    let off := a % 0x1000
    if off = 0 then gdCfgWrite g v s
    else if 0x100 ≤ off ∧ off % 0x20 = 4 then scthrWrite g ((off - 0x100) / 0x20) v s
    else plainWrite w a v s
  else if a < 0x280000 then
    if a < 0x261000 then (if a % 0x10 = 0 then cmpScfWrite ((a - 0x260000) / 0x10) v s else plainWrite w a v s)
    else if a = MON_FILT then monFiltWrite v s
    else if MON_THR 0 ≤ a ∧ a < MON_THR 6 then monThrWrite ((a - MON_THR 0) / 4) v s else plainWrite w a v s
  else if a < 0x280300 then (if a % 0x10 = 0 then decCfgWrite ((a - 0x280000) / 0x10) v s else plainWrite w a v s)
  else if a < 0x284000 then busWinWrite ((a - 0x280300) / 4) v s
  else if a < 0x288000 then (if a % 0x20 < 16 then snsWrite a v s else plainWrite w a v s)
  else if a < 0x2C0000 then
    if a = HKC_CTRL then hkcCtrlWrite v s else if a = HKC_REF then hkcRefWrite v s
    else if a = HKC_RIDX then ridxWrite v s
    else if a = HKC_ROLL then hkcRollWrite v s
    else if a = HKC_CAL then (if v.toNat.testBit 0 then hkcCalGo s else s)
    else if hkcCfgReg a then hkcConfigWrite a v s else plainWrite w a v s
  else if a < 0x2C0400 then
    let p := (a - 0x2C0000) / 0x40
    match a % 0x40 with
    | 0x0 => fbConfigWrite p .cfg v s
    | 0x4 => fbConfigWrite p .aunum v s
    | 0x8 => fbConfigWrite p .auden v s
    | 0xC => fbConfigWrite p .ssi v s
    | _ => plainWrite w a v s
  else if a < 0x2C0500 then (if a % 0x10 = 0 then siCfgWrite ((a - 0x2C0400) / 0x10) v s else plainWrite w a v s)
  else if a < 0x2C1000 then (if a % 0x10 = 0 then soCfgWrite ((a - 0x2C0500) / 0x10) v s else plainWrite w a v s)
  else if a < 0x2C2000 then
    (if a % 0x100 = 0 then capCfgWrite ((a - 0x2C1000) / 0x100) v s
     else if a % 0x100 = 4 then (if v.toNat.testBit 0 then capRelease ((a - 0x2C1000) / 0x100) s else s) else plainWrite w a v s)
  else if a < 0x300000 then
    let q := (a - 0x2C2000) / 0x40
    match a % 0x40 with
    | 0x0 => pcoConfigWrite q .cfg v s
    | 0x4 => pcoCtrlWrite q v s
    | _ => plainWrite w a v s
  else if a < 0x340000 then panelWrite a v s
  else if a < 0x360000 then
    if a < 0x341000 then fltSevWrite w ((a - 0x340000) / 4) v s
    else if a = FLT_SUBSCRIBE then fltSubscribe w v s else plainWrite w a v s
  else if a = LOG_FRZTMO then
    (if 100 ≤ v.toNat % 65536 ∧ v.toNat % 65536 ≤ 60000 then s.wr a (BitVec.ofNat 32 (v.toNat % 65536)) else s)
  else if a = LOG_PAGE then
    (match w with | .host h => s.modHost h.val (fun x => { x with page := v.toNat % 4 }) | .supervisor => s)
  else if a = BLY_CFG then blyCfgWrite v s
  else plainWrite w a v s

/-- A write of one or both words of the 64-bit RW or RWA quantity at `a`; a word not given keeps its value (R282). -/
def quadWrite (w : Writer) (a : Nat) (lo hi : Option Word) (s : State) : State :=
  if 0x030000 ≤ a ∧ a < 0x030100 then
    hostMac w ((a - 0x030000) / 0x20) ((hi.getD (s.rd (a + 4))).toNat % 65536 * 2 ^ 32 + (lo.getD (s.rd a)).toNat) s
  else if 0x2C2000 ≤ a ∧ a < 0x2C3000 then
    let q := (a - 0x2C2000) / 0x40
    let r (high : Bool) : PcoReg := if a % 0x40 = 8 then .pos high else .step high
    let s := match lo with | some v => pcoConfigWrite q (r false) v s | none => s
    match hi with | some v => pcoConfigWrite q (r true) v s | none => s
  else
    let s := match lo with | some v => plainWrite w a v s | none => s
    match hi with
    | some v =>
      if 0x080000 ≤ a ∧ a < 0x090000 ∧ a % 0x1000 = 0x194 then setpointOffer w ((a - 0x080000) / 0x1000) v s
      else plainWrite w (a + 4) v s
    | none => s

/-- The word at `a` is half of a 64-bit RW or RWA quantity. -/
def stagedReg (h : RegHit) : Bool := h.row.wide && decide (h.row.rw ||| h.row.rwa ≠ 0)

/-- A write of a word that takes effect at once. -/
def regWrite (w : Writer) (a : Nat) (v : Word) (s : State) : State :=
  match findReg a with
  | none => s
  | some h =>
    if stagedReg h then (if h.high then quadWrite w (a - 4) none (some v) s else quadWrite w a (some v) none s)
    else wordWrite w a v (clearW1c a v s)

/-! ### The write stage and the read shadow (R281, R282) -/

/-- The held low word of host `h` is applied alone. -/
def State.stageFlush (s : State) (h : Fin 8) : State :=
  match (s.host h.val).stage with
  | some (a, v, _) => quadWrite (.host h) a (some v) none (s.modHost h.val (fun x => { x with stage := none }))
  | none => s
/-- A held low word whose 1 µs has ended has been applied alone. -/
def State.stageOld (s : State) (h : Fin 8) : State :=
  match (s.host h.val).stage with
  | some (_, _, t) => if t + 1000 < s.now then s.stageFlush h else s
  | none => s

/-- WRITE_STAGE_EXPIRY (R282): the 1 µs of a held low word ends. -/
def writeStageExpiry (h : Fin 8) (s : State) : State :=
  match (s.host h.val).stage with
  | some (_, _, t) => ({ s with now := max s.now (t + 1000) }).stageFlush h
  | none => s
def execWriteStageExpiry (h : Fin 8) (s : State) : Out := live s (writeStageExpiry h)

/-- A write of a word by whoever performs it: a host's writes to a 64-bit RW or RWA quantity pass its stage. A low
word that the writer may not write is not held. -/
def accessWrite (w : Writer) (a : Nat) (v : Word) (s : State) : State :=
  match w, findReg a with
  | .host h, some r =>
    if !stagedReg r then regWrite w a v s
    else
      let s := s.stageOld h
      if r.high then
        match (s.host h.val).stage with
        | some (b, lo, _) =>
          if b + 4 = a then quadWrite w b (some lo) (some v) (s.modHost h.val (fun x => { x with stage := none }))
          else quadWrite w (a - 4) none (some v) (s.stageFlush h)
        | none => quadWrite w (a - 4) none (some v) s
      else
        let s := s.stageFlush h
        if s.notOwner w a then s else s.modHost h.val (fun x => { x with stage := some (a, v, s.now) })
  | _, _ => regWrite w a v s

/-- A read of a register word: a read of a high word may return the shadow, one of a low word latches it, and RC fields
clear. -/
def accessRead (w : Writer) (a : Nat) (s : State) : Word × State :=
  match findReg a with
  | none => (0, s)
  | some r =>
    match w with
    | .host h =>
      if r.high then
        (match (s.host h.val).shadow with
         | some (b, v, t) => if b + 4 = a ∧ s.now ≤ t + 1000 then (v, s) else (s.view w a, s)
         | none => (s.view w a, s))
      else if r.row.wide then
        (s.view w a, s.modHost h.val (fun x => { x with shadow := some (a, s.view w (a + 4), s.now) }))
      else (s.rcView w a, s.clearRc a)
    | .supervisor => (s.rcView w a, s.clearRc a)

/-- REGISTER_WRITE (R5): each field acts by its access type and the owner test. -/
def execRegisterWrite (w : Writer) (a : BitVec 24) (v : Word) (s : State) : Out :=
  if a.toNat % 4 = 0 then live s (fun s => (accessWrite w a.toNat v s).takeReset) else .fault .illFormed

/-! ### Windows (R486) -/

/-- The windows of R486. -/
inductive Win where
  | otp
  | txbuf
  | rxbuf
  | trtag (e : Nat)
  | trdat (e : Nat)
  | evring
  | logRec
  | blyArea (k : Nat)
  | prog (e : Nat)
  | data (e : Nat)
  | cell
  | ckp
  | flash (bank : Nat)
deriving DecidableEq, Repr

/-- The window that holds address `a`, with its base and end. -/
def winAt (a : Nat) : Option (Win × Nat × Nat) :=
  if a < 0x021000 then none
  else if a < 0x022000 then some (.otp, 0x021000, 0x022000)
  else if 0x050000 ≤ a ∧ a < 0x054000 then
    let b := a / 0x1000 * 0x1000
    if b + 0x400 ≤ a ∧ a < b + 0x500 then some (.txbuf, b + 0x400, b + 0x500)
    else if b + 0x500 ≤ a ∧ a < b + 0x600 then some (.rxbuf, b + 0x500, b + 0x600) else none
  else if 0x100000 ≤ a ∧ a < 0x128000 then
    let b := a / 0x2000 * 0x2000
    let e := (a - 0x100000) / 0x2000
    if b + 0x1000 ≤ a then some (.trdat e, b + 0x1000, b + 0x2000)
    else if b + 0x800 ≤ a then some (.trtag e, b + 0x800, b + 0x1000) else none
  else if 0x300400 ≤ a ∧ a < 0x300800 then some (.evring, 0x300400, 0x300800)
  else if 0x368000 ≤ a ∧ a < 0x370000 then some (.logRec, 0x368000, 0x370000)
  else if 0x381000 ≤ a ∧ a < 0x381BC0 then some (.blyArea 0, 0x381000, 0x381BC0)
  else if 0x382000 ≤ a ∧ a < 0x382BC0 then some (.blyArea 1, 0x382000, 0x382BC0)
  else if 0x400000 ≤ a ∧ a < 0x5E0000 then
    let e := (a - 0x400000) / 0x18000
    let b := progBase e
    if a < b + 0x10000 then some (.prog e, b, b + 0x10000) else some (.data e, b + 0x10000, b + 0x18000)
  else if 0x600000 ≤ a ∧ a < 0x660000 then some (.cell, 0x600000, 0x660000)
  else if 0x660000 ≤ a ∧ a < 0x680000 then some (.ckp, 0x660000, 0x680000)
  else if 0x800000 ≤ a ∧ a < 0xC00000 then some (.flash 0, 0x800000, 0xC00000)
  else if 0xC00000 ≤ a ∧ a < 0x1000000 then some (.flash 1, 0xC00000, 0x1000000)
  else none

/-- The arrays of R484: base, stride, instances. -/
def instArrays : List (Nat × Nat × Nat) := [
  (0x030000, 0x20, 8), (0x040000, 0x20, 32), (0x050000, 0x1000, 4), (0x060000, 0x400, 2), (0x080000, 0x1000, 16),
  (0x100000, 0x2000, 20), (0x200000, 0x100, 4), (0x201000, 0x40, 32), (0x202000, 0x40, 8), (0x240000, 0x1000, 4),
  (0x260000, 0x10, 32), (0x280000, 0x10, 36), (0x280300, 0x4, 4), (0x284000, 0x20, 32), (0x2C0000, 0x40, 8),
  (0x2C0400, 0x10, 8), (0x2C0500, 0x10, 8), (0x2C1000, 0x100, 8), (0x2C2000, 0x40, 4)]
/-- The blocks of R484 with their extents. -/
def wholeBlocks : List (Nat × Nat) := [
  (0x000000, 0x10000), (0x010000, 0x10000), (0x020000, 0x10000), (0x030000, 0x10000), (0x040000, 0x10000),
  (0x050000, 0x10000), (0x060000, 0x10000), (0x080000, 0x10000), (0x100000, 0x30000), (0x200000, 0x10000),
  (0x240000, 0x10000), (0x260000, 0x10000), (0x280000, 0x10000), (0x2C0000, 0x10000), (0x300000, 0x1000),
  (0x340000, 0x2000), (0x360000, 0x10000), (0x380000, 0x3000)]

/-- The extent of an access that starts at `a` (R485): its base and end, none outside every block and window. -/
def extentOf (a : Nat) : Option (Nat × Nat) :=
  match winAt a with
  | some (_, lo, hi) => some (lo, hi)
  | none =>
    match instArrays.find? (fun x => decide (x.1 ≤ a ∧ a < x.1 + x.2.1 * x.2.2)) with
    | some (b, stride, _) => some (b + (a - b) / stride * stride, b + (a - b) / stride * stride + stride)
    | none => (wholeBlocks.find? (fun x => decide (x.1 ≤ a ∧ a < x.1 + x.2))).map (fun x => (x.1, x.1 + x.2))

/-- Where the word at `a` of an access that starts at `start` lands: nowhere (UNMAPPED), past the end, or in reach. -/
inductive Reach where
  | unmapped
  | past
  | ok
deriving DecidableEq, Repr

/-- R278, R485: no word is served by a block or window that does not hold the start address. -/
def reach (start a : Nat) : Reach :=
  match extentOf start with
  | none => .unmapped
  | some (lo, hi) =>
    if lo ≤ a ∧ a < hi ∧ ((winAt start).isSome ∨ (winAt a).isNone) then .ok else .past

/-- A word of a log record (R376, R381). -/
def LogRec.word (r : LogRec) (i : Nat) : Word :=
  match i with
  | 0 => r.w0
  | 1 => r.w1
  | 2 => BitVec.ofNat 32 r.time
  | _ => BitVec.ofNat 32 (r.time / 2 ^ 32)

/-- The value of a word of a window, `i` words from its base, with the flags of the read (R278, R279, R486). A flash word
whose place the spec leaves open is a free value of its own. -/
def winRead (w : Writer) (x : Win) (a i : Nat) (s : State) : Word × Nat × State :=
  match x with
  | .otp => if 0x80 ≤ i ∧ i < 0x90 then (0, 8, s) else (s.otpWord i, 0, s)
  | .txbuf | .rxbuf | .cell => (s.rdMem a, 0, s)
  | .trtag e =>
    let tag (k : Nat) : Nat := tabGet (fun _ => 0) (s.engine e).trace (8 * i + k) / 2 ^ 32 % 16
    (BitVec.ofNat 32 (((List.range 8).map (fun k => tag k * 16 ^ k)).sum), 0, s)
  | .trdat e =>
    (BitVec.ofNat 32 (tabGet (fun _ => 0) (s.engine e).trace (s.get (KE_TRPAGE_PAGE e) * 1024 + i)), 0, s)
  | .evring => (s.fpRingWord i, 0, s)
  | .logRec =>
    let page := match w with | .host h => (s.host h.val).page | .supervisor => 0
    ((tabGet (fun _ => LogRec.mk 0 0 0) s.log.ring (page * 2048 + i / 4)).word (i % 4), 0, s)
  | .blyArea k => ((if k = 0 then s.bly.area0 else s.bly.area1).getD i 0, 0, s)
  | .prog e => (s.progWord e i, 0, s)
  | .data e => (s.dataWord e i, 0, s)
  | .ckp => (s.ckpWord (i / 2048) (i / 1024 % 2) (i / 512 % 2) (i % 512), 0, s)
  | .flash b => (s.flashRead b i, 0, s.draw)

/-- A write of a word of a window, with its flags. -/
def winWrite (w : Writer) (x : Win) (a i : Nat) (v : Word) (s : State) : Nat × State :=
  match x with
  | .otp => (if 0x80 ≤ i ∧ i < 0x90 then 8 else 16, s)
  | .txbuf | .cell => (0, s.wrMem a v)
  | .prog e => if s.owns w (s.engineAnchor e) then (0, programWrite e i v s) else (32, s)
  | .data e => if s.owns w (s.engineAnchor e) then (0, dataWrite e i v s) else (32, s)
  | _ => (16, s)

/-! ### Words of READ, WRITE and RMW frames (R278, R283) -/

/-- One word of a READ: its value and flags. -/
def frameRead (w : Writer) (start a : Nat) (s : State) : Word × Nat × State :=
  match reach start a with
  | .unmapped => (0, 4, s)
  | .past => (0, 1, s)
  | .ok =>
    match winAt a with
    | some (x, base, _) => winRead w x a ((a - base) / 4) s
    | none => let r := accessRead w a s; (r.1, 0, r.2)

/-- One word of a WRITE: its flags. -/
def frameWrite (w : Writer) (start a : Nat) (v : Word) (s : State) : Nat × State :=
  match reach start a with
  | .unmapped => (4, s)
  | .past => (2, s)
  | .ok =>
    match winAt a with
    | some (x, base, _) => winWrite w x a ((a - base) / 4) v s
    | none => (if s.notOwner w a then 32 else 0, accessWrite w a v s)

/-- The value that an RMW writes (R283): W1C bits outside the mask are written as 0. -/
def rmwValue (a : Nat) (old mask v : Word) : Word :=
  let new := (old &&& ~~~ mask) ||| (v &&& mask)
  match findReg a with
  | some h => new &&& ~~~ (BitVec.ofNat 32 (halfOf h h.row.w1c) &&& ~~~ mask)
  | none => new

/-- An RMW of the word at `a`: the old value and the flags; no RC field is cleared and nothing is staged. -/
def frameRmw (w : Writer) (a : Nat) (mask v : Word) (s : State) : Word × Nat × State :=
  match reach a a with
  | .unmapped => (0, 4, s)
  | .past => (0, 2, s)
  | .ok =>
    match winAt a with
    | some (x, base, _) =>
      let r := winRead w x a ((a - base) / 4) s
      let u := winWrite w x a ((a - base) / 4) (rmwValue a r.1 mask v) r.2.2
      (r.1, r.2.1 ||| u.1, u.2)
    | none =>
      let old := if (findReg a).isSome then s.view w a else 0
      (old, if s.notOwner w a then 32 else 0, regWrite w a (rmwValue a old mask v) s)

/-- Several words of a READ, with the flags of all. -/
def frameReads (w : Writer) (start : Nat) : Nat → Nat → State → List Word × Nat × State
  | _, 0, s => ([], 0, s)
  | a, k + 1, s =>
    let r := frameRead w start a s
    let t := frameReads w start (a + 4) k r.2.2
    (r.1 :: t.1, r.2.1 ||| t.2.1, t.2.2)

/-- The words of a WRITE in order (R127), with the flags of all. -/
def frameWrites (w : Writer) (start : Nat) : Nat → List Word → State → Nat × State
  | _, [], s => (0, s)
  | a, v :: vs, s =>
    let r := frameWrite w start a v s
    let t := frameWrites w start (a + 4) vs r.2
    (r.1 ||| t.1, t.2)

end Sys2Proof.Machine
end

