-- ==== Sys2Proof/Machine/Streams.lean ====
section
/-! DEFINITION. Host frames and command streams (14_command_streams.md, R298 to R321): the checks of a frame, acceptance by
sequence and credit, the queued commands but those of images, the control frames, and the sending of responses and
notification frames. -/
namespace Sys2Proof.Machine

/-! ### The frame (R298, R299) -/

/-- One bit of CRC-16/CCITT. -/
def crc16Bit (c : Nat) : Nat := if 32768 ≤ c then (c * 2 % 65536) ^^^ 0x1021 else c * 2
/-- One byte of CRC-16/CCITT. -/
def crc16Byte (c b : Nat) : Nat :=
  crc16Bit (crc16Bit (crc16Bit (crc16Bit (crc16Bit (crc16Bit (crc16Bit (crc16Bit (c ^^^ (b * 256)))))))))
/-- CRC-16/CCITT of R299: initial value 0xFFFF, no final XOR. -/
def crc16 (b : List Nat) : Nat := b.foldl crc16Byte 0xFFFF

/-- A word's bytes, most significant first. -/
def beBytes (w : Word) : List Nat := [w.toNat / 16777216, w.toNat / 65536 % 256, w.toNat / 256 % 256, w.toNat % 256]
/-- Whole words of bytes, most significant first. -/
def beWords : List Nat → List Word
  | a :: b :: c :: d :: rest => BitVec.ofNat 32 (((a * 256 + b) * 256 + c) * 256 + d) :: beWords rest
  | _ => []

/-- A frame of R298; `stray` that its STATUS byte, CRED byte or trailer pad is not zero. -/
structure HostFrame where
  host : Nat := 0
  stream : Nat := 0
  rsp : Nat := 0
  ver : Nat := 1
  op : Nat := 0
  seq : Nat := 0
  len : Nat := 0
  stray : Bool := false
  words : List Word := []
deriving DecidableEq, Repr

/-- The frame that bytes hold; bytes after the trailer are ignored (R342). None when they end before the trailer or the
CRC fails. -/
def frameOf (b : List Nat) : Option HostFrame :=
  let x (i : Nat) : Nat := b.getD i 0
  let len := x 4 * 256 + x 5
  if b.length < 12 + len ∨ crc16 (b.take (10 + len)) ≠ x (10 + len) * 256 + x (11 + len) then none
  else some {
    host := x 0 / 32, stream := x 0 / 8 % 4, rsp := x 0 / 4 % 2, ver := x 0 % 4, op := x 1, seq := x 2 * 256 + x 3, len := len
    stray := x 6 != 0 || x 7 != 0 || x (8 + len) != 0 || x (9 + len) != 0
    words := beWords ((b.drop 8).take len) }

/-! ### BAD_FRAME (R301) -/

/-- The lowest DETAIL among those that apply, 0 when none. -/
def lowestDetail (l : List (Bool × Nat)) : Nat :=
  (l.filter (·.1)).foldl (fun a x => if a = 0 then x.2 else min a x.2) 0

/-- The DETAIL of an address word, whose [31:24] are zero unless `count`. -/
def addrDetail (w : Nat) (count : Bool) : List (Bool × Nat) :=
  [(w % 4 != 0, 3), (!count && w / 2 ^ 24 != 0, 4)]

/-- The DETAIL of a COMMAND payload (R304), `k` words after the first. -/
def commandDetail (h k : Nat) : List (Bool × Nat) :=
  let func := bitsOf h 23 20
  let size := if func = 0 then 8 else 7
  let most := if func = 0 then 7 else 8
  (h / 2 ^ 28 != 0 || h % 2 ^ 19 != 0, 4) ::
  (if 3 < func then [(true, 6)]
   else if 2 ≤ func then [(k != 1, 1)]
   else [(k % size != 0, 1), (k == 0 || decide (most < k / size), 6), (func == 1 && bitsOf h 19 19 == 1, 6)])

/-- How many words an IMAGE frame other than DATA carries, by SUB (R412). -/
def imageWords (sub : Nat) : Nat := match sub with | 0 => 2 | 8 => 25 | 9 => 17 | 10 => 9 | _ => 1
/-- The DETAIL of an IMAGE payload (R412), `k` words with the first. -/
def imageDetail (h k : Nat) : List (Bool × Nat) :=
  let sub := h / 2 ^ 28
  if 10 < sub then [(true, 6)]
  else if sub = 1 then [(decide (k < 2 ∨ 61 < k), 1), (bitsOf h 27 24 != 0, 4)]
  else
    [(k != imageWords sub, 1),
     (bitsOf h 27 24 != 0 || bitsOf h 19 16 != 0 || ((sub == 2 || sub == 3) && h % 2 ^ 28 != 0), 4)]

/-- The DETAIL of the payload `ws` of opcode `op`. -/
def payloadDetail (op : Nat) (ws : List Word) : List (Bool × Nat) :=
  let w (i : Nat) : Nat := (ws.getD i 0).toNat
  let k := ws.length
  match op with
  | 1 => if k ≠ 1 then [(true, 1)] else (decide (w 0 / 2 ^ 24 < 1 ∨ 60 < w 0 / 2 ^ 24), 1) :: addrDetail (w 0) true
  | 2 => if k < 2 ∨ 61 < k then [(true, 1)] else addrDetail (w 0) false
  | 3 => if k ≠ 3 then [(true, 1)] else addrDetail (w 0) false
  | 4 => if k = 0 then [(true, 1)] else commandDetail (w 0) (k - 1)
  | 5 | 6 => if k ≠ 2 then [(true, 1)] else [(w 1 / 16 != 0 || (w 0 == 0 && w 1 % 16 == 0), 5)]
  | 7 => if k ≠ 1 then [(true, 1)] else [(w 0 / 32 != 0, 4), (w 0 % 16 == 0, 5)]
  | 0xB => if k ≠ 1 then [(true, 1)] else [(w 0 / 2 != 0, 4)]
  | 0xC | 0xF => [(k != 6, 1)]
  | 0xD => if k = 0 then [(true, 1)] else imageDetail (w 0) k
  | 0xE => if k ≠ 2 then [(true, 1)] else
      [(w 0 / 2 ^ 28 != 0 || w 0 % 2 ^ 24 != 0, 4), (bitsOf (w 1) 7 7 == bitsOf (w 1) 6 6, 6)]
  | _ => []

/-- The DETAIL with which a queued frame fails, 0 when it is well formed (R301). -/
def HostFrame.bad (f : HostFrame) : Nat :=
  if f.len % 4 ≠ 0 ∨ 244 < f.len then 1
  else if f.op = 0 ∨ 0xF < f.op then 2
  else lowestDetail ((f.stray, 4) :: payloadDetail f.op f.words)

/-! ### Control frames (R312, R313) -/

/-- The control opcodes. -/
def isControl (op : Nat) : Bool := op == 8 || op == 9 || op == 0xA

/-- Put the answer to a control frame ahead of every response not yet sent but earlier such answers. -/
def Stream.addCtrl (st : Stream) (r : Rsp) : Stream :=
  let early := st.pend.takeWhile (fun (x : Rsp) => isControl x.op)
  { st with pend := early ++ [r] ++ st.pend.drop early.length }
def State.ctrlAnswer (s : State) (k op seq status detail : Nat) (ws : List Word) : State :=
  s.modStream k (fun st => st.addCtrl (Rsp.mk seq op status (BitVec.ofNat 32 (detail * 65536) :: ws) false false))

/-- The refusal of a RESUME or FLUSH, 0 when taken. -/
def Stream.ctrlRefusal (st : Stream) (seq : Nat) (stray : Bool) : Nat :=
  if stray then 3 else if st.real ≠ 2 then 2 else if seq ≠ st.haltSeq then 1 else 0

/-- Every queued command is answered FLUSHED, head first. -/
def Stream.flushAll (st : Stream) : Stream :=
  { st with queue := [], reason := 0
            pend := st.pend ++ st.queue.map (fun (c : Cmd) => Rsp.mk c.seq c.op 7 [0] true false) }.setState 0

/-- A control frame acts (R312, R313). -/
def State.control (s : State) (k op seq : Nat) (stray : Bool) : State :=
  let st := s.stream k
  if op = 0xA then
    if stray then s.ctrlAnswer k op seq 4 3 [] else s.ctrlAnswer k op seq 0 0 [st.seqWord, s.strSt k, st.haltWord]
  else
    let r := st.ctrlRefusal seq stray
    if r ≠ 0 then s.ctrlAnswer k op seq 4 r []
    else if op = 8 then
      ((s.modStream k (fun st => { st with reason := 0 }.setState (if st.queue.isEmpty then 0 else 1))).ctrlAnswer k op seq 0 0
        []).reachHeads k
    else
      (((s.modStream k Stream.flushAll).inc (STR_FLUSHED_V k) st.queue.length).ctrlAnswer k op seq 0 0 []).reachHeads k

/-- A control frame of stream `k` is taken; while a handover suspends execution it is held in place of any held before
(R316). -/
def takeControl (k op seq : Nat) (stray : Bool) (s : State) : State :=
  if (s.stream k).state = 3 then
    s.modStream k (fun st => { st with ctrl := some (op, seq, if stray then 1 else 0) })
  else s.control k op seq stray

def execResume (k : Fin 32) (seq : BitVec 16) (stray : Bool) (s : State) : Out :=
  live s (takeControl k.val 8 seq.toNat stray)
def execStreamFlush (k : Fin 32) (seq : BitVec 16) (stray : Bool) (s : State) : Out :=
  live s (takeControl k.val 9 seq.toNat stray)
def execStreamResync (k : Fin 32) (seq : BitVec 16) (stray : Bool) (s : State) : Out :=
  live s (takeControl k.val 0xA seq.toNat stray)

/-! ### Acceptance (R306, R308) -/

/-- A frame not stored is answered; the answer holds no slot of stream memory. -/
def State.turnAway (s : State) (k : Nat) (f : HostFrame) (status detail : Nat) : State :=
  s.modStream k (fun st => { st with
    pend := st.pend ++ [Rsp.mk f.seq f.op status [BitVec.ofNat 32 (detail * 65536)] false false] })

/-- A queued frame enters stream memory. -/
def State.accept (s : State) (k : Nat) (f : HostFrame) : State :=
  let c : Cmd := { seq := f.seq, op := f.op, bad := f.bad, words := f.words, acc := s.accepts }
  let s := ({ s with accepts := s.accepts + 1 }).inc (STR_ACCEPT_V k)
  let s := s.modStream k (fun st =>
    let st := { st with queue := st.queue ++ [c], nextSeq := (f.seq + 1) % 65536, unsynced := false }
    if st.real = 0 then st.setState 1 else st)
  s.reachHead k

/-- A queued frame meets the sequence check, then the credit check. -/
def State.queuedFrame (s : State) (k : Nat) (f : HostFrame) : State :=
  let st := s.stream k
  let next := if st.unsynced then f.seq else st.nextSeq
  let ahead := (f.seq + 65536 - next) % 65536
  if ahead = 0 then
    if 16 ≤ st.devCred then (s.inc (STR_NOCRED_V k)).turnAway k f 10 0 else s.accept k f
  else if 65520 ≤ ahead then (s.inc (STR_SEQERR_V k)).turnAway k f 8 0
  else (s.inc (STR_SEQERR_V k)).turnAway k f 9 st.nextSeq

/-- A frame whose CRC holds, received on `port` from the source bound to host `src` (R275, R291, R299). -/
def State.hostFrame (s : State) (port : Nat) (src : Option Nat) (f : HostFrame) : State :=
  match src with
  | some h =>
    if f.ver = 1 ∧ f.rsp = 0 ∧ f.host = h then
      let s := ((s.put (HOST_ST_LIVE h) 1).put (HOST_ST_PORT h) port).modHost h (fun x => { x with lastFrame := s.now })
      let k := 4 * h + f.stream
      if isControl f.op then takeControl k f.op f.seq (f.len != 0 || f.stray) s else s.queuedFrame k f
    else s.inc HOST_UNKNOWN_V
  | none => s.inc HOST_UNKNOWN_V

/-- FRAME_RECEIVE (R299): the oldest frame that port 0 CSP0, 1 CSP1, 2 ETH0 or 3 ETH1 holds is checked and served. -/
def frameReceive (port : Nat) (s : State) : State :=
  if port < 2 then
    let x := s.csp port
    match x.frames with
    | [] => s
    | ws :: rest =>
      let s := s.upCsp port { x with frames := rest }
      match frameOf (ws.flatMap beBytes) with
      | none => s.inc (CSP_CRCERR_V port)
      | some f => s.hostFrame port (if s.cspBound port then some port else none) f
  else
    let x := s.eth (port - 2)
    match x.inbox with
    | [] => s
    | (mac, b) :: rest =>
      let s := s.setEth (port - 2) { x with inbox := rest }
      match frameOf (b.map BitVec.toNat) with
      | none => s.ethCount (port - 2) rxDrop
      | some f => s.hostFrame port (hosts8.find? (fun h => s.src h == 2 && s.get (HOST_MAC_V h) == mac)) f
def execFrameReceive (port : Fin 4) (s : State) : Out := live s (frameReceive port.val)

/-! ### READ, WRITE and RMW (R278, R283) -/

/-- The host of a stream, as a writer. -/
def hostOf (k : Nat) : Writer := .host (Fin.ofNat 8 (k / 4))
/-- Word `i` of a command. -/
def Cmd.word (c : Cmd) (i : Nat) : Word := c.words.getD i 0
/-- The address of a READ, WRITE or RMW. -/
def Cmd.addr (c : Cmd) : Nat := (c.word 0).toNat % 2 ^ 24

/-- A command that wrote PWR_CTRL is answered first; the reset follows its response (R438). -/
def State.finishWrite (s : State) (k : Nat) (c : Cmd) (flags : Nat) (ws : List Word) : State :=
  let r := s.rstReq
  let s := ({ s with rstReq := false }).finish k c 0 0 flags ws
  if r then
    s.modStream k (fun st => { st with pend := st.pend.map (fun (x : Rsp) =>
      if x.seq = c.seq ∧ x.op = c.op ∧ x.credit then { x with reset := true } else x) })
  else s

/-- READ: COUNT words from an address. -/
def readCmd (k : Nat) (s : State) : State :=
  s.runHead k 1 (fun _ => true) fun c s =>
    let r := frameReads (hostOf k) c.addr c.addr ((c.word 0).toNat / 2 ^ 24) s
    r.2.2.finish k c 0 0 r.2.1 r.1
def execRead (k : Fin 32) (s : State) : Out := live s (readCmd k.val)
/-- WRITE: the data words from an address, in order. -/
def writeCmd (k : Nat) (s : State) : State :=
  s.runHead k 2 (fun _ => true) fun c s =>
    let r := frameWrites (hostOf k) c.addr c.addr (c.words.drop 1) s
    r.2.finishWrite k c r.1 []
def execWrite (k : Fin 32) (s : State) : Out := live s (writeCmd k.val)
/-- RMW: one word, its old value returned. -/
def rmwCmd (k : Nat) (s : State) : State :=
  s.runHead k 3 (fun _ => true) fun c s =>
    let r := frameRmw (hostOf k) c.addr (c.word 1) (c.word 2) s
    r.2.2.finishWrite k c r.2.1 [r.1]
def execRmw (k : Fin 32) (s : State) : Out := live s (rmwCmd k.val)

/-! ### COMMAND (R304, R305) -/

/-- The slot of a COMMAND or SWAP. -/
def Cmd.slot (c : Cmd) : Nat := c.slot?.getD 0
/-- Run a COMMAND of function `func` for the holder of the slot's anchor; NOT_OWNER for another. -/
def State.runSlot (s : State) (k func : Nat) (f : Cmd → State → State) : State :=
  s.runHead k 4 (fun c => c.func == func) fun c s => if s.holds (k / 4) c.slot then f c s else s.answer k 2 0 0 []

/-- The entries of a COMMAND PITCH or SETPOINT. -/
def Cmd.entries (c : Cmd) : List (List Word) :=
  let size := if c.func = 0 then 8 else 7
  (List.range ((c.words.length - 1) / size)).map (fun i => (c.words.drop (1 + i * size)).take size)
/-- Words 1 and 2 of the response: the first index given, and how many entries were accepted. -/
def placedWords (next : Nat) (ixs : List Nat) : List Word := [BitVec.ofNat 32 (ixs.headD 0), BitVec.ofNat 32 next]
/-- The command waits for room, having placed `next` entries. -/
def State.waitRoom (s : State) (k next : Nat) (ixs : List Nat) : State :=
  s.modStream k (fun st => { st with prog := .placing next ixs })

/-- Two words as a 64-bit number, low word first. -/
def quadOf (lo hi : Word) : Nat := hi.toNat * 2 ^ 32 + lo.toNat

/-- Offer the entries of a COMMAND from number `next` on, in order, until one is refused or finds no room. -/
def placeEntries (k : Nat) (c : Cmd) : Nat → List Nat → List (List Word) → State → State
  | next, ixs, [], s =>
    if c.func = 0 ∧ c.waitdone then s.modStream k (fun st => { st with prog := .waiting ixs })
    else s.finish k c 0 0 0 (placedWords next ixs)
  | next, ixs, e :: es, s =>
    let n := c.slot
    if c.func = 0 then
      if !entryBad e ∧ 64 ≤ (s.gen n).queue.length then s.waitRoom k next ixs
      else
        match s.offerPitch n e with
        | (t, .queued i) => placeEntries k c (next + 1) (ixs ++ [i]) es (t.syncWait n)
        | (t, _) => (t.err n 12).finish k c 4 12 0 (placedWords next ixs)
    else if s.get (AX_MCFG_SRC n) ≠ 2 ∨ s.slotState n = stUnbound then (s.err n 5).finish k c 4 5 0 (placedWords next ixs)
    else if 16 ≤ (s.gen n).points.length then s.waitRoom k next ixs
    else
      let w (i : Nat) : Word := e.getD i 0
      placeEntries k c (next + 1) ixs es (s.bufferPoint n ((w 0).toNat.testBit 0) (quadOf (w 1) (w 2))
        (signedOf 64 (quadOf (w 3) (w 4))) (signedOf 64 (quadOf (w 5) (w 6))))

/-- PITCH: queues pitch entries. -/
def execPitch (k : Fin 32) (s : State) : Out :=
  live s (fun s => s.runSlot k.val 0 (fun c s => placeEntries k.val c 0 [] c.entries s))
/-- SETPOINT: buffers timestamped setpoints. -/
def execSetpoint (k : Fin 32) (s : State) : Out :=
  live s (fun s => s.runSlot k.val 1 (fun c s => placeEntries k.val c 0 [] c.entries s))

/-- COMMAND_ROOM_FREED: a waiting COMMAND offers its next entries. -/
def commandRoomFreed (k : Nat) (s : State) : State :=
  let st := s.stream k
  match st.queue, st.prog with
  | c :: _, .placing next ixs =>
    if st.state = 1 ∧ !s.bly.stopped then placeEntries k c next ixs (c.entries.drop next) s else s
  | _, _ => s
def execCommandRoomFreed (k : Fin 32) (s : State) : Out := live s (commandRoomFreed k.val)

/-- The state at which the last action of an AXn_CTRL word ends, by the order of R27. -/
def ctrlEnd (v : Nat) : Option Nat :=
  if v.testBit 0 ∧ !v.testBit 1 then some stHold
  else if v.testBit 4 then some stIdle
  else if v.testBit 3 then some stOos
  else if v.testBit 2 ∨ v.testBit 1 then some stIdle
  else none

/-- CTRL: one AXn_CTRL word. A refused action leaves its ERR, which the response reports; a slot that trips at once cuts
a WAITDONE command off. -/
def ctrlCmd (k : Nat) (c : Cmd) (s : State) : State :=
  let n := c.slot
  let err := s.get (AX_STATE_ERR n)
  let s := axCtrl (hostOf k) n (c.word 1) (s.err n 0)
  let e := s.get (AX_STATE_ERR n)
  if e ≠ 0 then s.finish k c 4 e 0 []
  else
    let s := s.err n err
    match ctrlEnd c.ctrlWord with
    | some x =>
      if !c.waitdone ∨ s.slotState n = x then s.finish k c 0 0 0 []
      else if s.slotState n = stTripped then s.finish k c 6 0 0 [s.pitchReached n]
      else s.modStream k (fun st => { st with prog := .waiting [] })
    | none => s.finish k c 0 0 0 []
def execCtrl (k : Fin 32) (s : State) : Out := live s (fun s => s.runSlot k.val 2 (fun c s => ctrlCmd k.val c s))

/-- QCTRL: one AXn_PITQ_CTRL word. -/
def qctrlCmd (k : Nat) (c : Cmd) (s : State) : State :=
  let s := pitqCtrlWrite (hostOf k) c.slot (c.word 1) (clearW1c (AX_PITQ_CTRL c.slot) (c.word 1) s)
  if c.waitdone ∧ !s.atRest c.slot then s.modStream k (fun st => { st with prog := .waiting [] }) else s.finish k c 0 0 0 []
def execQctrl (k : Fin 32) (s : State) : Out := live s (fun s => s.runSlot k.val 3 (fun c s => qctrlCmd k.val c s))

/-- Pitch `i` of slot `n` has ended: it is neither queued nor running. -/
def State.pitchEnded (s : State) (n i : Nat) : Bool :=
  !(s.queuedIxs n).contains i && (match (s.gen n).pitch with | some q => q.index != i | none => true)
/-- The wait of a WAITDONE command is met (R304). -/
def State.waitMet (s : State) (c : Cmd) (ixs : List Nat) : Bool :=
  match c.func with
  | 0 => (match ixs.getLast? with | some i => s.pitchEnded c.slot i | none => true)
  | 2 => ctrlEnd c.ctrlWord == some (s.slotState c.slot)
  | _ => s.atRest c.slot

/-- WAITDONE_MET: the wait is met and the command completes. -/
def waitdoneMet (k : Nat) (s : State) : State :=
  let st := s.stream k
  match st.queue, st.prog with
  | c :: _, .waiting ixs =>
    if st.state = 1 ∧ !s.bly.stopped ∧ s.waitMet c ixs then
      s.answer k 0 0 0 (if c.func = 0 then placedWords ixs.length ixs else [])
    else s
  | _, _ => s
def execWaitdoneMet (k : Fin 32) (s : State) : Out := live s (waitdoneMet k.val)

/-! ### Anchors, FENCE and SWAP (R288, R300, R305, R310) -/

/-- The anchors of a mask. -/
def Cmd.anchors (c : Cmd) : List Nat :=
  (List.range 36).filter (fun a => ((c.word 1).toNat % 16 * 2 ^ 32 + (c.word 0).toNat).testBit a)
/-- An anchor of the list that a host other than `h` holds, the lowest. -/
def State.othersAnchor (s : State) (h : Nat) (l : List Nat) : Option Nat :=
  l.find? (fun a => s.bit (ANC_ST_HELD a) && s.get (ANC_ST_OWNER a) != h)
/-- DETAIL for an anchor held by another host (R303). -/
def State.anchorDetail (s : State) (a : Nat) : Nat := a * 256 + s.get (ANC_ST_OWNER a)

/-- ANCHOR: claims a mask of anchors, all or nothing. -/
def anchorCmd (k : Nat) (s : State) : State :=
  s.runHead k 5 (fun _ => true) fun c s =>
    match s.othersAnchor (k / 4) c.anchors with
    | some a => s.answer k 3 (s.anchorDetail a) 0 []
    | none => (s.each c.anchors (fun a t => t.claimAnchor (k / 4) a)).answer k 0 0 0 []
def execAnchor (k : Fin 32) (s : State) : Out := live s (anchorCmd k.val)

/-- RELEASE: releases the sender's anchors in a mask. -/
def releaseCmd (k : Nat) (s : State) : State :=
  s.runHead k 6 (fun _ => true) fun c s =>
    let other := s.othersAnchor (k / 4) c.anchors
    let s' := s.each (c.anchors.filter (s.holds (k / 4))) (fun a t => t.freeAnchor a)
    match other with
    | some a => s'.answer k 0 (s.anchorDetail a) 32 []
    | none => s'.answer k 0 0 0 []
def execReleaseAnchors (k : Fin 32) (s : State) : Out := live s (releaseCmd k.val)

/-- FENCE: starts waiting. -/
def fenceCmd (k : Nat) (s : State) : State := s.runHead k 7 (fun _ => true) (fun _ s => s)
def execFence (k : Fin 32) (s : State) : Out := live s (fenceCmd k.val)

/-- Every earlier command of the named streams has been answered, and none of them is halted. -/
def State.fenceMet (s : State) (k : Nat) (c : Cmd) : Bool :=
  (List.range 4).all (fun i =>
    let j := k / 4 * 4 + i
    j == k || !c.fenceMask.testBit i ||
      ((s.stream j).real != 2 && (s.stream j).queue.all (fun d => !decide (d.acc < c.acc))))
/-- FENCE_COMPLETE: the FENCE is answered. -/
def fenceComplete (k : Nat) (s : State) : State :=
  let st := s.stream k
  match st.queue, st.prog with
  | c :: _, .working =>
    if c.op = 7 ∧ st.state = 1 ∧ !s.bly.stopped ∧ s.fenceMet k c then s.answer k 0 0 0 [] else s
  | _, _ => s
def execFenceComplete (k : Fin 32) (s : State) : Out := live s (fenceComplete k.val)

/-- SWAP: GO starts a lead swap and runs until it ends; CANCEL ends one before its switch. -/
def swapCmd (k : Nat) (s : State) : State :=
  s.runHead k 0xE (fun _ => true) fun c s =>
    let n := c.slot
    let v := c.word 1
    if !s.holds (k / 4) n then s.answer k 2 0 0 []
    else if v.toNat.testBit 7 then
      let r := s.swapRefusal n v
      if r ≠ 0 then (s.swapStart n v).answer k 4 r 0 [BitVec.ofNat 32 r] else s.swapStart n v
    else if s.get (AX_SWAPST_PHASE n) = 0 then s.answer k 4 2 0 []
    else (s.wr (AX_SWAP n) (v &&& 0xFFFFFF3F#32)).swapCancel n
def execSwap (k : Fin 32) (s : State) : Out := live s (swapCmd k.val)

/-! ### Sending (R303, R309, R333, R342, R369) -/

/-- The length on the backbone of a host frame of `words` payload words (R298, R341, R342). -/
def State.hostFrameLen (s : State) (words : Nat) : Nat :=
  max 64 (18 + (if s.bit ETH_VLAN_TAGEN then 4 else 0) + 12 + 4 * words)
/-- The header with which a frame to host `h` is sent on the backbone (R341, R342). -/
def State.ethHead (s : State) (h : Nat) : EthHead :=
  { dst := s.get (HOST_MAC_V h), src := s.get ETH_MAC_V, etype := s.get ETH_HTYPE_V
    tag := if s.bit ETH_VLAN_TAGEN then some (s.get ETH_VLAN_PCP * 8192 + s.get ETH_VLAN_VID) else none }

/-- The port on which a frame to host `h` can be sent now, with room for one of `words` payload words (R309): on a serial
port while the controller clocks words out, and with more than one lane as far as COUNT reaches (R331, R333). -/
def State.sendPort (s : State) (h words : Nat) : Option Nat :=
  let p := s.get (HOST_ST_PORT h)
  if p < 2 then
    let x := s.csp p
    if s.portsRun ∧ s.cspMode p = 2 ∧ s.framed p ∧ x.low ∧ (s.get (CSP_CFG_LANES p) = 0 ∨ (x.phase = 2 ∧ 3 + words ≤ x.left)) then
      some p else none
  else
    let q := if s.linkUp (p - 2) then p - 2 else 3 - p
    if s.linkUp q ∧ s.egressRoom q (s.hostFrameLen words) then some (2 + q)
    else none
/-- COUNT of a read transfer ends inside a frame of `words` payload words to host `h`: the frame is sent again whole in a
later transfer (R333). -/
def State.countEnds (s : State) (h words : Nat) : State :=
  let p := s.get (HOST_ST_PORT h)
  let x := s.csp p
  if p < 2 ∧ x.phase = 2 ∧ x.left < 3 + words then s.setCsp p { x with left := 0 } else s
/-- Send a frame on a port: whole on a serial port; into the egress queue HOSTQ on the backbone. -/
def State.sendOn (s : State) (p : Nat) (f : OutFrame) : State :=
  if p < 2 then { s with sent := s.sent ++ [{ f with port := p }] }.setCsp p { s.csp p with left := (s.csp p).left - (3 + f.words.length) }
  else s.enqueue (p - 2) (s.get ETH_VLAN_HOSTQ) (s.hostFrameLen f.words.length) (.response { f with eth := some (s.ethHead f.host) })

/-- RESPONSE_SEND: the oldest response of stream `k` is sent once its port allows; its slot of stream memory is free. A
reset that waits for it follows (R438). None starts while a handover suspends the stream (R316, R335). -/
def responseSend (k : Nat) (s : State) : State :=
  let st := s.stream k
  if st.state = 3 then s else
  match st.pend with
  | [] => s
  | r :: rest =>
    match s.sendPort (k / 4) r.words.length with
    | none => s.countEnds (k / 4) r.words.length
    | some p =>
      let st := { st with pend := rest }
      let f : OutFrame := { port := p, host := k / 4, stream := k % 4, op := r.op, seq := r.seq, status := r.status
                            cred := min st.devCred 16, words := r.words }
      let s := s.setStream k st
      if r.reset then
        ({ s with sent := s.sent ++ [{ f with port := p, eth := if p < 2 then none else some (s.ethHead (k / 4)) }] }).enterReset 3
      else s.sendOn p f
def execResponseSend (k : Fin 32) (s : State) : Out := live s (responseSend k.val)

/-- NOTIFY (R369, R370): a frame is formed when none waits, and one that waits is sent once its port allows. -/
def notifySend (h : Nat) (s : State) : State :=
  let s := notify h s
  match (s.host h).notifyBusy with
  | none => s
  | some f =>
    match s.sendPort h f.words.length with
    | none => s.countEnds h f.words.length
    | some p => (s.modHost h (fun x => { x with notifyBusy := none })).sendOn p f
def execNotify (h : Fin 8) (s : State) : Out := live s (notifySend h.val)

end Sys2Proof.Machine
end

