-- ==== Sys2Proof/Machine/Images.lean ====
section
/-! DEFINITION. Images, keys, untested images and supervisor handover (20_images.md, R405 to R421). Each command of an IMAGE
or ACCEPT_UNTESTED frame is the head of a stream. -/
namespace Sys2Proof.Machine

/-! ### The frame (R412) -/

/-- SUB, BANK, KIND, INDEX and ARG of word 0. -/
def Cmd.sub (c : Cmd) : Nat := bitsOf (c.word 0).toNat 31 28
def Cmd.bank (c : Cmd) : Nat := bitsOf (c.word 0).toNat 23 23
def Cmd.kind (c : Cmd) : Nat := bitsOf (c.word 0).toNat 22 20
def Cmd.index (c : Cmd) : Nat := if c.kind = 2 then bitsOf (c.word 0).toNat 15 8 else 0
def Cmd.arg (c : Cmd) : Nat := bitsOf (c.word 0).toNat 7 0
/-- The KIND names an area and the INDEX a route (R405, R407). -/
def Cmd.targetOk (c : Cmd) : Bool := decide (1 ≤ c.kind ∧ c.kind ≤ 4 ∧ c.index < 255)

/-- Run the IMAGE sub-operation `sub` at the head of stream `k`. -/
def State.runImage (s : State) (k sub : Nat) (f : Cmd → State → State) : State :=
  s.runHead k 0xD (fun c => c.sub == sub) f

/-! ### Sessions (R413) -/

/-- Host `h` owns the open session. -/
def State.ownsSession (s : State) (h : Nat) : Bool := s.bit IMG_ST_OPEN && s.get IMG_ST_OWNER == h
/-- The target is the one of the open session. -/
def State.sessionTarget (s : State) (c : Cmd) : Bool :=
  s.bit IMG_ST_OPEN && s.get IMG_ST_BANK == c.bank && s.get IMG_ST_KIND == c.kind && s.imgIdx == c.index

/-- Words that an image occupies. -/
def Img.size (x : Img) (i : Nat) : Nat :=
  if x.factory then 33 + (Config.factoryField (i + 1) 4).toNat % 16384 + (Config.factoryField (i + 1) 5).toNat % 8193
  else x.words.length
/-- Words free in the route area of a bank, the route `i` itself not counted (R405, R413). -/
def State.routeRoom (s : State) (bank i : Nat) : Nat :=
  0xA0000 - (((List.range 255).filter (fun j => j != i && (s.img bank 2 j).st != 0)).map (fun j => (s.img bank 2 j).size j)).sum
/-- An image of `words` words fits its target (R405, R407). -/
def State.lengthOk (s : State) (c : Cmd) (words : Nat) : Bool :=
  match c.kind with
  | 1 => decide (words ≤ 0x40000)
  | 2 => decide (words ≤ 24608 ∧ words ≤ s.routeRoom c.bank c.index)
  | _ => decide (words ≤ 0x10000)

/-- An ASSIGNED or IN_SWAP engine has route `i` of the directory loaded, or an engine is loading it (R413, R421). -/
def State.routeInUse (s : State) (i : Nat) : Bool :=
  engines20.any (fun e =>
    ((s.pool e == 1 || s.pool e == 2) && s.bit (KE_STATUS_LOADED e) && s.get (KE_ISA_RIDX e) == i) ||
    (match (s.engine e).loading with | some x => x.1 == i | none => false))
/-- The target is a route index of the running directory. -/
def State.inDirectory (s : State) (c : Cmd) : Bool := c.kind == 2 && c.bank == s.bank && !s.bit BOOT_ST_LOADER
/-- IDLE engines that hold a route index are no longer LOADED (R413). -/
def State.unloadIdle (s : State) (c : Cmd) : State :=
  if s.inDirectory c then
    s.each (engines20.filter (fun e => s.pool e == 0 && s.bit (KE_STATUS_LOADED e) && s.get (KE_ISA_RIDX e) == c.index))
      (fun e t => t.put (KE_STATUS_LOADED e) 0)
  else s

/-- The DETAIL with which BEGIN is refused, 0 when taken (R413, R414). A session of the sender ends first. -/
def State.beginRefusal (s : State) (h : Nat) (c : Cmd) : Nat :=
  let bytes := (c.word 1).toNat
  if s.bit IMG_ST_OPEN ∧ !s.ownsSession h then 1 + 256 * s.get IMG_ST_OWNER
  else if s.get BOOT_ST_HOPHASE ≠ 0 then 8
  else if !c.targetOk then 6
  else if (c.kind = 1 ∧ c.bank = s.bank ∧ !s.bit BOOT_ST_LOADER) ∨ (s.inDirectory c ∧ s.routeInUse c.index) then 3
  else if bytes % 4 ≠ 0 ∨ !s.endSession.lengthOk c (bytes / 4) then 4
  else 0

/-- BEGIN: opens a session and erases its target. -/
def imageBegin (k : Nat) (s : State) : State :=
  s.runImage k 0 fun c s =>
    let h := k / 4
    let r := s.beginRefusal h c
    if r ≠ 0 then s.answer k 4 r 0 []
    else
      let s := (s.endSession.unloadIdle c).storeImg c.bank c.kind c.index { st := 1 }
      let st := 2 ^ 24 * h + 2 ^ 23 + 2 ^ 20 * c.kind + 2 ^ 19 * c.bank
      let s := { (s.wr IMG_ST (BitVec.ofNat 32 st)).wr IMG_LEN (BitVec.ofNat 32 ((c.word 1).toNat / 4)) with imgIdx := c.index }
      s.answer k 0 0 0 []
def execBegin (k : Fin 32) (s : State) : Out := live s (imageBegin k.val)

/-- The image of the open session. -/
def State.sessionImg (s : State) : Img := s.img (s.get IMG_ST_BANK) (s.get IMG_ST_KIND) s.imgIdx

/-- DATA: writes image words at OFFSET. -/
def imageData (k : Nat) (s : State) : State :=
  s.runImage k 1 fun c s =>
    let ws := c.words.drop 1
    let got := s.get IMG_ST_WORDS
    if !s.ownsSession (k / 4) then s.answer k 4 2 0 []
    else if bitsOf (c.word 0).toNat 23 0 ≠ got ∨ s.get IMG_LEN_V < got + ws.length then s.answer k 4 5 0 []
    else
      let x := s.sessionImg
      let s := s.setImg (s.get IMG_ST_BANK) (s.get IMG_ST_KIND) s.imgIdx { x with words := x.words ++ ws }
      (s.put IMG_ST_WORDS (got + ws.length)).answer k 0 0 0 []
def execData (k : Fin 32) (s : State) : Out := live s (imageData k.val)

/-- The first check that a session's image fails at COMMIT, 0 when none (R408, R414). In the ROM loader no supervisor
firmware runs, and check 5 has nothing to compare with. -/
def State.commitCheck (s : State) (kind : Nat) (x : Img) : Nat :=
  if s.get IMG_ST_WORDS ≠ s.get IMG_LEN_V then 1
  else
    let r := s.checkImage kind x
    if r ≠ 0 ∧ !(r = 5 ∧ s.bit BOOT_ST_LOADER) then r
    else if kind = 2 ∧ !routeFieldsOk x then 6
    else 0

/-- COMMIT: checks the image; it is valid, or the target stays erased. -/
def imageCommit (k : Nat) (s : State) : State :=
  s.runImage k 2 fun _ s =>
    if !s.ownsSession (k / 4) then s.answer k 4 2 0 []
    else
      let bank := s.get IMG_ST_BANK
      let kind := s.get IMG_ST_KIND
      let x := s.sessionImg
      let r := s.commitCheck kind x
      if r ≠ 0 then s.endSession.answer k 5 r 0 []
      else
        let y : Img := { st := 2, untested := !x.listed, words := x.words }
        ((s.put IMG_ST_OPEN 0).storeImg bank kind s.imgIdx y).answer k 0 0 0 [if y.untested then 1 else 0]
def execCommit (k : Fin 32) (s : State) : Out := live s (imageCommit k.val)

/-- ABORT: the session ends, its target erased. -/
def imageAbort (k : Nat) (s : State) : State :=
  s.runImage k 3 fun _ s =>
    if s.ownsSession (k / 4) then s.endSession.answer k 0 0 0 [] else s.answer k 4 2 0 []
def execAbort (k : Fin 32) (s : State) : Out := live s (imageAbort k.val)

/-- ERASE: erases the named image. -/
def imageErase (k : Nat) (s : State) : State :=
  s.runImage k 4 fun c s =>
    if !c.targetOk then s.answer k 4 6 0 []
    else if (s.inDirectory c ∧ s.routeInUse c.index) ∨ s.sessionTarget c then s.answer k 4 3 0 []
    else ((s.unloadIdle c).storeImg c.bank c.kind c.index {}).answer k 0 0 0 []
def execErase (k : Fin 32) (s : State) : Out := live s (imageErase k.val)

/-- SETFLAG: BOOTFLAG becomes a bank that holds a valid SFW. -/
def imageSetflag (k : Nat) (s : State) : State :=
  s.runImage k 5 fun c s =>
    if (s.img c.bank 1 0).st = 2 then (s.put BOOT_ST_FLAG c.bank).answer k 0 0 0 [] else s.answer k 4 6 0 []
def execSetflag (k : Fin 32) (s : State) : Out := live s (imageSetflag k.val)

/-! ### APPLY (R419) -/

/-- The record of an image is skipped by APPLY of a CAL image: the sense registers of a driven slot's channels, and the
housekeeping converter while it refuses writes. -/
def State.applySkips (s : State) (kind a : Nat) : Bool :=
  kind == 3 && ((decide (0x284000 ≤ a ∧ a < 0x284400) && s.chanUsed ((a - 0x284000) / 0x20)) ||
    (decide (0x288000 ≤ a ∧ a < 0x28C000) && !s.hkcStoppedNow))
/-- The bits of a word that a write can set. -/
def writable (a : Nat) : Word :=
  match findReg a with | some h => BitVec.ofNat 32 (halfOf h (h.row.rw ||| h.row.rwa)) | none => 0
/-- A supervisor write of `v` that led from `s` to `t` was refused: the word is no register, or its bits did not take
the value and nothing but registers changed. -/
def writeRefused (s t : State) (a : Nat) (v : Word) : Bool :=
  (findReg a).isNone ||
  ((t.rd a ^^^ v) &&& writable a != 0 && decide (({ t with regs := s.regs } : State) = s))
/-- One record of a CAL or TOPO image. -/
def applyRecord (kind : Nat) (r : Nat × Word) (s : State) : State :=
  let a := r.1
  if s.applySkips kind a then s.inc IMG_APPLYREF_V
  else
    match winAt a with
    | some (x, base, _) =>
      let u := winWrite .supervisor x a ((a - base) / 4) r.2 s
      if u.1 ≠ 0 then u.2.inc IMG_APPLYREF_V else u.2
    | none =>
      let t := regWrite .supervisor a r.2 s
      if writeRefused s t a r.2 then t.inc IMG_APPLYREF_V else t
/-- The records of a CAL or TOPO image: address and value. -/
def Img.records (x : Img) : List (Nat × Word) :=
  let body := (x.words.drop 16).take (x.words.length - 32)
  (List.range (body.length / 2)).map (fun i => ((body.getD (2 * i) 0).toNat % 2 ^ 24, body.getD (2 * i + 1) 0))
/-- Write every record in order. -/
def State.applyImage (s : State) (kind : Nat) (x : Img) : State := s.each x.records (applyRecord kind)

/-- APPLY: writes each record of the CAL or TOPO image of the running bank. -/
def imageApply (k : Nat) (s : State) : State :=
  s.runImage k 7 fun c s =>
    let x := s.img c.bank c.kind 0
    if s.bit BOOT_ST_LOADER ∨ c.kind < 3 ∨ 4 < c.kind ∨ c.bank ≠ s.bank ∨ x.st ≠ 2 then s.answer k 4 6 0 []
    else (s.applyImage c.kind x).finishWrite k c 0 []
def execImageApply (k : Fin 32) (s : State) : Out := live s (imageApply k.val)

/-! ### Keys (R412) -/

/-- A new IMG_NONCE is drawn. -/
def State.newImgNonce (s : State) : State := (s.wr64 IMG_NONCE (Config.nonce s.drawn).toNat).draw
/-- Program consecutive OTP words. -/
def State.programOtp (s : State) : Nat → List Word → State
  | _, [] => s
  | i, w :: ws => ({ s with otp := tabSet otpReset s.otp i w }).programOtp (i + 1) ws
/-- The message that KEYPROG and REVOKE sign: nonce, SUB, target slot and, for KEYPROG, the key. -/
def keyMessage (nonce sub slot : Nat) (key : List Word) : List Byte :=
  bytes64 nonce ++ [BitVec.ofNat 8 sub, BitVec.ofNat 8 slot] ++ key.flatMap storedBytes
/-- The target slot and the signer. -/
def Cmd.keySlot (c : Cmd) : Nat := c.arg % 4
def Cmd.signer (c : Cmd) : Nat := bitsOf c.arg 5 4

/-- KEYPROG: programs a blank key slot. -/
def imageKeyprog (k : Nat) (s : State) : State :=
  s.runImage k 8 fun c s =>
    let key := (c.words.drop 1).take 8
    let ok := Config.ed25519Ok (s.keyWords c.signer) (keyMessage (s.rd64 IMG_NONCE) 8 c.keySlot key) (c.words.drop 9)
    if s.keyProgrammed c.keySlot ∨ !s.keyUsable c.signer then s.newImgNonce.answer k 4 7 0 []
    else if !ok then s.newImgNonce.answer k 5 8 0 []
    else (s.programOtp (0x40 + 8 * c.keySlot) key).newImgNonce.answer k 0 0 0 []
def execKeyprog (k : Fin 32) (s : State) : Out := live s (imageKeyprog k.val)

/-- Some slot other than `slot` may sign. -/
def State.keyLeft (s : State) (slot : Nat) : Bool := (List.range 4).any (fun i => i != slot && s.keyUsable i)
/-- REVOKE: revokes a key slot. -/
def imageRevoke (k : Nat) (s : State) : State :=
  s.runImage k 9 fun c s =>
    let ok := Config.ed25519Ok (s.keyWords c.signer) (keyMessage (s.rd64 IMG_NONCE) 9 c.keySlot []) (c.words.drop 1)
    if !s.keyUsable c.signer ∨ !s.keyLeft c.keySlot then s.newImgNonce.answer k 4 7 0 []
    else if !ok then s.newImgNonce.answer k 5 8 0 []
    else (s.programOtp 0x60 [s.otpWord 0x60 ||| BitVec.ofNat 32 (2 ^ c.keySlot)]).newImgNonce.answer k 0 0 0 []
def execRevoke (k : Fin 32) (s : State) : Out := live s (imageRevoke k.val)

/-- The accept key of OTP (R406). -/
def State.acceptKey (s : State) : List Word := (List.range 8).map (fun i => s.otpWord (0x88 + i))
/-- SECPROG: programs a blank secret key, in the ROM loader only. -/
def imageSecprog (k : Nat) (s : State) : State :=
  s.runImage k 10 fun c s =>
    let accept := c.arg % 2 == 1
    if !s.bit BOOT_ST_LOADER then s.answer k 4 6 0 []
    else if (if accept then s.acceptKey else s.clearKey).any (· ≠ 0) then s.answer k 4 7 0 []
    else (s.programOtp (if accept then 0x88 else 0x80) (c.words.drop 1)).answer k 0 0 0 []
def execSecprog (k : Fin 32) (s : State) : Out := live s (imageSecprog k.val)

/-! ### Accepting untested images (R415) -/

/-- The DETAIL with which ACCEPT_UNTESTED is refused, 0 when taken. -/
def State.acceptRefusal (s : State) (h : Nat) (c : Cmd) : Nat :=
  let nonce := s.rd64 IMG_NONCE
  if s.acceptKey.all (· == 0) then 3
  else if (c.word 0).toNat * 2 ^ 32 + (c.word 1).toNat ≠ nonce then 1
  else if words128 (c.words.drop 2) ≠ Config.hmacTag s.acceptKey (clearMessage nonce h 0xF) then 2
  else 0
/-- Every route marked UNTESTED is ACCEPTED. -/
def State.acceptRoutes (s : State) : State :=
  let f (x : Nat × Img) : Nat × Img :=
    if 512 ≤ x.1 % 2048 ∧ x.1 % 2048 < 768 ∧ x.2.st = 2 ∧ x.2.untested then (x.1, { x.2 with accepted := true }) else x
  { s with flash := s.flash.map f }.syncDirectory
/-- ACCEPT_UNTESTED. -/
def acceptUntested (k : Nat) (s : State) : State :=
  s.runHead k 0xF (fun _ => true) fun c s =>
    let r := s.acceptRefusal (k / 4) c
    if r ≠ 0 then ((s.inc IMG_ACCFAIL_V).newImgNonce).answer k 4 r 0 []
    else ((s.acceptRoutes.put BOOT_ST_QUAR 0).put BOOT_ST_ACCEPTED 1).newImgNonce.answer k 0 0 0 []
def execAcceptUntested (k : Fin 32) (s : State) : Out := live s (acceptUntested k.val)

/-! ### Supervisor handover (R416, R417) -/

/-- HANDOVER: the standby core restarts with the SFW of a bank. One begun while the standby core restarts after its
watchdog fails (R437). -/
def imageHandover (k : Nat) (s : State) : State :=
  s.runImage k 6 fun c s =>
    if s.bit BOOT_ST_LOADER then s.answer k 4 6 0 []
    else if s.get BOOT_ST_HOPHASE ≠ 0 ∨ s.bit IMG_ST_OPEN ∨ (!s.bit BOOT_ST_STBYOK ∧ !s.hoDead) then s.answer k 4 8 0 []
    else
      let s := (s.put BOOT_ST_HOPHASE 1).put BOOT_ST_STBYOK 0
      { s with hoCmd := some (k, c.bank, c.arg % 2 == 1) }
def execHandover (k : Fin 32) (s : State) : Out := live s (imageHandover k.val)

/-- Execution is suspended in every stream (R316). -/
def State.suspend (s : State) : State :=
  s.each streams32 (fun k t => t.modStream k (fun st => if st.state = 3 then st else { st with heldState := st.state, state := 3 }))
/-- Execution resumes at the states held, the control frames held are taken, and the host-loss timers start from zero. -/
def State.resumeStreams (s : State) : State :=
  let s := s.each streams32 (fun k t => t.modStream k (fun st => if st.state = 3 then { st with state := st.heldState, heldState := 0 } else st))
  let s := s.each hosts8 (fun h t => t.modHost h (fun x => { x with lastFrame := s.now }))
  let s := s.each streams32 (fun k t =>
    match (t.stream k).ctrl with
    | some (op, seq, stray) => (t.modStream k (fun st => { st with ctrl := none })).control k op seq (stray != 0)
    | none => t)
  s.each streams32 (fun k t => t.reachHead k)
/-- The HANDOVER command of stream `k` is answered. -/
def State.answerHandover (s : State) (k status detail : Nat) (ws : List Word) : State :=
  match (s.stream k).queue, (s.stream k).prog with
  | c :: _, .working => if c.op = 0xD ∧ c.sub = 6 then s.answer k status detail 0 ws else s
  | _, _ => s
/-- A handover fails (R417): the old core goes on and the standby core restarts with the running SFW. -/
def State.failHandover (s : State) (k : Nat) : State :=
  let s := ((s.put BOOT_ST_HOPHASE 0).put BOOT_ST_STBYOK 0).inc IMG_HOCNT_FAIL
  let s := { s with hoCmd := none, hoDead := false }
  s.resumeStreams.answerHandover k 5 7 []

/-- The SFW of a bank may take over: it passes R408 and accepts the running epoch. -/
def State.mayTakeOver (s : State) (bank : Nat) : Bool :=
  let x := s.img bank 1 0
  x.st == 2 && s.checkImage 1 x == 0 && decide (x.simin ≤ s.get SFW_EPOCH_SIEPOCH ∧ s.get SFW_EPOCH_SIEPOCH ≤ x.siepoch)

/-- HANDOVER_READY: the standby has checked its SFW; the streams are suspended, or the handover fails. -/
def handoverReady (s : State) : State :=
  match s.hoCmd with
  | some (k, bank, _) =>
    if s.get BOOT_ST_HOPHASE ≠ 1 ∨ s.hoDead then s
    else if !s.mayTakeOver bank then s.failHandover k
    else { ((s.put BOOT_ST_STBYOK 1).put BOOT_ST_HOPHASE 2).suspend with hoAt := s.now }
  | none => s
def execHandoverReady (s : State) : Out := live s handoverReady

/-- The supervisor firmware of `bank` runs: its version, epochs and directory (R416, R420). -/
def State.runSfw (s : State) (bank : Nat) : State :=
  let x := s.img bank 1 0
  let s := (s.put BOOT_ST_BANK bank).wr SFW_VER (BitVec.ofNat 32 x.version)
  ((s.put SFW_EPOCH_SIMIN x.simin).put SFW_EPOCH_SIEPOCH x.siepoch).syncDirectory

/-- HANDOVER_SWITCH: the standby takes the active role, within 45 ms of the suspension. -/
def handoverSwitch (s : State) : State :=
  match s.hoCmd with
  | some (k, bank, persist) =>
    if s.get BOOT_ST_HOPHASE ≠ 2 ∨ s.hoDead ∨ !s.bit BOOT_ST_STBYOK ∨ s.hoAt + 45000000 < s.now then s
    else
      let s := (s.put BOOT_ST_ACTIVE (1 - s.get BOOT_ST_ACTIVE)).runSfw bank
      let s := if persist then s.put BOOT_ST_FLAG bank else s
      let s := ((s.put BOOT_ST_HOPHASE 0).put BOOT_ST_STBYOK 0).inc IMG_HOCNT_DONE
      let s := { s with hoCmd := none }
      s.resumeStreams.answerHandover k 0 0 [BitVec.ofNat 32 (s.get SFW_EPOCH_SIEPOCH)]
  | none => s
def execHandoverSwitch (s : State) : Out := live s handoverSwitch

/-- HANDOVER_TIMEOUT: no switch within 45 ms of the suspension; a sag or an S4 reaction abandons it as well. -/
def handoverTimeout (s : State) : State :=
  match s.hoCmd with
  | some (k, _, _) =>
    if s.hoDead then s.failHandover k
    else if s.get BOOT_ST_HOPHASE = 2 then ({ s with now := max s.now (s.hoAt + 45000000) }).failHandover k
    else s
  | none => s
def execHandoverTimeout (s : State) : Out := live s handoverTimeout

end Sys2Proof.Machine
end

