-- ==== Sys2Proof/Machine/Boot.lean ====
section
/-! DEFINITION. The release of reset and the boot sequence (20_images.md, R403 to R411; R398). -/
namespace Sys2Proof.Machine

/-- The straps as latched (R403, R404). -/
def latchedStraps (p : StrapPins) : Straps :=
  { boot := p.boot.val, hostif := p.hostif.val, gdm := p.gdm.toNat, safe := p.safe, untested := p.untested, node := p.node.val
    cspw := p.cspw }

/-- The start of a boot (steps 1 and 2 of R409): every register at its reset value under the straps, but for what the
state store and the base camp domain keep; both nonces drawn; no route ACCEPTED. -/
def State.bootStart (s : State) (p : Straps) : State :=
  let flash := s.flash.map (fun (x : Nat × Img) => (x.1, { x.2 with accepted := false }))
  let r : State := { straps := p, pending := s.pending, flash := flash, otp := s.otp, drawn := s.drawn, safeoff := s.safeoff
                     sent := s.sent, log := { tail := s.log.tail }, bly := s.bly }
  let r := (r.wr RST_CAUSE (s.rd RST_CAUSE)).wr RST_CNT (s.rd RST_CNT)
  let r := ((r.wr BOOT_ST 0).put BOOT_ST_FLAG (s.get BOOT_ST_FLAG)).wr ENG_RET (s.rd ENG_RET)
  let r := (r.wr BLY_SAVECNT (BitVec.ofNat 32 s.bly.saveCount)).wr BLY_USED (BitVec.ofNat 32 s.bly.used)
  let r := r.each groups4 (fun g t => t.flag (GD_STAT_SAFEOFF g) s.safeoff)   -- R220
  let r := (r.flag BLY_ST_CUTSEEN s.bly.cut).newImgNonce.newLogNonce
  r.each (engines20.filter (fun e => (s.rd ENG_RET).toNat.testBit e)) (fun e t => t.put (KE_STATUS_POOL e) 3)

/-- The refusal reason of a bank's SFW, 1 when accepted (R408, R410). -/
def State.bankReason (s : State) (bank : Nat) : Nat :=
  let x := s.img bank 1 0
  if x.st ≠ 2 then 2 else match s.checkImage 1 x with | 0 => 1 | r => r + 1
/-- The reason of a bank is recorded. -/
def State.setReason (s : State) (bank : Nat) : State :=
  s.put (if bank = 0 then BOOT_ST_REFA else BOOT_ST_REFB) (s.bankReason bank)
/-- The banks that the BOOT straps try, in order (step 4 of R409). -/
def State.bootBanks (s : State) : List Nat :=
  match s.straps.boot with
  | 0 => [s.get BOOT_ST_FLAG, 1 - s.get BOOT_ST_FLAG]
  | 1 => [0]
  | 2 => [1]
  | _ => []
/-- Try the banks in order until one is accepted. -/
def State.tryBanks : List Nat → State → State × Option Nat
  | [], s => (s, none)
  | b :: bs, s => let s := s.setReason b; if s.bankReason b = 1 then (s, some b) else State.tryBanks bs s

/-- The ROM loader (R411): no supervisor firmware, no directory, the Ethernet ports off, CSP0 a slave bound to H0 alone. -/
def State.enterLoader (s : State) : State :=
  let s := (s.put BOOT_ST_LOADER 1).wr SFW_VER 0 |>.wr SFW_EPOCH 0
  let s := s.each (List.range 255) (fun i t => t.wr (RDIR i) 0)
  let s := (s.put (ETH_CFG_EN 0) 0).put (ETH_CFG_EN 1) 0
  let s := s.each hosts8 (fun h t => t.put (HOST_CFG_SRC h) (if h = 0 then 1 else 0))
  s.put (CSP_CFG_MODE 0) 2

/-- Apply the CAL or TOPO image of the running bank (step 7 of R409); a failing one is skipped, an erased area does
nothing. -/
def State.bootApply (s : State) (kind : Nat) : State :=
  let x := s.img s.bank kind 0
  if x.st ≠ 2 then s
  else if s.checkImage kind x = 0 then s.applyImage kind x
  else s.put (if kind = 3 then BOOT_ST_CALSKIP else BOOT_ST_TOPOSKIP) 1

/-- The device starts in quarantine (R408): its SFW or an applied CAL or TOPO is UNTESTED, or a route of the directory is
UNTESTED, which no acceptance covers after a reset. -/
def State.quarantined (s : State) : Bool :=
  let b := s.bank
  (s.img b 1 0).untested || ((s.img b 3 0).untested && !s.bit BOOT_ST_CALSKIP) || ((s.img b 4 0).untested && !s.bit BOOT_ST_TOPOSKIP) ||
  (List.range 255).any (fun i => (s.dirImg i).st == 2 && (s.dirImg i).untested)

/-- Steps 3 to 10 of R409. -/
def State.boot (s : State) : State :=
  match State.tryBanks s.bootBanks s with
  | (s, none) => s.enterLoader.logBoot false
  | (s, some b) =>
    let s := s.runSfw b
    let s := (s.bootApply 3).bootApply 4
    let found := s.restorable.isSome
    let s := (s.restore.logBoot found)
    s.flag BOOT_ST_QUAR s.quarantined

/-- RESET_RELEASE (R409): reset is released with these strap levels, and the boot runs until hosts are served. -/
def resetRelease (p : StrapPins) (s : State) : State :=
  if s.power ≠ .inReset then s else ((s.bootStart (latchedStraps p)).boot).takeReset
def execResetRelease (p : StrapPins) (s : State) : Out := always s (resetRelease p)

end Sys2Proof.Machine
end

