-- ==== Sys2Proof/Machine/Dispatch.lean ====
section
/-! DEFINITION. The dispatch of the commands: one arm per constructor of `Instr`, each a direct call of its meaning. -/
namespace Sys2Proof.Machine

def exec (i : Instr) (s : State) : Host.Outcome State Fault Refusal :=
  match i with
  | .cellTick => Sys2Proof.Machine.execCellTick s
  | .tickPeriodChange => Sys2Proof.Machine.execTickPeriodChange s
  | .tickusWrite v => Sys2Proof.Machine.execTickusWrite v s
  | .carrierValley g dev => Sys2Proof.Machine.execCarrierValley g dev s
  | .carrierPeak g => Sys2Proof.Machine.execCarrierPeak g s
  | .counterStart g => Sys2Proof.Machine.execCounterStart g s
  | .refreshInsert c => Sys2Proof.Machine.execRefreshInsert c s
  | .enginePassStart e => Sys2Proof.Machine.execEnginePassStart e s
  | .bindWrite w n v => Sys2Proof.Machine.execBindWrite w n v s
  | .engselWrite w n v => Sys2Proof.Machine.execEngselWrite w n v s
  | .energise w n => Sys2Proof.Machine.execEnergise w n s
  | .deenergise w n => Sys2Proof.Machine.execDeenergise w n s
  | .clear w n => Sys2Proof.Machine.execClear w n s
  | .svcOut w n => Sys2Proof.Machine.execSvcOut w n s
  | .svcIn w n phys => Sys2Proof.Machine.execSvcIn w n phys s
  | .shutdownComplete n => Sys2Proof.Machine.execShutdownComplete n s
  | .mcfgWrite w n v => Sys2Proof.Machine.execMcfgWrite w n v s
  | .pitchOffer w n v => Sys2Proof.Machine.execPitchOffer w n v s
  | .pitchStart n => Sys2Proof.Machine.execPitchStart n s
  | .flush w n => Sys2Proof.Machine.execFlush w n s
  | .go w n => Sys2Proof.Machine.execGo w n s
  | .setpointOffer w n v => Sys2Proof.Machine.execSetpointOffer w n v s
  | .setpointHoldoverExpiry n => Sys2Proof.Machine.execSetpointHoldoverExpiry n s
  | .load w n => Sys2Proof.Machine.execLoad w n s
  | .gearLoadApply n => Sys2Proof.Machine.execGearLoadApply n s
  | .stepPulse n => Sys2Proof.Machine.execStepPulse n s
  | .ccCfgWrite w n v => Sys2Proof.Machine.execCcCfgWrite w n v s
  | .ofscal w n => Sys2Proof.Machine.execOfscal w n s
  | .kcal w n => Sys2Proof.Machine.execKcal w n s
  | .align w n => Sys2Proof.Machine.execAlign w n s
  | .calibrationDone n r notReached => Sys2Proof.Machine.execCalibrationDone n r notReached s
  | .apply w n hold => Sys2Proof.Machine.execApply w n hold s
  | .stagedApplyTake n => Sys2Proof.Machine.execStagedApplyTake n s
  | .holdDlyExpiry n => Sys2Proof.Machine.execHoldDlyExpiry n s
  | .holding n => Sys2Proof.Machine.execHolding n s
  | .brakeReleaseStart n => Sys2Proof.Machine.execBrakeReleaseStart n s
  | .brakePullEnd n => Sys2Proof.Machine.execBrakePullEnd n s
  | .brakeEngageEnd n => Sys2Proof.Machine.execBrakeEngageEnd n s
  | .searchLock n => Sys2Proof.Machine.execSearchLock n s
  | .polarityDone n tp tn => Sys2Proof.Machine.execPolarityDone n tp tn s
  | .searchTimeout n => Sys2Proof.Machine.execSearchTimeout n s
  | .forcedAlignEnd n => Sys2Proof.Machine.execForcedAlignEnd n s
  | .injectionOff n => Sys2Proof.Machine.execInjectionOff n s
  | .stallRearm n => Sys2Proof.Machine.execStallRearm n s
  | .model n => Sys2Proof.Machine.execModel n s
  | .autoclReturn n => Sys2Proof.Machine.execAutoclReturn n s
  | .prCfgWrite w n v => Sys2Proof.Machine.execPrCfgWrite w n v s
  | .prParamWrite w n j v => Sys2Proof.Machine.execPrParamWrite w n j v s
  | .research w n => Sys2Proof.Machine.execResearch w n s
  | .resumecl w n => Sys2Proof.Machine.execResumecl w n s
  | .ident w n => Sys2Proof.Machine.execIdent w n s
  | .identDone n rw ld lq notReached => Sys2Proof.Machine.execIdentDone n rw ld lq notReached s
  | .eccUncorrectable site => Sys2Proof.Machine.execEccUncorrectable site s
  | .emergencyGap n => Sys2Proof.Machine.execEmergencyGap n s
  | .emergencyTakeover n => Sys2Proof.Machine.execEmergencyTakeover n s
  | .programMemoryWrite e j v => Sys2Proof.Machine.execProgramMemoryWrite e j v s
  | .dataMemoryWrite e j v => Sys2Proof.Machine.execDataMemoryWrite e j v s
  | .engineLoad w e route => Sys2Proof.Machine.execEngineLoad w e route s
  | .loadDone e => Sys2Proof.Machine.execLoadDone e s
  | .start w e => Sys2Proof.Machine.execStart w e s
  | .haltAction w e => Sys2Proof.Machine.execHaltAction w e s
  | .traceArm e => Sys2Proof.Machine.execTraceArm e s
  | .traceStop e => Sys2Proof.Machine.execTraceStop e s
  | .traceForce e => Sys2Proof.Machine.execTraceForce e s
  | .traceDone e => Sys2Proof.Machine.execTraceDone e s
  | .swapGo w n v => Sys2Proof.Machine.execSwapGo w n v s
  | .swapCancel w n v => Sys2Proof.Machine.execSwapCancel w n v s
  | .swapLoadDone n => Sys2Proof.Machine.execSwapLoadDone n s
  | .waitckpTimeout n => Sys2Proof.Machine.execWaitckpTimeout n s
  | .shadowMismatchEnd n => Sys2Proof.Machine.execShadowMismatchEnd n s
  | .switch n => Sys2Proof.Machine.execSwitch n s
  | .swapRelease n => Sys2Proof.Machine.execSwapRelease n s
  | .unretire e => Sys2Proof.Machine.execUnretire e s
  | .unretireDone e => Sys2Proof.Machine.execUnretireDone e s
  | .retire e => Sys2Proof.Machine.execRetire e s
  | .add e => Sys2Proof.Machine.execAdd e s
  | .sub e => Sys2Proof.Machine.execSub e s
  | .and e => Sys2Proof.Machine.execAnd e s
  | .or e => Sys2Proof.Machine.execOr e s
  | .xor e => Sys2Proof.Machine.execXor e s
  | .shl e => Sys2Proof.Machine.execShl e s
  | .shr e => Sys2Proof.Machine.execShr e s
  | .sar e => Sys2Proof.Machine.execSar e s
  | .mul e => Sys2Proof.Machine.execMul e s
  | .mulh e => Sys2Proof.Machine.execMulh e s
  | .min e => Sys2Proof.Machine.execMin e s
  | .max e => Sys2Proof.Machine.execMax e s
  | .cmp e => Sys2Proof.Machine.execCmp e s
  | .ld e => Sys2Proof.Machine.execLd e s
  | .st e => Sys2Proof.Machine.execSt e s
  | .ldi e => Sys2Proof.Machine.execLdi e s
  | .ldiH e => Sys2Proof.Machine.execLdiH e s
  | .bld e => Sys2Proof.Machine.execBld e s
  | .bst e => Sys2Proof.Machine.execBst e s
  | .bmac e => Sys2Proof.Machine.execBmac e s
  | .bmsu e => Sys2Proof.Machine.execBmsu e s
  | .bacc e => Sys2Proof.Machine.execBacc e s
  | .bnorm e => Sys2Proof.Machine.execBnorm e s
  | .bscale e => Sys2Proof.Machine.execBscale e s
  | .bsat e => Sys2Proof.Machine.execBsat e s
  | .bsatV e => Sys2Proof.Machine.execBsatV e s
  | .bint e => Sys2Proof.Machine.execBint e s
  | .bcvt e => Sys2Proof.Machine.execBcvt e s
  | .sincos e => Sys2Proof.Machine.execSincos e s
  | .atan2 e => Sys2Proof.Machine.execAtan2 e s
  | .sqrt e => Sys2Proof.Machine.execSqrt e s
  | .rcp e => Sys2Proof.Machine.execRcp e s
  | .br e => Sys2Proof.Machine.execBr e s
  | .call e => Sys2Proof.Machine.execCall e s
  | .ret e => Sys2Proof.Machine.execRet e s
  | .loop e => Sys2Proof.Machine.execLoop e s
  | .wait e => Sys2Proof.Machine.execWait e s
  | .halt e => Sys2Proof.Machine.execHalt e s
  | .trap e => Sys2Proof.Machine.execTrap e s
  | .rdi e => Sys2Proof.Machine.execRdi e s
  | .rdiW e => Sys2Proof.Machine.execRdiW e s
  | .rdv e => Sys2Proof.Machine.execRdv e s
  | .rdf e => Sys2Proof.Machine.execRdf e s
  | .pos e => Sys2Proof.Machine.execPos e s
  | .pit e => Sys2Proof.Machine.execPit e s
  | .pitLvl e => Sys2Proof.Machine.execPitLvl e s
  | .wrv e => Sys2Proof.Machine.execWrv e s
  | .wra e => Sys2Proof.Machine.execWra e s
  | .cap e => Sys2Proof.Machine.execCap e s
  | .trc e => Sys2Proof.Machine.execTrc e s
  | .flt e => Sys2Proof.Machine.execFlt e s
  | .evt e => Sys2Proof.Machine.execEvt e s
  | .sgn e => Sys2Proof.Machine.execSgn e s
  | .sgnR e => Sys2Proof.Machine.execSgnR e s
  | .mailboxDelivery e => Sys2Proof.Machine.execMailboxDelivery e s
  | .ckp e => Sys2Proof.Machine.execCkp e s
  | .mfs e => Sys2Proof.Machine.execMfs e s
  | .mts e => Sys2Proof.Machine.execMts e s
  | .pwmgConfigWrite g r v => Sys2Proof.Machine.execPwmgConfigWrite g r v s
  | .shortCircuitTrip c iH iL => Sys2Proof.Machine.execShortCircuitTrip c iH iL s
  | .vhUndervoltageTrip c v blocked => Sys2Proof.Machine.execVhUndervoltageTrip c v blocked s
  | .vgdUndervoltageTrip g v => Sys2Proof.Machine.execVgdUndervoltageTrip g v s
  | .overTemperatureTrip g v => Sys2Proof.Machine.execOverTemperatureTrip g v s
  | .monitoredDecision c iH iL => Sys2Proof.Machine.execMonitoredDecision c iH iL s
  | .safeoffNLow => Sys2Proof.Machine.execSafeoffNLow s
  | .safeoffNHigh => Sys2Proof.Machine.execSafeoffNHigh s
  | .gdCfgWrite g v => Sys2Proof.Machine.execGdCfgWrite g v s
  | .scthrWrite g k v => Sys2Proof.Machine.execScthrWrite g k v s
  | .cmpScfWrite c v => Sys2Proof.Machine.execCmpScfWrite c v s
  | .windowExcursion x v => Sys2Proof.Machine.execWindowExcursion x v s
  | .windowReturn m v => Sys2Proof.Machine.execWindowReturn m v s
  | .monFiltWrite v => Sys2Proof.Machine.execMonFiltWrite v s
  | .monThrWrite x v => Sys2Proof.Machine.execMonThrWrite x v s
  | .decimatedOutput c iH iL each rH rL => Sys2Proof.Machine.execDecimatedOutput c iH iL each rH rL s
  | .decCfgWrite c v => Sys2Proof.Machine.execDecCfgWrite c v s
  | .decSettled c => Sys2Proof.Machine.execDecSettled c s
  | .busWinWrite g v => Sys2Proof.Machine.execBusWinWrite g v s
  | .hkcRun run => Sys2Proof.Machine.execHkcRun run s
  | .isw => Sys2Proof.Machine.execIsw s
  | .hkcInjectedTrigger => Sys2Proof.Machine.execHkcInjectedTrigger s
  | .hkcConversionDone k => Sys2Proof.Machine.execHkcConversionDone k s
  | .ridxWrite v => Sys2Proof.Machine.execRidxWrite v s
  | .hkcRefWrite v => Sys2Proof.Machine.execHkcRefWrite v s
  | .refSettled => Sys2Proof.Machine.execRefSettled s
  | .hkcCalGo => Sys2Proof.Machine.execHkcCalGo s
  | .hkcCalibrationDone o0 g0 o1 g1 o2 g2 o3 g3 => Sys2Proof.Machine.execHkcCalibrationDone o0 g0 o1 g1 o2 g2 o3 g3 s
  | .hkcConfigWrite off v => Sys2Proof.Machine.execHkcConfigWrite off v s
  | .quadratureCount p a b => Sys2Proof.Machine.execQuadratureCount p a b s
  | .zLatch p z => Sys2Proof.Machine.execZLatch p z s
  | .magneticSwitchCount p u v w => Sys2Proof.Machine.execMagneticSwitchCount p u v w s
  | .ssiFrameDone p raw => Sys2Proof.Machine.execSsiFrameDone p raw s
  | .fbConfigWrite p r v => Sys2Proof.Machine.execFbConfigWrite p r v s
  | .stepInputPulse j onDir rising dir => Sys2Proof.Machine.execStepInputPulse j onDir rising dir s
  | .siCfgWrite j v => Sys2Proof.Machine.execSiCfgWrite j v s
  | .soCfgWrite o v => Sys2Proof.Machine.execSoCfgWrite o v s
  | .captureEdge k rising => Sys2Proof.Machine.execCaptureEdge k rising s
  | .release k => Sys2Proof.Machine.execRelease k s
  | .arm q => Sys2Proof.Machine.execArm q s
  | .disarm q => Sys2Proof.Machine.execDisarm q s
  | .force q => Sys2Proof.Machine.execForce q s
  | .compareFire q t => Sys2Proof.Machine.execCompareFire q t s
  | .comparePulseEnd q => Sys2Proof.Machine.execComparePulseEnd q s
  | .pcoConfigWrite q r v => Sys2Proof.Machine.execPcoConfigWrite q r v s
  | .frameReceive port => Sys2Proof.Machine.execFrameReceive port s
  | .read k => Sys2Proof.Machine.execRead k s
  | .write k => Sys2Proof.Machine.execWrite k s
  | .rmw k => Sys2Proof.Machine.execRmw k s
  | .pitch k => Sys2Proof.Machine.execPitch k s
  | .setpoint k => Sys2Proof.Machine.execSetpoint k s
  | .ctrl k => Sys2Proof.Machine.execCtrl k s
  | .qctrl k => Sys2Proof.Machine.execQctrl k s
  | .commandRoomFreed k => Sys2Proof.Machine.execCommandRoomFreed k s
  | .waitdoneMet k => Sys2Proof.Machine.execWaitdoneMet k s
  | .anchor k => Sys2Proof.Machine.execAnchor k s
  | .releaseAnchors k => Sys2Proof.Machine.execReleaseAnchors k s
  | .fence k => Sys2Proof.Machine.execFence k s
  | .fenceComplete k => Sys2Proof.Machine.execFenceComplete k s
  | .resume k seq stray => Sys2Proof.Machine.execResume k seq stray s
  | .streamFlush k seq stray => Sys2Proof.Machine.execStreamFlush k seq stray s
  | .streamResync k seq stray => Sys2Proof.Machine.execStreamResync k seq stray s
  | .swap k => Sys2Proof.Machine.execSwap k s
  | .responseSend k => Sys2Proof.Machine.execResponseSend k s
  | .writeStageExpiry h => Sys2Proof.Machine.execWriteStageExpiry h s
  | .hostCfgWrite w n r => Sys2Proof.Machine.execHostCfgWrite w n r s
  | .hostLossTimeout h => Sys2Proof.Machine.execHostLossTimeout h s
  | .lose w h => Sys2Proof.Machine.execLose w h s
  | .cspCfgWrite n v => Sys2Proof.Machine.execCspCfgWrite n v s
  | .cspCfgApply n => Sys2Proof.Machine.execCspCfgApply n s
  | .qinWrite n v => Sys2Proof.Machine.execQinWrite n v s
  | .cspEntryStart n => Sys2Proof.Machine.execCspEntryStart n s
  | .cspEntryDone n got => Sys2Proof.Machine.execCspEntryDone n got s
  | .strobeTimeout n got => Sys2Proof.Machine.execStrobeTimeout n got s
  | .cspQueueFlush n => Sys2Proof.Machine.execCspQueueFlush n s
  | .ss0Fall n => Sys2Proof.Machine.execSs0Fall n s
  | .ss0Rise n mid => Sys2Proof.Machine.execSs0Rise n mid s
  | .cspSlaveWord n w => Sys2Proof.Machine.execCspSlaveWord n w s
  | .underrunResend n => Sys2Proof.Machine.execUnderrunResend n s
  | .srxdRead n => Sys2Proof.Machine.execSrxdRead n s
  | .stxdWrite n v => Sys2Proof.Machine.execStxdWrite n v s
  | .ethFrameReceive p b symErr => Sys2Proof.Machine.execEthFrameReceive p b symErr s
  | .egressFrameStart p => Sys2Proof.Machine.execEgressFrameStart p s
  | .gateEntryChange p => Sys2Proof.Machine.execGateEntryChange p s
  | .qbvApply p => Sys2Proof.Machine.execQbvApply p s
  | .qbvConfigChange p => Sys2Proof.Machine.execQbvConfigChange p s
  | .mdioGo => Sys2Proof.Machine.execMdioGo s
  | .mdioDone d => Sys2Proof.Machine.execMdioDone d s
  | .linkUp p => Sys2Proof.Machine.execLinkUp p s
  | .linkDown p => Sys2Proof.Machine.execLinkDown p s
  | .syncTransmit => Sys2Proof.Machine.execSyncTransmit s
  | .followUp p off rate => Sys2Proof.Machine.execFollowUp p off rate s
  | .slewEnd => Sys2Proof.Machine.execSlewEnd s
  | .pdelay p d => Sys2Proof.Machine.execPdelay p d s
  | .announce p a => Sys2Proof.Machine.execAnnounce p a s
  | .receiptTimeout p ann => Sys2Proof.Machine.execReceiptTimeout p ann s
  | .ctSetGo => Sys2Proof.Machine.execCtSetGo s
  | .ctServoWrite r v => Sys2Proof.Machine.execCtServoWrite r v s
  | .gptpCfgWrite v => Sys2Proof.Machine.execGptpCfgWrite v s
  | .faultRaise src kind detail addr => Sys2Proof.Machine.execFaultRaise src kind detail addr s
  | .faultRecord => Sys2Proof.Machine.execFaultRecord s
  | .notify h => Sys2Proof.Machine.execNotify h s
  | .fltSevWrite w j v => Sys2Proof.Machine.execFltSevWrite w j v s
  | .fltSubscribe w v => Sys2Proof.Machine.execFltSubscribe w v s
  | .logRecordWrite => Sys2Proof.Machine.execLogRecordWrite s
  | .freeze k => Sys2Proof.Machine.execFreeze k s
  | .freezeTimeout => Sys2Proof.Machine.execFreezeTimeout s
  | .clearLog k => Sys2Proof.Machine.execClearLog k s
  | .logMirror => Sys2Proof.Machine.execLogMirror s
  | .sagStart v => Sys2Proof.Machine.execSagStart v s
  | .saveComplete => Sys2Proof.Machine.execSaveComplete s
  | .supplyRecovery => Sys2Proof.Machine.execSupplyRecovery s
  | .belayRearm => Sys2Proof.Machine.execBelayRearm s
  | .blyCfgWrite v => Sys2Proof.Machine.execBlyCfgWrite v s
  | .ack w n => Sys2Proof.Machine.execAck w n s
  | .begin k => Sys2Proof.Machine.execBegin k s
  | .data k => Sys2Proof.Machine.execData k s
  | .commit k => Sys2Proof.Machine.execCommit k s
  | .abort k => Sys2Proof.Machine.execAbort k s
  | .erase k => Sys2Proof.Machine.execErase k s
  | .setflag k => Sys2Proof.Machine.execSetflag k s
  | .handover k => Sys2Proof.Machine.execHandover k s
  | .handoverReady => Sys2Proof.Machine.execHandoverReady s
  | .handoverSwitch => Sys2Proof.Machine.execHandoverSwitch s
  | .handoverTimeout => Sys2Proof.Machine.execHandoverTimeout s
  | .imageApply k => Sys2Proof.Machine.execImageApply k s
  | .keyprog k => Sys2Proof.Machine.execKeyprog k s
  | .revoke k => Sys2Proof.Machine.execRevoke k s
  | .secprog k => Sys2Proof.Machine.execSecprog k s
  | .acceptUntested k => Sys2Proof.Machine.execAcceptUntested k s
  | .powerOnReset => Sys2Proof.Machine.execPowerOnReset s
  | .resetPin => Sys2Proof.Machine.execResetPin s
  | .watchdogExpiry active => Sys2Proof.Machine.execWatchdogExpiry active s
  | .pwrCtrlWrite v => Sys2Proof.Machine.execPwrCtrlWrite v s
  | .clockLoss => Sys2Proof.Machine.execClockLoss s
  | .resetRelease p => Sys2Proof.Machine.execResetRelease p s
  | .xbcLoss => Sys2Proof.Machine.execXbcLoss s
  | .bivouacEntry => Sys2Proof.Machine.execBivouacEntry s
  | .bivouacEntered => Sys2Proof.Machine.execBivouacEntered s
  | .wake src => Sys2Proof.Machine.execWake src s
  | .hostsServed => Sys2Proof.Machine.execHostsServed s
  | .vbcLoss => Sys2Proof.Machine.execVbcLoss s
  | .pwrCfgWrite v => Sys2Proof.Machine.execPwrCfgWrite v s
  | .touchScan cs => Sys2Proof.Machine.execTouchScan cs s
  | .recal k => Sys2Proof.Machine.execRecal k s
  | .inputSample pb pres => Sys2Proof.Machine.execInputSample pb pres s
  | .presenceTest n => Sys2Proof.Machine.execPresenceTest n s
  | .presencePathDone n e => Sys2Proof.Machine.execPresencePathDone n e s
  | .fpConfigWrite r v => Sys2Proof.Machine.execFpConfigWrite r v s
  | .readClear w a => Sys2Proof.Machine.execReadClear w a s
  | .registerWrite w a v => Sys2Proof.Machine.execRegisterWrite w a v s
  | .commutation c e => Sys2Proof.Machine.execCommutation c e s
  | .comparatorSample c iH iL => Sys2Proof.Machine.execComparatorSample c iH iL s
  | .windowSample m v => Sys2Proof.Machine.execWindowSample m v s
  | .announceTransmit => Sys2Proof.Machine.execAnnounceTransmit s
  | .standbyReady => Sys2Proof.Machine.execStandbyReady s
  | .xbcStart => Sys2Proof.Machine.execXbcStart s
  | .lampBlink l => Sys2Proof.Machine.execLampBlink l s

end Sys2Proof.Machine
end

