-- ==== Sys2Proof/Safety.lean ====
section
/-! DEFINITION. What the claims call a sound state and a safe bridge. -/
namespace Sys2Proof.Machine

/-- The register space is in canonical form: addresses rise and no entry equals its reset value. -/
def State.regsWf (s : State) : Bool := tabWf (resetWord s.straps) s.regs
/-- Registers and memory are in canonical form. -/
def State.Canon (s : State) : Prop := s.regsWf = true ∧ Memory.wf s.mem = true

/-- Both transistors of a channel are requested on at once (a shoot-through, which R186 rules out). -/
def State.shootThrough (s : State) (c : Nat) : Bool := (s.chan c).h.on && (s.chan c).l.on

/-- A channel drives one transistor at most, and none while its dead time runs (R187). -/
def PwmChan.oneSided (x : PwmChan) : Bool := !(x.h.on && x.l.on) && (x.incoming.isNone || (!x.h.on && !x.l.on))
/-- Every channel drives one transistor at most, and none while its dead time runs (R187). -/
def State.OneSided (s : State) : Prop := ∀ c, (s.chan c).oneSided = true

/-- Command `c` is at the head of stream `k` and its turn has come (R301, R305): well formed, not held, its slot not lost,
and the device not in the ROM loader. -/
def State.runnable (s : State) (k op : Nat) (c : Cmd) : Prop :=
  s.ready k = some c ∧ c.op = op ∧ c.bad = 0 ∧ (∀ n, c.slot? = some n → s.get STR_SLOTLOST_V / 2 ^ n % 2 = 0) ∧
    s.bit BOOT_ST_LOADER = false
/-- In `t` the next response of stream `k` after those of `s` answers command `c` with this STATUS, DETAIL and words
(R302, R303). -/
def State.answeredBy (s t : State) (k : Nat) (c : Cmd) (status detail : Nat) (ws : List Word) : Prop :=
  (t.stream k).pend[(s.stream k).pend.length]? =
    some { seq := c.seq, op := c.op, status := status, words := BitVec.ofNat 32 (detail % 65536 * 65536) :: ws }

/-! ### What an engine instruction does (R138, R139, R141) -/

/-- Engine `e` executes and the word at its program counter is `w` (R138). -/
def State.fetches (s : State) (e : Nat) (w : Word) : Prop :=
  s.executes e = true ∧ (s.engine e).pc < 16384 ∧ s.progWord e (s.engine e).pc = w
/-- Engine `e` executes, the word at its program counter is `w` and the guard of `w` holds (R138). -/
def State.issues (s : State) (e : Nat) (w : Word) : Prop := s.fetches e w ∧ guardHolds (s.engine e) w = true
/-- Command `c` completes, `P` holds of engine `e` after it, and nothing else than engine `e` changes in the registers, in
memory or among the engines. -/
def State.onEngine (s : State) (c : Instr) (e : Nat) (P : Engine → Prop) : Prop :=
  ∃ t, exec c s = .next t ∧ P (t.engine e) ∧ t.regs = s.regs ∧ t.mem = s.mem ∧ ∀ m : Nat, m ≠ e → t.engine m = s.engine m
/-- From `x` to `y` only g register `rd` changes, to `v` (nothing when `rd` is 0), and outside a loop the next word follows. -/
def Engine.onlyReg (x y : Engine) (rd : Nat) (v : Word) : Prop :=
  (∀ r < 32, y.reg r = if r ≠ 0 ∧ r = rd then v else x.reg r) ∧ y.acc = x.acc ∧ y.blk = x.blk ∧ y.preds = x.preds ∧
    y.sat = x.sat ∧ y.stack = x.stack ∧ (x.loops = [] → y.pc = x.pc + 1)
/-- The same, with the interlock of R141: the instruction issues when `keys` are ready, takes one cycle, and its result is
ready after `lat` cycles. -/
def Engine.result (x y : Engine) (keys : List Nat) (rd : Nat) (v : Word) (lat : Nat) : Prop :=
  x.onlyReg y rd v ∧ y.astat = x.astat ∧ y.cyc = x.ready keys + 1 ∧ tabGet (fun _ => 0) y.rdy (kReg rd) = x.ready keys + lat
/-- From `x` to `y` only block `bd` changes, to `b`; SAT bits and ASTAT may. -/
def Engine.onlyBlock (x y : Engine) (bd : Nat) (b : Blk) : Prop :=
  (∀ k : Nat, y.block k = if k = bd then b else x.block k) ∧ y.g = x.g ∧ y.acc = x.acc ∧ y.preds = x.preds ∧
    y.stack = x.stack ∧ (x.loops = [] → y.pc = x.pc + 1)
/-- From `x` to `y` no register, accumulator, block, predicate or SAT bit changes. -/
def Engine.sameData (x y : Engine) : Prop :=
  y.g = x.g ∧ y.acc = x.acc ∧ y.blk = x.blk ∧ y.preds = x.preds ∧ y.sat = x.sat ∧ y.astat = x.astat
/-- Command `c` ends the pass of engine `e` in a trap with this code (R126, R159). -/
def State.trapsWith (s : State) (c : Instr) (e code : Nat) : Prop :=
  ∃ t, exec c s = .next t ∧ t.get (KE_STATUS_TRAP e) = code ∧ (t.engine e).inPass = false

end Sys2Proof.Machine

namespace Sys2Proof

/-- The commands that may store into memory, flash or OTP or latch the straps; every other command leaves all four. -/
def Instr.stores : Instr → Bool
  | .sagStart ..
  | .hkcConversionDone ..
  | .eccUncorrectable ..
  | .enginePassStart ..
  | .programMemoryWrite ..
  | .dataMemoryWrite ..
  | .loadDone ..
  | .swapLoadDone ..
  | .unretireDone ..
  | .st ..
  | .bst ..
  | .sgnR ..
  | .ckp ..
  | .cspEntryDone ..
  | .strobeTimeout ..
  | .touchScan ..
  | .inputSample ..
  | .presencePathDone ..
  | .hostLossTimeout ..
  | .lose ..
  | .powerOnReset
  | .resetPin
  | .watchdogExpiry ..
  | .clockLoss
  | .vbcLoss
  | .pwrCtrlWrite ..
  | .bivouacEntered
  | .hostsServed
  | .registerWrite ..
  | .write ..
  | .rmw ..
  | .responseSend ..
  | .begin ..
  | .data ..
  | .commit ..
  | .abort ..
  | .erase ..
  | .imageApply ..
  | .keyprog ..
  | .revoke ..
  | .secprog ..
  | .acceptUntested ..
  | .resetRelease .. => true
  | _ => false

/-- The commands that are a route instruction of engine `e` (06_kondoeth_compute.md, 07_kondoeth_motion_io.md). -/
def Instr.routeRows (e : Fin 20) : List Instr :=
  [.add e, .sub e, .and e, .or e, .xor e, .shl e, .shr e, .sar e, .mul e, .mulh e, .min e, .max e, .cmp e, .ld e, .st e,
   .ldi e, .ldiH e, .bld e, .bst e, .bmac e, .bmsu e, .bacc e, .bnorm e, .bscale e] ++
  [.bsat e, .bsatV e, .bint e, .bcvt e, .sincos e, .atan2 e, .sqrt e, .rcp e, .br e, .call e, .ret e, .loop e, .wait e,
   .halt e, .trap e, .rdi e, .rdiW e, .rdv e, .rdf e, .pos e, .pit e, .pitLvl e] ++
  [.wrv e, .wra e, .cap e, .trc e, .flt e, .evt e, .sgn e, .sgnR e, .ckp e, .mfs e, .mts e]

end Sys2Proof
end

