-- ==== Sys2Proof/Certificates/Slice0/Obligations.lean ====
section
/-! DEFINITION. The statements for the provers, family by family of the table. -/
open Sys2Proof Sys2Proof.Machine

/-- A step takes the command at the front of the queue and runs it on the state with the rest of the queue (the queue of
waiting commands is the model's form of the outside: notes/assumptions/1.md). -/
def Obligations.StepRunsTheFrontCommand : Prop :=
  ∀ (c : Instr) (s : State), step { s with pending := c :: s.pending } = exec c s

/-- With no command waiting the block idles: one fabric cycle of 5 ns (R19) passes while the motion die is out of reset, and
nothing at all happens otherwise; every state beside cell time stays. That idling is one cycle long is the model's choice
(notes/assumptions/2.md). -/
def Obligations.EmptyQueueIdles : Prop :=
  ∀ (s : State), s.pending = [] →
    (s.up = true → ∃ t, step s = .next t ∧ t = { s with now := s.now + 5 }) ∧ (s.up = false → step s = .next s)

/-- Every step keeps the canonical form of the register space and of memory. -/
def Obligations.CanonicalFormKept : Prop :=
  ∀ (s t : State), s.Canon → step s = .next t → t.Canon

/-- Every step keeps each channel one-sided: at no time are both transistors of a channel requested on, and while a dead
time runs neither is (R187). -/
def Obligations.OneSidedKept : Prop :=
  ∀ (s t : State), s.OneSided → step s = .next t → t.OneSided

/-- The state after reset is in canonical form and every channel is one-sided. -/
def Obligations.ResetIsSound : Prop :=
  State.reset.Canon ∧ State.reset.OneSided

/-- What reset leaves (R7, R26, R320): the slots are UNBOUND, the sources' severities are the defaults of R357, the cell-tick
period is that of the TICKUS reset value, the queue and memory are empty and no host frame has been sent. -/
def Obligations.ResetValues : Prop :=
  State.reset.pending = [] ∧ (∀ n < 16, State.reset.slotState n = stUnbound ∧ State.reset.kind n = 0) ∧
    (∀ a, State.reset.rdByte a = 0) ∧ State.reset.sent = [] ∧ State.reset.period = 125000 ∧
    State.reset.rd DEV_ID = 0x4832B203#32 ∧ State.reset.get (FLT_SRC_SEV 0) = 3 ∧ State.reset.get (FLT_SRC_SEV 1) = 4 ∧
    State.reset.get RST_CAUSE_CAUSE = 1

/-- A command that is not one of the storing commands leaves every byte of memory, the flash images, OTP and the strap
latches as they are. -/
def Obligations.OnlyStoringCommandsStore : Prop :=
  ∀ (c : Instr) (s t : State), c.stores = false → exec c s = .next t →
    (∀ a, t.rdByte a = s.rdByte a) ∧ t.flash = s.flash ∧ t.otp = s.otp ∧ t.straps = s.straps

/-- A slot command of a writer that does not hold the slot's anchor changes nothing (R287). -/
def Obligations.NonOwnerChangesNothing : Prop :=
  ∀ (s : State) (w : Writer) (n : Fin 16) (v : Word), s.owns w n.val = false →
    ∀ c ∈ [Instr.bindWrite w n v, .engselWrite w n v, .energise w n, .deenergise w n, .clear w n, .svcOut w n, .svcIn w n [],
      .mcfgWrite w n v, .pitchOffer w n v, .flush w n, .go w n, .setpointOffer w n v, .load w n, .ccCfgWrite w n v, .ofscal w n,
      .kcal w n, .align w n, .prCfgWrite w n v, .research w n, .resumecl w n, .ident w n, .ack w n],
      exec c s = .next s

/-- The motion die in reset or off: a command that needs it changes nothing at all (R409, R430), so every command of a slot,
a stream or an engine waits for nothing and does nothing then. -/
def Obligations.NothingWhileDown : Prop :=
  ∀ (s : State) (w : Writer) (n : Fin 16) (k : Fin 32) (e : Fin 20) (v : Word), s.up = false →
    ∀ c ∈ [Instr.cellTick, .bindWrite w n v, .energise w n, .pitchOffer w n v, .enginePassStart e, .read k, .write k, .ctrl k,
      .faultRecord, .st e, .wait e, .programMemoryWrite e 0 v, .logMirror, .commit k], exec c s = .next s

/-- Binding and engine selection (R14, R15, R18): a BIND or ENGSEL write that its checks refuse leaves the register and sets
ERR; a taken one with a KIND leaves the slot IDLE with its fields as written, KIND 0 leaves it UNBOUND; one of KIND 0 during a
presence test waits for its end (R454). -/
def Obligations.BindAndEngineRows : Prop :=
  ∀ (s : State) (w : Writer) (n : Fin 16) (v : Word), s.up = true → s.owns w n.val = true →
    (s.bindErr n v ≠ 0 → fieldOf v (AX_BIND_KIND n) ≠ 0 ∨ s.test n = none →
      ∃ t, exec (.bindWrite w n v) s = .next t ∧ t.rd (AX_BIND n) = s.rd (AX_BIND n) ∧
        t.get (AX_STATE_ERR n) = s.bindErr n v % 16 ∧ t.slotState n = s.slotState n) ∧
    (s.bindErr n v = 0 → fieldOf v (AX_BIND_KIND n) ≠ 0 →
      ∃ t, exec (.bindWrite w n v) s = .next t ∧ t.rd (AX_BIND n) = v &&& bindMask ∧ t.slotState n = stIdle) ∧
    (∀ x : PresTest, s.test n = some x → fieldOf v (AX_BIND_KIND n) = 0 →
      ∃ t, exec (.bindWrite w n v) s = .next t ∧ t.test n = some { x with bind := some (w, v) } ∧ t.regs = s.regs) ∧
    (s.bindErr n v = 0 → fieldOf v (AX_BIND_KIND n) = 0 → s.slotState n ≠ stUnbound → s.test n = none →
      ∃ t, exec (.bindWrite w n v) s = .next t ∧ t.rd (AX_BIND n) = 0#32 ∧ t.slotState n = stUnbound ∧
        (t.gen n).queue = [] ∧ t.get (AX_PITSTART_V n) = 0) ∧
    (s.engselErr n v ≠ 0 →
      ∃ t, exec (.engselWrite w n v) s = .next t ∧ t.rd (AX_ENGSEL n) = s.rd (AX_ENGSEL n) ∧
        t.get (AX_STATE_ERR n) = s.engselErr n v % 16) ∧
    (s.engselErr n v = 0 →
      ∃ t, exec (.engselWrite w n v) s = .next t ∧ t.rd (AX_ENGSEL n) = v &&& 0x3F3F#32 ∧ t.rd (AX_BIND n) = s.rd (AX_BIND n) ∧
        t.slotState n = s.slotState n)

/-- Energising, its end and service (R28): an IDLE slot whose checks are met, with SAFEOFF_N high and no tripped channel,
enters HOLD; a failed check sets its ERR; during SHUTDOWN the command waits. DEENERGISE takes RUN to RAPPEL and HOLD to
SHUTDOWN; when the current is zero the slot is IDLE. CLEAR with no active cause, SVC_OUT and SVC_IN go to the states of the
table. -/
def Obligations.SlotStateRows : Prop :=
  ∀ (s : State) (w : Writer) (n : Fin 16), s.up = true → s.owns w n.val = true →
    (s.slotState n = stIdle → s.energiseErr n = 0 → s.safeoff = false → (s.slotChans n).any s.tripped = false →
      ∃ t, exec (.energise w n) s = .next t ∧ t.slotState n = stHold ∧ t.get (AX_STATE_ENABLEPENDING n) = 0) ∧
    (s.slotState n = stIdle → s.energiseErr n ≠ 0 →
      ∃ t, exec (.energise w n) s = .next t ∧ t.slotState n = stIdle ∧ t.get (AX_STATE_ERR n) = s.energiseErr n % 16) ∧
    (s.slotState n = stShutdown →
      ∃ t, exec (.energise w n) s = .next t ∧ t.slotState n = stShutdown ∧ t.get (AX_STATE_ENABLEPENDING n) = 1) ∧
    (s.slotState n = stRun →
      ∃ t, exec (.deenergise w n) s = .next t ∧ t.slotState n = stRappel ∧ t.get (AX_STATE_STOPREASON n) = 1) ∧
    (s.slotState n = stHold →
      ∃ t, exec (.deenergise w n) s = .next t ∧ t.slotState n = stShutdown ∧ t.get (AX_STATE_STOPREASON n) = 1) ∧
    (s.slotState n = stIdle →
      ∃ t, exec (.deenergise w n) s = .next t ∧ t.slotState n = stIdle ∧ t.get (AX_STATE_ERR n) = 5) ∧
    (s.slotState n = stShutdown → (match (s.cc n).ramp with | .down _ => true | _ => s.isRemote n) = true →
      s.get (AX_BRK_ST_BSTATE n) ≠ 3 → s.bit (AX_STATE_ENABLEPENDING n) = false →
      ∃ t, exec (.shutdownComplete n) s = .next t ∧ t.slotState n = stIdle) ∧
    (s.slotState n = stTripped → s.safeoff = false →
      (s.slotChans n).any (fun c => s.bit (GD_CHSTAT_TRIPACTIVE (c / 8) (c % 8))) = false →
      ∃ t, exec (.clear w n) s = .next t ∧ t.slotState n = stIdle) ∧
    (s.slotState n = stIdle ∨ s.slotState n = stTripped →
      ∃ t, exec (.svcOut w n) s = .next t ∧ t.slotState n = stOos) ∧
    (∀ phys : List Nat, s.slotState n = stOos → ∃ t, exec (.svcIn w n phys) s = .next t ∧ t.slotState n = stIdle)

/-- The cell tick and its period (R19 to R21): a tick instant is the next multiple of the period and is taken once; TICKUS
is taken with no slot energised and a value of 31 to 1000 and applies later, else REFUSED is set; when the change comes
before the next instant of the old period that instant does not occur, and at the change the new period holds and cell time
is a multiple of it. -/
def Obligations.CellTickRows : Prop :=
  ∀ (s : State), s.up = true →
    (s.changeFirst = false →
      ∃ t, exec .cellTick s = .next t ∧ t.now = s.nextTick ∧ t.tickAt = s.nextTick ∧ t.tickLeft = true ∧ t.tickDue = false) ∧
    (∀ v : Word, slots16.any s.energised = false → 31 ≤ fieldOf v CT_TICKCFG_TICKUS → fieldOf v CT_TICKCFG_TICKUS ≤ 1000 →
      ∃ t, exec (.tickusWrite v) s = .next t ∧ t.newTick = some (fieldOf v CT_TICKCFG_TICKUS, s.now, false) ∧ t.period = s.period) ∧
    (∀ v : Word, slots16.any s.energised = true ∨ fieldOf v CT_TICKCFG_TICKUS < 31 ∨ 1000 < fieldOf v CT_TICKCFG_TICKUS →
      ∃ t, exec (.tickusWrite v) s = .next t ∧ t.newTick = s.newTick ∧ t.get CT_TICKCFG_REFUSED = 1 ∧ t.period = s.period) ∧
    (s.changeFirst = true → exec .cellTick s = .next s) ∧
    (∀ (us w : Nat) (stepped : Bool), s.newTick = some (us, w, stepped) → s.changeFirst = true → us < 1024 →
      ∃ t, exec .tickPeriodChange s = .next t ∧ t.newTick = none ∧ t.now = s.periodChangeAt us w ∧ t.period = tickNs us ∧
        s.now ≤ t.now ∧ t.now % max (tickNs us) 1 = 0)

/-- The pitch queue (R38, R50): an offered entry that is well formed and finds room is queued with the next index; one
that is badly formed, or that finds 64 queued, is refused and sets its flag; FLUSH discards every queued entry and counts
them while the running pitch goes on; GO clears QHELD in HOLD or RUN. -/
def Obligations.PitchQueueRows : Prop :=
  ∀ (s : State) (w : Writer) (n : Fin 16), s.up = true → s.owns w n.val = true →
    (∀ v : Word, entryBad ((List.range 7).map (fun i => s.rd (AX_PITQ_IN n i)) ++ [v]) = false → (s.gen n).queue.length < 64 →
      ∃ t, exec (.pitchOffer w n v) s = .next t ∧
        (t.gen n).queue = (s.gen n).queue ++ [(List.range 7).map (fun i => s.rd (AX_PITQ_IN n i)) ++ [v]] ∧
        t.get (AX_PITNEXT_V n) = (s.get (AX_PITNEXT_V n) + 1) % 2 ^ 32 ∧
        t.get (AX_PITQ_LVL_LEVEL n) = (s.gen n).queue.length + 1) ∧
    (∀ v : Word, entryBad ((List.range 7).map (fun i => s.rd (AX_PITQ_IN n i)) ++ [v]) = true →
      ∃ t, exec (.pitchOffer w n v) s = .next t ∧ t.gen n = s.gen n ∧ t.get (AX_PITQ_CTRL_BADPITCH n) = 1 ∧
        t.get (AX_PITNEXT_V n) = s.get (AX_PITNEXT_V n)) ∧
    (∀ v : Word, entryBad ((List.range 7).map (fun i => s.rd (AX_PITQ_IN n i)) ++ [v]) = false → 64 ≤ (s.gen n).queue.length →
      ∃ t, exec (.pitchOffer w n v) s = .next t ∧ t.gen n = s.gen n ∧ t.get (AX_PITQ_CTRL_FULL n) = 1 ∧
        t.get (AX_PITNEXT_V n) = s.get (AX_PITNEXT_V n)) ∧
    (∃ t, exec (.flush w n) s = .next t ∧ (t.gen n).queue = [] ∧ t.get (AX_PITQ_LVL_LEVEL n) = 0 ∧
        t.get (AX_PITFLUSH_V n) = (s.get (AX_PITFLUSH_V n) + (s.gen n).queue.length) % 2 ^ 32 ∧
        (t.gen n).pitch = (s.gen n).pitch ∧ (t.gen n).plan = (s.gen n).plan) ∧
    (s.slotState n = stHold ∨ s.slotState n = stRun →
      ∃ t, exec (.go w n) s = .next t ∧ t.get (AX_PITQ_CTRL_QHELD n) = 0 ∧
        (∀ a, a ≠ AX_PITQ_CTRL n → t.rd a = s.rd a) ∧ t.gens = s.gens)

/-- Setpoints and the gear (R52 to R58): a setpoint offered in
source 2 with room, not late and after every buffered one, joins the buffer as given; a full buffer refuses
it and sets FULL, and another source refuses it with ERR 5; when the coast of a starved slot is over its deceleration
begins; LOAD stages a ratio change, refused while DEN is 0; at a tick instant the staged ratio applies, the remainder moves
into the position fraction and the gear's counters restart. -/
def Obligations.SetpointAndGearRows : Prop :=
  ∀ (s : State) (w : Writer) (n : Fin 16), s.up = true →
    (∀ v : Word, s.owns w n.val = true → s.get (AX_MCFG_SRC n) = 2 → s.slotState n ≠ stUnbound → (s.gen n).points.length < 16 →
      s.nextFree ≤ s.rd64 (AX_SPB_T n) → (∀ q ∈ (s.gen n).points, q.t < s.rd64 (AX_SPB_T n)) →
      ∃ t, exec (.setpointOffer w n v) s = .next t ∧
        (t.gen n).points = (s.gen n).points ++ [{ t := s.rd64 (AX_SPB_T n), p := s.geti (AX_SPB_P_V n) * 2 ^ 32
                                                  v := signedOf 64 (v.toNat * 2 ^ 32 + (s.rd (AX_SPB_V n)).toNat)
                                                  velok := s.bit (AX_SPB_IN0_VELOK n) }] ∧
        t.get (AX_SPB_LVL_LEVEL n) = (s.gen n).points.length + 1 ∧ t.get (AX_LATE_V n) = s.get (AX_LATE_V n) ∧
        t.get (AX_SPORD_V n) = s.get (AX_SPORD_V n)) ∧
    (∀ v : Word, s.owns w n.val = true → s.get (AX_MCFG_SRC n) = 2 → s.slotState n ≠ stUnbound → 16 ≤ (s.gen n).points.length →
      ∃ t, exec (.setpointOffer w n v) s = .next t ∧ t.gens = s.gens ∧ t.get (AX_SPB_LVL_FULL n) = 1) ∧
    (∀ v : Word, s.owns w n.val = true → s.get (AX_MCFG_SRC n) ≠ 2 →
      ∃ t, exec (.setpointOffer w n v) s = .next t ∧ t.gens = s.gens ∧ t.get (AX_STATE_ERR n) = 5) ∧
    ((s.gen n).starving = true → (s.gen n).drift = .coast → (s.gen n).coastLeft = 0 → (s.gen n).segFrom = none →
      ∃ t, exec (.setpointHoldoverExpiry n) s = .next t ∧ (t.gen n).drift = .starveStop ∧ t.regs = s.regs ∧
        ∀ m : Nat, m ≠ n.val → t.gen m = s.gen m) ∧
    (s.owns w n.val = true → s.rd (AX_GEAR_DEN n) ≠ 0#32 →
      ∃ t, exec (.load w n) s = .next t ∧ (t.gen n).gearLoad = true ∧ t.regs = s.regs) ∧
    (s.owns w n.val = true → s.rd (AX_GEAR_DEN n) = 0#32 →
      ∃ t, exec (.load w n) s = .next t ∧ t.get (AX_GEAR_CTRL_REFUSED n) = 1 ∧ t.gens = s.gens) ∧
    ((s.gen n).gearLoad = true → s.tickLeft = true → s.now = s.tickAt → s.rd (AX_GEAR_DEN n) ≠ 0#32 →
      ∃ t, exec (.gearLoadApply n) s = .next t ∧ (t.gen n).gearNum = (s.rd (AX_GEAR_NUM n)).toInt ∧
        (t.gen n).gearDen = (s.rd (AX_GEAR_DEN n)).toNat ∧
        (t.gen n).nxt.p = (s.gen n).nxt.p + (s.get (AX_GEAR_REM_V n) : Int) * 2 ^ 32 / ((s.gen n).gearDen : Int) ∧
        t.get (AX_GEAR_REM_V n) = 0 ∧ t.get (AX_GEAR_ACC_V n) = 0 ∧ t.get (AX_GEAR_APPL_V n) = 0)

/-- The configuration of a slot's motion, the start of a pitch and its steps (R34, R40, R59): an MCFG write with a legal
source in IDLE is taken, one with source 3 sets ERR 5 and changes no configuration; a head entry whose start time is
reached leaves the queue and AXn_PITSTART counts it; a scheduled step goes out and SOGs_CNT counts it by direction. -/
def Obligations.PitchStartAndStepRows : Prop :=
  ∀ (s : State) (w : Writer) (n : Fin 16), s.up = true →
    (∀ v : Word, s.owns w n.val = true → fieldOf v (AX_MCFG_SRC n) ≤ 2 → fieldOf v (AX_MCFG_CAPSRC n) = 0 → s.slotState n = stIdle →
      ∃ t, exec (.mcfgWrite w n v) s = .next t ∧ t.rd (AX_MCFG n) = BitVec.ofNat 32 (v.toNat % 64) ∧
        ∀ a, a ≠ AX_MCFG n → t.rd a = s.rd a) ∧
    (∀ v : Word, s.owns w n.val = true → fieldOf v (AX_MCFG_SRC n) = 3 →
      ∃ t, exec (.mcfgWrite w n v) s = .next t ∧ t.rd (AX_MCFG n) = s.rd (AX_MCFG n) ∧ t.get (AX_STATE_ERR n) = 5) ∧
    (∀ (e : List Word) (rest : List (List Word)), (s.gen n).queue = e :: rest → s.canStart n = true →
      (entryTstart e = false ∨ startTime s.now e ≤ s.now) →
      ∃ t, exec (.pitchStart n) s = .next t ∧ (t.gen n).queue = rest ∧ (t.gen n).joined = true ∧
        t.get (AX_PITSTART_V n) = (s.get (AX_PITSTART_V n) + 1) % 2 ^ 32) ∧
    (s.isRemote n = true → (s.gen n).sent < (s.gen n).sched → s.bit (SOG_STAT_HELD (s.get (AX_BIND_SOUT n))) = false →
      ∃ t, exec (.stepPulse n) s = .next t ∧ (t.gen n).sent = (s.gen n).sent + 1 ∧
        t.geti (SOG_CNT_V (s.get (AX_BIND_SOUT n))) =
          signedOf 32 (unsignedOf 32 (s.geti (SOG_CNT_V (s.get (AX_BIND_SOUT n))) + (if (s.gen n).stepDir then 1 else -1))) ∧
        s.now ≤ t.now)

/-- SAFEOFF_N and the bridge dies' settings (R215, R219, R221): low turns every gate off and ends every pulse and presence
test, high clears GDg_STAT.SAFEOFF and restores nothing; GDg_CFG is taken whole while no slot of the group is energised and
OTTHR is 100 to 150, SCTHR with both codes at least 2; else REFUSED is set and the register stays. -/
def Obligations.GateDriveRows : Prop :=
  ∀ (s : State) (g : Fin 4) (k : Fin 8) (v : Word), s.up = true →
    (s.safeoff = false →
      ∃ t, exec .safeoffNLow s = .next t ∧ t.safeoff = true ∧ t.pulses = [] ∧
        ∀ c < 32, (t.chan c).h.on = false ∧ (t.chan c).l.on = false) ∧
    (s.safeoff = true → exec .safeoffNLow s = .next s) ∧
    (∃ t, exec .safeoffNHigh s = .next t ∧ t.safeoff = false ∧ t.get (GD_STAT_SAFEOFF g) = 0 ∧ t.chans = s.chans ∧ t.gens = s.gens) ∧
    (s.groupUsed g = false → 100 ≤ fieldOf v (GD_CFG_OTTHR g) → fieldOf v (GD_CFG_OTTHR g) ≤ 150 →
      ∃ t, exec (.gdCfgWrite g v) s = .next t ∧ t.rd (GD_CFG g) = v &&& 0xFF0F05#32 ∧ (∀ a, a ≠ GD_CFG g → t.rd a = s.rd a)) ∧
    (s.groupUsed g = true ∨ fieldOf v (GD_CFG_OTTHR g) < 100 ∨ 150 < fieldOf v (GD_CFG_OTTHR g) →
      ∃ t, exec (.gdCfgWrite g v) s = .next t ∧ t.rd (GD_CFG g) = s.rd (GD_CFG g) ∧ t.get (GD_STAT_REFUSED g) = 1) ∧
    (2 ≤ fieldOf v (GD_SCTHR_MAIN g k) → 2 ≤ fieldOf v (GD_SCTHR_HARD g k) →
      ∃ t, exec (.scthrWrite g k v) s = .next t ∧ t.rd (GD_SCTHR g k) = BitVec.ofNat 32 (v.toNat % 65536) ∧
        (∀ a, a ≠ GD_SCTHR g k → t.rd a = s.rd a)) ∧
    (fieldOf v (GD_SCTHR_MAIN g k) < 2 ∨ fieldOf v (GD_SCTHR_HARD g k) < 2 →
      ∃ t, exec (.scthrWrite g k v) s = .next t ∧ t.rd (GD_SCTHR g k) = s.rd (GD_SCTHR g k) ∧ t.get (GD_STAT_REFUSED g) = 1)

/-- The collector (R360, R363, R365, R369, R370, R372, R374): a source not heard of before with room in the buffer puts
its message there, with the severity that its word had before this fabric cycle (R375); a correctable error of an engine shows
its memory and address; recording takes one message out of the buffer and shows it in FLT_LAST; a notification takes up to 15
messages of the host's queue into a frame; severities and subscriptions are written as their rules say. -/
def Obligations.FaultRows : Prop :=
  ∀ (s : State), s.up = true →
    (∀ (src : Fin 1024) (kind : Fin 64) (detail : BitVec 16) (addr : BitVec 24),
      (defaultSev src.val).isSome = true → ¬ (0x200 ≤ src.val ∧ src.val < 0x2A0 ∧ src.val % 8 = 0) → tabGet (fun _ => 0) s.coll.taken (64 * src.val + kindOf src.val kind.val detail.toNat % 64) = 0 →
      s.coll.buffer.length < 512 →
      ∃ t, exec (.faultRaise src kind detail addr) s = .next t ∧
        t.coll.buffer = s.coll.buffer ++ [{
          w0 := BitVec.ofNat 32 (src.val * 2 ^ 22 + kindOf src.val kind.val detail.toNat % 64 * 65536 + detail.toNat)
          w1 := BitVec.ofNat 32 (addr.toNat * 256 + fieldOf (s.rdBefore (FLT_SRC src) 7) (FLT_SRC_SEV src) * 32)
          time := s.now }]) ∧
    (∀ (e : Fin 20) (kind : Fin 64) (detail : BitVec 16) (addr : BitVec 24),
      ∃ t, exec (.faultRaise ⟨0x200 + 8 * e.val, by omega⟩ kind detail addr) s = .next t ∧
        t.get (KE_ECC_MEM e) = detail.toNat / 2 ^ 14 % 4 ∧ t.rd (KE_ECCADR e) = BitVec.ofNat 32 addr.toNat) ∧
    (∀ (m : Msg) (rest : List Msg), firstMsg s.coll.buffer = some (m, rest) →
      ∃ t, exec .faultRecord s = .next t ∧ t.coll.buffer = rest ∧
        t.log.fromCollector = s.log.fromCollector ++ [{ w0 := m.w0, w1 := m.w1, time := m.time }] ∧
        t.rd (FLT_LAST 0) = m.w0 ∧ t.rd (FLT_LAST 1) = m.w1) ∧
    (∀ h : Fin 8, (s.host h).notify ≠ [] → (s.host h).notifyBusy = none → s.get BOOT_ST_HOPHASE = 0 →
      ∃ t, exec (.notify h) s = .next t ∧ (t.host h).notify = (s.host h).notify.drop 15 ∧
        t.get (FLT_NST_NSEQ h) = (s.get (FLT_NST_NSEQ h) + 1) % 65536) ∧
    (∀ (w : Writer) (i : Fin 1024) (v : Word), (defaultSev i.val).isSome = true → ¬ (0x100 ≤ i.val ∧ i.val < 0x2A0) → i.val ≠ 0 →
      fieldOf v (FLT_SRC_SEV i) ≤ 4 →
      ∃ t, exec (.fltSevWrite w i v) s = .next t ∧ t.get (FLT_SRC_SEV i) = fieldOf v (FLT_SRC_SEV i)) ∧
    (∀ (w : Writer) (v : Word), fieldOf v (FLT_SRC_SEV 0) ≤ 4 →
      ∃ t, exec (.fltSevWrite w 0 v) s = .next t ∧ t.get (FLT_SRC_SEV 0) = max (fieldOf v (FLT_SRC_SEV 0)) 3) ∧
    (∀ (h : Fin 8) (v : Word), (defaultSev (fieldOf v FLT_SUBSCRIBE_SRC)).isSome = true → fieldOf v FLT_SUBSCRIBE_ON = 1 →
      ∃ t, exec (.fltSubscribe (.host h) v) s = .next t ∧
        t.get (FLT_SRC_SUB (fieldOf v FLT_SUBSCRIBE_SRC)) / 2 ^ h.val % 2 = 1) ∧
    (∀ v : Word, ∃ t, exec (.fltSubscribe .supervisor v) s = .next t ∧ t.get FLT_ST_REFUSED = 1)

/-- The summit log (R377 to R384): a waiting record of the collector is written into ring slot LOG_WSEQ mod 8,192 and counted;
FREEZE with ON of an unfrozen log freezes it for the host and answers with LOG_WSEQ and LEVEL; a timeout ends the freeze; a
CLEAR_LOG that fails authentication is answered REFUSED with its reason and counts, one that passes empties ring and tail, counts
what it cleared and writes its record; mirroring moves the oldest waiting record
to the tail. -/
def Obligations.SummitLogRows : Prop :=
  ∀ (s : State), s.up = true →
    (∀ (r : LogRec) (rest : List LogRec), s.log.fromCollector = r :: rest → s.log.offers = [] → s.bit LOG_ST_FROZEN = false →
      ∃ t, exec .logRecordWrite s = .next t ∧ t.log.fromCollector = rest ∧
        tabGet (fun _ => {}) t.log.ring (s.get LOG_WSEQ_V % 8192) = r ∧
        t.get LOG_WSEQ_V = (s.get LOG_WSEQ_V + 1) % 2 ^ 32 ∧ t.get LOG_OFFERED_V = (s.get LOG_OFFERED_V + 1) % 2 ^ 32) ∧
    (∀ (k : Fin 32) (c : Cmd), s.runnable k.val 0xB c → (match c.words.head? with | some w => w.toNat % 2 == 1 | none => false) = true →
      s.bit LOG_ST_FROZEN = false →
      ∃ t, exec (.freeze k) s = .next t ∧ t.get LOG_ST_FROZEN = 1 ∧ t.get LOG_ST_FRZHOST = k.val / 4 ∧ t.log.frzStart = s.now ∧
        s.answeredBy t k.val c 0 0 [s.rd LOG_WSEQ, s.rd LOG_LEVEL]) ∧
    (s.bit LOG_ST_FROZEN = true →
      ∃ t, exec .freezeTimeout s = .next t ∧ t.get LOG_ST_FROZEN = 0 ∧ t.get LOG_OFFERED_V = (s.get LOG_OFFERED_V + 1) % 2 ^ 32) ∧
    (∀ (k : Fin 32) (c : Cmd), s.runnable k.val 0xC c → s.clearReason (k.val / 4) c.words ≠ 0 →
      ∃ t, exec (.clearLog k) s = .next t ∧ t.get LOG_CLRFAIL_V = (s.get LOG_CLRFAIL_V + 1) % 2 ^ 32 ∧
        s.answeredBy t k.val c 4 (s.clearReason (k.val / 4) c.words) []) ∧
    (∀ (k : Fin 32) (c : Cmd), s.runnable k.val 0xC c → s.clearReason (k.val / 4) c.words = 0 →
      ∃ t, exec (.clearLog k) s = .next t ∧ t.log.tail = [] ∧ t.get LOG_ST_FROZEN = 0 ∧
        t.get LOG_CLEARED_V = (s.get LOG_CLEARED_V + s.get LOG_LEVEL_LEVEL) % 2 ^ 32 ∧
        t.get LOG_LEVEL_LEVEL = (if s.bit LOG_ST_FROZEN then 2 else 1) ∧
        s.answeredBy t k.val c 0 0 [BitVec.ofNat 32 (s.get LOG_LEVEL_LEVEL)]) ∧
    (∀ (r : LogRec) (rest : List LogRec), s.log.waiting = r :: rest → s.log.tail.length < 512 →
      ∃ t, exec .logMirror s = .next t ∧ t.log.waiting = rest ∧ t.log.tail = s.log.tail ++ [r] ∧ t.log.ring = s.log.ring)

/-- The belay unit (R388 to R401): a decided sag starts the save, stops execution and disarms; SAVE_COMPLETE validates the
area that does not hold the latest set and counts; recovery lets execution go on and halts every stream with REASON 5; the
comparator arms again, 10 ms after the sag at the earliest; the threshold is
taken from 80 to 115; ACK clears POSITION_ASSUMED. -/
def Obligations.BelayRows : Prop :=
  ∀ (s : State) (w : Writer) (n : Fin 16) (v : Word), s.up = true →
    (∀ x : Int, s.bly.armed = true → ((s.toWindow (.supply 4)).monChanges (.supply 4) x).filter (fun y => y.2 && y.1 == winLo 4) ≠ [] →
      ∃ t, exec (.sagStart x) s = .next t ∧ t.bly.saving = true ∧ t.bly.armed = false ∧ t.bly.stopped = true ∧
        t.get BLY_ST_SAGNOW = 1 ∧ t.get BLY_ST_ARMED = 0 ∧ t.pulses = []) ∧
    (s.bly.saving = true →
      ∃ t, exec .saveComplete s = .next t ∧ t.bly.saving = false ∧ t.bly.saveCount = (s.bly.saveCount + 1) % 2 ^ 32 ∧
        t.get BLY_ST_SAVING = 0 ∧ t.get BLY_ST_SAVEDSEEN = 1 ∧
        (if s.bly.nextArea = 0 then t.bly.area0 = s.saveSet ∧ t.bly.valid0 = true ∧ t.bly.area1 = s.bly.area1
         else t.bly.area1 = s.saveSet ∧ t.bly.valid1 = true ∧ t.bly.area0 = s.bly.area0)) ∧
    (s.bly.shed = true → s.bly.saving = false →
      ∃ t, exec .supplyRecovery s = .next t ∧ t.bly.shed = false ∧ t.bly.stopped = false ∧
        ∀ k < 32, t.stream k = (s.stream k).recover s.bly.mark ∧ (t.stream k).reason = 5 ∧
          (t.stream k).queue = (s.stream k).queue.filter (fun c => !decide (c.acc < s.bly.mark))) ∧
    (s.bly.armed = false →
      ∃ t, exec .belayRearm s = .next t ∧ t.bly.armed = true ∧ t.get BLY_ST_ARMED = 1 ∧ t.get BLY_ST_SAGNOW = 0 ∧
        t.now = max s.now (s.bly.sagAt + 10000000)) ∧
    (80 ≤ fieldOf v BLY_CFG_THR → fieldOf v BLY_CFG_THR ≤ 115 →
      ∃ t, exec (.blyCfgWrite v) s = .next t ∧ t.get BLY_CFG_THR = fieldOf v BLY_CFG_THR ∧
        t.get (MON_THR_LO 4) = fieldOf v BLY_CFG_THR * 100) ∧
    (fieldOf v BLY_CFG_THR < 80 ∨ 115 < fieldOf v BLY_CFG_THR →
      ∃ t, exec (.blyCfgWrite v) s = .next t ∧ t.rd BLY_CFG = s.rd BLY_CFG ∧ t.get BLY_ST_REFUSED = 1) ∧
    (s.owns w n.val = true →
      ∃ t, exec (.ack w n) s = .next t ∧ t.get (AX_RESTORE_POSITIONASSUMED n) = 0 ∧ (∀ a, a ≠ AX_RESTORE n → t.rd a = s.rd a))

/-- Hosts (R277, R291, R293): the binding of a host that is not LIVE may be taken away; a TMO of a live host that
ends declares the host lost: not LIVE, LOST_SEEN, counted. -/
def Obligations.HostRows : Prop :=
  ∀ (s : State) (w : Writer) (h : Fin 8), s.up = true →
    (∀ v : Word, s.mayBind w h = true → fieldOf v (HOST_CFG_SRC h) = 0 →
      ∃ t, exec (.hostCfgWrite w h (.cfg v)) s = .next t ∧ t.get (HOST_CFG_SRC h) = 0) ∧
    (∀ v : Word, s.mayBind w h = false →
      ∃ t, exec (.hostCfgWrite w h (.cfg v)) s = .next t ∧ t.get (HOST_CFG_SRC h) = s.get (HOST_CFG_SRC h) ∧
        t.get (HOST_ST_REFUSED h) = 1) ∧
    (s.bit (HOST_ST_LIVE h) = true → s.get (HOST_TMO_TMO h) ≠ 0 → s.get BOOT_ST_HOPHASE ≠ 2 →
      ∃ t, exec (.hostLossTimeout h) s = .next t ∧ t.get (HOST_ST_LIVE h) = 0 ∧ t.get (HOST_ST_LOSTSEEN h) = 1 ∧
        t.get (HOST_LOSTCNT_V h) = (s.get (HOST_LOSTCNT_V h) + 1) % 2 ^ 32 ∧
        max s.now ((s.host h).lastFrame + s.get (HOST_TMO_TMO h) * 1000000) = t.now)

/-- LOSE (R292): by a host bound to a clocked serial port (SRC 1) and naming another host, it declares that host lost at once:
not LIVE, LOST_SEEN set, the loss counted; by any other writer, or naming the writer itself, it is refused and sets REFUSED,
and the named host stays as it was. -/
def Obligations.LoseRule : Prop :=
  ∀ (s : State) (w : Writer) (h : Fin 8), s.up = true →
    (∀ x : Fin 8, w = .host x → s.src x.val = 1 → x ≠ h →
      ∃ t, exec (.lose w h) s = .next t ∧ t.get (HOST_ST_LIVE h) = 0 ∧ t.get (HOST_ST_LOSTSEEN h) = 1 ∧
        t.get (HOST_LOSTCNT_V h) = (s.get (HOST_LOSTCNT_V h) + 1) % 2 ^ 32) ∧
    ((∀ x : Fin 8, w = .host x → s.src x.val ≠ 1 ∨ x = h) →
      ∃ t, exec (.lose w h) s = .next t ∧ t.get HOST_CTRL_REFUSED = 1 ∧ (∀ a, a ≠ HOST_CTRL → t.rd a = s.rd a) ∧
        t.hosts = s.hosts ∧ t.streams = s.streams ∧ t.coll = s.coll)

/-- Configuration, calibration and staged parameters of current control (R69 to R74, R79): a CC_CFG write that keeps MODE,
ASRC, UPD and DIR is taken at once, one that changes MODE waits for the tick in IDLE or HOLD and is refused elsewhere; a
calibration starts in IDLE, and ends in DONE or in FAIL with its code; APPLY is remembered until the tick instant, at which
the whole shadow becomes active, the later one of two last. -/
def Obligations.CurrentSetupRows : Prop :=
  ∀ (s : State) (w : Writer) (n : Fin 16) (v : Word), s.up = true →
    (s.owns w n = true → (s.cc n).cfgNext = none → bitsOf v.toNat 2 0 = bitsOf (s.rd (AX_CC_CFG n)).toNat 2 0 →
      fieldOf v (AX_CC_CFG_UPD n) = s.get (AX_CC_CFG_UPD n) → fieldOf v (AX_CC_CFG_DIR n) = s.get (AX_CC_CFG_DIR n) →
      ∃ t, exec (.ccCfgWrite w n v) s = .next t ∧ t.rd (AX_CC_CFG n) = v &&& 0x00FFFFF7#32 ∧
        ∀ a, a ≠ AX_CC_CFG n → t.rd a = s.rd a) ∧
    (s.owns w n = true → (s.cc n).cfgNext = none → fieldOf v (AX_CC_CFG_MODE n) = 0 → s.get (AX_CC_CFG_MODE n) ≠ 0 →
      (s.slotState n = stIdle ∨ s.slotState n = stHold) →
      ∃ t, exec (.ccCfgWrite w n v) s = .next t ∧ (t.cc n).cfgNext = some (v &&& 0x00FFFFF7#32) ∧ t.regs = s.regs) ∧
    (s.owns w n = true → (s.cc n).cfgNext = none → fieldOf v (AX_CC_CFG_MODE n) ≠ s.get (AX_CC_CFG_MODE n) →
      s.slotState n = stRun →
      ∃ t, exec (.ccCfgWrite w n v) s = .next t ∧ t.get (AX_STATE_ERR n) = 5 ∧ t.rd (AX_CC_CFG n) = s.rd (AX_CC_CFG n) ∧ t.ccs = s.ccs) ∧
    (s.owns w n = true → s.slotState n = stIdle → s.get (AX_CC_CAL_BUSY n) = 0 →
      (∃ t, exec (.ofscal w n) s = .next t ∧ t.get (AX_CC_CAL_BUSY n) = 1 ∧ (t.cc n).calKind = 1 ∧ (t.cc n).calAt = s.now) ∧
      (∃ t, exec (.kcal w n) s = .next t ∧ t.get (AX_CC_CAL_BUSY n) = 1 ∧ (t.cc n).calKind = 2 ∧ (t.cc n).calAt = s.now)) ∧
    (s.owns w n = true → s.slotState n = stIdle → s.get (AX_CC_CAL_BUSY n) = 0 → s.get (AX_BIND_FBEN n) = 1 →
      ∃ t, exec (.align w n) s = .next t ∧ t.get (AX_CC_CAL_BUSY n) = 1 ∧ (t.cc n).calKind = 3 ∧ (t.cc n).calAt = s.now) ∧
    (s.owns w n = true → s.slotState n = stIdle → s.get (AX_CC_CAL_BUSY n) = 0 → s.get (AX_BIND_FBEN n) = 0 →
      ∃ t, exec (.align w n) s = .next t ∧ t.get (AX_CC_CAL_BUSY n) = 0 ∧ t.get (AX_CC_CAL_FAIL n) = 1 ∧
        t.get (AX_CC_CAL_FAILCODE n) = 1) ∧
    (s.owns w n = true → s.slotState n ≠ stIdle →
      ∀ c ∈ [Instr.ofscal w n, .kcal w n, .align w n],
        ∃ t, exec c s = .next t ∧ t.get (AX_STATE_ERR n) = 5 ∧ t.rd (AX_CC_CAL n) = s.rd (AX_CC_CAL n)) ∧
    (∀ r : List (Int × Int), s.get (AX_CC_CAL_BUSY n) = 1 → (s.cc n).calKind = 1 → r.length = (s.slotChans n).length →
      ∃ t, exec (.calibrationDone n r false) s = .next t ∧ t.get (AX_CC_CAL_BUSY n) = 0 ∧ t.get (AX_CC_CAL_DONE n) = 1 ∧
        t.get (AX_CC_CAL_FAIL n) = 0) ∧
    (∀ r : List (Int × Int), s.get (AX_CC_CAL_BUSY n) = 1 → (s.cc n).calKind = 2 →
      ∃ t, exec (.calibrationDone n r true) s = .next t ∧ t.get (AX_CC_CAL_BUSY n) = 0 ∧ t.get (AX_CC_CAL_FAIL n) = 1 ∧
        t.get (AX_CC_CAL_FAILCODE n) = 2 ∧ ∀ c : Fin 32, t.rd (SNS_KL c) = s.rd (SNS_KL c)) ∧
    (s.owns w n = true → s.get (AX_CC_PSTAGE_HOLDW n) = 1 →
      (∃ t, exec (.apply w n true) s = .next t ∧ (t.cc n).apply = true ∧ t.get (AX_CC_PSTAGE_HOLDW n) = 1) ∧
      (∃ t, exec (.apply w n false) s = .next t ∧ (t.cc n).apply = false ∧ (t.cc n).frozen = some (s.cc n).shadow ∧
        t.get (AX_CC_PSTAGE_HOLDW n) = 0)) ∧
    (∀ l : Tab Word, s.tickLeft = true → s.now = s.tickAt →
      ((s.cc n).frozen = some l ∧ (s.cc n).apply = false) ∨ ((s.cc n).frozen = none ∧ (s.cc n).apply = true ∧ (s.cc n).shadow = l) →
      (∀ x ∈ l, x.1 ∈ stagedOffsets) → (l.map (·.1)).Nodup →
      ∃ t, exec (.stagedApplyTake n) s = .next t ∧ (∀ x ∈ l, t.rd (AX_BIND n + x.1) = x.2) ∧ (t.cc n).apply = false ∧
        (t.cc n).frozen = none ∧
        t.get (AX_CC_PSTAGE_PEND n) = (if (s.cc n).staged && !(s.cc n).apply then 1 else 0)) ∧
    (∀ (l m : Tab Word), s.tickLeft = true → s.now = s.tickAt → (s.cc n).frozen = some l → (s.cc n).apply = true →
      (s.cc n).shadow = m → (∀ x ∈ l ++ m, x.1 ∈ stagedOffsets) → (m.map (·.1)).Nodup →
      ∃ t, exec (.stagedApplyTake n) s = .next t ∧ (∀ x ∈ m, t.rd (AX_BIND n + x.1) = x.2) ∧
        t.get (AX_CC_PSTAGE_PEND n) = 0)

/-- The hold ramp and the brake (R82, R86): after HOLD_DLY ticks the ramp begins; at IHOLD the slot is HOLDING and, without
injection, at the hold rate; the brake release starts when the slot holds, is RELEASED after T_PULL, and an engaging brake
ends after T_ENG with the current ramping down. -/
def Obligations.HoldAndBrakeRows : Prop :=
  ∀ (s : State) (n : Fin 16), s.up = true →
    (∀ k : Nat, (s.cc n).ramp = .delay k → s.slotState n = stHold → s.get (AX_CC_HOLD_HOLDDLY n) ≤ k →
      ∃ t, exec (.holdDlyExpiry n) s = .next t ∧ (t.cc n).ramp = .fall 0 ∧ t.regs = s.regs) ∧
    (∀ k : Nat, (s.cc n).ramp = .fall k → s.slotState n = stHold → 1 ≤ s.rampDone n (s.now - s.tickAt) →
      ∃ t, exec (.holding n) s = .next t ∧ (t.cc n).ramp = .held ∧ t.get (AX_CC_ST_HOLDING n) = 1 ∧
        (s.injecting n = false → t.get (AX_CC_ST_LOWRATE n) = 1)) ∧
    (s.get (AX_BRK_ST_BRKWAIT n) = 1 → s.get (AX_BRK_ST_BSTATE n) = 0 → s.slotState n = stHold → s.ctlFactory n = true →
      (s.isRemote n = true ∨ s.get (AX_CC_ST_HOLDING n) = 1) → s.searchHolds n = false → (s.pr n).blocked = false →
      ∃ t, exec (.brakeReleaseStart n) s = .next t ∧ t.get (AX_BRK_ST_BSTATE n) = 1 ∧ t.get (AX_BRK_ST_BRKWAIT n) = 1 ∧
        (t.cc n).brkAt = s.now ∧ ∀ a, a ≠ AX_BRK_ST n → t.rd a = s.rd a) ∧
    (s.get (AX_BRK_ST_BSTATE n) = 1 →
      ∃ t, exec (.brakePullEnd n) s = .next t ∧ t.get (AX_BRK_ST_BSTATE n) = 2 ∧ t.get (AX_BRK_ST_BRKWAIT n) = 0 ∧
        t.now = max s.now ((s.cc n).brkAt + s.get (AX_BRK_T_TPULL n) * 1000000) ∧ ∀ a, a ≠ AX_BRK_ST n → t.rd a = s.rd a) ∧
    (s.get (AX_BRK_ST_BSTATE n) = 3 →
      ∃ t, exec (.brakeEngageEnd n) s = .next t ∧ t.get (AX_BRK_ST_BSTATE n) = 0 ∧ (t.cc n).ramp = .down 0 ∧
        t.now = max s.now ((s.cc n).brkAt + s.get (AX_BRK_T_TENG n) * 1000000) ∧ ∀ a, a ≠ AX_BRK_ST n → t.rd a = s.rd a)

/-- The search and its ends (R95, R97): a lock goes on to the polarity test with POL_EN and else completes the search; the
polarity test completes it, turned by half a revolution when the rise along −d̂ is the shorter, or fails when the two differ
too little; a completed search is valid unless a condition of R110 stands against it; the timeout fails it; forced alignment
and injection end as their rules say. -/
def Obligations.SearchRows : Prop :=
  ∀ (s : State) (n : Fin 16), s.up = true →
    (∀ a : Nat, (s.pr n).lockAt = some a → s.get (AX_PR_ST_EMODE n) = 1 → s.get (AX_PR_CFG_POLEN n) = 1 → (s.pr n).noPol = false →
      ∃ t, exec (.searchLock n) s = .next t ∧ t.get (AX_PR_ST_EMODE n) = 2 ∧ t.now = max s.now (a + 10000000)) ∧
    (∀ a : Nat, (s.pr n).lockAt = some a → s.get (AX_PR_ST_EMODE n) = 1 → s.get (AX_PR_CFG_POLEN n) = 0 →
      s.get (AX_PR_ST_VALID n) = 0 → s.get (AX_CC_ST_HOLDING n) = 0 →
      ∃ t, exec (.searchLock n) s = .next t ∧ t.get (AX_PR_ST_EMODE n) = 3 ∧ (t.pr n).searched = true ∧
        t.now = max s.now (a + 10000000) ∧
        ((s.pr n).blocked = false → (s.pr n).forced = none → s.get (AX_PR_ST_MODEL n) = 0 →
          ((s.put (AX_PR_ST_EMODE n) 3).prConditions n).2 = false → t.get (AX_PR_ST_VALID n) = 1)) ∧
    (∀ tp tn : Nat, s.get (AX_PR_ST_EMODE n) = 2 → (s.pr n).pol = 2 → 3 * (tp + tn) ≤ 200 * ((tp : Int) - tn).natAbs → tp + tn ≠ 0 →
      s.get (AX_PR_ST_VALID n) = 0 → s.get (AX_CC_ST_HOLDING n) = 0 →
      ∃ t, exec (.polarityDone n tp tn) s = .next t ∧ t.get (AX_PR_ST_EMODE n) = 3 ∧ (t.pr n).searched = true ∧
        (t.pr n).th = (if tn < tp then ratMod ((s.pr n).th + 32768) 65536 else (s.pr n).th) ∧
        ((s.pr n).blocked = false → (s.pr n).forced = none → s.get (AX_PR_ST_MODEL n) = 0 →
          ((s.put (AX_PR_ST_EMODE n) 3).prConditions n).2 = false → t.get (AX_PR_ST_VALID n) = 1)) ∧
    (∀ tp tn : Nat, s.get (AX_PR_ST_EMODE n) = 2 → (s.pr n).pol = 2 → 200 * ((tp : Int) - tn).natAbs < 3 * (tp + tn) →
      ∃ t, exec (.polarityDone n tp tn) s = .next t ∧ t.get (AX_PR_ST_POLFAIL n) = 1 ∧ t.get (AX_PR_ST_SEARCHFAIL n) = 1) ∧
    (s.get (AX_PR_ST_EMODE n) = 1 →
      ∃ t, exec (.searchTimeout n) s = .next t ∧ t.get (AX_PR_ST_SEARCHFAIL n) = 1 ∧
        (s.pr n).searchAt + s.prPar n (AX_PR_LOCK_LOCKMS n) * 1000000 ≤ t.now) ∧
    (∀ a : Nat, (s.pr n).forced = some a → s.get (AX_BRK_ST_BRKWAIT n) = 0 → s.get (AX_PR_ST_VALID n) = 0 →
      ¬ (s.get (AX_CC_ST_HOLDING n) = 1 ∧ s.get (AX_CC_CFG_MODE n) = 0 ∧ s.get (AX_PR_CFG_HINJ n) = 0) →
      ∃ t, exec (.forcedAlignEnd n) s = .next t ∧ (t.pr n).forced = none ∧ (t.pr n).searched = true ∧
        t.get (AX_PR_ST_EMODE n) = (if s.bit (AX_PR_CFG_INJEN n) then 3 else 7) ∧ t.now = max s.now (a + 200000000) ∧
        (s.bit (AX_PR_CFG_INJEN n) = false → t.get (AX_PR_ST_VALID n) = 0)) ∧
    ((s.pr n).inj = true → 8 ≤ (s.pr n).slow → s.get (AX_PR_ST_EMODE n) = 3 ∨ s.get (AX_PR_ST_EMODE n) = 4 →
      ∃ t, exec (.injectionOff n) s = .next t ∧ (t.pr n).inj = false ∧ (t.pr n).th = (s.pr n).th ∧
        t.get (AX_PR_ST_EMODE n) = 5 ∧ t.get (AX_PR_ST_VALID n) = s.get (AX_PR_ST_VALID n)) ∧
    ((s.pr n).armed = false → max (s.prPar n (AX_PR_CFG_REN n)) 1 ≤ (s.pr n).clear_ →
      ∃ t, exec (.stallRearm n) s = .next t ∧ (t.pr n).armed = true ∧ (t.pr n).crit = none ∧ (t.pr n).slip = none ∧ t.regs = s.regs) ∧
    (8 ≤ (s.pr n).bad → s.get (AX_PR_ST_MODEL n) = 0 → s.get (AX_PR_ST_VALID n) = 0 →
      ∃ t, exec (.model n) s = .next t ∧ t.get (AX_PR_ST_MODEL n) = 1 ∧ t.get (AX_PR_ST_VALID n) = 0 ∧ t.coll = s.coll)

/-- The estimator's commands (R104 to R111): a return from fallback clears FALLBACK and the speed loop; RESEARCH at rest in
HOLD starts the search again; IDENT runs in IDLE and stores LD and LQ; configuration and parameter writes are taken in their
states and ranges and else answered ERR 5. -/
def Obligations.EstimatorRows : Prop :=
  ∀ (s : State) (w : Writer) (n : Fin 16) (v : Word), s.up = true → s.owns w n = true →
    (s.canResume n = true → s.get (AX_PR_CFG_AUTOCL n) = 1 → 64 ≤ (s.pr n).good →
      ∃ t, exec (.autoclReturn n) s = .next t ∧ t.get (AX_PR_ST_FALLBACK n) = 0 ∧ (t.cc n).xv = 0 ∧ (t.cc n).iqRef = 0) ∧
    (s.canResume n = true →
      ∃ t, exec (.resumecl w n) s = .next t ∧ t.get (AX_PR_ST_FALLBACK n) = 0 ∧ (t.cc n).xv = 0 ∧ (t.cc n).iqRef = 0 ∧
        ∀ a, a ≠ AX_PR_ST n → t.rd a = s.rd a) ∧
    (s.canResume n = false →
      ∃ t, exec (.resumecl w n) s = .next t ∧ t.get (AX_STATE_ERR n) = 5 ∧ ∀ a, a ≠ AX_STATE n → t.rd a = s.rd a) ∧
    (s.slotState n = stHold → s.atRest n = true → s.usesPrusik n = true →
      ∃ t, exec (.research w n) s = .next t ∧ t.get (AX_PR_ST_EMODE n) = 1 ∧ t.get (AX_PR_ST_VALID n) = 0 ∧
        t.get (AX_CC_ST_HOLDING n) = 0 ∧ t.get (AX_CC_ST_LOWRATE n) = 0 ∧ (t.pr n).searchAt = s.now) ∧
    (s.slotState n = stRun → ∃ t, exec (.research w n) s = .next t ∧ t.get (AX_STATE_ERR n) = 5 ∧ t.prs = s.prs) ∧
    (s.slotState n = stIdle → s.get (AX_CC_CAL_BUSY n) = 0 → s.get (AX_PR_CTRL_BUSY n) = 0 →
      ∃ t, exec (.ident w n) s = .next t ∧ t.get (AX_PR_CTRL_BUSY n) = 1 ∧ ∀ a, a ≠ AX_PR_CTRL n → t.rd a = s.rd a) ∧
    (∀ rw ld lq : Int, s.get (AX_PR_CTRL_BUSY n) = 1 → 0 < ld → ld < 65536 → 0 < lq → lq < 65536 →
      ∃ t, exec (.identDone n rw ld lq false) s = .next t ∧ (t.get (AX_PR_L_LD n) : Int) = ld ∧ (t.get (AX_PR_L_LQ n) : Int) = lq ∧
        t.get (AX_PR_CTRL_BUSY n) = 0 ∧ t.get (AX_PR_CTRL_DONE n) = 1 ∧
        (0 ≤ rw → rw < 65536 → (t.get (AX_CC_MOTOR_RW n) : Int) = rw)) ∧
    (∀ rw ld lq : Int, s.get (AX_PR_CTRL_BUSY n) = 1 →
      ∃ t, exec (.identDone n rw ld lq true) s = .next t ∧ t.get (AX_PR_CTRL_BUSY n) = 0 ∧ t.get (AX_PR_CTRL_FAIL n) = 1 ∧
        t.get (AX_PR_CTRL_FAILCODE n) = 2 ∧ t.rd (AX_PR_L n) = s.rd (AX_PR_L n) ∧
        t.rd (AX_CC_MOTOR n) = s.rd (AX_CC_MOTOR n)) ∧
    (s.slotState n = stIdle →
      ∃ t, exec (.prCfgWrite w n v) s = .next t ∧ t.rd (AX_PR_CFG n) = v &&& 0x00FFFFFE#32 ∧ ∀ a, a ≠ AX_PR_CFG n → t.rd a = s.rd a) ∧
    (s.slotState n ≠ stIdle → fieldOf v (AX_PR_CFG_INJEN n) ≠ s.get (AX_PR_CFG_INJEN n) →
      ∃ t, exec (.prCfgWrite w n v) s = .next t ∧ t.rd (AX_PR_CFG n) = s.rd (AX_PR_CFG n) ∧ t.get (AX_STATE_ERR n) = 5) ∧
    (∀ i : Fin 8, s.prParamOk n i v = true →
      ∃ t, exec (.prParamWrite w n i v) s = .next t ∧ t.rd (AX_PR_CFG n + 4 + 4 * i) = v &&& prParamMask i ∧
        ∀ a, a ≠ AX_PR_CFG n + 4 + 4 * i.val → t.rd a = s.rd a) ∧
    (∀ i : Fin 8, s.prParamOk n i v = false →
      ∃ t, exec (.prParamWrite w n i v) s = .next t ∧ t.get (AX_STATE_ERR n) = 5 ∧ ∀ a, a ≠ AX_STATE n → t.rd a = s.rd a)

/-- Passes, memory errors and traces of an engine (R116, R119, R121, R122, R129): a due instant starts a pass of a running
engine that is not in one, and counts in OVERRUN when it is; a host's word lands in data memory at any time and in program
memory only of an IDLE, STOPPED engine, whose LOADED it clears; an uncorrectable word is shown in KEn_ECC and retires the engine; the trace actions set
STATE. -/
def Obligations.EnginePassRows : Prop :=
  ∀ (s : State) (e : Fin 20) (v : Word), s.up = true →
    (∀ a : Nat, (s.engine e).due = some a → s.get (KE_STATUS_RUN e) = 2 → (s.engine e).inPass = false → (s.engine e).endAt ≤ a →
      s.factoryKind e = 0 →
      ∃ t, exec (.enginePassStart e) s = .next t ∧ (t.engine e).inPass = true ∧ (t.engine e).inst = a ∧ (t.engine e).cyc = 0 ∧
        (t.engine e).due = none ∧ (t.engine e).pc = (s.engine e).pc) ∧
    (∀ a : Nat, (s.engine e).due = some a → s.get (KE_STATUS_RUN e) = 2 → (s.engine e).inPass = true →
      ∃ t, exec (.enginePassStart e) s = .next t ∧ t.get (KE_OVERRUN_V e) = (s.get (KE_OVERRUN_V e) + 1) % 2 ^ 32) ∧
    (∀ i : Fin 16384, s.get (KE_STATUS_POOL e) = 0 → s.get (KE_STATUS_RUN e) = 0 →
      ∃ t, exec (.programMemoryWrite e i v) s = .next t ∧ t.progWord e i = v ∧ t.get (KE_STATUS_LOADED e) = 0 ∧
        ∀ a, a ≠ KE_STATUS e → t.rd a = s.rd a) ∧
    (∀ i : Fin 16384, s.get (KE_STATUS_POOL e) ≠ 0 ∨ s.get (KE_STATUS_RUN e) ≠ 0 →
      ∃ t, exec (.programMemoryWrite e i v) s = .next t ∧ t.get (KE_STATUS_ERR e) = 1 ∧ t.mem = s.mem ∧ t.engines = s.engines) ∧
    (∀ i : Fin 8192, ∃ t, exec (.dataMemoryWrite e i v) s = .next t ∧ t.dataWord e i = v ∧ t.regs = s.regs) ∧
    (∀ (m : Fin 3) (i : Fin 16384), s.get (KE_STATUS_POOL e) = 0 →
      ∃ t, exec (.eccUncorrectable (.engineMem e m i)) s = .next t ∧ t.get (KE_ECC_UE e) = 1 ∧ t.get (KE_ECC_MEM e) = m.val ∧
        t.rd (KE_ECCADR e) = BitVec.ofNat 32 (4 * i.val) ∧
        ((∀ n : Nat, s.swapEarly n = false) → t.get (KE_STATUS_POOL e) = 3 ∧ t.get (KE_STATUS_RUN e) = 0)) ∧
    (∃ t, exec (.traceArm e) s = .next t ∧ t.get (KE_TRCFG_STATE e) = 1 ∧ t.get (KE_TRPOS_COUNT e) = 0 ∧ (t.engine e).trNext = 0) ∧
    (∃ t, exec (.traceStop e) s = .next t ∧ t.get (KE_TRCFG_STATE e) = 0 ∧ ∀ a, a ≠ KE_TRCFG e → t.rd a = s.rd a) ∧
    (s.get (KE_TRCFG_STATE e) = 1 →
      ∃ t, exec (.traceForce e) s = .next t ∧ t.get (KE_TRCFG_STATE e) = 2 ∧ (t.engine e).trLeft = s.get (KE_TRCFG_POST e) ∧
        t.get (KE_TRPOS_TRIGIDX e) = ((s.engine e).trNext + 4095) % 4096 ∧ t.rd64 (KE_TRTIME e) = s.now % 2 ^ 64) ∧
    (s.get (KE_TRCFG_STATE e) = 2 → (s.engine e).trLeft = 0 →
      ∃ t, exec (.traceDone e) s = .next t ∧ t.get (KE_TRCFG_STATE e) = 3 ∧ ∀ a, a ≠ KE_TRCFG e → t.rd a = s.rd a)

/-- Loading, running and retiring an engine (R123, R124, R137): LOAD is taken with the checks of loadErr met and else
answered in ERR; its completion sets LOADED and the route; START runs a free-standing route from its entry with cleared
registers; HALT waits for the next wait; RETIRE takes an IDLE engine only and UNRETIRE a RETIRED one, which comes back IDLE
with its memories cleared. -/
def Obligations.EngineControlRows : Prop :=
  ∀ (s : State) (w : Writer) (e : Fin 20), s.up = true →
    (∀ r : Fin 256, s.owns w (s.engineAnchor e) = true → s.loadErr e r = 0 →
      ∃ t, exec (.engineLoad w e r) s = .next t ∧ t.get (KE_STATUS_RUN e) = 1 ∧ t.get (KE_STATUS_LOADED e) = 0 ∧
        (t.engine e).loading = some (r.val, (s.dirImg r).route r) ∧ t.get (KE_CTRL_ROUTE e) = r.val ∧
        ∀ a, a ≠ KE_STATUS e → a ≠ KE_CTRL e → t.rd a = s.rd a) ∧
    (∀ r : Fin 256, s.owns w (s.engineAnchor e) = true → s.loadErr e r ≠ 0 →
      ∃ t, exec (.engineLoad w e r) s = .next t ∧ t.get (KE_STATUS_ERR e) = s.loadErr e r ∧ t.engines = s.engines ∧
        t.get (KE_STATUS_RUN e) = s.get (KE_STATUS_RUN e)) ∧
    (∀ (i : Nat) (r : Route), s.engineSlot e = none → (s.engine e).loading = some (i, r) →
      ∃ t, exec (.loadDone e) s = .next t ∧ (t.engine e).route = some r ∧ (t.engine e).loading = none ∧
        t.get (KE_STATUS_LOADED e) = 1 ∧ t.get (KE_STATUS_RUN e) = 0 ∧ t.get (KE_ISA_RIDX e) = i % 256) ∧
    (∀ r : Route, s.owns w (s.engineAnchor e) = true → s.get (KE_STATUS_POOL e) = 0 → s.get (KE_STATUS_RUN e) = 0 →
      s.get (KE_STATUS_LOADED e) = 1 → (s.engine e).route = some r → r.role = 2 →
      ∃ t, exec (.start w e) s = .next t ∧ t.get (KE_STATUS_POOL e) = 1 ∧ t.get (KE_STATUS_RUN e) = 2 ∧
        (t.engine e).pc = r.entry ∧ (t.engine e).g = [] ∧ (t.engine e).stack = [] ∧ t.get (KE_STATUS_TRAP e) = 0) ∧
    (∀ r : Route, s.owns w (s.engineAnchor e) = true → s.get (KE_STATUS_POOL e) = 0 → s.get (KE_STATUS_RUN e) = 0 →
      s.get (KE_STATUS_LOADED e) = 1 → (s.engine e).route = some r → r.role ≠ 2 →
      ∃ t, exec (.start w e) s = .next t ∧ t.get (KE_STATUS_ERR e) = 6 ∧ t.engines = s.engines) ∧
    (s.owns w (s.engineAnchor e) = true → s.get (KE_STATUS_ROLE e) = 0 → s.get (KE_STATUS_POOL e) = 1 →
      s.get (KE_STATUS_RUN e) = 2 → ∃ t, exec (.haltAction w e) s = .next t ∧ (t.engine e).halt = true ∧ t.regs = s.regs) ∧
    (s.owns w (s.engineAnchor e) = true → s.get (KE_STATUS_POOL e) = 3 →
      (∃ t, exec (.haltAction w e) s = .next t ∧ t.get (KE_STATUS_ERR e) = 5 ∧ t.engines = s.engines) ∧
      (∃ t, exec (.start w e) s = .next t ∧ t.get (KE_STATUS_ERR e) = 5 ∧ t.engines = s.engines)) ∧
    (∀ k : Fin 32, k.val = e.val → s.get (KE_STATUS_POOL e) = 0 →
      ∃ t, exec (.retire k) s = .next t ∧ t.get (KE_STATUS_POOL e) = 3 ∧ t.get (KE_STATUS_RUN e) = 0 ∧
        t.get ENG_RET_V / 2 ^ e.val % 2 = 1 ∧ t.get ENG_RETCMD_ENG = e.val) ∧
    (∀ k : Fin 32, k.val = e.val → s.get (KE_STATUS_POOL e) ≠ 0 →
      ∃ t, exec (.retire k) s = .next t ∧ t.get ENG_RETCMD_REFUSED = 1 ∧ t.rd (KE_STATUS e) = s.rd (KE_STATUS e) ∧ t.engines = s.engines) ∧
    (∀ k : Fin 32, k.val = e.val → s.get (KE_STATUS_POOL e) = 3 →
      ∃ t, exec (.unretire k) s = .next t ∧ (t.engine e).unret = true ∧ t.get ENG_RETCMD_ENG = e.val ∧
        t.get (KE_STATUS_POOL e) = 3) ∧
    (∀ k : Fin 32, 20 ≤ k.val →
      ∃ t, exec (.unretire k) s = .next t ∧ t.get ENG_RETCMD_REFUSED = 1 ∧ t.engines = s.engines) ∧
    ((s.engine e).unret = true → s.get (KE_STATUS_POOL e) = 3 →
      ∃ t, exec (.unretireDone e) s = .next t ∧ t.get (KE_STATUS_POOL e) = 0 ∧ t.get (KE_STATUS_RUN e) = 0 ∧
        t.get (KE_STATUS_LOADED e) = 0 ∧ t.get ENG_RET_V / 2 ^ e.val % 2 = 0 ∧ t.engine e = {} ∧
        (∀ a, progBase e ≤ a → a < progBase e + 0x18000 → t.rdByte a = 0) ∧
        ∀ a, a < progBase e ∨ progBase e + 0x18000 ≤ a → t.rdByte a = s.rdByte a)

/-- Lead swaps and emergency swaps (R133 to R136): GO is refused with its RESULT and nothing else, or the swap enters LOAD;
CANCEL, the timeouts and the mismatch end it before its switch with RESULT 8, 13 and 7; loading goes on to WAITCKP; the switch
makes the target act, the release ends it with RESULT 1; a cold emergency swap of the control role takes the gap after two loop
instants and raises its source; an emergency swap ends with RESULT 11, or 12 after a gap. -/
def Obligations.SwapRows : Prop :=
  ∀ (s : State) (w : Writer) (n : Fin 16) (v : Word), s.up = true →
    (s.owns w n = true → s.swapRefusal n v ≠ 0 →
      ∃ t, exec (.swapGo w n v) s = .next t ∧ t.get (AX_SWAPST_RESULT n) = s.swapRefusal n v ∧
        t.get (AX_SWAPST_PHASE n) = s.get (AX_SWAPST_PHASE n) ∧ t.swaps = s.swaps ∧ ∀ a, a ≠ AX_SWAPST n → t.rd a = s.rd a) ∧
    (s.owns w n = true → s.swapRefusal n v = 0 →
      ∃ t, exec (.swapGo w n v) s = .next t ∧ t.get (AX_SWAPST_PHASE n) = 1 ∧ t.get (AX_SWAPST_RESULT n) = 0 ∧
        (t.swap n).tgt = fieldOf v (AX_SWAP_TARGET n) ∧ t.get (KE_STATUS_POOL (fieldOf v (AX_SWAP_TARGET n))) = 2) ∧
    (s.owns w n = true → s.swapEarly n = true →
      ∃ t, exec (.swapCancel w n v) s = .next t ∧ t.get (AX_SWAPST_PHASE n) = 0 ∧ t.get (AX_SWAPST_RESULT n) = 8 ∧ t.swap n = {}) ∧
    (s.get (AX_SWAPST_PHASE n) = 1 →
      ∃ t, exec (.swapLoadDone n) s = .next t ∧ t.get (AX_SWAPST_PHASE n) = 2 ∧ (t.swap n).ticks = 0 ∧ (t.swap n).tgt = (s.swap n).tgt) ∧
    (s.get (AX_SWAPST_PHASE n) = 2 → 64 ≤ (s.swap n).ticks →
      ∃ t, exec (.waitckpTimeout n) s = .next t ∧ t.get (AX_SWAPST_PHASE n) = 0 ∧ t.get (AX_SWAPST_RESULT n) = 13) ∧
    (s.get (AX_SWAPST_PHASE n) = 3 → 64 ≤ (s.swap n).passes → (s.swap n).matched = false →
      ∃ t, exec (.shadowMismatchEnd n) s = .next t ∧ t.get (AX_SWAPST_PHASE n) = 0 ∧ t.get (AX_SWAPST_RESULT n) = 7) ∧
    (s.get (AX_SWAPST_PHASE n) = 3 → (s.swap n).matched = true → s.switchPass n = true → (s.swap n).tgt < 20 →
      (∀ x ∈ (s.swap n).vec, x.1 < 32) →
      ∃ t, exec (.switch n) s = .next t ∧ t.get (AX_SWAPST_PHASE n) = 4 ∧ t.get (KE_STATUS_RUN (s.swap n).tgt) = 2) ∧
    (s.get (AX_SWAPST_PHASE n) = 4 → (s.swap n).switched = true → (s.swap n).role = 0 → (s.swap n).tgt < 20 →
      ∃ t, exec (.swapRelease n) s = .next t ∧ t.get (AX_SWAPST_PHASE n) = 0 ∧ t.get (AX_SWAPST_RESULT n) = 1 ∧
        t.get (AX_ENGSEL_CTLENG n) = (s.swap n).tgt ∧ t.swap n = {}) ∧
    ((s.swap (emKey n 0)).emerg = true → (s.swap (emKey n 0)).loaded = false → 2 ≤ (s.swap (emKey n 0)).instants →
      (s.swap (emKey n 0)).gapped = false → s.isLocal n = true → s.energised n = true →
      ∃ t, exec (.emergencyGap n) s = .next t ∧ t.get (AX_SWAPST_GAPRUN n) = 1 ∧ (t.swap (emKey n 0)).gapped = true ∧
        t.get (FLT_SRC_SEEN (0x100 + 16 * n + 9)) = 1) ∧
    (∀ role : Fin 2, [0, 1].find? (s.takesOver n) = some role.val → s.energised n = true → (s.swap (emKey n role)).tgt < 20 →
      ∃ t, exec (.emergencyTakeover n) s = .next t ∧ (t.swap (emKey n role)).emerg = false ∧
        t.get (AX_SWAPST_RESULT n) = (if (s.swap (emKey n role)).gapped then 12 else 11) ∧
        t.get (KE_STATUS_POOL (s.swap (emKey n role)).tgt) = 1 ∧
        ((s.swap (emKey n (1 - role.val))).emerg = false → t.get (AX_SWAPST_PHASE n) = 0))

/-- A false guard (R139), whatever the word is: one command of the engine's instruction set goes on to the next word after one
cycle, waiting for its predicate only, and no command of the set writes a register, touches memory or traps. -/
def Obligations.FalseGuardRule : Prop :=
  ∀ (s : State) (e : Fin 20) (w : Word), s.up = true → s.fetches e w → guardHolds (s.engine e) w = false →
    (∃ c ∈ Instr.routeRows e, s.onEngine c e (fun y =>
      (s.engine e).sameData y ∧ y.cyc = (s.engine e).ready [kPred (guardPred w)] + 1 ∧ y.rdy = (s.engine e).rdy ∧
        y.inPass = (s.engine e).inPass ∧ ((s.engine e).loops = [] → y.pc = (s.engine e).pc + 1))) ∧
    ∀ c ∈ Instr.routeRows e, s.onEngine c e (fun y => (s.engine e).sameData y ∧ y.inPass = (s.engine e).inPass)

/-- The integer register form (R144): each listed func gives its result in gd (nothing in g0) with issue 1 and its latency; a
func that is not listed traps with code 2. -/
def Obligations.IntegerRegisterForm : Prop :=
  ∀ (s : State) (e : Fin 20) (w a b : Word), s.up = true → s.issues e w → opOf w = 0x01 →
    a = (s.engine e).reg (fw w 16 12) → b = (s.engine e).reg (fw w 11 7) →
    let does (c : Instr) (v : Word) (lat : Nat) : Prop := s.onEngine c e (fun y =>
      (s.engine e).result y [kPred (guardPred w), kReg (fw w 16 12), kReg (fw w 11 7)] (fw w 21 17) v lat)
    (fw w 6 0 = 0x00 → does (.add e) (a + b) 1) ∧ (fw w 6 0 = 0x01 → does (.sub e) (a - b) 1) ∧
    (fw w 6 0 = 0x02 → does (.and e) (a &&& b) 1) ∧ (fw w 6 0 = 0x03 → does (.or e) (a ||| b) 1) ∧
    (fw w 6 0 = 0x04 → does (.xor e) (a ^^^ b) 1) ∧ (fw w 6 0 = 0x05 → does (.shl e) (a <<< (b.toNat % 32)) 1) ∧
    (fw w 6 0 = 0x06 → does (.shr e) (a >>> (b.toNat % 32)) 1) ∧
    (fw w 6 0 = 0x07 → does (.sar e) (a.sshiftRight (b.toNat % 32)) 1) ∧
    (fw w 6 0 = 0x08 → does (.mul e) (a * b) 3) ∧
    (fw w 6 0 = 0x09 → does (.mulh e) ((a.signExtend 64 * b.signExtend 64).extractLsb' 32 32) 3) ∧
    (fw w 6 0 = 0x0A → does (.min e) (if a.toInt ≤ b.toInt then a else b) 1) ∧
    (fw w 6 0 = 0x0B → does (.max e) (if a.toInt ≤ b.toInt then b else a) 1) ∧
    (0x0B < fw w 6 0 → s.trapsWith (.trap e) e 2)

/-- The integer immediate form (R145) of the operations that have one: imm12 is sign-extended in place of gb, and a shift with
a bit of [11:5] set traps with code 2. -/
def Obligations.IntegerImmediateForm : Prop :=
  ∀ (s : State) (e : Fin 20) (w a b : Word), s.up = true → s.issues e w →
    a = (s.engine e).reg (fw w 16 12) → b = (BitVec.ofNat 12 (fw w 11 0)).signExtend 32 →
    let does (c : Instr) (v : Word) (lat : Nat) : Prop := s.onEngine c e (fun y =>
      (s.engine e).result y [kPred (guardPred w), kReg (fw w 16 12)] (fw w 21 17) v lat)
    (opOf w = 0x02 → does (.add e) (a + b) 1) ∧ (opOf w = 0x03 → does (.and e) (a &&& b) 1) ∧
    (opOf w = 0x04 → does (.or e) (a ||| b) 1) ∧ (opOf w = 0x05 → does (.xor e) (a ^^^ b) 1) ∧
    (opOf w = 0x09 → does (.mul e) (a * b) 3) ∧
    (opOf w = 0x0A → does (.min e) (if a.toInt ≤ b.toInt then a else b) 1) ∧
    (opOf w = 0x0B → does (.max e) (if a.toInt ≤ b.toInt then b else a) 1) ∧
    (fw w 11 5 = 0 → opOf w = 0x06 → does (.shl e) (a <<< fw w 4 0) 1) ∧
    (fw w 11 5 = 0 → opOf w = 0x07 → does (.shr e) (a >>> fw w 4 0) 1) ∧
    (fw w 11 5 = 0 → opOf w = 0x08 → does (.sar e) (a.sshiftRight (fw w 4 0)) 1) ∧
    (fw w 11 5 ≠ 0 → (opOf w = 0x06 → s.trapsWith (.shl e) e 2) ∧ (opOf w = 0x07 → s.trapsWith (.shr e) e 2) ∧
      (opOf w = 0x08 → s.trapsWith (.sar e) e 2))

/-- LDI and LDI_H (R146): H = 0 writes imm16 sign-extended to gd; H = 1 writes imm16 to gd[31:16] and keeps gd[15:0]; issue and
latency are 1, H = 1 waits for gd, and nothing is written to g0. -/
def Obligations.LoadImmediateRule : Prop :=
  ∀ (s : State) (e : Fin 20) (w : Word), s.up = true → s.issues e w → opOf w = 0x10 →
    (fw w 16 16 = 0 → s.onEngine (.ldi e) e (fun y =>
      (s.engine e).result y [kPred (guardPred w)] (fw w 21 17) ((BitVec.ofNat 16 (fw w 15 0)).signExtend 32) 1)) ∧
    (fw w 16 16 = 1 → s.onEngine (.ldiH e) e (fun y =>
      (s.engine e).result y [kPred (guardPred w), kReg (fw w 21 17)] (fw w 21 17)
        (BitVec.ofNat 16 (fw w 15 0) ++ ((s.engine e).reg (fw w 21 17)).extractLsb' 0 16) 1))

/-- CMP (R148), register form with zero field [3:0] and immediate form: the predicate becomes the test, ANDed or ORed with its
old value, or inverted, by the mode; p0 is not written; g registers stay. -/
def Obligations.CompareRule : Prop :=
  ∀ (s : State) (e : Fin 20) (w b : Word) (cond mode pd : Nat), s.up = true → s.issues e w → pd = fw w 21 19 →
    (opOf w = 0x0C ∧ fw w 3 0 = 0 ∧ cond = fw w 8 6 ∧ mode = fw w 5 4 ∧ b = (s.engine e).reg (fw w 13 9) ∨
     opOf w = 0x0D ∧ cond = fw w 13 11 ∧ mode = fw w 10 9 ∧ b = (BitVec.ofNat 9 (fw w 8 0)).signExtend 32) →
    s.onEngine (.cmp e) e (fun y => y.g = (s.engine e).g ∧ y.acc = (s.engine e).acc ∧ y.blk = (s.engine e).blk ∧
      (∀ p < 8, p ≠ pd → y.pred p = (s.engine e).pred p) ∧
      (pd ≠ 0 →
        (mode = 0 → y.pred pd = condHolds cond ((s.engine e).reg (fw w 18 14)) b) ∧
        (mode = 1 → y.pred pd = ((s.engine e).pred pd && condHolds cond ((s.engine e).reg (fw w 18 14)) b)) ∧
        (mode = 2 → y.pred pd = ((s.engine e).pred pd || condHolds cond ((s.engine e).reg (fw w 18 14)) b)) ∧
        (mode = 3 → y.pred pd = !condHolds cond ((s.engine e).reg (fw w 18 14)) b)))

/-- Loads and stores of an engine (R147): at an aligned address of data memory or of cell memory LD reads the word and ST
stores gd's, changing no other byte; any other address, and a store to the checkpoint buffers, traps with code 3. -/
def Obligations.EngineMemoryRows : Prop :=
  ∀ (s : State) (e : Fin 20) (w : Word) (a : Nat), s.up = true → s.issues e w →
    a = ((s.engine e).reg (fw w 16 12) + 4#32 * (BitVec.ofNat 12 (fw w 11 0)).signExtend 32).toNat →
    (opOf w = 0x0E → a % 4 = 0 → a < 0x8000 → s.onEngine (.ld e) e (fun y =>
      (s.engine e).result y [kPred (guardPred w), kReg (fw w 16 12)] (fw w 21 17) (s.dataWord e (a / 4)) 2)) ∧
    (opOf w = 0x0E → a % 4 = 0 → 0x80000 ≤ a → a < 0xE0000 → s.onEngine (.ld e) e (fun y =>
      (s.engine e).onlyReg y (fw w 21 17) (s.rdMem (0x600000 + (a - 0x80000))))) ∧
    (opOf w = 0x0E → a % 4 ≠ 0 ∨ (0x8000 ≤ a ∧ a < 0x80000) ∨ 0x100000 ≤ a → s.trapsWith (.ld e) e 3) ∧
    (opOf w = 0x0F → a % 4 = 0 → a < 0x8000 →
      ∃ t, exec (.st e) s = .next t ∧ t.dataWord e (a / 4) = (s.engine e).reg (fw w 21 17) ∧ t.regs = s.regs ∧
        (t.engine e).g = (s.engine e).g ∧ ∀ b, (b < dataBase e + a ∨ dataBase e + a + 4 ≤ b) → t.rdByte b = s.rdByte b) ∧
    (opOf w = 0x0F → a % 4 = 0 → 0x80000 ≤ a → a < 0xE0000 →
      ∃ t, exec (.st e) s = .next t ∧ t.rdMem (0x600000 + (a - 0x80000)) = (s.engine e).reg (fw w 21 17) ∧ t.regs = s.regs ∧
        (t.engine e).g = (s.engine e).g ∧
        ∀ b, (b < 0x600000 + (a - 0x80000) ∨ 0x600000 + (a - 0x80000) + 4 ≤ b) → t.rdByte b = s.rdByte b) ∧
    (opOf w = 0x0F → a % 4 ≠ 0 ∨ (0x8000 ≤ a ∧ a < 0x80000) ∨ 0xE0000 ≤ a → s.trapsWith (.st e) e 3)

/-- Block instructions (R117, R118, R150, R153): BLD reads sixteen words and the exponent into a block, BST stores a block;
BNORM keeps the value of every element; BSCALE by 2^k adds k to the exponent; BSAT changes only the named elements; BINT adds
two blocks, and changes nothing while the SAT bit it names is set. -/
def Obligations.BlockRows : Prop :=
  ∀ (s : State) (e : Fin 20) (w : Word) (x : Engine), s.up = true → s.issues e w → x = s.engine e →
    (opOf w = 0x14 → (blockPlaces (x.reg (fw w 17 13)) (signedOf 13 (fw w 12 0))).all Place.ok = true →
      s.onEngine (.bld e) e (fun y => x.onlyBlock y (fw w 21 18) (writeWhole
        (((blockPlaces (x.reg (fw w 17 13)) (signedOf 13 (fw w 12 0))).take 16).map (fun p =>
          ((s.loadPlace e p).toInt : Rat) * pow2 (signedOf 8
            (s.loadPlace e ((blockPlaces (x.reg (fw w 17 13)) (signedOf 13 (fw w 12 0))).getD 16 .bad)).toNat - 23)))).1 ∧ y.sat = x.sat)) ∧
    (opOf w = 0x14 → (blockPlaces (x.reg (fw w 17 13)) (signedOf 13 (fw w 12 0))).all Place.ok = false → s.trapsWith (.bld e) e 3) ∧
    (∀ i < 17, opOf w = 0x15 → addrOf (x.reg (fw w 17 13)) (signedOf 13 (fw w 12 0)) % 4 = 0 →
      addrOf (x.reg (fw w 17 13)) (signedOf 13 (fw w 12 0)) + 68 ≤ 0x8000 →
      (x.block (fw w 21 18)).m.length = 16 →
      ∃ t, exec (.bst e) s = .next t ∧ t.regs = s.regs ∧ (t.engine e).g = x.g ∧ (t.engine e).blk = x.blk ∧
        t.dataWord e (addrOf (x.reg (fw w 17 13)) (signedOf 13 (fw w 12 0)) / 4 + i) =
          (blockWords (x.block (fw w 21 18)) (x.sat.testBit (fw w 21 18))).getD i 0) ∧
    (opOf w = 0x19 → fw w 17 0 = 0 →
      ∃ b : Blk, (∀ i, b.val i = (x.block (fw w 21 18)).val i) ∧ b.e ≤ (x.block (fw w 21 18)).e ∧
        s.onEngine (.bnorm e) e (fun y => x.onlyBlock y (fw w 21 18) b)) ∧
    (opOf w = 0x1A → fw w 12 8 = 0 → fw w 13 13 = 1 → -128 ≤ (x.block (fw w 17 14)).e + signedOf 8 (fw w 7 0) →
      (x.block (fw w 17 14)).e + signedOf 8 (fw w 7 0) ≤ 127 →
      s.onEngine (.bscale e) e (fun y => y.sat = x.sat ∧ x.onlyBlock y (fw w 21 18)
        { x.block (fw w 17 14) with e := (x.block (fw w 17 14)).e + signedOf 8 (fw w 7 0) })) ∧
    (∀ vec : Bool, opOf w = 0x1B → (fw w 9 9 = 1 ↔ vec = true) → fw w 8 8 = 0 → fw w 17 14 + (fw w 13 10 + 1) ≤ 16 →
      ∃ b : Blk, b.e = (x.block (fw w 21 18)).e ∧
        (∀ k, k < fw w 17 14 ∨ fw w 17 14 + (fw w 13 10 + 1) ≤ k → b.m.getD k 0 = (x.block (fw w 21 18)).m.getD k 0) ∧
        s.onEngine (if vec then .bsatV e else .bsat e) e (fun y => x.onlyBlock y (fw w 21 18) b)) ∧
    (opOf w = 0x1C → fw w 9 0 = 0 → x.sat.testBit (fw w 13 10) = true →
      s.onEngine (.bint e) e (fun y => x.sameData y)) ∧
    (opOf w = 0x1C → fw w 9 0 = 0 → x.sat.testBit (fw w 13 10) = false →
      s.onEngine (.bint e) e (fun y => x.onlyBlock y (fw w 21 18) (writeWhole ((List.range 16).map (fun i =>
        (x.block (fw w 21 18)).val i + (x.block (fw w 17 14)).val i))).1)) ∧
    (opOf w = 0x1B → 16 < fw w 17 14 + (fw w 13 10 + 1) → fw w 9 9 = 0 → s.trapsWith (.bsat e) e 2)

/-- Multiply-accumulate and its results (R151, R152, R154). BMAC and BMSU: with Z, or an accumulator of 0, the accumulator
becomes the product or its negative with the exponent sum; else the lower of the two scales is rounded to the higher and the
product added; the result is limited to 56 bits, which sets AOV. BACC writes the accumulator's value, limited in magnitude to
the limit element with L, to one element and sets or clears SAT of the block. BCVT converts a g register to an element, and an
element or an accumulator to a g register with rounding and saturation, which sets CVS. A zero field that is not zero and form
3 trap with code 2. -/
def Obligations.AccumulatorRows : Prop :=
  ∀ (s : State) (e : Fin 20) (w : Word) (x : Engine), s.up = true → s.issues e w → x = s.engine e →
    (∀ (neg : Bool) (p sx ea b v : Int) (a : Acc) (c : Nat), opOf w = (if neg then 0x17 else 0x16) → fw w 18 16 = 0 →
      p = (if neg then -1 else 1) * ((x.block (fw w 15 8 / 16)).m.getD (fw w 15 8 % 16) 0 * (x.block (fw w 7 0 / 16)).m.getD (fw w 7 0 % 16) 0) →
      sx = (x.block (fw w 15 8 / 16)).e + (x.block (fw w 7 0 / 16)).e → a = x.accum (fw w 21 20) →
      ea = (if fw w 19 19 = 1 ∨ a.a = 0 ∨ a.e < sx then sx else a.e) →
      b = (if fw w 19 19 = 1 ∨ a.a = 0 then 0 else if a.e < sx then roundEven ((a.a : Rat) / pow2 (sx - a.e)) else a.a) →
      v = (if fw w 19 19 = 1 ∨ a.a = 0 then p else b + roundEven ((p : Rat) / pow2 (ea - sx))) →
      c = x.ready [kPred (guardPred w), kBlockUnit, kRef (fw w 15 8), kRef (fw w 7 0)] →
      s.onEngine (if neg then .bmsu e else .bmac e) e (fun y =>
        y.accum (fw w 21 20) = { a := max (-2 ^ 55) (min (2 ^ 55 - 1) v), e := ea } ∧
        y.astat.testBit 0 = (decide (v < -2 ^ 55 ∨ 2 ^ 55 - 1 < v) || x.astat.testBit 0) ∧
        (∀ k, k ≠ fw w 21 20 → y.accum k = x.accum k) ∧ y.g = x.g ∧ y.blk = x.blk ∧ y.preds = x.preds ∧ y.sat = x.sat ∧
        y.stack = x.stack ∧ y.cyc = c + 1 ∧ (x.loops = [] → y.pc = x.pc + 1))) ∧
    (∀ (v l : Rat) (p : PartWrite) (sat : Bool), opOf w = 0x18 → fw w 18 16 = 0 → (fw w 19 19 = 0 → fw w 7 0 = 0) →
      v = ((x.accum (fw w 21 20)).a : Rat) * pow2 ((x.accum (fw w 21 20)).e - 46) → l = ratAbs (x.elem (fw w 7 0)) →
      sat = (decide (fw w 19 19 = 1) && decide (l < ratAbs v)) →
      p = writePart (x.block (fw w 15 8 / 16)) [(fw w 15 8 % 16, if sat then ratSign v * l else v)] →
      s.onEngine (.bacc e) e (fun y => x.onlyBlock y (fw w 15 8 / 16) p.b ∧ y.astat = x.astat ∧
        y.sat.testBit (fw w 15 8 / 16) = (sat || p.overflow) ∧
        ∀ k, k ≠ fw w 15 8 / 16 → y.sat.testBit k = x.sat.testBit k)) ∧
    (∀ p : PartWrite, opOf w = 0x1D → fw w 21 20 = 0 → fw w 6 5 = 0 →
      p = writePart (x.block (fw w 14 7 / 16)) [(fw w 14 7 % 16, ((x.reg (fw w 19 15)).toInt : Rat) * pow2 (-(fw w 4 0 : Int)))] →
      s.onEngine (.bcvt e) e (fun y => x.onlyBlock y (fw w 14 7 / 16) p.b ∧ y.astat = x.astat ∧
        (p.overflow = true → y.sat.testBit (fw w 14 7 / 16) = true) ∧ (p.overflow = false → y.sat = x.sat))) ∧
    (∀ (v : Rat) (r : Int), opOf w = 0x1D → fw w 6 5 = 0 →
      (fw w 21 20 = 1 ∧ v = x.elem (fw w 14 7) * pow2 (fw w 4 0)) ∨
      (fw w 21 20 = 2 ∧ fw w 14 9 = 0 ∧
        v = ((x.accum (fw w 8 7)).a : Rat) * pow2 ((x.accum (fw w 8 7)).e - 46) * pow2 (fw w 4 0)) →
      r = max (-2147483648) (min 2147483647 (roundEven v)) →
      s.onEngine (.bcvt e) e (fun y => x.onlyReg y (fw w 19 15) (BitVec.ofInt 32 r) ∧
        y.astat.testBit 2 = (decide (r ≠ roundEven v) || x.astat.testBit 2))) ∧
    (opOf w = 0x16 → fw w 18 16 ≠ 0 → s.trapsWith (.bmac e) e 2) ∧
    (opOf w = 0x17 → fw w 18 16 ≠ 0 → s.trapsWith (.bmsu e) e 2) ∧
    (opOf w = 0x18 → fw w 18 16 ≠ 0 ∨ (fw w 19 19 = 0 ∧ fw w 7 0 ≠ 0) → s.trapsWith (.bacc e) e 2) ∧
    (opOf w = 0x1D → fw w 21 20 = 3 ∨ fw w 6 5 ≠ 0 ∨ (fw w 21 20 = 2 ∧ fw w 14 9 ≠ 0) → s.trapsWith (.bcvt e) e 2)

/-- Transcendental instructions (R155): SINCOS writes sine and cosine to two neighbouring elements, and traps for element 15;
ATAN2 gives an angle within 1 au, 0 with DOM for (0, 0); SQRT gives the root within a relative 2^−22, 0 with DOM for a negative
source; RCP gives the reciprocal within a relative 2^−22, and the saturated value with SAT for 1 / 0. Within the errors of R155
the values are free (notes/assumptions/29.md), so they appear here by the model's names and by their bounds. -/
def Obligations.TranscendentalRows : Prop :=
  ∀ (s : State) (e : Fin 20) (w : Word) (x : Engine), s.up = true → s.issues e w → x = s.engine e →
    (∀ p : PartWrite, opOf w = 0x20 → fw w 8 0 = 0 → fw w 21 14 % 16 ≠ 15 →
      p = writePart (x.block (fw w 21 14 / 16))
        [(fw w 21 14 % 16, sinE (((x.reg (fw w 13 9)).toNat % 65536 : Nat) : Rat)),
         (fw w 21 14 % 16 + 1, cosE (((x.reg (fw w 13 9)).toNat % 65536 : Nat) : Rat))] →
      s.onEngine (.sincos e) e (fun y => x.onlyBlock y (fw w 21 14 / 16) p.b ∧ y.astat = x.astat ∧
        (p.overflow = false → y.sat = x.sat))) ∧
    (opOf w = 0x20 → fw w 21 14 % 16 = 15 ∨ fw w 8 0 ≠ 0 → s.trapsWith (.sincos e) e 2) ∧
    (opOf w = 0x21 → fw w 16 16 = 0 → x.elem (fw w 15 8) = 0 → x.elem (fw w 7 0) = 0 →
      s.onEngine (.atan2 e) e (fun y => x.onlyReg y (fw w 21 17) 0#32 ∧ y.astat.testBit 1 = true)) ∧
    (opOf w = 0x21 → fw w 16 16 = 0 → ¬ (x.elem (fw w 15 8) = 0 ∧ x.elem (fw w 7 0) = 0) →
      ∃ r : Int, ratAbs ((r : Rat) - atan2Au (x.elem (fw w 15 8)) (x.elem (fw w 7 0))) ≤ 1 ∧
        s.onEngine (.atan2 e) e (fun y => y.astat = x.astat ∧ x.onlyReg y (fw w 21 17) (BitVec.ofInt 32 (r % 65536)))) ∧
    (opOf w = 0x21 → fw w 16 16 ≠ 0 → s.trapsWith (.atan2 e) e 2) ∧
    (opOf w = 0x22 → fw w 21 16 = 0 → (x.block (fw w 7 0 / 16)).m.getD (fw w 7 0 % 16) 0 < 0 →
      s.onEngine (.sqrt e) e (fun y => y.astat.testBit 1 = true ∧
        x.onlyBlock y (fw w 15 8 / 16) (writePart (x.block (fw w 15 8 / 16)) [(fw w 15 8 % 16, 0)]).b)) ∧
    (opOf w = 0x22 → fw w 21 16 = 0 → 0 ≤ (x.block (fw w 7 0 / 16)).m.getD (fw w 7 0 % 16) 0 →
      (x.block (fw w 7 0 / 16)).m.getD (fw w 7 0 % 16) 0 < 2 ^ 24 →
      ∃ q : Rat, 0 ≤ q ∧ x.elem (fw w 7 0) * (1 - ulp22) * (1 - ulp22) ≤ q * q ∧
        q * q ≤ x.elem (fw w 7 0) * (1 + ulp22) * (1 + ulp22) ∧
        s.onEngine (.sqrt e) e (fun y => y.astat = x.astat ∧
          x.onlyBlock y (fw w 15 8 / 16) (writePart (x.block (fw w 15 8 / 16)) [(fw w 15 8 % 16, q)]).b)) ∧
    (opOf w = 0x22 → fw w 21 16 ≠ 0 → s.trapsWith (.sqrt e) e 2) ∧
    (opOf w = 0x23 → fw w 21 16 = 0 → x.elem (fw w 7 0) ≠ 0 →
      ∃ q : Rat, ratAbs (q * x.elem (fw w 7 0) - 1) ≤ ulp22 ∧
        s.onEngine (.rcp e) e (fun y => y.astat = x.astat ∧
          x.onlyBlock y (fw w 15 8 / 16) (writePart (x.block (fw w 15 8 / 16)) [(fw w 15 8 % 16, q)]).b ∧
          ((writePart (x.block (fw w 15 8 / 16)) [(fw w 15 8 % 16, q)]).overflow = true → y.sat.testBit (fw w 15 8 / 16) = true))) ∧
    (opOf w = 0x23 → fw w 21 16 = 0 → x.elem (fw w 7 0) = 0 →
      s.onEngine (.rcp e) e (fun y => y.sat.testBit (fw w 15 8 / 16) = true ∧ y.g = x.g ∧ y.acc = x.acc ∧
        (∀ k, k ≠ fw w 15 8 / 16 → y.block k = x.block k))) ∧
    (opOf w = 0x23 → fw w 21 16 ≠ 0 → s.trapsWith (.rcp e) e 2)

/-- Flow (R156 to R159): BR, CALL and RET go to their targets in 2 cycles and move the return stack; LOOP enters its body, or
skips it for a count of 0; WAIT ends the pass and counts it; HALT ends a free-standing route; the conditions of the rules
trap with their codes. -/
def Obligations.FlowRows : Prop :=
  ∀ (s : State) (e : Fin 20) (w : Word) (x : Engine), s.up = true → s.issues e w → x = s.engine e → x.endsBody = false →
    (opOf w = 0x28 → progOk (x.pc + signedOf 22 (fw w 21 0)) = true →
      s.onEngine (.br e) e (fun y => x.sameData y ∧ (y.pc : Int) = x.pc + signedOf 22 (fw w 21 0) ∧
        y.cyc = x.ready [kPred (guardPred w)] + 2 ∧ y.stack = x.stack)) ∧
    (opOf w = 0x28 → progOk (x.pc + signedOf 22 (fw w 21 0)) = false → s.trapsWith (.br e) e 3) ∧
    (opOf w = 0x29 → progOk (x.pc + signedOf 22 (fw w 21 0)) = true → x.stack.length < 8 →
      s.onEngine (.call e) e (fun y => x.sameData y ∧ (y.pc : Int) = x.pc + signedOf 22 (fw w 21 0) ∧
        y.cyc = x.ready [kPred (guardPred w)] + 2 ∧ y.stack = (x.pc + 1) :: x.stack)) ∧
    (opOf w = 0x29 → 8 ≤ x.stack.length → s.trapsWith (.call e) e 2) ∧
    (∀ (a : Nat) (rest : List Nat), opOf w = 0x2A → fw w 21 0 = 0 → x.stack = a :: rest → a < 16384 →
      s.onEngine (.ret e) e (fun y => x.sameData y ∧ y.pc = a ∧ y.stack = rest ∧ y.cyc = x.ready [kPred (guardPred w)] + 2)) ∧
    (opOf w = 0x2A → x.stack = [] → s.trapsWith (.ret e) e 2) ∧
    (opOf w = 0x2B → fw w 16 14 = 0 → fw w 13 0 ≠ 0 → x.loops.length < 4 → x.reg (fw w 21 17) ≠ 0#32 →
      s.onEngine (.loop e) e (fun y => x.sameData y ∧ y.pc = x.pc + 1 ∧
        y.loops = ⟨x.pc + 1, x.pc + fw w 13 0, (x.reg (fw w 21 17)).toNat, x.stack.length⟩ :: x.loops)) ∧
    (opOf w = 0x2B → fw w 16 14 = 0 → fw w 13 0 ≠ 0 → x.loops = [] → x.reg (fw w 21 17) = 0#32 →
      s.onEngine (.loop e) e (fun y => x.sameData y ∧ y.pc = x.pc + fw w 13 0 + 1 ∧ y.loops = [])) ∧
    (opOf w = 0x2B → 4 ≤ x.loops.length → s.trapsWith (.loop e) e 2) ∧
    (opOf w = 0x2C → fw w 21 0 = 0 → x.halt = false →
      (∀ m, s.engineSlot e = some m → (s.swap m).tgt ≠ e.val ∨ s.get (AX_SWAPST_PHASE m) ≠ 2) →
      ∃ t, exec (.wait e) s = .next t ∧ (t.engine e).inPass = false ∧ (t.engine e).passn = x.passn + 1 ∧
        x.sameData (t.engine e) ∧ (x.loops = [] → (t.engine e).pc = x.pc + 1)) ∧
    (opOf w = 0x2D → fw w 21 0 = 0 → s.get (KE_STATUS_ROLE e) = 0 → s.get (KE_STATUS_POOL e) ≠ 3 →
      ∃ t, exec (.halt e) s = .next t ∧ t.get (KE_STATUS_POOL e) = 0 ∧ t.get (KE_STATUS_RUN e) = 0 ∧
        (t.engine e).inPass = false ∧ (t.engine e).pc = x.pc + 1) ∧
    (opOf w = 0x2D → fw w 21 0 = 0 → s.get (KE_STATUS_ROLE e) ≠ 0 → s.trapsWith (.halt e) e 1) ∧
    (opOf w = 0x2E → fw w 21 8 = 0 → s.trapsWith (.trap e) e 1) ∧
    (opOf w ∈ [0x00, 0x11, 0x12, 0x13, 0x1E, 0x1F, 0x24, 0x25, 0x26, 0x27, 0x2F, 0x3F] → s.trapsWith (.trap e) e 2)

/-- Reading the slot (R162 to R167): RDI and RDI_W write a whole block with currents or blind weights, RDV two elements with bus
voltages, all from the snapshot; RDF and POS read a g register from the snapshot for the own slot and as things stand for
another one; PIT offers the entry to the queue and answers with its index, 1, 2 or 3; PIT_LVL reads level, QHELD and count;
the words that the rules refuse trap with code 2. -/
def Obligations.SlotReadRows : Prop :=
  ∀ (s : State) (e : Fin 20) (w : Word) (x : Engine) (n : Nat) (other : Bool), s.up = true → s.issues e w → x = s.engine e →
    (opOf w = 0x30 → fw w 16 0 = 0 → s.ownSlot e true = some n →
      (fw w 17 17 = 0 → s.onEngine (.rdi e) e (fun y => y.astat = x.astat ∧
        x.onlyBlock y (fw w 21 18) (writeWhole ((List.range 16).map (fun i =>
          ((if i < 5 then x.snap.cur.getD i 0 else if i < 7 then x.snap.brk.getD (i - 5) 0 else 0) / 1000 : Rat)))).1)) ∧
      (fw w 17 17 = 1 → s.onEngine (.rdiW e) e (fun y => y.astat = x.astat ∧
        x.onlyBlock y (fw w 21 18) (writeWhole ((List.range 16).map (fun i =>
          (if i < 5 then x.snap.wd.getD i 0 else if i < 7 then x.snap.brkWd.getD (i - 5) 0 else 0 : Rat)))).1))) ∧
    (opOf w = 0x30 → fw w 16 0 ≠ 0 ∨ s.ownSlot e true = none →
      (fw w 17 17 = 0 → s.trapsWith (.rdi e) e 2) ∧ (fw w 17 17 = 1 → s.trapsWith (.rdiW e) e 2)) ∧
    (opOf w = 0x31 → fw w 13 0 = 0 → fw w 21 14 % 16 ≠ 15 → s.ownSlot e true = some n →
      s.onEngine (.rdv e) e (fun y => y.astat = x.astat ∧
        x.onlyBlock y (fw w 21 14 / 16) (writePart (x.block (fw w 21 14 / 16))
          [(fw w 21 14 % 16, (x.snap.vbus : Rat) / 1000), (fw w 21 14 % 16 + 1, (x.snap.vbrk : Rat) / 1000)]).b)) ∧
    (opOf w = 0x31 → fw w 13 0 ≠ 0 ∨ fw w 21 14 % 16 = 15 ∨ s.ownSlot e true = none → s.trapsWith (.rdv e) e 2) ∧
    (∀ v : Word, opOf w = 0x32 → fw w 7 0 = 0 → fw w 11 8 ≤ 4 → s.slotField e (fw w 16 12) = some (n, other) →
      (let at_ := max s.now (x.timeAt (x.ready [kPred (guardPred w)]))
       let pos := if other then s.slotFbPos n else x.snap.fbpos
       let vel := if other then s.slotFbVel n at_ else x.snap.fbvel
       v = (match fw w 11 8 with
         | 0 => half64 pos false | 1 => half64 pos true | 2 => half64 vel false | 3 => half64 vel true
         | _ => BitVec.ofNat 32 (if other then s.slotFbStatus n at_ else x.snap.fbst))) →
      s.onEngine (.rdf e) e (fun y => x.result y [kPred (guardPred w)] (fw w 21 17) v (if other then 8 else 2))) ∧
    (opOf w = 0x32 → fw w 7 0 ≠ 0 ∨ 4 < fw w 11 8 ∨ s.slotField e (fw w 16 12) = none → s.trapsWith (.rdf e) e 2) ∧
    (∀ v : Word, opOf w = 0x33 → fw w 7 0 = 0 → fw w 11 8 ≤ 10 → s.slotField e (fw w 16 12) = some (n, other) →
      (let m := if other then (s.gen n).m else x.snap.sp
       v = (if (if other then s.slotState n else x.snap.st % 16) = stUnbound then 0 else match fw w 11 8 with
         | 0 => half64 (m.p / 2 ^ 32) false | 1 => half64 (m.p / 2 ^ 32) true | 2 => half64 m.v false | 3 => half64 m.v true
         | 4 => half64 m.a false | 5 => half64 m.a true | 6 => half64 m.j false | 7 => half64 m.j true
         | 8 => BitVec.ofNat 32 (if other then s.tickAt else x.snap.spTick)
         | 9 => BitVec.ofNat 32 (if other then max s.now (x.timeAt (x.ready [kPred (guardPred w)])) - s.tickAt else x.snap.tau)
         | _ => BitVec.ofNat 32 (if other then s.posStatus n else x.snap.st))) →
      s.onEngine (.pos e) e (fun y => x.result y [kPred (guardPred w)] (fw w 21 17) v (if other then 8 else 2))) ∧
    (opOf w = 0x33 → fw w 7 0 ≠ 0 ∨ 10 < fw w 11 8 ∨ s.slotField e (fw w 16 12) = none → s.trapsWith (.pos e) e 2) ∧
    (opOf w = 0x34 → fw w 6 6 = 0 → fw w 5 0 = 0 → s.inShadow e = false → s.slotField e (fw w 11 7) = some (n, other) →
      (eightPlaces (x.reg (fw w 16 12))).all Place.ok = true →
      (s.slotState n = stUnbound → s.onEngine (.pit e) e (fun y => x.onlyReg y (fw w 21 17) 3#32)) ∧
      (s.slotState n ≠ stUnbound → entryBad ((eightPlaces (x.reg (fw w 16 12))).map (s.loadPlace e)) = false →
        (s.gen n).queue.length < 64 →
        ∃ t, exec (.pit e) s = .next t ∧ (t.gen n).queue = (s.gen n).queue ++ [(eightPlaces (x.reg (fw w 16 12))).map (s.loadPlace e)] ∧
          x.onlyReg (t.engine e) (fw w 21 17) (BitVec.ofNat 32 (s.get (AX_PITNEXT_V n) % 2 ^ 24 * 256))) ∧
      (s.slotState n ≠ stUnbound → entryBad ((eightPlaces (x.reg (fw w 16 12))).map (s.loadPlace e)) = true →
        ∃ t, exec (.pit e) s = .next t ∧ t.gens = s.gens ∧ t.get (AX_PITQ_CTRL_BADPITCH n) = 1 ∧
          x.onlyReg (t.engine e) (fw w 21 17) 2#32) ∧
      (s.slotState n ≠ stUnbound → entryBad ((eightPlaces (x.reg (fw w 16 12))).map (s.loadPlace e)) = false →
        64 ≤ (s.gen n).queue.length →
        ∃ t, exec (.pit e) s = .next t ∧ t.gens = s.gens ∧ t.get (AX_PITQ_CTRL_FULL n) = 1 ∧
          x.onlyReg (t.engine e) (fw w 21 17) 1#32)) ∧
    (opOf w = 0x34 → fw w 6 6 = 0 → fw w 5 0 = 0 → s.inShadow e = true → s.slotField e (fw w 11 7) = some (n, other) →
      s.onEngine (.pit e) e (fun y => x.sameData y)) ∧
    (opOf w = 0x34 → fw w 6 6 = 1 → fw w 5 0 = 0 → fw w 16 12 = 0 → s.slotField e (fw w 11 7) = some (n, other) →
      s.onEngine (.pitLvl e) e (fun y => x.result y [kPred (guardPred w)] (fw w 21 17) (BitVec.ofNat 32 (s.get (AX_PITQ_LVL_LEVEL n) +
        s.get (AX_PITQ_CTRL_QHELD n) * 256 + s.get (AX_PITSTART_V n) % 65536 * 65536)) (if other then 10 else 4))) ∧
    (opOf w = 0x34 → fw w 6 6 = 1 → fw w 5 0 ≠ 0 ∨ fw w 16 12 ≠ 0 ∨ s.slotField e (fw w 11 7) = none → s.trapsWith (.pitLvl e) e 2)

/-- Acting on the slot and its bridges (R168 to R174): WRV of a serving control engine in time requests SWITCH of every local
channel and what B says of the brake bridge, too late it sets WLATE and waits, and of a slot that is not energised it does
nothing; WRA gives the pass its angle, which appears when the pass ends; CAP copies a capture record or reads the copy; TRC
appends a tagged trace entry while the trace records; FLT raises its source; EVT offers a log record, at most two in a pass. -/
def Obligations.SlotWriteRows : Prop :=
  ∀ (s : State) (e : Fin 20) (w : Word) (x : Engine) (n : Nat), s.up = true → s.issues e w → x = s.engine e →
    (∀ c : Nat, opOf w = 0x35 → s.ownSlot e true = some n → fw w 14 0 = 0 → s.get (KE_STATUS_ROLE e) = 1 →
      s.inShadow e = false → s.serves e n = true → s.energised n = true →
      c = x.ready (kPred (guardPred w) :: ((List.range (s.localChans n).length).map (kElem (fw w 21 18)) ++
        (if fw w 16 15 = 1 then [kElem (fw w 21 18) 5] else []))) →
      (s.vectorInTime n x (x.timeAt (c + 8)) = true →
        ∃ t, exec (.wrv e) s = .next t ∧ (t.engine e).wrote = true ∧ x.sameData (t.engine e) ∧ (t.engine e).cyc = c + 2 ∧
          (fw w 16 15 = 0 → ∀ k ∈ s.localChans n, (t.chan k).want = 1) ∧
          (∀ k ∈ s.localChans n, k ∉ s.brakeChans n → (t.chan k).want = 1) ∧
          (fw w 16 15 = 2 → ∀ k ∈ s.brakeChans n, (t.chan k).want = 0) ∧
          (fw w 16 15 = 3 → ∀ k ∈ s.brakeChans n, (t.chan k).want = 2)) ∧
      (s.vectorInTime n x (x.timeAt (c + 8)) = false →
        ∃ t, exec (.wrv e) s = .next t ∧ (t.engine e).estat.testBit 0 = true ∧ (t.cc n).late.isSome = true ∧
          t.chans = s.chans ∧ x.sameData (t.engine e))) ∧
    (opOf w = 0x35 → s.ownSlot e true = some n → fw w 14 0 = 0 → s.get (KE_STATUS_ROLE e) = 1 → s.inShadow e = false →
      s.serves e n = false ∨ s.energised n = false →
      ∃ t, exec (.wrv e) s = .next t ∧ t.chans = s.chans ∧ t.regs = s.regs ∧ (t.engine e).wrote = true ∧ x.sameData (t.engine e)) ∧
    (opOf w = 0x35 → s.ownSlot e true = none ∨ fw w 14 0 ≠ 0 ∨ s.get (KE_STATUS_ROLE e) ≠ 1 → s.trapsWith (.wrv e) e 2) ∧
    (opOf w = 0x36 → fw w 16 0 = 0 → s.ownSlot e false = some n → s.inShadow e = false → s.serves e n = true →
      s.onEngine (.wra e) e (fun y => y.angle = some ((x.reg (fw w 21 17)).toNat % 65536) ∧ x.sameData y ∧
        y.cyc = x.ready [kPred (guardPred w), kReg (fw w 21 17)] + 1)) ∧
    (opOf w = 0x36 → fw w 16 0 ≠ 0 ∨ s.ownSlot e false = none → s.trapsWith (.wra e) e 2) ∧
    (∀ a : Nat, opOf w = 0x2C → fw w 21 0 = 0 → x.endsBody = false → x.angle = some a → a < 65536 → s.engineSlot e = some n →
      ∃ t, exec (.wait e) s = .next t ∧ t.get (AX_CC_ANGLE_V n) = a) ∧
    (∀ other : Bool, opOf w = 0x37 → fw w 5 0 = 0 → s.slotField e (fw w 13 9) = some (n, other) →
      (fw w 8 6 = 0 → s.onEngine (.cap e) e (fun y =>
        tabGet (fun _ => ({} : CapCopy)) y.caps (fw w 16 14) =
          { time := s.get (CAP_TIME_V (fw w 16 14)), pos := slots16.map (fun m => s.geti (CAP_POS_V (fw w 16 14) m)),
            count := s.get (CAP_CTRL_COUNT (fw w 16 14)) } ∧
        x.result y [kPred (guardPred w)] (fw w 21 17) (BitVec.ofNat 32 (s.get (CAP_CTRL_COUNT (fw w 16 14)) +
          (if s.get (CAP_CTRL_COUNT (fw w 16 14)) = (tabGet (fun _ => ({} : CapCopy)) x.caps (fw w 16 14)).count then 0 else 65536)))
          (if other then 10 else 4))) ∧
      (∀ c : CapCopy, 1 ≤ fw w 8 6 → fw w 8 6 ≤ 4 → c = tabGet (fun _ => ({} : CapCopy)) x.caps (fw w 16 14) →
        s.onEngine (.cap e) e (fun y => y.caps = x.caps ∧ x.result y [kPred (guardPred w)] (fw w 21 17)
          (match fw w 8 6 with
            | 1 => half64 c.time false | 2 => half64 c.time true
            | 3 => half64 (c.pos.getD n 0) false | _ => half64 (c.pos.getD n 0) true) (if other then 10 else 4)))) ∧
    (opOf w = 0x37 → fw w 5 0 ≠ 0 ∨ 4 < fw w 8 6 ∨ s.slotField e (fw w 13 9) = none → s.trapsWith (.cap e) e 2) ∧
    (opOf w = 0x38 → fw w 13 0 = 0 → s.get (KE_TRCFG_TRPRED e) = 0 → s.get (KE_TRCFG_STATE e) = 1 → x.trPass < 8 →
      ∃ t, exec (.trc e) s = .next t ∧ tabGet (fun _ => 0) (t.engine e).trace x.trNext =
          (x.reg (fw w 21 17)).toNat + (fw w 16 14 + (if x.trPass = 0 then 8 else 0)) * 2 ^ 32 ∧
        (t.engine e).trNext = (x.trNext + 1) % 4096 ∧ (t.engine e).trPass = x.trPass + 1 ∧
        t.get (KE_TRPOS_COUNT e) = min 4096 (s.get (KE_TRPOS_COUNT e) + 1) ∧ x.sameData (t.engine e)) ∧
    (opOf w = 0x38 → fw w 13 0 = 0 → s.get (KE_TRCFG_TRPRED e) = 0 → s.get (KE_TRCFG_STATE e) = 1 → 8 ≤ x.trPass →
      ∃ t, exec (.trc e) s = .next t ∧ t.get (KE_TRCFG_DROP e) = 1 ∧ (t.engine e).trace = x.trace ∧ x.sameData (t.engine e)) ∧
    (opOf w = 0x38 → fw w 13 0 = 0 → s.get (KE_TRCFG_STATE e) = 0 ∨ s.get (KE_TRCFG_STATE e) = 3 →
      s.onEngine (.trc e) e (fun y => y.trace = x.trace ∧ x.sameData y)) ∧
    (opOf w = 0x38 → fw w 13 0 ≠ 0 → s.trapsWith (.trc e) e 2) ∧
    (∀ src : Nat, opOf w = 0x39 → fw w 7 0 = 0 → s.fltSource e (fw w 16 14) = some src → s.inShadow e = false →
      ∃ t, exec (.flt e) s = .next t ∧ t.get (FLT_SRC_SEEN src) = 1) ∧
    (∀ src : Nat, opOf w = 0x39 → fw w 7 0 = 0 → s.fltSource e (fw w 16 14) = some src → s.inShadow e = true →
      s.onEngine (.flt e) e (fun y => x.sameData y)) ∧
    (opOf w = 0x39 → fw w 7 0 ≠ 0 ∨ s.fltSource e (fw w 16 14) = none → s.trapsWith (.flt e) e 2) ∧
    (opOf w = 0x3A → fw w 8 0 = 0 → s.inShadow e = false → x.evts < 2 →
      ∃ t, exec (.evt e) s = .next t ∧ (t.engine e).evts = x.evts + 1 ∧ x.sameData (t.engine e) ∧
        ∃ r : LogRec, t.log.offers = s.log.offers ++ [r] ∧ r.w0 = x.reg (fw w 21 17) ∧
          r.time = x.timeAt (x.ready [kPred (guardPred w), kReg (fw w 21 17)])) ∧
    (opOf w = 0x3A → fw w 8 0 = 0 → s.inShadow e = false → 2 ≤ x.evts → s.get (KE_TRCFG_TREVT e) = 0 →
      ∃ t, exec (.evt e) s = .next t ∧ (t.engine e).estat.testBit 1 = true ∧ t.log = s.log ∧ t.regs = s.regs) ∧
    (opOf w = 0x3A → fw w 8 0 = 0 → s.inShadow e = true → s.onEngine (.evt e) e (fun y => x.sameData y)) ∧
    (opOf w = 0x3A → fw w 8 0 ≠ 0 → s.trapsWith (.evt e) e 2)

/-- Mailboxes, checkpoints and special registers (R175, R176, R178, R179): SGN puts the eight words on their way and one
delivery writes them whole into the channel of the target, or of the partner, with its count one higher; SGN_R copies the own
channel to memory and reads the count; CKP writes a record of the tick into the half that is not the valid one, which becomes
valid after its last word, once in a tick; MFS reads a listed register, MTS writes SAT and PRED, clears what is W1C and leaves
what is RO. -/
def Obligations.MailboxAndSpecialRows : Prop :=
  ∀ (s : State) (e : Fin 20) (w : Word) (x : Engine), s.up = true → x = s.engine e →
    (s.issues e w → opOf w = 0x3B → fw w 9 9 = 0 → fw w 8 0 = 0 →
      (x.reg (fw w 16 12)).toNat % 32 < 20 ∨ (x.reg (fw w 16 12)).toNat % 32 = 31 → s.inShadow e = false →
      (eightPlaces (x.reg (fw w 21 17))).all Place.ok = true → (∀ m, s.engineSlot e = some m → s.serves e m = true) →
      ∃ t, exec (.sgn e) s = .next t ∧ t.regs = s.regs ∧ t.mem = s.mem ∧ x.sameData (t.engine e) ∧
        (t.engine e).outbox = x.outbox ++ [{ dest := (x.reg (fw w 16 12)).toNat % 32, ch := fw w 11 10, slot := s.engineSlot e,
                                             role := s.get (KE_STATUS_ROLE e)
                                             words := (eightPlaces (x.reg (fw w 21 17))).map (s.loadPlace e) }]) ∧
    (s.issues e w → opOf w = 0x3B → fw w 9 9 = 0 →
      fw w 8 0 ≠ 0 ∨ (20 ≤ (x.reg (fw w 16 12)).toNat % 32 ∧ (x.reg (fw w 16 12)).toNat % 32 ≠ 31) → s.trapsWith (.sgn e) e 2) ∧
    (s.issues e w → opOf w = 0x3B → fw w 9 9 = 1 → fw w 8 0 = 0 → (eightPlaces (x.reg (fw w 21 17))).all Place.storable = true →
      ∃ t, exec (.sgnR e) s = .next t ∧ t.regs = s.regs ∧ (t.engine e).boxes = x.boxes ∧
        x.onlyReg (t.engine e) (fw w 16 12)
          (BitVec.ofNat 32 (tabGet (fun _ => (List.replicate 8 (0 : Word), 0)) x.boxes (fw w 11 10)).2)) ∧
    (s.issues e w → opOf w = 0x3B → fw w 9 9 = 1 → fw w 8 0 ≠ 0 → s.trapsWith (.sgnR e) e 2) ∧
    (∀ (m : Send) (rest : List Send), x.outbox = m :: rest → m.dest < 20 → m.dest ≠ e.val →
      s.get (KE_STATUS_POOL m.dest) = 1 ∨ s.get (KE_STATUS_POOL m.dest) = 2 →
      ∃ t, exec (.mailboxDelivery e) s = .next t ∧ (t.engine e).outbox = rest ∧
        tabGet (fun _ => (List.replicate 8 (0 : Word), 0)) (t.engine m.dest).boxes m.ch =
          (m.words, (tabGet (fun _ => (List.replicate 8 (0 : Word), 0)) (s.engine m.dest).boxes m.ch).2 + 1)) ∧
    (∀ (m : Send) (rest : List Send) (n g : Nat), x.outbox = m :: rest → m.dest = 31 → m.slot = some n → m.role ≠ 2 →
      s.estEngine n = some g → g ≠ e.val → s.get (KE_STATUS_POOL g) = 1 ∨ s.get (KE_STATUS_POOL g) = 2 →
      ∃ t, exec (.mailboxDelivery e) s = .next t ∧ (t.engine e).outbox = rest ∧
        tabGet (fun _ => (List.replicate 8 (0 : Word), 0)) (t.engine g).boxes m.ch =
          (m.words, (tabGet (fun _ => (List.replicate 8 (0 : Word), 0)) (s.engine g).boxes m.ch).2 + 1)) ∧
    (x.outbox = [] → exec (.mailboxDelivery e) s = .next s) ∧
    (∀ (n c : Nat) (r : Route) (k : Ckp), s.issues e w → opOf w = 0x3C → fw w 21 0 = 0 → s.ownSlot e false = some n →
      s.inShadow e = false → x.route = some r → k = s.ckp n (s.get (KE_STATUS_ROLE e) - 1) → k.tick ≠ some x.snap.spTick →
      k.pend = none →
      c = x.ready (kPred (guardPred w) :: kBlockUnit :: (maskBlocks r.bmask).flatMap kBlock) + (4 + 17 * popcount16 r.bmask + r.nw) →
      ∃ t, exec (.ckp e) s = .next t ∧ t.regs = s.regs ∧ (t.engine e).cyc = c ∧ x.sameData (t.engine e) ∧
        t.ckp n (s.get (KE_STATUS_ROLE e) - 1) = { k with pend := some (k.target, x.snap.spTick, x.timeAt c) }) ∧
    (∀ n : Nat, s.issues e w → opOf w = 0x3C → fw w 21 0 = 0 → s.ownSlot e false = some n →
      (s.ckp n (s.get (KE_STATUS_ROLE e) - 1)).tick = some x.snap.spTick → s.onEngine (.ckp e) e (fun y => x.sameData y)) ∧
    (s.issues e w → opOf w = 0x3C → fw w 21 0 ≠ 0 ∨ s.ownSlot e false = none → s.trapsWith (.ckp e) e 2) ∧
    (∀ v : Word, s.issues e w → opOf w = 0x3D → fw w 16 8 = 0 →
      s.special e (fw w 7 0) (x.ready (kPred (guardPred w) :: specialKeys (fw w 7 0))) = some v →
      s.onEngine (.mfs e) e (fun y => x.result y (kPred (guardPred w) :: specialKeys (fw w 7 0)) (fw w 21 17) v 1)) ∧
    (s.issues e w → opOf w = 0x3D → 0x0D < fw w 7 0 ∨ fw w 16 8 ≠ 0 → s.trapsWith (.mfs e) e 2) ∧
    (s.issues e w → opOf w = 0x3E → fw w 16 8 = 0 →
      (fw w 7 0 = 0x07 → s.onEngine (.mts e) e (fun y => y.sat = (x.reg (fw w 21 17)).toNat % 65536 ∧ y.g = x.g ∧ y.blk = x.blk)) ∧
      (fw w 7 0 = 0x08 → s.onEngine (.mts e) e (fun y => y.g = x.g ∧ y.sat = x.sat ∧ ∀ i < 3,
        y.astat.testBit i = (x.astat.testBit i && !(x.reg (fw w 21 17)).toNat.testBit i))) ∧
      (fw w 7 0 = 0x09 → s.onEngine (.mts e) e (fun y => y.g = x.g ∧ y.pred 0 = true ∧
        ∀ p, 0 < p → p < 8 → y.pred p = (x.reg (fw w 21 17)).toNat.testBit p)) ∧
      (fw w 7 0 = 0x0B → s.onEngine (.mts e) e (fun y => y.g = x.g ∧ y.sat = x.sat ∧ ∀ i < 2,
        y.estat.testBit i = (x.estat.testBit i && !(x.reg (fw w 21 17)).toNat.testBit i))) ∧
      (fw w 7 0 ≤ 0x0D → fw w 7 0 ∉ [0x07, 0x08, 0x09, 0x0B] → s.onEngine (.mts e) e (fun y => x.sameData y))) ∧
    (s.issues e w → opOf w = 0x3E → 0x0D < fw w 7 0 ∨ fw w 16 8 ≠ 0 → s.trapsWith (.mts e) e 2)

/-- The group counters (R180 to R186). While it runs, and unless a tick instant comes first, a valley advances the index within
the tick, turns the count upward and lies one carrier period after the last, moved at a tick valley by the deviation less the
correction of at most 16 counts; a valley at which no channel is in use stops the counter; a channel whose next compare value is
at or beyond PER is HIGHON, with no carry, for the period; a refresh pulse that the valley carries is counted. A peak turns the
count downward half a period after the valley. A counter starts at the tick valley when a channel is in use and the configuration
is good. A tick instant that comes first leaves all as it was (that time orders the commands is the model's reading:
notes/assumptions/3.md). -/
def Obligations.CarrierRows : Prop :=
  ∀ (s : State) (g : Fin 4) (dev : Int), s.up = true →
    (∀ V : Nat, s.get (PWMG_STAT_RUN g) = 1 → V = (s.nextValley g dev).1.valley → max s.now (V / 2) < s.tickNext →
      (∃ t, exec (.carrierValley g dev) s = .next t ∧ (t.group g).down = false ∧ (t.group g).valley = V ∧ t.now = max s.now (V / 2) ∧
        (t.group g).idx = (if (s.group g).idx + 1 < s.get (PWMG_CFG_K g) then (s.group g).idx + 1 else 0) ∧
        ((s.group g).idx + 1 < s.get (PWMG_CFG_K g) → V = (s.group g).valley + 16 * s.get (PWMG_PER_PER g)) ∧
        (s.get (PWMG_CFG_K g) ≤ (s.group g).idx + 1 →
          V = ((s.naturalValley g : Int) + 8 * dev - 8 * max (-16) (min 16 (s.syncDiff g dev))).toNat)) ∧
      ((groupChans g).any s.chanRuns = false →
        ∃ t, exec (.carrierValley g dev) s = .next t ∧ t.get (PWMG_STAT_RUN g) = 0) ∧
      (∀ k : Fin 8, (s.group g).idx + 1 < s.get (PWMG_CFG_K g) ∨ (s.syncDiff g dev).natAbs ≤ 16 → (∀ m : Nat, s.calDrives m = false) →
        s.chanUsed (8 * g.val + k.val) = true → s.get (PWM_STAT_MODE (8 * g.val + k.val)) ≠ mKilled →
        s.get (GD_CHSTAT_OOS g k) = 0 →
        ((s.chan (8 * g.val + k.val)).want = 1 → 8 * s.get (PWMG_PER_PER g) ≤ s.get (PWM_CMPN_CMPN (8 * g.val + k.val)) →
          ∃ t, exec (.carrierValley g dev) s = .next t ∧ t.get (PWM_STAT_MODE (8 * g.val + k.val)) = mHighon ∧
            t.get (PWM_CMP_CMP (8 * g.val + k.val)) = s.get (PWM_CMPN_CMPN (8 * g.val + k.val)) ∧
            t.get (PWM_CARRY_V (8 * g.val + k.val)) = 0 ∧ (t.chan (8 * g.val + k.val)).pulse = some V ∧
            (t.chan (8 * g.val + k.val)).skip = true) ∧
        ((s.chan (8 * g.val + k.val)).refresh = true →
          ∃ t, exec (.carrierValley g dev) s = .next t ∧ t.get (PWM_STAT_REFRESHED (8 * g.val + k.val)) = 1 ∧
            t.get (PWM_REFRESH_INSERTED_V (8 * g.val + k.val)) = (s.get (PWM_REFRESH_INSERTED_V (8 * g.val + k.val)) + 1) % 2 ^ 32))) ∧
    (s.tickNext ≤ max s.now ((s.nextValley g dev).1.valley / 2) → exec (.carrierValley g dev) s = .next s) ∧
    (∀ u : Nat, s.get (PWMG_STAT_RUN g) = 1 → (s.group g).down = false →
      u = max s.now (((s.group g).valley + 8 * s.get (PWMG_PER_PER g)) / 2) → u < s.tickNext →
      ∃ t, exec (.carrierPeak g) s = .next t ∧ (t.group g).down = true ∧ (t.group g).idx = (s.group g).idx ∧
        (t.group g).valley = (s.group g).valley ∧ t.now = u ∧ ∀ m : Nat, m ≠ g.val → t.group m = s.group m) ∧
    (s.get (PWMG_STAT_RUN g) = 0 ∨ (s.group g).down = true → exec (.carrierPeak g) s = .next s) ∧
    (s.get (PWMG_STAT_RUN g) = 0 → s.get (PWMG_CFG_CFGERR g) = 0 → s.tickLeft = true → (groupChans g).any s.chanRuns = true →
      s.now ≤ (2 * s.tickAt + s.groupOffset g) / 2 →
      ∃ t, exec (.counterStart g) s = .next t ∧ t.get (PWMG_STAT_RUN g) = 1 ∧ (t.group g).idx = 0 ∧ (t.group g).down = false ∧
        (t.group g).valley = 2 * s.tickAt + s.groupOffset g ∧ t.now = (2 * s.tickAt + s.groupOffset g) / 2) ∧
    (s.get (PWMG_STAT_RUN g) = 1 ∨ s.get (PWMG_CFG_CFGERR g) = 1 ∨ (groupChans g).any s.chanRuns = false →
      exec (.counterStart g) s = .next s)

/-- Refresh, commutation and the groups' configuration (R187, R191, R192, R194 to R196, R203): in a bootstrap group, with the high
side to stay on through the coming valley and REFRESH_N periods without low-side conduction, the high side goes off so that the
low side is on, after the dead time, for tREFRESH about that valley; at a compare edge the outgoing gate goes off, both stay off
in the dead time and then the incoming gate turns on, but a high side below the rising threshold of an armed VH comparator, which
trips; while SAFEOFF_N is low nothing turns on. PWMG_CONFIG_WRITE is refused, with REFUSED set and the registers as they were,
while a slot that uses the group is energised or a field is not allowed; else taken whole; K and DT set PER and CFGERR anew. -/
def Obligations.CommutationRows : Prop :=
  (∀ (s : State) (c : Fin 32), s.up = true →
    (∀ a : Nat, s.get (PWMG_STAT_BOOT (c.val / 8)) = 1 → s.get (PWMG_STAT_RUN (c.val / 8)) = 1 → (s.chan c).h.on = true →
      (s.chan c).skip = true → (s.chan c).edges = [] → (s.chan c).incoming = none → (s.chan c).refresh = false →
      (s.chan c).lowLen = none → s.get (PWM_STAT_MODE c) = mSwitch → s.get (PWMG_REFR_REFRESHN (c.val / 8)) ≤ (s.chan c).noLow →
      s.get (PWMG_CFG_DT (c.val / 8)) ≠ 0 →
      a = s.naturalValley (c.val / 8) - 8 * s.get (PWMG_REFR_TREFRESH (c.val / 8)) / 2 - 8 * s.get (PWMG_CFG_DT (c.val / 8)) →
      ∃ t, exec (.refreshInsert c) s = .next t ∧ (t.chan c).h.on = false ∧ (t.chan c).l.on = (s.chan c).l.on ∧
        (t.chan c).incoming = some false ∧ (t.chan c).refresh = true ∧ t.now = max s.now (a / 2) ∧
        (t.chan c).deadAt = max (2 * t.now) a + 8 * s.get (PWMG_CFG_DT (c.val / 8)) ∧
        (∀ b, b ≠ CMP_SST c → t.rd b = s.rd b) ∧ ∀ m : Nat, m ≠ c.val → t.chan m = s.chan m) ∧
    ((s.chan c).noLow < s.get (PWMG_REFR_REFRESHN (c.val / 8)) ∨ (s.chan c).h.on = false ∨ s.get (PWMG_STAT_BOOT (c.val / 8)) = 0 →
      exec (.refreshInsert c) s = .next s) ∧
    (∀ (a : Nat) (toHigh : Bool) (rest : List (Nat × Bool)), s.safeoff = false → (s.chan c).edges = (a, toHigh) :: rest →
      ((s.chan c).gate toHigh).on = false → s.get (PWMG_CFG_DT (c.val / 8)) ≠ 0 →
      ∃ t, exec (.commutation c (.edge toHigh)) s = .next t ∧ (t.chan c).h.on = false ∧ (t.chan c).l.on = false ∧
        (t.chan c).incoming = some toHigh ∧ (t.chan c).edges = rest ∧ t.now = max s.now (a / 2) ∧
        (t.chan c).deadAt = max (2 * t.now) a + 8 * s.get (PWMG_CFG_DT (c.val / 8)) ∧
        ∀ m : Nat, m ≠ c.val → t.chan m = s.chan m) ∧
    (∀ (a : Nat) (toHigh : Bool) (rest : List (Nat × Bool)), s.safeoff = false → (s.chan c).edges = (a, toHigh) :: rest →
      ((s.chan c).gate toHigh).on = true →
      ∃ t, exec (.commutation c (.edge toHigh)) s = .next t ∧ (t.chan c).h = (s.chan c).h ∧ (t.chan c).l = (s.chan c).l ∧
        (t.chan c).edges = rest ∧ t.now = max s.now (a / 2) ∧ t.regs = s.regs) ∧
    (∀ high : Bool, s.safeoff = false → (s.chan c).incoming = some high → (s.chan c).h.on = false → (s.chan c).l.on = false →
      high = false ∨ s.vhArmed c = false ∨ s.get (GD_CHSTAT_VHOK (c.val / 8) (c.val % 8)) = 1 →
      ∃ t, exec (.commutation c .deadEnd) s = .next t ∧ (t.chan c).h.on = high ∧ (t.chan c).l.on = !high ∧
        (t.chan c).incoming = none ∧ t.now = max s.now ((s.chan c).deadAt / 2) ∧ t.regs = s.regs ∧
        ∀ m : Nat, m ≠ c.val → t.chan m = s.chan m) ∧
    (s.safeoff = false → (s.chan c).incoming = some true → s.vhArmed c = true → (s.chan c).h.on = false →
      s.get (GD_CHSTAT_VHOK (c.val / 8) (c.val % 8)) = 0 →
      ∃ t, exec (.commutation c .deadEnd) s = .next t ∧ (t.chan c).h.on = false ∧
        t.get (GD_CHSTAT_TRIPPED (c.val / 8) (c.val % 8)) = 1 ∧ t.get (GD_CHSTAT_VHUV (c.val / 8) (c.val % 8)) = 1) ∧
    (∀ e : Edge, s.safeoff = true → exec (.commutation c e) s = .next s)) ∧
  (∀ (s : State) (g : Fin 4) (v : Word), s.up = true →
    (∀ r : PwmgReg, s.groupUsed g = true ∨ s.pwmgValueOk g r v = false →
      ∃ t, exec (.pwmgConfigWrite g r v) s = .next t ∧ t.get (PWMG_STAT_REFUSED g) = 1 ∧
        ∀ a, a ≠ PWMG_STAT g → t.rd a = s.rd a) ∧
    (s.groupUsed g = false → 1 ≤ fieldOf v (PWMG_CFG_K g) → fieldOf v (PWMG_CFG_K g) ≤ 64 → fieldOf v (PWMG_CFG_MPM g) ≤ 2 →
      ∃ t, exec (.pwmgConfigWrite g .cfg v) s = .next t ∧ t.get (PWMG_CFG_K g) = fieldOf v (PWMG_CFG_K g) ∧
        t.get (PWMG_CFG_DT g) = fieldOf v (PWMG_CFG_DT g) ∧ t.get (PWMG_PER_PER g) = perOf s.period (fieldOf v (PWMG_CFG_K g)) ∧
        t.get (PWMG_CFG_CFGERR g) = (if cfgErr s.period (fieldOf v (PWMG_CFG_K g)) (fieldOf v (PWMG_CFG_DT g))
          (s.get (PWMG_REFR_TREFRESH g)) then 1 else 0) ∧
        (∀ a, a ≠ PWMG_CFG g → a ≠ PWMG_PER g → t.rd a = s.rd a)) ∧
    (s.groupUsed g = false → g ≠ 0 → fieldOf v (PWMG_PHOFS_PHOFS g) < 2 * s.period →
      ∃ t, exec (.pwmgConfigWrite g .phofs v) s = .next t ∧ t.get (PWMG_PHOFS_PHOFS g) = fieldOf v (PWMG_PHOFS_PHOFS g) ∧
        ∀ a, a ≠ PWMG_PHOFS g → t.rd a = s.rd a) ∧
    (s.groupUsed g = false → 10 ≤ fieldOf v (PWMG_REFR_TREFRESH g) → fieldOf v (PWMG_REFR_TREFRESH g) ≤ 1000 →
      fieldOf v (PWMG_REFR_REFRESHN g) ≠ 0 →
      ∃ t, exec (.pwmgConfigWrite g .refr v) s = .next t ∧ t.get (PWMG_REFR_TREFRESH g) = fieldOf v (PWMG_REFR_TREFRESH g) ∧
        t.get (PWMG_REFR_REFRESHN g) = fieldOf v (PWMG_REFR_REFRESHN g)))

/-- Samples and trips of the short-circuit comparators (R223 to R228): a sample, which is taken at the next sample instant of the
group, and which decides, enters the histories of both inputs and latches the trip, counted in TRIPCNT; one that only a monitored
main comparator decides sets MSEEN and latches nothing; one that decides nothing only enters the histories and RAW. A CMP_SCF write
is taken when 1 ≤ M ≤ N. -/
def Obligations.ShortCircuitRows : Prop :=
  ∀ (s u : State) (c : Fin 32) (iH iL : Int) (v : Word), s.up = true → u = s.toSample c →
    (u.scDecide c iH iL = .trip →
      ∃ t, exec (.shortCircuitTrip c iH iL) s = .next t ∧ t.get (GD_CHSTAT_TRIPPED (c.val / 8) (c.val % 8)) = 1 ∧
        t.get (GD_TRIPCNT_V (c.val / 8) (c.val % 8)) = (s.get (GD_TRIPCNT_V (c.val / 8) (c.val % 8)) + 1) % 2 ^ 32 ∧
        ((u.sampleGate c true iH).hardHit = true → t.get (GD_CHSTAT_HARDH (c.val / 8) (c.val % 8)) = 1) ∧
        ((u.sampleGate c false iL).hardHit = true → t.get (GD_CHSTAT_HARDL (c.val / 8) (c.val % 8)) = 1) ∧
        t.now = max s.now (s.sampleTime c)) ∧
    (u.scDecide c iH iL = .monitored →
      ∃ t, exec (.monitoredDecision c iH iL) s = .next t ∧ t.now = max s.now (s.sampleTime c) ∧
        ((u.sampleGate c true iH).mainHit = true → t.get (CMP_SST_MSEENH c) = 1) ∧
        ((u.sampleGate c false iL).mainHit = true → t.get (CMP_SST_MSEENL c) = 1) ∧
        ∀ a, a ≠ CMP_SST c → t.rd a = s.rd a) ∧
    (u.scDecide c iH iL = .none →
      ∃ t, exec (.comparatorSample c iH iL) s = .next t ∧ t.now = max s.now (s.sampleTime c) ∧
        (t.chan c).h = (s.chan c).h.take (u.sampleGate c true iH) ∧ (t.chan c).l = (s.chan c).l.take (u.sampleGate c false iL) ∧
        t.get (CMP_SST_RAWH c) = (if (u.sampleGate c true iH).raw && (s.chan c).h.on then 1 else 0) ∧
        t.get (CMP_SST_RAWL c) = (if (u.sampleGate c false iL).raw && (s.chan c).l.on then 1 else 0) ∧
        (∀ a, a ≠ CMP_SST c → t.rd a = s.rd a) ∧ ∀ m : Nat, m ≠ c.val → t.chan m = s.chan m) ∧
    (u.scDecide c iH iL ≠ .trip → exec (.shortCircuitTrip c iH iL) s = .next s) ∧
    (u.scDecide c iH iL ≠ .monitored → exec (.monitoredDecision c iH iL) s = .next s) ∧
    (1 ≤ fieldOf v (CMP_SCF_M c) → fieldOf v (CMP_SCF_M c) ≤ fieldOf v (CMP_SCF_N c) →
      ∃ t, exec (.cmpScfWrite c v) s = .next t ∧ t.rd (CMP_SCF c) = v &&& 0x177FF#32 ∧ ∀ a, a ≠ CMP_SCF c → t.rd a = s.rd a) ∧
    (fieldOf v (CMP_SCF_M c) = 0 ∨ fieldOf v (CMP_SCF_N c) < fieldOf v (CMP_SCF_M c) →
      ∃ t, exec (.cmpScfWrite c v) s = .next t ∧ t.get (CMP_SST_REFUSED c) = 1 ∧ ∀ a, a ≠ CMP_SST c → t.rd a = s.rd a)

/-- Window monitors and the trips they cause (R203, R208, R210, R223, R230 to R232): a window sample is taken at a whole
microsecond; one that no command of its own reports enters the histories; a side that leaves is outside after WINDOW_EXCURSION,
which raises its source, and one that returns is inside after WINDOW_RETURN; VHc below its threshold trips an armed channel; a gate
supply or die that leaves its window trips every armed channel of its group; the thresholds and filters are taken or refused
whole. -/
def Obligations.WindowRows : Prop :=
  ∀ (s u : State) (m : Monitor) (y : Int) (v : Word), s.up = true → u = s.toWindow m →
    ((u.monChanges m y).filter (fun x => !u.quiet m x) = [] → u.tripDue m y = false →
      ∃ t, exec (.windowSample m y) s = .next t ∧ t.coll = s.coll ∧ t.chans = s.chans ∧ t.now = u.now ∧ t.now % 1000 = 0 ∧
        ∀ x ∈ u.monSides m y, (t.window x.1).outside =
            (windowStep (u.winFilter x.2.1) (u.windowNow x.1) x.2.2.1 x.2.2.2).1.outside ∧
          (u.filtBefore = none →
            (t.window x.1).hist = (windowStep (u.winFilter x.2.1) (u.windowNow x.1) x.2.2.1 x.2.2.2).1.hist)) ∧
    (∀ (x : Fin 6) (k : Nat) (b : Bool) (rest : List (Nat × Bool)), m = .supply x →
      (u.monChanges m y).filter (·.2) = (k, b) :: rest → k ≠ winLo 4 →
      ∃ t, exec (.windowExcursion x y) s = .next t ∧ (t.window k).outside = true ∧
        t.get (FLT_SRC_SEEN (if x.val = 5 then (if 10 ≤ k then 6 else 7) else 1 + x.val)) = 1) ∧
    (∀ k : Nat, (k, false) ∈ u.monChanges m y → ∃ t, exec (.windowReturn m y) s = .next t ∧ (t.window k).outside = false) ∧
    (∀ c : Fin 32, s.vhArmed c = true → (s.chan c).incoming = some true →
      y < mvFalling (s.get (GD_CFG_VHUV (c.val / 8))) + 500 →
      ∃ t, exec (.vhUndervoltageTrip c y true) s = .next t ∧ t.get (GD_CHSTAT_VHUV (c.val / 8) (c.val % 8)) = 1 ∧
        t.get (GD_CHSTAT_TRIPPED (c.val / 8) (c.val % 8)) = 1 ∧ t.get (GD_CHSTAT_VHOK (c.val / 8) (c.val % 8)) = 0) ∧
    (∀ c : Fin 32, m = .vh c → u.vhArmedNow c = true → (u.monChanges m y).filter (·.2) ≠ [] ∨ u.tripDue m y = true →
      ∃ t, exec (.vhUndervoltageTrip c y false) s = .next t ∧ t.get (GD_CHSTAT_VHUV (c.val / 8) (c.val % 8)) = 1 ∧
        t.get (GD_CHSTAT_TRIPPED (c.val / 8) (c.val % 8)) = 1) ∧
    (∀ g : Fin 4, m = .vgd g → (u.monChanges m y).filter (·.2) ≠ [] →
      ∃ t, exec (.vgdUndervoltageTrip g y) s = .next t ∧ t.get (GD_STAT_VGDUVACTIVE g) = 1 ∧
        ∀ k : Fin 8, s.armed (8 * g.val + k.val) = true → t.get (GD_CHSTAT_VGDUV g k) = 1 ∧ t.get (GD_CHSTAT_TRIPPED g k) = 1) ∧
    (∀ g : Fin 4, m = .die g → (u.monChanges m y).filter (·.2) ≠ [] →
      ∃ t, exec (.overTemperatureTrip g y) s = .next t ∧ t.get (GD_STAT_OTACTIVE g) = 1 ∧
        ∀ k : Fin 8, s.armed (8 * g.val + k.val) = true → t.get (GD_CHSTAT_OT g k) = 1 ∧ t.get (GD_CHSTAT_TRIPPED g k) = 1) ∧
    (filtOk v = true →
      ∃ t, exec (.monFiltWrite v) s = .next t ∧ t.rd MON_FILT = v &&& 0x77777777#32 ∧ ∀ k : Nat, (t.window k).hist = []) ∧
    (filtOk v = false →
      ∃ t, exec (.monFiltWrite v) s = .next t ∧ t.rd MON_FILT = s.rd MON_FILT ∧ t.get MON_ST_REFUSED = 1 ∧ t.windows = s.windows) ∧
    (∀ x : Fin 6, x.val < 4 → fieldOf v (MON_THR_LO x) < fieldOf v (MON_THR_HI x) →
      ∃ t, exec (.monThrWrite x v) s = .next t ∧ t.rd (MON_THR x) = v ∧ ∀ a, a ≠ MON_THR x → t.rd a = s.rd a) ∧
    (∀ x : Fin 6, x.val < 4 → fieldOf v (MON_THR_HI x) ≤ fieldOf v (MON_THR_LO x) →
      ∃ t, exec (.monThrWrite x v) s = .next t ∧ t.get MON_ST_REFUSED = 1 ∧ ∀ a, a ≠ MON_ST → t.rd a = s.rd a) ∧
    (s.get BLY_CFG_THR * 100 < fieldOf v (MON_THR_HI 4) →
      ∃ t, exec (.monThrWrite 4 v) s = .next t ∧ t.get (MON_THR_LO 4) = s.get BLY_CFG_THR * 100 ∧
        t.get (MON_THR_HI 4) = fieldOf v (MON_THR_HI 4))

/-- The decimated channels (R63 to R65, R236 to R240, R242, R243): each output takes the inputs of its period and the blind
input into the filter and the notch; a settled sense channel publishes its current and blind weight, a settled bus channel its
voltage; one that is not settled publishes nothing; an output with an overload counts once. A change of the setting waits for
the next output, and VALID returns after the settling time. -/
def Obligations.DecimatedRows : Prop :=
  ∀ (s : State) (c : Fin 36) (iH iL : List Int) (each : Nat) (rH rL : Int) (v : Word), s.up = true →
    (s.bly.shed = true → exec (.decimatedOutput c iH iL each rH rL) s = .next s) ∧
    (∀ u : State, u = { s with now := s.decTime c }.decApply c → s.bly.shed = false →
      ∃ t, exec (.decimatedOutput c iH iL each rH rL) s = .next t ∧ t.now = s.decTime c ∧ (t.dec c).outAt = some (s.decTime c) ∧
        (t.dec c).ins = ((((clockValues (heldValues iH each rH) (u.decOsr c)).zip (clockValues (heldValues iL each rL) (u.decOsr c))).zip
          (u.decBlind c u.now (u.decOsr c))).map (fun x => (x.1.1, x.1.2, x.2)) ++ (u.dec c).ins).take (u.decOrd c * u.decOsr c) ∧
        (t.dec c).outs = ((sinc (u.decOrd c) (u.decOsr c) ((t.dec c).ins.map (u.decTerm c)),
          sinc (u.decOrd c) (u.decOsr c) ((t.dec c).ins.map (fun x => if x.2.2 then 1 else 0))) :: (u.dec c).outs).take (u.decL c) ∧
        (u.get (DEC_ST_VALID c) = 1 → (t.dec c).val = notch (u.decL c) ((t.dec c).outs.map (·.1)) ∧
          (t.dec c).wd = notch (u.decL c) ((t.dec c).outs.map (·.2)) ∧
          (c.val < 32 → t.get (SNS_I_V c) = unsignedOf 32 (roundEven (t.dec c).val) ∧
            t.get (SNS_WD_V c) = min ((t.dec c).wd * 65536).floor.toNat 0xFFFF) ∧
          (32 ≤ c.val → t.rd (DEC_VAL c) = BitVec.ofNat 32 (roundEven (t.dec c).val).toNat)) ∧
        (u.get (DEC_ST_VALID c) = 0 → ∀ a, a ≠ DEC_ST c → a ≠ DEC_OVRCNT c → t.rd a = u.rd a) ∧
        t.get (DEC_OVRCNT_V c) = (s.get (DEC_OVRCNT_V c) +
          (if (clockValues (heldValues iH each rH) (u.decOsr c)).any (overloaded c) ∨ (c.val < 32 ∧ (clockValues (heldValues iL each rL) (u.decOsr c)).any (overloaded c))
           then 1 else 0)) % 2 ^ 32 ∧
        ((clockValues (heldValues iH each rH) (u.decOsr c)).any (overloaded c) = true → t.get (DEC_ST_OVRH c) = 1)) ∧
    (8 ≤ fieldOf v (DEC_CFG_OSR c) → fieldOf v (DEC_CFG_OSR c) ≤ 256 → 1 ≤ fieldOf v (DEC_CFG_L c) →
      fieldOf v (DEC_CFG_L c) ≤ 64 → 1 ≤ fieldOf v (DEC_CFG_ORD c) → fieldOf v (DEC_CFG_ORD c) ≤ 5 → s.decUsed c = false →
      ∃ t, exec (.decCfgWrite c v) s = .next t ∧ t.rd (DEC_CFG c) = v &&& 0x1FF7F07#32 ∧
        t.decOrd c = s.decOrd c ∧ t.decOsr c = s.decOsr c ∧ t.decL c = s.decL c ∧ (t.dec c).old.isSome = true ∧
        ∀ a, a ≠ DEC_CFG c → t.rd a = s.rd a) ∧
    (fieldOf v (DEC_CFG_OSR c) < 8 ∨ 256 < fieldOf v (DEC_CFG_OSR c) ∨ s.decUsed c = true →
      ∃ t, exec (.decCfgWrite c v) s = .next t ∧ t.get (DEC_ST_REFUSED c) = 1 ∧ ∀ a, a ≠ DEC_ST c → t.rd a = s.rd a) ∧
    (s.get (DEC_ST_VALID c) = 0 → (s.dec c).old = none →
      ∃ t, exec (.decSettled c) s = .next t ∧ t.get (DEC_ST_VALID c) = 1 ∧ s.now ≤ t.now ∧
        (s.dec c).settleAt + (s.decOrd c + s.decL c - 1) * s.decOsr c * 50 ≤ t.now ∧ ∀ a, a ≠ DEC_ST c → t.rd a = s.rd a) ∧
    (∀ g : Fin 4, fieldOf v (BUS_WIN_LO g) < fieldOf v (BUS_WIN_HI g) →
      ∃ t, exec (.busWinWrite g v) s = .next t ∧ t.rd (BUS_WIN g) = v ∧ ∀ a, a ≠ BUS_WIN g → t.rd a = s.rd a) ∧
    (∀ g : Fin 4, fieldOf v (BUS_WIN_HI g) ≤ fieldOf v (BUS_WIN_LO g) →
      ∃ t, exec (.busWinWrite g v) s = .next t ∧ t.get (DEC_ST_REFUSED (32 + g)) = 1 ∧
        ∀ a, a ≠ DEC_ST (32 + g) → t.rd a = s.rd a)

/-- The sequences of the housekeeping converter (R246 to R251, R255): RUN starts at entry 0 with the ring empty, or waits for
a stop to complete; a stop ends with the present conversion; triggers arrive in order and are taken or counted in IMISS; a
conversion that ends leaves its corrected result; RIDX moves only forward and not past WIDX. -/
def Obligations.HousekeepingRunRows : Prop :=
  ∀ (s : State) (k : Int) (v : Word), s.up = true →
    (s.get HKC_ST_STOPPING = 0 → s.get HKC_CTRL_RUN = 0 →
      ∃ t, exec (.hkcRun true) s = .next t ∧ t.get HKC_CTRL_RUN = 1 ∧ t.get HKC_ST_ENTRY = 0 ∧ t.get HKC_WIDX_V = 0 ∧
        t.get HKC_RIDX_V = 0 ∧ t.get HKC_ROVF_V = 0) ∧
    (s.get HKC_ST_STOPPING = 1 →
      ∃ t, exec (.hkcRun true) s = .next t ∧ t.get HKC_ST_ENABLEPENDING = 1 ∧ t.get HKC_CTRL_RUN = s.get HKC_CTRL_RUN) ∧
    (s.get HKC_CTRL_RUN = 1 → s.hkc.conv ≠ 0 →
      ∃ t, exec (.hkcRun false) s = .next t ∧ t.get HKC_CTRL_RUN = 0 ∧ t.get HKC_ST_STOPPING = 1 ∧
        t.get HKC_ST_ENABLEPENDING = 0 ∧ t.hkc = s.hkc) ∧
    (s.get HKC_CTRL_RUN = 1 → s.hkc.conv = 0 →
      ∃ t, exec (.hkcRun false) s = .next t ∧ t.get HKC_CTRL_RUN = 0 ∧ t.get HKC_ST_STOPPING = 0 ∧
        t.get HKC_ST_BUSY = s.get HKC_CAL_BUSY) ∧
    (∃ t, exec .isw s = .next t ∧ t.hkc.trig = s.hkc.trig ++ [s.now] ∧ t.regs = s.regs) ∧
    (∀ (a : Nat) (rest : List Nat), s.hkc.trig = a :: rest → (∀ b ∈ rest, b / 5 ≠ a / 5) → s.get HKC_CTRL_RUN = 0 →
      ∃ t, exec .hkcInjectedTrigger s = .next t ∧ t.get HKC_IMISS_V = (s.get HKC_IMISS_V + 1) % 2 ^ 32 ∧ t.hkc.trig = rest) ∧
    (∀ (a : Nat) (rest : List Nat), s.hkc.trig = a :: rest → (∀ b ∈ rest, b / 5 ≠ a / 5) → s.get HKC_CTRL_RUN = 1 →
      s.get HKC_CAL_BUSY = 0 → s.hkc.injPend = none → s.hkc.injRun = true →
      ∃ t, exec .hkcInjectedTrigger s = .next t ∧ t.hkc.injPend = some a ∧ t.get HKC_ST_INJ = 1 ∧
        t.get HKC_IMISS_V = s.get HKC_IMISS_V) ∧
    (∀ (a : Nat) (rest : List Nat), s.hkc.trig = a :: rest → (∀ b ∈ rest, b / 5 ≠ a / 5) → s.get HKC_CTRL_RUN = 1 →
      s.get HKC_CAL_BUSY = 0 → s.hkc.injPend = none → s.hkc.injRun = false → s.hkc.conv = 1 ∨ s.hkc.conv = 3 →
      s.hkc.start / 5 ≠ a / 5 → s.hkcEnd / 5 ≠ a / 5 →
      ∃ t, exec .hkcInjectedTrigger s = .next t ∧ t.get HKC_ABORT_V = (s.get HKC_ABORT_V + 1) % 2 ^ 32 ∧
        (s.get HKC_ST_REFSETTLED = 1 → s.get HKC_SEQCFG_ILEN ≠ 0 →
          t.hkc.conv = 2 ∧ t.hkc.start = s.now ∧ t.rd64 HKC_ITIME = a % 2 ^ 64)) ∧
    (s.hkc.conv = 1 → s.get HKC_ST_ENTRY < 16 →
      ∃ t, exec (.hkcConversionDone k) s = .next t ∧
        t.rd (HKC_RES (s.get HKC_ST_ENTRY)) =
          hkcResult (s.get HKC_ST_ENTRY) (s.hkcCorrect (s.get (HKC_SEQ_GAIN (s.get HKC_ST_ENTRY))) k) ∧
        s.hkcEnd ≤ t.now) ∧
    (0 ≤ signedOf 32 (v.toNat + 2 ^ 32 - s.get HKC_RIDX_V) →
      signedOf 32 (v.toNat + 2 ^ 32 - s.get HKC_RIDX_V) ≤ signedOf 32 (s.get HKC_WIDX_V + 2 ^ 32 - s.get HKC_RIDX_V) →
      ∃ t, exec (.ridxWrite v) s = .next t ∧ t.rd HKC_RIDX = v) ∧
    (signedOf 32 (v.toNat + 2 ^ 32 - s.get HKC_RIDX_V) < 0 →
      ∃ t, exec (.ridxWrite v) s = .next t ∧ t.rd HKC_RIDX = s.rd HKC_RIDX ∧ t.get HKC_ST_RIDXERR = 1)

/-- Reference, calibration and configuration of the housekeeping converter (R252, R253, R255 to R257): taken only while it is
stopped and no calibration runs; a new reference has to settle and makes the calibration stale; a calibration stores what
lies in its limits and names the other ranges. -/
def Obligations.HousekeepingSetupRows : Prop :=
  ∀ (s : State) (v : Word), s.up = true →
    (s.hkcStoppedNow = true → fieldOf v HKC_REF_SEL < 3 → 1000 ≤ fieldOf v HKC_REF_REFMV → fieldOf v HKC_REF_REFMV ≤ 2500 →
      v &&& 0xFFFF0003#32 ≠ s.rd HKC_REF →
      ∃ t, exec (.hkcRefWrite v) s = .next t ∧ t.rd HKC_REF = v &&& 0xFFFF0003#32 ∧ t.get HKC_ST_REFSETTLED = 0 ∧
        t.get HKC_CAL_STALE = 1 ∧ t.hkc.refAt = s.now) ∧
    (s.hkcStoppedNow = false ∨ fieldOf v HKC_REF_SEL = 3 →
      ∃ t, exec (.hkcRefWrite v) s = .next t ∧ t.rd HKC_REF = s.rd HKC_REF ∧ t.get HKC_ST_REFUSED = 1) ∧
    (s.get HKC_ST_REFSETTLED = 0 →
      ∃ t, exec .refSettled s = .next t ∧ t.get HKC_ST_REFSETTLED = 1 ∧ s.now ≤ t.now ∧
        (s.hkc.autoCal = false → t.get HKC_CAL_BUSY = 1 ∧ t.hkc.autoCal = true)) ∧
    (s.hkcStoppedNow = true → s.get HKC_ST_REFSETTLED = 1 →
      ∃ t, exec .hkcCalGo s = .next t ∧ t.get HKC_CAL_BUSY = 1 ∧ t.hkc.calAt = s.now) ∧
    (s.hkcStoppedNow = false ∨ s.get HKC_ST_REFSETTLED = 0 →
      ∃ t, exec .hkcCalGo s = .next t ∧ t.get HKC_ST_REFUSED = 1 ∧ t.get HKC_CAL_BUSY = s.get HKC_CAL_BUSY) ∧
    (∀ o0 g0 o1 g1 o2 g2 o3 g3 : Int, s.get HKC_CAL_BUSY = 1 → calRangeOk o0 g0 = true → calRangeOk o1 g1 = true →
      calRangeOk o2 g2 = true → calRangeOk o3 g3 = true →
      ∃ t, exec (.hkcCalibrationDone o0 g0 o1 g1 o2 g2 o3 g3) s = .next t ∧ t.get HKC_CAL_BUSY = 0 ∧ t.get HKC_CAL_DONE = 1 ∧
        t.get HKC_CAL_FAIL = 0 ∧ t.get HKC_CAL_STALE = 0 ∧ t.get HKC_CAL_FAILRANGE = 0 ∧ t.geti (HKC_CALOFS_V 0) = o0 ∧ t.geti (HKC_CALGAIN_V 3) = g3) ∧
    (∀ o0 g0 o1 g1 o2 g2 o3 g3 : Int, s.get HKC_CAL_BUSY = 1 → calRangeOk o0 g0 = false → calRangeOk o1 g1 = true →
      calRangeOk o2 g2 = true → calRangeOk o3 g3 = true →
      ∃ t, exec (.hkcCalibrationDone o0 g0 o1 g1 o2 g2 o3 g3) s = .next t ∧ t.get HKC_CAL_FAIL = 1 ∧
        t.get HKC_CAL_DONE = 0 ∧ t.get HKC_CAL_STALE = 0 ∧ t.get HKC_CAL_FAILRANGE = 1 ∧ t.rd (HKC_CALOFS 0) = s.rd (HKC_CALOFS 0) ∧ t.geti (HKC_CALGAIN_V 1) = g1) ∧
    (∀ off : Fin 1024, hkcCfgReg (0x288000 + 4 * off.val) = true → s.hkcStoppedNow = true →
      s.hkcValueOk (0x288000 + 4 * off.val) v = true →
      ∃ t, exec (.hkcConfigWrite off v) s = .next t ∧ t.rd (0x288000 + 4 * off.val) = v &&& hkcMask (0x288000 + 4 * off.val) ∧
        ∀ a, a ≠ 0x288000 + 4 * off.val → t.rd a = s.rd a) ∧
    (∀ off : Fin 1024, hkcCfgReg (0x288000 + 4 * off.val) = true →
      s.hkcStoppedNow = false ∨ s.hkcValueOk (0x288000 + 4 * off.val) v = false →
      ∃ t, exec (.hkcConfigWrite off v) s = .next t ∧ t.get HKC_ST_REFUSED = 1 ∧ ∀ a, a ≠ HKC_ST → t.rd a = s.rd a)

/-- Feedback ports, step inputs and step outputs (R259 to R263, R266 to R269): a level change that the filter accepts and that
goes to a neighbouring state counts one up or down, reversed by DIRINV; one that the filter does not accept, and a change of both
lines at once, count nothing; an accepted rising Z copies the count with ZLAT; an SSI frame ends with its bits, Gray decoded when
GRAY is set, and sets or moves the count; a configuration write is refused while a bound slot is energised, and a change of MODE
zeroes the count. An accepted edge of a step input counts by its mode, and every slot in HOLD or RUN that follows the input
receives it; the configuration writes are refused while a slot uses the input or output. -/
def Obligations.FeedbackRows : Prop :=
  (∀ (s : State) (p : Fin 8) (cfg : Word) (n : Nat), s.up = true → cfg = s.rdStart (FB_CFG p) → n = fieldOf cfg (FB_CFG_FILT p) →
    (∀ a b : Bool, fieldOf cfg (FB_CFG_MODE p) = 1 → s.lineTakes (4 * p) n a = true → (s.line (4 * p + 1)).lvl = b →
      ∃ t, exec (.quadratureCount p a b) s = .next t ∧ t.get (FB_ST_LEVELS p) % 4 = (if a then 1 else 0) + (if b then 2 else 0) ∧
        t.rd64 (FB_CNT p) = (s.rd64 (FB_CNT p) + (if (a != b) != (fieldOf cfg (FB_CFG_DIRINV p) == 1) then 1 else 2 ^ 64 - 1)) % 2 ^ 64) ∧
    (∀ a b : Bool, fieldOf cfg (FB_CFG_MODE p) = 1 → (s.line (4 * p)).lvl = a → s.lineTakes (4 * p + 1) n b = true →
      ∃ t, exec (.quadratureCount p a b) s = .next t ∧ t.get (FB_ST_LEVELS p) % 4 = (if a then 1 else 0) + (if b then 2 else 0) ∧
        t.rd64 (FB_CNT p) = (s.rd64 (FB_CNT p) + (if (a == b) != (fieldOf cfg (FB_CFG_DIRINV p) == 1) then 1 else 2 ^ 64 - 1)) % 2 ^ 64) ∧
    (∀ a b : Bool, s.lineTakes (4 * p) n a = s.lineTakes (4 * p + 1) n b →
      ∃ t, exec (.quadratureCount p a b) s = .next t ∧ t.rd64 (FB_CNT p) = s.rd64 (FB_CNT p) ∧ t.fb p = s.fb p) ∧
    (fieldOf cfg (FB_CFG_MODE p) = 1 → fieldOf cfg (FB_CFG_ZLAT p) = 1 → s.lineTakes (4 * p + 2) n true = true →
      ∃ t, exec (.zLatch p true) s = .next t ∧ t.rd64 (FB_ZCNT p) = s.rd64 (FB_CNT p) ∧ t.get (FB_ST_ZSEEN p) = 1) ∧
    (∀ (u v w : Bool) (k k0 : Nat), fieldOf cfg (FB_CFG_MODE p) = 2 →
      (∀ x ∈ [(0, u), (1, v), (2, w)], (s.line (4 * p + x.1)).lvl = x.2 ∨ s.lineTakes (4 * p + x.1) n x.2 = true) →
      uvwPlace ((if u then 1 else 0) + (if v then 2 else 0) + (if w then 4 else 0)) = some k → uvwPlace (s.fb p).uvw = some k0 →
      ∃ t, exec (.magneticSwitchCount p u v w) s = .next t ∧
        (k = (k0 + 1) % 6 → t.rd64 (FB_CNT p) =
          (s.rd64 (FB_CNT p) + (if fieldOf cfg (FB_CFG_DIRINV p) = 1 then 2 ^ 64 - 1 else 1)) % 2 ^ 64 ∧ uvwPlace (t.fb p).uvw = some k) ∧
        (k0 = (k + 1) % 6 → t.rd64 (FB_CNT p) =
          (s.rd64 (FB_CNT p) + (if fieldOf cfg (FB_CFG_DIRINV p) = 1 then 1 else 2 ^ 64 - 1)) % 2 ^ 64 ∧ uvwPlace (t.fb p).uvw = some k) ∧
        (k ≠ (k0 + 1) % 6 → k0 ≠ (k + 1) % 6 → t.rd64 (FB_CNT p) = s.rd64 (FB_CNT p))) ∧
    (∀ raw bin : Nat, s.get (FB_CFG_MODE p) = 3 → (s.fb p).busy = true →
      bin = (if s.bit (FB_SSI_GRAY p) then grayToBin (raw % 2 ^ s.get (FB_SSI_BITS p)) else raw % 2 ^ s.get (FB_SSI_BITS p)) →
      ∃ t, exec (.ssiFrameDone p raw) s = .next t ∧ (t.fb p).busy = false ∧ (t.fb p).first = false ∧ (t.fb p).raw = bin ∧
        t.rd64 (FB_SSIRAW p) = bin % 2 ^ 64 ∧
        ((s.fb p).first = true → s.get (FB_SSI_MT p) = 0 → s.get (FB_CFG_DIRINV p) = 0 → t.rd64 (FB_CNT p) = bin % 2 ^ 64) ∧
        ((s.fb p).first = false → s.get (FB_CFG_DIRINV p) = 0 → t.rd64 (FB_CNT p) =
          unsignedOf 64 (s.geti (FB_CNT_V p) + signedOf (s.get (FB_SSI_BITS p)) (bin + 2 ^ s.get (FB_SSI_BITS p) - (s.fb p).raw)))) ∧
    (∀ (r : FbReg) (v : Word), fbValueOk p r v = false ∨ s.portUsed p = true →
      ∃ t, exec (.fbConfigWrite p r v) s = .next t ∧ t.get (FB_ST_REFUSED p) = 1 ∧ ∀ a, a ≠ FB_ST p → t.rd a = s.rd a) ∧
    (∀ v : Word, fbValueOk p .cfg v = true → s.portUsed p = false → fieldOf v (FB_CFG_MODE p) ≠ s.get (FB_CFG_MODE p) →
      ∃ t, exec (.fbConfigWrite p .cfg v) s = .next t ∧ t.rd (FB_CFG p) = v &&& 0x3FFFF07#32 ∧ t.rd64 (FB_CNT p) = 0 ∧
        t.fb p = { uvw := s.get (FB_ST_LEVELS p) }) ∧
    (∀ v : Word, v ≠ 0#32 → s.portUsed p = false →
      ∃ t, exec (.fbConfigWrite p .auden v) s = .next t ∧ t.rd (FB_AUDEN p) = v ∧ t.rd64 (FB_CNT p) = s.rd64 (FB_CNT p))) ∧
  (∀ (s : State) (i : Fin 8) (v cfg : Word) (n : Nat), s.up = true → cfg = s.rdStart (SI_CFG i) → n = fieldOf cfg (SI_CFG_FILT i) →
    (∀ dir : Bool, fieldOf cfg (SI_CFG_MODE i) = 1 → fieldOf cfg (SI_CFG_EDGE i) = 0 → fieldOf cfg (SI_CFG_DIRINV i) = 0 →
      s.lineTakes (32 + 2 * i) n true = true → (s.line (33 + 2 * i)).lvl = dir ∨ s.lineTakes (33 + 2 * i) n dir = true →
      ∃ t, exec (.stepInputPulse i false true dir) s = .next t ∧
        t.get (SI_CNT_V i) = (s.get (SI_CNT_V i) + (if dir then 1 else 2 ^ 32 - 1)) % 2 ^ 32 ∧
        ∀ n < 16, (t.gen n).gearCount = (s.gen n).gearCount +
          (if s.get (AX_MCFG_SRC n) = 1 ∧ s.get (AX_GEAR_CTRL_SISEL n) = i.val ∧ (s.slotState n = stHold ∨ s.slotState n = stRun)
           then (if dir then 1 else -1) else 0)) ∧
    (∀ onDir dir : Bool, fieldOf cfg (SI_CFG_MODE i) = 2 → fieldOf cfg (SI_CFG_EDGE i) = 0 → fieldOf cfg (SI_CFG_DIRINV i) = 0 →
      s.lineTakes (if onDir then 33 + 2 * i else 32 + 2 * i) n true = true →
      ∃ t, exec (.stepInputPulse i onDir true dir) s = .next t ∧
        t.get (SI_CNT_V i) = (s.get (SI_CNT_V i) + (if onDir then 2 ^ 32 - 1 else 1)) % 2 ^ 32) ∧
    (∀ rising dir : Bool, s.lineTakes (32 + 2 * i) n rising = false →
      ∃ t, exec (.stepInputPulse i false rising dir) s = .next t ∧ t.get (SI_CNT_V i) = s.get (SI_CNT_V i) ∧ t.gens = s.gens) ∧
    (fieldOf v (SI_CFG_MODE i) ≠ 3 →
      (∀ n < 16, s.get (AX_MCFG_SRC n) = 1 → s.get (AX_GEAR_CTRL_SISEL n) = i.val → s.slotState n ≠ stHold ∧ s.slotState n ≠ stRun) →
      ∃ t, exec (.siCfgWrite i v) s = .next t ∧ t.rd (SI_CFG i) = v &&& 0x3F0F#32 ∧ ∀ a, a ≠ SI_CFG i → t.rd a = s.rd a) ∧
    (fieldOf v (SI_CFG_MODE i) = 3 →
      ∃ t, exec (.siCfgWrite i v) s = .next t ∧ t.get (SI_ST_REFUSED i) = 1 ∧ ∀ a, a ≠ SI_ST i → t.rd a = s.rd a) ∧
    (25 ≤ fieldOf v (SO_CFG_DSU i) →
      (∀ n < 16, s.isRemote n = true → s.get (AX_BIND_SOUT n) = i.val → s.slotState n ≤ stIdle) →
      ∃ t, exec (.soCfgWrite i v) s = .next t ∧ t.rd (SO_CFG i) = v &&& 0xFF0E#32 ∧ ∀ a, a ≠ SO_CFG i → t.rd a = s.rd a) ∧
    (fieldOf v (SO_CFG_DSU i) < 25 →
      ∃ t, exec (.soCfgWrite i v) s = .next t ∧ t.get (SO_ST_REFUSED i) = 1 ∧ ∀ a, a ≠ SO_ST i → t.rd a = s.rd a))

/-- Captures and position-compare outputs (R270 to R274): an edge that the filter accepts and that EDGE selects is latched with
its time and every slot's position at that time, and counted, or, while a locked record is held, only counted in MISS; an edge
that is not accepted or not selected changes no register; RELEASE ends the hold; ARM waits for the tick instant; a crossing of an
armed output begins a pulse and, with REPEAT 0, disarms; FORCE fires at once; the settings are refused while armed. -/
def Obligations.CaptureAndCompareRows : Prop :=
  ∀ (s : State) (k : Fin 8) (q : Fin 4) (cfg : Word) (n : Nat), s.up = true → cfg = s.rdStart (CAP_CFG k) →
    n = fieldOf cfg (CAP_CFG_FILT k) →
    (∀ at_ : Int, s.lineTakes (48 + k) n true = true → fieldOf cfg (CAP_CFG_EDGE k) % 2 = 1 →
      tabGet (fun _ => 0) s.capAt k.val = 0 ∨ tabGet (fun _ => 0) s.capAt k.val - 1 + 100 ≤ s.now → fieldOf cfg (CAP_CFG_LOCK k) = 0 →
      at_ = captureTime ((s.now : Int) - (n + 2) * 5) →
      ∃ t, exec (.captureEdge k true) s = .next t ∧ t.get (CAP_CTRL_COUNT k) = (s.get (CAP_CTRL_COUNT k) + 1) % 65536 ∧
        t.get (CAP_MISS_V k) = s.get (CAP_MISS_V k) ∧ t.rd64 (CAP_TIME k) = unsignedOf 64 at_ ∧
        ∀ m < 16, t.rd64 (CAP_POS k m) = unsignedOf 64 (s.capturedPos m at_)) ∧
    (s.lineTakes (48 + k) n false = true → 2 ≤ fieldOf cfg (CAP_CFG_EDGE k) → fieldOf cfg (CAP_CFG_LOCK k) = 1 →
      s.get (CAP_CTRL_HELD k) = 1 →
      ∃ t, exec (.captureEdge k false) s = .next t ∧ t.get (CAP_MISS_V k) = (s.get (CAP_MISS_V k) + 1) % 2 ^ 32 ∧
        t.rd64 (CAP_TIME k) = s.rd64 (CAP_TIME k) ∧ t.get (CAP_CTRL_COUNT k) = s.get (CAP_CTRL_COUNT k)) ∧
    (∀ x : Bool, s.lineTakes (48 + k) n x = false ∨ fieldOf cfg (CAP_CFG_EDGE k) = 0 →
      ∃ t, exec (.captureEdge k x) s = .next t ∧ t.regs = s.regs) ∧
    (∃ t, exec (.release k) s = .next t ∧ t.get (CAP_CTRL_HELD k) = 0 ∧ t.get (CAP_CTRL_COUNT k) = s.get (CAP_CTRL_COUNT k) ∧
      ∀ a, a ≠ CAP_CTRL k → t.rd a = s.rd a) ∧
    (s.get (PCO_CFG_REPEAT q) = 0 → ∃ t, exec (.arm q) s = .next t ∧ (t.pco q).armReq = true ∧ t.regs = s.regs) ∧
    (s.get (PCO_CFG_REPEAT q) = 1 → s.rd64 (PCO_STEP q) = 0 →
      ∃ t, exec (.arm q) s = .next t ∧ t.get (PCO_CTRL_REFUSED q) = 1 ∧ t.pcos = s.pcos) ∧
    (∃ t, exec (.disarm q) s = .next t ∧ t.get (PCO_CTRL_ARMED q) = 0 ∧ (t.pco q).armReq = false ∧
      t.get (PCO_CTRL_ACTIVE q) = s.get (PCO_CTRL_ACTIVE q)) ∧
    (s.get (PCO_CTRL_ACTIVE q) = 0 →
      ∃ t, exec (.force q) s = .next t ∧ t.get (PCO_CTRL_ACTIVE q) = 1 ∧ t.get (PCO_FIRES_V q) = (s.get (PCO_FIRES_V q) + 1) % 2 ^ 32 ∧
        t.rd64 (PCO_FTIME q) = s.now % 2 ^ 64 ∧ t.rd64 (PCO_POS q) = s.rd64 (PCO_POS q) ∧
        (s.get (PCO_CFG_REPEAT q) = 0 → t.get (PCO_CTRL_ARMED q) = 0)) ∧
    (s.get (PCO_CTRL_ACTIVE q) = 1 →
      ∃ t, exec (.force q) s = .next t ∧ t.get (PCO_CTRL_REFUSED q) = 1 ∧ t.get (PCO_FIRES_V q) = s.get (PCO_FIRES_V q)) ∧
    (∀ at_ : Nat, s.get (PCO_CTRL_ARMED q) = 1 → s.pcoCrossing q at_ = true → s.get (PCO_CTRL_ACTIVE q) = 0 →
      (s.pco q).fired = false → s.get (PCO_CFG_REPEAT q) = 0 →
      ∃ t, exec (.compareFire q at_) s = .next t ∧ t.get (PCO_CTRL_ACTIVE q) = 1 ∧ t.get (PCO_CTRL_ARMED q) = 0 ∧
        t.get (PCO_FIRES_V q) = (s.get (PCO_FIRES_V q) + 1) % 2 ^ 32 ∧ t.rd64 (PCO_FTIME q) = at_ % 2 ^ 64 ∧ at_ ≤ t.now) ∧
    (∀ at_ : Nat, s.get (PCO_CTRL_ARMED q) = 1 → s.pcoCrossing q at_ = true → s.get (PCO_CTRL_ACTIVE q) = 1 →
      ∃ t, exec (.compareFire q at_) s = .next t ∧ t.get (PCO_MISS_V q) = (s.get (PCO_MISS_V q) + 1) % 2 ^ 32 ∧
        t.get (PCO_FIRES_V q) = s.get (PCO_FIRES_V q)) ∧
    (s.get (PCO_CTRL_ACTIVE q) = 1 →
      ∃ t, exec (.comparePulseEnd q) s = .next t ∧ t.get (PCO_CTRL_ACTIVE q) = 0 ∧ (s.pco q).endAt ≤ t.now ∧ s.now ≤ t.now ∧
        ∀ a, a ≠ PCO_CTRL q → t.rd a = s.rd a) ∧
    (∀ (r : PcoReg) (v : Word), s.get (PCO_CTRL_ARMED q) = 1 →
      ∃ t, exec (.pcoConfigWrite q r v) s = .next t ∧ t.get (PCO_CTRL_REFUSED q) = 1 ∧ ∀ a, a ≠ PCO_CTRL q → t.rd a = s.rd a) ∧
    (∀ v : Word, s.get (PCO_CTRL_ARMED q) = 0 → fieldOf v (PCO_CFG_PWIDTH q) ≠ 0 → fieldOf v (PCO_CFG_DIR q) ≠ 3 →
      ∃ t, exec (.pcoConfigWrite q .cfg v) s = .next t ∧ t.rd (PCO_CFG q) = v &&& 0xFFFF00FF#32 ∧
        ∀ a, a ≠ PCO_CFG q → t.rd a = s.rd a)

/-- Clocked serial ports (R325, R327 to R334): CSPn_CFG is refused with REFUSED, taken at once where a configuration may apply,
and else left pending until it may; QIN_WRITE queues an entry or sets REFUSED; an entry starts, completes with its words in
the receive buffer, or ends by a strobe timeout; a flush discards what has not started; SS0 begins and ends an assertion, whose
first word decides its direction; raw words and the raw FIFOs. -/
def Obligations.SerialPortRows : Prop :=
  ∀ (s : State) (n : Fin 4) (v : Word), s.up = true →
    (cspCfgOk v = false ∨ s.cspBound n = true ∧ fieldOf v (CSP_CFG_MODE n) ≠ 2 →
      ∃ t, exec (.cspCfgWrite n v) s = .next t ∧ t.get (CSP_ST_REFUSED n) = 1 ∧ t.rd (CSP_CFG n) = s.rd (CSP_CFG n) ∧
        t.csps = s.csps) ∧
    (cspCfgOk v = true → (s.cspBound n = true → fieldOf v (CSP_CFG_MODE n) = 2) →
      ∃ t, exec (.cspCfgWrite n v) s = .next t ∧
        (s.cspFree n = true → t.rd (CSP_CFG n) = v &&& 0xFFFFFF7F#32 ∧ t.get (CSP_ST_CFGPEND n) = 0) ∧
        (s.cspFree n = false → t.rd (CSP_CFG n) = s.rd (CSP_CFG n) ∧ t.get (CSP_ST_CFGPEND n) = 1 ∧
          (t.csp n).cfgNext = some (v &&& 0xFFFFFF7F#32))) ∧
    (∀ x : Word, (s.csp n).cfgNext = some x → s.cspFree n = true →
      ∃ t, exec (.cspCfgApply n) s = .next t ∧ t.rd (CSP_CFG n) = x ∧ t.get (CSP_ST_CFGPEND n) = 0) ∧
    (s.qinOk n v = true →
      ∃ t, exec (.qinWrite n v) s = .next t ∧ (t.csp n).queue = (s.csp n).queue ++ [v] ∧
        t.get (CSP_QACC_V n) = (s.get (CSP_QACC_V n) + 1) % 2 ^ 32) ∧
    (s.qinOk n v = false → ∃ t, exec (.qinWrite n v) s = .next t ∧ t.get (CSP_ST_REFUSED n) = 1 ∧ t.csps = s.csps) ∧
    (∀ (x : Word) (rest : List Word), (s.csp n).queue = x :: rest →
      ((s.csp n).active = false → s.cspMode n = 1 → s.portsRun = true → qinTick x = false →
        ∃ t, exec (.cspEntryStart n) s = .next t ∧ (t.csp n).active = true ∧ (t.csp n).startAt = max s.now (s.cspIdleEnd n) ∧
          (t.csp n).queue = (s.csp n).queue ∧ t.get (CSP_QST_ACTIVE n) = 1) ∧
      (∀ got : List Word, (s.csp n).active = true →
        (∃ t, exec (.cspEntryDone n got) s = .next t ∧ (t.csp n).queue = rest ∧
          t.get (CSP_QDONE_V n) = (s.get (CSP_QDONE_V n) + 1) % 2 ^ 32 ∧
          (qinLink x = false → t.get (CSP_QST_LASTERR n) = 0 ∧ (t.csp n).active = false) ∧
          (qinReads x = true → ∀ i, i < qinWords x → ∀ y : Word, got[i]? = some y →
            t.rdMem (0x050500 + 0x1000 * n.val + 4 * (qinRxofs x + i)) = BitVec.ofNat 32 (y.toNat % 2 ^ qinBits x))) ∧
        (qinDir x = 1 → s.bit (CSP_CFG_STRB n) = true →
          ∃ t, exec (.strobeTimeout n got) s = .next t ∧ (t.csp n).queue = rest ∧ t.get (CSP_ST_STRBTO n) = 1 ∧
            t.get (CSP_QST_LASTERR n) = 1 ∧ t.get (CSP_QDONE_V n) = (s.get (CSP_QDONE_V n) + 1) % 2 ^ 32))) ∧
    (∃ t, exec (.cspQueueFlush n) s = .next t ∧
      (t.csp n).queue = (if (s.csp n).active then (s.csp n).queue.take 1 else []) ∧
      t.get (CSP_QFLSH_V n) = (s.get (CSP_QFLSH_V n) + ((s.csp n).queue.length - (t.csp n).queue.length)) % 2 ^ 32) ∧
    (∃ t, exec (.ss0Fall n) s = .next t ∧ (t.csp n).low = true ∧ (t.csp n).asm = [] ∧
      (s.cspMode n = 2 → s.portsRun = true → (t.csp n).phase = if s.get (CSP_CFG_LANES n) = 0 then 1 else 0) ∧
      (s.cspMode n ≠ 2 ∨ s.portsRun = false → (t.csp n).phase = 3)) ∧
    (∀ mid : Bool, ∃ t, exec (.ss0Rise n mid) s = .next t ∧ (t.csp n).low = false ∧ (t.csp n).asm = [] ∧
      (∀ x : Word, (s.csp n).cfgNext = some x → t.rd (CSP_CFG n) = x) ∧
      (s.framed n = true → (s.csp n).low = true → (s.csp n).asm ≠ [] →
        t.get (CSP_ST_ABORT n) = 1 ∧ t.get (CSP_ABORTCNT_V n) = (s.get (CSP_ABORTCNT_V n) + 1) % 2 ^ 32)) ∧
    (s.cspMode n = 2 → (s.csp n).low = true → s.portsRun = true →
      (s.framed n = true → (s.csp n).phase = 0 →
        ∃ t, exec (.cspSlaveWord n v) s = .next t ∧
          (v = 0x57000000#32 → (t.csp n).phase = 1) ∧
          (v.toNat / 65536 = 0x5200 → v.toNat % 65536 ≠ 0 → (t.csp n).phase = 2) ∧
          (v ≠ 0x57000000#32 → v.toNat / 65536 ≠ 0x5200 ∨ v.toNat % 65536 = 0 → (t.csp n).phase = 3 ∧
            t.get (CSP_ST_FRAMEERR n) = 1 ∧ t.get (CSP_FERRCNT_V n) = (s.get (CSP_FERRCNT_V n) + 1) % 2 ^ 32)) ∧
      (∀ (x : Word) (rest : List Word), s.framed n = false → s.get (CSP_CFG_LANES n) = 0 → (s.csp n).rx.length < 64 →
        (s.csp n).tx = x :: rest →
        ∃ t, exec (.cspSlaveWord n v) s = .next t ∧ (t.csp n).tx = rest ∧
          (t.csp n).rx = (s.csp n).rx ++ [BitVec.ofNat 32 (v.toNat % 2 ^ (s.get (CSP_RAW_WLEN n) + 1))])) ∧
    (s.cspReady n = true → (s.csp n).low = true →
      ∃ t, exec (.underrunResend n) s = .next t ∧ t.get (CSP_ST_UNDERRUN n) = 1 ∧
        t.get (CSP_UNDERCNT_V n) = (s.get (CSP_UNDERCNT_V n) + 1) % 2 ^ 32 ∧ t.streams = s.streams) ∧
    (∃ t, exec (.srxdRead n) s = .next t ∧ t.dataOut = (s.csp n).rx.headD 0 ∧ (t.csp n).rx = (s.csp n).rx.drop 1) ∧
    ((s.csp n).tx.length < 64 → ∃ t, exec (.stxdWrite n v) s = .next t ∧ (t.csp n).tx = (s.csp n).tx ++ [v]) ∧
    (64 ≤ (s.csp n).tx.length → ∃ t, exec (.stxdWrite n v) s = .next t ∧ t.get (CSP_ST_REFUSED n) = 1 ∧ t.csps = s.csps)

/-- Backbone Ethernet (R338 to R340, R343 to R345, R352, R357): a bad frame counts RXBAD and nothing else, a good one RXGOOD, and
one to the device's own address with the host EtherType waits for its host; the highest queue that may start sends its head;
gate entries change at their times; an administrative list is pended or sets ERR, and becomes operational at its change; MDIO
is refused while busy and ends with the word read; a link comes up and goes down. -/
def Obligations.EthernetRows : Prop :=
  ∀ (s : State) (p : Fin 2), s.up = true →
    (∀ (b : List Byte) (e : Bool), s.linkUp p = true →
      (e = true ∨ b.length < 64 ∨ 1522 < b.length ∨ fcsOk b = false →
        ∃ t, exec (.ethFrameReceive p b e) s = .next t ∧
          t.get (ETH_RXGOOD_V p 1) = (s.get (ETH_RXGOOD_V p 1) + 1) % 2 ^ 32 ∧ t.eths = s.eths ∧
          (∀ a, a ≠ ETH_RXGOOD p 1 → t.rd a = s.rd a)) ∧
      (e = false → 64 ≤ b.length → b.length ≤ 1522 → fcsOk b = true →
        ∃ t, exec (.ethFrameReceive p b e) s = .next t ∧
          t.get (ETH_RXGOOD_V p 0) = (s.get (ETH_RXGOOD_V p 0) + 1) % 2 ^ 32 ∧
          (∀ (ty : Nat) (payload : List Byte), ethParts b = (none, ty, payload) → ty = fieldOf (s.headAt (s.now - 8 * b.length)).1 ETH_HTYPE_V → ty ≠ 0x8808 →
            beNat (b.take 6) = s.get ETH_MAC_V → ¬ (0x0180C2000000 ≤ beNat (b.take 6) ∧ beNat (b.take 6) ≤ 0x0180C200000F) →
            (t.eth p).inbox = (s.eth p).inbox ++ [(beNat ((b.drop 6).take 6), payload)]))) ∧
    (∀ (q : Nat) (f : EgFrame) (rest : List EgFrame), s.linkUp p = true → (s.eth p).busy ≤ s.now → q < 8 →
      (s.eth p).queue q = f :: rest → s.mayStart p q = true → (∀ r, q < r → r < 8 → s.mayStart p r = false) →
      ∃ t, exec (.egressFrameStart p) s = .next t ∧ (t.eth p).queue q = rest ∧
        (t.eth p).busy = s.now + s.wireTime p f.len ∧ t.get (ETH_RXGOOD_V p 4) = (s.get (ETH_RXGOOD_V p 4) + 1) % 2 ^ 32) ∧
    ((s.eth p).oper.en = true → (s.eth p).oper.list ≠ [] →
      ∃ t, exec (.gateEntryChange p) s = .next t ∧ t.get (QBV_ST_ENTRY p) = (s.eth p).oper.entryAt t.now % 64 ∧
        (if s.get (QBV_ST_ENTRY p) = (s.eth p).oper.entryAt s.now then t.now = (s.eth p).oper.nextChange s.now
         else t.now = s.now)) ∧
    (s.get (QBV_CYCLE_V p) < 1000 ∨ 1000000000 < s.get (QBV_CYCLE_V p) ∨ 64 < s.get (QBV_CTRL_LEN p) ∨
        s.get (QBV_CTRL_LEN p) = 0 ∧ s.bit (QBV_CTRL_EN p) = true →
      ∃ t, exec (.qbvApply p) s = .next t ∧ t.get (QBV_CTRL_ERR p) = 1 ∧ t.eths = s.eths) ∧
    (1000 ≤ s.get (QBV_CYCLE_V p) → s.get (QBV_CYCLE_V p) ≤ 1000000000 → 0 < s.get (QBV_CTRL_LEN p) → s.get (QBV_CTRL_LEN p) ≤ 64 →
      ∃ t, exec (.qbvApply p) s = .next t ∧ t.get (QBV_CTRL_PEND p) = 1 ∧ (t.eth p).oper = (s.eth p).oper ∧
        ∃ (g : GateCfg) (x : Nat), (t.eth p).adm = some (g, x) ∧ x = g.changeAt s.now ∧ g.en = s.bit (QBV_CTRL_EN p) ∧
          g.base = s.get (QBV_BASE_V p) ∧ g.cycle = s.get (QBV_CYCLE_V p) ∧ g.list.length = s.get (QBV_CTRL_LEN p) ∧
          ∀ i < s.get (QBV_CTRL_LEN p), g.list.getD i 0 = s.rd (QBV_GCL p i)) ∧
    (∀ (g : GateCfg) (x : Nat), (s.eth p).adm = some (g, x) →
      ∃ t, exec (.qbvConfigChange p) s = .next t ∧ (t.eth p).oper = g ∧ (t.eth p).adm = none ∧ t.now = max s.now x ∧
        t.get (QBV_CTRL_PEND p) = 0 ∧ t.get (QBV_ST_ENTRY p) = 0 ∧ ∀ i < 64, t.rd (QBV_OPER p i) = g.list.getD i 0) ∧
    (s.bit MDIO_CMD_BUSY = false →
      ∃ t, exec .mdioGo s = .next t ∧ t.get MDIO_CMD_BUSY = 1 ∧ t.gptp.mdioAt = s.now + 25600) ∧
    (s.bit MDIO_CMD_BUSY = true → ∃ t, exec .mdioGo s = .next t ∧ t.get MDIO_CMD_REFUSED = 1 ∧ t.gptp = s.gptp) ∧
    (∀ d : BitVec 16, s.bit MDIO_CMD_BUSY = true →
      ∃ t, exec (.mdioDone d) s = .next t ∧ t.get MDIO_CMD_BUSY = 0 ∧
        t.get MDIO_CMD_DATA = if s.bit MDIO_CMD_WR then s.get MDIO_CMD_DATA else d.toNat) ∧
    (s.bit (ETH_CFG_EN p) = true → s.portsRun = true → s.bit BOOT_ST_LOADER = false →
      ∃ t, exec (.linkUp p) s = .next t ∧ t.get (ETH_ST_LINK p) = 1 ∧ t.get (ETH_ST_ANDONE p) = s.get (ETH_CFG_ANEN p)) ∧
    (s.bit (ETH_ST_LINK p) = true →
      ∃ t, exec (.linkDown p) s = .next t ∧ t.get (ETH_ST_LINK p) = 0 ∧ t.get (ETH_ST_ANDONE p) = 0 ∧
        t.get (ETH_ST_ASCAP p) = 0 ∧ t.get (ETH_ST_LINKDOWNSEEN p) = 1)

/-- Cell time and the time-aware system (R346, R348 to R351, R353): CT_SET steps cell time while it is free-running or
grandmaster and no slot is energised, and else is refused; the servo and gPTP registers are taken or refused; an Announce is
kept and the best port becomes the slave port; Announce and Sync go out on master ports; a peer delay decides ASCAP; a
Follow_Up corrects, steps or slews by its offset; a slew ends; a receipt timeout drops the Announce or enters HOLDOVER. -/
def Obligations.CellTimeRows : Prop :=
  ∀ (s : State) (p : Fin 2) (v : Word), s.up = true →
    (s.get CT_ST_MODE = 0 ∨ s.get CT_ST_MODE = 4 → s.stepAllowed = true →
      ∃ t, exec .ctSetGo s = .next t ∧ t.now = s.get CT_SET_V ∧ t.get CT_ST_STEPPED = 1 ∧ t.tickLeft = true) ∧
    ((s.get CT_ST_MODE ≠ 0 ∧ s.get CT_ST_MODE ≠ 4) ∨ s.stepAllowed = false →
      ∃ t, exec .ctSetGo s = .next t ∧ t.now = s.now ∧ t.get CT_ST_REFUSED = 1 ∧ ∀ a, a ≠ CT_ST → t.rd a = s.rd a) ∧
    (∃ t, exec (.ctServoWrite .servo v) s = .next t ∧
      if 1 ≤ fieldOf v CT_SERVO_SLEWPPM ∧ fieldOf v CT_SERVO_SLEWPPM ≤ 100 ∧ 1 ≤ fieldOf v CT_SERVO_BW ∧
          fieldOf v CT_SERVO_BW ≤ 100 ∧ (fieldOf v CT_SERVO_SLEWPPM + 25) * s.period ≤ 64000000
      then t.rd CT_SERVO = v &&& 0xFFFF0000#32 else t.rd CT_SERVO = s.rd CT_SERVO ∧ t.get CT_ST_REFUSED = 1) ∧
    (∃ t, exec (.ctServoWrite .thr v) s = .next t ∧
      if 1 ≤ fieldOf v CT_THR_STEPTHR ∧ 20 ≤ fieldOf v CT_THR_LOCKTHR then t.rd CT_THR = v
      else t.rd CT_THR = s.rd CT_THR ∧ t.get CT_ST_REFUSED = 1) ∧
    (∃ t, exec (.gptpCfgWrite v) s = .next t ∧
      if (fieldOf v GPTP_CFG_SYNCLOG = 0 ∨ 11 ≤ fieldOf v GPTP_CFG_SYNCLOG) ∧
          ¬ (fieldOf v GPTP_CFG_EXTCFG = 1 ∧ fieldOf v GPTP_CFG_ROLE0 = 2 ∧ fieldOf v GPTP_CFG_ROLE1 = 2)
      then t.rd GPTP_CFG = v &&& 0xFFFFFC0F#32 else t.rd GPTP_CFG = s.rd GPTP_CFG ∧ t.get CT_ST_REFUSED = 1) ∧
    (∀ a : AnnounceMsg, s.linkUp p = true → s.bit (ETH_ST_ASCAP p) = true → s.bit GPTP_CFG_EXTCFG = false →
      a.gm.toNat ≠ s.ownId →
      ∃ t, exec (.announce p a) s = .next t ∧
        t.annOf p = some ⟨[a.prio1.toNat, a.cls.toNat, a.acc.toNat, a.var.toNat, a.prio2.toNat, a.gm.toNat, a.steps.toNat], s.now⟩ ∧
        ∀ q, t.bestPort = some q → t.get CT_ST_SLVPORT = q + 1) ∧
    (∀ u : State, u = { s with now := max s.now s.gptp.annTx } →
      ∃ t, exec .announceTransmit s = .next t ∧ t.now = u.now ∧ ∀ q < 2,
        (u.masterPort q = false → t.eth q = s.eth q) ∧
        (u.masterPort q = true → (s.eth q).used + 1522 ≤ 16384 →
          ∃ f : EgFrame, f.body = .gptp 0xB ∧ f.at_ = t.now ∧ (t.eth q).queue 7 = addEgress ((s.eth q).queue 7) f)) ∧
    (∀ u : State, u = { s with now := max s.now s.gptp.syncTx } → s.get CT_ST_MODE = 4 → s.bit GPTP_CFG_EXTCFG = false →
      ∃ t, exec .syncTransmit s = .next t ∧ t.now = u.now ∧ t.gptp.syncTx = t.now + s.syncInterval ∧ ∀ q < 2,
        (u.masterPort q = false → t.eth q = s.eth q) ∧
        (u.masterPort q = true → (s.eth q).used + 3044 ≤ 16384 →
          ∃ f g : EgFrame, f.body = .gptp 0 ∧ g.body = .gptp 8 ∧ f.at_ = t.now ∧ g.at_ = t.now ∧
            (t.eth q).queue 7 = addEgress (addEgress ((s.eth q).queue 7) f) g)) ∧
    (∀ (d : BitVec 32) (m : Nat), s.linkUp p = true → m = ((d.toNat : Int) - (s.rxLat p + s.txLat p) / 2).toNat →
      ∃ t, exec (.pdelay p (some d)) s = .next t ∧ t.rd (GPTP_PDLY p) = BitVec.ofNat 32 m ∧
        t.get (ETH_ST_ASCAP p) = if m ≤ s.get GPTP_NDTHR_V then 1 else 0) ∧
    (s.linkUp p = true → ∃ t, exec (.pdelay p none) s = .next t ∧ t.get (ETH_ST_ASCAP p) = 0 ∧
      t.rd (GPTP_PDLY p) = s.rd (GPTP_PDLY p)) ∧
    (∀ raw off rate : Int, off = raw - s.rxLat p → s.linkUp p = true → s.bit (ETH_ST_ASCAP p) = true → s.slavePort = some p.val →
      ∃ t, exec (.followUp p raw rate) s = .next t ∧
        t.get CT_OFFSET_V = unsignedOf 32 (max (-2147483648) (min 2147483647 off)) ∧
        t.gptp.good = (if off.natAbs ≤ s.get CT_THR_LOCKTHR then min (s.gptp.good + 1) 8 else 0) ∧
        t.get CT_ST_MODE = (if t.gptp.good = 8 then 2 else 1) ∧
        (off.natAbs ≤ s.get CT_THR_STEPTHR * 1000 → t.get CT_ST_SLEWING = 0 ∧ t.now = s.now) ∧
        (s.get CT_THR_STEPTHR * 1000 < off.natAbs → s.stepAllowed = true →
          t.get CT_ST_SLEWING = 0 ∧ t.get CT_ST_STEPPED = 1 ∧ t.now = ((s.now : Int) - off).toNat) ∧
        (s.get CT_THR_STEPTHR * 1000 < off.natAbs → s.stepAllowed = false → t.get CT_ST_SLEWING = 1 ∧ t.now = s.now)) ∧
    (s.bit CT_ST_SLEWING = true →
      ∃ t, exec .slewEnd s = .next t ∧ t.get CT_ST_SLEWING = 0 ∧ t.now = max s.now s.gptp.slewEnd) ∧
    (∃ t, exec (.receiptTimeout p true) s = .next t ∧ t.annOf p = none) ∧
    (s.slavePort = some p.val → s.get CT_ST_MODE = 1 ∨ s.get CT_ST_MODE = 2 →
      ∃ t, exec (.receiptTimeout p false) s = .next t ∧ t.get CT_ST_MODE = 3 ∧ t.get CT_ST_HOLDSEEN = 1 ∧
        t.get CT_HOLDCNT_V = (s.get CT_HOLDCNT_V + 1) % 2 ^ 32)

/-- The front panel (R444 to R448, R453): a scan sets the baseline of a pad that starts or recalibrates and decides a touch after
TDEB scans; an input follows a level that DBMS samples showed; a presence test starts on an eligible slot, goes on path by path
and leaves RESULT, PATH and TESTS, and a bind write that waited for its end is then judged (R454); registers are taken whole or refused; a blinking lamp shows the level of its time. -/
def Obligations.FrontPanelRows : Prop :=
  ∀ (s : State), s.up = true →
    (∀ cs : List (BitVec 16), cs.length = 8 → s.bit FP_CFG_SCANEN = true → s.bly.shed = false →
      ∃ t, exec (.touchScan cs) s = .next t ∧ ∀ k < 8, ∀ c : BitVec 16, cs[k]? = some c →
        ((s.pad k).started = false ∨ (s.pad k).recal = true →
          t.get (FP_TP_BASE_BASE k) = c.toNat ∧ t.get (FP_TP_ST_TOUCHED k) = 0 ∧ (t.pad k).started = true) ∧
        ((s.pad k).started = true → (s.pad k).recal = false → s.get (FP_CFG_TDEB) ≤ (s.pad k).count + 1 →
          (s.bit (FP_TP_ST_TOUCHED k) = false → s.get (FP_TP_BASE_BASE k) + s.get (FP_TP_CFG_THR k) ≤ c.toNat →
            t.get (FP_TP_ST_TOUCHED k) = 1 ∧ (t.pad k).since = s.now) ∧
          (s.bit (FP_TP_ST_TOUCHED k) = true →
            (c.toNat : Int) - s.get (FP_TP_BASE_BASE k) < (s.get (FP_TP_CFG_THR k) : Int) - s.get (FP_TP_CFG_HYS k) →
            t.get (FP_TP_ST_TOUCHED k) = 0))) ∧
    (∀ k : Fin 8, ∃ t, exec (.recal k) s = .next t ∧ (t.pad k).recal = true ∧ t.regs = s.regs) ∧
    (∀ (pb : BitVec 4) (pres : BitVec 8), ∃ t, exec (.inputSample pb pres) s = .next t ∧
      (∀ i < 4, let old := (s.get FP_ST_PB).testBit i
        (t.get FP_ST_PB).testBit i = (if pb.toNat.testBit i ≠ old ∧ s.get FP_CFG_DBMS ≤ tabGet (fun _ => 0) s.panel.ins i + 1
          then pb.toNat.testBit i else old)) ∧
      (∀ i < 8, let old := (s.get FP_ST_PRES).testBit i
        (t.get FP_ST_PRES).testBit i =
          (if pres.toNat.testBit i ≠ old ∧ s.get FP_CFG_DBMS ≤ tabGet (fun _ => 0) s.panel.ins (8 + i) + 1
          then pres.toNat.testBit i else old))) ∧
    (∀ n : Fin 16, s.presEligible n = true → s.test n = none → s.power = .running →
      ∃ t, exec (.presenceTest n) s = .next t ∧ t.test n = some { tcp := s.get FP_PRESCFG_TCP } ∧ s.now ≤ t.now ∧
        tabGet (fun _ => 0) t.panel.nextTest n = t.now + s.get FP_PRESCFG_PRESPER * 1000000) ∧
    (∀ (n : Fin 16) (x : PresTest), s.test n = some x →
      let d := (s.presPath n x.path).1
      let r := (s.presPath n x.path).2
      (s.tripped d = true ∨ s.tripped r = true → x.bind = none →
        ∃ t, exec (.presencePathDone n .tripped) s = .next t ∧ t.get (FP_MPR_RESULT n) = 4 ∧ t.test n = none ∧
          t.get (FP_MPR_TESTS n) = (s.get (FP_MPR_TESTS n) + 1) % 65536) ∧
      (∀ (w : Writer) (v : Word), s.tripped d = true ∨ s.tripped r = true → x.bind = some (w, v) → fieldOf v (AX_BIND_KIND n) = 0 →
        s.owns w n.val = true → s.slotState n = stIdle → s.get (AX_SWAPST_PHASE n) = 0 →
        ∃ t, exec (.presencePathDone n .tripped) s = .next t ∧ t.test n = none ∧ t.slotState n = stUnbound ∧
          t.rd (AX_BIND n) = 0#32 ∧ t.get (FP_MPR_RESULT n) = 0) ∧
      (s.presReady n x.path = false → x.failed = none → x.bind = none → (s.presPaths n).length ≤ x.path + 1 →
        ∃ t, exec (.presencePathDone n .skipped) s = .next t ∧ t.get (FP_MPR_RESULT n) = 3 ∧ t.test n = none) ∧
      ((s.chan d).h.on = true → (s.chan r).l.on = true → s.tripped d = false → s.tripped r = false →
        (x.path + 1 < (s.presPaths n).length →
          ∃ t, exec (.presencePathDone n .decided) s = .next t ∧ t.test n = some { x with path := x.path + 1 }) ∧
        ((s.presPaths n).length ≤ x.path + 1 → x.failed = none → x.bind = none →
          (x.skipped = false → ∃ t, exec (.presencePathDone n .decided) s = .next t ∧ t.get (FP_MPR_RESULT n) = 1 ∧ t.test n = none) ∧
          (∃ t, exec (.presencePathDone n .timeout) s = .next t ∧ t.get (FP_MPR_RESULT n) = 2 ∧ t.test n = none ∧
            t.get (FP_MPR_PATH n) = x.path % 16)))) ∧
    (∀ (r : FpReg) (v : Word), fpWriteOk r v = false →
      ∃ t, exec (.fpConfigWrite r v) s = .next t ∧ t.get FP_ST_REFUSED = 1 ∧ ∀ a, a ≠ FP_ST → t.rd a = s.rd a) ∧
    (∀ (r : FpReg) (v : Word), fpWriteOk r v = true →
      ∃ t, exec (.fpConfigWrite r v) s = .next t ∧
        match r with
        | .cfg => t.rd FP_CFG = v &&& 0x00FF0F03#32
        | .mirbase => t.rd FP_MIRBASE = v
        | .prescfg => t.rd FP_PRESCFG = v
        | .pad k => t.rd (FP_TP_CFG k) = v
        | .slot n => t.get (FP_MPR_PRESEN n) = fieldOf v (FP_MPR_PRESEN n)
        | .lamp l => t.rd (FP_LMP l) = v &&& 0xFFFF03F3#32) ∧
    (∀ l : Fin 8, s.get (FP_LMP_MODE l) = 2 → s.bly.shed = false →
      ∃ t, exec (.lampBlink l) s = .next t ∧ t.panel.lamps.contains l.val = t.lampLevel l ∧ s.now ≤ t.now ∧ t.regs = s.regs)

/-- Power, clocks, reset and boot (R403, R411, R423 to R440): every reset leaves the device in reset with its cause and count,
memory cleared and every gate off, flash and OTP kept; the rail and clock events do nothing in bivouac, VBC_LOSS acts only there;
PWR_CTRL resets or is refused, PWR_CFG is taken or refused; XBC stops and starts; bivouac is entered, woken from and left;
STBYOK; the straps are latched at the release of reset, and BOOT 3 starts the ROM loader. -/
def Obligations.PowerRows : Prop :=
  ∀ (s : State),
    let resets (c : Instr) (b : Nat) : Prop := ∃ t, exec c s = .next t ∧ t.power = .inReset ∧
      t.rd RST_CAUSE = s.rd RST_CAUSE ||| BitVec.ofNat 32 (2 ^ b) ∧ t.rd RST_CNT = s.rd RST_CNT + 1 ∧ t.mem = [] ∧
      (∀ c : Nat, (t.chan c).h.on = false ∧ (t.chan c).l.on = false) ∧ t.flash = s.flash ∧ t.otp = s.otp
    resets .resetPin 1 ∧ (s.power ≠ .bivouac → resets .powerOnReset 0 ∧ resets .clockLoss 4 ∧ exec .vbcLoss s = .next s) ∧
    (s.power = .bivouac → exec .powerOnReset s = .next s ∧ exec .clockLoss s = .next s ∧
      ∃ t, exec .vbcLoss s = .next t ∧ t.power = .inReset ∧ t.rd RST_CAUSE = 0x20#32 ∧ t.rd RST_CNT = 1#32) ∧
    (s.up = true →
      resets (.watchdogExpiry true) 2 ∧ (∃ t, exec (.watchdogExpiry false) s = .next t ∧ t.get BOOT_ST_STBYOK = 0 ∧ t.power = s.power ∧
        (s.get BOOT_ST_HOPHASE = 0 → t.hoDead = true)) ∧
      (∀ v : Word, fieldOf v PWR_CTRL_RESET = 1 → fieldOf v PWR_CTRL_KEY = 0xA5 →
        slots16.any s.energised = false ∨ fieldOf v PWR_CTRL_FORCE = 1 → resets (.pwrCtrlWrite v) 3) ∧
      (∀ v : Word, fieldOf v PWR_CTRL_RESET = 1 → s.rstReq = false →
        fieldOf v PWR_CTRL_KEY ≠ 0xA5 ∨ slots16.any s.energised = true ∧ fieldOf v PWR_CTRL_FORCE = 0 →
        ∃ t, exec (.pwrCtrlWrite v) s = .next t ∧ t.get PWR_CTRL_REFUSED = 1 ∧ t.power = s.power) ∧
      (∀ v : Word, ∃ t, exec (.pwrCfgWrite v) s = .next t ∧
        if 100 ≤ fieldOf v PWR_CFG_BIVDLY ∧ fieldOf v PWR_CFG_BIVDLY ≤ 60000 then t.rd PWR_CFG = v &&& 0x1FFFF#32
        else t.rd PWR_CFG = s.rd PWR_CFG ∧ t.get PWR_CTRL_REFUSED = 1) ∧
      (s.power = .running → s.blockers = 0 →
        ∃ t, exec .bivouacEntry s = .next t ∧ t.power = .entering ∧ t.get PWR_WAKEST_SEEN = 0 ∧ t.get PWR_ST_WAKEPEND = 0) ∧
      (s.power = .entering → s.bly.saving = false →
        ∃ t, exec .bivouacEntered s = .next t ∧ t.power = (if s.biv.inten then .waking else .bivouac) ∧
          t.biv.entryAt = s.now ∧ t.panel.lamps = [] ∧ (∀ a, 0x400000 ≤ a → a < 0x680000 → t.rdByte a = 0#8) ∧
          (∀ e < 20, t.get (KE_STATUS_LOADED e) = 0)) ∧
      (s.get BOOT_ST_HOPHASE = 0 → s.bit BOOT_ST_LOADER = false →
        ∃ t, exec .standbyReady s = .next t ∧ t.get BOOT_ST_STBYOK = 1)) ∧
    (s.power ≠ .inReset →
      (∃ t, exec .xbcLoss s = .next t ∧ t.get CLK_ST_XBCOK = 0) ∧ (∃ t, exec .xbcStart s = .next t ∧ t.get CLK_ST_XBCOK = 1)) ∧
    (∀ src : Fin 7, (s.get PWR_WAKEEN_EN).testBit src = true →
      (s.power = .bivouac → ∃ t, exec (.wake src) s = .next t ∧ t.power = .waking ∧ (t.get PWR_WAKEST_SEEN).testBit src = true ∧
        s.now ≤ t.now) ∧
      (s.power = .entering → ∃ t, exec (.wake src) s = .next t ∧ t.power = .entering ∧ t.biv.inten = true ∧
        t.get PWR_ST_WAKEPEND = 1 ∧ (t.get PWR_WAKEST_SEEN).testBit src = true)) ∧
    (s.power = .waking →
      ∃ t, exec .hostsServed s = .next t ∧ t.power = .running ∧ t.now = s.campTime ∧ t.portsOff = false ∧
        t.get PWR_ST_WAKEPEND = 0 ∧ t.get PWR_BIVCNT_V = (s.get PWR_BIVCNT_V + 1) % 2 ^ 32) ∧
    (∀ p : StrapPins, s.power = .inReset →
      ∃ t, exec (.resetRelease p) s = .next t ∧ t.straps = latchedStraps p ∧
        (p.boot.val = 3 → t.power = .running ∧ t.get BOOT_ST_LOADER = 1))

/-- Register access (R5, R6, R278, R282, R283): READ_CLEAR returns the value and clears the RC bits, but one
that an event sets in the same cycle, which stays set and of which the read returns the value before it (R6); a write of an address with no
register does nothing, one of a plain word sets its RW bits; the low word of a 64-bit quantity waits for the high word and is
applied alone when its 1 µs ends; READ, WRITE and RMW of cell memory serve every word and are answered OK; a misaligned
register operand is no command. -/
def Obligations.RegisterRows : Prop :=
  ∀ (s : State), s.up = true →
    (∀ (w : Writer) (a : BitVec 24), a.toNat % 4 = 0 →
      (rcMask a.toNat = 0#32 → exec (.readClear w a) s = .next s) ∧
      (rcMask a.toNat ≠ 0#32 → ∃ t, exec (.readClear w a) s = .next t ∧
        (s.setBits a.toNat = 0 → t.dataOut = s.view w a.toNat) ∧
        (∀ b : Nat, (rcMask a.toNat).toNat.testBit b = true → (s.setBits a.toNat).testBit b = true →
          t.dataOut.toNat.testBit b = (s.rdBefore a.toNat (rcMask a.toNat).toNat).toNat.testBit b) ∧
        (¬ (0x050000 ≤ a.toNat ∧ a.toNat < 0x054000) →
          t.rd a.toNat = s.rd a.toNat &&& (~~~ rcMask a.toNat ||| BitVec.ofNat 32 (s.setBits a.toNat))))) ∧
    (∀ (w : Writer) (a : BitVec 24) (v : Word), a.toNat % 4 = 0 → findReg a.toNat = none → s.rstReq = false →
      exec (.registerWrite w a v) s = .next s) ∧
    (∀ (w : Writer) (a : BitVec 24) (v : Word), a.toNat % 4 ≠ 0 → exec (.registerWrite w a v) s = .fault .illFormed) ∧
    (∀ (w : Writer) (v : Word), s.rstReq = false → ∃ t, exec (.registerWrite w (BitVec.ofNat 24 PWR_WAKEEN) v) s = .next t ∧
      t.get PWR_WAKEEN_EN = fieldOf v PWR_WAKEEN_EN ∧ ∀ a, a ≠ PWR_WAKEEN → t.rd a = s.rd a) ∧
    (∀ (h : Fin 8) (v : Word), s.rstReq = false → (s.host h).stage = none →
      ∃ t, exec (.registerWrite (.host h) (BitVec.ofNat 24 CT_SET) v) s = .next t ∧ t.regs = s.regs ∧
        (t.host h).stage = some (CT_SET, v, s.now)) ∧
    (∀ (h : Fin 8) (v lo : Word) (t0 : Nat), s.rstReq = false → (s.host h).stage = some (CT_SET, lo, t0) →
      (s.now ≤ t0 + 1000 → ∃ t, exec (.registerWrite (.host h) (BitVec.ofNat 24 (CT_SET + 4)) v) s = .next t ∧
        t.get CT_SET_V = v.toNat * 2 ^ 32 + lo.toNat ∧ (t.host h).stage = none) ∧
      (∃ t, exec (.writeStageExpiry h) s = .next t ∧ t.rd CT_SET = lo ∧ t.rd (CT_SET + 4) = s.rd (CT_SET + 4) ∧
        (t.host h).stage = none ∧ t.now = max s.now (t0 + 1000))) ∧
    (∀ (k : Fin 32) (c : Cmd) (x : Word) (ws : List Word), c.words = x :: ws → 0x600000 ≤ c.addr →
      (s.runnable k 1 c → c.addr + 4 * (x.toNat / 2 ^ 24) ≤ 0x660000 →
        ∃ t, exec (.read k) s = .next t ∧ s.answeredBy t k c 0 0 (s.rdMems c.addr (x.toNat / 2 ^ 24)) ∧ t.regs = s.regs ∧
          t.mem = s.mem) ∧
      (s.runnable k 2 c → c.addr + 4 * ws.length ≤ 0x660000 → s.rstReq = false →
        ∃ t, exec (.write k) s = .next t ∧ s.answeredBy t k c 0 0 [] ∧ t.rdMems c.addr ws.length = ws ∧ t.regs = s.regs ∧
          ∀ a, a < c.addr ∨ c.addr + 4 * ws.length ≤ a → t.rdByte a = s.rdByte a) ∧
      (∀ mask v : Word, ws = [mask, v] → s.runnable k 3 c → c.addr + 4 ≤ 0x660000 → s.rstReq = false →
        ∃ t, exec (.rmw k) s = .next t ∧ s.answeredBy t k c 0 0 [s.rdMem c.addr] ∧
          t.rdMem c.addr = (s.rdMem c.addr &&& ~~~ mask) ||| (v &&& mask) ∧ t.regs = s.regs ∧
          ∀ a, a < c.addr ∨ c.addr + 4 ≤ a → t.rdByte a = s.rdByte a))

/-- Frames and streams (R299, R306, R308, R309, R312, R313): a frame whose CRC fails counts and is dropped; a queued frame of the
bound host in sequence with credit is accepted, one out of sequence counts SEQERR; RESUME and FLUSH act on a halted stream that
they name by its HALTSEQ and else leave it as it was, RESYNC reports; the oldest response is sent when its port allows. -/
def Obligations.FrameRows : Prop :=
  ∀ (s : State) (k : Fin 32), s.up = true →
    (∀ (p : Fin 4) (ws : List Word) (rest : List (List Word)), p.val < 2 → (s.csp p).frames = ws :: rest →
      (frameOf (ws.flatMap beBytes) = none →
        ∃ t, exec (.frameReceive p) s = .next t ∧ (t.csp p).frames = rest ∧ t.streams = s.streams ∧
          t.get (CSP_CRCERR_V p) = (s.get (CSP_CRCERR_V p) + 1) % 2 ^ 32) ∧
      (∀ f : HostFrame, frameOf (ws.flatMap beBytes) = some f → s.cspBound p = true → f.ver = 1 → f.rsp = 0 → f.host = p.val →
        f.stream < 4 → f.seq < 65536 → isControl f.op = false →
        ((s.stream (4 * p + f.stream)).unsynced = true ∨ (s.stream (4 * p + f.stream)).nextSeq = f.seq →
          (s.stream (4 * p + f.stream)).devCred < 16 →
          ∃ t, exec (.frameReceive p) s = .next t ∧ (t.csp p).frames = rest ∧ t.get (HOST_ST_LIVE p) = 1 ∧
            (t.host p).lastFrame = s.now ∧ (t.stream (4 * p + f.stream)).nextSeq = (f.seq + 1) % 65536 ∧
            t.get (STR_ACCEPT_V (4 * p + f.stream)) = (s.get (STR_ACCEPT_V (4 * p + f.stream)) + 1) % 2 ^ 32) ∧
        ((s.stream (4 * p + f.stream)).unsynced = false → (s.stream (4 * p + f.stream)).nextSeq ≠ f.seq →
          (s.stream (4 * p + f.stream)).nextSeq < 65536 →
          ∃ t, exec (.frameReceive p) s = .next t ∧
            t.get (STR_SEQERR_V (4 * p + f.stream)) = (s.get (STR_SEQERR_V (4 * p + f.stream)) + 1) % 2 ^ 32 ∧
            (t.stream (4 * p + f.stream)).queue = (s.stream (4 * p + f.stream)).queue))) ∧
    (∀ (seq : BitVec 16), (s.stream k).state = 2 → seq.toNat = (s.stream k).haltSeq →
      ((∀ c : Cmd, (s.stream k).queue.head? = some c → c.bad = 0 ∧ c.slot? = none) →
        ∃ t, exec (.resume k seq false) s = .next t ∧ (t.stream k).reason = 0 ∧ (t.stream k).queue = (s.stream k).queue ∧
          (t.stream k).state = if (s.stream k).queue.isEmpty then 0 else 1) ∧
      (∃ t, exec (.streamFlush k seq false) s = .next t ∧ (t.stream k).queue = [] ∧ (t.stream k).state = 0 ∧
        (t.stream k).reason = 0 ∧
        t.get (STR_FLUSHED_V k) = (s.get (STR_FLUSHED_V k) + (s.stream k).queue.length) % 2 ^ 32)) ∧
    (∀ (seq : BitVec 16), (s.stream k).state ≠ 3 → ((s.stream k).state ≠ 2 ∨ seq.toNat ≠ (s.stream k).haltSeq) →
      (∃ t, exec (.resume k seq false) s = .next t ∧ (t.stream k).queue = (s.stream k).queue ∧
        (t.stream k).state = (s.stream k).state ∧ t.regs = s.regs) ∧
      (∃ t, exec (.streamFlush k seq false) s = .next t ∧ (t.stream k).queue = (s.stream k).queue ∧
        (t.stream k).state = (s.stream k).state ∧ t.regs = s.regs)) ∧
    (∀ (seq : BitVec 16), (s.stream k).state ≠ 3 →
      ∃ t, exec (.streamResync k seq false) s = .next t ∧ (t.stream k).queue = (s.stream k).queue ∧ t.regs = s.regs ∧
        ∃ r ∈ (t.stream k).pend, r.op = 0xA ∧ r.seq = seq.toNat ∧ r.status = 0 ∧
          r.words = [0#32, (s.stream k).seqWord, s.strSt k, (s.stream k).haltWord]) ∧
    (∀ (r : Rsp) (rest : List Rsp) (p : Nat), (s.stream k).state ≠ 3 → (s.stream k).pend = r :: rest → s.sendPort (k / 4) r.words.length = some p →
      (r.reset = false →
        ∃ t, exec (.responseSend k) s = .next t ∧ (t.stream k).pend = rest ∧ (t.stream k).queue = (s.stream k).queue ∧
          (p < 2 → ∃ f : OutFrame, t.sent = s.sent ++ [f] ∧ f.port = p ∧ f.host = k.val / 4 ∧ f.stream = k.val % 4 ∧
            f.op = r.op ∧ f.seq = r.seq ∧ f.status = r.status ∧ f.words = r.words) ∧
          (2 ≤ p → ∃ (g : EgFrame) (f : OutFrame), g.body = .response f ∧ f.op = r.op ∧ f.seq = r.seq ∧ f.status = r.status ∧
            f.words = r.words ∧ f.eth = some (s.ethHead (k / 4)) ∧
            (t.eth (p - 2)).queue (s.get ETH_VLAN_HOSTQ) = addEgress ((s.eth (p - 2)).queue (s.get ETH_VLAN_HOSTQ)) g)) ∧
      (r.reset = true → ∃ t, exec (.responseSend k) s = .next t ∧ t.power = .inReset))

/-- Queued commands (R288, R304, R305, R310): a PITCH or SETPOINT entry that finds room joins its queue and the command is
answered with what was placed; a waiting COMMAND goes on; CTRL and QCTRL act and are answered; ANCHOR claims all or nothing,
RELEASE frees; a FENCE waits and completes; SWAP starts a swap or is refused with its reason; an offer of another host is
answered NOT_OWNER. -/
def Obligations.QueuedCommandRows : Prop :=
  ∀ (s : State) (k : Fin 32) (c : Cmd) (x : Word), s.up = true →
    (s.runnable k 4 c → s.holds (k / 4) c.slot = true → c.waitdone = false →
      (∀ e : List Word, c.func = 0 → c.words = x :: e → e.length = 8 → entryBad e = false →
        (s.gen c.slot).queue.length < 64 →
        ∃ t, exec (.pitch k) s = .next t ∧ (t.gen c.slot).queue = (s.gen c.slot).queue ++ [e] ∧
          t.get (AX_PITNEXT_V c.slot) = (s.get (AX_PITNEXT_V c.slot) + 1) % 2 ^ 32 ∧
          s.answeredBy t k c 0 0 [s.rd (AX_PITNEXT c.slot), 1#32]) ∧
      (∀ w0 w1 w2 w3 w4 w5 w6 : Word, c.func = 1 → c.words = [x, w0, w1, w2, w3, w4, w5, w6] → s.get (AX_MCFG_SRC c.slot) = 2 →
        s.slotState c.slot ≠ stUnbound → (s.gen c.slot).points.length < 16 → s.nextFree ≤ quadOf w1 w2 →
        (∀ q ∈ (s.gen c.slot).points, q.t < quadOf w1 w2) →
        ∃ t, exec (.setpoint k) s = .next t ∧
          (t.gen c.slot).points = (s.gen c.slot).points ++ [{ t := quadOf w1 w2, p := signedOf 64 (quadOf w3 w4) * 2 ^ 32
                                                              v := signedOf 64 (quadOf w5 w6), velok := w0.toNat.testBit 0 }] ∧
          s.answeredBy t k c 0 0 [0#32, 1#32]) ∧
      (c.func = 2 → c.words = [x, 1#32] → s.slotState c.slot = stIdle → s.energiseErr c.slot = 0 → s.safeoff = false →
        (s.slotChans c.slot).any s.tripped = false →
        ∃ t, exec (.ctrl k) s = .next t ∧ t.slotState c.slot = stHold ∧ s.answeredBy t k c 0 0 []) ∧
      (c.func = 3 → c.words = [x, 2#32] → s.slotState c.slot = stHold →
        ∃ t, exec (.qctrl k) s = .next t ∧ t.get (AX_PITQ_CTRL_QHELD c.slot) = 0 ∧ t.gens = s.gens ∧
          s.answeredBy t k c 0 0 [])) ∧
    (s.runnable k 4 c → s.holds (k / 4) c.slot = false → c.func = 0 →
      ∃ t, exec (.pitch k) s = .next t ∧ t.gens = s.gens ∧ t.regs = s.regs ∧ s.answeredBy t k c 2 0 []) ∧
    (∀ (q : List Cmd) (ixs : List Nat), (s.stream k).queue = c :: q → (s.stream k).state = 1 → s.bly.stopped = false →
      (∀ (next : Nat) (e : List Word), (s.stream k).prog = .placing next ixs → c.func = 0 → c.waitdone = false →
        c.entries.drop next = [e] → entryBad e = false → (s.gen c.slot).queue.length < 64 →
        ∃ t, exec (.commandRoomFreed k) s = .next t ∧ (t.gen c.slot).queue = (s.gen c.slot).queue ++ [e] ∧
          s.answeredBy t k c 0 0 (placedWords (next + 1) (ixs ++ [s.get (AX_PITNEXT_V c.slot)]))) ∧
      ((s.stream k).prog = .waiting ixs → s.waitMet c ixs = true →
        ∃ t, exec (.waitdoneMet k) s = .next t ∧ t.regs = s.regs ∧
          s.answeredBy t k c 0 0 (if c.func = 0 then placedWords ixs.length ixs else [])) ∧
      ((s.stream k).prog = .working → c.op = 7 → s.fenceMet k c = true →
        ∃ t, exec (.fenceComplete k) s = .next t ∧ t.regs = s.regs ∧ s.answeredBy t k c 0 0 [])) ∧
    (s.runnable k 5 c →
      (s.othersAnchor (k / 4) c.anchors = none →
        ∃ t, exec (.anchor k) s = .next t ∧ (∀ a ∈ c.anchors, t.holds (k / 4) a = true) ∧ s.answeredBy t k c 0 0 []) ∧
      (∀ a, s.othersAnchor (k / 4) c.anchors = some a →
        ∃ t, exec (.anchor k) s = .next t ∧ t.regs = s.regs ∧ s.answeredBy t k c 3 (s.anchorDetail a) [])) ∧
    (s.runnable k 6 c → s.othersAnchor (k / 4) c.anchors = none →
      ∃ t, exec (.releaseAnchors k) s = .next t ∧ (∀ a ∈ c.anchors, t.get (ANC_ST_HELD a) = 0) ∧ s.answeredBy t k c 0 0 []) ∧
    (s.runnable k 7 c →
      ∃ t, exec (.fence k) s = .next t ∧ (t.stream k).prog = .working ∧ (t.stream k).queue = (s.stream k).queue ∧
        (t.stream k).pend = (s.stream k).pend ∧ t.regs = s.regs) ∧
    (∀ v : Word, s.runnable k 0xE c → c.words = [x, v] → s.holds (k / 4) c.slot = true → v.toNat.testBit 7 = true →
      (s.swapRefusal c.slot v = 0 →
        ∃ t, exec (.swap k) s = .next t ∧ t.get (AX_SWAPST_PHASE c.slot) = 1 ∧ (t.stream k).prog = .working ∧
          (t.stream k).queue = (s.stream k).queue) ∧
      (s.swapRefusal c.slot v ≠ 0 →
        ∃ t, exec (.swap k) s = .next t ∧ t.get (AX_SWAPST_RESULT c.slot) = s.swapRefusal c.slot v ∧ t.swaps = s.swaps ∧
          s.answeredBy t k c 4 (s.swapRefusal c.slot v) [BitVec.ofNat 32 (s.swapRefusal c.slot v)]))

/-- Image sessions (R405, R408, R412 to R414, R419): BEGIN that is not refused opens a session of the sender and erases its
target; DATA in sequence appends; COMMIT makes the image valid or leaves its target erased; ABORT and ERASE leave it erased;
SETFLAG names a bank with a valid SFW; APPLY writes each record. -/
def Obligations.ImageRows : Prop :=
  ∀ (s : State) (k : Fin 32) (c : Cmd), s.up = true → s.runnable k 0xD c →
    (c.sub = 0 → s.beginRefusal (k / 4) c = 0 →
      ∃ t, exec (.begin k) s = .next t ∧ t.get IMG_ST_OPEN = 1 ∧ t.get IMG_ST_OWNER = k.val / 4 ∧ t.get IMG_ST_KIND = c.kind ∧
        t.get IMG_ST_BANK = c.bank ∧ t.get IMG_ST_WORDS = 0 ∧ t.get IMG_LEN_V = (c.word 1).toNat / 4 ∧ t.imgIdx = c.index ∧
        t.img c.bank c.kind c.index = { st := 1 } ∧ s.answeredBy t k c 0 0 []) ∧
    (c.sub = 0 → s.beginRefusal (k / 4) c ≠ 0 →
      ∃ t, exec (.begin k) s = .next t ∧ t.flash = s.flash ∧ t.regs = s.regs ∧
        s.answeredBy t k c 4 (s.beginRefusal (k / 4) c) []) ∧
    (s.ownsSession (k / 4) = false → c.sub = 1 ∨ c.sub = 2 ∨ c.sub = 3 →
      ∃ t, exec (if c.sub = 1 then .data k else if c.sub = 2 then .commit k else .abort k) s = .next t ∧
        t.flash = s.flash ∧ t.regs = s.regs ∧ s.answeredBy t k c 4 2 []) ∧
    (s.ownsSession (k / 4) = true →
      (c.sub = 1 → bitsOf (c.word 0).toNat 23 0 = s.get IMG_ST_WORDS →
        s.get IMG_ST_WORDS + (c.words.drop 1).length ≤ s.get IMG_LEN_V →
        ∃ t, exec (.data k) s = .next t ∧
          t.img (s.get IMG_ST_BANK) (s.get IMG_ST_KIND) s.imgIdx =
            { s.sessionImg with words := s.sessionImg.words ++ c.words.drop 1 } ∧
          t.get IMG_ST_WORDS = (s.get IMG_ST_WORDS + (c.words.drop 1).length) % 2 ^ 18 ∧ s.answeredBy t k c 0 0 []) ∧
      (c.sub = 2 →
        ∃ t, exec (.commit k) s = .next t ∧ t.get IMG_ST_OPEN = 0 ∧
          if s.commitCheck (s.get IMG_ST_KIND) s.sessionImg = 0 then
            t.img (s.get IMG_ST_BANK) (s.get IMG_ST_KIND) s.imgIdx =
              { st := 2, untested := !s.sessionImg.listed, words := s.sessionImg.words } ∧
            s.answeredBy t k c 0 0 [if s.sessionImg.listed then 0 else 1]
          else
            t.img (s.get IMG_ST_BANK) (s.get IMG_ST_KIND) s.imgIdx = {} ∧
            s.answeredBy t k c 5 (s.commitCheck (s.get IMG_ST_KIND) s.sessionImg) []) ∧
      (c.sub = 3 →
        ∃ t, exec (.abort k) s = .next t ∧ t.get IMG_ST_OPEN = 0 ∧
          t.img (s.get IMG_ST_BANK) (s.get IMG_ST_KIND) s.imgIdx = {} ∧ s.answeredBy t k c 0 0 [])) ∧
    (c.sub = 4 → c.targetOk = true → (s.inDirectory c && s.routeInUse c.index) = false → s.sessionTarget c = false →
      ∃ t, exec (.erase k) s = .next t ∧ t.img c.bank c.kind c.index = {} ∧ s.answeredBy t k c 0 0 []) ∧
    (c.sub = 5 →
      ((s.img c.bank 1 0).st = 2 → ∃ t, exec (.setflag k) s = .next t ∧ t.get BOOT_ST_FLAG = c.bank ∧ s.answeredBy t k c 0 0 []) ∧
      ((s.img c.bank 1 0).st ≠ 2 → ∃ t, exec (.setflag k) s = .next t ∧ t.regs = s.regs ∧ s.answeredBy t k c 4 6 [])) ∧
    (∀ (ch : Fin 32) (v : Word), c.sub = 7 → c.kind = 3 → c.bank = s.bank → (s.img c.bank 3 0).st = 2 → s.rstReq = false →
      (s.img c.bank 3 0).records = [(0x284000 + 0x20 * ch.val, v)] → s.chanUsed ch = false →
      500 * 65536 ≤ v.toNat → v.toNat ≤ 50000 * 65536 →
      ∃ t, exec (.imageApply k) s = .next t ∧ t.rd (0x284000 + 0x20 * ch.val) = v ∧
        t.get IMG_APPLYREF_V = s.get IMG_APPLYREF_V ∧ s.answeredBy t k c 0 0 [])

/-- Keys, untested images and handover (R412, R415 to R417): KEYPROG programs a blank slot under a usable signer's signature,
REVOKE ends a slot's use, SECPROG programs a blank secret in the ROM loader only; ACCEPT_UNTESTED lifts the quarantine or counts
its refusal; a handover starts, suspends the streams, switches the active core, and fails when no switch comes; with
no standby core ready it is refused. -/
def Obligations.KeyAndHandoverRows : Prop :=
  ∀ (s : State) (k : Fin 32) (c : Cmd), s.up = true →
    (s.runnable k 0xD c →
      (c.sub = 8 → c.words.length = 25 → s.keyProgrammed c.keySlot = false → s.keyUsable c.signer = true →
        ∃ t, exec (.keyprog k) s = .next t ∧
          if Config.ed25519Ok (s.keyWords c.signer) (keyMessage (s.rd64 IMG_NONCE) 8 c.keySlot ((c.words.drop 1).take 8))
            (c.words.drop 9) = true
          then t.keyWords c.keySlot = (c.words.drop 1).take 8 ∧ s.answeredBy t k c 0 0 []
          else t.otp = s.otp ∧ s.answeredBy t k c 5 8 []) ∧
      (c.sub = 8 → s.keyProgrammed c.keySlot = true ∨ s.keyUsable c.signer = false →
        ∃ t, exec (.keyprog k) s = .next t ∧ t.otp = s.otp ∧ s.answeredBy t k c 4 7 []) ∧
      (c.sub = 9 → s.keyUsable c.signer = true → s.keyLeft c.keySlot = true →
        ∃ t, exec (.revoke k) s = .next t ∧
          if Config.ed25519Ok (s.keyWords c.signer) (keyMessage (s.rd64 IMG_NONCE) 9 c.keySlot []) (c.words.drop 1) = true
          then t.keyUsable c.keySlot = false ∧ s.answeredBy t k c 0 0 []
          else t.otp = s.otp ∧ s.answeredBy t k c 5 8 []) ∧
      (c.sub = 10 → ∃ t, exec (.secprog k) s = .next t ∧ t.otp = s.otp ∧ s.answeredBy t k c 4 6 []) ∧
      (c.sub = 6 → s.get BOOT_ST_HOPHASE = 0 → s.bit IMG_ST_OPEN = false → s.bit BOOT_ST_STBYOK = true →
        ∃ t, exec (.handover k) s = .next t ∧ t.get BOOT_ST_HOPHASE = 1 ∧ t.get BOOT_ST_STBYOK = 0 ∧
          t.hoCmd = some (k.val, c.bank, c.arg % 2 == 1) ∧ (t.stream k).queue = (s.stream k).queue ∧
          (t.stream k).prog = .working) ∧
      (c.sub = 6 → s.get BOOT_ST_HOPHASE = 0 → s.bit IMG_ST_OPEN = false → s.bit BOOT_ST_STBYOK = false → s.hoDead = false →
        ∃ t, exec (.handover k) s = .next t ∧ t.hoCmd = s.hoCmd ∧ s.answeredBy t k c 4 8 [])) ∧
    (s.ready k = some c → c.op = 0xD → c.bad = 0 → c.sub = 10 → c.arg % 2 = 1 → s.bit BOOT_ST_LOADER = true →
      c.words.length = 9 → s.acceptKey.all (· == 0) = true →
      ∃ t, exec (.secprog k) s = .next t ∧ t.acceptKey = c.words.drop 1 ∧ s.answeredBy t k c 0 0 []) ∧
    (s.runnable k 0xF c →
      ∃ t, exec (.acceptUntested k) s = .next t ∧
        if s.acceptRefusal (k / 4) c = 0 then
          t.get BOOT_ST_QUAR = 0 ∧ t.get BOOT_ST_ACCEPTED = 1 ∧ s.answeredBy t k c 0 0 []
        else t.get IMG_ACCFAIL_V = (s.get IMG_ACCFAIL_V + 1) % 2 ^ 32 ∧ t.get BOOT_ST_QUAR = s.get BOOT_ST_QUAR ∧
          s.answeredBy t k c 4 (s.acceptRefusal (k / 4) c) []) ∧
    (∀ (j bank : Nat) (persist : Bool), s.hoCmd = some (j, bank, persist) → s.hoDead = true → s.get BOOT_ST_HOPHASE = 1 →
      ∃ t, exec .handoverTimeout s = .next t ∧ t.get BOOT_ST_HOPHASE = 0 ∧ t.hoCmd = none ∧
        t.get IMG_HOCNT_FAIL = (s.get IMG_HOCNT_FAIL + 1) % 65536) ∧
    (∀ (j bank : Nat) (persist : Bool), s.hoCmd = some (j, bank, persist) → s.hoDead = false →
      (s.get BOOT_ST_HOPHASE = 1 → s.mayTakeOver bank = true →
        ∃ t, exec .handoverReady s = .next t ∧ t.get BOOT_ST_HOPHASE = 2 ∧ t.hoAt = s.now ∧ ∀ i < 32, (t.stream i).state = 3) ∧
      (s.get BOOT_ST_HOPHASE = 1 → s.mayTakeOver bank = false →
        ∃ t, exec .handoverReady s = .next t ∧ t.get BOOT_ST_HOPHASE = 0 ∧ t.hoCmd = none ∧
          t.get IMG_HOCNT_FAIL = (s.get IMG_HOCNT_FAIL + 1) % 65536) ∧
      (s.get BOOT_ST_HOPHASE = 2 → s.bit BOOT_ST_STBYOK = true → s.now ≤ s.hoAt + 45000000 →
        ∃ t, exec .handoverSwitch s = .next t ∧ t.get BOOT_ST_HOPHASE = 0 ∧ t.hoCmd = none ∧
          t.get BOOT_ST_ACTIVE = 1 - s.get BOOT_ST_ACTIVE ∧ t.get BOOT_ST_BANK = bank % 2 ∧
          t.get BOOT_ST_FLAG = (if persist then bank % 2 else s.get BOOT_ST_FLAG) ∧
          t.get IMG_HOCNT_DONE = (s.get IMG_HOCNT_DONE + 1) % 65536) ∧
      (s.get BOOT_ST_HOPHASE = 2 →
        ∃ t, exec .handoverTimeout s = .next t ∧ t.get BOOT_ST_HOPHASE = 0 ∧ t.hoCmd = none ∧
          t.now = max s.now (s.hoAt + 45000000) ∧ t.get IMG_HOCNT_FAIL = (s.get IMG_HOCNT_FAIL + 1) % 65536))
end

