-- ==== Sys2Proof/Laws/State.lean ====
section
/-! SUPPORT. One lemma per field and per base update of the state: what an update leaves alone, and the read-after-write
laws of registers, fields, memory and records. -/
namespace Sys2Proof.Machine
variable (s : State)


/-! ### wr -/

@[simp] theorem State.wr_pending (a : Nat) (v : Word) : (s.wr a v).pending = s.pending := rfl
@[simp] theorem State.wr_straps (a : Nat) (v : Word) : (s.wr a v).straps = s.straps := rfl
@[simp] theorem State.wr_power (a : Nat) (v : Word) : (s.wr a v).power = s.power := rfl
@[simp] theorem State.wr_mem (a : Nat) (v : Word) : (s.wr a v).mem = s.mem := rfl
@[simp] theorem State.wr_now (a : Nat) (v : Word) : (s.wr a v).now = s.now := rfl
@[simp] theorem State.wr_tickAt (a : Nat) (v : Word) : (s.wr a v).tickAt = s.tickAt := rfl
@[simp] theorem State.wr_tickLeft (a : Nat) (v : Word) : (s.wr a v).tickLeft = s.tickLeft := rfl
@[simp] theorem State.wr_tickDue (a : Nat) (v : Word) : (s.wr a v).tickDue = s.tickDue := rfl
@[simp] theorem State.wr_drawn (a : Nat) (v : Word) : (s.wr a v).drawn = s.drawn := rfl
@[simp] theorem State.wr_accepts (a : Nat) (v : Word) : (s.wr a v).accepts = s.accepts := rfl
@[simp] theorem State.wr_newTick (a : Nat) (v : Word) : (s.wr a v).newTick = s.newTick := rfl
@[simp] theorem State.wr_setNow (a : Nat) (v : Word) : (s.wr a v).setNow = s.setNow := rfl
@[simp] theorem State.wr_gens (a : Nat) (v : Word) : (s.wr a v).gens = s.gens := rfl
@[simp] theorem State.wr_ccs (a : Nat) (v : Word) : (s.wr a v).ccs = s.ccs := rfl
@[simp] theorem State.wr_chans (a : Nat) (v : Word) : (s.wr a v).chans = s.chans := rfl
@[simp] theorem State.wr_groups (a : Nat) (v : Word) : (s.wr a v).groups = s.groups := rfl
@[simp] theorem State.wr_windows (a : Nat) (v : Word) : (s.wr a v).windows = s.windows := rfl
@[simp] theorem State.wr_filtOld (a : Nat) (v : Word) : (s.wr a v).filtOld = s.filtOld := rfl
@[simp] theorem State.wr_streams (a : Nat) (v : Word) : (s.wr a v).streams = s.streams := rfl
@[simp] theorem State.wr_hosts (a : Nat) (v : Word) : (s.wr a v).hosts = s.hosts := rfl
@[simp] theorem State.wr_swaps (a : Nat) (v : Word) : (s.wr a v).swaps = s.swaps := rfl
@[simp] theorem State.wr_engines (a : Nat) (v : Word) : (s.wr a v).engines = s.engines := rfl
@[simp] theorem State.wr_ckps (a : Nat) (v : Word) : (s.wr a v).ckps = s.ckps := rfl
@[simp] theorem State.wr_prs (a : Nat) (v : Word) : (s.wr a v).prs = s.prs := rfl
@[simp] theorem State.wr_decs (a : Nat) (v : Word) : (s.wr a v).decs = s.decs := rfl
@[simp] theorem State.wr_hkc (a : Nat) (v : Word) : (s.wr a v).hkc = s.hkc := rfl
@[simp] theorem State.wr_fbs (a : Nat) (v : Word) : (s.wr a v).fbs = s.fbs := rfl
@[simp] theorem State.wr_lines (a : Nat) (v : Word) : (s.wr a v).lines = s.lines := rfl
@[simp] theorem State.wr_capAt (a : Nat) (v : Word) : (s.wr a v).capAt = s.capAt := rfl
@[simp] theorem State.wr_pcos (a : Nat) (v : Word) : (s.wr a v).pcos = s.pcos := rfl
@[simp] theorem State.wr_coll (a : Nat) (v : Word) : (s.wr a v).coll = s.coll := rfl
@[simp] theorem State.wr_log (a : Nat) (v : Word) : (s.wr a v).log = s.log := rfl
@[simp] theorem State.wr_flash (a : Nat) (v : Word) : (s.wr a v).flash = s.flash := rfl
@[simp] theorem State.wr_otp (a : Nat) (v : Word) : (s.wr a v).otp = s.otp := rfl
@[simp] theorem State.wr_bly (a : Nat) (v : Word) : (s.wr a v).bly = s.bly := rfl
@[simp] theorem State.wr_safeoff (a : Nat) (v : Word) : (s.wr a v).safeoff = s.safeoff := rfl
@[simp] theorem State.wr_pulses (a : Nat) (v : Word) : (s.wr a v).pulses = s.pulses := rfl
@[simp] theorem State.wr_csps (a : Nat) (v : Word) : (s.wr a v).csps = s.csps := rfl
@[simp] theorem State.wr_eths (a : Nat) (v : Word) : (s.wr a v).eths = s.eths := rfl
@[simp] theorem State.wr_gptp (a : Nat) (v : Word) : (s.wr a v).gptp = s.gptp := rfl
@[simp] theorem State.wr_sent (a : Nat) (v : Word) : (s.wr a v).sent = s.sent := rfl
@[simp] theorem State.wr_dataOut (a : Nat) (v : Word) : (s.wr a v).dataOut = s.dataOut := rfl
@[simp] theorem State.wr_imgIdx (a : Nat) (v : Word) : (s.wr a v).imgIdx = s.imgIdx := rfl
@[simp] theorem State.wr_hoCmd (a : Nat) (v : Word) : (s.wr a v).hoCmd = s.hoCmd := rfl
@[simp] theorem State.wr_hoAt (a : Nat) (v : Word) : (s.wr a v).hoAt = s.hoAt := rfl
@[simp] theorem State.wr_hoDead (a : Nat) (v : Word) : (s.wr a v).hoDead = s.hoDead := rfl
@[simp] theorem State.wr_rstReq (a : Nat) (v : Word) : (s.wr a v).rstReq = s.rstReq := rfl
@[simp] theorem State.wr_biv (a : Nat) (v : Word) : (s.wr a v).biv = s.biv := rfl
@[simp] theorem State.wr_panel (a : Nat) (v : Word) : (s.wr a v).panel = s.panel := rfl
@[simp] theorem State.wr_portsOff (a : Nat) (v : Word) : (s.wr a v).portsOff = s.portsOff := rfl

/-! ### wrByte -/

@[simp] theorem State.wrByte_pending (a : Nat) (v : Byte) : (s.wrByte a v).pending = s.pending := rfl
@[simp] theorem State.wrByte_straps (a : Nat) (v : Byte) : (s.wrByte a v).straps = s.straps := rfl
@[simp] theorem State.wrByte_power (a : Nat) (v : Byte) : (s.wrByte a v).power = s.power := rfl
@[simp] theorem State.wrByte_regs (a : Nat) (v : Byte) : (s.wrByte a v).regs = s.regs := rfl
@[simp] theorem State.wrByte_now (a : Nat) (v : Byte) : (s.wrByte a v).now = s.now := rfl
@[simp] theorem State.wrByte_tickAt (a : Nat) (v : Byte) : (s.wrByte a v).tickAt = s.tickAt := rfl
@[simp] theorem State.wrByte_tickLeft (a : Nat) (v : Byte) : (s.wrByte a v).tickLeft = s.tickLeft := rfl
@[simp] theorem State.wrByte_tickDue (a : Nat) (v : Byte) : (s.wrByte a v).tickDue = s.tickDue := rfl
@[simp] theorem State.wrByte_drawn (a : Nat) (v : Byte) : (s.wrByte a v).drawn = s.drawn := rfl
@[simp] theorem State.wrByte_accepts (a : Nat) (v : Byte) : (s.wrByte a v).accepts = s.accepts := rfl
@[simp] theorem State.wrByte_newTick (a : Nat) (v : Byte) : (s.wrByte a v).newTick = s.newTick := rfl
@[simp] theorem State.wrByte_setNow (a : Nat) (v : Byte) : (s.wrByte a v).setNow = s.setNow := rfl
@[simp] theorem State.wrByte_gens (a : Nat) (v : Byte) : (s.wrByte a v).gens = s.gens := rfl
@[simp] theorem State.wrByte_ccs (a : Nat) (v : Byte) : (s.wrByte a v).ccs = s.ccs := rfl
@[simp] theorem State.wrByte_chans (a : Nat) (v : Byte) : (s.wrByte a v).chans = s.chans := rfl
@[simp] theorem State.wrByte_groups (a : Nat) (v : Byte) : (s.wrByte a v).groups = s.groups := rfl
@[simp] theorem State.wrByte_windows (a : Nat) (v : Byte) : (s.wrByte a v).windows = s.windows := rfl
@[simp] theorem State.wrByte_filtOld (a : Nat) (v : Byte) : (s.wrByte a v).filtOld = s.filtOld := rfl
@[simp] theorem State.wrByte_streams (a : Nat) (v : Byte) : (s.wrByte a v).streams = s.streams := rfl
@[simp] theorem State.wrByte_hosts (a : Nat) (v : Byte) : (s.wrByte a v).hosts = s.hosts := rfl
@[simp] theorem State.wrByte_swaps (a : Nat) (v : Byte) : (s.wrByte a v).swaps = s.swaps := rfl
@[simp] theorem State.wrByte_engines (a : Nat) (v : Byte) : (s.wrByte a v).engines = s.engines := rfl
@[simp] theorem State.wrByte_ckps (a : Nat) (v : Byte) : (s.wrByte a v).ckps = s.ckps := rfl
@[simp] theorem State.wrByte_prs (a : Nat) (v : Byte) : (s.wrByte a v).prs = s.prs := rfl
@[simp] theorem State.wrByte_decs (a : Nat) (v : Byte) : (s.wrByte a v).decs = s.decs := rfl
@[simp] theorem State.wrByte_hkc (a : Nat) (v : Byte) : (s.wrByte a v).hkc = s.hkc := rfl
@[simp] theorem State.wrByte_fbs (a : Nat) (v : Byte) : (s.wrByte a v).fbs = s.fbs := rfl
@[simp] theorem State.wrByte_lines (a : Nat) (v : Byte) : (s.wrByte a v).lines = s.lines := rfl
@[simp] theorem State.wrByte_capAt (a : Nat) (v : Byte) : (s.wrByte a v).capAt = s.capAt := rfl
@[simp] theorem State.wrByte_pcos (a : Nat) (v : Byte) : (s.wrByte a v).pcos = s.pcos := rfl
@[simp] theorem State.wrByte_coll (a : Nat) (v : Byte) : (s.wrByte a v).coll = s.coll := rfl
@[simp] theorem State.wrByte_log (a : Nat) (v : Byte) : (s.wrByte a v).log = s.log := rfl
@[simp] theorem State.wrByte_flash (a : Nat) (v : Byte) : (s.wrByte a v).flash = s.flash := rfl
@[simp] theorem State.wrByte_otp (a : Nat) (v : Byte) : (s.wrByte a v).otp = s.otp := rfl
@[simp] theorem State.wrByte_bly (a : Nat) (v : Byte) : (s.wrByte a v).bly = s.bly := rfl
@[simp] theorem State.wrByte_safeoff (a : Nat) (v : Byte) : (s.wrByte a v).safeoff = s.safeoff := rfl
@[simp] theorem State.wrByte_pulses (a : Nat) (v : Byte) : (s.wrByte a v).pulses = s.pulses := rfl
@[simp] theorem State.wrByte_csps (a : Nat) (v : Byte) : (s.wrByte a v).csps = s.csps := rfl
@[simp] theorem State.wrByte_eths (a : Nat) (v : Byte) : (s.wrByte a v).eths = s.eths := rfl
@[simp] theorem State.wrByte_gptp (a : Nat) (v : Byte) : (s.wrByte a v).gptp = s.gptp := rfl
@[simp] theorem State.wrByte_sent (a : Nat) (v : Byte) : (s.wrByte a v).sent = s.sent := rfl
@[simp] theorem State.wrByte_dataOut (a : Nat) (v : Byte) : (s.wrByte a v).dataOut = s.dataOut := rfl
@[simp] theorem State.wrByte_imgIdx (a : Nat) (v : Byte) : (s.wrByte a v).imgIdx = s.imgIdx := rfl
@[simp] theorem State.wrByte_hoCmd (a : Nat) (v : Byte) : (s.wrByte a v).hoCmd = s.hoCmd := rfl
@[simp] theorem State.wrByte_hoAt (a : Nat) (v : Byte) : (s.wrByte a v).hoAt = s.hoAt := rfl
@[simp] theorem State.wrByte_hoDead (a : Nat) (v : Byte) : (s.wrByte a v).hoDead = s.hoDead := rfl
@[simp] theorem State.wrByte_rstReq (a : Nat) (v : Byte) : (s.wrByte a v).rstReq = s.rstReq := rfl
@[simp] theorem State.wrByte_biv (a : Nat) (v : Byte) : (s.wrByte a v).biv = s.biv := rfl
@[simp] theorem State.wrByte_panel (a : Nat) (v : Byte) : (s.wrByte a v).panel = s.panel := rfl
@[simp] theorem State.wrByte_portsOff (a : Nat) (v : Byte) : (s.wrByte a v).portsOff = s.portsOff := rfl

/-! ### wrMem -/

@[simp] theorem State.wrMem_pending (a : Nat) (v : Word) : (s.wrMem a v).pending = s.pending := rfl
@[simp] theorem State.wrMem_straps (a : Nat) (v : Word) : (s.wrMem a v).straps = s.straps := rfl
@[simp] theorem State.wrMem_power (a : Nat) (v : Word) : (s.wrMem a v).power = s.power := rfl
@[simp] theorem State.wrMem_regs (a : Nat) (v : Word) : (s.wrMem a v).regs = s.regs := rfl
@[simp] theorem State.wrMem_now (a : Nat) (v : Word) : (s.wrMem a v).now = s.now := rfl
@[simp] theorem State.wrMem_tickAt (a : Nat) (v : Word) : (s.wrMem a v).tickAt = s.tickAt := rfl
@[simp] theorem State.wrMem_tickLeft (a : Nat) (v : Word) : (s.wrMem a v).tickLeft = s.tickLeft := rfl
@[simp] theorem State.wrMem_tickDue (a : Nat) (v : Word) : (s.wrMem a v).tickDue = s.tickDue := rfl
@[simp] theorem State.wrMem_drawn (a : Nat) (v : Word) : (s.wrMem a v).drawn = s.drawn := rfl
@[simp] theorem State.wrMem_accepts (a : Nat) (v : Word) : (s.wrMem a v).accepts = s.accepts := rfl
@[simp] theorem State.wrMem_newTick (a : Nat) (v : Word) : (s.wrMem a v).newTick = s.newTick := rfl
@[simp] theorem State.wrMem_setNow (a : Nat) (v : Word) : (s.wrMem a v).setNow = s.setNow := rfl
@[simp] theorem State.wrMem_gens (a : Nat) (v : Word) : (s.wrMem a v).gens = s.gens := rfl
@[simp] theorem State.wrMem_ccs (a : Nat) (v : Word) : (s.wrMem a v).ccs = s.ccs := rfl
@[simp] theorem State.wrMem_chans (a : Nat) (v : Word) : (s.wrMem a v).chans = s.chans := rfl
@[simp] theorem State.wrMem_groups (a : Nat) (v : Word) : (s.wrMem a v).groups = s.groups := rfl
@[simp] theorem State.wrMem_windows (a : Nat) (v : Word) : (s.wrMem a v).windows = s.windows := rfl
@[simp] theorem State.wrMem_filtOld (a : Nat) (v : Word) : (s.wrMem a v).filtOld = s.filtOld := rfl
@[simp] theorem State.wrMem_streams (a : Nat) (v : Word) : (s.wrMem a v).streams = s.streams := rfl
@[simp] theorem State.wrMem_hosts (a : Nat) (v : Word) : (s.wrMem a v).hosts = s.hosts := rfl
@[simp] theorem State.wrMem_swaps (a : Nat) (v : Word) : (s.wrMem a v).swaps = s.swaps := rfl
@[simp] theorem State.wrMem_engines (a : Nat) (v : Word) : (s.wrMem a v).engines = s.engines := rfl
@[simp] theorem State.wrMem_ckps (a : Nat) (v : Word) : (s.wrMem a v).ckps = s.ckps := rfl
@[simp] theorem State.wrMem_prs (a : Nat) (v : Word) : (s.wrMem a v).prs = s.prs := rfl
@[simp] theorem State.wrMem_decs (a : Nat) (v : Word) : (s.wrMem a v).decs = s.decs := rfl
@[simp] theorem State.wrMem_hkc (a : Nat) (v : Word) : (s.wrMem a v).hkc = s.hkc := rfl
@[simp] theorem State.wrMem_fbs (a : Nat) (v : Word) : (s.wrMem a v).fbs = s.fbs := rfl
@[simp] theorem State.wrMem_lines (a : Nat) (v : Word) : (s.wrMem a v).lines = s.lines := rfl
@[simp] theorem State.wrMem_capAt (a : Nat) (v : Word) : (s.wrMem a v).capAt = s.capAt := rfl
@[simp] theorem State.wrMem_pcos (a : Nat) (v : Word) : (s.wrMem a v).pcos = s.pcos := rfl
@[simp] theorem State.wrMem_coll (a : Nat) (v : Word) : (s.wrMem a v).coll = s.coll := rfl
@[simp] theorem State.wrMem_log (a : Nat) (v : Word) : (s.wrMem a v).log = s.log := rfl
@[simp] theorem State.wrMem_flash (a : Nat) (v : Word) : (s.wrMem a v).flash = s.flash := rfl
@[simp] theorem State.wrMem_otp (a : Nat) (v : Word) : (s.wrMem a v).otp = s.otp := rfl
@[simp] theorem State.wrMem_bly (a : Nat) (v : Word) : (s.wrMem a v).bly = s.bly := rfl
@[simp] theorem State.wrMem_safeoff (a : Nat) (v : Word) : (s.wrMem a v).safeoff = s.safeoff := rfl
@[simp] theorem State.wrMem_pulses (a : Nat) (v : Word) : (s.wrMem a v).pulses = s.pulses := rfl
@[simp] theorem State.wrMem_csps (a : Nat) (v : Word) : (s.wrMem a v).csps = s.csps := rfl
@[simp] theorem State.wrMem_eths (a : Nat) (v : Word) : (s.wrMem a v).eths = s.eths := rfl
@[simp] theorem State.wrMem_gptp (a : Nat) (v : Word) : (s.wrMem a v).gptp = s.gptp := rfl
@[simp] theorem State.wrMem_sent (a : Nat) (v : Word) : (s.wrMem a v).sent = s.sent := rfl
@[simp] theorem State.wrMem_dataOut (a : Nat) (v : Word) : (s.wrMem a v).dataOut = s.dataOut := rfl
@[simp] theorem State.wrMem_imgIdx (a : Nat) (v : Word) : (s.wrMem a v).imgIdx = s.imgIdx := rfl
@[simp] theorem State.wrMem_hoCmd (a : Nat) (v : Word) : (s.wrMem a v).hoCmd = s.hoCmd := rfl
@[simp] theorem State.wrMem_hoAt (a : Nat) (v : Word) : (s.wrMem a v).hoAt = s.hoAt := rfl
@[simp] theorem State.wrMem_hoDead (a : Nat) (v : Word) : (s.wrMem a v).hoDead = s.hoDead := rfl
@[simp] theorem State.wrMem_rstReq (a : Nat) (v : Word) : (s.wrMem a v).rstReq = s.rstReq := rfl
@[simp] theorem State.wrMem_biv (a : Nat) (v : Word) : (s.wrMem a v).biv = s.biv := rfl
@[simp] theorem State.wrMem_panel (a : Nat) (v : Word) : (s.wrMem a v).panel = s.panel := rfl
@[simp] theorem State.wrMem_portsOff (a : Nat) (v : Word) : (s.wrMem a v).portsOff = s.portsOff := rfl

/-! ### clearMem -/

@[simp] theorem State.clearMem_pending (lo hi : Nat) : (s.clearMem lo hi).pending = s.pending := rfl
@[simp] theorem State.clearMem_straps (lo hi : Nat) : (s.clearMem lo hi).straps = s.straps := rfl
@[simp] theorem State.clearMem_power (lo hi : Nat) : (s.clearMem lo hi).power = s.power := rfl
@[simp] theorem State.clearMem_regs (lo hi : Nat) : (s.clearMem lo hi).regs = s.regs := rfl
@[simp] theorem State.clearMem_now (lo hi : Nat) : (s.clearMem lo hi).now = s.now := rfl
@[simp] theorem State.clearMem_tickAt (lo hi : Nat) : (s.clearMem lo hi).tickAt = s.tickAt := rfl
@[simp] theorem State.clearMem_tickLeft (lo hi : Nat) : (s.clearMem lo hi).tickLeft = s.tickLeft := rfl
@[simp] theorem State.clearMem_tickDue (lo hi : Nat) : (s.clearMem lo hi).tickDue = s.tickDue := rfl
@[simp] theorem State.clearMem_drawn (lo hi : Nat) : (s.clearMem lo hi).drawn = s.drawn := rfl
@[simp] theorem State.clearMem_accepts (lo hi : Nat) : (s.clearMem lo hi).accepts = s.accepts := rfl
@[simp] theorem State.clearMem_newTick (lo hi : Nat) : (s.clearMem lo hi).newTick = s.newTick := rfl
@[simp] theorem State.clearMem_setNow (lo hi : Nat) : (s.clearMem lo hi).setNow = s.setNow := rfl
@[simp] theorem State.clearMem_gens (lo hi : Nat) : (s.clearMem lo hi).gens = s.gens := rfl
@[simp] theorem State.clearMem_ccs (lo hi : Nat) : (s.clearMem lo hi).ccs = s.ccs := rfl
@[simp] theorem State.clearMem_chans (lo hi : Nat) : (s.clearMem lo hi).chans = s.chans := rfl
@[simp] theorem State.clearMem_groups (lo hi : Nat) : (s.clearMem lo hi).groups = s.groups := rfl
@[simp] theorem State.clearMem_windows (lo hi : Nat) : (s.clearMem lo hi).windows = s.windows := rfl
@[simp] theorem State.clearMem_filtOld (lo hi : Nat) : (s.clearMem lo hi).filtOld = s.filtOld := rfl
@[simp] theorem State.clearMem_streams (lo hi : Nat) : (s.clearMem lo hi).streams = s.streams := rfl
@[simp] theorem State.clearMem_hosts (lo hi : Nat) : (s.clearMem lo hi).hosts = s.hosts := rfl
@[simp] theorem State.clearMem_swaps (lo hi : Nat) : (s.clearMem lo hi).swaps = s.swaps := rfl
@[simp] theorem State.clearMem_engines (lo hi : Nat) : (s.clearMem lo hi).engines = s.engines := rfl
@[simp] theorem State.clearMem_ckps (lo hi : Nat) : (s.clearMem lo hi).ckps = s.ckps := rfl
@[simp] theorem State.clearMem_prs (lo hi : Nat) : (s.clearMem lo hi).prs = s.prs := rfl
@[simp] theorem State.clearMem_decs (lo hi : Nat) : (s.clearMem lo hi).decs = s.decs := rfl
@[simp] theorem State.clearMem_hkc (lo hi : Nat) : (s.clearMem lo hi).hkc = s.hkc := rfl
@[simp] theorem State.clearMem_fbs (lo hi : Nat) : (s.clearMem lo hi).fbs = s.fbs := rfl
@[simp] theorem State.clearMem_lines (lo hi : Nat) : (s.clearMem lo hi).lines = s.lines := rfl
@[simp] theorem State.clearMem_capAt (lo hi : Nat) : (s.clearMem lo hi).capAt = s.capAt := rfl
@[simp] theorem State.clearMem_pcos (lo hi : Nat) : (s.clearMem lo hi).pcos = s.pcos := rfl
@[simp] theorem State.clearMem_coll (lo hi : Nat) : (s.clearMem lo hi).coll = s.coll := rfl
@[simp] theorem State.clearMem_log (lo hi : Nat) : (s.clearMem lo hi).log = s.log := rfl
@[simp] theorem State.clearMem_flash (lo hi : Nat) : (s.clearMem lo hi).flash = s.flash := rfl
@[simp] theorem State.clearMem_otp (lo hi : Nat) : (s.clearMem lo hi).otp = s.otp := rfl
@[simp] theorem State.clearMem_bly (lo hi : Nat) : (s.clearMem lo hi).bly = s.bly := rfl
@[simp] theorem State.clearMem_safeoff (lo hi : Nat) : (s.clearMem lo hi).safeoff = s.safeoff := rfl
@[simp] theorem State.clearMem_pulses (lo hi : Nat) : (s.clearMem lo hi).pulses = s.pulses := rfl
@[simp] theorem State.clearMem_csps (lo hi : Nat) : (s.clearMem lo hi).csps = s.csps := rfl
@[simp] theorem State.clearMem_eths (lo hi : Nat) : (s.clearMem lo hi).eths = s.eths := rfl
@[simp] theorem State.clearMem_gptp (lo hi : Nat) : (s.clearMem lo hi).gptp = s.gptp := rfl
@[simp] theorem State.clearMem_sent (lo hi : Nat) : (s.clearMem lo hi).sent = s.sent := rfl
@[simp] theorem State.clearMem_dataOut (lo hi : Nat) : (s.clearMem lo hi).dataOut = s.dataOut := rfl
@[simp] theorem State.clearMem_imgIdx (lo hi : Nat) : (s.clearMem lo hi).imgIdx = s.imgIdx := rfl
@[simp] theorem State.clearMem_hoCmd (lo hi : Nat) : (s.clearMem lo hi).hoCmd = s.hoCmd := rfl
@[simp] theorem State.clearMem_hoAt (lo hi : Nat) : (s.clearMem lo hi).hoAt = s.hoAt := rfl
@[simp] theorem State.clearMem_hoDead (lo hi : Nat) : (s.clearMem lo hi).hoDead = s.hoDead := rfl
@[simp] theorem State.clearMem_rstReq (lo hi : Nat) : (s.clearMem lo hi).rstReq = s.rstReq := rfl
@[simp] theorem State.clearMem_biv (lo hi : Nat) : (s.clearMem lo hi).biv = s.biv := rfl
@[simp] theorem State.clearMem_panel (lo hi : Nat) : (s.clearMem lo hi).panel = s.panel := rfl
@[simp] theorem State.clearMem_portsOff (lo hi : Nat) : (s.clearMem lo hi).portsOff = s.portsOff := rfl

/-! ### draw -/

@[simp] theorem State.draw_pending : (s.draw).pending = s.pending := rfl
@[simp] theorem State.draw_straps : (s.draw).straps = s.straps := rfl
@[simp] theorem State.draw_power : (s.draw).power = s.power := rfl
@[simp] theorem State.draw_regs : (s.draw).regs = s.regs := rfl
@[simp] theorem State.draw_mem : (s.draw).mem = s.mem := rfl
@[simp] theorem State.draw_now : (s.draw).now = s.now := rfl
@[simp] theorem State.draw_tickAt : (s.draw).tickAt = s.tickAt := rfl
@[simp] theorem State.draw_tickLeft : (s.draw).tickLeft = s.tickLeft := rfl
@[simp] theorem State.draw_tickDue : (s.draw).tickDue = s.tickDue := rfl
@[simp] theorem State.draw_accepts : (s.draw).accepts = s.accepts := rfl
@[simp] theorem State.draw_newTick : (s.draw).newTick = s.newTick := rfl
@[simp] theorem State.draw_setNow : (s.draw).setNow = s.setNow := rfl
@[simp] theorem State.draw_gens : (s.draw).gens = s.gens := rfl
@[simp] theorem State.draw_ccs : (s.draw).ccs = s.ccs := rfl
@[simp] theorem State.draw_chans : (s.draw).chans = s.chans := rfl
@[simp] theorem State.draw_groups : (s.draw).groups = s.groups := rfl
@[simp] theorem State.draw_windows : (s.draw).windows = s.windows := rfl
@[simp] theorem State.draw_filtOld : (s.draw).filtOld = s.filtOld := rfl
@[simp] theorem State.draw_streams : (s.draw).streams = s.streams := rfl
@[simp] theorem State.draw_hosts : (s.draw).hosts = s.hosts := rfl
@[simp] theorem State.draw_swaps : (s.draw).swaps = s.swaps := rfl
@[simp] theorem State.draw_engines : (s.draw).engines = s.engines := rfl
@[simp] theorem State.draw_ckps : (s.draw).ckps = s.ckps := rfl
@[simp] theorem State.draw_prs : (s.draw).prs = s.prs := rfl
@[simp] theorem State.draw_decs : (s.draw).decs = s.decs := rfl
@[simp] theorem State.draw_hkc : (s.draw).hkc = s.hkc := rfl
@[simp] theorem State.draw_fbs : (s.draw).fbs = s.fbs := rfl
@[simp] theorem State.draw_lines : (s.draw).lines = s.lines := rfl
@[simp] theorem State.draw_capAt : (s.draw).capAt = s.capAt := rfl
@[simp] theorem State.draw_pcos : (s.draw).pcos = s.pcos := rfl
@[simp] theorem State.draw_coll : (s.draw).coll = s.coll := rfl
@[simp] theorem State.draw_log : (s.draw).log = s.log := rfl
@[simp] theorem State.draw_flash : (s.draw).flash = s.flash := rfl
@[simp] theorem State.draw_otp : (s.draw).otp = s.otp := rfl
@[simp] theorem State.draw_bly : (s.draw).bly = s.bly := rfl
@[simp] theorem State.draw_safeoff : (s.draw).safeoff = s.safeoff := rfl
@[simp] theorem State.draw_pulses : (s.draw).pulses = s.pulses := rfl
@[simp] theorem State.draw_csps : (s.draw).csps = s.csps := rfl
@[simp] theorem State.draw_eths : (s.draw).eths = s.eths := rfl
@[simp] theorem State.draw_gptp : (s.draw).gptp = s.gptp := rfl
@[simp] theorem State.draw_sent : (s.draw).sent = s.sent := rfl
@[simp] theorem State.draw_dataOut : (s.draw).dataOut = s.dataOut := rfl
@[simp] theorem State.draw_imgIdx : (s.draw).imgIdx = s.imgIdx := rfl
@[simp] theorem State.draw_hoCmd : (s.draw).hoCmd = s.hoCmd := rfl
@[simp] theorem State.draw_hoAt : (s.draw).hoAt = s.hoAt := rfl
@[simp] theorem State.draw_hoDead : (s.draw).hoDead = s.hoDead := rfl
@[simp] theorem State.draw_rstReq : (s.draw).rstReq = s.rstReq := rfl
@[simp] theorem State.draw_biv : (s.draw).biv = s.biv := rfl
@[simp] theorem State.draw_panel : (s.draw).panel = s.panel := rfl
@[simp] theorem State.draw_portsOff : (s.draw).portsOff = s.portsOff := rfl

/-! ### setGen -/

@[simp] theorem State.setGen_pending (n : Nat) (x : Gen) : (s.setGen n x).pending = s.pending := rfl
@[simp] theorem State.setGen_straps (n : Nat) (x : Gen) : (s.setGen n x).straps = s.straps := rfl
@[simp] theorem State.setGen_power (n : Nat) (x : Gen) : (s.setGen n x).power = s.power := rfl
@[simp] theorem State.setGen_regs (n : Nat) (x : Gen) : (s.setGen n x).regs = s.regs := rfl
@[simp] theorem State.setGen_mem (n : Nat) (x : Gen) : (s.setGen n x).mem = s.mem := rfl
@[simp] theorem State.setGen_now (n : Nat) (x : Gen) : (s.setGen n x).now = s.now := rfl
@[simp] theorem State.setGen_tickAt (n : Nat) (x : Gen) : (s.setGen n x).tickAt = s.tickAt := rfl
@[simp] theorem State.setGen_tickLeft (n : Nat) (x : Gen) : (s.setGen n x).tickLeft = s.tickLeft := rfl
@[simp] theorem State.setGen_tickDue (n : Nat) (x : Gen) : (s.setGen n x).tickDue = s.tickDue := rfl
@[simp] theorem State.setGen_drawn (n : Nat) (x : Gen) : (s.setGen n x).drawn = s.drawn := rfl
@[simp] theorem State.setGen_accepts (n : Nat) (x : Gen) : (s.setGen n x).accepts = s.accepts := rfl
@[simp] theorem State.setGen_newTick (n : Nat) (x : Gen) : (s.setGen n x).newTick = s.newTick := rfl
@[simp] theorem State.setGen_setNow (n : Nat) (x : Gen) : (s.setGen n x).setNow = s.setNow := rfl
@[simp] theorem State.setGen_ccs (n : Nat) (x : Gen) : (s.setGen n x).ccs = s.ccs := rfl
@[simp] theorem State.setGen_chans (n : Nat) (x : Gen) : (s.setGen n x).chans = s.chans := rfl
@[simp] theorem State.setGen_groups (n : Nat) (x : Gen) : (s.setGen n x).groups = s.groups := rfl
@[simp] theorem State.setGen_windows (n : Nat) (x : Gen) : (s.setGen n x).windows = s.windows := rfl
@[simp] theorem State.setGen_filtOld (n : Nat) (x : Gen) : (s.setGen n x).filtOld = s.filtOld := rfl
@[simp] theorem State.setGen_streams (n : Nat) (x : Gen) : (s.setGen n x).streams = s.streams := rfl
@[simp] theorem State.setGen_hosts (n : Nat) (x : Gen) : (s.setGen n x).hosts = s.hosts := rfl
@[simp] theorem State.setGen_swaps (n : Nat) (x : Gen) : (s.setGen n x).swaps = s.swaps := rfl
@[simp] theorem State.setGen_engines (n : Nat) (x : Gen) : (s.setGen n x).engines = s.engines := rfl
@[simp] theorem State.setGen_ckps (n : Nat) (x : Gen) : (s.setGen n x).ckps = s.ckps := rfl
@[simp] theorem State.setGen_prs (n : Nat) (x : Gen) : (s.setGen n x).prs = s.prs := rfl
@[simp] theorem State.setGen_decs (n : Nat) (x : Gen) : (s.setGen n x).decs = s.decs := rfl
@[simp] theorem State.setGen_hkc (n : Nat) (x : Gen) : (s.setGen n x).hkc = s.hkc := rfl
@[simp] theorem State.setGen_fbs (n : Nat) (x : Gen) : (s.setGen n x).fbs = s.fbs := rfl
@[simp] theorem State.setGen_lines (n : Nat) (x : Gen) : (s.setGen n x).lines = s.lines := rfl
@[simp] theorem State.setGen_capAt (n : Nat) (x : Gen) : (s.setGen n x).capAt = s.capAt := rfl
@[simp] theorem State.setGen_pcos (n : Nat) (x : Gen) : (s.setGen n x).pcos = s.pcos := rfl
@[simp] theorem State.setGen_coll (n : Nat) (x : Gen) : (s.setGen n x).coll = s.coll := rfl
@[simp] theorem State.setGen_log (n : Nat) (x : Gen) : (s.setGen n x).log = s.log := rfl
@[simp] theorem State.setGen_flash (n : Nat) (x : Gen) : (s.setGen n x).flash = s.flash := rfl
@[simp] theorem State.setGen_otp (n : Nat) (x : Gen) : (s.setGen n x).otp = s.otp := rfl
@[simp] theorem State.setGen_bly (n : Nat) (x : Gen) : (s.setGen n x).bly = s.bly := rfl
@[simp] theorem State.setGen_safeoff (n : Nat) (x : Gen) : (s.setGen n x).safeoff = s.safeoff := rfl
@[simp] theorem State.setGen_pulses (n : Nat) (x : Gen) : (s.setGen n x).pulses = s.pulses := rfl
@[simp] theorem State.setGen_csps (n : Nat) (x : Gen) : (s.setGen n x).csps = s.csps := rfl
@[simp] theorem State.setGen_eths (n : Nat) (x : Gen) : (s.setGen n x).eths = s.eths := rfl
@[simp] theorem State.setGen_gptp (n : Nat) (x : Gen) : (s.setGen n x).gptp = s.gptp := rfl
@[simp] theorem State.setGen_sent (n : Nat) (x : Gen) : (s.setGen n x).sent = s.sent := rfl
@[simp] theorem State.setGen_dataOut (n : Nat) (x : Gen) : (s.setGen n x).dataOut = s.dataOut := rfl
@[simp] theorem State.setGen_imgIdx (n : Nat) (x : Gen) : (s.setGen n x).imgIdx = s.imgIdx := rfl
@[simp] theorem State.setGen_hoCmd (n : Nat) (x : Gen) : (s.setGen n x).hoCmd = s.hoCmd := rfl
@[simp] theorem State.setGen_hoAt (n : Nat) (x : Gen) : (s.setGen n x).hoAt = s.hoAt := rfl
@[simp] theorem State.setGen_hoDead (n : Nat) (x : Gen) : (s.setGen n x).hoDead = s.hoDead := rfl
@[simp] theorem State.setGen_rstReq (n : Nat) (x : Gen) : (s.setGen n x).rstReq = s.rstReq := rfl
@[simp] theorem State.setGen_biv (n : Nat) (x : Gen) : (s.setGen n x).biv = s.biv := rfl
@[simp] theorem State.setGen_panel (n : Nat) (x : Gen) : (s.setGen n x).panel = s.panel := rfl
@[simp] theorem State.setGen_portsOff (n : Nat) (x : Gen) : (s.setGen n x).portsOff = s.portsOff := rfl

/-! ### setCc -/

@[simp] theorem State.setCc_pending (n : Nat) (x : Cc) : (s.setCc n x).pending = s.pending := rfl
@[simp] theorem State.setCc_straps (n : Nat) (x : Cc) : (s.setCc n x).straps = s.straps := rfl
@[simp] theorem State.setCc_power (n : Nat) (x : Cc) : (s.setCc n x).power = s.power := rfl
@[simp] theorem State.setCc_regs (n : Nat) (x : Cc) : (s.setCc n x).regs = s.regs := rfl
@[simp] theorem State.setCc_mem (n : Nat) (x : Cc) : (s.setCc n x).mem = s.mem := rfl
@[simp] theorem State.setCc_now (n : Nat) (x : Cc) : (s.setCc n x).now = s.now := rfl
@[simp] theorem State.setCc_tickAt (n : Nat) (x : Cc) : (s.setCc n x).tickAt = s.tickAt := rfl
@[simp] theorem State.setCc_tickLeft (n : Nat) (x : Cc) : (s.setCc n x).tickLeft = s.tickLeft := rfl
@[simp] theorem State.setCc_tickDue (n : Nat) (x : Cc) : (s.setCc n x).tickDue = s.tickDue := rfl
@[simp] theorem State.setCc_drawn (n : Nat) (x : Cc) : (s.setCc n x).drawn = s.drawn := rfl
@[simp] theorem State.setCc_accepts (n : Nat) (x : Cc) : (s.setCc n x).accepts = s.accepts := rfl
@[simp] theorem State.setCc_newTick (n : Nat) (x : Cc) : (s.setCc n x).newTick = s.newTick := rfl
@[simp] theorem State.setCc_setNow (n : Nat) (x : Cc) : (s.setCc n x).setNow = s.setNow := rfl
@[simp] theorem State.setCc_gens (n : Nat) (x : Cc) : (s.setCc n x).gens = s.gens := rfl
@[simp] theorem State.setCc_chans (n : Nat) (x : Cc) : (s.setCc n x).chans = s.chans := rfl
@[simp] theorem State.setCc_groups (n : Nat) (x : Cc) : (s.setCc n x).groups = s.groups := rfl
@[simp] theorem State.setCc_windows (n : Nat) (x : Cc) : (s.setCc n x).windows = s.windows := rfl
@[simp] theorem State.setCc_filtOld (n : Nat) (x : Cc) : (s.setCc n x).filtOld = s.filtOld := rfl
@[simp] theorem State.setCc_streams (n : Nat) (x : Cc) : (s.setCc n x).streams = s.streams := rfl
@[simp] theorem State.setCc_hosts (n : Nat) (x : Cc) : (s.setCc n x).hosts = s.hosts := rfl
@[simp] theorem State.setCc_swaps (n : Nat) (x : Cc) : (s.setCc n x).swaps = s.swaps := rfl
@[simp] theorem State.setCc_engines (n : Nat) (x : Cc) : (s.setCc n x).engines = s.engines := rfl
@[simp] theorem State.setCc_ckps (n : Nat) (x : Cc) : (s.setCc n x).ckps = s.ckps := rfl
@[simp] theorem State.setCc_prs (n : Nat) (x : Cc) : (s.setCc n x).prs = s.prs := rfl
@[simp] theorem State.setCc_decs (n : Nat) (x : Cc) : (s.setCc n x).decs = s.decs := rfl
@[simp] theorem State.setCc_hkc (n : Nat) (x : Cc) : (s.setCc n x).hkc = s.hkc := rfl
@[simp] theorem State.setCc_fbs (n : Nat) (x : Cc) : (s.setCc n x).fbs = s.fbs := rfl
@[simp] theorem State.setCc_lines (n : Nat) (x : Cc) : (s.setCc n x).lines = s.lines := rfl
@[simp] theorem State.setCc_capAt (n : Nat) (x : Cc) : (s.setCc n x).capAt = s.capAt := rfl
@[simp] theorem State.setCc_pcos (n : Nat) (x : Cc) : (s.setCc n x).pcos = s.pcos := rfl
@[simp] theorem State.setCc_coll (n : Nat) (x : Cc) : (s.setCc n x).coll = s.coll := rfl
@[simp] theorem State.setCc_log (n : Nat) (x : Cc) : (s.setCc n x).log = s.log := rfl
@[simp] theorem State.setCc_flash (n : Nat) (x : Cc) : (s.setCc n x).flash = s.flash := rfl
@[simp] theorem State.setCc_otp (n : Nat) (x : Cc) : (s.setCc n x).otp = s.otp := rfl
@[simp] theorem State.setCc_bly (n : Nat) (x : Cc) : (s.setCc n x).bly = s.bly := rfl
@[simp] theorem State.setCc_safeoff (n : Nat) (x : Cc) : (s.setCc n x).safeoff = s.safeoff := rfl
@[simp] theorem State.setCc_pulses (n : Nat) (x : Cc) : (s.setCc n x).pulses = s.pulses := rfl
@[simp] theorem State.setCc_csps (n : Nat) (x : Cc) : (s.setCc n x).csps = s.csps := rfl
@[simp] theorem State.setCc_eths (n : Nat) (x : Cc) : (s.setCc n x).eths = s.eths := rfl
@[simp] theorem State.setCc_gptp (n : Nat) (x : Cc) : (s.setCc n x).gptp = s.gptp := rfl
@[simp] theorem State.setCc_sent (n : Nat) (x : Cc) : (s.setCc n x).sent = s.sent := rfl
@[simp] theorem State.setCc_dataOut (n : Nat) (x : Cc) : (s.setCc n x).dataOut = s.dataOut := rfl
@[simp] theorem State.setCc_imgIdx (n : Nat) (x : Cc) : (s.setCc n x).imgIdx = s.imgIdx := rfl
@[simp] theorem State.setCc_hoCmd (n : Nat) (x : Cc) : (s.setCc n x).hoCmd = s.hoCmd := rfl
@[simp] theorem State.setCc_hoAt (n : Nat) (x : Cc) : (s.setCc n x).hoAt = s.hoAt := rfl
@[simp] theorem State.setCc_hoDead (n : Nat) (x : Cc) : (s.setCc n x).hoDead = s.hoDead := rfl
@[simp] theorem State.setCc_rstReq (n : Nat) (x : Cc) : (s.setCc n x).rstReq = s.rstReq := rfl
@[simp] theorem State.setCc_biv (n : Nat) (x : Cc) : (s.setCc n x).biv = s.biv := rfl
@[simp] theorem State.setCc_panel (n : Nat) (x : Cc) : (s.setCc n x).panel = s.panel := rfl
@[simp] theorem State.setCc_portsOff (n : Nat) (x : Cc) : (s.setCc n x).portsOff = s.portsOff := rfl

/-! ### setChan -/

@[simp] theorem State.setChan_pending (n : Nat) (x : PwmChan) : (s.setChan n x).pending = s.pending := rfl
@[simp] theorem State.setChan_straps (n : Nat) (x : PwmChan) : (s.setChan n x).straps = s.straps := rfl
@[simp] theorem State.setChan_power (n : Nat) (x : PwmChan) : (s.setChan n x).power = s.power := rfl
@[simp] theorem State.setChan_regs (n : Nat) (x : PwmChan) : (s.setChan n x).regs = s.regs := rfl
@[simp] theorem State.setChan_mem (n : Nat) (x : PwmChan) : (s.setChan n x).mem = s.mem := rfl
@[simp] theorem State.setChan_now (n : Nat) (x : PwmChan) : (s.setChan n x).now = s.now := rfl
@[simp] theorem State.setChan_tickAt (n : Nat) (x : PwmChan) : (s.setChan n x).tickAt = s.tickAt := rfl
@[simp] theorem State.setChan_tickLeft (n : Nat) (x : PwmChan) : (s.setChan n x).tickLeft = s.tickLeft := rfl
@[simp] theorem State.setChan_tickDue (n : Nat) (x : PwmChan) : (s.setChan n x).tickDue = s.tickDue := rfl
@[simp] theorem State.setChan_drawn (n : Nat) (x : PwmChan) : (s.setChan n x).drawn = s.drawn := rfl
@[simp] theorem State.setChan_accepts (n : Nat) (x : PwmChan) : (s.setChan n x).accepts = s.accepts := rfl
@[simp] theorem State.setChan_newTick (n : Nat) (x : PwmChan) : (s.setChan n x).newTick = s.newTick := rfl
@[simp] theorem State.setChan_setNow (n : Nat) (x : PwmChan) : (s.setChan n x).setNow = s.setNow := rfl
@[simp] theorem State.setChan_gens (n : Nat) (x : PwmChan) : (s.setChan n x).gens = s.gens := rfl
@[simp] theorem State.setChan_ccs (n : Nat) (x : PwmChan) : (s.setChan n x).ccs = s.ccs := rfl
@[simp] theorem State.setChan_groups (n : Nat) (x : PwmChan) : (s.setChan n x).groups = s.groups := rfl
@[simp] theorem State.setChan_windows (n : Nat) (x : PwmChan) : (s.setChan n x).windows = s.windows := rfl
@[simp] theorem State.setChan_filtOld (n : Nat) (x : PwmChan) : (s.setChan n x).filtOld = s.filtOld := rfl
@[simp] theorem State.setChan_streams (n : Nat) (x : PwmChan) : (s.setChan n x).streams = s.streams := rfl
@[simp] theorem State.setChan_hosts (n : Nat) (x : PwmChan) : (s.setChan n x).hosts = s.hosts := rfl
@[simp] theorem State.setChan_swaps (n : Nat) (x : PwmChan) : (s.setChan n x).swaps = s.swaps := rfl
@[simp] theorem State.setChan_engines (n : Nat) (x : PwmChan) : (s.setChan n x).engines = s.engines := rfl
@[simp] theorem State.setChan_ckps (n : Nat) (x : PwmChan) : (s.setChan n x).ckps = s.ckps := rfl
@[simp] theorem State.setChan_prs (n : Nat) (x : PwmChan) : (s.setChan n x).prs = s.prs := rfl
@[simp] theorem State.setChan_decs (n : Nat) (x : PwmChan) : (s.setChan n x).decs = s.decs := rfl
@[simp] theorem State.setChan_hkc (n : Nat) (x : PwmChan) : (s.setChan n x).hkc = s.hkc := rfl
@[simp] theorem State.setChan_fbs (n : Nat) (x : PwmChan) : (s.setChan n x).fbs = s.fbs := rfl
@[simp] theorem State.setChan_lines (n : Nat) (x : PwmChan) : (s.setChan n x).lines = s.lines := rfl
@[simp] theorem State.setChan_capAt (n : Nat) (x : PwmChan) : (s.setChan n x).capAt = s.capAt := rfl
@[simp] theorem State.setChan_pcos (n : Nat) (x : PwmChan) : (s.setChan n x).pcos = s.pcos := rfl
@[simp] theorem State.setChan_coll (n : Nat) (x : PwmChan) : (s.setChan n x).coll = s.coll := rfl
@[simp] theorem State.setChan_log (n : Nat) (x : PwmChan) : (s.setChan n x).log = s.log := rfl
@[simp] theorem State.setChan_flash (n : Nat) (x : PwmChan) : (s.setChan n x).flash = s.flash := rfl
@[simp] theorem State.setChan_otp (n : Nat) (x : PwmChan) : (s.setChan n x).otp = s.otp := rfl
@[simp] theorem State.setChan_bly (n : Nat) (x : PwmChan) : (s.setChan n x).bly = s.bly := rfl
@[simp] theorem State.setChan_safeoff (n : Nat) (x : PwmChan) : (s.setChan n x).safeoff = s.safeoff := rfl
@[simp] theorem State.setChan_pulses (n : Nat) (x : PwmChan) : (s.setChan n x).pulses = s.pulses := rfl
@[simp] theorem State.setChan_csps (n : Nat) (x : PwmChan) : (s.setChan n x).csps = s.csps := rfl
@[simp] theorem State.setChan_eths (n : Nat) (x : PwmChan) : (s.setChan n x).eths = s.eths := rfl
@[simp] theorem State.setChan_gptp (n : Nat) (x : PwmChan) : (s.setChan n x).gptp = s.gptp := rfl
@[simp] theorem State.setChan_sent (n : Nat) (x : PwmChan) : (s.setChan n x).sent = s.sent := rfl
@[simp] theorem State.setChan_dataOut (n : Nat) (x : PwmChan) : (s.setChan n x).dataOut = s.dataOut := rfl
@[simp] theorem State.setChan_imgIdx (n : Nat) (x : PwmChan) : (s.setChan n x).imgIdx = s.imgIdx := rfl
@[simp] theorem State.setChan_hoCmd (n : Nat) (x : PwmChan) : (s.setChan n x).hoCmd = s.hoCmd := rfl
@[simp] theorem State.setChan_hoAt (n : Nat) (x : PwmChan) : (s.setChan n x).hoAt = s.hoAt := rfl
@[simp] theorem State.setChan_hoDead (n : Nat) (x : PwmChan) : (s.setChan n x).hoDead = s.hoDead := rfl
@[simp] theorem State.setChan_rstReq (n : Nat) (x : PwmChan) : (s.setChan n x).rstReq = s.rstReq := rfl
@[simp] theorem State.setChan_biv (n : Nat) (x : PwmChan) : (s.setChan n x).biv = s.biv := rfl
@[simp] theorem State.setChan_panel (n : Nat) (x : PwmChan) : (s.setChan n x).panel = s.panel := rfl
@[simp] theorem State.setChan_portsOff (n : Nat) (x : PwmChan) : (s.setChan n x).portsOff = s.portsOff := rfl

/-! ### setGroup -/

@[simp] theorem State.setGroup_pending (n : Nat) (x : PwmGroup) : (s.setGroup n x).pending = s.pending := rfl
@[simp] theorem State.setGroup_straps (n : Nat) (x : PwmGroup) : (s.setGroup n x).straps = s.straps := rfl
@[simp] theorem State.setGroup_power (n : Nat) (x : PwmGroup) : (s.setGroup n x).power = s.power := rfl
@[simp] theorem State.setGroup_regs (n : Nat) (x : PwmGroup) : (s.setGroup n x).regs = s.regs := rfl
@[simp] theorem State.setGroup_mem (n : Nat) (x : PwmGroup) : (s.setGroup n x).mem = s.mem := rfl
@[simp] theorem State.setGroup_now (n : Nat) (x : PwmGroup) : (s.setGroup n x).now = s.now := rfl
@[simp] theorem State.setGroup_tickAt (n : Nat) (x : PwmGroup) : (s.setGroup n x).tickAt = s.tickAt := rfl
@[simp] theorem State.setGroup_tickLeft (n : Nat) (x : PwmGroup) : (s.setGroup n x).tickLeft = s.tickLeft := rfl
@[simp] theorem State.setGroup_tickDue (n : Nat) (x : PwmGroup) : (s.setGroup n x).tickDue = s.tickDue := rfl
@[simp] theorem State.setGroup_drawn (n : Nat) (x : PwmGroup) : (s.setGroup n x).drawn = s.drawn := rfl
@[simp] theorem State.setGroup_accepts (n : Nat) (x : PwmGroup) : (s.setGroup n x).accepts = s.accepts := rfl
@[simp] theorem State.setGroup_newTick (n : Nat) (x : PwmGroup) : (s.setGroup n x).newTick = s.newTick := rfl
@[simp] theorem State.setGroup_setNow (n : Nat) (x : PwmGroup) : (s.setGroup n x).setNow = s.setNow := rfl
@[simp] theorem State.setGroup_gens (n : Nat) (x : PwmGroup) : (s.setGroup n x).gens = s.gens := rfl
@[simp] theorem State.setGroup_ccs (n : Nat) (x : PwmGroup) : (s.setGroup n x).ccs = s.ccs := rfl
@[simp] theorem State.setGroup_chans (n : Nat) (x : PwmGroup) : (s.setGroup n x).chans = s.chans := rfl
@[simp] theorem State.setGroup_windows (n : Nat) (x : PwmGroup) : (s.setGroup n x).windows = s.windows := rfl
@[simp] theorem State.setGroup_filtOld (n : Nat) (x : PwmGroup) : (s.setGroup n x).filtOld = s.filtOld := rfl
@[simp] theorem State.setGroup_streams (n : Nat) (x : PwmGroup) : (s.setGroup n x).streams = s.streams := rfl
@[simp] theorem State.setGroup_hosts (n : Nat) (x : PwmGroup) : (s.setGroup n x).hosts = s.hosts := rfl
@[simp] theorem State.setGroup_swaps (n : Nat) (x : PwmGroup) : (s.setGroup n x).swaps = s.swaps := rfl
@[simp] theorem State.setGroup_engines (n : Nat) (x : PwmGroup) : (s.setGroup n x).engines = s.engines := rfl
@[simp] theorem State.setGroup_ckps (n : Nat) (x : PwmGroup) : (s.setGroup n x).ckps = s.ckps := rfl
@[simp] theorem State.setGroup_prs (n : Nat) (x : PwmGroup) : (s.setGroup n x).prs = s.prs := rfl
@[simp] theorem State.setGroup_decs (n : Nat) (x : PwmGroup) : (s.setGroup n x).decs = s.decs := rfl
@[simp] theorem State.setGroup_hkc (n : Nat) (x : PwmGroup) : (s.setGroup n x).hkc = s.hkc := rfl
@[simp] theorem State.setGroup_fbs (n : Nat) (x : PwmGroup) : (s.setGroup n x).fbs = s.fbs := rfl
@[simp] theorem State.setGroup_lines (n : Nat) (x : PwmGroup) : (s.setGroup n x).lines = s.lines := rfl
@[simp] theorem State.setGroup_capAt (n : Nat) (x : PwmGroup) : (s.setGroup n x).capAt = s.capAt := rfl
@[simp] theorem State.setGroup_pcos (n : Nat) (x : PwmGroup) : (s.setGroup n x).pcos = s.pcos := rfl
@[simp] theorem State.setGroup_coll (n : Nat) (x : PwmGroup) : (s.setGroup n x).coll = s.coll := rfl
@[simp] theorem State.setGroup_log (n : Nat) (x : PwmGroup) : (s.setGroup n x).log = s.log := rfl
@[simp] theorem State.setGroup_flash (n : Nat) (x : PwmGroup) : (s.setGroup n x).flash = s.flash := rfl
@[simp] theorem State.setGroup_otp (n : Nat) (x : PwmGroup) : (s.setGroup n x).otp = s.otp := rfl
@[simp] theorem State.setGroup_bly (n : Nat) (x : PwmGroup) : (s.setGroup n x).bly = s.bly := rfl
@[simp] theorem State.setGroup_safeoff (n : Nat) (x : PwmGroup) : (s.setGroup n x).safeoff = s.safeoff := rfl
@[simp] theorem State.setGroup_pulses (n : Nat) (x : PwmGroup) : (s.setGroup n x).pulses = s.pulses := rfl
@[simp] theorem State.setGroup_csps (n : Nat) (x : PwmGroup) : (s.setGroup n x).csps = s.csps := rfl
@[simp] theorem State.setGroup_eths (n : Nat) (x : PwmGroup) : (s.setGroup n x).eths = s.eths := rfl
@[simp] theorem State.setGroup_gptp (n : Nat) (x : PwmGroup) : (s.setGroup n x).gptp = s.gptp := rfl
@[simp] theorem State.setGroup_sent (n : Nat) (x : PwmGroup) : (s.setGroup n x).sent = s.sent := rfl
@[simp] theorem State.setGroup_dataOut (n : Nat) (x : PwmGroup) : (s.setGroup n x).dataOut = s.dataOut := rfl
@[simp] theorem State.setGroup_imgIdx (n : Nat) (x : PwmGroup) : (s.setGroup n x).imgIdx = s.imgIdx := rfl
@[simp] theorem State.setGroup_hoCmd (n : Nat) (x : PwmGroup) : (s.setGroup n x).hoCmd = s.hoCmd := rfl
@[simp] theorem State.setGroup_hoAt (n : Nat) (x : PwmGroup) : (s.setGroup n x).hoAt = s.hoAt := rfl
@[simp] theorem State.setGroup_hoDead (n : Nat) (x : PwmGroup) : (s.setGroup n x).hoDead = s.hoDead := rfl
@[simp] theorem State.setGroup_rstReq (n : Nat) (x : PwmGroup) : (s.setGroup n x).rstReq = s.rstReq := rfl
@[simp] theorem State.setGroup_biv (n : Nat) (x : PwmGroup) : (s.setGroup n x).biv = s.biv := rfl
@[simp] theorem State.setGroup_panel (n : Nat) (x : PwmGroup) : (s.setGroup n x).panel = s.panel := rfl
@[simp] theorem State.setGroup_portsOff (n : Nat) (x : PwmGroup) : (s.setGroup n x).portsOff = s.portsOff := rfl

/-! ### setWindow -/

@[simp] theorem State.setWindow_pending (n : Nat) (x : Window) : (s.setWindow n x).pending = s.pending := rfl
@[simp] theorem State.setWindow_straps (n : Nat) (x : Window) : (s.setWindow n x).straps = s.straps := rfl
@[simp] theorem State.setWindow_power (n : Nat) (x : Window) : (s.setWindow n x).power = s.power := rfl
@[simp] theorem State.setWindow_regs (n : Nat) (x : Window) : (s.setWindow n x).regs = s.regs := rfl
@[simp] theorem State.setWindow_mem (n : Nat) (x : Window) : (s.setWindow n x).mem = s.mem := rfl
@[simp] theorem State.setWindow_now (n : Nat) (x : Window) : (s.setWindow n x).now = s.now := rfl
@[simp] theorem State.setWindow_tickAt (n : Nat) (x : Window) : (s.setWindow n x).tickAt = s.tickAt := rfl
@[simp] theorem State.setWindow_tickLeft (n : Nat) (x : Window) : (s.setWindow n x).tickLeft = s.tickLeft := rfl
@[simp] theorem State.setWindow_tickDue (n : Nat) (x : Window) : (s.setWindow n x).tickDue = s.tickDue := rfl
@[simp] theorem State.setWindow_drawn (n : Nat) (x : Window) : (s.setWindow n x).drawn = s.drawn := rfl
@[simp] theorem State.setWindow_accepts (n : Nat) (x : Window) : (s.setWindow n x).accepts = s.accepts := rfl
@[simp] theorem State.setWindow_newTick (n : Nat) (x : Window) : (s.setWindow n x).newTick = s.newTick := rfl
@[simp] theorem State.setWindow_setNow (n : Nat) (x : Window) : (s.setWindow n x).setNow = s.setNow := rfl
@[simp] theorem State.setWindow_gens (n : Nat) (x : Window) : (s.setWindow n x).gens = s.gens := rfl
@[simp] theorem State.setWindow_ccs (n : Nat) (x : Window) : (s.setWindow n x).ccs = s.ccs := rfl
@[simp] theorem State.setWindow_chans (n : Nat) (x : Window) : (s.setWindow n x).chans = s.chans := rfl
@[simp] theorem State.setWindow_groups (n : Nat) (x : Window) : (s.setWindow n x).groups = s.groups := rfl
@[simp] theorem State.setWindow_filtOld (n : Nat) (x : Window) : (s.setWindow n x).filtOld = s.filtOld := rfl
@[simp] theorem State.setWindow_streams (n : Nat) (x : Window) : (s.setWindow n x).streams = s.streams := rfl
@[simp] theorem State.setWindow_hosts (n : Nat) (x : Window) : (s.setWindow n x).hosts = s.hosts := rfl
@[simp] theorem State.setWindow_swaps (n : Nat) (x : Window) : (s.setWindow n x).swaps = s.swaps := rfl
@[simp] theorem State.setWindow_engines (n : Nat) (x : Window) : (s.setWindow n x).engines = s.engines := rfl
@[simp] theorem State.setWindow_ckps (n : Nat) (x : Window) : (s.setWindow n x).ckps = s.ckps := rfl
@[simp] theorem State.setWindow_prs (n : Nat) (x : Window) : (s.setWindow n x).prs = s.prs := rfl
@[simp] theorem State.setWindow_decs (n : Nat) (x : Window) : (s.setWindow n x).decs = s.decs := rfl
@[simp] theorem State.setWindow_hkc (n : Nat) (x : Window) : (s.setWindow n x).hkc = s.hkc := rfl
@[simp] theorem State.setWindow_fbs (n : Nat) (x : Window) : (s.setWindow n x).fbs = s.fbs := rfl
@[simp] theorem State.setWindow_lines (n : Nat) (x : Window) : (s.setWindow n x).lines = s.lines := rfl
@[simp] theorem State.setWindow_capAt (n : Nat) (x : Window) : (s.setWindow n x).capAt = s.capAt := rfl
@[simp] theorem State.setWindow_pcos (n : Nat) (x : Window) : (s.setWindow n x).pcos = s.pcos := rfl
@[simp] theorem State.setWindow_coll (n : Nat) (x : Window) : (s.setWindow n x).coll = s.coll := rfl
@[simp] theorem State.setWindow_log (n : Nat) (x : Window) : (s.setWindow n x).log = s.log := rfl
@[simp] theorem State.setWindow_flash (n : Nat) (x : Window) : (s.setWindow n x).flash = s.flash := rfl
@[simp] theorem State.setWindow_otp (n : Nat) (x : Window) : (s.setWindow n x).otp = s.otp := rfl
@[simp] theorem State.setWindow_bly (n : Nat) (x : Window) : (s.setWindow n x).bly = s.bly := rfl
@[simp] theorem State.setWindow_safeoff (n : Nat) (x : Window) : (s.setWindow n x).safeoff = s.safeoff := rfl
@[simp] theorem State.setWindow_pulses (n : Nat) (x : Window) : (s.setWindow n x).pulses = s.pulses := rfl
@[simp] theorem State.setWindow_csps (n : Nat) (x : Window) : (s.setWindow n x).csps = s.csps := rfl
@[simp] theorem State.setWindow_eths (n : Nat) (x : Window) : (s.setWindow n x).eths = s.eths := rfl
@[simp] theorem State.setWindow_gptp (n : Nat) (x : Window) : (s.setWindow n x).gptp = s.gptp := rfl
@[simp] theorem State.setWindow_sent (n : Nat) (x : Window) : (s.setWindow n x).sent = s.sent := rfl
@[simp] theorem State.setWindow_dataOut (n : Nat) (x : Window) : (s.setWindow n x).dataOut = s.dataOut := rfl
@[simp] theorem State.setWindow_imgIdx (n : Nat) (x : Window) : (s.setWindow n x).imgIdx = s.imgIdx := rfl
@[simp] theorem State.setWindow_hoCmd (n : Nat) (x : Window) : (s.setWindow n x).hoCmd = s.hoCmd := rfl
@[simp] theorem State.setWindow_hoAt (n : Nat) (x : Window) : (s.setWindow n x).hoAt = s.hoAt := rfl
@[simp] theorem State.setWindow_hoDead (n : Nat) (x : Window) : (s.setWindow n x).hoDead = s.hoDead := rfl
@[simp] theorem State.setWindow_rstReq (n : Nat) (x : Window) : (s.setWindow n x).rstReq = s.rstReq := rfl
@[simp] theorem State.setWindow_biv (n : Nat) (x : Window) : (s.setWindow n x).biv = s.biv := rfl
@[simp] theorem State.setWindow_panel (n : Nat) (x : Window) : (s.setWindow n x).panel = s.panel := rfl
@[simp] theorem State.setWindow_portsOff (n : Nat) (x : Window) : (s.setWindow n x).portsOff = s.portsOff := rfl

/-! ### setStream -/

@[simp] theorem State.setStream_pending (n : Nat) (x : Stream) : (s.setStream n x).pending = s.pending := rfl
@[simp] theorem State.setStream_straps (n : Nat) (x : Stream) : (s.setStream n x).straps = s.straps := rfl
@[simp] theorem State.setStream_power (n : Nat) (x : Stream) : (s.setStream n x).power = s.power := rfl
@[simp] theorem State.setStream_regs (n : Nat) (x : Stream) : (s.setStream n x).regs = s.regs := rfl
@[simp] theorem State.setStream_mem (n : Nat) (x : Stream) : (s.setStream n x).mem = s.mem := rfl
@[simp] theorem State.setStream_now (n : Nat) (x : Stream) : (s.setStream n x).now = s.now := rfl
@[simp] theorem State.setStream_tickAt (n : Nat) (x : Stream) : (s.setStream n x).tickAt = s.tickAt := rfl
@[simp] theorem State.setStream_tickLeft (n : Nat) (x : Stream) : (s.setStream n x).tickLeft = s.tickLeft := rfl
@[simp] theorem State.setStream_tickDue (n : Nat) (x : Stream) : (s.setStream n x).tickDue = s.tickDue := rfl
@[simp] theorem State.setStream_drawn (n : Nat) (x : Stream) : (s.setStream n x).drawn = s.drawn := rfl
@[simp] theorem State.setStream_accepts (n : Nat) (x : Stream) : (s.setStream n x).accepts = s.accepts := rfl
@[simp] theorem State.setStream_newTick (n : Nat) (x : Stream) : (s.setStream n x).newTick = s.newTick := rfl
@[simp] theorem State.setStream_setNow (n : Nat) (x : Stream) : (s.setStream n x).setNow = s.setNow := rfl
@[simp] theorem State.setStream_gens (n : Nat) (x : Stream) : (s.setStream n x).gens = s.gens := rfl
@[simp] theorem State.setStream_ccs (n : Nat) (x : Stream) : (s.setStream n x).ccs = s.ccs := rfl
@[simp] theorem State.setStream_chans (n : Nat) (x : Stream) : (s.setStream n x).chans = s.chans := rfl
@[simp] theorem State.setStream_groups (n : Nat) (x : Stream) : (s.setStream n x).groups = s.groups := rfl
@[simp] theorem State.setStream_windows (n : Nat) (x : Stream) : (s.setStream n x).windows = s.windows := rfl
@[simp] theorem State.setStream_filtOld (n : Nat) (x : Stream) : (s.setStream n x).filtOld = s.filtOld := rfl
@[simp] theorem State.setStream_hosts (n : Nat) (x : Stream) : (s.setStream n x).hosts = s.hosts := rfl
@[simp] theorem State.setStream_swaps (n : Nat) (x : Stream) : (s.setStream n x).swaps = s.swaps := rfl
@[simp] theorem State.setStream_engines (n : Nat) (x : Stream) : (s.setStream n x).engines = s.engines := rfl
@[simp] theorem State.setStream_ckps (n : Nat) (x : Stream) : (s.setStream n x).ckps = s.ckps := rfl
@[simp] theorem State.setStream_prs (n : Nat) (x : Stream) : (s.setStream n x).prs = s.prs := rfl
@[simp] theorem State.setStream_decs (n : Nat) (x : Stream) : (s.setStream n x).decs = s.decs := rfl
@[simp] theorem State.setStream_hkc (n : Nat) (x : Stream) : (s.setStream n x).hkc = s.hkc := rfl
@[simp] theorem State.setStream_fbs (n : Nat) (x : Stream) : (s.setStream n x).fbs = s.fbs := rfl
@[simp] theorem State.setStream_lines (n : Nat) (x : Stream) : (s.setStream n x).lines = s.lines := rfl
@[simp] theorem State.setStream_capAt (n : Nat) (x : Stream) : (s.setStream n x).capAt = s.capAt := rfl
@[simp] theorem State.setStream_pcos (n : Nat) (x : Stream) : (s.setStream n x).pcos = s.pcos := rfl
@[simp] theorem State.setStream_coll (n : Nat) (x : Stream) : (s.setStream n x).coll = s.coll := rfl
@[simp] theorem State.setStream_log (n : Nat) (x : Stream) : (s.setStream n x).log = s.log := rfl
@[simp] theorem State.setStream_flash (n : Nat) (x : Stream) : (s.setStream n x).flash = s.flash := rfl
@[simp] theorem State.setStream_otp (n : Nat) (x : Stream) : (s.setStream n x).otp = s.otp := rfl
@[simp] theorem State.setStream_bly (n : Nat) (x : Stream) : (s.setStream n x).bly = s.bly := rfl
@[simp] theorem State.setStream_safeoff (n : Nat) (x : Stream) : (s.setStream n x).safeoff = s.safeoff := rfl
@[simp] theorem State.setStream_pulses (n : Nat) (x : Stream) : (s.setStream n x).pulses = s.pulses := rfl
@[simp] theorem State.setStream_csps (n : Nat) (x : Stream) : (s.setStream n x).csps = s.csps := rfl
@[simp] theorem State.setStream_eths (n : Nat) (x : Stream) : (s.setStream n x).eths = s.eths := rfl
@[simp] theorem State.setStream_gptp (n : Nat) (x : Stream) : (s.setStream n x).gptp = s.gptp := rfl
@[simp] theorem State.setStream_sent (n : Nat) (x : Stream) : (s.setStream n x).sent = s.sent := rfl
@[simp] theorem State.setStream_dataOut (n : Nat) (x : Stream) : (s.setStream n x).dataOut = s.dataOut := rfl
@[simp] theorem State.setStream_imgIdx (n : Nat) (x : Stream) : (s.setStream n x).imgIdx = s.imgIdx := rfl
@[simp] theorem State.setStream_hoCmd (n : Nat) (x : Stream) : (s.setStream n x).hoCmd = s.hoCmd := rfl
@[simp] theorem State.setStream_hoAt (n : Nat) (x : Stream) : (s.setStream n x).hoAt = s.hoAt := rfl
@[simp] theorem State.setStream_hoDead (n : Nat) (x : Stream) : (s.setStream n x).hoDead = s.hoDead := rfl
@[simp] theorem State.setStream_rstReq (n : Nat) (x : Stream) : (s.setStream n x).rstReq = s.rstReq := rfl
@[simp] theorem State.setStream_biv (n : Nat) (x : Stream) : (s.setStream n x).biv = s.biv := rfl
@[simp] theorem State.setStream_panel (n : Nat) (x : Stream) : (s.setStream n x).panel = s.panel := rfl
@[simp] theorem State.setStream_portsOff (n : Nat) (x : Stream) : (s.setStream n x).portsOff = s.portsOff := rfl

/-! ### setHost -/

@[simp] theorem State.setHost_pending (n : Nat) (x : HostSt) : (s.setHost n x).pending = s.pending := rfl
@[simp] theorem State.setHost_straps (n : Nat) (x : HostSt) : (s.setHost n x).straps = s.straps := rfl
@[simp] theorem State.setHost_power (n : Nat) (x : HostSt) : (s.setHost n x).power = s.power := rfl
@[simp] theorem State.setHost_regs (n : Nat) (x : HostSt) : (s.setHost n x).regs = s.regs := rfl
@[simp] theorem State.setHost_mem (n : Nat) (x : HostSt) : (s.setHost n x).mem = s.mem := rfl
@[simp] theorem State.setHost_now (n : Nat) (x : HostSt) : (s.setHost n x).now = s.now := rfl
@[simp] theorem State.setHost_tickAt (n : Nat) (x : HostSt) : (s.setHost n x).tickAt = s.tickAt := rfl
@[simp] theorem State.setHost_tickLeft (n : Nat) (x : HostSt) : (s.setHost n x).tickLeft = s.tickLeft := rfl
@[simp] theorem State.setHost_tickDue (n : Nat) (x : HostSt) : (s.setHost n x).tickDue = s.tickDue := rfl
@[simp] theorem State.setHost_drawn (n : Nat) (x : HostSt) : (s.setHost n x).drawn = s.drawn := rfl
@[simp] theorem State.setHost_accepts (n : Nat) (x : HostSt) : (s.setHost n x).accepts = s.accepts := rfl
@[simp] theorem State.setHost_newTick (n : Nat) (x : HostSt) : (s.setHost n x).newTick = s.newTick := rfl
@[simp] theorem State.setHost_setNow (n : Nat) (x : HostSt) : (s.setHost n x).setNow = s.setNow := rfl
@[simp] theorem State.setHost_gens (n : Nat) (x : HostSt) : (s.setHost n x).gens = s.gens := rfl
@[simp] theorem State.setHost_ccs (n : Nat) (x : HostSt) : (s.setHost n x).ccs = s.ccs := rfl
@[simp] theorem State.setHost_chans (n : Nat) (x : HostSt) : (s.setHost n x).chans = s.chans := rfl
@[simp] theorem State.setHost_groups (n : Nat) (x : HostSt) : (s.setHost n x).groups = s.groups := rfl
@[simp] theorem State.setHost_windows (n : Nat) (x : HostSt) : (s.setHost n x).windows = s.windows := rfl
@[simp] theorem State.setHost_filtOld (n : Nat) (x : HostSt) : (s.setHost n x).filtOld = s.filtOld := rfl
@[simp] theorem State.setHost_streams (n : Nat) (x : HostSt) : (s.setHost n x).streams = s.streams := rfl
@[simp] theorem State.setHost_swaps (n : Nat) (x : HostSt) : (s.setHost n x).swaps = s.swaps := rfl
@[simp] theorem State.setHost_engines (n : Nat) (x : HostSt) : (s.setHost n x).engines = s.engines := rfl
@[simp] theorem State.setHost_ckps (n : Nat) (x : HostSt) : (s.setHost n x).ckps = s.ckps := rfl
@[simp] theorem State.setHost_prs (n : Nat) (x : HostSt) : (s.setHost n x).prs = s.prs := rfl
@[simp] theorem State.setHost_decs (n : Nat) (x : HostSt) : (s.setHost n x).decs = s.decs := rfl
@[simp] theorem State.setHost_hkc (n : Nat) (x : HostSt) : (s.setHost n x).hkc = s.hkc := rfl
@[simp] theorem State.setHost_fbs (n : Nat) (x : HostSt) : (s.setHost n x).fbs = s.fbs := rfl
@[simp] theorem State.setHost_lines (n : Nat) (x : HostSt) : (s.setHost n x).lines = s.lines := rfl
@[simp] theorem State.setHost_capAt (n : Nat) (x : HostSt) : (s.setHost n x).capAt = s.capAt := rfl
@[simp] theorem State.setHost_pcos (n : Nat) (x : HostSt) : (s.setHost n x).pcos = s.pcos := rfl
@[simp] theorem State.setHost_coll (n : Nat) (x : HostSt) : (s.setHost n x).coll = s.coll := rfl
@[simp] theorem State.setHost_log (n : Nat) (x : HostSt) : (s.setHost n x).log = s.log := rfl
@[simp] theorem State.setHost_flash (n : Nat) (x : HostSt) : (s.setHost n x).flash = s.flash := rfl
@[simp] theorem State.setHost_otp (n : Nat) (x : HostSt) : (s.setHost n x).otp = s.otp := rfl
@[simp] theorem State.setHost_bly (n : Nat) (x : HostSt) : (s.setHost n x).bly = s.bly := rfl
@[simp] theorem State.setHost_safeoff (n : Nat) (x : HostSt) : (s.setHost n x).safeoff = s.safeoff := rfl
@[simp] theorem State.setHost_pulses (n : Nat) (x : HostSt) : (s.setHost n x).pulses = s.pulses := rfl
@[simp] theorem State.setHost_csps (n : Nat) (x : HostSt) : (s.setHost n x).csps = s.csps := rfl
@[simp] theorem State.setHost_eths (n : Nat) (x : HostSt) : (s.setHost n x).eths = s.eths := rfl
@[simp] theorem State.setHost_gptp (n : Nat) (x : HostSt) : (s.setHost n x).gptp = s.gptp := rfl
@[simp] theorem State.setHost_sent (n : Nat) (x : HostSt) : (s.setHost n x).sent = s.sent := rfl
@[simp] theorem State.setHost_dataOut (n : Nat) (x : HostSt) : (s.setHost n x).dataOut = s.dataOut := rfl
@[simp] theorem State.setHost_imgIdx (n : Nat) (x : HostSt) : (s.setHost n x).imgIdx = s.imgIdx := rfl
@[simp] theorem State.setHost_hoCmd (n : Nat) (x : HostSt) : (s.setHost n x).hoCmd = s.hoCmd := rfl
@[simp] theorem State.setHost_hoAt (n : Nat) (x : HostSt) : (s.setHost n x).hoAt = s.hoAt := rfl
@[simp] theorem State.setHost_hoDead (n : Nat) (x : HostSt) : (s.setHost n x).hoDead = s.hoDead := rfl
@[simp] theorem State.setHost_rstReq (n : Nat) (x : HostSt) : (s.setHost n x).rstReq = s.rstReq := rfl
@[simp] theorem State.setHost_biv (n : Nat) (x : HostSt) : (s.setHost n x).biv = s.biv := rfl
@[simp] theorem State.setHost_panel (n : Nat) (x : HostSt) : (s.setHost n x).panel = s.panel := rfl
@[simp] theorem State.setHost_portsOff (n : Nat) (x : HostSt) : (s.setHost n x).portsOff = s.portsOff := rfl

/-! ### setSwap -/

@[simp] theorem State.setSwap_pending (n : Nat) (x : Swap) : (s.setSwap n x).pending = s.pending := rfl
@[simp] theorem State.setSwap_straps (n : Nat) (x : Swap) : (s.setSwap n x).straps = s.straps := rfl
@[simp] theorem State.setSwap_power (n : Nat) (x : Swap) : (s.setSwap n x).power = s.power := rfl
@[simp] theorem State.setSwap_regs (n : Nat) (x : Swap) : (s.setSwap n x).regs = s.regs := rfl
@[simp] theorem State.setSwap_mem (n : Nat) (x : Swap) : (s.setSwap n x).mem = s.mem := rfl
@[simp] theorem State.setSwap_now (n : Nat) (x : Swap) : (s.setSwap n x).now = s.now := rfl
@[simp] theorem State.setSwap_tickAt (n : Nat) (x : Swap) : (s.setSwap n x).tickAt = s.tickAt := rfl
@[simp] theorem State.setSwap_tickLeft (n : Nat) (x : Swap) : (s.setSwap n x).tickLeft = s.tickLeft := rfl
@[simp] theorem State.setSwap_tickDue (n : Nat) (x : Swap) : (s.setSwap n x).tickDue = s.tickDue := rfl
@[simp] theorem State.setSwap_drawn (n : Nat) (x : Swap) : (s.setSwap n x).drawn = s.drawn := rfl
@[simp] theorem State.setSwap_accepts (n : Nat) (x : Swap) : (s.setSwap n x).accepts = s.accepts := rfl
@[simp] theorem State.setSwap_newTick (n : Nat) (x : Swap) : (s.setSwap n x).newTick = s.newTick := rfl
@[simp] theorem State.setSwap_setNow (n : Nat) (x : Swap) : (s.setSwap n x).setNow = s.setNow := rfl
@[simp] theorem State.setSwap_gens (n : Nat) (x : Swap) : (s.setSwap n x).gens = s.gens := rfl
@[simp] theorem State.setSwap_ccs (n : Nat) (x : Swap) : (s.setSwap n x).ccs = s.ccs := rfl
@[simp] theorem State.setSwap_chans (n : Nat) (x : Swap) : (s.setSwap n x).chans = s.chans := rfl
@[simp] theorem State.setSwap_groups (n : Nat) (x : Swap) : (s.setSwap n x).groups = s.groups := rfl
@[simp] theorem State.setSwap_windows (n : Nat) (x : Swap) : (s.setSwap n x).windows = s.windows := rfl
@[simp] theorem State.setSwap_filtOld (n : Nat) (x : Swap) : (s.setSwap n x).filtOld = s.filtOld := rfl
@[simp] theorem State.setSwap_streams (n : Nat) (x : Swap) : (s.setSwap n x).streams = s.streams := rfl
@[simp] theorem State.setSwap_hosts (n : Nat) (x : Swap) : (s.setSwap n x).hosts = s.hosts := rfl
@[simp] theorem State.setSwap_engines (n : Nat) (x : Swap) : (s.setSwap n x).engines = s.engines := rfl
@[simp] theorem State.setSwap_ckps (n : Nat) (x : Swap) : (s.setSwap n x).ckps = s.ckps := rfl
@[simp] theorem State.setSwap_prs (n : Nat) (x : Swap) : (s.setSwap n x).prs = s.prs := rfl
@[simp] theorem State.setSwap_decs (n : Nat) (x : Swap) : (s.setSwap n x).decs = s.decs := rfl
@[simp] theorem State.setSwap_hkc (n : Nat) (x : Swap) : (s.setSwap n x).hkc = s.hkc := rfl
@[simp] theorem State.setSwap_fbs (n : Nat) (x : Swap) : (s.setSwap n x).fbs = s.fbs := rfl
@[simp] theorem State.setSwap_lines (n : Nat) (x : Swap) : (s.setSwap n x).lines = s.lines := rfl
@[simp] theorem State.setSwap_capAt (n : Nat) (x : Swap) : (s.setSwap n x).capAt = s.capAt := rfl
@[simp] theorem State.setSwap_pcos (n : Nat) (x : Swap) : (s.setSwap n x).pcos = s.pcos := rfl
@[simp] theorem State.setSwap_coll (n : Nat) (x : Swap) : (s.setSwap n x).coll = s.coll := rfl
@[simp] theorem State.setSwap_log (n : Nat) (x : Swap) : (s.setSwap n x).log = s.log := rfl
@[simp] theorem State.setSwap_flash (n : Nat) (x : Swap) : (s.setSwap n x).flash = s.flash := rfl
@[simp] theorem State.setSwap_otp (n : Nat) (x : Swap) : (s.setSwap n x).otp = s.otp := rfl
@[simp] theorem State.setSwap_bly (n : Nat) (x : Swap) : (s.setSwap n x).bly = s.bly := rfl
@[simp] theorem State.setSwap_safeoff (n : Nat) (x : Swap) : (s.setSwap n x).safeoff = s.safeoff := rfl
@[simp] theorem State.setSwap_pulses (n : Nat) (x : Swap) : (s.setSwap n x).pulses = s.pulses := rfl
@[simp] theorem State.setSwap_csps (n : Nat) (x : Swap) : (s.setSwap n x).csps = s.csps := rfl
@[simp] theorem State.setSwap_eths (n : Nat) (x : Swap) : (s.setSwap n x).eths = s.eths := rfl
@[simp] theorem State.setSwap_gptp (n : Nat) (x : Swap) : (s.setSwap n x).gptp = s.gptp := rfl
@[simp] theorem State.setSwap_sent (n : Nat) (x : Swap) : (s.setSwap n x).sent = s.sent := rfl
@[simp] theorem State.setSwap_dataOut (n : Nat) (x : Swap) : (s.setSwap n x).dataOut = s.dataOut := rfl
@[simp] theorem State.setSwap_imgIdx (n : Nat) (x : Swap) : (s.setSwap n x).imgIdx = s.imgIdx := rfl
@[simp] theorem State.setSwap_hoCmd (n : Nat) (x : Swap) : (s.setSwap n x).hoCmd = s.hoCmd := rfl
@[simp] theorem State.setSwap_hoAt (n : Nat) (x : Swap) : (s.setSwap n x).hoAt = s.hoAt := rfl
@[simp] theorem State.setSwap_hoDead (n : Nat) (x : Swap) : (s.setSwap n x).hoDead = s.hoDead := rfl
@[simp] theorem State.setSwap_rstReq (n : Nat) (x : Swap) : (s.setSwap n x).rstReq = s.rstReq := rfl
@[simp] theorem State.setSwap_biv (n : Nat) (x : Swap) : (s.setSwap n x).biv = s.biv := rfl
@[simp] theorem State.setSwap_panel (n : Nat) (x : Swap) : (s.setSwap n x).panel = s.panel := rfl
@[simp] theorem State.setSwap_portsOff (n : Nat) (x : Swap) : (s.setSwap n x).portsOff = s.portsOff := rfl

/-! ### setEngine -/

@[simp] theorem State.setEngine_pending (n : Nat) (x : Engine) : (s.setEngine n x).pending = s.pending := rfl
@[simp] theorem State.setEngine_straps (n : Nat) (x : Engine) : (s.setEngine n x).straps = s.straps := rfl
@[simp] theorem State.setEngine_power (n : Nat) (x : Engine) : (s.setEngine n x).power = s.power := rfl
@[simp] theorem State.setEngine_regs (n : Nat) (x : Engine) : (s.setEngine n x).regs = s.regs := rfl
@[simp] theorem State.setEngine_mem (n : Nat) (x : Engine) : (s.setEngine n x).mem = s.mem := rfl
@[simp] theorem State.setEngine_now (n : Nat) (x : Engine) : (s.setEngine n x).now = s.now := rfl
@[simp] theorem State.setEngine_tickAt (n : Nat) (x : Engine) : (s.setEngine n x).tickAt = s.tickAt := rfl
@[simp] theorem State.setEngine_tickLeft (n : Nat) (x : Engine) : (s.setEngine n x).tickLeft = s.tickLeft := rfl
@[simp] theorem State.setEngine_tickDue (n : Nat) (x : Engine) : (s.setEngine n x).tickDue = s.tickDue := rfl
@[simp] theorem State.setEngine_drawn (n : Nat) (x : Engine) : (s.setEngine n x).drawn = s.drawn := rfl
@[simp] theorem State.setEngine_accepts (n : Nat) (x : Engine) : (s.setEngine n x).accepts = s.accepts := rfl
@[simp] theorem State.setEngine_newTick (n : Nat) (x : Engine) : (s.setEngine n x).newTick = s.newTick := rfl
@[simp] theorem State.setEngine_setNow (n : Nat) (x : Engine) : (s.setEngine n x).setNow = s.setNow := rfl
@[simp] theorem State.setEngine_gens (n : Nat) (x : Engine) : (s.setEngine n x).gens = s.gens := rfl
@[simp] theorem State.setEngine_ccs (n : Nat) (x : Engine) : (s.setEngine n x).ccs = s.ccs := rfl
@[simp] theorem State.setEngine_chans (n : Nat) (x : Engine) : (s.setEngine n x).chans = s.chans := rfl
@[simp] theorem State.setEngine_groups (n : Nat) (x : Engine) : (s.setEngine n x).groups = s.groups := rfl
@[simp] theorem State.setEngine_windows (n : Nat) (x : Engine) : (s.setEngine n x).windows = s.windows := rfl
@[simp] theorem State.setEngine_filtOld (n : Nat) (x : Engine) : (s.setEngine n x).filtOld = s.filtOld := rfl
@[simp] theorem State.setEngine_streams (n : Nat) (x : Engine) : (s.setEngine n x).streams = s.streams := rfl
@[simp] theorem State.setEngine_hosts (n : Nat) (x : Engine) : (s.setEngine n x).hosts = s.hosts := rfl
@[simp] theorem State.setEngine_swaps (n : Nat) (x : Engine) : (s.setEngine n x).swaps = s.swaps := rfl
@[simp] theorem State.setEngine_ckps (n : Nat) (x : Engine) : (s.setEngine n x).ckps = s.ckps := rfl
@[simp] theorem State.setEngine_prs (n : Nat) (x : Engine) : (s.setEngine n x).prs = s.prs := rfl
@[simp] theorem State.setEngine_decs (n : Nat) (x : Engine) : (s.setEngine n x).decs = s.decs := rfl
@[simp] theorem State.setEngine_hkc (n : Nat) (x : Engine) : (s.setEngine n x).hkc = s.hkc := rfl
@[simp] theorem State.setEngine_fbs (n : Nat) (x : Engine) : (s.setEngine n x).fbs = s.fbs := rfl
@[simp] theorem State.setEngine_lines (n : Nat) (x : Engine) : (s.setEngine n x).lines = s.lines := rfl
@[simp] theorem State.setEngine_capAt (n : Nat) (x : Engine) : (s.setEngine n x).capAt = s.capAt := rfl
@[simp] theorem State.setEngine_pcos (n : Nat) (x : Engine) : (s.setEngine n x).pcos = s.pcos := rfl
@[simp] theorem State.setEngine_coll (n : Nat) (x : Engine) : (s.setEngine n x).coll = s.coll := rfl
@[simp] theorem State.setEngine_log (n : Nat) (x : Engine) : (s.setEngine n x).log = s.log := rfl
@[simp] theorem State.setEngine_flash (n : Nat) (x : Engine) : (s.setEngine n x).flash = s.flash := rfl
@[simp] theorem State.setEngine_otp (n : Nat) (x : Engine) : (s.setEngine n x).otp = s.otp := rfl
@[simp] theorem State.setEngine_bly (n : Nat) (x : Engine) : (s.setEngine n x).bly = s.bly := rfl
@[simp] theorem State.setEngine_safeoff (n : Nat) (x : Engine) : (s.setEngine n x).safeoff = s.safeoff := rfl
@[simp] theorem State.setEngine_pulses (n : Nat) (x : Engine) : (s.setEngine n x).pulses = s.pulses := rfl
@[simp] theorem State.setEngine_csps (n : Nat) (x : Engine) : (s.setEngine n x).csps = s.csps := rfl
@[simp] theorem State.setEngine_eths (n : Nat) (x : Engine) : (s.setEngine n x).eths = s.eths := rfl
@[simp] theorem State.setEngine_gptp (n : Nat) (x : Engine) : (s.setEngine n x).gptp = s.gptp := rfl
@[simp] theorem State.setEngine_sent (n : Nat) (x : Engine) : (s.setEngine n x).sent = s.sent := rfl
@[simp] theorem State.setEngine_dataOut (n : Nat) (x : Engine) : (s.setEngine n x).dataOut = s.dataOut := rfl
@[simp] theorem State.setEngine_imgIdx (n : Nat) (x : Engine) : (s.setEngine n x).imgIdx = s.imgIdx := rfl
@[simp] theorem State.setEngine_hoCmd (n : Nat) (x : Engine) : (s.setEngine n x).hoCmd = s.hoCmd := rfl
@[simp] theorem State.setEngine_hoAt (n : Nat) (x : Engine) : (s.setEngine n x).hoAt = s.hoAt := rfl
@[simp] theorem State.setEngine_hoDead (n : Nat) (x : Engine) : (s.setEngine n x).hoDead = s.hoDead := rfl
@[simp] theorem State.setEngine_rstReq (n : Nat) (x : Engine) : (s.setEngine n x).rstReq = s.rstReq := rfl
@[simp] theorem State.setEngine_biv (n : Nat) (x : Engine) : (s.setEngine n x).biv = s.biv := rfl
@[simp] theorem State.setEngine_panel (n : Nat) (x : Engine) : (s.setEngine n x).panel = s.panel := rfl
@[simp] theorem State.setEngine_portsOff (n : Nat) (x : Engine) : (s.setEngine n x).portsOff = s.portsOff := rfl

/-! ### setPr -/

@[simp] theorem State.setPr_pending (n : Nat) (x : Prusik) : (s.setPr n x).pending = s.pending := rfl
@[simp] theorem State.setPr_straps (n : Nat) (x : Prusik) : (s.setPr n x).straps = s.straps := rfl
@[simp] theorem State.setPr_power (n : Nat) (x : Prusik) : (s.setPr n x).power = s.power := rfl
@[simp] theorem State.setPr_regs (n : Nat) (x : Prusik) : (s.setPr n x).regs = s.regs := rfl
@[simp] theorem State.setPr_mem (n : Nat) (x : Prusik) : (s.setPr n x).mem = s.mem := rfl
@[simp] theorem State.setPr_now (n : Nat) (x : Prusik) : (s.setPr n x).now = s.now := rfl
@[simp] theorem State.setPr_tickAt (n : Nat) (x : Prusik) : (s.setPr n x).tickAt = s.tickAt := rfl
@[simp] theorem State.setPr_tickLeft (n : Nat) (x : Prusik) : (s.setPr n x).tickLeft = s.tickLeft := rfl
@[simp] theorem State.setPr_tickDue (n : Nat) (x : Prusik) : (s.setPr n x).tickDue = s.tickDue := rfl
@[simp] theorem State.setPr_drawn (n : Nat) (x : Prusik) : (s.setPr n x).drawn = s.drawn := rfl
@[simp] theorem State.setPr_accepts (n : Nat) (x : Prusik) : (s.setPr n x).accepts = s.accepts := rfl
@[simp] theorem State.setPr_newTick (n : Nat) (x : Prusik) : (s.setPr n x).newTick = s.newTick := rfl
@[simp] theorem State.setPr_setNow (n : Nat) (x : Prusik) : (s.setPr n x).setNow = s.setNow := rfl
@[simp] theorem State.setPr_gens (n : Nat) (x : Prusik) : (s.setPr n x).gens = s.gens := rfl
@[simp] theorem State.setPr_ccs (n : Nat) (x : Prusik) : (s.setPr n x).ccs = s.ccs := rfl
@[simp] theorem State.setPr_chans (n : Nat) (x : Prusik) : (s.setPr n x).chans = s.chans := rfl
@[simp] theorem State.setPr_groups (n : Nat) (x : Prusik) : (s.setPr n x).groups = s.groups := rfl
@[simp] theorem State.setPr_windows (n : Nat) (x : Prusik) : (s.setPr n x).windows = s.windows := rfl
@[simp] theorem State.setPr_filtOld (n : Nat) (x : Prusik) : (s.setPr n x).filtOld = s.filtOld := rfl
@[simp] theorem State.setPr_streams (n : Nat) (x : Prusik) : (s.setPr n x).streams = s.streams := rfl
@[simp] theorem State.setPr_hosts (n : Nat) (x : Prusik) : (s.setPr n x).hosts = s.hosts := rfl
@[simp] theorem State.setPr_swaps (n : Nat) (x : Prusik) : (s.setPr n x).swaps = s.swaps := rfl
@[simp] theorem State.setPr_engines (n : Nat) (x : Prusik) : (s.setPr n x).engines = s.engines := rfl
@[simp] theorem State.setPr_ckps (n : Nat) (x : Prusik) : (s.setPr n x).ckps = s.ckps := rfl
@[simp] theorem State.setPr_decs (n : Nat) (x : Prusik) : (s.setPr n x).decs = s.decs := rfl
@[simp] theorem State.setPr_hkc (n : Nat) (x : Prusik) : (s.setPr n x).hkc = s.hkc := rfl
@[simp] theorem State.setPr_fbs (n : Nat) (x : Prusik) : (s.setPr n x).fbs = s.fbs := rfl
@[simp] theorem State.setPr_lines (n : Nat) (x : Prusik) : (s.setPr n x).lines = s.lines := rfl
@[simp] theorem State.setPr_capAt (n : Nat) (x : Prusik) : (s.setPr n x).capAt = s.capAt := rfl
@[simp] theorem State.setPr_pcos (n : Nat) (x : Prusik) : (s.setPr n x).pcos = s.pcos := rfl
@[simp] theorem State.setPr_coll (n : Nat) (x : Prusik) : (s.setPr n x).coll = s.coll := rfl
@[simp] theorem State.setPr_log (n : Nat) (x : Prusik) : (s.setPr n x).log = s.log := rfl
@[simp] theorem State.setPr_flash (n : Nat) (x : Prusik) : (s.setPr n x).flash = s.flash := rfl
@[simp] theorem State.setPr_otp (n : Nat) (x : Prusik) : (s.setPr n x).otp = s.otp := rfl
@[simp] theorem State.setPr_bly (n : Nat) (x : Prusik) : (s.setPr n x).bly = s.bly := rfl
@[simp] theorem State.setPr_safeoff (n : Nat) (x : Prusik) : (s.setPr n x).safeoff = s.safeoff := rfl
@[simp] theorem State.setPr_pulses (n : Nat) (x : Prusik) : (s.setPr n x).pulses = s.pulses := rfl
@[simp] theorem State.setPr_csps (n : Nat) (x : Prusik) : (s.setPr n x).csps = s.csps := rfl
@[simp] theorem State.setPr_eths (n : Nat) (x : Prusik) : (s.setPr n x).eths = s.eths := rfl
@[simp] theorem State.setPr_gptp (n : Nat) (x : Prusik) : (s.setPr n x).gptp = s.gptp := rfl
@[simp] theorem State.setPr_sent (n : Nat) (x : Prusik) : (s.setPr n x).sent = s.sent := rfl
@[simp] theorem State.setPr_dataOut (n : Nat) (x : Prusik) : (s.setPr n x).dataOut = s.dataOut := rfl
@[simp] theorem State.setPr_imgIdx (n : Nat) (x : Prusik) : (s.setPr n x).imgIdx = s.imgIdx := rfl
@[simp] theorem State.setPr_hoCmd (n : Nat) (x : Prusik) : (s.setPr n x).hoCmd = s.hoCmd := rfl
@[simp] theorem State.setPr_hoAt (n : Nat) (x : Prusik) : (s.setPr n x).hoAt = s.hoAt := rfl
@[simp] theorem State.setPr_hoDead (n : Nat) (x : Prusik) : (s.setPr n x).hoDead = s.hoDead := rfl
@[simp] theorem State.setPr_rstReq (n : Nat) (x : Prusik) : (s.setPr n x).rstReq = s.rstReq := rfl
@[simp] theorem State.setPr_biv (n : Nat) (x : Prusik) : (s.setPr n x).biv = s.biv := rfl
@[simp] theorem State.setPr_panel (n : Nat) (x : Prusik) : (s.setPr n x).panel = s.panel := rfl
@[simp] theorem State.setPr_portsOff (n : Nat) (x : Prusik) : (s.setPr n x).portsOff = s.portsOff := rfl

/-! ### setFb -/

@[simp] theorem State.setFb_pending (n : Nat) (x : FbPort) : (s.setFb n x).pending = s.pending := rfl
@[simp] theorem State.setFb_straps (n : Nat) (x : FbPort) : (s.setFb n x).straps = s.straps := rfl
@[simp] theorem State.setFb_power (n : Nat) (x : FbPort) : (s.setFb n x).power = s.power := rfl
@[simp] theorem State.setFb_regs (n : Nat) (x : FbPort) : (s.setFb n x).regs = s.regs := rfl
@[simp] theorem State.setFb_mem (n : Nat) (x : FbPort) : (s.setFb n x).mem = s.mem := rfl
@[simp] theorem State.setFb_now (n : Nat) (x : FbPort) : (s.setFb n x).now = s.now := rfl
@[simp] theorem State.setFb_tickAt (n : Nat) (x : FbPort) : (s.setFb n x).tickAt = s.tickAt := rfl
@[simp] theorem State.setFb_tickLeft (n : Nat) (x : FbPort) : (s.setFb n x).tickLeft = s.tickLeft := rfl
@[simp] theorem State.setFb_tickDue (n : Nat) (x : FbPort) : (s.setFb n x).tickDue = s.tickDue := rfl
@[simp] theorem State.setFb_drawn (n : Nat) (x : FbPort) : (s.setFb n x).drawn = s.drawn := rfl
@[simp] theorem State.setFb_accepts (n : Nat) (x : FbPort) : (s.setFb n x).accepts = s.accepts := rfl
@[simp] theorem State.setFb_newTick (n : Nat) (x : FbPort) : (s.setFb n x).newTick = s.newTick := rfl
@[simp] theorem State.setFb_setNow (n : Nat) (x : FbPort) : (s.setFb n x).setNow = s.setNow := rfl
@[simp] theorem State.setFb_gens (n : Nat) (x : FbPort) : (s.setFb n x).gens = s.gens := rfl
@[simp] theorem State.setFb_ccs (n : Nat) (x : FbPort) : (s.setFb n x).ccs = s.ccs := rfl
@[simp] theorem State.setFb_chans (n : Nat) (x : FbPort) : (s.setFb n x).chans = s.chans := rfl
@[simp] theorem State.setFb_groups (n : Nat) (x : FbPort) : (s.setFb n x).groups = s.groups := rfl
@[simp] theorem State.setFb_windows (n : Nat) (x : FbPort) : (s.setFb n x).windows = s.windows := rfl
@[simp] theorem State.setFb_filtOld (n : Nat) (x : FbPort) : (s.setFb n x).filtOld = s.filtOld := rfl
@[simp] theorem State.setFb_streams (n : Nat) (x : FbPort) : (s.setFb n x).streams = s.streams := rfl
@[simp] theorem State.setFb_hosts (n : Nat) (x : FbPort) : (s.setFb n x).hosts = s.hosts := rfl
@[simp] theorem State.setFb_swaps (n : Nat) (x : FbPort) : (s.setFb n x).swaps = s.swaps := rfl
@[simp] theorem State.setFb_engines (n : Nat) (x : FbPort) : (s.setFb n x).engines = s.engines := rfl
@[simp] theorem State.setFb_ckps (n : Nat) (x : FbPort) : (s.setFb n x).ckps = s.ckps := rfl
@[simp] theorem State.setFb_prs (n : Nat) (x : FbPort) : (s.setFb n x).prs = s.prs := rfl
@[simp] theorem State.setFb_decs (n : Nat) (x : FbPort) : (s.setFb n x).decs = s.decs := rfl
@[simp] theorem State.setFb_hkc (n : Nat) (x : FbPort) : (s.setFb n x).hkc = s.hkc := rfl
@[simp] theorem State.setFb_lines (n : Nat) (x : FbPort) : (s.setFb n x).lines = s.lines := rfl
@[simp] theorem State.setFb_capAt (n : Nat) (x : FbPort) : (s.setFb n x).capAt = s.capAt := rfl
@[simp] theorem State.setFb_pcos (n : Nat) (x : FbPort) : (s.setFb n x).pcos = s.pcos := rfl
@[simp] theorem State.setFb_coll (n : Nat) (x : FbPort) : (s.setFb n x).coll = s.coll := rfl
@[simp] theorem State.setFb_log (n : Nat) (x : FbPort) : (s.setFb n x).log = s.log := rfl
@[simp] theorem State.setFb_flash (n : Nat) (x : FbPort) : (s.setFb n x).flash = s.flash := rfl
@[simp] theorem State.setFb_otp (n : Nat) (x : FbPort) : (s.setFb n x).otp = s.otp := rfl
@[simp] theorem State.setFb_bly (n : Nat) (x : FbPort) : (s.setFb n x).bly = s.bly := rfl
@[simp] theorem State.setFb_safeoff (n : Nat) (x : FbPort) : (s.setFb n x).safeoff = s.safeoff := rfl
@[simp] theorem State.setFb_pulses (n : Nat) (x : FbPort) : (s.setFb n x).pulses = s.pulses := rfl
@[simp] theorem State.setFb_csps (n : Nat) (x : FbPort) : (s.setFb n x).csps = s.csps := rfl
@[simp] theorem State.setFb_eths (n : Nat) (x : FbPort) : (s.setFb n x).eths = s.eths := rfl
@[simp] theorem State.setFb_gptp (n : Nat) (x : FbPort) : (s.setFb n x).gptp = s.gptp := rfl
@[simp] theorem State.setFb_sent (n : Nat) (x : FbPort) : (s.setFb n x).sent = s.sent := rfl
@[simp] theorem State.setFb_dataOut (n : Nat) (x : FbPort) : (s.setFb n x).dataOut = s.dataOut := rfl
@[simp] theorem State.setFb_imgIdx (n : Nat) (x : FbPort) : (s.setFb n x).imgIdx = s.imgIdx := rfl
@[simp] theorem State.setFb_hoCmd (n : Nat) (x : FbPort) : (s.setFb n x).hoCmd = s.hoCmd := rfl
@[simp] theorem State.setFb_hoAt (n : Nat) (x : FbPort) : (s.setFb n x).hoAt = s.hoAt := rfl
@[simp] theorem State.setFb_hoDead (n : Nat) (x : FbPort) : (s.setFb n x).hoDead = s.hoDead := rfl
@[simp] theorem State.setFb_rstReq (n : Nat) (x : FbPort) : (s.setFb n x).rstReq = s.rstReq := rfl
@[simp] theorem State.setFb_biv (n : Nat) (x : FbPort) : (s.setFb n x).biv = s.biv := rfl
@[simp] theorem State.setFb_panel (n : Nat) (x : FbPort) : (s.setFb n x).panel = s.panel := rfl
@[simp] theorem State.setFb_portsOff (n : Nat) (x : FbPort) : (s.setFb n x).portsOff = s.portsOff := rfl

/-! ### setLine -/

@[simp] theorem State.setLine_pending (n : Nat) (x : Line) : (s.setLine n x).pending = s.pending := rfl
@[simp] theorem State.setLine_straps (n : Nat) (x : Line) : (s.setLine n x).straps = s.straps := rfl
@[simp] theorem State.setLine_power (n : Nat) (x : Line) : (s.setLine n x).power = s.power := rfl
@[simp] theorem State.setLine_regs (n : Nat) (x : Line) : (s.setLine n x).regs = s.regs := rfl
@[simp] theorem State.setLine_mem (n : Nat) (x : Line) : (s.setLine n x).mem = s.mem := rfl
@[simp] theorem State.setLine_now (n : Nat) (x : Line) : (s.setLine n x).now = s.now := rfl
@[simp] theorem State.setLine_tickAt (n : Nat) (x : Line) : (s.setLine n x).tickAt = s.tickAt := rfl
@[simp] theorem State.setLine_tickLeft (n : Nat) (x : Line) : (s.setLine n x).tickLeft = s.tickLeft := rfl
@[simp] theorem State.setLine_tickDue (n : Nat) (x : Line) : (s.setLine n x).tickDue = s.tickDue := rfl
@[simp] theorem State.setLine_drawn (n : Nat) (x : Line) : (s.setLine n x).drawn = s.drawn := rfl
@[simp] theorem State.setLine_accepts (n : Nat) (x : Line) : (s.setLine n x).accepts = s.accepts := rfl
@[simp] theorem State.setLine_newTick (n : Nat) (x : Line) : (s.setLine n x).newTick = s.newTick := rfl
@[simp] theorem State.setLine_setNow (n : Nat) (x : Line) : (s.setLine n x).setNow = s.setNow := rfl
@[simp] theorem State.setLine_gens (n : Nat) (x : Line) : (s.setLine n x).gens = s.gens := rfl
@[simp] theorem State.setLine_ccs (n : Nat) (x : Line) : (s.setLine n x).ccs = s.ccs := rfl
@[simp] theorem State.setLine_chans (n : Nat) (x : Line) : (s.setLine n x).chans = s.chans := rfl
@[simp] theorem State.setLine_groups (n : Nat) (x : Line) : (s.setLine n x).groups = s.groups := rfl
@[simp] theorem State.setLine_windows (n : Nat) (x : Line) : (s.setLine n x).windows = s.windows := rfl
@[simp] theorem State.setLine_filtOld (n : Nat) (x : Line) : (s.setLine n x).filtOld = s.filtOld := rfl
@[simp] theorem State.setLine_streams (n : Nat) (x : Line) : (s.setLine n x).streams = s.streams := rfl
@[simp] theorem State.setLine_hosts (n : Nat) (x : Line) : (s.setLine n x).hosts = s.hosts := rfl
@[simp] theorem State.setLine_swaps (n : Nat) (x : Line) : (s.setLine n x).swaps = s.swaps := rfl
@[simp] theorem State.setLine_engines (n : Nat) (x : Line) : (s.setLine n x).engines = s.engines := rfl
@[simp] theorem State.setLine_ckps (n : Nat) (x : Line) : (s.setLine n x).ckps = s.ckps := rfl
@[simp] theorem State.setLine_prs (n : Nat) (x : Line) : (s.setLine n x).prs = s.prs := rfl
@[simp] theorem State.setLine_decs (n : Nat) (x : Line) : (s.setLine n x).decs = s.decs := rfl
@[simp] theorem State.setLine_hkc (n : Nat) (x : Line) : (s.setLine n x).hkc = s.hkc := rfl
@[simp] theorem State.setLine_fbs (n : Nat) (x : Line) : (s.setLine n x).fbs = s.fbs := rfl
@[simp] theorem State.setLine_capAt (n : Nat) (x : Line) : (s.setLine n x).capAt = s.capAt := rfl
@[simp] theorem State.setLine_pcos (n : Nat) (x : Line) : (s.setLine n x).pcos = s.pcos := rfl
@[simp] theorem State.setLine_coll (n : Nat) (x : Line) : (s.setLine n x).coll = s.coll := rfl
@[simp] theorem State.setLine_log (n : Nat) (x : Line) : (s.setLine n x).log = s.log := rfl
@[simp] theorem State.setLine_flash (n : Nat) (x : Line) : (s.setLine n x).flash = s.flash := rfl
@[simp] theorem State.setLine_otp (n : Nat) (x : Line) : (s.setLine n x).otp = s.otp := rfl
@[simp] theorem State.setLine_bly (n : Nat) (x : Line) : (s.setLine n x).bly = s.bly := rfl
@[simp] theorem State.setLine_safeoff (n : Nat) (x : Line) : (s.setLine n x).safeoff = s.safeoff := rfl
@[simp] theorem State.setLine_pulses (n : Nat) (x : Line) : (s.setLine n x).pulses = s.pulses := rfl
@[simp] theorem State.setLine_csps (n : Nat) (x : Line) : (s.setLine n x).csps = s.csps := rfl
@[simp] theorem State.setLine_eths (n : Nat) (x : Line) : (s.setLine n x).eths = s.eths := rfl
@[simp] theorem State.setLine_gptp (n : Nat) (x : Line) : (s.setLine n x).gptp = s.gptp := rfl
@[simp] theorem State.setLine_sent (n : Nat) (x : Line) : (s.setLine n x).sent = s.sent := rfl
@[simp] theorem State.setLine_dataOut (n : Nat) (x : Line) : (s.setLine n x).dataOut = s.dataOut := rfl
@[simp] theorem State.setLine_imgIdx (n : Nat) (x : Line) : (s.setLine n x).imgIdx = s.imgIdx := rfl
@[simp] theorem State.setLine_hoCmd (n : Nat) (x : Line) : (s.setLine n x).hoCmd = s.hoCmd := rfl
@[simp] theorem State.setLine_hoAt (n : Nat) (x : Line) : (s.setLine n x).hoAt = s.hoAt := rfl
@[simp] theorem State.setLine_hoDead (n : Nat) (x : Line) : (s.setLine n x).hoDead = s.hoDead := rfl
@[simp] theorem State.setLine_rstReq (n : Nat) (x : Line) : (s.setLine n x).rstReq = s.rstReq := rfl
@[simp] theorem State.setLine_biv (n : Nat) (x : Line) : (s.setLine n x).biv = s.biv := rfl
@[simp] theorem State.setLine_panel (n : Nat) (x : Line) : (s.setLine n x).panel = s.panel := rfl
@[simp] theorem State.setLine_portsOff (n : Nat) (x : Line) : (s.setLine n x).portsOff = s.portsOff := rfl

/-! ### setDec -/

@[simp] theorem State.setDec_pending (n : Nat) (x : Dec) : (s.setDec n x).pending = s.pending := rfl
@[simp] theorem State.setDec_straps (n : Nat) (x : Dec) : (s.setDec n x).straps = s.straps := rfl
@[simp] theorem State.setDec_power (n : Nat) (x : Dec) : (s.setDec n x).power = s.power := rfl
@[simp] theorem State.setDec_regs (n : Nat) (x : Dec) : (s.setDec n x).regs = s.regs := rfl
@[simp] theorem State.setDec_mem (n : Nat) (x : Dec) : (s.setDec n x).mem = s.mem := rfl
@[simp] theorem State.setDec_now (n : Nat) (x : Dec) : (s.setDec n x).now = s.now := rfl
@[simp] theorem State.setDec_tickAt (n : Nat) (x : Dec) : (s.setDec n x).tickAt = s.tickAt := rfl
@[simp] theorem State.setDec_tickLeft (n : Nat) (x : Dec) : (s.setDec n x).tickLeft = s.tickLeft := rfl
@[simp] theorem State.setDec_tickDue (n : Nat) (x : Dec) : (s.setDec n x).tickDue = s.tickDue := rfl
@[simp] theorem State.setDec_drawn (n : Nat) (x : Dec) : (s.setDec n x).drawn = s.drawn := rfl
@[simp] theorem State.setDec_accepts (n : Nat) (x : Dec) : (s.setDec n x).accepts = s.accepts := rfl
@[simp] theorem State.setDec_newTick (n : Nat) (x : Dec) : (s.setDec n x).newTick = s.newTick := rfl
@[simp] theorem State.setDec_setNow (n : Nat) (x : Dec) : (s.setDec n x).setNow = s.setNow := rfl
@[simp] theorem State.setDec_gens (n : Nat) (x : Dec) : (s.setDec n x).gens = s.gens := rfl
@[simp] theorem State.setDec_ccs (n : Nat) (x : Dec) : (s.setDec n x).ccs = s.ccs := rfl
@[simp] theorem State.setDec_chans (n : Nat) (x : Dec) : (s.setDec n x).chans = s.chans := rfl
@[simp] theorem State.setDec_groups (n : Nat) (x : Dec) : (s.setDec n x).groups = s.groups := rfl
@[simp] theorem State.setDec_windows (n : Nat) (x : Dec) : (s.setDec n x).windows = s.windows := rfl
@[simp] theorem State.setDec_filtOld (n : Nat) (x : Dec) : (s.setDec n x).filtOld = s.filtOld := rfl
@[simp] theorem State.setDec_streams (n : Nat) (x : Dec) : (s.setDec n x).streams = s.streams := rfl
@[simp] theorem State.setDec_hosts (n : Nat) (x : Dec) : (s.setDec n x).hosts = s.hosts := rfl
@[simp] theorem State.setDec_swaps (n : Nat) (x : Dec) : (s.setDec n x).swaps = s.swaps := rfl
@[simp] theorem State.setDec_engines (n : Nat) (x : Dec) : (s.setDec n x).engines = s.engines := rfl
@[simp] theorem State.setDec_ckps (n : Nat) (x : Dec) : (s.setDec n x).ckps = s.ckps := rfl
@[simp] theorem State.setDec_prs (n : Nat) (x : Dec) : (s.setDec n x).prs = s.prs := rfl
@[simp] theorem State.setDec_hkc (n : Nat) (x : Dec) : (s.setDec n x).hkc = s.hkc := rfl
@[simp] theorem State.setDec_fbs (n : Nat) (x : Dec) : (s.setDec n x).fbs = s.fbs := rfl
@[simp] theorem State.setDec_lines (n : Nat) (x : Dec) : (s.setDec n x).lines = s.lines := rfl
@[simp] theorem State.setDec_capAt (n : Nat) (x : Dec) : (s.setDec n x).capAt = s.capAt := rfl
@[simp] theorem State.setDec_pcos (n : Nat) (x : Dec) : (s.setDec n x).pcos = s.pcos := rfl
@[simp] theorem State.setDec_coll (n : Nat) (x : Dec) : (s.setDec n x).coll = s.coll := rfl
@[simp] theorem State.setDec_log (n : Nat) (x : Dec) : (s.setDec n x).log = s.log := rfl
@[simp] theorem State.setDec_flash (n : Nat) (x : Dec) : (s.setDec n x).flash = s.flash := rfl
@[simp] theorem State.setDec_otp (n : Nat) (x : Dec) : (s.setDec n x).otp = s.otp := rfl
@[simp] theorem State.setDec_bly (n : Nat) (x : Dec) : (s.setDec n x).bly = s.bly := rfl
@[simp] theorem State.setDec_safeoff (n : Nat) (x : Dec) : (s.setDec n x).safeoff = s.safeoff := rfl
@[simp] theorem State.setDec_pulses (n : Nat) (x : Dec) : (s.setDec n x).pulses = s.pulses := rfl
@[simp] theorem State.setDec_csps (n : Nat) (x : Dec) : (s.setDec n x).csps = s.csps := rfl
@[simp] theorem State.setDec_eths (n : Nat) (x : Dec) : (s.setDec n x).eths = s.eths := rfl
@[simp] theorem State.setDec_gptp (n : Nat) (x : Dec) : (s.setDec n x).gptp = s.gptp := rfl
@[simp] theorem State.setDec_sent (n : Nat) (x : Dec) : (s.setDec n x).sent = s.sent := rfl
@[simp] theorem State.setDec_dataOut (n : Nat) (x : Dec) : (s.setDec n x).dataOut = s.dataOut := rfl
@[simp] theorem State.setDec_imgIdx (n : Nat) (x : Dec) : (s.setDec n x).imgIdx = s.imgIdx := rfl
@[simp] theorem State.setDec_hoCmd (n : Nat) (x : Dec) : (s.setDec n x).hoCmd = s.hoCmd := rfl
@[simp] theorem State.setDec_hoAt (n : Nat) (x : Dec) : (s.setDec n x).hoAt = s.hoAt := rfl
@[simp] theorem State.setDec_hoDead (n : Nat) (x : Dec) : (s.setDec n x).hoDead = s.hoDead := rfl
@[simp] theorem State.setDec_rstReq (n : Nat) (x : Dec) : (s.setDec n x).rstReq = s.rstReq := rfl
@[simp] theorem State.setDec_biv (n : Nat) (x : Dec) : (s.setDec n x).biv = s.biv := rfl
@[simp] theorem State.setDec_panel (n : Nat) (x : Dec) : (s.setDec n x).panel = s.panel := rfl
@[simp] theorem State.setDec_portsOff (n : Nat) (x : Dec) : (s.setDec n x).portsOff = s.portsOff := rfl

/-! ### setPco -/

@[simp] theorem State.setPco_pending (n : Nat) (x : Pco) : (s.setPco n x).pending = s.pending := rfl
@[simp] theorem State.setPco_straps (n : Nat) (x : Pco) : (s.setPco n x).straps = s.straps := rfl
@[simp] theorem State.setPco_power (n : Nat) (x : Pco) : (s.setPco n x).power = s.power := rfl
@[simp] theorem State.setPco_regs (n : Nat) (x : Pco) : (s.setPco n x).regs = s.regs := rfl
@[simp] theorem State.setPco_mem (n : Nat) (x : Pco) : (s.setPco n x).mem = s.mem := rfl
@[simp] theorem State.setPco_now (n : Nat) (x : Pco) : (s.setPco n x).now = s.now := rfl
@[simp] theorem State.setPco_tickAt (n : Nat) (x : Pco) : (s.setPco n x).tickAt = s.tickAt := rfl
@[simp] theorem State.setPco_tickLeft (n : Nat) (x : Pco) : (s.setPco n x).tickLeft = s.tickLeft := rfl
@[simp] theorem State.setPco_tickDue (n : Nat) (x : Pco) : (s.setPco n x).tickDue = s.tickDue := rfl
@[simp] theorem State.setPco_drawn (n : Nat) (x : Pco) : (s.setPco n x).drawn = s.drawn := rfl
@[simp] theorem State.setPco_accepts (n : Nat) (x : Pco) : (s.setPco n x).accepts = s.accepts := rfl
@[simp] theorem State.setPco_newTick (n : Nat) (x : Pco) : (s.setPco n x).newTick = s.newTick := rfl
@[simp] theorem State.setPco_setNow (n : Nat) (x : Pco) : (s.setPco n x).setNow = s.setNow := rfl
@[simp] theorem State.setPco_gens (n : Nat) (x : Pco) : (s.setPco n x).gens = s.gens := rfl
@[simp] theorem State.setPco_ccs (n : Nat) (x : Pco) : (s.setPco n x).ccs = s.ccs := rfl
@[simp] theorem State.setPco_chans (n : Nat) (x : Pco) : (s.setPco n x).chans = s.chans := rfl
@[simp] theorem State.setPco_groups (n : Nat) (x : Pco) : (s.setPco n x).groups = s.groups := rfl
@[simp] theorem State.setPco_windows (n : Nat) (x : Pco) : (s.setPco n x).windows = s.windows := rfl
@[simp] theorem State.setPco_filtOld (n : Nat) (x : Pco) : (s.setPco n x).filtOld = s.filtOld := rfl
@[simp] theorem State.setPco_streams (n : Nat) (x : Pco) : (s.setPco n x).streams = s.streams := rfl
@[simp] theorem State.setPco_hosts (n : Nat) (x : Pco) : (s.setPco n x).hosts = s.hosts := rfl
@[simp] theorem State.setPco_swaps (n : Nat) (x : Pco) : (s.setPco n x).swaps = s.swaps := rfl
@[simp] theorem State.setPco_engines (n : Nat) (x : Pco) : (s.setPco n x).engines = s.engines := rfl
@[simp] theorem State.setPco_ckps (n : Nat) (x : Pco) : (s.setPco n x).ckps = s.ckps := rfl
@[simp] theorem State.setPco_prs (n : Nat) (x : Pco) : (s.setPco n x).prs = s.prs := rfl
@[simp] theorem State.setPco_decs (n : Nat) (x : Pco) : (s.setPco n x).decs = s.decs := rfl
@[simp] theorem State.setPco_hkc (n : Nat) (x : Pco) : (s.setPco n x).hkc = s.hkc := rfl
@[simp] theorem State.setPco_fbs (n : Nat) (x : Pco) : (s.setPco n x).fbs = s.fbs := rfl
@[simp] theorem State.setPco_lines (n : Nat) (x : Pco) : (s.setPco n x).lines = s.lines := rfl
@[simp] theorem State.setPco_capAt (n : Nat) (x : Pco) : (s.setPco n x).capAt = s.capAt := rfl
@[simp] theorem State.setPco_coll (n : Nat) (x : Pco) : (s.setPco n x).coll = s.coll := rfl
@[simp] theorem State.setPco_log (n : Nat) (x : Pco) : (s.setPco n x).log = s.log := rfl
@[simp] theorem State.setPco_flash (n : Nat) (x : Pco) : (s.setPco n x).flash = s.flash := rfl
@[simp] theorem State.setPco_otp (n : Nat) (x : Pco) : (s.setPco n x).otp = s.otp := rfl
@[simp] theorem State.setPco_bly (n : Nat) (x : Pco) : (s.setPco n x).bly = s.bly := rfl
@[simp] theorem State.setPco_safeoff (n : Nat) (x : Pco) : (s.setPco n x).safeoff = s.safeoff := rfl
@[simp] theorem State.setPco_pulses (n : Nat) (x : Pco) : (s.setPco n x).pulses = s.pulses := rfl
@[simp] theorem State.setPco_csps (n : Nat) (x : Pco) : (s.setPco n x).csps = s.csps := rfl
@[simp] theorem State.setPco_eths (n : Nat) (x : Pco) : (s.setPco n x).eths = s.eths := rfl
@[simp] theorem State.setPco_gptp (n : Nat) (x : Pco) : (s.setPco n x).gptp = s.gptp := rfl
@[simp] theorem State.setPco_sent (n : Nat) (x : Pco) : (s.setPco n x).sent = s.sent := rfl
@[simp] theorem State.setPco_dataOut (n : Nat) (x : Pco) : (s.setPco n x).dataOut = s.dataOut := rfl
@[simp] theorem State.setPco_imgIdx (n : Nat) (x : Pco) : (s.setPco n x).imgIdx = s.imgIdx := rfl
@[simp] theorem State.setPco_hoCmd (n : Nat) (x : Pco) : (s.setPco n x).hoCmd = s.hoCmd := rfl
@[simp] theorem State.setPco_hoAt (n : Nat) (x : Pco) : (s.setPco n x).hoAt = s.hoAt := rfl
@[simp] theorem State.setPco_hoDead (n : Nat) (x : Pco) : (s.setPco n x).hoDead = s.hoDead := rfl
@[simp] theorem State.setPco_rstReq (n : Nat) (x : Pco) : (s.setPco n x).rstReq = s.rstReq := rfl
@[simp] theorem State.setPco_biv (n : Nat) (x : Pco) : (s.setPco n x).biv = s.biv := rfl
@[simp] theorem State.setPco_panel (n : Nat) (x : Pco) : (s.setPco n x).panel = s.panel := rfl
@[simp] theorem State.setPco_portsOff (n : Nat) (x : Pco) : (s.setPco n x).portsOff = s.portsOff := rfl

/-! ### setCsp -/

@[simp] theorem State.setCsp_pending (n : Nat) (x : Csp) : (s.setCsp n x).pending = s.pending := rfl
@[simp] theorem State.setCsp_straps (n : Nat) (x : Csp) : (s.setCsp n x).straps = s.straps := rfl
@[simp] theorem State.setCsp_power (n : Nat) (x : Csp) : (s.setCsp n x).power = s.power := rfl
@[simp] theorem State.setCsp_regs (n : Nat) (x : Csp) : (s.setCsp n x).regs = s.regs := rfl
@[simp] theorem State.setCsp_mem (n : Nat) (x : Csp) : (s.setCsp n x).mem = s.mem := rfl
@[simp] theorem State.setCsp_now (n : Nat) (x : Csp) : (s.setCsp n x).now = s.now := rfl
@[simp] theorem State.setCsp_tickAt (n : Nat) (x : Csp) : (s.setCsp n x).tickAt = s.tickAt := rfl
@[simp] theorem State.setCsp_tickLeft (n : Nat) (x : Csp) : (s.setCsp n x).tickLeft = s.tickLeft := rfl
@[simp] theorem State.setCsp_tickDue (n : Nat) (x : Csp) : (s.setCsp n x).tickDue = s.tickDue := rfl
@[simp] theorem State.setCsp_drawn (n : Nat) (x : Csp) : (s.setCsp n x).drawn = s.drawn := rfl
@[simp] theorem State.setCsp_accepts (n : Nat) (x : Csp) : (s.setCsp n x).accepts = s.accepts := rfl
@[simp] theorem State.setCsp_newTick (n : Nat) (x : Csp) : (s.setCsp n x).newTick = s.newTick := rfl
@[simp] theorem State.setCsp_setNow (n : Nat) (x : Csp) : (s.setCsp n x).setNow = s.setNow := rfl
@[simp] theorem State.setCsp_gens (n : Nat) (x : Csp) : (s.setCsp n x).gens = s.gens := rfl
@[simp] theorem State.setCsp_ccs (n : Nat) (x : Csp) : (s.setCsp n x).ccs = s.ccs := rfl
@[simp] theorem State.setCsp_chans (n : Nat) (x : Csp) : (s.setCsp n x).chans = s.chans := rfl
@[simp] theorem State.setCsp_groups (n : Nat) (x : Csp) : (s.setCsp n x).groups = s.groups := rfl
@[simp] theorem State.setCsp_windows (n : Nat) (x : Csp) : (s.setCsp n x).windows = s.windows := rfl
@[simp] theorem State.setCsp_filtOld (n : Nat) (x : Csp) : (s.setCsp n x).filtOld = s.filtOld := rfl
@[simp] theorem State.setCsp_streams (n : Nat) (x : Csp) : (s.setCsp n x).streams = s.streams := rfl
@[simp] theorem State.setCsp_hosts (n : Nat) (x : Csp) : (s.setCsp n x).hosts = s.hosts := rfl
@[simp] theorem State.setCsp_swaps (n : Nat) (x : Csp) : (s.setCsp n x).swaps = s.swaps := rfl
@[simp] theorem State.setCsp_engines (n : Nat) (x : Csp) : (s.setCsp n x).engines = s.engines := rfl
@[simp] theorem State.setCsp_ckps (n : Nat) (x : Csp) : (s.setCsp n x).ckps = s.ckps := rfl
@[simp] theorem State.setCsp_prs (n : Nat) (x : Csp) : (s.setCsp n x).prs = s.prs := rfl
@[simp] theorem State.setCsp_decs (n : Nat) (x : Csp) : (s.setCsp n x).decs = s.decs := rfl
@[simp] theorem State.setCsp_hkc (n : Nat) (x : Csp) : (s.setCsp n x).hkc = s.hkc := rfl
@[simp] theorem State.setCsp_fbs (n : Nat) (x : Csp) : (s.setCsp n x).fbs = s.fbs := rfl
@[simp] theorem State.setCsp_lines (n : Nat) (x : Csp) : (s.setCsp n x).lines = s.lines := rfl
@[simp] theorem State.setCsp_capAt (n : Nat) (x : Csp) : (s.setCsp n x).capAt = s.capAt := rfl
@[simp] theorem State.setCsp_pcos (n : Nat) (x : Csp) : (s.setCsp n x).pcos = s.pcos := rfl
@[simp] theorem State.setCsp_coll (n : Nat) (x : Csp) : (s.setCsp n x).coll = s.coll := rfl
@[simp] theorem State.setCsp_log (n : Nat) (x : Csp) : (s.setCsp n x).log = s.log := rfl
@[simp] theorem State.setCsp_flash (n : Nat) (x : Csp) : (s.setCsp n x).flash = s.flash := rfl
@[simp] theorem State.setCsp_otp (n : Nat) (x : Csp) : (s.setCsp n x).otp = s.otp := rfl
@[simp] theorem State.setCsp_bly (n : Nat) (x : Csp) : (s.setCsp n x).bly = s.bly := rfl
@[simp] theorem State.setCsp_safeoff (n : Nat) (x : Csp) : (s.setCsp n x).safeoff = s.safeoff := rfl
@[simp] theorem State.setCsp_pulses (n : Nat) (x : Csp) : (s.setCsp n x).pulses = s.pulses := rfl
@[simp] theorem State.setCsp_eths (n : Nat) (x : Csp) : (s.setCsp n x).eths = s.eths := rfl
@[simp] theorem State.setCsp_gptp (n : Nat) (x : Csp) : (s.setCsp n x).gptp = s.gptp := rfl
@[simp] theorem State.setCsp_sent (n : Nat) (x : Csp) : (s.setCsp n x).sent = s.sent := rfl
@[simp] theorem State.setCsp_dataOut (n : Nat) (x : Csp) : (s.setCsp n x).dataOut = s.dataOut := rfl
@[simp] theorem State.setCsp_imgIdx (n : Nat) (x : Csp) : (s.setCsp n x).imgIdx = s.imgIdx := rfl
@[simp] theorem State.setCsp_hoCmd (n : Nat) (x : Csp) : (s.setCsp n x).hoCmd = s.hoCmd := rfl
@[simp] theorem State.setCsp_hoAt (n : Nat) (x : Csp) : (s.setCsp n x).hoAt = s.hoAt := rfl
@[simp] theorem State.setCsp_hoDead (n : Nat) (x : Csp) : (s.setCsp n x).hoDead = s.hoDead := rfl
@[simp] theorem State.setCsp_rstReq (n : Nat) (x : Csp) : (s.setCsp n x).rstReq = s.rstReq := rfl
@[simp] theorem State.setCsp_biv (n : Nat) (x : Csp) : (s.setCsp n x).biv = s.biv := rfl
@[simp] theorem State.setCsp_panel (n : Nat) (x : Csp) : (s.setCsp n x).panel = s.panel := rfl
@[simp] theorem State.setCsp_portsOff (n : Nat) (x : Csp) : (s.setCsp n x).portsOff = s.portsOff := rfl

/-! ### setEth -/

@[simp] theorem State.setEth_pending (n : Nat) (x : EthPort) : (s.setEth n x).pending = s.pending := rfl
@[simp] theorem State.setEth_straps (n : Nat) (x : EthPort) : (s.setEth n x).straps = s.straps := rfl
@[simp] theorem State.setEth_power (n : Nat) (x : EthPort) : (s.setEth n x).power = s.power := rfl
@[simp] theorem State.setEth_regs (n : Nat) (x : EthPort) : (s.setEth n x).regs = s.regs := rfl
@[simp] theorem State.setEth_mem (n : Nat) (x : EthPort) : (s.setEth n x).mem = s.mem := rfl
@[simp] theorem State.setEth_now (n : Nat) (x : EthPort) : (s.setEth n x).now = s.now := rfl
@[simp] theorem State.setEth_tickAt (n : Nat) (x : EthPort) : (s.setEth n x).tickAt = s.tickAt := rfl
@[simp] theorem State.setEth_tickLeft (n : Nat) (x : EthPort) : (s.setEth n x).tickLeft = s.tickLeft := rfl
@[simp] theorem State.setEth_tickDue (n : Nat) (x : EthPort) : (s.setEth n x).tickDue = s.tickDue := rfl
@[simp] theorem State.setEth_drawn (n : Nat) (x : EthPort) : (s.setEth n x).drawn = s.drawn := rfl
@[simp] theorem State.setEth_accepts (n : Nat) (x : EthPort) : (s.setEth n x).accepts = s.accepts := rfl
@[simp] theorem State.setEth_newTick (n : Nat) (x : EthPort) : (s.setEth n x).newTick = s.newTick := rfl
@[simp] theorem State.setEth_setNow (n : Nat) (x : EthPort) : (s.setEth n x).setNow = s.setNow := rfl
@[simp] theorem State.setEth_gens (n : Nat) (x : EthPort) : (s.setEth n x).gens = s.gens := rfl
@[simp] theorem State.setEth_ccs (n : Nat) (x : EthPort) : (s.setEth n x).ccs = s.ccs := rfl
@[simp] theorem State.setEth_chans (n : Nat) (x : EthPort) : (s.setEth n x).chans = s.chans := rfl
@[simp] theorem State.setEth_groups (n : Nat) (x : EthPort) : (s.setEth n x).groups = s.groups := rfl
@[simp] theorem State.setEth_windows (n : Nat) (x : EthPort) : (s.setEth n x).windows = s.windows := rfl
@[simp] theorem State.setEth_filtOld (n : Nat) (x : EthPort) : (s.setEth n x).filtOld = s.filtOld := rfl
@[simp] theorem State.setEth_streams (n : Nat) (x : EthPort) : (s.setEth n x).streams = s.streams := rfl
@[simp] theorem State.setEth_hosts (n : Nat) (x : EthPort) : (s.setEth n x).hosts = s.hosts := rfl
@[simp] theorem State.setEth_swaps (n : Nat) (x : EthPort) : (s.setEth n x).swaps = s.swaps := rfl
@[simp] theorem State.setEth_engines (n : Nat) (x : EthPort) : (s.setEth n x).engines = s.engines := rfl
@[simp] theorem State.setEth_ckps (n : Nat) (x : EthPort) : (s.setEth n x).ckps = s.ckps := rfl
@[simp] theorem State.setEth_prs (n : Nat) (x : EthPort) : (s.setEth n x).prs = s.prs := rfl
@[simp] theorem State.setEth_decs (n : Nat) (x : EthPort) : (s.setEth n x).decs = s.decs := rfl
@[simp] theorem State.setEth_hkc (n : Nat) (x : EthPort) : (s.setEth n x).hkc = s.hkc := rfl
@[simp] theorem State.setEth_fbs (n : Nat) (x : EthPort) : (s.setEth n x).fbs = s.fbs := rfl
@[simp] theorem State.setEth_lines (n : Nat) (x : EthPort) : (s.setEth n x).lines = s.lines := rfl
@[simp] theorem State.setEth_capAt (n : Nat) (x : EthPort) : (s.setEth n x).capAt = s.capAt := rfl
@[simp] theorem State.setEth_pcos (n : Nat) (x : EthPort) : (s.setEth n x).pcos = s.pcos := rfl
@[simp] theorem State.setEth_coll (n : Nat) (x : EthPort) : (s.setEth n x).coll = s.coll := rfl
@[simp] theorem State.setEth_log (n : Nat) (x : EthPort) : (s.setEth n x).log = s.log := rfl
@[simp] theorem State.setEth_flash (n : Nat) (x : EthPort) : (s.setEth n x).flash = s.flash := rfl
@[simp] theorem State.setEth_otp (n : Nat) (x : EthPort) : (s.setEth n x).otp = s.otp := rfl
@[simp] theorem State.setEth_bly (n : Nat) (x : EthPort) : (s.setEth n x).bly = s.bly := rfl
@[simp] theorem State.setEth_safeoff (n : Nat) (x : EthPort) : (s.setEth n x).safeoff = s.safeoff := rfl
@[simp] theorem State.setEth_pulses (n : Nat) (x : EthPort) : (s.setEth n x).pulses = s.pulses := rfl
@[simp] theorem State.setEth_csps (n : Nat) (x : EthPort) : (s.setEth n x).csps = s.csps := rfl
@[simp] theorem State.setEth_gptp (n : Nat) (x : EthPort) : (s.setEth n x).gptp = s.gptp := rfl
@[simp] theorem State.setEth_sent (n : Nat) (x : EthPort) : (s.setEth n x).sent = s.sent := rfl
@[simp] theorem State.setEth_dataOut (n : Nat) (x : EthPort) : (s.setEth n x).dataOut = s.dataOut := rfl
@[simp] theorem State.setEth_imgIdx (n : Nat) (x : EthPort) : (s.setEth n x).imgIdx = s.imgIdx := rfl
@[simp] theorem State.setEth_hoCmd (n : Nat) (x : EthPort) : (s.setEth n x).hoCmd = s.hoCmd := rfl
@[simp] theorem State.setEth_hoAt (n : Nat) (x : EthPort) : (s.setEth n x).hoAt = s.hoAt := rfl
@[simp] theorem State.setEth_hoDead (n : Nat) (x : EthPort) : (s.setEth n x).hoDead = s.hoDead := rfl
@[simp] theorem State.setEth_rstReq (n : Nat) (x : EthPort) : (s.setEth n x).rstReq = s.rstReq := rfl
@[simp] theorem State.setEth_biv (n : Nat) (x : EthPort) : (s.setEth n x).biv = s.biv := rfl
@[simp] theorem State.setEth_panel (n : Nat) (x : EthPort) : (s.setEth n x).panel = s.panel := rfl
@[simp] theorem State.setEth_portsOff (n : Nat) (x : EthPort) : (s.setEth n x).portsOff = s.portsOff := rfl

/-! ### modGen -/

@[simp] theorem State.modGen_pending (n : Nat) (f : Gen → Gen) : (s.modGen n f).pending = s.pending := rfl
@[simp] theorem State.modGen_straps (n : Nat) (f : Gen → Gen) : (s.modGen n f).straps = s.straps := rfl
@[simp] theorem State.modGen_power (n : Nat) (f : Gen → Gen) : (s.modGen n f).power = s.power := rfl
@[simp] theorem State.modGen_regs (n : Nat) (f : Gen → Gen) : (s.modGen n f).regs = s.regs := rfl
@[simp] theorem State.modGen_mem (n : Nat) (f : Gen → Gen) : (s.modGen n f).mem = s.mem := rfl
@[simp] theorem State.modGen_now (n : Nat) (f : Gen → Gen) : (s.modGen n f).now = s.now := rfl
@[simp] theorem State.modGen_tickAt (n : Nat) (f : Gen → Gen) : (s.modGen n f).tickAt = s.tickAt := rfl
@[simp] theorem State.modGen_tickLeft (n : Nat) (f : Gen → Gen) : (s.modGen n f).tickLeft = s.tickLeft := rfl
@[simp] theorem State.modGen_tickDue (n : Nat) (f : Gen → Gen) : (s.modGen n f).tickDue = s.tickDue := rfl
@[simp] theorem State.modGen_drawn (n : Nat) (f : Gen → Gen) : (s.modGen n f).drawn = s.drawn := rfl
@[simp] theorem State.modGen_accepts (n : Nat) (f : Gen → Gen) : (s.modGen n f).accepts = s.accepts := rfl
@[simp] theorem State.modGen_newTick (n : Nat) (f : Gen → Gen) : (s.modGen n f).newTick = s.newTick := rfl
@[simp] theorem State.modGen_setNow (n : Nat) (f : Gen → Gen) : (s.modGen n f).setNow = s.setNow := rfl
@[simp] theorem State.modGen_ccs (n : Nat) (f : Gen → Gen) : (s.modGen n f).ccs = s.ccs := rfl
@[simp] theorem State.modGen_chans (n : Nat) (f : Gen → Gen) : (s.modGen n f).chans = s.chans := rfl
@[simp] theorem State.modGen_groups (n : Nat) (f : Gen → Gen) : (s.modGen n f).groups = s.groups := rfl
@[simp] theorem State.modGen_windows (n : Nat) (f : Gen → Gen) : (s.modGen n f).windows = s.windows := rfl
@[simp] theorem State.modGen_filtOld (n : Nat) (f : Gen → Gen) : (s.modGen n f).filtOld = s.filtOld := rfl
@[simp] theorem State.modGen_streams (n : Nat) (f : Gen → Gen) : (s.modGen n f).streams = s.streams := rfl
@[simp] theorem State.modGen_hosts (n : Nat) (f : Gen → Gen) : (s.modGen n f).hosts = s.hosts := rfl
@[simp] theorem State.modGen_swaps (n : Nat) (f : Gen → Gen) : (s.modGen n f).swaps = s.swaps := rfl
@[simp] theorem State.modGen_engines (n : Nat) (f : Gen → Gen) : (s.modGen n f).engines = s.engines := rfl
@[simp] theorem State.modGen_ckps (n : Nat) (f : Gen → Gen) : (s.modGen n f).ckps = s.ckps := rfl
@[simp] theorem State.modGen_prs (n : Nat) (f : Gen → Gen) : (s.modGen n f).prs = s.prs := rfl
@[simp] theorem State.modGen_decs (n : Nat) (f : Gen → Gen) : (s.modGen n f).decs = s.decs := rfl
@[simp] theorem State.modGen_hkc (n : Nat) (f : Gen → Gen) : (s.modGen n f).hkc = s.hkc := rfl
@[simp] theorem State.modGen_fbs (n : Nat) (f : Gen → Gen) : (s.modGen n f).fbs = s.fbs := rfl
@[simp] theorem State.modGen_lines (n : Nat) (f : Gen → Gen) : (s.modGen n f).lines = s.lines := rfl
@[simp] theorem State.modGen_capAt (n : Nat) (f : Gen → Gen) : (s.modGen n f).capAt = s.capAt := rfl
@[simp] theorem State.modGen_pcos (n : Nat) (f : Gen → Gen) : (s.modGen n f).pcos = s.pcos := rfl
@[simp] theorem State.modGen_coll (n : Nat) (f : Gen → Gen) : (s.modGen n f).coll = s.coll := rfl
@[simp] theorem State.modGen_log (n : Nat) (f : Gen → Gen) : (s.modGen n f).log = s.log := rfl
@[simp] theorem State.modGen_flash (n : Nat) (f : Gen → Gen) : (s.modGen n f).flash = s.flash := rfl
@[simp] theorem State.modGen_otp (n : Nat) (f : Gen → Gen) : (s.modGen n f).otp = s.otp := rfl
@[simp] theorem State.modGen_bly (n : Nat) (f : Gen → Gen) : (s.modGen n f).bly = s.bly := rfl
@[simp] theorem State.modGen_safeoff (n : Nat) (f : Gen → Gen) : (s.modGen n f).safeoff = s.safeoff := rfl
@[simp] theorem State.modGen_pulses (n : Nat) (f : Gen → Gen) : (s.modGen n f).pulses = s.pulses := rfl
@[simp] theorem State.modGen_csps (n : Nat) (f : Gen → Gen) : (s.modGen n f).csps = s.csps := rfl
@[simp] theorem State.modGen_eths (n : Nat) (f : Gen → Gen) : (s.modGen n f).eths = s.eths := rfl
@[simp] theorem State.modGen_gptp (n : Nat) (f : Gen → Gen) : (s.modGen n f).gptp = s.gptp := rfl
@[simp] theorem State.modGen_sent (n : Nat) (f : Gen → Gen) : (s.modGen n f).sent = s.sent := rfl
@[simp] theorem State.modGen_dataOut (n : Nat) (f : Gen → Gen) : (s.modGen n f).dataOut = s.dataOut := rfl
@[simp] theorem State.modGen_imgIdx (n : Nat) (f : Gen → Gen) : (s.modGen n f).imgIdx = s.imgIdx := rfl
@[simp] theorem State.modGen_hoCmd (n : Nat) (f : Gen → Gen) : (s.modGen n f).hoCmd = s.hoCmd := rfl
@[simp] theorem State.modGen_hoAt (n : Nat) (f : Gen → Gen) : (s.modGen n f).hoAt = s.hoAt := rfl
@[simp] theorem State.modGen_hoDead (n : Nat) (f : Gen → Gen) : (s.modGen n f).hoDead = s.hoDead := rfl
@[simp] theorem State.modGen_rstReq (n : Nat) (f : Gen → Gen) : (s.modGen n f).rstReq = s.rstReq := rfl
@[simp] theorem State.modGen_biv (n : Nat) (f : Gen → Gen) : (s.modGen n f).biv = s.biv := rfl
@[simp] theorem State.modGen_panel (n : Nat) (f : Gen → Gen) : (s.modGen n f).panel = s.panel := rfl
@[simp] theorem State.modGen_portsOff (n : Nat) (f : Gen → Gen) : (s.modGen n f).portsOff = s.portsOff := rfl

/-! ### modCc -/

@[simp] theorem State.modCc_pending (n : Nat) (f : Cc → Cc) : (s.modCc n f).pending = s.pending := rfl
@[simp] theorem State.modCc_straps (n : Nat) (f : Cc → Cc) : (s.modCc n f).straps = s.straps := rfl
@[simp] theorem State.modCc_power (n : Nat) (f : Cc → Cc) : (s.modCc n f).power = s.power := rfl
@[simp] theorem State.modCc_regs (n : Nat) (f : Cc → Cc) : (s.modCc n f).regs = s.regs := rfl
@[simp] theorem State.modCc_mem (n : Nat) (f : Cc → Cc) : (s.modCc n f).mem = s.mem := rfl
@[simp] theorem State.modCc_now (n : Nat) (f : Cc → Cc) : (s.modCc n f).now = s.now := rfl
@[simp] theorem State.modCc_tickAt (n : Nat) (f : Cc → Cc) : (s.modCc n f).tickAt = s.tickAt := rfl
@[simp] theorem State.modCc_tickLeft (n : Nat) (f : Cc → Cc) : (s.modCc n f).tickLeft = s.tickLeft := rfl
@[simp] theorem State.modCc_tickDue (n : Nat) (f : Cc → Cc) : (s.modCc n f).tickDue = s.tickDue := rfl
@[simp] theorem State.modCc_drawn (n : Nat) (f : Cc → Cc) : (s.modCc n f).drawn = s.drawn := rfl
@[simp] theorem State.modCc_accepts (n : Nat) (f : Cc → Cc) : (s.modCc n f).accepts = s.accepts := rfl
@[simp] theorem State.modCc_newTick (n : Nat) (f : Cc → Cc) : (s.modCc n f).newTick = s.newTick := rfl
@[simp] theorem State.modCc_setNow (n : Nat) (f : Cc → Cc) : (s.modCc n f).setNow = s.setNow := rfl
@[simp] theorem State.modCc_gens (n : Nat) (f : Cc → Cc) : (s.modCc n f).gens = s.gens := rfl
@[simp] theorem State.modCc_chans (n : Nat) (f : Cc → Cc) : (s.modCc n f).chans = s.chans := rfl
@[simp] theorem State.modCc_groups (n : Nat) (f : Cc → Cc) : (s.modCc n f).groups = s.groups := rfl
@[simp] theorem State.modCc_windows (n : Nat) (f : Cc → Cc) : (s.modCc n f).windows = s.windows := rfl
@[simp] theorem State.modCc_filtOld (n : Nat) (f : Cc → Cc) : (s.modCc n f).filtOld = s.filtOld := rfl
@[simp] theorem State.modCc_streams (n : Nat) (f : Cc → Cc) : (s.modCc n f).streams = s.streams := rfl
@[simp] theorem State.modCc_hosts (n : Nat) (f : Cc → Cc) : (s.modCc n f).hosts = s.hosts := rfl
@[simp] theorem State.modCc_swaps (n : Nat) (f : Cc → Cc) : (s.modCc n f).swaps = s.swaps := rfl
@[simp] theorem State.modCc_engines (n : Nat) (f : Cc → Cc) : (s.modCc n f).engines = s.engines := rfl
@[simp] theorem State.modCc_ckps (n : Nat) (f : Cc → Cc) : (s.modCc n f).ckps = s.ckps := rfl
@[simp] theorem State.modCc_prs (n : Nat) (f : Cc → Cc) : (s.modCc n f).prs = s.prs := rfl
@[simp] theorem State.modCc_decs (n : Nat) (f : Cc → Cc) : (s.modCc n f).decs = s.decs := rfl
@[simp] theorem State.modCc_hkc (n : Nat) (f : Cc → Cc) : (s.modCc n f).hkc = s.hkc := rfl
@[simp] theorem State.modCc_fbs (n : Nat) (f : Cc → Cc) : (s.modCc n f).fbs = s.fbs := rfl
@[simp] theorem State.modCc_lines (n : Nat) (f : Cc → Cc) : (s.modCc n f).lines = s.lines := rfl
@[simp] theorem State.modCc_capAt (n : Nat) (f : Cc → Cc) : (s.modCc n f).capAt = s.capAt := rfl
@[simp] theorem State.modCc_pcos (n : Nat) (f : Cc → Cc) : (s.modCc n f).pcos = s.pcos := rfl
@[simp] theorem State.modCc_coll (n : Nat) (f : Cc → Cc) : (s.modCc n f).coll = s.coll := rfl
@[simp] theorem State.modCc_log (n : Nat) (f : Cc → Cc) : (s.modCc n f).log = s.log := rfl
@[simp] theorem State.modCc_flash (n : Nat) (f : Cc → Cc) : (s.modCc n f).flash = s.flash := rfl
@[simp] theorem State.modCc_otp (n : Nat) (f : Cc → Cc) : (s.modCc n f).otp = s.otp := rfl
@[simp] theorem State.modCc_bly (n : Nat) (f : Cc → Cc) : (s.modCc n f).bly = s.bly := rfl
@[simp] theorem State.modCc_safeoff (n : Nat) (f : Cc → Cc) : (s.modCc n f).safeoff = s.safeoff := rfl
@[simp] theorem State.modCc_pulses (n : Nat) (f : Cc → Cc) : (s.modCc n f).pulses = s.pulses := rfl
@[simp] theorem State.modCc_csps (n : Nat) (f : Cc → Cc) : (s.modCc n f).csps = s.csps := rfl
@[simp] theorem State.modCc_eths (n : Nat) (f : Cc → Cc) : (s.modCc n f).eths = s.eths := rfl
@[simp] theorem State.modCc_gptp (n : Nat) (f : Cc → Cc) : (s.modCc n f).gptp = s.gptp := rfl
@[simp] theorem State.modCc_sent (n : Nat) (f : Cc → Cc) : (s.modCc n f).sent = s.sent := rfl
@[simp] theorem State.modCc_dataOut (n : Nat) (f : Cc → Cc) : (s.modCc n f).dataOut = s.dataOut := rfl
@[simp] theorem State.modCc_imgIdx (n : Nat) (f : Cc → Cc) : (s.modCc n f).imgIdx = s.imgIdx := rfl
@[simp] theorem State.modCc_hoCmd (n : Nat) (f : Cc → Cc) : (s.modCc n f).hoCmd = s.hoCmd := rfl
@[simp] theorem State.modCc_hoAt (n : Nat) (f : Cc → Cc) : (s.modCc n f).hoAt = s.hoAt := rfl
@[simp] theorem State.modCc_hoDead (n : Nat) (f : Cc → Cc) : (s.modCc n f).hoDead = s.hoDead := rfl
@[simp] theorem State.modCc_rstReq (n : Nat) (f : Cc → Cc) : (s.modCc n f).rstReq = s.rstReq := rfl
@[simp] theorem State.modCc_biv (n : Nat) (f : Cc → Cc) : (s.modCc n f).biv = s.biv := rfl
@[simp] theorem State.modCc_panel (n : Nat) (f : Cc → Cc) : (s.modCc n f).panel = s.panel := rfl
@[simp] theorem State.modCc_portsOff (n : Nat) (f : Cc → Cc) : (s.modCc n f).portsOff = s.portsOff := rfl

/-! ### modChan -/

@[simp] theorem State.modChan_pending (n : Nat) (f : PwmChan → PwmChan) : (s.modChan n f).pending = s.pending := rfl
@[simp] theorem State.modChan_straps (n : Nat) (f : PwmChan → PwmChan) : (s.modChan n f).straps = s.straps := rfl
@[simp] theorem State.modChan_power (n : Nat) (f : PwmChan → PwmChan) : (s.modChan n f).power = s.power := rfl
@[simp] theorem State.modChan_regs (n : Nat) (f : PwmChan → PwmChan) : (s.modChan n f).regs = s.regs := rfl
@[simp] theorem State.modChan_mem (n : Nat) (f : PwmChan → PwmChan) : (s.modChan n f).mem = s.mem := rfl
@[simp] theorem State.modChan_now (n : Nat) (f : PwmChan → PwmChan) : (s.modChan n f).now = s.now := rfl
@[simp] theorem State.modChan_tickAt (n : Nat) (f : PwmChan → PwmChan) : (s.modChan n f).tickAt = s.tickAt := rfl
@[simp] theorem State.modChan_tickLeft (n : Nat) (f : PwmChan → PwmChan) : (s.modChan n f).tickLeft = s.tickLeft := rfl
@[simp] theorem State.modChan_tickDue (n : Nat) (f : PwmChan → PwmChan) : (s.modChan n f).tickDue = s.tickDue := rfl
@[simp] theorem State.modChan_drawn (n : Nat) (f : PwmChan → PwmChan) : (s.modChan n f).drawn = s.drawn := rfl
@[simp] theorem State.modChan_accepts (n : Nat) (f : PwmChan → PwmChan) : (s.modChan n f).accepts = s.accepts := rfl
@[simp] theorem State.modChan_newTick (n : Nat) (f : PwmChan → PwmChan) : (s.modChan n f).newTick = s.newTick := rfl
@[simp] theorem State.modChan_setNow (n : Nat) (f : PwmChan → PwmChan) : (s.modChan n f).setNow = s.setNow := rfl
@[simp] theorem State.modChan_gens (n : Nat) (f : PwmChan → PwmChan) : (s.modChan n f).gens = s.gens := rfl
@[simp] theorem State.modChan_ccs (n : Nat) (f : PwmChan → PwmChan) : (s.modChan n f).ccs = s.ccs := rfl
@[simp] theorem State.modChan_groups (n : Nat) (f : PwmChan → PwmChan) : (s.modChan n f).groups = s.groups := rfl
@[simp] theorem State.modChan_windows (n : Nat) (f : PwmChan → PwmChan) : (s.modChan n f).windows = s.windows := rfl
@[simp] theorem State.modChan_filtOld (n : Nat) (f : PwmChan → PwmChan) : (s.modChan n f).filtOld = s.filtOld := rfl
@[simp] theorem State.modChan_streams (n : Nat) (f : PwmChan → PwmChan) : (s.modChan n f).streams = s.streams := rfl
@[simp] theorem State.modChan_hosts (n : Nat) (f : PwmChan → PwmChan) : (s.modChan n f).hosts = s.hosts := rfl
@[simp] theorem State.modChan_swaps (n : Nat) (f : PwmChan → PwmChan) : (s.modChan n f).swaps = s.swaps := rfl
@[simp] theorem State.modChan_engines (n : Nat) (f : PwmChan → PwmChan) : (s.modChan n f).engines = s.engines := rfl
@[simp] theorem State.modChan_ckps (n : Nat) (f : PwmChan → PwmChan) : (s.modChan n f).ckps = s.ckps := rfl
@[simp] theorem State.modChan_prs (n : Nat) (f : PwmChan → PwmChan) : (s.modChan n f).prs = s.prs := rfl
@[simp] theorem State.modChan_decs (n : Nat) (f : PwmChan → PwmChan) : (s.modChan n f).decs = s.decs := rfl
@[simp] theorem State.modChan_hkc (n : Nat) (f : PwmChan → PwmChan) : (s.modChan n f).hkc = s.hkc := rfl
@[simp] theorem State.modChan_fbs (n : Nat) (f : PwmChan → PwmChan) : (s.modChan n f).fbs = s.fbs := rfl
@[simp] theorem State.modChan_lines (n : Nat) (f : PwmChan → PwmChan) : (s.modChan n f).lines = s.lines := rfl
@[simp] theorem State.modChan_capAt (n : Nat) (f : PwmChan → PwmChan) : (s.modChan n f).capAt = s.capAt := rfl
@[simp] theorem State.modChan_pcos (n : Nat) (f : PwmChan → PwmChan) : (s.modChan n f).pcos = s.pcos := rfl
@[simp] theorem State.modChan_coll (n : Nat) (f : PwmChan → PwmChan) : (s.modChan n f).coll = s.coll := rfl
@[simp] theorem State.modChan_log (n : Nat) (f : PwmChan → PwmChan) : (s.modChan n f).log = s.log := rfl
@[simp] theorem State.modChan_flash (n : Nat) (f : PwmChan → PwmChan) : (s.modChan n f).flash = s.flash := rfl
@[simp] theorem State.modChan_otp (n : Nat) (f : PwmChan → PwmChan) : (s.modChan n f).otp = s.otp := rfl
@[simp] theorem State.modChan_bly (n : Nat) (f : PwmChan → PwmChan) : (s.modChan n f).bly = s.bly := rfl
@[simp] theorem State.modChan_safeoff (n : Nat) (f : PwmChan → PwmChan) : (s.modChan n f).safeoff = s.safeoff := rfl
@[simp] theorem State.modChan_pulses (n : Nat) (f : PwmChan → PwmChan) : (s.modChan n f).pulses = s.pulses := rfl
@[simp] theorem State.modChan_csps (n : Nat) (f : PwmChan → PwmChan) : (s.modChan n f).csps = s.csps := rfl
@[simp] theorem State.modChan_eths (n : Nat) (f : PwmChan → PwmChan) : (s.modChan n f).eths = s.eths := rfl
@[simp] theorem State.modChan_gptp (n : Nat) (f : PwmChan → PwmChan) : (s.modChan n f).gptp = s.gptp := rfl
@[simp] theorem State.modChan_sent (n : Nat) (f : PwmChan → PwmChan) : (s.modChan n f).sent = s.sent := rfl
@[simp] theorem State.modChan_dataOut (n : Nat) (f : PwmChan → PwmChan) : (s.modChan n f).dataOut = s.dataOut := rfl
@[simp] theorem State.modChan_imgIdx (n : Nat) (f : PwmChan → PwmChan) : (s.modChan n f).imgIdx = s.imgIdx := rfl
@[simp] theorem State.modChan_hoCmd (n : Nat) (f : PwmChan → PwmChan) : (s.modChan n f).hoCmd = s.hoCmd := rfl
@[simp] theorem State.modChan_hoAt (n : Nat) (f : PwmChan → PwmChan) : (s.modChan n f).hoAt = s.hoAt := rfl
@[simp] theorem State.modChan_hoDead (n : Nat) (f : PwmChan → PwmChan) : (s.modChan n f).hoDead = s.hoDead := rfl
@[simp] theorem State.modChan_rstReq (n : Nat) (f : PwmChan → PwmChan) : (s.modChan n f).rstReq = s.rstReq := rfl
@[simp] theorem State.modChan_biv (n : Nat) (f : PwmChan → PwmChan) : (s.modChan n f).biv = s.biv := rfl
@[simp] theorem State.modChan_panel (n : Nat) (f : PwmChan → PwmChan) : (s.modChan n f).panel = s.panel := rfl
@[simp] theorem State.modChan_portsOff (n : Nat) (f : PwmChan → PwmChan) : (s.modChan n f).portsOff = s.portsOff := rfl

/-! ### modStream -/

@[simp] theorem State.modStream_pending (n : Nat) (f : Stream → Stream) : (s.modStream n f).pending = s.pending := rfl
@[simp] theorem State.modStream_straps (n : Nat) (f : Stream → Stream) : (s.modStream n f).straps = s.straps := rfl
@[simp] theorem State.modStream_power (n : Nat) (f : Stream → Stream) : (s.modStream n f).power = s.power := rfl
@[simp] theorem State.modStream_regs (n : Nat) (f : Stream → Stream) : (s.modStream n f).regs = s.regs := rfl
@[simp] theorem State.modStream_mem (n : Nat) (f : Stream → Stream) : (s.modStream n f).mem = s.mem := rfl
@[simp] theorem State.modStream_now (n : Nat) (f : Stream → Stream) : (s.modStream n f).now = s.now := rfl
@[simp] theorem State.modStream_tickAt (n : Nat) (f : Stream → Stream) : (s.modStream n f).tickAt = s.tickAt := rfl
@[simp] theorem State.modStream_tickLeft (n : Nat) (f : Stream → Stream) : (s.modStream n f).tickLeft = s.tickLeft := rfl
@[simp] theorem State.modStream_tickDue (n : Nat) (f : Stream → Stream) : (s.modStream n f).tickDue = s.tickDue := rfl
@[simp] theorem State.modStream_drawn (n : Nat) (f : Stream → Stream) : (s.modStream n f).drawn = s.drawn := rfl
@[simp] theorem State.modStream_accepts (n : Nat) (f : Stream → Stream) : (s.modStream n f).accepts = s.accepts := rfl
@[simp] theorem State.modStream_newTick (n : Nat) (f : Stream → Stream) : (s.modStream n f).newTick = s.newTick := rfl
@[simp] theorem State.modStream_setNow (n : Nat) (f : Stream → Stream) : (s.modStream n f).setNow = s.setNow := rfl
@[simp] theorem State.modStream_gens (n : Nat) (f : Stream → Stream) : (s.modStream n f).gens = s.gens := rfl
@[simp] theorem State.modStream_ccs (n : Nat) (f : Stream → Stream) : (s.modStream n f).ccs = s.ccs := rfl
@[simp] theorem State.modStream_chans (n : Nat) (f : Stream → Stream) : (s.modStream n f).chans = s.chans := rfl
@[simp] theorem State.modStream_groups (n : Nat) (f : Stream → Stream) : (s.modStream n f).groups = s.groups := rfl
@[simp] theorem State.modStream_windows (n : Nat) (f : Stream → Stream) : (s.modStream n f).windows = s.windows := rfl
@[simp] theorem State.modStream_filtOld (n : Nat) (f : Stream → Stream) : (s.modStream n f).filtOld = s.filtOld := rfl
@[simp] theorem State.modStream_hosts (n : Nat) (f : Stream → Stream) : (s.modStream n f).hosts = s.hosts := rfl
@[simp] theorem State.modStream_swaps (n : Nat) (f : Stream → Stream) : (s.modStream n f).swaps = s.swaps := rfl
@[simp] theorem State.modStream_engines (n : Nat) (f : Stream → Stream) : (s.modStream n f).engines = s.engines := rfl
@[simp] theorem State.modStream_ckps (n : Nat) (f : Stream → Stream) : (s.modStream n f).ckps = s.ckps := rfl
@[simp] theorem State.modStream_prs (n : Nat) (f : Stream → Stream) : (s.modStream n f).prs = s.prs := rfl
@[simp] theorem State.modStream_decs (n : Nat) (f : Stream → Stream) : (s.modStream n f).decs = s.decs := rfl
@[simp] theorem State.modStream_hkc (n : Nat) (f : Stream → Stream) : (s.modStream n f).hkc = s.hkc := rfl
@[simp] theorem State.modStream_fbs (n : Nat) (f : Stream → Stream) : (s.modStream n f).fbs = s.fbs := rfl
@[simp] theorem State.modStream_lines (n : Nat) (f : Stream → Stream) : (s.modStream n f).lines = s.lines := rfl
@[simp] theorem State.modStream_capAt (n : Nat) (f : Stream → Stream) : (s.modStream n f).capAt = s.capAt := rfl
@[simp] theorem State.modStream_pcos (n : Nat) (f : Stream → Stream) : (s.modStream n f).pcos = s.pcos := rfl
@[simp] theorem State.modStream_coll (n : Nat) (f : Stream → Stream) : (s.modStream n f).coll = s.coll := rfl
@[simp] theorem State.modStream_log (n : Nat) (f : Stream → Stream) : (s.modStream n f).log = s.log := rfl
@[simp] theorem State.modStream_flash (n : Nat) (f : Stream → Stream) : (s.modStream n f).flash = s.flash := rfl
@[simp] theorem State.modStream_otp (n : Nat) (f : Stream → Stream) : (s.modStream n f).otp = s.otp := rfl
@[simp] theorem State.modStream_bly (n : Nat) (f : Stream → Stream) : (s.modStream n f).bly = s.bly := rfl
@[simp] theorem State.modStream_safeoff (n : Nat) (f : Stream → Stream) : (s.modStream n f).safeoff = s.safeoff := rfl
@[simp] theorem State.modStream_pulses (n : Nat) (f : Stream → Stream) : (s.modStream n f).pulses = s.pulses := rfl
@[simp] theorem State.modStream_csps (n : Nat) (f : Stream → Stream) : (s.modStream n f).csps = s.csps := rfl
@[simp] theorem State.modStream_eths (n : Nat) (f : Stream → Stream) : (s.modStream n f).eths = s.eths := rfl
@[simp] theorem State.modStream_gptp (n : Nat) (f : Stream → Stream) : (s.modStream n f).gptp = s.gptp := rfl
@[simp] theorem State.modStream_sent (n : Nat) (f : Stream → Stream) : (s.modStream n f).sent = s.sent := rfl
@[simp] theorem State.modStream_dataOut (n : Nat) (f : Stream → Stream) : (s.modStream n f).dataOut = s.dataOut := rfl
@[simp] theorem State.modStream_imgIdx (n : Nat) (f : Stream → Stream) : (s.modStream n f).imgIdx = s.imgIdx := rfl
@[simp] theorem State.modStream_hoCmd (n : Nat) (f : Stream → Stream) : (s.modStream n f).hoCmd = s.hoCmd := rfl
@[simp] theorem State.modStream_hoAt (n : Nat) (f : Stream → Stream) : (s.modStream n f).hoAt = s.hoAt := rfl
@[simp] theorem State.modStream_hoDead (n : Nat) (f : Stream → Stream) : (s.modStream n f).hoDead = s.hoDead := rfl
@[simp] theorem State.modStream_rstReq (n : Nat) (f : Stream → Stream) : (s.modStream n f).rstReq = s.rstReq := rfl
@[simp] theorem State.modStream_biv (n : Nat) (f : Stream → Stream) : (s.modStream n f).biv = s.biv := rfl
@[simp] theorem State.modStream_panel (n : Nat) (f : Stream → Stream) : (s.modStream n f).panel = s.panel := rfl
@[simp] theorem State.modStream_portsOff (n : Nat) (f : Stream → Stream) : (s.modStream n f).portsOff = s.portsOff := rfl

/-! ### modHost -/

@[simp] theorem State.modHost_pending (n : Nat) (f : HostSt → HostSt) : (s.modHost n f).pending = s.pending := rfl
@[simp] theorem State.modHost_straps (n : Nat) (f : HostSt → HostSt) : (s.modHost n f).straps = s.straps := rfl
@[simp] theorem State.modHost_power (n : Nat) (f : HostSt → HostSt) : (s.modHost n f).power = s.power := rfl
@[simp] theorem State.modHost_regs (n : Nat) (f : HostSt → HostSt) : (s.modHost n f).regs = s.regs := rfl
@[simp] theorem State.modHost_mem (n : Nat) (f : HostSt → HostSt) : (s.modHost n f).mem = s.mem := rfl
@[simp] theorem State.modHost_now (n : Nat) (f : HostSt → HostSt) : (s.modHost n f).now = s.now := rfl
@[simp] theorem State.modHost_tickAt (n : Nat) (f : HostSt → HostSt) : (s.modHost n f).tickAt = s.tickAt := rfl
@[simp] theorem State.modHost_tickLeft (n : Nat) (f : HostSt → HostSt) : (s.modHost n f).tickLeft = s.tickLeft := rfl
@[simp] theorem State.modHost_tickDue (n : Nat) (f : HostSt → HostSt) : (s.modHost n f).tickDue = s.tickDue := rfl
@[simp] theorem State.modHost_drawn (n : Nat) (f : HostSt → HostSt) : (s.modHost n f).drawn = s.drawn := rfl
@[simp] theorem State.modHost_accepts (n : Nat) (f : HostSt → HostSt) : (s.modHost n f).accepts = s.accepts := rfl
@[simp] theorem State.modHost_newTick (n : Nat) (f : HostSt → HostSt) : (s.modHost n f).newTick = s.newTick := rfl
@[simp] theorem State.modHost_setNow (n : Nat) (f : HostSt → HostSt) : (s.modHost n f).setNow = s.setNow := rfl
@[simp] theorem State.modHost_gens (n : Nat) (f : HostSt → HostSt) : (s.modHost n f).gens = s.gens := rfl
@[simp] theorem State.modHost_ccs (n : Nat) (f : HostSt → HostSt) : (s.modHost n f).ccs = s.ccs := rfl
@[simp] theorem State.modHost_chans (n : Nat) (f : HostSt → HostSt) : (s.modHost n f).chans = s.chans := rfl
@[simp] theorem State.modHost_groups (n : Nat) (f : HostSt → HostSt) : (s.modHost n f).groups = s.groups := rfl
@[simp] theorem State.modHost_windows (n : Nat) (f : HostSt → HostSt) : (s.modHost n f).windows = s.windows := rfl
@[simp] theorem State.modHost_filtOld (n : Nat) (f : HostSt → HostSt) : (s.modHost n f).filtOld = s.filtOld := rfl
@[simp] theorem State.modHost_streams (n : Nat) (f : HostSt → HostSt) : (s.modHost n f).streams = s.streams := rfl
@[simp] theorem State.modHost_swaps (n : Nat) (f : HostSt → HostSt) : (s.modHost n f).swaps = s.swaps := rfl
@[simp] theorem State.modHost_engines (n : Nat) (f : HostSt → HostSt) : (s.modHost n f).engines = s.engines := rfl
@[simp] theorem State.modHost_ckps (n : Nat) (f : HostSt → HostSt) : (s.modHost n f).ckps = s.ckps := rfl
@[simp] theorem State.modHost_prs (n : Nat) (f : HostSt → HostSt) : (s.modHost n f).prs = s.prs := rfl
@[simp] theorem State.modHost_decs (n : Nat) (f : HostSt → HostSt) : (s.modHost n f).decs = s.decs := rfl
@[simp] theorem State.modHost_hkc (n : Nat) (f : HostSt → HostSt) : (s.modHost n f).hkc = s.hkc := rfl
@[simp] theorem State.modHost_fbs (n : Nat) (f : HostSt → HostSt) : (s.modHost n f).fbs = s.fbs := rfl
@[simp] theorem State.modHost_lines (n : Nat) (f : HostSt → HostSt) : (s.modHost n f).lines = s.lines := rfl
@[simp] theorem State.modHost_capAt (n : Nat) (f : HostSt → HostSt) : (s.modHost n f).capAt = s.capAt := rfl
@[simp] theorem State.modHost_pcos (n : Nat) (f : HostSt → HostSt) : (s.modHost n f).pcos = s.pcos := rfl
@[simp] theorem State.modHost_coll (n : Nat) (f : HostSt → HostSt) : (s.modHost n f).coll = s.coll := rfl
@[simp] theorem State.modHost_log (n : Nat) (f : HostSt → HostSt) : (s.modHost n f).log = s.log := rfl
@[simp] theorem State.modHost_flash (n : Nat) (f : HostSt → HostSt) : (s.modHost n f).flash = s.flash := rfl
@[simp] theorem State.modHost_otp (n : Nat) (f : HostSt → HostSt) : (s.modHost n f).otp = s.otp := rfl
@[simp] theorem State.modHost_bly (n : Nat) (f : HostSt → HostSt) : (s.modHost n f).bly = s.bly := rfl
@[simp] theorem State.modHost_safeoff (n : Nat) (f : HostSt → HostSt) : (s.modHost n f).safeoff = s.safeoff := rfl
@[simp] theorem State.modHost_pulses (n : Nat) (f : HostSt → HostSt) : (s.modHost n f).pulses = s.pulses := rfl
@[simp] theorem State.modHost_csps (n : Nat) (f : HostSt → HostSt) : (s.modHost n f).csps = s.csps := rfl
@[simp] theorem State.modHost_eths (n : Nat) (f : HostSt → HostSt) : (s.modHost n f).eths = s.eths := rfl
@[simp] theorem State.modHost_gptp (n : Nat) (f : HostSt → HostSt) : (s.modHost n f).gptp = s.gptp := rfl
@[simp] theorem State.modHost_sent (n : Nat) (f : HostSt → HostSt) : (s.modHost n f).sent = s.sent := rfl
@[simp] theorem State.modHost_dataOut (n : Nat) (f : HostSt → HostSt) : (s.modHost n f).dataOut = s.dataOut := rfl
@[simp] theorem State.modHost_imgIdx (n : Nat) (f : HostSt → HostSt) : (s.modHost n f).imgIdx = s.imgIdx := rfl
@[simp] theorem State.modHost_hoCmd (n : Nat) (f : HostSt → HostSt) : (s.modHost n f).hoCmd = s.hoCmd := rfl
@[simp] theorem State.modHost_hoAt (n : Nat) (f : HostSt → HostSt) : (s.modHost n f).hoAt = s.hoAt := rfl
@[simp] theorem State.modHost_hoDead (n : Nat) (f : HostSt → HostSt) : (s.modHost n f).hoDead = s.hoDead := rfl
@[simp] theorem State.modHost_rstReq (n : Nat) (f : HostSt → HostSt) : (s.modHost n f).rstReq = s.rstReq := rfl
@[simp] theorem State.modHost_biv (n : Nat) (f : HostSt → HostSt) : (s.modHost n f).biv = s.biv := rfl
@[simp] theorem State.modHost_panel (n : Nat) (f : HostSt → HostSt) : (s.modHost n f).panel = s.panel := rfl
@[simp] theorem State.modHost_portsOff (n : Nat) (f : HostSt → HostSt) : (s.modHost n f).portsOff = s.portsOff := rfl

/-! ### modSwap -/

@[simp] theorem State.modSwap_pending (n : Nat) (f : Swap → Swap) : (s.modSwap n f).pending = s.pending := rfl
@[simp] theorem State.modSwap_straps (n : Nat) (f : Swap → Swap) : (s.modSwap n f).straps = s.straps := rfl
@[simp] theorem State.modSwap_power (n : Nat) (f : Swap → Swap) : (s.modSwap n f).power = s.power := rfl
@[simp] theorem State.modSwap_regs (n : Nat) (f : Swap → Swap) : (s.modSwap n f).regs = s.regs := rfl
@[simp] theorem State.modSwap_mem (n : Nat) (f : Swap → Swap) : (s.modSwap n f).mem = s.mem := rfl
@[simp] theorem State.modSwap_now (n : Nat) (f : Swap → Swap) : (s.modSwap n f).now = s.now := rfl
@[simp] theorem State.modSwap_tickAt (n : Nat) (f : Swap → Swap) : (s.modSwap n f).tickAt = s.tickAt := rfl
@[simp] theorem State.modSwap_tickLeft (n : Nat) (f : Swap → Swap) : (s.modSwap n f).tickLeft = s.tickLeft := rfl
@[simp] theorem State.modSwap_tickDue (n : Nat) (f : Swap → Swap) : (s.modSwap n f).tickDue = s.tickDue := rfl
@[simp] theorem State.modSwap_drawn (n : Nat) (f : Swap → Swap) : (s.modSwap n f).drawn = s.drawn := rfl
@[simp] theorem State.modSwap_accepts (n : Nat) (f : Swap → Swap) : (s.modSwap n f).accepts = s.accepts := rfl
@[simp] theorem State.modSwap_newTick (n : Nat) (f : Swap → Swap) : (s.modSwap n f).newTick = s.newTick := rfl
@[simp] theorem State.modSwap_setNow (n : Nat) (f : Swap → Swap) : (s.modSwap n f).setNow = s.setNow := rfl
@[simp] theorem State.modSwap_gens (n : Nat) (f : Swap → Swap) : (s.modSwap n f).gens = s.gens := rfl
@[simp] theorem State.modSwap_ccs (n : Nat) (f : Swap → Swap) : (s.modSwap n f).ccs = s.ccs := rfl
@[simp] theorem State.modSwap_chans (n : Nat) (f : Swap → Swap) : (s.modSwap n f).chans = s.chans := rfl
@[simp] theorem State.modSwap_groups (n : Nat) (f : Swap → Swap) : (s.modSwap n f).groups = s.groups := rfl
@[simp] theorem State.modSwap_windows (n : Nat) (f : Swap → Swap) : (s.modSwap n f).windows = s.windows := rfl
@[simp] theorem State.modSwap_filtOld (n : Nat) (f : Swap → Swap) : (s.modSwap n f).filtOld = s.filtOld := rfl
@[simp] theorem State.modSwap_streams (n : Nat) (f : Swap → Swap) : (s.modSwap n f).streams = s.streams := rfl
@[simp] theorem State.modSwap_hosts (n : Nat) (f : Swap → Swap) : (s.modSwap n f).hosts = s.hosts := rfl
@[simp] theorem State.modSwap_engines (n : Nat) (f : Swap → Swap) : (s.modSwap n f).engines = s.engines := rfl
@[simp] theorem State.modSwap_ckps (n : Nat) (f : Swap → Swap) : (s.modSwap n f).ckps = s.ckps := rfl
@[simp] theorem State.modSwap_prs (n : Nat) (f : Swap → Swap) : (s.modSwap n f).prs = s.prs := rfl
@[simp] theorem State.modSwap_decs (n : Nat) (f : Swap → Swap) : (s.modSwap n f).decs = s.decs := rfl
@[simp] theorem State.modSwap_hkc (n : Nat) (f : Swap → Swap) : (s.modSwap n f).hkc = s.hkc := rfl
@[simp] theorem State.modSwap_fbs (n : Nat) (f : Swap → Swap) : (s.modSwap n f).fbs = s.fbs := rfl
@[simp] theorem State.modSwap_lines (n : Nat) (f : Swap → Swap) : (s.modSwap n f).lines = s.lines := rfl
@[simp] theorem State.modSwap_capAt (n : Nat) (f : Swap → Swap) : (s.modSwap n f).capAt = s.capAt := rfl
@[simp] theorem State.modSwap_pcos (n : Nat) (f : Swap → Swap) : (s.modSwap n f).pcos = s.pcos := rfl
@[simp] theorem State.modSwap_coll (n : Nat) (f : Swap → Swap) : (s.modSwap n f).coll = s.coll := rfl
@[simp] theorem State.modSwap_log (n : Nat) (f : Swap → Swap) : (s.modSwap n f).log = s.log := rfl
@[simp] theorem State.modSwap_flash (n : Nat) (f : Swap → Swap) : (s.modSwap n f).flash = s.flash := rfl
@[simp] theorem State.modSwap_otp (n : Nat) (f : Swap → Swap) : (s.modSwap n f).otp = s.otp := rfl
@[simp] theorem State.modSwap_bly (n : Nat) (f : Swap → Swap) : (s.modSwap n f).bly = s.bly := rfl
@[simp] theorem State.modSwap_safeoff (n : Nat) (f : Swap → Swap) : (s.modSwap n f).safeoff = s.safeoff := rfl
@[simp] theorem State.modSwap_pulses (n : Nat) (f : Swap → Swap) : (s.modSwap n f).pulses = s.pulses := rfl
@[simp] theorem State.modSwap_csps (n : Nat) (f : Swap → Swap) : (s.modSwap n f).csps = s.csps := rfl
@[simp] theorem State.modSwap_eths (n : Nat) (f : Swap → Swap) : (s.modSwap n f).eths = s.eths := rfl
@[simp] theorem State.modSwap_gptp (n : Nat) (f : Swap → Swap) : (s.modSwap n f).gptp = s.gptp := rfl
@[simp] theorem State.modSwap_sent (n : Nat) (f : Swap → Swap) : (s.modSwap n f).sent = s.sent := rfl
@[simp] theorem State.modSwap_dataOut (n : Nat) (f : Swap → Swap) : (s.modSwap n f).dataOut = s.dataOut := rfl
@[simp] theorem State.modSwap_imgIdx (n : Nat) (f : Swap → Swap) : (s.modSwap n f).imgIdx = s.imgIdx := rfl
@[simp] theorem State.modSwap_hoCmd (n : Nat) (f : Swap → Swap) : (s.modSwap n f).hoCmd = s.hoCmd := rfl
@[simp] theorem State.modSwap_hoAt (n : Nat) (f : Swap → Swap) : (s.modSwap n f).hoAt = s.hoAt := rfl
@[simp] theorem State.modSwap_hoDead (n : Nat) (f : Swap → Swap) : (s.modSwap n f).hoDead = s.hoDead := rfl
@[simp] theorem State.modSwap_rstReq (n : Nat) (f : Swap → Swap) : (s.modSwap n f).rstReq = s.rstReq := rfl
@[simp] theorem State.modSwap_biv (n : Nat) (f : Swap → Swap) : (s.modSwap n f).biv = s.biv := rfl
@[simp] theorem State.modSwap_panel (n : Nat) (f : Swap → Swap) : (s.modSwap n f).panel = s.panel := rfl
@[simp] theorem State.modSwap_portsOff (n : Nat) (f : Swap → Swap) : (s.modSwap n f).portsOff = s.portsOff := rfl

/-! ### modEngine -/

@[simp] theorem State.modEngine_pending (n : Nat) (f : Engine → Engine) : (s.modEngine n f).pending = s.pending := rfl
@[simp] theorem State.modEngine_straps (n : Nat) (f : Engine → Engine) : (s.modEngine n f).straps = s.straps := rfl
@[simp] theorem State.modEngine_power (n : Nat) (f : Engine → Engine) : (s.modEngine n f).power = s.power := rfl
@[simp] theorem State.modEngine_regs (n : Nat) (f : Engine → Engine) : (s.modEngine n f).regs = s.regs := rfl
@[simp] theorem State.modEngine_mem (n : Nat) (f : Engine → Engine) : (s.modEngine n f).mem = s.mem := rfl
@[simp] theorem State.modEngine_now (n : Nat) (f : Engine → Engine) : (s.modEngine n f).now = s.now := rfl
@[simp] theorem State.modEngine_tickAt (n : Nat) (f : Engine → Engine) : (s.modEngine n f).tickAt = s.tickAt := rfl
@[simp] theorem State.modEngine_tickLeft (n : Nat) (f : Engine → Engine) : (s.modEngine n f).tickLeft = s.tickLeft := rfl
@[simp] theorem State.modEngine_tickDue (n : Nat) (f : Engine → Engine) : (s.modEngine n f).tickDue = s.tickDue := rfl
@[simp] theorem State.modEngine_drawn (n : Nat) (f : Engine → Engine) : (s.modEngine n f).drawn = s.drawn := rfl
@[simp] theorem State.modEngine_accepts (n : Nat) (f : Engine → Engine) : (s.modEngine n f).accepts = s.accepts := rfl
@[simp] theorem State.modEngine_newTick (n : Nat) (f : Engine → Engine) : (s.modEngine n f).newTick = s.newTick := rfl
@[simp] theorem State.modEngine_setNow (n : Nat) (f : Engine → Engine) : (s.modEngine n f).setNow = s.setNow := rfl
@[simp] theorem State.modEngine_gens (n : Nat) (f : Engine → Engine) : (s.modEngine n f).gens = s.gens := rfl
@[simp] theorem State.modEngine_ccs (n : Nat) (f : Engine → Engine) : (s.modEngine n f).ccs = s.ccs := rfl
@[simp] theorem State.modEngine_chans (n : Nat) (f : Engine → Engine) : (s.modEngine n f).chans = s.chans := rfl
@[simp] theorem State.modEngine_groups (n : Nat) (f : Engine → Engine) : (s.modEngine n f).groups = s.groups := rfl
@[simp] theorem State.modEngine_windows (n : Nat) (f : Engine → Engine) : (s.modEngine n f).windows = s.windows := rfl
@[simp] theorem State.modEngine_filtOld (n : Nat) (f : Engine → Engine) : (s.modEngine n f).filtOld = s.filtOld := rfl
@[simp] theorem State.modEngine_streams (n : Nat) (f : Engine → Engine) : (s.modEngine n f).streams = s.streams := rfl
@[simp] theorem State.modEngine_hosts (n : Nat) (f : Engine → Engine) : (s.modEngine n f).hosts = s.hosts := rfl
@[simp] theorem State.modEngine_swaps (n : Nat) (f : Engine → Engine) : (s.modEngine n f).swaps = s.swaps := rfl
@[simp] theorem State.modEngine_ckps (n : Nat) (f : Engine → Engine) : (s.modEngine n f).ckps = s.ckps := rfl
@[simp] theorem State.modEngine_prs (n : Nat) (f : Engine → Engine) : (s.modEngine n f).prs = s.prs := rfl
@[simp] theorem State.modEngine_decs (n : Nat) (f : Engine → Engine) : (s.modEngine n f).decs = s.decs := rfl
@[simp] theorem State.modEngine_hkc (n : Nat) (f : Engine → Engine) : (s.modEngine n f).hkc = s.hkc := rfl
@[simp] theorem State.modEngine_fbs (n : Nat) (f : Engine → Engine) : (s.modEngine n f).fbs = s.fbs := rfl
@[simp] theorem State.modEngine_lines (n : Nat) (f : Engine → Engine) : (s.modEngine n f).lines = s.lines := rfl
@[simp] theorem State.modEngine_capAt (n : Nat) (f : Engine → Engine) : (s.modEngine n f).capAt = s.capAt := rfl
@[simp] theorem State.modEngine_pcos (n : Nat) (f : Engine → Engine) : (s.modEngine n f).pcos = s.pcos := rfl
@[simp] theorem State.modEngine_coll (n : Nat) (f : Engine → Engine) : (s.modEngine n f).coll = s.coll := rfl
@[simp] theorem State.modEngine_log (n : Nat) (f : Engine → Engine) : (s.modEngine n f).log = s.log := rfl
@[simp] theorem State.modEngine_flash (n : Nat) (f : Engine → Engine) : (s.modEngine n f).flash = s.flash := rfl
@[simp] theorem State.modEngine_otp (n : Nat) (f : Engine → Engine) : (s.modEngine n f).otp = s.otp := rfl
@[simp] theorem State.modEngine_bly (n : Nat) (f : Engine → Engine) : (s.modEngine n f).bly = s.bly := rfl
@[simp] theorem State.modEngine_safeoff (n : Nat) (f : Engine → Engine) : (s.modEngine n f).safeoff = s.safeoff := rfl
@[simp] theorem State.modEngine_pulses (n : Nat) (f : Engine → Engine) : (s.modEngine n f).pulses = s.pulses := rfl
@[simp] theorem State.modEngine_csps (n : Nat) (f : Engine → Engine) : (s.modEngine n f).csps = s.csps := rfl
@[simp] theorem State.modEngine_eths (n : Nat) (f : Engine → Engine) : (s.modEngine n f).eths = s.eths := rfl
@[simp] theorem State.modEngine_gptp (n : Nat) (f : Engine → Engine) : (s.modEngine n f).gptp = s.gptp := rfl
@[simp] theorem State.modEngine_sent (n : Nat) (f : Engine → Engine) : (s.modEngine n f).sent = s.sent := rfl
@[simp] theorem State.modEngine_dataOut (n : Nat) (f : Engine → Engine) : (s.modEngine n f).dataOut = s.dataOut := rfl
@[simp] theorem State.modEngine_imgIdx (n : Nat) (f : Engine → Engine) : (s.modEngine n f).imgIdx = s.imgIdx := rfl
@[simp] theorem State.modEngine_hoCmd (n : Nat) (f : Engine → Engine) : (s.modEngine n f).hoCmd = s.hoCmd := rfl
@[simp] theorem State.modEngine_hoAt (n : Nat) (f : Engine → Engine) : (s.modEngine n f).hoAt = s.hoAt := rfl
@[simp] theorem State.modEngine_hoDead (n : Nat) (f : Engine → Engine) : (s.modEngine n f).hoDead = s.hoDead := rfl
@[simp] theorem State.modEngine_rstReq (n : Nat) (f : Engine → Engine) : (s.modEngine n f).rstReq = s.rstReq := rfl
@[simp] theorem State.modEngine_biv (n : Nat) (f : Engine → Engine) : (s.modEngine n f).biv = s.biv := rfl
@[simp] theorem State.modEngine_panel (n : Nat) (f : Engine → Engine) : (s.modEngine n f).panel = s.panel := rfl
@[simp] theorem State.modEngine_portsOff (n : Nat) (f : Engine → Engine) : (s.modEngine n f).portsOff = s.portsOff := rfl

/-! ### modPr -/

@[simp] theorem State.modPr_pending (n : Nat) (f : Prusik → Prusik) : (s.modPr n f).pending = s.pending := rfl
@[simp] theorem State.modPr_straps (n : Nat) (f : Prusik → Prusik) : (s.modPr n f).straps = s.straps := rfl
@[simp] theorem State.modPr_power (n : Nat) (f : Prusik → Prusik) : (s.modPr n f).power = s.power := rfl
@[simp] theorem State.modPr_regs (n : Nat) (f : Prusik → Prusik) : (s.modPr n f).regs = s.regs := rfl
@[simp] theorem State.modPr_mem (n : Nat) (f : Prusik → Prusik) : (s.modPr n f).mem = s.mem := rfl
@[simp] theorem State.modPr_now (n : Nat) (f : Prusik → Prusik) : (s.modPr n f).now = s.now := rfl
@[simp] theorem State.modPr_tickAt (n : Nat) (f : Prusik → Prusik) : (s.modPr n f).tickAt = s.tickAt := rfl
@[simp] theorem State.modPr_tickLeft (n : Nat) (f : Prusik → Prusik) : (s.modPr n f).tickLeft = s.tickLeft := rfl
@[simp] theorem State.modPr_tickDue (n : Nat) (f : Prusik → Prusik) : (s.modPr n f).tickDue = s.tickDue := rfl
@[simp] theorem State.modPr_drawn (n : Nat) (f : Prusik → Prusik) : (s.modPr n f).drawn = s.drawn := rfl
@[simp] theorem State.modPr_accepts (n : Nat) (f : Prusik → Prusik) : (s.modPr n f).accepts = s.accepts := rfl
@[simp] theorem State.modPr_newTick (n : Nat) (f : Prusik → Prusik) : (s.modPr n f).newTick = s.newTick := rfl
@[simp] theorem State.modPr_setNow (n : Nat) (f : Prusik → Prusik) : (s.modPr n f).setNow = s.setNow := rfl
@[simp] theorem State.modPr_gens (n : Nat) (f : Prusik → Prusik) : (s.modPr n f).gens = s.gens := rfl
@[simp] theorem State.modPr_ccs (n : Nat) (f : Prusik → Prusik) : (s.modPr n f).ccs = s.ccs := rfl
@[simp] theorem State.modPr_chans (n : Nat) (f : Prusik → Prusik) : (s.modPr n f).chans = s.chans := rfl
@[simp] theorem State.modPr_groups (n : Nat) (f : Prusik → Prusik) : (s.modPr n f).groups = s.groups := rfl
@[simp] theorem State.modPr_windows (n : Nat) (f : Prusik → Prusik) : (s.modPr n f).windows = s.windows := rfl
@[simp] theorem State.modPr_filtOld (n : Nat) (f : Prusik → Prusik) : (s.modPr n f).filtOld = s.filtOld := rfl
@[simp] theorem State.modPr_streams (n : Nat) (f : Prusik → Prusik) : (s.modPr n f).streams = s.streams := rfl
@[simp] theorem State.modPr_hosts (n : Nat) (f : Prusik → Prusik) : (s.modPr n f).hosts = s.hosts := rfl
@[simp] theorem State.modPr_swaps (n : Nat) (f : Prusik → Prusik) : (s.modPr n f).swaps = s.swaps := rfl
@[simp] theorem State.modPr_engines (n : Nat) (f : Prusik → Prusik) : (s.modPr n f).engines = s.engines := rfl
@[simp] theorem State.modPr_ckps (n : Nat) (f : Prusik → Prusik) : (s.modPr n f).ckps = s.ckps := rfl
@[simp] theorem State.modPr_decs (n : Nat) (f : Prusik → Prusik) : (s.modPr n f).decs = s.decs := rfl
@[simp] theorem State.modPr_hkc (n : Nat) (f : Prusik → Prusik) : (s.modPr n f).hkc = s.hkc := rfl
@[simp] theorem State.modPr_fbs (n : Nat) (f : Prusik → Prusik) : (s.modPr n f).fbs = s.fbs := rfl
@[simp] theorem State.modPr_lines (n : Nat) (f : Prusik → Prusik) : (s.modPr n f).lines = s.lines := rfl
@[simp] theorem State.modPr_capAt (n : Nat) (f : Prusik → Prusik) : (s.modPr n f).capAt = s.capAt := rfl
@[simp] theorem State.modPr_pcos (n : Nat) (f : Prusik → Prusik) : (s.modPr n f).pcos = s.pcos := rfl
@[simp] theorem State.modPr_coll (n : Nat) (f : Prusik → Prusik) : (s.modPr n f).coll = s.coll := rfl
@[simp] theorem State.modPr_log (n : Nat) (f : Prusik → Prusik) : (s.modPr n f).log = s.log := rfl
@[simp] theorem State.modPr_flash (n : Nat) (f : Prusik → Prusik) : (s.modPr n f).flash = s.flash := rfl
@[simp] theorem State.modPr_otp (n : Nat) (f : Prusik → Prusik) : (s.modPr n f).otp = s.otp := rfl
@[simp] theorem State.modPr_bly (n : Nat) (f : Prusik → Prusik) : (s.modPr n f).bly = s.bly := rfl
@[simp] theorem State.modPr_safeoff (n : Nat) (f : Prusik → Prusik) : (s.modPr n f).safeoff = s.safeoff := rfl
@[simp] theorem State.modPr_pulses (n : Nat) (f : Prusik → Prusik) : (s.modPr n f).pulses = s.pulses := rfl
@[simp] theorem State.modPr_csps (n : Nat) (f : Prusik → Prusik) : (s.modPr n f).csps = s.csps := rfl
@[simp] theorem State.modPr_eths (n : Nat) (f : Prusik → Prusik) : (s.modPr n f).eths = s.eths := rfl
@[simp] theorem State.modPr_gptp (n : Nat) (f : Prusik → Prusik) : (s.modPr n f).gptp = s.gptp := rfl
@[simp] theorem State.modPr_sent (n : Nat) (f : Prusik → Prusik) : (s.modPr n f).sent = s.sent := rfl
@[simp] theorem State.modPr_dataOut (n : Nat) (f : Prusik → Prusik) : (s.modPr n f).dataOut = s.dataOut := rfl
@[simp] theorem State.modPr_imgIdx (n : Nat) (f : Prusik → Prusik) : (s.modPr n f).imgIdx = s.imgIdx := rfl
@[simp] theorem State.modPr_hoCmd (n : Nat) (f : Prusik → Prusik) : (s.modPr n f).hoCmd = s.hoCmd := rfl
@[simp] theorem State.modPr_hoAt (n : Nat) (f : Prusik → Prusik) : (s.modPr n f).hoAt = s.hoAt := rfl
@[simp] theorem State.modPr_hoDead (n : Nat) (f : Prusik → Prusik) : (s.modPr n f).hoDead = s.hoDead := rfl
@[simp] theorem State.modPr_rstReq (n : Nat) (f : Prusik → Prusik) : (s.modPr n f).rstReq = s.rstReq := rfl
@[simp] theorem State.modPr_biv (n : Nat) (f : Prusik → Prusik) : (s.modPr n f).biv = s.biv := rfl
@[simp] theorem State.modPr_panel (n : Nat) (f : Prusik → Prusik) : (s.modPr n f).panel = s.panel := rfl
@[simp] theorem State.modPr_portsOff (n : Nat) (f : Prusik → Prusik) : (s.modPr n f).portsOff = s.portsOff := rfl

/-! ### modCsp -/

@[simp] theorem State.modCsp_pending (n : Nat) (f : Csp → Csp) : (s.modCsp n f).pending = s.pending := rfl
@[simp] theorem State.modCsp_straps (n : Nat) (f : Csp → Csp) : (s.modCsp n f).straps = s.straps := rfl
@[simp] theorem State.modCsp_power (n : Nat) (f : Csp → Csp) : (s.modCsp n f).power = s.power := rfl
@[simp] theorem State.modCsp_regs (n : Nat) (f : Csp → Csp) : (s.modCsp n f).regs = s.regs := rfl
@[simp] theorem State.modCsp_mem (n : Nat) (f : Csp → Csp) : (s.modCsp n f).mem = s.mem := rfl
@[simp] theorem State.modCsp_now (n : Nat) (f : Csp → Csp) : (s.modCsp n f).now = s.now := rfl
@[simp] theorem State.modCsp_tickAt (n : Nat) (f : Csp → Csp) : (s.modCsp n f).tickAt = s.tickAt := rfl
@[simp] theorem State.modCsp_tickLeft (n : Nat) (f : Csp → Csp) : (s.modCsp n f).tickLeft = s.tickLeft := rfl
@[simp] theorem State.modCsp_tickDue (n : Nat) (f : Csp → Csp) : (s.modCsp n f).tickDue = s.tickDue := rfl
@[simp] theorem State.modCsp_drawn (n : Nat) (f : Csp → Csp) : (s.modCsp n f).drawn = s.drawn := rfl
@[simp] theorem State.modCsp_accepts (n : Nat) (f : Csp → Csp) : (s.modCsp n f).accepts = s.accepts := rfl
@[simp] theorem State.modCsp_newTick (n : Nat) (f : Csp → Csp) : (s.modCsp n f).newTick = s.newTick := rfl
@[simp] theorem State.modCsp_setNow (n : Nat) (f : Csp → Csp) : (s.modCsp n f).setNow = s.setNow := rfl
@[simp] theorem State.modCsp_gens (n : Nat) (f : Csp → Csp) : (s.modCsp n f).gens = s.gens := rfl
@[simp] theorem State.modCsp_ccs (n : Nat) (f : Csp → Csp) : (s.modCsp n f).ccs = s.ccs := rfl
@[simp] theorem State.modCsp_chans (n : Nat) (f : Csp → Csp) : (s.modCsp n f).chans = s.chans := rfl
@[simp] theorem State.modCsp_groups (n : Nat) (f : Csp → Csp) : (s.modCsp n f).groups = s.groups := rfl
@[simp] theorem State.modCsp_windows (n : Nat) (f : Csp → Csp) : (s.modCsp n f).windows = s.windows := rfl
@[simp] theorem State.modCsp_filtOld (n : Nat) (f : Csp → Csp) : (s.modCsp n f).filtOld = s.filtOld := rfl
@[simp] theorem State.modCsp_streams (n : Nat) (f : Csp → Csp) : (s.modCsp n f).streams = s.streams := rfl
@[simp] theorem State.modCsp_hosts (n : Nat) (f : Csp → Csp) : (s.modCsp n f).hosts = s.hosts := rfl
@[simp] theorem State.modCsp_swaps (n : Nat) (f : Csp → Csp) : (s.modCsp n f).swaps = s.swaps := rfl
@[simp] theorem State.modCsp_engines (n : Nat) (f : Csp → Csp) : (s.modCsp n f).engines = s.engines := rfl
@[simp] theorem State.modCsp_ckps (n : Nat) (f : Csp → Csp) : (s.modCsp n f).ckps = s.ckps := rfl
@[simp] theorem State.modCsp_prs (n : Nat) (f : Csp → Csp) : (s.modCsp n f).prs = s.prs := rfl
@[simp] theorem State.modCsp_decs (n : Nat) (f : Csp → Csp) : (s.modCsp n f).decs = s.decs := rfl
@[simp] theorem State.modCsp_hkc (n : Nat) (f : Csp → Csp) : (s.modCsp n f).hkc = s.hkc := rfl
@[simp] theorem State.modCsp_fbs (n : Nat) (f : Csp → Csp) : (s.modCsp n f).fbs = s.fbs := rfl
@[simp] theorem State.modCsp_lines (n : Nat) (f : Csp → Csp) : (s.modCsp n f).lines = s.lines := rfl
@[simp] theorem State.modCsp_capAt (n : Nat) (f : Csp → Csp) : (s.modCsp n f).capAt = s.capAt := rfl
@[simp] theorem State.modCsp_pcos (n : Nat) (f : Csp → Csp) : (s.modCsp n f).pcos = s.pcos := rfl
@[simp] theorem State.modCsp_coll (n : Nat) (f : Csp → Csp) : (s.modCsp n f).coll = s.coll := rfl
@[simp] theorem State.modCsp_log (n : Nat) (f : Csp → Csp) : (s.modCsp n f).log = s.log := rfl
@[simp] theorem State.modCsp_flash (n : Nat) (f : Csp → Csp) : (s.modCsp n f).flash = s.flash := rfl
@[simp] theorem State.modCsp_otp (n : Nat) (f : Csp → Csp) : (s.modCsp n f).otp = s.otp := rfl
@[simp] theorem State.modCsp_bly (n : Nat) (f : Csp → Csp) : (s.modCsp n f).bly = s.bly := rfl
@[simp] theorem State.modCsp_safeoff (n : Nat) (f : Csp → Csp) : (s.modCsp n f).safeoff = s.safeoff := rfl
@[simp] theorem State.modCsp_pulses (n : Nat) (f : Csp → Csp) : (s.modCsp n f).pulses = s.pulses := rfl
@[simp] theorem State.modCsp_eths (n : Nat) (f : Csp → Csp) : (s.modCsp n f).eths = s.eths := rfl
@[simp] theorem State.modCsp_gptp (n : Nat) (f : Csp → Csp) : (s.modCsp n f).gptp = s.gptp := rfl
@[simp] theorem State.modCsp_sent (n : Nat) (f : Csp → Csp) : (s.modCsp n f).sent = s.sent := rfl
@[simp] theorem State.modCsp_dataOut (n : Nat) (f : Csp → Csp) : (s.modCsp n f).dataOut = s.dataOut := rfl
@[simp] theorem State.modCsp_imgIdx (n : Nat) (f : Csp → Csp) : (s.modCsp n f).imgIdx = s.imgIdx := rfl
@[simp] theorem State.modCsp_hoCmd (n : Nat) (f : Csp → Csp) : (s.modCsp n f).hoCmd = s.hoCmd := rfl
@[simp] theorem State.modCsp_hoAt (n : Nat) (f : Csp → Csp) : (s.modCsp n f).hoAt = s.hoAt := rfl
@[simp] theorem State.modCsp_hoDead (n : Nat) (f : Csp → Csp) : (s.modCsp n f).hoDead = s.hoDead := rfl
@[simp] theorem State.modCsp_rstReq (n : Nat) (f : Csp → Csp) : (s.modCsp n f).rstReq = s.rstReq := rfl
@[simp] theorem State.modCsp_biv (n : Nat) (f : Csp → Csp) : (s.modCsp n f).biv = s.biv := rfl
@[simp] theorem State.modCsp_panel (n : Nat) (f : Csp → Csp) : (s.modCsp n f).panel = s.panel := rfl
@[simp] theorem State.modCsp_portsOff (n : Nat) (f : Csp → Csp) : (s.modCsp n f).portsOff = s.portsOff := rfl

/-! ### setCkp -/

@[simp] theorem State.setCkp_pending (n r : Nat) (x : Ckp) : (s.setCkp n r x).pending = s.pending := rfl
@[simp] theorem State.setCkp_straps (n r : Nat) (x : Ckp) : (s.setCkp n r x).straps = s.straps := rfl
@[simp] theorem State.setCkp_power (n r : Nat) (x : Ckp) : (s.setCkp n r x).power = s.power := rfl
@[simp] theorem State.setCkp_regs (n r : Nat) (x : Ckp) : (s.setCkp n r x).regs = s.regs := rfl
@[simp] theorem State.setCkp_mem (n r : Nat) (x : Ckp) : (s.setCkp n r x).mem = s.mem := rfl
@[simp] theorem State.setCkp_now (n r : Nat) (x : Ckp) : (s.setCkp n r x).now = s.now := rfl
@[simp] theorem State.setCkp_tickAt (n r : Nat) (x : Ckp) : (s.setCkp n r x).tickAt = s.tickAt := rfl
@[simp] theorem State.setCkp_tickLeft (n r : Nat) (x : Ckp) : (s.setCkp n r x).tickLeft = s.tickLeft := rfl
@[simp] theorem State.setCkp_tickDue (n r : Nat) (x : Ckp) : (s.setCkp n r x).tickDue = s.tickDue := rfl
@[simp] theorem State.setCkp_drawn (n r : Nat) (x : Ckp) : (s.setCkp n r x).drawn = s.drawn := rfl
@[simp] theorem State.setCkp_accepts (n r : Nat) (x : Ckp) : (s.setCkp n r x).accepts = s.accepts := rfl
@[simp] theorem State.setCkp_newTick (n r : Nat) (x : Ckp) : (s.setCkp n r x).newTick = s.newTick := rfl
@[simp] theorem State.setCkp_setNow (n r : Nat) (x : Ckp) : (s.setCkp n r x).setNow = s.setNow := rfl
@[simp] theorem State.setCkp_gens (n r : Nat) (x : Ckp) : (s.setCkp n r x).gens = s.gens := rfl
@[simp] theorem State.setCkp_ccs (n r : Nat) (x : Ckp) : (s.setCkp n r x).ccs = s.ccs := rfl
@[simp] theorem State.setCkp_chans (n r : Nat) (x : Ckp) : (s.setCkp n r x).chans = s.chans := rfl
@[simp] theorem State.setCkp_groups (n r : Nat) (x : Ckp) : (s.setCkp n r x).groups = s.groups := rfl
@[simp] theorem State.setCkp_windows (n r : Nat) (x : Ckp) : (s.setCkp n r x).windows = s.windows := rfl
@[simp] theorem State.setCkp_filtOld (n r : Nat) (x : Ckp) : (s.setCkp n r x).filtOld = s.filtOld := rfl
@[simp] theorem State.setCkp_streams (n r : Nat) (x : Ckp) : (s.setCkp n r x).streams = s.streams := rfl
@[simp] theorem State.setCkp_hosts (n r : Nat) (x : Ckp) : (s.setCkp n r x).hosts = s.hosts := rfl
@[simp] theorem State.setCkp_swaps (n r : Nat) (x : Ckp) : (s.setCkp n r x).swaps = s.swaps := rfl
@[simp] theorem State.setCkp_engines (n r : Nat) (x : Ckp) : (s.setCkp n r x).engines = s.engines := rfl
@[simp] theorem State.setCkp_prs (n r : Nat) (x : Ckp) : (s.setCkp n r x).prs = s.prs := rfl
@[simp] theorem State.setCkp_decs (n r : Nat) (x : Ckp) : (s.setCkp n r x).decs = s.decs := rfl
@[simp] theorem State.setCkp_hkc (n r : Nat) (x : Ckp) : (s.setCkp n r x).hkc = s.hkc := rfl
@[simp] theorem State.setCkp_fbs (n r : Nat) (x : Ckp) : (s.setCkp n r x).fbs = s.fbs := rfl
@[simp] theorem State.setCkp_lines (n r : Nat) (x : Ckp) : (s.setCkp n r x).lines = s.lines := rfl
@[simp] theorem State.setCkp_capAt (n r : Nat) (x : Ckp) : (s.setCkp n r x).capAt = s.capAt := rfl
@[simp] theorem State.setCkp_pcos (n r : Nat) (x : Ckp) : (s.setCkp n r x).pcos = s.pcos := rfl
@[simp] theorem State.setCkp_coll (n r : Nat) (x : Ckp) : (s.setCkp n r x).coll = s.coll := rfl
@[simp] theorem State.setCkp_log (n r : Nat) (x : Ckp) : (s.setCkp n r x).log = s.log := rfl
@[simp] theorem State.setCkp_flash (n r : Nat) (x : Ckp) : (s.setCkp n r x).flash = s.flash := rfl
@[simp] theorem State.setCkp_otp (n r : Nat) (x : Ckp) : (s.setCkp n r x).otp = s.otp := rfl
@[simp] theorem State.setCkp_bly (n r : Nat) (x : Ckp) : (s.setCkp n r x).bly = s.bly := rfl
@[simp] theorem State.setCkp_safeoff (n r : Nat) (x : Ckp) : (s.setCkp n r x).safeoff = s.safeoff := rfl
@[simp] theorem State.setCkp_pulses (n r : Nat) (x : Ckp) : (s.setCkp n r x).pulses = s.pulses := rfl
@[simp] theorem State.setCkp_csps (n r : Nat) (x : Ckp) : (s.setCkp n r x).csps = s.csps := rfl
@[simp] theorem State.setCkp_eths (n r : Nat) (x : Ckp) : (s.setCkp n r x).eths = s.eths := rfl
@[simp] theorem State.setCkp_gptp (n r : Nat) (x : Ckp) : (s.setCkp n r x).gptp = s.gptp := rfl
@[simp] theorem State.setCkp_sent (n r : Nat) (x : Ckp) : (s.setCkp n r x).sent = s.sent := rfl
@[simp] theorem State.setCkp_dataOut (n r : Nat) (x : Ckp) : (s.setCkp n r x).dataOut = s.dataOut := rfl
@[simp] theorem State.setCkp_imgIdx (n r : Nat) (x : Ckp) : (s.setCkp n r x).imgIdx = s.imgIdx := rfl
@[simp] theorem State.setCkp_hoCmd (n r : Nat) (x : Ckp) : (s.setCkp n r x).hoCmd = s.hoCmd := rfl
@[simp] theorem State.setCkp_hoAt (n r : Nat) (x : Ckp) : (s.setCkp n r x).hoAt = s.hoAt := rfl
@[simp] theorem State.setCkp_hoDead (n r : Nat) (x : Ckp) : (s.setCkp n r x).hoDead = s.hoDead := rfl
@[simp] theorem State.setCkp_rstReq (n r : Nat) (x : Ckp) : (s.setCkp n r x).rstReq = s.rstReq := rfl
@[simp] theorem State.setCkp_biv (n r : Nat) (x : Ckp) : (s.setCkp n r x).biv = s.biv := rfl
@[simp] theorem State.setCkp_panel (n r : Nat) (x : Ckp) : (s.setCkp n r x).panel = s.panel := rfl
@[simp] theorem State.setCkp_portsOff (n r : Nat) (x : Ckp) : (s.setCkp n r x).portsOff = s.portsOff := rfl

/-! ### setPad -/

@[simp] theorem State.setPad_pending (n : Nat) (x : Pad) : (s.setPad n x).pending = s.pending := rfl
@[simp] theorem State.setPad_straps (n : Nat) (x : Pad) : (s.setPad n x).straps = s.straps := rfl
@[simp] theorem State.setPad_power (n : Nat) (x : Pad) : (s.setPad n x).power = s.power := rfl
@[simp] theorem State.setPad_regs (n : Nat) (x : Pad) : (s.setPad n x).regs = s.regs := rfl
@[simp] theorem State.setPad_mem (n : Nat) (x : Pad) : (s.setPad n x).mem = s.mem := rfl
@[simp] theorem State.setPad_now (n : Nat) (x : Pad) : (s.setPad n x).now = s.now := rfl
@[simp] theorem State.setPad_tickAt (n : Nat) (x : Pad) : (s.setPad n x).tickAt = s.tickAt := rfl
@[simp] theorem State.setPad_tickLeft (n : Nat) (x : Pad) : (s.setPad n x).tickLeft = s.tickLeft := rfl
@[simp] theorem State.setPad_tickDue (n : Nat) (x : Pad) : (s.setPad n x).tickDue = s.tickDue := rfl
@[simp] theorem State.setPad_drawn (n : Nat) (x : Pad) : (s.setPad n x).drawn = s.drawn := rfl
@[simp] theorem State.setPad_accepts (n : Nat) (x : Pad) : (s.setPad n x).accepts = s.accepts := rfl
@[simp] theorem State.setPad_newTick (n : Nat) (x : Pad) : (s.setPad n x).newTick = s.newTick := rfl
@[simp] theorem State.setPad_setNow (n : Nat) (x : Pad) : (s.setPad n x).setNow = s.setNow := rfl
@[simp] theorem State.setPad_gens (n : Nat) (x : Pad) : (s.setPad n x).gens = s.gens := rfl
@[simp] theorem State.setPad_ccs (n : Nat) (x : Pad) : (s.setPad n x).ccs = s.ccs := rfl
@[simp] theorem State.setPad_chans (n : Nat) (x : Pad) : (s.setPad n x).chans = s.chans := rfl
@[simp] theorem State.setPad_groups (n : Nat) (x : Pad) : (s.setPad n x).groups = s.groups := rfl
@[simp] theorem State.setPad_windows (n : Nat) (x : Pad) : (s.setPad n x).windows = s.windows := rfl
@[simp] theorem State.setPad_filtOld (n : Nat) (x : Pad) : (s.setPad n x).filtOld = s.filtOld := rfl
@[simp] theorem State.setPad_streams (n : Nat) (x : Pad) : (s.setPad n x).streams = s.streams := rfl
@[simp] theorem State.setPad_hosts (n : Nat) (x : Pad) : (s.setPad n x).hosts = s.hosts := rfl
@[simp] theorem State.setPad_swaps (n : Nat) (x : Pad) : (s.setPad n x).swaps = s.swaps := rfl
@[simp] theorem State.setPad_engines (n : Nat) (x : Pad) : (s.setPad n x).engines = s.engines := rfl
@[simp] theorem State.setPad_ckps (n : Nat) (x : Pad) : (s.setPad n x).ckps = s.ckps := rfl
@[simp] theorem State.setPad_prs (n : Nat) (x : Pad) : (s.setPad n x).prs = s.prs := rfl
@[simp] theorem State.setPad_decs (n : Nat) (x : Pad) : (s.setPad n x).decs = s.decs := rfl
@[simp] theorem State.setPad_hkc (n : Nat) (x : Pad) : (s.setPad n x).hkc = s.hkc := rfl
@[simp] theorem State.setPad_fbs (n : Nat) (x : Pad) : (s.setPad n x).fbs = s.fbs := rfl
@[simp] theorem State.setPad_lines (n : Nat) (x : Pad) : (s.setPad n x).lines = s.lines := rfl
@[simp] theorem State.setPad_capAt (n : Nat) (x : Pad) : (s.setPad n x).capAt = s.capAt := rfl
@[simp] theorem State.setPad_pcos (n : Nat) (x : Pad) : (s.setPad n x).pcos = s.pcos := rfl
@[simp] theorem State.setPad_coll (n : Nat) (x : Pad) : (s.setPad n x).coll = s.coll := rfl
@[simp] theorem State.setPad_log (n : Nat) (x : Pad) : (s.setPad n x).log = s.log := rfl
@[simp] theorem State.setPad_flash (n : Nat) (x : Pad) : (s.setPad n x).flash = s.flash := rfl
@[simp] theorem State.setPad_otp (n : Nat) (x : Pad) : (s.setPad n x).otp = s.otp := rfl
@[simp] theorem State.setPad_bly (n : Nat) (x : Pad) : (s.setPad n x).bly = s.bly := rfl
@[simp] theorem State.setPad_safeoff (n : Nat) (x : Pad) : (s.setPad n x).safeoff = s.safeoff := rfl
@[simp] theorem State.setPad_pulses (n : Nat) (x : Pad) : (s.setPad n x).pulses = s.pulses := rfl
@[simp] theorem State.setPad_csps (n : Nat) (x : Pad) : (s.setPad n x).csps = s.csps := rfl
@[simp] theorem State.setPad_eths (n : Nat) (x : Pad) : (s.setPad n x).eths = s.eths := rfl
@[simp] theorem State.setPad_gptp (n : Nat) (x : Pad) : (s.setPad n x).gptp = s.gptp := rfl
@[simp] theorem State.setPad_sent (n : Nat) (x : Pad) : (s.setPad n x).sent = s.sent := rfl
@[simp] theorem State.setPad_dataOut (n : Nat) (x : Pad) : (s.setPad n x).dataOut = s.dataOut := rfl
@[simp] theorem State.setPad_imgIdx (n : Nat) (x : Pad) : (s.setPad n x).imgIdx = s.imgIdx := rfl
@[simp] theorem State.setPad_hoCmd (n : Nat) (x : Pad) : (s.setPad n x).hoCmd = s.hoCmd := rfl
@[simp] theorem State.setPad_hoAt (n : Nat) (x : Pad) : (s.setPad n x).hoAt = s.hoAt := rfl
@[simp] theorem State.setPad_hoDead (n : Nat) (x : Pad) : (s.setPad n x).hoDead = s.hoDead := rfl
@[simp] theorem State.setPad_rstReq (n : Nat) (x : Pad) : (s.setPad n x).rstReq = s.rstReq := rfl
@[simp] theorem State.setPad_biv (n : Nat) (x : Pad) : (s.setPad n x).biv = s.biv := rfl
@[simp] theorem State.setPad_portsOff (n : Nat) (x : Pad) : (s.setPad n x).portsOff = s.portsOff := rfl

/-! ### endTest -/

@[simp] theorem State.endTest_pending (n : Nat) : (s.endTest n).pending = s.pending := rfl
@[simp] theorem State.endTest_straps (n : Nat) : (s.endTest n).straps = s.straps := rfl
@[simp] theorem State.endTest_power (n : Nat) : (s.endTest n).power = s.power := rfl
@[simp] theorem State.endTest_regs (n : Nat) : (s.endTest n).regs = s.regs := rfl
@[simp] theorem State.endTest_mem (n : Nat) : (s.endTest n).mem = s.mem := rfl
@[simp] theorem State.endTest_now (n : Nat) : (s.endTest n).now = s.now := rfl
@[simp] theorem State.endTest_tickAt (n : Nat) : (s.endTest n).tickAt = s.tickAt := rfl
@[simp] theorem State.endTest_tickLeft (n : Nat) : (s.endTest n).tickLeft = s.tickLeft := rfl
@[simp] theorem State.endTest_tickDue (n : Nat) : (s.endTest n).tickDue = s.tickDue := rfl
@[simp] theorem State.endTest_drawn (n : Nat) : (s.endTest n).drawn = s.drawn := rfl
@[simp] theorem State.endTest_accepts (n : Nat) : (s.endTest n).accepts = s.accepts := rfl
@[simp] theorem State.endTest_newTick (n : Nat) : (s.endTest n).newTick = s.newTick := rfl
@[simp] theorem State.endTest_setNow (n : Nat) : (s.endTest n).setNow = s.setNow := rfl
@[simp] theorem State.endTest_gens (n : Nat) : (s.endTest n).gens = s.gens := rfl
@[simp] theorem State.endTest_ccs (n : Nat) : (s.endTest n).ccs = s.ccs := rfl
@[simp] theorem State.endTest_chans (n : Nat) : (s.endTest n).chans = s.chans := rfl
@[simp] theorem State.endTest_groups (n : Nat) : (s.endTest n).groups = s.groups := rfl
@[simp] theorem State.endTest_windows (n : Nat) : (s.endTest n).windows = s.windows := rfl
@[simp] theorem State.endTest_filtOld (n : Nat) : (s.endTest n).filtOld = s.filtOld := rfl
@[simp] theorem State.endTest_streams (n : Nat) : (s.endTest n).streams = s.streams := rfl
@[simp] theorem State.endTest_hosts (n : Nat) : (s.endTest n).hosts = s.hosts := rfl
@[simp] theorem State.endTest_swaps (n : Nat) : (s.endTest n).swaps = s.swaps := rfl
@[simp] theorem State.endTest_engines (n : Nat) : (s.endTest n).engines = s.engines := rfl
@[simp] theorem State.endTest_ckps (n : Nat) : (s.endTest n).ckps = s.ckps := rfl
@[simp] theorem State.endTest_prs (n : Nat) : (s.endTest n).prs = s.prs := rfl
@[simp] theorem State.endTest_decs (n : Nat) : (s.endTest n).decs = s.decs := rfl
@[simp] theorem State.endTest_hkc (n : Nat) : (s.endTest n).hkc = s.hkc := rfl
@[simp] theorem State.endTest_fbs (n : Nat) : (s.endTest n).fbs = s.fbs := rfl
@[simp] theorem State.endTest_lines (n : Nat) : (s.endTest n).lines = s.lines := rfl
@[simp] theorem State.endTest_capAt (n : Nat) : (s.endTest n).capAt = s.capAt := rfl
@[simp] theorem State.endTest_pcos (n : Nat) : (s.endTest n).pcos = s.pcos := rfl
@[simp] theorem State.endTest_coll (n : Nat) : (s.endTest n).coll = s.coll := rfl
@[simp] theorem State.endTest_log (n : Nat) : (s.endTest n).log = s.log := rfl
@[simp] theorem State.endTest_flash (n : Nat) : (s.endTest n).flash = s.flash := rfl
@[simp] theorem State.endTest_otp (n : Nat) : (s.endTest n).otp = s.otp := rfl
@[simp] theorem State.endTest_bly (n : Nat) : (s.endTest n).bly = s.bly := rfl
@[simp] theorem State.endTest_safeoff (n : Nat) : (s.endTest n).safeoff = s.safeoff := rfl
@[simp] theorem State.endTest_pulses (n : Nat) : (s.endTest n).pulses = s.pulses := rfl
@[simp] theorem State.endTest_csps (n : Nat) : (s.endTest n).csps = s.csps := rfl
@[simp] theorem State.endTest_eths (n : Nat) : (s.endTest n).eths = s.eths := rfl
@[simp] theorem State.endTest_gptp (n : Nat) : (s.endTest n).gptp = s.gptp := rfl
@[simp] theorem State.endTest_sent (n : Nat) : (s.endTest n).sent = s.sent := rfl
@[simp] theorem State.endTest_dataOut (n : Nat) : (s.endTest n).dataOut = s.dataOut := rfl
@[simp] theorem State.endTest_imgIdx (n : Nat) : (s.endTest n).imgIdx = s.imgIdx := rfl
@[simp] theorem State.endTest_hoCmd (n : Nat) : (s.endTest n).hoCmd = s.hoCmd := rfl
@[simp] theorem State.endTest_hoAt (n : Nat) : (s.endTest n).hoAt = s.hoAt := rfl
@[simp] theorem State.endTest_hoDead (n : Nat) : (s.endTest n).hoDead = s.hoDead := rfl
@[simp] theorem State.endTest_rstReq (n : Nat) : (s.endTest n).rstReq = s.rstReq := rfl
@[simp] theorem State.endTest_biv (n : Nat) : (s.endTest n).biv = s.biv := rfl
@[simp] theorem State.endTest_portsOff (n : Nat) : (s.endTest n).portsOff = s.portsOff := rfl

/-! ### setTest -/

@[simp] theorem State.setTest_pending (n : Nat) (x : PresTest) : (s.setTest n x).pending = s.pending := rfl
@[simp] theorem State.setTest_straps (n : Nat) (x : PresTest) : (s.setTest n x).straps = s.straps := rfl
@[simp] theorem State.setTest_power (n : Nat) (x : PresTest) : (s.setTest n x).power = s.power := rfl
@[simp] theorem State.setTest_regs (n : Nat) (x : PresTest) : (s.setTest n x).regs = s.regs := rfl
@[simp] theorem State.setTest_mem (n : Nat) (x : PresTest) : (s.setTest n x).mem = s.mem := rfl
@[simp] theorem State.setTest_now (n : Nat) (x : PresTest) : (s.setTest n x).now = s.now := rfl
@[simp] theorem State.setTest_tickAt (n : Nat) (x : PresTest) : (s.setTest n x).tickAt = s.tickAt := rfl
@[simp] theorem State.setTest_tickLeft (n : Nat) (x : PresTest) : (s.setTest n x).tickLeft = s.tickLeft := rfl
@[simp] theorem State.setTest_tickDue (n : Nat) (x : PresTest) : (s.setTest n x).tickDue = s.tickDue := rfl
@[simp] theorem State.setTest_drawn (n : Nat) (x : PresTest) : (s.setTest n x).drawn = s.drawn := rfl
@[simp] theorem State.setTest_accepts (n : Nat) (x : PresTest) : (s.setTest n x).accepts = s.accepts := rfl
@[simp] theorem State.setTest_newTick (n : Nat) (x : PresTest) : (s.setTest n x).newTick = s.newTick := rfl
@[simp] theorem State.setTest_setNow (n : Nat) (x : PresTest) : (s.setTest n x).setNow = s.setNow := rfl
@[simp] theorem State.setTest_gens (n : Nat) (x : PresTest) : (s.setTest n x).gens = s.gens := rfl
@[simp] theorem State.setTest_ccs (n : Nat) (x : PresTest) : (s.setTest n x).ccs = s.ccs := rfl
@[simp] theorem State.setTest_chans (n : Nat) (x : PresTest) : (s.setTest n x).chans = s.chans := rfl
@[simp] theorem State.setTest_groups (n : Nat) (x : PresTest) : (s.setTest n x).groups = s.groups := rfl
@[simp] theorem State.setTest_windows (n : Nat) (x : PresTest) : (s.setTest n x).windows = s.windows := rfl
@[simp] theorem State.setTest_filtOld (n : Nat) (x : PresTest) : (s.setTest n x).filtOld = s.filtOld := rfl
@[simp] theorem State.setTest_streams (n : Nat) (x : PresTest) : (s.setTest n x).streams = s.streams := rfl
@[simp] theorem State.setTest_hosts (n : Nat) (x : PresTest) : (s.setTest n x).hosts = s.hosts := rfl
@[simp] theorem State.setTest_swaps (n : Nat) (x : PresTest) : (s.setTest n x).swaps = s.swaps := rfl
@[simp] theorem State.setTest_engines (n : Nat) (x : PresTest) : (s.setTest n x).engines = s.engines := rfl
@[simp] theorem State.setTest_ckps (n : Nat) (x : PresTest) : (s.setTest n x).ckps = s.ckps := rfl
@[simp] theorem State.setTest_prs (n : Nat) (x : PresTest) : (s.setTest n x).prs = s.prs := rfl
@[simp] theorem State.setTest_decs (n : Nat) (x : PresTest) : (s.setTest n x).decs = s.decs := rfl
@[simp] theorem State.setTest_hkc (n : Nat) (x : PresTest) : (s.setTest n x).hkc = s.hkc := rfl
@[simp] theorem State.setTest_fbs (n : Nat) (x : PresTest) : (s.setTest n x).fbs = s.fbs := rfl
@[simp] theorem State.setTest_lines (n : Nat) (x : PresTest) : (s.setTest n x).lines = s.lines := rfl
@[simp] theorem State.setTest_capAt (n : Nat) (x : PresTest) : (s.setTest n x).capAt = s.capAt := rfl
@[simp] theorem State.setTest_pcos (n : Nat) (x : PresTest) : (s.setTest n x).pcos = s.pcos := rfl
@[simp] theorem State.setTest_coll (n : Nat) (x : PresTest) : (s.setTest n x).coll = s.coll := rfl
@[simp] theorem State.setTest_log (n : Nat) (x : PresTest) : (s.setTest n x).log = s.log := rfl
@[simp] theorem State.setTest_flash (n : Nat) (x : PresTest) : (s.setTest n x).flash = s.flash := rfl
@[simp] theorem State.setTest_otp (n : Nat) (x : PresTest) : (s.setTest n x).otp = s.otp := rfl
@[simp] theorem State.setTest_bly (n : Nat) (x : PresTest) : (s.setTest n x).bly = s.bly := rfl
@[simp] theorem State.setTest_safeoff (n : Nat) (x : PresTest) : (s.setTest n x).safeoff = s.safeoff := rfl
@[simp] theorem State.setTest_pulses (n : Nat) (x : PresTest) : (s.setTest n x).pulses = s.pulses := rfl
@[simp] theorem State.setTest_csps (n : Nat) (x : PresTest) : (s.setTest n x).csps = s.csps := rfl
@[simp] theorem State.setTest_eths (n : Nat) (x : PresTest) : (s.setTest n x).eths = s.eths := rfl
@[simp] theorem State.setTest_gptp (n : Nat) (x : PresTest) : (s.setTest n x).gptp = s.gptp := rfl
@[simp] theorem State.setTest_sent (n : Nat) (x : PresTest) : (s.setTest n x).sent = s.sent := rfl
@[simp] theorem State.setTest_dataOut (n : Nat) (x : PresTest) : (s.setTest n x).dataOut = s.dataOut := rfl
@[simp] theorem State.setTest_imgIdx (n : Nat) (x : PresTest) : (s.setTest n x).imgIdx = s.imgIdx := rfl
@[simp] theorem State.setTest_hoCmd (n : Nat) (x : PresTest) : (s.setTest n x).hoCmd = s.hoCmd := rfl
@[simp] theorem State.setTest_hoAt (n : Nat) (x : PresTest) : (s.setTest n x).hoAt = s.hoAt := rfl
@[simp] theorem State.setTest_hoDead (n : Nat) (x : PresTest) : (s.setTest n x).hoDead = s.hoDead := rfl
@[simp] theorem State.setTest_rstReq (n : Nat) (x : PresTest) : (s.setTest n x).rstReq = s.rstReq := rfl
@[simp] theorem State.setTest_biv (n : Nat) (x : PresTest) : (s.setTest n x).biv = s.biv := rfl
@[simp] theorem State.setTest_portsOff (n : Nat) (x : PresTest) : (s.setTest n x).portsOff = s.portsOff := rfl

/-! ### wr64 -/

@[simp] theorem State.wr64_pending (a v : Nat) : (s.wr64 a v).pending = s.pending := by rw [State.wr64, State.wr_pending, State.wr_pending]
@[simp] theorem State.wr64_straps (a v : Nat) : (s.wr64 a v).straps = s.straps := by rw [State.wr64, State.wr_straps, State.wr_straps]
@[simp] theorem State.wr64_power (a v : Nat) : (s.wr64 a v).power = s.power := by rw [State.wr64, State.wr_power, State.wr_power]
@[simp] theorem State.wr64_mem (a v : Nat) : (s.wr64 a v).mem = s.mem := by rw [State.wr64, State.wr_mem, State.wr_mem]
@[simp] theorem State.wr64_now (a v : Nat) : (s.wr64 a v).now = s.now := by rw [State.wr64, State.wr_now, State.wr_now]
@[simp] theorem State.wr64_tickAt (a v : Nat) : (s.wr64 a v).tickAt = s.tickAt := by rw [State.wr64, State.wr_tickAt, State.wr_tickAt]
@[simp] theorem State.wr64_tickLeft (a v : Nat) : (s.wr64 a v).tickLeft = s.tickLeft := by rw [State.wr64, State.wr_tickLeft, State.wr_tickLeft]
@[simp] theorem State.wr64_tickDue (a v : Nat) : (s.wr64 a v).tickDue = s.tickDue := by rw [State.wr64, State.wr_tickDue, State.wr_tickDue]
@[simp] theorem State.wr64_drawn (a v : Nat) : (s.wr64 a v).drawn = s.drawn := by rw [State.wr64, State.wr_drawn, State.wr_drawn]
@[simp] theorem State.wr64_accepts (a v : Nat) : (s.wr64 a v).accepts = s.accepts := by rw [State.wr64, State.wr_accepts, State.wr_accepts]
@[simp] theorem State.wr64_newTick (a v : Nat) : (s.wr64 a v).newTick = s.newTick := by rw [State.wr64, State.wr_newTick, State.wr_newTick]
@[simp] theorem State.wr64_setNow (a v : Nat) : (s.wr64 a v).setNow = s.setNow := by rw [State.wr64, State.wr_setNow, State.wr_setNow]
@[simp] theorem State.wr64_gens (a v : Nat) : (s.wr64 a v).gens = s.gens := by rw [State.wr64, State.wr_gens, State.wr_gens]
@[simp] theorem State.wr64_ccs (a v : Nat) : (s.wr64 a v).ccs = s.ccs := by rw [State.wr64, State.wr_ccs, State.wr_ccs]
@[simp] theorem State.wr64_chans (a v : Nat) : (s.wr64 a v).chans = s.chans := by rw [State.wr64, State.wr_chans, State.wr_chans]
@[simp] theorem State.wr64_groups (a v : Nat) : (s.wr64 a v).groups = s.groups := by rw [State.wr64, State.wr_groups, State.wr_groups]
@[simp] theorem State.wr64_windows (a v : Nat) : (s.wr64 a v).windows = s.windows := by rw [State.wr64, State.wr_windows, State.wr_windows]
@[simp] theorem State.wr64_filtOld (a v : Nat) : (s.wr64 a v).filtOld = s.filtOld := by rw [State.wr64, State.wr_filtOld, State.wr_filtOld]
@[simp] theorem State.wr64_streams (a v : Nat) : (s.wr64 a v).streams = s.streams := by rw [State.wr64, State.wr_streams, State.wr_streams]
@[simp] theorem State.wr64_hosts (a v : Nat) : (s.wr64 a v).hosts = s.hosts := by rw [State.wr64, State.wr_hosts, State.wr_hosts]
@[simp] theorem State.wr64_swaps (a v : Nat) : (s.wr64 a v).swaps = s.swaps := by rw [State.wr64, State.wr_swaps, State.wr_swaps]
@[simp] theorem State.wr64_engines (a v : Nat) : (s.wr64 a v).engines = s.engines := by rw [State.wr64, State.wr_engines, State.wr_engines]
@[simp] theorem State.wr64_ckps (a v : Nat) : (s.wr64 a v).ckps = s.ckps := by rw [State.wr64, State.wr_ckps, State.wr_ckps]
@[simp] theorem State.wr64_prs (a v : Nat) : (s.wr64 a v).prs = s.prs := by rw [State.wr64, State.wr_prs, State.wr_prs]
@[simp] theorem State.wr64_decs (a v : Nat) : (s.wr64 a v).decs = s.decs := by rw [State.wr64, State.wr_decs, State.wr_decs]
@[simp] theorem State.wr64_hkc (a v : Nat) : (s.wr64 a v).hkc = s.hkc := by rw [State.wr64, State.wr_hkc, State.wr_hkc]
@[simp] theorem State.wr64_fbs (a v : Nat) : (s.wr64 a v).fbs = s.fbs := by rw [State.wr64, State.wr_fbs, State.wr_fbs]
@[simp] theorem State.wr64_lines (a v : Nat) : (s.wr64 a v).lines = s.lines := by rw [State.wr64, State.wr_lines, State.wr_lines]
@[simp] theorem State.wr64_capAt (a v : Nat) : (s.wr64 a v).capAt = s.capAt := by rw [State.wr64, State.wr_capAt, State.wr_capAt]
@[simp] theorem State.wr64_pcos (a v : Nat) : (s.wr64 a v).pcos = s.pcos := by rw [State.wr64, State.wr_pcos, State.wr_pcos]
@[simp] theorem State.wr64_coll (a v : Nat) : (s.wr64 a v).coll = s.coll := by rw [State.wr64, State.wr_coll, State.wr_coll]
@[simp] theorem State.wr64_log (a v : Nat) : (s.wr64 a v).log = s.log := by rw [State.wr64, State.wr_log, State.wr_log]
@[simp] theorem State.wr64_flash (a v : Nat) : (s.wr64 a v).flash = s.flash := by rw [State.wr64, State.wr_flash, State.wr_flash]
@[simp] theorem State.wr64_otp (a v : Nat) : (s.wr64 a v).otp = s.otp := by rw [State.wr64, State.wr_otp, State.wr_otp]
@[simp] theorem State.wr64_bly (a v : Nat) : (s.wr64 a v).bly = s.bly := by rw [State.wr64, State.wr_bly, State.wr_bly]
@[simp] theorem State.wr64_safeoff (a v : Nat) : (s.wr64 a v).safeoff = s.safeoff := by rw [State.wr64, State.wr_safeoff, State.wr_safeoff]
@[simp] theorem State.wr64_pulses (a v : Nat) : (s.wr64 a v).pulses = s.pulses := by rw [State.wr64, State.wr_pulses, State.wr_pulses]
@[simp] theorem State.wr64_csps (a v : Nat) : (s.wr64 a v).csps = s.csps := by rw [State.wr64, State.wr_csps, State.wr_csps]
@[simp] theorem State.wr64_eths (a v : Nat) : (s.wr64 a v).eths = s.eths := by rw [State.wr64, State.wr_eths, State.wr_eths]
@[simp] theorem State.wr64_gptp (a v : Nat) : (s.wr64 a v).gptp = s.gptp := by rw [State.wr64, State.wr_gptp, State.wr_gptp]
@[simp] theorem State.wr64_sent (a v : Nat) : (s.wr64 a v).sent = s.sent := by rw [State.wr64, State.wr_sent, State.wr_sent]
@[simp] theorem State.wr64_dataOut (a v : Nat) : (s.wr64 a v).dataOut = s.dataOut := by rw [State.wr64, State.wr_dataOut, State.wr_dataOut]
@[simp] theorem State.wr64_imgIdx (a v : Nat) : (s.wr64 a v).imgIdx = s.imgIdx := by rw [State.wr64, State.wr_imgIdx, State.wr_imgIdx]
@[simp] theorem State.wr64_hoCmd (a v : Nat) : (s.wr64 a v).hoCmd = s.hoCmd := by rw [State.wr64, State.wr_hoCmd, State.wr_hoCmd]
@[simp] theorem State.wr64_hoAt (a v : Nat) : (s.wr64 a v).hoAt = s.hoAt := by rw [State.wr64, State.wr_hoAt, State.wr_hoAt]
@[simp] theorem State.wr64_hoDead (a v : Nat) : (s.wr64 a v).hoDead = s.hoDead := by rw [State.wr64, State.wr_hoDead, State.wr_hoDead]
@[simp] theorem State.wr64_rstReq (a v : Nat) : (s.wr64 a v).rstReq = s.rstReq := by rw [State.wr64, State.wr_rstReq, State.wr_rstReq]
@[simp] theorem State.wr64_biv (a v : Nat) : (s.wr64 a v).biv = s.biv := by rw [State.wr64, State.wr_biv, State.wr_biv]
@[simp] theorem State.wr64_panel (a v : Nat) : (s.wr64 a v).panel = s.panel := by rw [State.wr64, State.wr_panel, State.wr_panel]
@[simp] theorem State.wr64_portsOff (a v : Nat) : (s.wr64 a v).portsOff = s.portsOff := by rw [State.wr64, State.wr_portsOff, State.wr_portsOff]

/-! ### noteSet -/

@[simp] theorem State.noteSet_pending (a bits : Nat) : (s.noteSet a bits).pending = s.pending := by unfold State.noteSet; split <;> rfl
@[simp] theorem State.noteSet_straps (a bits : Nat) : (s.noteSet a bits).straps = s.straps := by unfold State.noteSet; split <;> rfl
@[simp] theorem State.noteSet_power (a bits : Nat) : (s.noteSet a bits).power = s.power := by unfold State.noteSet; split <;> rfl
@[simp] theorem State.noteSet_regs (a bits : Nat) : (s.noteSet a bits).regs = s.regs := by unfold State.noteSet; split <;> rfl
@[simp] theorem State.noteSet_mem (a bits : Nat) : (s.noteSet a bits).mem = s.mem := by unfold State.noteSet; split <;> rfl
@[simp] theorem State.noteSet_now (a bits : Nat) : (s.noteSet a bits).now = s.now := by unfold State.noteSet; split <;> rfl
@[simp] theorem State.noteSet_tickAt (a bits : Nat) : (s.noteSet a bits).tickAt = s.tickAt := by unfold State.noteSet; split <;> rfl
@[simp] theorem State.noteSet_tickLeft (a bits : Nat) : (s.noteSet a bits).tickLeft = s.tickLeft := by unfold State.noteSet; split <;> rfl
@[simp] theorem State.noteSet_tickDue (a bits : Nat) : (s.noteSet a bits).tickDue = s.tickDue := by unfold State.noteSet; split <;> rfl
@[simp] theorem State.noteSet_drawn (a bits : Nat) : (s.noteSet a bits).drawn = s.drawn := by unfold State.noteSet; split <;> rfl
@[simp] theorem State.noteSet_accepts (a bits : Nat) : (s.noteSet a bits).accepts = s.accepts := by unfold State.noteSet; split <;> rfl
@[simp] theorem State.noteSet_newTick (a bits : Nat) : (s.noteSet a bits).newTick = s.newTick := by unfold State.noteSet; split <;> rfl
@[simp] theorem State.noteSet_gens (a bits : Nat) : (s.noteSet a bits).gens = s.gens := by unfold State.noteSet; split <;> rfl
@[simp] theorem State.noteSet_ccs (a bits : Nat) : (s.noteSet a bits).ccs = s.ccs := by unfold State.noteSet; split <;> rfl
@[simp] theorem State.noteSet_chans (a bits : Nat) : (s.noteSet a bits).chans = s.chans := by unfold State.noteSet; split <;> rfl
@[simp] theorem State.noteSet_groups (a bits : Nat) : (s.noteSet a bits).groups = s.groups := by unfold State.noteSet; split <;> rfl
@[simp] theorem State.noteSet_windows (a bits : Nat) : (s.noteSet a bits).windows = s.windows := by unfold State.noteSet; split <;> rfl
@[simp] theorem State.noteSet_filtOld (a bits : Nat) : (s.noteSet a bits).filtOld = s.filtOld := by unfold State.noteSet; split <;> rfl
@[simp] theorem State.noteSet_streams (a bits : Nat) : (s.noteSet a bits).streams = s.streams := by unfold State.noteSet; split <;> rfl
@[simp] theorem State.noteSet_hosts (a bits : Nat) : (s.noteSet a bits).hosts = s.hosts := by unfold State.noteSet; split <;> rfl
@[simp] theorem State.noteSet_swaps (a bits : Nat) : (s.noteSet a bits).swaps = s.swaps := by unfold State.noteSet; split <;> rfl
@[simp] theorem State.noteSet_engines (a bits : Nat) : (s.noteSet a bits).engines = s.engines := by unfold State.noteSet; split <;> rfl
@[simp] theorem State.noteSet_ckps (a bits : Nat) : (s.noteSet a bits).ckps = s.ckps := by unfold State.noteSet; split <;> rfl
@[simp] theorem State.noteSet_prs (a bits : Nat) : (s.noteSet a bits).prs = s.prs := by unfold State.noteSet; split <;> rfl
@[simp] theorem State.noteSet_decs (a bits : Nat) : (s.noteSet a bits).decs = s.decs := by unfold State.noteSet; split <;> rfl
@[simp] theorem State.noteSet_hkc (a bits : Nat) : (s.noteSet a bits).hkc = s.hkc := by unfold State.noteSet; split <;> rfl
@[simp] theorem State.noteSet_fbs (a bits : Nat) : (s.noteSet a bits).fbs = s.fbs := by unfold State.noteSet; split <;> rfl
@[simp] theorem State.noteSet_lines (a bits : Nat) : (s.noteSet a bits).lines = s.lines := by unfold State.noteSet; split <;> rfl
@[simp] theorem State.noteSet_capAt (a bits : Nat) : (s.noteSet a bits).capAt = s.capAt := by unfold State.noteSet; split <;> rfl
@[simp] theorem State.noteSet_pcos (a bits : Nat) : (s.noteSet a bits).pcos = s.pcos := by unfold State.noteSet; split <;> rfl
@[simp] theorem State.noteSet_coll (a bits : Nat) : (s.noteSet a bits).coll = s.coll := by unfold State.noteSet; split <;> rfl
@[simp] theorem State.noteSet_log (a bits : Nat) : (s.noteSet a bits).log = s.log := by unfold State.noteSet; split <;> rfl
@[simp] theorem State.noteSet_flash (a bits : Nat) : (s.noteSet a bits).flash = s.flash := by unfold State.noteSet; split <;> rfl
@[simp] theorem State.noteSet_otp (a bits : Nat) : (s.noteSet a bits).otp = s.otp := by unfold State.noteSet; split <;> rfl
@[simp] theorem State.noteSet_bly (a bits : Nat) : (s.noteSet a bits).bly = s.bly := by unfold State.noteSet; split <;> rfl
@[simp] theorem State.noteSet_safeoff (a bits : Nat) : (s.noteSet a bits).safeoff = s.safeoff := by unfold State.noteSet; split <;> rfl
@[simp] theorem State.noteSet_pulses (a bits : Nat) : (s.noteSet a bits).pulses = s.pulses := by unfold State.noteSet; split <;> rfl
@[simp] theorem State.noteSet_csps (a bits : Nat) : (s.noteSet a bits).csps = s.csps := by unfold State.noteSet; split <;> rfl
@[simp] theorem State.noteSet_eths (a bits : Nat) : (s.noteSet a bits).eths = s.eths := by unfold State.noteSet; split <;> rfl
@[simp] theorem State.noteSet_gptp (a bits : Nat) : (s.noteSet a bits).gptp = s.gptp := by unfold State.noteSet; split <;> rfl
@[simp] theorem State.noteSet_sent (a bits : Nat) : (s.noteSet a bits).sent = s.sent := by unfold State.noteSet; split <;> rfl
@[simp] theorem State.noteSet_dataOut (a bits : Nat) : (s.noteSet a bits).dataOut = s.dataOut := by unfold State.noteSet; split <;> rfl
@[simp] theorem State.noteSet_imgIdx (a bits : Nat) : (s.noteSet a bits).imgIdx = s.imgIdx := by unfold State.noteSet; split <;> rfl
@[simp] theorem State.noteSet_hoCmd (a bits : Nat) : (s.noteSet a bits).hoCmd = s.hoCmd := by unfold State.noteSet; split <;> rfl
@[simp] theorem State.noteSet_hoAt (a bits : Nat) : (s.noteSet a bits).hoAt = s.hoAt := by unfold State.noteSet; split <;> rfl
@[simp] theorem State.noteSet_hoDead (a bits : Nat) : (s.noteSet a bits).hoDead = s.hoDead := by unfold State.noteSet; split <;> rfl
@[simp] theorem State.noteSet_rstReq (a bits : Nat) : (s.noteSet a bits).rstReq = s.rstReq := by unfold State.noteSet; split <;> rfl
@[simp] theorem State.noteSet_biv (a bits : Nat) : (s.noteSet a bits).biv = s.biv := by unfold State.noteSet; split <;> rfl
@[simp] theorem State.noteSet_panel (a bits : Nat) : (s.noteSet a bits).panel = s.panel := by unfold State.noteSet; split <;> rfl
@[simp] theorem State.noteSet_portsOff (a bits : Nat) : (s.noteSet a bits).portsOff = s.portsOff := by unfold State.noteSet; split <;> rfl

/-! ### wrNoted -/

@[simp] theorem State.wrNoted_pending (a : Nat) (v : Word) : (s.wrNoted a v).pending = s.pending := by rw [State.wrNoted, State.wr_pending, State.noteSet_pending]
@[simp] theorem State.wrNoted_straps (a : Nat) (v : Word) : (s.wrNoted a v).straps = s.straps := by rw [State.wrNoted, State.wr_straps, State.noteSet_straps]
@[simp] theorem State.wrNoted_power (a : Nat) (v : Word) : (s.wrNoted a v).power = s.power := by rw [State.wrNoted, State.wr_power, State.noteSet_power]
@[simp] theorem State.wrNoted_mem (a : Nat) (v : Word) : (s.wrNoted a v).mem = s.mem := by rw [State.wrNoted, State.wr_mem, State.noteSet_mem]
@[simp] theorem State.wrNoted_now (a : Nat) (v : Word) : (s.wrNoted a v).now = s.now := by rw [State.wrNoted, State.wr_now, State.noteSet_now]
@[simp] theorem State.wrNoted_tickAt (a : Nat) (v : Word) : (s.wrNoted a v).tickAt = s.tickAt := by rw [State.wrNoted, State.wr_tickAt, State.noteSet_tickAt]
@[simp] theorem State.wrNoted_tickLeft (a : Nat) (v : Word) : (s.wrNoted a v).tickLeft = s.tickLeft := by rw [State.wrNoted, State.wr_tickLeft, State.noteSet_tickLeft]
@[simp] theorem State.wrNoted_tickDue (a : Nat) (v : Word) : (s.wrNoted a v).tickDue = s.tickDue := by rw [State.wrNoted, State.wr_tickDue, State.noteSet_tickDue]
@[simp] theorem State.wrNoted_drawn (a : Nat) (v : Word) : (s.wrNoted a v).drawn = s.drawn := by rw [State.wrNoted, State.wr_drawn, State.noteSet_drawn]
@[simp] theorem State.wrNoted_accepts (a : Nat) (v : Word) : (s.wrNoted a v).accepts = s.accepts := by rw [State.wrNoted, State.wr_accepts, State.noteSet_accepts]
@[simp] theorem State.wrNoted_newTick (a : Nat) (v : Word) : (s.wrNoted a v).newTick = s.newTick := by rw [State.wrNoted, State.wr_newTick, State.noteSet_newTick]
@[simp] theorem State.wrNoted_gens (a : Nat) (v : Word) : (s.wrNoted a v).gens = s.gens := by rw [State.wrNoted, State.wr_gens, State.noteSet_gens]
@[simp] theorem State.wrNoted_ccs (a : Nat) (v : Word) : (s.wrNoted a v).ccs = s.ccs := by rw [State.wrNoted, State.wr_ccs, State.noteSet_ccs]
@[simp] theorem State.wrNoted_chans (a : Nat) (v : Word) : (s.wrNoted a v).chans = s.chans := by rw [State.wrNoted, State.wr_chans, State.noteSet_chans]
@[simp] theorem State.wrNoted_groups (a : Nat) (v : Word) : (s.wrNoted a v).groups = s.groups := by rw [State.wrNoted, State.wr_groups, State.noteSet_groups]
@[simp] theorem State.wrNoted_windows (a : Nat) (v : Word) : (s.wrNoted a v).windows = s.windows := by rw [State.wrNoted, State.wr_windows, State.noteSet_windows]
@[simp] theorem State.wrNoted_filtOld (a : Nat) (v : Word) : (s.wrNoted a v).filtOld = s.filtOld := by rw [State.wrNoted, State.wr_filtOld, State.noteSet_filtOld]
@[simp] theorem State.wrNoted_streams (a : Nat) (v : Word) : (s.wrNoted a v).streams = s.streams := by rw [State.wrNoted, State.wr_streams, State.noteSet_streams]
@[simp] theorem State.wrNoted_hosts (a : Nat) (v : Word) : (s.wrNoted a v).hosts = s.hosts := by rw [State.wrNoted, State.wr_hosts, State.noteSet_hosts]
@[simp] theorem State.wrNoted_swaps (a : Nat) (v : Word) : (s.wrNoted a v).swaps = s.swaps := by rw [State.wrNoted, State.wr_swaps, State.noteSet_swaps]
@[simp] theorem State.wrNoted_engines (a : Nat) (v : Word) : (s.wrNoted a v).engines = s.engines := by rw [State.wrNoted, State.wr_engines, State.noteSet_engines]
@[simp] theorem State.wrNoted_ckps (a : Nat) (v : Word) : (s.wrNoted a v).ckps = s.ckps := by rw [State.wrNoted, State.wr_ckps, State.noteSet_ckps]
@[simp] theorem State.wrNoted_prs (a : Nat) (v : Word) : (s.wrNoted a v).prs = s.prs := by rw [State.wrNoted, State.wr_prs, State.noteSet_prs]
@[simp] theorem State.wrNoted_decs (a : Nat) (v : Word) : (s.wrNoted a v).decs = s.decs := by rw [State.wrNoted, State.wr_decs, State.noteSet_decs]
@[simp] theorem State.wrNoted_hkc (a : Nat) (v : Word) : (s.wrNoted a v).hkc = s.hkc := by rw [State.wrNoted, State.wr_hkc, State.noteSet_hkc]
@[simp] theorem State.wrNoted_fbs (a : Nat) (v : Word) : (s.wrNoted a v).fbs = s.fbs := by rw [State.wrNoted, State.wr_fbs, State.noteSet_fbs]
@[simp] theorem State.wrNoted_lines (a : Nat) (v : Word) : (s.wrNoted a v).lines = s.lines := by rw [State.wrNoted, State.wr_lines, State.noteSet_lines]
@[simp] theorem State.wrNoted_capAt (a : Nat) (v : Word) : (s.wrNoted a v).capAt = s.capAt := by rw [State.wrNoted, State.wr_capAt, State.noteSet_capAt]
@[simp] theorem State.wrNoted_pcos (a : Nat) (v : Word) : (s.wrNoted a v).pcos = s.pcos := by rw [State.wrNoted, State.wr_pcos, State.noteSet_pcos]
@[simp] theorem State.wrNoted_coll (a : Nat) (v : Word) : (s.wrNoted a v).coll = s.coll := by rw [State.wrNoted, State.wr_coll, State.noteSet_coll]
@[simp] theorem State.wrNoted_log (a : Nat) (v : Word) : (s.wrNoted a v).log = s.log := by rw [State.wrNoted, State.wr_log, State.noteSet_log]
@[simp] theorem State.wrNoted_flash (a : Nat) (v : Word) : (s.wrNoted a v).flash = s.flash := by rw [State.wrNoted, State.wr_flash, State.noteSet_flash]
@[simp] theorem State.wrNoted_otp (a : Nat) (v : Word) : (s.wrNoted a v).otp = s.otp := by rw [State.wrNoted, State.wr_otp, State.noteSet_otp]
@[simp] theorem State.wrNoted_bly (a : Nat) (v : Word) : (s.wrNoted a v).bly = s.bly := by rw [State.wrNoted, State.wr_bly, State.noteSet_bly]
@[simp] theorem State.wrNoted_safeoff (a : Nat) (v : Word) : (s.wrNoted a v).safeoff = s.safeoff := by rw [State.wrNoted, State.wr_safeoff, State.noteSet_safeoff]
@[simp] theorem State.wrNoted_pulses (a : Nat) (v : Word) : (s.wrNoted a v).pulses = s.pulses := by rw [State.wrNoted, State.wr_pulses, State.noteSet_pulses]
@[simp] theorem State.wrNoted_csps (a : Nat) (v : Word) : (s.wrNoted a v).csps = s.csps := by rw [State.wrNoted, State.wr_csps, State.noteSet_csps]
@[simp] theorem State.wrNoted_eths (a : Nat) (v : Word) : (s.wrNoted a v).eths = s.eths := by rw [State.wrNoted, State.wr_eths, State.noteSet_eths]
@[simp] theorem State.wrNoted_gptp (a : Nat) (v : Word) : (s.wrNoted a v).gptp = s.gptp := by rw [State.wrNoted, State.wr_gptp, State.noteSet_gptp]
@[simp] theorem State.wrNoted_sent (a : Nat) (v : Word) : (s.wrNoted a v).sent = s.sent := by rw [State.wrNoted, State.wr_sent, State.noteSet_sent]
@[simp] theorem State.wrNoted_dataOut (a : Nat) (v : Word) : (s.wrNoted a v).dataOut = s.dataOut := by rw [State.wrNoted, State.wr_dataOut, State.noteSet_dataOut]
@[simp] theorem State.wrNoted_imgIdx (a : Nat) (v : Word) : (s.wrNoted a v).imgIdx = s.imgIdx := by rw [State.wrNoted, State.wr_imgIdx, State.noteSet_imgIdx]
@[simp] theorem State.wrNoted_hoCmd (a : Nat) (v : Word) : (s.wrNoted a v).hoCmd = s.hoCmd := by rw [State.wrNoted, State.wr_hoCmd, State.noteSet_hoCmd]
@[simp] theorem State.wrNoted_hoAt (a : Nat) (v : Word) : (s.wrNoted a v).hoAt = s.hoAt := by rw [State.wrNoted, State.wr_hoAt, State.noteSet_hoAt]
@[simp] theorem State.wrNoted_hoDead (a : Nat) (v : Word) : (s.wrNoted a v).hoDead = s.hoDead := by rw [State.wrNoted, State.wr_hoDead, State.noteSet_hoDead]
@[simp] theorem State.wrNoted_rstReq (a : Nat) (v : Word) : (s.wrNoted a v).rstReq = s.rstReq := by rw [State.wrNoted, State.wr_rstReq, State.noteSet_rstReq]
@[simp] theorem State.wrNoted_biv (a : Nat) (v : Word) : (s.wrNoted a v).biv = s.biv := by rw [State.wrNoted, State.wr_biv, State.noteSet_biv]
@[simp] theorem State.wrNoted_panel (a : Nat) (v : Word) : (s.wrNoted a v).panel = s.panel := by rw [State.wrNoted, State.wr_panel, State.noteSet_panel]
@[simp] theorem State.wrNoted_portsOff (a : Nat) (v : Word) : (s.wrNoted a v).portsOff = s.portsOff := by rw [State.wrNoted, State.wr_portsOff, State.noteSet_portsOff]

/-! ### put -/

@[simp] theorem State.put_pending (f : Fld) (v : Nat) : (s.put f v).pending = s.pending := by unfold State.put; split; rw [State.wr_pending, State.noteSet_pending]; rw [State.wr64_pending]
@[simp] theorem State.put_straps (f : Fld) (v : Nat) : (s.put f v).straps = s.straps := by unfold State.put; split; rw [State.wr_straps, State.noteSet_straps]; rw [State.wr64_straps]
@[simp] theorem State.put_power (f : Fld) (v : Nat) : (s.put f v).power = s.power := by unfold State.put; split; rw [State.wr_power, State.noteSet_power]; rw [State.wr64_power]
@[simp] theorem State.put_mem (f : Fld) (v : Nat) : (s.put f v).mem = s.mem := by unfold State.put; split; rw [State.wr_mem, State.noteSet_mem]; rw [State.wr64_mem]
@[simp] theorem State.put_now (f : Fld) (v : Nat) : (s.put f v).now = s.now := by unfold State.put; split; rw [State.wr_now, State.noteSet_now]; rw [State.wr64_now]
@[simp] theorem State.put_tickAt (f : Fld) (v : Nat) : (s.put f v).tickAt = s.tickAt := by unfold State.put; split; rw [State.wr_tickAt, State.noteSet_tickAt]; rw [State.wr64_tickAt]
@[simp] theorem State.put_tickLeft (f : Fld) (v : Nat) : (s.put f v).tickLeft = s.tickLeft := by unfold State.put; split; rw [State.wr_tickLeft, State.noteSet_tickLeft]; rw [State.wr64_tickLeft]
@[simp] theorem State.put_tickDue (f : Fld) (v : Nat) : (s.put f v).tickDue = s.tickDue := by unfold State.put; split; rw [State.wr_tickDue, State.noteSet_tickDue]; rw [State.wr64_tickDue]
@[simp] theorem State.put_drawn (f : Fld) (v : Nat) : (s.put f v).drawn = s.drawn := by unfold State.put; split; rw [State.wr_drawn, State.noteSet_drawn]; rw [State.wr64_drawn]
@[simp] theorem State.put_accepts (f : Fld) (v : Nat) : (s.put f v).accepts = s.accepts := by unfold State.put; split; rw [State.wr_accepts, State.noteSet_accepts]; rw [State.wr64_accepts]
@[simp] theorem State.put_newTick (f : Fld) (v : Nat) : (s.put f v).newTick = s.newTick := by unfold State.put; split; rw [State.wr_newTick, State.noteSet_newTick]; rw [State.wr64_newTick]
@[simp] theorem State.put_gens (f : Fld) (v : Nat) : (s.put f v).gens = s.gens := by unfold State.put; split; rw [State.wr_gens, State.noteSet_gens]; rw [State.wr64_gens]
@[simp] theorem State.put_ccs (f : Fld) (v : Nat) : (s.put f v).ccs = s.ccs := by unfold State.put; split; rw [State.wr_ccs, State.noteSet_ccs]; rw [State.wr64_ccs]
@[simp] theorem State.put_chans (f : Fld) (v : Nat) : (s.put f v).chans = s.chans := by unfold State.put; split; rw [State.wr_chans, State.noteSet_chans]; rw [State.wr64_chans]
@[simp] theorem State.put_groups (f : Fld) (v : Nat) : (s.put f v).groups = s.groups := by unfold State.put; split; rw [State.wr_groups, State.noteSet_groups]; rw [State.wr64_groups]
@[simp] theorem State.put_windows (f : Fld) (v : Nat) : (s.put f v).windows = s.windows := by unfold State.put; split; rw [State.wr_windows, State.noteSet_windows]; rw [State.wr64_windows]
@[simp] theorem State.put_filtOld (f : Fld) (v : Nat) : (s.put f v).filtOld = s.filtOld := by unfold State.put; split; rw [State.wr_filtOld, State.noteSet_filtOld]; rw [State.wr64_filtOld]
@[simp] theorem State.put_streams (f : Fld) (v : Nat) : (s.put f v).streams = s.streams := by unfold State.put; split; rw [State.wr_streams, State.noteSet_streams]; rw [State.wr64_streams]
@[simp] theorem State.put_hosts (f : Fld) (v : Nat) : (s.put f v).hosts = s.hosts := by unfold State.put; split; rw [State.wr_hosts, State.noteSet_hosts]; rw [State.wr64_hosts]
@[simp] theorem State.put_swaps (f : Fld) (v : Nat) : (s.put f v).swaps = s.swaps := by unfold State.put; split; rw [State.wr_swaps, State.noteSet_swaps]; rw [State.wr64_swaps]
@[simp] theorem State.put_engines (f : Fld) (v : Nat) : (s.put f v).engines = s.engines := by unfold State.put; split; rw [State.wr_engines, State.noteSet_engines]; rw [State.wr64_engines]
@[simp] theorem State.put_ckps (f : Fld) (v : Nat) : (s.put f v).ckps = s.ckps := by unfold State.put; split; rw [State.wr_ckps, State.noteSet_ckps]; rw [State.wr64_ckps]
@[simp] theorem State.put_prs (f : Fld) (v : Nat) : (s.put f v).prs = s.prs := by unfold State.put; split; rw [State.wr_prs, State.noteSet_prs]; rw [State.wr64_prs]
@[simp] theorem State.put_decs (f : Fld) (v : Nat) : (s.put f v).decs = s.decs := by unfold State.put; split; rw [State.wr_decs, State.noteSet_decs]; rw [State.wr64_decs]
@[simp] theorem State.put_hkc (f : Fld) (v : Nat) : (s.put f v).hkc = s.hkc := by unfold State.put; split; rw [State.wr_hkc, State.noteSet_hkc]; rw [State.wr64_hkc]
@[simp] theorem State.put_fbs (f : Fld) (v : Nat) : (s.put f v).fbs = s.fbs := by unfold State.put; split; rw [State.wr_fbs, State.noteSet_fbs]; rw [State.wr64_fbs]
@[simp] theorem State.put_lines (f : Fld) (v : Nat) : (s.put f v).lines = s.lines := by unfold State.put; split; rw [State.wr_lines, State.noteSet_lines]; rw [State.wr64_lines]
@[simp] theorem State.put_capAt (f : Fld) (v : Nat) : (s.put f v).capAt = s.capAt := by unfold State.put; split; rw [State.wr_capAt, State.noteSet_capAt]; rw [State.wr64_capAt]
@[simp] theorem State.put_pcos (f : Fld) (v : Nat) : (s.put f v).pcos = s.pcos := by unfold State.put; split; rw [State.wr_pcos, State.noteSet_pcos]; rw [State.wr64_pcos]
@[simp] theorem State.put_coll (f : Fld) (v : Nat) : (s.put f v).coll = s.coll := by unfold State.put; split; rw [State.wr_coll, State.noteSet_coll]; rw [State.wr64_coll]
@[simp] theorem State.put_log (f : Fld) (v : Nat) : (s.put f v).log = s.log := by unfold State.put; split; rw [State.wr_log, State.noteSet_log]; rw [State.wr64_log]
@[simp] theorem State.put_flash (f : Fld) (v : Nat) : (s.put f v).flash = s.flash := by unfold State.put; split; rw [State.wr_flash, State.noteSet_flash]; rw [State.wr64_flash]
@[simp] theorem State.put_otp (f : Fld) (v : Nat) : (s.put f v).otp = s.otp := by unfold State.put; split; rw [State.wr_otp, State.noteSet_otp]; rw [State.wr64_otp]
@[simp] theorem State.put_bly (f : Fld) (v : Nat) : (s.put f v).bly = s.bly := by unfold State.put; split; rw [State.wr_bly, State.noteSet_bly]; rw [State.wr64_bly]
@[simp] theorem State.put_safeoff (f : Fld) (v : Nat) : (s.put f v).safeoff = s.safeoff := by unfold State.put; split; rw [State.wr_safeoff, State.noteSet_safeoff]; rw [State.wr64_safeoff]
@[simp] theorem State.put_pulses (f : Fld) (v : Nat) : (s.put f v).pulses = s.pulses := by unfold State.put; split; rw [State.wr_pulses, State.noteSet_pulses]; rw [State.wr64_pulses]
@[simp] theorem State.put_csps (f : Fld) (v : Nat) : (s.put f v).csps = s.csps := by unfold State.put; split; rw [State.wr_csps, State.noteSet_csps]; rw [State.wr64_csps]
@[simp] theorem State.put_eths (f : Fld) (v : Nat) : (s.put f v).eths = s.eths := by unfold State.put; split; rw [State.wr_eths, State.noteSet_eths]; rw [State.wr64_eths]
@[simp] theorem State.put_gptp (f : Fld) (v : Nat) : (s.put f v).gptp = s.gptp := by unfold State.put; split; rw [State.wr_gptp, State.noteSet_gptp]; rw [State.wr64_gptp]
@[simp] theorem State.put_sent (f : Fld) (v : Nat) : (s.put f v).sent = s.sent := by unfold State.put; split; rw [State.wr_sent, State.noteSet_sent]; rw [State.wr64_sent]
@[simp] theorem State.put_dataOut (f : Fld) (v : Nat) : (s.put f v).dataOut = s.dataOut := by unfold State.put; split; rw [State.wr_dataOut, State.noteSet_dataOut]; rw [State.wr64_dataOut]
@[simp] theorem State.put_imgIdx (f : Fld) (v : Nat) : (s.put f v).imgIdx = s.imgIdx := by unfold State.put; split; rw [State.wr_imgIdx, State.noteSet_imgIdx]; rw [State.wr64_imgIdx]
@[simp] theorem State.put_hoCmd (f : Fld) (v : Nat) : (s.put f v).hoCmd = s.hoCmd := by unfold State.put; split; rw [State.wr_hoCmd, State.noteSet_hoCmd]; rw [State.wr64_hoCmd]
@[simp] theorem State.put_hoAt (f : Fld) (v : Nat) : (s.put f v).hoAt = s.hoAt := by unfold State.put; split; rw [State.wr_hoAt, State.noteSet_hoAt]; rw [State.wr64_hoAt]
@[simp] theorem State.put_hoDead (f : Fld) (v : Nat) : (s.put f v).hoDead = s.hoDead := by unfold State.put; split; rw [State.wr_hoDead, State.noteSet_hoDead]; rw [State.wr64_hoDead]
@[simp] theorem State.put_rstReq (f : Fld) (v : Nat) : (s.put f v).rstReq = s.rstReq := by unfold State.put; split; rw [State.wr_rstReq, State.noteSet_rstReq]; rw [State.wr64_rstReq]
@[simp] theorem State.put_biv (f : Fld) (v : Nat) : (s.put f v).biv = s.biv := by unfold State.put; split; rw [State.wr_biv, State.noteSet_biv]; rw [State.wr64_biv]
@[simp] theorem State.put_panel (f : Fld) (v : Nat) : (s.put f v).panel = s.panel := by unfold State.put; split; rw [State.wr_panel, State.noteSet_panel]; rw [State.wr64_panel]
@[simp] theorem State.put_portsOff (f : Fld) (v : Nat) : (s.put f v).portsOff = s.portsOff := by unfold State.put; split; rw [State.wr_portsOff, State.noteSet_portsOff]; rw [State.wr64_portsOff]

/-! ### puti -/

@[simp] theorem State.puti_pending (f : Fld) (v : Int) : (s.puti f v).pending = s.pending := by rw [State.puti, State.put_pending]
@[simp] theorem State.puti_straps (f : Fld) (v : Int) : (s.puti f v).straps = s.straps := by rw [State.puti, State.put_straps]
@[simp] theorem State.puti_power (f : Fld) (v : Int) : (s.puti f v).power = s.power := by rw [State.puti, State.put_power]
@[simp] theorem State.puti_mem (f : Fld) (v : Int) : (s.puti f v).mem = s.mem := by rw [State.puti, State.put_mem]
@[simp] theorem State.puti_now (f : Fld) (v : Int) : (s.puti f v).now = s.now := by rw [State.puti, State.put_now]
@[simp] theorem State.puti_tickAt (f : Fld) (v : Int) : (s.puti f v).tickAt = s.tickAt := by rw [State.puti, State.put_tickAt]
@[simp] theorem State.puti_tickLeft (f : Fld) (v : Int) : (s.puti f v).tickLeft = s.tickLeft := by rw [State.puti, State.put_tickLeft]
@[simp] theorem State.puti_tickDue (f : Fld) (v : Int) : (s.puti f v).tickDue = s.tickDue := by rw [State.puti, State.put_tickDue]
@[simp] theorem State.puti_drawn (f : Fld) (v : Int) : (s.puti f v).drawn = s.drawn := by rw [State.puti, State.put_drawn]
@[simp] theorem State.puti_accepts (f : Fld) (v : Int) : (s.puti f v).accepts = s.accepts := by rw [State.puti, State.put_accepts]
@[simp] theorem State.puti_newTick (f : Fld) (v : Int) : (s.puti f v).newTick = s.newTick := by rw [State.puti, State.put_newTick]
@[simp] theorem State.puti_gens (f : Fld) (v : Int) : (s.puti f v).gens = s.gens := by rw [State.puti, State.put_gens]
@[simp] theorem State.puti_ccs (f : Fld) (v : Int) : (s.puti f v).ccs = s.ccs := by rw [State.puti, State.put_ccs]
@[simp] theorem State.puti_chans (f : Fld) (v : Int) : (s.puti f v).chans = s.chans := by rw [State.puti, State.put_chans]
@[simp] theorem State.puti_groups (f : Fld) (v : Int) : (s.puti f v).groups = s.groups := by rw [State.puti, State.put_groups]
@[simp] theorem State.puti_windows (f : Fld) (v : Int) : (s.puti f v).windows = s.windows := by rw [State.puti, State.put_windows]
@[simp] theorem State.puti_filtOld (f : Fld) (v : Int) : (s.puti f v).filtOld = s.filtOld := by rw [State.puti, State.put_filtOld]
@[simp] theorem State.puti_streams (f : Fld) (v : Int) : (s.puti f v).streams = s.streams := by rw [State.puti, State.put_streams]
@[simp] theorem State.puti_hosts (f : Fld) (v : Int) : (s.puti f v).hosts = s.hosts := by rw [State.puti, State.put_hosts]
@[simp] theorem State.puti_swaps (f : Fld) (v : Int) : (s.puti f v).swaps = s.swaps := by rw [State.puti, State.put_swaps]
@[simp] theorem State.puti_engines (f : Fld) (v : Int) : (s.puti f v).engines = s.engines := by rw [State.puti, State.put_engines]
@[simp] theorem State.puti_ckps (f : Fld) (v : Int) : (s.puti f v).ckps = s.ckps := by rw [State.puti, State.put_ckps]
@[simp] theorem State.puti_prs (f : Fld) (v : Int) : (s.puti f v).prs = s.prs := by rw [State.puti, State.put_prs]
@[simp] theorem State.puti_decs (f : Fld) (v : Int) : (s.puti f v).decs = s.decs := by rw [State.puti, State.put_decs]
@[simp] theorem State.puti_hkc (f : Fld) (v : Int) : (s.puti f v).hkc = s.hkc := by rw [State.puti, State.put_hkc]
@[simp] theorem State.puti_fbs (f : Fld) (v : Int) : (s.puti f v).fbs = s.fbs := by rw [State.puti, State.put_fbs]
@[simp] theorem State.puti_lines (f : Fld) (v : Int) : (s.puti f v).lines = s.lines := by rw [State.puti, State.put_lines]
@[simp] theorem State.puti_capAt (f : Fld) (v : Int) : (s.puti f v).capAt = s.capAt := by rw [State.puti, State.put_capAt]
@[simp] theorem State.puti_pcos (f : Fld) (v : Int) : (s.puti f v).pcos = s.pcos := by rw [State.puti, State.put_pcos]
@[simp] theorem State.puti_coll (f : Fld) (v : Int) : (s.puti f v).coll = s.coll := by rw [State.puti, State.put_coll]
@[simp] theorem State.puti_log (f : Fld) (v : Int) : (s.puti f v).log = s.log := by rw [State.puti, State.put_log]
@[simp] theorem State.puti_flash (f : Fld) (v : Int) : (s.puti f v).flash = s.flash := by rw [State.puti, State.put_flash]
@[simp] theorem State.puti_otp (f : Fld) (v : Int) : (s.puti f v).otp = s.otp := by rw [State.puti, State.put_otp]
@[simp] theorem State.puti_bly (f : Fld) (v : Int) : (s.puti f v).bly = s.bly := by rw [State.puti, State.put_bly]
@[simp] theorem State.puti_safeoff (f : Fld) (v : Int) : (s.puti f v).safeoff = s.safeoff := by rw [State.puti, State.put_safeoff]
@[simp] theorem State.puti_pulses (f : Fld) (v : Int) : (s.puti f v).pulses = s.pulses := by rw [State.puti, State.put_pulses]
@[simp] theorem State.puti_csps (f : Fld) (v : Int) : (s.puti f v).csps = s.csps := by rw [State.puti, State.put_csps]
@[simp] theorem State.puti_eths (f : Fld) (v : Int) : (s.puti f v).eths = s.eths := by rw [State.puti, State.put_eths]
@[simp] theorem State.puti_gptp (f : Fld) (v : Int) : (s.puti f v).gptp = s.gptp := by rw [State.puti, State.put_gptp]
@[simp] theorem State.puti_sent (f : Fld) (v : Int) : (s.puti f v).sent = s.sent := by rw [State.puti, State.put_sent]
@[simp] theorem State.puti_dataOut (f : Fld) (v : Int) : (s.puti f v).dataOut = s.dataOut := by rw [State.puti, State.put_dataOut]
@[simp] theorem State.puti_imgIdx (f : Fld) (v : Int) : (s.puti f v).imgIdx = s.imgIdx := by rw [State.puti, State.put_imgIdx]
@[simp] theorem State.puti_hoCmd (f : Fld) (v : Int) : (s.puti f v).hoCmd = s.hoCmd := by rw [State.puti, State.put_hoCmd]
@[simp] theorem State.puti_hoAt (f : Fld) (v : Int) : (s.puti f v).hoAt = s.hoAt := by rw [State.puti, State.put_hoAt]
@[simp] theorem State.puti_hoDead (f : Fld) (v : Int) : (s.puti f v).hoDead = s.hoDead := by rw [State.puti, State.put_hoDead]
@[simp] theorem State.puti_rstReq (f : Fld) (v : Int) : (s.puti f v).rstReq = s.rstReq := by rw [State.puti, State.put_rstReq]
@[simp] theorem State.puti_biv (f : Fld) (v : Int) : (s.puti f v).biv = s.biv := by rw [State.puti, State.put_biv]
@[simp] theorem State.puti_panel (f : Fld) (v : Int) : (s.puti f v).panel = s.panel := by rw [State.puti, State.put_panel]
@[simp] theorem State.puti_portsOff (f : Fld) (v : Int) : (s.puti f v).portsOff = s.portsOff := by rw [State.puti, State.put_portsOff]

/-! ### flag -/

@[simp] theorem State.flag_pending (f : Fld) (b : Bool) : (s.flag f b).pending = s.pending := by rw [State.flag, State.put_pending]
@[simp] theorem State.flag_straps (f : Fld) (b : Bool) : (s.flag f b).straps = s.straps := by rw [State.flag, State.put_straps]
@[simp] theorem State.flag_power (f : Fld) (b : Bool) : (s.flag f b).power = s.power := by rw [State.flag, State.put_power]
@[simp] theorem State.flag_mem (f : Fld) (b : Bool) : (s.flag f b).mem = s.mem := by rw [State.flag, State.put_mem]
@[simp] theorem State.flag_now (f : Fld) (b : Bool) : (s.flag f b).now = s.now := by rw [State.flag, State.put_now]
@[simp] theorem State.flag_tickAt (f : Fld) (b : Bool) : (s.flag f b).tickAt = s.tickAt := by rw [State.flag, State.put_tickAt]
@[simp] theorem State.flag_tickLeft (f : Fld) (b : Bool) : (s.flag f b).tickLeft = s.tickLeft := by rw [State.flag, State.put_tickLeft]
@[simp] theorem State.flag_tickDue (f : Fld) (b : Bool) : (s.flag f b).tickDue = s.tickDue := by rw [State.flag, State.put_tickDue]
@[simp] theorem State.flag_drawn (f : Fld) (b : Bool) : (s.flag f b).drawn = s.drawn := by rw [State.flag, State.put_drawn]
@[simp] theorem State.flag_accepts (f : Fld) (b : Bool) : (s.flag f b).accepts = s.accepts := by rw [State.flag, State.put_accepts]
@[simp] theorem State.flag_newTick (f : Fld) (b : Bool) : (s.flag f b).newTick = s.newTick := by rw [State.flag, State.put_newTick]
@[simp] theorem State.flag_gens (f : Fld) (b : Bool) : (s.flag f b).gens = s.gens := by rw [State.flag, State.put_gens]
@[simp] theorem State.flag_ccs (f : Fld) (b : Bool) : (s.flag f b).ccs = s.ccs := by rw [State.flag, State.put_ccs]
@[simp] theorem State.flag_chans (f : Fld) (b : Bool) : (s.flag f b).chans = s.chans := by rw [State.flag, State.put_chans]
@[simp] theorem State.flag_groups (f : Fld) (b : Bool) : (s.flag f b).groups = s.groups := by rw [State.flag, State.put_groups]
@[simp] theorem State.flag_windows (f : Fld) (b : Bool) : (s.flag f b).windows = s.windows := by rw [State.flag, State.put_windows]
@[simp] theorem State.flag_filtOld (f : Fld) (b : Bool) : (s.flag f b).filtOld = s.filtOld := by rw [State.flag, State.put_filtOld]
@[simp] theorem State.flag_streams (f : Fld) (b : Bool) : (s.flag f b).streams = s.streams := by rw [State.flag, State.put_streams]
@[simp] theorem State.flag_hosts (f : Fld) (b : Bool) : (s.flag f b).hosts = s.hosts := by rw [State.flag, State.put_hosts]
@[simp] theorem State.flag_swaps (f : Fld) (b : Bool) : (s.flag f b).swaps = s.swaps := by rw [State.flag, State.put_swaps]
@[simp] theorem State.flag_engines (f : Fld) (b : Bool) : (s.flag f b).engines = s.engines := by rw [State.flag, State.put_engines]
@[simp] theorem State.flag_ckps (f : Fld) (b : Bool) : (s.flag f b).ckps = s.ckps := by rw [State.flag, State.put_ckps]
@[simp] theorem State.flag_prs (f : Fld) (b : Bool) : (s.flag f b).prs = s.prs := by rw [State.flag, State.put_prs]
@[simp] theorem State.flag_decs (f : Fld) (b : Bool) : (s.flag f b).decs = s.decs := by rw [State.flag, State.put_decs]
@[simp] theorem State.flag_hkc (f : Fld) (b : Bool) : (s.flag f b).hkc = s.hkc := by rw [State.flag, State.put_hkc]
@[simp] theorem State.flag_fbs (f : Fld) (b : Bool) : (s.flag f b).fbs = s.fbs := by rw [State.flag, State.put_fbs]
@[simp] theorem State.flag_lines (f : Fld) (b : Bool) : (s.flag f b).lines = s.lines := by rw [State.flag, State.put_lines]
@[simp] theorem State.flag_capAt (f : Fld) (b : Bool) : (s.flag f b).capAt = s.capAt := by rw [State.flag, State.put_capAt]
@[simp] theorem State.flag_pcos (f : Fld) (b : Bool) : (s.flag f b).pcos = s.pcos := by rw [State.flag, State.put_pcos]
@[simp] theorem State.flag_coll (f : Fld) (b : Bool) : (s.flag f b).coll = s.coll := by rw [State.flag, State.put_coll]
@[simp] theorem State.flag_log (f : Fld) (b : Bool) : (s.flag f b).log = s.log := by rw [State.flag, State.put_log]
@[simp] theorem State.flag_flash (f : Fld) (b : Bool) : (s.flag f b).flash = s.flash := by rw [State.flag, State.put_flash]
@[simp] theorem State.flag_otp (f : Fld) (b : Bool) : (s.flag f b).otp = s.otp := by rw [State.flag, State.put_otp]
@[simp] theorem State.flag_bly (f : Fld) (b : Bool) : (s.flag f b).bly = s.bly := by rw [State.flag, State.put_bly]
@[simp] theorem State.flag_safeoff (f : Fld) (b : Bool) : (s.flag f b).safeoff = s.safeoff := by rw [State.flag, State.put_safeoff]
@[simp] theorem State.flag_pulses (f : Fld) (b : Bool) : (s.flag f b).pulses = s.pulses := by rw [State.flag, State.put_pulses]
@[simp] theorem State.flag_csps (f : Fld) (b : Bool) : (s.flag f b).csps = s.csps := by rw [State.flag, State.put_csps]
@[simp] theorem State.flag_eths (f : Fld) (b : Bool) : (s.flag f b).eths = s.eths := by rw [State.flag, State.put_eths]
@[simp] theorem State.flag_gptp (f : Fld) (b : Bool) : (s.flag f b).gptp = s.gptp := by rw [State.flag, State.put_gptp]
@[simp] theorem State.flag_sent (f : Fld) (b : Bool) : (s.flag f b).sent = s.sent := by rw [State.flag, State.put_sent]
@[simp] theorem State.flag_dataOut (f : Fld) (b : Bool) : (s.flag f b).dataOut = s.dataOut := by rw [State.flag, State.put_dataOut]
@[simp] theorem State.flag_imgIdx (f : Fld) (b : Bool) : (s.flag f b).imgIdx = s.imgIdx := by rw [State.flag, State.put_imgIdx]
@[simp] theorem State.flag_hoCmd (f : Fld) (b : Bool) : (s.flag f b).hoCmd = s.hoCmd := by rw [State.flag, State.put_hoCmd]
@[simp] theorem State.flag_hoAt (f : Fld) (b : Bool) : (s.flag f b).hoAt = s.hoAt := by rw [State.flag, State.put_hoAt]
@[simp] theorem State.flag_hoDead (f : Fld) (b : Bool) : (s.flag f b).hoDead = s.hoDead := by rw [State.flag, State.put_hoDead]
@[simp] theorem State.flag_rstReq (f : Fld) (b : Bool) : (s.flag f b).rstReq = s.rstReq := by rw [State.flag, State.put_rstReq]
@[simp] theorem State.flag_biv (f : Fld) (b : Bool) : (s.flag f b).biv = s.biv := by rw [State.flag, State.put_biv]
@[simp] theorem State.flag_panel (f : Fld) (b : Bool) : (s.flag f b).panel = s.panel := by rw [State.flag, State.put_panel]
@[simp] theorem State.flag_portsOff (f : Fld) (b : Bool) : (s.flag f b).portsOff = s.portsOff := by rw [State.flag, State.put_portsOff]

/-! ### inc -/

@[simp] theorem State.inc_pending (f : Fld) (k : Nat) : (s.inc f k).pending = s.pending := by rw [State.inc, State.put_pending]
@[simp] theorem State.inc_straps (f : Fld) (k : Nat) : (s.inc f k).straps = s.straps := by rw [State.inc, State.put_straps]
@[simp] theorem State.inc_power (f : Fld) (k : Nat) : (s.inc f k).power = s.power := by rw [State.inc, State.put_power]
@[simp] theorem State.inc_mem (f : Fld) (k : Nat) : (s.inc f k).mem = s.mem := by rw [State.inc, State.put_mem]
@[simp] theorem State.inc_now (f : Fld) (k : Nat) : (s.inc f k).now = s.now := by rw [State.inc, State.put_now]
@[simp] theorem State.inc_tickAt (f : Fld) (k : Nat) : (s.inc f k).tickAt = s.tickAt := by rw [State.inc, State.put_tickAt]
@[simp] theorem State.inc_tickLeft (f : Fld) (k : Nat) : (s.inc f k).tickLeft = s.tickLeft := by rw [State.inc, State.put_tickLeft]
@[simp] theorem State.inc_tickDue (f : Fld) (k : Nat) : (s.inc f k).tickDue = s.tickDue := by rw [State.inc, State.put_tickDue]
@[simp] theorem State.inc_drawn (f : Fld) (k : Nat) : (s.inc f k).drawn = s.drawn := by rw [State.inc, State.put_drawn]
@[simp] theorem State.inc_accepts (f : Fld) (k : Nat) : (s.inc f k).accepts = s.accepts := by rw [State.inc, State.put_accepts]
@[simp] theorem State.inc_newTick (f : Fld) (k : Nat) : (s.inc f k).newTick = s.newTick := by rw [State.inc, State.put_newTick]
@[simp] theorem State.inc_gens (f : Fld) (k : Nat) : (s.inc f k).gens = s.gens := by rw [State.inc, State.put_gens]
@[simp] theorem State.inc_ccs (f : Fld) (k : Nat) : (s.inc f k).ccs = s.ccs := by rw [State.inc, State.put_ccs]
@[simp] theorem State.inc_chans (f : Fld) (k : Nat) : (s.inc f k).chans = s.chans := by rw [State.inc, State.put_chans]
@[simp] theorem State.inc_groups (f : Fld) (k : Nat) : (s.inc f k).groups = s.groups := by rw [State.inc, State.put_groups]
@[simp] theorem State.inc_windows (f : Fld) (k : Nat) : (s.inc f k).windows = s.windows := by rw [State.inc, State.put_windows]
@[simp] theorem State.inc_filtOld (f : Fld) (k : Nat) : (s.inc f k).filtOld = s.filtOld := by rw [State.inc, State.put_filtOld]
@[simp] theorem State.inc_streams (f : Fld) (k : Nat) : (s.inc f k).streams = s.streams := by rw [State.inc, State.put_streams]
@[simp] theorem State.inc_hosts (f : Fld) (k : Nat) : (s.inc f k).hosts = s.hosts := by rw [State.inc, State.put_hosts]
@[simp] theorem State.inc_swaps (f : Fld) (k : Nat) : (s.inc f k).swaps = s.swaps := by rw [State.inc, State.put_swaps]
@[simp] theorem State.inc_engines (f : Fld) (k : Nat) : (s.inc f k).engines = s.engines := by rw [State.inc, State.put_engines]
@[simp] theorem State.inc_ckps (f : Fld) (k : Nat) : (s.inc f k).ckps = s.ckps := by rw [State.inc, State.put_ckps]
@[simp] theorem State.inc_prs (f : Fld) (k : Nat) : (s.inc f k).prs = s.prs := by rw [State.inc, State.put_prs]
@[simp] theorem State.inc_decs (f : Fld) (k : Nat) : (s.inc f k).decs = s.decs := by rw [State.inc, State.put_decs]
@[simp] theorem State.inc_hkc (f : Fld) (k : Nat) : (s.inc f k).hkc = s.hkc := by rw [State.inc, State.put_hkc]
@[simp] theorem State.inc_fbs (f : Fld) (k : Nat) : (s.inc f k).fbs = s.fbs := by rw [State.inc, State.put_fbs]
@[simp] theorem State.inc_lines (f : Fld) (k : Nat) : (s.inc f k).lines = s.lines := by rw [State.inc, State.put_lines]
@[simp] theorem State.inc_capAt (f : Fld) (k : Nat) : (s.inc f k).capAt = s.capAt := by rw [State.inc, State.put_capAt]
@[simp] theorem State.inc_pcos (f : Fld) (k : Nat) : (s.inc f k).pcos = s.pcos := by rw [State.inc, State.put_pcos]
@[simp] theorem State.inc_coll (f : Fld) (k : Nat) : (s.inc f k).coll = s.coll := by rw [State.inc, State.put_coll]
@[simp] theorem State.inc_log (f : Fld) (k : Nat) : (s.inc f k).log = s.log := by rw [State.inc, State.put_log]
@[simp] theorem State.inc_flash (f : Fld) (k : Nat) : (s.inc f k).flash = s.flash := by rw [State.inc, State.put_flash]
@[simp] theorem State.inc_otp (f : Fld) (k : Nat) : (s.inc f k).otp = s.otp := by rw [State.inc, State.put_otp]
@[simp] theorem State.inc_bly (f : Fld) (k : Nat) : (s.inc f k).bly = s.bly := by rw [State.inc, State.put_bly]
@[simp] theorem State.inc_safeoff (f : Fld) (k : Nat) : (s.inc f k).safeoff = s.safeoff := by rw [State.inc, State.put_safeoff]
@[simp] theorem State.inc_pulses (f : Fld) (k : Nat) : (s.inc f k).pulses = s.pulses := by rw [State.inc, State.put_pulses]
@[simp] theorem State.inc_csps (f : Fld) (k : Nat) : (s.inc f k).csps = s.csps := by rw [State.inc, State.put_csps]
@[simp] theorem State.inc_eths (f : Fld) (k : Nat) : (s.inc f k).eths = s.eths := by rw [State.inc, State.put_eths]
@[simp] theorem State.inc_gptp (f : Fld) (k : Nat) : (s.inc f k).gptp = s.gptp := by rw [State.inc, State.put_gptp]
@[simp] theorem State.inc_sent (f : Fld) (k : Nat) : (s.inc f k).sent = s.sent := by rw [State.inc, State.put_sent]
@[simp] theorem State.inc_dataOut (f : Fld) (k : Nat) : (s.inc f k).dataOut = s.dataOut := by rw [State.inc, State.put_dataOut]
@[simp] theorem State.inc_imgIdx (f : Fld) (k : Nat) : (s.inc f k).imgIdx = s.imgIdx := by rw [State.inc, State.put_imgIdx]
@[simp] theorem State.inc_hoCmd (f : Fld) (k : Nat) : (s.inc f k).hoCmd = s.hoCmd := by rw [State.inc, State.put_hoCmd]
@[simp] theorem State.inc_hoAt (f : Fld) (k : Nat) : (s.inc f k).hoAt = s.hoAt := by rw [State.inc, State.put_hoAt]
@[simp] theorem State.inc_hoDead (f : Fld) (k : Nat) : (s.inc f k).hoDead = s.hoDead := by rw [State.inc, State.put_hoDead]
@[simp] theorem State.inc_rstReq (f : Fld) (k : Nat) : (s.inc f k).rstReq = s.rstReq := by rw [State.inc, State.put_rstReq]
@[simp] theorem State.inc_biv (f : Fld) (k : Nat) : (s.inc f k).biv = s.biv := by rw [State.inc, State.put_biv]
@[simp] theorem State.inc_panel (f : Fld) (k : Nat) : (s.inc f k).panel = s.panel := by rw [State.inc, State.put_panel]
@[simp] theorem State.inc_portsOff (f : Fld) (k : Nat) : (s.inc f k).portsOff = s.portsOff := by rw [State.inc, State.put_portsOff]

/-! ### incSat -/

@[simp] theorem State.incSat_pending (f : Fld) (k : Nat) : (s.incSat f k).pending = s.pending := by rw [State.incSat, State.put_pending]
@[simp] theorem State.incSat_straps (f : Fld) (k : Nat) : (s.incSat f k).straps = s.straps := by rw [State.incSat, State.put_straps]
@[simp] theorem State.incSat_power (f : Fld) (k : Nat) : (s.incSat f k).power = s.power := by rw [State.incSat, State.put_power]
@[simp] theorem State.incSat_mem (f : Fld) (k : Nat) : (s.incSat f k).mem = s.mem := by rw [State.incSat, State.put_mem]
@[simp] theorem State.incSat_now (f : Fld) (k : Nat) : (s.incSat f k).now = s.now := by rw [State.incSat, State.put_now]
@[simp] theorem State.incSat_tickAt (f : Fld) (k : Nat) : (s.incSat f k).tickAt = s.tickAt := by rw [State.incSat, State.put_tickAt]
@[simp] theorem State.incSat_tickLeft (f : Fld) (k : Nat) : (s.incSat f k).tickLeft = s.tickLeft := by rw [State.incSat, State.put_tickLeft]
@[simp] theorem State.incSat_tickDue (f : Fld) (k : Nat) : (s.incSat f k).tickDue = s.tickDue := by rw [State.incSat, State.put_tickDue]
@[simp] theorem State.incSat_drawn (f : Fld) (k : Nat) : (s.incSat f k).drawn = s.drawn := by rw [State.incSat, State.put_drawn]
@[simp] theorem State.incSat_accepts (f : Fld) (k : Nat) : (s.incSat f k).accepts = s.accepts := by rw [State.incSat, State.put_accepts]
@[simp] theorem State.incSat_newTick (f : Fld) (k : Nat) : (s.incSat f k).newTick = s.newTick := by rw [State.incSat, State.put_newTick]
@[simp] theorem State.incSat_gens (f : Fld) (k : Nat) : (s.incSat f k).gens = s.gens := by rw [State.incSat, State.put_gens]
@[simp] theorem State.incSat_ccs (f : Fld) (k : Nat) : (s.incSat f k).ccs = s.ccs := by rw [State.incSat, State.put_ccs]
@[simp] theorem State.incSat_chans (f : Fld) (k : Nat) : (s.incSat f k).chans = s.chans := by rw [State.incSat, State.put_chans]
@[simp] theorem State.incSat_groups (f : Fld) (k : Nat) : (s.incSat f k).groups = s.groups := by rw [State.incSat, State.put_groups]
@[simp] theorem State.incSat_windows (f : Fld) (k : Nat) : (s.incSat f k).windows = s.windows := by rw [State.incSat, State.put_windows]
@[simp] theorem State.incSat_filtOld (f : Fld) (k : Nat) : (s.incSat f k).filtOld = s.filtOld := by rw [State.incSat, State.put_filtOld]
@[simp] theorem State.incSat_streams (f : Fld) (k : Nat) : (s.incSat f k).streams = s.streams := by rw [State.incSat, State.put_streams]
@[simp] theorem State.incSat_hosts (f : Fld) (k : Nat) : (s.incSat f k).hosts = s.hosts := by rw [State.incSat, State.put_hosts]
@[simp] theorem State.incSat_swaps (f : Fld) (k : Nat) : (s.incSat f k).swaps = s.swaps := by rw [State.incSat, State.put_swaps]
@[simp] theorem State.incSat_engines (f : Fld) (k : Nat) : (s.incSat f k).engines = s.engines := by rw [State.incSat, State.put_engines]
@[simp] theorem State.incSat_ckps (f : Fld) (k : Nat) : (s.incSat f k).ckps = s.ckps := by rw [State.incSat, State.put_ckps]
@[simp] theorem State.incSat_prs (f : Fld) (k : Nat) : (s.incSat f k).prs = s.prs := by rw [State.incSat, State.put_prs]
@[simp] theorem State.incSat_decs (f : Fld) (k : Nat) : (s.incSat f k).decs = s.decs := by rw [State.incSat, State.put_decs]
@[simp] theorem State.incSat_hkc (f : Fld) (k : Nat) : (s.incSat f k).hkc = s.hkc := by rw [State.incSat, State.put_hkc]
@[simp] theorem State.incSat_fbs (f : Fld) (k : Nat) : (s.incSat f k).fbs = s.fbs := by rw [State.incSat, State.put_fbs]
@[simp] theorem State.incSat_lines (f : Fld) (k : Nat) : (s.incSat f k).lines = s.lines := by rw [State.incSat, State.put_lines]
@[simp] theorem State.incSat_capAt (f : Fld) (k : Nat) : (s.incSat f k).capAt = s.capAt := by rw [State.incSat, State.put_capAt]
@[simp] theorem State.incSat_pcos (f : Fld) (k : Nat) : (s.incSat f k).pcos = s.pcos := by rw [State.incSat, State.put_pcos]
@[simp] theorem State.incSat_coll (f : Fld) (k : Nat) : (s.incSat f k).coll = s.coll := by rw [State.incSat, State.put_coll]
@[simp] theorem State.incSat_log (f : Fld) (k : Nat) : (s.incSat f k).log = s.log := by rw [State.incSat, State.put_log]
@[simp] theorem State.incSat_flash (f : Fld) (k : Nat) : (s.incSat f k).flash = s.flash := by rw [State.incSat, State.put_flash]
@[simp] theorem State.incSat_otp (f : Fld) (k : Nat) : (s.incSat f k).otp = s.otp := by rw [State.incSat, State.put_otp]
@[simp] theorem State.incSat_bly (f : Fld) (k : Nat) : (s.incSat f k).bly = s.bly := by rw [State.incSat, State.put_bly]
@[simp] theorem State.incSat_safeoff (f : Fld) (k : Nat) : (s.incSat f k).safeoff = s.safeoff := by rw [State.incSat, State.put_safeoff]
@[simp] theorem State.incSat_pulses (f : Fld) (k : Nat) : (s.incSat f k).pulses = s.pulses := by rw [State.incSat, State.put_pulses]
@[simp] theorem State.incSat_csps (f : Fld) (k : Nat) : (s.incSat f k).csps = s.csps := by rw [State.incSat, State.put_csps]
@[simp] theorem State.incSat_eths (f : Fld) (k : Nat) : (s.incSat f k).eths = s.eths := by rw [State.incSat, State.put_eths]
@[simp] theorem State.incSat_gptp (f : Fld) (k : Nat) : (s.incSat f k).gptp = s.gptp := by rw [State.incSat, State.put_gptp]
@[simp] theorem State.incSat_sent (f : Fld) (k : Nat) : (s.incSat f k).sent = s.sent := by rw [State.incSat, State.put_sent]
@[simp] theorem State.incSat_dataOut (f : Fld) (k : Nat) : (s.incSat f k).dataOut = s.dataOut := by rw [State.incSat, State.put_dataOut]
@[simp] theorem State.incSat_imgIdx (f : Fld) (k : Nat) : (s.incSat f k).imgIdx = s.imgIdx := by rw [State.incSat, State.put_imgIdx]
@[simp] theorem State.incSat_hoCmd (f : Fld) (k : Nat) : (s.incSat f k).hoCmd = s.hoCmd := by rw [State.incSat, State.put_hoCmd]
@[simp] theorem State.incSat_hoAt (f : Fld) (k : Nat) : (s.incSat f k).hoAt = s.hoAt := by rw [State.incSat, State.put_hoAt]
@[simp] theorem State.incSat_hoDead (f : Fld) (k : Nat) : (s.incSat f k).hoDead = s.hoDead := by rw [State.incSat, State.put_hoDead]
@[simp] theorem State.incSat_rstReq (f : Fld) (k : Nat) : (s.incSat f k).rstReq = s.rstReq := by rw [State.incSat, State.put_rstReq]
@[simp] theorem State.incSat_biv (f : Fld) (k : Nat) : (s.incSat f k).biv = s.biv := by rw [State.incSat, State.put_biv]
@[simp] theorem State.incSat_panel (f : Fld) (k : Nat) : (s.incSat f k).panel = s.panel := by rw [State.incSat, State.put_panel]
@[simp] theorem State.incSat_portsOff (f : Fld) (k : Nat) : (s.incSat f k).portsOff = s.portsOff := by rw [State.incSat, State.put_portsOff]

/-! ### err -/

@[simp] theorem State.err_pending (n e : Nat) : (s.err n e).pending = s.pending := by rw [State.err, State.put_pending]
@[simp] theorem State.err_straps (n e : Nat) : (s.err n e).straps = s.straps := by rw [State.err, State.put_straps]
@[simp] theorem State.err_power (n e : Nat) : (s.err n e).power = s.power := by rw [State.err, State.put_power]
@[simp] theorem State.err_mem (n e : Nat) : (s.err n e).mem = s.mem := by rw [State.err, State.put_mem]
@[simp] theorem State.err_now (n e : Nat) : (s.err n e).now = s.now := by rw [State.err, State.put_now]
@[simp] theorem State.err_tickAt (n e : Nat) : (s.err n e).tickAt = s.tickAt := by rw [State.err, State.put_tickAt]
@[simp] theorem State.err_tickLeft (n e : Nat) : (s.err n e).tickLeft = s.tickLeft := by rw [State.err, State.put_tickLeft]
@[simp] theorem State.err_tickDue (n e : Nat) : (s.err n e).tickDue = s.tickDue := by rw [State.err, State.put_tickDue]
@[simp] theorem State.err_drawn (n e : Nat) : (s.err n e).drawn = s.drawn := by rw [State.err, State.put_drawn]
@[simp] theorem State.err_accepts (n e : Nat) : (s.err n e).accepts = s.accepts := by rw [State.err, State.put_accepts]
@[simp] theorem State.err_newTick (n e : Nat) : (s.err n e).newTick = s.newTick := by rw [State.err, State.put_newTick]
@[simp] theorem State.err_gens (n e : Nat) : (s.err n e).gens = s.gens := by rw [State.err, State.put_gens]
@[simp] theorem State.err_ccs (n e : Nat) : (s.err n e).ccs = s.ccs := by rw [State.err, State.put_ccs]
@[simp] theorem State.err_chans (n e : Nat) : (s.err n e).chans = s.chans := by rw [State.err, State.put_chans]
@[simp] theorem State.err_groups (n e : Nat) : (s.err n e).groups = s.groups := by rw [State.err, State.put_groups]
@[simp] theorem State.err_windows (n e : Nat) : (s.err n e).windows = s.windows := by rw [State.err, State.put_windows]
@[simp] theorem State.err_filtOld (n e : Nat) : (s.err n e).filtOld = s.filtOld := by rw [State.err, State.put_filtOld]
@[simp] theorem State.err_streams (n e : Nat) : (s.err n e).streams = s.streams := by rw [State.err, State.put_streams]
@[simp] theorem State.err_hosts (n e : Nat) : (s.err n e).hosts = s.hosts := by rw [State.err, State.put_hosts]
@[simp] theorem State.err_swaps (n e : Nat) : (s.err n e).swaps = s.swaps := by rw [State.err, State.put_swaps]
@[simp] theorem State.err_engines (n e : Nat) : (s.err n e).engines = s.engines := by rw [State.err, State.put_engines]
@[simp] theorem State.err_ckps (n e : Nat) : (s.err n e).ckps = s.ckps := by rw [State.err, State.put_ckps]
@[simp] theorem State.err_prs (n e : Nat) : (s.err n e).prs = s.prs := by rw [State.err, State.put_prs]
@[simp] theorem State.err_decs (n e : Nat) : (s.err n e).decs = s.decs := by rw [State.err, State.put_decs]
@[simp] theorem State.err_hkc (n e : Nat) : (s.err n e).hkc = s.hkc := by rw [State.err, State.put_hkc]
@[simp] theorem State.err_fbs (n e : Nat) : (s.err n e).fbs = s.fbs := by rw [State.err, State.put_fbs]
@[simp] theorem State.err_lines (n e : Nat) : (s.err n e).lines = s.lines := by rw [State.err, State.put_lines]
@[simp] theorem State.err_capAt (n e : Nat) : (s.err n e).capAt = s.capAt := by rw [State.err, State.put_capAt]
@[simp] theorem State.err_pcos (n e : Nat) : (s.err n e).pcos = s.pcos := by rw [State.err, State.put_pcos]
@[simp] theorem State.err_coll (n e : Nat) : (s.err n e).coll = s.coll := by rw [State.err, State.put_coll]
@[simp] theorem State.err_log (n e : Nat) : (s.err n e).log = s.log := by rw [State.err, State.put_log]
@[simp] theorem State.err_flash (n e : Nat) : (s.err n e).flash = s.flash := by rw [State.err, State.put_flash]
@[simp] theorem State.err_otp (n e : Nat) : (s.err n e).otp = s.otp := by rw [State.err, State.put_otp]
@[simp] theorem State.err_bly (n e : Nat) : (s.err n e).bly = s.bly := by rw [State.err, State.put_bly]
@[simp] theorem State.err_safeoff (n e : Nat) : (s.err n e).safeoff = s.safeoff := by rw [State.err, State.put_safeoff]
@[simp] theorem State.err_pulses (n e : Nat) : (s.err n e).pulses = s.pulses := by rw [State.err, State.put_pulses]
@[simp] theorem State.err_csps (n e : Nat) : (s.err n e).csps = s.csps := by rw [State.err, State.put_csps]
@[simp] theorem State.err_eths (n e : Nat) : (s.err n e).eths = s.eths := by rw [State.err, State.put_eths]
@[simp] theorem State.err_gptp (n e : Nat) : (s.err n e).gptp = s.gptp := by rw [State.err, State.put_gptp]
@[simp] theorem State.err_sent (n e : Nat) : (s.err n e).sent = s.sent := by rw [State.err, State.put_sent]
@[simp] theorem State.err_dataOut (n e : Nat) : (s.err n e).dataOut = s.dataOut := by rw [State.err, State.put_dataOut]
@[simp] theorem State.err_imgIdx (n e : Nat) : (s.err n e).imgIdx = s.imgIdx := by rw [State.err, State.put_imgIdx]
@[simp] theorem State.err_hoCmd (n e : Nat) : (s.err n e).hoCmd = s.hoCmd := by rw [State.err, State.put_hoCmd]
@[simp] theorem State.err_hoAt (n e : Nat) : (s.err n e).hoAt = s.hoAt := by rw [State.err, State.put_hoAt]
@[simp] theorem State.err_hoDead (n e : Nat) : (s.err n e).hoDead = s.hoDead := by rw [State.err, State.put_hoDead]
@[simp] theorem State.err_rstReq (n e : Nat) : (s.err n e).rstReq = s.rstReq := by rw [State.err, State.put_rstReq]
@[simp] theorem State.err_biv (n e : Nat) : (s.err n e).biv = s.biv := by rw [State.err, State.put_biv]
@[simp] theorem State.err_panel (n e : Nat) : (s.err n e).panel = s.panel := by rw [State.err, State.put_panel]
@[simp] theorem State.err_portsOff (n e : Nat) : (s.err n e).portsOff = s.portsOff := by rw [State.err, State.put_portsOff]

/-! ### w1c -/

@[simp] theorem State.w1c_pending (f : Fld) (v : Word) : (s.w1c f v).pending = s.pending := by unfold State.w1c; split; rw [State.put_pending]; rfl
@[simp] theorem State.w1c_straps (f : Fld) (v : Word) : (s.w1c f v).straps = s.straps := by unfold State.w1c; split; rw [State.put_straps]; rfl
@[simp] theorem State.w1c_power (f : Fld) (v : Word) : (s.w1c f v).power = s.power := by unfold State.w1c; split; rw [State.put_power]; rfl
@[simp] theorem State.w1c_mem (f : Fld) (v : Word) : (s.w1c f v).mem = s.mem := by unfold State.w1c; split; rw [State.put_mem]; rfl
@[simp] theorem State.w1c_now (f : Fld) (v : Word) : (s.w1c f v).now = s.now := by unfold State.w1c; split; rw [State.put_now]; rfl
@[simp] theorem State.w1c_tickAt (f : Fld) (v : Word) : (s.w1c f v).tickAt = s.tickAt := by unfold State.w1c; split; rw [State.put_tickAt]; rfl
@[simp] theorem State.w1c_tickLeft (f : Fld) (v : Word) : (s.w1c f v).tickLeft = s.tickLeft := by unfold State.w1c; split; rw [State.put_tickLeft]; rfl
@[simp] theorem State.w1c_tickDue (f : Fld) (v : Word) : (s.w1c f v).tickDue = s.tickDue := by unfold State.w1c; split; rw [State.put_tickDue]; rfl
@[simp] theorem State.w1c_drawn (f : Fld) (v : Word) : (s.w1c f v).drawn = s.drawn := by unfold State.w1c; split; rw [State.put_drawn]; rfl
@[simp] theorem State.w1c_accepts (f : Fld) (v : Word) : (s.w1c f v).accepts = s.accepts := by unfold State.w1c; split; rw [State.put_accepts]; rfl
@[simp] theorem State.w1c_newTick (f : Fld) (v : Word) : (s.w1c f v).newTick = s.newTick := by unfold State.w1c; split; rw [State.put_newTick]; rfl
@[simp] theorem State.w1c_gens (f : Fld) (v : Word) : (s.w1c f v).gens = s.gens := by unfold State.w1c; split; rw [State.put_gens]; rfl
@[simp] theorem State.w1c_ccs (f : Fld) (v : Word) : (s.w1c f v).ccs = s.ccs := by unfold State.w1c; split; rw [State.put_ccs]; rfl
@[simp] theorem State.w1c_chans (f : Fld) (v : Word) : (s.w1c f v).chans = s.chans := by unfold State.w1c; split; rw [State.put_chans]; rfl
@[simp] theorem State.w1c_groups (f : Fld) (v : Word) : (s.w1c f v).groups = s.groups := by unfold State.w1c; split; rw [State.put_groups]; rfl
@[simp] theorem State.w1c_windows (f : Fld) (v : Word) : (s.w1c f v).windows = s.windows := by unfold State.w1c; split; rw [State.put_windows]; rfl
@[simp] theorem State.w1c_filtOld (f : Fld) (v : Word) : (s.w1c f v).filtOld = s.filtOld := by unfold State.w1c; split; rw [State.put_filtOld]; rfl
@[simp] theorem State.w1c_streams (f : Fld) (v : Word) : (s.w1c f v).streams = s.streams := by unfold State.w1c; split; rw [State.put_streams]; rfl
@[simp] theorem State.w1c_hosts (f : Fld) (v : Word) : (s.w1c f v).hosts = s.hosts := by unfold State.w1c; split; rw [State.put_hosts]; rfl
@[simp] theorem State.w1c_swaps (f : Fld) (v : Word) : (s.w1c f v).swaps = s.swaps := by unfold State.w1c; split; rw [State.put_swaps]; rfl
@[simp] theorem State.w1c_engines (f : Fld) (v : Word) : (s.w1c f v).engines = s.engines := by unfold State.w1c; split; rw [State.put_engines]; rfl
@[simp] theorem State.w1c_ckps (f : Fld) (v : Word) : (s.w1c f v).ckps = s.ckps := by unfold State.w1c; split; rw [State.put_ckps]; rfl
@[simp] theorem State.w1c_prs (f : Fld) (v : Word) : (s.w1c f v).prs = s.prs := by unfold State.w1c; split; rw [State.put_prs]; rfl
@[simp] theorem State.w1c_decs (f : Fld) (v : Word) : (s.w1c f v).decs = s.decs := by unfold State.w1c; split; rw [State.put_decs]; rfl
@[simp] theorem State.w1c_hkc (f : Fld) (v : Word) : (s.w1c f v).hkc = s.hkc := by unfold State.w1c; split; rw [State.put_hkc]; rfl
@[simp] theorem State.w1c_fbs (f : Fld) (v : Word) : (s.w1c f v).fbs = s.fbs := by unfold State.w1c; split; rw [State.put_fbs]; rfl
@[simp] theorem State.w1c_lines (f : Fld) (v : Word) : (s.w1c f v).lines = s.lines := by unfold State.w1c; split; rw [State.put_lines]; rfl
@[simp] theorem State.w1c_capAt (f : Fld) (v : Word) : (s.w1c f v).capAt = s.capAt := by unfold State.w1c; split; rw [State.put_capAt]; rfl
@[simp] theorem State.w1c_pcos (f : Fld) (v : Word) : (s.w1c f v).pcos = s.pcos := by unfold State.w1c; split; rw [State.put_pcos]; rfl
@[simp] theorem State.w1c_coll (f : Fld) (v : Word) : (s.w1c f v).coll = s.coll := by unfold State.w1c; split; rw [State.put_coll]; rfl
@[simp] theorem State.w1c_log (f : Fld) (v : Word) : (s.w1c f v).log = s.log := by unfold State.w1c; split; rw [State.put_log]; rfl
@[simp] theorem State.w1c_flash (f : Fld) (v : Word) : (s.w1c f v).flash = s.flash := by unfold State.w1c; split; rw [State.put_flash]; rfl
@[simp] theorem State.w1c_otp (f : Fld) (v : Word) : (s.w1c f v).otp = s.otp := by unfold State.w1c; split; rw [State.put_otp]; rfl
@[simp] theorem State.w1c_bly (f : Fld) (v : Word) : (s.w1c f v).bly = s.bly := by unfold State.w1c; split; rw [State.put_bly]; rfl
@[simp] theorem State.w1c_safeoff (f : Fld) (v : Word) : (s.w1c f v).safeoff = s.safeoff := by unfold State.w1c; split; rw [State.put_safeoff]; rfl
@[simp] theorem State.w1c_pulses (f : Fld) (v : Word) : (s.w1c f v).pulses = s.pulses := by unfold State.w1c; split; rw [State.put_pulses]; rfl
@[simp] theorem State.w1c_csps (f : Fld) (v : Word) : (s.w1c f v).csps = s.csps := by unfold State.w1c; split; rw [State.put_csps]; rfl
@[simp] theorem State.w1c_eths (f : Fld) (v : Word) : (s.w1c f v).eths = s.eths := by unfold State.w1c; split; rw [State.put_eths]; rfl
@[simp] theorem State.w1c_gptp (f : Fld) (v : Word) : (s.w1c f v).gptp = s.gptp := by unfold State.w1c; split; rw [State.put_gptp]; rfl
@[simp] theorem State.w1c_sent (f : Fld) (v : Word) : (s.w1c f v).sent = s.sent := by unfold State.w1c; split; rw [State.put_sent]; rfl
@[simp] theorem State.w1c_dataOut (f : Fld) (v : Word) : (s.w1c f v).dataOut = s.dataOut := by unfold State.w1c; split; rw [State.put_dataOut]; rfl
@[simp] theorem State.w1c_imgIdx (f : Fld) (v : Word) : (s.w1c f v).imgIdx = s.imgIdx := by unfold State.w1c; split; rw [State.put_imgIdx]; rfl
@[simp] theorem State.w1c_hoCmd (f : Fld) (v : Word) : (s.w1c f v).hoCmd = s.hoCmd := by unfold State.w1c; split; rw [State.put_hoCmd]; rfl
@[simp] theorem State.w1c_hoAt (f : Fld) (v : Word) : (s.w1c f v).hoAt = s.hoAt := by unfold State.w1c; split; rw [State.put_hoAt]; rfl
@[simp] theorem State.w1c_hoDead (f : Fld) (v : Word) : (s.w1c f v).hoDead = s.hoDead := by unfold State.w1c; split; rw [State.put_hoDead]; rfl
@[simp] theorem State.w1c_rstReq (f : Fld) (v : Word) : (s.w1c f v).rstReq = s.rstReq := by unfold State.w1c; split; rw [State.put_rstReq]; rfl
@[simp] theorem State.w1c_biv (f : Fld) (v : Word) : (s.w1c f v).biv = s.biv := by unfold State.w1c; split; rw [State.put_biv]; rfl
@[simp] theorem State.w1c_panel (f : Fld) (v : Word) : (s.w1c f v).panel = s.panel := by unfold State.w1c; split; rw [State.put_panel]; rfl
@[simp] theorem State.w1c_portsOff (f : Fld) (v : Word) : (s.w1c f v).portsOff = s.portsOff := by unfold State.w1c; split; rw [State.put_portsOff]; rfl

/-! ### effect -/

@[simp] theorem State.effect_pending (f : State → State) : (s.effect f).pending = s.pending := (rfl)
@[simp] theorem State.effect_straps (f : State → State) : (s.effect f).straps = (f s).straps := (rfl)
@[simp] theorem State.effect_power (f : State → State) : (s.effect f).power = (f s).power := (rfl)
@[simp] theorem State.effect_regs (f : State → State) : (s.effect f).regs = (f s).regs := (rfl)
@[simp] theorem State.effect_mem (f : State → State) : (s.effect f).mem = (f s).mem := (rfl)
@[simp] theorem State.effect_now (f : State → State) : (s.effect f).now = (f s).now := (rfl)
@[simp] theorem State.effect_tickAt (f : State → State) : (s.effect f).tickAt = (f s).tickAt := (rfl)
@[simp] theorem State.effect_tickLeft (f : State → State) : (s.effect f).tickLeft = (f s).tickLeft := (rfl)
@[simp] theorem State.effect_tickDue (f : State → State) : (s.effect f).tickDue = (f s).tickDue := (rfl)
@[simp] theorem State.effect_drawn (f : State → State) : (s.effect f).drawn = (f s).drawn := (rfl)
@[simp] theorem State.effect_accepts (f : State → State) : (s.effect f).accepts = (f s).accepts := (rfl)
@[simp] theorem State.effect_newTick (f : State → State) : (s.effect f).newTick = (f s).newTick := (rfl)
@[simp] theorem State.effect_setNow (f : State → State) : (s.effect f).setNow = (f s).setNow := (rfl)
@[simp] theorem State.effect_gens (f : State → State) : (s.effect f).gens = (f s).gens := (rfl)
@[simp] theorem State.effect_ccs (f : State → State) : (s.effect f).ccs = (f s).ccs := (rfl)
@[simp] theorem State.effect_chans (f : State → State) : (s.effect f).chans = (f s).chans := (rfl)
@[simp] theorem State.effect_groups (f : State → State) : (s.effect f).groups = (f s).groups := (rfl)
@[simp] theorem State.effect_windows (f : State → State) : (s.effect f).windows = (f s).windows := (rfl)
@[simp] theorem State.effect_filtOld (f : State → State) : (s.effect f).filtOld = (f s).filtOld := (rfl)
@[simp] theorem State.effect_streams (f : State → State) : (s.effect f).streams = (f s).streams := (rfl)
@[simp] theorem State.effect_hosts (f : State → State) : (s.effect f).hosts = (f s).hosts := (rfl)
@[simp] theorem State.effect_swaps (f : State → State) : (s.effect f).swaps = (f s).swaps := (rfl)
@[simp] theorem State.effect_engines (f : State → State) : (s.effect f).engines = (f s).engines := (rfl)
@[simp] theorem State.effect_ckps (f : State → State) : (s.effect f).ckps = (f s).ckps := (rfl)
@[simp] theorem State.effect_prs (f : State → State) : (s.effect f).prs = (f s).prs := (rfl)
@[simp] theorem State.effect_decs (f : State → State) : (s.effect f).decs = (f s).decs := (rfl)
@[simp] theorem State.effect_hkc (f : State → State) : (s.effect f).hkc = (f s).hkc := (rfl)
@[simp] theorem State.effect_fbs (f : State → State) : (s.effect f).fbs = (f s).fbs := (rfl)
@[simp] theorem State.effect_lines (f : State → State) : (s.effect f).lines = (f s).lines := (rfl)
@[simp] theorem State.effect_capAt (f : State → State) : (s.effect f).capAt = (f s).capAt := (rfl)
@[simp] theorem State.effect_pcos (f : State → State) : (s.effect f).pcos = (f s).pcos := (rfl)
@[simp] theorem State.effect_coll (f : State → State) : (s.effect f).coll = (f s).coll := (rfl)
@[simp] theorem State.effect_log (f : State → State) : (s.effect f).log = (f s).log := (rfl)
@[simp] theorem State.effect_flash (f : State → State) : (s.effect f).flash = (f s).flash := (rfl)
@[simp] theorem State.effect_otp (f : State → State) : (s.effect f).otp = (f s).otp := (rfl)
@[simp] theorem State.effect_bly (f : State → State) : (s.effect f).bly = (f s).bly := (rfl)
@[simp] theorem State.effect_safeoff (f : State → State) : (s.effect f).safeoff = (f s).safeoff := (rfl)
@[simp] theorem State.effect_pulses (f : State → State) : (s.effect f).pulses = (f s).pulses := (rfl)
@[simp] theorem State.effect_csps (f : State → State) : (s.effect f).csps = (f s).csps := (rfl)
@[simp] theorem State.effect_eths (f : State → State) : (s.effect f).eths = (f s).eths := (rfl)
@[simp] theorem State.effect_gptp (f : State → State) : (s.effect f).gptp = (f s).gptp := (rfl)
@[simp] theorem State.effect_sent (f : State → State) : (s.effect f).sent = (f s).sent := (rfl)
@[simp] theorem State.effect_dataOut (f : State → State) : (s.effect f).dataOut = (f s).dataOut := (rfl)
@[simp] theorem State.effect_imgIdx (f : State → State) : (s.effect f).imgIdx = (f s).imgIdx := (rfl)
@[simp] theorem State.effect_hoCmd (f : State → State) : (s.effect f).hoCmd = (f s).hoCmd := (rfl)
@[simp] theorem State.effect_hoAt (f : State → State) : (s.effect f).hoAt = (f s).hoAt := (rfl)
@[simp] theorem State.effect_hoDead (f : State → State) : (s.effect f).hoDead = (f s).hoDead := (rfl)
@[simp] theorem State.effect_rstReq (f : State → State) : (s.effect f).rstReq = (f s).rstReq := (rfl)
@[simp] theorem State.effect_biv (f : State → State) : (s.effect f).biv = (f s).biv := (rfl)
@[simp] theorem State.effect_panel (f : State → State) : (s.effect f).panel = (f s).panel := (rfl)
@[simp] theorem State.effect_portsOff (f : State → State) : (s.effect f).portsOff = (f s).portsOff := (rfl)

/-! ### Bits of a number -/

theorem withBits_lt {x hi lo v w : Nat} (hx : x < 2 ^ w) (hh : hi < w) (hl : lo ≤ hi) : withBits x hi lo v < 2 ^ w := by
  unfold withBits
  have e1 : 2 ^ (hi + 1) = 2 ^ (hi + 1 - lo) * 2 ^ lo := by rw [← pow_add]; congr 1; omega
  have e2 : 2 ^ w = 2 ^ (w - (hi + 1)) * 2 ^ (hi + 1) := by rw [← pow_add]; congr 1; omega
  have h1 : x % 2 ^ lo < 2 ^ lo := Nat.mod_lt _ (by positivity)
  have h2 : v % 2 ^ (hi + 1 - lo) < 2 ^ (hi + 1 - lo) := Nat.mod_lt _ (by positivity)
  have h3 : x / 2 ^ (hi + 1) < 2 ^ (w - (hi + 1)) := by
    rw [Nat.div_lt_iff_lt_mul (by positivity), ← e2]; exact hx
  have h4 : x % 2 ^ lo + v % 2 ^ (hi + 1 - lo) * 2 ^ lo < 2 ^ (hi + 1) := by
    rw [e1]
    calc x % 2 ^ lo + v % 2 ^ (hi + 1 - lo) * 2 ^ lo < (v % 2 ^ (hi + 1 - lo) + 1) * 2 ^ lo := by linarith
      _ ≤ 2 ^ (hi + 1 - lo) * 2 ^ lo := Nat.mul_le_mul_right _ h2
  rw [e2]
  calc _ < (x / 2 ^ (hi + 1) + 1) * 2 ^ (hi + 1) := by linarith
    _ ≤ 2 ^ (w - (hi + 1)) * 2 ^ (hi + 1) := Nat.mul_le_mul_right _ h3

theorem testBit_bitsOf {x hi lo i : Nat} : (bitsOf x hi lo).testBit i = (decide (i < hi + 1 - lo) && x.testBit (i + lo)) := by
  simp [bitsOf, Nat.testBit_mod_two_pow, Nat.testBit_div_two_pow]

theorem testBit_withBits {x hi lo v i : Nat} (hl : lo ≤ hi) :
    (withBits x hi lo v).testBit i = if lo ≤ i ∧ i ≤ hi then v.testBit (i - lo) else x.testBit i := by
  have e1 : 2 ^ (hi + 1) = 2 ^ lo * 2 ^ (hi + 1 - lo) := by rw [← pow_add]; congr 1; omega
  have h1 : x % 2 ^ lo < 2 ^ lo := Nat.mod_lt _ (by positivity)
  have e : withBits x hi lo v = 2 ^ lo * (2 ^ (hi + 1 - lo) * (x / 2 ^ (hi + 1)) + v % 2 ^ (hi + 1 - lo)) + x % 2 ^ lo := by
    unfold withBits; rw [e1]; ring
  have h2 : v % 2 ^ (hi + 1 - lo) < 2 ^ (hi + 1 - lo) := Nat.mod_lt _ (by positivity)
  rw [e, Nat.testBit_two_pow_mul_add _ h1, Nat.testBit_two_pow_mul_add _ h2]
  by_cases a : i < lo
  · simp [a, Nat.not_le.mpr a, Nat.testBit_mod_two_pow]
  · by_cases b : i ≤ hi
    · have : i - lo < hi + 1 - lo := by omega
      simp [a, b, Nat.not_lt.mp a, this, Nat.testBit_mod_two_pow]
    · have h3 : ¬ i - lo < hi + 1 - lo := by omega
      have h4 : i - lo - (hi + 1 - lo) + (hi + 1) = i := by omega
      simp [a, b, h3, Nat.testBit_div_two_pow, h4]

/-- The bits just written. -/
theorem bitsOf_withBits_same {x hi lo v : Nat} (hl : lo ≤ hi) : bitsOf (withBits x hi lo v) hi lo = v % 2 ^ (hi + 1 - lo) := by
  apply Nat.eq_of_testBit_eq; intro i
  rw [testBit_bitsOf, testBit_withBits hl, Nat.testBit_mod_two_pow]
  by_cases h : i < hi + 1 - lo
  · have a : lo ≤ i + lo ∧ i + lo ≤ hi := by omega
    simp [h, a]
  · simp [h]

/-- Bits that do not overlap the ones written. -/
theorem bitsOf_withBits_ne {x hi lo v hi' lo' : Nat} (hl : lo ≤ hi) (h : hi' < lo ∨ hi < lo') :
    bitsOf (withBits x hi lo v) hi' lo' = bitsOf x hi' lo' := by
  apply Nat.eq_of_testBit_eq; intro i
  rw [testBit_bitsOf, testBit_bitsOf]
  by_cases a : i < hi' + 1 - lo'
  · rw [testBit_withBits hl, if_neg (by omega)]
  · simp [a]

/-! ### Register words -/

/-- A read after a write of the same word gives the value written. -/
@[simp] theorem State.rd_wr_same (a : Nat) (v : Word) : (s.wr a v).rd a = v := tabGet_tabSet_same _ _ a v
/-- A write leaves every other word alone. -/
theorem State.rd_wr_ne {a b : Nat} (v : Word) (h : b ≠ a) : (s.wr a v).rd b = s.rd b := tabGet_tabSet_ne _ _ v h
theorem State.rd_wr (a b : Nat) (v : Word) : (s.wr a v).rd b = if b = a then v else s.rd b := by
  split
  · rename_i h; subst h; simp
  · rename_i h; exact s.rd_wr_ne v h
/-- Words outside the two of a quantity are left alone by its write. -/
theorem State.rd_wr64_ne {a b : Nat} (v : Nat) (h1 : b ≠ a) (h2 : b ≠ a + 4) : (s.wr64 a v).rd b = s.rd b := by
  unfold State.wr64; rw [State.rd_wr_ne _ _ h2, State.rd_wr_ne _ _ h1]
/-- A read of a quantity gives what was written, at 64 bits. -/
@[simp] theorem State.rd64_wr64_same (a v : Nat) : (s.wr64 a v).rd64 a = v % 2 ^ 64 := by
  unfold State.rd64 State.wr64
  rw [State.rd_wr_same, State.rd_wr_ne _ _ (by omega), State.rd_wr_same]
  simp only [BitVec.toNat_ofNat]
  omega

/-- Noting a set bit changes no word. -/
@[simp] theorem State.rd_noteSet (a bits b : Nat) : (s.noteSet a bits).rd b = s.rd b := by
  unfold State.rd; rw [State.noteSet_regs, State.noteSet_straps]
@[simp] theorem State.get_noteSet (a bits : Nat) (f : Fld) : (s.noteSet a bits).get f = s.get f := by
  unfold State.get State.rd64; simp only [State.rd_noteSet]

/-- A field write leaves the other words alone. -/
theorem State.rd_put_ne {f : Fld} {b : Nat} (v : Nat) (h1 : b ≠ f.a) (h2 : b ≠ f.a + 4) : (s.put f v).rd b = s.rd b := by
  unfold State.put
  split
  · rw [State.rd_wr_ne _ _ h1, State.rd_noteSet]
  · exact s.rd_wr64_ne _ h1 h2

/-- A one-word field write leaves every other word alone. -/
theorem State.rd_put_ne' {f : Fld} {b : Nat} (v : Nat) (hw : f.hi < 32) (h1 : b ≠ f.a) : (s.put f v).rd b = s.rd b := by
  unfold State.put; rw [if_pos hw, State.rd_wr_ne _ _ h1, State.rd_noteSet]

/-- A read of a one-word field gives what was written, at its width. -/
theorem State.get_put_same {f : Fld} (v : Nat) (hw : f.hi < 32) (hl : f.lo ≤ f.hi) :
    (s.put f v).get f = v % 2 ^ (f.hi + 1 - f.lo) := by
  unfold State.get State.put
  rw [if_pos hw, if_pos hw, State.rd_wr_same, BitVec.toNat_ofNat,
    Nat.mod_eq_of_lt (withBits_lt (s.rd f.a).isLt hw hl), bitsOf_withBits_same hl]

/-- A field of another word. -/
theorem State.get_put_ne {f g : Fld} (v : Nat) (hf : f.hi < 32) (hg : g.hi < 32) (h : g.a ≠ f.a) :
    (s.put f v).get g = s.get g := by
  unfold State.get; rw [if_pos hg, if_pos hg, State.rd_put_ne' _ _ hf h]

/-- Another field of the same word. -/
theorem State.get_put_disjoint {f g : Fld} (v : Nat) (hf : f.hi < 32) (hg : g.hi < 32) (ha : g.a = f.a)
    (hl : f.lo ≤ f.hi) (h : g.hi < f.lo ∨ f.hi < g.lo) : (s.put f v).get g = s.get g := by
  unfold State.get State.put
  rw [if_pos hg, if_pos hg, if_pos hf, ha, State.rd_wr_same, BitVec.toNat_ofNat,
    Nat.mod_eq_of_lt (withBits_lt (s.rd f.a).isLt hf hl), bitsOf_withBits_ne hl h]

/-- A read of a 64-bit field gives what was written. -/
theorem State.get_put_wide {f : Fld} (v : Nat) (hh : f.hi = 63) (hl : f.lo = 0) : (s.put f v).get f = v % 2 ^ 64 := by
  have e : withBits (s.rd64 f.a) 63 0 v < 2 ^ 64 :=
    withBits_lt (by unfold State.rd64; have := (s.rd (f.a + 4)).isLt; have := (s.rd f.a).isLt; omega) (by omega) (by omega)
  unfold State.get State.put
  simp only [hh, hl, show ¬ (63 < 32) by omega, if_false, State.rd64_wr64_same]
  rw [Nat.mod_eq_of_lt e, bitsOf_withBits_same (by omega)]

/-- A field of words that a write does not touch. -/
theorem State.get_wr_ne {g : Fld} {a : Nat} (v : Word) (h1 : g.a ≠ a) (h2 : g.a + 4 ≠ a) : (s.wr a v).get g = s.get g := by
  unfold State.get State.rd64; rw [State.rd_wr_ne _ _ h1, State.rd_wr_ne _ _ h2]
/-- A field of a word just written. -/
theorem State.get_wr_same {g : Fld} (v : Word) (hg : g.hi < 32) : (s.wr g.a v).get g = fieldOf v g := by
  unfold State.get fieldOf; rw [if_pos hg, State.rd_wr_same]

/-- Fields depend on the registers and the straps only. -/
theorem State.get_congr {s t : State} (h : t.regs = s.regs) (hs : t.straps = s.straps) (f : Fld) : t.get f = s.get f := by
  unfold State.get State.rd64 State.rd; rw [h, hs]
theorem State.rd_congr {s t : State} (h : t.regs = s.regs) (hs : t.straps = s.straps) (a : Nat) : t.rd a = s.rd a := by
  unfold State.rd; rw [h, hs]

/-! ### Memory -/

/-- A read after a write of the same byte gives the byte written. -/
@[simp] theorem State.rdByte_wrByte_same (a : Nat) (v : Byte) : (s.wrByte a v).rdByte a = v := tabGet_tabSet_same _ _ a v
/-- A write leaves every other byte alone. -/
theorem State.rdByte_wrByte_ne {a b : Nat} (v : Byte) (h : b ≠ a) : (s.wrByte a v).rdByte b = s.rdByte b :=
  tabGet_tabSet_ne _ _ v h
/-- A word write leaves every byte outside the word alone. -/
theorem State.rdByte_wrMem_ne {a b : Nat} (v : Word) (h : b < a ∨ a + 4 ≤ b) : (s.wrMem a v).rdByte b = s.rdByte b := by
  unfold State.wrMem
  rw [State.rdByte_wrByte_ne _ _ (by omega), State.rdByte_wrByte_ne _ _ (by omega), State.rdByte_wrByte_ne _ _ (by omega),
    State.rdByte_wrByte_ne _ _ (by omega)]
/-- A word is its four bytes. -/
theorem word_of_bytes (v : BitVec 32) :
    (v.extractLsb' 24 8 ++ v.extractLsb' 16 8 ++ v.extractLsb' 8 8 ++ v.extractLsb' 0 8 : BitVec 32) = v := by
  apply BitVec.eq_of_getLsbD_eq
  intro i hi
  simp only [BitVec.getLsbD_append, BitVec.getLsbD_extractLsb']
  by_cases h0 : i < 8
  · simp [h0]
  · by_cases h1 : i - 8 < 8
    · simp [h0, h1]; congr 1; omega
    · by_cases h2 : i - 8 - 8 < 8
      · simp [h0, h1, h2]; congr 1; omega
      · have : i - 8 - 8 - 8 < 8 := by omega
        simp [h0, h1, h2, this]; congr 1; omega
/-- A read of a word gives the word written. -/
@[simp] theorem State.rdMem_wrMem_same (a : Nat) (v : Word) : (s.wrMem a v).rdMem a = v := by
  have h3 : (s.wrMem a v).rdByte (a + 3) = v.extractLsb' 24 8 := by simp [State.wrMem]
  have h2 : (s.wrMem a v).rdByte (a + 2) = v.extractLsb' 16 8 := by
    unfold State.wrMem; rw [State.rdByte_wrByte_ne _ _ (by omega)]; simp
  have h1 : (s.wrMem a v).rdByte (a + 1) = v.extractLsb' 8 8 := by
    unfold State.wrMem; rw [State.rdByte_wrByte_ne _ _ (by omega), State.rdByte_wrByte_ne _ _ (by omega)]; simp
  have h0 : (s.wrMem a v).rdByte a = v.extractLsb' 0 8 := by
    unfold State.wrMem
    rw [State.rdByte_wrByte_ne _ _ (by omega), State.rdByte_wrByte_ne _ _ (by omega), State.rdByte_wrByte_ne _ _ (by omega)]
    simp
  unfold State.rdMem
  rw [h3, h2, h1, h0]; exact word_of_bytes v
/-- The reset memory, and every memory operation on a canonical memory, is canonical. -/
theorem Memory.wf_reset : Memory.wf State.reset.mem = true := rfl
theorem Memory.wf_wrByte (h : Memory.wf s.mem = true) (a : Nat) (v : Byte) : Memory.wf (s.wrByte a v).mem = true :=
  tabWf_tabSet _ a v h
theorem Memory.wf_wrMem (h : Memory.wf s.mem = true) (a : Nat) (v : Word) : Memory.wf (s.wrMem a v).mem = true := by
  unfold State.wrMem
  exact Memory.wf_wrByte _ (Memory.wf_wrByte _ (Memory.wf_wrByte _ (Memory.wf_wrByte _ h _ _) _ _) _ _) _ _
theorem Memory.wf_wrMems {s : State} (h : Memory.wf s.mem = true) (a : Nat) (l : List Word) :
    Memory.wf (s.wrMems a l).mem = true := by
  induction l generalizing s a with
  | nil => exact h
  | cons v l ih => exact ih (Memory.wf_wrMem s h a v) (a + 4)

/-! ### Records kept per instance -/

@[simp] theorem State.gen_setGen_same (n : Nat) (x : Gen) : (s.setGen n x).gen n = x := tabGet_tabPut_same _ _ n x
theorem State.gen_setGen_ne {n m : Nat} (x : Gen) (h : m ≠ n) : (s.setGen n x).gen m = s.gen m := tabGet_tabPut_ne _ _ x h
@[simp] theorem State.cc_setCc_same (n : Nat) (x : Cc) : (s.setCc n x).cc n = x := tabGet_tabPut_same _ _ n x
theorem State.cc_setCc_ne {n m : Nat} (x : Cc) (h : m ≠ n) : (s.setCc n x).cc m = s.cc m := tabGet_tabPut_ne _ _ x h
@[simp] theorem State.chan_setChan_same (n : Nat) (x : PwmChan) : (s.setChan n x).chan n = x := tabGet_tabPut_same _ _ n x
theorem State.chan_setChan_ne {n m : Nat} (x : PwmChan) (h : m ≠ n) : (s.setChan n x).chan m = s.chan m := tabGet_tabPut_ne _ _ x h
@[simp] theorem State.group_setGroup_same (n : Nat) (x : PwmGroup) : (s.setGroup n x).group n = x := tabGet_tabPut_same _ _ n x
theorem State.group_setGroup_ne {n m : Nat} (x : PwmGroup) (h : m ≠ n) : (s.setGroup n x).group m = s.group m := tabGet_tabPut_ne _ _ x h
@[simp] theorem State.window_setWindow_same (n : Nat) (x : Window) : (s.setWindow n x).window n = x := tabGet_tabPut_same _ _ n x
theorem State.window_setWindow_ne {n m : Nat} (x : Window) (h : m ≠ n) : (s.setWindow n x).window m = s.window m := tabGet_tabPut_ne _ _ x h
@[simp] theorem State.stream_setStream_same (n : Nat) (x : Stream) : (s.setStream n x).stream n = x := tabGet_tabPut_same _ _ n x
theorem State.stream_setStream_ne {n m : Nat} (x : Stream) (h : m ≠ n) : (s.setStream n x).stream m = s.stream m := tabGet_tabPut_ne _ _ x h
@[simp] theorem State.host_setHost_same (n : Nat) (x : HostSt) : (s.setHost n x).host n = x := tabGet_tabPut_same _ _ n x
theorem State.host_setHost_ne {n m : Nat} (x : HostSt) (h : m ≠ n) : (s.setHost n x).host m = s.host m := tabGet_tabPut_ne _ _ x h
@[simp] theorem State.swap_setSwap_same (n : Nat) (x : Swap) : (s.setSwap n x).swap n = x := tabGet_tabPut_same _ _ n x
theorem State.swap_setSwap_ne {n m : Nat} (x : Swap) (h : m ≠ n) : (s.setSwap n x).swap m = s.swap m := tabGet_tabPut_ne _ _ x h
@[simp] theorem State.engine_setEngine_same (n : Nat) (x : Engine) : (s.setEngine n x).engine n = x := tabGet_tabPut_same _ _ n x
theorem State.engine_setEngine_ne {n m : Nat} (x : Engine) (h : m ≠ n) : (s.setEngine n x).engine m = s.engine m := tabGet_tabPut_ne _ _ x h
@[simp] theorem State.pr_setPr_same (n : Nat) (x : Prusik) : (s.setPr n x).pr n = x := tabGet_tabPut_same _ _ n x
theorem State.pr_setPr_ne {n m : Nat} (x : Prusik) (h : m ≠ n) : (s.setPr n x).pr m = s.pr m := tabGet_tabPut_ne _ _ x h
@[simp] theorem State.fb_setFb_same (n : Nat) (x : FbPort) : (s.setFb n x).fb n = x := tabGet_tabPut_same _ _ n x
theorem State.fb_setFb_ne {n m : Nat} (x : FbPort) (h : m ≠ n) : (s.setFb n x).fb m = s.fb m := tabGet_tabPut_ne _ _ x h
@[simp] theorem State.line_setLine_same (n : Nat) (x : Line) : (s.setLine n x).line n = x := tabGet_tabPut_same _ _ n x
theorem State.line_setLine_ne {n m : Nat} (x : Line) (h : m ≠ n) : (s.setLine n x).line m = s.line m := tabGet_tabPut_ne _ _ x h
@[simp] theorem State.dec_setDec_same (n : Nat) (x : Dec) : (s.setDec n x).dec n = x := tabGet_tabPut_same _ _ n x
theorem State.dec_setDec_ne {n m : Nat} (x : Dec) (h : m ≠ n) : (s.setDec n x).dec m = s.dec m := tabGet_tabPut_ne _ _ x h
@[simp] theorem State.pco_setPco_same (n : Nat) (x : Pco) : (s.setPco n x).pco n = x := tabGet_tabPut_same _ _ n x
theorem State.pco_setPco_ne {n m : Nat} (x : Pco) (h : m ≠ n) : (s.setPco n x).pco m = s.pco m := tabGet_tabPut_ne _ _ x h
@[simp] theorem State.csp_setCsp_same (n : Nat) (x : Csp) : (s.setCsp n x).csp n = x := tabGet_tabPut_same _ _ n x
theorem State.csp_setCsp_ne {n m : Nat} (x : Csp) (h : m ≠ n) : (s.setCsp n x).csp m = s.csp m := tabGet_tabPut_ne _ _ x h
@[simp] theorem State.eth_setEth_same (n : Nat) (x : EthPort) : (s.setEth n x).eth n = x := tabGet_tabPut_same _ _ n x
theorem State.eth_setEth_ne {n m : Nat} (x : EthPort) (h : m ≠ n) : (s.setEth n x).eth m = s.eth m := tabGet_tabPut_ne _ _ x h

end Sys2Proof.Machine
end

