-- ==== Sys2Proof/Laws/Reads.lean ====
section
/-! SUPPORT. What a base update leaves alone, said of the reads that the meanings use: register words, fields, memory bytes
and the record of an instance; and a command of the running device answers a next state. -/
namespace Sys2Proof.Machine
variable (s : State)

/-! ### A command of the running device -/

/-- A command of the running device answers with its effect. -/
theorem live_next {s : State} (h : s.up = true) (f : State → State) : live s f = .next (s.effect f) := by
  unfold live; rw [if_pos h]
theorem always_next (f : State → State) : always s f = .next (s.effect f) := rfl
theorem State.get_lt (f : Fld) : s.get f < 2 ^ (f.hi + 1 - f.lo) := by
  unfold State.get bitsOf; split <;> exact Nat.mod_lt _ (by positivity)


/-- What every application leaves alone, a loop over a list leaves alone. -/
theorem State.each_same {α β : Type} (l : List α) {f : α → State → State} (g : State → β)
    (h : ∀ x t, g (f x t) = g t) (s : State) : g (s.each l f) = g s := by
  unfold State.each
  induction l generalizing s with
  | nil => rfl
  | cons x l ih => exact (ih (f x s)).trans (h x s)


/-- A field write leaves every word outside the field's words alone. -/
theorem State.rd_put_other {f : Fld} {b : Nat} (v : Nat) (h : b ≠ f.a) (hf : f.hi < 32 ∨ b ≠ f.a + 4) :
    (s.put f v).rd b = s.rd b := by
  unfold State.put
  split
  · rw [State.rd_wr_ne _ _ h, State.rd_noteSet]
  · exact s.rd_wr64_ne _ h (hf.resolve_left (by assumption))

/-- A field of words that a field write does not touch. -/
theorem State.get_put_other {f g : Fld} (v : Nat) (h : g.a ≠ f.a) (hg : g.hi < 32 ∨ g.a + 4 ≠ f.a)
    (hf : f.hi < 32 ∨ g.a ≠ f.a + 4) : (s.put f v).get g = s.get g := by
  have e : (s.put f v).rd g.a = s.rd g.a := s.rd_put_other v h hf
  unfold State.get
  split
  · rw [e]
  · rename_i w
    unfold State.rd64
    rw [e, s.rd_put_other v (hg.resolve_left w) (Or.inr (by omega))]

/-- A field of words that a word write does not touch. -/
theorem State.get_wr_other {g : Fld} {a : Nat} (v : Word) (h : g.a ≠ a) (hg : g.hi < 32 ∨ g.a + 4 ≠ a) :
    (s.wr a v).get g = s.get g := by
  unfold State.get
  split
  · rw [s.rd_wr_ne v h]
  · rename_i w
    unfold State.rd64; rw [s.rd_wr_ne v h, s.rd_wr_ne v (hg.resolve_left w)]

/-- A field of words that the write of a quantity does not touch. -/
theorem State.get_wr64_other {g : Fld} {a : Nat} (v : Nat) (h : g.a ≠ a) (h4 : g.a ≠ a + 4) (hg : g.hi < 32 ∨ g.a + 4 ≠ a) :
    (s.wr64 a v).get g = s.get g := by
  unfold State.wr64
  rw [State.get_wr_other _ _ h4 (by omega), State.get_wr_other _ _ h hg]


/-! ### wr -/

@[simp] theorem State.wr_gen (a : Nat) (v : Word) (i : Nat) : (s.wr a v).gen i = s.gen i := by unfold State.gen; rw [State.wr_gens]
@[simp] theorem State.wr_cc (a : Nat) (v : Word) (i : Nat) : (s.wr a v).cc i = s.cc i := by unfold State.cc; rw [State.wr_ccs]
@[simp] theorem State.wr_chan (a : Nat) (v : Word) (i : Nat) : (s.wr a v).chan i = s.chan i := by unfold State.chan; rw [State.wr_chans]
@[simp] theorem State.wr_group (a : Nat) (v : Word) (i : Nat) : (s.wr a v).group i = s.group i := by unfold State.group; rw [State.wr_groups]
@[simp] theorem State.wr_window (a : Nat) (v : Word) (i : Nat) : (s.wr a v).window i = s.window i := by unfold State.window; rw [State.wr_windows]
@[simp] theorem State.wr_stream (a : Nat) (v : Word) (i : Nat) : (s.wr a v).stream i = s.stream i := by unfold State.stream; rw [State.wr_streams]
@[simp] theorem State.wr_host (a : Nat) (v : Word) (i : Nat) : (s.wr a v).host i = s.host i := by unfold State.host; rw [State.wr_hosts]
@[simp] theorem State.wr_swap (a : Nat) (v : Word) (i : Nat) : (s.wr a v).swap i = s.swap i := by unfold State.swap; rw [State.wr_swaps]
@[simp] theorem State.wr_engine (a : Nat) (v : Word) (i : Nat) : (s.wr a v).engine i = s.engine i := by unfold State.engine; rw [State.wr_engines]
@[simp] theorem State.wr_pr (a : Nat) (v : Word) (i : Nat) : (s.wr a v).pr i = s.pr i := by unfold State.pr; rw [State.wr_prs]
@[simp] theorem State.wr_fb (a : Nat) (v : Word) (i : Nat) : (s.wr a v).fb i = s.fb i := by unfold State.fb; rw [State.wr_fbs]
@[simp] theorem State.wr_line (a : Nat) (v : Word) (i : Nat) : (s.wr a v).line i = s.line i := by unfold State.line; rw [State.wr_lines]
@[simp] theorem State.wr_dec (a : Nat) (v : Word) (i : Nat) : (s.wr a v).dec i = s.dec i := by unfold State.dec; rw [State.wr_decs]
@[simp] theorem State.wr_pco (a : Nat) (v : Word) (i : Nat) : (s.wr a v).pco i = s.pco i := by unfold State.pco; rw [State.wr_pcos]
@[simp] theorem State.wr_csp (a : Nat) (v : Word) (i : Nat) : (s.wr a v).csp i = s.csp i := by unfold State.csp; rw [State.wr_csps]
@[simp] theorem State.wr_eth (a : Nat) (v : Word) (i : Nat) : (s.wr a v).eth i = s.eth i := by unfold State.eth; rw [State.wr_eths]
@[simp] theorem State.wr_rdByte (a : Nat) (v : Word) (i : Nat) : (s.wr a v).rdByte i = s.rdByte i := by unfold State.rdByte; rw [State.wr_mem]
@[simp] theorem State.wr_up (a : Nat) (v : Word) : (s.wr a v).up = s.up := by unfold State.up; rw [State.wr_power]

/-! ### wr64 -/

@[simp] theorem State.wr64_gen (a v : Nat) (i : Nat) : (s.wr64 a v).gen i = s.gen i := by unfold State.gen; rw [State.wr64_gens]
@[simp] theorem State.wr64_cc (a v : Nat) (i : Nat) : (s.wr64 a v).cc i = s.cc i := by unfold State.cc; rw [State.wr64_ccs]
@[simp] theorem State.wr64_chan (a v : Nat) (i : Nat) : (s.wr64 a v).chan i = s.chan i := by unfold State.chan; rw [State.wr64_chans]
@[simp] theorem State.wr64_group (a v : Nat) (i : Nat) : (s.wr64 a v).group i = s.group i := by unfold State.group; rw [State.wr64_groups]
@[simp] theorem State.wr64_window (a v : Nat) (i : Nat) : (s.wr64 a v).window i = s.window i := by unfold State.window; rw [State.wr64_windows]
@[simp] theorem State.wr64_stream (a v : Nat) (i : Nat) : (s.wr64 a v).stream i = s.stream i := by unfold State.stream; rw [State.wr64_streams]
@[simp] theorem State.wr64_host (a v : Nat) (i : Nat) : (s.wr64 a v).host i = s.host i := by unfold State.host; rw [State.wr64_hosts]
@[simp] theorem State.wr64_swap (a v : Nat) (i : Nat) : (s.wr64 a v).swap i = s.swap i := by unfold State.swap; rw [State.wr64_swaps]
@[simp] theorem State.wr64_engine (a v : Nat) (i : Nat) : (s.wr64 a v).engine i = s.engine i := by unfold State.engine; rw [State.wr64_engines]
@[simp] theorem State.wr64_pr (a v : Nat) (i : Nat) : (s.wr64 a v).pr i = s.pr i := by unfold State.pr; rw [State.wr64_prs]
@[simp] theorem State.wr64_fb (a v : Nat) (i : Nat) : (s.wr64 a v).fb i = s.fb i := by unfold State.fb; rw [State.wr64_fbs]
@[simp] theorem State.wr64_line (a v : Nat) (i : Nat) : (s.wr64 a v).line i = s.line i := by unfold State.line; rw [State.wr64_lines]
@[simp] theorem State.wr64_dec (a v : Nat) (i : Nat) : (s.wr64 a v).dec i = s.dec i := by unfold State.dec; rw [State.wr64_decs]
@[simp] theorem State.wr64_pco (a v : Nat) (i : Nat) : (s.wr64 a v).pco i = s.pco i := by unfold State.pco; rw [State.wr64_pcos]
@[simp] theorem State.wr64_csp (a v : Nat) (i : Nat) : (s.wr64 a v).csp i = s.csp i := by unfold State.csp; rw [State.wr64_csps]
@[simp] theorem State.wr64_eth (a v : Nat) (i : Nat) : (s.wr64 a v).eth i = s.eth i := by unfold State.eth; rw [State.wr64_eths]
@[simp] theorem State.wr64_rdByte (a v : Nat) (i : Nat) : (s.wr64 a v).rdByte i = s.rdByte i := by unfold State.rdByte; rw [State.wr64_mem]
@[simp] theorem State.wr64_up (a v : Nat) : (s.wr64 a v).up = s.up := by unfold State.up; rw [State.wr64_power]

/-! ### put -/

@[simp] theorem State.put_gen (f : Fld) (v : Nat) (i : Nat) : (s.put f v).gen i = s.gen i := by unfold State.gen; rw [State.put_gens]
@[simp] theorem State.put_cc (f : Fld) (v : Nat) (i : Nat) : (s.put f v).cc i = s.cc i := by unfold State.cc; rw [State.put_ccs]
@[simp] theorem State.put_chan (f : Fld) (v : Nat) (i : Nat) : (s.put f v).chan i = s.chan i := by unfold State.chan; rw [State.put_chans]
@[simp] theorem State.put_group (f : Fld) (v : Nat) (i : Nat) : (s.put f v).group i = s.group i := by unfold State.group; rw [State.put_groups]
@[simp] theorem State.put_window (f : Fld) (v : Nat) (i : Nat) : (s.put f v).window i = s.window i := by unfold State.window; rw [State.put_windows]
@[simp] theorem State.put_stream (f : Fld) (v : Nat) (i : Nat) : (s.put f v).stream i = s.stream i := by unfold State.stream; rw [State.put_streams]
@[simp] theorem State.put_host (f : Fld) (v : Nat) (i : Nat) : (s.put f v).host i = s.host i := by unfold State.host; rw [State.put_hosts]
@[simp] theorem State.put_swap (f : Fld) (v : Nat) (i : Nat) : (s.put f v).swap i = s.swap i := by unfold State.swap; rw [State.put_swaps]
@[simp] theorem State.put_engine (f : Fld) (v : Nat) (i : Nat) : (s.put f v).engine i = s.engine i := by unfold State.engine; rw [State.put_engines]
@[simp] theorem State.put_pr (f : Fld) (v : Nat) (i : Nat) : (s.put f v).pr i = s.pr i := by unfold State.pr; rw [State.put_prs]
@[simp] theorem State.put_fb (f : Fld) (v : Nat) (i : Nat) : (s.put f v).fb i = s.fb i := by unfold State.fb; rw [State.put_fbs]
@[simp] theorem State.put_line (f : Fld) (v : Nat) (i : Nat) : (s.put f v).line i = s.line i := by unfold State.line; rw [State.put_lines]
@[simp] theorem State.put_dec (f : Fld) (v : Nat) (i : Nat) : (s.put f v).dec i = s.dec i := by unfold State.dec; rw [State.put_decs]
@[simp] theorem State.put_pco (f : Fld) (v : Nat) (i : Nat) : (s.put f v).pco i = s.pco i := by unfold State.pco; rw [State.put_pcos]
@[simp] theorem State.put_csp (f : Fld) (v : Nat) (i : Nat) : (s.put f v).csp i = s.csp i := by unfold State.csp; rw [State.put_csps]
@[simp] theorem State.put_eth (f : Fld) (v : Nat) (i : Nat) : (s.put f v).eth i = s.eth i := by unfold State.eth; rw [State.put_eths]
@[simp] theorem State.put_rdByte (f : Fld) (v : Nat) (i : Nat) : (s.put f v).rdByte i = s.rdByte i := by unfold State.rdByte; rw [State.put_mem]
@[simp] theorem State.put_up (f : Fld) (v : Nat) : (s.put f v).up = s.up := by unfold State.up; rw [State.put_power]

/-! ### puti -/

@[simp] theorem State.puti_gen (f : Fld) (v : Int) (i : Nat) : (s.puti f v).gen i = s.gen i := by unfold State.gen; rw [State.puti_gens]
@[simp] theorem State.puti_cc (f : Fld) (v : Int) (i : Nat) : (s.puti f v).cc i = s.cc i := by unfold State.cc; rw [State.puti_ccs]
@[simp] theorem State.puti_chan (f : Fld) (v : Int) (i : Nat) : (s.puti f v).chan i = s.chan i := by unfold State.chan; rw [State.puti_chans]
@[simp] theorem State.puti_group (f : Fld) (v : Int) (i : Nat) : (s.puti f v).group i = s.group i := by unfold State.group; rw [State.puti_groups]
@[simp] theorem State.puti_window (f : Fld) (v : Int) (i : Nat) : (s.puti f v).window i = s.window i := by unfold State.window; rw [State.puti_windows]
@[simp] theorem State.puti_stream (f : Fld) (v : Int) (i : Nat) : (s.puti f v).stream i = s.stream i := by unfold State.stream; rw [State.puti_streams]
@[simp] theorem State.puti_host (f : Fld) (v : Int) (i : Nat) : (s.puti f v).host i = s.host i := by unfold State.host; rw [State.puti_hosts]
@[simp] theorem State.puti_swap (f : Fld) (v : Int) (i : Nat) : (s.puti f v).swap i = s.swap i := by unfold State.swap; rw [State.puti_swaps]
@[simp] theorem State.puti_engine (f : Fld) (v : Int) (i : Nat) : (s.puti f v).engine i = s.engine i := by unfold State.engine; rw [State.puti_engines]
@[simp] theorem State.puti_pr (f : Fld) (v : Int) (i : Nat) : (s.puti f v).pr i = s.pr i := by unfold State.pr; rw [State.puti_prs]
@[simp] theorem State.puti_fb (f : Fld) (v : Int) (i : Nat) : (s.puti f v).fb i = s.fb i := by unfold State.fb; rw [State.puti_fbs]
@[simp] theorem State.puti_line (f : Fld) (v : Int) (i : Nat) : (s.puti f v).line i = s.line i := by unfold State.line; rw [State.puti_lines]
@[simp] theorem State.puti_dec (f : Fld) (v : Int) (i : Nat) : (s.puti f v).dec i = s.dec i := by unfold State.dec; rw [State.puti_decs]
@[simp] theorem State.puti_pco (f : Fld) (v : Int) (i : Nat) : (s.puti f v).pco i = s.pco i := by unfold State.pco; rw [State.puti_pcos]
@[simp] theorem State.puti_csp (f : Fld) (v : Int) (i : Nat) : (s.puti f v).csp i = s.csp i := by unfold State.csp; rw [State.puti_csps]
@[simp] theorem State.puti_eth (f : Fld) (v : Int) (i : Nat) : (s.puti f v).eth i = s.eth i := by unfold State.eth; rw [State.puti_eths]
@[simp] theorem State.puti_rdByte (f : Fld) (v : Int) (i : Nat) : (s.puti f v).rdByte i = s.rdByte i := by unfold State.rdByte; rw [State.puti_mem]
@[simp] theorem State.puti_up (f : Fld) (v : Int) : (s.puti f v).up = s.up := by unfold State.up; rw [State.puti_power]

/-! ### flag -/

@[simp] theorem State.flag_gen (f : Fld) (b : Bool) (i : Nat) : (s.flag f b).gen i = s.gen i := by unfold State.gen; rw [State.flag_gens]
@[simp] theorem State.flag_cc (f : Fld) (b : Bool) (i : Nat) : (s.flag f b).cc i = s.cc i := by unfold State.cc; rw [State.flag_ccs]
@[simp] theorem State.flag_chan (f : Fld) (b : Bool) (i : Nat) : (s.flag f b).chan i = s.chan i := by unfold State.chan; rw [State.flag_chans]
@[simp] theorem State.flag_group (f : Fld) (b : Bool) (i : Nat) : (s.flag f b).group i = s.group i := by unfold State.group; rw [State.flag_groups]
@[simp] theorem State.flag_window (f : Fld) (b : Bool) (i : Nat) : (s.flag f b).window i = s.window i := by unfold State.window; rw [State.flag_windows]
@[simp] theorem State.flag_stream (f : Fld) (b : Bool) (i : Nat) : (s.flag f b).stream i = s.stream i := by unfold State.stream; rw [State.flag_streams]
@[simp] theorem State.flag_host (f : Fld) (b : Bool) (i : Nat) : (s.flag f b).host i = s.host i := by unfold State.host; rw [State.flag_hosts]
@[simp] theorem State.flag_swap (f : Fld) (b : Bool) (i : Nat) : (s.flag f b).swap i = s.swap i := by unfold State.swap; rw [State.flag_swaps]
@[simp] theorem State.flag_engine (f : Fld) (b : Bool) (i : Nat) : (s.flag f b).engine i = s.engine i := by unfold State.engine; rw [State.flag_engines]
@[simp] theorem State.flag_pr (f : Fld) (b : Bool) (i : Nat) : (s.flag f b).pr i = s.pr i := by unfold State.pr; rw [State.flag_prs]
@[simp] theorem State.flag_fb (f : Fld) (b : Bool) (i : Nat) : (s.flag f b).fb i = s.fb i := by unfold State.fb; rw [State.flag_fbs]
@[simp] theorem State.flag_line (f : Fld) (b : Bool) (i : Nat) : (s.flag f b).line i = s.line i := by unfold State.line; rw [State.flag_lines]
@[simp] theorem State.flag_dec (f : Fld) (b : Bool) (i : Nat) : (s.flag f b).dec i = s.dec i := by unfold State.dec; rw [State.flag_decs]
@[simp] theorem State.flag_pco (f : Fld) (b : Bool) (i : Nat) : (s.flag f b).pco i = s.pco i := by unfold State.pco; rw [State.flag_pcos]
@[simp] theorem State.flag_csp (f : Fld) (b : Bool) (i : Nat) : (s.flag f b).csp i = s.csp i := by unfold State.csp; rw [State.flag_csps]
@[simp] theorem State.flag_eth (f : Fld) (b : Bool) (i : Nat) : (s.flag f b).eth i = s.eth i := by unfold State.eth; rw [State.flag_eths]
@[simp] theorem State.flag_rdByte (f : Fld) (b : Bool) (i : Nat) : (s.flag f b).rdByte i = s.rdByte i := by unfold State.rdByte; rw [State.flag_mem]
@[simp] theorem State.flag_up (f : Fld) (b : Bool) : (s.flag f b).up = s.up := by unfold State.up; rw [State.flag_power]

/-! ### inc -/

@[simp] theorem State.inc_gen (f : Fld) (k : Nat) (i : Nat) : (s.inc f k).gen i = s.gen i := by unfold State.gen; rw [State.inc_gens]
@[simp] theorem State.inc_cc (f : Fld) (k : Nat) (i : Nat) : (s.inc f k).cc i = s.cc i := by unfold State.cc; rw [State.inc_ccs]
@[simp] theorem State.inc_chan (f : Fld) (k : Nat) (i : Nat) : (s.inc f k).chan i = s.chan i := by unfold State.chan; rw [State.inc_chans]
@[simp] theorem State.inc_group (f : Fld) (k : Nat) (i : Nat) : (s.inc f k).group i = s.group i := by unfold State.group; rw [State.inc_groups]
@[simp] theorem State.inc_window (f : Fld) (k : Nat) (i : Nat) : (s.inc f k).window i = s.window i := by unfold State.window; rw [State.inc_windows]
@[simp] theorem State.inc_stream (f : Fld) (k : Nat) (i : Nat) : (s.inc f k).stream i = s.stream i := by unfold State.stream; rw [State.inc_streams]
@[simp] theorem State.inc_host (f : Fld) (k : Nat) (i : Nat) : (s.inc f k).host i = s.host i := by unfold State.host; rw [State.inc_hosts]
@[simp] theorem State.inc_swap (f : Fld) (k : Nat) (i : Nat) : (s.inc f k).swap i = s.swap i := by unfold State.swap; rw [State.inc_swaps]
@[simp] theorem State.inc_engine (f : Fld) (k : Nat) (i : Nat) : (s.inc f k).engine i = s.engine i := by unfold State.engine; rw [State.inc_engines]
@[simp] theorem State.inc_pr (f : Fld) (k : Nat) (i : Nat) : (s.inc f k).pr i = s.pr i := by unfold State.pr; rw [State.inc_prs]
@[simp] theorem State.inc_fb (f : Fld) (k : Nat) (i : Nat) : (s.inc f k).fb i = s.fb i := by unfold State.fb; rw [State.inc_fbs]
@[simp] theorem State.inc_line (f : Fld) (k : Nat) (i : Nat) : (s.inc f k).line i = s.line i := by unfold State.line; rw [State.inc_lines]
@[simp] theorem State.inc_dec (f : Fld) (k : Nat) (i : Nat) : (s.inc f k).dec i = s.dec i := by unfold State.dec; rw [State.inc_decs]
@[simp] theorem State.inc_pco (f : Fld) (k : Nat) (i : Nat) : (s.inc f k).pco i = s.pco i := by unfold State.pco; rw [State.inc_pcos]
@[simp] theorem State.inc_csp (f : Fld) (k : Nat) (i : Nat) : (s.inc f k).csp i = s.csp i := by unfold State.csp; rw [State.inc_csps]
@[simp] theorem State.inc_eth (f : Fld) (k : Nat) (i : Nat) : (s.inc f k).eth i = s.eth i := by unfold State.eth; rw [State.inc_eths]
@[simp] theorem State.inc_rdByte (f : Fld) (k : Nat) (i : Nat) : (s.inc f k).rdByte i = s.rdByte i := by unfold State.rdByte; rw [State.inc_mem]
@[simp] theorem State.inc_up (f : Fld) (k : Nat) : (s.inc f k).up = s.up := by unfold State.up; rw [State.inc_power]

/-! ### incSat -/

@[simp] theorem State.incSat_gen (f : Fld) (k : Nat) (i : Nat) : (s.incSat f k).gen i = s.gen i := by unfold State.gen; rw [State.incSat_gens]
@[simp] theorem State.incSat_cc (f : Fld) (k : Nat) (i : Nat) : (s.incSat f k).cc i = s.cc i := by unfold State.cc; rw [State.incSat_ccs]
@[simp] theorem State.incSat_chan (f : Fld) (k : Nat) (i : Nat) : (s.incSat f k).chan i = s.chan i := by unfold State.chan; rw [State.incSat_chans]
@[simp] theorem State.incSat_group (f : Fld) (k : Nat) (i : Nat) : (s.incSat f k).group i = s.group i := by unfold State.group; rw [State.incSat_groups]
@[simp] theorem State.incSat_window (f : Fld) (k : Nat) (i : Nat) : (s.incSat f k).window i = s.window i := by unfold State.window; rw [State.incSat_windows]
@[simp] theorem State.incSat_stream (f : Fld) (k : Nat) (i : Nat) : (s.incSat f k).stream i = s.stream i := by unfold State.stream; rw [State.incSat_streams]
@[simp] theorem State.incSat_host (f : Fld) (k : Nat) (i : Nat) : (s.incSat f k).host i = s.host i := by unfold State.host; rw [State.incSat_hosts]
@[simp] theorem State.incSat_swap (f : Fld) (k : Nat) (i : Nat) : (s.incSat f k).swap i = s.swap i := by unfold State.swap; rw [State.incSat_swaps]
@[simp] theorem State.incSat_engine (f : Fld) (k : Nat) (i : Nat) : (s.incSat f k).engine i = s.engine i := by unfold State.engine; rw [State.incSat_engines]
@[simp] theorem State.incSat_pr (f : Fld) (k : Nat) (i : Nat) : (s.incSat f k).pr i = s.pr i := by unfold State.pr; rw [State.incSat_prs]
@[simp] theorem State.incSat_fb (f : Fld) (k : Nat) (i : Nat) : (s.incSat f k).fb i = s.fb i := by unfold State.fb; rw [State.incSat_fbs]
@[simp] theorem State.incSat_line (f : Fld) (k : Nat) (i : Nat) : (s.incSat f k).line i = s.line i := by unfold State.line; rw [State.incSat_lines]
@[simp] theorem State.incSat_dec (f : Fld) (k : Nat) (i : Nat) : (s.incSat f k).dec i = s.dec i := by unfold State.dec; rw [State.incSat_decs]
@[simp] theorem State.incSat_pco (f : Fld) (k : Nat) (i : Nat) : (s.incSat f k).pco i = s.pco i := by unfold State.pco; rw [State.incSat_pcos]
@[simp] theorem State.incSat_csp (f : Fld) (k : Nat) (i : Nat) : (s.incSat f k).csp i = s.csp i := by unfold State.csp; rw [State.incSat_csps]
@[simp] theorem State.incSat_eth (f : Fld) (k : Nat) (i : Nat) : (s.incSat f k).eth i = s.eth i := by unfold State.eth; rw [State.incSat_eths]
@[simp] theorem State.incSat_rdByte (f : Fld) (k : Nat) (i : Nat) : (s.incSat f k).rdByte i = s.rdByte i := by unfold State.rdByte; rw [State.incSat_mem]
@[simp] theorem State.incSat_up (f : Fld) (k : Nat) : (s.incSat f k).up = s.up := by unfold State.up; rw [State.incSat_power]

/-! ### err -/

@[simp] theorem State.err_gen (n e : Nat) (i : Nat) : (s.err n e).gen i = s.gen i := by unfold State.gen; rw [State.err_gens]
@[simp] theorem State.err_cc (n e : Nat) (i : Nat) : (s.err n e).cc i = s.cc i := by unfold State.cc; rw [State.err_ccs]
@[simp] theorem State.err_chan (n e : Nat) (i : Nat) : (s.err n e).chan i = s.chan i := by unfold State.chan; rw [State.err_chans]
@[simp] theorem State.err_group (n e : Nat) (i : Nat) : (s.err n e).group i = s.group i := by unfold State.group; rw [State.err_groups]
@[simp] theorem State.err_window (n e : Nat) (i : Nat) : (s.err n e).window i = s.window i := by unfold State.window; rw [State.err_windows]
@[simp] theorem State.err_stream (n e : Nat) (i : Nat) : (s.err n e).stream i = s.stream i := by unfold State.stream; rw [State.err_streams]
@[simp] theorem State.err_host (n e : Nat) (i : Nat) : (s.err n e).host i = s.host i := by unfold State.host; rw [State.err_hosts]
@[simp] theorem State.err_swap (n e : Nat) (i : Nat) : (s.err n e).swap i = s.swap i := by unfold State.swap; rw [State.err_swaps]
@[simp] theorem State.err_engine (n e : Nat) (i : Nat) : (s.err n e).engine i = s.engine i := by unfold State.engine; rw [State.err_engines]
@[simp] theorem State.err_pr (n e : Nat) (i : Nat) : (s.err n e).pr i = s.pr i := by unfold State.pr; rw [State.err_prs]
@[simp] theorem State.err_fb (n e : Nat) (i : Nat) : (s.err n e).fb i = s.fb i := by unfold State.fb; rw [State.err_fbs]
@[simp] theorem State.err_line (n e : Nat) (i : Nat) : (s.err n e).line i = s.line i := by unfold State.line; rw [State.err_lines]
@[simp] theorem State.err_dec (n e : Nat) (i : Nat) : (s.err n e).dec i = s.dec i := by unfold State.dec; rw [State.err_decs]
@[simp] theorem State.err_pco (n e : Nat) (i : Nat) : (s.err n e).pco i = s.pco i := by unfold State.pco; rw [State.err_pcos]
@[simp] theorem State.err_csp (n e : Nat) (i : Nat) : (s.err n e).csp i = s.csp i := by unfold State.csp; rw [State.err_csps]
@[simp] theorem State.err_eth (n e : Nat) (i : Nat) : (s.err n e).eth i = s.eth i := by unfold State.eth; rw [State.err_eths]
@[simp] theorem State.err_rdByte (n e : Nat) (i : Nat) : (s.err n e).rdByte i = s.rdByte i := by unfold State.rdByte; rw [State.err_mem]
@[simp] theorem State.err_up (n e : Nat) : (s.err n e).up = s.up := by unfold State.up; rw [State.err_power]

/-! ### noteSet -/

@[simp] theorem State.noteSet_gen (a bits : Nat) (i : Nat) : (s.noteSet a bits).gen i = s.gen i := by unfold State.gen; rw [State.noteSet_gens]
@[simp] theorem State.noteSet_cc (a bits : Nat) (i : Nat) : (s.noteSet a bits).cc i = s.cc i := by unfold State.cc; rw [State.noteSet_ccs]
@[simp] theorem State.noteSet_chan (a bits : Nat) (i : Nat) : (s.noteSet a bits).chan i = s.chan i := by unfold State.chan; rw [State.noteSet_chans]
@[simp] theorem State.noteSet_group (a bits : Nat) (i : Nat) : (s.noteSet a bits).group i = s.group i := by unfold State.group; rw [State.noteSet_groups]
@[simp] theorem State.noteSet_window (a bits : Nat) (i : Nat) : (s.noteSet a bits).window i = s.window i := by unfold State.window; rw [State.noteSet_windows]
@[simp] theorem State.noteSet_stream (a bits : Nat) (i : Nat) : (s.noteSet a bits).stream i = s.stream i := by unfold State.stream; rw [State.noteSet_streams]
@[simp] theorem State.noteSet_host (a bits : Nat) (i : Nat) : (s.noteSet a bits).host i = s.host i := by unfold State.host; rw [State.noteSet_hosts]
@[simp] theorem State.noteSet_swap (a bits : Nat) (i : Nat) : (s.noteSet a bits).swap i = s.swap i := by unfold State.swap; rw [State.noteSet_swaps]
@[simp] theorem State.noteSet_engine (a bits : Nat) (i : Nat) : (s.noteSet a bits).engine i = s.engine i := by unfold State.engine; rw [State.noteSet_engines]
@[simp] theorem State.noteSet_pr (a bits : Nat) (i : Nat) : (s.noteSet a bits).pr i = s.pr i := by unfold State.pr; rw [State.noteSet_prs]
@[simp] theorem State.noteSet_fb (a bits : Nat) (i : Nat) : (s.noteSet a bits).fb i = s.fb i := by unfold State.fb; rw [State.noteSet_fbs]
@[simp] theorem State.noteSet_line (a bits : Nat) (i : Nat) : (s.noteSet a bits).line i = s.line i := by unfold State.line; rw [State.noteSet_lines]
@[simp] theorem State.noteSet_dec (a bits : Nat) (i : Nat) : (s.noteSet a bits).dec i = s.dec i := by unfold State.dec; rw [State.noteSet_decs]
@[simp] theorem State.noteSet_pco (a bits : Nat) (i : Nat) : (s.noteSet a bits).pco i = s.pco i := by unfold State.pco; rw [State.noteSet_pcos]
@[simp] theorem State.noteSet_csp (a bits : Nat) (i : Nat) : (s.noteSet a bits).csp i = s.csp i := by unfold State.csp; rw [State.noteSet_csps]
@[simp] theorem State.noteSet_eth (a bits : Nat) (i : Nat) : (s.noteSet a bits).eth i = s.eth i := by unfold State.eth; rw [State.noteSet_eths]
@[simp] theorem State.noteSet_rdByte (a bits : Nat) (i : Nat) : (s.noteSet a bits).rdByte i = s.rdByte i := by unfold State.rdByte; rw [State.noteSet_mem]
@[simp] theorem State.noteSet_up (a bits : Nat) : (s.noteSet a bits).up = s.up := by unfold State.up; rw [State.noteSet_power]

/-! ### w1c -/

@[simp] theorem State.w1c_gen (f : Fld) (v : Word) (i : Nat) : (s.w1c f v).gen i = s.gen i := by unfold State.gen; rw [State.w1c_gens]
@[simp] theorem State.w1c_cc (f : Fld) (v : Word) (i : Nat) : (s.w1c f v).cc i = s.cc i := by unfold State.cc; rw [State.w1c_ccs]
@[simp] theorem State.w1c_chan (f : Fld) (v : Word) (i : Nat) : (s.w1c f v).chan i = s.chan i := by unfold State.chan; rw [State.w1c_chans]
@[simp] theorem State.w1c_group (f : Fld) (v : Word) (i : Nat) : (s.w1c f v).group i = s.group i := by unfold State.group; rw [State.w1c_groups]
@[simp] theorem State.w1c_window (f : Fld) (v : Word) (i : Nat) : (s.w1c f v).window i = s.window i := by unfold State.window; rw [State.w1c_windows]
@[simp] theorem State.w1c_stream (f : Fld) (v : Word) (i : Nat) : (s.w1c f v).stream i = s.stream i := by unfold State.stream; rw [State.w1c_streams]
@[simp] theorem State.w1c_host (f : Fld) (v : Word) (i : Nat) : (s.w1c f v).host i = s.host i := by unfold State.host; rw [State.w1c_hosts]
@[simp] theorem State.w1c_swap (f : Fld) (v : Word) (i : Nat) : (s.w1c f v).swap i = s.swap i := by unfold State.swap; rw [State.w1c_swaps]
@[simp] theorem State.w1c_engine (f : Fld) (v : Word) (i : Nat) : (s.w1c f v).engine i = s.engine i := by unfold State.engine; rw [State.w1c_engines]
@[simp] theorem State.w1c_pr (f : Fld) (v : Word) (i : Nat) : (s.w1c f v).pr i = s.pr i := by unfold State.pr; rw [State.w1c_prs]
@[simp] theorem State.w1c_fb (f : Fld) (v : Word) (i : Nat) : (s.w1c f v).fb i = s.fb i := by unfold State.fb; rw [State.w1c_fbs]
@[simp] theorem State.w1c_line (f : Fld) (v : Word) (i : Nat) : (s.w1c f v).line i = s.line i := by unfold State.line; rw [State.w1c_lines]
@[simp] theorem State.w1c_dec (f : Fld) (v : Word) (i : Nat) : (s.w1c f v).dec i = s.dec i := by unfold State.dec; rw [State.w1c_decs]
@[simp] theorem State.w1c_pco (f : Fld) (v : Word) (i : Nat) : (s.w1c f v).pco i = s.pco i := by unfold State.pco; rw [State.w1c_pcos]
@[simp] theorem State.w1c_csp (f : Fld) (v : Word) (i : Nat) : (s.w1c f v).csp i = s.csp i := by unfold State.csp; rw [State.w1c_csps]
@[simp] theorem State.w1c_eth (f : Fld) (v : Word) (i : Nat) : (s.w1c f v).eth i = s.eth i := by unfold State.eth; rw [State.w1c_eths]
@[simp] theorem State.w1c_rdByte (f : Fld) (v : Word) (i : Nat) : (s.w1c f v).rdByte i = s.rdByte i := by unfold State.rdByte; rw [State.w1c_mem]
@[simp] theorem State.w1c_up (f : Fld) (v : Word) : (s.w1c f v).up = s.up := by unfold State.up; rw [State.w1c_power]

/-! ### setGen -/

@[simp] theorem State.setGen_rd (n : Nat) (x : Gen) (i : Nat) : (s.setGen n x).rd i = s.rd i := (rfl)
@[simp] theorem State.setGen_get (n : Nat) (x : Gen) (g : Fld) : (s.setGen n x).get g = s.get g := (rfl)
@[simp] theorem State.setGen_geti (n : Nat) (x : Gen) (g : Fld) : (s.setGen n x).geti g = s.geti g := (rfl)
@[simp] theorem State.setGen_bit (n : Nat) (x : Gen) (g : Fld) : (s.setGen n x).bit g = s.bit g := (rfl)
@[simp] theorem State.setGen_up (n : Nat) (x : Gen) : (s.setGen n x).up = s.up := (rfl)
@[simp] theorem State.setGen_rdByte (n : Nat) (x : Gen) (i : Nat) : (s.setGen n x).rdByte i = s.rdByte i := (rfl)
@[simp] theorem State.setGen_cc (n : Nat) (x : Gen) (i : Nat) : (s.setGen n x).cc i = s.cc i := (rfl)
@[simp] theorem State.setGen_chan (n : Nat) (x : Gen) (i : Nat) : (s.setGen n x).chan i = s.chan i := (rfl)
@[simp] theorem State.setGen_group (n : Nat) (x : Gen) (i : Nat) : (s.setGen n x).group i = s.group i := (rfl)
@[simp] theorem State.setGen_window (n : Nat) (x : Gen) (i : Nat) : (s.setGen n x).window i = s.window i := (rfl)
@[simp] theorem State.setGen_stream (n : Nat) (x : Gen) (i : Nat) : (s.setGen n x).stream i = s.stream i := (rfl)
@[simp] theorem State.setGen_host (n : Nat) (x : Gen) (i : Nat) : (s.setGen n x).host i = s.host i := (rfl)
@[simp] theorem State.setGen_swap (n : Nat) (x : Gen) (i : Nat) : (s.setGen n x).swap i = s.swap i := (rfl)
@[simp] theorem State.setGen_engine (n : Nat) (x : Gen) (i : Nat) : (s.setGen n x).engine i = s.engine i := (rfl)
@[simp] theorem State.setGen_pr (n : Nat) (x : Gen) (i : Nat) : (s.setGen n x).pr i = s.pr i := (rfl)
@[simp] theorem State.setGen_fb (n : Nat) (x : Gen) (i : Nat) : (s.setGen n x).fb i = s.fb i := (rfl)
@[simp] theorem State.setGen_line (n : Nat) (x : Gen) (i : Nat) : (s.setGen n x).line i = s.line i := (rfl)
@[simp] theorem State.setGen_dec (n : Nat) (x : Gen) (i : Nat) : (s.setGen n x).dec i = s.dec i := (rfl)
@[simp] theorem State.setGen_pco (n : Nat) (x : Gen) (i : Nat) : (s.setGen n x).pco i = s.pco i := (rfl)
@[simp] theorem State.setGen_csp (n : Nat) (x : Gen) (i : Nat) : (s.setGen n x).csp i = s.csp i := (rfl)
@[simp] theorem State.setGen_eth (n : Nat) (x : Gen) (i : Nat) : (s.setGen n x).eth i = s.eth i := (rfl)

/-! ### setCc -/

@[simp] theorem State.setCc_rd (n : Nat) (x : Cc) (i : Nat) : (s.setCc n x).rd i = s.rd i := (rfl)
@[simp] theorem State.setCc_get (n : Nat) (x : Cc) (g : Fld) : (s.setCc n x).get g = s.get g := (rfl)
@[simp] theorem State.setCc_geti (n : Nat) (x : Cc) (g : Fld) : (s.setCc n x).geti g = s.geti g := (rfl)
@[simp] theorem State.setCc_bit (n : Nat) (x : Cc) (g : Fld) : (s.setCc n x).bit g = s.bit g := (rfl)
@[simp] theorem State.setCc_up (n : Nat) (x : Cc) : (s.setCc n x).up = s.up := (rfl)
@[simp] theorem State.setCc_rdByte (n : Nat) (x : Cc) (i : Nat) : (s.setCc n x).rdByte i = s.rdByte i := (rfl)
@[simp] theorem State.setCc_gen (n : Nat) (x : Cc) (i : Nat) : (s.setCc n x).gen i = s.gen i := (rfl)
@[simp] theorem State.setCc_chan (n : Nat) (x : Cc) (i : Nat) : (s.setCc n x).chan i = s.chan i := (rfl)
@[simp] theorem State.setCc_group (n : Nat) (x : Cc) (i : Nat) : (s.setCc n x).group i = s.group i := (rfl)
@[simp] theorem State.setCc_window (n : Nat) (x : Cc) (i : Nat) : (s.setCc n x).window i = s.window i := (rfl)
@[simp] theorem State.setCc_stream (n : Nat) (x : Cc) (i : Nat) : (s.setCc n x).stream i = s.stream i := (rfl)
@[simp] theorem State.setCc_host (n : Nat) (x : Cc) (i : Nat) : (s.setCc n x).host i = s.host i := (rfl)
@[simp] theorem State.setCc_swap (n : Nat) (x : Cc) (i : Nat) : (s.setCc n x).swap i = s.swap i := (rfl)
@[simp] theorem State.setCc_engine (n : Nat) (x : Cc) (i : Nat) : (s.setCc n x).engine i = s.engine i := (rfl)
@[simp] theorem State.setCc_pr (n : Nat) (x : Cc) (i : Nat) : (s.setCc n x).pr i = s.pr i := (rfl)
@[simp] theorem State.setCc_fb (n : Nat) (x : Cc) (i : Nat) : (s.setCc n x).fb i = s.fb i := (rfl)
@[simp] theorem State.setCc_line (n : Nat) (x : Cc) (i : Nat) : (s.setCc n x).line i = s.line i := (rfl)
@[simp] theorem State.setCc_dec (n : Nat) (x : Cc) (i : Nat) : (s.setCc n x).dec i = s.dec i := (rfl)
@[simp] theorem State.setCc_pco (n : Nat) (x : Cc) (i : Nat) : (s.setCc n x).pco i = s.pco i := (rfl)
@[simp] theorem State.setCc_csp (n : Nat) (x : Cc) (i : Nat) : (s.setCc n x).csp i = s.csp i := (rfl)
@[simp] theorem State.setCc_eth (n : Nat) (x : Cc) (i : Nat) : (s.setCc n x).eth i = s.eth i := (rfl)

/-! ### setChan -/

@[simp] theorem State.setChan_rd (n : Nat) (x : PwmChan) (i : Nat) : (s.setChan n x).rd i = s.rd i := (rfl)
@[simp] theorem State.setChan_get (n : Nat) (x : PwmChan) (g : Fld) : (s.setChan n x).get g = s.get g := (rfl)
@[simp] theorem State.setChan_geti (n : Nat) (x : PwmChan) (g : Fld) : (s.setChan n x).geti g = s.geti g := (rfl)
@[simp] theorem State.setChan_bit (n : Nat) (x : PwmChan) (g : Fld) : (s.setChan n x).bit g = s.bit g := (rfl)
@[simp] theorem State.setChan_up (n : Nat) (x : PwmChan) : (s.setChan n x).up = s.up := (rfl)
@[simp] theorem State.setChan_rdByte (n : Nat) (x : PwmChan) (i : Nat) : (s.setChan n x).rdByte i = s.rdByte i := (rfl)
@[simp] theorem State.setChan_gen (n : Nat) (x : PwmChan) (i : Nat) : (s.setChan n x).gen i = s.gen i := (rfl)
@[simp] theorem State.setChan_cc (n : Nat) (x : PwmChan) (i : Nat) : (s.setChan n x).cc i = s.cc i := (rfl)
@[simp] theorem State.setChan_group (n : Nat) (x : PwmChan) (i : Nat) : (s.setChan n x).group i = s.group i := (rfl)
@[simp] theorem State.setChan_window (n : Nat) (x : PwmChan) (i : Nat) : (s.setChan n x).window i = s.window i := (rfl)
@[simp] theorem State.setChan_stream (n : Nat) (x : PwmChan) (i : Nat) : (s.setChan n x).stream i = s.stream i := (rfl)
@[simp] theorem State.setChan_host (n : Nat) (x : PwmChan) (i : Nat) : (s.setChan n x).host i = s.host i := (rfl)
@[simp] theorem State.setChan_swap (n : Nat) (x : PwmChan) (i : Nat) : (s.setChan n x).swap i = s.swap i := (rfl)
@[simp] theorem State.setChan_engine (n : Nat) (x : PwmChan) (i : Nat) : (s.setChan n x).engine i = s.engine i := (rfl)
@[simp] theorem State.setChan_pr (n : Nat) (x : PwmChan) (i : Nat) : (s.setChan n x).pr i = s.pr i := (rfl)
@[simp] theorem State.setChan_fb (n : Nat) (x : PwmChan) (i : Nat) : (s.setChan n x).fb i = s.fb i := (rfl)
@[simp] theorem State.setChan_line (n : Nat) (x : PwmChan) (i : Nat) : (s.setChan n x).line i = s.line i := (rfl)
@[simp] theorem State.setChan_dec (n : Nat) (x : PwmChan) (i : Nat) : (s.setChan n x).dec i = s.dec i := (rfl)
@[simp] theorem State.setChan_pco (n : Nat) (x : PwmChan) (i : Nat) : (s.setChan n x).pco i = s.pco i := (rfl)
@[simp] theorem State.setChan_csp (n : Nat) (x : PwmChan) (i : Nat) : (s.setChan n x).csp i = s.csp i := (rfl)
@[simp] theorem State.setChan_eth (n : Nat) (x : PwmChan) (i : Nat) : (s.setChan n x).eth i = s.eth i := (rfl)

/-! ### setGroup -/

@[simp] theorem State.setGroup_rd (n : Nat) (x : PwmGroup) (i : Nat) : (s.setGroup n x).rd i = s.rd i := (rfl)
@[simp] theorem State.setGroup_get (n : Nat) (x : PwmGroup) (g : Fld) : (s.setGroup n x).get g = s.get g := (rfl)
@[simp] theorem State.setGroup_geti (n : Nat) (x : PwmGroup) (g : Fld) : (s.setGroup n x).geti g = s.geti g := (rfl)
@[simp] theorem State.setGroup_bit (n : Nat) (x : PwmGroup) (g : Fld) : (s.setGroup n x).bit g = s.bit g := (rfl)
@[simp] theorem State.setGroup_up (n : Nat) (x : PwmGroup) : (s.setGroup n x).up = s.up := (rfl)
@[simp] theorem State.setGroup_rdByte (n : Nat) (x : PwmGroup) (i : Nat) : (s.setGroup n x).rdByte i = s.rdByte i := (rfl)
@[simp] theorem State.setGroup_gen (n : Nat) (x : PwmGroup) (i : Nat) : (s.setGroup n x).gen i = s.gen i := (rfl)
@[simp] theorem State.setGroup_cc (n : Nat) (x : PwmGroup) (i : Nat) : (s.setGroup n x).cc i = s.cc i := (rfl)
@[simp] theorem State.setGroup_chan (n : Nat) (x : PwmGroup) (i : Nat) : (s.setGroup n x).chan i = s.chan i := (rfl)
@[simp] theorem State.setGroup_window (n : Nat) (x : PwmGroup) (i : Nat) : (s.setGroup n x).window i = s.window i := (rfl)
@[simp] theorem State.setGroup_stream (n : Nat) (x : PwmGroup) (i : Nat) : (s.setGroup n x).stream i = s.stream i := (rfl)
@[simp] theorem State.setGroup_host (n : Nat) (x : PwmGroup) (i : Nat) : (s.setGroup n x).host i = s.host i := (rfl)
@[simp] theorem State.setGroup_swap (n : Nat) (x : PwmGroup) (i : Nat) : (s.setGroup n x).swap i = s.swap i := (rfl)
@[simp] theorem State.setGroup_engine (n : Nat) (x : PwmGroup) (i : Nat) : (s.setGroup n x).engine i = s.engine i := (rfl)
@[simp] theorem State.setGroup_pr (n : Nat) (x : PwmGroup) (i : Nat) : (s.setGroup n x).pr i = s.pr i := (rfl)
@[simp] theorem State.setGroup_fb (n : Nat) (x : PwmGroup) (i : Nat) : (s.setGroup n x).fb i = s.fb i := (rfl)
@[simp] theorem State.setGroup_line (n : Nat) (x : PwmGroup) (i : Nat) : (s.setGroup n x).line i = s.line i := (rfl)
@[simp] theorem State.setGroup_dec (n : Nat) (x : PwmGroup) (i : Nat) : (s.setGroup n x).dec i = s.dec i := (rfl)
@[simp] theorem State.setGroup_pco (n : Nat) (x : PwmGroup) (i : Nat) : (s.setGroup n x).pco i = s.pco i := (rfl)
@[simp] theorem State.setGroup_csp (n : Nat) (x : PwmGroup) (i : Nat) : (s.setGroup n x).csp i = s.csp i := (rfl)
@[simp] theorem State.setGroup_eth (n : Nat) (x : PwmGroup) (i : Nat) : (s.setGroup n x).eth i = s.eth i := (rfl)

/-! ### setWindow -/

@[simp] theorem State.setWindow_rd (n : Nat) (x : Window) (i : Nat) : (s.setWindow n x).rd i = s.rd i := (rfl)
@[simp] theorem State.setWindow_get (n : Nat) (x : Window) (g : Fld) : (s.setWindow n x).get g = s.get g := (rfl)
@[simp] theorem State.setWindow_geti (n : Nat) (x : Window) (g : Fld) : (s.setWindow n x).geti g = s.geti g := (rfl)
@[simp] theorem State.setWindow_bit (n : Nat) (x : Window) (g : Fld) : (s.setWindow n x).bit g = s.bit g := (rfl)
@[simp] theorem State.setWindow_up (n : Nat) (x : Window) : (s.setWindow n x).up = s.up := (rfl)
@[simp] theorem State.setWindow_rdByte (n : Nat) (x : Window) (i : Nat) : (s.setWindow n x).rdByte i = s.rdByte i := (rfl)
@[simp] theorem State.setWindow_gen (n : Nat) (x : Window) (i : Nat) : (s.setWindow n x).gen i = s.gen i := (rfl)
@[simp] theorem State.setWindow_cc (n : Nat) (x : Window) (i : Nat) : (s.setWindow n x).cc i = s.cc i := (rfl)
@[simp] theorem State.setWindow_chan (n : Nat) (x : Window) (i : Nat) : (s.setWindow n x).chan i = s.chan i := (rfl)
@[simp] theorem State.setWindow_group (n : Nat) (x : Window) (i : Nat) : (s.setWindow n x).group i = s.group i := (rfl)
@[simp] theorem State.setWindow_stream (n : Nat) (x : Window) (i : Nat) : (s.setWindow n x).stream i = s.stream i := (rfl)
@[simp] theorem State.setWindow_host (n : Nat) (x : Window) (i : Nat) : (s.setWindow n x).host i = s.host i := (rfl)
@[simp] theorem State.setWindow_swap (n : Nat) (x : Window) (i : Nat) : (s.setWindow n x).swap i = s.swap i := (rfl)
@[simp] theorem State.setWindow_engine (n : Nat) (x : Window) (i : Nat) : (s.setWindow n x).engine i = s.engine i := (rfl)
@[simp] theorem State.setWindow_pr (n : Nat) (x : Window) (i : Nat) : (s.setWindow n x).pr i = s.pr i := (rfl)
@[simp] theorem State.setWindow_fb (n : Nat) (x : Window) (i : Nat) : (s.setWindow n x).fb i = s.fb i := (rfl)
@[simp] theorem State.setWindow_line (n : Nat) (x : Window) (i : Nat) : (s.setWindow n x).line i = s.line i := (rfl)
@[simp] theorem State.setWindow_dec (n : Nat) (x : Window) (i : Nat) : (s.setWindow n x).dec i = s.dec i := (rfl)
@[simp] theorem State.setWindow_pco (n : Nat) (x : Window) (i : Nat) : (s.setWindow n x).pco i = s.pco i := (rfl)
@[simp] theorem State.setWindow_csp (n : Nat) (x : Window) (i : Nat) : (s.setWindow n x).csp i = s.csp i := (rfl)
@[simp] theorem State.setWindow_eth (n : Nat) (x : Window) (i : Nat) : (s.setWindow n x).eth i = s.eth i := (rfl)

/-! ### setStream -/

@[simp] theorem State.setStream_rd (n : Nat) (x : Stream) (i : Nat) : (s.setStream n x).rd i = s.rd i := (rfl)
@[simp] theorem State.setStream_get (n : Nat) (x : Stream) (g : Fld) : (s.setStream n x).get g = s.get g := (rfl)
@[simp] theorem State.setStream_geti (n : Nat) (x : Stream) (g : Fld) : (s.setStream n x).geti g = s.geti g := (rfl)
@[simp] theorem State.setStream_bit (n : Nat) (x : Stream) (g : Fld) : (s.setStream n x).bit g = s.bit g := (rfl)
@[simp] theorem State.setStream_up (n : Nat) (x : Stream) : (s.setStream n x).up = s.up := (rfl)
@[simp] theorem State.setStream_rdByte (n : Nat) (x : Stream) (i : Nat) : (s.setStream n x).rdByte i = s.rdByte i := (rfl)
@[simp] theorem State.setStream_gen (n : Nat) (x : Stream) (i : Nat) : (s.setStream n x).gen i = s.gen i := (rfl)
@[simp] theorem State.setStream_cc (n : Nat) (x : Stream) (i : Nat) : (s.setStream n x).cc i = s.cc i := (rfl)
@[simp] theorem State.setStream_chan (n : Nat) (x : Stream) (i : Nat) : (s.setStream n x).chan i = s.chan i := (rfl)
@[simp] theorem State.setStream_group (n : Nat) (x : Stream) (i : Nat) : (s.setStream n x).group i = s.group i := (rfl)
@[simp] theorem State.setStream_window (n : Nat) (x : Stream) (i : Nat) : (s.setStream n x).window i = s.window i := (rfl)
@[simp] theorem State.setStream_host (n : Nat) (x : Stream) (i : Nat) : (s.setStream n x).host i = s.host i := (rfl)
@[simp] theorem State.setStream_swap (n : Nat) (x : Stream) (i : Nat) : (s.setStream n x).swap i = s.swap i := (rfl)
@[simp] theorem State.setStream_engine (n : Nat) (x : Stream) (i : Nat) : (s.setStream n x).engine i = s.engine i := (rfl)
@[simp] theorem State.setStream_pr (n : Nat) (x : Stream) (i : Nat) : (s.setStream n x).pr i = s.pr i := (rfl)
@[simp] theorem State.setStream_fb (n : Nat) (x : Stream) (i : Nat) : (s.setStream n x).fb i = s.fb i := (rfl)
@[simp] theorem State.setStream_line (n : Nat) (x : Stream) (i : Nat) : (s.setStream n x).line i = s.line i := (rfl)
@[simp] theorem State.setStream_dec (n : Nat) (x : Stream) (i : Nat) : (s.setStream n x).dec i = s.dec i := (rfl)
@[simp] theorem State.setStream_pco (n : Nat) (x : Stream) (i : Nat) : (s.setStream n x).pco i = s.pco i := (rfl)
@[simp] theorem State.setStream_csp (n : Nat) (x : Stream) (i : Nat) : (s.setStream n x).csp i = s.csp i := (rfl)
@[simp] theorem State.setStream_eth (n : Nat) (x : Stream) (i : Nat) : (s.setStream n x).eth i = s.eth i := (rfl)

/-! ### setHost -/

@[simp] theorem State.setHost_rd (n : Nat) (x : HostSt) (i : Nat) : (s.setHost n x).rd i = s.rd i := (rfl)
@[simp] theorem State.setHost_get (n : Nat) (x : HostSt) (g : Fld) : (s.setHost n x).get g = s.get g := (rfl)
@[simp] theorem State.setHost_geti (n : Nat) (x : HostSt) (g : Fld) : (s.setHost n x).geti g = s.geti g := (rfl)
@[simp] theorem State.setHost_bit (n : Nat) (x : HostSt) (g : Fld) : (s.setHost n x).bit g = s.bit g := (rfl)
@[simp] theorem State.setHost_up (n : Nat) (x : HostSt) : (s.setHost n x).up = s.up := (rfl)
@[simp] theorem State.setHost_rdByte (n : Nat) (x : HostSt) (i : Nat) : (s.setHost n x).rdByte i = s.rdByte i := (rfl)
@[simp] theorem State.setHost_gen (n : Nat) (x : HostSt) (i : Nat) : (s.setHost n x).gen i = s.gen i := (rfl)
@[simp] theorem State.setHost_cc (n : Nat) (x : HostSt) (i : Nat) : (s.setHost n x).cc i = s.cc i := (rfl)
@[simp] theorem State.setHost_chan (n : Nat) (x : HostSt) (i : Nat) : (s.setHost n x).chan i = s.chan i := (rfl)
@[simp] theorem State.setHost_group (n : Nat) (x : HostSt) (i : Nat) : (s.setHost n x).group i = s.group i := (rfl)
@[simp] theorem State.setHost_window (n : Nat) (x : HostSt) (i : Nat) : (s.setHost n x).window i = s.window i := (rfl)
@[simp] theorem State.setHost_stream (n : Nat) (x : HostSt) (i : Nat) : (s.setHost n x).stream i = s.stream i := (rfl)
@[simp] theorem State.setHost_swap (n : Nat) (x : HostSt) (i : Nat) : (s.setHost n x).swap i = s.swap i := (rfl)
@[simp] theorem State.setHost_engine (n : Nat) (x : HostSt) (i : Nat) : (s.setHost n x).engine i = s.engine i := (rfl)
@[simp] theorem State.setHost_pr (n : Nat) (x : HostSt) (i : Nat) : (s.setHost n x).pr i = s.pr i := (rfl)
@[simp] theorem State.setHost_fb (n : Nat) (x : HostSt) (i : Nat) : (s.setHost n x).fb i = s.fb i := (rfl)
@[simp] theorem State.setHost_line (n : Nat) (x : HostSt) (i : Nat) : (s.setHost n x).line i = s.line i := (rfl)
@[simp] theorem State.setHost_dec (n : Nat) (x : HostSt) (i : Nat) : (s.setHost n x).dec i = s.dec i := (rfl)
@[simp] theorem State.setHost_pco (n : Nat) (x : HostSt) (i : Nat) : (s.setHost n x).pco i = s.pco i := (rfl)
@[simp] theorem State.setHost_csp (n : Nat) (x : HostSt) (i : Nat) : (s.setHost n x).csp i = s.csp i := (rfl)
@[simp] theorem State.setHost_eth (n : Nat) (x : HostSt) (i : Nat) : (s.setHost n x).eth i = s.eth i := (rfl)

/-! ### setSwap -/

@[simp] theorem State.setSwap_rd (n : Nat) (x : Swap) (i : Nat) : (s.setSwap n x).rd i = s.rd i := (rfl)
@[simp] theorem State.setSwap_get (n : Nat) (x : Swap) (g : Fld) : (s.setSwap n x).get g = s.get g := (rfl)
@[simp] theorem State.setSwap_geti (n : Nat) (x : Swap) (g : Fld) : (s.setSwap n x).geti g = s.geti g := (rfl)
@[simp] theorem State.setSwap_bit (n : Nat) (x : Swap) (g : Fld) : (s.setSwap n x).bit g = s.bit g := (rfl)
@[simp] theorem State.setSwap_up (n : Nat) (x : Swap) : (s.setSwap n x).up = s.up := (rfl)
@[simp] theorem State.setSwap_rdByte (n : Nat) (x : Swap) (i : Nat) : (s.setSwap n x).rdByte i = s.rdByte i := (rfl)
@[simp] theorem State.setSwap_gen (n : Nat) (x : Swap) (i : Nat) : (s.setSwap n x).gen i = s.gen i := (rfl)
@[simp] theorem State.setSwap_cc (n : Nat) (x : Swap) (i : Nat) : (s.setSwap n x).cc i = s.cc i := (rfl)
@[simp] theorem State.setSwap_chan (n : Nat) (x : Swap) (i : Nat) : (s.setSwap n x).chan i = s.chan i := (rfl)
@[simp] theorem State.setSwap_group (n : Nat) (x : Swap) (i : Nat) : (s.setSwap n x).group i = s.group i := (rfl)
@[simp] theorem State.setSwap_window (n : Nat) (x : Swap) (i : Nat) : (s.setSwap n x).window i = s.window i := (rfl)
@[simp] theorem State.setSwap_stream (n : Nat) (x : Swap) (i : Nat) : (s.setSwap n x).stream i = s.stream i := (rfl)
@[simp] theorem State.setSwap_host (n : Nat) (x : Swap) (i : Nat) : (s.setSwap n x).host i = s.host i := (rfl)
@[simp] theorem State.setSwap_engine (n : Nat) (x : Swap) (i : Nat) : (s.setSwap n x).engine i = s.engine i := (rfl)
@[simp] theorem State.setSwap_pr (n : Nat) (x : Swap) (i : Nat) : (s.setSwap n x).pr i = s.pr i := (rfl)
@[simp] theorem State.setSwap_fb (n : Nat) (x : Swap) (i : Nat) : (s.setSwap n x).fb i = s.fb i := (rfl)
@[simp] theorem State.setSwap_line (n : Nat) (x : Swap) (i : Nat) : (s.setSwap n x).line i = s.line i := (rfl)
@[simp] theorem State.setSwap_dec (n : Nat) (x : Swap) (i : Nat) : (s.setSwap n x).dec i = s.dec i := (rfl)
@[simp] theorem State.setSwap_pco (n : Nat) (x : Swap) (i : Nat) : (s.setSwap n x).pco i = s.pco i := (rfl)
@[simp] theorem State.setSwap_csp (n : Nat) (x : Swap) (i : Nat) : (s.setSwap n x).csp i = s.csp i := (rfl)
@[simp] theorem State.setSwap_eth (n : Nat) (x : Swap) (i : Nat) : (s.setSwap n x).eth i = s.eth i := (rfl)

/-! ### setEngine -/

@[simp] theorem State.setEngine_rd (n : Nat) (x : Engine) (i : Nat) : (s.setEngine n x).rd i = s.rd i := (rfl)
@[simp] theorem State.setEngine_get (n : Nat) (x : Engine) (g : Fld) : (s.setEngine n x).get g = s.get g := (rfl)
@[simp] theorem State.setEngine_geti (n : Nat) (x : Engine) (g : Fld) : (s.setEngine n x).geti g = s.geti g := (rfl)
@[simp] theorem State.setEngine_bit (n : Nat) (x : Engine) (g : Fld) : (s.setEngine n x).bit g = s.bit g := (rfl)
@[simp] theorem State.setEngine_up (n : Nat) (x : Engine) : (s.setEngine n x).up = s.up := (rfl)
@[simp] theorem State.setEngine_rdByte (n : Nat) (x : Engine) (i : Nat) : (s.setEngine n x).rdByte i = s.rdByte i := (rfl)
@[simp] theorem State.setEngine_gen (n : Nat) (x : Engine) (i : Nat) : (s.setEngine n x).gen i = s.gen i := (rfl)
@[simp] theorem State.setEngine_cc (n : Nat) (x : Engine) (i : Nat) : (s.setEngine n x).cc i = s.cc i := (rfl)
@[simp] theorem State.setEngine_chan (n : Nat) (x : Engine) (i : Nat) : (s.setEngine n x).chan i = s.chan i := (rfl)
@[simp] theorem State.setEngine_group (n : Nat) (x : Engine) (i : Nat) : (s.setEngine n x).group i = s.group i := (rfl)
@[simp] theorem State.setEngine_window (n : Nat) (x : Engine) (i : Nat) : (s.setEngine n x).window i = s.window i := (rfl)
@[simp] theorem State.setEngine_stream (n : Nat) (x : Engine) (i : Nat) : (s.setEngine n x).stream i = s.stream i := (rfl)
@[simp] theorem State.setEngine_host (n : Nat) (x : Engine) (i : Nat) : (s.setEngine n x).host i = s.host i := (rfl)
@[simp] theorem State.setEngine_swap (n : Nat) (x : Engine) (i : Nat) : (s.setEngine n x).swap i = s.swap i := (rfl)
@[simp] theorem State.setEngine_pr (n : Nat) (x : Engine) (i : Nat) : (s.setEngine n x).pr i = s.pr i := (rfl)
@[simp] theorem State.setEngine_fb (n : Nat) (x : Engine) (i : Nat) : (s.setEngine n x).fb i = s.fb i := (rfl)
@[simp] theorem State.setEngine_line (n : Nat) (x : Engine) (i : Nat) : (s.setEngine n x).line i = s.line i := (rfl)
@[simp] theorem State.setEngine_dec (n : Nat) (x : Engine) (i : Nat) : (s.setEngine n x).dec i = s.dec i := (rfl)
@[simp] theorem State.setEngine_pco (n : Nat) (x : Engine) (i : Nat) : (s.setEngine n x).pco i = s.pco i := (rfl)
@[simp] theorem State.setEngine_csp (n : Nat) (x : Engine) (i : Nat) : (s.setEngine n x).csp i = s.csp i := (rfl)
@[simp] theorem State.setEngine_eth (n : Nat) (x : Engine) (i : Nat) : (s.setEngine n x).eth i = s.eth i := (rfl)

/-! ### setPr -/

@[simp] theorem State.setPr_rd (n : Nat) (x : Prusik) (i : Nat) : (s.setPr n x).rd i = s.rd i := (rfl)
@[simp] theorem State.setPr_get (n : Nat) (x : Prusik) (g : Fld) : (s.setPr n x).get g = s.get g := (rfl)
@[simp] theorem State.setPr_geti (n : Nat) (x : Prusik) (g : Fld) : (s.setPr n x).geti g = s.geti g := (rfl)
@[simp] theorem State.setPr_bit (n : Nat) (x : Prusik) (g : Fld) : (s.setPr n x).bit g = s.bit g := (rfl)
@[simp] theorem State.setPr_up (n : Nat) (x : Prusik) : (s.setPr n x).up = s.up := (rfl)
@[simp] theorem State.setPr_rdByte (n : Nat) (x : Prusik) (i : Nat) : (s.setPr n x).rdByte i = s.rdByte i := (rfl)
@[simp] theorem State.setPr_gen (n : Nat) (x : Prusik) (i : Nat) : (s.setPr n x).gen i = s.gen i := (rfl)
@[simp] theorem State.setPr_cc (n : Nat) (x : Prusik) (i : Nat) : (s.setPr n x).cc i = s.cc i := (rfl)
@[simp] theorem State.setPr_chan (n : Nat) (x : Prusik) (i : Nat) : (s.setPr n x).chan i = s.chan i := (rfl)
@[simp] theorem State.setPr_group (n : Nat) (x : Prusik) (i : Nat) : (s.setPr n x).group i = s.group i := (rfl)
@[simp] theorem State.setPr_window (n : Nat) (x : Prusik) (i : Nat) : (s.setPr n x).window i = s.window i := (rfl)
@[simp] theorem State.setPr_stream (n : Nat) (x : Prusik) (i : Nat) : (s.setPr n x).stream i = s.stream i := (rfl)
@[simp] theorem State.setPr_host (n : Nat) (x : Prusik) (i : Nat) : (s.setPr n x).host i = s.host i := (rfl)
@[simp] theorem State.setPr_swap (n : Nat) (x : Prusik) (i : Nat) : (s.setPr n x).swap i = s.swap i := (rfl)
@[simp] theorem State.setPr_engine (n : Nat) (x : Prusik) (i : Nat) : (s.setPr n x).engine i = s.engine i := (rfl)
@[simp] theorem State.setPr_fb (n : Nat) (x : Prusik) (i : Nat) : (s.setPr n x).fb i = s.fb i := (rfl)
@[simp] theorem State.setPr_line (n : Nat) (x : Prusik) (i : Nat) : (s.setPr n x).line i = s.line i := (rfl)
@[simp] theorem State.setPr_dec (n : Nat) (x : Prusik) (i : Nat) : (s.setPr n x).dec i = s.dec i := (rfl)
@[simp] theorem State.setPr_pco (n : Nat) (x : Prusik) (i : Nat) : (s.setPr n x).pco i = s.pco i := (rfl)
@[simp] theorem State.setPr_csp (n : Nat) (x : Prusik) (i : Nat) : (s.setPr n x).csp i = s.csp i := (rfl)
@[simp] theorem State.setPr_eth (n : Nat) (x : Prusik) (i : Nat) : (s.setPr n x).eth i = s.eth i := (rfl)

/-! ### setFb -/

@[simp] theorem State.setFb_rd (n : Nat) (x : FbPort) (i : Nat) : (s.setFb n x).rd i = s.rd i := (rfl)
@[simp] theorem State.setFb_get (n : Nat) (x : FbPort) (g : Fld) : (s.setFb n x).get g = s.get g := (rfl)
@[simp] theorem State.setFb_geti (n : Nat) (x : FbPort) (g : Fld) : (s.setFb n x).geti g = s.geti g := (rfl)
@[simp] theorem State.setFb_bit (n : Nat) (x : FbPort) (g : Fld) : (s.setFb n x).bit g = s.bit g := (rfl)
@[simp] theorem State.setFb_up (n : Nat) (x : FbPort) : (s.setFb n x).up = s.up := (rfl)
@[simp] theorem State.setFb_rdByte (n : Nat) (x : FbPort) (i : Nat) : (s.setFb n x).rdByte i = s.rdByte i := (rfl)
@[simp] theorem State.setFb_gen (n : Nat) (x : FbPort) (i : Nat) : (s.setFb n x).gen i = s.gen i := (rfl)
@[simp] theorem State.setFb_cc (n : Nat) (x : FbPort) (i : Nat) : (s.setFb n x).cc i = s.cc i := (rfl)
@[simp] theorem State.setFb_chan (n : Nat) (x : FbPort) (i : Nat) : (s.setFb n x).chan i = s.chan i := (rfl)
@[simp] theorem State.setFb_group (n : Nat) (x : FbPort) (i : Nat) : (s.setFb n x).group i = s.group i := (rfl)
@[simp] theorem State.setFb_window (n : Nat) (x : FbPort) (i : Nat) : (s.setFb n x).window i = s.window i := (rfl)
@[simp] theorem State.setFb_stream (n : Nat) (x : FbPort) (i : Nat) : (s.setFb n x).stream i = s.stream i := (rfl)
@[simp] theorem State.setFb_host (n : Nat) (x : FbPort) (i : Nat) : (s.setFb n x).host i = s.host i := (rfl)
@[simp] theorem State.setFb_swap (n : Nat) (x : FbPort) (i : Nat) : (s.setFb n x).swap i = s.swap i := (rfl)
@[simp] theorem State.setFb_engine (n : Nat) (x : FbPort) (i : Nat) : (s.setFb n x).engine i = s.engine i := (rfl)
@[simp] theorem State.setFb_pr (n : Nat) (x : FbPort) (i : Nat) : (s.setFb n x).pr i = s.pr i := (rfl)
@[simp] theorem State.setFb_line (n : Nat) (x : FbPort) (i : Nat) : (s.setFb n x).line i = s.line i := (rfl)
@[simp] theorem State.setFb_dec (n : Nat) (x : FbPort) (i : Nat) : (s.setFb n x).dec i = s.dec i := (rfl)
@[simp] theorem State.setFb_pco (n : Nat) (x : FbPort) (i : Nat) : (s.setFb n x).pco i = s.pco i := (rfl)
@[simp] theorem State.setFb_csp (n : Nat) (x : FbPort) (i : Nat) : (s.setFb n x).csp i = s.csp i := (rfl)
@[simp] theorem State.setFb_eth (n : Nat) (x : FbPort) (i : Nat) : (s.setFb n x).eth i = s.eth i := (rfl)

/-! ### setLine -/

@[simp] theorem State.setLine_rd (n : Nat) (x : Line) (i : Nat) : (s.setLine n x).rd i = s.rd i := (rfl)
@[simp] theorem State.setLine_get (n : Nat) (x : Line) (g : Fld) : (s.setLine n x).get g = s.get g := (rfl)
@[simp] theorem State.setLine_geti (n : Nat) (x : Line) (g : Fld) : (s.setLine n x).geti g = s.geti g := (rfl)
@[simp] theorem State.setLine_bit (n : Nat) (x : Line) (g : Fld) : (s.setLine n x).bit g = s.bit g := (rfl)
@[simp] theorem State.setLine_up (n : Nat) (x : Line) : (s.setLine n x).up = s.up := (rfl)
@[simp] theorem State.setLine_rdByte (n : Nat) (x : Line) (i : Nat) : (s.setLine n x).rdByte i = s.rdByte i := (rfl)
@[simp] theorem State.setLine_gen (n : Nat) (x : Line) (i : Nat) : (s.setLine n x).gen i = s.gen i := (rfl)
@[simp] theorem State.setLine_cc (n : Nat) (x : Line) (i : Nat) : (s.setLine n x).cc i = s.cc i := (rfl)
@[simp] theorem State.setLine_chan (n : Nat) (x : Line) (i : Nat) : (s.setLine n x).chan i = s.chan i := (rfl)
@[simp] theorem State.setLine_group (n : Nat) (x : Line) (i : Nat) : (s.setLine n x).group i = s.group i := (rfl)
@[simp] theorem State.setLine_window (n : Nat) (x : Line) (i : Nat) : (s.setLine n x).window i = s.window i := (rfl)
@[simp] theorem State.setLine_stream (n : Nat) (x : Line) (i : Nat) : (s.setLine n x).stream i = s.stream i := (rfl)
@[simp] theorem State.setLine_host (n : Nat) (x : Line) (i : Nat) : (s.setLine n x).host i = s.host i := (rfl)
@[simp] theorem State.setLine_swap (n : Nat) (x : Line) (i : Nat) : (s.setLine n x).swap i = s.swap i := (rfl)
@[simp] theorem State.setLine_engine (n : Nat) (x : Line) (i : Nat) : (s.setLine n x).engine i = s.engine i := (rfl)
@[simp] theorem State.setLine_pr (n : Nat) (x : Line) (i : Nat) : (s.setLine n x).pr i = s.pr i := (rfl)
@[simp] theorem State.setLine_fb (n : Nat) (x : Line) (i : Nat) : (s.setLine n x).fb i = s.fb i := (rfl)
@[simp] theorem State.setLine_dec (n : Nat) (x : Line) (i : Nat) : (s.setLine n x).dec i = s.dec i := (rfl)
@[simp] theorem State.setLine_pco (n : Nat) (x : Line) (i : Nat) : (s.setLine n x).pco i = s.pco i := (rfl)
@[simp] theorem State.setLine_csp (n : Nat) (x : Line) (i : Nat) : (s.setLine n x).csp i = s.csp i := (rfl)
@[simp] theorem State.setLine_eth (n : Nat) (x : Line) (i : Nat) : (s.setLine n x).eth i = s.eth i := (rfl)

/-! ### setDec -/

@[simp] theorem State.setDec_rd (n : Nat) (x : Dec) (i : Nat) : (s.setDec n x).rd i = s.rd i := (rfl)
@[simp] theorem State.setDec_get (n : Nat) (x : Dec) (g : Fld) : (s.setDec n x).get g = s.get g := (rfl)
@[simp] theorem State.setDec_geti (n : Nat) (x : Dec) (g : Fld) : (s.setDec n x).geti g = s.geti g := (rfl)
@[simp] theorem State.setDec_bit (n : Nat) (x : Dec) (g : Fld) : (s.setDec n x).bit g = s.bit g := (rfl)
@[simp] theorem State.setDec_up (n : Nat) (x : Dec) : (s.setDec n x).up = s.up := (rfl)
@[simp] theorem State.setDec_rdByte (n : Nat) (x : Dec) (i : Nat) : (s.setDec n x).rdByte i = s.rdByte i := (rfl)
@[simp] theorem State.setDec_gen (n : Nat) (x : Dec) (i : Nat) : (s.setDec n x).gen i = s.gen i := (rfl)
@[simp] theorem State.setDec_cc (n : Nat) (x : Dec) (i : Nat) : (s.setDec n x).cc i = s.cc i := (rfl)
@[simp] theorem State.setDec_chan (n : Nat) (x : Dec) (i : Nat) : (s.setDec n x).chan i = s.chan i := (rfl)
@[simp] theorem State.setDec_group (n : Nat) (x : Dec) (i : Nat) : (s.setDec n x).group i = s.group i := (rfl)
@[simp] theorem State.setDec_window (n : Nat) (x : Dec) (i : Nat) : (s.setDec n x).window i = s.window i := (rfl)
@[simp] theorem State.setDec_stream (n : Nat) (x : Dec) (i : Nat) : (s.setDec n x).stream i = s.stream i := (rfl)
@[simp] theorem State.setDec_host (n : Nat) (x : Dec) (i : Nat) : (s.setDec n x).host i = s.host i := (rfl)
@[simp] theorem State.setDec_swap (n : Nat) (x : Dec) (i : Nat) : (s.setDec n x).swap i = s.swap i := (rfl)
@[simp] theorem State.setDec_engine (n : Nat) (x : Dec) (i : Nat) : (s.setDec n x).engine i = s.engine i := (rfl)
@[simp] theorem State.setDec_pr (n : Nat) (x : Dec) (i : Nat) : (s.setDec n x).pr i = s.pr i := (rfl)
@[simp] theorem State.setDec_fb (n : Nat) (x : Dec) (i : Nat) : (s.setDec n x).fb i = s.fb i := (rfl)
@[simp] theorem State.setDec_line (n : Nat) (x : Dec) (i : Nat) : (s.setDec n x).line i = s.line i := (rfl)
@[simp] theorem State.setDec_pco (n : Nat) (x : Dec) (i : Nat) : (s.setDec n x).pco i = s.pco i := (rfl)
@[simp] theorem State.setDec_csp (n : Nat) (x : Dec) (i : Nat) : (s.setDec n x).csp i = s.csp i := (rfl)
@[simp] theorem State.setDec_eth (n : Nat) (x : Dec) (i : Nat) : (s.setDec n x).eth i = s.eth i := (rfl)

/-! ### setPco -/

@[simp] theorem State.setPco_rd (n : Nat) (x : Pco) (i : Nat) : (s.setPco n x).rd i = s.rd i := (rfl)
@[simp] theorem State.setPco_get (n : Nat) (x : Pco) (g : Fld) : (s.setPco n x).get g = s.get g := (rfl)
@[simp] theorem State.setPco_geti (n : Nat) (x : Pco) (g : Fld) : (s.setPco n x).geti g = s.geti g := (rfl)
@[simp] theorem State.setPco_bit (n : Nat) (x : Pco) (g : Fld) : (s.setPco n x).bit g = s.bit g := (rfl)
@[simp] theorem State.setPco_up (n : Nat) (x : Pco) : (s.setPco n x).up = s.up := (rfl)
@[simp] theorem State.setPco_rdByte (n : Nat) (x : Pco) (i : Nat) : (s.setPco n x).rdByte i = s.rdByte i := (rfl)
@[simp] theorem State.setPco_gen (n : Nat) (x : Pco) (i : Nat) : (s.setPco n x).gen i = s.gen i := (rfl)
@[simp] theorem State.setPco_cc (n : Nat) (x : Pco) (i : Nat) : (s.setPco n x).cc i = s.cc i := (rfl)
@[simp] theorem State.setPco_chan (n : Nat) (x : Pco) (i : Nat) : (s.setPco n x).chan i = s.chan i := (rfl)
@[simp] theorem State.setPco_group (n : Nat) (x : Pco) (i : Nat) : (s.setPco n x).group i = s.group i := (rfl)
@[simp] theorem State.setPco_window (n : Nat) (x : Pco) (i : Nat) : (s.setPco n x).window i = s.window i := (rfl)
@[simp] theorem State.setPco_stream (n : Nat) (x : Pco) (i : Nat) : (s.setPco n x).stream i = s.stream i := (rfl)
@[simp] theorem State.setPco_host (n : Nat) (x : Pco) (i : Nat) : (s.setPco n x).host i = s.host i := (rfl)
@[simp] theorem State.setPco_swap (n : Nat) (x : Pco) (i : Nat) : (s.setPco n x).swap i = s.swap i := (rfl)
@[simp] theorem State.setPco_engine (n : Nat) (x : Pco) (i : Nat) : (s.setPco n x).engine i = s.engine i := (rfl)
@[simp] theorem State.setPco_pr (n : Nat) (x : Pco) (i : Nat) : (s.setPco n x).pr i = s.pr i := (rfl)
@[simp] theorem State.setPco_fb (n : Nat) (x : Pco) (i : Nat) : (s.setPco n x).fb i = s.fb i := (rfl)
@[simp] theorem State.setPco_line (n : Nat) (x : Pco) (i : Nat) : (s.setPco n x).line i = s.line i := (rfl)
@[simp] theorem State.setPco_dec (n : Nat) (x : Pco) (i : Nat) : (s.setPco n x).dec i = s.dec i := (rfl)
@[simp] theorem State.setPco_csp (n : Nat) (x : Pco) (i : Nat) : (s.setPco n x).csp i = s.csp i := (rfl)
@[simp] theorem State.setPco_eth (n : Nat) (x : Pco) (i : Nat) : (s.setPco n x).eth i = s.eth i := (rfl)

/-! ### setCsp -/

@[simp] theorem State.setCsp_rd (n : Nat) (x : Csp) (i : Nat) : (s.setCsp n x).rd i = s.rd i := (rfl)
@[simp] theorem State.setCsp_get (n : Nat) (x : Csp) (g : Fld) : (s.setCsp n x).get g = s.get g := (rfl)
@[simp] theorem State.setCsp_geti (n : Nat) (x : Csp) (g : Fld) : (s.setCsp n x).geti g = s.geti g := (rfl)
@[simp] theorem State.setCsp_bit (n : Nat) (x : Csp) (g : Fld) : (s.setCsp n x).bit g = s.bit g := (rfl)
@[simp] theorem State.setCsp_up (n : Nat) (x : Csp) : (s.setCsp n x).up = s.up := (rfl)
@[simp] theorem State.setCsp_rdByte (n : Nat) (x : Csp) (i : Nat) : (s.setCsp n x).rdByte i = s.rdByte i := (rfl)
@[simp] theorem State.setCsp_gen (n : Nat) (x : Csp) (i : Nat) : (s.setCsp n x).gen i = s.gen i := (rfl)
@[simp] theorem State.setCsp_cc (n : Nat) (x : Csp) (i : Nat) : (s.setCsp n x).cc i = s.cc i := (rfl)
@[simp] theorem State.setCsp_chan (n : Nat) (x : Csp) (i : Nat) : (s.setCsp n x).chan i = s.chan i := (rfl)
@[simp] theorem State.setCsp_group (n : Nat) (x : Csp) (i : Nat) : (s.setCsp n x).group i = s.group i := (rfl)
@[simp] theorem State.setCsp_window (n : Nat) (x : Csp) (i : Nat) : (s.setCsp n x).window i = s.window i := (rfl)
@[simp] theorem State.setCsp_stream (n : Nat) (x : Csp) (i : Nat) : (s.setCsp n x).stream i = s.stream i := (rfl)
@[simp] theorem State.setCsp_host (n : Nat) (x : Csp) (i : Nat) : (s.setCsp n x).host i = s.host i := (rfl)
@[simp] theorem State.setCsp_swap (n : Nat) (x : Csp) (i : Nat) : (s.setCsp n x).swap i = s.swap i := (rfl)
@[simp] theorem State.setCsp_engine (n : Nat) (x : Csp) (i : Nat) : (s.setCsp n x).engine i = s.engine i := (rfl)
@[simp] theorem State.setCsp_pr (n : Nat) (x : Csp) (i : Nat) : (s.setCsp n x).pr i = s.pr i := (rfl)
@[simp] theorem State.setCsp_fb (n : Nat) (x : Csp) (i : Nat) : (s.setCsp n x).fb i = s.fb i := (rfl)
@[simp] theorem State.setCsp_line (n : Nat) (x : Csp) (i : Nat) : (s.setCsp n x).line i = s.line i := (rfl)
@[simp] theorem State.setCsp_dec (n : Nat) (x : Csp) (i : Nat) : (s.setCsp n x).dec i = s.dec i := (rfl)
@[simp] theorem State.setCsp_pco (n : Nat) (x : Csp) (i : Nat) : (s.setCsp n x).pco i = s.pco i := (rfl)
@[simp] theorem State.setCsp_eth (n : Nat) (x : Csp) (i : Nat) : (s.setCsp n x).eth i = s.eth i := (rfl)

/-! ### setEth -/

@[simp] theorem State.setEth_rd (n : Nat) (x : EthPort) (i : Nat) : (s.setEth n x).rd i = s.rd i := (rfl)
@[simp] theorem State.setEth_get (n : Nat) (x : EthPort) (g : Fld) : (s.setEth n x).get g = s.get g := (rfl)
@[simp] theorem State.setEth_geti (n : Nat) (x : EthPort) (g : Fld) : (s.setEth n x).geti g = s.geti g := (rfl)
@[simp] theorem State.setEth_bit (n : Nat) (x : EthPort) (g : Fld) : (s.setEth n x).bit g = s.bit g := (rfl)
@[simp] theorem State.setEth_up (n : Nat) (x : EthPort) : (s.setEth n x).up = s.up := (rfl)
@[simp] theorem State.setEth_rdByte (n : Nat) (x : EthPort) (i : Nat) : (s.setEth n x).rdByte i = s.rdByte i := (rfl)
@[simp] theorem State.setEth_gen (n : Nat) (x : EthPort) (i : Nat) : (s.setEth n x).gen i = s.gen i := (rfl)
@[simp] theorem State.setEth_cc (n : Nat) (x : EthPort) (i : Nat) : (s.setEth n x).cc i = s.cc i := (rfl)
@[simp] theorem State.setEth_chan (n : Nat) (x : EthPort) (i : Nat) : (s.setEth n x).chan i = s.chan i := (rfl)
@[simp] theorem State.setEth_group (n : Nat) (x : EthPort) (i : Nat) : (s.setEth n x).group i = s.group i := (rfl)
@[simp] theorem State.setEth_window (n : Nat) (x : EthPort) (i : Nat) : (s.setEth n x).window i = s.window i := (rfl)
@[simp] theorem State.setEth_stream (n : Nat) (x : EthPort) (i : Nat) : (s.setEth n x).stream i = s.stream i := (rfl)
@[simp] theorem State.setEth_host (n : Nat) (x : EthPort) (i : Nat) : (s.setEth n x).host i = s.host i := (rfl)
@[simp] theorem State.setEth_swap (n : Nat) (x : EthPort) (i : Nat) : (s.setEth n x).swap i = s.swap i := (rfl)
@[simp] theorem State.setEth_engine (n : Nat) (x : EthPort) (i : Nat) : (s.setEth n x).engine i = s.engine i := (rfl)
@[simp] theorem State.setEth_pr (n : Nat) (x : EthPort) (i : Nat) : (s.setEth n x).pr i = s.pr i := (rfl)
@[simp] theorem State.setEth_fb (n : Nat) (x : EthPort) (i : Nat) : (s.setEth n x).fb i = s.fb i := (rfl)
@[simp] theorem State.setEth_line (n : Nat) (x : EthPort) (i : Nat) : (s.setEth n x).line i = s.line i := (rfl)
@[simp] theorem State.setEth_dec (n : Nat) (x : EthPort) (i : Nat) : (s.setEth n x).dec i = s.dec i := (rfl)
@[simp] theorem State.setEth_pco (n : Nat) (x : EthPort) (i : Nat) : (s.setEth n x).pco i = s.pco i := (rfl)
@[simp] theorem State.setEth_csp (n : Nat) (x : EthPort) (i : Nat) : (s.setEth n x).csp i = s.csp i := (rfl)

/-! ### modGen -/

@[simp] theorem State.modGen_rd (n : Nat) (f : Gen → Gen) (i : Nat) : (s.modGen n f).rd i = s.rd i := (rfl)
@[simp] theorem State.modGen_get (n : Nat) (f : Gen → Gen) (g : Fld) : (s.modGen n f).get g = s.get g := (rfl)
@[simp] theorem State.modGen_geti (n : Nat) (f : Gen → Gen) (g : Fld) : (s.modGen n f).geti g = s.geti g := (rfl)
@[simp] theorem State.modGen_bit (n : Nat) (f : Gen → Gen) (g : Fld) : (s.modGen n f).bit g = s.bit g := (rfl)
@[simp] theorem State.modGen_up (n : Nat) (f : Gen → Gen) : (s.modGen n f).up = s.up := (rfl)
@[simp] theorem State.modGen_rdByte (n : Nat) (f : Gen → Gen) (i : Nat) : (s.modGen n f).rdByte i = s.rdByte i := (rfl)
@[simp] theorem State.modGen_cc (n : Nat) (f : Gen → Gen) (i : Nat) : (s.modGen n f).cc i = s.cc i := (rfl)
@[simp] theorem State.modGen_chan (n : Nat) (f : Gen → Gen) (i : Nat) : (s.modGen n f).chan i = s.chan i := (rfl)
@[simp] theorem State.modGen_group (n : Nat) (f : Gen → Gen) (i : Nat) : (s.modGen n f).group i = s.group i := (rfl)
@[simp] theorem State.modGen_window (n : Nat) (f : Gen → Gen) (i : Nat) : (s.modGen n f).window i = s.window i := (rfl)
@[simp] theorem State.modGen_stream (n : Nat) (f : Gen → Gen) (i : Nat) : (s.modGen n f).stream i = s.stream i := (rfl)
@[simp] theorem State.modGen_host (n : Nat) (f : Gen → Gen) (i : Nat) : (s.modGen n f).host i = s.host i := (rfl)
@[simp] theorem State.modGen_swap (n : Nat) (f : Gen → Gen) (i : Nat) : (s.modGen n f).swap i = s.swap i := (rfl)
@[simp] theorem State.modGen_engine (n : Nat) (f : Gen → Gen) (i : Nat) : (s.modGen n f).engine i = s.engine i := (rfl)
@[simp] theorem State.modGen_pr (n : Nat) (f : Gen → Gen) (i : Nat) : (s.modGen n f).pr i = s.pr i := (rfl)
@[simp] theorem State.modGen_fb (n : Nat) (f : Gen → Gen) (i : Nat) : (s.modGen n f).fb i = s.fb i := (rfl)
@[simp] theorem State.modGen_line (n : Nat) (f : Gen → Gen) (i : Nat) : (s.modGen n f).line i = s.line i := (rfl)
@[simp] theorem State.modGen_dec (n : Nat) (f : Gen → Gen) (i : Nat) : (s.modGen n f).dec i = s.dec i := (rfl)
@[simp] theorem State.modGen_pco (n : Nat) (f : Gen → Gen) (i : Nat) : (s.modGen n f).pco i = s.pco i := (rfl)
@[simp] theorem State.modGen_csp (n : Nat) (f : Gen → Gen) (i : Nat) : (s.modGen n f).csp i = s.csp i := (rfl)
@[simp] theorem State.modGen_eth (n : Nat) (f : Gen → Gen) (i : Nat) : (s.modGen n f).eth i = s.eth i := (rfl)

/-! ### modCc -/

@[simp] theorem State.modCc_rd (n : Nat) (f : Cc → Cc) (i : Nat) : (s.modCc n f).rd i = s.rd i := (rfl)
@[simp] theorem State.modCc_get (n : Nat) (f : Cc → Cc) (g : Fld) : (s.modCc n f).get g = s.get g := (rfl)
@[simp] theorem State.modCc_geti (n : Nat) (f : Cc → Cc) (g : Fld) : (s.modCc n f).geti g = s.geti g := (rfl)
@[simp] theorem State.modCc_bit (n : Nat) (f : Cc → Cc) (g : Fld) : (s.modCc n f).bit g = s.bit g := (rfl)
@[simp] theorem State.modCc_up (n : Nat) (f : Cc → Cc) : (s.modCc n f).up = s.up := (rfl)
@[simp] theorem State.modCc_rdByte (n : Nat) (f : Cc → Cc) (i : Nat) : (s.modCc n f).rdByte i = s.rdByte i := (rfl)
@[simp] theorem State.modCc_gen (n : Nat) (f : Cc → Cc) (i : Nat) : (s.modCc n f).gen i = s.gen i := (rfl)
@[simp] theorem State.modCc_chan (n : Nat) (f : Cc → Cc) (i : Nat) : (s.modCc n f).chan i = s.chan i := (rfl)
@[simp] theorem State.modCc_group (n : Nat) (f : Cc → Cc) (i : Nat) : (s.modCc n f).group i = s.group i := (rfl)
@[simp] theorem State.modCc_window (n : Nat) (f : Cc → Cc) (i : Nat) : (s.modCc n f).window i = s.window i := (rfl)
@[simp] theorem State.modCc_stream (n : Nat) (f : Cc → Cc) (i : Nat) : (s.modCc n f).stream i = s.stream i := (rfl)
@[simp] theorem State.modCc_host (n : Nat) (f : Cc → Cc) (i : Nat) : (s.modCc n f).host i = s.host i := (rfl)
@[simp] theorem State.modCc_swap (n : Nat) (f : Cc → Cc) (i : Nat) : (s.modCc n f).swap i = s.swap i := (rfl)
@[simp] theorem State.modCc_engine (n : Nat) (f : Cc → Cc) (i : Nat) : (s.modCc n f).engine i = s.engine i := (rfl)
@[simp] theorem State.modCc_pr (n : Nat) (f : Cc → Cc) (i : Nat) : (s.modCc n f).pr i = s.pr i := (rfl)
@[simp] theorem State.modCc_fb (n : Nat) (f : Cc → Cc) (i : Nat) : (s.modCc n f).fb i = s.fb i := (rfl)
@[simp] theorem State.modCc_line (n : Nat) (f : Cc → Cc) (i : Nat) : (s.modCc n f).line i = s.line i := (rfl)
@[simp] theorem State.modCc_dec (n : Nat) (f : Cc → Cc) (i : Nat) : (s.modCc n f).dec i = s.dec i := (rfl)
@[simp] theorem State.modCc_pco (n : Nat) (f : Cc → Cc) (i : Nat) : (s.modCc n f).pco i = s.pco i := (rfl)
@[simp] theorem State.modCc_csp (n : Nat) (f : Cc → Cc) (i : Nat) : (s.modCc n f).csp i = s.csp i := (rfl)
@[simp] theorem State.modCc_eth (n : Nat) (f : Cc → Cc) (i : Nat) : (s.modCc n f).eth i = s.eth i := (rfl)

/-! ### modChan -/

@[simp] theorem State.modChan_rd (n : Nat) (f : PwmChan → PwmChan) (i : Nat) : (s.modChan n f).rd i = s.rd i := (rfl)
@[simp] theorem State.modChan_get (n : Nat) (f : PwmChan → PwmChan) (g : Fld) : (s.modChan n f).get g = s.get g := (rfl)
@[simp] theorem State.modChan_geti (n : Nat) (f : PwmChan → PwmChan) (g : Fld) : (s.modChan n f).geti g = s.geti g := (rfl)
@[simp] theorem State.modChan_bit (n : Nat) (f : PwmChan → PwmChan) (g : Fld) : (s.modChan n f).bit g = s.bit g := (rfl)
@[simp] theorem State.modChan_up (n : Nat) (f : PwmChan → PwmChan) : (s.modChan n f).up = s.up := (rfl)
@[simp] theorem State.modChan_rdByte (n : Nat) (f : PwmChan → PwmChan) (i : Nat) : (s.modChan n f).rdByte i = s.rdByte i := (rfl)
@[simp] theorem State.modChan_gen (n : Nat) (f : PwmChan → PwmChan) (i : Nat) : (s.modChan n f).gen i = s.gen i := (rfl)
@[simp] theorem State.modChan_cc (n : Nat) (f : PwmChan → PwmChan) (i : Nat) : (s.modChan n f).cc i = s.cc i := (rfl)
@[simp] theorem State.modChan_group (n : Nat) (f : PwmChan → PwmChan) (i : Nat) : (s.modChan n f).group i = s.group i := (rfl)
@[simp] theorem State.modChan_window (n : Nat) (f : PwmChan → PwmChan) (i : Nat) : (s.modChan n f).window i = s.window i := (rfl)
@[simp] theorem State.modChan_stream (n : Nat) (f : PwmChan → PwmChan) (i : Nat) : (s.modChan n f).stream i = s.stream i := (rfl)
@[simp] theorem State.modChan_host (n : Nat) (f : PwmChan → PwmChan) (i : Nat) : (s.modChan n f).host i = s.host i := (rfl)
@[simp] theorem State.modChan_swap (n : Nat) (f : PwmChan → PwmChan) (i : Nat) : (s.modChan n f).swap i = s.swap i := (rfl)
@[simp] theorem State.modChan_engine (n : Nat) (f : PwmChan → PwmChan) (i : Nat) : (s.modChan n f).engine i = s.engine i := (rfl)
@[simp] theorem State.modChan_pr (n : Nat) (f : PwmChan → PwmChan) (i : Nat) : (s.modChan n f).pr i = s.pr i := (rfl)
@[simp] theorem State.modChan_fb (n : Nat) (f : PwmChan → PwmChan) (i : Nat) : (s.modChan n f).fb i = s.fb i := (rfl)
@[simp] theorem State.modChan_line (n : Nat) (f : PwmChan → PwmChan) (i : Nat) : (s.modChan n f).line i = s.line i := (rfl)
@[simp] theorem State.modChan_dec (n : Nat) (f : PwmChan → PwmChan) (i : Nat) : (s.modChan n f).dec i = s.dec i := (rfl)
@[simp] theorem State.modChan_pco (n : Nat) (f : PwmChan → PwmChan) (i : Nat) : (s.modChan n f).pco i = s.pco i := (rfl)
@[simp] theorem State.modChan_csp (n : Nat) (f : PwmChan → PwmChan) (i : Nat) : (s.modChan n f).csp i = s.csp i := (rfl)
@[simp] theorem State.modChan_eth (n : Nat) (f : PwmChan → PwmChan) (i : Nat) : (s.modChan n f).eth i = s.eth i := (rfl)

/-! ### modStream -/

@[simp] theorem State.modStream_rd (n : Nat) (f : Stream → Stream) (i : Nat) : (s.modStream n f).rd i = s.rd i := (rfl)
@[simp] theorem State.modStream_get (n : Nat) (f : Stream → Stream) (g : Fld) : (s.modStream n f).get g = s.get g := (rfl)
@[simp] theorem State.modStream_geti (n : Nat) (f : Stream → Stream) (g : Fld) : (s.modStream n f).geti g = s.geti g := (rfl)
@[simp] theorem State.modStream_bit (n : Nat) (f : Stream → Stream) (g : Fld) : (s.modStream n f).bit g = s.bit g := (rfl)
@[simp] theorem State.modStream_up (n : Nat) (f : Stream → Stream) : (s.modStream n f).up = s.up := (rfl)
@[simp] theorem State.modStream_rdByte (n : Nat) (f : Stream → Stream) (i : Nat) : (s.modStream n f).rdByte i = s.rdByte i := (rfl)
@[simp] theorem State.modStream_gen (n : Nat) (f : Stream → Stream) (i : Nat) : (s.modStream n f).gen i = s.gen i := (rfl)
@[simp] theorem State.modStream_cc (n : Nat) (f : Stream → Stream) (i : Nat) : (s.modStream n f).cc i = s.cc i := (rfl)
@[simp] theorem State.modStream_chan (n : Nat) (f : Stream → Stream) (i : Nat) : (s.modStream n f).chan i = s.chan i := (rfl)
@[simp] theorem State.modStream_group (n : Nat) (f : Stream → Stream) (i : Nat) : (s.modStream n f).group i = s.group i := (rfl)
@[simp] theorem State.modStream_window (n : Nat) (f : Stream → Stream) (i : Nat) : (s.modStream n f).window i = s.window i := (rfl)
@[simp] theorem State.modStream_host (n : Nat) (f : Stream → Stream) (i : Nat) : (s.modStream n f).host i = s.host i := (rfl)
@[simp] theorem State.modStream_swap (n : Nat) (f : Stream → Stream) (i : Nat) : (s.modStream n f).swap i = s.swap i := (rfl)
@[simp] theorem State.modStream_engine (n : Nat) (f : Stream → Stream) (i : Nat) : (s.modStream n f).engine i = s.engine i := (rfl)
@[simp] theorem State.modStream_pr (n : Nat) (f : Stream → Stream) (i : Nat) : (s.modStream n f).pr i = s.pr i := (rfl)
@[simp] theorem State.modStream_fb (n : Nat) (f : Stream → Stream) (i : Nat) : (s.modStream n f).fb i = s.fb i := (rfl)
@[simp] theorem State.modStream_line (n : Nat) (f : Stream → Stream) (i : Nat) : (s.modStream n f).line i = s.line i := (rfl)
@[simp] theorem State.modStream_dec (n : Nat) (f : Stream → Stream) (i : Nat) : (s.modStream n f).dec i = s.dec i := (rfl)
@[simp] theorem State.modStream_pco (n : Nat) (f : Stream → Stream) (i : Nat) : (s.modStream n f).pco i = s.pco i := (rfl)
@[simp] theorem State.modStream_csp (n : Nat) (f : Stream → Stream) (i : Nat) : (s.modStream n f).csp i = s.csp i := (rfl)
@[simp] theorem State.modStream_eth (n : Nat) (f : Stream → Stream) (i : Nat) : (s.modStream n f).eth i = s.eth i := (rfl)

/-! ### modHost -/

@[simp] theorem State.modHost_rd (n : Nat) (f : HostSt → HostSt) (i : Nat) : (s.modHost n f).rd i = s.rd i := (rfl)
@[simp] theorem State.modHost_get (n : Nat) (f : HostSt → HostSt) (g : Fld) : (s.modHost n f).get g = s.get g := (rfl)
@[simp] theorem State.modHost_geti (n : Nat) (f : HostSt → HostSt) (g : Fld) : (s.modHost n f).geti g = s.geti g := (rfl)
@[simp] theorem State.modHost_bit (n : Nat) (f : HostSt → HostSt) (g : Fld) : (s.modHost n f).bit g = s.bit g := (rfl)
@[simp] theorem State.modHost_up (n : Nat) (f : HostSt → HostSt) : (s.modHost n f).up = s.up := (rfl)
@[simp] theorem State.modHost_rdByte (n : Nat) (f : HostSt → HostSt) (i : Nat) : (s.modHost n f).rdByte i = s.rdByte i := (rfl)
@[simp] theorem State.modHost_gen (n : Nat) (f : HostSt → HostSt) (i : Nat) : (s.modHost n f).gen i = s.gen i := (rfl)
@[simp] theorem State.modHost_cc (n : Nat) (f : HostSt → HostSt) (i : Nat) : (s.modHost n f).cc i = s.cc i := (rfl)
@[simp] theorem State.modHost_chan (n : Nat) (f : HostSt → HostSt) (i : Nat) : (s.modHost n f).chan i = s.chan i := (rfl)
@[simp] theorem State.modHost_group (n : Nat) (f : HostSt → HostSt) (i : Nat) : (s.modHost n f).group i = s.group i := (rfl)
@[simp] theorem State.modHost_window (n : Nat) (f : HostSt → HostSt) (i : Nat) : (s.modHost n f).window i = s.window i := (rfl)
@[simp] theorem State.modHost_stream (n : Nat) (f : HostSt → HostSt) (i : Nat) : (s.modHost n f).stream i = s.stream i := (rfl)
@[simp] theorem State.modHost_swap (n : Nat) (f : HostSt → HostSt) (i : Nat) : (s.modHost n f).swap i = s.swap i := (rfl)
@[simp] theorem State.modHost_engine (n : Nat) (f : HostSt → HostSt) (i : Nat) : (s.modHost n f).engine i = s.engine i := (rfl)
@[simp] theorem State.modHost_pr (n : Nat) (f : HostSt → HostSt) (i : Nat) : (s.modHost n f).pr i = s.pr i := (rfl)
@[simp] theorem State.modHost_fb (n : Nat) (f : HostSt → HostSt) (i : Nat) : (s.modHost n f).fb i = s.fb i := (rfl)
@[simp] theorem State.modHost_line (n : Nat) (f : HostSt → HostSt) (i : Nat) : (s.modHost n f).line i = s.line i := (rfl)
@[simp] theorem State.modHost_dec (n : Nat) (f : HostSt → HostSt) (i : Nat) : (s.modHost n f).dec i = s.dec i := (rfl)
@[simp] theorem State.modHost_pco (n : Nat) (f : HostSt → HostSt) (i : Nat) : (s.modHost n f).pco i = s.pco i := (rfl)
@[simp] theorem State.modHost_csp (n : Nat) (f : HostSt → HostSt) (i : Nat) : (s.modHost n f).csp i = s.csp i := (rfl)
@[simp] theorem State.modHost_eth (n : Nat) (f : HostSt → HostSt) (i : Nat) : (s.modHost n f).eth i = s.eth i := (rfl)

/-! ### modSwap -/

@[simp] theorem State.modSwap_rd (n : Nat) (f : Swap → Swap) (i : Nat) : (s.modSwap n f).rd i = s.rd i := (rfl)
@[simp] theorem State.modSwap_get (n : Nat) (f : Swap → Swap) (g : Fld) : (s.modSwap n f).get g = s.get g := (rfl)
@[simp] theorem State.modSwap_geti (n : Nat) (f : Swap → Swap) (g : Fld) : (s.modSwap n f).geti g = s.geti g := (rfl)
@[simp] theorem State.modSwap_bit (n : Nat) (f : Swap → Swap) (g : Fld) : (s.modSwap n f).bit g = s.bit g := (rfl)
@[simp] theorem State.modSwap_up (n : Nat) (f : Swap → Swap) : (s.modSwap n f).up = s.up := (rfl)
@[simp] theorem State.modSwap_rdByte (n : Nat) (f : Swap → Swap) (i : Nat) : (s.modSwap n f).rdByte i = s.rdByte i := (rfl)
@[simp] theorem State.modSwap_gen (n : Nat) (f : Swap → Swap) (i : Nat) : (s.modSwap n f).gen i = s.gen i := (rfl)
@[simp] theorem State.modSwap_cc (n : Nat) (f : Swap → Swap) (i : Nat) : (s.modSwap n f).cc i = s.cc i := (rfl)
@[simp] theorem State.modSwap_chan (n : Nat) (f : Swap → Swap) (i : Nat) : (s.modSwap n f).chan i = s.chan i := (rfl)
@[simp] theorem State.modSwap_group (n : Nat) (f : Swap → Swap) (i : Nat) : (s.modSwap n f).group i = s.group i := (rfl)
@[simp] theorem State.modSwap_window (n : Nat) (f : Swap → Swap) (i : Nat) : (s.modSwap n f).window i = s.window i := (rfl)
@[simp] theorem State.modSwap_stream (n : Nat) (f : Swap → Swap) (i : Nat) : (s.modSwap n f).stream i = s.stream i := (rfl)
@[simp] theorem State.modSwap_host (n : Nat) (f : Swap → Swap) (i : Nat) : (s.modSwap n f).host i = s.host i := (rfl)
@[simp] theorem State.modSwap_engine (n : Nat) (f : Swap → Swap) (i : Nat) : (s.modSwap n f).engine i = s.engine i := (rfl)
@[simp] theorem State.modSwap_pr (n : Nat) (f : Swap → Swap) (i : Nat) : (s.modSwap n f).pr i = s.pr i := (rfl)
@[simp] theorem State.modSwap_fb (n : Nat) (f : Swap → Swap) (i : Nat) : (s.modSwap n f).fb i = s.fb i := (rfl)
@[simp] theorem State.modSwap_line (n : Nat) (f : Swap → Swap) (i : Nat) : (s.modSwap n f).line i = s.line i := (rfl)
@[simp] theorem State.modSwap_dec (n : Nat) (f : Swap → Swap) (i : Nat) : (s.modSwap n f).dec i = s.dec i := (rfl)
@[simp] theorem State.modSwap_pco (n : Nat) (f : Swap → Swap) (i : Nat) : (s.modSwap n f).pco i = s.pco i := (rfl)
@[simp] theorem State.modSwap_csp (n : Nat) (f : Swap → Swap) (i : Nat) : (s.modSwap n f).csp i = s.csp i := (rfl)
@[simp] theorem State.modSwap_eth (n : Nat) (f : Swap → Swap) (i : Nat) : (s.modSwap n f).eth i = s.eth i := (rfl)

/-! ### modEngine -/

@[simp] theorem State.modEngine_rd (n : Nat) (f : Engine → Engine) (i : Nat) : (s.modEngine n f).rd i = s.rd i := (rfl)
@[simp] theorem State.modEngine_get (n : Nat) (f : Engine → Engine) (g : Fld) : (s.modEngine n f).get g = s.get g := (rfl)
@[simp] theorem State.modEngine_geti (n : Nat) (f : Engine → Engine) (g : Fld) : (s.modEngine n f).geti g = s.geti g := (rfl)
@[simp] theorem State.modEngine_bit (n : Nat) (f : Engine → Engine) (g : Fld) : (s.modEngine n f).bit g = s.bit g := (rfl)
@[simp] theorem State.modEngine_up (n : Nat) (f : Engine → Engine) : (s.modEngine n f).up = s.up := (rfl)
@[simp] theorem State.modEngine_rdByte (n : Nat) (f : Engine → Engine) (i : Nat) : (s.modEngine n f).rdByte i = s.rdByte i := (rfl)
@[simp] theorem State.modEngine_gen (n : Nat) (f : Engine → Engine) (i : Nat) : (s.modEngine n f).gen i = s.gen i := (rfl)
@[simp] theorem State.modEngine_cc (n : Nat) (f : Engine → Engine) (i : Nat) : (s.modEngine n f).cc i = s.cc i := (rfl)
@[simp] theorem State.modEngine_chan (n : Nat) (f : Engine → Engine) (i : Nat) : (s.modEngine n f).chan i = s.chan i := (rfl)
@[simp] theorem State.modEngine_group (n : Nat) (f : Engine → Engine) (i : Nat) : (s.modEngine n f).group i = s.group i := (rfl)
@[simp] theorem State.modEngine_window (n : Nat) (f : Engine → Engine) (i : Nat) : (s.modEngine n f).window i = s.window i := (rfl)
@[simp] theorem State.modEngine_stream (n : Nat) (f : Engine → Engine) (i : Nat) : (s.modEngine n f).stream i = s.stream i := (rfl)
@[simp] theorem State.modEngine_host (n : Nat) (f : Engine → Engine) (i : Nat) : (s.modEngine n f).host i = s.host i := (rfl)
@[simp] theorem State.modEngine_swap (n : Nat) (f : Engine → Engine) (i : Nat) : (s.modEngine n f).swap i = s.swap i := (rfl)
@[simp] theorem State.modEngine_pr (n : Nat) (f : Engine → Engine) (i : Nat) : (s.modEngine n f).pr i = s.pr i := (rfl)
@[simp] theorem State.modEngine_fb (n : Nat) (f : Engine → Engine) (i : Nat) : (s.modEngine n f).fb i = s.fb i := (rfl)
@[simp] theorem State.modEngine_line (n : Nat) (f : Engine → Engine) (i : Nat) : (s.modEngine n f).line i = s.line i := (rfl)
@[simp] theorem State.modEngine_dec (n : Nat) (f : Engine → Engine) (i : Nat) : (s.modEngine n f).dec i = s.dec i := (rfl)
@[simp] theorem State.modEngine_pco (n : Nat) (f : Engine → Engine) (i : Nat) : (s.modEngine n f).pco i = s.pco i := (rfl)
@[simp] theorem State.modEngine_csp (n : Nat) (f : Engine → Engine) (i : Nat) : (s.modEngine n f).csp i = s.csp i := (rfl)
@[simp] theorem State.modEngine_eth (n : Nat) (f : Engine → Engine) (i : Nat) : (s.modEngine n f).eth i = s.eth i := (rfl)

/-! ### modPr -/

@[simp] theorem State.modPr_rd (n : Nat) (f : Prusik → Prusik) (i : Nat) : (s.modPr n f).rd i = s.rd i := (rfl)
@[simp] theorem State.modPr_get (n : Nat) (f : Prusik → Prusik) (g : Fld) : (s.modPr n f).get g = s.get g := (rfl)
@[simp] theorem State.modPr_geti (n : Nat) (f : Prusik → Prusik) (g : Fld) : (s.modPr n f).geti g = s.geti g := (rfl)
@[simp] theorem State.modPr_bit (n : Nat) (f : Prusik → Prusik) (g : Fld) : (s.modPr n f).bit g = s.bit g := (rfl)
@[simp] theorem State.modPr_up (n : Nat) (f : Prusik → Prusik) : (s.modPr n f).up = s.up := (rfl)
@[simp] theorem State.modPr_rdByte (n : Nat) (f : Prusik → Prusik) (i : Nat) : (s.modPr n f).rdByte i = s.rdByte i := (rfl)
@[simp] theorem State.modPr_gen (n : Nat) (f : Prusik → Prusik) (i : Nat) : (s.modPr n f).gen i = s.gen i := (rfl)
@[simp] theorem State.modPr_cc (n : Nat) (f : Prusik → Prusik) (i : Nat) : (s.modPr n f).cc i = s.cc i := (rfl)
@[simp] theorem State.modPr_chan (n : Nat) (f : Prusik → Prusik) (i : Nat) : (s.modPr n f).chan i = s.chan i := (rfl)
@[simp] theorem State.modPr_group (n : Nat) (f : Prusik → Prusik) (i : Nat) : (s.modPr n f).group i = s.group i := (rfl)
@[simp] theorem State.modPr_window (n : Nat) (f : Prusik → Prusik) (i : Nat) : (s.modPr n f).window i = s.window i := (rfl)
@[simp] theorem State.modPr_stream (n : Nat) (f : Prusik → Prusik) (i : Nat) : (s.modPr n f).stream i = s.stream i := (rfl)
@[simp] theorem State.modPr_host (n : Nat) (f : Prusik → Prusik) (i : Nat) : (s.modPr n f).host i = s.host i := (rfl)
@[simp] theorem State.modPr_swap (n : Nat) (f : Prusik → Prusik) (i : Nat) : (s.modPr n f).swap i = s.swap i := (rfl)
@[simp] theorem State.modPr_engine (n : Nat) (f : Prusik → Prusik) (i : Nat) : (s.modPr n f).engine i = s.engine i := (rfl)
@[simp] theorem State.modPr_fb (n : Nat) (f : Prusik → Prusik) (i : Nat) : (s.modPr n f).fb i = s.fb i := (rfl)
@[simp] theorem State.modPr_line (n : Nat) (f : Prusik → Prusik) (i : Nat) : (s.modPr n f).line i = s.line i := (rfl)
@[simp] theorem State.modPr_dec (n : Nat) (f : Prusik → Prusik) (i : Nat) : (s.modPr n f).dec i = s.dec i := (rfl)
@[simp] theorem State.modPr_pco (n : Nat) (f : Prusik → Prusik) (i : Nat) : (s.modPr n f).pco i = s.pco i := (rfl)
@[simp] theorem State.modPr_csp (n : Nat) (f : Prusik → Prusik) (i : Nat) : (s.modPr n f).csp i = s.csp i := (rfl)
@[simp] theorem State.modPr_eth (n : Nat) (f : Prusik → Prusik) (i : Nat) : (s.modPr n f).eth i = s.eth i := (rfl)

/-! ### modCsp -/

@[simp] theorem State.modCsp_rd (n : Nat) (f : Csp → Csp) (i : Nat) : (s.modCsp n f).rd i = s.rd i := (rfl)
@[simp] theorem State.modCsp_get (n : Nat) (f : Csp → Csp) (g : Fld) : (s.modCsp n f).get g = s.get g := (rfl)
@[simp] theorem State.modCsp_geti (n : Nat) (f : Csp → Csp) (g : Fld) : (s.modCsp n f).geti g = s.geti g := (rfl)
@[simp] theorem State.modCsp_bit (n : Nat) (f : Csp → Csp) (g : Fld) : (s.modCsp n f).bit g = s.bit g := (rfl)
@[simp] theorem State.modCsp_up (n : Nat) (f : Csp → Csp) : (s.modCsp n f).up = s.up := (rfl)
@[simp] theorem State.modCsp_rdByte (n : Nat) (f : Csp → Csp) (i : Nat) : (s.modCsp n f).rdByte i = s.rdByte i := (rfl)
@[simp] theorem State.modCsp_gen (n : Nat) (f : Csp → Csp) (i : Nat) : (s.modCsp n f).gen i = s.gen i := (rfl)
@[simp] theorem State.modCsp_cc (n : Nat) (f : Csp → Csp) (i : Nat) : (s.modCsp n f).cc i = s.cc i := (rfl)
@[simp] theorem State.modCsp_chan (n : Nat) (f : Csp → Csp) (i : Nat) : (s.modCsp n f).chan i = s.chan i := (rfl)
@[simp] theorem State.modCsp_group (n : Nat) (f : Csp → Csp) (i : Nat) : (s.modCsp n f).group i = s.group i := (rfl)
@[simp] theorem State.modCsp_window (n : Nat) (f : Csp → Csp) (i : Nat) : (s.modCsp n f).window i = s.window i := (rfl)
@[simp] theorem State.modCsp_stream (n : Nat) (f : Csp → Csp) (i : Nat) : (s.modCsp n f).stream i = s.stream i := (rfl)
@[simp] theorem State.modCsp_host (n : Nat) (f : Csp → Csp) (i : Nat) : (s.modCsp n f).host i = s.host i := (rfl)
@[simp] theorem State.modCsp_swap (n : Nat) (f : Csp → Csp) (i : Nat) : (s.modCsp n f).swap i = s.swap i := (rfl)
@[simp] theorem State.modCsp_engine (n : Nat) (f : Csp → Csp) (i : Nat) : (s.modCsp n f).engine i = s.engine i := (rfl)
@[simp] theorem State.modCsp_pr (n : Nat) (f : Csp → Csp) (i : Nat) : (s.modCsp n f).pr i = s.pr i := (rfl)
@[simp] theorem State.modCsp_fb (n : Nat) (f : Csp → Csp) (i : Nat) : (s.modCsp n f).fb i = s.fb i := (rfl)
@[simp] theorem State.modCsp_line (n : Nat) (f : Csp → Csp) (i : Nat) : (s.modCsp n f).line i = s.line i := (rfl)
@[simp] theorem State.modCsp_dec (n : Nat) (f : Csp → Csp) (i : Nat) : (s.modCsp n f).dec i = s.dec i := (rfl)
@[simp] theorem State.modCsp_pco (n : Nat) (f : Csp → Csp) (i : Nat) : (s.modCsp n f).pco i = s.pco i := (rfl)
@[simp] theorem State.modCsp_eth (n : Nat) (f : Csp → Csp) (i : Nat) : (s.modCsp n f).eth i = s.eth i := (rfl)

/-! ### setCkp -/

@[simp] theorem State.setCkp_rd (n r : Nat) (x : Ckp) (i : Nat) : (s.setCkp n r x).rd i = s.rd i := (rfl)
@[simp] theorem State.setCkp_get (n r : Nat) (x : Ckp) (g : Fld) : (s.setCkp n r x).get g = s.get g := (rfl)
@[simp] theorem State.setCkp_geti (n r : Nat) (x : Ckp) (g : Fld) : (s.setCkp n r x).geti g = s.geti g := (rfl)
@[simp] theorem State.setCkp_bit (n r : Nat) (x : Ckp) (g : Fld) : (s.setCkp n r x).bit g = s.bit g := (rfl)
@[simp] theorem State.setCkp_up (n r : Nat) (x : Ckp) : (s.setCkp n r x).up = s.up := (rfl)
@[simp] theorem State.setCkp_rdByte (n r : Nat) (x : Ckp) (i : Nat) : (s.setCkp n r x).rdByte i = s.rdByte i := (rfl)
@[simp] theorem State.setCkp_gen (n r : Nat) (x : Ckp) (i : Nat) : (s.setCkp n r x).gen i = s.gen i := (rfl)
@[simp] theorem State.setCkp_cc (n r : Nat) (x : Ckp) (i : Nat) : (s.setCkp n r x).cc i = s.cc i := (rfl)
@[simp] theorem State.setCkp_chan (n r : Nat) (x : Ckp) (i : Nat) : (s.setCkp n r x).chan i = s.chan i := (rfl)
@[simp] theorem State.setCkp_group (n r : Nat) (x : Ckp) (i : Nat) : (s.setCkp n r x).group i = s.group i := (rfl)
@[simp] theorem State.setCkp_window (n r : Nat) (x : Ckp) (i : Nat) : (s.setCkp n r x).window i = s.window i := (rfl)
@[simp] theorem State.setCkp_stream (n r : Nat) (x : Ckp) (i : Nat) : (s.setCkp n r x).stream i = s.stream i := (rfl)
@[simp] theorem State.setCkp_host (n r : Nat) (x : Ckp) (i : Nat) : (s.setCkp n r x).host i = s.host i := (rfl)
@[simp] theorem State.setCkp_swap (n r : Nat) (x : Ckp) (i : Nat) : (s.setCkp n r x).swap i = s.swap i := (rfl)
@[simp] theorem State.setCkp_engine (n r : Nat) (x : Ckp) (i : Nat) : (s.setCkp n r x).engine i = s.engine i := (rfl)
@[simp] theorem State.setCkp_pr (n r : Nat) (x : Ckp) (i : Nat) : (s.setCkp n r x).pr i = s.pr i := (rfl)
@[simp] theorem State.setCkp_fb (n r : Nat) (x : Ckp) (i : Nat) : (s.setCkp n r x).fb i = s.fb i := (rfl)
@[simp] theorem State.setCkp_line (n r : Nat) (x : Ckp) (i : Nat) : (s.setCkp n r x).line i = s.line i := (rfl)
@[simp] theorem State.setCkp_dec (n r : Nat) (x : Ckp) (i : Nat) : (s.setCkp n r x).dec i = s.dec i := (rfl)
@[simp] theorem State.setCkp_pco (n r : Nat) (x : Ckp) (i : Nat) : (s.setCkp n r x).pco i = s.pco i := (rfl)
@[simp] theorem State.setCkp_csp (n r : Nat) (x : Ckp) (i : Nat) : (s.setCkp n r x).csp i = s.csp i := (rfl)
@[simp] theorem State.setCkp_eth (n r : Nat) (x : Ckp) (i : Nat) : (s.setCkp n r x).eth i = s.eth i := (rfl)

/-! ### setPad -/

@[simp] theorem State.setPad_rd (n : Nat) (x : Pad) (i : Nat) : (s.setPad n x).rd i = s.rd i := (rfl)
@[simp] theorem State.setPad_get (n : Nat) (x : Pad) (g : Fld) : (s.setPad n x).get g = s.get g := (rfl)
@[simp] theorem State.setPad_geti (n : Nat) (x : Pad) (g : Fld) : (s.setPad n x).geti g = s.geti g := (rfl)
@[simp] theorem State.setPad_bit (n : Nat) (x : Pad) (g : Fld) : (s.setPad n x).bit g = s.bit g := (rfl)
@[simp] theorem State.setPad_up (n : Nat) (x : Pad) : (s.setPad n x).up = s.up := (rfl)
@[simp] theorem State.setPad_rdByte (n : Nat) (x : Pad) (i : Nat) : (s.setPad n x).rdByte i = s.rdByte i := (rfl)
@[simp] theorem State.setPad_gen (n : Nat) (x : Pad) (i : Nat) : (s.setPad n x).gen i = s.gen i := (rfl)
@[simp] theorem State.setPad_cc (n : Nat) (x : Pad) (i : Nat) : (s.setPad n x).cc i = s.cc i := (rfl)
@[simp] theorem State.setPad_chan (n : Nat) (x : Pad) (i : Nat) : (s.setPad n x).chan i = s.chan i := (rfl)
@[simp] theorem State.setPad_group (n : Nat) (x : Pad) (i : Nat) : (s.setPad n x).group i = s.group i := (rfl)
@[simp] theorem State.setPad_window (n : Nat) (x : Pad) (i : Nat) : (s.setPad n x).window i = s.window i := (rfl)
@[simp] theorem State.setPad_stream (n : Nat) (x : Pad) (i : Nat) : (s.setPad n x).stream i = s.stream i := (rfl)
@[simp] theorem State.setPad_host (n : Nat) (x : Pad) (i : Nat) : (s.setPad n x).host i = s.host i := (rfl)
@[simp] theorem State.setPad_swap (n : Nat) (x : Pad) (i : Nat) : (s.setPad n x).swap i = s.swap i := (rfl)
@[simp] theorem State.setPad_engine (n : Nat) (x : Pad) (i : Nat) : (s.setPad n x).engine i = s.engine i := (rfl)
@[simp] theorem State.setPad_pr (n : Nat) (x : Pad) (i : Nat) : (s.setPad n x).pr i = s.pr i := (rfl)
@[simp] theorem State.setPad_fb (n : Nat) (x : Pad) (i : Nat) : (s.setPad n x).fb i = s.fb i := (rfl)
@[simp] theorem State.setPad_line (n : Nat) (x : Pad) (i : Nat) : (s.setPad n x).line i = s.line i := (rfl)
@[simp] theorem State.setPad_dec (n : Nat) (x : Pad) (i : Nat) : (s.setPad n x).dec i = s.dec i := (rfl)
@[simp] theorem State.setPad_pco (n : Nat) (x : Pad) (i : Nat) : (s.setPad n x).pco i = s.pco i := (rfl)
@[simp] theorem State.setPad_csp (n : Nat) (x : Pad) (i : Nat) : (s.setPad n x).csp i = s.csp i := (rfl)
@[simp] theorem State.setPad_eth (n : Nat) (x : Pad) (i : Nat) : (s.setPad n x).eth i = s.eth i := (rfl)

/-! ### endTest -/

@[simp] theorem State.endTest_rd (n : Nat) (i : Nat) : (s.endTest n).rd i = s.rd i := (rfl)
@[simp] theorem State.endTest_get (n : Nat) (g : Fld) : (s.endTest n).get g = s.get g := (rfl)
@[simp] theorem State.endTest_geti (n : Nat) (g : Fld) : (s.endTest n).geti g = s.geti g := (rfl)
@[simp] theorem State.endTest_bit (n : Nat) (g : Fld) : (s.endTest n).bit g = s.bit g := (rfl)
@[simp] theorem State.endTest_up (n : Nat) : (s.endTest n).up = s.up := (rfl)
@[simp] theorem State.endTest_rdByte (n : Nat) (i : Nat) : (s.endTest n).rdByte i = s.rdByte i := (rfl)
@[simp] theorem State.endTest_gen (n : Nat) (i : Nat) : (s.endTest n).gen i = s.gen i := (rfl)
@[simp] theorem State.endTest_cc (n : Nat) (i : Nat) : (s.endTest n).cc i = s.cc i := (rfl)
@[simp] theorem State.endTest_chan (n : Nat) (i : Nat) : (s.endTest n).chan i = s.chan i := (rfl)
@[simp] theorem State.endTest_group (n : Nat) (i : Nat) : (s.endTest n).group i = s.group i := (rfl)
@[simp] theorem State.endTest_window (n : Nat) (i : Nat) : (s.endTest n).window i = s.window i := (rfl)
@[simp] theorem State.endTest_stream (n : Nat) (i : Nat) : (s.endTest n).stream i = s.stream i := (rfl)
@[simp] theorem State.endTest_host (n : Nat) (i : Nat) : (s.endTest n).host i = s.host i := (rfl)
@[simp] theorem State.endTest_swap (n : Nat) (i : Nat) : (s.endTest n).swap i = s.swap i := (rfl)
@[simp] theorem State.endTest_engine (n : Nat) (i : Nat) : (s.endTest n).engine i = s.engine i := (rfl)
@[simp] theorem State.endTest_pr (n : Nat) (i : Nat) : (s.endTest n).pr i = s.pr i := (rfl)
@[simp] theorem State.endTest_fb (n : Nat) (i : Nat) : (s.endTest n).fb i = s.fb i := (rfl)
@[simp] theorem State.endTest_line (n : Nat) (i : Nat) : (s.endTest n).line i = s.line i := (rfl)
@[simp] theorem State.endTest_dec (n : Nat) (i : Nat) : (s.endTest n).dec i = s.dec i := (rfl)
@[simp] theorem State.endTest_pco (n : Nat) (i : Nat) : (s.endTest n).pco i = s.pco i := (rfl)
@[simp] theorem State.endTest_csp (n : Nat) (i : Nat) : (s.endTest n).csp i = s.csp i := (rfl)
@[simp] theorem State.endTest_eth (n : Nat) (i : Nat) : (s.endTest n).eth i = s.eth i := (rfl)

/-! ### setTest -/

@[simp] theorem State.setTest_rd (n : Nat) (x : PresTest) (i : Nat) : (s.setTest n x).rd i = s.rd i := (rfl)
@[simp] theorem State.setTest_get (n : Nat) (x : PresTest) (g : Fld) : (s.setTest n x).get g = s.get g := (rfl)
@[simp] theorem State.setTest_geti (n : Nat) (x : PresTest) (g : Fld) : (s.setTest n x).geti g = s.geti g := (rfl)
@[simp] theorem State.setTest_bit (n : Nat) (x : PresTest) (g : Fld) : (s.setTest n x).bit g = s.bit g := (rfl)
@[simp] theorem State.setTest_up (n : Nat) (x : PresTest) : (s.setTest n x).up = s.up := (rfl)
@[simp] theorem State.setTest_rdByte (n : Nat) (x : PresTest) (i : Nat) : (s.setTest n x).rdByte i = s.rdByte i := (rfl)
@[simp] theorem State.setTest_gen (n : Nat) (x : PresTest) (i : Nat) : (s.setTest n x).gen i = s.gen i := (rfl)
@[simp] theorem State.setTest_cc (n : Nat) (x : PresTest) (i : Nat) : (s.setTest n x).cc i = s.cc i := (rfl)
@[simp] theorem State.setTest_chan (n : Nat) (x : PresTest) (i : Nat) : (s.setTest n x).chan i = s.chan i := (rfl)
@[simp] theorem State.setTest_group (n : Nat) (x : PresTest) (i : Nat) : (s.setTest n x).group i = s.group i := (rfl)
@[simp] theorem State.setTest_window (n : Nat) (x : PresTest) (i : Nat) : (s.setTest n x).window i = s.window i := (rfl)
@[simp] theorem State.setTest_stream (n : Nat) (x : PresTest) (i : Nat) : (s.setTest n x).stream i = s.stream i := (rfl)
@[simp] theorem State.setTest_host (n : Nat) (x : PresTest) (i : Nat) : (s.setTest n x).host i = s.host i := (rfl)
@[simp] theorem State.setTest_swap (n : Nat) (x : PresTest) (i : Nat) : (s.setTest n x).swap i = s.swap i := (rfl)
@[simp] theorem State.setTest_engine (n : Nat) (x : PresTest) (i : Nat) : (s.setTest n x).engine i = s.engine i := (rfl)
@[simp] theorem State.setTest_pr (n : Nat) (x : PresTest) (i : Nat) : (s.setTest n x).pr i = s.pr i := (rfl)
@[simp] theorem State.setTest_fb (n : Nat) (x : PresTest) (i : Nat) : (s.setTest n x).fb i = s.fb i := (rfl)
@[simp] theorem State.setTest_line (n : Nat) (x : PresTest) (i : Nat) : (s.setTest n x).line i = s.line i := (rfl)
@[simp] theorem State.setTest_dec (n : Nat) (x : PresTest) (i : Nat) : (s.setTest n x).dec i = s.dec i := (rfl)
@[simp] theorem State.setTest_pco (n : Nat) (x : PresTest) (i : Nat) : (s.setTest n x).pco i = s.pco i := (rfl)
@[simp] theorem State.setTest_csp (n : Nat) (x : PresTest) (i : Nat) : (s.setTest n x).csp i = s.csp i := (rfl)
@[simp] theorem State.setTest_eth (n : Nat) (x : PresTest) (i : Nat) : (s.setTest n x).eth i = s.eth i := (rfl)

/-! ### draw -/

@[simp] theorem State.draw_rd (i : Nat) : (s.draw).rd i = s.rd i := (rfl)
@[simp] theorem State.draw_get (g : Fld) : (s.draw).get g = s.get g := (rfl)
@[simp] theorem State.draw_geti (g : Fld) : (s.draw).geti g = s.geti g := (rfl)
@[simp] theorem State.draw_bit (g : Fld) : (s.draw).bit g = s.bit g := (rfl)
@[simp] theorem State.draw_up : (s.draw).up = s.up := (rfl)
@[simp] theorem State.draw_rdByte (i : Nat) : (s.draw).rdByte i = s.rdByte i := (rfl)
@[simp] theorem State.draw_gen (i : Nat) : (s.draw).gen i = s.gen i := (rfl)
@[simp] theorem State.draw_cc (i : Nat) : (s.draw).cc i = s.cc i := (rfl)
@[simp] theorem State.draw_chan (i : Nat) : (s.draw).chan i = s.chan i := (rfl)
@[simp] theorem State.draw_group (i : Nat) : (s.draw).group i = s.group i := (rfl)
@[simp] theorem State.draw_window (i : Nat) : (s.draw).window i = s.window i := (rfl)
@[simp] theorem State.draw_stream (i : Nat) : (s.draw).stream i = s.stream i := (rfl)
@[simp] theorem State.draw_host (i : Nat) : (s.draw).host i = s.host i := (rfl)
@[simp] theorem State.draw_swap (i : Nat) : (s.draw).swap i = s.swap i := (rfl)
@[simp] theorem State.draw_engine (i : Nat) : (s.draw).engine i = s.engine i := (rfl)
@[simp] theorem State.draw_pr (i : Nat) : (s.draw).pr i = s.pr i := (rfl)
@[simp] theorem State.draw_fb (i : Nat) : (s.draw).fb i = s.fb i := (rfl)
@[simp] theorem State.draw_line (i : Nat) : (s.draw).line i = s.line i := (rfl)
@[simp] theorem State.draw_dec (i : Nat) : (s.draw).dec i = s.dec i := (rfl)
@[simp] theorem State.draw_pco (i : Nat) : (s.draw).pco i = s.pco i := (rfl)
@[simp] theorem State.draw_csp (i : Nat) : (s.draw).csp i = s.csp i := (rfl)
@[simp] theorem State.draw_eth (i : Nat) : (s.draw).eth i = s.eth i := (rfl)

/-! ### wrByte -/

@[simp] theorem State.wrByte_rd (a : Nat) (v : Byte) (i : Nat) : (s.wrByte a v).rd i = s.rd i := (rfl)
@[simp] theorem State.wrByte_get (a : Nat) (v : Byte) (g : Fld) : (s.wrByte a v).get g = s.get g := (rfl)
@[simp] theorem State.wrByte_geti (a : Nat) (v : Byte) (g : Fld) : (s.wrByte a v).geti g = s.geti g := (rfl)
@[simp] theorem State.wrByte_bit (a : Nat) (v : Byte) (g : Fld) : (s.wrByte a v).bit g = s.bit g := (rfl)
@[simp] theorem State.wrByte_up (a : Nat) (v : Byte) : (s.wrByte a v).up = s.up := (rfl)
@[simp] theorem State.wrByte_gen (a : Nat) (v : Byte) (i : Nat) : (s.wrByte a v).gen i = s.gen i := (rfl)
@[simp] theorem State.wrByte_cc (a : Nat) (v : Byte) (i : Nat) : (s.wrByte a v).cc i = s.cc i := (rfl)
@[simp] theorem State.wrByte_chan (a : Nat) (v : Byte) (i : Nat) : (s.wrByte a v).chan i = s.chan i := (rfl)
@[simp] theorem State.wrByte_group (a : Nat) (v : Byte) (i : Nat) : (s.wrByte a v).group i = s.group i := (rfl)
@[simp] theorem State.wrByte_window (a : Nat) (v : Byte) (i : Nat) : (s.wrByte a v).window i = s.window i := (rfl)
@[simp] theorem State.wrByte_stream (a : Nat) (v : Byte) (i : Nat) : (s.wrByte a v).stream i = s.stream i := (rfl)
@[simp] theorem State.wrByte_host (a : Nat) (v : Byte) (i : Nat) : (s.wrByte a v).host i = s.host i := (rfl)
@[simp] theorem State.wrByte_swap (a : Nat) (v : Byte) (i : Nat) : (s.wrByte a v).swap i = s.swap i := (rfl)
@[simp] theorem State.wrByte_engine (a : Nat) (v : Byte) (i : Nat) : (s.wrByte a v).engine i = s.engine i := (rfl)
@[simp] theorem State.wrByte_pr (a : Nat) (v : Byte) (i : Nat) : (s.wrByte a v).pr i = s.pr i := (rfl)
@[simp] theorem State.wrByte_fb (a : Nat) (v : Byte) (i : Nat) : (s.wrByte a v).fb i = s.fb i := (rfl)
@[simp] theorem State.wrByte_line (a : Nat) (v : Byte) (i : Nat) : (s.wrByte a v).line i = s.line i := (rfl)
@[simp] theorem State.wrByte_dec (a : Nat) (v : Byte) (i : Nat) : (s.wrByte a v).dec i = s.dec i := (rfl)
@[simp] theorem State.wrByte_pco (a : Nat) (v : Byte) (i : Nat) : (s.wrByte a v).pco i = s.pco i := (rfl)
@[simp] theorem State.wrByte_csp (a : Nat) (v : Byte) (i : Nat) : (s.wrByte a v).csp i = s.csp i := (rfl)
@[simp] theorem State.wrByte_eth (a : Nat) (v : Byte) (i : Nat) : (s.wrByte a v).eth i = s.eth i := (rfl)

/-! ### wrMem -/

@[simp] theorem State.wrMem_rd (a : Nat) (v : Word) (i : Nat) : (s.wrMem a v).rd i = s.rd i := (rfl)
@[simp] theorem State.wrMem_get (a : Nat) (v : Word) (g : Fld) : (s.wrMem a v).get g = s.get g := (rfl)
@[simp] theorem State.wrMem_geti (a : Nat) (v : Word) (g : Fld) : (s.wrMem a v).geti g = s.geti g := (rfl)
@[simp] theorem State.wrMem_bit (a : Nat) (v : Word) (g : Fld) : (s.wrMem a v).bit g = s.bit g := (rfl)
@[simp] theorem State.wrMem_up (a : Nat) (v : Word) : (s.wrMem a v).up = s.up := (rfl)
@[simp] theorem State.wrMem_gen (a : Nat) (v : Word) (i : Nat) : (s.wrMem a v).gen i = s.gen i := (rfl)
@[simp] theorem State.wrMem_cc (a : Nat) (v : Word) (i : Nat) : (s.wrMem a v).cc i = s.cc i := (rfl)
@[simp] theorem State.wrMem_chan (a : Nat) (v : Word) (i : Nat) : (s.wrMem a v).chan i = s.chan i := (rfl)
@[simp] theorem State.wrMem_group (a : Nat) (v : Word) (i : Nat) : (s.wrMem a v).group i = s.group i := (rfl)
@[simp] theorem State.wrMem_window (a : Nat) (v : Word) (i : Nat) : (s.wrMem a v).window i = s.window i := (rfl)
@[simp] theorem State.wrMem_stream (a : Nat) (v : Word) (i : Nat) : (s.wrMem a v).stream i = s.stream i := (rfl)
@[simp] theorem State.wrMem_host (a : Nat) (v : Word) (i : Nat) : (s.wrMem a v).host i = s.host i := (rfl)
@[simp] theorem State.wrMem_swap (a : Nat) (v : Word) (i : Nat) : (s.wrMem a v).swap i = s.swap i := (rfl)
@[simp] theorem State.wrMem_engine (a : Nat) (v : Word) (i : Nat) : (s.wrMem a v).engine i = s.engine i := (rfl)
@[simp] theorem State.wrMem_pr (a : Nat) (v : Word) (i : Nat) : (s.wrMem a v).pr i = s.pr i := (rfl)
@[simp] theorem State.wrMem_fb (a : Nat) (v : Word) (i : Nat) : (s.wrMem a v).fb i = s.fb i := (rfl)
@[simp] theorem State.wrMem_line (a : Nat) (v : Word) (i : Nat) : (s.wrMem a v).line i = s.line i := (rfl)
@[simp] theorem State.wrMem_dec (a : Nat) (v : Word) (i : Nat) : (s.wrMem a v).dec i = s.dec i := (rfl)
@[simp] theorem State.wrMem_pco (a : Nat) (v : Word) (i : Nat) : (s.wrMem a v).pco i = s.pco i := (rfl)
@[simp] theorem State.wrMem_csp (a : Nat) (v : Word) (i : Nat) : (s.wrMem a v).csp i = s.csp i := (rfl)
@[simp] theorem State.wrMem_eth (a : Nat) (v : Word) (i : Nat) : (s.wrMem a v).eth i = s.eth i := (rfl)

/-! ### clearMem -/

@[simp] theorem State.clearMem_rd (lo hi : Nat) (i : Nat) : (s.clearMem lo hi).rd i = s.rd i := (rfl)
@[simp] theorem State.clearMem_get (lo hi : Nat) (g : Fld) : (s.clearMem lo hi).get g = s.get g := (rfl)
@[simp] theorem State.clearMem_geti (lo hi : Nat) (g : Fld) : (s.clearMem lo hi).geti g = s.geti g := (rfl)
@[simp] theorem State.clearMem_bit (lo hi : Nat) (g : Fld) : (s.clearMem lo hi).bit g = s.bit g := (rfl)
@[simp] theorem State.clearMem_up (lo hi : Nat) : (s.clearMem lo hi).up = s.up := (rfl)
@[simp] theorem State.clearMem_gen (lo hi : Nat) (i : Nat) : (s.clearMem lo hi).gen i = s.gen i := (rfl)
@[simp] theorem State.clearMem_cc (lo hi : Nat) (i : Nat) : (s.clearMem lo hi).cc i = s.cc i := (rfl)
@[simp] theorem State.clearMem_chan (lo hi : Nat) (i : Nat) : (s.clearMem lo hi).chan i = s.chan i := (rfl)
@[simp] theorem State.clearMem_group (lo hi : Nat) (i : Nat) : (s.clearMem lo hi).group i = s.group i := (rfl)
@[simp] theorem State.clearMem_window (lo hi : Nat) (i : Nat) : (s.clearMem lo hi).window i = s.window i := (rfl)
@[simp] theorem State.clearMem_stream (lo hi : Nat) (i : Nat) : (s.clearMem lo hi).stream i = s.stream i := (rfl)
@[simp] theorem State.clearMem_host (lo hi : Nat) (i : Nat) : (s.clearMem lo hi).host i = s.host i := (rfl)
@[simp] theorem State.clearMem_swap (lo hi : Nat) (i : Nat) : (s.clearMem lo hi).swap i = s.swap i := (rfl)
@[simp] theorem State.clearMem_engine (lo hi : Nat) (i : Nat) : (s.clearMem lo hi).engine i = s.engine i := (rfl)
@[simp] theorem State.clearMem_pr (lo hi : Nat) (i : Nat) : (s.clearMem lo hi).pr i = s.pr i := (rfl)
@[simp] theorem State.clearMem_fb (lo hi : Nat) (i : Nat) : (s.clearMem lo hi).fb i = s.fb i := (rfl)
@[simp] theorem State.clearMem_line (lo hi : Nat) (i : Nat) : (s.clearMem lo hi).line i = s.line i := (rfl)
@[simp] theorem State.clearMem_dec (lo hi : Nat) (i : Nat) : (s.clearMem lo hi).dec i = s.dec i := (rfl)
@[simp] theorem State.clearMem_pco (lo hi : Nat) (i : Nat) : (s.clearMem lo hi).pco i = s.pco i := (rfl)
@[simp] theorem State.clearMem_csp (lo hi : Nat) (i : Nat) : (s.clearMem lo hi).csp i = s.csp i := (rfl)
@[simp] theorem State.clearMem_eth (lo hi : Nat) (i : Nat) : (s.clearMem lo hi).eth i = s.eth i := (rfl)

/-! ### effect -/

@[simp] theorem State.effect_rd (f : State → State) (i : Nat) : (s.effect f).rd i = (f s).rd i := (rfl)
@[simp] theorem State.effect_rdByte (f : State → State) (i : Nat) : (s.effect f).rdByte i = (f s).rdByte i := (rfl)
@[simp] theorem State.effect_gen (f : State → State) (i : Nat) : (s.effect f).gen i = (f s).gen i := (rfl)
@[simp] theorem State.effect_cc (f : State → State) (i : Nat) : (s.effect f).cc i = (f s).cc i := (rfl)
@[simp] theorem State.effect_chan (f : State → State) (i : Nat) : (s.effect f).chan i = (f s).chan i := (rfl)
@[simp] theorem State.effect_group (f : State → State) (i : Nat) : (s.effect f).group i = (f s).group i := (rfl)
@[simp] theorem State.effect_window (f : State → State) (i : Nat) : (s.effect f).window i = (f s).window i := (rfl)
@[simp] theorem State.effect_stream (f : State → State) (i : Nat) : (s.effect f).stream i = (f s).stream i := (rfl)
@[simp] theorem State.effect_host (f : State → State) (i : Nat) : (s.effect f).host i = (f s).host i := (rfl)
@[simp] theorem State.effect_swap (f : State → State) (i : Nat) : (s.effect f).swap i = (f s).swap i := (rfl)
@[simp] theorem State.effect_engine (f : State → State) (i : Nat) : (s.effect f).engine i = (f s).engine i := (rfl)
@[simp] theorem State.effect_pr (f : State → State) (i : Nat) : (s.effect f).pr i = (f s).pr i := (rfl)
@[simp] theorem State.effect_fb (f : State → State) (i : Nat) : (s.effect f).fb i = (f s).fb i := (rfl)
@[simp] theorem State.effect_line (f : State → State) (i : Nat) : (s.effect f).line i = (f s).line i := (rfl)
@[simp] theorem State.effect_dec (f : State → State) (i : Nat) : (s.effect f).dec i = (f s).dec i := (rfl)
@[simp] theorem State.effect_pco (f : State → State) (i : Nat) : (s.effect f).pco i = (f s).pco i := (rfl)
@[simp] theorem State.effect_csp (f : State → State) (i : Nat) : (s.effect f).csp i = (f s).csp i := (rfl)
@[simp] theorem State.effect_eth (f : State → State) (i : Nat) : (s.effect f).eth i = (f s).eth i := (rfl)
@[simp] theorem State.effect_get (f : State → State) (g : Fld) : (s.effect f).get g = (f s).get g := (rfl)
@[simp] theorem State.effect_geti (f : State → State) (g : Fld) : (s.effect f).geti g = (f s).geti g := (rfl)
@[simp] theorem State.effect_bit (f : State → State) (g : Fld) : (s.effect f).bit g = (f s).bit g := (rfl)
@[simp] theorem State.effect_up (f : State → State) : (s.effect f).up = (f s).up := (rfl)
@[simp] theorem State.gen_modGen_same (n : Nat) (f : Gen → Gen) : (s.modGen n f).gen n = f (s.gen n) := tabGet_tabPut_same _ _ n _
theorem State.gen_modGen_ne {n m : Nat} (f : Gen → Gen) (h : m ≠ n) : (s.modGen n f).gen m = s.gen m := tabGet_tabPut_ne _ _ _ h
@[simp] theorem State.cc_modCc_same (n : Nat) (f : Cc → Cc) : (s.modCc n f).cc n = f (s.cc n) := tabGet_tabPut_same _ _ n _
theorem State.cc_modCc_ne {n m : Nat} (f : Cc → Cc) (h : m ≠ n) : (s.modCc n f).cc m = s.cc m := tabGet_tabPut_ne _ _ _ h
@[simp] theorem State.chan_modChan_same (n : Nat) (f : PwmChan → PwmChan) : (s.modChan n f).chan n = f (s.chan n) := tabGet_tabPut_same _ _ n _
theorem State.chan_modChan_ne {n m : Nat} (f : PwmChan → PwmChan) (h : m ≠ n) : (s.modChan n f).chan m = s.chan m := tabGet_tabPut_ne _ _ _ h
@[simp] theorem State.stream_modStream_same (n : Nat) (f : Stream → Stream) : (s.modStream n f).stream n = f (s.stream n) := tabGet_tabPut_same _ _ n _
theorem State.stream_modStream_ne {n m : Nat} (f : Stream → Stream) (h : m ≠ n) : (s.modStream n f).stream m = s.stream m := tabGet_tabPut_ne _ _ _ h
@[simp] theorem State.host_modHost_same (n : Nat) (f : HostSt → HostSt) : (s.modHost n f).host n = f (s.host n) := tabGet_tabPut_same _ _ n _
theorem State.host_modHost_ne {n m : Nat} (f : HostSt → HostSt) (h : m ≠ n) : (s.modHost n f).host m = s.host m := tabGet_tabPut_ne _ _ _ h
@[simp] theorem State.swap_modSwap_same (n : Nat) (f : Swap → Swap) : (s.modSwap n f).swap n = f (s.swap n) := tabGet_tabPut_same _ _ n _
theorem State.swap_modSwap_ne {n m : Nat} (f : Swap → Swap) (h : m ≠ n) : (s.modSwap n f).swap m = s.swap m := tabGet_tabPut_ne _ _ _ h
@[simp] theorem State.engine_modEngine_same (n : Nat) (f : Engine → Engine) : (s.modEngine n f).engine n = f (s.engine n) := tabGet_tabPut_same _ _ n _
theorem State.engine_modEngine_ne {n m : Nat} (f : Engine → Engine) (h : m ≠ n) : (s.modEngine n f).engine m = s.engine m := tabGet_tabPut_ne _ _ _ h
@[simp] theorem State.pr_modPr_same (n : Nat) (f : Prusik → Prusik) : (s.modPr n f).pr n = f (s.pr n) := tabGet_tabPut_same _ _ n _
theorem State.pr_modPr_ne {n m : Nat} (f : Prusik → Prusik) (h : m ≠ n) : (s.modPr n f).pr m = s.pr m := tabGet_tabPut_ne _ _ _ h
@[simp] theorem State.csp_modCsp_same (n : Nat) (f : Csp → Csp) : (s.modCsp n f).csp n = f (s.csp n) := tabGet_tabPut_same _ _ n _
theorem State.csp_modCsp_ne {n m : Nat} (f : Csp → Csp) (h : m ≠ n) : (s.modCsp n f).csp m = s.csp m := tabGet_tabPut_ne _ _ _ h

end Sys2Proof.Machine
end

