-- ==== Sys2Proof/Laws/Kept.lean ====
section
/-! SUPPORT. What every operation of the machine keeps: the canonical form of registers and memory, one transistor at
most per channel and, for an operation that stores nothing, every byte of memory, flash and OTP. One lemma per
operation; a claim about a command cites the lemma of its meaning. -/
namespace Sys2Proof.Machine

/-- Dropping entries of a canonical table leaves it canonical. -/
theorem tabWfFrom_filter {α : Type} [DecidableEq α] {d : Nat → α} (p : Nat × α → Bool) {t : Tab α} {lo : Nat}
    (w : tabWfFrom d lo t = true) : tabWfFrom d lo (t.filter p) = true := by
  induction t generalizing lo with
  | nil => rfl
  | cons x t ih =>
    obtain ⟨k, v⟩ := x
    simp only [tabWfFrom, Bool.and_eq_true, decide_eq_true_eq] at w
    simp only [List.filter_cons]
    split
    · simp only [tabWfFrom, Bool.and_eq_true, decide_eq_true_eq]
      exact ⟨w.1, ih w.2⟩
    · exact tabWfFrom_mono d (by omega) (ih w.2)

/-! ### The two gates of a channel -/

@[simp] theorem PwmChan.noteOff_h (x : PwmChan) (t : Nat) : (x.noteOff t).h = x.h := rfl
@[simp] theorem PwmChan.noteOff_l (x : PwmChan) (t : Nat) : (x.noteOff t).l = x.l := rfl
@[simp] theorem PwmChan.noteOff_incoming (x : PwmChan) (t : Nat) : (x.noteOff t).incoming = x.incoming := rfl
@[simp] theorem Gate.take_on (x : Gate) (i : InputSample) : (x.take i).on = x.on := by
  unfold Gate.take; split <;> rfl

/-- What turning a gate off does to the gates of its channel. -/
theorem State.gateOff_gates (s : State) (c : Nat) (high trip soft : Bool) :
    (((s.gateOff c high trip soft).chan c).h.on = if high then false else (s.chan c).h.on) ∧
    (((s.gateOff c high trip soft).chan c).l.on = if high then (s.chan c).l.on else false) ∧
    ((s.gateOff c high trip soft).chan c).incoming = (s.chan c).incoming := by
  unfold State.gateOff
  dsimp only
  split
  · rename_i h
    cases high <;> simp_all [PwmChan.gate]
  · cases high <;> simp [PwmChan.setGate]

/-- From `o` to `t` the canonical forms and the one-sidedness of the channels are kept; with `q`, so are memory, flash,
OTP and the straps. -/
structure Kept (q : Bool) (o t : State) : Prop where
  regs : o.regsWf = true → t.regsWf = true
  mem : Memory.wf o.mem = true → Memory.wf t.mem = true
  chans : o.OneSided → t.OneSided
  quiet : q = true → t.mem = o.mem ∧ t.flash = o.flash ∧ t.otp = o.otp ∧ t.straps = o.straps

namespace Kept
variable {q : Bool} {o s t : State}

theorem refl (q : Bool) (s : State) : Kept q s s := ⟨id, id, id, fun _ => ⟨rfl, rfl, rfl, rfl⟩⟩

/-- A state that differs from `s` in other fields only. -/
theorem same (h : Kept q o s) (h1 : t.regs = s.regs) (h2 : t.mem = s.mem) (h3 : t.chans = s.chans)
    (h4 : t.flash = s.flash) (h5 : t.otp = s.otp) (h6 : t.straps = s.straps) : Kept q o t := by
  refine ⟨fun w => ?_, fun w => h2 ▸ h.mem w, fun w c => ?_, fun w => ?_⟩
  · have := h.regs w; unfold State.regsWf at *; rw [h1, h6]; exact this
  · have := h.chans w c; unfold State.chan at *; rw [h3]; exact this
  · obtain ⟨a, b, c, d⟩ := h.quiet w; exact ⟨h2.trans a, h4.trans b, h5.trans c, h6.trans d⟩

/-- A record update of fields other than registers, memory, channels, flash, OTP and straps. -/
theorem upd (h : Kept q o s)
    {a_pending : List Instr} {a_power : Power} {a_now : Nat} {a_tickAt : Nat} {a_tickLeft : Bool} {a_tickDue :
    Bool} {a_drawn : Nat} {a_accepts : Nat} {a_newTick : Option (Nat × Nat × Bool)} {a_setNow : List SetBits}
    {a_gens : Tab Gen} {a_ccs : Tab Cc} {a_groups : Tab PwmGroup} {a_windows : Tab Window} {a_filtOld : Option
    (Nat × Word × Tab Window)} {a_streams : Tab Stream} {a_hosts : Tab HostSt} {a_swaps : Tab Swap} {a_engines
    : Tab Engine} {a_ckps : Tab Ckp} {a_prs : Tab Prusik} {a_decs : Tab Dec} {a_hkc : Hkc} {a_fbs : Tab
    FbPort} {a_lines : Tab Line} {a_capAt : Tab Nat} {a_pcos : Tab Pco} {a_coll : Collector} {a_log :
    SummitLog} {a_bly : Belay} {a_safeoff : Bool} {a_pulses : List Nat} {a_csps : Tab Csp} {a_eths : Tab
    EthPort} {a_gptp : Gptp} {a_sent : List OutFrame} {a_dataOut : Word} {a_imgIdx : Nat} {a_hoCmd : Option
    (Nat × Nat × Bool)} {a_hoAt : Nat} {a_hoDead : Bool} {a_rstReq : Bool} {a_biv : Bivouac} {a_panel : Panel}
    {a_portsOff : Bool} :
    Kept q o { s with
      pending := a_pending, power := a_power, now := a_now, tickAt := a_tickAt, tickLeft := a_tickLeft,
      tickDue := a_tickDue, drawn := a_drawn, accepts := a_accepts, newTick := a_newTick, setNow := a_setNow,
      gens := a_gens, ccs := a_ccs, groups := a_groups, windows := a_windows, filtOld := a_filtOld, streams :=
      a_streams, hosts := a_hosts, swaps := a_swaps, engines := a_engines, ckps := a_ckps, prs := a_prs, decs
      := a_decs, hkc := a_hkc, fbs := a_fbs, lines := a_lines, capAt := a_capAt, pcos := a_pcos, coll :=
      a_coll, log := a_log, bly := a_bly, safeoff := a_safeoff, pulses := a_pulses, csps := a_csps, eths :=
      a_eths, gptp := a_gptp, sent := a_sent, dataOut := a_dataOut, imgIdx := a_imgIdx, hoCmd := a_hoCmd, hoAt
      := a_hoAt, hoDead := a_hoDead, rstReq := a_rstReq, biv := a_biv, panel := a_panel, portsOff :=
      a_portsOff } := h.same rfl rfl rfl rfl rfl rfl

/-- The same, where memory, flash or OTP may change. -/
theorem stored (h : Kept false o s) (h1 : t.regs = s.regs) (h2 : Memory.wf s.mem = true → Memory.wf t.mem = true)
    (h3 : t.chans = s.chans) (h6 : t.straps = s.straps) : Kept false o t := by
  refine ⟨fun w => ?_, fun w => h2 (h.mem w), fun w c => ?_, fun w => nomatch w⟩
  · have := h.regs w; unfold State.regsWf at *; rw [h1, h6]; exact this
  · have := h.chans w c; unfold State.chan at *; rw [h3]; exact this

theorem weaken (h : Kept q o s) : Kept false o s := ⟨h.regs, h.mem, h.chans, fun w => nomatch w⟩

theorem trans (h : Kept q o s) (g : Kept q s t) : Kept q o t :=
  ⟨g.regs ∘ h.regs, g.mem ∘ h.mem, g.chans ∘ h.chans, fun w =>
    have ⟨a, b, c, d⟩ := h.quiet w; have ⟨a', b', c', d'⟩ := g.quiet w
    ⟨a'.trans a, b'.trans b, c'.trans c, d'.trans d⟩⟩

theorem ite {c : Prop} [Decidable c] (hs : Kept q o s) (ht : Kept q o t) : Kept q o (if c then s else t) := by
  split <;> assumption

/-! ### The base operations -/

theorem wr (h : Kept q o s) (a : Nat) (v : Word) : Kept q o (s.wr a v) :=
  ⟨fun w => tabWf_tabSet _ a v (h.regs w), h.mem, h.chans, h.quiet⟩

theorem wr64 (h : Kept q o s) (a v : Nat) : Kept q o (s.wr64 a v) := (h.wr a _).wr (a + 4) _

theorem noteSet (h : Kept q o s) (a bits : Nat) : Kept q o (s.noteSet a bits) := by
  unfold State.noteSet; exact ite h (h.same rfl rfl rfl rfl rfl rfl)

theorem wrNoted (h : Kept q o s) (a : Nat) (v : Word) : Kept q o (s.wrNoted a v) := (h.noteSet _ _).wr _ _

theorem put (h : Kept q o s) (f : Fld) (v : Nat) : Kept q o (s.put f v) := by
  unfold State.put; exact ite ((h.noteSet _ _).wr _ _) (h.wr64 _ _)

theorem w1c (h : Kept q o s) (f : Fld) (v : Word) : Kept q o (s.w1c f v) := by
  unfold State.w1c; exact ite (h.put _ _) h

theorem puti (h : Kept q o s) (f : Fld) (v : Int) : Kept q o (s.puti f v) := h.put f _
theorem flag (h : Kept q o s) (f : Fld) (b : Bool) : Kept q o (s.flag f b) := h.put f _
theorem inc (h : Kept q o s) (f : Fld) (k : Nat) : Kept q o (s.inc f k) := h.put f _
theorem incSat (h : Kept q o s) (f : Fld) (k : Nat) : Kept q o (s.incSat f k) := h.put f _
theorem err (h : Kept q o s) (n e : Nat) : Kept q o (s.err n e) := h.put _ e
theorem draw (h : Kept q o s) : Kept q o s.draw := h.same rfl rfl rfl rfl rfl rfl

theorem when (h : Kept q o s) (c : Bool) {f : State → State} (hf : ∀ t, Kept q o t → Kept q o (f t)) :
    Kept q o (s.when c f) := by unfold State.when; exact ite (hf _ h) h

theorem each {α : Type} (h : Kept q o s) (l : List α) {f : α → State → State}
    (hf : ∀ x t, Kept q o t → Kept q o (f x t)) : Kept q o (s.each l f) := by
  unfold State.each
  induction l generalizing s with
  | nil => exact h
  | cons x l ih => exact ih (hf x s h)

theorem effect {f : State → State} (hf : ∀ t, Kept q o t → Kept q o (f t)) (h : Kept q o s) : Kept q o (s.effect f) :=
  (hf s h).same rfl rfl rfl rfl rfl rfl

theorem wrByte (h : Kept false o s) (a : Nat) (v : Byte) : Kept false o (s.wrByte a v) :=
  h.stored rfl (fun w => tabWf_tabSet _ a v w) rfl rfl

theorem wrMem (h : Kept false o s) (a : Nat) (v : Word) : Kept false o (s.wrMem a v) :=
  (((h.wrByte _ _).wrByte _ _).wrByte _ _).wrByte _ _

theorem wrMems (h : Kept false o s) (a : Nat) (l : List Word) : Kept false o (s.wrMems a l) := by
  induction l generalizing s a with
  | nil => exact h
  | cons v l ih => exact ih (h.wrMem a v) (a + 4)

theorem clearMem (h : Kept false o s) (lo hi : Nat) : Kept false o (s.clearMem lo hi) :=
  h.stored rfl (fun w => tabWfFrom_filter _ w) rfl rfl

theorem setChan (h : Kept q o s) (c : Nat) {x : PwmChan} (hx : (s.chan c).oneSided = true → x.oneSided = true) :
    Kept q o (s.setChan c x) := by
  refine ⟨h.regs, h.mem, fun w d => ?_, h.quiet⟩
  by_cases e : d = c
  · subst e; simpa [State.chan, State.setChan, tabGet_tabPut_same] using hx (h.chans w d)
  · have := h.chans w d
    simpa [State.chan, State.setChan, tabGet_tabPut_ne _ _ _ e] using this

theorem modChan (h : Kept q o s) (c : Nat) {f : PwmChan → PwmChan}
    (hf : ∀ x : PwmChan, x.oneSided = true → (f x).oneSided = true) : Kept q o (s.modChan c f) :=
  h.setChan c (hf _)

theorem setGen (h : Kept q o s) (n : Nat) (x : Gen) : Kept q o (s.setGen n x) := h.same rfl rfl rfl rfl rfl rfl
theorem modGen (h : Kept q o s) (n : Nat) (f : Gen → Gen) : Kept q o (s.modGen n f) := h.setGen n _
theorem setCc (h : Kept q o s) (n : Nat) (x : Cc) : Kept q o (s.setCc n x) := h.same rfl rfl rfl rfl rfl rfl
theorem modCc (h : Kept q o s) (n : Nat) (f : Cc → Cc) : Kept q o (s.modCc n f) := h.setCc n _
theorem setGroup (h : Kept q o s) (n : Nat) (x : PwmGroup) : Kept q o (s.setGroup n x) := h.same rfl rfl rfl rfl rfl rfl
theorem setWindow (h : Kept q o s) (n : Nat) (x : Window) : Kept q o (s.setWindow n x) := h.same rfl rfl rfl rfl rfl rfl
theorem setStream (h : Kept q o s) (n : Nat) (x : Stream) : Kept q o (s.setStream n x) := h.same rfl rfl rfl rfl rfl rfl
theorem modStream (h : Kept q o s) (n : Nat) (f : Stream → Stream) : Kept q o (s.modStream n f) := h.setStream n _
theorem setHost (h : Kept q o s) (n : Nat) (x : HostSt) : Kept q o (s.setHost n x) := h.same rfl rfl rfl rfl rfl rfl
theorem modHost (h : Kept q o s) (n : Nat) (f : HostSt → HostSt) : Kept q o (s.modHost n f) := h.setHost n _
theorem setSwap (h : Kept q o s) (n : Nat) (x : Swap) : Kept q o (s.setSwap n x) := h.same rfl rfl rfl rfl rfl rfl
theorem modSwap (h : Kept q o s) (n : Nat) (f : Swap → Swap) : Kept q o (s.modSwap n f) := h.same rfl rfl rfl rfl rfl rfl
theorem setEngine (h : Kept q o s) (n : Nat) (x : Engine) : Kept q o (s.setEngine n x) := h.same rfl rfl rfl rfl rfl rfl
theorem modEngine (h : Kept q o s) (n : Nat) (f : Engine → Engine) : Kept q o (s.modEngine n f) := h.setEngine n _
theorem setCkp (h : Kept q o s) (n r : Nat) (x : Ckp) : Kept q o (s.setCkp n r x) := h.same rfl rfl rfl rfl rfl rfl
theorem setPr (h : Kept q o s) (n : Nat) (x : Prusik) : Kept q o (s.setPr n x) := h.same rfl rfl rfl rfl rfl rfl
theorem modPr (h : Kept q o s) (n : Nat) (f : Prusik → Prusik) : Kept q o (s.modPr n f) := h.setPr n _
theorem setFb (h : Kept q o s) (n : Nat) (x : FbPort) : Kept q o (s.setFb n x) := h.same rfl rfl rfl rfl rfl rfl
theorem setLine (h : Kept q o s) (n : Nat) (x : Line) : Kept q o (s.setLine n x) := h.same rfl rfl rfl rfl rfl rfl
theorem setDec (h : Kept q o s) (n : Nat) (x : Dec) : Kept q o (s.setDec n x) := h.same rfl rfl rfl rfl rfl rfl
theorem setPco (h : Kept q o s) (n : Nat) (x : Pco) : Kept q o (s.setPco n x) := h.same rfl rfl rfl rfl rfl rfl
theorem setCsp (h : Kept q o s) (n : Nat) (x : Csp) : Kept q o (s.setCsp n x) := h.same rfl rfl rfl rfl rfl rfl
theorem modCsp (h : Kept q o s) (n : Nat) (f : Csp → Csp) : Kept q o (s.modCsp n f) := h.setCsp n _
theorem setEth (h : Kept q o s) (n : Nat) (x : EthPort) : Kept q o (s.setEth n x) := h.same rfl rfl rfl rfl rfl rfl
theorem setPad (h : Kept q o s) (n : Nat) (x : Pad) : Kept q o (s.setPad n x) := h.same rfl rfl rfl rfl rfl rfl
theorem setTest (h : Kept q o s) (n : Nat) (x : PresTest) : Kept q o (s.setTest n x) := h.same rfl rfl rfl rfl rfl rfl
theorem endTest (h : Kept q o s) (n : Nat) : Kept q o (s.endTest n) := h.same rfl rfl rfl rfl rfl rfl

/-- A state whose registers, memory and channels are as after power-on. -/
theorem fresh (h1 : t.regs = []) (h2 : t.mem = []) (h3 : t.chans = []) : Kept false o t :=
  ⟨fun _ => by unfold State.regsWf; rw [h1]; rfl, fun _ => by rw [h2]; rfl,
    fun _ c => by unfold State.chan; rw [h3]; rfl, fun w => nomatch w⟩

end Kept
end Sys2Proof.Machine
end

