-- ==== Sys2Proof/Laws/KeepSlots.lean ====
section
/-! SUPPORT. What the operations of Machine/Slots.lean keep: one lemma per operation (Laws/Kept.lean). -/
namespace Sys2Proof.Machine
set_option linter.unusedTactic false
set_option linter.unreachableTactic false
set_option linter.unusedVariables false

theorem State.reachHead_kept {qt : Bool} {s₀ s : State} (h : Kept qt s₀ s) (k : Nat) : Kept qt s₀ (State.reachHead s k) := by
  unfold State.reachHead
  repeat' first
    | with_reducible assumption
    | with_reducible apply Kept.refl
    | with_reducible apply Kept.modStream
    | with_reducible apply Kept.ite
    | ((try lift_lets -underBinder); intro x; have hx : Kept qt s₀ x := ?_; (on_goal 1 => clear_value x); (on_goal 2 => dsimp only [x]))
    | ((try lift_lets -underBinder); intro x; clear_value x)
    | split
    | (with_reducible apply Kept.upd; first | with_reducible assumption | with_reducible apply Kept.refl | with_reducible apply Kept.modStream)

theorem State.reachHeads_kept {qt : Bool} {s₀ s : State} (h : Kept qt s₀ s) (k : Nat) : Kept qt s₀ (State.reachHeads s k) := by
  unfold State.reachHeads
  repeat' first
    | with_reducible assumption
    | with_reducible apply Kept.refl
    | (with_reducible refine Kept.each ?_ _ (fun _ t _ => ?_))
    | with_reducible apply State.reachHead_kept
    | with_reducible apply Kept.ite
    | ((try lift_lets -underBinder); intro x; have hx : Kept qt s₀ x := ?_; (on_goal 1 => clear_value x); (on_goal 2 => dsimp only [x]))
    | ((try lift_lets -underBinder); intro x; clear_value x)

theorem State.answer_kept {qt : Bool} {s₀ s : State} (h : Kept qt s₀ s) (k status detail flags : Nat) (ws : List Word) (halt : Nat) : Kept qt s₀ (State.answer s k status detail flags ws halt) := by
  unfold State.answer
  repeat' first
    | with_reducible assumption
    | with_reducible apply Kept.refl
    | with_reducible apply Kept.modStream
    | with_reducible apply State.reachHeads_kept
    | with_reducible apply Kept.ite
    | ((try lift_lets -underBinder); intro x; have hx : Kept qt s₀ x := ?_; (on_goal 1 => clear_value x); (on_goal 2 => dsimp only [x]))
    | ((try lift_lets -underBinder); intro x; clear_value x)

theorem State.runHead_kept {qt : Bool} {s₀ s : State} (h : Kept qt s₀ s) (k op : Nat) (p : Cmd → Bool) {f : Cmd → State → State}
    (hf : ∀ c t, Kept qt s₀ t → Kept qt s₀ (f c t)) : Kept qt s₀ (State.runHead s k op p f) := by
  unfold State.runHead
  repeat' first
    | with_reducible assumption
    | with_reducible apply Kept.modStream
    | with_reducible apply State.reachHead_kept
    | with_reducible apply State.answer_kept
    | with_reducible apply hf
    | with_reducible apply Kept.ite
    | ((try lift_lets -underBinder); intro x; have hx : Kept qt s₀ x := ?_; (on_goal 1 => clear_value x); (on_goal 2 => dsimp only [x]))
    | split

theorem State.finish_kept {qt : Bool} {s₀ s : State} (h : Kept qt s₀ s) (k : Nat) (c : Cmd) (status detail flags : Nat) (ws : List Word) : Kept qt s₀ (State.finish s k c status detail flags ws) := by
  unfold State.finish
  repeat' first
    | with_reducible assumption
    | with_reducible apply Kept.refl
    | with_reducible apply State.answer_kept
    | with_reducible apply Kept.ite
    | ((try lift_lets -underBinder); intro x; have hx : Kept qt s₀ x := ?_; (on_goal 1 => clear_value x); (on_goal 2 => dsimp only [x]))
    | ((try lift_lets -underBinder); intro x; clear_value x)
    | split

theorem State.interrupt_kept {qt : Bool} {s₀ s : State} (h : Kept qt s₀ s) (p : Stream → Cmd → Bool) (halt : Nat) : Kept qt s₀ (State.interrupt s p halt) := by
  unfold State.interrupt
  repeat' first
    | with_reducible assumption
    | with_reducible apply Kept.refl
    | (with_reducible refine Kept.each ?_ _ (fun _ t _ => ?_))
    | with_reducible apply State.answer_kept
    | with_reducible apply Kept.ite
    | ((try lift_lets -underBinder); intro x; have hx : Kept qt s₀ x := ?_; (on_goal 1 => clear_value x); (on_goal 2 => dsimp only [x]))
    | ((try lift_lets -underBinder); intro x; clear_value x)
    | split

theorem State.interruptWait_kept {qt : Bool} {s₀ s : State} (h : Kept qt s₀ s) (n new reason : Nat) : Kept qt s₀ (State.interruptWait s n new reason) := by
  unfold State.interruptWait
  repeat' first
    | with_reducible assumption
    | with_reducible apply Kept.refl
    | with_reducible apply State.interrupt_kept
    | with_reducible apply Kept.ite
    | ((try lift_lets -underBinder); intro x; have hx : Kept qt s₀ x := ?_; (on_goal 1 => clear_value x); (on_goal 2 => dsimp only [x]))
    | ((try lift_lets -underBinder); intro x; clear_value x)
    | split

theorem State.interruptPitch_kept {qt : Bool} {s₀ s : State} (h : Kept qt s₀ s) (n i : Nat) : Kept qt s₀ (State.interruptPitch s n i) := by
  unfold State.interruptPitch
  repeat' first
    | with_reducible assumption
    | with_reducible apply Kept.refl
    | with_reducible apply State.interrupt_kept
    | with_reducible apply Kept.ite
    | ((try lift_lets -underBinder); intro x; have hx : Kept qt s₀ x := ?_; (on_goal 1 => clear_value x); (on_goal 2 => dsimp only [x]))
    | ((try lift_lets -underBinder); intro x; clear_value x)
    | split

theorem State.interruptSlot_kept {qt : Bool} {s₀ s : State} (h : Kept qt s₀ s) (p : Nat → Bool) (halt : Nat) : Kept qt s₀ (State.interruptSlot s p halt) := by
  unfold State.interruptSlot
  repeat' first
    | with_reducible assumption
    | with_reducible apply Kept.refl
    | with_reducible apply State.interrupt_kept
    | with_reducible apply Kept.ite
    | ((try lift_lets -underBinder); intro x; have hx : Kept qt s₀ x := ?_; (on_goal 1 => clear_value x); (on_goal 2 => dsimp only [x]))
    | ((try lift_lets -underBinder); intro x; clear_value x)
    | split

theorem State.swapAnswer_kept {qt : Bool} {s₀ s : State} (h : Kept qt s₀ s) (n r : Nat) : Kept qt s₀ (State.swapAnswer s n r) := by
  unfold State.swapAnswer
  repeat' first
    | with_reducible assumption
    | with_reducible apply Kept.refl
    | (with_reducible refine Kept.each ?_ _ (fun _ t _ => ?_))
    | with_reducible apply State.answer_kept
    | with_reducible apply Kept.ite
    | ((try lift_lets -underBinder); intro x; have hx : Kept qt s₀ x := ?_; (on_goal 1 => clear_value x); (on_goal 2 => dsimp only [x]))
    | ((try lift_lets -underBinder); intro x; clear_value x)
    | split

theorem State.noteArmed_kept {qt : Bool} {s₀ s : State} (h : Kept qt s₀ s) (c : Nat) : Kept qt s₀ (State.noteArmed s c) := by
  unfold State.noteArmed
  repeat' first
    | with_reducible assumption
    | with_reducible apply Kept.refl
    | (with_reducible refine Kept.modChan ?_ _ ?_)
    | with_reducible apply Kept.ite
    | ((try lift_lets -underBinder); intro x; have hx : Kept qt s₀ x := ?_; (on_goal 1 => clear_value x); (on_goal 2 => dsimp only [x]))
    | ((try lift_lets -underBinder); intro x; clear_value x)
    | split
    | (with_reducible apply Kept.upd; first | with_reducible assumption | with_reducible apply Kept.refl | (with_reducible refine Kept.modChan ?_ _ ?_))
    | exact id
    | (intro x hx; exact hx)
    | (intro x hx; simp_all [PwmChan.oneSided])
    | (intro hx; simp_all [PwmChan.oneSided])

theorem State.gateOff_kept {qt : Bool} {s₀ s : State} (h : Kept qt s₀ s) (c : Nat) (high : Bool) (trip : Bool) (soft : Bool) :
    Kept qt s₀ (State.gateOff s c high trip soft) := by
  unfold State.gateOff
  dsimp only
  refine Kept.ite h ?_
  refine Kept.modChan (h.put _ _) c (fun x hx => ?_)
  revert hx
  cases high <;> simp only [PwmChan.oneSided, PwmChan.setGate, PwmChan.noteOff_h, PwmChan.noteOff_l, PwmChan.noteOff_incoming] <;>
    cases hb : x.h.on <;> cases hl : x.l.on <;> cases hi : x.incoming <;> simp_all

theorem State.gateOn_kept {qt : Bool} {s₀ s : State} (h : Kept qt s₀ s) (c : Nat) (high : Bool) :
    Kept qt s₀ (State.gateOn s c high) := by
  unfold State.gateOn
  dsimp only
  split
  · exact h
  · rename_i hx
    refine h.setChan c (fun _ => ?_)
    cases high <;> simp_all [PwmChan.oneSided, PwmChan.setGate, PwmChan.gate]

theorem State.force_kept {qt : Bool} {s₀ s : State} (h : Kept qt s₀ s) (c mode : Nat) (low : Bool) (soft : Bool) :
    Kept qt s₀ (State.force s c mode low soft) := by
  unfold State.force
  dsimp only
  generalize ht : (if mode = mLowon then s.put (PWM_STAT_MODE c) mode else (s.put (PWM_STAT_MODE c) mode).wr (PWM_CARRY c) 0) = t
  have hk : Kept qt s₀ t := ht ▸ Kept.ite (h.put _ _) ((h.put _ _).wr _ _)
  have hc : t.chan c = s.chan c := by subst ht; split <;> simp
  have g1 := t.gateOff_gates c true (mode == mKilled) soft
  have g2 := (t.gateOff c true (mode == mKilled) soft).gateOff_gates c false (mode == mKilled) soft
  rw [hc] at g1
  cases low with
  | false =>
    simp only [Bool.false_and, Bool.false_eq_true, if_false]
    refine (State.gateOff_kept (State.gateOff_kept hk _ _ _ _) _ _ _ _).setChan c (fun _ => ?_)
    simp [PwmChan.oneSided, g1, g2]
  | true =>
    simp only [Bool.true_and, if_true]
    have hm : ∀ w : Nat, Kept qt s₀ ((t.gateOff c true (mode == mKilled) soft).modChan c (fun y => { y with
        incoming := if (!(s.chan c).l.on && (((s.chan c).h.on && s.deadTd c != 0) || (s.chan c).incoming.isSome)) = true then some false else none,
        deadAt := if (s.chan c).h.on = true then 2 * w + s.deadTd c else y.deadAt, edges := [], pulse := none, extra := 0, lead := 0,
        skip := false, lowLen := none, refresh := false, vhArmed := y.vhArmed && mode != mOff && mode != mKilled })) := fun w => by
      refine (State.gateOff_kept hk _ _ _ _).setChan c (fun _ => ?_)
      simp only [PwmChan.oneSided, g1, if_true]
      cases (s.chan c).l.on <;> simp
    exact Kept.ite (State.gateOn_kept (hm _) _ _) (hm _)

theorem State.endPulses_kept {qt : Bool} {s₀ s : State} (h : Kept qt s₀ s) (cs : List Nat) : Kept qt s₀ (State.endPulses s cs) := by
  unfold State.endPulses
  apply Kept.upd
  exact Kept.each h _ (fun _ _ ht => State.force_kept ht _ _ _ _)

theorem State.dropTest_kept {qt : Bool} {s₀ s : State} (h : Kept qt s₀ s) (n : Nat) : Kept qt s₀ (State.dropTest s n) :=
  (State.endPulses_kept h _).endTest n

theorem State.missBind_kept {qt : Bool} {s₀ s : State} (h : Kept qt s₀ s) (n : Nat) : Kept qt s₀ (State.missBind s n) := by
  unfold State.missBind
  split
  · exact Kept.ite (h.err _ _) h
  · exact h

theorem State.safeState_kept {qt : Bool} {s₀ s : State} (h : Kept qt s₀ s) (c : Nat) : Kept qt s₀ (State.safeState s c) := by
  unfold State.safeState
  repeat' first
    | with_reducible assumption
    | with_reducible apply Kept.refl
    | with_reducible apply State.force_kept
    | with_reducible apply Kept.ite
    | ((try lift_lets -underBinder); intro x; have hx : Kept qt s₀ x := ?_; (on_goal 1 => clear_value x); (on_goal 2 => dsimp only [x]))
    | ((try lift_lets -underBinder); intro x; clear_value x)

theorem State.brakeOff_kept {qt : Bool} {s₀ s : State} (h : Kept qt s₀ s) (n : Nat) (mode : Nat) : Kept qt s₀ (State.brakeOff s n mode) := by
  unfold State.brakeOff
  repeat' first
    | with_reducible assumption
    | with_reducible apply Kept.refl
    | (with_reducible refine Kept.each ?_ _ (fun _ t _ => ?_))
    | with_reducible apply Kept.put
    | with_reducible apply State.force_kept
    | with_reducible apply Kept.ite
    | ((try lift_lets -underBinder); intro x; have hx : Kept qt s₀ x := ?_; (on_goal 1 => clear_value x); (on_goal 2 => dsimp only [x]))
    | ((try lift_lets -underBinder); intro x; clear_value x)
    | split

theorem State.swapAbandon_kept {qt : Bool} {s₀ s : State} (h : Kept qt s₀ s) (n result : Nat) : Kept qt s₀ (State.swapAbandon s n result) := by
  unfold State.swapAbandon
  repeat' first
    | with_reducible assumption
    | with_reducible apply Kept.refl
    | with_reducible apply Kept.put
    | with_reducible apply Kept.setSwap
    | with_reducible apply State.swapAnswer_kept
    | with_reducible apply Kept.ite
    | ((try lift_lets -underBinder); intro x; have hx : Kept qt s₀ x := ?_; (on_goal 1 => clear_value x); (on_goal 2 => dsimp only [x]))
    | ((try lift_lets -underBinder); intro x; clear_value x)
    | split

theorem State.emergencyClose_kept {qt : Bool} {s₀ s : State} (h : Kept qt s₀ s) (n role : Nat) : Kept qt s₀ (State.emergencyClose s n role) := by
  unfold State.emergencyClose
  repeat' first
    | with_reducible assumption
    | with_reducible apply Kept.refl
    | with_reducible apply Kept.put
    | with_reducible apply Kept.setSwap
    | with_reducible apply Kept.ite
    | ((try lift_lets -underBinder); intro x; have hx : Kept qt s₀ x := ?_; (on_goal 1 => clear_value x); (on_goal 2 => dsimp only [x]))
    | ((try lift_lets -underBinder); intro x; clear_value x)
    | split

theorem State.emergencyAbandon_kept {qt : Bool} {s₀ s : State} (h : Kept qt s₀ s) (n role : Nat) : Kept qt s₀ (State.emergencyAbandon s n role) := by
  unfold State.emergencyAbandon
  repeat' first
    | with_reducible assumption
    | with_reducible apply Kept.refl
    | with_reducible apply Kept.put
    | with_reducible apply State.emergencyClose_kept
    | with_reducible apply Kept.ite
    | ((try lift_lets -underBinder); intro x; have hx : Kept qt s₀ x := ?_; (on_goal 1 => clear_value x); (on_goal 2 => dsimp only [x]))
    | ((try lift_lets -underBinder); intro x; clear_value x)
    | split

theorem State.stopRoutes_kept {qt : Bool} {s₀ s : State} (h : Kept qt s₀ s) (n : Nat) : Kept qt s₀ (State.stopRoutes s n) := by
  unfold State.stopRoutes
  repeat' first
    | with_reducible assumption
    | with_reducible apply Kept.refl
    | (with_reducible refine Kept.each ?_ _ (fun _ t _ => ?_))
    | with_reducible apply Kept.put
    | with_reducible apply Kept.ite
    | ((try lift_lets -underBinder); intro x; have hx : Kept qt s₀ x := ?_; (on_goal 1 => clear_value x); (on_goal 2 => dsimp only [x]))
    | ((try lift_lets -underBinder); intro x; clear_value x)
    | split

theorem State.keepHead_kept {qt : Bool} {s₀ s : State} (h : Kept qt s₀ s) (n : Nat) : Kept qt s₀ (State.keepHead s n) := by
  unfold State.keepHead
  repeat' first
    | with_reducible assumption
    | with_reducible apply Kept.refl
    | with_reducible apply Kept.put
    | with_reducible apply Kept.ite
    | ((try lift_lets -underBinder); intro x; have hx : Kept qt s₀ x := ?_; (on_goal 1 => clear_value x); (on_goal 2 => dsimp only [x]))
    | ((try lift_lets -underBinder); intro x; clear_value x)
    | split

theorem State.clearPitst_kept {qt : Bool} {s₀ s : State} (h : Kept qt s₀ s) (n : Nat) : Kept qt s₀ (State.clearPitst s n) := by
  unfold State.clearPitst
  repeat' first
    | with_reducible assumption
    | with_reducible apply Kept.refl
    | with_reducible apply Kept.put
    | with_reducible apply Kept.ite
    | ((try lift_lets -underBinder); intro x; have hx : Kept qt s₀ x := ?_; (on_goal 1 => clear_value x); (on_goal 2 => dsimp only [x]))
    | ((try lift_lets -underBinder); intro x; clear_value x)

theorem State.abandonPitch_kept {qt : Bool} {s₀ s : State} (h : Kept qt s₀ s) (n : Nat) : Kept qt s₀ (State.abandonPitch s n) := by
  unfold State.abandonPitch
  repeat' first
    | with_reducible assumption
    | with_reducible apply Kept.refl
    | with_reducible apply Kept.modGen
    | with_reducible apply State.interruptPitch_kept
    | with_reducible apply State.clearPitst_kept
    | with_reducible apply Kept.ite
    | ((try lift_lets -underBinder); intro x; have hx : Kept qt s₀ x := ?_; (on_goal 1 => clear_value x); (on_goal 2 => dsimp only [x]))
    | ((try lift_lets -underBinder); intro x; clear_value x)
    | split
    | (with_reducible apply Kept.upd; first | with_reducible assumption | with_reducible apply Kept.refl | with_reducible apply Kept.modGen | with_reducible apply State.interruptPitch_kept | with_reducible apply State.clearPitst_kept)

theorem State.sourceOff_kept {qt : Bool} {s₀ s : State} (h : Kept qt s₀ s) (n : Nat) : Kept qt s₀ (State.sourceOff s n) := by
  unfold State.sourceOff
  repeat' first
    | with_reducible assumption
    | with_reducible apply Kept.refl
    | with_reducible apply Kept.put
    | with_reducible apply Kept.inc
    | with_reducible apply Kept.setGen
    | with_reducible apply Kept.modGen
    | with_reducible apply State.clearPitst_kept
    | with_reducible apply State.abandonPitch_kept
    | with_reducible apply Kept.ite
    | ((try lift_lets -underBinder); intro x; have hx : Kept qt s₀ x := ?_; (on_goal 1 => clear_value x); (on_goal 2 => dsimp only [x]))
    | ((try lift_lets -underBinder); intro x; clear_value x)
    | split
    | (with_reducible apply Kept.upd; first | with_reducible assumption | with_reducible apply Kept.refl | with_reducible apply Kept.put | with_reducible apply Kept.inc | with_reducible apply Kept.setGen | with_reducible apply Kept.modGen | with_reducible apply State.clearPitst_kept | with_reducible apply State.abandonPitch_kept)

theorem State.stopGen_kept {qt : Bool} {s₀ s : State} (h : Kept qt s₀ s) (n : Nat) : Kept qt s₀ (State.stopGen s n) := by
  unfold State.stopGen
  repeat' first
    | with_reducible assumption
    | with_reducible apply Kept.refl
    | with_reducible apply Kept.put
    | with_reducible apply Kept.modGen
    | with_reducible apply State.abandonPitch_kept
    | with_reducible apply Kept.ite
    | ((try lift_lets -underBinder); intro x; have hx : Kept qt s₀ x := ?_; (on_goal 1 => clear_value x); (on_goal 2 => dsimp only [x]))
    | ((try lift_lets -underBinder); intro x; clear_value x)
    | split
    | (with_reducible apply Kept.upd; first | with_reducible assumption | with_reducible apply Kept.refl | with_reducible apply Kept.put | with_reducible apply Kept.modGen | with_reducible apply State.abandonPitch_kept)

theorem State.emitSteps_kept {qt : Bool} {s₀ s : State} (h : Kept qt s₀ s) (n k : Nat) : Kept qt s₀ (State.emitSteps s n k) := by
  unfold State.emitSteps
  repeat' first
    | with_reducible assumption
    | with_reducible apply Kept.refl
    | with_reducible apply Kept.puti
    | with_reducible apply Kept.modGen
    | with_reducible apply Kept.ite
    | ((try lift_lets -underBinder); intro x; have hx : Kept qt s₀ x := ?_; (on_goal 1 => clear_value x); (on_goal 2 => dsimp only [x]))
    | ((try lift_lets -underBinder); intro x; clear_value x)
    | split
    | (with_reducible apply Kept.upd; first | with_reducible assumption | with_reducible apply Kept.refl | with_reducible apply Kept.puti | with_reducible apply Kept.modGen)

theorem State.cutSteps_kept {qt : Bool} {s₀ s : State} (h : Kept qt s₀ s) (n : Nat) (drop : Bool) : Kept qt s₀ (State.cutSteps s n drop) := by
  unfold State.cutSteps
  repeat' first
    | with_reducible assumption
    | with_reducible apply Kept.refl
    | with_reducible apply Kept.puti
    | with_reducible apply Kept.setGen
    | with_reducible apply State.emitSteps_kept
    | with_reducible apply Kept.ite
    | ((try lift_lets -underBinder); intro x; have hx : Kept qt s₀ x := ?_; (on_goal 1 => clear_value x); (on_goal 2 => dsimp only [x]))
    | ((try lift_lets -underBinder); intro x; clear_value x)
    | split
    | (with_reducible apply Kept.upd; first | with_reducible assumption | with_reducible apply Kept.refl | with_reducible apply Kept.puti | with_reducible apply Kept.setGen | with_reducible apply State.emitSteps_kept)

theorem State.stopSteps_kept {qt : Bool} {s₀ s : State} (h : Kept qt s₀ s) (n : Nat) (held : Bool) : Kept qt s₀ (State.stopSteps s n held) := by
  unfold State.stopSteps
  repeat' first
    | with_reducible assumption
    | with_reducible apply Kept.refl
    | with_reducible apply Kept.put
    | with_reducible apply State.cutSteps_kept
    | with_reducible apply Kept.ite
    | ((try lift_lets -underBinder); intro x; have hx : Kept qt s₀ x := ?_; (on_goal 1 => clear_value x); (on_goal 2 => dsimp only [x]))
    | ((try lift_lets -underBinder); intro x; clear_value x)
    | split

theorem State.prStop_kept {qt : Bool} {s₀ s : State} (h : Kept qt s₀ s) (n : Nat) : Kept qt s₀ (State.prStop s n) := by
  unfold State.prStop
  repeat' first
    | with_reducible assumption
    | with_reducible apply Kept.refl
    | with_reducible apply Kept.put
    | with_reducible apply Kept.setPr
    | with_reducible apply Kept.ite
    | ((try lift_lets -underBinder); intro x; have hx : Kept qt s₀ x := ?_; (on_goal 1 => clear_value x); (on_goal 2 => dsimp only [x]))
    | ((try lift_lets -underBinder); intro x; clear_value x)

theorem State.toTripped_kept {qt : Bool} {s₀ s : State} (h : Kept qt s₀ s) (n reason : Nat) (how : SafeHow) (held : Bool) : Kept qt s₀ (State.toTripped s n reason how held) := by
  unfold State.toTripped
  repeat' first
    | with_reducible assumption
    | with_reducible apply Kept.refl
    | (with_reducible refine Kept.each ?_ _ (fun _ t _ => ?_))
    | with_reducible apply Kept.put
    | with_reducible apply Kept.modCc
    | with_reducible apply State.interruptWait_kept
    | with_reducible apply State.noteArmed_kept
    | with_reducible apply State.force_kept
    | with_reducible apply State.safeState_kept
    | with_reducible apply State.brakeOff_kept
    | with_reducible apply State.swapAbandon_kept
    | with_reducible apply State.stopRoutes_kept
    | with_reducible apply State.stopGen_kept
    | with_reducible apply State.stopSteps_kept
    | with_reducible apply State.prStop_kept
    | with_reducible apply Kept.ite
    | ((try lift_lets -underBinder); intro x; have hx : Kept qt s₀ x := ?_; (on_goal 1 => clear_value x); (on_goal 2 => dsimp only [x]))
    | ((try lift_lets -underBinder); intro x; clear_value x)
    | split
    | (with_reducible apply Kept.upd; first | with_reducible assumption | with_reducible apply Kept.refl | (with_reducible refine Kept.each ?_ _ (fun _ t _ => ?_)) | with_reducible apply Kept.put | with_reducible apply Kept.modCc | with_reducible apply State.interruptWait_kept | with_reducible apply State.noteArmed_kept | with_reducible apply State.force_kept | with_reducible apply State.safeState_kept | with_reducible apply State.brakeOff_kept | with_reducible apply State.swapAbandon_kept | with_reducible apply State.stopRoutes_kept | with_reducible apply State.stopGen_kept | with_reducible apply State.stopSteps_kept | with_reducible apply State.prStop_kept)

theorem State.toRappel_kept {qt : Bool} {s₀ s : State} (h : Kept qt s₀ s) (n reason : Nat) (de : Bool) : Kept qt s₀ (State.toRappel s n reason de) := by
  unfold State.toRappel
  repeat' first
    | with_reducible assumption
    | with_reducible apply Kept.refl
    | with_reducible apply Kept.put
    | with_reducible apply Kept.modGen
    | with_reducible apply State.interruptWait_kept
    | with_reducible apply State.sourceOff_kept
    | with_reducible apply State.cutSteps_kept
    | with_reducible apply Kept.ite
    | ((try lift_lets -underBinder); intro x; have hx : Kept qt s₀ x := ?_; (on_goal 1 => clear_value x); (on_goal 2 => dsimp only [x]))
    | ((try lift_lets -underBinder); intro x; clear_value x)
    | split
    | (with_reducible apply Kept.upd; first | with_reducible assumption | with_reducible apply Kept.refl | with_reducible apply Kept.put | with_reducible apply Kept.modGen | with_reducible apply State.interruptWait_kept | with_reducible apply State.sourceOff_kept | with_reducible apply State.cutSteps_kept)

theorem State.toShutdown_kept {qt : Bool} {s₀ s : State} (h : Kept qt s₀ s) (n reason : Nat) : Kept qt s₀ (State.toShutdown s n reason) := by
  unfold State.toShutdown
  repeat' first
    | with_reducible assumption
    | with_reducible apply Kept.refl
    | (with_reducible refine Kept.modChan ?_ _ ?_)
    | (with_reducible refine Kept.each ?_ _ (fun _ t _ => ?_))
    | with_reducible apply Kept.put
    | with_reducible apply Kept.modGen
    | with_reducible apply Kept.modCc
    | with_reducible apply State.interruptWait_kept
    | with_reducible apply State.force_kept
    | with_reducible apply State.swapAbandon_kept
    | with_reducible apply State.cutSteps_kept
    | with_reducible apply State.prStop_kept
    | with_reducible apply Kept.ite
    | ((try lift_lets -underBinder); intro x; have hx : Kept qt s₀ x := ?_; (on_goal 1 => clear_value x); (on_goal 2 => dsimp only [x]))
    | ((try lift_lets -underBinder); intro x; clear_value x)
    | split
    | (with_reducible apply Kept.upd; first | with_reducible assumption | with_reducible apply Kept.refl | (with_reducible refine Kept.modChan ?_ _ ?_) | (with_reducible refine Kept.each ?_ _ (fun _ t _ => ?_)) | with_reducible apply Kept.put | with_reducible apply Kept.modGen | with_reducible apply Kept.modCc | with_reducible apply State.interruptWait_kept | with_reducible apply State.force_kept | with_reducible apply State.swapAbandon_kept | with_reducible apply State.cutSteps_kept | with_reducible apply State.prStop_kept)
    | exact id
    | (intro x hx; exact hx)
    | (intro x hx; simp_all [PwmChan.oneSided])
    | (intro hx; simp_all [PwmChan.oneSided])

theorem State.toRun_kept {qt : Bool} {s₀ s : State} (h : Kept qt s₀ s) (n : Nat) : Kept qt s₀ (State.toRun s n) := by
  unfold State.toRun
  repeat' first
    | with_reducible assumption
    | with_reducible apply Kept.refl
    | with_reducible apply Kept.put
    | with_reducible apply Kept.modCc
    | with_reducible apply Kept.ite
    | ((try lift_lets -underBinder); intro x; have hx : Kept qt s₀ x := ?_; (on_goal 1 => clear_value x); (on_goal 2 => dsimp only [x]))
    | ((try lift_lets -underBinder); intro x; clear_value x)
    | split
    | (with_reducible apply Kept.upd; first | with_reducible assumption | with_reducible apply Kept.refl | with_reducible apply Kept.put | with_reducible apply Kept.modCc)

theorem State.toHold_kept {qt : Bool} {s₀ s : State} (h : Kept qt s₀ s) (n : Nat) : Kept qt s₀ (State.toHold s n) := by
  unfold State.toHold
  repeat' first
    | with_reducible assumption
    | with_reducible apply Kept.refl
    | with_reducible apply Kept.put
    | with_reducible apply Kept.modCc
    | with_reducible apply Kept.ite
    | ((try lift_lets -underBinder); intro x; have hx : Kept qt s₀ x := ?_; (on_goal 1 => clear_value x); (on_goal 2 => dsimp only [x]))
    | ((try lift_lets -underBinder); intro x; clear_value x)
    | (with_reducible apply Kept.upd; first | with_reducible assumption | with_reducible apply Kept.refl | with_reducible apply Kept.put | with_reducible apply Kept.modCc)

end Sys2Proof.Machine
end

