-- ==== Sys2Proof/Laws/KeepCollector.lean ====
section
/-! SUPPORT. What the operations of Machine/Collector.lean keep: one lemma per operation (Laws/Kept.lean). -/
namespace Sys2Proof.Machine
set_option linter.unusedTactic false
set_option linter.unreachableTactic false
set_option linter.unusedVariables false

theorem State.offer_kept {qt : Bool} {s₀ s : State} (h : Kept qt s₀ s) (r : LogRec) : Kept qt s₀ (State.offer s r) := by
  unfold State.offer
  repeat' first
    | with_reducible assumption
    | with_reducible apply Kept.refl
    | with_reducible apply Kept.ite
    | ((try lift_lets -underBinder); intro x; have hx : Kept qt s₀ x := ?_; (on_goal 1 => clear_value x); (on_goal 2 => dsimp only [x]))
    | ((try lift_lets -underBinder); intro x; clear_value x)
    | (with_reducible apply Kept.upd; first | with_reducible assumption | with_reducible apply Kept.refl)

theorem State.mirrorWait_kept {qt : Bool} {s₀ s : State} (h : Kept qt s₀ s) (r : LogRec) : Kept qt s₀ (State.mirrorWait s r) := by
  unfold State.mirrorWait
  repeat' first
    | with_reducible assumption
    | with_reducible apply Kept.refl
    | with_reducible apply Kept.put
    | with_reducible apply Kept.inc
    | with_reducible apply Kept.ite
    | ((try lift_lets -underBinder); intro x; have hx : Kept qt s₀ x := ?_; (on_goal 1 => clear_value x); (on_goal 2 => dsimp only [x]))
    | ((try lift_lets -underBinder); intro x; clear_value x)
    | split
    | (with_reducible apply Kept.upd; first | with_reducible assumption | with_reducible apply Kept.refl | with_reducible apply Kept.put | with_reducible apply Kept.inc)

theorem State.logWrite_kept {qt : Bool} {s₀ s : State} (h : Kept qt s₀ s) (r : LogRec) : Kept qt s₀ (State.logWrite s r) := by
  unfold State.logWrite
  repeat' first
    | with_reducible assumption
    | with_reducible apply Kept.refl
    | with_reducible apply Kept.inc
    | with_reducible apply Kept.incSat
    | with_reducible apply State.mirrorWait_kept
    | with_reducible apply Kept.ite
    | ((try lift_lets -underBinder); intro x; have hx : Kept qt s₀ x := ?_; (on_goal 1 => clear_value x); (on_goal 2 => dsimp only [x]))
    | ((try lift_lets -underBinder); intro x; clear_value x)
    | split
    | (with_reducible apply Kept.upd; first | with_reducible assumption | with_reducible apply Kept.refl | with_reducible apply Kept.inc | with_reducible apply Kept.incSat | with_reducible apply State.mirrorWait_kept)

theorem State.unfreeze_kept {qt : Bool} {s₀ s : State} (h : Kept qt s₀ s) (endCode : Nat) : Kept qt s₀ (State.unfreeze s endCode) := by
  unfold State.unfreeze
  repeat' first
    | with_reducible assumption
    | with_reducible apply Kept.refl
    | with_reducible apply Kept.wr
    | with_reducible apply Kept.put
    | with_reducible apply State.logWrite_kept
    | with_reducible apply Kept.ite
    | ((try lift_lets -underBinder); intro x; have hx : Kept qt s₀ x := ?_; (on_goal 1 => clear_value x); (on_goal 2 => dsimp only [x]))
    | ((try lift_lets -underBinder); intro x; clear_value x)

theorem State.startSave_kept {qt : Bool} {s₀ s : State} (h : Kept qt s₀ s) (sag s4 : Bool) : Kept qt s₀ (State.startSave s sag s4) := by
  unfold State.startSave
  repeat' first
    | with_reducible assumption
    | with_reducible apply Kept.refl
    | with_reducible apply Kept.put
    | with_reducible apply Kept.ite
    | ((try lift_lets -underBinder); intro x; have hx : Kept qt s₀ x := ?_; (on_goal 1 => clear_value x); (on_goal 2 => dsimp only [x]))
    | ((try lift_lets -underBinder); intro x; clear_value x)
    | split
    | (with_reducible apply Kept.upd; first | with_reducible assumption | with_reducible apply Kept.refl | with_reducible apply Kept.put)

theorem State.reactS3_kept {qt : Bool} {s₀ s : State} (h : Kept qt s₀ s) (gs rs : List Nat) (reason : Nat) (held : Bool) : Kept qt s₀ (State.reactS3 s gs rs reason held) := by
  unfold State.reactS3
  repeat' first
    | with_reducible assumption
    | with_reducible apply Kept.refl
    | (with_reducible refine Kept.each ?_ _ (fun _ t _ => ?_))
    | with_reducible apply State.brakeOff_kept
    | with_reducible apply State.toTripped_kept
    | with_reducible apply Kept.ite
    | ((try lift_lets -underBinder); intro x; have hx : Kept qt s₀ x := ?_; (on_goal 1 => clear_value x); (on_goal 2 => dsimp only [x]))
    | ((try lift_lets -underBinder); intro x; clear_value x)
    | split

theorem State.killHandover_kept {qt : Bool} {s₀ s : State} (h : Kept qt s₀ s) : Kept qt s₀ (State.killHandover s) := by
  unfold State.killHandover
  repeat' first
    | with_reducible assumption
    | with_reducible apply Kept.refl
    | with_reducible apply Kept.ite
    | ((try lift_lets -underBinder); intro x; have hx : Kept qt s₀ x := ?_; (on_goal 1 => clear_value x); (on_goal 2 => dsimp only [x]))
    | ((try lift_lets -underBinder); intro x; clear_value x)
    | (with_reducible apply Kept.upd; first | with_reducible assumption | with_reducible apply Kept.refl)

theorem State.reactS4_kept {qt : Bool} {s₀ s : State} (h : Kept qt s₀ s) : Kept qt s₀ (State.reactS4 s) := by
  unfold State.reactS4
  repeat' first
    | with_reducible assumption
    | with_reducible apply Kept.refl
    | (with_reducible refine Kept.each ?_ _ (fun _ t _ => ?_))
    | with_reducible apply Kept.put
    | with_reducible apply Kept.modStream
    | with_reducible apply State.interruptSlot_kept
    | with_reducible apply State.startSave_kept
    | with_reducible apply State.reactS3_kept
    | with_reducible apply State.killHandover_kept
    | with_reducible apply Kept.ite
    | ((try lift_lets -underBinder); intro x; have hx : Kept qt s₀ x := ?_; (on_goal 1 => clear_value x); (on_goal 2 => dsimp only [x]))
    | ((try lift_lets -underBinder); intro x; clear_value x)
    | split
    | (with_reducible apply Kept.upd; first | with_reducible assumption | with_reducible apply Kept.refl | (with_reducible refine Kept.each ?_ _ (fun _ t _ => ?_)) | with_reducible apply Kept.put | with_reducible apply Kept.modStream | with_reducible apply State.interruptSlot_kept | with_reducible apply State.startSave_kept | with_reducible apply State.reactS3_kept | with_reducible apply State.killHandover_kept)

theorem State.react_kept {qt : Bool} {s₀ s : State} (h : Kept qt s₀ s) (src sev : Nat) : Kept qt s₀ (State.react s src sev) := by
  unfold State.react
  repeat' first
    | with_reducible assumption
    | with_reducible apply Kept.refl
    | (with_reducible refine Kept.each ?_ _ (fun _ t _ => ?_))
    | with_reducible apply State.keepHead_kept
    | with_reducible apply State.toRappel_kept
    | with_reducible apply State.reactS3_kept
    | with_reducible apply State.reactS4_kept
    | with_reducible apply Kept.ite
    | ((try lift_lets -underBinder); intro x; have hx : Kept qt s₀ x := ?_; (on_goal 1 => clear_value x); (on_goal 2 => dsimp only [x]))
    | ((try lift_lets -underBinder); intro x; clear_value x)
    | split

theorem State.notifyHost_kept {qt : Bool} {s₀ s : State} (h : Kept qt s₀ s) (m : Msg) (h : Nat) : Kept qt s₀ (State.notifyHost s m h) := by
  unfold State.notifyHost
  repeat' first
    | with_reducible assumption
    | with_reducible apply Kept.refl
    | with_reducible apply Kept.put
    | with_reducible apply Kept.inc
    | with_reducible apply Kept.modHost
    | with_reducible apply Kept.ite
    | ((try lift_lets -underBinder); intro x; have hx : Kept qt s₀ x := ?_; (on_goal 1 => clear_value x); (on_goal 2 => dsimp only [x]))
    | ((try lift_lets -underBinder); intro x; clear_value x)
    | split
    | (with_reducible apply Kept.upd; first | with_reducible assumption | with_reducible apply Kept.refl | with_reducible apply Kept.put | with_reducible apply Kept.inc | with_reducible apply Kept.modHost)

theorem State.traceTrigger_kept {qt : Bool} {s₀ s : State} (h : Kept qt s₀ s) (e time : Nat) : Kept qt s₀ (State.traceTrigger s e time) := by
  unfold State.traceTrigger
  repeat' first
    | with_reducible assumption
    | with_reducible apply Kept.refl
    | with_reducible apply Kept.wr64
    | with_reducible apply Kept.put
    | with_reducible apply Kept.modEngine
    | with_reducible apply Kept.ite
    | ((try lift_lets -underBinder); intro x; have hx : Kept qt s₀ x := ?_; (on_goal 1 => clear_value x); (on_goal 2 => dsimp only [x]))
    | ((try lift_lets -underBinder); intro x; clear_value x)
    | split
    | (with_reducible apply Kept.upd; first | with_reducible assumption | with_reducible apply Kept.refl | with_reducible apply Kept.wr64 | with_reducible apply Kept.put | with_reducible apply Kept.modEngine)

theorem State.hkcSignal_kept {qt : Bool} {s₀ s : State} (h : Kept qt s₀ s) (c : Bool) (time : Nat) : Kept qt s₀ (State.hkcSignal s c time) := by
  unfold State.hkcSignal
  repeat' first
    | with_reducible assumption
    | with_reducible apply Kept.refl
    | with_reducible apply Kept.ite
    | ((try lift_lets -underBinder); intro x; have hx : Kept qt s₀ x := ?_; (on_goal 1 => clear_value x); (on_goal 2 => dsimp only [x]))
    | ((try lift_lets -underBinder); intro x; clear_value x)
    | split
    | (with_reducible apply Kept.upd; first | with_reducible assumption | with_reducible apply Kept.refl)

theorem State.raise_kept {qt : Bool} {s₀ s : State} (h : Kept qt s₀ s) (src kind detail addr time : Nat) (loc : Bool) (sevIs : Option Nat) : Kept qt s₀ (State.raise s src kind detail addr time loc sevIs) := by
  unfold State.raise
  repeat' first
    | with_reducible assumption
    | with_reducible apply Kept.refl
    | (with_reducible refine Kept.each ?_ _ (fun _ t _ => ?_))
    | with_reducible apply Kept.put
    | with_reducible apply Kept.inc
    | with_reducible apply State.react_kept
    | with_reducible apply State.notifyHost_kept
    | with_reducible apply State.traceTrigger_kept
    | with_reducible apply State.hkcSignal_kept
    | with_reducible apply Kept.ite
    | ((try lift_lets -underBinder); intro x; have hx : Kept qt s₀ x := ?_; (on_goal 1 => clear_value x); (on_goal 2 => dsimp only [x]))
    | ((try lift_lets -underBinder); intro x; clear_value x)
    | split
    | (with_reducible apply Kept.upd; first | with_reducible assumption | with_reducible apply Kept.refl | (with_reducible refine Kept.each ?_ _ (fun _ t _ => ?_)) | with_reducible apply Kept.put | with_reducible apply Kept.inc | with_reducible apply State.react_kept | with_reducible apply State.notifyHost_kept | with_reducible apply State.traceTrigger_kept | with_reducible apply State.hkcSignal_kept)

theorem State.raiseRoute_kept {qt : Bool} {s₀ s : State} (h : Kept qt s₀ s) (n role k detail : Nat) : Kept qt s₀ (State.raiseRoute s n role k detail) := by
  unfold State.raiseRoute
  repeat' first
    | with_reducible assumption
    | with_reducible apply Kept.refl
    | with_reducible apply State.raise_kept
    | with_reducible apply Kept.ite
    | ((try lift_lets -underBinder); intro x; have hx : Kept qt s₀ x := ?_; (on_goal 1 => clear_value x); (on_goal 2 => dsimp only [x]))
    | ((try lift_lets -underBinder); intro x; clear_value x)
    | split

theorem State.raiseSlot_kept {qt : Bool} {s₀ s : State} (h : Kept qt s₀ s) (n k detail : Nat) (kind : Nat) : Kept qt s₀ (State.raiseSlot s n k detail kind) := by
  unfold State.raiseSlot
  repeat' first
    | with_reducible assumption
    | with_reducible apply Kept.refl
    | with_reducible apply State.raise_kept
    | with_reducible apply Kept.ite
    | ((try lift_lets -underBinder); intro x; have hx : Kept qt s₀ x := ?_; (on_goal 1 => clear_value x); (on_goal 2 => dsimp only [x]))
    | ((try lift_lets -underBinder); intro x; clear_value x)

end Sys2Proof.Machine
end

