-- ==== Sys2Proof/Laws/KeepMotion.lean ====
section
/-! SUPPORT. What the operations of Machine/Motion.lean keep: one lemma per operation (Laws/Kept.lean). -/
namespace Sys2Proof.Machine
set_option linter.unusedTactic false
set_option linter.unreachableTactic false
set_option linter.unusedVariables false

theorem State.syncQueue_kept {qt : Bool} {s₀ s : State} (h : Kept qt s₀ s) (n : Nat) : Kept qt s₀ (State.syncQueue s n) := by
  unfold State.syncQueue
  repeat' first
    | with_reducible assumption
    | with_reducible apply Kept.refl
    | with_reducible apply Kept.put
    | with_reducible apply Kept.ite
    | ((try lift_lets -underBinder); intro x; have hx : Kept qt s₀ x := ?_; (on_goal 1 => clear_value x); (on_goal 2 => dsimp only [x]))
    | ((try lift_lets -underBinder); intro x; clear_value x)

theorem State.offerPitch_kept {qt : Bool} {s₀ s : State} (h : Kept qt s₀ s) (n : Nat) (e : List Word) : Kept qt s₀ (State.offerPitch s n e).1 := by
  unfold State.offerPitch
  repeat' first
    | with_reducible assumption
    | with_reducible apply Kept.refl
    | with_reducible apply Kept.put
    | with_reducible apply Kept.inc
    | with_reducible apply Kept.modGen
    | with_reducible apply State.syncQueue_kept
    | with_reducible apply Kept.ite
    | ((try lift_lets -underBinder); intro x; have hx : Kept qt s₀ x := ?_; (on_goal 1 => clear_value x); (on_goal 2 => dsimp only [x]))
    | ((try lift_lets -underBinder); intro x; clear_value x)
    | split
    | (with_reducible apply Kept.upd; first | with_reducible assumption | with_reducible apply Kept.refl | with_reducible apply Kept.put | with_reducible apply Kept.inc | with_reducible apply Kept.modGen | with_reducible apply State.syncQueue_kept)

theorem State.strandWaits_kept {qt : Bool} {s₀ s : State} (h : Kept qt s₀ s) (n : Nat) : Kept qt s₀ (State.strandWaits s n) := by
  unfold State.strandWaits
  repeat' first
    | with_reducible assumption
    | with_reducible apply Kept.refl
    | (with_reducible refine Kept.each ?_ _ (fun _ t _ => ?_))
    | with_reducible apply Kept.modStream
    | with_reducible apply Kept.ite
    | ((try lift_lets -underBinder); intro x; have hx : Kept qt s₀ x := ?_; (on_goal 1 => clear_value x); (on_goal 2 => dsimp only [x]))
    | ((try lift_lets -underBinder); intro x; clear_value x)
    | split
    | (with_reducible apply Kept.upd; first | with_reducible assumption | with_reducible apply Kept.refl | (with_reducible refine Kept.each ?_ _ (fun _ t _ => ?_)) | with_reducible apply Kept.modStream)

theorem State.flushQueue_kept {qt : Bool} {s₀ s : State} (h : Kept qt s₀ s) (n : Nat) : Kept qt s₀ (State.flushQueue s n) := by
  unfold State.flushQueue
  repeat' first
    | with_reducible assumption
    | with_reducible apply Kept.refl
    | with_reducible apply Kept.put
    | with_reducible apply Kept.inc
    | with_reducible apply Kept.modGen
    | with_reducible apply State.syncQueue_kept
    | with_reducible apply State.strandWaits_kept
    | with_reducible apply Kept.ite
    | ((try lift_lets -underBinder); intro x; have hx : Kept qt s₀ x := ?_; (on_goal 1 => clear_value x); (on_goal 2 => dsimp only [x]))
    | ((try lift_lets -underBinder); intro x; clear_value x)
    | (with_reducible apply Kept.upd; first | with_reducible assumption | with_reducible apply Kept.refl | with_reducible apply Kept.put | with_reducible apply Kept.inc | with_reducible apply Kept.modGen | with_reducible apply State.syncQueue_kept | with_reducible apply State.strandWaits_kept)

theorem State.goQueue_kept {qt : Bool} {s₀ s : State} (h : Kept qt s₀ s) (n : Nat) : Kept qt s₀ (State.goQueue s n) := by
  unfold State.goQueue
  repeat' first
    | with_reducible assumption
    | with_reducible apply Kept.refl
    | with_reducible apply Kept.put
    | with_reducible apply Kept.ite
    | ((try lift_lets -underBinder); intro x; have hx : Kept qt s₀ x := ?_; (on_goal 1 => clear_value x); (on_goal 2 => dsimp only [x]))
    | ((try lift_lets -underBinder); intro x; clear_value x)
    | split

theorem State.syncWait_kept {qt : Bool} {s₀ s : State} (h : Kept qt s₀ s) (n : Nat) : Kept qt s₀ (State.syncWait s n) := by
  unfold State.syncWait
  repeat' first
    | with_reducible assumption
    | with_reducible apply Kept.refl
    | with_reducible apply Kept.flag
    | with_reducible apply Kept.ite
    | ((try lift_lets -underBinder); intro x; have hx : Kept qt s₀ x := ?_; (on_goal 1 => clear_value x); (on_goal 2 => dsimp only [x]))
    | ((try lift_lets -underBinder); intro x; clear_value x)
    | split

theorem State.endPitch_kept {qt : Bool} {s₀ s : State} (h : Kept qt s₀ s) (n : Nat) (q : Pitch) : Kept qt s₀ (State.endPitch s n q) := by
  unfold State.endPitch
  repeat' first
    | with_reducible assumption
    | with_reducible apply Kept.refl
    | with_reducible apply Kept.put
    | with_reducible apply Kept.inc
    | with_reducible apply Kept.modGen
    | with_reducible apply State.clearPitst_kept
    | with_reducible apply State.raiseSlot_kept
    | with_reducible apply Kept.ite
    | ((try lift_lets -underBinder); intro x; have hx : Kept qt s₀ x := ?_; (on_goal 1 => clear_value x); (on_goal 2 => dsimp only [x]))
    | ((try lift_lets -underBinder); intro x; clear_value x)
    | split
    | (with_reducible apply Kept.upd; first | with_reducible assumption | with_reducible apply Kept.refl | with_reducible apply Kept.put | with_reducible apply Kept.inc | with_reducible apply Kept.modGen | with_reducible apply State.clearPitst_kept | with_reducible apply State.raiseSlot_kept)

theorem State.pitchNotRun_kept {qt : Bool} {s₀ s : State} (h : Kept qt s₀ s) (n i : Nat) : Kept qt s₀ (State.pitchNotRun s n i) := by
  unfold State.pitchNotRun
  repeat' first
    | with_reducible assumption
    | with_reducible apply Kept.refl
    | with_reducible apply Kept.put
    | with_reducible apply State.interruptPitch_kept
    | with_reducible apply Kept.ite
    | ((try lift_lets -underBinder); intro x; have hx : Kept qt s₀ x := ?_; (on_goal 1 => clear_value x); (on_goal 2 => dsimp only [x]))
    | ((try lift_lets -underBinder); intro x; clear_value x)

theorem State.beginPlan_kept {qt : Bool} {s₀ s : State} (h : Kept qt s₀ s) (n : Nat) (q : Pitch) (plan : List Phase) (fin : Finish) : Kept qt s₀ (State.beginPlan s n q plan fin) := by
  unfold State.beginPlan
  repeat' first
    | with_reducible assumption
    | with_reducible apply Kept.refl
    | with_reducible apply Kept.put
    | with_reducible apply Kept.modGen
    | with_reducible apply State.toRun_kept
    | with_reducible apply Kept.ite
    | ((try lift_lets -underBinder); intro x; have hx : Kept qt s₀ x := ?_; (on_goal 1 => clear_value x); (on_goal 2 => dsimp only [x]))
    | ((try lift_lets -underBinder); intro x; clear_value x)
    | split
    | (with_reducible apply Kept.upd; first | with_reducible assumption | with_reducible apply Kept.refl | with_reducible apply Kept.put | with_reducible apply Kept.modGen | with_reducible apply State.toRun_kept)

theorem State.holdSpeed_kept {qt : Bool} {s₀ s : State} (h : Kept qt s₀ s) (n : Nat) (q : Pitch) : Kept qt s₀ (State.holdSpeed s n q) := by
  unfold State.holdSpeed
  repeat' first
    | with_reducible assumption
    | with_reducible apply Kept.refl
    | with_reducible apply State.toRun_kept
    | with_reducible apply State.endPitch_kept
    | with_reducible apply State.beginPlan_kept
    | with_reducible apply Kept.ite
    | ((try lift_lets -underBinder); intro x; have hx : Kept qt s₀ x := ?_; (on_goal 1 => clear_value x); (on_goal 2 => dsimp only [x]))
    | ((try lift_lets -underBinder); intro x; clear_value x)
    | split

theorem State.startPitch_kept {qt : Bool} {s₀ s : State} (h : Kept qt s₀ s) (n : Nat) (e : List Word) (i : Nat) : Kept qt s₀ (State.startPitch s n e i) := by
  unfold State.startPitch
  repeat' first
    | with_reducible assumption
    | with_reducible apply Kept.refl
    | with_reducible apply Kept.put
    | with_reducible apply Kept.draw
    | with_reducible apply State.toRun_kept
    | with_reducible apply State.endPitch_kept
    | with_reducible apply State.pitchNotRun_kept
    | with_reducible apply State.beginPlan_kept
    | with_reducible apply State.holdSpeed_kept
    | with_reducible apply Kept.ite
    | ((try lift_lets -underBinder); intro x; have hx : Kept qt s₀ x := ?_; (on_goal 1 => clear_value x); (on_goal 2 => dsimp only [x]))
    | ((try lift_lets -underBinder); intro x; clear_value x)
    | split
    | (with_reducible apply Kept.upd; first | with_reducible assumption | with_reducible apply Kept.refl | with_reducible apply Kept.put | with_reducible apply Kept.draw | with_reducible apply State.toRun_kept | with_reducible apply State.endPitch_kept | with_reducible apply State.pitchNotRun_kept | with_reducible apply State.beginPlan_kept | with_reducible apply State.holdSpeed_kept)

theorem State.pitchStart_kept {qt : Bool} {s₀ s : State} (h : Kept qt s₀ s) (n : Nat) : Kept qt s₀ (State.pitchStart s n) := by
  unfold State.pitchStart
  repeat' first
    | with_reducible assumption
    | with_reducible apply Kept.refl
    | with_reducible apply Kept.inc
    | with_reducible apply Kept.setGen
    | with_reducible apply State.syncQueue_kept
    | with_reducible apply State.syncWait_kept
    | with_reducible apply State.startPitch_kept
    | with_reducible apply Kept.ite
    | ((try lift_lets -underBinder); intro x; have hx : Kept qt s₀ x := ?_; (on_goal 1 => clear_value x); (on_goal 2 => dsimp only [x]))
    | ((try lift_lets -underBinder); intro x; clear_value x)
    | split
    | (with_reducible apply Kept.upd; first | with_reducible assumption | with_reducible apply Kept.refl | with_reducible apply Kept.inc | with_reducible apply Kept.setGen | with_reducible apply State.syncQueue_kept | with_reducible apply State.syncWait_kept | with_reducible apply State.startPitch_kept)

theorem State.movePco_kept {qt : Bool} {s₀ s : State} (h : Kept qt s₀ s) (n : Nat) (au : Int) : Kept qt s₀ (State.movePco s n au) := by
  unfold State.movePco
  repeat' first
    | with_reducible assumption
    | with_reducible apply Kept.refl
    | (with_reducible refine Kept.each ?_ _ (fun _ t _ => ?_))
    | with_reducible apply Kept.setPco
    | with_reducible apply Kept.ite
    | ((try lift_lets -underBinder); intro x; have hx : Kept qt s₀ x := ?_; (on_goal 1 => clear_value x); (on_goal 2 => dsimp only [x]))
    | ((try lift_lets -underBinder); intro x; clear_value x)
    | split
    | (with_reducible apply Kept.upd; first | with_reducible assumption | with_reducible apply Kept.refl | (with_reducible refine Kept.each ?_ _ (fun _ t _ => ?_)) | with_reducible apply Kept.setPco)

theorem State.rebase_kept {qt : Bool} {s₀ s : State} (h : Kept qt s₀ s) (n : Nat) (au : Int) : Kept qt s₀ (State.rebase s n au) := by
  unfold State.rebase
  repeat' first
    | with_reducible assumption
    | with_reducible apply Kept.refl
    | with_reducible apply Kept.puti
    | with_reducible apply Kept.modGen
    | with_reducible apply Kept.modPr
    | with_reducible apply State.movePco_kept
    | with_reducible apply Kept.ite
    | ((try lift_lets -underBinder); intro x; have hx : Kept qt s₀ x := ?_; (on_goal 1 => clear_value x); (on_goal 2 => dsimp only [x]))
    | ((try lift_lets -underBinder); intro x; clear_value x)
    | (with_reducible apply Kept.upd; first | with_reducible assumption | with_reducible apply Kept.refl | with_reducible apply Kept.puti | with_reducible apply Kept.modGen | with_reducible apply Kept.modPr | with_reducible apply State.movePco_kept)

theorem State.homingStall_kept {qt : Bool} {s₀ s : State} (h : Kept qt s₀ s) (n : Nat) : Kept qt s₀ (State.homingStall s n) := by
  unfold State.homingStall
  repeat' first
    | with_reducible assumption
    | with_reducible apply Kept.refl
    | with_reducible apply Kept.modGen
    | with_reducible apply Kept.ite
    | ((try lift_lets -underBinder); intro x; have hx : Kept qt s₀ x := ?_; (on_goal 1 => clear_value x); (on_goal 2 => dsimp only [x]))
    | ((try lift_lets -underBinder); intro x; clear_value x)
    | split
    | (with_reducible apply Kept.upd; first | with_reducible assumption | with_reducible apply Kept.refl | with_reducible apply Kept.modGen)

theorem State.advanceStage_kept {qt : Bool} {s₀ s : State} (h : Kept qt s₀ s) (n : Nat) : Kept qt s₀ (State.advanceStage s n) := by
  unfold State.advanceStage
  repeat' first
    | with_reducible assumption
    | with_reducible apply Kept.refl
    | with_reducible apply Kept.put
    | with_reducible apply Kept.puti
    | with_reducible apply Kept.modGen
    | with_reducible apply State.clearPitst_kept
    | with_reducible apply State.abandonPitch_kept
    | with_reducible apply State.endPitch_kept
    | with_reducible apply State.rebase_kept
    | with_reducible apply Kept.ite
    | ((try lift_lets -underBinder); intro x; have hx : Kept qt s₀ x := ?_; (on_goal 1 => clear_value x); (on_goal 2 => dsimp only [x]))
    | ((try lift_lets -underBinder); intro x; clear_value x)
    | split
    | (with_reducible apply Kept.upd; first | with_reducible assumption | with_reducible apply Kept.refl | with_reducible apply Kept.put | with_reducible apply Kept.puti | with_reducible apply Kept.modGen | with_reducible apply State.clearPitst_kept | with_reducible apply State.abandonPitch_kept | with_reducible apply State.endPitch_kept | with_reducible apply State.rebase_kept)

theorem State.bufferPoint_kept {qt : Bool} {s₀ s : State} (h : Kept qt s₀ s) (n : Nat) (velok : Bool) (t : Nat) (p v : Int) : Kept qt s₀ (State.bufferPoint s n velok t p v) := by
  unfold State.bufferPoint
  repeat' first
    | with_reducible assumption
    | with_reducible apply Kept.refl
    | with_reducible apply Kept.put
    | with_reducible apply Kept.inc
    | with_reducible apply Kept.setGen
    | with_reducible apply State.toRun_kept
    | with_reducible apply State.raiseSlot_kept
    | with_reducible apply Kept.ite
    | ((try lift_lets -underBinder); intro x; have hx : Kept qt s₀ x := ?_; (on_goal 1 => clear_value x); (on_goal 2 => dsimp only [x]))
    | ((try lift_lets -underBinder); intro x; clear_value x)
    | split
    | (with_reducible apply Kept.upd; first | with_reducible assumption | with_reducible apply Kept.refl | with_reducible apply Kept.put | with_reducible apply Kept.inc | with_reducible apply Kept.setGen | with_reducible apply State.toRun_kept | with_reducible apply State.raiseSlot_kept)

theorem State.computeQueue_kept {qt : Bool} {s₀ s : State} (h : Kept qt s₀ s) (n : Nat) : Kept qt s₀ (State.computeQueue s n) := by
  unfold State.computeQueue
  repeat' first
    | with_reducible assumption
    | with_reducible apply Kept.refl
    | with_reducible apply Kept.setGen
    | with_reducible apply Kept.ite
    | ((try lift_lets -underBinder); intro x; have hx : Kept qt s₀ x := ?_; (on_goal 1 => clear_value x); (on_goal 2 => dsimp only [x]))
    | ((try lift_lets -underBinder); intro x; clear_value x)
    | split
    | (with_reducible apply Kept.upd; first | with_reducible assumption | with_reducible apply Kept.refl | with_reducible apply Kept.setGen)

theorem State.computeGear_kept {qt : Bool} {s₀ s : State} (h : Kept qt s₀ s) (n : Nat) : Kept qt s₀ (State.computeGear s n) := by
  unfold State.computeGear
  repeat' first
    | with_reducible assumption
    | with_reducible apply Kept.refl
    | with_reducible apply Kept.puti
    | with_reducible apply Kept.setGen
    | with_reducible apply State.toRun_kept
    | with_reducible apply Kept.ite
    | ((try lift_lets -underBinder); intro x; have hx : Kept qt s₀ x := ?_; (on_goal 1 => clear_value x); (on_goal 2 => dsimp only [x]))
    | ((try lift_lets -underBinder); intro x; clear_value x)
    | split
    | (with_reducible apply Kept.upd; first | with_reducible assumption | with_reducible apply Kept.refl | with_reducible apply Kept.puti | with_reducible apply Kept.setGen | with_reducible apply State.toRun_kept)

theorem State.starve_kept {qt : Bool} {s₀ s : State} (h : Kept qt s₀ s) (n : Nat) : Kept qt s₀ (State.starve s n) := by
  unfold State.starve
  repeat' first
    | with_reducible assumption
    | with_reducible apply Kept.refl
    | with_reducible apply Kept.put
    | with_reducible apply Kept.inc
    | with_reducible apply Kept.modGen
    | with_reducible apply Kept.ite
    | ((try lift_lets -underBinder); intro x; have hx : Kept qt s₀ x := ?_; (on_goal 1 => clear_value x); (on_goal 2 => dsimp only [x]))
    | ((try lift_lets -underBinder); intro x; clear_value x)
    | (with_reducible apply Kept.upd; first | with_reducible assumption | with_reducible apply Kept.refl | with_reducible apply Kept.put | with_reducible apply Kept.inc | with_reducible apply Kept.modGen)

theorem State.segmentTick_kept {qt : Bool} {s₀ s : State} (h : Kept qt s₀ s) (n t : Nat) (f : SetPoint) : Kept qt s₀ (State.segmentTick s n t f) := by
  unfold State.segmentTick
  repeat' first
    | with_reducible assumption
    | with_reducible apply Kept.refl
    | with_reducible apply Kept.put
    | with_reducible apply Kept.draw
    | with_reducible apply Kept.setGen
    | with_reducible apply State.starve_kept
    | with_reducible apply Kept.ite
    | ((try lift_lets -underBinder); intro x; have hx : Kept qt s₀ x := ?_; (on_goal 1 => clear_value x); (on_goal 2 => dsimp only [x]))
    | ((try lift_lets -underBinder); intro x; clear_value x)
    | split
    | (with_reducible apply Kept.upd; first | with_reducible assumption | with_reducible apply Kept.refl | with_reducible apply Kept.put | with_reducible apply Kept.draw | with_reducible apply Kept.setGen | with_reducible apply State.starve_kept)

theorem State.releasePoints_kept {qt : Bool} {s₀ s : State} (h : Kept qt s₀ s) (n t : Nat) : Kept qt s₀ (State.releasePoints s n t) := by
  unfold State.releasePoints
  repeat' first
    | with_reducible assumption
    | with_reducible apply Kept.refl
    | with_reducible apply Kept.put
    | with_reducible apply Kept.setGen
    | with_reducible apply State.toRun_kept
    | with_reducible apply State.segmentTick_kept
    | with_reducible apply Kept.ite
    | ((try lift_lets -underBinder); intro x; have hx : Kept qt s₀ x := ?_; (on_goal 1 => clear_value x); (on_goal 2 => dsimp only [x]))
    | ((try lift_lets -underBinder); intro x; clear_value x)
    | split
    | (with_reducible apply Kept.upd; first | with_reducible assumption | with_reducible apply Kept.refl | with_reducible apply Kept.put | with_reducible apply Kept.setGen | with_reducible apply State.toRun_kept | with_reducible apply State.segmentTick_kept)

theorem State.computePoints_kept {qt : Bool} {s₀ s : State} (h : Kept qt s₀ s) (n t : Nat) : Kept qt s₀ (State.computePoints s n t) := by
  unfold State.computePoints
  repeat' first
    | with_reducible assumption
    | with_reducible apply Kept.refl
    | with_reducible apply Kept.setGen
    | with_reducible apply State.segmentTick_kept
    | with_reducible apply State.releasePoints_kept
    | with_reducible apply Kept.ite
    | ((try lift_lets -underBinder); intro x; have hx : Kept qt s₀ x := ?_; (on_goal 1 => clear_value x); (on_goal 2 => dsimp only [x]))
    | ((try lift_lets -underBinder); intro x; clear_value x)
    | split
    | (with_reducible apply Kept.upd; first | with_reducible assumption | with_reducible apply Kept.refl | with_reducible apply Kept.setGen | with_reducible apply State.segmentTick_kept | with_reducible apply State.releasePoints_kept)

theorem State.compute_kept {qt : Bool} {s₀ s : State} (h : Kept qt s₀ s) (n : Nat) : Kept qt s₀ (State.compute s n) := by
  unfold State.compute
  repeat' first
    | with_reducible assumption
    | with_reducible apply Kept.refl
    | with_reducible apply Kept.setGen
    | with_reducible apply State.computeQueue_kept
    | with_reducible apply State.computeGear_kept
    | with_reducible apply State.computePoints_kept
    | with_reducible apply Kept.ite
    | ((try lift_lets -underBinder); intro x; have hx : Kept qt s₀ x := ?_; (on_goal 1 => clear_value x); (on_goal 2 => dsimp only [x]))
    | ((try lift_lets -underBinder); intro x; clear_value x)
    | split
    | (with_reducible apply Kept.upd; first | with_reducible assumption | with_reducible apply Kept.refl | with_reducible apply Kept.setGen | with_reducible apply State.computeQueue_kept | with_reducible apply State.computeGear_kept | with_reducible apply State.computePoints_kept)

theorem State.publish_kept {qt : Bool} {s₀ s : State} (h : Kept qt s₀ s) (n : Nat) : Kept qt s₀ (State.publish s n) := by
  unfold State.publish
  repeat' first
    | with_reducible assumption
    | with_reducible apply Kept.refl
    | with_reducible apply Kept.put
    | with_reducible apply Kept.puti
    | with_reducible apply Kept.setGen
    | with_reducible apply Kept.ite
    | ((try lift_lets -underBinder); intro x; have hx : Kept qt s₀ x := ?_; (on_goal 1 => clear_value x); (on_goal 2 => dsimp only [x]))
    | ((try lift_lets -underBinder); intro x; clear_value x)
    | (with_reducible apply Kept.upd; first | with_reducible assumption | with_reducible apply Kept.refl | with_reducible apply Kept.put | with_reducible apply Kept.puti | with_reducible apply Kept.setGen)

theorem State.backlogCheck_kept {qt : Bool} {s₀ s : State} (h : Kept qt s₀ s) (n : Nat) : Kept qt s₀ (State.backlogCheck s n) := by
  unfold State.backlogCheck
  repeat' first
    | with_reducible assumption
    | with_reducible apply Kept.refl
    | with_reducible apply Kept.modGen
    | with_reducible apply State.raiseSlot_kept
    | with_reducible apply Kept.ite
    | ((try lift_lets -underBinder); intro x; have hx : Kept qt s₀ x := ?_; (on_goal 1 => clear_value x); (on_goal 2 => dsimp only [x]))
    | ((try lift_lets -underBinder); intro x; clear_value x)
    | split
    | (with_reducible apply Kept.upd; first | with_reducible assumption | with_reducible apply Kept.refl | with_reducible apply Kept.modGen | with_reducible apply State.raiseSlot_kept)

theorem State.finishSteps_kept {qt : Bool} {s₀ s : State} (h : Kept qt s₀ s) (n : Nat) : Kept qt s₀ (State.finishSteps s n) := by
  unfold State.finishSteps
  repeat' first
    | with_reducible assumption
    | with_reducible apply Kept.refl
    | with_reducible apply Kept.modGen
    | with_reducible apply State.emitSteps_kept
    | with_reducible apply State.backlogCheck_kept
    | with_reducible apply Kept.ite
    | ((try lift_lets -underBinder); intro x; have hx : Kept qt s₀ x := ?_; (on_goal 1 => clear_value x); (on_goal 2 => dsimp only [x]))
    | ((try lift_lets -underBinder); intro x; clear_value x)
    | split
    | (with_reducible apply Kept.upd; first | with_reducible assumption | with_reducible apply Kept.refl | with_reducible apply Kept.modGen | with_reducible apply State.emitSteps_kept | with_reducible apply State.backlogCheck_kept)

theorem State.scheduleSteps_kept {qt : Bool} {s₀ s : State} (h : Kept qt s₀ s) (n : Nat) : Kept qt s₀ (State.scheduleSteps s n) := by
  unfold State.scheduleSteps
  repeat' first
    | with_reducible assumption
    | with_reducible apply Kept.refl
    | with_reducible apply Kept.puti
    | with_reducible apply Kept.setGen
    | with_reducible apply Kept.ite
    | ((try lift_lets -underBinder); intro x; have hx : Kept qt s₀ x := ?_; (on_goal 1 => clear_value x); (on_goal 2 => dsimp only [x]))
    | ((try lift_lets -underBinder); intro x; clear_value x)
    | split
    | (with_reducible apply Kept.upd; first | with_reducible assumption | with_reducible apply Kept.refl | with_reducible apply Kept.puti | with_reducible apply Kept.setGen)

theorem State.settle_kept {qt : Bool} {s₀ s : State} (h : Kept qt s₀ s) (n : Nat) : Kept qt s₀ (State.settle s n) := by
  unfold State.settle
  repeat' first
    | with_reducible assumption
    | with_reducible apply Kept.refl
    | with_reducible apply Kept.put
    | with_reducible apply Kept.modGen
    | with_reducible apply State.toShutdown_kept
    | with_reducible apply State.toHold_kept
    | with_reducible apply Kept.ite
    | ((try lift_lets -underBinder); intro x; have hx : Kept qt s₀ x := ?_; (on_goal 1 => clear_value x); (on_goal 2 => dsimp only [x]))
    | ((try lift_lets -underBinder); intro x; clear_value x)
    | split
    | (with_reducible apply Kept.upd; first | with_reducible assumption | with_reducible apply Kept.refl | with_reducible apply Kept.put | with_reducible apply Kept.modGen | with_reducible apply State.toShutdown_kept | with_reducible apply State.toHold_kept)

theorem mcfgWrite_kept {qt : Bool} {s₀ s : State} (h : Kept qt s₀ s) (w : Writer) (n : Nat) (v : Word) : Kept qt s₀ (mcfgWrite w n v s) := by
  unfold mcfgWrite
  repeat' first
    | with_reducible assumption
    | with_reducible apply Kept.refl
    | with_reducible apply Kept.wr
    | with_reducible apply Kept.err
    | with_reducible apply Kept.ite
    | ((try lift_lets -underBinder); intro x; have hx : Kept qt s₀ x := ?_; (on_goal 1 => clear_value x); (on_goal 2 => dsimp only [x]))
    | ((try lift_lets -underBinder); intro x; clear_value x)
    | split

theorem pitchOffer_kept {qt : Bool} {s₀ s : State} (h : Kept qt s₀ s) (w : Writer) (n : Nat) (v : Word) : Kept qt s₀ (pitchOffer w n v s) := by
  unfold pitchOffer
  repeat' first
    | with_reducible assumption
    | with_reducible apply Kept.refl
    | with_reducible apply Kept.wr
    | with_reducible apply State.offerPitch_kept
    | with_reducible apply State.syncWait_kept
    | with_reducible apply Kept.ite
    | ((try lift_lets -underBinder); intro x; have hx : Kept qt s₀ x := ?_; (on_goal 1 => clear_value x); (on_goal 2 => dsimp only [x]))
    | ((try lift_lets -underBinder); intro x; clear_value x)
    | split

theorem pitqFlush_kept {qt : Bool} {s₀ s : State} (h : Kept qt s₀ s) (w : Writer) (n : Nat) : Kept qt s₀ (pitqFlush w n s) := by
  unfold pitqFlush
  repeat' first
    | with_reducible assumption
    | with_reducible apply Kept.refl
    | with_reducible apply State.flushQueue_kept
    | with_reducible apply Kept.ite
    | ((try lift_lets -underBinder); intro x; have hx : Kept qt s₀ x := ?_; (on_goal 1 => clear_value x); (on_goal 2 => dsimp only [x]))
    | ((try lift_lets -underBinder); intro x; clear_value x)
    | split

theorem pitqGo_kept {qt : Bool} {s₀ s : State} (h : Kept qt s₀ s) (w : Writer) (n : Nat) : Kept qt s₀ (pitqGo w n s) := by
  unfold pitqGo
  repeat' first
    | with_reducible assumption
    | with_reducible apply Kept.refl
    | with_reducible apply State.goQueue_kept
    | with_reducible apply Kept.ite
    | ((try lift_lets -underBinder); intro x; have hx : Kept qt s₀ x := ?_; (on_goal 1 => clear_value x); (on_goal 2 => dsimp only [x]))
    | ((try lift_lets -underBinder); intro x; clear_value x)
    | split

theorem setpointOffer_kept {qt : Bool} {s₀ s : State} (h : Kept qt s₀ s) (w : Writer) (n : Nat) (v : Word) : Kept qt s₀ (setpointOffer w n v s) := by
  unfold setpointOffer
  repeat' first
    | with_reducible assumption
    | with_reducible apply Kept.refl
    | with_reducible apply Kept.wr
    | with_reducible apply Kept.put
    | with_reducible apply Kept.err
    | with_reducible apply State.bufferPoint_kept
    | with_reducible apply Kept.ite
    | ((try lift_lets -underBinder); intro x; have hx : Kept qt s₀ x := ?_; (on_goal 1 => clear_value x); (on_goal 2 => dsimp only [x]))
    | ((try lift_lets -underBinder); intro x; clear_value x)
    | split

theorem holdoverExpiry_kept {qt : Bool} {s₀ s : State} (h : Kept qt s₀ s) (n : Nat) : Kept qt s₀ (holdoverExpiry n s) := by
  unfold holdoverExpiry
  repeat' first
    | with_reducible assumption
    | with_reducible apply Kept.refl
    | with_reducible apply Kept.setGen
    | with_reducible apply Kept.ite
    | ((try lift_lets -underBinder); intro x; have hx : Kept qt s₀ x := ?_; (on_goal 1 => clear_value x); (on_goal 2 => dsimp only [x]))
    | ((try lift_lets -underBinder); intro x; clear_value x)
    | split
    | (with_reducible apply Kept.upd; first | with_reducible assumption | with_reducible apply Kept.refl | with_reducible apply Kept.setGen)

theorem gearLoad_kept {qt : Bool} {s₀ s : State} (h : Kept qt s₀ s) (w : Writer) (n : Nat) : Kept qt s₀ (gearLoad w n s) := by
  unfold gearLoad
  repeat' first
    | with_reducible assumption
    | with_reducible apply Kept.refl
    | with_reducible apply Kept.put
    | with_reducible apply Kept.modGen
    | with_reducible apply Kept.ite
    | ((try lift_lets -underBinder); intro x; have hx : Kept qt s₀ x := ?_; (on_goal 1 => clear_value x); (on_goal 2 => dsimp only [x]))
    | ((try lift_lets -underBinder); intro x; clear_value x)
    | split
    | (with_reducible apply Kept.upd; first | with_reducible assumption | with_reducible apply Kept.refl | with_reducible apply Kept.put | with_reducible apply Kept.modGen)

theorem gearLoadApply_kept {qt : Bool} {s₀ s : State} (h : Kept qt s₀ s) (n : Nat) : Kept qt s₀ (gearLoadApply n s) := by
  unfold gearLoadApply
  repeat' first
    | with_reducible assumption
    | with_reducible apply Kept.refl
    | with_reducible apply Kept.wr
    | with_reducible apply Kept.wr64
    | with_reducible apply Kept.put
    | with_reducible apply Kept.setGen
    | with_reducible apply gearLoad_kept
    | with_reducible apply Kept.ite
    | ((try lift_lets -underBinder); intro x; have hx : Kept qt s₀ x := ?_; (on_goal 1 => clear_value x); (on_goal 2 => dsimp only [x]))
    | ((try lift_lets -underBinder); intro x; clear_value x)
    | split
    | (with_reducible apply Kept.upd; first | with_reducible assumption | with_reducible apply Kept.refl | with_reducible apply Kept.wr | with_reducible apply Kept.wr64 | with_reducible apply Kept.put | with_reducible apply Kept.setGen | with_reducible apply gearLoad_kept)

theorem stepPulse_kept {qt : Bool} {s₀ s : State} (h : Kept qt s₀ s) (n : Nat) : Kept qt s₀ (stepPulse n s) := by
  unfold stepPulse
  repeat' first
    | with_reducible assumption
    | with_reducible apply Kept.refl
    | with_reducible apply State.emitSteps_kept
    | with_reducible apply Kept.ite
    | ((try lift_lets -underBinder); intro x; have hx : Kept qt s₀ x := ?_; (on_goal 1 => clear_value x); (on_goal 2 => dsimp only [x]))
    | ((try lift_lets -underBinder); intro x; clear_value x)
    | split
    | (with_reducible apply Kept.upd; first | with_reducible assumption | with_reducible apply Kept.refl | with_reducible apply State.emitSteps_kept)

end Sys2Proof.Machine
end

