-- ==== Sys2Proof/Laws/KeepGateDrive.lean ====
section
/-! SUPPORT. What the operations of Machine/GateDrive.lean keep: one lemma per operation (Laws/Kept.lean). -/
namespace Sys2Proof.Machine
set_option linter.unusedTactic false
set_option linter.unreachableTactic false
set_option linter.unusedVariables false

theorem State.syncActive_kept {qt : Bool} {s₀ s : State} (h : Kept qt s₀ s) (c : Nat) : Kept qt s₀ (State.syncActive s c) := by
  unfold State.syncActive
  repeat' first
    | with_reducible assumption
    | with_reducible apply Kept.refl
    | with_reducible apply Kept.flag
    | with_reducible apply Kept.ite
    | ((try lift_lets -underBinder); intro x; have hx : Kept qt s₀ x := ?_; (on_goal 1 => clear_value x); (on_goal 2 => dsimp only [x]))
    | ((try lift_lets -underBinder); intro x; clear_value x)

theorem State.calDriveOff_kept {qt : Bool} {s₀ s : State} (h : Kept qt s₀ s) (n : Nat) : Kept qt s₀ (State.calDriveOff s n) := by
  unfold State.calDriveOff
  repeat' first
    | with_reducible assumption
    | with_reducible apply Kept.refl
    | (with_reducible refine Kept.each ?_ _ (fun _ t _ => ?_))
    | with_reducible apply State.force_kept
    | with_reducible apply Kept.ite
    | ((try lift_lets -underBinder); intro x; have hx : Kept qt s₀ x := ?_; (on_goal 1 => clear_value x); (on_goal 2 => dsimp only [x]))
    | ((try lift_lets -underBinder); intro x; clear_value x)
    | split

theorem State.calTrip_kept {qt : Bool} {s₀ s : State} (h : Kept qt s₀ s) (n : Nat) : Kept qt s₀ (State.calTrip s n) := by
  unfold State.calTrip
  repeat' first
    | with_reducible assumption
    | with_reducible apply Kept.refl
    | with_reducible apply Kept.put
    | with_reducible apply Kept.modCc
    | with_reducible apply State.calDriveOff_kept
    | with_reducible apply Kept.ite
    | ((try lift_lets -underBinder); intro x; have hx : Kept qt s₀ x := ?_; (on_goal 1 => clear_value x); (on_goal 2 => dsimp only [x]))
    | ((try lift_lets -underBinder); intro x; clear_value x)
    | split
    | (with_reducible apply Kept.upd; first | with_reducible assumption | with_reducible apply Kept.refl | with_reducible apply Kept.put | with_reducible apply Kept.modCc | with_reducible apply State.calDriveOff_kept)

theorem State.latchTrip_kept {qt : Bool} {s₀ s : State} (h : Kept qt s₀ s) (c bits : Nat) : Kept qt s₀ (State.latchTrip s c bits) := by
  unfold State.latchTrip
  repeat' first
    | with_reducible assumption
    | with_reducible apply Kept.refl
    | with_reducible apply Kept.wr
    | with_reducible apply Kept.inc
    | with_reducible apply State.noteArmed_kept
    | with_reducible apply State.force_kept
    | with_reducible apply State.syncActive_kept
    | with_reducible apply Kept.ite
    | ((try lift_lets -underBinder); intro x; have hx : Kept qt s₀ x := ?_; (on_goal 1 => clear_value x); (on_goal 2 => dsimp only [x]))
    | ((try lift_lets -underBinder); intro x; clear_value x)
    | (with_reducible apply Kept.upd; first | with_reducible assumption | with_reducible apply Kept.refl | with_reducible apply Kept.wr | with_reducible apply Kept.inc | with_reducible apply State.noteArmed_kept | with_reducible apply State.force_kept | with_reducible apply State.syncActive_kept)

theorem State.tripOwner_kept {qt : Bool} {s₀ s : State} (h : Kept qt s₀ s) (c : Nat) : Kept qt s₀ (State.tripOwner s c) := by
  unfold State.tripOwner
  repeat' first
    | with_reducible assumption
    | with_reducible apply Kept.refl
    | with_reducible apply State.toTripped_kept
    | with_reducible apply State.calTrip_kept
    | with_reducible apply Kept.ite
    | ((try lift_lets -underBinder); intro x; have hx : Kept qt s₀ x := ?_; (on_goal 1 => clear_value x); (on_goal 2 => dsimp only [x]))
    | ((try lift_lets -underBinder); intro x; clear_value x)
    | split

theorem State.vhTrip_kept {qt : Bool} {s₀ s : State} (h : Kept qt s₀ s) (c : Nat) : Kept qt s₀ (State.vhTrip s c) := by
  unfold State.vhTrip
  repeat' first
    | with_reducible assumption
    | with_reducible apply Kept.refl
    | with_reducible apply State.raise_kept
    | with_reducible apply State.latchTrip_kept
    | with_reducible apply State.tripOwner_kept
    | with_reducible apply Kept.ite
    | ((try lift_lets -underBinder); intro x; have hx : Kept qt s₀ x := ?_; (on_goal 1 => clear_value x); (on_goal 2 => dsimp only [x]))
    | ((try lift_lets -underBinder); intro x; clear_value x)

theorem State.latchGroup_kept {qt : Bool} {s₀ s : State} (h : Kept qt s₀ s) (g bits : Nat) : Kept qt s₀ (State.latchGroup s g bits) := by
  unfold State.latchGroup
  repeat' first
    | with_reducible assumption
    | with_reducible apply Kept.refl
    | (with_reducible refine Kept.each ?_ _ (fun _ t _ => ?_))
    | with_reducible apply State.latchTrip_kept
    | with_reducible apply State.tripOwner_kept
    | with_reducible apply Kept.ite
    | ((try lift_lets -underBinder); intro x; have hx : Kept qt s₀ x := ?_; (on_goal 1 => clear_value x); (on_goal 2 => dsimp only [x]))
    | ((try lift_lets -underBinder); intro x; clear_value x)

theorem State.groupTrip_kept {qt : Bool} {s₀ s : State} (h : Kept qt s₀ s) (g bits src : Nat) : Kept qt s₀ (State.groupTrip s g bits src) := by
  unfold State.groupTrip
  repeat' first
    | with_reducible assumption
    | with_reducible apply Kept.refl
    | with_reducible apply State.raise_kept
    | with_reducible apply State.latchGroup_kept
    | with_reducible apply Kept.ite
    | ((try lift_lets -underBinder); intro x; have hx : Kept qt s₀ x := ?_; (on_goal 1 => clear_value x); (on_goal 2 => dsimp only [x]))
    | ((try lift_lets -underBinder); intro x; clear_value x)

theorem State.dropBrake_kept {qt : Bool} {s₀ s : State} (h : Kept qt s₀ s) (g : Nat) : Kept qt s₀ (State.dropBrake s g) := by
  unfold State.dropBrake
  repeat' first
    | with_reducible assumption
    | with_reducible apply Kept.refl
    | (with_reducible refine Kept.each ?_ _ (fun _ t _ => ?_))
    | with_reducible apply State.force_kept
    | with_reducible apply Kept.ite
    | ((try lift_lets -underBinder); intro x; have hx : Kept qt s₀ x := ?_; (on_goal 1 => clear_value x); (on_goal 2 => dsimp only [x]))
    | ((try lift_lets -underBinder); intro x; clear_value x)
    | split

theorem safeoffLow_kept {qt : Bool} {s₀ s : State} (h : Kept qt s₀ s) : Kept qt s₀ (safeoffLow s) := by
  unfold safeoffLow
  repeat' first
    | with_reducible assumption
    | with_reducible apply Kept.refl
    | (with_reducible refine Kept.each ?_ _ (fun _ t _ => ?_))
    | with_reducible apply Kept.put
    | with_reducible apply State.noteArmed_kept
    | with_reducible apply State.force_kept
    | with_reducible apply State.raise_kept
    | with_reducible apply State.calTrip_kept
    | with_reducible apply Kept.ite
    | ((try lift_lets -underBinder); intro x; have hx : Kept qt s₀ x := ?_; (on_goal 1 => clear_value x); (on_goal 2 => dsimp only [x]))
    | ((try lift_lets -underBinder); intro x; clear_value x)
    | split
    | (with_reducible apply Kept.upd; first | with_reducible assumption | with_reducible apply Kept.refl | (with_reducible refine Kept.each ?_ _ (fun _ t _ => ?_)) | with_reducible apply Kept.put | with_reducible apply State.noteArmed_kept | with_reducible apply State.force_kept | with_reducible apply State.raise_kept | with_reducible apply State.calTrip_kept)

theorem safeoffHigh_kept {qt : Bool} {s₀ s : State} (h : Kept qt s₀ s) : Kept qt s₀ (safeoffHigh s) := by
  unfold safeoffHigh
  repeat' first
    | with_reducible assumption
    | with_reducible apply Kept.refl
    | (with_reducible refine Kept.each ?_ _ (fun _ t _ => ?_))
    | with_reducible apply Kept.put
    | with_reducible apply Kept.ite
    | ((try lift_lets -underBinder); intro x; have hx : Kept qt s₀ x := ?_; (on_goal 1 => clear_value x); (on_goal 2 => dsimp only [x]))
    | ((try lift_lets -underBinder); intro x; clear_value x)
    | (with_reducible apply Kept.upd; first | with_reducible assumption | with_reducible apply Kept.refl | (with_reducible refine Kept.each ?_ _ (fun _ t _ => ?_)) | with_reducible apply Kept.put)

theorem State.clearLatch_kept {qt : Bool} {s₀ s : State} (h : Kept qt s₀ s) (c : Nat) : Kept qt s₀ (State.clearLatch s c) := by
  unfold State.clearLatch
  repeat' first
    | with_reducible assumption
    | with_reducible apply Kept.refl
    | with_reducible apply Kept.wr
    | with_reducible apply Kept.ite
    | ((try lift_lets -underBinder); intro x; have hx : Kept qt s₀ x := ?_; (on_goal 1 => clear_value x); (on_goal 2 => dsimp only [x]))
    | ((try lift_lets -underBinder); intro x; clear_value x)

theorem State.settleBacklog_kept {qt : Bool} {s₀ s : State} (h : Kept qt s₀ s) (n : Nat) : Kept qt s₀ (State.settleBacklog s n) := by
  unfold State.settleBacklog
  repeat' first
    | with_reducible assumption
    | with_reducible apply Kept.refl
    | with_reducible apply Kept.wr
    | with_reducible apply Kept.put
    | with_reducible apply State.rebase_kept
    | with_reducible apply Kept.ite
    | ((try lift_lets -underBinder); intro x; have hx : Kept qt s₀ x := ?_; (on_goal 1 => clear_value x); (on_goal 2 => dsimp only [x]))
    | ((try lift_lets -underBinder); intro x; clear_value x)
    | split

theorem State.clearTrip_kept {qt : Bool} {s₀ s : State} (h : Kept qt s₀ s) (w : Writer) (n : Nat) : Kept qt s₀ (State.clearTrip s w n) := by
  unfold State.clearTrip
  repeat' first
    | with_reducible assumption
    | with_reducible apply Kept.refl
    | (with_reducible refine Kept.each ?_ _ (fun _ t _ => ?_))
    | with_reducible apply Kept.put
    | with_reducible apply Kept.err
    | with_reducible apply State.force_kept
    | with_reducible apply State.offer_kept
    | with_reducible apply State.clearLatch_kept
    | with_reducible apply State.settleBacklog_kept
    | with_reducible apply Kept.ite
    | ((try lift_lets -underBinder); intro x; have hx : Kept qt s₀ x := ?_; (on_goal 1 => clear_value x); (on_goal 2 => dsimp only [x]))
    | ((try lift_lets -underBinder); intro x; clear_value x)
    | split

theorem State.svcOut_kept {qt : Bool} {s₀ s : State} (h : Kept qt s₀ s) (w : Writer) (n : Nat) : Kept qt s₀ (State.svcOut s w n) := by
  unfold State.svcOut
  repeat' first
    | with_reducible assumption
    | with_reducible apply Kept.refl
    | (with_reducible refine Kept.each ?_ _ (fun _ t _ => ?_))
    | with_reducible apply Kept.put
    | with_reducible apply Kept.err
    | with_reducible apply State.dropTest_kept
    | with_reducible apply State.missBind_kept
    | with_reducible apply State.interruptWait_kept
    | with_reducible apply State.force_kept
    | with_reducible apply State.offer_kept
    | with_reducible apply State.clearLatch_kept
    | with_reducible apply Kept.ite
    | ((try lift_lets -underBinder); intro x; have hx : Kept qt s₀ x := ?_; (on_goal 1 => clear_value x); (on_goal 2 => dsimp only [x]))
    | ((try lift_lets -underBinder); intro x; clear_value x)
    | split
    | (with_reducible apply Kept.upd; first | with_reducible assumption | with_reducible apply Kept.refl | (with_reducible refine Kept.each ?_ _ (fun _ t _ => ?_)) | with_reducible apply Kept.put | with_reducible apply Kept.err | with_reducible apply State.dropTest_kept | with_reducible apply State.interruptWait_kept | with_reducible apply State.force_kept | with_reducible apply State.offer_kept | with_reducible apply State.clearLatch_kept)

theorem State.flipPaths_kept {qt : Bool} {s₀ s : State} (h : Kept qt s₀ s) (n : Nat) : Kept qt s₀ (State.flipPaths s n) := by
  unfold State.flipPaths
  repeat' first
    | with_reducible assumption
    | with_reducible apply Kept.refl
    | with_reducible apply Kept.ite
    | ((try lift_lets -underBinder); intro x; have hx : Kept qt s₀ x := ?_; (on_goal 1 => clear_value x); (on_goal 2 => dsimp only [x]))
    | ((try lift_lets -underBinder); intro x; clear_value x)
    | split
    | (with_reducible apply Kept.upd; first | with_reducible assumption | with_reducible apply Kept.refl)

theorem State.pulseTrip_kept {qt : Bool} {s₀ s : State} (h : Kept qt s₀ s) (c bits : Nat) : Kept qt s₀ (State.pulseTrip s c bits) := by
  unfold State.pulseTrip
  repeat' first
    | with_reducible assumption
    | with_reducible apply Kept.refl
    | with_reducible apply State.raise_kept
    | with_reducible apply State.latchTrip_kept
    | with_reducible apply Kept.ite
    | ((try lift_lets -underBinder); intro x; have hx : Kept qt s₀ x := ?_; (on_goal 1 => clear_value x); (on_goal 2 => dsimp only [x]))
    | ((try lift_lets -underBinder); intro x; clear_value x)
    | split

theorem State.svcPath_kept {qt : Bool} {s₀ s : State} (h : Kept qt s₀ s) (n i p : Nat) : Kept qt s₀ (State.svcPath s n i p) := by
  unfold State.svcPath
  repeat' first
    | with_reducible assumption
    | with_reducible apply Kept.refl
    | with_reducible apply State.pulseTrip_kept
    | with_reducible apply Kept.ite
    | ((try lift_lets -underBinder); intro x; have hx : Kept qt s₀ x := ?_; (on_goal 1 => clear_value x); (on_goal 2 => dsimp only [x]))
    | ((try lift_lets -underBinder); intro x; clear_value x)
    | split

theorem State.svcIn_kept {qt : Bool} {s₀ s : State} (h : Kept qt s₀ s) (n : Nat) (phys : List Nat) : Kept qt s₀ (State.svcIn s n phys) := by
  unfold State.svcIn
  repeat' first
    | with_reducible assumption
    | with_reducible apply Kept.refl
    | (with_reducible refine Kept.each ?_ _ (fun _ t _ => ?_))
    | with_reducible apply Kept.put
    | with_reducible apply Kept.flag
    | with_reducible apply Kept.inc
    | with_reducible apply Kept.err
    | with_reducible apply State.raise_kept
    | with_reducible apply State.flipPaths_kept
    | with_reducible apply State.svcPath_kept
    | with_reducible apply Kept.ite
    | ((try lift_lets -underBinder); intro x; have hx : Kept qt s₀ x := ?_; (on_goal 1 => clear_value x); (on_goal 2 => dsimp only [x]))
    | ((try lift_lets -underBinder); intro x; clear_value x)
    | split

theorem gdCfgWrite_kept {qt : Bool} {s₀ s : State} (h : Kept qt s₀ s) (g : Nat) (v : Word) : Kept qt s₀ (gdCfgWrite g v s) := by
  unfold gdCfgWrite
  repeat' first
    | with_reducible assumption
    | with_reducible apply Kept.refl
    | with_reducible apply Kept.wr
    | with_reducible apply Kept.put
    | with_reducible apply Kept.ite
    | ((try lift_lets -underBinder); intro x; have hx : Kept qt s₀ x := ?_; (on_goal 1 => clear_value x); (on_goal 2 => dsimp only [x]))
    | ((try lift_lets -underBinder); intro x; clear_value x)
    | split

theorem scthrWrite_kept {qt : Bool} {s₀ s : State} (h : Kept qt s₀ s) (g k : Nat) (v : Word) : Kept qt s₀ (scthrWrite g k v s) := by
  unfold scthrWrite
  repeat' first
    | with_reducible assumption
    | with_reducible apply Kept.refl
    | (with_reducible refine Kept.modChan ?_ _ ?_)
    | with_reducible apply Kept.wr
    | with_reducible apply Kept.put
    | with_reducible apply Kept.ite
    | ((try lift_lets -underBinder); intro x; have hx : Kept qt s₀ x := ?_; (on_goal 1 => clear_value x); (on_goal 2 => dsimp only [x]))
    | ((try lift_lets -underBinder); intro x; clear_value x)
    | split
    | (with_reducible apply Kept.upd; first | with_reducible assumption | with_reducible apply Kept.refl | (with_reducible refine Kept.modChan ?_ _ ?_) | with_reducible apply Kept.wr | with_reducible apply Kept.put)
    | exact id
    | (intro x hx; exact hx)
    | (intro x hx; simp_all [PwmChan.oneSided])
    | (intro hx; simp_all [PwmChan.oneSided])

end Sys2Proof.Machine
end

