-- ==== Sys2Proof/Laws/KeepComparators.lean ====
section
/-! SUPPORT. What the operations of Machine/Comparators.lean keep: one lemma per operation (Laws/Kept.lean). -/
namespace Sys2Proof.Machine
set_option linter.unusedTactic false
set_option linter.unreachableTactic false
set_option linter.unusedVariables false

theorem State.toSample_kept {qt : Bool} {s₀ s : State} (h : Kept qt s₀ s) (c : Nat) : Kept qt s₀ (State.toSample s c) := by
  unfold State.toSample
  repeat' first
    | with_reducible assumption
    | with_reducible apply Kept.refl
    | (with_reducible refine Kept.modChan ?_ _ ?_)
    | with_reducible apply Kept.setGroup
    | with_reducible apply Kept.ite
    | ((try lift_lets -underBinder); intro x; have hx : Kept qt s₀ x := ?_; (on_goal 1 => clear_value x); (on_goal 2 => dsimp only [x]))
    | ((try lift_lets -underBinder); intro x; clear_value x)
    | (with_reducible apply Kept.upd; first | with_reducible assumption | with_reducible apply Kept.refl | (with_reducible refine Kept.modChan ?_ _ ?_) | with_reducible apply Kept.setGroup)
    | exact id
    | (intro x hx; exact hx)
    | (intro x hx; simp_all [PwmChan.oneSided])
    | (intro hx; simp_all [PwmChan.oneSided])

theorem State.takeSample_kept {qt : Bool} {s₀ s : State} (h : Kept qt s₀ s) (c : Nat) (iH iL : Int) : Kept qt s₀ (State.takeSample s c iH iL) := by
  unfold State.takeSample
  repeat' first
    | with_reducible assumption
    | with_reducible apply Kept.refl
    | (with_reducible refine Kept.setChan ?_ _ ?_)
    | with_reducible apply Kept.put
    | with_reducible apply Kept.flag
    | with_reducible apply Kept.ite
    | ((try lift_lets -underBinder); intro x; have hx : Kept qt s₀ x := ?_; (on_goal 1 => clear_value x); (on_goal 2 => dsimp only [x]))
    | ((try lift_lets -underBinder); intro x; clear_value x)
    | split
    | (with_reducible apply Kept.upd; first | with_reducible assumption | with_reducible apply Kept.refl | (with_reducible refine Kept.setChan ?_ _ ?_) | with_reducible apply Kept.put | with_reducible apply Kept.flag)
    | exact id
    | (intro x hx; exact hx)
    | (intro x hx; simp_all [PwmChan.oneSided])
    | (intro hx; simp_all [PwmChan.oneSided])

theorem comparatorSample_kept {qt : Bool} {s₀ s : State} (h : Kept qt s₀ s) (c : Nat) (iH iL : Int) : Kept qt s₀ (comparatorSample c iH iL s) := by
  unfold comparatorSample
  repeat' first
    | with_reducible assumption
    | with_reducible apply Kept.refl
    | with_reducible apply State.toSample_kept
    | with_reducible apply State.takeSample_kept
    | with_reducible apply Kept.ite
    | ((try lift_lets -underBinder); intro x; have hx : Kept qt s₀ x := ?_; (on_goal 1 => clear_value x); (on_goal 2 => dsimp only [x]))
    | ((try lift_lets -underBinder); intro x; clear_value x)
    | split

theorem monitoredDecision_kept {qt : Bool} {s₀ s : State} (h : Kept qt s₀ s) (c : Nat) (iH iL : Int) : Kept qt s₀ (monitoredDecision c iH iL s) := by
  unfold monitoredDecision
  repeat' first
    | with_reducible assumption
    | with_reducible apply Kept.refl
    | with_reducible apply State.toSample_kept
    | with_reducible apply State.takeSample_kept
    | with_reducible apply Kept.ite
    | ((try lift_lets -underBinder); intro x; have hx : Kept qt s₀ x := ?_; (on_goal 1 => clear_value x); (on_goal 2 => dsimp only [x]))
    | ((try lift_lets -underBinder); intro x; clear_value x)
    | split

theorem shortCircuitTrip_kept {qt : Bool} {s₀ s : State} (h : Kept qt s₀ s) (c : Nat) (iH iL : Int) : Kept qt s₀ (shortCircuitTrip c iH iL s) := by
  unfold shortCircuitTrip
  repeat' first
    | with_reducible assumption
    | with_reducible apply Kept.refl
    | with_reducible apply State.raise_kept
    | with_reducible apply State.latchTrip_kept
    | with_reducible apply State.tripOwner_kept
    | with_reducible apply State.toSample_kept
    | with_reducible apply State.takeSample_kept
    | with_reducible apply Kept.ite
    | ((try lift_lets -underBinder); intro x; have hx : Kept qt s₀ x := ?_; (on_goal 1 => clear_value x); (on_goal 2 => dsimp only [x]))
    | ((try lift_lets -underBinder); intro x; clear_value x)
    | split

theorem State.toWindow_kept {qt : Bool} {s₀ s : State} (h : Kept qt s₀ s) (m : Monitor) : Kept qt s₀ (State.toWindow s m) := by
  unfold State.toWindow
  repeat' first
    | with_reducible assumption
    | with_reducible apply Kept.refl
    | with_reducible apply Kept.ite
    | ((try lift_lets -underBinder); intro x; have hx : Kept qt s₀ x := ?_; (on_goal 1 => clear_value x); (on_goal 2 => dsimp only [x]))
    | ((try lift_lets -underBinder); intro x; clear_value x)
    | split
    | (with_reducible apply Kept.upd; first | with_reducible assumption | with_reducible apply Kept.refl)

theorem State.monBit_kept {qt : Bool} {s₀ s : State} (h : Kept qt s₀ s) (f : Fld) (x : Nat) (b only : Bool) : Kept qt s₀ (State.monBit s f x b only) := by
  unfold State.monBit
  repeat' first
    | with_reducible assumption
    | with_reducible apply Kept.refl
    | with_reducible apply Kept.put
    | with_reducible apply Kept.ite
    | ((try lift_lets -underBinder); intro x; have hx : Kept qt s₀ x := ?_; (on_goal 1 => clear_value x); (on_goal 2 => dsimp only [x]))
    | ((try lift_lets -underBinder); intro x; clear_value x)
    | split

theorem State.monTake_kept {qt : Bool} {s₀ s : State} (h : Kept qt s₀ s) (m : Monitor) (v : Int) : Kept qt s₀ (State.monTake s m v) := by
  unfold State.monTake
  repeat' first
    | with_reducible assumption
    | with_reducible apply Kept.refl
    | (with_reducible refine Kept.each ?_ _ (fun _ t _ => ?_))
    | with_reducible apply Kept.put
    | with_reducible apply Kept.flag
    | with_reducible apply Kept.setWindow
    | with_reducible apply State.syncActive_kept
    | with_reducible apply State.monBit_kept
    | with_reducible apply Kept.ite
    | ((try lift_lets -underBinder); intro x; have hx : Kept qt s₀ x := ?_; (on_goal 1 => clear_value x); (on_goal 2 => dsimp only [x]))
    | ((try lift_lets -underBinder); intro x; clear_value x)
    | split
    | (with_reducible apply Kept.upd; first | with_reducible assumption | with_reducible apply Kept.refl | (with_reducible refine Kept.each ?_ _ (fun _ t _ => ?_)) | with_reducible apply Kept.put | with_reducible apply Kept.flag | with_reducible apply Kept.setWindow | with_reducible apply State.syncActive_kept | with_reducible apply State.monBit_kept)

theorem windowSample_kept {qt : Bool} {s₀ s : State} (h : Kept qt s₀ s) (m : Monitor) (v : Int) : Kept qt s₀ (windowSample m v s) := by
  unfold windowSample
  repeat' first
    | with_reducible assumption
    | with_reducible apply Kept.refl
    | with_reducible apply State.toWindow_kept
    | with_reducible apply State.monTake_kept
    | with_reducible apply Kept.ite
    | ((try lift_lets -underBinder); intro x; have hx : Kept qt s₀ x := ?_; (on_goal 1 => clear_value x); (on_goal 2 => dsimp only [x]))
    | ((try lift_lets -underBinder); intro x; clear_value x)
    | split

theorem windowExcursion_kept {qt : Bool} {s₀ s : State} (h : Kept qt s₀ s) (x : Fin 6) (v : Int) : Kept qt s₀ (windowExcursion x v s) := by
  unfold windowExcursion
  repeat' first
    | with_reducible assumption
    | with_reducible apply Kept.refl
    | with_reducible apply State.raise_kept
    | with_reducible apply State.toWindow_kept
    | with_reducible apply State.monTake_kept
    | with_reducible apply Kept.ite
    | ((try lift_lets -underBinder); intro x; have hx : Kept qt s₀ x := ?_; (on_goal 1 => clear_value x); (on_goal 2 => dsimp only [x]))
    | ((try lift_lets -underBinder); intro x; clear_value x)
    | split

theorem windowReturn_kept {qt : Bool} {s₀ s : State} (h : Kept qt s₀ s) (m : Monitor) (v : Int) : Kept qt s₀ (windowReturn m v s) := by
  unfold windowReturn
  repeat' first
    | with_reducible assumption
    | with_reducible apply Kept.refl
    | with_reducible apply State.toWindow_kept
    | with_reducible apply State.monTake_kept
    | with_reducible apply Kept.ite
    | ((try lift_lets -underBinder); intro x; have hx : Kept qt s₀ x := ?_; (on_goal 1 => clear_value x); (on_goal 2 => dsimp only [x]))
    | ((try lift_lets -underBinder); intro x; clear_value x)
    | split

theorem vhUndervoltage_kept {qt : Bool} {s₀ s : State} (h : Kept qt s₀ s) (c : Fin 32) (v : Int) (blocked : Bool) : Kept qt s₀ (vhUndervoltage c v blocked s) := by
  unfold vhUndervoltage
  repeat' first
    | with_reducible assumption
    | with_reducible apply Kept.refl
    | with_reducible apply Kept.put
    | with_reducible apply State.vhTrip_kept
    | with_reducible apply State.toWindow_kept
    | with_reducible apply State.monTake_kept
    | with_reducible apply Kept.ite
    | ((try lift_lets -underBinder); intro x; have hx : Kept qt s₀ x := ?_; (on_goal 1 => clear_value x); (on_goal 2 => dsimp only [x]))
    | ((try lift_lets -underBinder); intro x; clear_value x)
    | split
    | (with_reducible apply Kept.upd; first | with_reducible assumption | with_reducible apply Kept.refl | with_reducible apply Kept.put | with_reducible apply State.vhTrip_kept | with_reducible apply State.toWindow_kept | with_reducible apply State.monTake_kept)

theorem vgdUndervoltage_kept {qt : Bool} {s₀ s : State} (h : Kept qt s₀ s) (g : Fin 4) (v : Int) : Kept qt s₀ (vgdUndervoltage g v s) := by
  unfold vgdUndervoltage
  repeat' first
    | with_reducible assumption
    | with_reducible apply Kept.refl
    | with_reducible apply State.latchGroup_kept
    | with_reducible apply State.groupTrip_kept
    | with_reducible apply State.dropBrake_kept
    | with_reducible apply State.toWindow_kept
    | with_reducible apply State.monTake_kept
    | with_reducible apply Kept.ite
    | ((try lift_lets -underBinder); intro x; have hx : Kept qt s₀ x := ?_; (on_goal 1 => clear_value x); (on_goal 2 => dsimp only [x]))
    | ((try lift_lets -underBinder); intro x; clear_value x)
    | split

theorem overTemperature_kept {qt : Bool} {s₀ s : State} (h : Kept qt s₀ s) (g : Fin 4) (v : Int) : Kept qt s₀ (overTemperature g v s) := by
  unfold overTemperature
  repeat' first
    | with_reducible assumption
    | with_reducible apply Kept.refl
    | with_reducible apply Kept.put
    | with_reducible apply State.latchGroup_kept
    | with_reducible apply State.groupTrip_kept
    | with_reducible apply State.toWindow_kept
    | with_reducible apply State.monTake_kept
    | with_reducible apply Kept.ite
    | ((try lift_lets -underBinder); intro x; have hx : Kept qt s₀ x := ?_; (on_goal 1 => clear_value x); (on_goal 2 => dsimp only [x]))
    | ((try lift_lets -underBinder); intro x; clear_value x)
    | split

theorem cmpScfWrite_kept {qt : Bool} {s₀ s : State} (h : Kept qt s₀ s) (c : Nat) (v : Word) : Kept qt s₀ (cmpScfWrite c v s) := by
  unfold cmpScfWrite
  repeat' first
    | with_reducible assumption
    | with_reducible apply Kept.refl
    | (with_reducible refine Kept.modChan ?_ _ ?_)
    | with_reducible apply Kept.wr
    | with_reducible apply Kept.put
    | with_reducible apply Kept.ite
    | ((try lift_lets -underBinder); intro x; have hx : Kept qt s₀ x := ?_; (on_goal 1 => clear_value x); (on_goal 2 => dsimp only [x]))
    | ((try lift_lets -underBinder); intro x; clear_value x)
    | split
    | (with_reducible apply Kept.upd; first | with_reducible assumption | with_reducible apply Kept.refl | (with_reducible refine Kept.modChan ?_ _ ?_) | with_reducible apply Kept.wr | with_reducible apply Kept.put)
    | exact id
    | (intro x hx; exact hx)
    | (intro x hx; simp_all [PwmChan.oneSided])
    | (intro hx; simp_all [PwmChan.oneSided])

theorem monFiltWrite_kept {qt : Bool} {s₀ s : State} (h : Kept qt s₀ s) (v : Word) : Kept qt s₀ (monFiltWrite v s) := by
  unfold monFiltWrite
  repeat' first
    | with_reducible assumption
    | with_reducible apply Kept.refl
    | with_reducible apply Kept.wr
    | with_reducible apply Kept.put
    | with_reducible apply Kept.ite
    | ((try lift_lets -underBinder); intro x; have hx : Kept qt s₀ x := ?_; (on_goal 1 => clear_value x); (on_goal 2 => dsimp only [x]))
    | ((try lift_lets -underBinder); intro x; clear_value x)
    | split
    | (with_reducible apply Kept.upd; first | with_reducible assumption | with_reducible apply Kept.refl | with_reducible apply Kept.wr | with_reducible apply Kept.put)

theorem monThrWrite_kept {qt : Bool} {s₀ s : State} (h : Kept qt s₀ s) (x : Nat) (v : Word) : Kept qt s₀ (monThrWrite x v s) := by
  unfold monThrWrite
  repeat' first
    | with_reducible assumption
    | with_reducible apply Kept.refl
    | with_reducible apply Kept.wr
    | with_reducible apply Kept.put
    | with_reducible apply Kept.ite
    | ((try lift_lets -underBinder); intro x; have hx : Kept qt s₀ x := ?_; (on_goal 1 => clear_value x); (on_goal 2 => dsimp only [x]))
    | ((try lift_lets -underBinder); intro x; clear_value x)
    | split

end Sys2Proof.Machine
end

