-- ==== Sys2Proof/Laws/KeepPwm.lean ====
section
/-! SUPPORT. What the operations of Machine/Pwm.lean keep: one lemma per operation (Laws/Kept.lean). -/
namespace Sys2Proof.Machine
set_option linter.unusedTactic false
set_option linter.unreachableTactic false
set_option linter.unusedVariables false

theorem State.recomputePer_kept {qt : Bool} {s₀ s : State} (h : Kept qt s₀ s) (g : Nat) : Kept qt s₀ (State.recomputePer s g) := by
  unfold State.recomputePer
  repeat' first
    | with_reducible assumption
    | with_reducible apply Kept.refl
    | with_reducible apply Kept.wr
    | with_reducible apply Kept.flag
    | with_reducible apply Kept.ite
    | ((try lift_lets -underBinder); intro x; have hx : Kept qt s₀ x := ?_; (on_goal 1 => clear_value x); (on_goal 2 => dsimp only [x]))
    | ((try lift_lets -underBinder); intro x; clear_value x)

theorem State.countPulse_kept {qt : Bool} {s₀ s : State} (h : Kept qt s₀ s) (c : Nat) (dropped stretched : Bool) : Kept qt s₀ (State.countPulse s c dropped stretched) := by
  unfold State.countPulse
  repeat' first
    | with_reducible assumption
    | with_reducible apply Kept.refl
    | with_reducible apply Kept.put
    | with_reducible apply Kept.inc
    | with_reducible apply Kept.ite
    | ((try lift_lets -underBinder); intro x; have hx : Kept qt s₀ x := ?_; (on_goal 1 => clear_value x); (on_goal 2 => dsimp only [x]))
    | ((try lift_lets -underBinder); intro x; clear_value x)
    | split

theorem State.lowPulse_kept {qt : Bool} {s₀ s : State} (h : Kept qt s₀ s) (c : Nat) (e : PulseEnv) (close fall : Nat) (len : Int) (tick : Bool) : Kept qt s₀ (State.lowPulse s c e close fall len tick) := by
  unfold State.lowPulse
  repeat' first
    | with_reducible assumption
    | with_reducible apply Kept.refl
    | (with_reducible refine Kept.modChan ?_ _ ?_)
    | with_reducible apply Kept.puti
    | with_reducible apply State.countPulse_kept
    | with_reducible apply Kept.ite
    | ((try lift_lets -underBinder); intro x; have hx : Kept qt s₀ x := ?_; (on_goal 1 => clear_value x); (on_goal 2 => dsimp only [x]))
    | ((try lift_lets -underBinder); intro x; clear_value x)
    | split
    | (with_reducible apply Kept.upd; first | with_reducible assumption | with_reducible apply Kept.refl | (with_reducible refine Kept.modChan ?_ _ ?_) | with_reducible apply Kept.puti | with_reducible apply State.countPulse_kept)
    | exact id
    | (intro x hx; exact hx)
    | (intro x hx; simp_all [PwmChan.oneSided])
    | (intro hx; simp_all [PwmChan.oneSided])

theorem State.settleLow_kept {qt : Bool} {s₀ s : State} (h : Kept qt s₀ s) (c : Nat) (e : PulseEnv) (V : Nat) (corr : Int) : Kept qt s₀ (State.settleLow s c e V corr) := by
  unfold State.settleLow
  repeat' first
    | with_reducible assumption
    | with_reducible apply Kept.refl
    | (with_reducible refine Kept.modChan ?_ _ ?_)
    | with_reducible apply Kept.puti
    | with_reducible apply State.countPulse_kept
    | with_reducible apply Kept.ite
    | ((try lift_lets -underBinder); intro x; have hx : Kept qt s₀ x := ?_; (on_goal 1 => clear_value x); (on_goal 2 => dsimp only [x]))
    | ((try lift_lets -underBinder); intro x; clear_value x)
    | split
    | (with_reducible apply Kept.upd; first | with_reducible assumption | with_reducible apply Kept.refl | (with_reducible refine Kept.modChan ?_ _ ?_) | with_reducible apply Kept.puti | with_reducible apply State.countPulse_kept)
    | exact id
    | (intro x hx; exact hx)
    | (intro x hx; simp_all [PwmChan.oneSided])
    | (intro hx; simp_all [PwmChan.oneSided])

theorem State.switchPulses_kept {qt : Bool} {s₀ s : State} (h : Kept qt s₀ s) (c : Nat) (e : PulseEnv) (V cmp : Nat) (stay first double tick : Bool) : Kept qt s₀ (State.switchPulses s c e V cmp stay first double tick) := by
  unfold State.switchPulses
  repeat' first
    | with_reducible assumption
    | with_reducible apply Kept.refl
    | (with_reducible refine Kept.modChan ?_ _ ?_)
    | with_reducible apply Kept.puti
    | with_reducible apply State.countPulse_kept
    | with_reducible apply State.lowPulse_kept
    | with_reducible apply Kept.ite
    | ((try lift_lets -underBinder); intro x; have hx : Kept qt s₀ x := ?_; (on_goal 1 => clear_value x); (on_goal 2 => dsimp only [x]))
    | ((try lift_lets -underBinder); intro x; clear_value x)
    | split
    | (with_reducible apply Kept.upd; first | with_reducible assumption | with_reducible apply Kept.refl | (with_reducible refine Kept.modChan ?_ _ ?_) | with_reducible apply Kept.puti | with_reducible apply State.countPulse_kept | with_reducible apply State.lowPulse_kept)
    | exact id
    | (intro x hx; exact hx)
    | (intro x hx; simp_all [PwmChan.oneSided])
    | (intro hx; simp_all [PwmChan.oneSided])

theorem State.switchPeriod_kept {qt : Bool} {s₀ s : State} (h : Kept qt s₀ s) (c : Nat) (corr : Int) : Kept qt s₀ (State.switchPeriod s c corr) := by
  unfold State.switchPeriod
  repeat' first
    | with_reducible assumption
    | with_reducible apply Kept.refl
    | (with_reducible refine Kept.modChan ?_ _ ?_)
    | with_reducible apply Kept.wr
    | with_reducible apply Kept.put
    | with_reducible apply Kept.puti
    | with_reducible apply State.gateOn_kept
    | with_reducible apply State.countPulse_kept
    | with_reducible apply State.settleLow_kept
    | with_reducible apply State.switchPulses_kept
    | with_reducible apply Kept.ite
    | ((try lift_lets -underBinder); intro x; have hx : Kept qt s₀ x := ?_; (on_goal 1 => clear_value x); (on_goal 2 => dsimp only [x]))
    | ((try lift_lets -underBinder); intro x; clear_value x)
    | split
    | (with_reducible apply Kept.upd; first | with_reducible assumption | with_reducible apply Kept.refl | (with_reducible refine Kept.modChan ?_ _ ?_) | with_reducible apply Kept.wr | with_reducible apply Kept.put | with_reducible apply Kept.puti | with_reducible apply State.gateOn_kept | with_reducible apply State.countPulse_kept | with_reducible apply State.settleLow_kept | with_reducible apply State.switchPulses_kept)
    | exact id
    | (intro x hx; exact hx)
    | (intro x hx; simp_all [PwmChan.oneSided])
    | (intro hx; simp_all [PwmChan.oneSided])

theorem State.startPeriod_kept {qt : Bool} {s₀ s : State} (h : Kept qt s₀ s) (c : Nat) (corr : Int) : Kept qt s₀ (State.startPeriod s c corr) := by
  unfold State.startPeriod
  repeat' first
    | with_reducible assumption
    | with_reducible apply Kept.refl
    | (with_reducible refine Kept.modChan ?_ _ ?_)
    | with_reducible apply Kept.put
    | with_reducible apply Kept.flag
    | with_reducible apply Kept.inc
    | with_reducible apply State.force_kept
    | with_reducible apply State.switchPeriod_kept
    | with_reducible apply Kept.ite
    | ((try lift_lets -underBinder); intro x; have hx : Kept qt s₀ x := ?_; (on_goal 1 => clear_value x); (on_goal 2 => dsimp only [x]))
    | ((try lift_lets -underBinder); intro x; clear_value x)
    | split
    | (with_reducible apply Kept.upd; first | with_reducible assumption | with_reducible apply Kept.refl | (with_reducible refine Kept.modChan ?_ _ ?_) | with_reducible apply Kept.put | with_reducible apply Kept.flag | with_reducible apply Kept.inc | with_reducible apply State.force_kept | with_reducible apply State.switchPeriod_kept)
    | exact id
    | (intro x hx; exact hx)
    | (intro x hx; simp_all [PwmChan.oneSided])
    | (intro hx; simp_all [PwmChan.oneSided])

theorem State.peakUpdate_kept {qt : Bool} {s₀ s : State} (h : Kept qt s₀ s) (c : Nat) : Kept qt s₀ (State.peakUpdate s c) := by
  unfold State.peakUpdate
  repeat' first
    | with_reducible assumption
    | with_reducible apply Kept.refl
    | (with_reducible refine Kept.modChan ?_ _ ?_)
    | with_reducible apply Kept.wr
    | with_reducible apply Kept.put
    | with_reducible apply State.lowPulse_kept
    | with_reducible apply Kept.ite
    | ((try lift_lets -underBinder); intro x; have hx : Kept qt s₀ x := ?_; (on_goal 1 => clear_value x); (on_goal 2 => dsimp only [x]))
    | ((try lift_lets -underBinder); intro x; clear_value x)
    | split
    | (with_reducible apply Kept.upd; first | with_reducible assumption | with_reducible apply Kept.refl | (with_reducible refine Kept.modChan ?_ _ ?_) | with_reducible apply Kept.wr | with_reducible apply Kept.put | with_reducible apply State.lowPulse_kept)
    | exact id
    | (intro x hx; exact hx)
    | (intro x hx; simp_all [PwmChan.oneSided])
    | (intro hx; simp_all [PwmChan.oneSided])

theorem State.schedule_kept {qt : Bool} {s₀ s : State} (h : Kept qt s₀ s) (e : Nat) : Kept qt s₀ (State.schedule s e) := by
  unfold State.schedule
  repeat' first
    | with_reducible assumption
    | with_reducible apply Kept.refl
    | with_reducible apply Kept.modEngine
    | with_reducible apply Kept.ite
    | ((try lift_lets -underBinder); intro x; have hx : Kept qt s₀ x := ?_; (on_goal 1 => clear_value x); (on_goal 2 => dsimp only [x]))
    | ((try lift_lets -underBinder); intro x; clear_value x)
    | split
    | (with_reducible apply Kept.upd; first | with_reducible assumption | with_reducible apply Kept.refl | with_reducible apply Kept.modEngine)

theorem State.takeLate_kept {qt : Bool} {s₀ s : State} (h : Kept qt s₀ s) (n : Nat) : Kept qt s₀ (State.takeLate s n) := by
  unfold State.takeLate
  repeat' first
    | with_reducible assumption
    | with_reducible apply Kept.refl
    | (with_reducible refine Kept.modChan ?_ _ ?_)
    | (with_reducible refine Kept.each ?_ _ (fun _ t _ => ?_))
    | with_reducible apply Kept.put
    | with_reducible apply Kept.modCc
    | with_reducible apply Kept.ite
    | ((try lift_lets -underBinder); intro x; have hx : Kept qt s₀ x := ?_; (on_goal 1 => clear_value x); (on_goal 2 => dsimp only [x]))
    | ((try lift_lets -underBinder); intro x; clear_value x)
    | split
    | (with_reducible apply Kept.upd; first | with_reducible assumption | with_reducible apply Kept.refl | (with_reducible refine Kept.modChan ?_ _ ?_) | (with_reducible refine Kept.each ?_ _ (fun _ t _ => ?_)) | with_reducible apply Kept.put | with_reducible apply Kept.modCc)
    | exact id
    | (intro x hx; exact hx)
    | (intro x hx; simp_all [PwmChan.oneSided])
    | (intro hx; simp_all [PwmChan.oneSided])

theorem State.syncReport_kept {qt : Bool} {s₀ s : State} (h : Kept qt s₀ s) (g : Nat) (d : Int) (was : Bool) : Kept qt s₀ (State.syncReport s g d was) := by
  unfold State.syncReport
  repeat' first
    | with_reducible assumption
    | with_reducible apply Kept.refl
    | with_reducible apply Kept.put
    | with_reducible apply Kept.draw
    | with_reducible apply State.raise_kept
    | with_reducible apply Kept.ite
    | ((try lift_lets -underBinder); intro x; have hx : Kept qt s₀ x := ?_; (on_goal 1 => clear_value x); (on_goal 2 => dsimp only [x]))
    | ((try lift_lets -underBinder); intro x; clear_value x)
    | split

theorem State.stopChan_kept {qt : Bool} {s₀ s : State} (h : Kept qt s₀ s) (c : Nat) : Kept qt s₀ (State.stopChan s c) := by
  unfold State.stopChan
  repeat' first
    | with_reducible assumption
    | with_reducible apply Kept.refl
    | with_reducible apply Kept.wr
    | with_reducible apply State.force_kept
    | with_reducible apply Kept.ite
    | ((try lift_lets -underBinder); intro x; have hx : Kept qt s₀ x := ?_; (on_goal 1 => clear_value x); (on_goal 2 => dsimp only [x]))
    | ((try lift_lets -underBinder); intro x; clear_value x)
    | split

/-- The outgoing gate is removed and the turn-on of the other one, which is off, waits. -/
theorem State.outgoing_kept {qt : Bool} {s₀ s : State} (h : Kept qt s₀ s) (c : Nat) (high : Bool)
    (hx : s₀.OneSided → ((s.chan c).gate high).on = false) {f : PwmChan → PwmChan} (hf : ∀ y, (f y).h = y.h ∧ (f y).l = y.l) :
    Kept qt s₀ ((s.gateOff c (!high)).modChan c f) := by
  have k := State.gateOff_kept h c (!high) false false
  by_cases w : s₀.OneSided
  swap
  · exact ⟨k.regs, k.mem, fun w' => absurd w' w, k.quiet⟩
  replace hx := hx w
  refine k.setChan c (fun _ => ?_)
  have g := s.gateOff_gates c (!high) false false
  unfold PwmChan.oneSided
  rw [(hf _).1, (hf _).2]
  cases high <;> simp_all [PwmChan.gate]

theorem refreshInsert_kept {qt : Bool} {s₀ s : State} (h : Kept qt s₀ s) (c : Nat) : Kept qt s₀ (refreshInsert c s) := by
  unfold refreshInsert
  dsimp only
  split
  · rename_i hc
    generalize hu : ({ s with now := _ } : State) = u
    have hk : Kept qt s₀ u := by subst hu; exact Kept.upd h
    have hg : u.chan c = s.chan c := by subst hu; rfl
    have off : s₀.OneSided → ((u.chan c).gate false).on = false := fun w => by
      have := h.chans w c
      rw [hg]
      simp only [Bool.and_eq_true] at hc
      unfold PwmChan.oneSided at this
      have hh : (s.chan c).h.on = true := by tauto
      rw [hh] at this
      simp only [Bool.true_and, Bool.and_eq_true] at this
      simpa [PwmChan.gate] using this.1
    refine Kept.ite (State.gateOn_kept ?_ _ _) ?_ <;> exact State.outgoing_kept hk c false off (fun _ => ⟨rfl, rfl⟩)
  · exact h

theorem State.turnOn_kept {qt : Bool} {s₀ s : State} (h : Kept qt s₀ s) (c : Nat) (high : Bool) : Kept qt s₀ (State.turnOn s c high) := by
  unfold State.turnOn
  refine Kept.ite (State.vhTrip_kept (h.setChan c (fun hx => ?_)) _) (State.gateOn_kept h _ _)
  revert hx
  unfold PwmChan.oneSided
  cases (s.chan c).h.on <;> cases (s.chan c).l.on <;> simp

theorem commutation_kept {qt : Bool} {s₀ s : State} (h : Kept qt s₀ s) (c : Nat) (e : Edge) :
    Kept qt s₀ (commutation c e s) := by
  unfold commutation
  dsimp only
  refine Kept.ite h ?_
  cases e with
  | edge toHigh =>
    dsimp only
    split
    · refine Kept.ite h ?_
      rename_i t up rest he
      generalize hu : State.modChan { s with now := max s.now (t / 2) } c (fun y => { y with edges := rest }) = u
      have hk : Kept qt s₀ u := by
        subst hu; exact Kept.modChan (Kept.upd h) c (fun _ hx => hx)
      have hg : (u.chan c).gate toHigh = (s.chan c).gate toHigh := by
        subst hu; simp only [State.chan_modChan_same]; cases toHigh <;> rfl
      split
      · exact hk
      · rename_i off
        have hk' : Kept qt s₀ ((u.gateOff c (!toHigh)).modChan c (fun y => { y with
            incoming := some toHigh
            deadAt := max (2 * (u.gateOff c (!toHigh)).now) t + (u.gateOff c (!toHigh)).deadTd c })) :=
          State.outgoing_kept hk c toHigh (fun _ => by rw [hg]; simpa using off) (fun _ => ⟨rfl, rfl⟩)
        exact Kept.ite (State.turnOn_kept hk' _ _) hk'
    · exact h
  | deadEnd =>
    dsimp only
    split
    · refine State.turnOn_kept ?_ _ _
      exact Kept.upd h
    · exact h

theorem pwmgConfigWrite_kept {qt : Bool} {s₀ s : State} (h : Kept qt s₀ s) (g : Nat) (r : PwmgReg) (v : Word) : Kept qt s₀ (pwmgConfigWrite g r v s) := by
  unfold pwmgConfigWrite
  repeat' first
    | with_reducible assumption
    | with_reducible apply Kept.refl
    | with_reducible apply Kept.wr
    | with_reducible apply Kept.put
    | with_reducible apply State.recomputePer_kept
    | with_reducible apply Kept.ite
    | ((try lift_lets -underBinder); intro x; have hx : Kept qt s₀ x := ?_; (on_goal 1 => clear_value x); (on_goal 2 => dsimp only [x]))
    | ((try lift_lets -underBinder); intro x; clear_value x)
    | split

end Sys2Proof.Machine
end

