-- ==== Sys2Proof/Laws/KeepFaults.lean ====
section
/-! SUPPORT. What the operations of Machine/Faults.lean keep: one lemma per operation (Laws/Kept.lean). -/
namespace Sys2Proof.Machine
set_option linter.unusedTactic false
set_option linter.unreachableTactic false
set_option linter.unusedVariables false

theorem faultRaise_kept {s₀ s : State} (h : Kept false s₀ s) (src kind detail addr : Nat) : Kept false s₀ (faultRaise src kind detail addr s) := by
  unfold faultRaise
  repeat' first
    | with_reducible assumption
    | with_reducible apply Kept.refl
    | with_reducible apply Kept.wr
    | with_reducible apply Kept.put
    | with_reducible apply Kept.incSat
    | with_reducible apply State.raise_kept
    | with_reducible apply Kept.ite
    | ((try lift_lets -underBinder); intro x; have hx : Kept false s₀ x := ?_; (on_goal 1 => clear_value x); (on_goal 2 => dsimp only [x]))
    | ((try lift_lets -underBinder); intro x; clear_value x)
    | split

theorem faultRecord_kept {qt : Bool} {s₀ s : State} (h : Kept qt s₀ s) : Kept qt s₀ (faultRecord s) := by
  unfold faultRecord
  repeat' first
    | with_reducible assumption
    | with_reducible apply Kept.refl
    | with_reducible apply Kept.wr
    | with_reducible apply Kept.ite
    | ((try lift_lets -underBinder); intro x; have hx : Kept qt s₀ x := ?_; (on_goal 1 => clear_value x); (on_goal 2 => dsimp only [x]))
    | ((try lift_lets -underBinder); intro x; clear_value x)
    | split
    | (with_reducible apply Kept.upd; first | with_reducible assumption | with_reducible apply Kept.refl | with_reducible apply Kept.wr)

theorem notify_kept {qt : Bool} {s₀ s : State} (h : Kept qt s₀ s) (h : Nat) : Kept qt s₀ (notify h s) := by
  unfold notify
  repeat' first
    | with_reducible assumption
    | with_reducible apply Kept.refl
    | with_reducible apply Kept.put
    | with_reducible apply Kept.inc
    | with_reducible apply Kept.setHost
    | with_reducible apply Kept.ite
    | ((try lift_lets -underBinder); intro x; have hx : Kept qt s₀ x := ?_; (on_goal 1 => clear_value x); (on_goal 2 => dsimp only [x]))
    | ((try lift_lets -underBinder); intro x; clear_value x)
    | split
    | (with_reducible apply Kept.upd; first | with_reducible assumption | with_reducible apply Kept.refl | with_reducible apply Kept.put | with_reducible apply Kept.inc | with_reducible apply Kept.setHost)

theorem fltSevWrite_kept {qt : Bool} {s₀ s : State} (h : Kept qt s₀ s) (w : Writer) (i : Nat) (v : Word) : Kept qt s₀ (fltSevWrite w i v s) := by
  unfold fltSevWrite
  repeat' first
    | with_reducible assumption
    | with_reducible apply Kept.refl
    | with_reducible apply Kept.noteSet
    | with_reducible apply Kept.put
    | with_reducible apply Kept.w1c
    | with_reducible apply Kept.ite
    | ((try lift_lets -underBinder); intro x; have hx : Kept qt s₀ x := ?_; (on_goal 1 => clear_value x); (on_goal 2 => dsimp only [x]))
    | ((try lift_lets -underBinder); intro x; clear_value x)
    | split

theorem fltSubscribe_kept {qt : Bool} {s₀ s : State} (h : Kept qt s₀ s) (w : Writer) (v : Word) : Kept qt s₀ (fltSubscribe w v s) := by
  unfold fltSubscribe
  repeat' first
    | with_reducible assumption
    | with_reducible apply Kept.refl
    | with_reducible apply Kept.noteSet
    | with_reducible apply Kept.put
    | with_reducible apply Kept.ite
    | ((try lift_lets -underBinder); intro x; have hx : Kept qt s₀ x := ?_; (on_goal 1 => clear_value x); (on_goal 2 => dsimp only [x]))
    | ((try lift_lets -underBinder); intro x; clear_value x)
    | split

end Sys2Proof.Machine
end

