-- ==== Sys2Proof/Laws/KeepSummitLogOps.lean ====
section
/-! SUPPORT. What the operations of Machine/SummitLogOps.lean keep: one lemma per operation (Laws/Kept.lean). -/
namespace Sys2Proof.Machine
set_option linter.unusedTactic false
set_option linter.unreachableTactic false
set_option linter.unusedVariables false

theorem logRecordWrite_kept {qt : Bool} {s₀ s : State} (h : Kept qt s₀ s) : Kept qt s₀ (logRecordWrite s) := by
  unfold logRecordWrite
  repeat' first
    | with_reducible assumption
    | with_reducible apply Kept.refl
    | with_reducible apply State.logWrite_kept
    | with_reducible apply Kept.ite
    | ((try lift_lets -underBinder); intro x; have hx : Kept qt s₀ x := ?_; (on_goal 1 => clear_value x); (on_goal 2 => dsimp only [x]))
    | ((try lift_lets -underBinder); intro x; clear_value x)
    | split
    | (with_reducible apply Kept.upd; first | with_reducible assumption | with_reducible apply Kept.refl | with_reducible apply State.logWrite_kept)

theorem freezeCmd_kept {qt : Bool} {s₀ s : State} (h : Kept qt s₀ s) (k : Nat) : Kept qt s₀ (freezeCmd k s) := by
  unfold freezeCmd
  repeat' first
    | with_reducible assumption
    | with_reducible apply Kept.refl
    | with_reducible apply Kept.put
    | with_reducible apply State.answer_kept
    | (with_reducible refine State.runHead_kept ?_ _ _ _ (fun _ t _ => ?_))
    | with_reducible apply State.unfreeze_kept
    | with_reducible apply Kept.ite
    | ((try lift_lets -underBinder); intro x; have hx : Kept qt s₀ x := ?_; (on_goal 1 => clear_value x); (on_goal 2 => dsimp only [x]))
    | ((try lift_lets -underBinder); intro x; clear_value x)
    | split
    | (with_reducible apply Kept.upd; first | with_reducible assumption | with_reducible apply Kept.refl | with_reducible apply Kept.put | with_reducible apply State.answer_kept | (with_reducible refine State.runHead_kept ?_ _ _ _ (fun _ t _ => ?_)) | with_reducible apply State.unfreeze_kept)

theorem freezeTimeout_kept {qt : Bool} {s₀ s : State} (h : Kept qt s₀ s) : Kept qt s₀ (freezeTimeout s) := by
  unfold freezeTimeout
  repeat' first
    | with_reducible assumption
    | with_reducible apply Kept.refl
    | with_reducible apply State.unfreeze_kept
    | with_reducible apply Kept.ite
    | ((try lift_lets -underBinder); intro x; have hx : Kept qt s₀ x := ?_; (on_goal 1 => clear_value x); (on_goal 2 => dsimp only [x]))
    | ((try lift_lets -underBinder); intro x; clear_value x)
    | split
    | (with_reducible apply Kept.upd; first | with_reducible assumption | with_reducible apply Kept.refl | with_reducible apply State.unfreeze_kept)

theorem State.newLogNonce_kept {qt : Bool} {s₀ s : State} (h : Kept qt s₀ s) : Kept qt s₀ (State.newLogNonce s) := by
  unfold State.newLogNonce
  repeat' first
    | with_reducible assumption
    | with_reducible apply Kept.refl
    | with_reducible apply Kept.wr64
    | with_reducible apply Kept.draw
    | with_reducible apply Kept.ite
    | ((try lift_lets -underBinder); intro x; have hx : Kept qt s₀ x := ?_; (on_goal 1 => clear_value x); (on_goal 2 => dsimp only [x]))
    | ((try lift_lets -underBinder); intro x; clear_value x)

theorem clearLogCmd_kept {qt : Bool} {s₀ s : State} (h : Kept qt s₀ s) (k : Nat) : Kept qt s₀ (clearLogCmd k s) := by
  unfold clearLogCmd
  repeat' first
    | with_reducible assumption
    | with_reducible apply Kept.refl
    | with_reducible apply Kept.wr
    | with_reducible apply Kept.put
    | with_reducible apply Kept.inc
    | with_reducible apply State.answer_kept
    | (with_reducible refine State.runHead_kept ?_ _ _ _ (fun _ t _ => ?_))
    | with_reducible apply State.logWrite_kept
    | with_reducible apply State.newLogNonce_kept
    | with_reducible apply Kept.ite
    | ((try lift_lets -underBinder); intro x; have hx : Kept qt s₀ x := ?_; (on_goal 1 => clear_value x); (on_goal 2 => dsimp only [x]))
    | ((try lift_lets -underBinder); intro x; clear_value x)
    | split
    | (with_reducible apply Kept.upd; first | with_reducible assumption | with_reducible apply Kept.refl | with_reducible apply Kept.wr | with_reducible apply Kept.put | with_reducible apply Kept.inc | with_reducible apply State.answer_kept | (with_reducible refine State.runHead_kept ?_ _ _ _ (fun _ t _ => ?_)) | with_reducible apply State.logWrite_kept | with_reducible apply State.newLogNonce_kept)

theorem logMirror_kept {qt : Bool} {s₀ s : State} (h : Kept qt s₀ s) : Kept qt s₀ (logMirror s) := by
  unfold logMirror
  repeat' first
    | with_reducible assumption
    | with_reducible apply Kept.refl
    | with_reducible apply Kept.put
    | with_reducible apply Kept.ite
    | ((try lift_lets -underBinder); intro x; have hx : Kept qt s₀ x := ?_; (on_goal 1 => clear_value x); (on_goal 2 => dsimp only [x]))
    | ((try lift_lets -underBinder); intro x; clear_value x)
    | split
    | (with_reducible apply Kept.upd; first | with_reducible assumption | with_reducible apply Kept.refl | with_reducible apply Kept.put)

theorem State.logBoot_kept {qt : Bool} {s₀ s : State} (h : Kept qt s₀ s) (belay : Bool) : Kept qt s₀ (State.logBoot s belay) := by
  unfold State.logBoot
  repeat' first
    | with_reducible assumption
    | with_reducible apply Kept.refl
    | (with_reducible refine Kept.each ?_ _ (fun _ t _ => ?_))
    | with_reducible apply Kept.inc
    | with_reducible apply State.logWrite_kept
    | with_reducible apply Kept.ite
    | ((try lift_lets -underBinder); intro x; have hx : Kept qt s₀ x := ?_; (on_goal 1 => clear_value x); (on_goal 2 => dsimp only [x]))
    | ((try lift_lets -underBinder); intro x; clear_value x)
    | split
    | (with_reducible apply Kept.upd; first | with_reducible assumption | with_reducible apply Kept.refl | (with_reducible refine Kept.each ?_ _ (fun _ t _ => ?_)) | with_reducible apply Kept.inc | with_reducible apply State.logWrite_kept)

end Sys2Proof.Machine
end

