-- ==== Sys2Proof/Laws/KeepImageStore.lean ====
section
/-! SUPPORT. What the operations of Machine/ImageStore.lean keep: one lemma per operation (Laws/Kept.lean). -/
namespace Sys2Proof.Machine
set_option linter.unusedTactic false
set_option linter.unreachableTactic false
set_option linter.unusedVariables false

theorem State.setImg_kept {s₀ s : State} (h : Kept false s₀ s) (bank kind idx : Nat) (x : Img) :
    Kept false s₀ (State.setImg s bank kind idx x) := by
  exact h.stored rfl id rfl rfl

theorem State.syncRdir_kept {qt : Bool} {s₀ s : State} (h : Kept qt s₀ s) (i : Nat) : Kept qt s₀ (State.syncRdir s i) := by
  unfold State.syncRdir
  repeat' first
    | with_reducible assumption
    | with_reducible apply Kept.refl
    | with_reducible apply Kept.wr
    | with_reducible apply Kept.ite
    | ((try lift_lets -underBinder); intro x; have hx : Kept qt s₀ x := ?_; (on_goal 1 => clear_value x); (on_goal 2 => dsimp only [x]))
    | ((try lift_lets -underBinder); intro x; clear_value x)

theorem State.syncDirectory_kept {qt : Bool} {s₀ s : State} (h : Kept qt s₀ s) : Kept qt s₀ (State.syncDirectory s) :=
  Kept.ite h (h.each _ (fun _ _ ht => ht.wr _ _))

theorem State.storeImg_kept {s₀ s : State} (h : Kept false s₀ s) (bank kind idx : Nat) (x : Img) : Kept false s₀ (State.storeImg s bank kind idx x) := by
  unfold State.storeImg
  repeat' first
    | with_reducible assumption
    | with_reducible apply Kept.refl
    | with_reducible apply State.setImg_kept
    | with_reducible apply State.syncRdir_kept
    | with_reducible apply Kept.ite
    | ((try lift_lets -underBinder); intro x; have hx : Kept false s₀ x := ?_; (on_goal 1 => clear_value x); (on_goal 2 => dsimp only [x]))
    | ((try lift_lets -underBinder); intro x; clear_value x)
    | split

theorem State.endSession_kept {s₀ s : State} (h : Kept false s₀ s) : Kept false s₀ (State.endSession s) := by
  unfold State.endSession
  repeat' first
    | with_reducible assumption
    | with_reducible apply Kept.refl
    | with_reducible apply Kept.put
    | with_reducible apply State.storeImg_kept
    | with_reducible apply Kept.ite
    | ((try lift_lets -underBinder); intro x; have hx : Kept false s₀ x := ?_; (on_goal 1 => clear_value x); (on_goal 2 => dsimp only [x]))
    | ((try lift_lets -underBinder); intro x; clear_value x)
    | split

end Sys2Proof.Machine
end

