-- ==== Sys2Proof/Laws/KeepConverters.lean ====
section
/-! SUPPORT. What the operations of Machine/Converters.lean keep: one lemma per operation (Laws/Kept.lean). -/
namespace Sys2Proof.Machine
set_option linter.unusedTactic false
set_option linter.unreachableTactic false
set_option linter.unusedVariables false

theorem State.unsettle_kept {qt : Bool} {s₀ s : State} (h : Kept qt s₀ s) (c : Nat) : Kept qt s₀ (State.unsettle s c) := by
  unfold State.unsettle
  repeat' first
    | with_reducible assumption
    | with_reducible apply Kept.refl
    | with_reducible apply Kept.wr
    | with_reducible apply Kept.put
    | with_reducible apply Kept.setDec
    | with_reducible apply Kept.ite
    | ((try lift_lets -underBinder); intro x; have hx : Kept qt s₀ x := ?_; (on_goal 1 => clear_value x); (on_goal 2 => dsimp only [x]))
    | ((try lift_lets -underBinder); intro x; clear_value x)
    | split
    | (with_reducible apply Kept.upd; first | with_reducible assumption | with_reducible apply Kept.refl | with_reducible apply Kept.wr | with_reducible apply Kept.put | with_reducible apply Kept.setDec)

theorem State.busSide_kept {qt : Bool} {s₀ s : State} (h : Kept qt s₀ s) (key : Nat) (beyond back : Bool) : Kept qt s₀ (State.busSide s key beyond back).1 := by
  unfold State.busSide
  repeat' first
    | with_reducible assumption
    | with_reducible apply Kept.refl
    | with_reducible apply Kept.setWindow
    | with_reducible apply Kept.ite
    | ((try lift_lets -underBinder); intro x; have hx : Kept qt s₀ x := ?_; (on_goal 1 => clear_value x); (on_goal 2 => dsimp only [x]))
    | ((try lift_lets -underBinder); intro x; clear_value x)
    | split
    | (with_reducible apply Kept.upd; first | with_reducible assumption | with_reducible apply Kept.refl | with_reducible apply Kept.setWindow)

theorem State.busWindow_kept {qt : Bool} {s₀ s : State} (h : Kept qt s₀ s) (g : Nat) (mv : Nat) : Kept qt s₀ (State.busWindow s g mv) := by
  unfold State.busWindow
  repeat' first
    | with_reducible assumption
    | with_reducible apply Kept.refl
    | with_reducible apply State.raise_kept
    | with_reducible apply State.busSide_kept
    | with_reducible apply Kept.ite
    | ((try lift_lets -underBinder); intro x; have hx : Kept qt s₀ x := ?_; (on_goal 1 => clear_value x); (on_goal 2 => dsimp only [x]))
    | ((try lift_lets -underBinder); intro x; have hx : Kept qt s₀ x.1 := ?_; (on_goal 1 => clear_value x); (on_goal 2 => dsimp only [x]))
    | ((try lift_lets -underBinder); intro x; clear_value x)
    | split

theorem State.decApply_kept {qt : Bool} {s₀ s : State} (h : Kept qt s₀ s) (c : Nat) : Kept qt s₀ (State.decApply s c) := by
  unfold State.decApply
  repeat' first
    | with_reducible assumption
    | with_reducible apply Kept.refl
    | with_reducible apply Kept.setDec
    | with_reducible apply State.unsettle_kept
    | with_reducible apply Kept.ite
    | ((try lift_lets -underBinder); intro x; have hx : Kept qt s₀ x := ?_; (on_goal 1 => clear_value x); (on_goal 2 => dsimp only [x]))
    | ((try lift_lets -underBinder); intro x; clear_value x)
    | split
    | (with_reducible apply Kept.upd; first | with_reducible assumption | with_reducible apply Kept.refl | with_reducible apply Kept.setDec | with_reducible apply State.unsettle_kept)

theorem State.decimated_kept {qt : Bool} {s₀ s : State} (h : Kept qt s₀ s) (c : Nat) (iH iL : List Int) : Kept qt s₀ (State.decimated s c iH iL) := by
  unfold State.decimated
  repeat' first
    | with_reducible assumption
    | with_reducible apply Kept.refl
    | with_reducible apply Kept.wr
    | with_reducible apply Kept.put
    | with_reducible apply Kept.puti
    | with_reducible apply Kept.inc
    | with_reducible apply Kept.setDec
    | with_reducible apply State.busWindow_kept
    | with_reducible apply Kept.ite
    | ((try lift_lets -underBinder); intro x; have hx : Kept qt s₀ x := ?_; (on_goal 1 => clear_value x); (on_goal 2 => dsimp only [x]))
    | ((try lift_lets -underBinder); intro x; clear_value x)
    | split
    | (with_reducible apply Kept.upd; first | with_reducible assumption | with_reducible apply Kept.refl | with_reducible apply Kept.wr | with_reducible apply Kept.put | with_reducible apply Kept.puti | with_reducible apply Kept.inc | with_reducible apply Kept.setDec | with_reducible apply State.busWindow_kept)

theorem decimatedOutput_kept {qt : Bool} {s₀ s : State} (h : Kept qt s₀ s) (c : Nat) (iH iL : List Int) : Kept qt s₀ (decimatedOutput c iH iL s) := by
  unfold decimatedOutput
  repeat' first
    | with_reducible assumption
    | with_reducible apply Kept.refl
    | with_reducible apply State.decApply_kept
    | with_reducible apply State.decimated_kept
    | with_reducible apply Kept.ite
    | ((try lift_lets -underBinder); intro x; have hx : Kept qt s₀ x := ?_; (on_goal 1 => clear_value x); (on_goal 2 => dsimp only [x]))
    | ((try lift_lets -underBinder); intro x; clear_value x)
    | split
    | (with_reducible apply Kept.upd; first | with_reducible assumption | with_reducible apply Kept.refl | with_reducible apply State.decApply_kept | with_reducible apply State.decimated_kept)

theorem decCfgWrite_kept {qt : Bool} {s₀ s : State} (h : Kept qt s₀ s) (c : Nat) (v : Word) : Kept qt s₀ (decCfgWrite c v s) := by
  unfold decCfgWrite
  repeat' first
    | with_reducible assumption
    | with_reducible apply Kept.refl
    | with_reducible apply Kept.wr
    | with_reducible apply Kept.put
    | with_reducible apply Kept.setDec
    | with_reducible apply Kept.ite
    | ((try lift_lets -underBinder); intro x; have hx : Kept qt s₀ x := ?_; (on_goal 1 => clear_value x); (on_goal 2 => dsimp only [x]))
    | ((try lift_lets -underBinder); intro x; clear_value x)
    | split
    | (with_reducible apply Kept.upd; first | with_reducible assumption | with_reducible apply Kept.refl | with_reducible apply Kept.wr | with_reducible apply Kept.put | with_reducible apply Kept.setDec)

theorem decSettled_kept {qt : Bool} {s₀ s : State} (h : Kept qt s₀ s) (c : Nat) : Kept qt s₀ (decSettled c s) := by
  unfold decSettled
  repeat' first
    | with_reducible assumption
    | with_reducible apply Kept.refl
    | with_reducible apply Kept.put
    | with_reducible apply Kept.ite
    | ((try lift_lets -underBinder); intro x; have hx : Kept qt s₀ x := ?_; (on_goal 1 => clear_value x); (on_goal 2 => dsimp only [x]))
    | ((try lift_lets -underBinder); intro x; clear_value x)
    | split
    | (with_reducible apply Kept.upd; first | with_reducible assumption | with_reducible apply Kept.refl | with_reducible apply Kept.put)

theorem busWinWrite_kept {qt : Bool} {s₀ s : State} (h : Kept qt s₀ s) (g : Nat) (v : Word) : Kept qt s₀ (busWinWrite g v s) := by
  unfold busWinWrite
  repeat' first
    | with_reducible assumption
    | with_reducible apply Kept.refl
    | with_reducible apply Kept.wr
    | with_reducible apply Kept.put
    | with_reducible apply Kept.setDec
    | with_reducible apply Kept.ite
    | ((try lift_lets -underBinder); intro x; have hx : Kept qt s₀ x := ?_; (on_goal 1 => clear_value x); (on_goal 2 => dsimp only [x]))
    | ((try lift_lets -underBinder); intro x; clear_value x)
    | split
    | (with_reducible apply Kept.upd; first | with_reducible assumption | with_reducible apply Kept.refl | with_reducible apply Kept.wr | with_reducible apply Kept.put | with_reducible apply Kept.setDec)

theorem State.ringPut_kept {s₀ s : State} (h : Kept false s₀ s) (v : Word) : Kept false s₀ (State.ringPut s v) := by
  unfold State.ringPut
  repeat' first
    | with_reducible assumption
    | with_reducible apply Kept.refl
    | with_reducible apply Kept.inc
    | with_reducible apply Kept.wrMem
    | with_reducible apply Kept.ite
    | ((try lift_lets -underBinder); intro x; have hx : Kept false s₀ x := ?_; (on_goal 1 => clear_value x); (on_goal 2 => dsimp only [x]))
    | ((try lift_lets -underBinder); intro x; clear_value x)
    | split

theorem State.hkcBegin_kept {qt : Bool} {s₀ s : State} (h : Kept qt s₀ s) (conv : Nat) : Kept qt s₀ (State.hkcBegin s conv) := by
  unfold State.hkcBegin
  repeat' first
    | with_reducible assumption
    | with_reducible apply Kept.refl
    | with_reducible apply Kept.put
    | with_reducible apply Kept.ite
    | ((try lift_lets -underBinder); intro x; have hx : Kept qt s₀ x := ?_; (on_goal 1 => clear_value x); (on_goal 2 => dsimp only [x]))
    | ((try lift_lets -underBinder); intro x; clear_value x)
    | (with_reducible apply Kept.upd; first | with_reducible assumption | with_reducible apply Kept.refl | with_reducible apply Kept.put)

theorem State.hkcEmpty_kept {qt : Bool} {s₀ s : State} (h : Kept qt s₀ s) : Kept qt s₀ (State.hkcEmpty s) := by
  unfold State.hkcEmpty
  repeat' first
    | with_reducible assumption
    | with_reducible apply Kept.refl
    | with_reducible apply Kept.wr64
    | with_reducible apply Kept.put
    | with_reducible apply Kept.ite
    | ((try lift_lets -underBinder); intro x; have hx : Kept qt s₀ x := ?_; (on_goal 1 => clear_value x); (on_goal 2 => dsimp only [x]))
    | ((try lift_lets -underBinder); intro x; clear_value x)
    | split
    | (with_reducible apply Kept.upd; first | with_reducible assumption | with_reducible apply Kept.refl | with_reducible apply Kept.wr64 | with_reducible apply Kept.put)

theorem State.hkcNext_kept {qt : Bool} {s₀ s : State} (h : Kept qt s₀ s) : Kept qt s₀ (State.hkcNext s) := by
  unfold State.hkcNext
  repeat' first
    | with_reducible assumption
    | with_reducible apply Kept.refl
    | with_reducible apply Kept.wr64
    | with_reducible apply Kept.put
    | with_reducible apply State.hkcBegin_kept
    | with_reducible apply State.hkcEmpty_kept
    | with_reducible apply Kept.ite
    | ((try lift_lets -underBinder); intro x; have hx : Kept qt s₀ x := ?_; (on_goal 1 => clear_value x); (on_goal 2 => dsimp only [x]))
    | ((try lift_lets -underBinder); intro x; clear_value x)
    | split
    | (with_reducible apply Kept.upd; first | with_reducible assumption | with_reducible apply Kept.refl | with_reducible apply Kept.wr64 | with_reducible apply Kept.put | with_reducible apply State.hkcBegin_kept | with_reducible apply State.hkcEmpty_kept)

theorem State.hkcStart_kept {qt : Bool} {s₀ s : State} (h : Kept qt s₀ s) : Kept qt s₀ (State.hkcStart s) := by
  unfold State.hkcStart
  repeat' first
    | with_reducible assumption
    | with_reducible apply Kept.refl
    | with_reducible apply Kept.wr
    | with_reducible apply Kept.put
    | with_reducible apply State.hkcNext_kept
    | with_reducible apply Kept.ite
    | ((try lift_lets -underBinder); intro x; have hx : Kept qt s₀ x := ?_; (on_goal 1 => clear_value x); (on_goal 2 => dsimp only [x]))
    | ((try lift_lets -underBinder); intro x; clear_value x)
    | (with_reducible apply Kept.upd; first | with_reducible assumption | with_reducible apply Kept.refl | with_reducible apply Kept.wr | with_reducible apply Kept.put | with_reducible apply State.hkcNext_kept)

theorem State.hkcStopped_kept {qt : Bool} {s₀ s : State} (h : Kept qt s₀ s) : Kept qt s₀ (State.hkcStopped s) := by
  unfold State.hkcStopped
  repeat' first
    | with_reducible assumption
    | with_reducible apply Kept.refl
    | with_reducible apply Kept.put
    | with_reducible apply Kept.flag
    | with_reducible apply Kept.inc
    | with_reducible apply State.hkcStart_kept
    | with_reducible apply Kept.ite
    | ((try lift_lets -underBinder); intro x; have hx : Kept qt s₀ x := ?_; (on_goal 1 => clear_value x); (on_goal 2 => dsimp only [x]))
    | ((try lift_lets -underBinder); intro x; clear_value x)
    | split
    | (with_reducible apply Kept.upd; first | with_reducible assumption | with_reducible apply Kept.refl | with_reducible apply Kept.put | with_reducible apply Kept.flag | with_reducible apply Kept.inc | with_reducible apply State.hkcStart_kept)

theorem hkcRun_kept {qt : Bool} {s₀ s : State} (h : Kept qt s₀ s) (run : Bool) : Kept qt s₀ (hkcRun run s) := by
  unfold hkcRun
  repeat' first
    | with_reducible assumption
    | with_reducible apply Kept.refl
    | with_reducible apply Kept.put
    | with_reducible apply State.hkcStart_kept
    | with_reducible apply State.hkcStopped_kept
    | with_reducible apply Kept.ite
    | ((try lift_lets -underBinder); intro x; have hx : Kept qt s₀ x := ?_; (on_goal 1 => clear_value x); (on_goal 2 => dsimp only [x]))
    | ((try lift_lets -underBinder); intro x; clear_value x)
    | split

theorem hkcIsw_kept {qt : Bool} {s₀ s : State} (h : Kept qt s₀ s) : Kept qt s₀ (hkcIsw s) := by
  unfold hkcIsw
  repeat' first
    | with_reducible assumption
    | with_reducible apply Kept.refl
    | with_reducible apply State.hkcSignal_kept
    | with_reducible apply Kept.ite
    | ((try lift_lets -underBinder); intro x; have hx : Kept qt s₀ x := ?_; (on_goal 1 => clear_value x); (on_goal 2 => dsimp only [x]))
    | ((try lift_lets -underBinder); intro x; clear_value x)

theorem hkcTrigger_kept {qt : Bool} {s₀ s : State} (h : Kept qt s₀ s) : Kept qt s₀ (hkcTrigger s) := by
  unfold hkcTrigger
  repeat' first
    | with_reducible assumption
    | with_reducible apply Kept.refl
    | with_reducible apply Kept.put
    | with_reducible apply Kept.inc
    | with_reducible apply State.hkcNext_kept
    | with_reducible apply Kept.ite
    | ((try lift_lets -underBinder); intro x; have hx : Kept qt s₀ x := ?_; (on_goal 1 => clear_value x); (on_goal 2 => dsimp only [x]))
    | ((try lift_lets -underBinder); intro x; clear_value x)
    | split
    | (with_reducible apply Kept.upd; first | with_reducible assumption | with_reducible apply Kept.refl | with_reducible apply Kept.put | with_reducible apply Kept.inc | with_reducible apply State.hkcNext_kept)

theorem State.hkcRoll_kept {qt : Bool} {s₀ s : State} (h : Kept qt s₀ s) (m : Int) : Kept qt s₀ (State.hkcRoll s m) := by
  unfold State.hkcRoll
  repeat' first
    | with_reducible assumption
    | with_reducible apply Kept.refl
    | with_reducible apply Kept.puti
    | with_reducible apply Kept.inc
    | with_reducible apply Kept.ite
    | ((try lift_lets -underBinder); intro x; have hx : Kept qt s₀ x := ?_; (on_goal 1 => clear_value x); (on_goal 2 => dsimp only [x]))
    | ((try lift_lets -underBinder); intro x; clear_value x)
    | split
    | (with_reducible apply Kept.upd; first | with_reducible assumption | with_reducible apply Kept.refl | with_reducible apply Kept.puti | with_reducible apply Kept.inc)

theorem hkcDone_kept {s₀ s : State} (h : Kept false s₀ s) (k : Int) : Kept false s₀ (hkcDone k s) := by
  unfold hkcDone
  repeat' first
    | with_reducible assumption
    | with_reducible apply Kept.refl
    | with_reducible apply Kept.wr
    | with_reducible apply Kept.put
    | with_reducible apply Kept.flag
    | with_reducible apply State.ringPut_kept
    | with_reducible apply State.hkcNext_kept
    | with_reducible apply State.hkcStopped_kept
    | with_reducible apply State.hkcRoll_kept
    | with_reducible apply Kept.ite
    | ((try lift_lets -underBinder); intro x; have hx : Kept false s₀ x := ?_; (on_goal 1 => clear_value x); (on_goal 2 => dsimp only [x]))
    | ((try lift_lets -underBinder); intro x; clear_value x)
    | split
    | (with_reducible apply Kept.upd; first | with_reducible assumption | with_reducible apply Kept.refl | with_reducible apply Kept.wr | with_reducible apply Kept.put | with_reducible apply Kept.flag | with_reducible apply State.ringPut_kept | with_reducible apply State.hkcNext_kept | with_reducible apply State.hkcStopped_kept | with_reducible apply State.hkcRoll_kept)
    | exact h.same rfl rfl rfl rfl rfl rfl

theorem ridxWrite_kept {qt : Bool} {s₀ s : State} (h : Kept qt s₀ s) (v : Word) : Kept qt s₀ (ridxWrite v s) := by
  unfold ridxWrite
  repeat' first
    | with_reducible assumption
    | with_reducible apply Kept.refl
    | with_reducible apply Kept.wr
    | with_reducible apply Kept.put
    | with_reducible apply State.hkcNext_kept
    | with_reducible apply Kept.ite
    | ((try lift_lets -underBinder); intro x; have hx : Kept qt s₀ x := ?_; (on_goal 1 => clear_value x); (on_goal 2 => dsimp only [x]))
    | ((try lift_lets -underBinder); intro x; clear_value x)
    | split

theorem hkcRefWrite_kept {qt : Bool} {s₀ s : State} (h : Kept qt s₀ s) (v : Word) : Kept qt s₀ (hkcRefWrite v s) := by
  unfold hkcRefWrite
  repeat' first
    | with_reducible assumption
    | with_reducible apply Kept.refl
    | with_reducible apply Kept.wr
    | with_reducible apply Kept.put
    | with_reducible apply Kept.ite
    | ((try lift_lets -underBinder); intro x; have hx : Kept qt s₀ x := ?_; (on_goal 1 => clear_value x); (on_goal 2 => dsimp only [x]))
    | ((try lift_lets -underBinder); intro x; clear_value x)
    | split
    | (with_reducible apply Kept.upd; first | with_reducible assumption | with_reducible apply Kept.refl | with_reducible apply Kept.wr | with_reducible apply Kept.put)

theorem State.hkcCalStart_kept {qt : Bool} {s₀ s : State} (h : Kept qt s₀ s) : Kept qt s₀ (State.hkcCalStart s) := by
  unfold State.hkcCalStart
  repeat' first
    | with_reducible assumption
    | with_reducible apply Kept.refl
    | with_reducible apply Kept.put
    | with_reducible apply Kept.ite
    | ((try lift_lets -underBinder); intro x; have hx : Kept qt s₀ x := ?_; (on_goal 1 => clear_value x); (on_goal 2 => dsimp only [x]))
    | ((try lift_lets -underBinder); intro x; clear_value x)
    | (with_reducible apply Kept.upd; first | with_reducible assumption | with_reducible apply Kept.refl | with_reducible apply Kept.put)

theorem refSettled_kept {qt : Bool} {s₀ s : State} (h : Kept qt s₀ s) : Kept qt s₀ (refSettled s) := by
  unfold refSettled
  repeat' first
    | with_reducible assumption
    | with_reducible apply Kept.refl
    | with_reducible apply Kept.put
    | with_reducible apply State.hkcNext_kept
    | with_reducible apply State.hkcCalStart_kept
    | with_reducible apply Kept.ite
    | ((try lift_lets -underBinder); intro x; have hx : Kept qt s₀ x := ?_; (on_goal 1 => clear_value x); (on_goal 2 => dsimp only [x]))
    | ((try lift_lets -underBinder); intro x; clear_value x)
    | split
    | (with_reducible apply Kept.upd; first | with_reducible assumption | with_reducible apply Kept.refl | with_reducible apply Kept.put | with_reducible apply State.hkcNext_kept | with_reducible apply State.hkcCalStart_kept)

theorem hkcCalGo_kept {qt : Bool} {s₀ s : State} (h : Kept qt s₀ s) : Kept qt s₀ (hkcCalGo s) := by
  unfold hkcCalGo
  repeat' first
    | with_reducible assumption
    | with_reducible apply Kept.refl
    | with_reducible apply Kept.put
    | with_reducible apply State.hkcCalStart_kept
    | with_reducible apply Kept.ite
    | ((try lift_lets -underBinder); intro x; have hx : Kept qt s₀ x := ?_; (on_goal 1 => clear_value x); (on_goal 2 => dsimp only [x]))
    | ((try lift_lets -underBinder); intro x; clear_value x)
    | split

theorem hkcCalDone_kept {qt : Bool} {s₀ s : State} (h : Kept qt s₀ s) (res : Fin 4 → Int × Int) : Kept qt s₀ (hkcCalDone res s) := by
  unfold hkcCalDone
  repeat' first
    | with_reducible assumption
    | with_reducible apply Kept.refl
    | (with_reducible refine Kept.each ?_ _ (fun _ t _ => ?_))
    | with_reducible apply Kept.put
    | with_reducible apply Kept.puti
    | with_reducible apply Kept.flag
    | with_reducible apply State.hkcNext_kept
    | with_reducible apply Kept.ite
    | ((try lift_lets -underBinder); intro x; have hx : Kept qt s₀ x := ?_; (on_goal 1 => clear_value x); (on_goal 2 => dsimp only [x]))
    | ((try lift_lets -underBinder); intro x; clear_value x)
    | split
    | (with_reducible apply Kept.upd; first | with_reducible assumption | with_reducible apply Kept.refl | (with_reducible refine Kept.each ?_ _ (fun _ t _ => ?_)) | with_reducible apply Kept.put | with_reducible apply Kept.puti | with_reducible apply Kept.flag | with_reducible apply State.hkcNext_kept)

theorem hkcConfigWrite_kept {qt : Bool} {s₀ s : State} (h : Kept qt s₀ s) (a : Nat) (v : Word) : Kept qt s₀ (hkcConfigWrite a v s) := by
  unfold hkcConfigWrite
  repeat' first
    | with_reducible assumption
    | with_reducible apply Kept.refl
    | with_reducible apply Kept.wr
    | with_reducible apply Kept.put
    | with_reducible apply Kept.ite
    | ((try lift_lets -underBinder); intro x; have hx : Kept qt s₀ x := ?_; (on_goal 1 => clear_value x); (on_goal 2 => dsimp only [x]))
    | ((try lift_lets -underBinder); intro x; clear_value x)
    | split

end Sys2Proof.Machine
end

