-- ==== Sys2Proof/Laws/KeepFeedbackPorts.lean ====
section
/-! SUPPORT. What the operations of Machine/FeedbackPorts.lean keep: one lemma per operation (Laws/Kept.lean). -/
namespace Sys2Proof.Machine
set_option linter.unusedTactic false
set_option linter.unreachableTactic false
set_option linter.unusedVariables false

theorem State.lineSet_kept {qt : Bool} {s₀ s : State} (h : Kept qt s₀ s) (i n : Nat) (x : Bool) : Kept qt s₀ (State.lineSet s i n x) := by
  unfold State.lineSet
  repeat' first
    | with_reducible assumption
    | with_reducible apply Kept.refl
    | with_reducible apply Kept.setLine
    | with_reducible apply Kept.ite
    | ((try lift_lets -underBinder); intro x; have hx : Kept qt s₀ x := ?_; (on_goal 1 => clear_value x); (on_goal 2 => dsimp only [x]))
    | ((try lift_lets -underBinder); intro x; clear_value x)
    | split

theorem State.fbLevels_kept {qt : Bool} {s₀ s : State} (h : Kept qt s₀ s) (p : Nat) (a b z : Bool) : Kept qt s₀ (State.fbLevels s p a b z) := by
  unfold State.fbLevels
  repeat' first
    | with_reducible assumption
    | with_reducible apply Kept.refl
    | with_reducible apply Kept.put
    | with_reducible apply State.lineSet_kept
    | with_reducible apply Kept.ite
    | ((try lift_lets -underBinder); intro x; have hx : Kept qt s₀ x := ?_; (on_goal 1 => clear_value x); (on_goal 2 => dsimp only [x]))
    | ((try lift_lets -underBinder); intro x; clear_value x)
    | split

theorem State.fbKeep_kept {qt : Bool} {s₀ s : State} (h : Kept qt s₀ s) (p : Nat) : Kept qt s₀ (State.fbKeep s p) := by
  unfold State.fbKeep
  repeat' first
    | with_reducible assumption
    | with_reducible apply Kept.refl
    | with_reducible apply Kept.setFb
    | with_reducible apply Kept.ite
    | ((try lift_lets -underBinder); intro x; have hx : Kept qt s₀ x := ?_; (on_goal 1 => clear_value x); (on_goal 2 => dsimp only [x]))
    | ((try lift_lets -underBinder); intro x; clear_value x)
    | split
    | (with_reducible apply Kept.upd; first | with_reducible assumption | with_reducible apply Kept.refl | with_reducible apply Kept.setFb)

theorem State.fbAsOf_kept {qt : Bool} {s₀ s : State} (h : Kept qt s₀ s) (p t : Nat) : Kept qt s₀ (State.fbAsOf s p t) := by
  unfold State.fbAsOf
  repeat' first
    | with_reducible assumption
    | with_reducible apply Kept.refl
    | with_reducible apply Kept.wr64
    | with_reducible apply Kept.setFb
    | with_reducible apply Kept.ite
    | ((try lift_lets -underBinder); intro x; have hx : Kept qt s₀ x := ?_; (on_goal 1 => clear_value x); (on_goal 2 => dsimp only [x]))
    | ((try lift_lets -underBinder); intro x; clear_value x)
    | split
    | (with_reducible apply Kept.upd; first | with_reducible assumption | with_reducible apply Kept.refl | with_reducible apply Kept.wr64 | with_reducible apply Kept.setFb)

theorem State.watchCount_kept {qt : Bool} {s₀ s : State} (h : Kept qt s₀ s) (p : Nat) : Kept qt s₀ (State.watchCount s p) := by
  unfold State.watchCount
  repeat' first
    | with_reducible assumption
    | with_reducible apply Kept.refl
    | (with_reducible refine Kept.each ?_ _ (fun _ t _ => ?_))
    | with_reducible apply Kept.setPco
    | with_reducible apply Kept.ite
    | ((try lift_lets -underBinder); intro x; have hx : Kept qt s₀ x := ?_; (on_goal 1 => clear_value x); (on_goal 2 => dsimp only [x]))
    | ((try lift_lets -underBinder); intro x; clear_value x)
    | split
    | (with_reducible apply Kept.upd; first | with_reducible assumption | with_reducible apply Kept.refl | (with_reducible refine Kept.each ?_ _ (fun _ t _ => ?_)) | with_reducible apply Kept.setPco)

theorem State.fbCount_kept {qt : Bool} {s₀ s : State} (h : Kept qt s₀ s) (p : Nat) (up : Bool) : Kept qt s₀ (State.fbCount s p up) := by
  unfold State.fbCount
  repeat' first
    | with_reducible assumption
    | with_reducible apply Kept.refl
    | with_reducible apply Kept.wr64
    | with_reducible apply Kept.puti
    | with_reducible apply Kept.flag
    | with_reducible apply Kept.setFb
    | with_reducible apply State.fbKeep_kept
    | with_reducible apply State.watchCount_kept
    | with_reducible apply Kept.ite
    | ((try lift_lets -underBinder); intro x; have hx : Kept qt s₀ x := ?_; (on_goal 1 => clear_value x); (on_goal 2 => dsimp only [x]))
    | ((try lift_lets -underBinder); intro x; clear_value x)
    | split
    | (with_reducible apply Kept.upd; first | with_reducible assumption | with_reducible apply Kept.refl | with_reducible apply Kept.wr64 | with_reducible apply Kept.puti | with_reducible apply Kept.flag | with_reducible apply Kept.setFb | with_reducible apply State.fbKeep_kept | with_reducible apply State.watchCount_kept)

theorem quadratureCount_kept {qt : Bool} {s₀ s : State} (h : Kept qt s₀ s) (p : Nat) (a b : Bool) : Kept qt s₀ (quadratureCount p a b s) := by
  unfold quadratureCount
  repeat' first
    | with_reducible assumption
    | with_reducible apply Kept.refl
    | with_reducible apply State.fbLevels_kept
    | with_reducible apply State.fbCount_kept
    | with_reducible apply Kept.ite
    | ((try lift_lets -underBinder); intro x; have hx : Kept qt s₀ x := ?_; (on_goal 1 => clear_value x); (on_goal 2 => dsimp only [x]))
    | ((try lift_lets -underBinder); intro x; clear_value x)
    | split

theorem zLatch_kept {qt : Bool} {s₀ s : State} (h : Kept qt s₀ s) (p : Nat) (z : Bool) : Kept qt s₀ (zLatch p z s) := by
  unfold zLatch
  repeat' first
    | with_reducible assumption
    | with_reducible apply Kept.refl
    | with_reducible apply Kept.wr64
    | with_reducible apply Kept.put
    | with_reducible apply Kept.setFb
    | with_reducible apply State.fbLevels_kept
    | with_reducible apply Kept.ite
    | ((try lift_lets -underBinder); intro x; have hx : Kept qt s₀ x := ?_; (on_goal 1 => clear_value x); (on_goal 2 => dsimp only [x]))
    | ((try lift_lets -underBinder); intro x; clear_value x)
    | split
    | (with_reducible apply Kept.upd; first | with_reducible assumption | with_reducible apply Kept.refl | with_reducible apply Kept.wr64 | with_reducible apply Kept.put | with_reducible apply Kept.setFb | with_reducible apply State.fbLevels_kept)

theorem magneticCount_kept {qt : Bool} {s₀ s : State} (h : Kept qt s₀ s) (p : Nat) (u v w : Bool) : Kept qt s₀ (magneticCount p u v w s) := by
  unfold magneticCount
  repeat' first
    | with_reducible assumption
    | with_reducible apply Kept.refl
    | with_reducible apply Kept.setFb
    | with_reducible apply State.fbLevels_kept
    | with_reducible apply State.fbCount_kept
    | with_reducible apply Kept.ite
    | ((try lift_lets -underBinder); intro x; have hx : Kept qt s₀ x := ?_; (on_goal 1 => clear_value x); (on_goal 2 => dsimp only [x]))
    | ((try lift_lets -underBinder); intro x; clear_value x)
    | split
    | (with_reducible apply Kept.upd; first | with_reducible assumption | with_reducible apply Kept.refl | with_reducible apply Kept.setFb | with_reducible apply State.fbLevels_kept | with_reducible apply State.fbCount_kept)

theorem State.ssiStart_kept {qt : Bool} {s₀ s : State} (h : Kept qt s₀ s) (p : Nat) : Kept qt s₀ (State.ssiStart s p) := by
  unfold State.ssiStart
  repeat' first
    | with_reducible assumption
    | with_reducible apply Kept.refl
    | with_reducible apply Kept.setFb
    | with_reducible apply Kept.ite
    | ((try lift_lets -underBinder); intro x; have hx : Kept qt s₀ x := ?_; (on_goal 1 => clear_value x); (on_goal 2 => dsimp only [x]))
    | ((try lift_lets -underBinder); intro x; clear_value x)
    | split
    | (with_reducible apply Kept.upd; first | with_reducible assumption | with_reducible apply Kept.refl | with_reducible apply Kept.setFb)

theorem State.confirm_kept {qt : Bool} {s₀ s : State} (h : Kept qt s₀ s) (n : Nat) : Kept qt s₀ (State.confirm s n) := by
  unfold State.confirm
  repeat' first
    | with_reducible assumption
    | with_reducible apply Kept.refl
    | with_reducible apply Kept.put
    | with_reducible apply Kept.puti
    | with_reducible apply Kept.modGen
    | with_reducible apply Kept.ite
    | ((try lift_lets -underBinder); intro x; have hx : Kept qt s₀ x := ?_; (on_goal 1 => clear_value x); (on_goal 2 => dsimp only [x]))
    | ((try lift_lets -underBinder); intro x; clear_value x)
    | split
    | (with_reducible apply Kept.upd; first | with_reducible assumption | with_reducible apply Kept.refl | with_reducible apply Kept.put | with_reducible apply Kept.puti | with_reducible apply Kept.modGen)

theorem ssiFrameDone_kept {qt : Bool} {s₀ s : State} (h : Kept qt s₀ s) (p raw : Nat) : Kept qt s₀ (ssiFrameDone p raw s) := by
  unfold ssiFrameDone
  repeat' first
    | with_reducible assumption
    | with_reducible apply Kept.refl
    | (with_reducible refine Kept.each ?_ _ (fun _ t _ => ?_))
    | with_reducible apply Kept.wr64
    | with_reducible apply Kept.puti
    | with_reducible apply Kept.flag
    | with_reducible apply Kept.setFb
    | with_reducible apply State.fbKeep_kept
    | with_reducible apply State.watchCount_kept
    | with_reducible apply State.confirm_kept
    | with_reducible apply Kept.ite
    | ((try lift_lets -underBinder); intro x; have hx : Kept qt s₀ x := ?_; (on_goal 1 => clear_value x); (on_goal 2 => dsimp only [x]))
    | ((try lift_lets -underBinder); intro x; clear_value x)
    | split
    | (with_reducible apply Kept.upd; first | with_reducible assumption | with_reducible apply Kept.refl | (with_reducible refine Kept.each ?_ _ (fun _ t _ => ?_)) | with_reducible apply Kept.wr64 | with_reducible apply Kept.puti | with_reducible apply Kept.flag | with_reducible apply Kept.setFb | with_reducible apply State.fbKeep_kept | with_reducible apply State.watchCount_kept | with_reducible apply State.confirm_kept)

theorem fbConfigWrite_kept {qt : Bool} {s₀ s : State} (h : Kept qt s₀ s) (p : Nat) (r : FbReg) (v : Word) : Kept qt s₀ (fbConfigWrite p r v s) := by
  unfold fbConfigWrite
  repeat' first
    | with_reducible assumption
    | with_reducible apply Kept.refl
    | with_reducible apply Kept.wr
    | with_reducible apply Kept.wr64
    | with_reducible apply Kept.wrNoted
    | with_reducible apply Kept.put
    | with_reducible apply Kept.flag
    | with_reducible apply Kept.setFb
    | with_reducible apply Kept.ite
    | ((try lift_lets -underBinder); intro x; have hx : Kept qt s₀ x := ?_; (on_goal 1 => clear_value x); (on_goal 2 => dsimp only [x]))
    | ((try lift_lets -underBinder); intro x; clear_value x)
    | split

theorem stepInputPulse_kept {qt : Bool} {s₀ s : State} (h : Kept qt s₀ s) (i : Nat) (onDir rising dir : Bool) : Kept qt s₀ (stepInputPulse i onDir rising dir s) := by
  unfold stepInputPulse
  repeat' first
    | with_reducible assumption
    | with_reducible apply Kept.refl
    | (with_reducible refine Kept.each ?_ _ (fun _ t _ => ?_))
    | with_reducible apply Kept.puti
    | with_reducible apply Kept.flag
    | with_reducible apply Kept.modGen
    | with_reducible apply State.lineSet_kept
    | with_reducible apply Kept.ite
    | ((try lift_lets -underBinder); intro x; have hx : Kept qt s₀ x := ?_; (on_goal 1 => clear_value x); (on_goal 2 => dsimp only [x]))
    | ((try lift_lets -underBinder); intro x; clear_value x)
    | split
    | (with_reducible apply Kept.upd; first | with_reducible assumption | with_reducible apply Kept.refl | (with_reducible refine Kept.each ?_ _ (fun _ t _ => ?_)) | with_reducible apply Kept.puti | with_reducible apply Kept.flag | with_reducible apply Kept.modGen | with_reducible apply State.lineSet_kept)

theorem siCfgWrite_kept {qt : Bool} {s₀ s : State} (h : Kept qt s₀ s) (i : Nat) (v : Word) : Kept qt s₀ (siCfgWrite i v s) := by
  unfold siCfgWrite
  repeat' first
    | with_reducible assumption
    | with_reducible apply Kept.refl
    | with_reducible apply Kept.wrNoted
    | with_reducible apply Kept.put
    | with_reducible apply Kept.ite
    | ((try lift_lets -underBinder); intro x; have hx : Kept qt s₀ x := ?_; (on_goal 1 => clear_value x); (on_goal 2 => dsimp only [x]))
    | ((try lift_lets -underBinder); intro x; clear_value x)
    | split

theorem soCfgWrite_kept {qt : Bool} {s₀ s : State} (h : Kept qt s₀ s) (o : Nat) (v : Word) : Kept qt s₀ (soCfgWrite o v s) := by
  unfold soCfgWrite
  repeat' first
    | with_reducible assumption
    | with_reducible apply Kept.refl
    | with_reducible apply Kept.wr
    | with_reducible apply Kept.put
    | with_reducible apply Kept.ite
    | ((try lift_lets -underBinder); intro x; have hx : Kept qt s₀ x := ?_; (on_goal 1 => clear_value x); (on_goal 2 => dsimp only [x]))
    | ((try lift_lets -underBinder); intro x; clear_value x)
    | split

theorem captureEdge_kept {qt : Bool} {s₀ s : State} (h : Kept qt s₀ s) (k : Nat) (rising : Bool) : Kept qt s₀ (captureEdge k rising s) := by
  unfold captureEdge
  repeat' first
    | with_reducible assumption
    | with_reducible apply Kept.refl
    | (with_reducible refine Kept.each ?_ _ (fun _ t _ => ?_))
    | with_reducible apply Kept.wr64
    | with_reducible apply Kept.put
    | with_reducible apply Kept.inc
    | with_reducible apply State.lineSet_kept
    | with_reducible apply Kept.ite
    | ((try lift_lets -underBinder); intro x; have hx : Kept qt s₀ x := ?_; (on_goal 1 => clear_value x); (on_goal 2 => dsimp only [x]))
    | ((try lift_lets -underBinder); intro x; clear_value x)
    | split
    | (with_reducible apply Kept.upd; first | with_reducible assumption | with_reducible apply Kept.refl | (with_reducible refine Kept.each ?_ _ (fun _ t _ => ?_)) | with_reducible apply Kept.wr64 | with_reducible apply Kept.put | with_reducible apply Kept.inc | with_reducible apply State.lineSet_kept)

theorem capRelease_kept {qt : Bool} {s₀ s : State} (h : Kept qt s₀ s) (k : Nat) : Kept qt s₀ (capRelease k s) := by
  unfold capRelease
  repeat' first
    | with_reducible assumption
    | with_reducible apply Kept.refl
    | with_reducible apply Kept.noteSet
    | with_reducible apply Kept.put
    | with_reducible apply Kept.ite
    | ((try lift_lets -underBinder); intro x; have hx : Kept qt s₀ x := ?_; (on_goal 1 => clear_value x); (on_goal 2 => dsimp only [x]))
    | ((try lift_lets -underBinder); intro x; clear_value x)

theorem capCfgWrite_kept {qt : Bool} {s₀ s : State} (h : Kept qt s₀ s) (k : Nat) (v : Word) : Kept qt s₀ (capCfgWrite k v s) := by
  unfold capCfgWrite
  repeat' first
    | with_reducible assumption
    | with_reducible apply Kept.refl
    | with_reducible apply Kept.wrNoted
    | with_reducible apply Kept.ite
    | ((try lift_lets -underBinder); intro x; have hx : Kept qt s₀ x := ?_; (on_goal 1 => clear_value x); (on_goal 2 => dsimp only [x]))
    | ((try lift_lets -underBinder); intro x; clear_value x)

theorem State.pcoPulse_kept {qt : Bool} {s₀ s : State} (h : Kept qt s₀ s) (q t : Nat) : Kept qt s₀ (State.pcoPulse s q t) := by
  unfold State.pcoPulse
  repeat' first
    | with_reducible assumption
    | with_reducible apply Kept.refl
    | with_reducible apply Kept.wr64
    | with_reducible apply Kept.put
    | with_reducible apply Kept.inc
    | with_reducible apply Kept.setPco
    | with_reducible apply Kept.ite
    | ((try lift_lets -underBinder); intro x; have hx : Kept qt s₀ x := ?_; (on_goal 1 => clear_value x); (on_goal 2 => dsimp only [x]))
    | ((try lift_lets -underBinder); intro x; clear_value x)
    | split
    | (with_reducible apply Kept.upd; first | with_reducible assumption | with_reducible apply Kept.refl | with_reducible apply Kept.wr64 | with_reducible apply Kept.put | with_reducible apply Kept.inc | with_reducible apply Kept.setPco)

theorem State.pcoAdvance_kept {qt : Bool} {s₀ s : State} (h : Kept qt s₀ s) (q : Nat) : Kept qt s₀ (State.pcoAdvance s q) := by
  unfold State.pcoAdvance
  repeat' first
    | with_reducible assumption
    | with_reducible apply Kept.refl
    | with_reducible apply Kept.puti
    | with_reducible apply Kept.ite
    | ((try lift_lets -underBinder); intro x; have hx : Kept qt s₀ x := ?_; (on_goal 1 => clear_value x); (on_goal 2 => dsimp only [x]))
    | ((try lift_lets -underBinder); intro x; clear_value x)
    | split

theorem compareFire_kept {qt : Bool} {s₀ s : State} (h : Kept qt s₀ s) (q t : Nat) : Kept qt s₀ (compareFire q t s) := by
  unfold compareFire
  repeat' first
    | with_reducible assumption
    | with_reducible apply Kept.refl
    | with_reducible apply Kept.inc
    | with_reducible apply Kept.setPco
    | with_reducible apply State.pcoPulse_kept
    | with_reducible apply State.pcoAdvance_kept
    | with_reducible apply Kept.ite
    | ((try lift_lets -underBinder); intro x; have hx : Kept qt s₀ x := ?_; (on_goal 1 => clear_value x); (on_goal 2 => dsimp only [x]))
    | ((try lift_lets -underBinder); intro x; clear_value x)
    | split
    | (with_reducible apply Kept.upd; first | with_reducible assumption | with_reducible apply Kept.refl | with_reducible apply Kept.inc | with_reducible apply Kept.setPco | with_reducible apply State.pcoPulse_kept | with_reducible apply State.pcoAdvance_kept)

theorem comparePulseEnd_kept {qt : Bool} {s₀ s : State} (h : Kept qt s₀ s) (q : Nat) : Kept qt s₀ (comparePulseEnd q s) := by
  unfold comparePulseEnd
  repeat' first
    | with_reducible assumption
    | with_reducible apply Kept.refl
    | with_reducible apply Kept.put
    | with_reducible apply Kept.ite
    | ((try lift_lets -underBinder); intro x; have hx : Kept qt s₀ x := ?_; (on_goal 1 => clear_value x); (on_goal 2 => dsimp only [x]))
    | ((try lift_lets -underBinder); intro x; clear_value x)
    | split
    | (with_reducible apply Kept.upd; first | with_reducible assumption | with_reducible apply Kept.refl | with_reducible apply Kept.put)

theorem pcoArm_kept {qt : Bool} {s₀ s : State} (h : Kept qt s₀ s) (q : Nat) : Kept qt s₀ (pcoArm q s) := by
  unfold pcoArm
  repeat' first
    | with_reducible assumption
    | with_reducible apply Kept.refl
    | with_reducible apply Kept.put
    | with_reducible apply Kept.setPco
    | with_reducible apply Kept.ite
    | ((try lift_lets -underBinder); intro x; have hx : Kept qt s₀ x := ?_; (on_goal 1 => clear_value x); (on_goal 2 => dsimp only [x]))
    | ((try lift_lets -underBinder); intro x; clear_value x)
    | split
    | (with_reducible apply Kept.upd; first | with_reducible assumption | with_reducible apply Kept.refl | with_reducible apply Kept.put | with_reducible apply Kept.setPco)

theorem pcoDisarm_kept {qt : Bool} {s₀ s : State} (h : Kept qt s₀ s) (q : Nat) : Kept qt s₀ (pcoDisarm q s) := by
  unfold pcoDisarm
  repeat' first
    | with_reducible assumption
    | with_reducible apply Kept.refl
    | with_reducible apply Kept.put
    | with_reducible apply Kept.setPco
    | with_reducible apply Kept.ite
    | ((try lift_lets -underBinder); intro x; have hx : Kept qt s₀ x := ?_; (on_goal 1 => clear_value x); (on_goal 2 => dsimp only [x]))
    | ((try lift_lets -underBinder); intro x; clear_value x)
    | (with_reducible apply Kept.upd; first | with_reducible assumption | with_reducible apply Kept.refl | with_reducible apply Kept.put | with_reducible apply Kept.setPco)

theorem pcoForce_kept {qt : Bool} {s₀ s : State} (h : Kept qt s₀ s) (q : Nat) : Kept qt s₀ (pcoForce q s) := by
  unfold pcoForce
  repeat' first
    | with_reducible assumption
    | with_reducible apply Kept.refl
    | with_reducible apply Kept.put
    | with_reducible apply State.pcoPulse_kept
    | with_reducible apply Kept.ite
    | ((try lift_lets -underBinder); intro x; have hx : Kept qt s₀ x := ?_; (on_goal 1 => clear_value x); (on_goal 2 => dsimp only [x]))
    | ((try lift_lets -underBinder); intro x; clear_value x)
    | split

theorem pcoConfigWrite_kept {qt : Bool} {s₀ s : State} (h : Kept qt s₀ s) (q : Nat) (r : PcoReg) (v : Word) : Kept qt s₀ (pcoConfigWrite q r v s) := by
  unfold pcoConfigWrite
  repeat' first
    | with_reducible assumption
    | with_reducible apply Kept.refl
    | with_reducible apply Kept.wr
    | with_reducible apply Kept.put
    | with_reducible apply Kept.ite
    | ((try lift_lets -underBinder); intro x; have hx : Kept qt s₀ x := ?_; (on_goal 1 => clear_value x); (on_goal 2 => dsimp only [x]))
    | ((try lift_lets -underBinder); intro x; clear_value x)
    | split

theorem State.pcoTick_kept {qt : Bool} {s₀ s : State} (h : Kept qt s₀ s) (q : Nat) : Kept qt s₀ (State.pcoTick s q) := by
  unfold State.pcoTick
  repeat' first
    | with_reducible assumption
    | with_reducible apply Kept.refl
    | with_reducible apply Kept.put
    | with_reducible apply Kept.setPco
    | with_reducible apply Kept.ite
    | ((try lift_lets -underBinder); intro x; have hx : Kept qt s₀ x := ?_; (on_goal 1 => clear_value x); (on_goal 2 => dsimp only [x]))
    | ((try lift_lets -underBinder); intro x; clear_value x)
    | split
    | (with_reducible apply Kept.upd; first | with_reducible assumption | with_reducible apply Kept.refl | with_reducible apply Kept.put | with_reducible apply Kept.setPco)

end Sys2Proof.Machine
end

