-- ==== Sys2Proof/Laws/KeepCurrentControl.lean ====
section
/-! SUPPORT. What the operations of Machine/CurrentControl.lean keep: one lemma per operation (Laws/Kept.lean). -/
namespace Sys2Proof.Machine
set_option linter.unusedTactic false
set_option linter.unreachableTactic false
set_option linter.unusedVariables false

theorem State.newSnapshot_kept {qt : Bool} {s₀ s : State} (h : Kept qt s₀ s) (n t : Nat) : Kept qt s₀ (State.newSnapshot s n t).1 := by
  unfold State.newSnapshot
  repeat' first
    | with_reducible assumption
    | with_reducible apply Kept.refl
    | with_reducible apply Kept.modCc
    | with_reducible apply Kept.ite
    | ((try lift_lets -underBinder); intro x; have hx : Kept qt s₀ x := ?_; (on_goal 1 => clear_value x); (on_goal 2 => dsimp only [x]))
    | ((try lift_lets -underBinder); intro x; clear_value x)
    | (with_reducible apply Kept.upd; first | with_reducible assumption | with_reducible apply Kept.refl | with_reducible apply Kept.modCc)

theorem State.latchSnapshot_kept {qt : Bool} {s₀ s : State} (h : Kept qt s₀ s) (n t : Nat) : Kept qt s₀ (State.latchSnapshot s n t).1 := by
  unfold State.latchSnapshot
  repeat' first
    | with_reducible assumption
    | with_reducible apply Kept.refl
    | with_reducible apply State.newSnapshot_kept
    | with_reducible apply Kept.ite
    | ((try lift_lets -underBinder); intro x; have hx : Kept qt s₀ x := ?_; (on_goal 1 => clear_value x); (on_goal 2 => dsimp only [x]))
    | ((try lift_lets -underBinder); intro x; clear_value x)
    | split

theorem State.takeVector_kept {qt : Bool} {s₀ s : State} (h : Kept qt s₀ s) (cs cmps : List Nat) : Kept qt s₀ (State.takeVector s cs cmps) := by
  unfold State.takeVector
  repeat' first
    | with_reducible assumption
    | with_reducible apply Kept.refl
    | (with_reducible refine Kept.modChan ?_ _ ?_)
    | (with_reducible refine Kept.each ?_ _ (fun _ t _ => ?_))
    | with_reducible apply Kept.put
    | with_reducible apply Kept.ite
    | ((try lift_lets -underBinder); intro x; have hx : Kept qt s₀ x := ?_; (on_goal 1 => clear_value x); (on_goal 2 => dsimp only [x]))
    | ((try lift_lets -underBinder); intro x; clear_value x)
    | (with_reducible apply Kept.upd; first | with_reducible assumption | with_reducible apply Kept.refl | (with_reducible refine Kept.modChan ?_ _ ?_) | (with_reducible refine Kept.each ?_ _ (fun _ t _ => ?_)) | with_reducible apply Kept.put)
    | exact id
    | (intro x hx; exact hx)
    | (intro x hx; simp_all [PwmChan.oneSided])
    | (intro hx; simp_all [PwmChan.oneSided])

theorem State.wantAll_kept {qt : Bool} {s₀ s : State} (h : Kept qt s₀ s) (cs : List Nat) (w : Nat) : Kept qt s₀ (State.wantAll s cs w) := by
  unfold State.wantAll
  repeat' first
    | with_reducible assumption
    | with_reducible apply Kept.refl
    | (with_reducible refine Kept.modChan ?_ _ ?_)
    | (with_reducible refine Kept.each ?_ _ (fun _ t _ => ?_))
    | with_reducible apply Kept.ite
    | ((try lift_lets -underBinder); intro x; have hx : Kept qt s₀ x := ?_; (on_goal 1 => clear_value x); (on_goal 2 => dsimp only [x]))
    | ((try lift_lets -underBinder); intro x; clear_value x)
    | (with_reducible apply Kept.upd; first | with_reducible assumption | with_reducible apply Kept.refl | (with_reducible refine Kept.modChan ?_ _ ?_) | (with_reducible refine Kept.each ?_ _ (fun _ t _ => ?_)))
    | exact id
    | (intro x hx; exact hx)
    | (intro x hx; simp_all [PwmChan.oneSided])
    | (intro hx; simp_all [PwmChan.oneSided])

theorem State.driveBrake_kept {qt : Bool} {s₀ s : State} (h : Kept qt s₀ s) (n : Nat) (v vbrk : Rat) : Kept qt s₀ (State.driveBrake s n v vbrk) := by
  unfold State.driveBrake
  repeat' first
    | with_reducible assumption
    | with_reducible apply Kept.refl
    | with_reducible apply Kept.put
    | with_reducible apply Kept.flag
    | with_reducible apply State.wantAll_kept
    | with_reducible apply Kept.ite
    | ((try lift_lets -underBinder); intro x; have hx : Kept qt s₀ x := ?_; (on_goal 1 => clear_value x); (on_goal 2 => dsimp only [x]))
    | ((try lift_lets -underBinder); intro x; clear_value x)
    | split

theorem State.brakePass_kept {qt : Bool} {s₀ s : State} (h : Kept qt s₀ s) (n : Nat) (x : Snapshot) : Kept qt s₀ (State.brakePass s n x) := by
  unfold State.brakePass
  repeat' first
    | with_reducible assumption
    | with_reducible apply Kept.refl
    | with_reducible apply State.driveBrake_kept
    | with_reducible apply Kept.ite
    | ((try lift_lets -underBinder); intro x; have hx : Kept qt s₀ x := ?_; (on_goal 1 => clear_value x); (on_goal 2 => dsimp only [x]))
    | ((try lift_lets -underBinder); intro x; clear_value x)
    | split

theorem State.speedLoop_kept {qt : Bool} {s₀ s : State} (h : Kept qt s₀ s) (n : Nat) (x : Snapshot) (lim : Rat) : Kept qt s₀ (State.speedLoop s n x lim) := by
  unfold State.speedLoop
  repeat' first
    | with_reducible assumption
    | with_reducible apply Kept.refl
    | with_reducible apply Kept.flag
    | with_reducible apply Kept.draw
    | with_reducible apply Kept.setCc
    | with_reducible apply Kept.modCc
    | with_reducible apply State.raiseRoute_kept
    | with_reducible apply Kept.ite
    | ((try lift_lets -underBinder); intro x; have hx : Kept qt s₀ x := ?_; (on_goal 1 => clear_value x); (on_goal 2 => dsimp only [x]))
    | ((try lift_lets -underBinder); intro x; clear_value x)
    | split
    | (with_reducible apply Kept.upd; first | with_reducible assumption | with_reducible apply Kept.refl | with_reducible apply Kept.flag | with_reducible apply Kept.draw | with_reducible apply Kept.setCc | with_reducible apply Kept.modCc | with_reducible apply State.raiseRoute_kept)

theorem State.fallback_kept {qt : Bool} {s₀ s : State} (h : Kept qt s₀ s) (n : Nat) : Kept qt s₀ (State.fallback s n) := by
  unfold State.fallback
  repeat' first
    | with_reducible assumption
    | with_reducible apply Kept.refl
    | with_reducible apply Kept.put
    | with_reducible apply Kept.modCc
    | with_reducible apply Kept.ite
    | ((try lift_lets -underBinder); intro x; have hx : Kept qt s₀ x := ?_; (on_goal 1 => clear_value x); (on_goal 2 => dsimp only [x]))
    | ((try lift_lets -underBinder); intro x; clear_value x)
    | split
    | (with_reducible apply Kept.upd; first | with_reducible assumption | with_reducible apply Kept.refl | with_reducible apply Kept.put | with_reducible apply Kept.modCc)

theorem State.polarityStep_kept {qt : Bool} {s₀ s : State} (h : Kept qt s₀ s) (n : Nat) (id : Rat) : Kept qt s₀ (State.polarityStep s n id) := by
  unfold State.polarityStep
  repeat' first
    | with_reducible assumption
    | with_reducible apply Kept.refl
    | with_reducible apply Kept.setPr
    | with_reducible apply Kept.ite
    | ((try lift_lets -underBinder); intro x; have hx : Kept qt s₀ x := ?_; (on_goal 1 => clear_value x); (on_goal 2 => dsimp only [x]))
    | ((try lift_lets -underBinder); intro x; clear_value x)
    | split
    | (with_reducible apply Kept.upd; first | with_reducible assumption | with_reducible apply Kept.refl | with_reducible apply Kept.setPr)

theorem State.controlPass_kept {qt : Bool} {s₀ s : State} (h : Kept qt s₀ s) (n : Nat) (x : Snapshot) : Kept qt s₀ (State.controlPass s n x).1 := by
  unfold State.controlPass
  repeat' first
    | with_reducible assumption
    | with_reducible apply Kept.refl
    | (with_reducible refine Kept.each ?_ _ (fun _ t _ => ?_))
    | with_reducible apply Kept.wr
    | with_reducible apply Kept.put
    | with_reducible apply Kept.puti
    | with_reducible apply Kept.flag
    | with_reducible apply Kept.inc
    | with_reducible apply Kept.draw
    | with_reducible apply Kept.setCc
    | with_reducible apply Kept.modCc
    | with_reducible apply Kept.modPr
    | with_reducible apply State.speedLoop_kept
    | with_reducible apply State.fallback_kept
    | with_reducible apply State.polarityStep_kept
    | with_reducible apply Kept.ite
    | ((try lift_lets -underBinder); intro x; have hx : Kept qt s₀ x := ?_; (on_goal 1 => clear_value x); (on_goal 2 => dsimp only [x]))
    | ((try lift_lets -underBinder); intro x; clear_value x)
    | split
    | (with_reducible apply Kept.upd; first | with_reducible assumption | with_reducible apply Kept.refl | (with_reducible refine Kept.each ?_ _ (fun _ t _ => ?_)) | with_reducible apply Kept.wr | with_reducible apply Kept.put | with_reducible apply Kept.puti | with_reducible apply Kept.flag | with_reducible apply Kept.inc | with_reducible apply Kept.draw | with_reducible apply Kept.setCc | with_reducible apply Kept.modCc | with_reducible apply Kept.modPr | with_reducible apply State.speedLoop_kept | with_reducible apply State.fallback_kept | with_reducible apply State.polarityStep_kept)

theorem State.beginRise_kept {qt : Bool} {s₀ s : State} (h : Kept qt s₀ s) (n tau : Nat) : Kept qt s₀ (State.beginRise s n tau) := by
  unfold State.beginRise
  repeat' first
    | with_reducible assumption
    | with_reducible apply Kept.refl
    | with_reducible apply Kept.modCc
    | with_reducible apply Kept.ite
    | ((try lift_lets -underBinder); intro x; have hx : Kept qt s₀ x := ?_; (on_goal 1 => clear_value x); (on_goal 2 => dsimp only [x]))
    | ((try lift_lets -underBinder); intro x; clear_value x)
    | split
    | (with_reducible apply Kept.upd; first | with_reducible assumption | with_reducible apply Kept.refl | with_reducible apply Kept.modCc)

theorem ccCfgWrite_kept {qt : Bool} {s₀ s : State} (h : Kept qt s₀ s) (w : Writer) (n : Nat) (v : Word) : Kept qt s₀ (ccCfgWrite w n v s) := by
  unfold ccCfgWrite
  repeat' first
    | with_reducible assumption
    | with_reducible apply Kept.refl
    | with_reducible apply Kept.wr
    | with_reducible apply Kept.err
    | with_reducible apply Kept.modCc
    | with_reducible apply Kept.ite
    | ((try lift_lets -underBinder); intro x; have hx : Kept qt s₀ x := ?_; (on_goal 1 => clear_value x); (on_goal 2 => dsimp only [x]))
    | ((try lift_lets -underBinder); intro x; clear_value x)
    | split
    | (with_reducible apply Kept.upd; first | with_reducible assumption | with_reducible apply Kept.refl | with_reducible apply Kept.wr | with_reducible apply Kept.err | with_reducible apply Kept.modCc)

theorem State.calEnd_kept {qt : Bool} {s₀ s : State} (h : Kept qt s₀ s) (n code : Nat) : Kept qt s₀ (State.calEnd s n code) := by
  unfold State.calEnd
  repeat' first
    | with_reducible assumption
    | with_reducible apply Kept.refl
    | (with_reducible refine Kept.when ?_ _ (fun t _ => ?_))
    | with_reducible apply Kept.put
    | with_reducible apply Kept.flag
    | with_reducible apply Kept.modCc
    | with_reducible apply State.calDriveOff_kept
    | with_reducible apply Kept.ite
    | ((try lift_lets -underBinder); intro x; have hx : Kept qt s₀ x := ?_; (on_goal 1 => clear_value x); (on_goal 2 => dsimp only [x]))
    | ((try lift_lets -underBinder); intro x; clear_value x)
    | (with_reducible apply Kept.upd; first | with_reducible assumption | with_reducible apply Kept.refl | (with_reducible refine Kept.when ?_ _ (fun t _ => ?_)) | with_reducible apply Kept.put | with_reducible apply Kept.flag | with_reducible apply Kept.modCc | with_reducible apply State.calDriveOff_kept)

theorem State.calBegin_kept {qt : Bool} {s₀ s : State} (h : Kept qt s₀ s) (n k : Nat) : Kept qt s₀ (State.calBegin s n k) := by
  unfold State.calBegin
  repeat' first
    | with_reducible assumption
    | with_reducible apply Kept.refl
    | with_reducible apply Kept.draw
    | with_reducible apply Kept.modCc
    | with_reducible apply Kept.ite
    | ((try lift_lets -underBinder); intro x; have hx : Kept qt s₀ x := ?_; (on_goal 1 => clear_value x); (on_goal 2 => dsimp only [x]))
    | ((try lift_lets -underBinder); intro x; clear_value x)
    | (with_reducible apply Kept.upd; first | with_reducible assumption | with_reducible apply Kept.refl | with_reducible apply Kept.draw | with_reducible apply Kept.modCc)

theorem State.kcalDrive_kept {qt : Bool} {s₀ s : State} (h : Kept qt s₀ s) (n : Nat) (x : Snapshot) (last : Nat)
    (step : Option (Nat × Nat × Bool)) : Kept qt s₀ (s.kcalDrive n x last step) := by
  rcases step with _ | ⟨a, b, chop⟩
  · exact h
  · unfold State.kcalDrive
    have h2 : ∀ {u}, Kept qt s₀ u → Kept qt s₀ ((u.draw.wantAll (u.localChans n) 0).wantAll [b] 2) := fun k =>
      State.wantAll_kept (State.wantAll_kept k.draw _ _) _ _
    exact Kept.ite (State.wantAll_kept (h2 (Kept.ite (h.modCc _ _) h)) _ _)
      (State.takeVector_kept (h2 (Kept.ite (h.modCc _ _) h)) _ _)

theorem State.kcalPass_kept {qt : Bool} {s₀ s : State} (h : Kept qt s₀ s) (n t : Nat) : Kept qt s₀ (State.kcalPass s n t) := by
  unfold State.kcalPass
  exact State.kcalDrive_kept (Kept.each (State.newSnapshot_kept h _ _) _ (fun _ _ h => h.puti _ _)) _ _ _ _

theorem State.calPass_kept {qt : Bool} {s₀ s : State} (h : Kept qt s₀ s) (n t : Nat) : Kept qt s₀ (State.calPass s n t) := by
  unfold State.calPass
  repeat' first
    | with_reducible assumption
    | with_reducible apply Kept.refl
    | with_reducible apply State.newSnapshot_kept
    | with_reducible apply State.takeVector_kept
    | with_reducible apply State.controlPass_kept
    | with_reducible apply State.kcalPass_kept
    | with_reducible apply Kept.ite
    | ((try lift_lets -underBinder); intro x; have hx : Kept qt s₀ x := ?_; (on_goal 1 => clear_value x); (on_goal 2 => dsimp only [x]))
    | ((try lift_lets -underBinder); intro x; have hx : Kept qt s₀ x.1 := ?_; (on_goal 1 => clear_value x); (on_goal 2 => dsimp only [x]))
    | ((try lift_lets -underBinder); intro x; clear_value x)
    | split

theorem calStart_kept {qt : Bool} {s₀ s : State} (h : Kept qt s₀ s) (k : Nat) (w : Writer) (n : Nat) : Kept qt s₀ (calStart k w n s) := by
  unfold calStart
  repeat' first
    | with_reducible assumption
    | with_reducible apply Kept.refl
    | with_reducible apply Kept.put
    | with_reducible apply Kept.err
    | with_reducible apply State.calEnd_kept
    | with_reducible apply State.calBegin_kept
    | with_reducible apply Kept.ite
    | ((try lift_lets -underBinder); intro x; have hx : Kept qt s₀ x := ?_; (on_goal 1 => clear_value x); (on_goal 2 => dsimp only [x]))
    | ((try lift_lets -underBinder); intro x; clear_value x)
    | split

theorem ccCalWrite_kept {qt : Bool} {s₀ s : State} (h : Kept qt s₀ s) (w : Writer) (n : Nat) (v : Word) : Kept qt s₀ (ccCalWrite w n v s) := by
  unfold ccCalWrite
  repeat' first
    | with_reducible assumption
    | with_reducible apply Kept.refl
    | with_reducible apply Kept.w1c
    | with_reducible apply Kept.err
    | with_reducible apply calStart_kept
    | with_reducible apply Kept.ite
    | ((try lift_lets -underBinder); intro x; have hx : Kept qt s₀ x := ?_; (on_goal 1 => clear_value x); (on_goal 2 => dsimp only [x]))
    | ((try lift_lets -underBinder); intro x; clear_value x)
    | split

theorem calibrationDone_kept {qt : Bool} {s₀ s : State} (h : Kept qt s₀ s) (n : Nat) (r : List (Int × Int)) (notReached : Bool) : Kept qt s₀ (calibrationDone n r notReached s) := by
  unfold calibrationDone
  repeat' first
    | with_reducible assumption
    | with_reducible apply Kept.refl
    | (with_reducible refine Kept.each ?_ _ (fun _ t _ => ?_))
    | with_reducible apply Kept.put
    | with_reducible apply Kept.puti
    | with_reducible apply State.calEnd_kept
    | with_reducible apply Kept.ite
    | ((try lift_lets -underBinder); intro x; have hx : Kept qt s₀ x := ?_; (on_goal 1 => clear_value x); (on_goal 2 => dsimp only [x]))
    | ((try lift_lets -underBinder); intro x; clear_value x)
    | split
    | (with_reducible apply Kept.upd; first | with_reducible assumption | with_reducible apply Kept.refl | (with_reducible refine Kept.each ?_ _ (fun _ t _ => ?_)) | with_reducible apply Kept.put | with_reducible apply Kept.puti | with_reducible apply State.calEnd_kept)

theorem ccParamWrite_kept {qt : Bool} {s₀ s : State} (h : Kept qt s₀ s) (w : Writer) (n off : Nat) (v : Word) : Kept qt s₀ (ccParamWrite w n off v s) := by
  unfold ccParamWrite
  repeat' first
    | with_reducible assumption
    | with_reducible apply Kept.refl
    | with_reducible apply Kept.wr
    | with_reducible apply Kept.put
    | with_reducible apply Kept.modCc
    | with_reducible apply Kept.ite
    | ((try lift_lets -underBinder); intro x; have hx : Kept qt s₀ x := ?_; (on_goal 1 => clear_value x); (on_goal 2 => dsimp only [x]))
    | ((try lift_lets -underBinder); intro x; clear_value x)
    | split
    | (with_reducible apply Kept.upd; first | with_reducible assumption | with_reducible apply Kept.refl | with_reducible apply Kept.wr | with_reducible apply Kept.put | with_reducible apply Kept.modCc)

theorem pstageWrite_kept {qt : Bool} {s₀ s : State} (h : Kept qt s₀ s) (w : Writer) (n : Nat) (v : Word) : Kept qt s₀ (pstageWrite w n v s) := by
  unfold pstageWrite
  repeat' first
    | with_reducible assumption
    | with_reducible apply Kept.refl
    | with_reducible apply Kept.flag
    | with_reducible apply Kept.modCc
    | with_reducible apply Kept.ite
    | ((try lift_lets -underBinder); intro x; have hx : Kept qt s₀ x := ?_; (on_goal 1 => clear_value x); (on_goal 2 => dsimp only [x]))
    | ((try lift_lets -underBinder); intro x; clear_value x)
    | split
    | (with_reducible apply Kept.upd; first | with_reducible assumption | with_reducible apply Kept.refl | with_reducible apply Kept.flag | with_reducible apply Kept.modCc)

theorem stagedTake_kept {qt : Bool} {s₀ s : State} (h : Kept qt s₀ s) (n : Nat) : Kept qt s₀ (stagedTake n s) := by
  unfold stagedTake
  repeat' first
    | with_reducible assumption
    | with_reducible apply Kept.refl
    | (with_reducible refine Kept.each ?_ _ (fun _ t _ => ?_))
    | with_reducible apply Kept.wr
    | with_reducible apply Kept.flag
    | with_reducible apply Kept.modCc
    | with_reducible apply Kept.ite
    | ((try lift_lets -underBinder); intro x; have hx : Kept qt s₀ x := ?_; (on_goal 1 => clear_value x); (on_goal 2 => dsimp only [x]))
    | ((try lift_lets -underBinder); intro x; clear_value x)
    | split
    | (with_reducible apply Kept.upd; first | with_reducible assumption | with_reducible apply Kept.refl | (with_reducible refine Kept.each ?_ _ (fun _ t _ => ?_)) | with_reducible apply Kept.wr | with_reducible apply Kept.flag | with_reducible apply Kept.modCc)

theorem holdDlyExpiry_kept {qt : Bool} {s₀ s : State} (h : Kept qt s₀ s) (n : Nat) : Kept qt s₀ (holdDlyExpiry n s) := by
  unfold holdDlyExpiry
  repeat' first
    | with_reducible assumption
    | with_reducible apply Kept.refl
    | with_reducible apply Kept.modCc
    | with_reducible apply Kept.ite
    | ((try lift_lets -underBinder); intro x; have hx : Kept qt s₀ x := ?_; (on_goal 1 => clear_value x); (on_goal 2 => dsimp only [x]))
    | ((try lift_lets -underBinder); intro x; clear_value x)
    | split
    | (with_reducible apply Kept.upd; first | with_reducible assumption | with_reducible apply Kept.refl | with_reducible apply Kept.modCc)

theorem State.prHeld_kept {qt : Bool} {s₀ s : State} (h : Kept qt s₀ s) (n : Nat) : Kept qt s₀ (State.prHeld s n) := by
  unfold State.prHeld
  repeat' first
    | with_reducible assumption
    | with_reducible apply Kept.refl
    | with_reducible apply Kept.put
    | with_reducible apply Kept.modPr
    | with_reducible apply Kept.ite
    | ((try lift_lets -underBinder); intro x; have hx : Kept qt s₀ x := ?_; (on_goal 1 => clear_value x); (on_goal 2 => dsimp only [x]))
    | ((try lift_lets -underBinder); intro x; clear_value x)
    | split
    | (with_reducible apply Kept.upd; first | with_reducible assumption | with_reducible apply Kept.refl | with_reducible apply Kept.put | with_reducible apply Kept.modPr)

theorem holding_kept {qt : Bool} {s₀ s : State} (h : Kept qt s₀ s) (n : Nat) : Kept qt s₀ (holding n s) := by
  unfold holding
  repeat' first
    | with_reducible assumption
    | with_reducible apply Kept.refl
    | with_reducible apply Kept.put
    | with_reducible apply Kept.modCc
    | with_reducible apply State.prHeld_kept
    | with_reducible apply Kept.ite
    | ((try lift_lets -underBinder); intro x; have hx : Kept qt s₀ x := ?_; (on_goal 1 => clear_value x); (on_goal 2 => dsimp only [x]))
    | ((try lift_lets -underBinder); intro x; clear_value x)
    | split
    | (with_reducible apply Kept.upd; first | with_reducible assumption | with_reducible apply Kept.refl | with_reducible apply Kept.put | with_reducible apply Kept.modCc | with_reducible apply State.prHeld_kept)

theorem brakeReleaseStart_kept {qt : Bool} {s₀ s : State} (h : Kept qt s₀ s) (n : Nat) : Kept qt s₀ (brakeReleaseStart n s) := by
  unfold brakeReleaseStart
  repeat' first
    | with_reducible assumption
    | with_reducible apply Kept.refl
    | with_reducible apply Kept.put
    | with_reducible apply Kept.modCc
    | with_reducible apply Kept.ite
    | ((try lift_lets -underBinder); intro x; have hx : Kept qt s₀ x := ?_; (on_goal 1 => clear_value x); (on_goal 2 => dsimp only [x]))
    | ((try lift_lets -underBinder); intro x; clear_value x)
    | split
    | (with_reducible apply Kept.upd; first | with_reducible assumption | with_reducible apply Kept.refl | with_reducible apply Kept.put | with_reducible apply Kept.modCc)

theorem brakePullEnd_kept {qt : Bool} {s₀ s : State} (h : Kept qt s₀ s) (n : Nat) : Kept qt s₀ (brakePullEnd n s) := by
  unfold brakePullEnd
  repeat' first
    | with_reducible assumption
    | with_reducible apply Kept.refl
    | with_reducible apply Kept.put
    | with_reducible apply Kept.modPr
    | with_reducible apply Kept.ite
    | ((try lift_lets -underBinder); intro x; have hx : Kept qt s₀ x := ?_; (on_goal 1 => clear_value x); (on_goal 2 => dsimp only [x]))
    | ((try lift_lets -underBinder); intro x; clear_value x)
    | split
    | (with_reducible apply Kept.upd; first | with_reducible assumption | with_reducible apply Kept.refl | with_reducible apply Kept.put | with_reducible apply Kept.modPr)

theorem brakeEngageEnd_kept {qt : Bool} {s₀ s : State} (h : Kept qt s₀ s) (n : Nat) : Kept qt s₀ (brakeEngageEnd n s) := by
  unfold brakeEngageEnd
  repeat' first
    | with_reducible assumption
    | with_reducible apply Kept.refl
    | with_reducible apply Kept.put
    | with_reducible apply Kept.modCc
    | with_reducible apply Kept.ite
    | ((try lift_lets -underBinder); intro x; have hx : Kept qt s₀ x := ?_; (on_goal 1 => clear_value x); (on_goal 2 => dsimp only [x]))
    | ((try lift_lets -underBinder); intro x; clear_value x)
    | split
    | (with_reducible apply Kept.upd; first | with_reducible assumption | with_reducible apply Kept.refl | with_reducible apply Kept.put | with_reducible apply Kept.modCc)

end Sys2Proof.Machine
end

