-- ==== Sys2Proof/Laws/KeepPrusik.lean ====
section
/-! SUPPORT. What the operations of Machine/Prusik.lean keep: one lemma per operation (Laws/Kept.lean). -/
namespace Sys2Proof.Machine
set_option linter.unusedTactic false
set_option linter.unreachableTactic false
set_option linter.unusedVariables false

theorem State.prLatch_kept {qt : Bool} {s₀ s : State} (h : Kept qt s₀ s) (n : Nat) : Kept qt s₀ (State.prLatch s n) := by
  unfold State.prLatch
  repeat' first
    | with_reducible assumption
    | with_reducible apply Kept.refl
    | with_reducible apply Kept.modPr
    | with_reducible apply Kept.ite
    | ((try lift_lets -underBinder); intro x; have hx : Kept qt s₀ x := ?_; (on_goal 1 => clear_value x); (on_goal 2 => dsimp only [x]))
    | ((try lift_lets -underBinder); intro x; clear_value x)
    | (with_reducible apply Kept.upd; first | with_reducible assumption | with_reducible apply Kept.refl | with_reducible apply Kept.modPr)

theorem State.searchStart_kept {qt : Bool} {s₀ s : State} (h : Kept qt s₀ s) (n : Nat) (noPol : Bool) : Kept qt s₀ (State.searchStart s n noPol) := by
  unfold State.searchStart
  repeat' first
    | with_reducible assumption
    | with_reducible apply Kept.refl
    | with_reducible apply Kept.put
    | with_reducible apply Kept.modCc
    | with_reducible apply Kept.modPr
    | with_reducible apply State.prLatch_kept
    | with_reducible apply Kept.ite
    | ((try lift_lets -underBinder); intro x; have hx : Kept qt s₀ x := ?_; (on_goal 1 => clear_value x); (on_goal 2 => dsimp only [x]))
    | ((try lift_lets -underBinder); intro x; clear_value x)
    | split
    | (with_reducible apply Kept.upd; first | with_reducible assumption | with_reducible apply Kept.refl | with_reducible apply Kept.put | with_reducible apply Kept.modCc | with_reducible apply Kept.modPr | with_reducible apply State.prLatch_kept)

theorem State.prStart_kept {qt : Bool} {s₀ s : State} (h : Kept qt s₀ s) (n : Nat) : Kept qt s₀ (State.prStart s n) := by
  unfold State.prStart
  repeat' first
    | with_reducible assumption
    | with_reducible apply Kept.refl
    | with_reducible apply Kept.put
    | with_reducible apply Kept.setPr
    | with_reducible apply Kept.modPr
    | with_reducible apply State.prLatch_kept
    | with_reducible apply State.searchStart_kept
    | with_reducible apply Kept.ite
    | ((try lift_lets -underBinder); intro x; have hx : Kept qt s₀ x := ?_; (on_goal 1 => clear_value x); (on_goal 2 => dsimp only [x]))
    | ((try lift_lets -underBinder); intro x; clear_value x)
    | split

theorem State.prPlace_kept {qt : Bool} {s₀ s : State} (h : Kept qt s₀ s) (n : Nat) : Kept qt s₀ (State.prPlace s n) := by
  unfold State.prPlace
  repeat' first
    | with_reducible assumption
    | with_reducible apply Kept.refl
    | with_reducible apply Kept.puti
    | with_reducible apply Kept.modPr
    | with_reducible apply Kept.ite
    | ((try lift_lets -underBinder); intro x; have hx : Kept qt s₀ x := ?_; (on_goal 1 => clear_value x); (on_goal 2 => dsimp only [x]))
    | ((try lift_lets -underBinder); intro x; clear_value x)
    | (with_reducible apply Kept.upd; first | with_reducible assumption | with_reducible apply Kept.refl | with_reducible apply Kept.puti | with_reducible apply Kept.modPr)

theorem State.prAngleStep_kept {qt : Bool} {s₀ s : State} (h : Kept qt s₀ s) (n : Nat) (x : Snapshot) : Kept qt s₀ (State.prAngleStep s n x) := by
  unfold State.prAngleStep
  repeat' first
    | with_reducible assumption
    | with_reducible apply Kept.refl
    | with_reducible apply Kept.setPr
    | with_reducible apply Kept.ite
    | ((try lift_lets -underBinder); intro x; have hx : Kept qt s₀ x := ?_; (on_goal 1 => clear_value x); (on_goal 2 => dsimp only [x]))
    | ((try lift_lets -underBinder); intro x; clear_value x)
    | split
    | (with_reducible apply Kept.upd; first | with_reducible assumption | with_reducible apply Kept.refl | with_reducible apply Kept.setPr)

theorem State.injectStart_kept {qt : Bool} {s₀ s : State} (h : Kept qt s₀ s) (n : Nat) : Kept qt s₀ (State.injectStart s n) := by
  unfold State.injectStart
  repeat' first
    | with_reducible assumption
    | with_reducible apply Kept.refl
    | with_reducible apply Kept.put
    | with_reducible apply Kept.modPr
    | with_reducible apply Kept.ite
    | ((try lift_lets -underBinder); intro x; have hx : Kept qt s₀ x := ?_; (on_goal 1 => clear_value x); (on_goal 2 => dsimp only [x]))
    | ((try lift_lets -underBinder); intro x; clear_value x)

theorem State.prMode_kept {qt : Bool} {s₀ s : State} (h : Kept qt s₀ s) (n : Nat) : Kept qt s₀ (State.prMode s n) := by
  unfold State.prMode
  repeat' first
    | with_reducible assumption
    | with_reducible apply Kept.refl
    | with_reducible apply Kept.put
    | with_reducible apply Kept.modPr
    | with_reducible apply State.injectStart_kept
    | with_reducible apply Kept.ite
    | ((try lift_lets -underBinder); intro x; have hx : Kept qt s₀ x := ?_; (on_goal 1 => clear_value x); (on_goal 2 => dsimp only [x]))
    | ((try lift_lets -underBinder); intro x; clear_value x)
    | split
    | (with_reducible apply Kept.upd; first | with_reducible assumption | with_reducible apply Kept.refl | with_reducible apply Kept.put | with_reducible apply Kept.modPr | with_reducible apply State.injectStart_kept)

theorem State.prConditions_kept {qt : Bool} {s₀ s : State} (h : Kept qt s₀ s) (n : Nat) : Kept qt s₀ (State.prConditions s n).1 := by
  unfold State.prConditions
  repeat' first
    | with_reducible assumption
    | with_reducible apply Kept.refl
    | with_reducible apply Kept.flag
    | with_reducible apply Kept.ite
    | ((try lift_lets -underBinder); intro x; have hx : Kept qt s₀ x := ?_; (on_goal 1 => clear_value x); (on_goal 2 => dsimp only [x]))
    | ((try lift_lets -underBinder); intro x; clear_value x)

theorem State.prValid_kept {qt : Bool} {s₀ s : State} (h : Kept qt s₀ s) (n : Nat) : Kept qt s₀ (State.prValid s n) := by
  delta State.prValid
  refine Kept.ite h ?_
  have hr := State.prConditions_kept h n
  generalize s.prConditions n = r at hr ⊢
  split
  extract_lets p model was ran rc t ok u
  have h1 : Kept qt s₀ u := Kept.flag (Kept.setPr (Kept.draw hr) _ _) _ _
  clear_value u
  repeat' first
    | with_reducible assumption
    | with_reducible apply Kept.draw
    | with_reducible apply State.raiseRoute_kept
    | with_reducible apply Kept.ite

theorem State.prStall_kept {qt : Bool} {s₀ s : State} (h : Kept qt s₀ s) (n : Nat) (x : Snapshot) : Kept qt s₀ (State.prStall s n x) := by
  unfold State.prStall
  repeat' first
    | with_reducible assumption
    | with_reducible apply Kept.refl
    | with_reducible apply Kept.put
    | with_reducible apply Kept.puti
    | with_reducible apply Kept.inc
    | with_reducible apply Kept.draw
    | with_reducible apply Kept.setPr
    | with_reducible apply State.raiseRoute_kept
    | with_reducible apply State.homingStall_kept
    | with_reducible apply Kept.ite
    | ((try lift_lets -underBinder); intro x; have hx : Kept qt s₀ x := ?_; (on_goal 1 => clear_value x); (on_goal 2 => dsimp only [x]))
    | ((try lift_lets -underBinder); intro x; clear_value x)
    | split
    | (with_reducible apply Kept.upd; first | with_reducible assumption | with_reducible apply Kept.refl | with_reducible apply Kept.put | with_reducible apply Kept.puti | with_reducible apply Kept.inc | with_reducible apply Kept.draw | with_reducible apply Kept.setPr | with_reducible apply State.raiseRoute_kept | with_reducible apply State.homingStall_kept)

theorem State.prRegisters_kept {qt : Bool} {s₀ s : State} (h : Kept qt s₀ s) (n : Nat) : Kept qt s₀ (State.prRegisters s n) := by
  unfold State.prRegisters
  repeat' first
    | with_reducible assumption
    | with_reducible apply Kept.refl
    | with_reducible apply Kept.put
    | with_reducible apply Kept.puti
    | with_reducible apply Kept.draw
    | with_reducible apply Kept.ite
    | ((try lift_lets -underBinder); intro x; have hx : Kept qt s₀ x := ?_; (on_goal 1 => clear_value x); (on_goal 2 => dsimp only [x]))
    | ((try lift_lets -underBinder); intro x; clear_value x)
    | split

theorem State.prPublish_kept {qt : Bool} {s₀ s : State} (h : Kept qt s₀ s) (n e : Nat) (x : Snapshot) : Kept qt s₀ (State.prPublish s n e x) := by
  unfold State.prPublish
  repeat' first
    | with_reducible assumption
    | with_reducible apply Kept.refl
    | with_reducible apply Kept.modEngine
    | with_reducible apply State.prRegisters_kept
    | with_reducible apply Kept.ite
    | ((try lift_lets -underBinder); intro x; have hx : Kept qt s₀ x := ?_; (on_goal 1 => clear_value x); (on_goal 2 => dsimp only [x]))
    | ((try lift_lets -underBinder); intro x; clear_value x)
    | (with_reducible apply Kept.upd; first | with_reducible assumption | with_reducible apply Kept.refl | with_reducible apply Kept.modEngine | with_reducible apply State.prRegisters_kept)

theorem State.searchComplete_kept {qt : Bool} {s₀ s : State} (h : Kept qt s₀ s) (n : Nat) : Kept qt s₀ (State.searchComplete s n) := by
  unfold State.searchComplete
  repeat' first
    | with_reducible assumption
    | with_reducible apply Kept.refl
    | with_reducible apply Kept.put
    | with_reducible apply Kept.modPr
    | with_reducible apply State.prHeld_kept
    | with_reducible apply State.prPlace_kept
    | with_reducible apply State.prValid_kept
    | with_reducible apply State.prRegisters_kept
    | with_reducible apply Kept.ite
    | ((try lift_lets -underBinder); intro x; have hx : Kept qt s₀ x := ?_; (on_goal 1 => clear_value x); (on_goal 2 => dsimp only [x]))
    | ((try lift_lets -underBinder); intro x; clear_value x)
    | (with_reducible apply Kept.upd; first | with_reducible assumption | with_reducible apply Kept.refl | with_reducible apply Kept.put | with_reducible apply Kept.modPr | with_reducible apply State.prHeld_kept | with_reducible apply State.prPlace_kept | with_reducible apply State.prValid_kept | with_reducible apply State.prRegisters_kept)

theorem State.searchFail_kept {qt : Bool} {s₀ s : State} (h : Kept qt s₀ s) (n : Nat) : Kept qt s₀ (State.searchFail s n) := by
  unfold State.searchFail
  repeat' first
    | with_reducible assumption
    | with_reducible apply Kept.refl
    | with_reducible apply Kept.put
    | with_reducible apply Kept.draw
    | with_reducible apply Kept.modPr
    | with_reducible apply State.raiseRoute_kept
    | with_reducible apply State.prRegisters_kept
    | with_reducible apply Kept.ite
    | ((try lift_lets -underBinder); intro x; have hx : Kept qt s₀ x := ?_; (on_goal 1 => clear_value x); (on_goal 2 => dsimp only [x]))
    | ((try lift_lets -underBinder); intro x; clear_value x)
    | split
    | (with_reducible apply Kept.upd; first | with_reducible assumption | with_reducible apply Kept.refl | with_reducible apply Kept.put | with_reducible apply Kept.draw | with_reducible apply Kept.modPr | with_reducible apply State.raiseRoute_kept | with_reducible apply State.prRegisters_kept)

theorem State.estimatorPass_kept {qt : Bool} {s₀ s : State} (h : Kept qt s₀ s) (n e : Nat) (x : Snapshot) : Kept qt s₀ (State.estimatorPass s n e x) := by
  unfold State.estimatorPass
  repeat' first
    | with_reducible assumption
    | with_reducible apply Kept.refl
    | with_reducible apply State.prAngleStep_kept
    | with_reducible apply State.prMode_kept
    | with_reducible apply State.prValid_kept
    | with_reducible apply State.prStall_kept
    | with_reducible apply State.prPublish_kept
    | with_reducible apply Kept.ite
    | ((try lift_lets -underBinder); intro x; have hx : Kept qt s₀ x := ?_; (on_goal 1 => clear_value x); (on_goal 2 => dsimp only [x]))
    | ((try lift_lets -underBinder); intro x; clear_value x)
    | split

theorem State.lateStall_kept {qt : Bool} {s₀ s : State} (h : Kept qt s₀ s) (n t : Nat) : Kept qt s₀ (State.lateStall s n t) := by
  unfold State.lateStall
  repeat' first
    | with_reducible assumption
    | with_reducible apply Kept.refl
    | with_reducible apply Kept.put
    | with_reducible apply Kept.flag
    | with_reducible apply Kept.setPr
    | with_reducible apply State.prStop_kept
    | with_reducible apply State.latchSnapshot_kept
    | with_reducible apply State.prAngleStep_kept
    | with_reducible apply State.prStall_kept
    | with_reducible apply Kept.ite
    | ((try lift_lets -underBinder); intro x; have hx : Kept qt s₀ x := ?_; (on_goal 1 => clear_value x); (on_goal 2 => dsimp only [x]))
    | ((try lift_lets -underBinder); intro x; clear_value x)
    | split

theorem State.prTick_kept {qt : Bool} {s₀ s : State} (h : Kept qt s₀ s) (n : Nat) : Kept qt s₀ (State.prTick s n) := by
  unfold State.prTick
  repeat' first
    | with_reducible assumption
    | with_reducible apply Kept.refl
    | with_reducible apply Kept.put
    | with_reducible apply Kept.draw
    | with_reducible apply Kept.setPr
    | with_reducible apply State.prLatch_kept
    | with_reducible apply Kept.ite
    | ((try lift_lets -underBinder); intro x; have hx : Kept qt s₀ x := ?_; (on_goal 1 => clear_value x); (on_goal 2 => dsimp only [x]))
    | ((try lift_lets -underBinder); intro x; clear_value x)
    | split
    | (with_reducible apply Kept.upd; first | with_reducible assumption | with_reducible apply Kept.refl | with_reducible apply Kept.put | with_reducible apply Kept.draw | with_reducible apply Kept.setPr | with_reducible apply State.prLatch_kept)

theorem searchLock_kept {qt : Bool} {s₀ s : State} (h : Kept qt s₀ s) (n : Nat) : Kept qt s₀ (searchLock n s) := by
  unfold searchLock
  repeat' first
    | with_reducible assumption
    | with_reducible apply Kept.refl
    | with_reducible apply Kept.put
    | with_reducible apply Kept.modPr
    | with_reducible apply State.searchComplete_kept
    | with_reducible apply Kept.ite
    | ((try lift_lets -underBinder); intro x; have hx : Kept qt s₀ x := ?_; (on_goal 1 => clear_value x); (on_goal 2 => dsimp only [x]))
    | ((try lift_lets -underBinder); intro x; clear_value x)
    | split
    | (with_reducible apply Kept.upd; first | with_reducible assumption | with_reducible apply Kept.refl | with_reducible apply Kept.put | with_reducible apply Kept.modPr | with_reducible apply State.searchComplete_kept)

theorem polarityDone_kept {qt : Bool} {s₀ s : State} (h : Kept qt s₀ s) (n tp tn : Nat) : Kept qt s₀ (polarityDone n tp tn s) := by
  unfold polarityDone
  repeat' first
    | with_reducible assumption
    | with_reducible apply Kept.refl
    | with_reducible apply Kept.put
    | with_reducible apply Kept.modPr
    | with_reducible apply State.searchComplete_kept
    | with_reducible apply State.searchFail_kept
    | with_reducible apply Kept.ite
    | ((try lift_lets -underBinder); intro x; have hx : Kept qt s₀ x := ?_; (on_goal 1 => clear_value x); (on_goal 2 => dsimp only [x]))
    | ((try lift_lets -underBinder); intro x; clear_value x)
    | split
    | (with_reducible apply Kept.upd; first | with_reducible assumption | with_reducible apply Kept.refl | with_reducible apply Kept.put | with_reducible apply Kept.modPr | with_reducible apply State.searchComplete_kept | with_reducible apply State.searchFail_kept)

theorem searchTimeout_kept {qt : Bool} {s₀ s : State} (h : Kept qt s₀ s) (n : Nat) : Kept qt s₀ (searchTimeout n s) := by
  unfold searchTimeout
  repeat' first
    | with_reducible assumption
    | with_reducible apply Kept.refl
    | with_reducible apply State.searchFail_kept
    | with_reducible apply Kept.ite
    | ((try lift_lets -underBinder); intro x; have hx : Kept qt s₀ x := ?_; (on_goal 1 => clear_value x); (on_goal 2 => dsimp only [x]))
    | ((try lift_lets -underBinder); intro x; clear_value x)
    | split
    | (with_reducible apply Kept.upd; first | with_reducible assumption | with_reducible apply Kept.refl | with_reducible apply State.searchFail_kept)

theorem forcedAlignEnd_kept {qt : Bool} {s₀ s : State} (h : Kept qt s₀ s) (n : Nat) : Kept qt s₀ (forcedAlignEnd n s) := by
  unfold forcedAlignEnd
  repeat' first
    | with_reducible assumption
    | with_reducible apply Kept.refl
    | with_reducible apply Kept.put
    | with_reducible apply Kept.modPr
    | with_reducible apply State.prHeld_kept
    | with_reducible apply State.prPlace_kept
    | with_reducible apply State.injectStart_kept
    | with_reducible apply State.prValid_kept
    | with_reducible apply State.prRegisters_kept
    | with_reducible apply Kept.ite
    | ((try lift_lets -underBinder); intro x; have hx : Kept qt s₀ x := ?_; (on_goal 1 => clear_value x); (on_goal 2 => dsimp only [x]))
    | ((try lift_lets -underBinder); intro x; clear_value x)
    | split
    | (with_reducible apply Kept.upd; first | with_reducible assumption | with_reducible apply Kept.refl | with_reducible apply Kept.put | with_reducible apply Kept.modPr | with_reducible apply State.prHeld_kept | with_reducible apply State.prPlace_kept | with_reducible apply State.injectStart_kept | with_reducible apply State.prValid_kept | with_reducible apply State.prRegisters_kept)

theorem injectionOff_kept {qt : Bool} {s₀ s : State} (h : Kept qt s₀ s) (n : Nat) : Kept qt s₀ (injectionOff n s) := by
  unfold injectionOff
  repeat' first
    | with_reducible assumption
    | with_reducible apply Kept.refl
    | with_reducible apply Kept.put
    | with_reducible apply Kept.setPr
    | with_reducible apply State.prRegisters_kept
    | with_reducible apply Kept.ite
    | ((try lift_lets -underBinder); intro x; have hx : Kept qt s₀ x := ?_; (on_goal 1 => clear_value x); (on_goal 2 => dsimp only [x]))
    | ((try lift_lets -underBinder); intro x; clear_value x)
    | split
    | (with_reducible apply Kept.upd; first | with_reducible assumption | with_reducible apply Kept.refl | with_reducible apply Kept.put | with_reducible apply Kept.setPr | with_reducible apply State.prRegisters_kept)

theorem stallRearm_kept {qt : Bool} {s₀ s : State} (h : Kept qt s₀ s) (n : Nat) : Kept qt s₀ (stallRearm n s) := by
  unfold stallRearm
  repeat' first
    | with_reducible assumption
    | with_reducible apply Kept.refl
    | with_reducible apply Kept.setPr
    | with_reducible apply Kept.ite
    | ((try lift_lets -underBinder); intro x; have hx : Kept qt s₀ x := ?_; (on_goal 1 => clear_value x); (on_goal 2 => dsimp only [x]))
    | ((try lift_lets -underBinder); intro x; clear_value x)
    | split
    | (with_reducible apply Kept.upd; first | with_reducible assumption | with_reducible apply Kept.refl | with_reducible apply Kept.setPr)

theorem modelMismatch_kept {qt : Bool} {s₀ s : State} (h : Kept qt s₀ s) (n : Nat) : Kept qt s₀ (modelMismatch n s) := by
  unfold modelMismatch
  repeat' first
    | with_reducible assumption
    | with_reducible apply Kept.refl
    | with_reducible apply Kept.put
    | with_reducible apply Kept.draw
    | with_reducible apply State.raiseRoute_kept
    | with_reducible apply State.prRegisters_kept
    | with_reducible apply Kept.ite
    | ((try lift_lets -underBinder); intro x; have hx : Kept qt s₀ x := ?_; (on_goal 1 => clear_value x); (on_goal 2 => dsimp only [x]))
    | ((try lift_lets -underBinder); intro x; clear_value x)
    | split

theorem State.resumeClosed_kept {qt : Bool} {s₀ s : State} (h : Kept qt s₀ s) (n : Nat) : Kept qt s₀ (State.resumeClosed s n) := by
  unfold State.resumeClosed
  repeat' first
    | with_reducible assumption
    | with_reducible apply Kept.refl
    | with_reducible apply Kept.put
    | with_reducible apply Kept.modCc
    | with_reducible apply Kept.ite
    | ((try lift_lets -underBinder); intro x; have hx : Kept qt s₀ x := ?_; (on_goal 1 => clear_value x); (on_goal 2 => dsimp only [x]))
    | ((try lift_lets -underBinder); intro x; clear_value x)
    | (with_reducible apply Kept.upd; first | with_reducible assumption | with_reducible apply Kept.refl | with_reducible apply Kept.put | with_reducible apply Kept.modCc)

theorem autoclReturn_kept {qt : Bool} {s₀ s : State} (h : Kept qt s₀ s) (n : Nat) : Kept qt s₀ (autoclReturn n s) := by
  unfold autoclReturn
  repeat' first
    | with_reducible assumption
    | with_reducible apply Kept.refl
    | with_reducible apply State.resumeClosed_kept
    | with_reducible apply Kept.ite
    | ((try lift_lets -underBinder); intro x; have hx : Kept qt s₀ x := ?_; (on_goal 1 => clear_value x); (on_goal 2 => dsimp only [x]))
    | ((try lift_lets -underBinder); intro x; clear_value x)
    | split

theorem resumeCl_kept {qt : Bool} {s₀ s : State} (h : Kept qt s₀ s) (w : Writer) (n : Nat) : Kept qt s₀ (resumeCl w n s) := by
  unfold resumeCl
  repeat' first
    | with_reducible assumption
    | with_reducible apply Kept.refl
    | with_reducible apply Kept.err
    | with_reducible apply State.resumeClosed_kept
    | with_reducible apply Kept.ite
    | ((try lift_lets -underBinder); intro x; have hx : Kept qt s₀ x := ?_; (on_goal 1 => clear_value x); (on_goal 2 => dsimp only [x]))
    | ((try lift_lets -underBinder); intro x; clear_value x)
    | split

theorem research_kept {qt : Bool} {s₀ s : State} (h : Kept qt s₀ s) (w : Writer) (n : Nat) : Kept qt s₀ (research w n s) := by
  unfold research
  repeat' first
    | with_reducible assumption
    | with_reducible apply Kept.refl
    | with_reducible apply Kept.put
    | with_reducible apply Kept.err
    | with_reducible apply State.searchStart_kept
    | with_reducible apply Kept.ite
    | ((try lift_lets -underBinder); intro x; have hx : Kept qt s₀ x := ?_; (on_goal 1 => clear_value x); (on_goal 2 => dsimp only [x]))
    | ((try lift_lets -underBinder); intro x; clear_value x)
    | split

theorem identStart_kept {qt : Bool} {s₀ s : State} (h : Kept qt s₀ s) (w : Writer) (n : Nat) : Kept qt s₀ (identStart w n s) := by
  unfold identStart
  repeat' first
    | with_reducible assumption
    | with_reducible apply Kept.refl
    | with_reducible apply Kept.put
    | with_reducible apply Kept.err
    | with_reducible apply State.calBegin_kept
    | with_reducible apply Kept.ite
    | ((try lift_lets -underBinder); intro x; have hx : Kept qt s₀ x := ?_; (on_goal 1 => clear_value x); (on_goal 2 => dsimp only [x]))
    | ((try lift_lets -underBinder); intro x; clear_value x)
    | split

theorem prCtrlWrite_kept {qt : Bool} {s₀ s : State} (h : Kept qt s₀ s) (w : Writer) (n : Nat) (v : Word) : Kept qt s₀ (prCtrlWrite w n v s) := by
  unfold prCtrlWrite
  repeat' first
    | with_reducible assumption
    | with_reducible apply Kept.refl
    | with_reducible apply Kept.w1c
    | with_reducible apply resumeCl_kept
    | with_reducible apply research_kept
    | with_reducible apply identStart_kept
    | with_reducible apply Kept.ite
    | ((try lift_lets -underBinder); intro x; have hx : Kept qt s₀ x := ?_; (on_goal 1 => clear_value x); (on_goal 2 => dsimp only [x]))
    | ((try lift_lets -underBinder); intro x; clear_value x)
    | split

theorem State.identEnd_kept {qt : Bool} {s₀ s : State} (h : Kept qt s₀ s) (n code : Nat) : Kept qt s₀ (State.identEnd s n code) := by
  unfold State.identEnd
  repeat' first
    | with_reducible assumption
    | with_reducible apply Kept.refl
    | with_reducible apply Kept.put
    | with_reducible apply Kept.flag
    | with_reducible apply Kept.modCc
    | with_reducible apply State.calDriveOff_kept
    | with_reducible apply Kept.ite
    | ((try lift_lets -underBinder); intro x; have hx : Kept qt s₀ x := ?_; (on_goal 1 => clear_value x); (on_goal 2 => dsimp only [x]))
    | ((try lift_lets -underBinder); intro x; clear_value x)
    | (with_reducible apply Kept.upd; first | with_reducible assumption | with_reducible apply Kept.refl | with_reducible apply Kept.put | with_reducible apply Kept.flag | with_reducible apply Kept.modCc | with_reducible apply State.calDriveOff_kept)

theorem identDone_kept {qt : Bool} {s₀ s : State} (h : Kept qt s₀ s) (n : Nat) (rw ld lq : Int) (notReached : Bool) : Kept qt s₀ (identDone n rw ld lq notReached s) := by
  unfold identDone
  repeat' first
    | with_reducible assumption
    | with_reducible apply Kept.refl
    | with_reducible apply Kept.put
    | with_reducible apply Kept.draw
    | with_reducible apply State.identEnd_kept
    | with_reducible apply Kept.ite
    | ((try lift_lets -underBinder); intro x; have hx : Kept qt s₀ x := ?_; (on_goal 1 => clear_value x); (on_goal 2 => dsimp only [x]))
    | ((try lift_lets -underBinder); intro x; clear_value x)
    | split

theorem prCfgWrite_kept {qt : Bool} {s₀ s : State} (h : Kept qt s₀ s) (w : Writer) (n : Nat) (v : Word) : Kept qt s₀ (prCfgWrite w n v s) := by
  unfold prCfgWrite
  repeat' first
    | with_reducible assumption
    | with_reducible apply Kept.refl
    | with_reducible apply Kept.wr
    | with_reducible apply Kept.err
    | with_reducible apply Kept.ite
    | ((try lift_lets -underBinder); intro x; have hx : Kept qt s₀ x := ?_; (on_goal 1 => clear_value x); (on_goal 2 => dsimp only [x]))
    | ((try lift_lets -underBinder); intro x; clear_value x)
    | split

theorem prParamWrite_kept {qt : Bool} {s₀ s : State} (h : Kept qt s₀ s) (w : Writer) (n i : Nat) (v : Word) : Kept qt s₀ (prParamWrite w n i v s) := by
  unfold prParamWrite
  repeat' first
    | with_reducible assumption
    | with_reducible apply Kept.refl
    | with_reducible apply Kept.wr
    | with_reducible apply Kept.err
    | with_reducible apply Kept.ite
    | ((try lift_lets -underBinder); intro x; have hx : Kept qt s₀ x := ?_; (on_goal 1 => clear_value x); (on_goal 2 => dsimp only [x]))
    | ((try lift_lets -underBinder); intro x; clear_value x)
    | split

end Sys2Proof.Machine
end

