-- ==== Sys2Proof/Laws/KeepCarrier.lean ====
section
/-! SUPPORT. What the operations of Machine/Carrier.lean keep: one lemma per operation (Laws/Kept.lean). -/
namespace Sys2Proof.Machine
set_option linter.unusedTactic false
set_option linter.unreachableTactic false
set_option linter.unusedVariables false

theorem State.loopInstants_kept {qt : Bool} {s₀ s : State} (h : Kept qt s₀ s) (g : Nat) (peak first : Bool) : Kept qt s₀ (State.loopInstants s g peak first) := by
  unfold State.loopInstants
  repeat' first
    | with_reducible assumption
    | with_reducible apply Kept.refl
    | (with_reducible refine Kept.each ?_ _ (fun _ t _ => ?_))
    | with_reducible apply Kept.setCc
    | with_reducible apply Kept.setSwap
    | with_reducible apply Kept.modSwap
    | with_reducible apply State.schedule_kept
    | with_reducible apply State.takeLate_kept
    | with_reducible apply State.calPass_kept
    | with_reducible apply Kept.ite
    | ((try lift_lets -underBinder); intro x; have hx : Kept qt s₀ x := ?_; (on_goal 1 => clear_value x); (on_goal 2 => dsimp only [x]))
    | ((try lift_lets -underBinder); intro x; clear_value x)
    | split
    | (with_reducible apply Kept.upd; first | with_reducible assumption | with_reducible apply Kept.refl | (with_reducible refine Kept.each ?_ _ (fun _ t _ => ?_)) | with_reducible apply Kept.setCc | with_reducible apply Kept.setSwap | with_reducible apply Kept.modSwap | with_reducible apply State.schedule_kept | with_reducible apply State.takeLate_kept | with_reducible apply State.calPass_kept)

theorem carrierValley_kept {qt : Bool} {s₀ s : State} (h : Kept qt s₀ s) (g : Nat) (dev : Int) : Kept qt s₀ (carrierValley g dev s) := by
  unfold carrierValley
  repeat' first
    | with_reducible assumption
    | with_reducible apply Kept.refl
    | (with_reducible refine Kept.each ?_ _ (fun _ t _ => ?_))
    | with_reducible apply Kept.put
    | with_reducible apply Kept.setGroup
    | with_reducible apply State.hkcSignal_kept
    | with_reducible apply State.startPeriod_kept
    | with_reducible apply State.syncReport_kept
    | with_reducible apply State.stopChan_kept
    | with_reducible apply State.loopInstants_kept
    | with_reducible apply Kept.ite
    | ((try lift_lets -underBinder); intro x; have hx : Kept qt s₀ x := ?_; (on_goal 1 => clear_value x); (on_goal 2 => dsimp only [x]))
    | ((try lift_lets -underBinder); intro x; clear_value x)
    | split
    | (with_reducible apply Kept.upd; first | with_reducible assumption | with_reducible apply Kept.refl | (with_reducible refine Kept.each ?_ _ (fun _ t _ => ?_)) | with_reducible apply Kept.put | with_reducible apply Kept.setGroup | with_reducible apply State.hkcSignal_kept | with_reducible apply State.startPeriod_kept | with_reducible apply State.syncReport_kept | with_reducible apply State.stopChan_kept | with_reducible apply State.loopInstants_kept)

theorem carrierPeak_kept {qt : Bool} {s₀ s : State} (h : Kept qt s₀ s) (g : Nat) : Kept qt s₀ (carrierPeak g s) := by
  unfold carrierPeak
  repeat' first
    | with_reducible assumption
    | with_reducible apply Kept.refl
    | (with_reducible refine Kept.each ?_ _ (fun _ t _ => ?_))
    | with_reducible apply Kept.setGroup
    | with_reducible apply State.hkcSignal_kept
    | with_reducible apply State.peakUpdate_kept
    | with_reducible apply State.loopInstants_kept
    | with_reducible apply Kept.ite
    | ((try lift_lets -underBinder); intro x; have hx : Kept qt s₀ x := ?_; (on_goal 1 => clear_value x); (on_goal 2 => dsimp only [x]))
    | ((try lift_lets -underBinder); intro x; clear_value x)
    | split
    | (with_reducible apply Kept.upd; first | with_reducible assumption | with_reducible apply Kept.refl | (with_reducible refine Kept.each ?_ _ (fun _ t _ => ?_)) | with_reducible apply Kept.setGroup | with_reducible apply State.hkcSignal_kept | with_reducible apply State.peakUpdate_kept | with_reducible apply State.loopInstants_kept)

theorem counterStart_kept {qt : Bool} {s₀ s : State} (h : Kept qt s₀ s) (g : Nat) : Kept qt s₀ (counterStart g s) := by
  unfold counterStart
  repeat' first
    | with_reducible assumption
    | with_reducible apply Kept.refl
    | (with_reducible refine Kept.each ?_ _ (fun _ t _ => ?_))
    | with_reducible apply Kept.put
    | with_reducible apply Kept.setGroup
    | with_reducible apply State.startPeriod_kept
    | with_reducible apply State.loopInstants_kept
    | with_reducible apply Kept.ite
    | ((try lift_lets -underBinder); intro x; have hx : Kept qt s₀ x := ?_; (on_goal 1 => clear_value x); (on_goal 2 => dsimp only [x]))
    | ((try lift_lets -underBinder); intro x; clear_value x)
    | split
    | (with_reducible apply Kept.upd; first | with_reducible assumption | with_reducible apply Kept.refl | (with_reducible refine Kept.each ?_ _ (fun _ t _ => ?_)) | with_reducible apply Kept.put | with_reducible apply Kept.setGroup | with_reducible apply State.startPeriod_kept | with_reducible apply State.loopInstants_kept)

end Sys2Proof.Machine
end

