-- ==== Sys2Proof/Laws/KeepEngines.lean ====
section
/-! SUPPORT. What the operations of Machine/Engines.lean keep: one lemma per operation (Laws/Kept.lean). -/
namespace Sys2Proof.Machine
set_option linter.unusedTactic false
set_option linter.unreachableTactic false
set_option linter.unusedVariables false

theorem State.setProgWord_kept {s₀ s : State} (h : Kept false s₀ s) (e i : Nat) (v : Word) : Kept false s₀ (State.setProgWord s e i v) := by
  unfold State.setProgWord
  repeat' first
    | with_reducible assumption
    | with_reducible apply Kept.refl
    | with_reducible apply Kept.put
    | with_reducible apply Kept.wrMem
    | with_reducible apply Kept.modEngine
    | with_reducible apply Kept.ite
    | ((try lift_lets -underBinder); intro x; have hx : Kept false s₀ x := ?_; (on_goal 1 => clear_value x); (on_goal 2 => dsimp only [x]))
    | ((try lift_lets -underBinder); intro x; clear_value x)
    | (with_reducible apply Kept.upd; first | with_reducible assumption | with_reducible apply Kept.refl | with_reducible apply Kept.put | with_reducible apply Kept.wrMem | with_reducible apply Kept.modEngine)

theorem State.setDataWord_kept {s₀ s : State} (h : Kept false s₀ s) (e i : Nat) (v : Word) : Kept false s₀ (State.setDataWord s e i v) := by
  unfold State.setDataWord
  repeat' first
    | with_reducible assumption
    | with_reducible apply Kept.refl
    | with_reducible apply Kept.wrMem
    | with_reducible apply Kept.modEngine
    | with_reducible apply Kept.ite
    | ((try lift_lets -underBinder); intro x; have hx : Kept false s₀ x := ?_; (on_goal 1 => clear_value x); (on_goal 2 => dsimp only [x]))
    | ((try lift_lets -underBinder); intro x; clear_value x)

theorem State.setDataWords_kept {s₀ s : State} (h : Kept false s₀ s) (e i : Nat) (l : List Word) : Kept false s₀ (State.setDataWords s e i l) := by
  unfold State.setDataWords
  repeat' first
    | with_reducible assumption
    | with_reducible apply Kept.refl
    | (with_reducible refine Kept.each ?_ _ (fun _ t _ => ?_))
    | with_reducible apply State.setDataWord_kept
    | with_reducible apply Kept.ite
    | ((try lift_lets -underBinder); intro x; have hx : Kept false s₀ x := ?_; (on_goal 1 => clear_value x); (on_goal 2 => dsimp only [x]))
    | ((try lift_lets -underBinder); intro x; clear_value x)

theorem State.setRole_kept {qt : Bool} {s₀ s : State} (h : Kept qt s₀ s) (e role n : Nat) : Kept qt s₀ (State.setRole s e role n) := by
  unfold State.setRole
  repeat' first
    | with_reducible assumption
    | with_reducible apply Kept.refl
    | with_reducible apply Kept.put
    | with_reducible apply Kept.ite
    | ((try lift_lets -underBinder); intro x; have hx : Kept qt s₀ x := ?_; (on_goal 1 => clear_value x); (on_goal 2 => dsimp only [x]))
    | ((try lift_lets -underBinder); intro x; clear_value x)

theorem State.engineIdle_kept {qt : Bool} {s₀ s : State} (h : Kept qt s₀ s) (e : Nat) : Kept qt s₀ (State.engineIdle s e) := by
  unfold State.engineIdle
  repeat' first
    | with_reducible assumption
    | with_reducible apply Kept.refl
    | with_reducible apply Kept.put
    | with_reducible apply Kept.modEngine
    | with_reducible apply State.setRole_kept
    | with_reducible apply Kept.ite
    | ((try lift_lets -underBinder); intro x; have hx : Kept qt s₀ x := ?_; (on_goal 1 => clear_value x); (on_goal 2 => dsimp only [x]))
    | ((try lift_lets -underBinder); intro x; clear_value x)
    | split
    | (with_reducible apply Kept.upd; first | with_reducible assumption | with_reducible apply Kept.refl | with_reducible apply Kept.put | with_reducible apply Kept.modEngine | with_reducible apply State.setRole_kept)

theorem State.nameEngine_kept {qt : Bool} {s₀ s : State} (h : Kept qt s₀ s) (n role e : Nat) : Kept qt s₀ (State.nameEngine s n role e) := by
  unfold State.nameEngine
  repeat' first
    | with_reducible assumption
    | with_reducible apply Kept.refl
    | with_reducible apply Kept.put
    | with_reducible apply Kept.ite
    | ((try lift_lets -underBinder); intro x; have hx : Kept qt s₀ x := ?_; (on_goal 1 => clear_value x); (on_goal 2 => dsimp only [x]))
    | ((try lift_lets -underBinder); intro x; clear_value x)
    | split

theorem State.routeStart_kept {qt : Bool} {s₀ s : State} (h : Kept qt s₀ s) (e : Nat) : Kept qt s₀ (State.routeStart s e) := by
  unfold State.routeStart
  repeat' first
    | with_reducible assumption
    | with_reducible apply Kept.refl
    | with_reducible apply Kept.put
    | with_reducible apply Kept.modEngine
    | with_reducible apply Kept.ite
    | ((try lift_lets -underBinder); intro x; have hx : Kept qt s₀ x := ?_; (on_goal 1 => clear_value x); (on_goal 2 => dsimp only [x]))
    | ((try lift_lets -underBinder); intro x; clear_value x)
    | split
    | (with_reducible apply Kept.upd; first | with_reducible assumption | with_reducible apply Kept.refl | with_reducible apply Kept.put | with_reducible apply Kept.modEngine)

theorem State.ckpValid_kept {qt : Bool} {s₀ s : State} (h : Kept qt s₀ s) (n role h tick : Nat) (fac : Option Nat) : Kept qt s₀ (State.ckpValid s n role h tick fac) := by
  unfold State.ckpValid
  repeat' first
    | with_reducible assumption
    | with_reducible apply Kept.refl
    | with_reducible apply Kept.put
    | with_reducible apply Kept.setCkp
    | with_reducible apply Kept.ite
    | ((try lift_lets -underBinder); intro x; have hx : Kept qt s₀ x := ?_; (on_goal 1 => clear_value x); (on_goal 2 => dsimp only [x]))
    | ((try lift_lets -underBinder); intro x; clear_value x)
    | split
    | (with_reducible apply Kept.upd; first | with_reducible assumption | with_reducible apply Kept.refl | with_reducible apply Kept.put | with_reducible apply Kept.setCkp)

theorem State.deliver_kept {s₀ s : State} (h : Kept false s₀ s) (n role e : Nat) : Kept false s₀ (State.deliver s n role e) := by
  unfold State.deliver
  repeat' first
    | with_reducible assumption
    | with_reducible apply Kept.refl
    | (with_reducible refine Kept.each ?_ _ (fun _ t _ => ?_))
    | with_reducible apply Kept.modEngine
    | with_reducible apply State.setDataWords_kept
    | with_reducible apply Kept.ite
    | ((try lift_lets -underBinder); intro x; have hx : Kept false s₀ x := ?_; (on_goal 1 => clear_value x); (on_goal 2 => dsimp only [x]))
    | ((try lift_lets -underBinder); intro x; clear_value x)
    | split

theorem State.swapCkp_kept {s₀ s : State} (h : Kept false s₀ s) (n role : Nat) : Kept false s₀ (State.swapCkp s n role) := by
  unfold State.swapCkp
  repeat' first
    | with_reducible assumption
    | with_reducible apply Kept.refl
    | with_reducible apply Kept.put
    | with_reducible apply Kept.modCc
    | with_reducible apply Kept.setSwap
    | with_reducible apply State.routeStart_kept
    | with_reducible apply State.deliver_kept
    | with_reducible apply Kept.ite
    | ((try lift_lets -underBinder); intro x; have hx : Kept false s₀ x := ?_; (on_goal 1 => clear_value x); (on_goal 2 => dsimp only [x]))
    | ((try lift_lets -underBinder); intro x; clear_value x)
    | split
    | (with_reducible apply Kept.upd; first | with_reducible assumption | with_reducible apply Kept.refl | with_reducible apply Kept.put | with_reducible apply Kept.modCc | with_reducible apply Kept.setSwap | with_reducible apply State.routeStart_kept | with_reducible apply State.deliver_kept)

theorem State.ckpTaken_kept {s₀ s : State} (h : Kept false s₀ s) (n role h tick : Nat) (fac : Option Nat) : Kept false s₀ (State.ckpTaken s n role h tick fac) := by
  unfold State.ckpTaken
  repeat' first
    | with_reducible assumption
    | with_reducible apply Kept.refl
    | with_reducible apply State.ckpValid_kept
    | with_reducible apply State.swapCkp_kept
    | with_reducible apply Kept.ite
    | ((try lift_lets -underBinder); intro x; have hx : Kept false s₀ x := ?_; (on_goal 1 => clear_value x); (on_goal 2 => dsimp only [x]))
    | ((try lift_lets -underBinder); intro x; clear_value x)

theorem State.ckpCommit_kept {s₀ s : State} (h : Kept false s₀ s) (n role t : Nat) : Kept false s₀ (State.ckpCommit s n role t) := by
  unfold State.ckpCommit
  repeat' first
    | with_reducible assumption
    | with_reducible apply Kept.refl
    | with_reducible apply Kept.setCkp
    | with_reducible apply State.ckpTaken_kept
    | with_reducible apply Kept.ite
    | ((try lift_lets -underBinder); intro x; have hx : Kept false s₀ x := ?_; (on_goal 1 => clear_value x); (on_goal 2 => dsimp only [x]))
    | ((try lift_lets -underBinder); intro x; clear_value x)
    | split
    | (with_reducible apply Kept.upd; first | with_reducible assumption | with_reducible apply Kept.refl | with_reducible apply Kept.setCkp | with_reducible apply State.ckpTaken_kept)

theorem State.ckpCut_kept {s₀ s : State} (h : Kept false s₀ s) (n role : Nat) : Kept false s₀ (State.ckpCut s n role) := by
  unfold State.ckpCut
  repeat' first
    | with_reducible assumption
    | with_reducible apply Kept.refl
    | with_reducible apply Kept.setCkp
    | with_reducible apply State.ckpCommit_kept
    | with_reducible apply Kept.ite
    | ((try lift_lets -underBinder); intro x; have hx : Kept false s₀ x := ?_; (on_goal 1 => clear_value x); (on_goal 2 => dsimp only [x]))
    | ((try lift_lets -underBinder); intro x; clear_value x)
    | (with_reducible apply Kept.upd; first | with_reducible assumption | with_reducible apply Kept.refl | with_reducible apply Kept.setCkp | with_reducible apply State.ckpCommit_kept)

theorem State.factoryCkp_kept {s₀ s : State} (h : Kept false s₀ s) (n role e : Nat) : Kept false s₀ (State.factoryCkp s n role e) := by
  unfold State.factoryCkp
  repeat' first
    | with_reducible assumption
    | with_reducible apply Kept.refl
    | with_reducible apply Kept.draw
    | with_reducible apply Kept.wrMems
    | with_reducible apply State.ckpTaken_kept
    | with_reducible apply Kept.ite
    | ((try lift_lets -underBinder); intro x; have hx : Kept false s₀ x := ?_; (on_goal 1 => clear_value x); (on_goal 2 => dsimp only [x]))
    | ((try lift_lets -underBinder); intro x; clear_value x)
    | split

theorem State.shadowCompare_kept {qt : Bool} {s₀ s : State} (h : Kept qt s₀ s) (n : Nat) : Kept qt s₀ (State.shadowCompare s n) := by
  unfold State.shadowCompare
  repeat' first
    | with_reducible assumption
    | with_reducible apply Kept.refl
    | with_reducible apply Kept.incSat
    | with_reducible apply Kept.setSwap
    | with_reducible apply Kept.ite
    | ((try lift_lets -underBinder); intro x; have hx : Kept qt s₀ x := ?_; (on_goal 1 => clear_value x); (on_goal 2 => dsimp only [x]))
    | ((try lift_lets -underBinder); intro x; clear_value x)
    | split
    | (with_reducible apply Kept.upd; first | with_reducible assumption | with_reducible apply Kept.refl | with_reducible apply Kept.incSat | with_reducible apply Kept.setSwap)

theorem State.swapOutput_kept {qt : Bool} {s₀ s : State} (h : Kept qt s₀ s) (e t : Nat) (o : Option (List Int)) : Kept qt s₀ (State.swapOutput s e t o) := by
  unfold State.swapOutput
  repeat' first
    | with_reducible assumption
    | with_reducible apply Kept.refl
    | with_reducible apply Kept.setSwap
    | with_reducible apply Kept.ite
    | ((try lift_lets -underBinder); intro x; have hx : Kept qt s₀ x := ?_; (on_goal 1 => clear_value x); (on_goal 2 => dsimp only [x]))
    | ((try lift_lets -underBinder); intro x; clear_value x)
    | split
    | (with_reducible apply Kept.upd; first | with_reducible assumption | with_reducible apply Kept.refl | with_reducible apply Kept.setSwap)

theorem State.swapPassEnd_kept {qt : Bool} {s₀ s : State} (h : Kept qt s₀ s) (e t : Nat) (reached : Bool) : Kept qt s₀ (State.swapPassEnd s e t reached) := by
  unfold State.swapPassEnd
  repeat' first
    | with_reducible assumption
    | with_reducible apply Kept.refl
    | with_reducible apply State.shadowCompare_kept
    | with_reducible apply State.swapOutput_kept
    | with_reducible apply Kept.ite
    | ((try lift_lets -underBinder); intro x; have hx : Kept qt s₀ x := ?_; (on_goal 1 => clear_value x); (on_goal 2 => dsimp only [x]))
    | ((try lift_lets -underBinder); intro x; clear_value x)
    | split

theorem State.swapTargetLost_kept {qt : Bool} {s₀ s : State} (h : Kept qt s₀ s) (n : Nat) : Kept qt s₀ (State.swapTargetLost s n) := by
  unfold State.swapTargetLost
  repeat' first
    | with_reducible assumption
    | with_reducible apply Kept.refl
    | with_reducible apply Kept.put
    | with_reducible apply Kept.setSwap
    | with_reducible apply State.swapAnswer_kept
    | with_reducible apply Kept.ite
    | ((try lift_lets -underBinder); intro x; have hx : Kept qt s₀ x := ?_; (on_goal 1 => clear_value x); (on_goal 2 => dsimp only [x]))
    | ((try lift_lets -underBinder); intro x; clear_value x)
    | split

theorem State.roleLost_kept {qt : Bool} {s₀ s : State} (h : Kept qt s₀ s) (n role : Nat) : Kept qt s₀ (State.roleLost s n role) := by
  unfold State.roleLost
  repeat' first
    | with_reducible assumption
    | with_reducible apply Kept.refl
    | with_reducible apply Kept.put
    | with_reducible apply Kept.draw
    | with_reducible apply Kept.modPr
    | with_reducible apply State.toTripped_kept
    | with_reducible apply State.raiseRoute_kept
    | with_reducible apply Kept.ite
    | ((try lift_lets -underBinder); intro x; have hx : Kept qt s₀ x := ?_; (on_goal 1 => clear_value x); (on_goal 2 => dsimp only [x]))
    | ((try lift_lets -underBinder); intro x; clear_value x)
    | split
    | (with_reducible apply Kept.upd; first | with_reducible assumption | with_reducible apply Kept.refl | with_reducible apply Kept.put | with_reducible apply Kept.draw | with_reducible apply Kept.modPr | with_reducible apply State.toTripped_kept | with_reducible apply State.raiseRoute_kept)

theorem State.emergencyLoaded_kept {s₀ s : State} (h : Kept false s₀ s) (n role : Nat) : Kept false s₀ (State.emergencyLoaded s n role) := by
  unfold State.emergencyLoaded
  repeat' first
    | with_reducible assumption
    | with_reducible apply Kept.refl
    | with_reducible apply Kept.put
    | with_reducible apply Kept.modCc
    | with_reducible apply Kept.setSwap
    | with_reducible apply Kept.setPr
    | with_reducible apply State.searchStart_kept
    | with_reducible apply State.routeStart_kept
    | with_reducible apply State.deliver_kept
    | with_reducible apply State.ckpCommit_kept
    | with_reducible apply Kept.ite
    | ((try lift_lets -underBinder); intro x; have hx : Kept false s₀ x := ?_; (on_goal 1 => clear_value x); (on_goal 2 => dsimp only [x]))
    | ((try lift_lets -underBinder); intro x; clear_value x)
    | split
    | (with_reducible apply Kept.upd; first | with_reducible assumption | with_reducible apply Kept.refl | with_reducible apply Kept.put | with_reducible apply Kept.modCc | with_reducible apply Kept.setSwap | with_reducible apply Kept.setPr | with_reducible apply State.searchStart_kept | with_reducible apply State.routeStart_kept | with_reducible apply State.deliver_kept | with_reducible apply State.ckpCommit_kept)

theorem State.emergency_kept {s₀ s : State} (h : Kept false s₀ s) (n role src : Nat) (img : Option Route) (idx : Nat) : Kept false s₀ (State.emergency s n role src img idx) := by
  unfold State.emergency
  repeat' first
    | with_reducible assumption
    | with_reducible apply Kept.refl
    | with_reducible apply Kept.put
    | with_reducible apply Kept.setSwap
    | with_reducible apply Kept.modEngine
    | with_reducible apply State.emergencyClose_kept
    | with_reducible apply State.setRole_kept
    | with_reducible apply State.roleLost_kept
    | with_reducible apply State.emergencyLoaded_kept
    | with_reducible apply Kept.ite
    | ((try lift_lets -underBinder); intro x; have hx : Kept false s₀ x := ?_; (on_goal 1 => clear_value x); (on_goal 2 => dsimp only [x]))
    | ((try lift_lets -underBinder); intro x; clear_value x)
    | split
    | (with_reducible apply Kept.upd; first | with_reducible assumption | with_reducible apply Kept.refl | with_reducible apply Kept.put | with_reducible apply Kept.setSwap | with_reducible apply Kept.modEngine | with_reducible apply State.emergencyClose_kept | with_reducible apply State.setRole_kept | with_reducible apply State.roleLost_kept | with_reducible apply State.emergencyLoaded_kept)

theorem State.emergencyTakes_kept {qt : Bool} {s₀ s : State} (h : Kept qt s₀ s) (n : Nat) (loaded : Bool) : Kept qt s₀ (State.emergencyTakes s n loaded) := by
  unfold State.emergencyTakes
  repeat' first
    | with_reducible assumption
    | with_reducible apply Kept.refl
    | with_reducible apply Kept.put
    | with_reducible apply Kept.setSwap
    | with_reducible apply Kept.modEngine
    | with_reducible apply Kept.ite
    | ((try lift_lets -underBinder); intro x; have hx : Kept qt s₀ x := ?_; (on_goal 1 => clear_value x); (on_goal 2 => dsimp only [x]))
    | ((try lift_lets -underBinder); intro x; clear_value x)
    | split
    | (with_reducible apply Kept.upd; first | with_reducible assumption | with_reducible apply Kept.refl | with_reducible apply Kept.put | with_reducible apply Kept.setSwap | with_reducible apply Kept.modEngine)

theorem State.emergencyEnd_kept {qt : Bool} {s₀ s : State} (h : Kept qt s₀ s) (n role : Nat) : Kept qt s₀ (State.emergencyEnd s n role) := by
  unfold State.emergencyEnd
  repeat' first
    | with_reducible assumption
    | with_reducible apply Kept.refl
    | with_reducible apply Kept.put
    | with_reducible apply State.emergencyClose_kept
    | with_reducible apply State.nameEngine_kept
    | with_reducible apply Kept.ite
    | ((try lift_lets -underBinder); intro x; have hx : Kept qt s₀ x := ?_; (on_goal 1 => clear_value x); (on_goal 2 => dsimp only [x]))
    | ((try lift_lets -underBinder); intro x; clear_value x)
    | split

theorem State.releaseSwap_kept {qt : Bool} {s₀ s : State} (h : Kept qt s₀ s) (n : Nat) : Kept qt s₀ (State.releaseSwap s n) := by
  unfold State.releaseSwap
  repeat' first
    | with_reducible assumption
    | with_reducible apply Kept.refl
    | with_reducible apply Kept.put
    | with_reducible apply Kept.setSwap
    | with_reducible apply Kept.modEngine
    | with_reducible apply State.swapAnswer_kept
    | with_reducible apply State.engineIdle_kept
    | with_reducible apply State.nameEngine_kept
    | with_reducible apply Kept.ite
    | ((try lift_lets -underBinder); intro x; have hx : Kept qt s₀ x := ?_; (on_goal 1 => clear_value x); (on_goal 2 => dsimp only [x]))
    | ((try lift_lets -underBinder); intro x; clear_value x)
    | split
    | (with_reducible apply Kept.upd; first | with_reducible assumption | with_reducible apply Kept.refl | with_reducible apply Kept.put | with_reducible apply Kept.setSwap | with_reducible apply Kept.modEngine | with_reducible apply State.swapAnswer_kept | with_reducible apply State.engineIdle_kept | with_reducible apply State.nameEngine_kept)

theorem State.engineTrap_kept {qt : Bool} {s₀ s : State} (h : Kept qt s₀ s) (e code operand : Nat) : Kept qt s₀ (State.engineTrap s e code operand) := by
  unfold State.engineTrap
  repeat' first
    | with_reducible assumption
    | with_reducible apply Kept.refl
    | with_reducible apply Kept.put
    | with_reducible apply Kept.modEngine
    | with_reducible apply State.raise_kept
    | with_reducible apply State.setRole_kept
    | with_reducible apply State.swapTargetLost_kept
    | with_reducible apply State.emergencyEnd_kept
    | with_reducible apply Kept.ite
    | ((try lift_lets -underBinder); intro x; have hx : Kept qt s₀ x := ?_; (on_goal 1 => clear_value x); (on_goal 2 => dsimp only [x]))
    | ((try lift_lets -underBinder); intro x; clear_value x)
    | split
    | (with_reducible apply Kept.upd; first | with_reducible assumption | with_reducible apply Kept.refl | with_reducible apply Kept.put | with_reducible apply Kept.modEngine | with_reducible apply State.raise_kept | with_reducible apply State.setRole_kept | with_reducible apply State.swapTargetLost_kept | with_reducible apply State.emergencyEnd_kept)

theorem State.retire_kept {qt : Bool} {s₀ s : State} (h : Kept qt s₀ s) (e : Nat) : Kept qt s₀ (State.retire s e) := by
  unfold State.retire
  repeat' first
    | with_reducible assumption
    | with_reducible apply Kept.refl
    | with_reducible apply Kept.put
    | with_reducible apply Kept.modEngine
    | with_reducible apply Kept.ite
    | ((try lift_lets -underBinder); intro x; have hx : Kept qt s₀ x := ?_; (on_goal 1 => clear_value x); (on_goal 2 => dsimp only [x]))
    | ((try lift_lets -underBinder); intro x; clear_value x)
    | (with_reducible apply Kept.upd; first | with_reducible assumption | with_reducible apply Kept.refl | with_reducible apply Kept.put | with_reducible apply Kept.modEngine)

theorem State.slotLost_kept {qt : Bool} {s₀ s : State} (h : Kept qt s₀ s) (n : Nat) : Kept qt s₀ (State.slotLost s n) := by
  unfold State.slotLost
  repeat' first
    | with_reducible assumption
    | with_reducible apply Kept.refl
    | with_reducible apply Kept.put
    | with_reducible apply State.interruptSlot_kept
    | with_reducible apply Kept.ite
    | ((try lift_lets -underBinder); intro x; have hx : Kept qt s₀ x := ?_; (on_goal 1 => clear_value x); (on_goal 2 => dsimp only [x]))
    | ((try lift_lets -underBinder); intro x; clear_value x)

theorem State.engineLost_kept {s₀ s : State} (h : Kept false s₀ s) (e : Nat) : Kept false s₀ (State.engineLost s e) := by
  unfold State.engineLost
  repeat' first
    | with_reducible assumption
    | with_reducible apply Kept.refl
    | with_reducible apply Kept.put
    | with_reducible apply Kept.setSwap
    | with_reducible apply State.swapAbandon_kept
    | with_reducible apply State.engineIdle_kept
    | with_reducible apply State.nameEngine_kept
    | with_reducible apply State.ckpCut_kept
    | with_reducible apply State.swapTargetLost_kept
    | with_reducible apply State.emergencyLoaded_kept
    | with_reducible apply State.emergency_kept
    | with_reducible apply State.emergencyTakes_kept
    | with_reducible apply State.releaseSwap_kept
    | with_reducible apply State.slotLost_kept
    | with_reducible apply Kept.ite
    | ((try lift_lets -underBinder); intro x; have hx : Kept false s₀ x := ?_; (on_goal 1 => clear_value x); (on_goal 2 => dsimp only [x]))
    | ((try lift_lets -underBinder); intro x; clear_value x)
    | split

theorem State.eccUncorrectable_kept {s₀ s : State} (h : Kept false s₀ s) (site : EccSite) : Kept false s₀ (State.eccUncorrectable s site) := by
  unfold State.eccUncorrectable
  repeat' first
    | with_reducible assumption
    | with_reducible apply Kept.refl
    | with_reducible apply Kept.wr
    | with_reducible apply Kept.put
    | with_reducible apply State.raise_kept
    | with_reducible apply State.setRole_kept
    | with_reducible apply State.engineTrap_kept
    | with_reducible apply State.retire_kept
    | with_reducible apply State.engineLost_kept
    | with_reducible apply Kept.ite
    | ((try lift_lets -underBinder); intro x; have hx : Kept false s₀ x := ?_; (on_goal 1 => clear_value x); (on_goal 2 => dsimp only [x]))
    | ((try lift_lets -underBinder); intro x; clear_value x)
    | split

theorem State.endPass_kept {s₀ s : State} (h : Kept false s₀ s) (e : Nat) (cyc : Option Nat) : Kept false s₀ (State.endPass s e cyc) := by
  unfold State.endPass
  repeat' first
    | with_reducible assumption
    | with_reducible apply Kept.refl
    | with_reducible apply Kept.put
    | with_reducible apply Kept.inc
    | with_reducible apply Kept.setEngine
    | with_reducible apply Kept.modEngine
    | with_reducible apply Kept.modPr
    | with_reducible apply State.engineIdle_kept
    | with_reducible apply State.ckpCommit_kept
    | with_reducible apply State.swapPassEnd_kept
    | with_reducible apply Kept.ite
    | ((try lift_lets -underBinder); intro x; have hx : Kept false s₀ x := ?_; (on_goal 1 => clear_value x); (on_goal 2 => dsimp only [x]))
    | ((try lift_lets -underBinder); intro x; clear_value x)
    | split
    | (with_reducible apply Kept.upd; first | with_reducible assumption | with_reducible apply Kept.refl | with_reducible apply Kept.put | with_reducible apply Kept.inc | with_reducible apply Kept.setEngine | with_reducible apply Kept.modEngine | with_reducible apply Kept.modPr | with_reducible apply State.engineIdle_kept | with_reducible apply State.ckpCommit_kept | with_reducible apply State.swapPassEnd_kept)

theorem State.factoryPass_kept {s₀ s : State} (h : Kept false s₀ s) (e k : Nat) (x : Snapshot) : Kept false s₀ (State.factoryPass s e k x) := by
  unfold State.factoryPass
  repeat' first
    | with_reducible assumption
    | with_reducible apply Kept.refl
    | with_reducible apply Kept.draw
    | with_reducible apply Kept.modSwap
    | with_reducible apply Kept.modEngine
    | with_reducible apply State.takeVector_kept
    | with_reducible apply State.brakePass_kept
    | with_reducible apply State.controlPass_kept
    | with_reducible apply State.beginRise_kept
    | with_reducible apply State.estimatorPass_kept
    | with_reducible apply State.factoryCkp_kept
    | with_reducible apply State.swapOutput_kept
    | with_reducible apply State.endPass_kept
    | with_reducible apply Kept.ite
    | ((try lift_lets -underBinder); intro x; have hx : Kept false s₀ x := ?_; (on_goal 1 => clear_value x); (on_goal 2 => dsimp only [x]))
    | ((try lift_lets -underBinder); intro x; have hx : Kept false s₀ x.1 := ?_; (on_goal 1 => clear_value x); (on_goal 2 => dsimp only [x]))
    | ((try lift_lets -underBinder); intro x; clear_value x)
    | split
    | (with_reducible apply Kept.upd; first | with_reducible assumption | with_reducible apply Kept.refl | with_reducible apply Kept.draw | with_reducible apply Kept.modSwap | with_reducible apply Kept.modEngine | with_reducible apply State.takeVector_kept | with_reducible apply State.brakePass_kept | with_reducible apply State.controlPass_kept | with_reducible apply State.beginRise_kept | with_reducible apply State.estimatorPass_kept | with_reducible apply State.factoryCkp_kept | with_reducible apply State.swapOutput_kept | with_reducible apply State.endPass_kept)

theorem State.overrun_kept {qt : Bool} {s₀ s : State} (h : Kept qt s₀ s) (e t : Nat) : Kept qt s₀ (State.overrun s e t) := by
  unfold State.overrun
  repeat' first
    | with_reducible assumption
    | with_reducible apply Kept.refl
    | with_reducible apply Kept.inc
    | with_reducible apply Kept.modEngine
    | with_reducible apply State.raise_kept
    | with_reducible apply State.swapPassEnd_kept
    | with_reducible apply Kept.ite
    | ((try lift_lets -underBinder); intro x; have hx : Kept qt s₀ x := ?_; (on_goal 1 => clear_value x); (on_goal 2 => dsimp only [x]))
    | ((try lift_lets -underBinder); intro x; clear_value x)
    | (with_reducible apply Kept.upd; first | with_reducible assumption | with_reducible apply Kept.refl | with_reducible apply Kept.inc | with_reducible apply Kept.modEngine | with_reducible apply State.raise_kept | with_reducible apply State.swapPassEnd_kept)

theorem enginePassStart_kept {s₀ s : State} (h : Kept false s₀ s) (e : Nat) : Kept false s₀ (enginePassStart e s) := by
  unfold enginePassStart
  extract_lets x
  split
  · exact h
  · rename_i s1 _ t _
    have h1 : Kept false s₀ s1 := h.setEngine _ _
    clear_value s1
    extract_lets b
    have hb : ∀ {u} (y : Snapshot), Kept false s₀ u → Kept false s₀ (b y u) := fun _ k => k.modEngine _ _
    clear_value b
    refine Kept.ite ?_ (Kept.ite (State.overrun_kept h1 _ _) ?_)
    · split
      · exact Kept.ite (State.lateStall_kept h1 _ _) h1
      · exact h1
    · split
      · exact hb _ h1
      · rename_i n _
        have hl := State.latchSnapshot_kept h1 n t
        generalize s1.latchSnapshot n t = r at hl ⊢
        split
        rename_i u y
        exact Kept.ite (State.factoryPass_kept (hb y hl) _ _ _) (Kept.ite (State.beginRise_kept (hb y hl) _ _) (hb y hl))

theorem emergencyGap_kept {qt : Bool} {s₀ s : State} (h : Kept qt s₀ s) (n : Nat) : Kept qt s₀ (emergencyGap n s) := by
  unfold emergencyGap
  repeat' first
    | with_reducible assumption
    | with_reducible apply Kept.refl
    | (with_reducible refine Kept.modChan ?_ _ ?_)
    | (with_reducible refine Kept.each ?_ _ (fun _ t _ => ?_))
    | with_reducible apply Kept.put
    | with_reducible apply Kept.setSwap
    | with_reducible apply State.force_kept
    | with_reducible apply State.raise_kept
    | with_reducible apply Kept.ite
    | ((try lift_lets -underBinder); intro x; have hx : Kept qt s₀ x := ?_; (on_goal 1 => clear_value x); (on_goal 2 => dsimp only [x]))
    | ((try lift_lets -underBinder); intro x; clear_value x)
    | split
    | (with_reducible apply Kept.upd; first | with_reducible assumption | with_reducible apply Kept.refl | (with_reducible refine Kept.modChan ?_ _ ?_) | (with_reducible refine Kept.each ?_ _ (fun _ t _ => ?_)) | with_reducible apply Kept.put | with_reducible apply Kept.setSwap | with_reducible apply State.force_kept | with_reducible apply State.raise_kept)
    | exact id
    | (intro x hx; exact hx)
    | (intro x hx; simp_all [PwmChan.oneSided])
    | (intro hx; simp_all [PwmChan.oneSided])

theorem emergencyTakeover_kept {qt : Bool} {s₀ s : State} (h : Kept qt s₀ s) (n : Nat) : Kept qt s₀ (emergencyTakeover n s) := by
  unfold emergencyTakeover
  repeat' first
    | with_reducible assumption
    | with_reducible apply Kept.refl
    | with_reducible apply Kept.put
    | with_reducible apply State.emergencyEnd_kept
    | with_reducible apply Kept.ite
    | ((try lift_lets -underBinder); intro x; have hx : Kept qt s₀ x := ?_; (on_goal 1 => clear_value x); (on_goal 2 => dsimp only [x]))
    | ((try lift_lets -underBinder); intro x; clear_value x)
    | split

theorem programWrite_kept {s₀ s : State} (h : Kept false s₀ s) (e i : Nat) (v : Word) : Kept false s₀ (programWrite e i v s) := by
  unfold programWrite
  repeat' first
    | with_reducible assumption
    | with_reducible apply Kept.refl
    | with_reducible apply Kept.put
    | with_reducible apply State.setProgWord_kept
    | with_reducible apply Kept.ite
    | ((try lift_lets -underBinder); intro x; have hx : Kept false s₀ x := ?_; (on_goal 1 => clear_value x); (on_goal 2 => dsimp only [x]))
    | ((try lift_lets -underBinder); intro x; clear_value x)
    | split

theorem dataWrite_kept {s₀ s : State} (h : Kept false s₀ s) (e i : Nat) (v : Word) : Kept false s₀ (dataWrite e i v s) := by
  unfold dataWrite
  repeat' first
    | with_reducible assumption
    | with_reducible apply Kept.refl
    | with_reducible apply State.setDataWord_kept
    | with_reducible apply Kept.ite
    | ((try lift_lets -underBinder); intro x; have hx : Kept false s₀ x := ?_; (on_goal 1 => clear_value x); (on_goal 2 => dsimp only [x]))
    | ((try lift_lets -underBinder); intro x; clear_value x)

theorem engineLoad_kept {qt : Bool} {s₀ s : State} (h : Kept qt s₀ s) (w : Writer) (e idx : Nat) : Kept qt s₀ (engineLoad w e idx s) := by
  unfold engineLoad
  repeat' first
    | with_reducible assumption
    | with_reducible apply Kept.refl
    | with_reducible apply Kept.put
    | with_reducible apply Kept.err
    | with_reducible apply Kept.modEngine
    | with_reducible apply Kept.ite
    | ((try lift_lets -underBinder); intro x; have hx : Kept qt s₀ x := ?_; (on_goal 1 => clear_value x); (on_goal 2 => dsimp only [x]))
    | ((try lift_lets -underBinder); intro x; clear_value x)
    | split
    | (with_reducible apply Kept.upd; first | with_reducible assumption | with_reducible apply Kept.refl | with_reducible apply Kept.put | with_reducible apply Kept.err | with_reducible apply Kept.modEngine)

theorem State.loadFinish_kept {s₀ s : State} (h : Kept false s₀ s) (e : Nat) : Kept false s₀ (State.loadFinish s e) := by
  unfold State.loadFinish
  repeat' first
    | with_reducible assumption
    | with_reducible apply Kept.refl
    | with_reducible apply Kept.put
    | with_reducible apply Kept.draw
    | with_reducible apply Kept.wrMems
    | with_reducible apply Kept.modEngine
    | with_reducible apply Kept.ite
    | ((try lift_lets -underBinder); intro x; have hx : Kept false s₀ x := ?_; (on_goal 1 => clear_value x); (on_goal 2 => dsimp only [x]))
    | ((try lift_lets -underBinder); intro x; clear_value x)
    | split
    | (with_reducible apply Kept.upd; first | with_reducible assumption | with_reducible apply Kept.refl | with_reducible apply Kept.put | with_reducible apply Kept.draw | with_reducible apply Kept.wrMems | with_reducible apply Kept.modEngine)

theorem loadDone_kept {s₀ s : State} (h : Kept false s₀ s) (e : Nat) : Kept false s₀ (loadDone e s) := by
  unfold loadDone
  repeat' first
    | with_reducible assumption
    | with_reducible apply Kept.refl
    | with_reducible apply State.emergencyLoaded_kept
    | with_reducible apply State.loadFinish_kept
    | with_reducible apply Kept.ite
    | ((try lift_lets -underBinder); intro x; have hx : Kept false s₀ x := ?_; (on_goal 1 => clear_value x); (on_goal 2 => dsimp only [x]))
    | ((try lift_lets -underBinder); intro x; clear_value x)
    | split

theorem engineStart_kept {qt : Bool} {s₀ s : State} (h : Kept qt s₀ s) (w : Writer) (e : Nat) : Kept qt s₀ (engineStart w e s) := by
  unfold engineStart
  repeat' first
    | with_reducible assumption
    | with_reducible apply Kept.refl
    | with_reducible apply Kept.put
    | with_reducible apply State.routeStart_kept
    | with_reducible apply Kept.ite
    | ((try lift_lets -underBinder); intro x; have hx : Kept qt s₀ x := ?_; (on_goal 1 => clear_value x); (on_goal 2 => dsimp only [x]))
    | ((try lift_lets -underBinder); intro x; clear_value x)
    | split

theorem haltAction_kept {qt : Bool} {s₀ s : State} (h : Kept qt s₀ s) (w : Writer) (e : Nat) : Kept qt s₀ (haltAction w e s) := by
  unfold haltAction
  repeat' first
    | with_reducible assumption
    | with_reducible apply Kept.refl
    | with_reducible apply Kept.put
    | with_reducible apply Kept.modEngine
    | with_reducible apply State.engineIdle_kept
    | with_reducible apply Kept.ite
    | ((try lift_lets -underBinder); intro x; have hx : Kept qt s₀ x := ?_; (on_goal 1 => clear_value x); (on_goal 2 => dsimp only [x]))
    | ((try lift_lets -underBinder); intro x; clear_value x)
    | split
    | (with_reducible apply Kept.upd; first | with_reducible assumption | with_reducible apply Kept.refl | with_reducible apply Kept.put | with_reducible apply Kept.modEngine | with_reducible apply State.engineIdle_kept)

theorem keCtrlWrite_kept {qt : Bool} {s₀ s : State} (h : Kept qt s₀ s) (w : Writer) (e : Nat) (v : Word) : Kept qt s₀ (keCtrlWrite w e v s) := by
  unfold keCtrlWrite
  repeat' first
    | with_reducible assumption
    | with_reducible apply Kept.refl
    | with_reducible apply Kept.put
    | with_reducible apply engineLoad_kept
    | with_reducible apply engineStart_kept
    | with_reducible apply haltAction_kept
    | with_reducible apply Kept.ite
    | ((try lift_lets -underBinder); intro x; have hx : Kept qt s₀ x := ?_; (on_goal 1 => clear_value x); (on_goal 2 => dsimp only [x]))
    | ((try lift_lets -underBinder); intro x; clear_value x)
    | split

theorem traceArm_kept {qt : Bool} {s₀ s : State} (h : Kept qt s₀ s) (e : Nat) : Kept qt s₀ (traceArm e s) := by
  unfold traceArm
  repeat' first
    | with_reducible assumption
    | with_reducible apply Kept.refl
    | with_reducible apply Kept.put
    | with_reducible apply Kept.modEngine
    | with_reducible apply Kept.ite
    | ((try lift_lets -underBinder); intro x; have hx : Kept qt s₀ x := ?_; (on_goal 1 => clear_value x); (on_goal 2 => dsimp only [x]))
    | ((try lift_lets -underBinder); intro x; clear_value x)
    | (with_reducible apply Kept.upd; first | with_reducible assumption | with_reducible apply Kept.refl | with_reducible apply Kept.put | with_reducible apply Kept.modEngine)

theorem traceStop_kept {qt : Bool} {s₀ s : State} (h : Kept qt s₀ s) (e : Nat) : Kept qt s₀ (traceStop e s) := by
  unfold traceStop
  repeat' first
    | with_reducible assumption
    | with_reducible apply Kept.refl
    | with_reducible apply Kept.put
    | with_reducible apply Kept.ite
    | ((try lift_lets -underBinder); intro x; have hx : Kept qt s₀ x := ?_; (on_goal 1 => clear_value x); (on_goal 2 => dsimp only [x]))
    | ((try lift_lets -underBinder); intro x; clear_value x)

theorem traceForce_kept {qt : Bool} {s₀ s : State} (h : Kept qt s₀ s) (e : Nat) : Kept qt s₀ (traceForce e s) := by
  unfold traceForce
  repeat' first
    | with_reducible assumption
    | with_reducible apply Kept.refl
    | with_reducible apply State.traceTrigger_kept
    | with_reducible apply Kept.ite
    | ((try lift_lets -underBinder); intro x; have hx : Kept qt s₀ x := ?_; (on_goal 1 => clear_value x); (on_goal 2 => dsimp only [x]))
    | ((try lift_lets -underBinder); intro x; clear_value x)

theorem traceDone_kept {qt : Bool} {s₀ s : State} (h : Kept qt s₀ s) (e : Nat) : Kept qt s₀ (traceDone e s) := by
  unfold traceDone
  repeat' first
    | with_reducible assumption
    | with_reducible apply Kept.refl
    | with_reducible apply Kept.put
    | with_reducible apply Kept.ite
    | ((try lift_lets -underBinder); intro x; have hx : Kept qt s₀ x := ?_; (on_goal 1 => clear_value x); (on_goal 2 => dsimp only [x]))
    | ((try lift_lets -underBinder); intro x; clear_value x)
    | split

theorem trcfgWrite_kept {qt : Bool} {s₀ s : State} (h : Kept qt s₀ s) (e : Nat) (v : Word) : Kept qt s₀ (trcfgWrite e v s) := by
  unfold trcfgWrite
  repeat' first
    | with_reducible assumption
    | with_reducible apply Kept.refl
    | with_reducible apply Kept.put
    | with_reducible apply Kept.w1c
    | with_reducible apply traceArm_kept
    | with_reducible apply traceStop_kept
    | with_reducible apply traceForce_kept
    | with_reducible apply Kept.ite
    | ((try lift_lets -underBinder); intro x; have hx : Kept qt s₀ x := ?_; (on_goal 1 => clear_value x); (on_goal 2 => dsimp only [x]))
    | ((try lift_lets -underBinder); intro x; clear_value x)
    | split

theorem State.swapStart_kept {qt : Bool} {s₀ s : State} (h : Kept qt s₀ s) (n : Nat) (v : Word) : Kept qt s₀ (State.swapStart s n v) := by
  unfold State.swapStart
  repeat' first
    | with_reducible assumption
    | with_reducible apply Kept.refl
    | with_reducible apply Kept.wr
    | with_reducible apply Kept.put
    | with_reducible apply Kept.setSwap
    | with_reducible apply Kept.modEngine
    | with_reducible apply State.setRole_kept
    | with_reducible apply Kept.ite
    | ((try lift_lets -underBinder); intro x; have hx : Kept qt s₀ x := ?_; (on_goal 1 => clear_value x); (on_goal 2 => dsimp only [x]))
    | ((try lift_lets -underBinder); intro x; clear_value x)
    | split
    | (with_reducible apply Kept.upd; first | with_reducible assumption | with_reducible apply Kept.refl | with_reducible apply Kept.wr | with_reducible apply Kept.put | with_reducible apply Kept.setSwap | with_reducible apply Kept.modEngine | with_reducible apply State.setRole_kept)

theorem State.swapCancel_kept {qt : Bool} {s₀ s : State} (h : Kept qt s₀ s) (n : Nat) : Kept qt s₀ (State.swapCancel s n) := by
  unfold State.swapCancel
  repeat' first
    | with_reducible assumption
    | with_reducible apply Kept.refl
    | with_reducible apply State.swapAbandon_kept
    | with_reducible apply Kept.ite
    | ((try lift_lets -underBinder); intro x; have hx : Kept qt s₀ x := ?_; (on_goal 1 => clear_value x); (on_goal 2 => dsimp only [x]))
    | ((try lift_lets -underBinder); intro x; clear_value x)
    | split

theorem swapWrite_kept {qt : Bool} {s₀ s : State} (h : Kept qt s₀ s) (w : Writer) (n : Nat) (v : Word) : Kept qt s₀ (swapWrite w n v s) := by
  unfold swapWrite
  repeat' first
    | with_reducible assumption
    | with_reducible apply Kept.refl
    | with_reducible apply Kept.wr
    | with_reducible apply Kept.err
    | with_reducible apply State.swapStart_kept
    | with_reducible apply State.swapCancel_kept
    | with_reducible apply Kept.ite
    | ((try lift_lets -underBinder); intro x; have hx : Kept qt s₀ x := ?_; (on_goal 1 => clear_value x); (on_goal 2 => dsimp only [x]))
    | ((try lift_lets -underBinder); intro x; clear_value x)
    | split

theorem swapLoadDone_kept {s₀ s : State} (h : Kept false s₀ s) (n : Nat) : Kept false s₀ (swapLoadDone n s) := by
  unfold swapLoadDone
  repeat' first
    | with_reducible assumption
    | with_reducible apply Kept.refl
    | with_reducible apply Kept.put
    | with_reducible apply Kept.setSwap
    | with_reducible apply State.loadFinish_kept
    | with_reducible apply Kept.ite
    | ((try lift_lets -underBinder); intro x; have hx : Kept false s₀ x := ?_; (on_goal 1 => clear_value x); (on_goal 2 => dsimp only [x]))
    | ((try lift_lets -underBinder); intro x; clear_value x)
    | split
    | (with_reducible apply Kept.upd; first | with_reducible assumption | with_reducible apply Kept.refl | with_reducible apply Kept.put | with_reducible apply Kept.setSwap | with_reducible apply State.loadFinish_kept)

theorem waitckpTimeout_kept {qt : Bool} {s₀ s : State} (h : Kept qt s₀ s) (n : Nat) : Kept qt s₀ (waitckpTimeout n s) := by
  unfold waitckpTimeout
  repeat' first
    | with_reducible assumption
    | with_reducible apply Kept.refl
    | with_reducible apply State.swapAbandon_kept
    | with_reducible apply Kept.ite
    | ((try lift_lets -underBinder); intro x; have hx : Kept qt s₀ x := ?_; (on_goal 1 => clear_value x); (on_goal 2 => dsimp only [x]))
    | ((try lift_lets -underBinder); intro x; clear_value x)
    | split

theorem shadowMismatch_kept {qt : Bool} {s₀ s : State} (h : Kept qt s₀ s) (n : Nat) : Kept qt s₀ (shadowMismatch n s) := by
  unfold shadowMismatch
  repeat' first
    | with_reducible assumption
    | with_reducible apply Kept.refl
    | with_reducible apply State.swapAbandon_kept
    | with_reducible apply Kept.ite
    | ((try lift_lets -underBinder); intro x; have hx : Kept qt s₀ x := ?_; (on_goal 1 => clear_value x); (on_goal 2 => dsimp only [x]))
    | ((try lift_lets -underBinder); intro x; clear_value x)
    | split

theorem swapSwitch_kept {qt : Bool} {s₀ s : State} (h : Kept qt s₀ s) (n : Nat) : Kept qt s₀ (swapSwitch n s) := by
  unfold swapSwitch
  repeat' first
    | with_reducible assumption
    | with_reducible apply Kept.refl
    | (with_reducible refine Kept.modChan ?_ _ ?_)
    | (with_reducible refine Kept.each ?_ _ (fun _ t _ => ?_))
    | with_reducible apply Kept.put
    | with_reducible apply Kept.setSwap
    | with_reducible apply Kept.ite
    | ((try lift_lets -underBinder); intro x; have hx : Kept qt s₀ x := ?_; (on_goal 1 => clear_value x); (on_goal 2 => dsimp only [x]))
    | ((try lift_lets -underBinder); intro x; clear_value x)
    | split
    | (with_reducible apply Kept.upd; first | with_reducible assumption | with_reducible apply Kept.refl | (with_reducible refine Kept.modChan ?_ _ ?_) | (with_reducible refine Kept.each ?_ _ (fun _ t _ => ?_)) | with_reducible apply Kept.put | with_reducible apply Kept.setSwap)
    | exact id
    | (intro x hx; exact hx)
    | (intro x hx; simp_all [PwmChan.oneSided])
    | (intro hx; simp_all [PwmChan.oneSided])

theorem swapRelease_kept {qt : Bool} {s₀ s : State} (h : Kept qt s₀ s) (n : Nat) : Kept qt s₀ (swapRelease n s) := by
  unfold swapRelease
  repeat' first
    | with_reducible assumption
    | with_reducible apply Kept.refl
    | with_reducible apply State.releaseSwap_kept
    | with_reducible apply Kept.ite
    | ((try lift_lets -underBinder); intro x; have hx : Kept qt s₀ x := ?_; (on_goal 1 => clear_value x); (on_goal 2 => dsimp only [x]))
    | ((try lift_lets -underBinder); intro x; clear_value x)
    | split

theorem unretire_kept {qt : Bool} {s₀ s : State} (h : Kept qt s₀ s) (e : Nat) : Kept qt s₀ (unretire e s) := by
  unfold unretire
  repeat' first
    | with_reducible assumption
    | with_reducible apply Kept.refl
    | with_reducible apply Kept.put
    | with_reducible apply Kept.modEngine
    | with_reducible apply Kept.ite
    | ((try lift_lets -underBinder); intro x; have hx : Kept qt s₀ x := ?_; (on_goal 1 => clear_value x); (on_goal 2 => dsimp only [x]))
    | ((try lift_lets -underBinder); intro x; clear_value x)
    | split
    | (with_reducible apply Kept.upd; first | with_reducible assumption | with_reducible apply Kept.refl | with_reducible apply Kept.put | with_reducible apply Kept.modEngine)

theorem retireAction_kept {qt : Bool} {s₀ s : State} (h : Kept qt s₀ s) (e : Nat) : Kept qt s₀ (retireAction e s) := by
  unfold retireAction
  repeat' first
    | with_reducible assumption
    | with_reducible apply Kept.refl
    | with_reducible apply Kept.put
    | with_reducible apply State.retire_kept
    | with_reducible apply Kept.ite
    | ((try lift_lets -underBinder); intro x; have hx : Kept qt s₀ x := ?_; (on_goal 1 => clear_value x); (on_goal 2 => dsimp only [x]))
    | ((try lift_lets -underBinder); intro x; clear_value x)
    | split

theorem retcmdWrite_kept {qt : Bool} {s₀ s : State} (h : Kept qt s₀ s) (v : Word) : Kept qt s₀ (retcmdWrite v s) := by
  unfold retcmdWrite
  repeat' first
    | with_reducible assumption
    | with_reducible apply Kept.refl
    | with_reducible apply Kept.put
    | with_reducible apply Kept.w1c
    | with_reducible apply unretire_kept
    | with_reducible apply retireAction_kept
    | with_reducible apply Kept.ite
    | ((try lift_lets -underBinder); intro x; have hx : Kept qt s₀ x := ?_; (on_goal 1 => clear_value x); (on_goal 2 => dsimp only [x]))
    | ((try lift_lets -underBinder); intro x; clear_value x)
    | split

theorem unretireDone_kept {s₀ s : State} (h : Kept false s₀ s) (e : Nat) : Kept false s₀ (unretireDone e s) := by
  unfold unretireDone
  repeat' first
    | with_reducible assumption
    | with_reducible apply Kept.refl
    | with_reducible apply Kept.wr
    | with_reducible apply Kept.put
    | with_reducible apply Kept.clearMem
    | with_reducible apply Kept.setEngine
    | with_reducible apply State.setRole_kept
    | with_reducible apply Kept.ite
    | ((try lift_lets -underBinder); intro x; have hx : Kept false s₀ x := ?_; (on_goal 1 => clear_value x); (on_goal 2 => dsimp only [x]))
    | ((try lift_lets -underBinder); intro x; clear_value x)
    | split

end Sys2Proof.Machine
end

