-- ==== Sys2Proof/Laws/KeepKondoethCompute.lean ====
section
/-! SUPPORT. What the operations of Machine/KondoethCompute.lean keep: one lemma per operation (Laws/Kept.lean). -/
namespace Sys2Proof.Machine
set_option linter.unusedTactic false
set_option linter.unreachableTactic false
set_option linter.unusedVariables false

theorem State.kstep_kept {qt : Bool} {s₀ s : State} (h : Kept qt s₀ s) (e : Nat) (sel : Word → Bool) {body : Word → Engine → State → State}
    (hb : ∀ w x t, Kept qt s₀ t → Kept qt s₀ (body w x t)) : Kept qt s₀ (State.kstep s e sel body) := by
  unfold State.kstep
  dsimp only
  repeat' first
    | with_reducible assumption
    | with_reducible apply hb
    | with_reducible apply Kept.setEngine
    | split

theorem State.kput_kept {qt : Bool} {s₀ s : State} (h : Kept qt s₀ s) (e : Nat) (x : Engine) (start occ : Nat) (results : List (Nat × Nat)) : Kept qt s₀ (State.kput s e x start occ results) := by
  unfold State.kput
  repeat' first
    | with_reducible assumption
    | with_reducible apply Kept.refl
    | with_reducible apply Kept.setEngine
    | with_reducible apply State.finish_kept
    | with_reducible apply Kept.ite
    | ((try lift_lets -underBinder); intro x; have hx : Kept qt s₀ x := ?_; (on_goal 1 => clear_value x); (on_goal 2 => dsimp only [x]))
    | ((try lift_lets -underBinder); intro x; clear_value x)

theorem State.intRow_kept {qt : Bool} {s₀ s : State} (h : Kept qt s₀ s) (e func imm lat : Nat) (sh : Bool) (f : Word → Word → Word) : Kept qt s₀ (State.intRow s e func imm lat sh f) := by
  unfold State.intRow
  repeat' first
    | with_reducible assumption
    | with_reducible apply Kept.refl
    | with_reducible apply State.engineTrap_kept
    | (with_reducible refine State.kstep_kept ?_ _ _ (fun _ _ t _ => ?_))
    | with_reducible apply State.kput_kept
    | with_reducible apply Kept.ite
    | ((try lift_lets -underBinder); intro x; have hx : Kept qt s₀ x := ?_; (on_goal 1 => clear_value x); (on_goal 2 => dsimp only [x]))
    | ((try lift_lets -underBinder); intro x; clear_value x)
    | split

theorem State.ldiRow_kept {qt : Bool} {s₀ s : State} (h : Kept qt s₀ s) (e h : Nat) : Kept qt s₀ (State.ldiRow s e h) := by
  unfold State.ldiRow
  repeat' first
    | with_reducible assumption
    | with_reducible apply Kept.refl
    | (with_reducible refine State.kstep_kept ?_ _ _ (fun _ _ t _ => ?_))
    | with_reducible apply State.kput_kept
    | with_reducible apply Kept.ite
    | ((try lift_lets -underBinder); intro x; have hx : Kept qt s₀ x := ?_; (on_goal 1 => clear_value x); (on_goal 2 => dsimp only [x]))
    | ((try lift_lets -underBinder); intro x; clear_value x)
    | split

theorem State.cmpRow_kept {qt : Bool} {s₀ s : State} (h : Kept qt s₀ s) (e : Nat) : Kept qt s₀ (State.cmpRow s e) := by
  unfold State.cmpRow
  repeat' first
    | with_reducible assumption
    | with_reducible apply Kept.refl
    | with_reducible apply State.engineTrap_kept
    | (with_reducible refine State.kstep_kept ?_ _ _ (fun _ _ t _ => ?_))
    | with_reducible apply State.kput_kept
    | with_reducible apply Kept.ite
    | ((try lift_lets -underBinder); intro x; have hx : Kept qt s₀ x := ?_; (on_goal 1 => clear_value x); (on_goal 2 => dsimp only [x]))
    | ((try lift_lets -underBinder); intro x; clear_value x)
    | split

theorem State.storePlace_kept {s₀ s : State} (h : Kept false s₀ s) (e : Nat) (v : Word) (p : Place) : Kept false s₀ (State.storePlace s e v p) := by
  unfold State.storePlace
  split
  · exact State.setDataWord_kept h _ _ _
  · exact h.wrMem _ _
  · exact h

theorem State.ldRow_kept {qt : Bool} {s₀ s : State} (h : Kept qt s₀ s) (e : Nat) : Kept qt s₀ (State.ldRow s e) := by
  unfold State.ldRow
  repeat' first
    | with_reducible assumption
    | with_reducible apply Kept.refl
    | with_reducible apply Kept.draw
    | with_reducible apply State.engineTrap_kept
    | (with_reducible refine State.kstep_kept ?_ _ _ (fun _ _ t _ => ?_))
    | with_reducible apply State.kput_kept
    | with_reducible apply Kept.ite
    | ((try lift_lets -underBinder); intro x; have hx : Kept qt s₀ x := ?_; (on_goal 1 => clear_value x); (on_goal 2 => dsimp only [x]))
    | ((try lift_lets -underBinder); intro x; clear_value x)
    | split

theorem State.stRow_kept {s₀ s : State} (h : Kept false s₀ s) (e : Nat) : Kept false s₀ (State.stRow s e) := by
  unfold State.stRow
  repeat' first
    | with_reducible assumption
    | with_reducible apply Kept.refl
    | with_reducible apply Kept.setEngine
    | with_reducible apply State.engineTrap_kept
    | (with_reducible refine State.kstep_kept ?_ _ _ (fun _ _ t _ => ?_))
    | with_reducible apply State.kput_kept
    | with_reducible apply State.storePlace_kept
    | with_reducible apply Kept.ite
    | ((try lift_lets -underBinder); intro x; have hx : Kept false s₀ x := ?_; (on_goal 1 => clear_value x); (on_goal 2 => dsimp only [x]))
    | ((try lift_lets -underBinder); intro x; clear_value x)
    | split

theorem State.bldRow_kept {qt : Bool} {s₀ s : State} (h : Kept qt s₀ s) (e : Nat) : Kept qt s₀ (State.bldRow s e) := by
  unfold State.bldRow
  repeat' first
    | with_reducible assumption
    | with_reducible apply Kept.refl
    | with_reducible apply Kept.draw
    | with_reducible apply State.engineTrap_kept
    | (with_reducible refine State.kstep_kept ?_ _ _ (fun _ _ t _ => ?_))
    | with_reducible apply State.kput_kept
    | with_reducible apply Kept.ite
    | ((try lift_lets -underBinder); intro x; have hx : Kept qt s₀ x := ?_; (on_goal 1 => clear_value x); (on_goal 2 => dsimp only [x]))
    | ((try lift_lets -underBinder); intro x; clear_value x)
    | split

theorem State.bstRow_kept {s₀ s : State} (h : Kept false s₀ s) (e : Nat) : Kept false s₀ (State.bstRow s e) := by
  unfold State.bstRow
  repeat' first
    | with_reducible assumption
    | with_reducible apply Kept.refl
    | (with_reducible refine Kept.each ?_ _ (fun _ t _ => ?_))
    | with_reducible apply Kept.draw
    | with_reducible apply Kept.setEngine
    | with_reducible apply State.engineTrap_kept
    | (with_reducible refine State.kstep_kept ?_ _ _ (fun _ _ t _ => ?_))
    | with_reducible apply State.kput_kept
    | with_reducible apply State.storePlace_kept
    | with_reducible apply Kept.ite
    | ((try lift_lets -underBinder); intro x; have hx : Kept false s₀ x := ?_; (on_goal 1 => clear_value x); (on_goal 2 => dsimp only [x]))
    | ((try lift_lets -underBinder); intro x; clear_value x)
    | split

theorem State.macRow_kept {qt : Bool} {s₀ s : State} (h : Kept qt s₀ s) (e op : Nat) (neg : Bool) : Kept qt s₀ (State.macRow s e op neg) := by
  unfold State.macRow
  repeat' first
    | with_reducible assumption
    | with_reducible apply Kept.refl
    | with_reducible apply State.engineTrap_kept
    | (with_reducible refine State.kstep_kept ?_ _ _ (fun _ _ t _ => ?_))
    | with_reducible apply State.kput_kept
    | with_reducible apply Kept.ite
    | ((try lift_lets -underBinder); intro x; have hx : Kept qt s₀ x := ?_; (on_goal 1 => clear_value x); (on_goal 2 => dsimp only [x]))
    | ((try lift_lets -underBinder); intro x; clear_value x)
    | split
    | (with_reducible apply Kept.upd; first | with_reducible assumption | with_reducible apply Kept.refl | with_reducible apply State.engineTrap_kept | (with_reducible refine State.kstep_kept ?_ _ _ (fun _ _ t _ => ?_)) | with_reducible apply State.kput_kept)

theorem State.baccRow_kept {qt : Bool} {s₀ s : State} (h : Kept qt s₀ s) (e : Nat) : Kept qt s₀ (State.baccRow s e) := by
  unfold State.baccRow
  repeat' first
    | with_reducible assumption
    | with_reducible apply Kept.refl
    | with_reducible apply State.engineTrap_kept
    | (with_reducible refine State.kstep_kept ?_ _ _ (fun _ _ t _ => ?_))
    | with_reducible apply State.kput_kept
    | with_reducible apply Kept.ite
    | ((try lift_lets -underBinder); intro x; have hx : Kept qt s₀ x := ?_; (on_goal 1 => clear_value x); (on_goal 2 => dsimp only [x]))
    | ((try lift_lets -underBinder); intro x; clear_value x)
    | split

theorem State.bnormRow_kept {qt : Bool} {s₀ s : State} (h : Kept qt s₀ s) (e : Nat) : Kept qt s₀ (State.bnormRow s e) := by
  unfold State.bnormRow
  repeat' first
    | with_reducible assumption
    | with_reducible apply Kept.refl
    | with_reducible apply State.engineTrap_kept
    | (with_reducible refine State.kstep_kept ?_ _ _ (fun _ _ t _ => ?_))
    | with_reducible apply State.kput_kept
    | with_reducible apply Kept.ite
    | ((try lift_lets -underBinder); intro x; have hx : Kept qt s₀ x := ?_; (on_goal 1 => clear_value x); (on_goal 2 => dsimp only [x]))
    | ((try lift_lets -underBinder); intro x; clear_value x)
    | split

theorem State.bscaleRow_kept {qt : Bool} {s₀ s : State} (h : Kept qt s₀ s) (e : Nat) : Kept qt s₀ (State.bscaleRow s e) := by
  unfold State.bscaleRow
  repeat' first
    | with_reducible assumption
    | with_reducible apply Kept.refl
    | with_reducible apply State.engineTrap_kept
    | (with_reducible refine State.kstep_kept ?_ _ _ (fun _ _ t _ => ?_))
    | with_reducible apply State.kput_kept
    | with_reducible apply Kept.ite
    | ((try lift_lets -underBinder); intro x; have hx : Kept qt s₀ x := ?_; (on_goal 1 => clear_value x); (on_goal 2 => dsimp only [x]))
    | ((try lift_lets -underBinder); intro x; clear_value x)
    | split

theorem State.bsatRow_kept {qt : Bool} {s₀ s : State} (h : Kept qt s₀ s) (e : Nat) (vec : Bool) : Kept qt s₀ (State.bsatRow s e vec) := by
  unfold State.bsatRow
  repeat' first
    | with_reducible assumption
    | with_reducible apply Kept.refl
    | with_reducible apply State.engineTrap_kept
    | (with_reducible refine State.kstep_kept ?_ _ _ (fun _ _ t _ => ?_))
    | with_reducible apply State.kput_kept
    | with_reducible apply Kept.ite
    | ((try lift_lets -underBinder); intro x; have hx : Kept qt s₀ x := ?_; (on_goal 1 => clear_value x); (on_goal 2 => dsimp only [x]))
    | ((try lift_lets -underBinder); intro x; clear_value x)
    | split
    | (with_reducible apply Kept.upd; first | with_reducible assumption | with_reducible apply Kept.refl | with_reducible apply State.engineTrap_kept | (with_reducible refine State.kstep_kept ?_ _ _ (fun _ _ t _ => ?_)) | with_reducible apply State.kput_kept)

theorem State.bintRow_kept {qt : Bool} {s₀ s : State} (h : Kept qt s₀ s) (e : Nat) : Kept qt s₀ (State.bintRow s e) := by
  unfold State.bintRow
  repeat' first
    | with_reducible assumption
    | with_reducible apply Kept.refl
    | with_reducible apply State.engineTrap_kept
    | (with_reducible refine State.kstep_kept ?_ _ _ (fun _ _ t _ => ?_))
    | with_reducible apply State.kput_kept
    | with_reducible apply Kept.ite
    | ((try lift_lets -underBinder); intro x; have hx : Kept qt s₀ x := ?_; (on_goal 1 => clear_value x); (on_goal 2 => dsimp only [x]))
    | ((try lift_lets -underBinder); intro x; clear_value x)
    | split

theorem State.bcvtRow_kept {qt : Bool} {s₀ s : State} (h : Kept qt s₀ s) (e : Nat) : Kept qt s₀ (State.bcvtRow s e) := by
  unfold State.bcvtRow
  repeat' first
    | with_reducible assumption
    | with_reducible apply Kept.refl
    | with_reducible apply State.engineTrap_kept
    | (with_reducible refine State.kstep_kept ?_ _ _ (fun _ _ t _ => ?_))
    | with_reducible apply State.kput_kept
    | with_reducible apply Kept.ite
    | ((try lift_lets -underBinder); intro x; have hx : Kept qt s₀ x := ?_; (on_goal 1 => clear_value x); (on_goal 2 => dsimp only [x]))
    | ((try lift_lets -underBinder); intro x; clear_value x)
    | split
    | (with_reducible apply Kept.upd; first | with_reducible assumption | with_reducible apply Kept.refl | with_reducible apply State.engineTrap_kept | (with_reducible refine State.kstep_kept ?_ _ _ (fun _ _ t _ => ?_)) | with_reducible apply State.kput_kept)

theorem State.sincosRow_kept {qt : Bool} {s₀ s : State} (h : Kept qt s₀ s) (e : Nat) : Kept qt s₀ (State.sincosRow s e) := by
  unfold State.sincosRow
  repeat' first
    | with_reducible assumption
    | with_reducible apply Kept.refl
    | with_reducible apply State.engineTrap_kept
    | (with_reducible refine State.kstep_kept ?_ _ _ (fun _ _ t _ => ?_))
    | with_reducible apply State.kput_kept
    | with_reducible apply Kept.ite
    | ((try lift_lets -underBinder); intro x; have hx : Kept qt s₀ x := ?_; (on_goal 1 => clear_value x); (on_goal 2 => dsimp only [x]))
    | ((try lift_lets -underBinder); intro x; clear_value x)
    | split

theorem State.atan2Row_kept {qt : Bool} {s₀ s : State} (h : Kept qt s₀ s) (e : Nat) : Kept qt s₀ (State.atan2Row s e) := by
  unfold State.atan2Row
  repeat' first
    | with_reducible assumption
    | with_reducible apply Kept.refl
    | with_reducible apply State.engineTrap_kept
    | (with_reducible refine State.kstep_kept ?_ _ _ (fun _ _ t _ => ?_))
    | with_reducible apply State.kput_kept
    | with_reducible apply Kept.ite
    | ((try lift_lets -underBinder); intro x; have hx : Kept qt s₀ x := ?_; (on_goal 1 => clear_value x); (on_goal 2 => dsimp only [x]))
    | ((try lift_lets -underBinder); intro x; clear_value x)
    | split
    | (with_reducible apply Kept.upd; first | with_reducible assumption | with_reducible apply Kept.refl | with_reducible apply State.engineTrap_kept | (with_reducible refine State.kstep_kept ?_ _ _ (fun _ _ t _ => ?_)) | with_reducible apply State.kput_kept)

theorem State.sqrtRow_kept {qt : Bool} {s₀ s : State} (h : Kept qt s₀ s) (e : Nat) : Kept qt s₀ (State.sqrtRow s e) := by
  unfold State.sqrtRow
  repeat' first
    | with_reducible assumption
    | with_reducible apply Kept.refl
    | with_reducible apply State.engineTrap_kept
    | (with_reducible refine State.kstep_kept ?_ _ _ (fun _ _ t _ => ?_))
    | with_reducible apply State.kput_kept
    | with_reducible apply Kept.ite
    | ((try lift_lets -underBinder); intro x; have hx : Kept qt s₀ x := ?_; (on_goal 1 => clear_value x); (on_goal 2 => dsimp only [x]))
    | ((try lift_lets -underBinder); intro x; clear_value x)
    | split
    | (with_reducible apply Kept.upd; first | with_reducible assumption | with_reducible apply Kept.refl | with_reducible apply State.engineTrap_kept | (with_reducible refine State.kstep_kept ?_ _ _ (fun _ _ t _ => ?_)) | with_reducible apply State.kput_kept)

theorem State.rcpRow_kept {qt : Bool} {s₀ s : State} (h : Kept qt s₀ s) (e : Nat) : Kept qt s₀ (State.rcpRow s e) := by
  unfold State.rcpRow
  repeat' first
    | with_reducible assumption
    | with_reducible apply Kept.refl
    | with_reducible apply State.engineTrap_kept
    | (with_reducible refine State.kstep_kept ?_ _ _ (fun _ _ t _ => ?_))
    | with_reducible apply State.kput_kept
    | with_reducible apply Kept.ite
    | ((try lift_lets -underBinder); intro x; have hx : Kept qt s₀ x := ?_; (on_goal 1 => clear_value x); (on_goal 2 => dsimp only [x]))
    | ((try lift_lets -underBinder); intro x; clear_value x)
    | split

theorem State.brRow_kept {qt : Bool} {s₀ s : State} (h : Kept qt s₀ s) (e : Nat) : Kept qt s₀ (State.brRow s e) := by
  unfold State.brRow
  repeat' first
    | with_reducible assumption
    | with_reducible apply Kept.refl
    | with_reducible apply Kept.setEngine
    | with_reducible apply State.engineTrap_kept
    | (with_reducible refine State.kstep_kept ?_ _ _ (fun _ _ t _ => ?_))
    | with_reducible apply Kept.ite
    | ((try lift_lets -underBinder); intro x; have hx : Kept qt s₀ x := ?_; (on_goal 1 => clear_value x); (on_goal 2 => dsimp only [x]))
    | ((try lift_lets -underBinder); intro x; clear_value x)
    | split

theorem State.callRow_kept {qt : Bool} {s₀ s : State} (h : Kept qt s₀ s) (e : Nat) : Kept qt s₀ (State.callRow s e) := by
  unfold State.callRow
  repeat' first
    | with_reducible assumption
    | with_reducible apply Kept.refl
    | with_reducible apply Kept.setEngine
    | with_reducible apply State.engineTrap_kept
    | (with_reducible refine State.kstep_kept ?_ _ _ (fun _ _ t _ => ?_))
    | with_reducible apply Kept.ite
    | ((try lift_lets -underBinder); intro x; have hx : Kept qt s₀ x := ?_; (on_goal 1 => clear_value x); (on_goal 2 => dsimp only [x]))
    | ((try lift_lets -underBinder); intro x; clear_value x)
    | split
    | (with_reducible apply Kept.upd; first | with_reducible assumption | with_reducible apply Kept.refl | with_reducible apply Kept.setEngine | with_reducible apply State.engineTrap_kept | (with_reducible refine State.kstep_kept ?_ _ _ (fun _ _ t _ => ?_)))

theorem State.retRow_kept {qt : Bool} {s₀ s : State} (h : Kept qt s₀ s) (e : Nat) : Kept qt s₀ (State.retRow s e) := by
  unfold State.retRow
  repeat' first
    | with_reducible assumption
    | with_reducible apply Kept.refl
    | with_reducible apply Kept.setEngine
    | with_reducible apply State.engineTrap_kept
    | (with_reducible refine State.kstep_kept ?_ _ _ (fun _ _ t _ => ?_))
    | with_reducible apply Kept.ite
    | ((try lift_lets -underBinder); intro x; have hx : Kept qt s₀ x := ?_; (on_goal 1 => clear_value x); (on_goal 2 => dsimp only [x]))
    | ((try lift_lets -underBinder); intro x; clear_value x)
    | split
    | (with_reducible apply Kept.upd; first | with_reducible assumption | with_reducible apply Kept.refl | with_reducible apply Kept.setEngine | with_reducible apply State.engineTrap_kept | (with_reducible refine State.kstep_kept ?_ _ _ (fun _ _ t _ => ?_)))

theorem State.loopRow_kept {qt : Bool} {s₀ s : State} (h : Kept qt s₀ s) (e : Nat) : Kept qt s₀ (State.loopRow s e) := by
  unfold State.loopRow
  repeat' first
    | with_reducible assumption
    | with_reducible apply Kept.refl
    | with_reducible apply Kept.setEngine
    | with_reducible apply State.engineTrap_kept
    | (with_reducible refine State.kstep_kept ?_ _ _ (fun _ _ t _ => ?_))
    | with_reducible apply Kept.ite
    | ((try lift_lets -underBinder); intro x; have hx : Kept qt s₀ x := ?_; (on_goal 1 => clear_value x); (on_goal 2 => dsimp only [x]))
    | ((try lift_lets -underBinder); intro x; clear_value x)
    | split
    | (with_reducible apply Kept.upd; first | with_reducible assumption | with_reducible apply Kept.refl | with_reducible apply Kept.setEngine | with_reducible apply State.engineTrap_kept | (with_reducible refine State.kstep_kept ?_ _ _ (fun _ _ t _ => ?_)))

theorem State.waitRow_kept {s₀ s : State} (h : Kept false s₀ s) (e : Nat) : Kept false s₀ (State.waitRow s e) := by
  unfold State.waitRow
  repeat' first
    | with_reducible assumption
    | with_reducible apply Kept.refl
    | with_reducible apply Kept.setEngine
    | with_reducible apply State.finish_kept
    | with_reducible apply State.engineTrap_kept
    | with_reducible apply State.endPass_kept
    | (with_reducible refine State.kstep_kept ?_ _ _ (fun _ _ t _ => ?_))
    | with_reducible apply Kept.ite
    | ((try lift_lets -underBinder); intro x; have hx : Kept false s₀ x := ?_; (on_goal 1 => clear_value x); (on_goal 2 => dsimp only [x]))
    | ((try lift_lets -underBinder); intro x; clear_value x)
    | split

theorem State.haltRow_kept {qt : Bool} {s₀ s : State} (h : Kept qt s₀ s) (e : Nat) : Kept qt s₀ (State.haltRow s e) := by
  unfold State.haltRow
  repeat' first
    | with_reducible assumption
    | with_reducible apply Kept.refl
    | with_reducible apply Kept.setEngine
    | with_reducible apply State.engineIdle_kept
    | with_reducible apply State.engineTrap_kept
    | (with_reducible refine State.kstep_kept ?_ _ _ (fun _ _ t _ => ?_))
    | with_reducible apply Kept.ite
    | ((try lift_lets -underBinder); intro x; have hx : Kept qt s₀ x := ?_; (on_goal 1 => clear_value x); (on_goal 2 => dsimp only [x]))
    | ((try lift_lets -underBinder); intro x; clear_value x)
    | split
    | (with_reducible apply Kept.upd; first | with_reducible assumption | with_reducible apply Kept.refl | with_reducible apply Kept.setEngine | with_reducible apply State.engineIdle_kept | with_reducible apply State.engineTrap_kept | (with_reducible refine State.kstep_kept ?_ _ _ (fun _ _ t _ => ?_)))

theorem State.trapRow_kept {qt : Bool} {s₀ s : State} (h : Kept qt s₀ s) (e : Nat) : Kept qt s₀ (State.trapRow s e) := by
  unfold State.trapRow
  repeat' first
    | with_reducible assumption
    | with_reducible apply Kept.refl
    | with_reducible apply State.engineTrap_kept
    | (with_reducible refine State.kstep_kept ?_ _ _ (fun _ _ t _ => ?_))
    | with_reducible apply Kept.ite
    | ((try lift_lets -underBinder); intro x; have hx : Kept qt s₀ x := ?_; (on_goal 1 => clear_value x); (on_goal 2 => dsimp only [x]))
    | ((try lift_lets -underBinder); intro x; clear_value x)
    | split

end Sys2Proof.Machine
end

