-- ==== Sys2Proof/Laws/KeepKondoethIo.lean ====
section
/-! SUPPORT. What the operations of Machine/KondoethIo.lean keep: one lemma per operation (Laws/Kept.lean). -/
namespace Sys2Proof.Machine
set_option linter.unusedTactic false
set_option linter.unreachableTactic false
set_option linter.unusedVariables false

theorem State.rdiRow_kept {qt : Bool} {s₀ s : State} (h : Kept qt s₀ s) (e f : Nat) : Kept qt s₀ (State.rdiRow s e f) := by
  unfold State.rdiRow
  repeat' first
    | with_reducible assumption
    | with_reducible apply Kept.refl
    | with_reducible apply State.engineTrap_kept
    | (with_reducible refine State.kstep_kept ?_ _ _ (fun _ _ t _ => ?_))
    | with_reducible apply State.kput_kept
    | with_reducible apply Kept.ite
    | ((try lift_lets -underBinder); intro x; have hx : Kept qt s₀ x := ?_; (on_goal 1 => clear_value x); (on_goal 2 => dsimp only [x]))
    | ((try lift_lets -underBinder); intro x; clear_value x)
    | split

theorem State.rdvRow_kept {qt : Bool} {s₀ s : State} (h : Kept qt s₀ s) (e : Nat) : Kept qt s₀ (State.rdvRow s e) := by
  unfold State.rdvRow
  repeat' first
    | with_reducible assumption
    | with_reducible apply Kept.refl
    | with_reducible apply State.engineTrap_kept
    | (with_reducible refine State.kstep_kept ?_ _ _ (fun _ _ t _ => ?_))
    | with_reducible apply State.kput_kept
    | with_reducible apply Kept.ite
    | ((try lift_lets -underBinder); intro x; have hx : Kept qt s₀ x := ?_; (on_goal 1 => clear_value x); (on_goal 2 => dsimp only [x]))
    | ((try lift_lets -underBinder); intro x; clear_value x)
    | split

theorem State.rdfRow_kept {qt : Bool} {s₀ s : State} (h : Kept qt s₀ s) (e : Nat) : Kept qt s₀ (State.rdfRow s e) := by
  unfold State.rdfRow
  repeat' first
    | with_reducible assumption
    | with_reducible apply Kept.refl
    | with_reducible apply State.engineTrap_kept
    | (with_reducible refine State.kstep_kept ?_ _ _ (fun _ _ t _ => ?_))
    | with_reducible apply State.kput_kept
    | with_reducible apply Kept.ite
    | ((try lift_lets -underBinder); intro x; have hx : Kept qt s₀ x := ?_; (on_goal 1 => clear_value x); (on_goal 2 => dsimp only [x]))
    | ((try lift_lets -underBinder); intro x; clear_value x)
    | split

theorem State.posRow_kept {qt : Bool} {s₀ s : State} (h : Kept qt s₀ s) (e : Nat) : Kept qt s₀ (State.posRow s e) := by
  unfold State.posRow
  repeat' first
    | with_reducible assumption
    | with_reducible apply Kept.refl
    | with_reducible apply State.engineTrap_kept
    | (with_reducible refine State.kstep_kept ?_ _ _ (fun _ _ t _ => ?_))
    | with_reducible apply State.kput_kept
    | with_reducible apply Kept.ite
    | ((try lift_lets -underBinder); intro x; have hx : Kept qt s₀ x := ?_; (on_goal 1 => clear_value x); (on_goal 2 => dsimp only [x]))
    | ((try lift_lets -underBinder); intro x; clear_value x)
    | split

theorem State.pitRow_kept {qt : Bool} {s₀ s : State} (h : Kept qt s₀ s) (e : Nat) : Kept qt s₀ (State.pitRow s e) := by
  unfold State.pitRow
  repeat' first
    | with_reducible assumption
    | with_reducible apply Kept.refl
    | with_reducible apply State.offerPitch_kept
    | with_reducible apply State.engineTrap_kept
    | (with_reducible refine State.kstep_kept ?_ _ _ (fun _ _ t _ => ?_))
    | with_reducible apply State.kput_kept
    | with_reducible apply Kept.ite
    | ((try lift_lets -underBinder); intro x; have hx : Kept qt s₀ x := ?_; (on_goal 1 => clear_value x); (on_goal 2 => dsimp only [x]))
    | ((try lift_lets -underBinder); intro x; clear_value x)
    | split
    | (rename_i heq; have e := congrArg Prod.fst heq; dsimp only at e ⊢; rw [← e]; apply State.offerPitch_kept; assumption)

theorem State.pitLvlRow_kept {qt : Bool} {s₀ s : State} (h : Kept qt s₀ s) (e : Nat) : Kept qt s₀ (State.pitLvlRow s e) := by
  unfold State.pitLvlRow
  repeat' first
    | with_reducible assumption
    | with_reducible apply Kept.refl
    | with_reducible apply State.engineTrap_kept
    | (with_reducible refine State.kstep_kept ?_ _ _ (fun _ _ t _ => ?_))
    | with_reducible apply State.kput_kept
    | with_reducible apply Kept.ite
    | ((try lift_lets -underBinder); intro x; have hx : Kept qt s₀ x := ?_; (on_goal 1 => clear_value x); (on_goal 2 => dsimp only [x]))
    | ((try lift_lets -underBinder); intro x; clear_value x)
    | split

theorem State.takeRequests_kept {qt : Bool} {s₀ s : State} (h : Kept qt s₀ s) (l : List (Nat × Nat × Nat)) : Kept qt s₀ (State.takeRequests s l) := by
  unfold State.takeRequests
  repeat' first
    | with_reducible assumption
    | with_reducible apply Kept.refl
    | (with_reducible refine Kept.modChan ?_ _ ?_)
    | (with_reducible refine Kept.each ?_ _ (fun _ t _ => ?_))
    | with_reducible apply Kept.put
    | with_reducible apply Kept.ite
    | ((try lift_lets -underBinder); intro x; have hx : Kept qt s₀ x := ?_; (on_goal 1 => clear_value x); (on_goal 2 => dsimp only [x]))
    | ((try lift_lets -underBinder); intro x; clear_value x)
    | split
    | (with_reducible apply Kept.upd; first | with_reducible assumption | with_reducible apply Kept.refl | (with_reducible refine Kept.modChan ?_ _ ?_) | (with_reducible refine Kept.each ?_ _ (fun _ t _ => ?_)) | with_reducible apply Kept.put)
    | exact id
    | (intro x hx; exact hx)
    | (intro x hx; simp_all [PwmChan.oneSided])
    | (intro hx; simp_all [PwmChan.oneSided])

theorem State.wrvRow_kept {qt : Bool} {s₀ s : State} (h : Kept qt s₀ s) (e : Nat) : Kept qt s₀ (State.wrvRow s e) := by
  unfold State.wrvRow
  repeat' first
    | with_reducible assumption
    | with_reducible apply Kept.refl
    | with_reducible apply Kept.flag
    | with_reducible apply Kept.modCc
    | with_reducible apply Kept.modSwap
    | with_reducible apply State.swapOutput_kept
    | with_reducible apply State.engineTrap_kept
    | (with_reducible refine State.kstep_kept ?_ _ _ (fun _ _ t _ => ?_))
    | with_reducible apply State.kput_kept
    | with_reducible apply State.takeRequests_kept
    | with_reducible apply Kept.ite
    | ((try lift_lets -underBinder); intro x; have hx : Kept qt s₀ x := ?_; (on_goal 1 => clear_value x); (on_goal 2 => dsimp only [x]))
    | ((try lift_lets -underBinder); intro x; clear_value x)
    | split
    | (with_reducible apply Kept.upd; first | with_reducible assumption | with_reducible apply Kept.refl | with_reducible apply Kept.flag | with_reducible apply Kept.modCc | with_reducible apply Kept.modSwap | with_reducible apply State.swapOutput_kept | with_reducible apply State.engineTrap_kept | (with_reducible refine State.kstep_kept ?_ _ _ (fun _ _ t _ => ?_)) | with_reducible apply State.kput_kept | with_reducible apply State.takeRequests_kept)

theorem State.wraRow_kept {qt : Bool} {s₀ s : State} (h : Kept qt s₀ s) (e : Nat) : Kept qt s₀ (State.wraRow s e) := by
  unfold State.wraRow
  repeat' first
    | with_reducible assumption
    | with_reducible apply Kept.refl
    | with_reducible apply State.engineTrap_kept
    | (with_reducible refine State.kstep_kept ?_ _ _ (fun _ _ t _ => ?_))
    | with_reducible apply State.kput_kept
    | with_reducible apply Kept.ite
    | ((try lift_lets -underBinder); intro x; have hx : Kept qt s₀ x := ?_; (on_goal 1 => clear_value x); (on_goal 2 => dsimp only [x]))
    | ((try lift_lets -underBinder); intro x; clear_value x)
    | split
    | (with_reducible apply Kept.upd; first | with_reducible assumption | with_reducible apply Kept.refl | with_reducible apply State.engineTrap_kept | (with_reducible refine State.kstep_kept ?_ _ _ (fun _ _ t _ => ?_)) | with_reducible apply State.kput_kept)

theorem State.capRow_kept {qt : Bool} {s₀ s : State} (h : Kept qt s₀ s) (e : Nat) : Kept qt s₀ (State.capRow s e) := by
  unfold State.capRow
  repeat' first
    | with_reducible assumption
    | with_reducible apply Kept.refl
    | with_reducible apply State.engineTrap_kept
    | (with_reducible refine State.kstep_kept ?_ _ _ (fun _ _ t _ => ?_))
    | with_reducible apply State.kput_kept
    | with_reducible apply Kept.ite
    | ((try lift_lets -underBinder); intro x; have hx : Kept qt s₀ x := ?_; (on_goal 1 => clear_value x); (on_goal 2 => dsimp only [x]))
    | ((try lift_lets -underBinder); intro x; clear_value x)
    | split
    | (with_reducible apply Kept.upd; first | with_reducible assumption | with_reducible apply Kept.refl | with_reducible apply State.engineTrap_kept | (with_reducible refine State.kstep_kept ?_ _ _ (fun _ _ t _ => ?_)) | with_reducible apply State.kput_kept)

theorem State.traceEntry_kept {qt : Bool} {s₀ s : State} (h : Kept qt s₀ s) (e : Nat) (v : Word) (node : Nat) : Kept qt s₀ (State.traceEntry s e v node) := by
  unfold State.traceEntry
  repeat' first
    | with_reducible assumption
    | with_reducible apply Kept.refl
    | with_reducible apply Kept.put
    | with_reducible apply Kept.setEngine
    | with_reducible apply Kept.ite
    | ((try lift_lets -underBinder); intro x; have hx : Kept qt s₀ x := ?_; (on_goal 1 => clear_value x); (on_goal 2 => dsimp only [x]))
    | ((try lift_lets -underBinder); intro x; clear_value x)
    | split
    | (with_reducible apply Kept.upd; first | with_reducible assumption | with_reducible apply Kept.refl | with_reducible apply Kept.put | with_reducible apply Kept.setEngine)

theorem State.trcRow_kept {qt : Bool} {s₀ s : State} (h : Kept qt s₀ s) (e : Nat) : Kept qt s₀ (State.trcRow s e) := by
  unfold State.trcRow
  repeat' first
    | with_reducible assumption
    | with_reducible apply Kept.refl
    | with_reducible apply Kept.setEngine
    | with_reducible apply State.traceTrigger_kept
    | with_reducible apply State.engineTrap_kept
    | (with_reducible refine State.kstep_kept ?_ _ _ (fun _ _ t _ => ?_))
    | with_reducible apply State.kput_kept
    | with_reducible apply State.traceEntry_kept
    | with_reducible apply Kept.ite
    | ((try lift_lets -underBinder); intro x; have hx : Kept qt s₀ x := ?_; (on_goal 1 => clear_value x); (on_goal 2 => dsimp only [x]))
    | ((try lift_lets -underBinder); intro x; clear_value x)
    | split

theorem State.fltRow_kept {qt : Bool} {s₀ s : State} (h : Kept qt s₀ s) (e : Nat) : Kept qt s₀ (State.fltRow s e) := by
  unfold State.fltRow
  repeat' first
    | with_reducible assumption
    | with_reducible apply Kept.refl
    | with_reducible apply State.raise_kept
    | with_reducible apply State.engineTrap_kept
    | (with_reducible refine State.kstep_kept ?_ _ _ (fun _ _ t _ => ?_))
    | with_reducible apply State.kput_kept
    | with_reducible apply Kept.ite
    | ((try lift_lets -underBinder); intro x; have hx : Kept qt s₀ x := ?_; (on_goal 1 => clear_value x); (on_goal 2 => dsimp only [x]))
    | ((try lift_lets -underBinder); intro x; clear_value x)
    | split

theorem State.evtRow_kept {qt : Bool} {s₀ s : State} (h : Kept qt s₀ s) (e : Nat) : Kept qt s₀ (State.evtRow s e) := by
  unfold State.evtRow
  repeat' first
    | with_reducible assumption
    | with_reducible apply Kept.refl
    | with_reducible apply Kept.setEngine
    | with_reducible apply State.offer_kept
    | with_reducible apply State.traceTrigger_kept
    | with_reducible apply State.hkcSignal_kept
    | with_reducible apply State.engineTrap_kept
    | (with_reducible refine State.kstep_kept ?_ _ _ (fun _ _ t _ => ?_))
    | with_reducible apply State.kput_kept
    | with_reducible apply Kept.ite
    | ((try lift_lets -underBinder); intro x; have hx : Kept qt s₀ x := ?_; (on_goal 1 => clear_value x); (on_goal 2 => dsimp only [x]))
    | ((try lift_lets -underBinder); intro x; clear_value x)
    | split
    | (with_reducible apply Kept.upd; first | with_reducible assumption | with_reducible apply Kept.refl | with_reducible apply Kept.setEngine | with_reducible apply State.offer_kept | with_reducible apply State.traceTrigger_kept | with_reducible apply State.hkcSignal_kept | with_reducible apply State.engineTrap_kept | (with_reducible refine State.kstep_kept ?_ _ _ (fun _ _ t _ => ?_)) | with_reducible apply State.kput_kept)

theorem State.sgnRow_kept {qt : Bool} {s₀ s : State} (h : Kept qt s₀ s) (e : Nat) : Kept qt s₀ (State.sgnRow s e) := by
  unfold State.sgnRow
  repeat' first
    | with_reducible assumption
    | with_reducible apply Kept.refl
    | with_reducible apply State.swapOutput_kept
    | with_reducible apply State.engineTrap_kept
    | (with_reducible refine State.kstep_kept ?_ _ _ (fun _ _ t _ => ?_))
    | with_reducible apply State.kput_kept
    | with_reducible apply Kept.ite
    | ((try lift_lets -underBinder); intro x; have hx : Kept qt s₀ x := ?_; (on_goal 1 => clear_value x); (on_goal 2 => dsimp only [x]))
    | ((try lift_lets -underBinder); intro x; clear_value x)
    | split
    | (with_reducible apply Kept.upd; first | with_reducible assumption | with_reducible apply Kept.refl | with_reducible apply State.swapOutput_kept | with_reducible apply State.engineTrap_kept | (with_reducible refine State.kstep_kept ?_ _ _ (fun _ _ t _ => ?_)) | with_reducible apply State.kput_kept)

theorem State.sgnrRow_kept {s₀ s : State} (h : Kept false s₀ s) (e : Nat) : Kept false s₀ (State.sgnrRow s e) := by
  unfold State.sgnrRow
  repeat' first
    | with_reducible assumption
    | with_reducible apply Kept.refl
    | (with_reducible refine Kept.each ?_ _ (fun _ t _ => ?_))
    | with_reducible apply Kept.setEngine
    | with_reducible apply State.engineTrap_kept
    | (with_reducible refine State.kstep_kept ?_ _ _ (fun _ _ t _ => ?_))
    | with_reducible apply State.kput_kept
    | with_reducible apply State.storePlace_kept
    | with_reducible apply Kept.ite
    | ((try lift_lets -underBinder); intro x; have hx : Kept false s₀ x := ?_; (on_goal 1 => clear_value x); (on_goal 2 => dsimp only [x]))
    | ((try lift_lets -underBinder); intro x; clear_value x)
    | split

theorem mailboxDelivery_kept {qt : Bool} {s₀ s : State} (h : Kept qt s₀ s) (e : Nat) : Kept qt s₀ (mailboxDelivery e s) := by
  unfold mailboxDelivery
  repeat' first
    | with_reducible assumption
    | with_reducible apply Kept.refl
    | (with_reducible refine Kept.each ?_ _ (fun _ t _ => ?_))
    | with_reducible apply Kept.modEngine
    | with_reducible apply Kept.ite
    | ((try lift_lets -underBinder); intro x; have hx : Kept qt s₀ x := ?_; (on_goal 1 => clear_value x); (on_goal 2 => dsimp only [x]))
    | ((try lift_lets -underBinder); intro x; clear_value x)
    | split
    | (with_reducible apply Kept.upd; first | with_reducible assumption | with_reducible apply Kept.refl | (with_reducible refine Kept.each ?_ _ (fun _ t _ => ?_)) | with_reducible apply Kept.modEngine)

theorem State.ckpRow_kept {s₀ s : State} (h : Kept false s₀ s) (e : Nat) : Kept false s₀ (State.ckpRow s e) := by
  unfold State.ckpRow
  repeat' first
    | with_reducible assumption
    | with_reducible apply Kept.refl
    | with_reducible apply Kept.wrMems
    | with_reducible apply Kept.setCkp
    | with_reducible apply State.ckpCommit_kept
    | with_reducible apply State.engineTrap_kept
    | (with_reducible refine State.kstep_kept ?_ _ _ (fun _ _ t _ => ?_))
    | with_reducible apply State.kput_kept
    | with_reducible apply Kept.ite
    | ((try lift_lets -underBinder); intro x; have hx : Kept false s₀ x := ?_; (on_goal 1 => clear_value x); (on_goal 2 => dsimp only [x]))
    | ((try lift_lets -underBinder); intro x; clear_value x)
    | split
    | (with_reducible apply Kept.upd; first | with_reducible assumption | with_reducible apply Kept.refl | with_reducible apply Kept.wrMems | with_reducible apply Kept.setCkp | with_reducible apply State.ckpCommit_kept | with_reducible apply State.engineTrap_kept | (with_reducible refine State.kstep_kept ?_ _ _ (fun _ _ t _ => ?_)) | with_reducible apply State.kput_kept)

theorem State.mfsRow_kept {qt : Bool} {s₀ s : State} (h : Kept qt s₀ s) (e : Nat) : Kept qt s₀ (State.mfsRow s e) := by
  unfold State.mfsRow
  repeat' first
    | with_reducible assumption
    | with_reducible apply Kept.refl
    | with_reducible apply State.engineTrap_kept
    | (with_reducible refine State.kstep_kept ?_ _ _ (fun _ _ t _ => ?_))
    | with_reducible apply State.kput_kept
    | with_reducible apply Kept.ite
    | ((try lift_lets -underBinder); intro x; have hx : Kept qt s₀ x := ?_; (on_goal 1 => clear_value x); (on_goal 2 => dsimp only [x]))
    | ((try lift_lets -underBinder); intro x; clear_value x)
    | split
    | (with_reducible apply Kept.upd; first | with_reducible assumption | with_reducible apply Kept.refl | with_reducible apply State.engineTrap_kept | (with_reducible refine State.kstep_kept ?_ _ _ (fun _ _ t _ => ?_)) | with_reducible apply State.kput_kept)

theorem State.mtsRow_kept {qt : Bool} {s₀ s : State} (h : Kept qt s₀ s) (e : Nat) : Kept qt s₀ (State.mtsRow s e) := by
  unfold State.mtsRow
  repeat' first
    | with_reducible assumption
    | with_reducible apply Kept.refl
    | with_reducible apply State.engineTrap_kept
    | (with_reducible refine State.kstep_kept ?_ _ _ (fun _ _ t _ => ?_))
    | with_reducible apply State.kput_kept
    | with_reducible apply Kept.ite
    | ((try lift_lets -underBinder); intro x; have hx : Kept qt s₀ x := ?_; (on_goal 1 => clear_value x); (on_goal 2 => dsimp only [x]))
    | ((try lift_lets -underBinder); intro x; clear_value x)
    | split
    | (with_reducible apply Kept.upd; first | with_reducible assumption | with_reducible apply Kept.refl | with_reducible apply State.engineTrap_kept | (with_reducible refine State.kstep_kept ?_ _ _ (fun _ _ t _ => ?_)) | with_reducible apply State.kput_kept)

end Sys2Proof.Machine
end

