-- ==== Sys2Proof/Laws/KeepFabric.lean ====
section
/-! SUPPORT. What the operations of Machine/Fabric.lean keep: one lemma per operation (Laws/Kept.lean). -/
namespace Sys2Proof.Machine
set_option linter.unusedTactic false
set_option linter.unreachableTactic false
set_option linter.unusedVariables false

theorem State.releaseEngines_kept {qt : Bool} {s₀ s : State} (h : Kept qt s₀ s) (n : Nat) : Kept qt s₀ (State.releaseEngines s n) := by
  unfold State.releaseEngines
  repeat' first
    | with_reducible assumption
    | with_reducible apply Kept.refl
    | (with_reducible refine Kept.each ?_ _ (fun _ t _ => ?_))
    | with_reducible apply Kept.put
    | with_reducible apply State.engineIdle_kept
    | with_reducible apply Kept.ite
    | ((try lift_lets -underBinder); intro x; have hx : Kept qt s₀ x := ?_; (on_goal 1 => clear_value x); (on_goal 2 => dsimp only [x]))
    | ((try lift_lets -underBinder); intro x; clear_value x)

theorem State.clearCounters_kept {qt : Bool} {s₀ s : State} (h : Kept qt s₀ s) (n : Nat) : Kept qt s₀ (State.clearCounters s n) := by
  unfold State.clearCounters
  repeat' first
    | with_reducible assumption
    | with_reducible apply Kept.refl
    | (with_reducible refine Kept.each ?_ _ (fun _ t _ => ?_))
    | with_reducible apply Kept.wr
    | with_reducible apply Kept.modGen
    | with_reducible apply State.syncQueue_kept
    | with_reducible apply State.strandWaits_kept
    | with_reducible apply Kept.ite
    | ((try lift_lets -underBinder); intro x; have hx : Kept qt s₀ x := ?_; (on_goal 1 => clear_value x); (on_goal 2 => dsimp only [x]))
    | ((try lift_lets -underBinder); intro x; clear_value x)
    | (with_reducible apply Kept.upd; first | with_reducible assumption | with_reducible apply Kept.refl | (with_reducible refine Kept.each ?_ _ (fun _ t _ => ?_)) | with_reducible apply Kept.wr | with_reducible apply Kept.modGen | with_reducible apply State.syncQueue_kept | with_reducible apply State.strandWaits_kept)

theorem bindNow_kept {qt : Bool} {s₀ s : State} (h : Kept qt s₀ s) (w : Writer) (n : Nat) (v : Word) : Kept qt s₀ (bindNow w n v s) := by
  unfold bindNow
  repeat' first
    | with_reducible assumption
    | with_reducible apply Kept.refl
    | with_reducible apply Kept.wr
    | with_reducible apply Kept.put
    | with_reducible apply Kept.err
    | with_reducible apply Kept.setCkp
    | with_reducible apply State.releaseEngines_kept
    | with_reducible apply State.dropTest_kept
    | with_reducible apply State.clearCounters_kept
    | with_reducible apply Kept.ite
    | ((try lift_lets -underBinder); intro x; have hx : Kept qt s₀ x := ?_; (on_goal 1 => clear_value x); (on_goal 2 => dsimp only [x]))
    | ((try lift_lets -underBinder); intro x; clear_value x)
    | split

theorem bindWrite_kept {qt : Bool} {s₀ s : State} (h : Kept qt s₀ s) (w : Writer) (n : Nat) (v : Word) : Kept qt s₀ (bindWrite w n v s) := by
  unfold bindWrite
  repeat' first
    | with_reducible assumption
    | with_reducible apply Kept.setTest
    | with_reducible apply bindNow_kept
    | split

theorem engselWrite_kept {qt : Bool} {s₀ s : State} (h : Kept qt s₀ s) (w : Writer) (n : Nat) (v : Word) : Kept qt s₀ (engselWrite w n v s) := by
  unfold engselWrite
  repeat' first
    | with_reducible assumption
    | with_reducible apply Kept.refl
    | (with_reducible refine Kept.each ?_ _ (fun _ t _ => ?_))
    | with_reducible apply Kept.wr
    | with_reducible apply Kept.put
    | with_reducible apply Kept.err
    | with_reducible apply State.setRole_kept
    | with_reducible apply State.engineIdle_kept
    | with_reducible apply Kept.ite
    | ((try lift_lets -underBinder); intro x; have hx : Kept qt s₀ x := ?_; (on_goal 1 => clear_value x); (on_goal 2 => dsimp only [x]))
    | ((try lift_lets -underBinder); intro x; clear_value x)
    | split

theorem State.enterHold_kept {qt : Bool} {s₀ s : State} (h : Kept qt s₀ s) (n : Nat) : Kept qt s₀ (State.enterHold s n) := by
  unfold State.enterHold
  repeat' first
    | with_reducible assumption
    | with_reducible apply Kept.refl
    | (with_reducible refine Kept.modChan ?_ _ ?_)
    | (with_reducible refine Kept.each ?_ _ (fun _ t _ => ?_))
    | with_reducible apply Kept.put
    | with_reducible apply Kept.modGen
    | with_reducible apply Kept.modCc
    | with_reducible apply State.dropTest_kept
    | with_reducible apply State.missBind_kept
    | with_reducible apply State.toTripped_kept
    | with_reducible apply State.prStart_kept
    | with_reducible apply State.routeStart_kept
    | with_reducible apply Kept.ite
    | ((try lift_lets -underBinder); intro x; have hx : Kept qt s₀ x := ?_; (on_goal 1 => clear_value x); (on_goal 2 => dsimp only [x]))
    | ((try lift_lets -underBinder); intro x; clear_value x)
    | split
    | (with_reducible apply Kept.upd; first | with_reducible assumption | with_reducible apply Kept.refl | (with_reducible refine Kept.modChan ?_ _ ?_) | (with_reducible refine Kept.each ?_ _ (fun _ t _ => ?_)) | with_reducible apply Kept.put | with_reducible apply Kept.modGen | with_reducible apply Kept.modCc | with_reducible apply State.dropTest_kept | with_reducible apply State.missBind_kept | with_reducible apply State.toTripped_kept | with_reducible apply State.prStart_kept | with_reducible apply State.routeStart_kept)
    | exact id
    | (intro x hx; exact hx)
    | (intro x hx; simp_all [PwmChan.oneSided])
    | (intro hx; simp_all [PwmChan.oneSided])

theorem State.energise_kept {qt : Bool} {s₀ s : State} (h : Kept qt s₀ s) (n : Nat) : Kept qt s₀ (State.energise s n) := by
  unfold State.energise
  repeat' first
    | with_reducible assumption
    | with_reducible apply Kept.refl
    | with_reducible apply Kept.put
    | with_reducible apply Kept.err
    | with_reducible apply State.enterHold_kept
    | with_reducible apply Kept.ite
    | ((try lift_lets -underBinder); intro x; have hx : Kept qt s₀ x := ?_; (on_goal 1 => clear_value x); (on_goal 2 => dsimp only [x]))
    | ((try lift_lets -underBinder); intro x; clear_value x)
    | split

theorem State.deenergise_kept {qt : Bool} {s₀ s : State} (h : Kept qt s₀ s) (n : Nat) : Kept qt s₀ (State.deenergise s n) := by
  unfold State.deenergise
  repeat' first
    | with_reducible assumption
    | with_reducible apply Kept.refl
    | with_reducible apply Kept.err
    | with_reducible apply Kept.modGen
    | with_reducible apply State.keepHead_kept
    | with_reducible apply State.toRappel_kept
    | with_reducible apply State.toShutdown_kept
    | with_reducible apply Kept.ite
    | ((try lift_lets -underBinder); intro x; have hx : Kept qt s₀ x := ?_; (on_goal 1 => clear_value x); (on_goal 2 => dsimp only [x]))
    | ((try lift_lets -underBinder); intro x; clear_value x)
    | split
    | (with_reducible apply Kept.upd; first | with_reducible assumption | with_reducible apply Kept.refl | with_reducible apply Kept.err | with_reducible apply Kept.modGen | with_reducible apply State.keepHead_kept | with_reducible apply State.toRappel_kept | with_reducible apply State.toShutdown_kept)

theorem State.svcInFree_kept {qt : Bool} {s₀ s : State} (h : Kept qt s₀ s) (n : Nat) : Kept qt s₀ (State.svcInFree s n) := by
  unfold State.svcInFree
  repeat' first
    | with_reducible assumption
    | with_reducible apply Kept.refl
    | with_reducible apply State.svcIn_kept
    | with_reducible apply Kept.ite
    | ((try lift_lets -underBinder); intro x; have hx : Kept qt s₀ x := ?_; (on_goal 1 => clear_value x); (on_goal 2 => dsimp only [x]))
    | ((try lift_lets -underBinder); intro x; clear_value x)
    | (with_reducible apply Kept.upd; first | with_reducible assumption | with_reducible apply Kept.refl | with_reducible apply State.svcIn_kept)

theorem axCtrl_kept {qt : Bool} {s₀ s : State} (h : Kept qt s₀ s) (w : Writer) (n : Nat) (v : Word) : Kept qt s₀ (axCtrl w n v s) := by
  unfold axCtrl
  repeat' first
    | with_reducible assumption
    | with_reducible apply Kept.refl
    | (with_reducible refine Kept.when ?_ _ (fun t _ => ?_))
    | with_reducible apply State.clearTrip_kept
    | with_reducible apply State.svcOut_kept
    | with_reducible apply State.energise_kept
    | with_reducible apply State.deenergise_kept
    | with_reducible apply State.svcInFree_kept
    | with_reducible apply Kept.ite
    | ((try lift_lets -underBinder); intro x; have hx : Kept qt s₀ x := ?_; (on_goal 1 => clear_value x); (on_goal 2 => dsimp only [x]))
    | ((try lift_lets -underBinder); intro x; clear_value x)
    | split

theorem shutdownComplete_kept {qt : Bool} {s₀ s : State} (h : Kept qt s₀ s) (n : Nat) : Kept qt s₀ (shutdownComplete n s) := by
  unfold shutdownComplete
  repeat' first
    | with_reducible assumption
    | with_reducible apply Kept.refl
    | (with_reducible refine Kept.modChan ?_ _ ?_)
    | (with_reducible refine Kept.each ?_ _ (fun _ t _ => ?_))
    | with_reducible apply Kept.put
    | with_reducible apply Kept.modCc
    | with_reducible apply State.force_kept
    | with_reducible apply State.stopRoutes_kept
    | with_reducible apply State.energise_kept
    | with_reducible apply Kept.ite
    | ((try lift_lets -underBinder); intro x; have hx : Kept qt s₀ x := ?_; (on_goal 1 => clear_value x); (on_goal 2 => dsimp only [x]))
    | ((try lift_lets -underBinder); intro x; clear_value x)
    | split
    | (with_reducible apply Kept.upd; first | with_reducible assumption | with_reducible apply Kept.refl | (with_reducible refine Kept.modChan ?_ _ ?_) | (with_reducible refine Kept.each ?_ _ (fun _ t _ => ?_)) | with_reducible apply Kept.put | with_reducible apply Kept.modCc | with_reducible apply State.force_kept | with_reducible apply State.stopRoutes_kept | with_reducible apply State.energise_kept)
    | exact id
    | (intro x hx; exact hx)
    | (intro x hx; simp_all [PwmChan.oneSided])
    | (intro hx; simp_all [PwmChan.oneSided])

theorem State.holdSearch_kept {qt : Bool} {s₀ s : State} (h : Kept qt s₀ s) (n : Nat) : Kept qt s₀ (State.holdSearch s n) := by
  unfold State.holdSearch
  repeat' first
    | with_reducible assumption
    | with_reducible apply Kept.refl
    | with_reducible apply Kept.put
    | with_reducible apply State.searchStart_kept
    | with_reducible apply Kept.ite
    | ((try lift_lets -underBinder); intro x; have hx : Kept qt s₀ x := ?_; (on_goal 1 => clear_value x); (on_goal 2 => dsimp only [x]))
    | ((try lift_lets -underBinder); intro x; clear_value x)
    | split

theorem State.ckpAge_kept {s₀ s : State} (h : Kept false s₀ s) (n : Nat) : Kept false s₀ (State.ckpAge s n) := by
  unfold State.ckpAge
  repeat' first
    | with_reducible assumption
    | with_reducible apply Kept.refl
    | with_reducible apply Kept.incSat
    | with_reducible apply State.ckpCommit_kept
    | with_reducible apply Kept.ite
    | ((try lift_lets -underBinder); intro x; have hx : Kept false s₀ x := ?_; (on_goal 1 => clear_value x); (on_goal 2 => dsimp only [x]))
    | ((try lift_lets -underBinder); intro x; clear_value x)
    | split

theorem State.tickSlot_kept {s₀ s : State} (h : Kept false s₀ s) (n : Nat) : Kept false s₀ (State.tickSlot s n) := by
  unfold State.tickSlot
  repeat' first
    | with_reducible assumption
    | with_reducible apply Kept.refl
    | with_reducible apply Kept.wr
    | with_reducible apply Kept.modCc
    | with_reducible apply Kept.modSwap
    | with_reducible apply State.syncWait_kept
    | with_reducible apply State.advanceStage_kept
    | with_reducible apply State.compute_kept
    | with_reducible apply State.publish_kept
    | with_reducible apply State.finishSteps_kept
    | with_reducible apply State.scheduleSteps_kept
    | with_reducible apply State.settle_kept
    | with_reducible apply State.prTick_kept
    | with_reducible apply State.holdSearch_kept
    | with_reducible apply State.ckpAge_kept
    | with_reducible apply Kept.ite
    | ((try lift_lets -underBinder); intro x; have hx : Kept false s₀ x := ?_; (on_goal 1 => clear_value x); (on_goal 2 => dsimp only [x]))
    | ((try lift_lets -underBinder); intro x; clear_value x)
    | split
    | (with_reducible apply Kept.upd; first | with_reducible assumption | with_reducible apply Kept.refl | with_reducible apply Kept.wr | with_reducible apply Kept.modCc | with_reducible apply Kept.modSwap | with_reducible apply State.syncWait_kept | with_reducible apply State.advanceStage_kept | with_reducible apply State.compute_kept | with_reducible apply State.publish_kept | with_reducible apply State.finishSteps_kept | with_reducible apply State.scheduleSteps_kept | with_reducible apply State.settle_kept | with_reducible apply State.prTick_kept | with_reducible apply State.holdSearch_kept | with_reducible apply State.ckpAge_kept)

theorem State.tickInstant_kept {s₀ s : State} (h : Kept false s₀ s) (t : Nat) : Kept false s₀ (State.tickInstant s t) := by
  unfold State.tickInstant
  repeat' first
    | with_reducible assumption
    | with_reducible apply Kept.refl
    | (with_reducible refine Kept.each ?_ _ (fun _ t _ => ?_))
    | with_reducible apply State.schedule_kept
    | with_reducible apply State.ssiStart_kept
    | with_reducible apply State.pcoTick_kept
    | with_reducible apply State.tickSlot_kept
    | with_reducible apply Kept.ite
    | ((try lift_lets -underBinder); intro x; have hx : Kept false s₀ x := ?_; (on_goal 1 => clear_value x); (on_goal 2 => dsimp only [x]))
    | ((try lift_lets -underBinder); intro x; clear_value x)
    | split
    | (with_reducible apply Kept.upd; first | with_reducible assumption | with_reducible apply Kept.refl | (with_reducible refine Kept.each ?_ _ (fun _ t _ => ?_)) | with_reducible apply State.schedule_kept | with_reducible apply State.ssiStart_kept | with_reducible apply State.pcoTick_kept | with_reducible apply State.tickSlot_kept)

theorem cellTick_kept {s₀ s : State} (h : Kept false s₀ s) : Kept false s₀ (cellTick s) := by
  unfold cellTick
  repeat' first
    | with_reducible assumption
    | with_reducible apply Kept.refl
    | with_reducible apply State.tickInstant_kept
    | with_reducible apply Kept.ite
    | ((try lift_lets -underBinder); intro x; have hx : Kept false s₀ x := ?_; (on_goal 1 => clear_value x); (on_goal 2 => dsimp only [x]))
    | ((try lift_lets -underBinder); intro x; clear_value x)
    | split

theorem tickPeriodChange_kept {qt : Bool} {s₀ s : State} (h : Kept qt s₀ s) : Kept qt s₀ (tickPeriodChange s) := by
  unfold tickPeriodChange
  repeat' first
    | with_reducible assumption
    | with_reducible apply Kept.refl
    | (with_reducible refine Kept.each ?_ _ (fun _ t _ => ?_))
    | with_reducible apply Kept.put
    | with_reducible apply Kept.flag
    | with_reducible apply State.recomputePer_kept
    | with_reducible apply Kept.ite
    | ((try lift_lets -underBinder); intro x; have hx : Kept qt s₀ x := ?_; (on_goal 1 => clear_value x); (on_goal 2 => dsimp only [x]))
    | ((try lift_lets -underBinder); intro x; clear_value x)
    | split
    | (with_reducible apply Kept.upd; first | with_reducible assumption | with_reducible apply Kept.refl | (with_reducible refine Kept.each ?_ _ (fun _ t _ => ?_)) | with_reducible apply Kept.put | with_reducible apply Kept.flag | with_reducible apply State.recomputePer_kept)

theorem tickusWrite_kept {qt : Bool} {s₀ s : State} (h : Kept qt s₀ s) (v : Word) : Kept qt s₀ (tickusWrite v s) := by
  unfold tickusWrite
  repeat' first
    | with_reducible assumption
    | with_reducible apply Kept.refl
    | with_reducible apply Kept.put
    | with_reducible apply Kept.w1c
    | with_reducible apply Kept.ite
    | ((try lift_lets -underBinder); intro x; have hx : Kept qt s₀ x := ?_; (on_goal 1 => clear_value x); (on_goal 2 => dsimp only [x]))
    | ((try lift_lets -underBinder); intro x; clear_value x)
    | split
    | (with_reducible apply Kept.upd; first | with_reducible assumption | with_reducible apply Kept.refl | with_reducible apply Kept.put | with_reducible apply Kept.w1c)

end Sys2Proof.Machine
end

