-- ==== Sys2Proof/Laws/KeepFrontPanel.lean ====
section
/-! SUPPORT. What the operations of Machine/FrontPanel.lean keep: one lemma per operation (Laws/Kept.lean). -/
namespace Sys2Proof.Machine
set_option linter.unusedTactic false
set_option linter.unreachableTactic false
set_option linter.unusedVariables false

theorem State.fpRecord_kept {s₀ s : State} (h : Kept false s₀ s) (ty detail num time : Nat) : Kept false s₀ (State.fpRecord s ty detail num time) := by
  unfold State.fpRecord
  repeat' first
    | with_reducible assumption
    | with_reducible apply Kept.refl
    | with_reducible apply Kept.put
    | with_reducible apply Kept.wrMem
    | with_reducible apply Kept.wrMems
    | with_reducible apply Kept.ite
    | ((try lift_lets -underBinder); intro x; have hx : Kept false s₀ x := ?_; (on_goal 1 => clear_value x); (on_goal 2 => dsimp only [x]))
    | ((try lift_lets -underBinder); intro x; clear_value x)
    | split
    | (with_reducible apply Kept.upd; first | with_reducible assumption | with_reducible apply Kept.refl | with_reducible apply Kept.put | with_reducible apply Kept.wrMem | with_reducible apply Kept.wrMems)

theorem State.fpEvent_kept {s₀ s : State} (h : Kept false s₀ s) (ty detail num : Nat) : Kept false s₀ (State.fpEvent s ty detail num) := by
  unfold State.fpEvent
  repeat' first
    | with_reducible assumption
    | with_reducible apply Kept.refl
    | with_reducible apply State.fpRecord_kept
    | with_reducible apply Kept.ite
    | ((try lift_lets -underBinder); intro x; have hx : Kept false s₀ x := ?_; (on_goal 1 => clear_value x); (on_goal 2 => dsimp only [x]))
    | ((try lift_lets -underBinder); intro x; clear_value x)
    | split
    | (with_reducible apply Kept.upd; first | with_reducible assumption | with_reducible apply Kept.refl | with_reducible apply State.fpRecord_kept)

theorem State.fpFlush_kept {s₀ s : State} (h : Kept false s₀ s) : Kept false s₀ (State.fpFlush s) := by
  unfold State.fpFlush
  repeat' first
    | with_reducible assumption
    | with_reducible apply Kept.refl
    | (with_reducible refine Kept.each ?_ _ (fun _ t _ => ?_))
    | with_reducible apply State.fpRecord_kept
    | with_reducible apply Kept.ite
    | ((try lift_lets -underBinder); intro x; have hx : Kept false s₀ x := ?_; (on_goal 1 => clear_value x); (on_goal 2 => dsimp only [x]))
    | ((try lift_lets -underBinder); intro x; clear_value x)
    | (with_reducible apply Kept.upd; first | with_reducible assumption | with_reducible apply Kept.refl | (with_reducible refine Kept.each ?_ _ (fun _ t _ => ?_)) | with_reducible apply State.fpRecord_kept)

theorem State.setTouched_kept {qt : Bool} {s₀ s : State} (h : Kept qt s₀ s) (k : Nat) (b : Bool) : Kept qt s₀ (State.setTouched s k b) := by
  unfold State.setTouched
  repeat' first
    | with_reducible assumption
    | with_reducible apply Kept.refl
    | with_reducible apply Kept.put
    | with_reducible apply Kept.flag
    | with_reducible apply Kept.ite
    | ((try lift_lets -underBinder); intro x; have hx : Kept qt s₀ x := ?_; (on_goal 1 => clear_value x); (on_goal 2 => dsimp only [x]))
    | ((try lift_lets -underBinder); intro x; clear_value x)
    | split

theorem State.scanPad_kept {s₀ s : State} (h : Kept false s₀ s) (k c : Nat) : Kept false s₀ (State.scanPad s k c) := by
  unfold State.scanPad
  repeat' first
    | with_reducible assumption
    | with_reducible apply Kept.refl
    | with_reducible apply Kept.put
    | with_reducible apply Kept.puti
    | with_reducible apply Kept.setPad
    | with_reducible apply State.fpEvent_kept
    | with_reducible apply State.setTouched_kept
    | with_reducible apply Kept.ite
    | ((try lift_lets -underBinder); intro x; have hx : Kept false s₀ x := ?_; (on_goal 1 => clear_value x); (on_goal 2 => dsimp only [x]))
    | ((try lift_lets -underBinder); intro x; clear_value x)
    | split
    | (with_reducible apply Kept.upd; first | with_reducible assumption | with_reducible apply Kept.refl | with_reducible apply Kept.put | with_reducible apply Kept.puti | with_reducible apply Kept.setPad | with_reducible apply State.fpEvent_kept | with_reducible apply State.setTouched_kept)

theorem touchScan_kept {s₀ s : State} (h : Kept false s₀ s) (cs : List (BitVec 16)) : Kept false s₀ (touchScan cs s) := by
  unfold touchScan
  repeat' first
    | with_reducible assumption
    | with_reducible apply Kept.refl
    | (with_reducible refine Kept.each ?_ _ (fun _ t _ => ?_))
    | with_reducible apply State.scanPad_kept
    | with_reducible apply Kept.ite
    | ((try lift_lets -underBinder); intro x; have hx : Kept false s₀ x := ?_; (on_goal 1 => clear_value x); (on_goal 2 => dsimp only [x]))
    | ((try lift_lets -underBinder); intro x; clear_value x)
    | split

theorem fpRecal_kept {qt : Bool} {s₀ s : State} (h : Kept qt s₀ s) (k : Nat) : Kept qt s₀ (fpRecal k s) := by
  unfold fpRecal
  repeat' first
    | with_reducible assumption
    | with_reducible apply Kept.refl
    | with_reducible apply Kept.setPad
    | with_reducible apply Kept.ite
    | ((try lift_lets -underBinder); intro x; have hx : Kept qt s₀ x := ?_; (on_goal 1 => clear_value x); (on_goal 2 => dsimp only [x]))
    | ((try lift_lets -underBinder); intro x; clear_value x)
    | (with_reducible apply Kept.upd; first | with_reducible assumption | with_reducible apply Kept.refl | with_reducible apply Kept.setPad)

theorem State.debounce_kept {s₀ s : State} (h : Kept false s₀ s) (i : Nat) (f : Fld) (bit : Nat) (low : Bool) (on off : Nat) : Kept false s₀ (State.debounce s i f bit low on off) := by
  unfold State.debounce
  repeat' first
    | with_reducible assumption
    | with_reducible apply Kept.refl
    | with_reducible apply Kept.put
    | with_reducible apply State.fpEvent_kept
    | with_reducible apply Kept.ite
    | ((try lift_lets -underBinder); intro x; have hx : Kept false s₀ x := ?_; (on_goal 1 => clear_value x); (on_goal 2 => dsimp only [x]))
    | ((try lift_lets -underBinder); intro x; clear_value x)
    | split
    | (with_reducible apply Kept.upd; first | with_reducible assumption | with_reducible apply Kept.refl | with_reducible apply Kept.put | with_reducible apply State.fpEvent_kept)

theorem inputSample_kept {s₀ s : State} (h : Kept false s₀ s) (pb : BitVec 4) (pres : BitVec 8) : Kept false s₀ (inputSample pb pres s) := by
  unfold inputSample
  repeat' first
    | with_reducible assumption
    | with_reducible apply Kept.refl
    | (with_reducible refine Kept.each ?_ _ (fun _ t _ => ?_))
    | with_reducible apply State.debounce_kept
    | with_reducible apply Kept.ite
    | ((try lift_lets -underBinder); intro x; have hx : Kept false s₀ x := ?_; (on_goal 1 => clear_value x); (on_goal 2 => dsimp only [x]))
    | ((try lift_lets -underBinder); intro x; clear_value x)

theorem State.setLamp_kept {qt : Bool} {s₀ s : State} (h : Kept qt s₀ s) (l : Nat) (b : Bool) : Kept qt s₀ (State.setLamp s l b) := by
  unfold State.setLamp
  repeat' first
    | with_reducible assumption
    | with_reducible apply Kept.refl
    | with_reducible apply Kept.ite
    | ((try lift_lets -underBinder); intro x; have hx : Kept qt s₀ x := ?_; (on_goal 1 => clear_value x); (on_goal 2 => dsimp only [x]))
    | ((try lift_lets -underBinder); intro x; clear_value x)
    | split
    | (with_reducible apply Kept.upd; first | with_reducible assumption | with_reducible apply Kept.refl)

theorem State.syncLamp_kept {qt : Bool} {s₀ s : State} (h : Kept qt s₀ s) (l : Nat) : Kept qt s₀ (State.syncLamp s l) := by
  unfold State.syncLamp
  repeat' first
    | with_reducible assumption
    | with_reducible apply Kept.refl
    | with_reducible apply State.setLamp_kept
    | with_reducible apply Kept.ite
    | ((try lift_lets -underBinder); intro x; have hx : Kept qt s₀ x := ?_; (on_goal 1 => clear_value x); (on_goal 2 => dsimp only [x]))
    | ((try lift_lets -underBinder); intro x; clear_value x)
    | split

theorem lampBlink_kept {qt : Bool} {s₀ s : State} (h : Kept qt s₀ s) (l : Nat) : Kept qt s₀ (lampBlink l s) := by
  unfold lampBlink
  repeat' first
    | with_reducible assumption
    | with_reducible apply Kept.refl
    | with_reducible apply State.syncLamp_kept
    | with_reducible apply Kept.ite
    | ((try lift_lets -underBinder); intro x; have hx : Kept qt s₀ x := ?_; (on_goal 1 => clear_value x); (on_goal 2 => dsimp only [x]))
    | ((try lift_lets -underBinder); intro x; clear_value x)
    | split
    | (with_reducible apply Kept.upd; first | with_reducible assumption | with_reducible apply Kept.refl | with_reducible apply State.syncLamp_kept)

theorem State.startPath_kept {qt : Bool} {s₀ s : State} (h : Kept qt s₀ s) (n i : Nat) : Kept qt s₀ (State.startPath s n i) := by
  unfold State.startPath
  repeat' first
    | with_reducible assumption
    | with_reducible apply Kept.refl
    | (with_reducible refine Kept.modChan ?_ _ ?_)
    | with_reducible apply State.gateOn_kept
    | with_reducible apply Kept.ite
    | ((try lift_lets -underBinder); intro x; have hx : Kept qt s₀ x := ?_; (on_goal 1 => clear_value x); (on_goal 2 => dsimp only [x]))
    | ((try lift_lets -underBinder); intro x; clear_value x)
    | split
    | (with_reducible apply Kept.upd; first | with_reducible assumption | with_reducible apply Kept.refl | (with_reducible refine Kept.modChan ?_ _ ?_) | with_reducible apply State.gateOn_kept)
    | exact id
    | (intro x hx; exact hx)
    | (intro x hx; simp_all [PwmChan.oneSided])
    | (intro hx; simp_all [PwmChan.oneSided])

theorem State.stopPath_kept {qt : Bool} {s₀ s : State} (h : Kept qt s₀ s) (n i : Nat) : Kept qt s₀ (State.stopPath s n i) :=
  State.endPulses_kept h _

theorem presenceTest_kept {qt : Bool} {s₀ s : State} (h : Kept qt s₀ s) (n : Nat) : Kept qt s₀ (presenceTest n s) := by
  unfold presenceTest
  dsimp only
  split
  · apply State.startPath_kept
    exact h.same rfl rfl rfl rfl rfl rfl
  · exact h

theorem State.presFinish_kept {s₀ s : State} (h : Kept false s₀ s) (n result path : Nat) : Kept false s₀ (State.presFinish s n result path) := by
  unfold State.presFinish
  repeat' first
    | with_reducible assumption
    | with_reducible apply Kept.refl
    | with_reducible apply Kept.put
    | with_reducible apply Kept.inc
    | with_reducible apply Kept.endTest
    | with_reducible apply State.flipPaths_kept
    | with_reducible apply State.fpEvent_kept
    | with_reducible apply bindNow_kept
    | with_reducible apply Kept.ite
    | ((try lift_lets -underBinder); intro x; have hx : Kept false s₀ x := ?_; (on_goal 1 => clear_value x); (on_goal 2 => dsimp only [x]))
    | ((try lift_lets -underBinder); intro x; clear_value x)
    | split

theorem presencePathDone_kept {s₀ s : State} (h : Kept false s₀ s) (n : Nat) (e : PathEnd) : Kept false s₀ (presencePathDone n e s) := by
  unfold presencePathDone
  repeat' first
    | with_reducible assumption
    | with_reducible apply Kept.refl
    | with_reducible apply State.startPath_kept
    | with_reducible apply State.stopPath_kept
    | with_reducible apply Kept.setTest
    | with_reducible apply State.presFinish_kept
    | with_reducible apply Kept.ite
    | ((try lift_lets -underBinder); intro x; have hx : Kept false s₀ x := ?_; (on_goal 1 => clear_value x); (on_goal 2 => dsimp only [x]))
    | ((try lift_lets -underBinder); intro x; clear_value x)
    | split
    | (with_reducible apply Kept.upd; first | with_reducible assumption | with_reducible apply Kept.refl | with_reducible apply State.startPath_kept | with_reducible apply State.stopPath_kept | with_reducible apply Kept.setTest | with_reducible apply State.presFinish_kept)

theorem fpConfigWrite_kept {qt : Bool} {s₀ s : State} (h : Kept qt s₀ s) (r : FpReg) (v : Word) : Kept qt s₀ (fpConfigWrite r v s) := by
  unfold fpConfigWrite
  repeat' first
    | with_reducible assumption
    | with_reducible apply Kept.refl
    | with_reducible apply Kept.wr
    | with_reducible apply Kept.put
    | with_reducible apply State.syncLamp_kept
    | with_reducible apply Kept.ite
    | ((try lift_lets -underBinder); intro x; have hx : Kept qt s₀ x := ?_; (on_goal 1 => clear_value x); (on_goal 2 => dsimp only [x]))
    | ((try lift_lets -underBinder); intro x; clear_value x)
    | split

end Sys2Proof.Machine
end

