-- ==== Sys2Proof/Laws/KeepRegisterAccess.lean ====
section
/-! SUPPORT. What the operations of Machine/RegisterAccess.lean keep: one lemma per operation (Laws/Kept.lean). -/
namespace Sys2Proof.Machine
set_option linter.unusedTactic false
set_option linter.unreachableTactic false
set_option linter.unusedVariables false

theorem State.clearRc_kept {qt : Bool} {s₀ s : State} (h : Kept qt s₀ s) (a : Nat) : Kept qt s₀ (State.clearRc s a) := by
  unfold State.clearRc
  repeat' first
    | with_reducible assumption
    | with_reducible apply Kept.refl
    | with_reducible apply Kept.wr
    | with_reducible apply srxdRead_kept
    | with_reducible apply Kept.ite
    | ((try lift_lets -underBinder); intro x; have hx : Kept qt s₀ x := ?_; (on_goal 1 => clear_value x); (on_goal 2 => dsimp only [x]))
    | ((try lift_lets -underBinder); intro x; clear_value x)
    | split
    | (with_reducible apply Kept.upd; first | with_reducible assumption | with_reducible apply Kept.refl | with_reducible apply Kept.wr | with_reducible apply srxdRead_kept)

theorem readClear_kept {qt : Bool} {s₀ s : State} (h : Kept qt s₀ s) (w : Writer) (a : Nat) : Kept qt s₀ (readClear w a s) := by
  unfold readClear
  repeat' first
    | with_reducible assumption
    | with_reducible apply Kept.refl
    | with_reducible apply State.clearRc_kept
    | with_reducible apply Kept.ite
    | ((try lift_lets -underBinder); intro x; have hx : Kept qt s₀ x := ?_; (on_goal 1 => clear_value x); (on_goal 2 => dsimp only [x]))
    | ((try lift_lets -underBinder); intro x; clear_value x)
    | split
    | (with_reducible apply Kept.upd; first | with_reducible assumption | with_reducible apply Kept.refl | with_reducible apply State.clearRc_kept)

theorem plainWrite_kept {qt : Bool} {s₀ s : State} (h : Kept qt s₀ s) (w : Writer) (a : Nat) (v : Word) : Kept qt s₀ (plainWrite w a v s) := by
  unfold plainWrite
  repeat' first
    | with_reducible assumption
    | with_reducible apply Kept.refl
    | with_reducible apply Kept.wr
    | with_reducible apply Kept.ite
    | ((try lift_lets -underBinder); intro x; have hx : Kept qt s₀ x := ?_; (on_goal 1 => clear_value x); (on_goal 2 => dsimp only [x]))
    | ((try lift_lets -underBinder); intro x; clear_value x)
    | split

theorem clearW1c_kept {qt : Bool} {s₀ s : State} (h : Kept qt s₀ s) (a : Nat) (v : Word) : Kept qt s₀ (clearW1c a v s) := by
  unfold clearW1c
  repeat' first
    | with_reducible assumption
    | with_reducible apply Kept.refl
    | with_reducible apply Kept.wr
    | with_reducible apply Kept.w1c
    | with_reducible apply Kept.ite
    | ((try lift_lets -underBinder); intro x; have hx : Kept qt s₀ x := ?_; (on_goal 1 => clear_value x); (on_goal 2 => dsimp only [x]))
    | ((try lift_lets -underBinder); intro x; clear_value x)
    | split

theorem snsWrite_kept {qt : Bool} {s₀ s : State} (h : Kept qt s₀ s) (a : Nat) (v : Word) : Kept qt s₀ (snsWrite a v s) := by
  unfold snsWrite
  repeat' first
    | with_reducible assumption
    | with_reducible apply Kept.refl
    | with_reducible apply Kept.wr
    | with_reducible apply Kept.put
    | with_reducible apply Kept.ite
    | ((try lift_lets -underBinder); intro x; have hx : Kept qt s₀ x := ?_; (on_goal 1 => clear_value x); (on_goal 2 => dsimp only [x]))
    | ((try lift_lets -underBinder); intro x; clear_value x)
    | split

theorem sogCfgWrite_kept {qt : Bool} {s₀ s : State} (h : Kept qt s₀ s) (a : Nat) (v : Word) : Kept qt s₀ (sogCfgWrite a v s) := by
  unfold sogCfgWrite
  repeat' first
    | with_reducible assumption
    | with_reducible apply Kept.refl
    | with_reducible apply Kept.wr
    | with_reducible apply Kept.ite
    | ((try lift_lets -underBinder); intro x; have hx : Kept qt s₀ x := ?_; (on_goal 1 => clear_value x); (on_goal 2 => dsimp only [x]))
    | ((try lift_lets -underBinder); intro x; clear_value x)
    | split

theorem hkcCtrlWrite_kept {qt : Bool} {s₀ s : State} (h : Kept qt s₀ s) (v : Word) : Kept qt s₀ (hkcCtrlWrite v s) := by
  unfold hkcCtrlWrite
  repeat' first
    | with_reducible assumption
    | with_reducible apply Kept.refl
    | with_reducible apply Kept.put
    | with_reducible apply hkcRun_kept
    | with_reducible apply hkcIsw_kept
    | with_reducible apply Kept.ite
    | ((try lift_lets -underBinder); intro x; have hx : Kept qt s₀ x := ?_; (on_goal 1 => clear_value x); (on_goal 2 => dsimp only [x]))
    | ((try lift_lets -underBinder); intro x; clear_value x)
    | split
    | (with_reducible apply Kept.upd; first | with_reducible assumption | with_reducible apply Kept.refl | with_reducible apply Kept.put | with_reducible apply hkcRun_kept | with_reducible apply hkcIsw_kept)

theorem hkcRollWrite_kept {qt : Bool} {s₀ s : State} (h : Kept qt s₀ s) (v : Word) : Kept qt s₀ (hkcRollWrite v s) := by
  unfold hkcRollWrite
  repeat' first
    | with_reducible assumption
    | with_reducible apply Kept.refl
    | with_reducible apply Kept.put
    | with_reducible apply Kept.ite
    | ((try lift_lets -underBinder); intro x; have hx : Kept qt s₀ x := ?_; (on_goal 1 => clear_value x); (on_goal 2 => dsimp only [x]))
    | ((try lift_lets -underBinder); intro x; clear_value x)
    | split

theorem pcoCtrlWrite_kept {qt : Bool} {s₀ s : State} (h : Kept qt s₀ s) (q : Nat) (v : Word) : Kept qt s₀ (pcoCtrlWrite q v s) := by
  unfold pcoCtrlWrite
  repeat' first
    | with_reducible assumption
    | with_reducible apply Kept.refl
    | with_reducible apply pcoArm_kept
    | with_reducible apply pcoDisarm_kept
    | with_reducible apply pcoForce_kept
    | with_reducible apply Kept.ite
    | ((try lift_lets -underBinder); intro x; have hx : Kept qt s₀ x := ?_; (on_goal 1 => clear_value x); (on_goal 2 => dsimp only [x]))
    | ((try lift_lets -underBinder); intro x; clear_value x)
    | split

theorem pitqCtrlWrite_kept {qt : Bool} {s₀ s : State} (h : Kept qt s₀ s) (w : Writer) (n : Nat) (v : Word) : Kept qt s₀ (pitqCtrlWrite w n v s) := by
  unfold pitqCtrlWrite
  repeat' first
    | with_reducible assumption
    | with_reducible apply Kept.refl
    | with_reducible apply State.syncWait_kept
    | with_reducible apply pitqFlush_kept
    | with_reducible apply pitqGo_kept
    | with_reducible apply Kept.ite
    | ((try lift_lets -underBinder); intro x; have hx : Kept qt s₀ x := ?_; (on_goal 1 => clear_value x); (on_goal 2 => dsimp only [x]))
    | ((try lift_lets -underBinder); intro x; clear_value x)
    | split

theorem slotWrite_kept {qt : Bool} {s₀ s : State} (h : Kept qt s₀ s) (w : Writer) (n off : Nat) (v : Word) : Kept qt s₀ (slotWrite w n off v s) := by
  unfold slotWrite
  repeat' first
    | with_reducible assumption
    | with_reducible apply Kept.refl
    | with_reducible apply mcfgWrite_kept
    | with_reducible apply pitchOffer_kept
    | with_reducible apply setpointOffer_kept
    | with_reducible apply gearLoad_kept
    | with_reducible apply restoreAck_kept
    | with_reducible apply ccCfgWrite_kept
    | with_reducible apply ccCalWrite_kept
    | with_reducible apply ccParamWrite_kept
    | with_reducible apply pstageWrite_kept
    | with_reducible apply prCtrlWrite_kept
    | with_reducible apply prCfgWrite_kept
    | with_reducible apply prParamWrite_kept
    | with_reducible apply swapWrite_kept
    | with_reducible apply bindWrite_kept
    | with_reducible apply engselWrite_kept
    | with_reducible apply axCtrl_kept
    | with_reducible apply hlrWrite_kept
    | with_reducible apply plainWrite_kept
    | with_reducible apply pitqCtrlWrite_kept
    | with_reducible apply Kept.ite
    | ((try lift_lets -underBinder); intro x; have hx : Kept qt s₀ x := ?_; (on_goal 1 => clear_value x); (on_goal 2 => dsimp only [x]))
    | ((try lift_lets -underBinder); intro x; clear_value x)
    | split

theorem panelWrite_kept {qt : Bool} {s₀ s : State} (h : Kept qt s₀ s) (a : Nat) (v : Word) : Kept qt s₀ (panelWrite a v s) := by
  unfold panelWrite
  repeat' first
    | with_reducible assumption
    | with_reducible apply Kept.refl
    | with_reducible apply fpRecal_kept
    | with_reducible apply fpConfigWrite_kept
    | with_reducible apply plainWrite_kept
    | with_reducible apply Kept.ite
    | ((try lift_lets -underBinder); intro x; have hx : Kept qt s₀ x := ?_; (on_goal 1 => clear_value x); (on_goal 2 => dsimp only [x]))
    | ((try lift_lets -underBinder); intro x; clear_value x)
    | split

theorem wordWrite_kept {s₀ s : State} (h : Kept false s₀ s) (w : Writer) (a : Nat) (v : Word) : Kept false s₀ (wordWrite w a v s) := by
  unfold wordWrite
  repeat' first
    | with_reducible assumption
    | with_reducible apply Kept.refl
    | with_reducible apply Kept.wr
    | with_reducible apply Kept.modHost
    | with_reducible apply gdCfgWrite_kept
    | with_reducible apply scthrWrite_kept
    | with_reducible apply cmpScfWrite_kept
    | with_reducible apply monFiltWrite_kept
    | with_reducible apply monThrWrite_kept
    | with_reducible apply pwmgConfigWrite_kept
    | with_reducible apply fltSevWrite_kept
    | with_reducible apply fltSubscribe_kept
    | with_reducible apply blyCfgWrite_kept
    | with_reducible apply decCfgWrite_kept
    | with_reducible apply busWinWrite_kept
    | with_reducible apply ridxWrite_kept
    | with_reducible apply hkcRefWrite_kept
    | with_reducible apply hkcCalGo_kept
    | with_reducible apply hkcConfigWrite_kept
    | with_reducible apply fbConfigWrite_kept
    | with_reducible apply siCfgWrite_kept
    | with_reducible apply soCfgWrite_kept
    | with_reducible apply capRelease_kept
    | with_reducible apply capCfgWrite_kept
    | with_reducible apply pcoConfigWrite_kept
    | with_reducible apply keCtrlWrite_kept
    | with_reducible apply trcfgWrite_kept
    | with_reducible apply retcmdWrite_kept
    | with_reducible apply tickusWrite_kept
    | with_reducible apply cspCfgWrite_kept
    | with_reducible apply qinWrite_kept
    | with_reducible apply cspFlush_kept
    | with_reducible apply stxdWrite_kept
    | with_reducible apply cspRawWrite_kept
    | with_reducible apply ethCfgWrite_kept
    | with_reducible apply qbvCtrlWrite_kept
    | with_reducible apply mdioWrite_kept
    | with_reducible apply vlanWrite_kept
    | with_reducible apply ctSetGo_kept
    | with_reducible apply ctServoWrite_kept
    | with_reducible apply gptpCfgWrite_kept
    | with_reducible apply htypeWrite_kept
    | with_reducible apply hostCfg_kept
    | with_reducible apply hostTmoWrite_kept
    | with_reducible apply hostCtrlWrite_kept
    | with_reducible apply pwrCtrl_kept
    | with_reducible apply pwrCfgWrite_kept
    | with_reducible apply plainWrite_kept
    | with_reducible apply snsWrite_kept
    | with_reducible apply sogCfgWrite_kept
    | with_reducible apply hkcCtrlWrite_kept
    | with_reducible apply hkcRollWrite_kept
    | with_reducible apply pcoCtrlWrite_kept
    | with_reducible apply slotWrite_kept
    | with_reducible apply panelWrite_kept
    | with_reducible apply Kept.ite
    | ((try lift_lets -underBinder); intro x; have hx : Kept false s₀ x := ?_; (on_goal 1 => clear_value x); (on_goal 2 => dsimp only [x]))
    | ((try lift_lets -underBinder); intro x; clear_value x)
    | split
    | (with_reducible apply Kept.upd; first | with_reducible assumption | with_reducible apply Kept.refl | with_reducible apply Kept.wr | with_reducible apply Kept.modHost | with_reducible apply gdCfgWrite_kept | with_reducible apply scthrWrite_kept | with_reducible apply cmpScfWrite_kept | with_reducible apply monFiltWrite_kept | with_reducible apply monThrWrite_kept | with_reducible apply pwmgConfigWrite_kept | with_reducible apply fltSevWrite_kept | with_reducible apply fltSubscribe_kept | with_reducible apply blyCfgWrite_kept | with_reducible apply decCfgWrite_kept | with_reducible apply busWinWrite_kept | with_reducible apply ridxWrite_kept | with_reducible apply hkcRefWrite_kept | with_reducible apply hkcCalGo_kept | with_reducible apply hkcConfigWrite_kept | with_reducible apply fbConfigWrite_kept | with_reducible apply siCfgWrite_kept | with_reducible apply soCfgWrite_kept | with_reducible apply capRelease_kept | with_reducible apply capCfgWrite_kept | with_reducible apply pcoConfigWrite_kept | with_reducible apply keCtrlWrite_kept | with_reducible apply trcfgWrite_kept | with_reducible apply retcmdWrite_kept | with_reducible apply tickusWrite_kept | with_reducible apply cspCfgWrite_kept | with_reducible apply qinWrite_kept | with_reducible apply cspFlush_kept | with_reducible apply stxdWrite_kept | with_reducible apply cspRawWrite_kept | with_reducible apply ethCfgWrite_kept | with_reducible apply qbvCtrlWrite_kept | with_reducible apply mdioWrite_kept | with_reducible apply vlanWrite_kept | with_reducible apply ctSetGo_kept | with_reducible apply ctServoWrite_kept | with_reducible apply gptpCfgWrite_kept | with_reducible apply htypeWrite_kept | with_reducible apply hostCfg_kept | with_reducible apply hostTmoWrite_kept | with_reducible apply hostCtrlWrite_kept | with_reducible apply pwrCtrl_kept | with_reducible apply pwrCfgWrite_kept | with_reducible apply plainWrite_kept | with_reducible apply snsWrite_kept | with_reducible apply sogCfgWrite_kept | with_reducible apply hkcCtrlWrite_kept | with_reducible apply hkcRollWrite_kept | with_reducible apply pcoCtrlWrite_kept | with_reducible apply slotWrite_kept | with_reducible apply panelWrite_kept)

theorem quadWrite_kept {qt : Bool} {s₀ s : State} (h : Kept qt s₀ s) (w : Writer) (a : Nat) (lo hi : Option Word) : Kept qt s₀ (quadWrite w a lo hi s) := by
  unfold quadWrite
  repeat' first
    | with_reducible assumption
    | with_reducible apply Kept.refl
    | with_reducible apply setpointOffer_kept
    | with_reducible apply pcoConfigWrite_kept
    | with_reducible apply hostMac_kept
    | with_reducible apply plainWrite_kept
    | with_reducible apply Kept.ite
    | ((try lift_lets -underBinder); intro x; have hx : Kept qt s₀ x := ?_; (on_goal 1 => clear_value x); (on_goal 2 => dsimp only [x]))
    | ((try lift_lets -underBinder); intro x; clear_value x)
    | split

theorem regWrite_kept {s₀ s : State} (h : Kept false s₀ s) (w : Writer) (a : Nat) (v : Word) : Kept false s₀ (regWrite w a v s) := by
  unfold regWrite
  repeat' first
    | with_reducible assumption
    | with_reducible apply Kept.refl
    | with_reducible apply clearW1c_kept
    | with_reducible apply wordWrite_kept
    | with_reducible apply quadWrite_kept
    | with_reducible apply Kept.ite
    | ((try lift_lets -underBinder); intro x; have hx : Kept false s₀ x := ?_; (on_goal 1 => clear_value x); (on_goal 2 => dsimp only [x]))
    | ((try lift_lets -underBinder); intro x; clear_value x)
    | split

theorem State.stageFlush_kept {qt : Bool} {s₀ s : State} (h : Kept qt s₀ s) (h : Fin 8) : Kept qt s₀ (State.stageFlush s h) := by
  unfold State.stageFlush
  repeat' first
    | with_reducible assumption
    | with_reducible apply Kept.refl
    | with_reducible apply Kept.modHost
    | with_reducible apply quadWrite_kept
    | with_reducible apply Kept.ite
    | ((try lift_lets -underBinder); intro x; have hx : Kept qt s₀ x := ?_; (on_goal 1 => clear_value x); (on_goal 2 => dsimp only [x]))
    | ((try lift_lets -underBinder); intro x; clear_value x)
    | split
    | (with_reducible apply Kept.upd; first | with_reducible assumption | with_reducible apply Kept.refl | with_reducible apply Kept.modHost | with_reducible apply quadWrite_kept)

theorem State.stageOld_kept {qt : Bool} {s₀ s : State} (h : Kept qt s₀ s) (h : Fin 8) : Kept qt s₀ (State.stageOld s h) := by
  unfold State.stageOld
  repeat' first
    | with_reducible assumption
    | with_reducible apply Kept.refl
    | with_reducible apply State.stageFlush_kept
    | with_reducible apply Kept.ite
    | ((try lift_lets -underBinder); intro x; have hx : Kept qt s₀ x := ?_; (on_goal 1 => clear_value x); (on_goal 2 => dsimp only [x]))
    | ((try lift_lets -underBinder); intro x; clear_value x)
    | split

theorem writeStageExpiry_kept {qt : Bool} {s₀ s : State} (h : Kept qt s₀ s) (h : Fin 8) : Kept qt s₀ (writeStageExpiry h s) := by
  unfold writeStageExpiry
  repeat' first
    | with_reducible assumption
    | with_reducible apply Kept.refl
    | with_reducible apply State.stageFlush_kept
    | with_reducible apply Kept.ite
    | ((try lift_lets -underBinder); intro x; have hx : Kept qt s₀ x := ?_; (on_goal 1 => clear_value x); (on_goal 2 => dsimp only [x]))
    | ((try lift_lets -underBinder); intro x; clear_value x)
    | split
    | (with_reducible apply Kept.upd; first | with_reducible assumption | with_reducible apply Kept.refl | with_reducible apply State.stageFlush_kept)

theorem accessWrite_kept {s₀ s : State} (h : Kept false s₀ s) (w : Writer) (a : Nat) (v : Word) : Kept false s₀ (accessWrite w a v s) := by
  unfold accessWrite
  repeat' first
    | with_reducible assumption
    | with_reducible apply Kept.refl
    | with_reducible apply Kept.modHost
    | with_reducible apply quadWrite_kept
    | with_reducible apply regWrite_kept
    | with_reducible apply State.stageFlush_kept
    | with_reducible apply State.stageOld_kept
    | with_reducible apply Kept.ite
    | ((try lift_lets -underBinder); intro x; have hx : Kept false s₀ x := ?_; (on_goal 1 => clear_value x); (on_goal 2 => dsimp only [x]))
    | ((try lift_lets -underBinder); intro x; clear_value x)
    | split
    | (with_reducible apply Kept.upd; first | with_reducible assumption | with_reducible apply Kept.refl | with_reducible apply Kept.modHost | with_reducible apply quadWrite_kept | with_reducible apply regWrite_kept | with_reducible apply State.stageFlush_kept | with_reducible apply State.stageOld_kept)

theorem accessRead_kept {qt : Bool} {s₀ s : State} (h : Kept qt s₀ s) (w : Writer) (a : Nat) : Kept qt s₀ (accessRead w a s).2 := by
  unfold accessRead
  repeat' first
    | exact h
    | with_reducible apply Kept.modHost
    | with_reducible apply State.clearRc_kept
    | split

theorem winRead_kept {qt : Bool} {s₀ s : State} (h : Kept qt s₀ s) (w : Writer) (x : Win) (a i : Nat) : Kept qt s₀ (winRead w x a i s).2.2 := by
  cases x <;> first | exact h | exact h.draw | (unfold winRead; dsimp only; split <;> exact h)

theorem winWrite_kept {s₀ s : State} (h : Kept false s₀ s) (w : Writer) (x : Win) (a i : Nat) (v : Word) : Kept false s₀ (winWrite w x a i v s).2 := by
  cases x <;> first
    | exact h
    | exact h.wrMem a v
    | (unfold winWrite; dsimp only; split <;> first | exact h | exact programWrite_kept h _ _ _ | exact dataWrite_kept h _ _ _)

theorem frameRead_kept {qt : Bool} {s₀ s : State} (h : Kept qt s₀ s) (w : Writer) (start a : Nat) : Kept qt s₀ (frameRead w start a s).2.2 := by
  unfold frameRead
  split
  · exact h
  · exact h
  · split
    · exact winRead_kept h _ _ _ _
    · exact accessRead_kept h _ _

theorem frameWrite_kept {s₀ s : State} (h : Kept false s₀ s) (w : Writer) (start a : Nat) (v : Word) : Kept false s₀ (frameWrite w start a v s).2 := by
  unfold frameWrite
  split
  · exact h
  · exact h
  · split
    · exact winWrite_kept h _ _ _ _ _
    · exact accessWrite_kept h _ _ _

theorem frameRmw_kept {s₀ s : State} (h : Kept false s₀ s) (w : Writer) (a : Nat) (mask v : Word) : Kept false s₀ (frameRmw w a mask v s).2.2 := by
  unfold frameRmw
  split
  · exact h
  · exact h
  · split
    · exact winWrite_kept (winRead_kept h _ _ _ _) _ _ _ _ _
    · exact regWrite_kept h _ _ _

theorem frameReads_kept {qt : Bool} {s₀ : State} (w : Writer) (start k : Nat) :
    ∀ (a : Nat) {s : State}, Kept qt s₀ s → Kept qt s₀ (frameReads w start a k s).2.2 := by
  induction k with
  | zero => intro a s h; exact h
  | succ k ih => intro a s h; exact ih _ (frameRead_kept h _ _ _)

theorem frameWrites_kept {s₀ : State} (w : Writer) (start : Nat) (l : List Word) :
    ∀ (a : Nat) {s : State}, Kept false s₀ s → Kept false s₀ (frameWrites w start a l s).2 := by
  induction l with
  | nil => intro a s h; exact h
  | cons v l ih => intro a s h; exact ih _ (frameWrite_kept h _ _ _ _)

end Sys2Proof.Machine
end

