-- ==== Sys2Proof/Laws/KeepStreams.lean ====
section
/-! SUPPORT. What the operations of Machine/Streams.lean keep: one lemma per operation (Laws/Kept.lean). -/
namespace Sys2Proof.Machine
set_option linter.unusedTactic false
set_option linter.unreachableTactic false
set_option linter.unusedVariables false

theorem State.ctrlAnswer_kept {qt : Bool} {s₀ s : State} (h : Kept qt s₀ s) (k op seq status detail : Nat) (ws : List Word) : Kept qt s₀ (State.ctrlAnswer s k op seq status detail ws) := by
  unfold State.ctrlAnswer
  repeat' first
    | with_reducible assumption
    | with_reducible apply Kept.refl
    | with_reducible apply Kept.modStream
    | with_reducible apply Kept.ite
    | ((try lift_lets -underBinder); intro x; have hx : Kept qt s₀ x := ?_; (on_goal 1 => clear_value x); (on_goal 2 => dsimp only [x]))
    | ((try lift_lets -underBinder); intro x; clear_value x)

theorem State.control_kept {qt : Bool} {s₀ s : State} (h : Kept qt s₀ s) (k op seq : Nat) (stray : Bool) : Kept qt s₀ (State.control s k op seq stray) := by
  unfold State.control
  repeat' first
    | with_reducible assumption
    | with_reducible apply Kept.refl
    | with_reducible apply Kept.inc
    | with_reducible apply Kept.modStream
    | with_reducible apply State.reachHeads_kept
    | with_reducible apply State.ctrlAnswer_kept
    | with_reducible apply Kept.ite
    | ((try lift_lets -underBinder); intro x; have hx : Kept qt s₀ x := ?_; (on_goal 1 => clear_value x); (on_goal 2 => dsimp only [x]))
    | ((try lift_lets -underBinder); intro x; clear_value x)
    | split
    | (with_reducible apply Kept.upd; first | with_reducible assumption | with_reducible apply Kept.refl | with_reducible apply Kept.inc | with_reducible apply Kept.modStream | with_reducible apply State.reachHeads_kept | with_reducible apply State.ctrlAnswer_kept)

theorem takeControl_kept {qt : Bool} {s₀ s : State} (h : Kept qt s₀ s) (k op seq : Nat) (stray : Bool) : Kept qt s₀ (takeControl k op seq stray s) := by
  unfold takeControl
  repeat' first
    | with_reducible assumption
    | with_reducible apply Kept.refl
    | with_reducible apply Kept.modStream
    | with_reducible apply State.control_kept
    | with_reducible apply Kept.ite
    | ((try lift_lets -underBinder); intro x; have hx : Kept qt s₀ x := ?_; (on_goal 1 => clear_value x); (on_goal 2 => dsimp only [x]))
    | ((try lift_lets -underBinder); intro x; clear_value x)
    | split
    | (with_reducible apply Kept.upd; first | with_reducible assumption | with_reducible apply Kept.refl | with_reducible apply Kept.modStream | with_reducible apply State.control_kept)

theorem State.turnAway_kept {qt : Bool} {s₀ s : State} (h : Kept qt s₀ s) (k : Nat) (f : HostFrame) (status detail : Nat) : Kept qt s₀ (State.turnAway s k f status detail) := by
  unfold State.turnAway
  repeat' first
    | with_reducible assumption
    | with_reducible apply Kept.refl
    | with_reducible apply Kept.modStream
    | with_reducible apply Kept.ite
    | ((try lift_lets -underBinder); intro x; have hx : Kept qt s₀ x := ?_; (on_goal 1 => clear_value x); (on_goal 2 => dsimp only [x]))
    | ((try lift_lets -underBinder); intro x; clear_value x)
    | (with_reducible apply Kept.upd; first | with_reducible assumption | with_reducible apply Kept.refl | with_reducible apply Kept.modStream)

theorem State.accept_kept {qt : Bool} {s₀ s : State} (h : Kept qt s₀ s) (k : Nat) (f : HostFrame) : Kept qt s₀ (State.accept s k f) := by
  unfold State.accept
  repeat' first
    | with_reducible assumption
    | with_reducible apply Kept.refl
    | with_reducible apply Kept.inc
    | with_reducible apply Kept.modStream
    | with_reducible apply State.reachHead_kept
    | with_reducible apply Kept.ite
    | ((try lift_lets -underBinder); intro x; have hx : Kept qt s₀ x := ?_; (on_goal 1 => clear_value x); (on_goal 2 => dsimp only [x]))
    | ((try lift_lets -underBinder); intro x; clear_value x)
    | split
    | (with_reducible apply Kept.upd; first | with_reducible assumption | with_reducible apply Kept.refl | with_reducible apply Kept.inc | with_reducible apply Kept.modStream | with_reducible apply State.reachHead_kept)

theorem State.queuedFrame_kept {qt : Bool} {s₀ s : State} (h : Kept qt s₀ s) (k : Nat) (f : HostFrame) : Kept qt s₀ (State.queuedFrame s k f) := by
  unfold State.queuedFrame
  repeat' first
    | with_reducible assumption
    | with_reducible apply Kept.refl
    | with_reducible apply Kept.inc
    | with_reducible apply State.turnAway_kept
    | with_reducible apply State.accept_kept
    | with_reducible apply Kept.ite
    | ((try lift_lets -underBinder); intro x; have hx : Kept qt s₀ x := ?_; (on_goal 1 => clear_value x); (on_goal 2 => dsimp only [x]))
    | ((try lift_lets -underBinder); intro x; clear_value x)
    | split

theorem State.hostFrame_kept {qt : Bool} {s₀ s : State} (h : Kept qt s₀ s) (port : Nat) (src : Option Nat) (f : HostFrame) : Kept qt s₀ (State.hostFrame s port src f) := by
  unfold State.hostFrame
  repeat' first
    | with_reducible assumption
    | with_reducible apply Kept.refl
    | with_reducible apply Kept.put
    | with_reducible apply Kept.inc
    | with_reducible apply Kept.modHost
    | with_reducible apply takeControl_kept
    | with_reducible apply State.queuedFrame_kept
    | with_reducible apply Kept.ite
    | ((try lift_lets -underBinder); intro x; have hx : Kept qt s₀ x := ?_; (on_goal 1 => clear_value x); (on_goal 2 => dsimp only [x]))
    | ((try lift_lets -underBinder); intro x; clear_value x)
    | split
    | (with_reducible apply Kept.upd; first | with_reducible assumption | with_reducible apply Kept.refl | with_reducible apply Kept.put | with_reducible apply Kept.inc | with_reducible apply Kept.modHost | with_reducible apply takeControl_kept | with_reducible apply State.queuedFrame_kept)

theorem frameReceive_kept {qt : Bool} {s₀ s : State} (h : Kept qt s₀ s) (port : Nat) : Kept qt s₀ (frameReceive port s) := by
  unfold frameReceive
  repeat' first
    | with_reducible assumption
    | with_reducible apply Kept.refl
    | with_reducible apply Kept.inc
    | with_reducible apply Kept.setEth
    | with_reducible apply State.upCsp_kept
    | with_reducible apply State.ethCount_kept
    | with_reducible apply State.hostFrame_kept
    | with_reducible apply Kept.ite
    | ((try lift_lets -underBinder); intro x; have hx : Kept qt s₀ x := ?_; (on_goal 1 => clear_value x); (on_goal 2 => dsimp only [x]))
    | ((try lift_lets -underBinder); intro x; clear_value x)
    | split
    | (with_reducible apply Kept.upd; first | with_reducible assumption | with_reducible apply Kept.refl | with_reducible apply Kept.inc | with_reducible apply Kept.setEth | with_reducible apply State.upCsp_kept | with_reducible apply State.ethCount_kept | with_reducible apply State.hostFrame_kept)

theorem State.finishWrite_kept {qt : Bool} {s₀ s : State} (h : Kept qt s₀ s) (k : Nat) (c : Cmd) (flags : Nat) (ws : List Word) : Kept qt s₀ (State.finishWrite s k c flags ws) := by
  unfold State.finishWrite
  repeat' first
    | with_reducible assumption
    | with_reducible apply Kept.refl
    | with_reducible apply Kept.modStream
    | with_reducible apply State.finish_kept
    | with_reducible apply Kept.ite
    | ((try lift_lets -underBinder); intro x; have hx : Kept qt s₀ x := ?_; (on_goal 1 => clear_value x); (on_goal 2 => dsimp only [x]))
    | ((try lift_lets -underBinder); intro x; clear_value x)
    | split
    | (with_reducible apply Kept.upd; first | with_reducible assumption | with_reducible apply Kept.refl | with_reducible apply Kept.modStream | with_reducible apply State.finish_kept)

theorem readCmd_kept {qt : Bool} {s₀ s : State} (h : Kept qt s₀ s) (k : Nat) : Kept qt s₀ (readCmd k s) := by
  unfold readCmd
  refine State.runHead_kept h _ _ _ (fun c t ht => ?_)
  exact State.finish_kept (frameReads_kept _ _ _ _ ht) _ _ _ _ _ _

theorem writeCmd_kept {s₀ s : State} (h : Kept false s₀ s) (k : Nat) : Kept false s₀ (writeCmd k s) := by
  unfold writeCmd
  refine State.runHead_kept h _ _ _ (fun c t ht => ?_)
  exact State.finishWrite_kept (frameWrites_kept _ _ _ _ ht) _ _ _ _

theorem rmwCmd_kept {s₀ s : State} (h : Kept false s₀ s) (k : Nat) : Kept false s₀ (rmwCmd k s) := by
  unfold rmwCmd
  refine State.runHead_kept h _ _ _ (fun c t ht => ?_)
  exact State.finishWrite_kept (frameRmw_kept ht _ _ _ _) _ _ _ _

theorem State.runSlot_kept {qt : Bool} {s₀ s : State} (h : Kept qt s₀ s) (k func : Nat) {f : Cmd → State → State}
    (hf : ∀ c t, Kept qt s₀ t → Kept qt s₀ (f c t)) : Kept qt s₀ (State.runSlot s k func f) := by
  unfold State.runSlot
  refine State.runHead_kept h _ _ _ (fun c t ht => ?_)
  exact Kept.ite (hf c t ht) (State.answer_kept ht _ _ _ _ _ _)

theorem State.waitRoom_kept {qt : Bool} {s₀ s : State} (h : Kept qt s₀ s) (k next : Nat) (ixs : List Nat) : Kept qt s₀ (State.waitRoom s k next ixs) := by
  unfold State.waitRoom
  repeat' first
    | with_reducible assumption
    | with_reducible apply Kept.refl
    | with_reducible apply Kept.modStream
    | with_reducible apply Kept.ite
    | ((try lift_lets -underBinder); intro x; have hx : Kept qt s₀ x := ?_; (on_goal 1 => clear_value x); (on_goal 2 => dsimp only [x]))
    | ((try lift_lets -underBinder); intro x; clear_value x)
    | (with_reducible apply Kept.upd; first | with_reducible assumption | with_reducible apply Kept.refl | with_reducible apply Kept.modStream)

theorem placeEntries_kept {qt : Bool} {s₀ : State} (k : Nat) (c : Cmd) (es : List (List Word)) :
    ∀ (next : Nat) (ixs : List Nat) {s : State}, Kept qt s₀ s → Kept qt s₀ (placeEntries k c next ixs es s) := by
  induction es with
  | nil =>
    intro next ixs s h
    unfold placeEntries
    split
    · exact Kept.modStream h _ _
    · exact State.finish_kept h _ _ _ _ _ _
  | cons e es ih =>
    intro next ixs s h
    unfold placeEntries
    dsimp only
    split
    · split
      · exact State.waitRoom_kept h _ _ _
      · have g := State.offerPitch_kept h c.slot e
        split
        · rename_i heq; rw [heq] at g; exact ih _ _ (State.syncWait_kept g _)
        · rename_i heq; rw [heq] at g; exact State.finish_kept (g.err _ _) _ _ _ _ _ _
    · split
      · exact State.finish_kept (h.err _ _) _ _ _ _ _ _
      · split
        · exact State.waitRoom_kept h _ _ _
        · exact ih _ _ (State.bufferPoint_kept h _ _ _ _ _)

theorem commandRoomFreed_kept {qt : Bool} {s₀ s : State} (h : Kept qt s₀ s) (k : Nat) : Kept qt s₀ (commandRoomFreed k s) := by
  unfold commandRoomFreed
  dsimp only
  split
  · exact Kept.ite (placeEntries_kept _ _ _ _ _ h) h
  · exact h

theorem ctrlCmd_kept {qt : Bool} {s₀ s : State} (h : Kept qt s₀ s) (k : Nat) (c : Cmd) : Kept qt s₀ (ctrlCmd k c s) := by
  unfold ctrlCmd
  repeat' first
    | with_reducible assumption
    | with_reducible apply Kept.refl
    | with_reducible apply Kept.err
    | with_reducible apply Kept.modStream
    | with_reducible apply State.finish_kept
    | with_reducible apply axCtrl_kept
    | with_reducible apply Kept.ite
    | ((try lift_lets -underBinder); intro x; have hx : Kept qt s₀ x := ?_; (on_goal 1 => clear_value x); (on_goal 2 => dsimp only [x]))
    | ((try lift_lets -underBinder); intro x; clear_value x)
    | split
    | (with_reducible apply Kept.upd; first | with_reducible assumption | with_reducible apply Kept.refl | with_reducible apply Kept.err | with_reducible apply Kept.modStream | with_reducible apply State.finish_kept | with_reducible apply axCtrl_kept)

theorem qctrlCmd_kept {qt : Bool} {s₀ s : State} (h : Kept qt s₀ s) (k : Nat) (c : Cmd) : Kept qt s₀ (qctrlCmd k c s) := by
  unfold qctrlCmd
  repeat' first
    | with_reducible assumption
    | with_reducible apply Kept.refl
    | with_reducible apply Kept.modStream
    | with_reducible apply State.finish_kept
    | with_reducible apply clearW1c_kept
    | with_reducible apply pitqCtrlWrite_kept
    | with_reducible apply Kept.ite
    | ((try lift_lets -underBinder); intro x; have hx : Kept qt s₀ x := ?_; (on_goal 1 => clear_value x); (on_goal 2 => dsimp only [x]))
    | ((try lift_lets -underBinder); intro x; clear_value x)
    | split
    | (with_reducible apply Kept.upd; first | with_reducible assumption | with_reducible apply Kept.refl | with_reducible apply Kept.modStream | with_reducible apply State.finish_kept | with_reducible apply clearW1c_kept | with_reducible apply pitqCtrlWrite_kept)

theorem waitdoneMet_kept {qt : Bool} {s₀ s : State} (h : Kept qt s₀ s) (k : Nat) : Kept qt s₀ (waitdoneMet k s) := by
  unfold waitdoneMet
  repeat' first
    | with_reducible assumption
    | with_reducible apply Kept.refl
    | with_reducible apply State.answer_kept
    | with_reducible apply Kept.ite
    | ((try lift_lets -underBinder); intro x; have hx : Kept qt s₀ x := ?_; (on_goal 1 => clear_value x); (on_goal 2 => dsimp only [x]))
    | ((try lift_lets -underBinder); intro x; clear_value x)
    | split

theorem anchorCmd_kept {qt : Bool} {s₀ s : State} (h : Kept qt s₀ s) (k : Nat) : Kept qt s₀ (anchorCmd k s) := by
  unfold anchorCmd
  repeat' first
    | with_reducible assumption
    | with_reducible apply Kept.refl
    | (with_reducible refine Kept.each ?_ _ (fun _ t _ => ?_))
    | with_reducible apply State.answer_kept
    | (with_reducible refine State.runHead_kept ?_ _ _ _ (fun _ t _ => ?_))
    | with_reducible apply State.claimAnchor_kept
    | with_reducible apply Kept.ite
    | ((try lift_lets -underBinder); intro x; have hx : Kept qt s₀ x := ?_; (on_goal 1 => clear_value x); (on_goal 2 => dsimp only [x]))
    | ((try lift_lets -underBinder); intro x; clear_value x)
    | split

theorem releaseCmd_kept {qt : Bool} {s₀ s : State} (h : Kept qt s₀ s) (k : Nat) : Kept qt s₀ (releaseCmd k s) := by
  unfold releaseCmd
  repeat' first
    | with_reducible assumption
    | with_reducible apply Kept.refl
    | (with_reducible refine Kept.each ?_ _ (fun _ t _ => ?_))
    | with_reducible apply State.answer_kept
    | (with_reducible refine State.runHead_kept ?_ _ _ _ (fun _ t _ => ?_))
    | with_reducible apply State.freeAnchor_kept
    | with_reducible apply Kept.ite
    | ((try lift_lets -underBinder); intro x; have hx : Kept qt s₀ x := ?_; (on_goal 1 => clear_value x); (on_goal 2 => dsimp only [x]))
    | ((try lift_lets -underBinder); intro x; clear_value x)
    | split

theorem fenceCmd_kept {qt : Bool} {s₀ s : State} (h : Kept qt s₀ s) (k : Nat) : Kept qt s₀ (fenceCmd k s) := by
  unfold fenceCmd
  repeat' first
    | with_reducible assumption
    | with_reducible apply Kept.refl
    | (with_reducible refine State.runHead_kept ?_ _ _ _ (fun _ t _ => ?_))
    | with_reducible apply Kept.ite
    | ((try lift_lets -underBinder); intro x; have hx : Kept qt s₀ x := ?_; (on_goal 1 => clear_value x); (on_goal 2 => dsimp only [x]))
    | ((try lift_lets -underBinder); intro x; clear_value x)

theorem fenceComplete_kept {qt : Bool} {s₀ s : State} (h : Kept qt s₀ s) (k : Nat) : Kept qt s₀ (fenceComplete k s) := by
  unfold fenceComplete
  repeat' first
    | with_reducible assumption
    | with_reducible apply Kept.refl
    | with_reducible apply State.answer_kept
    | with_reducible apply Kept.ite
    | ((try lift_lets -underBinder); intro x; have hx : Kept qt s₀ x := ?_; (on_goal 1 => clear_value x); (on_goal 2 => dsimp only [x]))
    | ((try lift_lets -underBinder); intro x; clear_value x)
    | split

theorem swapCmd_kept {qt : Bool} {s₀ s : State} (h : Kept qt s₀ s) (k : Nat) : Kept qt s₀ (swapCmd k s) := by
  unfold swapCmd
  repeat' first
    | with_reducible assumption
    | with_reducible apply Kept.refl
    | with_reducible apply Kept.wr
    | with_reducible apply State.answer_kept
    | (with_reducible refine State.runHead_kept ?_ _ _ _ (fun _ t _ => ?_))
    | with_reducible apply State.swapStart_kept
    | with_reducible apply State.swapCancel_kept
    | with_reducible apply Kept.ite
    | ((try lift_lets -underBinder); intro x; have hx : Kept qt s₀ x := ?_; (on_goal 1 => clear_value x); (on_goal 2 => dsimp only [x]))
    | ((try lift_lets -underBinder); intro x; clear_value x)
    | split

theorem State.countEnds_kept {qt : Bool} {s₀ s : State} (h : Kept qt s₀ s) (h words : Nat) : Kept qt s₀ (State.countEnds s h words) := by
  unfold State.countEnds
  repeat' first
    | with_reducible assumption
    | with_reducible apply Kept.refl
    | with_reducible apply Kept.setCsp
    | with_reducible apply Kept.ite
    | ((try lift_lets -underBinder); intro x; have hx : Kept qt s₀ x := ?_; (on_goal 1 => clear_value x); (on_goal 2 => dsimp only [x]))
    | ((try lift_lets -underBinder); intro x; clear_value x)
    | split
    | (with_reducible apply Kept.upd; first | with_reducible assumption | with_reducible apply Kept.refl | with_reducible apply Kept.setCsp)

theorem State.sendOn_kept {qt : Bool} {s₀ s : State} (h : Kept qt s₀ s) (p : Nat) (f : OutFrame) : Kept qt s₀ (State.sendOn s p f) := by
  unfold State.sendOn
  repeat' first
    | with_reducible assumption
    | with_reducible apply Kept.refl
    | with_reducible apply Kept.setCsp
    | with_reducible apply State.enqueue_kept
    | with_reducible apply Kept.ite
    | ((try lift_lets -underBinder); intro x; have hx : Kept qt s₀ x := ?_; (on_goal 1 => clear_value x); (on_goal 2 => dsimp only [x]))
    | ((try lift_lets -underBinder); intro x; clear_value x)
    | split
    | (with_reducible apply Kept.upd; first | with_reducible assumption | with_reducible apply Kept.refl | with_reducible apply Kept.setCsp | with_reducible apply State.enqueue_kept)

theorem responseSend_kept {s₀ s : State} (h : Kept false s₀ s) (k : Nat) : Kept false s₀ (responseSend k s) := by
  unfold responseSend
  repeat' first
    | with_reducible assumption
    | with_reducible apply Kept.refl
    | with_reducible apply Kept.setStream
    | with_reducible apply State.enterReset_kept
    | with_reducible apply State.countEnds_kept
    | with_reducible apply State.sendOn_kept
    | with_reducible apply Kept.ite
    | ((try lift_lets -underBinder); intro x; have hx : Kept false s₀ x := ?_; (on_goal 1 => clear_value x); (on_goal 2 => dsimp only [x]))
    | ((try lift_lets -underBinder); intro x; clear_value x)
    | split
    | (with_reducible apply Kept.upd; first | with_reducible assumption | with_reducible apply Kept.refl | with_reducible apply Kept.setStream | with_reducible apply State.enterReset_kept | with_reducible apply State.countEnds_kept | with_reducible apply State.sendOn_kept)

theorem notifySend_kept {qt : Bool} {s₀ s : State} (h : Kept qt s₀ s) (h : Nat) : Kept qt s₀ (notifySend h s) := by
  unfold notifySend
  repeat' first
    | with_reducible assumption
    | with_reducible apply Kept.refl
    | with_reducible apply Kept.modHost
    | with_reducible apply notify_kept
    | with_reducible apply State.countEnds_kept
    | with_reducible apply State.sendOn_kept
    | with_reducible apply Kept.ite
    | ((try lift_lets -underBinder); intro x; have hx : Kept qt s₀ x := ?_; (on_goal 1 => clear_value x); (on_goal 2 => dsimp only [x]))
    | ((try lift_lets -underBinder); intro x; clear_value x)
    | split
    | (with_reducible apply Kept.upd; first | with_reducible assumption | with_reducible apply Kept.refl | with_reducible apply Kept.modHost | with_reducible apply notify_kept | with_reducible apply State.countEnds_kept | with_reducible apply State.sendOn_kept)

end Sys2Proof.Machine
end

