-- ==== Sys2Proof/Laws/KeepImages.lean ====
section
/-! SUPPORT. What the operations of Machine/Images.lean keep: one lemma per operation (Laws/Kept.lean). -/
namespace Sys2Proof.Machine
set_option linter.unusedTactic false
set_option linter.unreachableTactic false
set_option linter.unusedVariables false

theorem State.runImage_kept {qt : Bool} {s₀ s : State} (h : Kept qt s₀ s) (k sub : Nat) {f : Cmd → State → State}
    (hf : ∀ c t, Kept qt s₀ t → Kept qt s₀ (f c t)) : Kept qt s₀ (State.runImage s k sub f) := by
  unfold State.runImage
  refine State.runHead_kept h _ _ _ (fun c t ht => ?_)
  exact hf c t ht

theorem State.unloadIdle_kept {qt : Bool} {s₀ s : State} (h : Kept qt s₀ s) (c : Cmd) : Kept qt s₀ (State.unloadIdle s c) := by
  unfold State.unloadIdle
  repeat' first
    | with_reducible assumption
    | with_reducible apply Kept.refl
    | (with_reducible refine Kept.each ?_ _ (fun _ t _ => ?_))
    | with_reducible apply Kept.put
    | with_reducible apply Kept.ite
    | ((try lift_lets -underBinder); intro x; have hx : Kept qt s₀ x := ?_; (on_goal 1 => clear_value x); (on_goal 2 => dsimp only [x]))
    | ((try lift_lets -underBinder); intro x; clear_value x)
    | split

theorem imageBegin_kept {s₀ s : State} (h : Kept false s₀ s) (k : Nat) : Kept false s₀ (imageBegin k s) := by
  unfold imageBegin
  repeat' first
    | with_reducible assumption
    | with_reducible apply Kept.refl
    | with_reducible apply Kept.wr
    | with_reducible apply State.answer_kept
    | with_reducible apply State.storeImg_kept
    | with_reducible apply State.endSession_kept
    | (with_reducible refine State.runImage_kept ?_ _ _ (fun _ t _ => ?_))
    | with_reducible apply State.unloadIdle_kept
    | with_reducible apply Kept.ite
    | ((try lift_lets -underBinder); intro x; have hx : Kept false s₀ x := ?_; (on_goal 1 => clear_value x); (on_goal 2 => dsimp only [x]))
    | ((try lift_lets -underBinder); intro x; clear_value x)
    | split
    | (with_reducible apply Kept.upd; first | with_reducible assumption | with_reducible apply Kept.refl | with_reducible apply Kept.wr | with_reducible apply State.answer_kept | with_reducible apply State.storeImg_kept | with_reducible apply State.endSession_kept | (with_reducible refine State.runImage_kept ?_ _ _ (fun _ t _ => ?_)) | with_reducible apply State.unloadIdle_kept)

theorem imageData_kept {s₀ s : State} (h : Kept false s₀ s) (k : Nat) : Kept false s₀ (imageData k s) := by
  unfold imageData
  repeat' first
    | with_reducible assumption
    | with_reducible apply Kept.refl
    | with_reducible apply Kept.put
    | with_reducible apply State.answer_kept
    | with_reducible apply State.setImg_kept
    | (with_reducible refine State.runImage_kept ?_ _ _ (fun _ t _ => ?_))
    | with_reducible apply Kept.ite
    | ((try lift_lets -underBinder); intro x; have hx : Kept false s₀ x := ?_; (on_goal 1 => clear_value x); (on_goal 2 => dsimp only [x]))
    | ((try lift_lets -underBinder); intro x; clear_value x)
    | split
    | (with_reducible apply Kept.upd; first | with_reducible assumption | with_reducible apply Kept.refl | with_reducible apply Kept.put | with_reducible apply State.answer_kept | with_reducible apply State.setImg_kept | (with_reducible refine State.runImage_kept ?_ _ _ (fun _ t _ => ?_)))

theorem imageCommit_kept {s₀ s : State} (h : Kept false s₀ s) (k : Nat) : Kept false s₀ (imageCommit k s) := by
  unfold imageCommit
  repeat' first
    | with_reducible assumption
    | with_reducible apply Kept.refl
    | with_reducible apply Kept.put
    | with_reducible apply State.answer_kept
    | with_reducible apply State.storeImg_kept
    | with_reducible apply State.endSession_kept
    | (with_reducible refine State.runImage_kept ?_ _ _ (fun _ t _ => ?_))
    | with_reducible apply Kept.ite
    | ((try lift_lets -underBinder); intro x; have hx : Kept false s₀ x := ?_; (on_goal 1 => clear_value x); (on_goal 2 => dsimp only [x]))
    | ((try lift_lets -underBinder); intro x; clear_value x)
    | split

theorem imageAbort_kept {s₀ s : State} (h : Kept false s₀ s) (k : Nat) : Kept false s₀ (imageAbort k s) := by
  unfold imageAbort
  repeat' first
    | with_reducible assumption
    | with_reducible apply Kept.refl
    | with_reducible apply State.answer_kept
    | with_reducible apply State.endSession_kept
    | (with_reducible refine State.runImage_kept ?_ _ _ (fun _ t _ => ?_))
    | with_reducible apply Kept.ite
    | ((try lift_lets -underBinder); intro x; have hx : Kept false s₀ x := ?_; (on_goal 1 => clear_value x); (on_goal 2 => dsimp only [x]))
    | ((try lift_lets -underBinder); intro x; clear_value x)
    | split

theorem imageErase_kept {s₀ s : State} (h : Kept false s₀ s) (k : Nat) : Kept false s₀ (imageErase k s) := by
  unfold imageErase
  repeat' first
    | with_reducible assumption
    | with_reducible apply Kept.refl
    | with_reducible apply State.answer_kept
    | with_reducible apply State.storeImg_kept
    | (with_reducible refine State.runImage_kept ?_ _ _ (fun _ t _ => ?_))
    | with_reducible apply State.unloadIdle_kept
    | with_reducible apply Kept.ite
    | ((try lift_lets -underBinder); intro x; have hx : Kept false s₀ x := ?_; (on_goal 1 => clear_value x); (on_goal 2 => dsimp only [x]))
    | ((try lift_lets -underBinder); intro x; clear_value x)
    | split

theorem imageSetflag_kept {qt : Bool} {s₀ s : State} (h : Kept qt s₀ s) (k : Nat) : Kept qt s₀ (imageSetflag k s) := by
  unfold imageSetflag
  repeat' first
    | with_reducible assumption
    | with_reducible apply Kept.refl
    | with_reducible apply Kept.put
    | with_reducible apply State.answer_kept
    | (with_reducible refine State.runImage_kept ?_ _ _ (fun _ t _ => ?_))
    | with_reducible apply Kept.ite
    | ((try lift_lets -underBinder); intro x; have hx : Kept qt s₀ x := ?_; (on_goal 1 => clear_value x); (on_goal 2 => dsimp only [x]))
    | ((try lift_lets -underBinder); intro x; clear_value x)
    | split

theorem applyRecord_kept {s₀ s : State} (h : Kept false s₀ s) (kind : Nat) (r : Nat × Word) : Kept false s₀ (applyRecord kind r s) := by
  unfold applyRecord
  dsimp only
  repeat' first
    | with_reducible assumption
    | with_reducible apply winWrite_kept
    | with_reducible apply regWrite_kept
    | with_reducible apply Kept.inc
    | split

theorem State.applyImage_kept {s₀ s : State} (h : Kept false s₀ s) (kind : Nat) (x : Img) : Kept false s₀ (State.applyImage s kind x) := by
  unfold State.applyImage
  repeat' first
    | with_reducible assumption
    | with_reducible apply Kept.refl
    | (with_reducible refine Kept.each ?_ _ (fun _ t _ => ?_))
    | with_reducible apply applyRecord_kept
    | with_reducible apply Kept.ite
    | ((try lift_lets -underBinder); intro x; have hx : Kept false s₀ x := ?_; (on_goal 1 => clear_value x); (on_goal 2 => dsimp only [x]))
    | ((try lift_lets -underBinder); intro x; clear_value x)

theorem imageApply_kept {s₀ s : State} (h : Kept false s₀ s) (k : Nat) : Kept false s₀ (imageApply k s) := by
  unfold imageApply
  repeat' first
    | with_reducible assumption
    | with_reducible apply Kept.refl
    | with_reducible apply State.answer_kept
    | with_reducible apply State.finishWrite_kept
    | (with_reducible refine State.runImage_kept ?_ _ _ (fun _ t _ => ?_))
    | with_reducible apply State.applyImage_kept
    | with_reducible apply Kept.ite
    | ((try lift_lets -underBinder); intro x; have hx : Kept false s₀ x := ?_; (on_goal 1 => clear_value x); (on_goal 2 => dsimp only [x]))
    | ((try lift_lets -underBinder); intro x; clear_value x)
    | split

theorem State.newImgNonce_kept {qt : Bool} {s₀ s : State} (h : Kept qt s₀ s) : Kept qt s₀ (State.newImgNonce s) := by
  unfold State.newImgNonce
  repeat' first
    | with_reducible assumption
    | with_reducible apply Kept.refl
    | with_reducible apply Kept.wr64
    | with_reducible apply Kept.draw
    | with_reducible apply Kept.ite
    | ((try lift_lets -underBinder); intro x; have hx : Kept qt s₀ x := ?_; (on_goal 1 => clear_value x); (on_goal 2 => dsimp only [x]))
    | ((try lift_lets -underBinder); intro x; clear_value x)

theorem State.programOtp_kept {s₀ s : State} (h : Kept false s₀ s) (i : Nat) (l : List Word) : Kept false s₀ (State.programOtp s i l) := by
  induction l generalizing s i with
  | nil => exact h
  | cons w l ih => exact ih (h.stored (t := { s with otp := tabSet otpReset s.otp i w }) rfl id rfl rfl) _

theorem imageKeyprog_kept {s₀ s : State} (h : Kept false s₀ s) (k : Nat) : Kept false s₀ (imageKeyprog k s) := by
  unfold imageKeyprog
  repeat' first
    | with_reducible assumption
    | with_reducible apply Kept.refl
    | with_reducible apply State.answer_kept
    | (with_reducible refine State.runImage_kept ?_ _ _ (fun _ t _ => ?_))
    | with_reducible apply State.newImgNonce_kept
    | with_reducible apply State.programOtp_kept
    | with_reducible apply Kept.ite
    | ((try lift_lets -underBinder); intro x; have hx : Kept false s₀ x := ?_; (on_goal 1 => clear_value x); (on_goal 2 => dsimp only [x]))
    | ((try lift_lets -underBinder); intro x; clear_value x)
    | split

theorem imageRevoke_kept {s₀ s : State} (h : Kept false s₀ s) (k : Nat) : Kept false s₀ (imageRevoke k s) := by
  unfold imageRevoke
  repeat' first
    | with_reducible assumption
    | with_reducible apply Kept.refl
    | with_reducible apply State.answer_kept
    | (with_reducible refine State.runImage_kept ?_ _ _ (fun _ t _ => ?_))
    | with_reducible apply State.newImgNonce_kept
    | with_reducible apply State.programOtp_kept
    | with_reducible apply Kept.ite
    | ((try lift_lets -underBinder); intro x; have hx : Kept false s₀ x := ?_; (on_goal 1 => clear_value x); (on_goal 2 => dsimp only [x]))
    | ((try lift_lets -underBinder); intro x; clear_value x)
    | split

theorem imageSecprog_kept {s₀ s : State} (h : Kept false s₀ s) (k : Nat) : Kept false s₀ (imageSecprog k s) := by
  unfold imageSecprog
  repeat' first
    | with_reducible assumption
    | with_reducible apply Kept.refl
    | with_reducible apply State.answer_kept
    | with_reducible apply State.accept_kept
    | (with_reducible refine State.runImage_kept ?_ _ _ (fun _ t _ => ?_))
    | with_reducible apply State.programOtp_kept
    | with_reducible apply Kept.ite
    | ((try lift_lets -underBinder); intro x; have hx : Kept false s₀ x := ?_; (on_goal 1 => clear_value x); (on_goal 2 => dsimp only [x]))
    | ((try lift_lets -underBinder); intro x; clear_value x)
    | split

theorem State.acceptRoutes_kept {s₀ s : State} (h : Kept false s₀ s) : Kept false s₀ (State.acceptRoutes s) := by
  unfold State.acceptRoutes
  dsimp only
  apply State.syncDirectory_kept
  exact h.stored rfl id rfl rfl

theorem acceptUntested_kept {s₀ s : State} (h : Kept false s₀ s) (k : Nat) : Kept false s₀ (acceptUntested k s) := by
  unfold acceptUntested
  repeat' first
    | with_reducible assumption
    | with_reducible apply Kept.refl
    | with_reducible apply Kept.put
    | with_reducible apply Kept.inc
    | with_reducible apply State.answer_kept
    | (with_reducible refine State.runHead_kept ?_ _ _ _ (fun _ t _ => ?_))
    | with_reducible apply State.newImgNonce_kept
    | with_reducible apply State.acceptRoutes_kept
    | with_reducible apply Kept.ite
    | ((try lift_lets -underBinder); intro x; have hx : Kept false s₀ x := ?_; (on_goal 1 => clear_value x); (on_goal 2 => dsimp only [x]))
    | ((try lift_lets -underBinder); intro x; clear_value x)
    | split

theorem imageHandover_kept {qt : Bool} {s₀ s : State} (h : Kept qt s₀ s) (k : Nat) : Kept qt s₀ (imageHandover k s) := by
  unfold imageHandover
  repeat' first
    | with_reducible assumption
    | with_reducible apply Kept.refl
    | with_reducible apply Kept.put
    | with_reducible apply State.answer_kept
    | (with_reducible refine State.runImage_kept ?_ _ _ (fun _ t _ => ?_))
    | with_reducible apply Kept.ite
    | ((try lift_lets -underBinder); intro x; have hx : Kept qt s₀ x := ?_; (on_goal 1 => clear_value x); (on_goal 2 => dsimp only [x]))
    | ((try lift_lets -underBinder); intro x; clear_value x)
    | split
    | (with_reducible apply Kept.upd; first | with_reducible assumption | with_reducible apply Kept.refl | with_reducible apply Kept.put | with_reducible apply State.answer_kept | (with_reducible refine State.runImage_kept ?_ _ _ (fun _ t _ => ?_)))

theorem State.suspend_kept {qt : Bool} {s₀ s : State} (h : Kept qt s₀ s) : Kept qt s₀ (State.suspend s) := by
  unfold State.suspend
  repeat' first
    | with_reducible assumption
    | with_reducible apply Kept.refl
    | (with_reducible refine Kept.each ?_ _ (fun _ t _ => ?_))
    | with_reducible apply Kept.modStream
    | with_reducible apply Kept.ite
    | ((try lift_lets -underBinder); intro x; have hx : Kept qt s₀ x := ?_; (on_goal 1 => clear_value x); (on_goal 2 => dsimp only [x]))
    | ((try lift_lets -underBinder); intro x; clear_value x)
    | split
    | (with_reducible apply Kept.upd; first | with_reducible assumption | with_reducible apply Kept.refl | (with_reducible refine Kept.each ?_ _ (fun _ t _ => ?_)) | with_reducible apply Kept.modStream)

theorem State.resumeStreams_kept {qt : Bool} {s₀ s : State} (h : Kept qt s₀ s) : Kept qt s₀ (State.resumeStreams s) := by
  unfold State.resumeStreams
  repeat' first
    | with_reducible assumption
    | with_reducible apply Kept.refl
    | (with_reducible refine Kept.each ?_ _ (fun _ t _ => ?_))
    | with_reducible apply Kept.modStream
    | with_reducible apply Kept.modHost
    | with_reducible apply State.reachHead_kept
    | with_reducible apply State.control_kept
    | with_reducible apply Kept.ite
    | ((try lift_lets -underBinder); intro x; have hx : Kept qt s₀ x := ?_; (on_goal 1 => clear_value x); (on_goal 2 => dsimp only [x]))
    | ((try lift_lets -underBinder); intro x; clear_value x)
    | split
    | (with_reducible apply Kept.upd; first | with_reducible assumption | with_reducible apply Kept.refl | (with_reducible refine Kept.each ?_ _ (fun _ t _ => ?_)) | with_reducible apply Kept.modStream | with_reducible apply Kept.modHost | with_reducible apply State.reachHead_kept | with_reducible apply State.control_kept)

theorem State.answerHandover_kept {qt : Bool} {s₀ s : State} (h : Kept qt s₀ s) (k status detail : Nat) (ws : List Word) : Kept qt s₀ (State.answerHandover s k status detail ws) := by
  unfold State.answerHandover
  repeat' first
    | with_reducible assumption
    | with_reducible apply Kept.refl
    | with_reducible apply State.answer_kept
    | with_reducible apply Kept.ite
    | ((try lift_lets -underBinder); intro x; have hx : Kept qt s₀ x := ?_; (on_goal 1 => clear_value x); (on_goal 2 => dsimp only [x]))
    | ((try lift_lets -underBinder); intro x; clear_value x)
    | split

theorem State.failHandover_kept {qt : Bool} {s₀ s : State} (h : Kept qt s₀ s) (k : Nat) : Kept qt s₀ (State.failHandover s k) := by
  unfold State.failHandover
  repeat' first
    | with_reducible assumption
    | with_reducible apply Kept.refl
    | with_reducible apply Kept.put
    | with_reducible apply Kept.inc
    | with_reducible apply State.resumeStreams_kept
    | with_reducible apply State.answerHandover_kept
    | with_reducible apply Kept.ite
    | ((try lift_lets -underBinder); intro x; have hx : Kept qt s₀ x := ?_; (on_goal 1 => clear_value x); (on_goal 2 => dsimp only [x]))
    | ((try lift_lets -underBinder); intro x; clear_value x)
    | (with_reducible apply Kept.upd; first | with_reducible assumption | with_reducible apply Kept.refl | with_reducible apply Kept.put | with_reducible apply Kept.inc | with_reducible apply State.resumeStreams_kept | with_reducible apply State.answerHandover_kept)

theorem handoverReady_kept {qt : Bool} {s₀ s : State} (h : Kept qt s₀ s) : Kept qt s₀ (handoverReady s) := by
  unfold handoverReady
  repeat' first
    | with_reducible assumption
    | with_reducible apply Kept.refl
    | with_reducible apply Kept.put
    | with_reducible apply State.suspend_kept
    | with_reducible apply State.failHandover_kept
    | with_reducible apply Kept.ite
    | ((try lift_lets -underBinder); intro x; have hx : Kept qt s₀ x := ?_; (on_goal 1 => clear_value x); (on_goal 2 => dsimp only [x]))
    | ((try lift_lets -underBinder); intro x; clear_value x)
    | split
    | (with_reducible apply Kept.upd; first | with_reducible assumption | with_reducible apply Kept.refl | with_reducible apply Kept.put | with_reducible apply State.suspend_kept | with_reducible apply State.failHandover_kept)

theorem State.runSfw_kept {qt : Bool} {s₀ s : State} (h : Kept qt s₀ s) (bank : Nat) : Kept qt s₀ (State.runSfw s bank) := by
  unfold State.runSfw
  repeat' first
    | with_reducible assumption
    | with_reducible apply Kept.refl
    | with_reducible apply Kept.wr
    | with_reducible apply Kept.put
    | with_reducible apply State.syncDirectory_kept
    | with_reducible apply Kept.ite
    | ((try lift_lets -underBinder); intro x; have hx : Kept qt s₀ x := ?_; (on_goal 1 => clear_value x); (on_goal 2 => dsimp only [x]))
    | ((try lift_lets -underBinder); intro x; clear_value x)

theorem handoverSwitch_kept {qt : Bool} {s₀ s : State} (h : Kept qt s₀ s) : Kept qt s₀ (handoverSwitch s) := by
  unfold handoverSwitch
  repeat' first
    | with_reducible assumption
    | with_reducible apply Kept.refl
    | with_reducible apply Kept.put
    | with_reducible apply Kept.inc
    | with_reducible apply State.resumeStreams_kept
    | with_reducible apply State.answerHandover_kept
    | with_reducible apply State.runSfw_kept
    | with_reducible apply Kept.ite
    | ((try lift_lets -underBinder); intro x; have hx : Kept qt s₀ x := ?_; (on_goal 1 => clear_value x); (on_goal 2 => dsimp only [x]))
    | ((try lift_lets -underBinder); intro x; clear_value x)
    | split
    | (with_reducible apply Kept.upd; first | with_reducible assumption | with_reducible apply Kept.refl | with_reducible apply Kept.put | with_reducible apply Kept.inc | with_reducible apply State.resumeStreams_kept | with_reducible apply State.answerHandover_kept | with_reducible apply State.runSfw_kept)

theorem handoverTimeout_kept {qt : Bool} {s₀ s : State} (h : Kept qt s₀ s) : Kept qt s₀ (handoverTimeout s) := by
  unfold handoverTimeout
  repeat' first
    | with_reducible assumption
    | with_reducible apply Kept.refl
    | with_reducible apply State.failHandover_kept
    | with_reducible apply Kept.ite
    | ((try lift_lets -underBinder); intro x; have hx : Kept qt s₀ x := ?_; (on_goal 1 => clear_value x); (on_goal 2 => dsimp only [x]))
    | ((try lift_lets -underBinder); intro x; clear_value x)
    | split
    | (with_reducible apply Kept.upd; first | with_reducible assumption | with_reducible apply Kept.refl | with_reducible apply State.failHandover_kept)

end Sys2Proof.Machine
end

