-- ==== Sys2Proof/Laws/KeepBoot.lean ====
section
/-! SUPPORT. What the operations of Machine/Boot.lean keep: one lemma per operation (Laws/Kept.lean). -/
namespace Sys2Proof.Machine
set_option linter.unusedTactic false
set_option linter.unreachableTactic false
set_option linter.unusedVariables false

theorem State.bootStart_kept {s₀ s : State} (_h : Kept false s₀ s) (p : Straps) : Kept false s₀ (State.bootStart s p) := by
  unfold State.bootStart
  dsimp only
  refine Kept.each ?_ _ (fun _ t ht => ht.put _ _)
  apply State.newLogNonce_kept
  apply State.newImgNonce_kept
  refine Kept.flag (Kept.each ?_ _ (fun _ t ht => ht.flag _ _)) _ _
  refine Kept.wr (Kept.wr (Kept.wr (Kept.put (Kept.wr (Kept.wr (Kept.wr (Kept.fresh ?_ ?_ ?_) _ _) _ _) _ _) _ _) _ _) _ _) _ _ <;> rfl

theorem State.setReason_kept {qt : Bool} {s₀ s : State} (h : Kept qt s₀ s) (bank : Nat) : Kept qt s₀ (State.setReason s bank) := by
  unfold State.setReason
  repeat' first
    | with_reducible assumption
    | with_reducible apply Kept.refl
    | with_reducible apply Kept.put
    | with_reducible apply Kept.ite
    | ((try lift_lets -underBinder); intro x; have hx : Kept qt s₀ x := ?_; (on_goal 1 => clear_value x); (on_goal 2 => dsimp only [x]))
    | ((try lift_lets -underBinder); intro x; clear_value x)
    | split

theorem State.tryBanks_kept {qt : Bool} {s₀ : State} (l : List Nat) :
    ∀ {s : State}, Kept qt s₀ s → Kept qt s₀ (State.tryBanks l s).1 := by
  induction l with
  | nil => intro s h; exact h
  | cons b l ih =>
    intro s h
    have g := State.setReason_kept h b
    unfold State.tryBanks
    dsimp only
    split
    · exact g
    · exact ih g

theorem State.enterLoader_kept {qt : Bool} {s₀ s : State} (h : Kept qt s₀ s) : Kept qt s₀ (State.enterLoader s) := by
  unfold State.enterLoader
  repeat' first
    | with_reducible assumption
    | with_reducible apply Kept.refl
    | (with_reducible refine Kept.each ?_ _ (fun _ t _ => ?_))
    | with_reducible apply Kept.wr
    | with_reducible apply Kept.put
    | with_reducible apply Kept.ite
    | ((try lift_lets -underBinder); intro x; have hx : Kept qt s₀ x := ?_; (on_goal 1 => clear_value x); (on_goal 2 => dsimp only [x]))
    | ((try lift_lets -underBinder); intro x; clear_value x)
    | split

theorem State.bootApply_kept {s₀ s : State} (h : Kept false s₀ s) (kind : Nat) : Kept false s₀ (State.bootApply s kind) := by
  unfold State.bootApply
  repeat' first
    | with_reducible assumption
    | with_reducible apply Kept.refl
    | with_reducible apply Kept.put
    | with_reducible apply State.applyImage_kept
    | with_reducible apply Kept.ite
    | ((try lift_lets -underBinder); intro x; have hx : Kept false s₀ x := ?_; (on_goal 1 => clear_value x); (on_goal 2 => dsimp only [x]))
    | ((try lift_lets -underBinder); intro x; clear_value x)
    | split

theorem State.boot_kept {s₀ s : State} (h : Kept false s₀ s) : Kept false s₀ (State.boot s) := by
  have g := State.tryBanks_kept s.bootBanks h
  unfold State.boot
  split
  · rename_i heq; rw [heq] at g; exact State.logBoot_kept (State.enterLoader_kept g) _
  · rename_i heq; rw [heq] at g
    dsimp only
    exact Kept.flag (State.logBoot_kept (State.restore_kept (State.bootApply_kept (State.bootApply_kept (State.runSfw_kept g _) _) _)) _) _ _

theorem resetRelease_kept {s₀ s : State} (h : Kept false s₀ s) (p : StrapPins) : Kept false s₀ (resetRelease p s) := by
  unfold resetRelease
  repeat' first
    | with_reducible assumption
    | with_reducible apply Kept.refl
    | with_reducible apply State.takeReset_kept
    | with_reducible apply State.bootStart_kept
    | with_reducible apply State.boot_kept
    | with_reducible apply Kept.ite
    | ((try lift_lets -underBinder); intro x; have hx : Kept false s₀ x := ?_; (on_goal 1 => clear_value x); (on_goal 2 => dsimp only [x]))
    | ((try lift_lets -underBinder); intro x; clear_value x)
    | split

end Sys2Proof.Machine
end

