-- ==== Sys2Proof/Laws/KeepExec.lean ====
section
/-! SUPPORT. What every command keeps when it answers a next state: one lemma per meaning (Laws/Kept.lean). -/
namespace Sys2Proof.Machine
set_option linter.unusedTactic false
set_option linter.unreachableTactic false
set_option linter.unusedVariables false

theorem live_kept {q : Bool} {s t : State} {f : State → State} (h : live s f = .next t)
    (hf : ∀ u, Kept q s u → Kept q s (f u)) : Kept q s t := by
  unfold live at h; cases h
  split
  · exact Kept.effect hf (Kept.refl q s)
  · exact Kept.refl q s

theorem always_kept {q : Bool} {s t : State} {f : State → State} (h : always s f = .next t)
    (hf : ∀ u, Kept q s u → Kept q s (f u)) : Kept q s t := by
  unfold always at h; cases h
  exact Kept.effect hf (Kept.refl q s)

theorem campLive_kept {q : Bool} {s t : State} {f : State → State} (h : campLive s f = .next t)
    (hf : ∀ u, Kept q s u → Kept q s (f u)) : Kept q s t := by
  unfold campLive at h; cases h
  split
  · exact Kept.refl q s
  · exact Kept.effect hf (Kept.refl q s)

theorem execMcfgWrite_kept {qt : Bool} {w : Writer} {n : Fin 16} {v : Word} {s s₁ : State} (h : execMcfgWrite w n v s = .next s₁) : Kept qt s s₁ := by
  unfold execMcfgWrite at h
  refine live_kept h (fun u _ => ?_)
  repeat' first | with_reducible assumption | with_reducible apply mcfgWrite_kept | with_reducible apply Kept.ite | split

theorem execPitchOffer_kept {qt : Bool} {w : Writer} {n : Fin 16} {v : Word} {s s₁ : State} (h : execPitchOffer w n v s = .next s₁) : Kept qt s s₁ := by
  unfold execPitchOffer at h
  refine live_kept h (fun u _ => ?_)
  repeat' first | with_reducible assumption | with_reducible apply pitchOffer_kept | with_reducible apply Kept.ite | split

theorem execPitchStart_kept {qt : Bool} {n : Fin 16} {s s₁ : State} (h : execPitchStart n s = .next s₁) : Kept qt s s₁ := by
  unfold execPitchStart at h
  refine live_kept h (fun u _ => ?_)
  repeat' first | with_reducible assumption | with_reducible apply State.pitchStart_kept | with_reducible apply Kept.ite | split

theorem execFlush_kept {qt : Bool} {w : Writer} {n : Fin 16} {s s₁ : State} (h : execFlush w n s = .next s₁) : Kept qt s s₁ := by
  unfold execFlush at h
  refine live_kept h (fun u _ => ?_)
  repeat' first | with_reducible assumption | with_reducible apply pitqFlush_kept | with_reducible apply Kept.ite | split

theorem execGo_kept {qt : Bool} {w : Writer} {n : Fin 16} {s s₁ : State} (h : execGo w n s = .next s₁) : Kept qt s s₁ := by
  unfold execGo at h
  refine live_kept h (fun u _ => ?_)
  repeat' first | with_reducible assumption | with_reducible apply pitqGo_kept | with_reducible apply Kept.ite | split

theorem execSetpointOffer_kept {qt : Bool} {w : Writer} {n : Fin 16} {v : Word} {s s₁ : State} (h : execSetpointOffer w n v s = .next s₁) : Kept qt s s₁ := by
  unfold execSetpointOffer at h
  refine live_kept h (fun u _ => ?_)
  repeat' first | with_reducible assumption | with_reducible apply setpointOffer_kept | with_reducible apply Kept.ite | split

theorem execSetpointHoldoverExpiry_kept {qt : Bool} {n : Fin 16} {s s₁ : State} (h : execSetpointHoldoverExpiry n s = .next s₁) : Kept qt s s₁ := by
  unfold execSetpointHoldoverExpiry at h
  refine live_kept h (fun u _ => ?_)
  repeat' first | with_reducible assumption | with_reducible apply holdoverExpiry_kept | with_reducible apply Kept.ite | split

theorem execLoad_kept {qt : Bool} {w : Writer} {n : Fin 16} {s s₁ : State} (h : execLoad w n s = .next s₁) : Kept qt s s₁ := by
  unfold execLoad at h
  refine live_kept h (fun u _ => ?_)
  repeat' first | with_reducible assumption | with_reducible apply gearLoad_kept | with_reducible apply Kept.ite | split

theorem execGearLoadApply_kept {qt : Bool} {n : Fin 16} {s s₁ : State} (h : execGearLoadApply n s = .next s₁) : Kept qt s s₁ := by
  unfold execGearLoadApply at h
  refine live_kept h (fun u _ => ?_)
  repeat' first | with_reducible assumption | with_reducible apply gearLoadApply_kept | with_reducible apply Kept.ite | split

theorem execStepPulse_kept {qt : Bool} {n : Fin 16} {s s₁ : State} (h : execStepPulse n s = .next s₁) : Kept qt s s₁ := by
  unfold execStepPulse at h
  refine live_kept h (fun u _ => ?_)
  repeat' first | with_reducible assumption | with_reducible apply stepPulse_kept | with_reducible apply Kept.ite | split

theorem execSafeoffNLow_kept {qt : Bool}  {s s₁ : State} (h : execSafeoffNLow s = .next s₁) : Kept qt s s₁ := by
  unfold execSafeoffNLow at h
  refine always_kept h (fun u _ => ?_)
  repeat' first | with_reducible assumption | with_reducible apply safeoffLow_kept | with_reducible apply Kept.ite | split | (with_reducible apply Kept.upd; first | with_reducible assumption | with_reducible apply safeoffLow_kept | with_reducible apply Kept.ite | split)

theorem execSafeoffNHigh_kept {qt : Bool}  {s s₁ : State} (h : execSafeoffNHigh s = .next s₁) : Kept qt s s₁ := by
  unfold execSafeoffNHigh at h
  refine always_kept h (fun u _ => ?_)
  repeat' first | with_reducible assumption | with_reducible apply safeoffHigh_kept | with_reducible apply Kept.ite | split | (with_reducible apply Kept.upd; first | with_reducible assumption | with_reducible apply safeoffHigh_kept | with_reducible apply Kept.ite | split)

theorem execGdCfgWrite_kept {qt : Bool} {g : Fin 4} {v : Word} {s s₁ : State} (h : execGdCfgWrite g v s = .next s₁) : Kept qt s s₁ := by
  unfold execGdCfgWrite at h
  refine live_kept h (fun u _ => ?_)
  repeat' first | with_reducible assumption | with_reducible apply gdCfgWrite_kept | with_reducible apply Kept.ite | split

theorem execScthrWrite_kept {qt : Bool} {g : Fin 4} {k : Fin 8} {v : Word} {s s₁ : State} (h : execScthrWrite g k v s = .next s₁) : Kept qt s s₁ := by
  unfold execScthrWrite at h
  refine live_kept h (fun u _ => ?_)
  repeat' first | with_reducible assumption | with_reducible apply scthrWrite_kept | with_reducible apply Kept.ite | split

theorem execShortCircuitTrip_kept {qt : Bool} {c : Fin 32} {iH iL : Int} {s s₁ : State} (h : execShortCircuitTrip c iH iL s = .next s₁) : Kept qt s s₁ := by
  unfold execShortCircuitTrip at h
  refine live_kept h (fun u _ => ?_)
  repeat' first | with_reducible assumption | with_reducible apply shortCircuitTrip_kept | with_reducible apply Kept.ite | split

theorem execVhUndervoltageTrip_kept {qt : Bool} {c : Fin 32} {v : Int} {blocked : Bool} {s s₁ : State} (h : execVhUndervoltageTrip c v blocked s = .next s₁) : Kept qt s s₁ := by
  unfold execVhUndervoltageTrip at h
  refine live_kept h (fun u _ => ?_)
  repeat' first | with_reducible assumption | with_reducible apply vhUndervoltage_kept | with_reducible apply Kept.ite | split

theorem execVgdUndervoltageTrip_kept {qt : Bool} {g : Fin 4} {v : Int} {s s₁ : State} (h : execVgdUndervoltageTrip g v s = .next s₁) : Kept qt s s₁ := by
  unfold execVgdUndervoltageTrip at h
  refine live_kept h (fun u _ => ?_)
  repeat' first | with_reducible assumption | with_reducible apply vgdUndervoltage_kept | with_reducible apply Kept.ite | split

theorem execOverTemperatureTrip_kept {qt : Bool} {g : Fin 4} {v : Int} {s s₁ : State} (h : execOverTemperatureTrip g v s = .next s₁) : Kept qt s s₁ := by
  unfold execOverTemperatureTrip at h
  refine live_kept h (fun u _ => ?_)
  repeat' first | with_reducible assumption | with_reducible apply overTemperature_kept | with_reducible apply Kept.ite | split

theorem execMonitoredDecision_kept {qt : Bool} {c : Fin 32} {iH iL : Int} {s s₁ : State} (h : execMonitoredDecision c iH iL s = .next s₁) : Kept qt s s₁ := by
  unfold execMonitoredDecision at h
  refine live_kept h (fun u _ => ?_)
  repeat' first | with_reducible assumption | with_reducible apply monitoredDecision_kept | with_reducible apply Kept.ite | split

theorem execComparatorSample_kept {qt : Bool} {c : Fin 32} {iH iL : Int} {s s₁ : State} (h : execComparatorSample c iH iL s = .next s₁) : Kept qt s s₁ := by
  unfold execComparatorSample at h
  refine live_kept h (fun u _ => ?_)
  repeat' first | with_reducible assumption | with_reducible apply comparatorSample_kept | with_reducible apply Kept.ite | split

theorem execWindowSample_kept {qt : Bool} {m : Monitor} {v : Int} {s s₁ : State} (h : execWindowSample m v s = .next s₁) : Kept qt s s₁ := by
  unfold execWindowSample at h
  refine live_kept h (fun u _ => ?_)
  repeat' first | with_reducible assumption | with_reducible apply windowSample_kept | with_reducible apply Kept.ite | split

theorem execWindowExcursion_kept {qt : Bool} {x : Fin 6} {v : Int} {s s₁ : State} (h : execWindowExcursion x v s = .next s₁) : Kept qt s s₁ := by
  unfold execWindowExcursion at h
  refine live_kept h (fun u _ => ?_)
  repeat' first | with_reducible assumption | with_reducible apply windowExcursion_kept | with_reducible apply Kept.ite | split

theorem execWindowReturn_kept {qt : Bool} {m : Monitor} {v : Int} {s s₁ : State} (h : execWindowReturn m v s = .next s₁) : Kept qt s s₁ := by
  unfold execWindowReturn at h
  refine live_kept h (fun u _ => ?_)
  repeat' first | with_reducible assumption | with_reducible apply windowReturn_kept | with_reducible apply Kept.ite | split

theorem execCmpScfWrite_kept {qt : Bool} {c : Fin 32} {v : Word} {s s₁ : State} (h : execCmpScfWrite c v s = .next s₁) : Kept qt s s₁ := by
  unfold execCmpScfWrite at h
  refine live_kept h (fun u _ => ?_)
  repeat' first | with_reducible assumption | with_reducible apply cmpScfWrite_kept | with_reducible apply Kept.ite | split

theorem execMonFiltWrite_kept {qt : Bool} {v : Word} {s s₁ : State} (h : execMonFiltWrite v s = .next s₁) : Kept qt s s₁ := by
  unfold execMonFiltWrite at h
  refine live_kept h (fun u _ => ?_)
  repeat' first | with_reducible assumption | with_reducible apply monFiltWrite_kept | with_reducible apply Kept.ite | split

theorem execMonThrWrite_kept {qt : Bool} {x : Fin 6} {v : Word} {s s₁ : State} (h : execMonThrWrite x v s = .next s₁) : Kept qt s s₁ := by
  unfold execMonThrWrite at h
  refine live_kept h (fun u _ => ?_)
  repeat' first | with_reducible assumption | with_reducible apply monThrWrite_kept | with_reducible apply Kept.ite | split

theorem execRefreshInsert_kept {qt : Bool} {c : Fin 32} {s s₁ : State} (h : execRefreshInsert c s = .next s₁) : Kept qt s s₁ := by
  unfold execRefreshInsert at h
  refine live_kept h (fun u _ => ?_)
  repeat' first | with_reducible assumption | with_reducible apply refreshInsert_kept | with_reducible apply Kept.ite | split

theorem execCommutation_kept {qt : Bool} {c : Fin 32} {e : Edge} {s s₁ : State} (h : execCommutation c e s = .next s₁) : Kept qt s s₁ := by
  unfold execCommutation at h
  refine live_kept h (fun u _ => ?_)
  repeat' first | with_reducible assumption | with_reducible apply commutation_kept | with_reducible apply Kept.ite | split

theorem execPwmgConfigWrite_kept {qt : Bool} {g : Fin 4} {r : PwmgReg} {v : Word} {s s₁ : State} (h : execPwmgConfigWrite g r v s = .next s₁) : Kept qt s s₁ := by
  unfold execPwmgConfigWrite at h
  refine live_kept h (fun u _ => ?_)
  repeat' first | with_reducible assumption | with_reducible apply pwmgConfigWrite_kept | with_reducible apply Kept.ite | split

theorem execFaultRaise_kept {src : Fin 1024} {kind : Fin 64} {detail : BitVec 16} {addr : BitVec 24} {s s₁ : State} (h : execFaultRaise src kind detail addr s = .next s₁) : Kept false s s₁ := by
  unfold execFaultRaise at h
  refine live_kept h (fun u _ => ?_)
  repeat' first | with_reducible assumption | with_reducible apply faultRaise_kept | with_reducible apply Kept.ite | split

theorem execFaultRecord_kept {qt : Bool}  {s s₁ : State} (h : execFaultRecord s = .next s₁) : Kept qt s s₁ := by
  unfold execFaultRecord at h
  refine live_kept h (fun u _ => ?_)
  repeat' first | with_reducible assumption | with_reducible apply faultRecord_kept | with_reducible apply Kept.ite | split

theorem execFltSevWrite_kept {qt : Bool} {w : Writer} {i : Fin 1024} {v : Word} {s s₁ : State} (h : execFltSevWrite w i v s = .next s₁) : Kept qt s s₁ := by
  unfold execFltSevWrite at h
  refine live_kept h (fun u _ => ?_)
  repeat' first | with_reducible assumption | with_reducible apply fltSevWrite_kept | with_reducible apply Kept.ite | split

theorem execFltSubscribe_kept {qt : Bool} {w : Writer} {v : Word} {s s₁ : State} (h : execFltSubscribe w v s = .next s₁) : Kept qt s s₁ := by
  unfold execFltSubscribe at h
  refine live_kept h (fun u _ => ?_)
  repeat' first | with_reducible assumption | with_reducible apply fltSubscribe_kept | with_reducible apply Kept.ite | split

theorem execLogRecordWrite_kept {qt : Bool}  {s s₁ : State} (h : execLogRecordWrite s = .next s₁) : Kept qt s s₁ := by
  unfold execLogRecordWrite at h
  refine live_kept h (fun u _ => ?_)
  repeat' first | with_reducible assumption | with_reducible apply logRecordWrite_kept | with_reducible apply Kept.ite | split

theorem execFreeze_kept {qt : Bool} {k : Fin 32} {s s₁ : State} (h : execFreeze k s = .next s₁) : Kept qt s s₁ := by
  unfold execFreeze at h
  refine live_kept h (fun u _ => ?_)
  repeat' first | with_reducible assumption | with_reducible apply freezeCmd_kept | with_reducible apply Kept.ite | split

theorem execFreezeTimeout_kept {qt : Bool}  {s s₁ : State} (h : execFreezeTimeout s = .next s₁) : Kept qt s s₁ := by
  unfold execFreezeTimeout at h
  refine live_kept h (fun u _ => ?_)
  repeat' first | with_reducible assumption | with_reducible apply freezeTimeout_kept | with_reducible apply Kept.ite | split

theorem execClearLog_kept {qt : Bool} {k : Fin 32} {s s₁ : State} (h : execClearLog k s = .next s₁) : Kept qt s s₁ := by
  unfold execClearLog at h
  refine live_kept h (fun u _ => ?_)
  repeat' first | with_reducible assumption | with_reducible apply clearLogCmd_kept | with_reducible apply Kept.ite | split

theorem execLogMirror_kept {qt : Bool}  {s s₁ : State} (h : execLogMirror s = .next s₁) : Kept qt s s₁ := by
  unfold execLogMirror at h
  refine live_kept h (fun u _ => ?_)
  repeat' first | with_reducible assumption | with_reducible apply logMirror_kept | with_reducible apply Kept.ite | split

theorem execSagStart_kept {v : Int} {s s₁ : State} (h : execSagStart v s = .next s₁) : Kept false s s₁ := by
  unfold execSagStart at h
  refine live_kept h (fun u _ => ?_)
  repeat' first | with_reducible assumption | with_reducible apply sagStart_kept | with_reducible apply Kept.ite | split

theorem execSaveComplete_kept {qt : Bool}  {s s₁ : State} (h : execSaveComplete s = .next s₁) : Kept qt s s₁ := by
  unfold execSaveComplete at h
  refine live_kept h (fun u _ => ?_)
  repeat' first | with_reducible assumption | with_reducible apply saveComplete_kept | with_reducible apply Kept.ite | split

theorem execSupplyRecovery_kept {qt : Bool}  {s s₁ : State} (h : execSupplyRecovery s = .next s₁) : Kept qt s s₁ := by
  unfold execSupplyRecovery at h
  refine live_kept h (fun u _ => ?_)
  repeat' first | with_reducible assumption | with_reducible apply supplyRecovery_kept | with_reducible apply Kept.ite | split

theorem execBelayRearm_kept {qt : Bool}  {s s₁ : State} (h : execBelayRearm s = .next s₁) : Kept qt s s₁ := by
  unfold execBelayRearm at h
  refine live_kept h (fun u _ => ?_)
  repeat' first | with_reducible assumption | with_reducible apply belayRearm_kept | with_reducible apply Kept.ite | split

theorem execBlyCfgWrite_kept {qt : Bool} {v : Word} {s s₁ : State} (h : execBlyCfgWrite v s = .next s₁) : Kept qt s s₁ := by
  unfold execBlyCfgWrite at h
  refine live_kept h (fun u _ => ?_)
  repeat' first | with_reducible assumption | with_reducible apply blyCfgWrite_kept | with_reducible apply Kept.ite | split

theorem execAck_kept {qt : Bool} {w : Writer} {n : Fin 16} {s s₁ : State} (h : execAck w n s = .next s₁) : Kept qt s s₁ := by
  unfold execAck at h
  refine live_kept h (fun u _ => ?_)
  repeat' first | with_reducible assumption | with_reducible apply restoreAck_kept | with_reducible apply Kept.ite | split

theorem execDecimatedOutput_kept {qt : Bool} {c : Fin 36} {iH iL : List Int} {each : Nat} {rH rL : Int} {s s₁ : State} (h : execDecimatedOutput c iH iL each rH rL s = .next s₁) : Kept qt s s₁ := by
  unfold execDecimatedOutput at h
  refine live_kept h (fun u _ => ?_)
  repeat' first | with_reducible assumption | with_reducible apply decimatedOutput_kept | with_reducible apply Kept.ite | split

theorem execDecCfgWrite_kept {qt : Bool} {c : Fin 36} {v : Word} {s s₁ : State} (h : execDecCfgWrite c v s = .next s₁) : Kept qt s s₁ := by
  unfold execDecCfgWrite at h
  refine live_kept h (fun u _ => ?_)
  repeat' first | with_reducible assumption | with_reducible apply decCfgWrite_kept | with_reducible apply Kept.ite | split

theorem execDecSettled_kept {qt : Bool} {c : Fin 36} {s s₁ : State} (h : execDecSettled c s = .next s₁) : Kept qt s s₁ := by
  unfold execDecSettled at h
  refine live_kept h (fun u _ => ?_)
  repeat' first | with_reducible assumption | with_reducible apply decSettled_kept | with_reducible apply Kept.ite | split

theorem execBusWinWrite_kept {qt : Bool} {g : Fin 4} {v : Word} {s s₁ : State} (h : execBusWinWrite g v s = .next s₁) : Kept qt s s₁ := by
  unfold execBusWinWrite at h
  refine live_kept h (fun u _ => ?_)
  repeat' first | with_reducible assumption | with_reducible apply busWinWrite_kept | with_reducible apply Kept.ite | split

theorem execHkcRun_kept {qt : Bool} {run : Bool} {s s₁ : State} (h : execHkcRun run s = .next s₁) : Kept qt s s₁ := by
  unfold execHkcRun at h
  refine live_kept h (fun u _ => ?_)
  repeat' first | with_reducible assumption | with_reducible apply hkcRun_kept | with_reducible apply Kept.ite | split

theorem execIsw_kept {qt : Bool}  {s s₁ : State} (h : execIsw s = .next s₁) : Kept qt s s₁ := by
  unfold execIsw at h
  refine live_kept h (fun u _ => ?_)
  repeat' first | with_reducible assumption | with_reducible apply hkcIsw_kept | with_reducible apply Kept.ite | split

theorem execHkcInjectedTrigger_kept {qt : Bool}  {s s₁ : State} (h : execHkcInjectedTrigger s = .next s₁) : Kept qt s s₁ := by
  unfold execHkcInjectedTrigger at h
  refine live_kept h (fun u _ => ?_)
  repeat' first | with_reducible assumption | with_reducible apply hkcTrigger_kept | with_reducible apply Kept.ite | split

theorem execHkcConversionDone_kept {k : Int} {s s₁ : State} (h : execHkcConversionDone k s = .next s₁) : Kept false s s₁ := by
  unfold execHkcConversionDone at h
  refine live_kept h (fun u _ => ?_)
  repeat' first | with_reducible assumption | with_reducible apply hkcDone_kept | with_reducible apply Kept.ite | split

theorem execRidxWrite_kept {qt : Bool} {v : Word} {s s₁ : State} (h : execRidxWrite v s = .next s₁) : Kept qt s s₁ := by
  unfold execRidxWrite at h
  refine live_kept h (fun u _ => ?_)
  repeat' first | with_reducible assumption | with_reducible apply ridxWrite_kept | with_reducible apply Kept.ite | split

theorem execHkcRefWrite_kept {qt : Bool} {v : Word} {s s₁ : State} (h : execHkcRefWrite v s = .next s₁) : Kept qt s s₁ := by
  unfold execHkcRefWrite at h
  refine live_kept h (fun u _ => ?_)
  repeat' first | with_reducible assumption | with_reducible apply hkcRefWrite_kept | with_reducible apply Kept.ite | split

theorem execRefSettled_kept {qt : Bool}  {s s₁ : State} (h : execRefSettled s = .next s₁) : Kept qt s s₁ := by
  unfold execRefSettled at h
  refine live_kept h (fun u _ => ?_)
  repeat' first | with_reducible assumption | with_reducible apply refSettled_kept | with_reducible apply Kept.ite | split

theorem execHkcCalGo_kept {qt : Bool}  {s s₁ : State} (h : execHkcCalGo s = .next s₁) : Kept qt s s₁ := by
  unfold execHkcCalGo at h
  refine live_kept h (fun u _ => ?_)
  repeat' first | with_reducible assumption | with_reducible apply hkcCalGo_kept | with_reducible apply Kept.ite | split

theorem execHkcCalibrationDone_kept {qt : Bool} {o0 g0 o1 g1 o2 g2 o3 g3 : Int} {s s₁ : State} (h : execHkcCalibrationDone o0 g0 o1 g1 o2 g2 o3 g3 s = .next s₁) : Kept qt s s₁ := by
  unfold execHkcCalibrationDone at h
  refine live_kept h (fun u _ => ?_)
  repeat' first | with_reducible assumption | with_reducible apply hkcCalDone_kept | with_reducible apply Kept.ite | split | (with_reducible apply Kept.upd; first | with_reducible assumption | with_reducible apply hkcCalDone_kept | with_reducible apply Kept.ite | split)

theorem execHkcConfigWrite_kept {qt : Bool} {off : Fin 1024} {v : Word} {s s₁ : State} (h : execHkcConfigWrite off v s = .next s₁) : Kept qt s s₁ := by
  unfold execHkcConfigWrite at h
  refine live_kept h (fun u _ => ?_)
  repeat' first | with_reducible assumption | with_reducible apply hkcConfigWrite_kept | with_reducible apply Kept.ite | split

theorem execQuadratureCount_kept {qt : Bool} {p : Fin 8} {a b : Bool} {s s₁ : State} (h : execQuadratureCount p a b s = .next s₁) : Kept qt s s₁ := by
  unfold execQuadratureCount at h
  refine live_kept h (fun u _ => ?_)
  repeat' first | with_reducible assumption | with_reducible apply quadratureCount_kept | with_reducible apply Kept.ite | split

theorem execZLatch_kept {qt : Bool} {p : Fin 8} {z : Bool} {s s₁ : State} (h : execZLatch p z s = .next s₁) : Kept qt s s₁ := by
  unfold execZLatch at h
  refine live_kept h (fun u _ => ?_)
  repeat' first | with_reducible assumption | with_reducible apply zLatch_kept | with_reducible apply Kept.ite | split

theorem execMagneticSwitchCount_kept {qt : Bool} {p : Fin 8} {u v w : Bool} {s s₁ : State} (h : execMagneticSwitchCount p u v w s = .next s₁) : Kept qt s s₁ := by
  unfold execMagneticSwitchCount at h
  refine live_kept h (fun u _ => ?_)
  repeat' first | with_reducible assumption | with_reducible apply magneticCount_kept | with_reducible apply Kept.ite | split

theorem execSsiFrameDone_kept {qt : Bool} {p : Fin 8} {raw : Nat} {s s₁ : State} (h : execSsiFrameDone p raw s = .next s₁) : Kept qt s s₁ := by
  unfold execSsiFrameDone at h
  refine live_kept h (fun u _ => ?_)
  repeat' first | with_reducible assumption | with_reducible apply ssiFrameDone_kept | with_reducible apply Kept.ite | split

theorem execFbConfigWrite_kept {qt : Bool} {p : Fin 8} {r : FbReg} {v : Word} {s s₁ : State} (h : execFbConfigWrite p r v s = .next s₁) : Kept qt s s₁ := by
  unfold execFbConfigWrite at h
  refine live_kept h (fun u _ => ?_)
  repeat' first | with_reducible assumption | with_reducible apply fbConfigWrite_kept | with_reducible apply Kept.ite | split

theorem execStepInputPulse_kept {qt : Bool} {i : Fin 8} {onDir rising dir : Bool} {s s₁ : State} (h : execStepInputPulse i onDir rising dir s = .next s₁) : Kept qt s s₁ := by
  unfold execStepInputPulse at h
  refine live_kept h (fun u _ => ?_)
  repeat' first | with_reducible assumption | with_reducible apply stepInputPulse_kept | with_reducible apply Kept.ite | split

theorem execSiCfgWrite_kept {qt : Bool} {i : Fin 8} {v : Word} {s s₁ : State} (h : execSiCfgWrite i v s = .next s₁) : Kept qt s s₁ := by
  unfold execSiCfgWrite at h
  refine live_kept h (fun u _ => ?_)
  repeat' first | with_reducible assumption | with_reducible apply siCfgWrite_kept | with_reducible apply Kept.ite | split

theorem execSoCfgWrite_kept {qt : Bool} {o : Fin 8} {v : Word} {s s₁ : State} (h : execSoCfgWrite o v s = .next s₁) : Kept qt s s₁ := by
  unfold execSoCfgWrite at h
  refine live_kept h (fun u _ => ?_)
  repeat' first | with_reducible assumption | with_reducible apply soCfgWrite_kept | with_reducible apply Kept.ite | split

theorem execCaptureEdge_kept {qt : Bool} {k : Fin 8} {rising : Bool} {s s₁ : State} (h : execCaptureEdge k rising s = .next s₁) : Kept qt s s₁ := by
  unfold execCaptureEdge at h
  refine live_kept h (fun u _ => ?_)
  repeat' first | with_reducible assumption | with_reducible apply captureEdge_kept | with_reducible apply Kept.ite | split

theorem execRelease_kept {qt : Bool} {k : Fin 8} {s s₁ : State} (h : execRelease k s = .next s₁) : Kept qt s s₁ := by
  unfold execRelease at h
  refine live_kept h (fun u _ => ?_)
  repeat' first | with_reducible assumption | with_reducible apply capRelease_kept | with_reducible apply Kept.ite | split

theorem execCompareFire_kept {qt : Bool} {q : Fin 4} {t : Nat} {s s₁ : State} (h : execCompareFire q t s = .next s₁) : Kept qt s s₁ := by
  unfold execCompareFire at h
  refine live_kept h (fun u _ => ?_)
  repeat' first | with_reducible assumption | with_reducible apply compareFire_kept | with_reducible apply Kept.ite | split

theorem execComparePulseEnd_kept {qt : Bool} {q : Fin 4} {s s₁ : State} (h : execComparePulseEnd q s = .next s₁) : Kept qt s s₁ := by
  unfold execComparePulseEnd at h
  refine live_kept h (fun u _ => ?_)
  repeat' first | with_reducible assumption | with_reducible apply comparePulseEnd_kept | with_reducible apply Kept.ite | split

theorem execArm_kept {qt : Bool} {q : Fin 4} {s s₁ : State} (h : execArm q s = .next s₁) : Kept qt s s₁ := by
  unfold execArm at h
  refine live_kept h (fun u _ => ?_)
  repeat' first | with_reducible assumption | with_reducible apply pcoArm_kept | with_reducible apply Kept.ite | split

theorem execDisarm_kept {qt : Bool} {q : Fin 4} {s s₁ : State} (h : execDisarm q s = .next s₁) : Kept qt s s₁ := by
  unfold execDisarm at h
  refine live_kept h (fun u _ => ?_)
  repeat' first | with_reducible assumption | with_reducible apply pcoDisarm_kept | with_reducible apply Kept.ite | split

theorem execForce_kept {qt : Bool} {q : Fin 4} {s s₁ : State} (h : execForce q s = .next s₁) : Kept qt s s₁ := by
  unfold execForce at h
  refine live_kept h (fun u _ => ?_)
  repeat' first | with_reducible assumption | with_reducible apply pcoForce_kept | with_reducible apply Kept.ite | split

theorem execPcoConfigWrite_kept {qt : Bool} {q : Fin 4} {r : PcoReg} {v : Word} {s s₁ : State} (h : execPcoConfigWrite q r v s = .next s₁) : Kept qt s s₁ := by
  unfold execPcoConfigWrite at h
  refine live_kept h (fun u _ => ?_)
  repeat' first | with_reducible assumption | with_reducible apply pcoConfigWrite_kept | with_reducible apply Kept.ite | split

theorem execCcCfgWrite_kept {qt : Bool} {w : Writer} {n : Fin 16} {v : Word} {s s₁ : State} (h : execCcCfgWrite w n v s = .next s₁) : Kept qt s s₁ := by
  unfold execCcCfgWrite at h
  refine live_kept h (fun u _ => ?_)
  repeat' first | with_reducible assumption | with_reducible apply ccCfgWrite_kept | with_reducible apply Kept.ite | split

theorem execOfscal_kept {qt : Bool} {w : Writer} {n : Fin 16} {s s₁ : State} (h : execOfscal w n s = .next s₁) : Kept qt s s₁ := by
  unfold execOfscal at h
  refine live_kept h (fun u _ => ?_)
  repeat' first | with_reducible assumption | with_reducible apply calStart_kept | with_reducible apply Kept.ite | split

theorem execKcal_kept {qt : Bool} {w : Writer} {n : Fin 16} {s s₁ : State} (h : execKcal w n s = .next s₁) : Kept qt s s₁ := by
  unfold execKcal at h
  refine live_kept h (fun u _ => ?_)
  repeat' first | with_reducible assumption | with_reducible apply calStart_kept | with_reducible apply Kept.ite | split

theorem execAlign_kept {qt : Bool} {w : Writer} {n : Fin 16} {s s₁ : State} (h : execAlign w n s = .next s₁) : Kept qt s s₁ := by
  unfold execAlign at h
  refine live_kept h (fun u _ => ?_)
  repeat' first | with_reducible assumption | with_reducible apply calStart_kept | with_reducible apply Kept.ite | split

theorem execCalibrationDone_kept {qt : Bool} {n : Fin 16} {r : List (Int × Int)} {notReached : Bool} {s s₁ : State} (h : execCalibrationDone n r notReached s = .next s₁) : Kept qt s s₁ := by
  unfold execCalibrationDone at h
  refine live_kept h (fun u _ => ?_)
  repeat' first | with_reducible assumption | with_reducible apply calibrationDone_kept | with_reducible apply Kept.ite | split

theorem execApply_kept {qt : Bool} {w : Writer} {n : Fin 16} {hold : Bool} {s s₁ : State} (h : execApply w n hold s = .next s₁) : Kept qt s s₁ := by
  unfold execApply at h
  refine live_kept h (fun u _ => ?_)
  repeat' first | with_reducible assumption | with_reducible apply pstageWrite_kept | with_reducible apply Kept.ite | split

theorem execStagedApplyTake_kept {qt : Bool} {n : Fin 16} {s s₁ : State} (h : execStagedApplyTake n s = .next s₁) : Kept qt s s₁ := by
  unfold execStagedApplyTake at h
  refine live_kept h (fun u _ => ?_)
  repeat' first | with_reducible assumption | with_reducible apply stagedTake_kept | with_reducible apply Kept.ite | split

theorem execHoldDlyExpiry_kept {qt : Bool} {n : Fin 16} {s s₁ : State} (h : execHoldDlyExpiry n s = .next s₁) : Kept qt s s₁ := by
  unfold execHoldDlyExpiry at h
  refine live_kept h (fun u _ => ?_)
  repeat' first | with_reducible assumption | with_reducible apply holdDlyExpiry_kept | with_reducible apply Kept.ite | split

theorem execHolding_kept {qt : Bool} {n : Fin 16} {s s₁ : State} (h : execHolding n s = .next s₁) : Kept qt s s₁ := by
  unfold execHolding at h
  refine live_kept h (fun u _ => ?_)
  repeat' first | with_reducible assumption | with_reducible apply holding_kept | with_reducible apply Kept.ite | split

theorem execBrakeReleaseStart_kept {qt : Bool} {n : Fin 16} {s s₁ : State} (h : execBrakeReleaseStart n s = .next s₁) : Kept qt s s₁ := by
  unfold execBrakeReleaseStart at h
  refine live_kept h (fun u _ => ?_)
  repeat' first | with_reducible assumption | with_reducible apply brakeReleaseStart_kept | with_reducible apply Kept.ite | split

theorem execBrakePullEnd_kept {qt : Bool} {n : Fin 16} {s s₁ : State} (h : execBrakePullEnd n s = .next s₁) : Kept qt s s₁ := by
  unfold execBrakePullEnd at h
  refine live_kept h (fun u _ => ?_)
  repeat' first | with_reducible assumption | with_reducible apply brakePullEnd_kept | with_reducible apply Kept.ite | split

theorem execBrakeEngageEnd_kept {qt : Bool} {n : Fin 16} {s s₁ : State} (h : execBrakeEngageEnd n s = .next s₁) : Kept qt s s₁ := by
  unfold execBrakeEngageEnd at h
  refine live_kept h (fun u _ => ?_)
  repeat' first | with_reducible assumption | with_reducible apply brakeEngageEnd_kept | with_reducible apply Kept.ite | split

theorem execSearchLock_kept {qt : Bool} {n : Fin 16} {s s₁ : State} (h : execSearchLock n s = .next s₁) : Kept qt s s₁ := by
  unfold execSearchLock at h
  refine live_kept h (fun u _ => ?_)
  repeat' first | with_reducible assumption | with_reducible apply searchLock_kept | with_reducible apply Kept.ite | split

theorem execPolarityDone_kept {qt : Bool} {n : Fin 16} {tp tn : Nat} {s s₁ : State} (h : execPolarityDone n tp tn s = .next s₁) : Kept qt s s₁ := by
  unfold execPolarityDone at h
  refine live_kept h (fun u _ => ?_)
  repeat' first | with_reducible assumption | with_reducible apply polarityDone_kept | with_reducible apply Kept.ite | split

theorem execSearchTimeout_kept {qt : Bool} {n : Fin 16} {s s₁ : State} (h : execSearchTimeout n s = .next s₁) : Kept qt s s₁ := by
  unfold execSearchTimeout at h
  refine live_kept h (fun u _ => ?_)
  repeat' first | with_reducible assumption | with_reducible apply searchTimeout_kept | with_reducible apply Kept.ite | split

theorem execForcedAlignEnd_kept {qt : Bool} {n : Fin 16} {s s₁ : State} (h : execForcedAlignEnd n s = .next s₁) : Kept qt s s₁ := by
  unfold execForcedAlignEnd at h
  refine live_kept h (fun u _ => ?_)
  repeat' first | with_reducible assumption | with_reducible apply forcedAlignEnd_kept | with_reducible apply Kept.ite | split

theorem execInjectionOff_kept {qt : Bool} {n : Fin 16} {s s₁ : State} (h : execInjectionOff n s = .next s₁) : Kept qt s s₁ := by
  unfold execInjectionOff at h
  refine live_kept h (fun u _ => ?_)
  repeat' first | with_reducible assumption | with_reducible apply injectionOff_kept | with_reducible apply Kept.ite | split

theorem execStallRearm_kept {qt : Bool} {n : Fin 16} {s s₁ : State} (h : execStallRearm n s = .next s₁) : Kept qt s s₁ := by
  unfold execStallRearm at h
  refine live_kept h (fun u _ => ?_)
  repeat' first | with_reducible assumption | with_reducible apply stallRearm_kept | with_reducible apply Kept.ite | split

theorem execModel_kept {qt : Bool} {n : Fin 16} {s s₁ : State} (h : execModel n s = .next s₁) : Kept qt s s₁ := by
  unfold execModel at h
  refine live_kept h (fun u _ => ?_)
  repeat' first | with_reducible assumption | with_reducible apply modelMismatch_kept | with_reducible apply Kept.ite | split

theorem execAutoclReturn_kept {qt : Bool} {n : Fin 16} {s s₁ : State} (h : execAutoclReturn n s = .next s₁) : Kept qt s s₁ := by
  unfold execAutoclReturn at h
  refine live_kept h (fun u _ => ?_)
  repeat' first | with_reducible assumption | with_reducible apply autoclReturn_kept | with_reducible apply Kept.ite | split

theorem execResumecl_kept {qt : Bool} {w : Writer} {n : Fin 16} {s s₁ : State} (h : execResumecl w n s = .next s₁) : Kept qt s s₁ := by
  unfold execResumecl at h
  refine live_kept h (fun u _ => ?_)
  repeat' first | with_reducible assumption | with_reducible apply resumeCl_kept | with_reducible apply Kept.ite | split

theorem execResearch_kept {qt : Bool} {w : Writer} {n : Fin 16} {s s₁ : State} (h : execResearch w n s = .next s₁) : Kept qt s s₁ := by
  unfold execResearch at h
  refine live_kept h (fun u _ => ?_)
  repeat' first | with_reducible assumption | with_reducible apply research_kept | with_reducible apply Kept.ite | split

theorem execIdent_kept {qt : Bool} {w : Writer} {n : Fin 16} {s s₁ : State} (h : execIdent w n s = .next s₁) : Kept qt s s₁ := by
  unfold execIdent at h
  refine live_kept h (fun u _ => ?_)
  repeat' first | with_reducible assumption | with_reducible apply identStart_kept | with_reducible apply Kept.ite | split

theorem execIdentDone_kept {qt : Bool} {n : Fin 16} {rw ld lq : Int} {notReached : Bool} {s s₁ : State} (h : execIdentDone n rw ld lq notReached s = .next s₁) : Kept qt s s₁ := by
  unfold execIdentDone at h
  refine live_kept h (fun u _ => ?_)
  repeat' first | with_reducible assumption | with_reducible apply identDone_kept | with_reducible apply Kept.ite | split

theorem execPrCfgWrite_kept {qt : Bool} {w : Writer} {n : Fin 16} {v : Word} {s s₁ : State} (h : execPrCfgWrite w n v s = .next s₁) : Kept qt s s₁ := by
  unfold execPrCfgWrite at h
  refine live_kept h (fun u _ => ?_)
  repeat' first | with_reducible assumption | with_reducible apply prCfgWrite_kept | with_reducible apply Kept.ite | split

theorem execPrParamWrite_kept {qt : Bool} {w : Writer} {n : Fin 16} {i : Fin 8} {v : Word} {s s₁ : State} (h : execPrParamWrite w n i v s = .next s₁) : Kept qt s s₁ := by
  unfold execPrParamWrite at h
  refine live_kept h (fun u _ => ?_)
  repeat' first | with_reducible assumption | with_reducible apply prParamWrite_kept | with_reducible apply Kept.ite | split

theorem execCarrierValley_kept {qt : Bool} {g : Fin 4} {dev : Int} {s s₁ : State} (h : execCarrierValley g dev s = .next s₁) : Kept qt s s₁ := by
  unfold execCarrierValley at h
  refine live_kept h (fun u _ => ?_)
  repeat' first | with_reducible assumption | with_reducible apply carrierValley_kept | with_reducible apply Kept.ite | split

theorem execCarrierPeak_kept {qt : Bool} {g : Fin 4} {s s₁ : State} (h : execCarrierPeak g s = .next s₁) : Kept qt s s₁ := by
  unfold execCarrierPeak at h
  refine live_kept h (fun u _ => ?_)
  repeat' first | with_reducible assumption | with_reducible apply carrierPeak_kept | with_reducible apply Kept.ite | split

theorem execCounterStart_kept {qt : Bool} {g : Fin 4} {s s₁ : State} (h : execCounterStart g s = .next s₁) : Kept qt s s₁ := by
  unfold execCounterStart at h
  refine live_kept h (fun u _ => ?_)
  repeat' first | with_reducible assumption | with_reducible apply counterStart_kept | with_reducible apply Kept.ite | split

theorem execEccUncorrectable_kept {site : EccSite} {s s₁ : State} (h : execEccUncorrectable site s = .next s₁) : Kept false s s₁ := by
  unfold execEccUncorrectable at h
  refine live_kept h (fun u _ => ?_)
  repeat' first | with_reducible assumption | with_reducible apply State.eccUncorrectable_kept | with_reducible apply Kept.ite | split

theorem execEnginePassStart_kept {e : Fin 20} {s s₁ : State} (h : execEnginePassStart e s = .next s₁) : Kept false s s₁ := by
  unfold execEnginePassStart at h
  refine live_kept h (fun u _ => ?_)
  repeat' first | with_reducible assumption | with_reducible apply enginePassStart_kept | with_reducible apply Kept.ite | split

theorem execEmergencyGap_kept {qt : Bool} {n : Fin 16} {s s₁ : State} (h : execEmergencyGap n s = .next s₁) : Kept qt s s₁ := by
  unfold execEmergencyGap at h
  refine live_kept h (fun u _ => ?_)
  repeat' first | with_reducible assumption | with_reducible apply emergencyGap_kept | with_reducible apply Kept.ite | split

theorem execEmergencyTakeover_kept {qt : Bool} {n : Fin 16} {s s₁ : State} (h : execEmergencyTakeover n s = .next s₁) : Kept qt s s₁ := by
  unfold execEmergencyTakeover at h
  refine live_kept h (fun u _ => ?_)
  repeat' first | with_reducible assumption | with_reducible apply emergencyTakeover_kept | with_reducible apply Kept.ite | split

theorem execProgramMemoryWrite_kept {e : Fin 20} {i : Fin 16384} {v : Word} {s s₁ : State} (h : execProgramMemoryWrite e i v s = .next s₁) : Kept false s s₁ := by
  unfold execProgramMemoryWrite at h
  refine live_kept h (fun u _ => ?_)
  repeat' first | with_reducible assumption | with_reducible apply programWrite_kept | with_reducible apply Kept.ite | split

theorem execDataMemoryWrite_kept {e : Fin 20} {i : Fin 8192} {v : Word} {s s₁ : State} (h : execDataMemoryWrite e i v s = .next s₁) : Kept false s s₁ := by
  unfold execDataMemoryWrite at h
  refine live_kept h (fun u _ => ?_)
  repeat' first | with_reducible assumption | with_reducible apply dataWrite_kept | with_reducible apply Kept.ite | split

theorem execLoadDone_kept {e : Fin 20} {s s₁ : State} (h : execLoadDone e s = .next s₁) : Kept false s s₁ := by
  unfold execLoadDone at h
  refine live_kept h (fun u _ => ?_)
  repeat' first | with_reducible assumption | with_reducible apply loadDone_kept | with_reducible apply Kept.ite | split

theorem execEngineLoad_kept {qt : Bool} {w : Writer} {e : Fin 20} {route : Fin 256} {s s₁ : State} (h : execEngineLoad w e route s = .next s₁) : Kept qt s s₁ := by
  unfold execEngineLoad at h
  refine live_kept h (fun u _ => ?_)
  repeat' first | with_reducible assumption | with_reducible apply engineLoad_kept | with_reducible apply Kept.ite | split

theorem execStart_kept {qt : Bool} {w : Writer} {e : Fin 20} {s s₁ : State} (h : execStart w e s = .next s₁) : Kept qt s s₁ := by
  unfold execStart at h
  refine live_kept h (fun u _ => ?_)
  repeat' first | with_reducible assumption | with_reducible apply engineStart_kept | with_reducible apply Kept.ite | split

theorem execHaltAction_kept {qt : Bool} {w : Writer} {e : Fin 20} {s s₁ : State} (h : execHaltAction w e s = .next s₁) : Kept qt s s₁ := by
  unfold execHaltAction at h
  refine live_kept h (fun u _ => ?_)
  repeat' first | with_reducible assumption | with_reducible apply haltAction_kept | with_reducible apply Kept.ite | split

theorem execTraceArm_kept {qt : Bool} {e : Fin 20} {s s₁ : State} (h : execTraceArm e s = .next s₁) : Kept qt s s₁ := by
  unfold execTraceArm at h
  refine live_kept h (fun u _ => ?_)
  repeat' first | with_reducible assumption | with_reducible apply traceArm_kept | with_reducible apply Kept.ite | split

theorem execTraceStop_kept {qt : Bool} {e : Fin 20} {s s₁ : State} (h : execTraceStop e s = .next s₁) : Kept qt s s₁ := by
  unfold execTraceStop at h
  refine live_kept h (fun u _ => ?_)
  repeat' first | with_reducible assumption | with_reducible apply traceStop_kept | with_reducible apply Kept.ite | split

theorem execTraceForce_kept {qt : Bool} {e : Fin 20} {s s₁ : State} (h : execTraceForce e s = .next s₁) : Kept qt s s₁ := by
  unfold execTraceForce at h
  refine live_kept h (fun u _ => ?_)
  repeat' first | with_reducible assumption | with_reducible apply traceForce_kept | with_reducible apply Kept.ite | split

theorem execTraceDone_kept {qt : Bool} {e : Fin 20} {s s₁ : State} (h : execTraceDone e s = .next s₁) : Kept qt s s₁ := by
  unfold execTraceDone at h
  refine live_kept h (fun u _ => ?_)
  repeat' first | with_reducible assumption | with_reducible apply traceDone_kept | with_reducible apply Kept.ite | split

theorem execSwapGo_kept {qt : Bool} {w : Writer} {n : Fin 16} {v : Word} {s s₁ : State} (h : execSwapGo w n v s = .next s₁) : Kept qt s s₁ := by
  unfold execSwapGo at h
  refine live_kept h (fun u _ => ?_)
  repeat' first | with_reducible assumption | with_reducible apply swapWrite_kept | with_reducible apply Kept.ite | split

theorem execSwapCancel_kept {qt : Bool} {w : Writer} {n : Fin 16} {v : Word} {s s₁ : State} (h : execSwapCancel w n v s = .next s₁) : Kept qt s s₁ := by
  unfold execSwapCancel at h
  refine live_kept h (fun u _ => ?_)
  repeat' first | with_reducible assumption | with_reducible apply swapWrite_kept | with_reducible apply Kept.ite | split

theorem execSwapLoadDone_kept {n : Fin 16} {s s₁ : State} (h : execSwapLoadDone n s = .next s₁) : Kept false s s₁ := by
  unfold execSwapLoadDone at h
  refine live_kept h (fun u _ => ?_)
  repeat' first | with_reducible assumption | with_reducible apply swapLoadDone_kept | with_reducible apply Kept.ite | split

theorem execWaitckpTimeout_kept {qt : Bool} {n : Fin 16} {s s₁ : State} (h : execWaitckpTimeout n s = .next s₁) : Kept qt s s₁ := by
  unfold execWaitckpTimeout at h
  refine live_kept h (fun u _ => ?_)
  repeat' first | with_reducible assumption | with_reducible apply waitckpTimeout_kept | with_reducible apply Kept.ite | split

theorem execShadowMismatchEnd_kept {qt : Bool} {n : Fin 16} {s s₁ : State} (h : execShadowMismatchEnd n s = .next s₁) : Kept qt s s₁ := by
  unfold execShadowMismatchEnd at h
  refine live_kept h (fun u _ => ?_)
  repeat' first | with_reducible assumption | with_reducible apply shadowMismatch_kept | with_reducible apply Kept.ite | split

theorem execSwitch_kept {qt : Bool} {n : Fin 16} {s s₁ : State} (h : execSwitch n s = .next s₁) : Kept qt s s₁ := by
  unfold execSwitch at h
  refine live_kept h (fun u _ => ?_)
  repeat' first | with_reducible assumption | with_reducible apply swapSwitch_kept | with_reducible apply Kept.ite | split

theorem execSwapRelease_kept {qt : Bool} {n : Fin 16} {s s₁ : State} (h : execSwapRelease n s = .next s₁) : Kept qt s s₁ := by
  unfold execSwapRelease at h
  refine live_kept h (fun u _ => ?_)
  repeat' first | with_reducible assumption | with_reducible apply swapRelease_kept | with_reducible apply Kept.ite | split

theorem execUnretire_kept {qt : Bool} {e : Fin 32} {s s₁ : State} (h : execUnretire e s = .next s₁) : Kept qt s s₁ := by
  unfold execUnretire at h
  refine live_kept h (fun u _ => ?_)
  repeat' first | with_reducible assumption | with_reducible apply unretire_kept | with_reducible apply Kept.ite | split

theorem execRetire_kept {qt : Bool} {e : Fin 32} {s s₁ : State} (h : execRetire e s = .next s₁) : Kept qt s s₁ := by
  unfold execRetire at h
  refine live_kept h (fun u _ => ?_)
  repeat' first | with_reducible assumption | with_reducible apply retireAction_kept | with_reducible apply Kept.ite | split

theorem execUnretireDone_kept {e : Fin 20} {s s₁ : State} (h : execUnretireDone e s = .next s₁) : Kept false s s₁ := by
  unfold execUnretireDone at h
  refine live_kept h (fun u _ => ?_)
  repeat' first | with_reducible assumption | with_reducible apply unretireDone_kept | with_reducible apply Kept.ite | split

theorem execAdd_kept {qt : Bool} {e : Fin 20} {s s₁ : State} (h : execAdd e s = .next s₁) : Kept qt s s₁ := by
  unfold execAdd at h
  refine live_kept h (fun u _ => ?_)
  repeat' first | with_reducible assumption | with_reducible apply State.intRow_kept | with_reducible apply Kept.ite | split

theorem execSub_kept {qt : Bool} {e : Fin 20} {s s₁ : State} (h : execSub e s = .next s₁) : Kept qt s s₁ := by
  unfold execSub at h
  refine live_kept h (fun u _ => ?_)
  repeat' first | with_reducible assumption | with_reducible apply State.intRow_kept | with_reducible apply Kept.ite | split

theorem execAnd_kept {qt : Bool} {e : Fin 20} {s s₁ : State} (h : execAnd e s = .next s₁) : Kept qt s s₁ := by
  unfold execAnd at h
  refine live_kept h (fun u _ => ?_)
  repeat' first | with_reducible assumption | with_reducible apply State.intRow_kept | with_reducible apply Kept.ite | split

theorem execOr_kept {qt : Bool} {e : Fin 20} {s s₁ : State} (h : execOr e s = .next s₁) : Kept qt s s₁ := by
  unfold execOr at h
  refine live_kept h (fun u _ => ?_)
  repeat' first | with_reducible assumption | with_reducible apply State.intRow_kept | with_reducible apply Kept.ite | split

theorem execXor_kept {qt : Bool} {e : Fin 20} {s s₁ : State} (h : execXor e s = .next s₁) : Kept qt s s₁ := by
  unfold execXor at h
  refine live_kept h (fun u _ => ?_)
  repeat' first | with_reducible assumption | with_reducible apply State.intRow_kept | with_reducible apply Kept.ite | split

theorem execShl_kept {qt : Bool} {e : Fin 20} {s s₁ : State} (h : execShl e s = .next s₁) : Kept qt s s₁ := by
  unfold execShl at h
  refine live_kept h (fun u _ => ?_)
  repeat' first | with_reducible assumption | with_reducible apply State.intRow_kept | with_reducible apply Kept.ite | split

theorem execShr_kept {qt : Bool} {e : Fin 20} {s s₁ : State} (h : execShr e s = .next s₁) : Kept qt s s₁ := by
  unfold execShr at h
  refine live_kept h (fun u _ => ?_)
  repeat' first | with_reducible assumption | with_reducible apply State.intRow_kept | with_reducible apply Kept.ite | split

theorem execSar_kept {qt : Bool} {e : Fin 20} {s s₁ : State} (h : execSar e s = .next s₁) : Kept qt s s₁ := by
  unfold execSar at h
  refine live_kept h (fun u _ => ?_)
  repeat' first | with_reducible assumption | with_reducible apply State.intRow_kept | with_reducible apply Kept.ite | split

theorem execMul_kept {qt : Bool} {e : Fin 20} {s s₁ : State} (h : execMul e s = .next s₁) : Kept qt s s₁ := by
  unfold execMul at h
  refine live_kept h (fun u _ => ?_)
  repeat' first | with_reducible assumption | with_reducible apply State.intRow_kept | with_reducible apply Kept.ite | split

theorem execMulh_kept {qt : Bool} {e : Fin 20} {s s₁ : State} (h : execMulh e s = .next s₁) : Kept qt s s₁ := by
  unfold execMulh at h
  refine live_kept h (fun u _ => ?_)
  repeat' first | with_reducible assumption | with_reducible apply State.intRow_kept | with_reducible apply Kept.ite | split

theorem execMin_kept {qt : Bool} {e : Fin 20} {s s₁ : State} (h : execMin e s = .next s₁) : Kept qt s s₁ := by
  unfold execMin at h
  refine live_kept h (fun u _ => ?_)
  repeat' first | with_reducible assumption | with_reducible apply State.intRow_kept | with_reducible apply Kept.ite | split

theorem execMax_kept {qt : Bool} {e : Fin 20} {s s₁ : State} (h : execMax e s = .next s₁) : Kept qt s s₁ := by
  unfold execMax at h
  refine live_kept h (fun u _ => ?_)
  repeat' first | with_reducible assumption | with_reducible apply State.intRow_kept | with_reducible apply Kept.ite | split

theorem execLdi_kept {qt : Bool} {e : Fin 20} {s s₁ : State} (h : execLdi e s = .next s₁) : Kept qt s s₁ := by
  unfold execLdi at h
  refine live_kept h (fun u _ => ?_)
  repeat' first | with_reducible assumption | with_reducible apply State.ldiRow_kept | with_reducible apply Kept.ite | split

theorem execLdiH_kept {qt : Bool} {e : Fin 20} {s s₁ : State} (h : execLdiH e s = .next s₁) : Kept qt s s₁ := by
  unfold execLdiH at h
  refine live_kept h (fun u _ => ?_)
  repeat' first | with_reducible assumption | with_reducible apply State.ldiRow_kept | with_reducible apply Kept.ite | split

theorem execCmp_kept {qt : Bool} {e : Fin 20} {s s₁ : State} (h : execCmp e s = .next s₁) : Kept qt s s₁ := by
  unfold execCmp at h
  refine live_kept h (fun u _ => ?_)
  repeat' first | with_reducible assumption | with_reducible apply State.cmpRow_kept | with_reducible apply Kept.ite | split

theorem execLd_kept {qt : Bool} {e : Fin 20} {s s₁ : State} (h : execLd e s = .next s₁) : Kept qt s s₁ := by
  unfold execLd at h
  refine live_kept h (fun u _ => ?_)
  repeat' first | with_reducible assumption | with_reducible apply State.ldRow_kept | with_reducible apply Kept.ite | split

theorem execSt_kept {e : Fin 20} {s s₁ : State} (h : execSt e s = .next s₁) : Kept false s s₁ := by
  unfold execSt at h
  refine live_kept h (fun u _ => ?_)
  repeat' first | with_reducible assumption | with_reducible apply State.stRow_kept | with_reducible apply Kept.ite | split

theorem execBld_kept {qt : Bool} {e : Fin 20} {s s₁ : State} (h : execBld e s = .next s₁) : Kept qt s s₁ := by
  unfold execBld at h
  refine live_kept h (fun u _ => ?_)
  repeat' first | with_reducible assumption | with_reducible apply State.bldRow_kept | with_reducible apply Kept.ite | split

theorem execBst_kept {e : Fin 20} {s s₁ : State} (h : execBst e s = .next s₁) : Kept false s s₁ := by
  unfold execBst at h
  refine live_kept h (fun u _ => ?_)
  repeat' first | with_reducible assumption | with_reducible apply State.bstRow_kept | with_reducible apply Kept.ite | split

theorem execBmac_kept {qt : Bool} {e : Fin 20} {s s₁ : State} (h : execBmac e s = .next s₁) : Kept qt s s₁ := by
  unfold execBmac at h
  refine live_kept h (fun u _ => ?_)
  repeat' first | with_reducible assumption | with_reducible apply State.macRow_kept | with_reducible apply Kept.ite | split

theorem execBmsu_kept {qt : Bool} {e : Fin 20} {s s₁ : State} (h : execBmsu e s = .next s₁) : Kept qt s s₁ := by
  unfold execBmsu at h
  refine live_kept h (fun u _ => ?_)
  repeat' first | with_reducible assumption | with_reducible apply State.macRow_kept | with_reducible apply Kept.ite | split

theorem execBacc_kept {qt : Bool} {e : Fin 20} {s s₁ : State} (h : execBacc e s = .next s₁) : Kept qt s s₁ := by
  unfold execBacc at h
  refine live_kept h (fun u _ => ?_)
  repeat' first | with_reducible assumption | with_reducible apply State.baccRow_kept | with_reducible apply Kept.ite | split

theorem execBnorm_kept {qt : Bool} {e : Fin 20} {s s₁ : State} (h : execBnorm e s = .next s₁) : Kept qt s s₁ := by
  unfold execBnorm at h
  refine live_kept h (fun u _ => ?_)
  repeat' first | with_reducible assumption | with_reducible apply State.bnormRow_kept | with_reducible apply Kept.ite | split

theorem execBscale_kept {qt : Bool} {e : Fin 20} {s s₁ : State} (h : execBscale e s = .next s₁) : Kept qt s s₁ := by
  unfold execBscale at h
  refine live_kept h (fun u _ => ?_)
  repeat' first | with_reducible assumption | with_reducible apply State.bscaleRow_kept | with_reducible apply Kept.ite | split

theorem execBsat_kept {qt : Bool} {e : Fin 20} {s s₁ : State} (h : execBsat e s = .next s₁) : Kept qt s s₁ := by
  unfold execBsat at h
  refine live_kept h (fun u _ => ?_)
  repeat' first | with_reducible assumption | with_reducible apply State.bsatRow_kept | with_reducible apply Kept.ite | split

theorem execBsatV_kept {qt : Bool} {e : Fin 20} {s s₁ : State} (h : execBsatV e s = .next s₁) : Kept qt s s₁ := by
  unfold execBsatV at h
  refine live_kept h (fun u _ => ?_)
  repeat' first | with_reducible assumption | with_reducible apply State.bsatRow_kept | with_reducible apply Kept.ite | split

theorem execBint_kept {qt : Bool} {e : Fin 20} {s s₁ : State} (h : execBint e s = .next s₁) : Kept qt s s₁ := by
  unfold execBint at h
  refine live_kept h (fun u _ => ?_)
  repeat' first | with_reducible assumption | with_reducible apply State.bintRow_kept | with_reducible apply Kept.ite | split

theorem execBcvt_kept {qt : Bool} {e : Fin 20} {s s₁ : State} (h : execBcvt e s = .next s₁) : Kept qt s s₁ := by
  unfold execBcvt at h
  refine live_kept h (fun u _ => ?_)
  repeat' first | with_reducible assumption | with_reducible apply State.bcvtRow_kept | with_reducible apply Kept.ite | split

theorem execSincos_kept {qt : Bool} {e : Fin 20} {s s₁ : State} (h : execSincos e s = .next s₁) : Kept qt s s₁ := by
  unfold execSincos at h
  refine live_kept h (fun u _ => ?_)
  repeat' first | with_reducible assumption | with_reducible apply State.sincosRow_kept | with_reducible apply Kept.ite | split

theorem execAtan2_kept {qt : Bool} {e : Fin 20} {s s₁ : State} (h : execAtan2 e s = .next s₁) : Kept qt s s₁ := by
  unfold execAtan2 at h
  refine live_kept h (fun u _ => ?_)
  repeat' first | with_reducible assumption | with_reducible apply State.atan2Row_kept | with_reducible apply Kept.ite | split

theorem execSqrt_kept {qt : Bool} {e : Fin 20} {s s₁ : State} (h : execSqrt e s = .next s₁) : Kept qt s s₁ := by
  unfold execSqrt at h
  refine live_kept h (fun u _ => ?_)
  repeat' first | with_reducible assumption | with_reducible apply State.sqrtRow_kept | with_reducible apply Kept.ite | split

theorem execRcp_kept {qt : Bool} {e : Fin 20} {s s₁ : State} (h : execRcp e s = .next s₁) : Kept qt s s₁ := by
  unfold execRcp at h
  refine live_kept h (fun u _ => ?_)
  repeat' first | with_reducible assumption | with_reducible apply State.rcpRow_kept | with_reducible apply Kept.ite | split

theorem execBr_kept {qt : Bool} {e : Fin 20} {s s₁ : State} (h : execBr e s = .next s₁) : Kept qt s s₁ := by
  unfold execBr at h
  refine live_kept h (fun u _ => ?_)
  repeat' first | with_reducible assumption | with_reducible apply State.brRow_kept | with_reducible apply Kept.ite | split

theorem execCall_kept {qt : Bool} {e : Fin 20} {s s₁ : State} (h : execCall e s = .next s₁) : Kept qt s s₁ := by
  unfold execCall at h
  refine live_kept h (fun u _ => ?_)
  repeat' first | with_reducible assumption | with_reducible apply State.callRow_kept | with_reducible apply Kept.ite | split

theorem execRet_kept {qt : Bool} {e : Fin 20} {s s₁ : State} (h : execRet e s = .next s₁) : Kept qt s s₁ := by
  unfold execRet at h
  refine live_kept h (fun u _ => ?_)
  repeat' first | with_reducible assumption | with_reducible apply State.retRow_kept | with_reducible apply Kept.ite | split

theorem execLoop_kept {qt : Bool} {e : Fin 20} {s s₁ : State} (h : execLoop e s = .next s₁) : Kept qt s s₁ := by
  unfold execLoop at h
  refine live_kept h (fun u _ => ?_)
  repeat' first | with_reducible assumption | with_reducible apply State.loopRow_kept | with_reducible apply Kept.ite | split

theorem execWait_kept {e : Fin 20} {s s₁ : State} (h : execWait e s = .next s₁) : Kept false s s₁ := by
  unfold execWait at h
  refine live_kept h (fun u _ => ?_)
  repeat' first | with_reducible assumption | with_reducible apply State.waitRow_kept | with_reducible apply Kept.ite | split

theorem execHalt_kept {qt : Bool} {e : Fin 20} {s s₁ : State} (h : execHalt e s = .next s₁) : Kept qt s s₁ := by
  unfold execHalt at h
  refine live_kept h (fun u _ => ?_)
  repeat' first | with_reducible assumption | with_reducible apply State.haltRow_kept | with_reducible apply Kept.ite | split

theorem execTrap_kept {qt : Bool} {e : Fin 20} {s s₁ : State} (h : execTrap e s = .next s₁) : Kept qt s s₁ := by
  unfold execTrap at h
  refine live_kept h (fun u _ => ?_)
  repeat' first | with_reducible assumption | with_reducible apply State.trapRow_kept | with_reducible apply Kept.ite | split

theorem execRdi_kept {qt : Bool} {e : Fin 20} {s s₁ : State} (h : execRdi e s = .next s₁) : Kept qt s s₁ := by
  unfold execRdi at h
  refine live_kept h (fun u _ => ?_)
  repeat' first | with_reducible assumption | with_reducible apply State.rdiRow_kept | with_reducible apply Kept.ite | split

theorem execRdiW_kept {qt : Bool} {e : Fin 20} {s s₁ : State} (h : execRdiW e s = .next s₁) : Kept qt s s₁ := by
  unfold execRdiW at h
  refine live_kept h (fun u _ => ?_)
  repeat' first | with_reducible assumption | with_reducible apply State.rdiRow_kept | with_reducible apply Kept.ite | split

theorem execRdv_kept {qt : Bool} {e : Fin 20} {s s₁ : State} (h : execRdv e s = .next s₁) : Kept qt s s₁ := by
  unfold execRdv at h
  refine live_kept h (fun u _ => ?_)
  repeat' first | with_reducible assumption | with_reducible apply State.rdvRow_kept | with_reducible apply Kept.ite | split

theorem execRdf_kept {qt : Bool} {e : Fin 20} {s s₁ : State} (h : execRdf e s = .next s₁) : Kept qt s s₁ := by
  unfold execRdf at h
  refine live_kept h (fun u _ => ?_)
  repeat' first | with_reducible assumption | with_reducible apply State.rdfRow_kept | with_reducible apply Kept.ite | split

theorem execPos_kept {qt : Bool} {e : Fin 20} {s s₁ : State} (h : execPos e s = .next s₁) : Kept qt s s₁ := by
  unfold execPos at h
  refine live_kept h (fun u _ => ?_)
  repeat' first | with_reducible assumption | with_reducible apply State.posRow_kept | with_reducible apply Kept.ite | split

theorem execPit_kept {qt : Bool} {e : Fin 20} {s s₁ : State} (h : execPit e s = .next s₁) : Kept qt s s₁ := by
  unfold execPit at h
  refine live_kept h (fun u _ => ?_)
  repeat' first | with_reducible assumption | with_reducible apply State.pitRow_kept | with_reducible apply Kept.ite | split

theorem execPitLvl_kept {qt : Bool} {e : Fin 20} {s s₁ : State} (h : execPitLvl e s = .next s₁) : Kept qt s s₁ := by
  unfold execPitLvl at h
  refine live_kept h (fun u _ => ?_)
  repeat' first | with_reducible assumption | with_reducible apply State.pitLvlRow_kept | with_reducible apply Kept.ite | split

theorem execWrv_kept {qt : Bool} {e : Fin 20} {s s₁ : State} (h : execWrv e s = .next s₁) : Kept qt s s₁ := by
  unfold execWrv at h
  refine live_kept h (fun u _ => ?_)
  repeat' first | with_reducible assumption | with_reducible apply State.wrvRow_kept | with_reducible apply Kept.ite | split

theorem execWra_kept {qt : Bool} {e : Fin 20} {s s₁ : State} (h : execWra e s = .next s₁) : Kept qt s s₁ := by
  unfold execWra at h
  refine live_kept h (fun u _ => ?_)
  repeat' first | with_reducible assumption | with_reducible apply State.wraRow_kept | with_reducible apply Kept.ite | split

theorem execCap_kept {qt : Bool} {e : Fin 20} {s s₁ : State} (h : execCap e s = .next s₁) : Kept qt s s₁ := by
  unfold execCap at h
  refine live_kept h (fun u _ => ?_)
  repeat' first | with_reducible assumption | with_reducible apply State.capRow_kept | with_reducible apply Kept.ite | split

theorem execTrc_kept {qt : Bool} {e : Fin 20} {s s₁ : State} (h : execTrc e s = .next s₁) : Kept qt s s₁ := by
  unfold execTrc at h
  refine live_kept h (fun u _ => ?_)
  repeat' first | with_reducible assumption | with_reducible apply State.trcRow_kept | with_reducible apply Kept.ite | split

theorem execFlt_kept {qt : Bool} {e : Fin 20} {s s₁ : State} (h : execFlt e s = .next s₁) : Kept qt s s₁ := by
  unfold execFlt at h
  refine live_kept h (fun u _ => ?_)
  repeat' first | with_reducible assumption | with_reducible apply State.fltRow_kept | with_reducible apply Kept.ite | split

theorem execEvt_kept {qt : Bool} {e : Fin 20} {s s₁ : State} (h : execEvt e s = .next s₁) : Kept qt s s₁ := by
  unfold execEvt at h
  refine live_kept h (fun u _ => ?_)
  repeat' first | with_reducible assumption | with_reducible apply State.evtRow_kept | with_reducible apply Kept.ite | split

theorem execSgn_kept {qt : Bool} {e : Fin 20} {s s₁ : State} (h : execSgn e s = .next s₁) : Kept qt s s₁ := by
  unfold execSgn at h
  refine live_kept h (fun u _ => ?_)
  repeat' first | with_reducible assumption | with_reducible apply State.sgnRow_kept | with_reducible apply Kept.ite | split

theorem execSgnR_kept {e : Fin 20} {s s₁ : State} (h : execSgnR e s = .next s₁) : Kept false s s₁ := by
  unfold execSgnR at h
  refine live_kept h (fun u _ => ?_)
  repeat' first | with_reducible assumption | with_reducible apply State.sgnrRow_kept | with_reducible apply Kept.ite | split

theorem execMailboxDelivery_kept {qt : Bool} {e : Fin 20} {s s₁ : State} (h : execMailboxDelivery e s = .next s₁) : Kept qt s s₁ := by
  unfold execMailboxDelivery at h
  refine live_kept h (fun u _ => ?_)
  repeat' first | with_reducible assumption | with_reducible apply mailboxDelivery_kept | with_reducible apply Kept.ite | split

theorem execCkp_kept {e : Fin 20} {s s₁ : State} (h : execCkp e s = .next s₁) : Kept false s s₁ := by
  unfold execCkp at h
  refine live_kept h (fun u _ => ?_)
  repeat' first | with_reducible assumption | with_reducible apply State.ckpRow_kept | with_reducible apply Kept.ite | split

theorem execMfs_kept {qt : Bool} {e : Fin 20} {s s₁ : State} (h : execMfs e s = .next s₁) : Kept qt s s₁ := by
  unfold execMfs at h
  refine live_kept h (fun u _ => ?_)
  repeat' first | with_reducible assumption | with_reducible apply State.mfsRow_kept | with_reducible apply Kept.ite | split

theorem execMts_kept {qt : Bool} {e : Fin 20} {s s₁ : State} (h : execMts e s = .next s₁) : Kept qt s s₁ := by
  unfold execMts at h
  refine live_kept h (fun u _ => ?_)
  repeat' first | with_reducible assumption | with_reducible apply State.mtsRow_kept | with_reducible apply Kept.ite | split

theorem execBindWrite_kept {qt : Bool} {w : Writer} {n : Fin 16} {v : Word} {s s₁ : State} (h : execBindWrite w n v s = .next s₁) : Kept qt s s₁ := by
  unfold execBindWrite at h
  refine live_kept h (fun u _ => ?_)
  repeat' first | with_reducible assumption | with_reducible apply bindWrite_kept | with_reducible apply Kept.ite | split

theorem execEngselWrite_kept {qt : Bool} {w : Writer} {n : Fin 16} {v : Word} {s s₁ : State} (h : execEngselWrite w n v s = .next s₁) : Kept qt s s₁ := by
  unfold execEngselWrite at h
  refine live_kept h (fun u _ => ?_)
  repeat' first | with_reducible assumption | with_reducible apply engselWrite_kept | with_reducible apply Kept.ite | split

theorem execEnergise_kept {qt : Bool} {w : Writer} {n : Fin 16} {s s₁ : State} (h : execEnergise w n s = .next s₁) : Kept qt s s₁ := by
  unfold execEnergise at h
  refine live_kept h (fun u _ => ?_)
  repeat' first | with_reducible assumption | with_reducible apply State.energise_kept | with_reducible apply Kept.ite | split

theorem execDeenergise_kept {qt : Bool} {w : Writer} {n : Fin 16} {s s₁ : State} (h : execDeenergise w n s = .next s₁) : Kept qt s s₁ := by
  unfold execDeenergise at h
  refine live_kept h (fun u _ => ?_)
  repeat' first | with_reducible assumption | with_reducible apply State.deenergise_kept | with_reducible apply Kept.ite | split

theorem execClear_kept {qt : Bool} {w : Writer} {n : Fin 16} {s s₁ : State} (h : execClear w n s = .next s₁) : Kept qt s s₁ := by
  unfold execClear at h
  refine live_kept h (fun u _ => ?_)
  repeat' first | with_reducible assumption | with_reducible apply State.clearTrip_kept | with_reducible apply Kept.ite | split

theorem execSvcOut_kept {qt : Bool} {w : Writer} {n : Fin 16} {s s₁ : State} (h : execSvcOut w n s = .next s₁) : Kept qt s s₁ := by
  unfold execSvcOut at h
  refine live_kept h (fun u _ => ?_)
  repeat' first | with_reducible assumption | with_reducible apply State.svcOut_kept | with_reducible apply Kept.ite | split

theorem execSvcIn_kept {qt : Bool} {w : Writer} {n : Fin 16} {phys : List Nat} {s s₁ : State} (h : execSvcIn w n phys s = .next s₁) : Kept qt s s₁ := by
  unfold execSvcIn at h
  refine live_kept h (fun u _ => ?_)
  repeat' first | with_reducible assumption | with_reducible apply State.svcIn_kept | with_reducible apply Kept.ite | split

theorem execShutdownComplete_kept {qt : Bool} {n : Fin 16} {s s₁ : State} (h : execShutdownComplete n s = .next s₁) : Kept qt s s₁ := by
  unfold execShutdownComplete at h
  refine live_kept h (fun u _ => ?_)
  repeat' first | with_reducible assumption | with_reducible apply shutdownComplete_kept | with_reducible apply Kept.ite | split

theorem execCellTick_kept  {s s₁ : State} (h : execCellTick s = .next s₁) : Kept false s s₁ := by
  unfold execCellTick at h
  refine live_kept h (fun u _ => ?_)
  repeat' first | with_reducible assumption | with_reducible apply cellTick_kept | with_reducible apply Kept.ite | split

theorem execTickPeriodChange_kept {qt : Bool}  {s s₁ : State} (h : execTickPeriodChange s = .next s₁) : Kept qt s s₁ := by
  unfold execTickPeriodChange at h
  refine live_kept h (fun u _ => ?_)
  repeat' first | with_reducible assumption | with_reducible apply tickPeriodChange_kept | with_reducible apply Kept.ite | split

theorem execTickusWrite_kept {qt : Bool} {v : Word} {s s₁ : State} (h : execTickusWrite v s = .next s₁) : Kept qt s s₁ := by
  unfold execTickusWrite at h
  refine live_kept h (fun u _ => ?_)
  repeat' first | with_reducible assumption | with_reducible apply tickusWrite_kept | with_reducible apply Kept.ite | split

theorem execCspCfgWrite_kept {qt : Bool} {n : Fin 4} {v : Word} {s s₁ : State} (h : execCspCfgWrite n v s = .next s₁) : Kept qt s s₁ := by
  unfold execCspCfgWrite at h
  refine live_kept h (fun u _ => ?_)
  repeat' first | with_reducible assumption | with_reducible apply cspCfgWrite_kept | with_reducible apply Kept.ite | split

theorem execCspCfgApply_kept {qt : Bool} {n : Fin 4} {s s₁ : State} (h : execCspCfgApply n s = .next s₁) : Kept qt s s₁ := by
  unfold execCspCfgApply at h
  refine live_kept h (fun u _ => ?_)
  repeat' first | with_reducible assumption | with_reducible apply cspCfgApply_kept | with_reducible apply Kept.ite | split

theorem execQinWrite_kept {qt : Bool} {n : Fin 4} {v : Word} {s s₁ : State} (h : execQinWrite n v s = .next s₁) : Kept qt s s₁ := by
  unfold execQinWrite at h
  refine live_kept h (fun u _ => ?_)
  repeat' first | with_reducible assumption | with_reducible apply qinWrite_kept | with_reducible apply Kept.ite | split

theorem execCspEntryStart_kept {qt : Bool} {n : Fin 4} {s s₁ : State} (h : execCspEntryStart n s = .next s₁) : Kept qt s s₁ := by
  unfold execCspEntryStart at h
  refine live_kept h (fun u _ => ?_)
  repeat' first | with_reducible assumption | with_reducible apply cspEntryStart_kept | with_reducible apply Kept.ite | split

theorem execCspEntryDone_kept {n : Fin 4} {got : List Word} {s s₁ : State} (h : execCspEntryDone n got s = .next s₁) : Kept false s s₁ := by
  unfold execCspEntryDone at h
  refine live_kept h (fun u _ => ?_)
  repeat' first | with_reducible assumption | with_reducible apply State.cspEnd_kept | with_reducible apply Kept.ite | split

theorem execStrobeTimeout_kept {n : Fin 4} {got : List Word} {s s₁ : State} (h : execStrobeTimeout n got s = .next s₁) : Kept false s s₁ := by
  unfold execStrobeTimeout at h
  refine live_kept h (fun u _ => ?_)
  repeat' first | with_reducible assumption | with_reducible apply State.cspEnd_kept | with_reducible apply Kept.ite | split

theorem execCspQueueFlush_kept {qt : Bool} {n : Fin 4} {s s₁ : State} (h : execCspQueueFlush n s = .next s₁) : Kept qt s s₁ := by
  unfold execCspQueueFlush at h
  refine live_kept h (fun u _ => ?_)
  repeat' first | with_reducible assumption | with_reducible apply cspFlush_kept | with_reducible apply Kept.ite | split

theorem execSs0Fall_kept {qt : Bool} {n : Fin 4} {s s₁ : State} (h : execSs0Fall n s = .next s₁) : Kept qt s s₁ := by
  unfold execSs0Fall at h
  split at h
  · exact always_kept h (fun u _ => by repeat' first | with_reducible assumption | with_reducible apply ss0FallAsleep_kept | with_reducible apply ss0Fall_kept)
  · exact live_kept h (fun u _ => by repeat' first | with_reducible assumption | with_reducible apply ss0FallAsleep_kept | with_reducible apply ss0Fall_kept)

theorem execSs0Rise_kept {qt : Bool} {n : Fin 4} {mid : Bool} {s s₁ : State} (h : execSs0Rise n mid s = .next s₁) : Kept qt s s₁ := by
  unfold execSs0Rise at h
  refine live_kept h (fun u _ => ?_)
  repeat' first | with_reducible assumption | with_reducible apply ss0Rise_kept | with_reducible apply Kept.ite | split

theorem execCspSlaveWord_kept {qt : Bool} {n : Fin 4} {w : Word} {s s₁ : State} (h : execCspSlaveWord n w s = .next s₁) : Kept qt s s₁ := by
  unfold execCspSlaveWord at h
  refine live_kept h (fun u _ => ?_)
  repeat' first | with_reducible assumption | with_reducible apply cspSlaveWord_kept | with_reducible apply Kept.ite | split

theorem execUnderrunResend_kept {qt : Bool} {n : Fin 4} {s s₁ : State} (h : execUnderrunResend n s = .next s₁) : Kept qt s s₁ := by
  unfold execUnderrunResend at h
  refine live_kept h (fun u _ => ?_)
  repeat' first | with_reducible assumption | with_reducible apply underrunResend_kept | with_reducible apply Kept.ite | split

theorem execSrxdRead_kept {qt : Bool} {n : Fin 4} {s s₁ : State} (h : execSrxdRead n s = .next s₁) : Kept qt s s₁ := by
  unfold execSrxdRead at h
  refine live_kept h (fun u _ => ?_)
  exact (srxdRead_kept (by assumption) _).upd

theorem execStxdWrite_kept {qt : Bool} {n : Fin 4} {v : Word} {s s₁ : State} (h : execStxdWrite n v s = .next s₁) : Kept qt s s₁ := by
  unfold execStxdWrite at h
  refine live_kept h (fun u _ => ?_)
  repeat' first | with_reducible assumption | with_reducible apply stxdWrite_kept | with_reducible apply Kept.ite | split

theorem execEgressFrameStart_kept {qt : Bool} {p : Fin 2} {s s₁ : State} (h : execEgressFrameStart p s = .next s₁) : Kept qt s s₁ := by
  unfold execEgressFrameStart at h
  refine live_kept h (fun u _ => ?_)
  repeat' first | with_reducible assumption | with_reducible apply egressStart_kept | with_reducible apply Kept.ite | split

theorem execGateEntryChange_kept {qt : Bool} {p : Fin 2} {s s₁ : State} (h : execGateEntryChange p s = .next s₁) : Kept qt s s₁ := by
  unfold execGateEntryChange at h
  refine live_kept h (fun u _ => ?_)
  repeat' first | with_reducible assumption | with_reducible apply gateEntryChange_kept | with_reducible apply Kept.ite | split

theorem execQbvApply_kept {qt : Bool} {p : Fin 2} {s s₁ : State} (h : execQbvApply p s = .next s₁) : Kept qt s s₁ := by
  unfold execQbvApply at h
  refine live_kept h (fun u _ => ?_)
  repeat' first | with_reducible assumption | with_reducible apply qbvApply_kept | with_reducible apply Kept.ite | split

theorem execQbvConfigChange_kept {qt : Bool} {p : Fin 2} {s s₁ : State} (h : execQbvConfigChange p s = .next s₁) : Kept qt s s₁ := by
  unfold execQbvConfigChange at h
  refine live_kept h (fun u _ => ?_)
  repeat' first | with_reducible assumption | with_reducible apply qbvConfigChange_kept | with_reducible apply Kept.ite | split

theorem execMdioGo_kept {qt : Bool}  {s s₁ : State} (h : execMdioGo s = .next s₁) : Kept qt s s₁ := by
  unfold execMdioGo at h
  refine live_kept h (fun u _ => ?_)
  repeat' first | with_reducible assumption | with_reducible apply mdioGo_kept | with_reducible apply Kept.ite | split

theorem execMdioDone_kept {qt : Bool} {d : BitVec 16} {s s₁ : State} (h : execMdioDone d s = .next s₁) : Kept qt s s₁ := by
  unfold execMdioDone at h
  refine live_kept h (fun u _ => ?_)
  repeat' first | with_reducible assumption | with_reducible apply mdioDone_kept | with_reducible apply Kept.ite | split

theorem execEthFrameReceive_kept {qt : Bool} {p : Fin 2} {b : List Byte} {symErr : Bool} {s s₁ : State} (h : execEthFrameReceive p b symErr s = .next s₁) : Kept qt s s₁ := by
  unfold execEthFrameReceive at h
  refine live_kept h (fun u _ => ?_)
  repeat' first | with_reducible assumption | with_reducible apply ethFrameReceive_kept | with_reducible apply Kept.ite | split

theorem execCtSetGo_kept {qt : Bool}  {s s₁ : State} (h : execCtSetGo s = .next s₁) : Kept qt s s₁ := by
  unfold execCtSetGo at h
  refine live_kept h (fun u _ => ?_)
  repeat' first | with_reducible assumption | with_reducible apply ctSetGo_kept | with_reducible apply Kept.ite | split

theorem execCtServoWrite_kept {qt : Bool} {r : CtReg} {v : Word} {s s₁ : State} (h : execCtServoWrite r v s = .next s₁) : Kept qt s s₁ := by
  unfold execCtServoWrite at h
  refine live_kept h (fun u _ => ?_)
  repeat' first | with_reducible assumption | with_reducible apply ctServoWrite_kept | with_reducible apply Kept.ite | split

theorem execGptpCfgWrite_kept {qt : Bool} {v : Word} {s s₁ : State} (h : execGptpCfgWrite v s = .next s₁) : Kept qt s s₁ := by
  unfold execGptpCfgWrite at h
  refine live_kept h (fun u _ => ?_)
  repeat' first | with_reducible assumption | with_reducible apply gptpCfgWrite_kept | with_reducible apply Kept.ite | split

theorem execAnnounce_kept {qt : Bool} {p : Fin 2} {a : AnnounceMsg} {s s₁ : State} (h : execAnnounce p a s = .next s₁) : Kept qt s s₁ := by
  unfold execAnnounce at h
  refine live_kept h (fun u _ => ?_)
  repeat' first | with_reducible assumption | with_reducible apply announce_kept | with_reducible apply Kept.ite | split

theorem execAnnounceTransmit_kept {qt : Bool}  {s s₁ : State} (h : execAnnounceTransmit s = .next s₁) : Kept qt s s₁ := by
  unfold execAnnounceTransmit at h
  refine live_kept h (fun u _ => ?_)
  repeat' first | with_reducible assumption | with_reducible apply announceTransmit_kept | with_reducible apply Kept.ite | split

theorem execSyncTransmit_kept {qt : Bool}  {s s₁ : State} (h : execSyncTransmit s = .next s₁) : Kept qt s s₁ := by
  unfold execSyncTransmit at h
  refine live_kept h (fun u _ => ?_)
  repeat' first | with_reducible assumption | with_reducible apply syncTransmit_kept | with_reducible apply Kept.ite | split

theorem execPdelay_kept {qt : Bool} {p : Fin 2} {d : Option (BitVec 32)} {s s₁ : State} (h : execPdelay p d s = .next s₁) : Kept qt s s₁ := by
  unfold execPdelay at h
  refine live_kept h (fun u _ => ?_)
  repeat' first | with_reducible assumption | with_reducible apply pdelay_kept | with_reducible apply Kept.ite | split

theorem execFollowUp_kept {qt : Bool} {p : Fin 2} {off rate : Int} {s s₁ : State} (h : execFollowUp p off rate s = .next s₁) : Kept qt s s₁ := by
  unfold execFollowUp at h
  refine live_kept h (fun u _ => ?_)
  repeat' first | with_reducible assumption | with_reducible apply followUp_kept | with_reducible apply Kept.ite | split

theorem execSlewEnd_kept {qt : Bool}  {s s₁ : State} (h : execSlewEnd s = .next s₁) : Kept qt s s₁ := by
  unfold execSlewEnd at h
  refine live_kept h (fun u _ => ?_)
  repeat' first | with_reducible assumption | with_reducible apply slewEnd_kept | with_reducible apply Kept.ite | split

theorem execReceiptTimeout_kept {qt : Bool} {p : Fin 2} {ann : Bool} {s s₁ : State} (h : execReceiptTimeout p ann s = .next s₁) : Kept qt s s₁ := by
  unfold execReceiptTimeout at h
  refine live_kept h (fun u _ => ?_)
  repeat' first | with_reducible assumption | with_reducible apply receiptTimeout_kept | with_reducible apply Kept.ite | split

theorem execLinkUp_kept {qt : Bool} {p : Fin 2} {s s₁ : State} (h : execLinkUp p s = .next s₁) : Kept qt s s₁ := by
  unfold execLinkUp at h
  refine live_kept h (fun u _ => ?_)
  repeat' first | with_reducible assumption | with_reducible apply linkUpEvent_kept | with_reducible apply Kept.ite | split

theorem execLinkDown_kept {qt : Bool} {p : Fin 2} {s s₁ : State} (h : execLinkDown p s = .next s₁) : Kept qt s s₁ := by
  unfold execLinkDown at h
  refine live_kept h (fun u _ => ?_)
  repeat' first | with_reducible assumption | with_reducible apply linkDownEvent_kept | with_reducible apply Kept.ite | split

theorem execTouchScan_kept {cs : List (BitVec 16)} {s s₁ : State} (h : execTouchScan cs s = .next s₁) : Kept false s s₁ := by
  unfold execTouchScan at h
  split at h <;> first | (cases h; done) | skip
  refine campLive_kept h (fun u _ => ?_)
  repeat' first | with_reducible assumption | with_reducible apply touchScan_kept | with_reducible apply Kept.ite | split

theorem execRecal_kept {qt : Bool} {k : Fin 8} {s s₁ : State} (h : execRecal k s = .next s₁) : Kept qt s s₁ := by
  unfold execRecal at h
  refine live_kept h (fun u _ => ?_)
  repeat' first | with_reducible assumption | with_reducible apply fpRecal_kept | with_reducible apply Kept.ite | split

theorem execInputSample_kept {pb : BitVec 4} {pres : BitVec 8} {s s₁ : State} (h : execInputSample pb pres s = .next s₁) : Kept false s s₁ := by
  unfold execInputSample at h
  refine campLive_kept h (fun u _ => ?_)
  repeat' first | with_reducible assumption | with_reducible apply inputSample_kept | with_reducible apply Kept.ite | split

theorem execLampBlink_kept {qt : Bool} {l : Fin 8} {s s₁ : State} (h : execLampBlink l s = .next s₁) : Kept qt s s₁ := by
  unfold execLampBlink at h
  refine live_kept h (fun u _ => ?_)
  repeat' first | with_reducible assumption | with_reducible apply lampBlink_kept | with_reducible apply Kept.ite | split

theorem execPresenceTest_kept {qt : Bool} {n : Fin 16} {s s₁ : State} (h : execPresenceTest n s = .next s₁) : Kept qt s s₁ := by
  unfold execPresenceTest at h
  refine live_kept h (fun u _ => ?_)
  repeat' first | with_reducible assumption | with_reducible apply presenceTest_kept | with_reducible apply Kept.ite | split

theorem execPresencePathDone_kept {n : Fin 16} {e : PathEnd} {s s₁ : State} (h : execPresencePathDone n e s = .next s₁) : Kept false s s₁ := by
  unfold execPresencePathDone at h
  refine live_kept h (fun u _ => ?_)
  repeat' first | with_reducible assumption | with_reducible apply presencePathDone_kept | with_reducible apply Kept.ite | split

theorem execFpConfigWrite_kept {qt : Bool} {r : FpReg} {v : Word} {s s₁ : State} (h : execFpConfigWrite r v s = .next s₁) : Kept qt s s₁ := by
  unfold execFpConfigWrite at h
  refine live_kept h (fun u _ => ?_)
  repeat' first | with_reducible assumption | with_reducible apply fpConfigWrite_kept | with_reducible apply Kept.ite | split

theorem execHostCfgWrite_kept {qt : Bool} {w : Writer} {n : Fin 8} {r : HostReg} {s s₁ : State} (h : execHostCfgWrite w n r s = .next s₁) : Kept qt s s₁ := by
  unfold execHostCfgWrite at h
  refine live_kept h (fun u _ => ?_)
  repeat' first | with_reducible assumption | with_reducible apply hostCfgWrite_kept | with_reducible apply Kept.ite | split

theorem execHostLossTimeout_kept {h : Fin 8} {s s₁ : State} (h : execHostLossTimeout h s = .next s₁) : Kept false s s₁ := by
  unfold execHostLossTimeout at h
  refine live_kept h (fun u _ => ?_)
  repeat' first | with_reducible assumption | with_reducible apply hostLossTimeout_kept | with_reducible apply Kept.ite | split

theorem execLose_kept {w : Writer} {h : Fin 8} {s s₁ : State} (h : execLose w h s = .next s₁) : Kept false s s₁ := by
  unfold execLose at h
  refine live_kept h (fun u _ => ?_)
  repeat' first | with_reducible assumption | with_reducible apply lose_kept | with_reducible apply Kept.ite | split

theorem execPowerOnReset_kept  {s s₁ : State} (h : execPowerOnReset s = .next s₁) : Kept false s s₁ := by
  unfold execPowerOnReset at h
  refine always_kept h (fun u _ => ?_)
  repeat' first | with_reducible assumption | with_reducible apply powerOnReset_kept | with_reducible apply Kept.ite | split

theorem execResetPin_kept  {s s₁ : State} (h : execResetPin s = .next s₁) : Kept false s s₁ := by
  unfold execResetPin at h
  refine always_kept h (fun u _ => ?_)
  repeat' first | with_reducible assumption | with_reducible apply resetPin_kept | with_reducible apply Kept.ite | split

theorem execWatchdogExpiry_kept {active : Bool} {s s₁ : State} (h : execWatchdogExpiry active s = .next s₁) : Kept false s s₁ := by
  unfold execWatchdogExpiry at h
  refine live_kept h (fun u _ => ?_)
  repeat' first | with_reducible assumption | with_reducible apply watchdogExpiry_kept | with_reducible apply Kept.ite | split

theorem execClockLoss_kept  {s s₁ : State} (h : execClockLoss s = .next s₁) : Kept false s s₁ := by
  unfold execClockLoss at h
  refine always_kept h (fun u _ => ?_)
  repeat' first | with_reducible assumption | with_reducible apply clockLoss_kept | with_reducible apply Kept.ite | split

theorem execVbcLoss_kept  {s s₁ : State} (h : execVbcLoss s = .next s₁) : Kept false s s₁ := by
  unfold execVbcLoss at h
  refine always_kept h (fun u _ => ?_)
  repeat' first | with_reducible assumption | with_reducible apply vbcLoss_kept | with_reducible apply Kept.ite | split

theorem execPwrCtrlWrite_kept {v : Word} {s s₁ : State} (h : execPwrCtrlWrite v s = .next s₁) : Kept false s s₁ := by
  unfold execPwrCtrlWrite at h
  refine live_kept h (fun u _ => ?_)
  repeat' first | with_reducible assumption | with_reducible apply pwrCtrlWrite_kept | with_reducible apply Kept.ite | split

theorem execPwrCfgWrite_kept {qt : Bool} {v : Word} {s s₁ : State} (h : execPwrCfgWrite v s = .next s₁) : Kept qt s s₁ := by
  unfold execPwrCfgWrite at h
  refine live_kept h (fun u _ => ?_)
  repeat' first | with_reducible assumption | with_reducible apply pwrCfgWrite_kept | with_reducible apply Kept.ite | split

theorem execXbcLoss_kept {qt : Bool}  {s s₁ : State} (h : execXbcLoss s = .next s₁) : Kept qt s s₁ := by
  unfold execXbcLoss at h
  refine campLive_kept h (fun u _ => ?_)
  repeat' first | with_reducible assumption | with_reducible apply xbcLoss_kept | with_reducible apply Kept.ite | split

theorem execXbcStart_kept {qt : Bool}  {s s₁ : State} (h : execXbcStart s = .next s₁) : Kept qt s s₁ := by
  unfold execXbcStart at h
  refine campLive_kept h (fun u _ => ?_)
  repeat' first | with_reducible assumption | with_reducible apply xbcStart_kept | with_reducible apply Kept.ite | split

theorem execBivouacEntry_kept {qt : Bool}  {s s₁ : State} (h : execBivouacEntry s = .next s₁) : Kept qt s s₁ := by
  unfold execBivouacEntry at h
  refine live_kept h (fun u _ => ?_)
  repeat' first | with_reducible assumption | with_reducible apply bivouacEntry_kept | with_reducible apply Kept.ite | split

theorem execBivouacEntered_kept  {s s₁ : State} (h : execBivouacEntered s = .next s₁) : Kept false s s₁ := by
  unfold execBivouacEntered at h
  refine live_kept h (fun u _ => ?_)
  repeat' first | with_reducible assumption | with_reducible apply bivouacEntered_kept | with_reducible apply Kept.ite | split

theorem execWake_kept {qt : Bool} {src : Fin 7} {s s₁ : State} (h : execWake src s = .next s₁) : Kept qt s s₁ := by
  unfold execWake at h
  refine campLive_kept h (fun u _ => ?_)
  repeat' first | with_reducible assumption | with_reducible apply wake_kept | with_reducible apply Kept.ite | split

theorem execHostsServed_kept  {s s₁ : State} (h : execHostsServed s = .next s₁) : Kept false s s₁ := by
  unfold execHostsServed at h
  refine campLive_kept h (fun u _ => ?_)
  repeat' first | with_reducible assumption | with_reducible apply hostsServed_kept | with_reducible apply Kept.ite | split

theorem execStandbyReady_kept {qt : Bool}  {s s₁ : State} (h : execStandbyReady s = .next s₁) : Kept qt s s₁ := by
  unfold execStandbyReady at h
  refine live_kept h (fun u _ => ?_)
  repeat' first | with_reducible assumption | with_reducible apply standbyReady_kept | with_reducible apply Kept.ite | split

theorem execReadClear_kept {qt : Bool} {w : Writer} {a : BitVec 24} {s s₁ : State} (h : execReadClear w a s = .next s₁) : Kept qt s s₁ := by
  unfold execReadClear at h
  split at h <;> first | (cases h; done) | skip
  refine live_kept h (fun u _ => ?_)
  repeat' first | with_reducible assumption | with_reducible apply readClear_kept | with_reducible apply Kept.ite | split

theorem execWriteStageExpiry_kept {qt : Bool} {h : Fin 8} {s s₁ : State} (h : execWriteStageExpiry h s = .next s₁) : Kept qt s s₁ := by
  unfold execWriteStageExpiry at h
  refine live_kept h (fun u _ => ?_)
  repeat' first | with_reducible assumption | with_reducible apply writeStageExpiry_kept | with_reducible apply Kept.ite | split

theorem execRegisterWrite_kept {w : Writer} {a : BitVec 24} {v : Word} {s s₁ : State} (h : execRegisterWrite w a v s = .next s₁) : Kept false s s₁ := by
  unfold execRegisterWrite at h
  split at h <;> first | (cases h; done) | skip
  refine live_kept h (fun u _ => ?_)
  repeat' first | with_reducible assumption | with_reducible apply State.takeReset_kept | with_reducible apply accessWrite_kept | with_reducible apply Kept.ite | split

theorem execResume_kept {qt : Bool} {k : Fin 32} {seq : BitVec 16} {stray : Bool} {s s₁ : State} (h : execResume k seq stray s = .next s₁) : Kept qt s s₁ := by
  unfold execResume at h
  refine live_kept h (fun u _ => ?_)
  repeat' first | with_reducible assumption | with_reducible apply takeControl_kept | with_reducible apply Kept.ite | split

theorem execStreamFlush_kept {qt : Bool} {k : Fin 32} {seq : BitVec 16} {stray : Bool} {s s₁ : State} (h : execStreamFlush k seq stray s = .next s₁) : Kept qt s s₁ := by
  unfold execStreamFlush at h
  refine live_kept h (fun u _ => ?_)
  repeat' first | with_reducible assumption | with_reducible apply takeControl_kept | with_reducible apply Kept.ite | split

theorem execStreamResync_kept {qt : Bool} {k : Fin 32} {seq : BitVec 16} {stray : Bool} {s s₁ : State} (h : execStreamResync k seq stray s = .next s₁) : Kept qt s s₁ := by
  unfold execStreamResync at h
  refine live_kept h (fun u _ => ?_)
  repeat' first | with_reducible assumption | with_reducible apply takeControl_kept | with_reducible apply Kept.ite | split

theorem execFrameReceive_kept {qt : Bool} {port : Fin 4} {s s₁ : State} (h : execFrameReceive port s = .next s₁) : Kept qt s s₁ := by
  unfold execFrameReceive at h
  refine live_kept h (fun u _ => ?_)
  repeat' first | with_reducible assumption | with_reducible apply frameReceive_kept | with_reducible apply Kept.ite | split

theorem execRead_kept {qt : Bool} {k : Fin 32} {s s₁ : State} (h : execRead k s = .next s₁) : Kept qt s s₁ := by
  unfold execRead at h
  refine live_kept h (fun u _ => ?_)
  repeat' first | with_reducible assumption | with_reducible apply readCmd_kept | with_reducible apply Kept.ite | split

theorem execWrite_kept {k : Fin 32} {s s₁ : State} (h : execWrite k s = .next s₁) : Kept false s s₁ := by
  unfold execWrite at h
  refine live_kept h (fun u _ => ?_)
  repeat' first | with_reducible assumption | with_reducible apply writeCmd_kept | with_reducible apply Kept.ite | split

theorem execRmw_kept {k : Fin 32} {s s₁ : State} (h : execRmw k s = .next s₁) : Kept false s s₁ := by
  unfold execRmw at h
  refine live_kept h (fun u _ => ?_)
  repeat' first | with_reducible assumption | with_reducible apply rmwCmd_kept | with_reducible apply Kept.ite | split

theorem execPitch_kept {qt : Bool} {k : Fin 32} {s s₁ : State} (h : execPitch k s = .next s₁) : Kept qt s s₁ := by
  unfold execPitch at h
  refine live_kept h (fun u _ => ?_)
  repeat' first | with_reducible assumption | (with_reducible refine State.runSlot_kept ?_ _ _ (fun _ t _ => ?_)) | with_reducible apply placeEntries_kept | with_reducible apply Kept.ite | with_reducible apply placeEntries_kept | split

theorem execSetpoint_kept {qt : Bool} {k : Fin 32} {s s₁ : State} (h : execSetpoint k s = .next s₁) : Kept qt s s₁ := by
  unfold execSetpoint at h
  refine live_kept h (fun u _ => ?_)
  repeat' first | with_reducible assumption | (with_reducible refine State.runSlot_kept ?_ _ _ (fun _ t _ => ?_)) | with_reducible apply placeEntries_kept | with_reducible apply Kept.ite | with_reducible apply placeEntries_kept | split

theorem execCommandRoomFreed_kept {qt : Bool} {k : Fin 32} {s s₁ : State} (h : execCommandRoomFreed k s = .next s₁) : Kept qt s s₁ := by
  unfold execCommandRoomFreed at h
  refine live_kept h (fun u _ => ?_)
  repeat' first | with_reducible assumption | with_reducible apply commandRoomFreed_kept | with_reducible apply Kept.ite | split

theorem execCtrl_kept {qt : Bool} {k : Fin 32} {s s₁ : State} (h : execCtrl k s = .next s₁) : Kept qt s s₁ := by
  unfold execCtrl at h
  refine live_kept h (fun u _ => ?_)
  repeat' first | with_reducible assumption | (with_reducible refine State.runSlot_kept ?_ _ _ (fun _ t _ => ?_)) | with_reducible apply ctrlCmd_kept | with_reducible apply Kept.ite | split

theorem execQctrl_kept {qt : Bool} {k : Fin 32} {s s₁ : State} (h : execQctrl k s = .next s₁) : Kept qt s s₁ := by
  unfold execQctrl at h
  refine live_kept h (fun u _ => ?_)
  repeat' first | with_reducible assumption | (with_reducible refine State.runSlot_kept ?_ _ _ (fun _ t _ => ?_)) | with_reducible apply qctrlCmd_kept | with_reducible apply Kept.ite | split

theorem execWaitdoneMet_kept {qt : Bool} {k : Fin 32} {s s₁ : State} (h : execWaitdoneMet k s = .next s₁) : Kept qt s s₁ := by
  unfold execWaitdoneMet at h
  refine live_kept h (fun u _ => ?_)
  repeat' first | with_reducible assumption | with_reducible apply waitdoneMet_kept | with_reducible apply Kept.ite | split

theorem execAnchor_kept {qt : Bool} {k : Fin 32} {s s₁ : State} (h : execAnchor k s = .next s₁) : Kept qt s s₁ := by
  unfold execAnchor at h
  refine live_kept h (fun u _ => ?_)
  repeat' first | with_reducible assumption | with_reducible apply anchorCmd_kept | with_reducible apply Kept.ite | split

theorem execReleaseAnchors_kept {qt : Bool} {k : Fin 32} {s s₁ : State} (h : execReleaseAnchors k s = .next s₁) : Kept qt s s₁ := by
  unfold execReleaseAnchors at h
  refine live_kept h (fun u _ => ?_)
  repeat' first | with_reducible assumption | with_reducible apply releaseCmd_kept | with_reducible apply Kept.ite | split

theorem execFence_kept {qt : Bool} {k : Fin 32} {s s₁ : State} (h : execFence k s = .next s₁) : Kept qt s s₁ := by
  unfold execFence at h
  refine live_kept h (fun u _ => ?_)
  repeat' first | with_reducible assumption | with_reducible apply fenceCmd_kept | with_reducible apply Kept.ite | split

theorem execFenceComplete_kept {qt : Bool} {k : Fin 32} {s s₁ : State} (h : execFenceComplete k s = .next s₁) : Kept qt s s₁ := by
  unfold execFenceComplete at h
  refine live_kept h (fun u _ => ?_)
  repeat' first | with_reducible assumption | with_reducible apply fenceComplete_kept | with_reducible apply Kept.ite | split

theorem execSwap_kept {qt : Bool} {k : Fin 32} {s s₁ : State} (h : execSwap k s = .next s₁) : Kept qt s s₁ := by
  unfold execSwap at h
  refine live_kept h (fun u _ => ?_)
  repeat' first | with_reducible assumption | with_reducible apply swapCmd_kept | with_reducible apply Kept.ite | split

theorem execResponseSend_kept {k : Fin 32} {s s₁ : State} (h : execResponseSend k s = .next s₁) : Kept false s s₁ := by
  unfold execResponseSend at h
  refine live_kept h (fun u _ => ?_)
  repeat' first | with_reducible assumption | with_reducible apply responseSend_kept | with_reducible apply Kept.ite | split

theorem execNotify_kept {qt : Bool} {h : Fin 8} {s s₁ : State} (h : execNotify h s = .next s₁) : Kept qt s s₁ := by
  unfold execNotify at h
  refine live_kept h (fun u _ => ?_)
  repeat' first | with_reducible assumption | with_reducible apply notifySend_kept | with_reducible apply Kept.ite | split

theorem execBegin_kept {k : Fin 32} {s s₁ : State} (h : execBegin k s = .next s₁) : Kept false s s₁ := by
  unfold execBegin at h
  refine live_kept h (fun u _ => ?_)
  repeat' first | with_reducible assumption | with_reducible apply imageBegin_kept | with_reducible apply Kept.ite | split

theorem execData_kept {k : Fin 32} {s s₁ : State} (h : execData k s = .next s₁) : Kept false s s₁ := by
  unfold execData at h
  refine live_kept h (fun u _ => ?_)
  repeat' first | with_reducible assumption | with_reducible apply imageData_kept | with_reducible apply Kept.ite | split

theorem execCommit_kept {k : Fin 32} {s s₁ : State} (h : execCommit k s = .next s₁) : Kept false s s₁ := by
  unfold execCommit at h
  refine live_kept h (fun u _ => ?_)
  repeat' first | with_reducible assumption | with_reducible apply imageCommit_kept | with_reducible apply Kept.ite | split

theorem execAbort_kept {k : Fin 32} {s s₁ : State} (h : execAbort k s = .next s₁) : Kept false s s₁ := by
  unfold execAbort at h
  refine live_kept h (fun u _ => ?_)
  repeat' first | with_reducible assumption | with_reducible apply imageAbort_kept | with_reducible apply Kept.ite | split

theorem execErase_kept {k : Fin 32} {s s₁ : State} (h : execErase k s = .next s₁) : Kept false s s₁ := by
  unfold execErase at h
  refine live_kept h (fun u _ => ?_)
  repeat' first | with_reducible assumption | with_reducible apply imageErase_kept | with_reducible apply Kept.ite | split

theorem execSetflag_kept {qt : Bool} {k : Fin 32} {s s₁ : State} (h : execSetflag k s = .next s₁) : Kept qt s s₁ := by
  unfold execSetflag at h
  refine live_kept h (fun u _ => ?_)
  repeat' first | with_reducible assumption | with_reducible apply imageSetflag_kept | with_reducible apply Kept.ite | split

theorem execImageApply_kept {k : Fin 32} {s s₁ : State} (h : execImageApply k s = .next s₁) : Kept false s s₁ := by
  unfold execImageApply at h
  refine live_kept h (fun u _ => ?_)
  repeat' first | with_reducible assumption | with_reducible apply imageApply_kept | with_reducible apply Kept.ite | split

theorem execKeyprog_kept {k : Fin 32} {s s₁ : State} (h : execKeyprog k s = .next s₁) : Kept false s s₁ := by
  unfold execKeyprog at h
  refine live_kept h (fun u _ => ?_)
  repeat' first | with_reducible assumption | with_reducible apply imageKeyprog_kept | with_reducible apply Kept.ite | split

theorem execRevoke_kept {k : Fin 32} {s s₁ : State} (h : execRevoke k s = .next s₁) : Kept false s s₁ := by
  unfold execRevoke at h
  refine live_kept h (fun u _ => ?_)
  repeat' first | with_reducible assumption | with_reducible apply imageRevoke_kept | with_reducible apply Kept.ite | split

theorem execSecprog_kept {k : Fin 32} {s s₁ : State} (h : execSecprog k s = .next s₁) : Kept false s s₁ := by
  unfold execSecprog at h
  refine live_kept h (fun u _ => ?_)
  repeat' first | with_reducible assumption | with_reducible apply imageSecprog_kept | with_reducible apply Kept.ite | split

theorem execAcceptUntested_kept {k : Fin 32} {s s₁ : State} (h : execAcceptUntested k s = .next s₁) : Kept false s s₁ := by
  unfold execAcceptUntested at h
  refine live_kept h (fun u _ => ?_)
  repeat' first | with_reducible assumption | with_reducible apply acceptUntested_kept | with_reducible apply Kept.ite | split

theorem execHandover_kept {qt : Bool} {k : Fin 32} {s s₁ : State} (h : execHandover k s = .next s₁) : Kept qt s s₁ := by
  unfold execHandover at h
  refine live_kept h (fun u _ => ?_)
  repeat' first | with_reducible assumption | with_reducible apply imageHandover_kept | with_reducible apply Kept.ite | split

theorem execHandoverReady_kept {qt : Bool}  {s s₁ : State} (h : execHandoverReady s = .next s₁) : Kept qt s s₁ := by
  unfold execHandoverReady at h
  refine live_kept h (fun u _ => ?_)
  repeat' first | with_reducible assumption | with_reducible apply handoverReady_kept | with_reducible apply Kept.ite | split

theorem execHandoverSwitch_kept {qt : Bool}  {s s₁ : State} (h : execHandoverSwitch s = .next s₁) : Kept qt s s₁ := by
  unfold execHandoverSwitch at h
  refine live_kept h (fun u _ => ?_)
  repeat' first | with_reducible assumption | with_reducible apply handoverSwitch_kept | with_reducible apply Kept.ite | split

theorem execHandoverTimeout_kept {qt : Bool}  {s s₁ : State} (h : execHandoverTimeout s = .next s₁) : Kept qt s s₁ := by
  unfold execHandoverTimeout at h
  refine live_kept h (fun u _ => ?_)
  repeat' first | with_reducible assumption | with_reducible apply handoverTimeout_kept | with_reducible apply Kept.ite | split

theorem execResetRelease_kept {p : StrapPins} {s s₁ : State} (h : execResetRelease p s = .next s₁) : Kept false s s₁ := by
  unfold execResetRelease at h
  refine always_kept h (fun u _ => ?_)
  repeat' first | with_reducible assumption | with_reducible apply resetRelease_kept | with_reducible apply Kept.ite | split

end Sys2Proof.Machine
end

