-- ==== Sys2Proof/Laws/PerInstr.lean ====
section
/-! SUPPORT. What well-formedness asks of each command, one lemma per constructor: the nine commands that carry a list, an
address or an unbounded number are well formed under the condition written out here, and every other always. -/
namespace Sys2Proof

/-- The condition on a command's operands, written out (R4, R218, R265, R326, R444). -/
def Instr.operandsOk : Instr → Prop
  | .svcIn _ _ phys => phys.length ≤ 7 ∧ ∀ x ∈ phys, x < 2 ^ 14
  | .calibrationDone _ r _ => r.length ≤ 7
  | .cspEntryDone _ got => got.length ≤ 64
  | .strobeTimeout _ got => got.length ≤ 64
  | .touchScan cs => cs.length = 8
  | .readClear _ a => a.toNat % 4 = 0
  | .registerWrite _ a _ => a.toNat % 4 = 0
  | .ethFrameReceive _ b _ => b.length ≤ 2048
  | .ssiFrameDone _ raw => raw < 2 ^ 48
  | _ => True

namespace Laws.WellFormed

/-- A command is well formed exactly when its operands meet their condition. -/
def Statement (i : Instr) : Prop := i.wf = true ↔ i.operandsOk

theorem cellTick : Statement (.cellTick) := ⟨fun _ => trivial, fun _ => rfl⟩
theorem tickPeriodChange : Statement (.tickPeriodChange) := ⟨fun _ => trivial, fun _ => rfl⟩
theorem tickusWrite (v : Word) : Statement (.tickusWrite v) := ⟨fun _ => trivial, fun _ => rfl⟩
theorem carrierValley (g : Fin 4) (dev : Int) : Statement (.carrierValley g dev) := ⟨fun _ => trivial, fun _ => rfl⟩
theorem carrierPeak (g : Fin 4) : Statement (.carrierPeak g) := ⟨fun _ => trivial, fun _ => rfl⟩
theorem counterStart (g : Fin 4) : Statement (.counterStart g) := ⟨fun _ => trivial, fun _ => rfl⟩
theorem refreshInsert (c : Fin 32) : Statement (.refreshInsert c) := ⟨fun _ => trivial, fun _ => rfl⟩
theorem enginePassStart (e : Fin 20) : Statement (.enginePassStart e) := ⟨fun _ => trivial, fun _ => rfl⟩
theorem bindWrite (w : Writer) (n : Fin 16) (v : Word) : Statement (.bindWrite w n v) := ⟨fun _ => trivial, fun _ => rfl⟩
theorem engselWrite (w : Writer) (n : Fin 16) (v : Word) : Statement (.engselWrite w n v) := ⟨fun _ => trivial, fun _ => rfl⟩
theorem energise (w : Writer) (n : Fin 16) : Statement (.energise w n) := ⟨fun _ => trivial, fun _ => rfl⟩
theorem deenergise (w : Writer) (n : Fin 16) : Statement (.deenergise w n) := ⟨fun _ => trivial, fun _ => rfl⟩
theorem clear (w : Writer) (n : Fin 16) : Statement (.clear w n) := ⟨fun _ => trivial, fun _ => rfl⟩
theorem svcOut (w : Writer) (n : Fin 16) : Statement (.svcOut w n) := ⟨fun _ => trivial, fun _ => rfl⟩
theorem svcIn (w : Writer) (n : Fin 16) (phys : List Nat) : Statement (.svcIn w n phys) := by simp [Statement, Instr.wf, Instr.operandsOk, checksOk]
theorem shutdownComplete (n : Fin 16) : Statement (.shutdownComplete n) := ⟨fun _ => trivial, fun _ => rfl⟩
theorem mcfgWrite (w : Writer) (n : Fin 16) (v : Word) : Statement (.mcfgWrite w n v) := ⟨fun _ => trivial, fun _ => rfl⟩
theorem pitchOffer (w : Writer) (n : Fin 16) (v : Word) : Statement (.pitchOffer w n v) := ⟨fun _ => trivial, fun _ => rfl⟩
theorem pitchStart (n : Fin 16) : Statement (.pitchStart n) := ⟨fun _ => trivial, fun _ => rfl⟩
theorem flush (w : Writer) (n : Fin 16) : Statement (.flush w n) := ⟨fun _ => trivial, fun _ => rfl⟩
theorem go (w : Writer) (n : Fin 16) : Statement (.go w n) := ⟨fun _ => trivial, fun _ => rfl⟩
theorem setpointOffer (w : Writer) (n : Fin 16) (v : Word) : Statement (.setpointOffer w n v) := ⟨fun _ => trivial, fun _ => rfl⟩
theorem setpointHoldoverExpiry (n : Fin 16) : Statement (.setpointHoldoverExpiry n) := ⟨fun _ => trivial, fun _ => rfl⟩
theorem load (w : Writer) (n : Fin 16) : Statement (.load w n) := ⟨fun _ => trivial, fun _ => rfl⟩
theorem gearLoadApply (n : Fin 16) : Statement (.gearLoadApply n) := ⟨fun _ => trivial, fun _ => rfl⟩
theorem stepPulse (n : Fin 16) : Statement (.stepPulse n) := ⟨fun _ => trivial, fun _ => rfl⟩
theorem ccCfgWrite (w : Writer) (n : Fin 16) (v : Word) : Statement (.ccCfgWrite w n v) := ⟨fun _ => trivial, fun _ => rfl⟩
theorem ofscal (w : Writer) (n : Fin 16) : Statement (.ofscal w n) := ⟨fun _ => trivial, fun _ => rfl⟩
theorem kcal (w : Writer) (n : Fin 16) : Statement (.kcal w n) := ⟨fun _ => trivial, fun _ => rfl⟩
theorem align (w : Writer) (n : Fin 16) : Statement (.align w n) := ⟨fun _ => trivial, fun _ => rfl⟩
theorem calibrationDone (n : Fin 16) (r : List (Int × Int)) (notReached : Bool) : Statement (.calibrationDone n r notReached) := by simp [Statement, Instr.wf, Instr.operandsOk]
theorem apply (w : Writer) (n : Fin 16) (hold : Bool) : Statement (.apply w n hold) := ⟨fun _ => trivial, fun _ => rfl⟩
theorem stagedApplyTake (n : Fin 16) : Statement (.stagedApplyTake n) := ⟨fun _ => trivial, fun _ => rfl⟩
theorem holdDlyExpiry (n : Fin 16) : Statement (.holdDlyExpiry n) := ⟨fun _ => trivial, fun _ => rfl⟩
theorem holding (n : Fin 16) : Statement (.holding n) := ⟨fun _ => trivial, fun _ => rfl⟩
theorem brakeReleaseStart (n : Fin 16) : Statement (.brakeReleaseStart n) := ⟨fun _ => trivial, fun _ => rfl⟩
theorem brakePullEnd (n : Fin 16) : Statement (.brakePullEnd n) := ⟨fun _ => trivial, fun _ => rfl⟩
theorem brakeEngageEnd (n : Fin 16) : Statement (.brakeEngageEnd n) := ⟨fun _ => trivial, fun _ => rfl⟩
theorem searchLock (n : Fin 16) : Statement (.searchLock n) := ⟨fun _ => trivial, fun _ => rfl⟩
theorem polarityDone (n : Fin 16) (tp : Nat) (tn : Nat) : Statement (.polarityDone n tp tn) := ⟨fun _ => trivial, fun _ => rfl⟩
theorem searchTimeout (n : Fin 16) : Statement (.searchTimeout n) := ⟨fun _ => trivial, fun _ => rfl⟩
theorem forcedAlignEnd (n : Fin 16) : Statement (.forcedAlignEnd n) := ⟨fun _ => trivial, fun _ => rfl⟩
theorem injectionOff (n : Fin 16) : Statement (.injectionOff n) := ⟨fun _ => trivial, fun _ => rfl⟩
theorem stallRearm (n : Fin 16) : Statement (.stallRearm n) := ⟨fun _ => trivial, fun _ => rfl⟩
theorem model (n : Fin 16) : Statement (.model n) := ⟨fun _ => trivial, fun _ => rfl⟩
theorem autoclReturn (n : Fin 16) : Statement (.autoclReturn n) := ⟨fun _ => trivial, fun _ => rfl⟩
theorem prCfgWrite (w : Writer) (n : Fin 16) (v : Word) : Statement (.prCfgWrite w n v) := ⟨fun _ => trivial, fun _ => rfl⟩
theorem prParamWrite (w : Writer) (n : Fin 16) (i : Fin 8) (v : Word) : Statement (.prParamWrite w n i v) := ⟨fun _ => trivial, fun _ => rfl⟩
theorem research (w : Writer) (n : Fin 16) : Statement (.research w n) := ⟨fun _ => trivial, fun _ => rfl⟩
theorem resumecl (w : Writer) (n : Fin 16) : Statement (.resumecl w n) := ⟨fun _ => trivial, fun _ => rfl⟩
theorem ident (w : Writer) (n : Fin 16) : Statement (.ident w n) := ⟨fun _ => trivial, fun _ => rfl⟩
theorem identDone (n : Fin 16) (rw : Int) (ld : Int) (lq : Int) (notReached : Bool) : Statement (.identDone n rw ld lq notReached) := ⟨fun _ => trivial, fun _ => rfl⟩
theorem eccUncorrectable (site : EccSite) : Statement (.eccUncorrectable site) := ⟨fun _ => trivial, fun _ => rfl⟩
theorem emergencyGap (n : Fin 16) : Statement (.emergencyGap n) := ⟨fun _ => trivial, fun _ => rfl⟩
theorem emergencyTakeover (n : Fin 16) : Statement (.emergencyTakeover n) := ⟨fun _ => trivial, fun _ => rfl⟩
theorem programMemoryWrite (e : Fin 20) (i : Fin 16384) (v : Word) : Statement (.programMemoryWrite e i v) := ⟨fun _ => trivial, fun _ => rfl⟩
theorem dataMemoryWrite (e : Fin 20) (i : Fin 8192) (v : Word) : Statement (.dataMemoryWrite e i v) := ⟨fun _ => trivial, fun _ => rfl⟩
theorem engineLoad (w : Writer) (e : Fin 20) (route : Fin 256) : Statement (.engineLoad w e route) := ⟨fun _ => trivial, fun _ => rfl⟩
theorem loadDone (e : Fin 20) : Statement (.loadDone e) := ⟨fun _ => trivial, fun _ => rfl⟩
theorem start (w : Writer) (e : Fin 20) : Statement (.start w e) := ⟨fun _ => trivial, fun _ => rfl⟩
theorem haltAction (w : Writer) (e : Fin 20) : Statement (.haltAction w e) := ⟨fun _ => trivial, fun _ => rfl⟩
theorem traceArm (e : Fin 20) : Statement (.traceArm e) := ⟨fun _ => trivial, fun _ => rfl⟩
theorem traceStop (e : Fin 20) : Statement (.traceStop e) := ⟨fun _ => trivial, fun _ => rfl⟩
theorem traceForce (e : Fin 20) : Statement (.traceForce e) := ⟨fun _ => trivial, fun _ => rfl⟩
theorem traceDone (e : Fin 20) : Statement (.traceDone e) := ⟨fun _ => trivial, fun _ => rfl⟩
theorem swapGo (w : Writer) (n : Fin 16) (v : Word) : Statement (.swapGo w n v) := ⟨fun _ => trivial, fun _ => rfl⟩
theorem swapCancel (w : Writer) (n : Fin 16) (v : Word) : Statement (.swapCancel w n v) := ⟨fun _ => trivial, fun _ => rfl⟩
theorem swapLoadDone (n : Fin 16) : Statement (.swapLoadDone n) := ⟨fun _ => trivial, fun _ => rfl⟩
theorem waitckpTimeout (n : Fin 16) : Statement (.waitckpTimeout n) := ⟨fun _ => trivial, fun _ => rfl⟩
theorem shadowMismatchEnd (n : Fin 16) : Statement (.shadowMismatchEnd n) := ⟨fun _ => trivial, fun _ => rfl⟩
theorem switch (n : Fin 16) : Statement (.switch n) := ⟨fun _ => trivial, fun _ => rfl⟩
theorem swapRelease (n : Fin 16) : Statement (.swapRelease n) := ⟨fun _ => trivial, fun _ => rfl⟩
theorem unretire (e : Fin 32) : Statement (.unretire e) := ⟨fun _ => trivial, fun _ => rfl⟩
theorem unretireDone (e : Fin 20) : Statement (.unretireDone e) := ⟨fun _ => trivial, fun _ => rfl⟩
theorem retire (e : Fin 32) : Statement (.retire e) := ⟨fun _ => trivial, fun _ => rfl⟩
theorem add (e : Fin 20) : Statement (.add e) := ⟨fun _ => trivial, fun _ => rfl⟩
theorem sub (e : Fin 20) : Statement (.sub e) := ⟨fun _ => trivial, fun _ => rfl⟩
theorem and (e : Fin 20) : Statement (.and e) := ⟨fun _ => trivial, fun _ => rfl⟩
theorem or (e : Fin 20) : Statement (.or e) := ⟨fun _ => trivial, fun _ => rfl⟩
theorem xor (e : Fin 20) : Statement (.xor e) := ⟨fun _ => trivial, fun _ => rfl⟩
theorem shl (e : Fin 20) : Statement (.shl e) := ⟨fun _ => trivial, fun _ => rfl⟩
theorem shr (e : Fin 20) : Statement (.shr e) := ⟨fun _ => trivial, fun _ => rfl⟩
theorem sar (e : Fin 20) : Statement (.sar e) := ⟨fun _ => trivial, fun _ => rfl⟩
theorem mul (e : Fin 20) : Statement (.mul e) := ⟨fun _ => trivial, fun _ => rfl⟩
theorem mulh (e : Fin 20) : Statement (.mulh e) := ⟨fun _ => trivial, fun _ => rfl⟩
theorem min (e : Fin 20) : Statement (.min e) := ⟨fun _ => trivial, fun _ => rfl⟩
theorem max (e : Fin 20) : Statement (.max e) := ⟨fun _ => trivial, fun _ => rfl⟩
theorem cmp (e : Fin 20) : Statement (.cmp e) := ⟨fun _ => trivial, fun _ => rfl⟩
theorem ld (e : Fin 20) : Statement (.ld e) := ⟨fun _ => trivial, fun _ => rfl⟩
theorem st (e : Fin 20) : Statement (.st e) := ⟨fun _ => trivial, fun _ => rfl⟩
theorem ldi (e : Fin 20) : Statement (.ldi e) := ⟨fun _ => trivial, fun _ => rfl⟩
theorem ldiH (e : Fin 20) : Statement (.ldiH e) := ⟨fun _ => trivial, fun _ => rfl⟩
theorem bld (e : Fin 20) : Statement (.bld e) := ⟨fun _ => trivial, fun _ => rfl⟩
theorem bst (e : Fin 20) : Statement (.bst e) := ⟨fun _ => trivial, fun _ => rfl⟩
theorem bmac (e : Fin 20) : Statement (.bmac e) := ⟨fun _ => trivial, fun _ => rfl⟩
theorem bmsu (e : Fin 20) : Statement (.bmsu e) := ⟨fun _ => trivial, fun _ => rfl⟩
theorem bacc (e : Fin 20) : Statement (.bacc e) := ⟨fun _ => trivial, fun _ => rfl⟩
theorem bnorm (e : Fin 20) : Statement (.bnorm e) := ⟨fun _ => trivial, fun _ => rfl⟩
theorem bscale (e : Fin 20) : Statement (.bscale e) := ⟨fun _ => trivial, fun _ => rfl⟩
theorem bsat (e : Fin 20) : Statement (.bsat e) := ⟨fun _ => trivial, fun _ => rfl⟩
theorem bsatV (e : Fin 20) : Statement (.bsatV e) := ⟨fun _ => trivial, fun _ => rfl⟩
theorem bint (e : Fin 20) : Statement (.bint e) := ⟨fun _ => trivial, fun _ => rfl⟩
theorem bcvt (e : Fin 20) : Statement (.bcvt e) := ⟨fun _ => trivial, fun _ => rfl⟩
theorem sincos (e : Fin 20) : Statement (.sincos e) := ⟨fun _ => trivial, fun _ => rfl⟩
theorem atan2 (e : Fin 20) : Statement (.atan2 e) := ⟨fun _ => trivial, fun _ => rfl⟩
theorem sqrt (e : Fin 20) : Statement (.sqrt e) := ⟨fun _ => trivial, fun _ => rfl⟩
theorem rcp (e : Fin 20) : Statement (.rcp e) := ⟨fun _ => trivial, fun _ => rfl⟩
theorem br (e : Fin 20) : Statement (.br e) := ⟨fun _ => trivial, fun _ => rfl⟩
theorem call (e : Fin 20) : Statement (.call e) := ⟨fun _ => trivial, fun _ => rfl⟩
theorem ret (e : Fin 20) : Statement (.ret e) := ⟨fun _ => trivial, fun _ => rfl⟩
theorem loop (e : Fin 20) : Statement (.loop e) := ⟨fun _ => trivial, fun _ => rfl⟩
theorem wait (e : Fin 20) : Statement (.wait e) := ⟨fun _ => trivial, fun _ => rfl⟩
theorem halt (e : Fin 20) : Statement (.halt e) := ⟨fun _ => trivial, fun _ => rfl⟩
theorem trap (e : Fin 20) : Statement (.trap e) := ⟨fun _ => trivial, fun _ => rfl⟩
theorem rdi (e : Fin 20) : Statement (.rdi e) := ⟨fun _ => trivial, fun _ => rfl⟩
theorem rdiW (e : Fin 20) : Statement (.rdiW e) := ⟨fun _ => trivial, fun _ => rfl⟩
theorem rdv (e : Fin 20) : Statement (.rdv e) := ⟨fun _ => trivial, fun _ => rfl⟩
theorem rdf (e : Fin 20) : Statement (.rdf e) := ⟨fun _ => trivial, fun _ => rfl⟩
theorem pos (e : Fin 20) : Statement (.pos e) := ⟨fun _ => trivial, fun _ => rfl⟩
theorem pit (e : Fin 20) : Statement (.pit e) := ⟨fun _ => trivial, fun _ => rfl⟩
theorem pitLvl (e : Fin 20) : Statement (.pitLvl e) := ⟨fun _ => trivial, fun _ => rfl⟩
theorem wrv (e : Fin 20) : Statement (.wrv e) := ⟨fun _ => trivial, fun _ => rfl⟩
theorem wra (e : Fin 20) : Statement (.wra e) := ⟨fun _ => trivial, fun _ => rfl⟩
theorem cap (e : Fin 20) : Statement (.cap e) := ⟨fun _ => trivial, fun _ => rfl⟩
theorem trc (e : Fin 20) : Statement (.trc e) := ⟨fun _ => trivial, fun _ => rfl⟩
theorem flt (e : Fin 20) : Statement (.flt e) := ⟨fun _ => trivial, fun _ => rfl⟩
theorem evt (e : Fin 20) : Statement (.evt e) := ⟨fun _ => trivial, fun _ => rfl⟩
theorem sgn (e : Fin 20) : Statement (.sgn e) := ⟨fun _ => trivial, fun _ => rfl⟩
theorem sgnR (e : Fin 20) : Statement (.sgnR e) := ⟨fun _ => trivial, fun _ => rfl⟩
theorem mailboxDelivery (e : Fin 20) : Statement (.mailboxDelivery e) := ⟨fun _ => trivial, fun _ => rfl⟩
theorem ckp (e : Fin 20) : Statement (.ckp e) := ⟨fun _ => trivial, fun _ => rfl⟩
theorem mfs (e : Fin 20) : Statement (.mfs e) := ⟨fun _ => trivial, fun _ => rfl⟩
theorem mts (e : Fin 20) : Statement (.mts e) := ⟨fun _ => trivial, fun _ => rfl⟩
theorem pwmgConfigWrite (g : Fin 4) (r : PwmgReg) (v : Word) : Statement (.pwmgConfigWrite g r v) := ⟨fun _ => trivial, fun _ => rfl⟩
theorem shortCircuitTrip (c : Fin 32) (iH : Int) (iL : Int) : Statement (.shortCircuitTrip c iH iL) := ⟨fun _ => trivial, fun _ => rfl⟩
theorem vhUndervoltageTrip (c : Fin 32) (v : Int) (blocked : Bool) : Statement (.vhUndervoltageTrip c v blocked) := ⟨fun _ => trivial, fun _ => rfl⟩
theorem vgdUndervoltageTrip (g : Fin 4) (v : Int) : Statement (.vgdUndervoltageTrip g v) := ⟨fun _ => trivial, fun _ => rfl⟩
theorem overTemperatureTrip (g : Fin 4) (v : Int) : Statement (.overTemperatureTrip g v) := ⟨fun _ => trivial, fun _ => rfl⟩
theorem monitoredDecision (c : Fin 32) (iH : Int) (iL : Int) : Statement (.monitoredDecision c iH iL) := ⟨fun _ => trivial, fun _ => rfl⟩
theorem safeoffNLow : Statement (.safeoffNLow) := ⟨fun _ => trivial, fun _ => rfl⟩
theorem safeoffNHigh : Statement (.safeoffNHigh) := ⟨fun _ => trivial, fun _ => rfl⟩
theorem gdCfgWrite (g : Fin 4) (v : Word) : Statement (.gdCfgWrite g v) := ⟨fun _ => trivial, fun _ => rfl⟩
theorem scthrWrite (g : Fin 4) (k : Fin 8) (v : Word) : Statement (.scthrWrite g k v) := ⟨fun _ => trivial, fun _ => rfl⟩
theorem cmpScfWrite (c : Fin 32) (v : Word) : Statement (.cmpScfWrite c v) := ⟨fun _ => trivial, fun _ => rfl⟩
theorem windowExcursion (x : Fin 6) (v : Int) : Statement (.windowExcursion x v) := ⟨fun _ => trivial, fun _ => rfl⟩
theorem windowReturn (m : Monitor) (v : Int) : Statement (.windowReturn m v) := ⟨fun _ => trivial, fun _ => rfl⟩
theorem monFiltWrite (v : Word) : Statement (.monFiltWrite v) := ⟨fun _ => trivial, fun _ => rfl⟩
theorem monThrWrite (x : Fin 6) (v : Word) : Statement (.monThrWrite x v) := ⟨fun _ => trivial, fun _ => rfl⟩
theorem decimatedOutput (c : Fin 36) (iH : List Int) (iL : List Int) (each : Nat) (rH : Int) (rL : Int) : Statement (.decimatedOutput c iH iL each rH rL) := ⟨fun _ => trivial, fun _ => rfl⟩
theorem decCfgWrite (c : Fin 36) (v : Word) : Statement (.decCfgWrite c v) := ⟨fun _ => trivial, fun _ => rfl⟩
theorem decSettled (c : Fin 36) : Statement (.decSettled c) := ⟨fun _ => trivial, fun _ => rfl⟩
theorem busWinWrite (g : Fin 4) (v : Word) : Statement (.busWinWrite g v) := ⟨fun _ => trivial, fun _ => rfl⟩
theorem hkcRun (run : Bool) : Statement (.hkcRun run) := ⟨fun _ => trivial, fun _ => rfl⟩
theorem isw : Statement (.isw) := ⟨fun _ => trivial, fun _ => rfl⟩
theorem hkcInjectedTrigger : Statement (.hkcInjectedTrigger) := ⟨fun _ => trivial, fun _ => rfl⟩
theorem hkcConversionDone (k : Int) : Statement (.hkcConversionDone k) := ⟨fun _ => trivial, fun _ => rfl⟩
theorem ridxWrite (v : Word) : Statement (.ridxWrite v) := ⟨fun _ => trivial, fun _ => rfl⟩
theorem hkcRefWrite (v : Word) : Statement (.hkcRefWrite v) := ⟨fun _ => trivial, fun _ => rfl⟩
theorem refSettled : Statement (.refSettled) := ⟨fun _ => trivial, fun _ => rfl⟩
theorem hkcCalGo : Statement (.hkcCalGo) := ⟨fun _ => trivial, fun _ => rfl⟩
theorem hkcCalibrationDone (o0 : Int) (g0 : Int) (o1 : Int) (g1 : Int) (o2 : Int) (g2 : Int) (o3 : Int) (g3 : Int) : Statement (.hkcCalibrationDone o0 g0 o1 g1 o2 g2 o3 g3) := ⟨fun _ => trivial, fun _ => rfl⟩
theorem hkcConfigWrite (off : Fin 1024) (v : Word) : Statement (.hkcConfigWrite off v) := ⟨fun _ => trivial, fun _ => rfl⟩
theorem quadratureCount (p : Fin 8) (a : Bool) (b : Bool) : Statement (.quadratureCount p a b) := ⟨fun _ => trivial, fun _ => rfl⟩
theorem zLatch (p : Fin 8) (z : Bool) : Statement (.zLatch p z) := ⟨fun _ => trivial, fun _ => rfl⟩
theorem magneticSwitchCount (p : Fin 8) (u : Bool) (v : Bool) (w : Bool) : Statement (.magneticSwitchCount p u v w) := ⟨fun _ => trivial, fun _ => rfl⟩
theorem ssiFrameDone (p : Fin 8) (raw : Nat) : Statement (.ssiFrameDone p raw) := by simp [Statement, Instr.wf, Instr.operandsOk]
theorem fbConfigWrite (p : Fin 8) (r : FbReg) (v : Word) : Statement (.fbConfigWrite p r v) := ⟨fun _ => trivial, fun _ => rfl⟩
theorem stepInputPulse (i : Fin 8) (onDir : Bool) (rising : Bool) (dir : Bool) : Statement (.stepInputPulse i onDir rising dir) := ⟨fun _ => trivial, fun _ => rfl⟩
theorem siCfgWrite (i : Fin 8) (v : Word) : Statement (.siCfgWrite i v) := ⟨fun _ => trivial, fun _ => rfl⟩
theorem soCfgWrite (o : Fin 8) (v : Word) : Statement (.soCfgWrite o v) := ⟨fun _ => trivial, fun _ => rfl⟩
theorem captureEdge (k : Fin 8) (rising : Bool) : Statement (.captureEdge k rising) := ⟨fun _ => trivial, fun _ => rfl⟩
theorem release (k : Fin 8) : Statement (.release k) := ⟨fun _ => trivial, fun _ => rfl⟩
theorem arm (q : Fin 4) : Statement (.arm q) := ⟨fun _ => trivial, fun _ => rfl⟩
theorem disarm (q : Fin 4) : Statement (.disarm q) := ⟨fun _ => trivial, fun _ => rfl⟩
theorem force (q : Fin 4) : Statement (.force q) := ⟨fun _ => trivial, fun _ => rfl⟩
theorem compareFire (q : Fin 4) (t : Nat) : Statement (.compareFire q t) := ⟨fun _ => trivial, fun _ => rfl⟩
theorem comparePulseEnd (q : Fin 4) : Statement (.comparePulseEnd q) := ⟨fun _ => trivial, fun _ => rfl⟩
theorem pcoConfigWrite (q : Fin 4) (r : PcoReg) (v : Word) : Statement (.pcoConfigWrite q r v) := ⟨fun _ => trivial, fun _ => rfl⟩
theorem frameReceive (port : Fin 4) : Statement (.frameReceive port) := ⟨fun _ => trivial, fun _ => rfl⟩
theorem read (k : Fin 32) : Statement (.read k) := ⟨fun _ => trivial, fun _ => rfl⟩
theorem write (k : Fin 32) : Statement (.write k) := ⟨fun _ => trivial, fun _ => rfl⟩
theorem rmw (k : Fin 32) : Statement (.rmw k) := ⟨fun _ => trivial, fun _ => rfl⟩
theorem pitch (k : Fin 32) : Statement (.pitch k) := ⟨fun _ => trivial, fun _ => rfl⟩
theorem setpoint (k : Fin 32) : Statement (.setpoint k) := ⟨fun _ => trivial, fun _ => rfl⟩
theorem ctrl (k : Fin 32) : Statement (.ctrl k) := ⟨fun _ => trivial, fun _ => rfl⟩
theorem qctrl (k : Fin 32) : Statement (.qctrl k) := ⟨fun _ => trivial, fun _ => rfl⟩
theorem commandRoomFreed (k : Fin 32) : Statement (.commandRoomFreed k) := ⟨fun _ => trivial, fun _ => rfl⟩
theorem waitdoneMet (k : Fin 32) : Statement (.waitdoneMet k) := ⟨fun _ => trivial, fun _ => rfl⟩
theorem anchor (k : Fin 32) : Statement (.anchor k) := ⟨fun _ => trivial, fun _ => rfl⟩
theorem releaseAnchors (k : Fin 32) : Statement (.releaseAnchors k) := ⟨fun _ => trivial, fun _ => rfl⟩
theorem fence (k : Fin 32) : Statement (.fence k) := ⟨fun _ => trivial, fun _ => rfl⟩
theorem fenceComplete (k : Fin 32) : Statement (.fenceComplete k) := ⟨fun _ => trivial, fun _ => rfl⟩
theorem resume (k : Fin 32) (seq : BitVec 16) (stray : Bool) : Statement (.resume k seq stray) := ⟨fun _ => trivial, fun _ => rfl⟩
theorem streamFlush (k : Fin 32) (seq : BitVec 16) (stray : Bool) : Statement (.streamFlush k seq stray) := ⟨fun _ => trivial, fun _ => rfl⟩
theorem streamResync (k : Fin 32) (seq : BitVec 16) (stray : Bool) : Statement (.streamResync k seq stray) := ⟨fun _ => trivial, fun _ => rfl⟩
theorem swap (k : Fin 32) : Statement (.swap k) := ⟨fun _ => trivial, fun _ => rfl⟩
theorem responseSend (k : Fin 32) : Statement (.responseSend k) := ⟨fun _ => trivial, fun _ => rfl⟩
theorem writeStageExpiry (h : Fin 8) : Statement (.writeStageExpiry h) := ⟨fun _ => trivial, fun _ => rfl⟩
theorem hostCfgWrite (w : Writer) (n : Fin 8) (r : HostReg) : Statement (.hostCfgWrite w n r) := ⟨fun _ => trivial, fun _ => rfl⟩
theorem hostLossTimeout (h : Fin 8) : Statement (.hostLossTimeout h) := ⟨fun _ => trivial, fun _ => rfl⟩
theorem lose (w : Writer) (h : Fin 8) : Statement (.lose w h) := ⟨fun _ => trivial, fun _ => rfl⟩
theorem cspCfgWrite (n : Fin 4) (v : Word) : Statement (.cspCfgWrite n v) := ⟨fun _ => trivial, fun _ => rfl⟩
theorem cspCfgApply (n : Fin 4) : Statement (.cspCfgApply n) := ⟨fun _ => trivial, fun _ => rfl⟩
theorem qinWrite (n : Fin 4) (v : Word) : Statement (.qinWrite n v) := ⟨fun _ => trivial, fun _ => rfl⟩
theorem cspEntryStart (n : Fin 4) : Statement (.cspEntryStart n) := ⟨fun _ => trivial, fun _ => rfl⟩
theorem cspEntryDone (n : Fin 4) (got : List Word) : Statement (.cspEntryDone n got) := by simp [Statement, Instr.wf, Instr.operandsOk]
theorem strobeTimeout (n : Fin 4) (got : List Word) : Statement (.strobeTimeout n got) := by simp [Statement, Instr.wf, Instr.operandsOk]
theorem cspQueueFlush (n : Fin 4) : Statement (.cspQueueFlush n) := ⟨fun _ => trivial, fun _ => rfl⟩
theorem ss0Fall (n : Fin 4) : Statement (.ss0Fall n) := ⟨fun _ => trivial, fun _ => rfl⟩
theorem ss0Rise (n : Fin 4) (mid : Bool) : Statement (.ss0Rise n mid) := ⟨fun _ => trivial, fun _ => rfl⟩
theorem cspSlaveWord (n : Fin 4) (w : Word) : Statement (.cspSlaveWord n w) := ⟨fun _ => trivial, fun _ => rfl⟩
theorem underrunResend (n : Fin 4) : Statement (.underrunResend n) := ⟨fun _ => trivial, fun _ => rfl⟩
theorem srxdRead (n : Fin 4) : Statement (.srxdRead n) := ⟨fun _ => trivial, fun _ => rfl⟩
theorem stxdWrite (n : Fin 4) (v : Word) : Statement (.stxdWrite n v) := ⟨fun _ => trivial, fun _ => rfl⟩
theorem ethFrameReceive (p : Fin 2) (b : List Byte) (symErr : Bool) : Statement (.ethFrameReceive p b symErr) := by simp [Statement, Instr.wf, Instr.operandsOk]
theorem egressFrameStart (p : Fin 2) : Statement (.egressFrameStart p) := ⟨fun _ => trivial, fun _ => rfl⟩
theorem gateEntryChange (p : Fin 2) : Statement (.gateEntryChange p) := ⟨fun _ => trivial, fun _ => rfl⟩
theorem qbvApply (p : Fin 2) : Statement (.qbvApply p) := ⟨fun _ => trivial, fun _ => rfl⟩
theorem qbvConfigChange (p : Fin 2) : Statement (.qbvConfigChange p) := ⟨fun _ => trivial, fun _ => rfl⟩
theorem mdioGo : Statement (.mdioGo) := ⟨fun _ => trivial, fun _ => rfl⟩
theorem mdioDone (d : BitVec 16) : Statement (.mdioDone d) := ⟨fun _ => trivial, fun _ => rfl⟩
theorem linkUp (p : Fin 2) : Statement (.linkUp p) := ⟨fun _ => trivial, fun _ => rfl⟩
theorem linkDown (p : Fin 2) : Statement (.linkDown p) := ⟨fun _ => trivial, fun _ => rfl⟩
theorem syncTransmit : Statement (.syncTransmit) := ⟨fun _ => trivial, fun _ => rfl⟩
theorem followUp (p : Fin 2) (off : Int) (rate : Int) : Statement (.followUp p off rate) := ⟨fun _ => trivial, fun _ => rfl⟩
theorem slewEnd : Statement (.slewEnd) := ⟨fun _ => trivial, fun _ => rfl⟩
theorem pdelay (p : Fin 2) (d : Option (BitVec 32)) : Statement (.pdelay p d) := ⟨fun _ => trivial, fun _ => rfl⟩
theorem announce (p : Fin 2) (a : AnnounceMsg) : Statement (.announce p a) := ⟨fun _ => trivial, fun _ => rfl⟩
theorem receiptTimeout (p : Fin 2) (ann : Bool) : Statement (.receiptTimeout p ann) := ⟨fun _ => trivial, fun _ => rfl⟩
theorem ctSetGo : Statement (.ctSetGo) := ⟨fun _ => trivial, fun _ => rfl⟩
theorem ctServoWrite (r : CtReg) (v : Word) : Statement (.ctServoWrite r v) := ⟨fun _ => trivial, fun _ => rfl⟩
theorem gptpCfgWrite (v : Word) : Statement (.gptpCfgWrite v) := ⟨fun _ => trivial, fun _ => rfl⟩
theorem faultRaise (src : Fin 1024) (kind : Fin 64) (detail : BitVec 16) (addr : BitVec 24) : Statement (.faultRaise src kind detail addr) := ⟨fun _ => trivial, fun _ => rfl⟩
theorem faultRecord : Statement (.faultRecord) := ⟨fun _ => trivial, fun _ => rfl⟩
theorem notify (h : Fin 8) : Statement (.notify h) := ⟨fun _ => trivial, fun _ => rfl⟩
theorem fltSevWrite (w : Writer) (i : Fin 1024) (v : Word) : Statement (.fltSevWrite w i v) := ⟨fun _ => trivial, fun _ => rfl⟩
theorem fltSubscribe (w : Writer) (v : Word) : Statement (.fltSubscribe w v) := ⟨fun _ => trivial, fun _ => rfl⟩
theorem logRecordWrite : Statement (.logRecordWrite) := ⟨fun _ => trivial, fun _ => rfl⟩
theorem freeze (k : Fin 32) : Statement (.freeze k) := ⟨fun _ => trivial, fun _ => rfl⟩
theorem freezeTimeout : Statement (.freezeTimeout) := ⟨fun _ => trivial, fun _ => rfl⟩
theorem clearLog (k : Fin 32) : Statement (.clearLog k) := ⟨fun _ => trivial, fun _ => rfl⟩
theorem logMirror : Statement (.logMirror) := ⟨fun _ => trivial, fun _ => rfl⟩
theorem sagStart (v : Int) : Statement (.sagStart v) := ⟨fun _ => trivial, fun _ => rfl⟩
theorem saveComplete : Statement (.saveComplete) := ⟨fun _ => trivial, fun _ => rfl⟩
theorem supplyRecovery : Statement (.supplyRecovery) := ⟨fun _ => trivial, fun _ => rfl⟩
theorem belayRearm : Statement (.belayRearm) := ⟨fun _ => trivial, fun _ => rfl⟩
theorem blyCfgWrite (v : Word) : Statement (.blyCfgWrite v) := ⟨fun _ => trivial, fun _ => rfl⟩
theorem ack (w : Writer) (n : Fin 16) : Statement (.ack w n) := ⟨fun _ => trivial, fun _ => rfl⟩
theorem begin (k : Fin 32) : Statement (.begin k) := ⟨fun _ => trivial, fun _ => rfl⟩
theorem data (k : Fin 32) : Statement (.data k) := ⟨fun _ => trivial, fun _ => rfl⟩
theorem commit (k : Fin 32) : Statement (.commit k) := ⟨fun _ => trivial, fun _ => rfl⟩
theorem abort (k : Fin 32) : Statement (.abort k) := ⟨fun _ => trivial, fun _ => rfl⟩
theorem erase (k : Fin 32) : Statement (.erase k) := ⟨fun _ => trivial, fun _ => rfl⟩
theorem setflag (k : Fin 32) : Statement (.setflag k) := ⟨fun _ => trivial, fun _ => rfl⟩
theorem handover (k : Fin 32) : Statement (.handover k) := ⟨fun _ => trivial, fun _ => rfl⟩
theorem handoverReady : Statement (.handoverReady) := ⟨fun _ => trivial, fun _ => rfl⟩
theorem handoverSwitch : Statement (.handoverSwitch) := ⟨fun _ => trivial, fun _ => rfl⟩
theorem handoverTimeout : Statement (.handoverTimeout) := ⟨fun _ => trivial, fun _ => rfl⟩
theorem imageApply (k : Fin 32) : Statement (.imageApply k) := ⟨fun _ => trivial, fun _ => rfl⟩
theorem keyprog (k : Fin 32) : Statement (.keyprog k) := ⟨fun _ => trivial, fun _ => rfl⟩
theorem revoke (k : Fin 32) : Statement (.revoke k) := ⟨fun _ => trivial, fun _ => rfl⟩
theorem secprog (k : Fin 32) : Statement (.secprog k) := ⟨fun _ => trivial, fun _ => rfl⟩
theorem acceptUntested (k : Fin 32) : Statement (.acceptUntested k) := ⟨fun _ => trivial, fun _ => rfl⟩
theorem powerOnReset : Statement (.powerOnReset) := ⟨fun _ => trivial, fun _ => rfl⟩
theorem resetPin : Statement (.resetPin) := ⟨fun _ => trivial, fun _ => rfl⟩
theorem watchdogExpiry (active : Bool) : Statement (.watchdogExpiry active) := ⟨fun _ => trivial, fun _ => rfl⟩
theorem pwrCtrlWrite (v : Word) : Statement (.pwrCtrlWrite v) := ⟨fun _ => trivial, fun _ => rfl⟩
theorem clockLoss : Statement (.clockLoss) := ⟨fun _ => trivial, fun _ => rfl⟩
theorem resetRelease (p : StrapPins) : Statement (.resetRelease p) := ⟨fun _ => trivial, fun _ => rfl⟩
theorem xbcLoss : Statement (.xbcLoss) := ⟨fun _ => trivial, fun _ => rfl⟩
theorem bivouacEntry : Statement (.bivouacEntry) := ⟨fun _ => trivial, fun _ => rfl⟩
theorem bivouacEntered : Statement (.bivouacEntered) := ⟨fun _ => trivial, fun _ => rfl⟩
theorem wake (src : Fin 7) : Statement (.wake src) := ⟨fun _ => trivial, fun _ => rfl⟩
theorem hostsServed : Statement (.hostsServed) := ⟨fun _ => trivial, fun _ => rfl⟩
theorem vbcLoss : Statement (.vbcLoss) := ⟨fun _ => trivial, fun _ => rfl⟩
theorem pwrCfgWrite (v : Word) : Statement (.pwrCfgWrite v) := ⟨fun _ => trivial, fun _ => rfl⟩
theorem touchScan (cs : List (BitVec 16)) : Statement (.touchScan cs) := by simp [Statement, Instr.wf, Instr.operandsOk]
theorem recal (k : Fin 8) : Statement (.recal k) := ⟨fun _ => trivial, fun _ => rfl⟩
theorem inputSample (pb : BitVec 4) (pres : BitVec 8) : Statement (.inputSample pb pres) := ⟨fun _ => trivial, fun _ => rfl⟩
theorem presenceTest (n : Fin 16) : Statement (.presenceTest n) := ⟨fun _ => trivial, fun _ => rfl⟩
theorem presencePathDone (n : Fin 16) (e : PathEnd) : Statement (.presencePathDone n e) := ⟨fun _ => trivial, fun _ => rfl⟩
theorem fpConfigWrite (r : FpReg) (v : Word) : Statement (.fpConfigWrite r v) := ⟨fun _ => trivial, fun _ => rfl⟩
theorem readClear (w : Writer) (a : BitVec 24) : Statement (.readClear w a) := by simp [Statement, Instr.wf, Instr.operandsOk]
theorem registerWrite (w : Writer) (a : BitVec 24) (v : Word) : Statement (.registerWrite w a v) := by simp [Statement, Instr.wf, Instr.operandsOk]
theorem commutation (c : Fin 32) (e : Edge) : Statement (.commutation c e) := ⟨fun _ => trivial, fun _ => rfl⟩
theorem comparatorSample (c : Fin 32) (iH : Int) (iL : Int) : Statement (.comparatorSample c iH iL) := ⟨fun _ => trivial, fun _ => rfl⟩
theorem windowSample (m : Monitor) (v : Int) : Statement (.windowSample m v) := ⟨fun _ => trivial, fun _ => rfl⟩
theorem announceTransmit : Statement (.announceTransmit) := ⟨fun _ => trivial, fun _ => rfl⟩
theorem standbyReady : Statement (.standbyReady) := ⟨fun _ => trivial, fun _ => rfl⟩
theorem xbcStart : Statement (.xbcStart) := ⟨fun _ => trivial, fun _ => rfl⟩
theorem lampBlink (l : Fin 8) : Statement (.lampBlink l) := ⟨fun _ => trivial, fun _ => rfl⟩

end Laws.WellFormed
end Sys2Proof
end

