-- ==== Sys2Proof/Laws/Shared.lean ====
section
/-! SUPPORT. What the shared operations do, one lemma per operation and per kind of state it leaves alone. -/
namespace Sys2Proof.Machine
variable (s : State)

/-! ### A field of the word or quantity just written, its address given by an equation -/

theorem State.rd_wr_eq {a b : Nat} (v : Word) (h : b = a) : (s.wr a v).rd b = v := by rw [h, State.rd_wr_same]
theorem State.get_wr_eq {g : Fld} {a : Nat} (v : Word) (h : g.a = a) (hg : g.hi < 32) : (s.wr a v).get g = fieldOf v g := by
  rw [← h]; exact s.get_wr_same v hg
theorem State.get_wr64_eq {g : Fld} {a : Nat} (v : Nat) (h : g.a = a) (hg : 32 ≤ g.hi) :
    (s.wr64 a v).get g = bitsOf (v % 2 ^ 64) g.hi g.lo := by
  unfold State.get; rw [if_neg (by omega), h, State.rd64_wr64_same]
/-- The words of a field write. -/
theorem State.rd_put_same {f : Fld} {b : Nat} (v : Nat) (h : b = f.a) (hf : f.hi < 32) :
    (s.put f v).rd b = BitVec.ofNat 32 (withBits (s.rd f.a).toNat f.hi f.lo v) := by
  unfold State.put; rw [if_pos hf, h, State.rd_wr_same]

/-! ### Operations that change the streams and nothing else (R302 to R305, R311) -/

/-- `t` is `s` but for its streams. -/
def StreamsOnly (s t : State) : Prop := ∃ x, t = { s with streams := x }

namespace StreamsOnly
variable {s t u : State}

theorem refl (s : State) : StreamsOnly s s := ⟨s.streams, rfl⟩
theorem trans (h : StreamsOnly s t) (g : StreamsOnly t u) : StreamsOnly s u := by
  obtain ⟨x, rfl⟩ := h; obtain ⟨y, rfl⟩ := g; exact ⟨y, rfl⟩
theorem modStream (h : StreamsOnly s t) (k : Nat) (f : Stream → Stream) : StreamsOnly s (t.modStream k f) :=
  h.trans ⟨_, rfl⟩
theorem each {α : Type} (h : StreamsOnly s t) (l : List α) {f : α → State → State}
    (hf : ∀ x u, StreamsOnly s u → StreamsOnly s (f x u)) : StreamsOnly s (t.each l f) := by
  unfold State.each
  induction l generalizing t with
  | nil => exact h
  | cons x l ih => exact ih (hf x t h)
theorem reachHead (h : StreamsOnly s t) (k : Nat) : StreamsOnly s (t.reachHead k) := by
  unfold State.reachHead
  repeat' split
  all_goals first | exact h | exact h.modStream _ _
theorem reachHeads (h : StreamsOnly s t) (k : Nat) : StreamsOnly s (t.reachHeads k) :=
  h.each _ (fun _ _ hu => hu.reachHead _)
theorem answer (h : StreamsOnly s t) (k status detail flags : Nat) (ws : List Word) (halt : Nat) :
    StreamsOnly s (t.answer k status detail flags ws halt) := (h.modStream _ _).reachHeads _
theorem finish (h : StreamsOnly s t) (k : Nat) (c : Cmd) (status detail flags : Nat) (ws : List Word) :
    StreamsOnly s (t.finish k c status detail flags ws) := by
  unfold State.finish
  repeat' split
  all_goals first | exact h | exact h.answer _ _ _ _ _ _
theorem interrupt (h : StreamsOnly s t) (p : Stream → Cmd → Bool) (halt : Nat) : StreamsOnly s (t.interrupt p halt) := by
  refine h.each _ (fun k u hu => ?_)
  dsimp only
  repeat' split
  all_goals first | exact hu | exact hu.answer _ _ _ _ _ _
theorem ite {c : Prop} [Decidable c] (h : StreamsOnly s t) (g : StreamsOnly s u) : StreamsOnly s (if c then t else u) := by
  split <;> assumption
theorem interruptWait (h : StreamsOnly s t) (n new reason : Nat) : StreamsOnly s (t.interruptWait n new reason) := by
  unfold State.interruptWait; exact h.ite (h.interrupt _ _)
theorem interruptPitch (h : StreamsOnly s t) (n i : Nat) : StreamsOnly s (t.interruptPitch n i) := by
  unfold State.interruptPitch; exact h.ite (h.interrupt _ _)
theorem interruptSlot (h : StreamsOnly s t) (p : Nat → Bool) (halt : Nat) : StreamsOnly s (t.interruptSlot p halt) := h.interrupt _ _
theorem swapAnswer (h : StreamsOnly s t) (n r : Nat) : StreamsOnly s (t.swapAnswer n r) := by
  unfold State.swapAnswer
  refine h.ite (h.each _ (fun k u hu => ?_))
  dsimp only
  repeat' split
  all_goals first | exact hu | exact hu.answer _ _ _ _ _ _
theorem strandWaits (h : StreamsOnly s t) (n : Nat) : StreamsOnly s (t.strandWaits n) := by
  refine h.each _ (fun k u hu => ?_)
  repeat' split
  all_goals first | exact hu | exact hu.modStream _ _

theorem rd (h : StreamsOnly s t) (a : Nat) : t.rd a = s.rd a := by obtain ⟨x, rfl⟩ := h; rfl
theorem get (h : StreamsOnly s t) (f : Fld) : t.get f = s.get f := by obtain ⟨x, rfl⟩ := h; rfl
theorem regs (h : StreamsOnly s t) : t.regs = s.regs := by obtain ⟨x, rfl⟩ := h; rfl
theorem gen (h : StreamsOnly s t) (n : Nat) : t.gen n = s.gen n := by obtain ⟨x, rfl⟩ := h; rfl
theorem chan (h : StreamsOnly s t) (n : Nat) : t.chan n = s.chan n := by obtain ⟨x, rfl⟩ := h; rfl
theorem engine (h : StreamsOnly s t) (n : Nat) : t.engine n = s.engine n := by obtain ⟨x, rfl⟩ := h; rfl
end StreamsOnly

@[simp] theorem State.interruptWait_rd (n new reason : Nat) (a : Nat) : (s.interruptWait n new reason).rd a = s.rd a := ((StreamsOnly.refl s).interruptWait n new reason).rd a
@[simp] theorem State.interruptWait_get (n new reason : Nat) (g : Fld) : (s.interruptWait n new reason).get g = s.get g := ((StreamsOnly.refl s).interruptWait n new reason).get g
@[simp] theorem State.interruptWait_gen (n new reason : Nat) (m : Nat) : (s.interruptWait n new reason).gen m = s.gen m := ((StreamsOnly.refl s).interruptWait n new reason).gen m
@[simp] theorem State.interruptWait_regs (n new reason : Nat) : (s.interruptWait n new reason).regs = s.regs := ((StreamsOnly.refl s).interruptWait n new reason).regs
@[simp] theorem State.interruptPitch_rd (n i : Nat) (a : Nat) : (s.interruptPitch n i).rd a = s.rd a := ((StreamsOnly.refl s).interruptPitch n i).rd a
@[simp] theorem State.interruptPitch_get (n i : Nat) (g : Fld) : (s.interruptPitch n i).get g = s.get g := ((StreamsOnly.refl s).interruptPitch n i).get g
@[simp] theorem State.interruptPitch_gen (n i : Nat) (m : Nat) : (s.interruptPitch n i).gen m = s.gen m := ((StreamsOnly.refl s).interruptPitch n i).gen m
@[simp] theorem State.interruptPitch_regs (n i : Nat) : (s.interruptPitch n i).regs = s.regs := ((StreamsOnly.refl s).interruptPitch n i).regs
@[simp] theorem State.strandWaits_rd (n : Nat) (a : Nat) : (s.strandWaits n).rd a = s.rd a := ((StreamsOnly.refl s).strandWaits n).rd a
@[simp] theorem State.strandWaits_get (n : Nat) (g : Fld) : (s.strandWaits n).get g = s.get g := ((StreamsOnly.refl s).strandWaits n).get g
@[simp] theorem State.strandWaits_gen (n : Nat) (m : Nat) : (s.strandWaits n).gen m = s.gen m := ((StreamsOnly.refl s).strandWaits n).gen m
@[simp] theorem State.strandWaits_regs (n : Nat) : (s.strandWaits n).regs = s.regs := ((StreamsOnly.refl s).strandWaits n).regs
@[simp] theorem State.swapAnswer_rd (n r : Nat) (a : Nat) : (s.swapAnswer n r).rd a = s.rd a := ((StreamsOnly.refl s).swapAnswer n r).rd a
@[simp] theorem State.swapAnswer_get (n r : Nat) (g : Fld) : (s.swapAnswer n r).get g = s.get g := ((StreamsOnly.refl s).swapAnswer n r).get g
@[simp] theorem State.swapAnswer_gen (n r : Nat) (m : Nat) : (s.swapAnswer n r).gen m = s.gen m := ((StreamsOnly.refl s).swapAnswer n r).gen m
@[simp] theorem State.swapAnswer_regs (n r : Nat) : (s.swapAnswer n r).regs = s.regs := ((StreamsOnly.refl s).swapAnswer n r).regs
@[simp] theorem State.answer_rd (k st d f : Nat) (ws : List Word) (h : Nat) (a : Nat) : (s.answer k st d f ws h).rd a = s.rd a := ((StreamsOnly.refl s).answer k st d f ws h).rd a
@[simp] theorem State.answer_get (k st d f : Nat) (ws : List Word) (h : Nat) (g : Fld) : (s.answer k st d f ws h).get g = s.get g := ((StreamsOnly.refl s).answer k st d f ws h).get g
@[simp] theorem State.answer_gen (k st d f : Nat) (ws : List Word) (h : Nat) (m : Nat) : (s.answer k st d f ws h).gen m = s.gen m := ((StreamsOnly.refl s).answer k st d f ws h).gen m
@[simp] theorem State.answer_regs (k st d f : Nat) (ws : List Word) (h : Nat) : (s.answer k st d f ws h).regs = s.regs := ((StreamsOnly.refl s).answer k st d f ws h).regs
@[simp] theorem State.reachHead_rd (k : Nat) (a : Nat) : (s.reachHead k).rd a = s.rd a := ((StreamsOnly.refl s).reachHead k).rd a
@[simp] theorem State.reachHead_get (k : Nat) (g : Fld) : (s.reachHead k).get g = s.get g := ((StreamsOnly.refl s).reachHead k).get g
@[simp] theorem State.reachHead_gen (k : Nat) (m : Nat) : (s.reachHead k).gen m = s.gen m := ((StreamsOnly.refl s).reachHead k).gen m
@[simp] theorem State.reachHead_regs (k : Nat) : (s.reachHead k).regs = s.regs := ((StreamsOnly.refl s).reachHead k).regs
@[simp] theorem State.finish_rd (k : Nat) (c : Cmd) (st d f : Nat) (ws : List Word) (a : Nat) : (s.finish k c st d f ws).rd a = s.rd a := ((StreamsOnly.refl s).finish k c st d f ws).rd a
@[simp] theorem State.finish_get (k : Nat) (c : Cmd) (st d f : Nat) (ws : List Word) (g : Fld) : (s.finish k c st d f ws).get g = s.get g := ((StreamsOnly.refl s).finish k c st d f ws).get g
@[simp] theorem State.finish_gen (k : Nat) (c : Cmd) (st d f : Nat) (ws : List Word) (m : Nat) : (s.finish k c st d f ws).gen m = s.gen m := ((StreamsOnly.refl s).finish k c st d f ws).gen m
@[simp] theorem State.finish_regs (k : Nat) (c : Cmd) (st d f : Nat) (ws : List Word) : (s.finish k c st d f ws).regs = s.regs := ((StreamsOnly.refl s).finish k c st d f ws).regs

end Sys2Proof.Machine
end

