-- ==== Sys2Proof/Tests/Slice0.lean ====
section
/-! SUPPORT. Tests: WellFormed smoke tests, and for each statement states that meet its hypotheses, with what the commands
leave there. -/

namespace Sys2Proof.Tests
set_option Elab.async false
open Sys2Proof Sys2Proof.Machine

/-! ### Small states -/

/-- The state a command leaves. -/
def after (c : Instr) (s : State) : State := match exec c s with | .next t => t | _ => s
/-- The state after reset. -/
abbrev rs : State := State.reset
/-- Slot 0 of this kind in this state. -/
def slotIn (kind st : Nat) : State := (rs.put (AX_BIND_KIND 0) kind).put (AX_STATE_STATE 0) st

/-! ### Well-formedness: each check refuses an ill-formed command -/

theorem test_wf_svcIn_count : Instr.wf (.svcIn .supervisor 0 (List.replicate 8 0)) = false ∧
    Instr.wf (.svcIn .supervisor 0 (List.replicate 7 0)) = true := by decide
theorem test_wf_svcIn_check : Instr.wf (.svcIn .supervisor 0 [16384]) = false ∧ Instr.wf (.svcIn .supervisor 0 [16383]) = true := by decide
theorem test_wf_calibrationDone : Instr.wf (.calibrationDone 0 (List.replicate 8 (0, 0)) false) = false := by decide
theorem test_wf_cspEntryDone : Instr.wf (.cspEntryDone 0 (List.replicate 65 0)) = false := by decide
theorem test_wf_strobeTimeout : Instr.wf (.strobeTimeout 0 (List.replicate 65 0)) = false := by decide
theorem test_wf_touchScan : Instr.wf (.touchScan [0]) = false ∧ Instr.wf (.touchScan (List.replicate 8 0)) = true := by decide
theorem test_wf_readClear : Instr.wf (.readClear .supervisor 0x000002#24) = false := by decide
theorem test_wf_registerWrite : Instr.wf (.registerWrite .supervisor 0x000001#24 0) = false := by decide
theorem test_wf_ethFrameReceive : Instr.wf (.ethFrameReceive 0 (List.replicate 2049 0) false) = false := by decide +kernel
theorem test_wf_ssiFrameDone : Instr.wf (.ssiFrameDone 0 (2 ^ 48)) = false ∧ Instr.wf (.ssiFrameDone 0 (2 ^ 48 - 1)) = true := by decide

/-! ### Witnesses: states that meet the hypotheses of each statement, and what the command leaves there -/

theorem test_step_front : step { rs with pending := [.xbcLoss] } = exec .xbcLoss rs := by rfl
theorem test_idle : rs.up = true ∧ step rs = .next { rs with now := 5 } := ⟨by decide +kernel, rfl⟩
theorem test_canon : rs.Canon ∧ step { rs with pending := [.xbcLoss] } = .next (after .xbcLoss rs) :=
  ⟨⟨by decide +kernel, by decide +kernel⟩, rfl⟩
theorem test_oneSided : rs.OneSided ∧ step { rs with pending := [.xbcLoss] } = .next (after .xbcLoss rs) := ⟨fun _ => rfl, rfl⟩
theorem test_stores : Instr.stores .xbcLoss = false ∧ exec .xbcLoss rs = .next (after .xbcLoss rs) := ⟨rfl, rfl⟩
theorem test_nonOwner : rs.owns (.host 0) 0 = false ∧ after (.energise (.host 0) 0) rs = rs := by decide +kernel
theorem test_down : ({ rs with power := .bivouac } : State).up = false ∧
    exec .cellTick { rs with power := .bivouac } = .next { rs with power := .bivouac } := ⟨rfl, rfl⟩

theorem test_bind : rs.up = true ∧ rs.owns .supervisor 0 = true ∧
    (rs.bindErr 0 0x6#32 ≠ 0 ∧ (after (.bindWrite .supervisor 0 0x6#32) rs).get (AX_STATE_ERR 0) = rs.bindErr 0 0x6#32) ∧
    (rs.bindErr 0 0x4#32 = 0 ∧ fieldOf 0x4#32 (AX_BIND_KIND 0) ≠ 0 ∧ (after (.bindWrite .supervisor 0 0x4#32) rs).slotState 0 = stIdle) ∧
    ((slotIn 4 1).bindErr 0 0 = 0 ∧ (slotIn 4 1).slotState 0 ≠ stUnbound ∧
      (after (.bindWrite .supervisor 0 0) (slotIn 4 1)).slotState 0 = stUnbound) ∧
    ((slotIn 1 1).engselErr 0 0 ≠ 0 ∨ (slotIn 1 1).engselErr 0 0x3F3F#32 ≠ 0) := by decide +kernel
theorem test_slotStates :
    ((slotIn 4 1).energiseErr 0 = 0 ∧ (after (.energise .supervisor 0) (slotIn 4 1)).slotState 0 = stHold) ∧
    ((slotIn 1 1).energiseErr 0 = 10 ∧ (after (.energise .supervisor 0) (slotIn 1 1)).get (AX_STATE_ERR 0) = 10) ∧
    (after (.energise .supervisor 0) (slotIn 4 stShutdown)).get (AX_STATE_ENABLEPENDING 0) = 1 ∧
    (after (.deenergise .supervisor 0) (slotIn 4 stRun)).slotState 0 = stRappel ∧
    (after (.deenergise .supervisor 0) (slotIn 4 stHold)).slotState 0 = stShutdown ∧
    (after (.deenergise .supervisor 0) (slotIn 4 stIdle)).get (AX_STATE_ERR 0) = 5 := by decide +kernel
theorem test_slotStates2 :
    ((slotIn 4 stShutdown).isRemote 0 = true ∧ (slotIn 4 stShutdown).get (AX_BRK_ST_BSTATE 0) ≠ 3 ∧
      (slotIn 4 stShutdown).bit (AX_STATE_ENABLEPENDING 0) = false ∧ (after (.shutdownComplete 0) (slotIn 4 stShutdown)).slotState 0 = stIdle) ∧
    (after (.clear .supervisor 0) (slotIn 4 stTripped)).slotState 0 = stIdle ∧
    (after (.svcOut .supervisor 0) (slotIn 4 stIdle)).slotState 0 = stOos ∧
    (after (.svcIn .supervisor 0 []) (slotIn 4 stOos)).slotState 0 = stIdle := by decide +kernel
/-- A change of the period to 31 waits. -/
def changing : State := { rs with tickLeft := true, newTick := some (31, 0, false) }
theorem test_cellTick :
    (rs.newTick = none ∧ (after .cellTick rs).now = rs.nextTick ∧ (after .cellTick rs).tickLeft = true) ∧
    (slots16.any rs.energised = false ∧ (after (.tickusWrite 31#32) rs).newTick = some (31, 0, false) ∧
      (after (.tickusWrite 1000#32) rs).newTick = some (1000, 0, false)) ∧
    ((after (.tickusWrite 30#32) rs).get CT_TICKCFG_REFUSED = 1 ∧ (after (.tickusWrite 1001#32) rs).newTick = none) ∧
    changing.changeFirst = true ∧
    (after .cellTick changing).now = 0 ∧
    (after .tickPeriodChange changing).newTick = none ∧
    (after .tickPeriodChange changing).period = tickNs 31 := by decide +kernel

/-- The queue of slot 0 holds `k` entries. -/
def queued (k : Nat) : State := (slotIn 4 stHold).modGen 0 (fun g => { g with queue := List.replicate k (List.replicate 8 0) })
theorem test_pitchQueue :
    (entryBad (List.replicate 8 0) = false ∧ ((after (.pitchOffer .supervisor 0 0) (queued 63)).gen 0).queue.length = 64 ∧
      (after (.pitchOffer .supervisor 0 0) (queued 63)).get (AX_PITNEXT_V 0) = (queued 63).get (AX_PITNEXT_V 0) + 1) ∧
    (after (.pitchOffer .supervisor 0 0) (queued 64)).get (AX_PITQ_CTRL_FULL 0) = 1 ∧
    (entryBad ((List.range 7).map (fun i => ((queued 0).wr (AX_PITQ_IN 0 0) 6).rd (AX_PITQ_IN 0 i)) ++ [0]) = true ∧
      (after (.pitchOffer .supervisor 0 0) ((queued 0).wr (AX_PITQ_IN 0 0) 6)).get (AX_PITQ_CTRL_BADPITCH 0) = 1) ∧
    ((after (.flush .supervisor 0) (queued 3)).gen 0).queue = [] ∧ (after (.flush .supervisor 0) (queued 3)).get (AX_PITFLUSH_V 0) = 3 ∧
    (after (.go .supervisor 0) ((queued 1).put (AX_PITQ_CTRL_QHELD 0) 1)).get (AX_PITQ_CTRL_QHELD 0) = 0 := by decide +kernel

/-- Slot 0 in HOLD with motion source `k`. -/
def sourced (k : Nat) : State := (slotIn 4 stHold).put (AX_MCFG_SRC 0) k
theorem test_setpoint :
    ((sourced 2).nextFree ≤ ((sourced 2).put (AX_SPB_T_V 0) 1000000).rd64 (AX_SPB_T 0) ∧
      ((after (.setpointOffer .supervisor 0 5) ((sourced 2).put (AX_SPB_T_V 0) 1000000)).gen 0).points =
        [{ t := 1000000, p := 0, v := 5 * 2 ^ 32, velok := false }]) ∧
    (after (.setpointOffer .supervisor 0 5) ((sourced 2).modGen 0 (fun g => { g with points := List.replicate 16 {} }))).get
      (AX_SPB_LVL_FULL 0) = 1 ∧
    (after (.setpointOffer .supervisor 0 5) (sourced 1)).get (AX_STATE_ERR 0) = 5 ∧
    ((after (.setpointHoldoverExpiry 0) ((sourced 2).modGen 0 (fun g => { g with starving := true }))).gen 0).drift = .starveStop := by
  decide +kernel
theorem test_gear :
    ((after (.load .supervisor 0) ((sourced 1).wr (AX_GEAR_DEN 0) 2)).gen 0).gearLoad = true ∧
    (after (.load .supervisor 0) ((sourced 1).wr (AX_GEAR_DEN 0) 0)).get (AX_GEAR_CTRL_REFUSED 0) = 1 ∧
    ((after (.gearLoadApply 0) { ((sourced 1).wr (AX_GEAR_DEN 0) 2).modGen 0 (fun g => { g with gearLoad := true }) with
      tickLeft := true }).gen 0).gearDen = 2 := by decide +kernel
theorem test_pitchStart :
    ((slotIn 4 stIdle).slotState 0 = stIdle ∧ (after (.mcfgWrite .supervisor 0 2) (slotIn 4 stIdle)).rd (AX_MCFG 0) = 2) ∧
    (fieldOf 3#32 (AX_MCFG_SRC 0) = 3 ∧ (after (.mcfgWrite .supervisor 0 3) (slotIn 4 stIdle)).get (AX_STATE_ERR 0) = 5) ∧
    (({ queued 1 with tickLeft := true } : State).canStart 0 = true ∧ entryTstart (List.replicate 8 0) = false ∧
      ((after (.pitchStart 0) { queued 1 with tickLeft := true }).gen 0).queue = [] ∧
      (after (.pitchStart 0) { queued 1 with tickLeft := true }).get (AX_PITSTART_V 0) = 1) ∧
    ((after (.stepPulse 0) ((slotIn 4 stRun).modGen 0 (fun g => { g with sched := 1, stepDir := true }))).gen 0).sent = 1 ∧
    (after (.stepPulse 0) ((slotIn 4 stRun).modGen 0 (fun g => { g with sched := 1, stepDir := true }))).get (SOG_CNT_V 0) = 1 := by
  decide +kernel
theorem test_gateDrive :
    (let s : State := rs.setChan 3 { h := { on := true } }
     (after .safeoffNLow s).safeoff = true ∧ ((after .safeoffNLow s).chan 3).h.on = false) ∧
    (after .safeoffNHigh { rs with safeoff := true }).safeoff = false ∧
    (rs.groupUsed 0 = false ∧ fieldOf 0x640001#32 (GD_CFG_OTTHR 0) = 100 ∧ (after (.gdCfgWrite 0 0x640001#32) rs).rd (GD_CFG 0) = 0x640001#32 ∧
      (after (.gdCfgWrite 0 0x960001#32) rs).rd (GD_CFG 0) = 0x960001#32) ∧
    (after (.gdCfgWrite 0 0x630001#32) rs).get (GD_STAT_REFUSED 0) = 1 ∧ (after (.gdCfgWrite 0 0x970001#32) rs).get (GD_STAT_REFUSED 0) = 1 ∧
    ((slotIn 1 stHold).groupUsed 0 = true ∧ (after (.gdCfgWrite 0 0x640001#32) (slotIn 1 stHold)).get (GD_STAT_REFUSED 0) = 1) ∧
    ((after (.scthrWrite 0 1 0x0202#32) rs).rd (GD_SCTHR 0 1) = 0x0202#32 ∧
      (after (.scthrWrite 0 1 0x0102#32) rs).get (GD_STAT_REFUSED 0) = 1) := by decide +kernel
theorem test_collector :
    ((defaultSev 2).isSome = true ∧ (after (.faultRaise 2 0 0 0) rs).coll.buffer.length = 1) ∧
    (let s := after (.faultRaise 2 0 0 0) rs
     (after .faultRecord s).coll.buffer = [] ∧ (after .faultRecord s).log.fromCollector.length = 1) ∧
    (let s := rs.modHost 1 (fun x => { x with notify := List.replicate 16 (0, 0, 0) })
     ((after (.notify 1) s).host 1).notify.length = 1 ∧ (after (.notify 1) s).get (FLT_NST_NSEQ 1) = 1) ∧
    ((after (.fltSevWrite .supervisor 2 0x4#32) rs).get (FLT_SRC_SEV 2) = fieldOf 0x4#32 (FLT_SRC_SEV 2)) ∧
    ((after (.fltSevWrite .supervisor 0 0) rs).get (FLT_SRC_SEV 0) = 3) ∧
    (after (.fltSubscribe .supervisor 0) rs).get FLT_ST_REFUSED = 1 := by decide +kernel
/-- Stream `k` with this command at its head, active. -/
def headed (s : State) (k : Nat) (c : Cmd) : State := s.setStream k { queue := [c], state := 1 }
/-- The status of the latest response of stream `k`, 99 with none. -/
def statusOf (s : State) (k : Nat) : Nat := match (s.stream k).pend.getLast? with | some r => r.status | none => 99
theorem test_subscribe :
    ((defaultSev 2).isSome = true ∧ fieldOf 0x80000002#32 FLT_SUBSCRIBE_ON = 1 ∧ fieldOf 0x80000002#32 FLT_SUBSCRIBE_SRC = 2 ∧
      (after (.fltSubscribe (.host 3) 0x80000002#32) rs).get (FLT_SRC_SUB 2) / 8 % 2 = 1) := by decide +kernel
def armedSag : State := ({ rs with bly := { armed := true } } : State).setWindow (winLo 4) { hist := List.replicate 64 (true, false) }
theorem test_belay :
    (((armedSag.toWindow (.supply 4)).monChanges (.supply 4) 0).filter (fun y => y.2 && y.1 == winLo 4) ≠ [] ∧
      (after (.sagStart 0) armedSag).bly.saving = true ∧ (after (.sagStart 0) armedSag).get BLY_ST_SAGNOW = 1) ∧
    ((after .saveComplete { rs with bly := { saving := true } }).bly.saveCount = 1 ∧
      (after .saveComplete { rs with bly := { saving := true } }).bly.valid0 = true) ∧
    (after .supplyRecovery { rs with bly := { shed := true, stopped := true } }).bly.stopped = false ∧
    (after .belayRearm { rs with bly := {} }).bly.armed = true ∧
    ((after (.blyCfgWrite 80) rs).get BLY_CFG_THR = 80 ∧ (after (.blyCfgWrite 115) rs).get (MON_THR_LO 4) = 11500 ∧
      (after (.blyCfgWrite 79) rs).get BLY_ST_REFUSED = 1 ∧ (after (.blyCfgWrite 116) rs).get BLY_ST_REFUSED = 1) ∧
    (after (.ack .supervisor 0) (rs.put (AX_RESTORE_POSITIONASSUMED 0) 1)).get (AX_RESTORE_POSITIONASSUMED 0) = 0 := by
  decide +kernel
theorem test_hosts :
    (rs.mayBind .supervisor 1 = true ∧ (after (.hostCfgWrite .supervisor 1 (.cfg 0)) (rs.put (HOST_CFG_SRC 1) 1)).get (HOST_CFG_SRC 1) = 0) ∧
    ((rs.put (HOST_ST_LIVE 1) 1).mayBind (.host 2) 1 = false ∧
      (after (.hostCfgWrite (.host 2) 1 (.cfg 0)) (rs.put (HOST_ST_LIVE 1) 1)).get (HOST_ST_REFUSED 1) = 1) ∧
    (let s := (rs.put (HOST_ST_LIVE 1) 1).put (HOST_TMO_TMO 1) 5
     (after (.hostLossTimeout 1) s).get (HOST_ST_LIVE 1) = 0 ∧ (after (.hostLossTimeout 1) s).get (HOST_LOSTCNT_V 1) = 1) := by decide +kernel
theorem test_lose :
    (let s := (rs.put (HOST_CFG_SRC 2) 1).put (HOST_ST_LIVE 1) 1
     s.src 2 = 1 ∧ (after (.lose (.host 2) 1) s).get (HOST_ST_LIVE 1) = 0 ∧ (after (.lose (.host 2) 1) s).get (HOST_LOSTCNT_V 1) = 1) ∧
    ((after (.lose .supervisor 1) rs).get HOST_CTRL_REFUSED = 1 ∧
      (after (.lose (.host 2) 2) (rs.put (HOST_CFG_SRC 2) 1)).get HOST_CTRL_REFUSED = 1) := by decide +kernel
/-- Records waiting in the summit log. -/
def logWith (l : SummitLog) : State := { rs with log := l }
theorem test_logRecordWrite :
    (after .logRecordWrite (logWith { fromCollector := [{ w0 := 7 }] })).get LOG_WSEQ_V = rs.get LOG_WSEQ_V + 1 ∧
    (after .logRecordWrite (logWith { fromCollector := [{ w0 := 7 }] })).log.fromCollector = [] := by decide +kernel
theorem test_freeze :
    let s := headed rs 5 { op := 0xB, words := [1] }
    s.ready 5 = some { op := 0xB, words := [1] } ∧ s.bit BOOT_ST_LOADER = false ∧ (after (.freeze 5) s).get LOG_ST_FROZEN = 1 ∧
       (after (.freeze 5) s).get LOG_ST_FRZHOST = 1 ∧ statusOf (after (.freeze 5) s) 5 = 0 := by decide +kernel
theorem test_freezeTimeout : (after .freezeTimeout (rs.put LOG_ST_FROZEN 1)).get LOG_ST_FROZEN = 0 := by decide +kernel
theorem test_clearLog_reason :
    (headed rs 5 { op := 0xC, words := List.replicate 6 0 }).clearReason 1 (List.replicate 6 0) = 3 := by decide +kernel
theorem test_logMirror :
    (after .logMirror (logWith { waiting := [{}], tail := List.replicate 511 {} })).log.tail.length = 512 ∧
    (after .logMirror (logWith { waiting := [{}], tail := List.replicate 511 {} })).log.waiting = [] := by decide +kernel
/-- Any tag is four words. -/
theorem words128_parts (T : BitVec 128) : words128 [BitVec.ofNat 32 (T.toNat / 2 ^ 96), BitVec.ofNat 32 (T.toNat / 2 ^ 64),
    BitVec.ofNat 32 (T.toNat / 2 ^ 32), BitVec.ofNat 32 T.toNat] = T := by
  apply BitVec.eq_of_toNat_eq
  have := T.isLt
  simp [words128]
  omega
/-- A CLEAR_LOG with the right nonce and tag passes. -/
theorem test_clearLog_passes : ∃ ws : List Word, ({ rs with otp := [(0x80, 1)] } : State).clearReason 0 ws = 0 := by
  let s : State := { rs with otp := [(0x80, 1)] }
  let T := Config.hmacTag s.clearKey (clearMessage (s.rd64 LOG_NONCE) 0 0xC)
  refine ⟨BitVec.ofNat 32 (s.rd64 LOG_NONCE / 2 ^ 32) :: BitVec.ofNat 32 (s.rd64 LOG_NONCE) ::
    [BitVec.ofNat 32 (T.toNat / 2 ^ 96), BitVec.ofNat 32 (T.toNat / 2 ^ 64), BitVec.ofNat 32 (T.toNat / 2 ^ 32), BitVec.ofNat 32 T.toNat], ?_⟩
  have hk : s.clearKey.all (· == 0) = false := by decide +kernel
  have hf : s.bit LOG_ST_FROZEN = false := by decide +kernel
  have hn : (BitVec.ofNat 32 (s.rd64 LOG_NONCE / 2 ^ 32)).toNat * 2 ^ 32 + (BitVec.ofNat 32 (s.rd64 LOG_NONCE)).toNat = s.rd64 LOG_NONCE := by
    have h : s.rd64 LOG_NONCE < 2 ^ 64 := by
      have h1 := (s.rd (LOG_NONCE + 4)).isLt
      have h2 := (s.rd LOG_NONCE).isLt
      simp only [State.rd64]; omega
    simp only [BitVec.toNat_ofNat]; omega
  have hw : words128 [BitVec.ofNat 32 (T.toNat / 2 ^ 96), BitVec.ofNat 32 (T.toNat / 2 ^ 64), BitVec.ofNat 32 (T.toNat / 2 ^ 32), BitVec.ofNat 32 T.toNat] =
    Config.hmacTag s.clearKey (clearMessage (s.rd64 LOG_NONCE) 0 0xC) := words128_parts T
  show s.clearReason 0 _ = 0
  simp only [State.clearReason, List.drop, hk, hf, hn, hw]
  simp
/-! ### Route instructions: engine 0 runs a pass with this word at its program counter -/

/-- An instruction word: the opcode and fields by their lowest bit, written out from R138 and the form of the instruction. -/
def word (op : Nat) (fs : List (Nat × Nat)) : Word := BitVec.ofNat 32 (op * 2 ^ 26 + (fs.map (fun f => f.2 * 2 ^ f.1)).sum)
/-- Engine 0 in a pass, with registers and blocks as `x` has them. -/
def running (w : Word) (x : Engine) : State :=
  ((rs.put (KE_STATUS_RUN 0) 2).wrMem (progBase 0) w).setEngine 0 { x with inPass := true }
/-- Register `r` of engine 0 after command `c` ran `w`. -/
def regAfter (c : Instr) (w : Word) (x : Engine) (r : Nat) : Word := ((after c (running w x)).engine 0).reg r
/-- The trap code of engine 0 after command `c` ran `w`. -/
def trapAfter (c : Instr) (w : Word) (x : Engine) : Nat := (after c (running w x)).get (KE_STATUS_TRAP 0)
/-- g1 = 7 and g2 = 0xFFFFFFFE. -/
def twoRegs : Engine := { g := [(1, 7), (2, 0xFFFFFFFE)] }
/-- rd = g3, ra = g1, rb = g2 with this func. -/
def rrr (func : Nat) : Word := word 1 [(17, 3), (12, 1), (7, 2), (0, func)]
/-- rd = g3, ra = g1 with imm12 = 0xFFE, the same value. -/
def rri (op : Nat) : Word := word op [(17, 3), (12, 1), (0, 0xFFE)]

theorem test_issues : (running (rrr 0) twoRegs).issues 0 (rrr 0) := by
  unfold State.issues State.fetches; decide +kernel
theorem test_falseGuard : (running 0x06000000 twoRegs).fetches 0 0x06000000 ∧
    guardHolds ((running 0x06000000 twoRegs).engine 0) 0x06000000 = false ∧
    ((after (.add 0) (running 0x06000000 twoRegs)).engine 0).pc = 1 ∧ ((after (.add 0) (running 0x06000000 twoRegs)).engine 0).cyc = 1 := by
  unfold State.fetches; decide +kernel
theorem test_integer_register :
    regAfter (.add 0) (rrr 0) twoRegs 3 = 5 ∧ regAfter (.sub 0) (rrr 1) twoRegs 3 = 9 ∧ regAfter (.and 0) (rrr 2) twoRegs 3 = 6 ∧
    regAfter (.or 0) (rrr 3) twoRegs 3 = 0xFFFFFFFF ∧ regAfter (.xor 0) (rrr 4) twoRegs 3 = 0xFFFFFFF9 ∧
    regAfter (.shl 0) (rrr 5) twoRegs 3 = 0xC0000000 ∧ regAfter (.shr 0) (rrr 6) twoRegs 3 = 0 ∧
    regAfter (.sar 0) (rrr 7) twoRegs 3 = 0 ∧ regAfter (.mul 0) (rrr 8) twoRegs 3 = 0xFFFFFFF2 ∧
    regAfter (.mulh 0) (rrr 9) twoRegs 3 = 0xFFFFFFFF ∧ regAfter (.min 0) (rrr 0xA) twoRegs 3 = 0xFFFFFFFE ∧
    regAfter (.max 0) (rrr 0xB) twoRegs 3 = 7 ∧ trapAfter (.trap 0) (rrr 0xC) twoRegs = 2 := by decide +kernel
theorem test_integer_latency :
    ((after (.mul 0) (running (rrr 8) twoRegs)).engine 0).cyc = 1 ∧
    tabGet (fun _ => 0) ((after (.mul 0) (running (rrr 8) twoRegs)).engine 0).rdy (kReg 3) = 3 := by decide +kernel
theorem test_integer_immediate :
    regAfter (.add 0) (rri 2) twoRegs 3 = 5 ∧ regAfter (.and 0) (rri 3) twoRegs 3 = 6 ∧ regAfter (.or 0) (rri 4) twoRegs 3 = 0xFFFFFFFF ∧
    regAfter (.xor 0) (rri 5) twoRegs 3 = 0xFFFFFFF9 ∧ regAfter (.mul 0) (rri 9) twoRegs 3 = 0xFFFFFFF2 ∧
    regAfter (.min 0) (rri 0xA) twoRegs 3 = 0xFFFFFFFE ∧ regAfter (.max 0) (rri 0xB) twoRegs 3 = 7 ∧
    regAfter (.shl 0) (word 6 [(17, 3), (12, 1), (0, 31)]) twoRegs 3 = 0x80000000 ∧
    regAfter (.shr 0) (word 7 [(17, 3), (12, 2), (0, 31)]) twoRegs 3 = 1 ∧
    regAfter (.sar 0) (word 8 [(17, 3), (12, 2), (0, 31)]) twoRegs 3 = 0xFFFFFFFF ∧
    trapAfter (.shl 0) (word 6 [(17, 3), (12, 1), (0, 32)]) twoRegs = 2 ∧ trapAfter (.shr 0) (word 7 [(0, 0x800)]) twoRegs = 2 ∧
    trapAfter (.sar 0) (word 8 [(0, 32)]) twoRegs = 2 := by decide +kernel
theorem test_ldi :
    regAfter (.ldi 0) (word 0x10 [(17, 2), (0, 0x8000)]) twoRegs 2 = 0xFFFF8000 ∧
    regAfter (.ldiH 0) (word 0x10 [(17, 2), (16, 1), (0, 0x1234)]) twoRegs 2 = 0x1234FFFE ∧
    regAfter (.ldi 0) (word 0x10 [(17, 0), (0, 5)]) twoRegs 0 = 0 := by decide +kernel
/-- Predicate `p` of engine 0 after CMP of `w`. -/
def predAfter (w : Word) (x : Engine) (p : Nat) : Bool := ((after (.cmp 0) (running w x)).engine 0).pred p
theorem test_cmp :
    predAfter (word 0x0C [(19, 7), (14, 1), (9, 2), (6, 5)]) twoRegs 7 = true ∧
    predAfter (word 0x0C [(19, 7), (14, 1), (9, 2), (6, 7)]) twoRegs 7 = false ∧
    predAfter (word 0x0C [(19, 7), (14, 1), (9, 2), (6, 0), (4, 3)]) twoRegs 7 = true ∧
    predAfter (word 0x0D [(19, 1), (14, 2), (11, 0), (0, 0x1FE)]) twoRegs 1 = true ∧
    predAfter (word 0x0C [(19, 0), (14, 1), (9, 2), (6, 0)]) twoRegs 0 = true := by decide +kernel
/-- g1 = this address, g2 a value to store. -/
def atAddr (a : Word) : Engine := { g := [(1, a), (2, 0xCAFE)] }
theorem test_memory :
    (let w := word 0x0E [(17, 3), (12, 1), (0, 1)]
     ((after (.ld 0) ((running w (atAddr 8)).wrMem (dataBase 0 + 12) 77)).engine 0).reg 3 = 77 ∧
     ((after (.ld 0) ((running w (atAddr 0x7FFFC)).wrMem 0x600000 78)).engine 0).reg 3 = 78 ∧
     trapAfter (.ld 0) w (atAddr 2) = 3 ∧ trapAfter (.ld 0) w (atAddr 0x7FFC) = 3 ∧ trapAfter (.ld 0) w (atAddr 0xFFFFC) = 3) ∧
    (let w := word 0x0F [(17, 2), (12, 1), (0, 1)]
     (after (.st 0) (running w (atAddr 0x7FF8))).dataWord 0 0x1FFF = 0xCAFE ∧
     (after (.st 0) (running w (atAddr 0xDFFF8))).rdMem 0x65FFFC = 0xCAFE ∧
     trapAfter (.st 0) w (atAddr 0xDFFFC) = 3 ∧ trapAfter (.st 0) w (atAddr 0x7FFC) = 3) := by decide +kernel
/-- A block of sixteen ones, and one of minus twos. -/
def twoBlocks : Engine := { blk := [(0, { m := List.replicate 16 4194304, e := 1 }), (1, { m := List.replicate 16 (-4194304), e := 2 })], g := [(1, 0x100)] }
/-- Block `b` of engine 0 after command `c` ran `w`. -/
def blockAfter (c : Instr) (w : Word) (x : Engine) (b : Nat) : Blk := ((after c (running w x)).engine 0).block b
theorem test_blockMemory :
    (blockPlaces 0x100 0).all Place.ok = true ∧ blockAfter (.bld 0) (word 0x14 [(18, 1), (13, 1), (0, 0)]) twoBlocks 1 = {} ∧
    (after (.bst 0) (running (word 0x15 [(18, 0), (13, 1), (0, 0)]) twoBlocks)).dataWord 0 0x40 = 4194304 := by decide +kernel
theorem test_blockOps :
    (blockAfter (.bnorm 0) (word 0x19 [(18, 0)]) twoBlocks 0).val 0 = 1 ∧
    blockAfter (.bscale 0) (word 0x1A [(18, 2), (14, 0), (13, 1), (0, 3)]) twoBlocks 2 = { m := List.replicate 16 4194304, e := 4 } ∧
    (blockAfter (.bint 0) (word 0x1C [(18, 0), (14, 1), (10, 0)]) twoBlocks 0).val 3 = -1 ∧
    ((after (.bint 0) (running (word 0x1C [(18, 0), (14, 1), (10, 2)]) { twoBlocks with sat := 4 })).engine 0).blk = twoBlocks.blk ∧
    trapAfter (.bsat 0) (word 0x1B [(14, 15), (10, 1)]) twoBlocks = 2 := by decide +kernel
theorem test_accumulator :
    ((after (.bmac 0) (running (word 0x16 [(20, 1), (19, 1), (8, 0x00), (0, 0x10)]) twoBlocks)).engine 0).accum 1 =
      { a := -17592186044416, e := 3 } ∧
    ((after (.bmsu 0) (running (word 0x17 [(20, 1), (19, 1), (8, 0x00), (0, 0x10)]) twoBlocks)).engine 0).accum 1 =
      { a := 17592186044416, e := 3 } ∧
    regAfter (.bcvt 0) (word 0x1D [(20, 1), (15, 5), (7, 0x10), (0, 4)]) twoBlocks 5 = 0xFFFFFFE0 ∧
    trapAfter (.bcvt 0) (word 0x1D [(20, 3)]) twoBlocks = 2 := by decide +kernel
theorem test_bacc :
    (blockAfter (.bacc 0) (word 0x18 [(20, 1), (8, 0x21)]) { twoBlocks with acc := [(1, { a := 17592186044416, e := 3 })] } 2).val 1 = 2 := by
  decide +kernel
theorem test_transcendental :
    trapAfter (.sincos 0) (word 0x20 [(14, 0x0F)]) twoBlocks = 2 ∧
    regAfter (.atan2 0) (word 0x21 [(17, 5), (8, 0x20), (0, 0x21)]) twoBlocks 5 = 0 ∧
    ((after (.atan2 0) (running (word 0x21 [(17, 5), (8, 0x20), (0, 0x21)]) twoBlocks)).engine 0).astat.testBit 1 = true ∧
    ((after (.sqrt 0) (running (word 0x22 [(8, 0x00), (0, 0x10)]) twoBlocks)).engine 0).astat.testBit 1 = true := by decide +kernel
theorem test_flow :
    ((after (.br 0) (running (word 0x28 [(0, 5)]) {})).engine 0).pc = 5 ∧ ((after (.br 0) (running (word 0x28 [(0, 5)]) {})).engine 0).cyc = 2 ∧
    trapAfter (.br 0) (word 0x28 [(0, 0x3FFFFF)]) {} = 3 ∧
    ((after (.call 0) (running (word 0x29 [(0, 5)]) { stack := List.replicate 7 0 })).engine 0).stack = 1 :: List.replicate 7 0 ∧
    trapAfter (.call 0) (word 0x29 [(0, 5)]) { stack := List.replicate 8 0 } = 2 ∧
    ((after (.ret 0) (running (word 0x2A []) { stack := [9, 4] })).engine 0).pc = 9 ∧ trapAfter (.ret 0) (word 0x2A []) {} = 2 := by decide +kernel
theorem test_loop :
    ((after (.loop 0) (running (word 0x2B [(17, 1), (0, 3)]) { g := [(1, 4)] })).engine 0).loops = [⟨1, 3, 4, 0⟩] ∧
    ((after (.loop 0) (running (word 0x2B [(17, 1), (0, 3)]) {})).engine 0).pc = 4 ∧
    trapAfter (.loop 0) (word 0x2B [(17, 1), (0, 3)]) { loops := List.replicate 4 ⟨9, 9, 2, 0⟩ } = 2 := by decide +kernel
theorem test_ends :
    ((after (.wait 0) (running (word 0x2C []) {})).engine 0).inPass = false ∧ ((after (.wait 0) (running (word 0x2C []) {})).engine 0).passn = 1 ∧
    (after (.halt 0) ((running (word 0x2D []) {}).put (KE_STATUS_POOL 0) 1)).get (KE_STATUS_POOL 0) = 0 ∧
    trapAfter (.trap 0) (word 0x2E []) {} = 1 ∧ trapAfter (.trap 0) (word 0x3F []) {} = 2 ∧
    (after (.halt 0) ((running (word 0x2D []) {}).put (KE_STATUS_ROLE 0) 1)).get (KE_STATUS_TRAP 0) = 1 := by decide +kernel
/-- Engine 0 serves slot 0, a local slot in this state, as its control engine. -/
def serving (w : Word) (x : Engine) (st : Nat) : State :=
  let s := (((running w x).put (AX_BIND_KIND 0) 1).put (AX_STATE_STATE 0) st).put (KE_STATUS_POOL 0) 1
  (((s.put (KE_STATUS_ROLE 0) 1).put (KE_STATUS_SLOT 0) 0).put (AX_ENGSEL_CTLENG 0) 0).put (KE_STATUS_LOADED 0) 1
/-- A snapshot with one current and bus voltages. -/
def snapped : Engine := { snap := { cur := [1000, 2000], wd := [1], brk := [500], vbus := 48000, vbrk := 24000, fbpos := -5, fbvel := 9, sp := { v := 77 }, st := 2 } }
theorem test_serving : (serving 0 {} stHold).ownSlot 0 true = some 0 ∧ (serving 0 {} stHold).serves 0 0 = true ∧
    (serving 0 {} stHold).inShadow 0 = false ∧ (serving 0 {} stHold).energised 0 = true ∧ (serving 0 {} stHold).executes 0 = true := by decide +kernel
theorem test_rdi :
    (((after (.rdi 0) (serving (word 0x30 [(18, 2)]) snapped stHold)).engine 0).block 2).val 1 = 2 ∧
    (((after (.rdiW 0) (serving (word 0x30 [(18, 2), (17, 1)]) snapped stHold)).engine 0).block 2).val 0 = 1 ∧
    (((after (.rdv 0) (serving (word 0x31 [(14, 0x2E)]) snapped stHold)).engine 0).block 2).val 15 = 24 ∧
    trapAfter (.rdv 0) (word 0x31 [(14, 0x2E)]) {} = 2 := by decide +kernel
theorem test_rdf :
    ((after (.rdf 0) (serving (word 0x32 [(17, 3), (12, 31), (8, 0)]) snapped stHold)).engine 0).reg 3 = 0xFFFFFFFB ∧
    ((after (.rdf 0) (serving (word 0x32 [(17, 3), (12, 31), (8, 2)]) snapped stHold)).engine 0).reg 3 = 9 ∧
    ((after (.pos 0) (serving (word 0x33 [(17, 3), (12, 31), (8, 2)]) snapped stHold)).engine 0).reg 3 = 77 ∧
    trapAfter (.pos 0) (word 0x33 [(8, 11)]) {} = 2 := by decide +kernel
theorem test_pit :
    let w := word 0x34 [(17, 3), (12, 1), (7, 31)]
    ((after (.pit 0) (serving w { g := [(1, 0x100)] } stHold)).gen 0).queue = [List.replicate 8 0] ∧
    entryBad (List.replicate 8 0) = false ∧
    ((after (.pit 0) (serving w { g := [(1, 0x100)] } stUnbound)).engine 0).reg 3 = 3 ∧
    ((after (.pitLvl 0) ((serving (word 0x34 [(17, 3), (7, 31), (6, 1)]) {} stHold).put (AX_PITQ_LVL_LEVEL 0) 5)).engine 0).reg 3 = 5 := by
  decide +kernel
theorem test_wrv :
    let s := serving (word 0x35 [(18, 2)]) snapped stHold
    s.vectorInTime 0 (s.engine 0) ((s.engine 0).timeAt 8) = true ∧ s.localChans 0 = [0, 1, 2, 3] ∧
    ((after (.wrv 0) s).chan 3).want = 1 ∧ ((after (.wrv 0) s).engine 0).wrote = true ∧ trapAfter (.wrv 0) (word 0x35 []) {} = 2 := by
  decide +kernel
theorem test_wra : ((after (.wra 0) (serving (word 0x36 [(17, 1)]) { g := [(1, 0x12345)] } stHold)).engine 0).angle = some 0x2345 := by
  decide +kernel
theorem test_cap :
    ((after (.cap 0) ((serving (word 0x37 [(17, 3), (14, 2), (9, 31)]) {} stHold).put (CAP_CTRL_COUNT 2) 6)).engine 0).reg 3 = 65542 := by
  decide +kernel
theorem test_trc :
    let s := (running (word 0x38 [(17, 1), (14, 5)]) { g := [(1, 9)], trNext := 4095 }).put (KE_TRCFG_STATE 0) 1
    tabGet (fun _ => 0) ((after (.trc 0) s).engine 0).trace 4095 = 9 + 13 * 2 ^ 32 ∧ ((after (.trc 0) s).engine 0).trNext = 0 := by
  decide +kernel
theorem test_flt :
    let s := serving (word 0x39 [(17, 1), (14, 0)]) {} stHold
    s.fltSource 0 0 = some 264 ∧ (after (.flt 0) s).get (FLT_SRC_SEEN 264) = 1 := by decide +kernel
theorem test_evt :
    (after (.evt 0) (running (word 0x3A [(17, 1)]) { g := [(1, 9)], evts := 1 })).log.offers.length = 1 ∧
    ((after (.evt 0) (running (word 0x3A [(17, 1)]) { evts := 2 })).engine 0).estat.testBit 1 = true := by decide +kernel
theorem test_sgn :
    ((after (.sgn 0) (running (word 0x3B [(17, 1), (12, 2), (10, 1)]) { g := [(1, 0x100), (2, 19)] })).engine 0).outbox =
      [⟨19, 1, none, 0, List.replicate 8 0⟩] ∧
    trapAfter (.sgn 0) (word 0x3B [(17, 1), (12, 2)]) { g := [(2, 20)] } = 2 ∧
    ((after (.sgnR 0) (running (word 0x3B [(17, 1), (12, 2), (9, 1)]) { g := [(1, 0x100)], boxes := [(0, (List.replicate 8 5, 3))] })).engine
      0).reg 2 = 3 ∧
    (after (.sgnR 0) (running (word 0x3B [(17, 1), (12, 2), (9, 1)]) { g := [(1, 0x100)], boxes := [(0, (List.replicate 8 5, 3))] })).dataWord 0
      0x47 = 5 := by decide +kernel
theorem test_mailbox :
    let s := (running 0 { outbox := [⟨1, 2, none, 0, List.replicate 8 6⟩] }).put (KE_STATUS_POOL 1) 1
    ((after (.mailboxDelivery 0) s).engine 0).outbox = [] ∧
    tabGet (fun _ => (List.replicate 8 (0 : Word), 0)) ((after (.mailboxDelivery 0) s).engine 1).boxes 2 = (List.replicate 8 6, 1) := by
  decide +kernel
theorem test_ckp :
    ((after (.ckp 0) (serving (word 0x3C []) { route := some {}, snap := { spTick := 7 } } stHold)).ckp 0 0).pend.map (fun p => p.2.1) = some 7 := by decide +kernel
theorem test_special :
    regAfter (.mfs 0) (word 0x3D [(17, 3), (0, 7)]) { sat := 5 } 3 = 5 ∧ trapAfter (.mfs 0) (word 0x3D [(0, 0x0E)]) {} = 2 ∧
    ((after (.mts 0) (running (word 0x3E [(17, 1), (0, 7)]) { g := [(1, 0x30003)] })).engine 0).sat = 3 ∧
    ((after (.mts 0) (running (word 0x3E [(17, 1), (0, 9)]) { g := [(1, 0x81)] })).engine 0).pred 7 = true ∧
    trapAfter (.mts 0) (word 0x3E [(0, 0x0E)]) {} = 2 := by decide +kernel
/-! ### Bridges and comparators: slot 0 is local and in HOLD, group 0 runs -/

/-- Slot 0 local in HOLD, its group's counter running with K = 2, channel 0 in this mode with this record. -/
def bridged (mode : Nat) (x : PwmChan) : State :=
  let s := ((slotIn 1 stHold).put (PWMG_STAT_RUN 0) 1).put (PWMG_CFG_K 0) 2
  { (((s.put (PWMG_PER_PER 0) 3125).put (PWMG_CFG_DT 0) 10).put (PWM_STAT_MODE 0) mode).setChan 0 x with tickLeft := true }
theorem test_carrier :
    let s := bridged mSwitch {}
    (s.nextValley 0 0).1.valley = 50000 ∧ max s.now (50000 / 2) < s.tickNext ∧ s.chanUsed 0 = true ∧
    ((after (.carrierValley 0 0) s).group 0).idx = 1 ∧ (after (.carrierValley 0 0) s).now = 25000 ∧
    ((after (.carrierPeak 0) s).group 0).down = true ∧ (after (.carrierPeak 0) s).now = 12500 := by decide +kernel
theorem test_carrier_stop :
    let s := { (rs.put (PWMG_STAT_RUN 0) 1).put (PWMG_PER_PER 0) 3125 with tickLeft := true }
    (groupChans 0).any s.chanRuns = false ∧ (after (.carrierValley 0 0) s).get (PWMG_STAT_RUN 0) = 0 := by decide +kernel
theorem test_carrier_tick :
    let s := (bridged mSwitch {}).setGroup 0 { idx := 1, valley := 240000 }
    s.tickNext ≤ max s.now ((s.nextValley 0 0).1.valley / 2) ∧ after (.carrierValley 0 0) s = s := by decide +kernel
theorem test_carrier_highon :
    let s := (bridged mSwitch { want := 1 }).put (PWM_CMPN_CMPN 0) 25000
    (∀ m < 16, s.calDrives m = false) ∧ (after (.carrierValley 0 0) s).get (PWM_STAT_MODE 0) = mHighon ∧
    ((after (.carrierValley 0 0) s).chan 0).pulse = some 50000 ∧ (after (.carrierValley 0 0) s).get (PWM_CARRY_V 0) = 0 := by decide +kernel
theorem test_counterStart :
    let s := { (slotIn 1 stHold) with tickLeft := true }
    (groupChans 0).any s.chanRuns = true ∧ (after (.counterStart 0) s).get (PWMG_STAT_RUN 0) = 1 ∧
    after (.counterStart 1) s = s := by decide +kernel
/-- The high side of channel 0 is on and to stay on; group 0 is a bootstrap group and refreshes after five periods. -/
def longHigh : State :=
  (((bridged mSwitch { h := { on := true }, skip := true, noLow := 5 }).put (PWMG_STAT_BOOT 0) 1).put (PWMG_REFR_REFRESHN 0) 5).put
    (PWMG_REFR_TREFRESH 0) 10
theorem test_refresh :
    ((after (.refreshInsert 0) longHigh).chan 0).h.on = false ∧ ((after (.refreshInsert 0) longHigh).chan 0).incoming = some false ∧
    ((after (.refreshInsert 0) longHigh).chan 0).deadAt = 50000 - 40 - 80 + 80 ∧
    (after (.refreshInsert 0) (longHigh.put (PWMG_REFR_REFRESHN 0) 6)) = longHigh.put (PWMG_REFR_REFRESHN 0) 6 := by decide +kernel
theorem test_commutation :
    let s := (bridged mSwitch { l := { on := true }, edges := [(200, true)] }).put (GD_CHSTAT_VHOK 0 0) 1
    ((after (.commutation 0 (.edge true)) s).chan 0).incoming = some true ∧ ((after (.commutation 0 (.edge true)) s).chan 0).l.on = false ∧
    ((after (.commutation 0 (.edge true)) s).chan 0).deadAt = 280 ∧
    ((after (.commutation 0 .deadEnd) (after (.commutation 0 (.edge true)) s)).chan 0).h.on = true ∧
    (after (.commutation 0 .deadEnd) (after (.commutation 0 (.edge true)) s)).now = 140 := by decide +kernel
/-- The high side of channel 0 is to turn on, its VH comparator armed below the threshold. -/
def starved : State := (bridged mSwitch { incoming := some true, vhArmed := true }).put (PWMG_STAT_BOOT 0) 1
theorem test_commutation_vh : starved.vhArmed 0 = true ∧ starved.get (GD_CHSTAT_VHOK 0 0) = 0 ∧
    (after (.commutation 0 .deadEnd) starved).get (GD_CHSTAT_VHUV 0 0) = 1 ∧
    ((after (.commutation 0 .deadEnd) starved).chan 0).h.on = false :=
  ⟨by decide +kernel, by decide +kernel, by decide +kernel, by decide +kernel⟩
theorem test_pwmgConfig :
    rs.groupUsed 1 = false ∧ (bridged mSwitch {}).groupUsed 0 = true ∧
    (after (.pwmgConfigWrite 0 .cfg 2) (bridged mSwitch {})).get (PWMG_STAT_REFUSED 0) = 1 ∧
    (after (.pwmgConfigWrite 1 .cfg 0x01001404) rs).get (PWMG_PER_PER 1) = perOf rs.period 4 ∧
    (after (.pwmgConfigWrite 1 .cfg 65) rs).get (PWMG_STAT_REFUSED 1) = 1 ∧
    (after (.pwmgConfigWrite 1 .phofs 249999) rs).get (PWMG_PHOFS_PHOFS 1) = 249999 ∧
    (after (.pwmgConfigWrite 1 .phofs 250000) rs).get (PWMG_STAT_REFUSED 1) = 1 ∧
    (after (.pwmgConfigWrite 1 .refr 0xA01) rs).get (PWMG_REFR_TREFRESH 1) = 10 := by decide +kernel
/-- The high side of channel 0 is on, well past its blanking; one hard sample has been seen. -/
def conducting (x : Gate) : State := { bridged mSwitch { h := { x with on := true } } with now := 100000 }
theorem test_shortCircuit :
    let s := conducting { hard := [true] }
    let u := s.toSample 0
    u.scDecide 0 100000000 0 = .trip ∧ (u.sampleGate 0 true 100000000).hardHit = true ∧
    (after (.shortCircuitTrip 0 100000000 0) s).get (GD_CHSTAT_TRIPPED 0 0) = 1 ∧
    (after (.shortCircuitTrip 0 100000000 0) s).get (GD_CHSTAT_HARDH 0 0) = 1 := by decide +kernel
theorem test_monitored :
    let s := { (bridged mSwitch { h := { on := true, main := List.replicate 6 true, scf := 0x0001533E } }).put (CMP_SCF_MON 0) 1 with now := 100000 }
    (s.toSample 0).scDecide 0 100000000 0 = .monitored ∧ (after (.monitoredDecision 0 100000000 0) s).get (CMP_SST_MSEENH 0) = 1 := by
  decide +kernel
theorem test_comparator :
    let s := conducting {}
    (s.toSample 0).scDecide 0 0 0 = .none ∧ ((after (.comparatorSample 0 0 0) s).chan 0).h.hard = [false] ∧
    (after (.comparatorSample 0 0 0) s).now = max s.now (s.sampleTime 0) ∧ after (.shortCircuitTrip 0 0 0) s = s ∧
    (after (.cmpScfWrite 0 0x7705) rs).rd (CMP_SCF 0) = 0x7705 ∧ (after (.cmpScfWrite 0 0x1105) rs).rd (CMP_SCF 0) = 0x1105 ∧
    (after (.cmpScfWrite 0 0x1205) rs).get (CMP_SST_REFUSED 0) = 1 ∧ (after (.cmpScfWrite 0 0x7005) rs).get (CMP_SST_REFUSED 0) = 1 := by
  decide +kernel
/-- Window `k` about to change: its history shows the other level. -/
def ripe (s : State) (k : Nat) (outside : Bool) : State := s.setWindow k { hist := List.replicate 6 (!outside, outside), outside := outside }
theorem test_windows :
    (after (.windowSample (.vgd 0) 20000) rs).now = 0 ∧ (after (.windowSample (.vgd 0) 20000) { rs with now := 1 }).now = 1000 ∧
    (((ripe rs (winLo 0) false).toWindow (.supply 0)).monChanges (.supply 0) (-1) = [(winLo 0, true)] ∧
      ((after (.windowExcursion 0 (-1)) (ripe rs (winLo 0) false)).window (winLo 0)).outside = true) ∧
    (((ripe rs (winVgd 0) true).toWindow (.vgd 0)).monChanges (.vgd 0) 20000 = [(winVgd 0, false)] ∧
      ((after (.windowReturn (.vgd 0) 20000) (ripe rs (winVgd 0) true)).window (winVgd 0)).outside = false) := by decide +kernel
theorem test_gateTrips :
    (let s := ripe (bridged mSwitch {}) (winVgd 0) false
     (s.toWindow (.vgd 0)).monChanges (.vgd 0) 0 = [(winVgd 0, true)] ∧ s.armed 0 = true ∧
     (after (.vgdUndervoltageTrip 0 0) s).get (GD_CHSTAT_TRIPPED 0 0) = 1) ∧
    (let s := ripe (bridged mSwitch {}) (winOt 0) false
     (s.toWindow (.die 0)).monChanges (.die 0) 500 = [(winOt 0, true)] ∧ (after (.overTemperatureTrip 0 500) s).get (GD_CHSTAT_OT 0 3) = 1) := by
  decide +kernel
theorem test_vhTrips :
    let s := (bridged mSwitch { vhArmed := true, incoming := some true }).put (PWMG_STAT_BOOT 0) 1
    s.vhArmed 0 = true ∧ (after (.vhUndervoltageTrip 0 0 true) s).get (GD_CHSTAT_VHUV 0 0) = 1 ∧
    (let s := ripe s (winVh 0) false
     (s.toWindow (.vh 0)).vhArmedNow 0 = true ∧ (s.toWindow (.vh 0)).monChanges (.vh 0) 0 ≠ [] ∧
       (after (.vhUndervoltageTrip 0 0 false) s).get (GD_CHSTAT_TRIPPED 0 0) = 1) := by decide +kernel
theorem test_monWrites :
    (filtOk 0x11111111 = true ∧ (after (.monFiltWrite 0x11111111) rs).rd MON_FILT = 0x11111111) ∧
    (filtOk 0 = false ∧ (after (.monFiltWrite 0) rs).get MON_ST_REFUSED = 1) ∧
    (after (.monThrWrite 3 0x00020001) rs).rd (MON_THR 3) = 0x00020001 ∧ (after (.monThrWrite 3 0x00010001) rs).get MON_ST_REFUSED = 1 ∧
    (rs.get BLY_CFG_THR * 100 < 30000 ∧ (after (.monThrWrite 4 (BitVec.ofNat 32 (30000 * 65536))) rs).get (MON_THR_HI 4) = 30000) := by
  decide +kernel
/-! ### Converters and feedback ports -/

/-- Sense channel 0 and bus channel 32 have settled, with k_H of sense channel 0 at one and filters that average eight clocks. -/
def settled : State :=
  let s := ((((rs.put (DEC_ST_VALID 0) 1).put (DEC_ST_VALID 32) 1).put (SNS_KH_V 0) 65536).put (SNS_KL_V 0) 0).put (DEC_CFG_ORD 0) 1
  (((((s.put (DEC_CFG_OSR 0) 8).put (DEC_CFG_L 0) 1).put (DEC_CFG_ORD 32) 1).put (DEC_CFG_OSR 32) 8).put (DEC_CFG_L 32) 1)
theorem test_decimated :
    (let t := after (.decimatedOutput 0 [] [] 0 2000000 0) settled
     settled.bly.shed = false ∧ settled.decApply 0 = settled ∧ settled.get (DEC_ST_VALID 0) = 1 ∧ (t.dec 0).val = 2 ∧
     t.get (SNS_I_V 0) = 2 ∧ t.get (DEC_OVRCNT_V 0) = 0 ∧ t.get (SNS_WD_V 0) = 0xFFFF) ∧
    (let t := after (.decimatedOutput 0 [] [] 0 9000000 0) settled
     (clockValues (heldValues [] 0 9000000) (settled.decOsr 0)).any (overloaded 0) = true ∧ t.get (DEC_OVRCNT_V 0) = 1 ∧ t.get (DEC_ST_OVRH 0) = 1) ∧
    (rs.get (DEC_ST_VALID 31) = 0 ∧ (after (.decimatedOutput 31 [] [] 0 1000 9000000) rs).get (DEC_OVRCNT_V 31) = 1 ∧
     (after (.decimatedOutput 31 [] [] 0 1000 9000000) rs).rd (SNS_I 31) = rs.rd (SNS_I 31)) ∧
    ((after (.decimatedOutput 32 [] [] 0 48000 0) settled).rd (DEC_VAL 32) = 48000 ∧
     (after (.decimatedOutput 32 [] [] 0 102401 0) settled).rd (DEC_VAL 32) = 102400 ∧
     (after (.decimatedOutput 32 [102401] [] 1 0 0) settled).get (DEC_OVRCNT_V 32) = 1 ∧
     (after (.decimatedOutput 32 [] [] 0 (-5) 0) settled).rd (DEC_VAL 32) = 0) ∧
    (let t := after (.decCfgWrite 0 0x084001#32) settled
     settled.decUsed 0 = false ∧ t.rd (DEC_CFG 0) = 0x084001#32 ∧ t.decOsr 0 = 8 ∧ (t.dec 0).old.isSome = true ∧
     (after (.decimatedOutput 0 [] [] 0 0 0) { t with now := 5 }).get (DEC_ST_VALID 0) = 0) ∧
    ((after (.decCfgWrite 35 0x074001#32) rs).get (DEC_ST_REFUSED 35) = 1 ∧ (after (.decCfgWrite 35 0x1010101#32) rs).get (DEC_ST_REFUSED 35) = 1 ∧
     (slotIn 1 stHold).decUsed 32 = true ∧ (after (.decCfgWrite 32 0x084001#32) (slotIn 1 stHold)).get (DEC_ST_REFUSED 32) = 1) ∧
    ((rs.dec 0).old = none ∧ (after (.decSettled 0) rs).get (DEC_ST_VALID 0) = 1 ∧ (after (.decSettled 0) rs).now = rs.settleTime 0) ∧
    ((after (.busWinWrite 3 0x00020001#32) rs).rd (BUS_WIN 3) = 0x00020001#32 ∧
     (after (.busWinWrite 3 0x00020002#32) rs).get (DEC_ST_REFUSED 35) = 1) ∧
    (let s : State := { rs with bly := { rs.bly with shed := true } }
     (after (.decimatedOutput 0 [] [] 0 2000000 0) s).now = 0 ∧ s.up = true) := by decide +kernel

/-- The housekeeping converter runs its sequence and converts entry `e`. -/
def converting (e : Nat) : State :=
  let s := (((rs.put HKC_CTRL_RUN 1).put HKC_ST_REFSETTLED 1).put HKC_SEQCFG_LEN 16).put HKC_ST_ENTRY e
  { s with hkc := { s.hkc with conv := 1, injRun := false } }
theorem test_housekeepingRun :
    (rs.get HKC_ST_STOPPING = 0 ∧ rs.get HKC_CTRL_RUN = 0 ∧ (after (.hkcRun true) (rs.put HKC_ST_ENTRY 3)).get HKC_CTRL_RUN = 1 ∧
     (after (.hkcRun true) (rs.put HKC_ST_ENTRY 3)).get HKC_ST_ENTRY = 0 ∧ (after (.hkcRun true) (rs.put HKC_WIDX_V 3)).get HKC_WIDX_V = 0) ∧
    ((after (.hkcRun true) (rs.put HKC_ST_STOPPING 1)).get HKC_ST_ENABLEPENDING = 1 ∧
     (after (.hkcRun true) (rs.put HKC_ST_STOPPING 1)).get HKC_CTRL_RUN = 0) ∧
    ((after (.hkcRun false) (converting 0)).get HKC_CTRL_RUN = 0 ∧ (after (.hkcRun false) (converting 0)).get HKC_ST_STOPPING = 1 ∧
     (after (.hkcRun false) (converting 0)).hkc = (converting 0).hkc) ∧
    ((rs.put HKC_CTRL_RUN 1).hkc.conv = 0 ∧ (after (.hkcRun false) (rs.put HKC_CTRL_RUN 1)).get HKC_CTRL_RUN = 0 ∧
     (after (.hkcRun false) (rs.put HKC_CTRL_RUN 1)).get HKC_ST_STOPPING = 0) ∧
    ((after .isw rs).hkc.trig = [0] ∧ (after .hkcInjectedTrigger (after .isw rs)).get HKC_IMISS_V = 1 ∧
     (after .hkcInjectedTrigger (after .isw rs)).hkc.trig = []) ∧
    (let s := rs.put HKC_CTRL_RUN 1
     let s : State := { s with hkc := { s.hkc with trig := [7, 12], injRun := true, injPend := none } }
     s.get HKC_CAL_BUSY = 0 ∧ (after .hkcInjectedTrigger s).hkc.injPend = some 7 ∧ (after .hkcInjectedTrigger s).get HKC_ST_INJ = 1 ∧
     (after .hkcInjectedTrigger s).get HKC_IMISS_V = 0 ∧ (after .hkcInjectedTrigger s).hkc.trig = [12]) ∧
    (let s := (converting 3).put HKC_SEQCFG_ILEN 1
     let s : State := { s with now := 1000, hkc := { s.hkc with trig := [1000] } }
     s.hkc.injRun = false ∧ s.hkc.start / 5 ≠ 200 ∧ s.hkcEnd / 5 ≠ 200 ∧ (after .hkcInjectedTrigger s).get HKC_ABORT_V = 1 ∧
     (after .hkcInjectedTrigger s).hkc.conv = 2 ∧ (after .hkcInjectedTrigger s).rd64 HKC_ITIME = 1000) ∧
    ((converting 15).hkc.conv = 1 ∧ (converting 15).get HKC_ST_ENTRY = 15 ∧ (converting 0).get HKC_ST_ENTRY = 0 ∧
     after (.hkcConversionDone 100) rs = rs) ∧
    ((after (.ridxWrite 5#32) (rs.put HKC_WIDX_V 5)).rd HKC_RIDX = 5#32 ∧ (after (.ridxWrite 0#32) rs).rd HKC_RIDX = 0#32) ∧
    (signedOf 32 ((0xFFFFFFFF#32).toNat + 2 ^ 32 - rs.get HKC_RIDX_V) < 0 ∧ (after (.ridxWrite 0xFFFFFFFF#32) rs).get HKC_ST_RIDXERR = 1 ∧
     (after (.ridxWrite 0xFFFFFFFF#32) rs).rd HKC_RIDX = 0#32 ∧ (after (.ridxWrite 6#32) (rs.put HKC_WIDX_V 5)).get HKC_ST_RIDXERR = 1) := by decide +kernel
theorem test_housekeepingSetup :
    (rs.hkcStoppedNow = true ∧ (after (.hkcRefWrite 0x03E80001#32) rs).rd HKC_REF = 0x03E80001#32 ∧
     (after (.hkcRefWrite 0x03E80001#32) rs).get HKC_ST_REFSETTLED = 0 ∧ (after (.hkcRefWrite 0x09C40002#32) rs).get HKC_CAL_STALE = 1) ∧
    ((after (.hkcRefWrite 0x03E80003#32) rs).get HKC_ST_REFUSED = 1 ∧ (after (.hkcRefWrite 0x03E80003#32) rs).rd HKC_REF = rs.rd HKC_REF ∧
     (converting 0).hkcStoppedNow = false ∧ (after (.hkcRefWrite 0x03E80001#32) (converting 0)).get HKC_ST_REFUSED = 1) ∧
    (rs.get HKC_ST_REFSETTLED = 0 ∧ rs.hkc.autoCal = false ∧ (after .refSettled rs).get HKC_ST_REFSETTLED = 1 ∧ (after .refSettled rs).get HKC_CAL_BUSY = 1) ∧
    ((after .hkcCalGo (rs.put HKC_ST_REFSETTLED 1)).get HKC_CAL_BUSY = 1 ∧ (after .hkcCalGo rs).get HKC_ST_REFUSED = 1 ∧
     (after .hkcCalGo rs).get HKC_CAL_BUSY = 0) ∧
    (calRangeOk 83886 1073741824 = true ∧ calRangeOk (-83886) 1105954078 = true ∧ calRangeOk 83887 1073741824 = false ∧
     calRangeOk 0 1105954079 = false) ∧
    ((rs.put HKC_CAL_BUSY 1).bit HKC_CAL_BUSY = true ∧
     after (.hkcCalibrationDone (-83886) 1073741824 0 1073741824 0 1073741824 0 1105954078) rs = rs) ∧
    (hkcCfgReg (0x288000 + 4 * 3) = true ∧ rs.hkcValueOk 0x28800C 0x04000110#32 = true ∧
     (after (.hkcConfigWrite 3 0x04000110#32) rs).rd 0x28800C = 0x04000110#32 ∧ rs.hkcValueOk 0x28800C 0x05000110#32 = false ∧
     (after (.hkcConfigWrite 3 0x05000110#32) rs).get HKC_ST_REFUSED = 1 ∧
     (after (.hkcConfigWrite 3 0x04000110#32) (converting 0)).get HKC_ST_REFUSED = 1) := by decide +kernel

/-- Feedback port 0 in mode `m` with a filter of two clocks; A changed long ago. -/
def fbMode (m : Nat) : State := { ((rs.wr (FB_CFG 0) (BitVec.ofNat 32 m)).put (FB_CFG_FILT 0) 2).setLine 0 ⟨false, 1⟩ with now := 1000, setNow := [] }
theorem test_feedbackCounts :
    (let s := fbMode 1
     fieldOf (s.rdStart (FB_CFG 0)) (FB_CFG_MODE 0) = 1 ∧ s.lineTakes 0 2 true = true ∧ (s.line 1).lvl = false ∧
     (after (.quadratureCount 0 true true) s).rd64 (FB_CNT 0) = 0) ∧
    (let s := (fbMode 1).setLine 0 ⟨false, 992⟩
     s.lineTakes 0 2 true = false ∧ (after (.quadratureCount 0 true false) s).rd64 (FB_CNT 0) = 0) ∧
    (let s : State := { (((fbMode 1).put (FB_CFG_ZLAT 0) 1).wr64 (FB_CNT 0) 77) with setNow := [] }
     s.lineTakes 2 2 true = true ∧ (after (.zLatch 0 true) s).rd64 (FB_ZCNT 0) = 77 ∧ (after (.zLatch 0 true) s).get (FB_ST_ZSEEN 0) = 1) ∧
    (let s := (fbMode 2).setFb 0 { uvw := 5 }
     uvwPlace 1 = some 0 ∧ uvwPlace 5 = some 5 ∧ (after (.magneticSwitchCount 0 true true true) s).rd64 (FB_CNT 0) = 0 ∧
     ((after (.magneticSwitchCount 0 true true true) s).fb 0).jump = true ∧
     ((after (.magneticSwitchCount 0 false true false) s).fb 0).jump = true ∧
     ((after (.magneticSwitchCount 0 false true false) s).fb 0).uvw = 5) ∧
    (let s := (((fbMode 3).put (FB_SSI_BITS 0) 8).put (FB_SSI_GRAY 0) 0).setFb 0 { busy := true }
     (s.fb 0).busy = true ∧ s.get (FB_CFG_MODE 0) = 3 ∧ ((after (.ssiFrameDone 0 0x1FF) s).fb 0).raw = 0xFF ∧
     ((after (.ssiFrameDone 0 0x1FF) s).fb 0).busy = false ∧ (after (.ssiFrameDone 0 0x1FF) s).rd64 (FB_CNT 0) = 2 ^ 64 - 1) ∧
    (let s := (((fbMode 3).put (FB_SSI_BITS 0) 8).put (FB_SSI_GRAY 0) 1).setFb 0 { busy := true }
     ((after (.ssiFrameDone 0 0x1FF) s).fb 0).raw = 0xAA) ∧
    (let s := (((fbMode 3).put (FB_SSI_BITS 0) 8).put (FB_SSI_GRAY 0) 0).setFb 0 { busy := true, first := false, raw := 255 }
     (after (.ssiFrameDone 0 0xFF) s).rd64 (FB_CNT 0) = 0 ∧ (s.fb 0).first = false) := by decide +kernel
theorem test_feedbackConfig :
    (fbValueOk 7 .cfg 4#32 = false ∧ (after (.fbConfigWrite 7 .cfg 4#32) rs).get (FB_ST_REFUSED 7) = 1 ∧
     (after (.fbConfigWrite 7 .auden 0#32) rs).get (FB_ST_REFUSED 7) = 1) ∧
    (let s := (slotIn 1 stHold).put (AX_BIND_FBEN 0) 1
     s.portUsed 0 = true ∧ (after (.fbConfigWrite 0 .aunum 4#32) s).get (FB_ST_REFUSED 0) = 1) ∧
    (fbValueOk 7 .cfg 3#32 = true ∧ rs.portUsed 7 = false ∧ fieldOf 3#32 (FB_CFG_MODE 7) ≠ rs.get (FB_CFG_MODE 7) ∧
     (after (.fbConfigWrite 7 .cfg 3#32) (rs.wr64 (FB_CNT 7) 5)).rd (FB_CFG 7) = 3#32 ∧
     (after (.fbConfigWrite 7 .cfg 3#32) (rs.wr64 (FB_CNT 7) 5)).rd64 (FB_CNT 7) = 0) ∧
    ((after (.fbConfigWrite 7 .auden 9#32) (rs.wr64 (FB_CNT 7) 5)).rd (FB_AUDEN 7) = 9#32 ∧
     (after (.fbConfigWrite 7 .auden 9#32) (rs.wr64 (FB_CNT 7) 5)).rd64 (FB_CNT 7) = 5) := by decide +kernel
/-- Slot 0 follows step input 0 in this mode. -/
def following (m : Nat) : State := { ((slotIn 4 stHold).put (AX_MCFG_SRC 0) 1).put (SI_CFG_MODE 0) m with setNow := [] }
theorem test_stepPorts :
    (let s := following 1
     s.lineTakes 32 (fieldOf (s.rdStart (SI_CFG 0)) (SI_CFG_FILT 0)) true = true ∧ s.get (SI_CFG_EDGE 0) = 0 ∧
     (after (.stepInputPulse 0 false true true) s).get (SI_CNT_V 0) = 1 ∧
     ((after (.stepInputPulse 0 false true true) s).gen 0).gearCount = (s.gen 0).gearCount + 1 ∧
     ((after (.stepInputPulse 0 false true false) s).gen 0).gearCount = (s.gen 0).gearCount - 1 ∧
     ((after (.stepInputPulse 0 false true false) s).gen 15).gearCount = (s.gen 15).gearCount ∧
     (after (.stepInputPulse 0 false true false) s).get (SI_CNT_V 0) = 2 ^ 32 - 1 ∧
     (after (.stepInputPulse 0 false false false) s).get (SI_CNT_V 0) = 0) ∧
    ((after (.stepInputPulse 0 true true false) (following 2)).get (SI_CNT_V 0) = 2 ^ 32 - 1 ∧
     (after (.stepInputPulse 0 false true false) (following 2)).get (SI_CNT_V 0) = 1) ∧
    ((after (.siCfgWrite 7 0x3F0E#32) rs).rd (SI_CFG 7) = 0x3F0E#32 ∧ fieldOf 3#32 (SI_CFG_MODE 7) = 3 ∧
     (after (.siCfgWrite 7 3#32) rs).get (SI_ST_REFUSED 7) = 1) ∧
    (fieldOf 0x1900#32 (SO_CFG_DSU 7) = 25 ∧ (after (.soCfgWrite 7 0x1900#32) rs).rd (SO_CFG 7) = 0x1900#32 ∧
     (after (.soCfgWrite 7 0x1800#32) rs).get (SO_ST_REFUSED 7) = 1) := by decide +kernel

/-- Compare output 0 armed on the counted position of slot 0, which went from 5 to 6, with the comparison at 6. -/
def atCompare : State :=
  let s := ((slotIn 1 stRun).put (AX_MCFG_CAPSRC 0) 1).put (AX_BIND_FBEN 0) 1
  let s := (((s.put (FB_AUNUM_V 0) 1).put (FB_AUDEN_V 0) 1).wr64 (FB_CNT 0) 6).wr64 (PCO_POS 0) 6
  ((s.put (PCO_CTRL_ARMED 0) 1).put (PCO_CFG_DIR 0) 2).setPco 0 { prev := some 5 }
/-- Capture input 7 with these edges selected. -/
def capturing (sel : Nat) : State := { rs.put (CAP_CFG_EDGE 7) sel with now := 1000, setNow := [] }
theorem test_captures :
    (let s := capturing 1
     s.lineTakes 55 0 true = true ∧ tabGet (fun _ => 0) s.capAt 7 = 0 ∧ fieldOf (s.rdStart (CAP_CFG 7)) (CAP_CFG_EDGE 7) = 1 ∧
     (s.lineSet 55 0 true).line 55 = ⟨true, 1001⟩) ∧
    (let s : State := { (((capturing 2).put (CAP_CFG_LOCK 7) 1).put (CAP_CTRL_HELD 7) 1).setLine 55 ⟨true, 1⟩ with setNow := [] }
     s.lineTakes 55 0 false = true ∧ (after (.captureEdge 7 false) s).get (CAP_MISS_V 7) = 1 ∧
     (after (.captureEdge 7 false) s).get (CAP_CTRL_COUNT 7) = 0 ∧ (after (.release 7) s).get (CAP_CTRL_HELD 7) = 0) ∧
    ((after (.captureEdge 7 false) (capturing 1)).get (CAP_CTRL_COUNT 7) = 0 ∧ (after (.captureEdge 7 true) (capturing 0)).get (CAP_CTRL_COUNT 7) = 0) := by decide +kernel
theorem test_compare :
    (rs.get (PCO_CFG_REPEAT 3) = 0 ∧ ((after (.arm 3) rs).pco 3).armReq = true ∧
     (after (.arm 3) (rs.put (PCO_CFG_REPEAT 3) 1)).get (PCO_CTRL_REFUSED 3) = 1) ∧
    ((after (.disarm 3) (rs.put (PCO_CTRL_ARMED 3) 1)).get (PCO_CTRL_ARMED 3) = 0 ∧ (after (.force 3) rs).get (PCO_CTRL_ACTIVE 3) = 1 ∧
     (after (.force 3) (rs.put (PCO_FIRES_V 3) (2 ^ 32 - 1))).get (PCO_FIRES_V 3) = 0 ∧
     (after (.force 3) (rs.put (PCO_CTRL_ARMED 3) 1)).get (PCO_CTRL_ARMED 3) = 0 ∧
     (after (.force 3) (rs.put (PCO_CTRL_ACTIVE 3) 1)).get (PCO_CTRL_REFUSED 3) = 1) ∧
    (atCompare.pcoCrossing 0 0 = true ∧ atCompare.pcoCrossing 0 40 = true ∧ atCompare.pcoCrossing 0 41 = false) ∧
    ((after (.compareFire 0 40) atCompare).get (PCO_CTRL_ACTIVE 0) = 1 ∧ (after (.compareFire 0 40) atCompare).get (PCO_CTRL_ARMED 0) = 0 ∧
     (after (.compareFire 0 40) atCompare).rd64 (PCO_FTIME 0) = 40 ∧ (after (.compareFire 0 40) atCompare).get (PCO_FIRES_V 0) = 1) ∧
    (let s := atCompare.put (PCO_CTRL_ACTIVE 0) 1
     (after (.compareFire 0 40) s).get (PCO_MISS_V 0) = 1 ∧ (after (.compareFire 0 40) s).get (PCO_FIRES_V 0) = 0) ∧
    (let s := (rs.put (PCO_CTRL_ACTIVE 3) 1).setPco 3 { endAt := 99 }
     (after (.comparePulseEnd 3) s).get (PCO_CTRL_ACTIVE 3) = 0 ∧ (after (.comparePulseEnd 3) s).now = 99) ∧
    ((after (.pcoConfigWrite 3 (.pos true) 5#32) (rs.put (PCO_CTRL_ARMED 3) 1)).get (PCO_CTRL_REFUSED 3) = 1 ∧
     (after (.pcoConfigWrite 3 .cfg 0x00010020#32) rs).rd (PCO_CFG 3) = 0x00010020#32 ∧
     (after (.pcoConfigWrite 3 .cfg 0x00000020#32) rs).get (PCO_CTRL_REFUSED 3) = 1) := by decide +kernel


/-! ### Current control and the estimator -/

/-- Slot 0 local in state `k` with this record of current control. -/
def slotCc (k : Nat) (x : Cc) : State := (slotIn 1 k).setCc 0 x
/-- Slot 0 local in HOLD with this record of its estimator, in EMODE `m`. -/
def slotPr (m : Nat) (x : Prusik) : State := ((slotIn 1 stHold).put (AX_PR_ST_EMODE 0) m).setPr 0 x
theorem test_ccCfg :
    ((rs.cc 0).cfgNext = none ∧ fieldOf 0x100#32 (AX_CC_CFG_UPD 0) = 0 ∧
     (after (.ccCfgWrite .supervisor 0 (rs.rd (AX_CC_CFG 0) ^^^ 0x00010088#32)) rs).rd (AX_CC_CFG 0) = (rs.rd (AX_CC_CFG 0) ^^^ 0x00010088#32) &&& 0x00FFFFF7#32) ∧
    (let s := (slotIn 1 stHold).put (AX_CC_CFG_MODE 0) 1
     s.get (AX_CC_CFG_MODE 0) ≠ 0 ∧ ((after (.ccCfgWrite .supervisor 0 0) s).cc 0).cfgNext = some 0 ∧ (after (.ccCfgWrite .supervisor 0 0) s).rd (AX_CC_CFG 0) = s.rd (AX_CC_CFG 0)) ∧
    (let s := (slotIn 1 stRun).put (AX_CC_CFG_MODE 0) 1
     (after (.ccCfgWrite .supervisor 0 0) s).get (AX_STATE_ERR 0) = 5 ∧ ((after (.ccCfgWrite .supervisor 0 0) s).cc 0).cfgNext = none) := by decide +kernel
theorem test_calibration :
    (let s := slotIn 1 stIdle
     (after (.ofscal .supervisor 0) s).get (AX_CC_CAL_BUSY 0) = 1 ∧ ((after (.ofscal .supervisor 0) s).cc 0).calKind = 1 ∧
     ((after (.kcal .supervisor 0) s).cc 0).calKind = 2 ∧ s.get (AX_BIND_FBEN 0) = 0 ∧
     (after (.align .supervisor 0) s).get (AX_CC_CAL_FAILCODE 0) = 1) ∧
    (let s := (slotIn 1 stIdle).put (AX_BIND_FBEN 0) 1
     ((after (.align .supervisor 0) s).cc 0).calKind = 3 ∧ (after (.align .supervisor 0) s).get (AX_CC_CAL_BUSY 0) = 1) ∧
    ((after (.ofscal .supervisor 0) (slotIn 1 stHold)).get (AX_STATE_ERR 0) = 5) ∧
    (let s := (slotCc stIdle { calKind := 1 }).put (AX_CC_CAL_BUSY 0) 1
     s.slotChans 0 = [0, 1, 2, 3] ∧ (after (.calibrationDone 0 (List.replicate 4 (0, 0)) false) s).get (AX_CC_CAL_DONE 0) = 1 ∧
     (after (.calibrationDone 0 (List.replicate 4 (0, 0)) false) s).get (AX_CC_CAL_BUSY 0) = 0) ∧
    (let s := (slotCc stIdle { calKind := 2 }).put (AX_CC_CAL_BUSY 0) 1
     (after (.calibrationDone 0 [] true) s).get (AX_CC_CAL_FAILCODE 0) = 2 ∧ (after (.calibrationDone 0 [] true) s).get (AX_CC_CAL_FAIL 0) = 1) := by decide +kernel
theorem test_staging :
    (let s := (slotCc stHold { staged := true, shadow := [(0x204, 7)] }).put (AX_CC_PSTAGE_HOLDW 0) 1
     ((after (.apply .supervisor 0 true) s).cc 0).apply = true ∧ ((after (.apply .supervisor 0 false) s).cc 0).frozen = some [(0x204, 7)]) ∧
    (let s : State := { (slotCc stHold { staged := true, apply := true, shadow := [(0x204, 7)] }).put (AX_CC_PSTAGE_PEND 0) 1 with tickLeft := true }
     s.now = s.tickAt ∧ 0x204 ∈ stagedOffsets ∧ 0x240 ∈ stagedOffsets ∧ 0x244 ∉ stagedOffsets ∧
     (after (.stagedApplyTake 0) s).rd (AX_BIND 0 + 0x204) = 7 ∧ (after (.stagedApplyTake 0) s).get (AX_CC_PSTAGE_PEND 0) = 0) ∧
    (let s : State := { slotCc stHold { apply := true, frozen := some [(0x204, 7)], shadow := [(0x204, 8)] } with tickLeft := true }
     (after (.stagedApplyTake 0) s).rd (AX_BIND 0 + 0x204) = 8 ∧ (after (.stagedApplyTake 0) s).get (AX_CC_PSTAGE_PEND 0) = 0) := by decide +kernel
theorem test_holdRamp :
    (let s := (slotCc stHold { ramp := .delay 3 }).put (AX_CC_HOLD_HOLDDLY 0) 3
     ((after (.holdDlyExpiry 0) s).cc 0).ramp = .fall 0 ∧ after (.holdDlyExpiry 0) (s.put (AX_CC_HOLD_HOLDDLY 0) 4) = s.put (AX_CC_HOLD_HOLDDLY 0) 4) ∧
    (let s := slotCc stHold { ramp := .fall 1 }
     let s := s.put (AX_CC_HOLD_HOLDRAMP 0) 1
     1 ≤ s.rampDone 0 (s.now - s.tickAt) ∧ ((after (.holding 0) s).cc 0).ramp = .held ∧ (after (.holding 0) s).get (AX_CC_ST_HOLDING 0) = 1 ∧
     s.injecting 0 = false ∧ (after (.holding 0) s).get (AX_CC_ST_LOWRATE 0) = 1) := by decide +kernel
theorem test_brake :
    (let s := ((slotIn 1 stHold).put (AX_BRK_ST_BRKWAIT 0) 1).put (AX_CC_ST_HOLDING 0) 1
     let s := ((s.put (KE_STATUS_ROLE 0) 1).put (AX_ENGSEL_CTLEN 0) 1).put (KE_STATUS_POOL 0) 1
     let s := s.setEngine 0 { route := some { factory := 1 } }
     s.ctlFactory 0 = true ∧ s.searchHolds 0 = false ∧ (s.pr 0).blocked = false ∧ (after (.brakeReleaseStart 0) s).get (AX_BRK_ST_BSTATE 0) = 1) ∧
    (let s := ((slotIn 1 stHold).put (AX_BRK_ST_BSTATE 0) 1).put (AX_BRK_T_TPULL 0) 2
     (after (.brakePullEnd 0) s).get (AX_BRK_ST_BSTATE 0) = 2 ∧ (after (.brakePullEnd 0) s).now = 2000000) ∧
    (let s := ((slotIn 1 stShutdown).put (AX_BRK_ST_BSTATE 0) 3).put (AX_BRK_T_TENG 0) 2
     (after (.brakeEngageEnd 0) s).get (AX_BRK_ST_BSTATE 0) = 0 ∧ ((after (.brakeEngageEnd 0) s).cc 0).ramp = .down 0 ∧ (after (.brakeEngageEnd 0) s).now = 2000000) := by decide +kernel
theorem test_search :
    (let s := (slotPr 1 { lockAt := some 5 }).put (AX_PR_CFG_POLEN 0) 1
     (after (.searchLock 0) s).get (AX_PR_ST_EMODE 0) = 2 ∧ (after (.searchLock 0) s).now = 10000005) ∧
    (let s := (slotPr 1 { lockAt := some 5 }).put (AX_PR_CFG_POLEN 0) 0
     s.get (AX_PR_ST_VALID 0) = 0 ∧ s.get (AX_CC_ST_HOLDING 0) = 0 ∧ (after (.searchLock 0) s).get (AX_PR_ST_EMODE 0) = 3) ∧
    (let s := (((slotPr 1 { lockAt := some 5 }).put (AX_PR_CFG_POLEN 0) 0).put (AX_PR_SAL_V 0) 4301).setPr 0 { lockAt := some 5, par := [(0x31C, 0x00010002)] }
     s.prPar 0 (AX_PR_L_LQ 0) < s.prPar 0 (AX_PR_L_LD 0) ∧ ((s.put (AX_PR_ST_EMODE 0) 3).prConditions 0).2 = false ∧ (after (.searchLock 0) s).get (AX_PR_ST_VALID 0) = 1) ∧
    (let s := slotPr 2 { pol := 2, th := 100 }
     3 * (97 + 103) ≤ 200 * ((97 : Int) - 103).natAbs ∧ ((after (.polarityDone 0 97 103) s).pr 0).th = 100 ∧
     ((after (.polarityDone 0 103 97) s).pr 0).th = 32868 ∧ (after (.polarityDone 0 97 103) s).get (AX_PR_ST_EMODE 0) = 3) ∧
    (let s := slotPr 2 { pol := 2, th := 100 }
     200 * ((98 : Int) - 100).natAbs < 3 * (98 + 100) ∧ (after (.polarityDone 0 98 100) s).get (AX_PR_ST_POLFAIL 0) = 1) ∧
    ((after (.searchTimeout 0) (slotPr 1 {})).get (AX_PR_ST_SEARCHFAIL 0) = 1) ∧
    (let s := slotPr 3 { forced := some 5 }
     s.get (AX_BRK_ST_BRKWAIT 0) = 0 ∧ s.get (AX_CC_ST_HOLDING 0) = 0 ∧ ((after (.forcedAlignEnd 0) s).pr 0).forced = none ∧
     (after (.forcedAlignEnd 0) s).now = 200000005 ∧ (s.bit (AX_PR_CFG_INJEN 0) = false → (after (.forcedAlignEnd 0) s).get (AX_PR_ST_EMODE 0) = 7)) ∧
    (let s := slotPr 4 { inj := true, slow := 8 }
     (after (.injectionOff 0) s).get (AX_PR_ST_EMODE 0) = 5 ∧ ((after (.injectionOff 0) s).pr 0).inj = false) ∧
    (let s := slotPr 5 { armed := false, clear_ := 255 }
     max (s.prPar 0 (AX_PR_CFG_REN 0)) 1 ≤ 255 ∧ ((after (.stallRearm 0) s).pr 0).armed = true) ∧
    ((after (.model 0) (slotPr 5 { bad := 8 })).get (AX_PR_ST_MODEL 0) = 1 ∧ after (.model 0) (slotPr 5 { bad := 7 }) = slotPr 5 { bad := 7 }) := by decide +kernel
theorem test_estimator :
    (let s := ((slotPr 5 { good := 64 }).put (AX_PR_ST_FALLBACK 0) 1).put (AX_PR_ST_VALID 0) 1
     let s := s.put (AX_PR_CFG_AUTOCL 0) 1
     s.canResume 0 = true ∧ (after (.autoclReturn 0) s).get (AX_PR_ST_FALLBACK 0) = 0 ∧ (after (.resumecl .supervisor 0) s).get (AX_PR_ST_FALLBACK 0) = 0) ∧
    (rs.canResume 0 = false ∧ (after (.resumecl .supervisor 0) rs).get (AX_STATE_ERR 0) = 5) ∧
    (let s := ((slotIn 1 stHold).put (KE_STATUS_ROLE 1) 2).put (AX_ENGSEL_ESTENG 0) 1
     let s := ((s.put (AX_ENGSEL_ESTEN 0) 1).put (KE_STATUS_POOL 1) 1).setEngine 1 { route := some { factory := 2 } }
     s.usesPrusik 0 = true ∧ s.atRest 0 = true ∧ (after (.research .supervisor 0) s).get (AX_PR_ST_EMODE 0) = 1) ∧
    ((after (.research .supervisor 0) (slotIn 1 stRun)).get (AX_STATE_ERR 0) = 5) ∧
    ((after (.ident .supervisor 0) (slotIn 1 stIdle)).get (AX_PR_CTRL_BUSY 0) = 1) ∧
    (let s := (slotIn 1 stIdle).put (AX_PR_CTRL_BUSY 0) 1
     (after (.identDone 0 3 1 65536 false) s).get (AX_PR_CTRL_FAILCODE 0) = 3 ∧
     (after (.identDone 0 3 1 65535 true) s).get (AX_PR_CTRL_FAILCODE 0) = 2) ∧
    ((after (.prCfgWrite .supervisor 0 0xFFFFFFFF#32) (slotIn 1 stIdle)).rd (AX_PR_CFG 0) = 0x00FFFFFE#32 ∧
     fieldOf 2#32 (AX_PR_CFG_INJEN 0) = 1 ∧ (after (.prCfgWrite .supervisor 0 2#32) ((slotIn 1 stHold).put (AX_PR_CFG_INJEN 0) 0)).get (AX_STATE_ERR 0) = 5) ∧
    (rs.prParamOk 0 1 10#32 = true ∧ (after (.prParamWrite .supervisor 0 1 10#32) rs).rd (AX_PR_CFG 0 + 8) = 10#32 ∧
     rs.prParamOk 0 1 9#32 = false ∧ (after (.prParamWrite .supervisor 0 1 9#32) rs).get (AX_STATE_ERR 0) = 5 ∧
     rs.prParamOk 0 1 1000#32 = true ∧ rs.prParamOk 0 1 1001#32 = false) := by decide +kernel


/-! ### Engines and swaps -/

/-- Engine 0 in run state `r` and pool state `p` with this record. -/
def engineIn (r p : Nat) (x : Engine) : State := ((rs.put (KE_STATUS_RUN 0) r).put (KE_STATUS_POOL 0) p).setEngine 0 x
theorem test_enginePass :
    (let s := engineIn 2 1 { due := some 7, cyc := 3 }
     s.factoryKind 0 = 0 ∧ ((after (.enginePassStart 0) s).engine 0).inPass = true ∧ ((after (.enginePassStart 0) s).engine 0).inst = 7 ∧
     ((after (.enginePassStart 0) s).engine 0).cyc = 0) ∧
    (let s := engineIn 2 1 { due := some 7, inPass := true }
     (after (.enginePassStart 0) s).get (KE_OVERRUN_V 0) = 1) ∧
    (let s := rs.put (KE_STATUS_LOADED 0) 1
     (after (.programMemoryWrite 0 16383 9#32) s).progWord 0 16383 = 9#32 ∧ (after (.programMemoryWrite 0 16383 9#32) s).get (KE_STATUS_LOADED 0) = 0 ∧
     (after (.programMemoryWrite 0 16383 9#32) (engineIn 2 1 {})).get (KE_STATUS_ERR 0) = 1) ∧
    ((after (.dataMemoryWrite 19 8191 9#32) rs).dataWord 19 8191 = 9#32) ∧
    (let t := after (.eccUncorrectable (.engineMem 0 2 16383)) rs
     (∀ n < 16, rs.swapEarly n = false) ∧ t.get (KE_ECC_MEM 0) = 2 ∧ t.rd (KE_ECCADR 0) = 65532#32 ∧ t.get (KE_STATUS_POOL 0) = 3) := by decide +kernel
theorem test_trace :
    ((after (.traceArm 0) rs).get (KE_TRCFG_STATE 0) = 1 ∧ (after (.traceStop 0) (rs.put (KE_TRCFG_STATE 0) 3)).get (KE_TRCFG_STATE 0) = 0) ∧
    (let s := (rs.put (KE_TRCFG_STATE 0) 1).put (KE_TRCFG_POST 0) 9
     (after (.traceForce 0) s).get (KE_TRCFG_STATE 0) = 2 ∧ ((after (.traceForce 0) s).engine 0).trLeft = 9 ∧
     (after (.traceForce 0) s).get (KE_TRPOS_TRIGIDX 0) = 4095) ∧
    ((after (.traceDone 0) (rs.put (KE_TRCFG_STATE 0) 2)).get (KE_TRCFG_STATE 0) = 3) := by decide +kernel
theorem test_load :
    (rs.loadErr 0 0 = 0 ∧ (after (.engineLoad .supervisor 0 0) rs).get (KE_STATUS_RUN 0) = 1 ∧ rs.loadErr 0 255 = 2 ∧
     (after (.engineLoad .supervisor 0 255) rs).get (KE_STATUS_ERR 0) = 2) ∧
    (let s := engineIn 1 0 { loading := some (3, { entry := 5 }) }
     s.engineSlot 0 = none ∧ (after (.loadDone 0) s).get (KE_STATUS_LOADED 0) = 1 ∧ (after (.loadDone 0) s).get (KE_ISA_RIDX 0) = 3) := by decide +kernel
theorem test_start :
    (let s := (engineIn 0 0 { route := some { role := 2, entry := 5 } }).put (KE_STATUS_LOADED 0) 1
     (after (.start .supervisor 0) s).get (KE_STATUS_RUN 0) = 2 ∧ ((after (.start .supervisor 0) s).engine 0).pc = 5) ∧
    (let s := (engineIn 0 0 { route := some { role := 1 } }).put (KE_STATUS_LOADED 0) 1
     (after (.start .supervisor 0) s).get (KE_STATUS_ERR 0) = 6) ∧
    (((after (.haltAction .supervisor 0) (engineIn 2 1 {})).engine 0).halt = true ∧
     (after (.haltAction .supervisor 0) (engineIn 0 3 {})).get (KE_STATUS_ERR 0) = 5 ∧ (after (.start .supervisor 0) (engineIn 0 3 {})).get (KE_STATUS_ERR 0) = 5) := by decide +kernel
theorem test_retire :
    ((after (.retire 19) rs).get (KE_STATUS_POOL 19) = 3 ∧ (after (.retire 19) rs).get ENG_RET_V = 2 ^ 19 ∧ (after (.retire 0) (engineIn 2 1 {})).get ENG_RETCMD_REFUSED = 1) ∧
    (((after (.unretire 0) (engineIn 0 3 {})).engine 0).unret = true ∧ (after (.unretire 20) rs).get ENG_RETCMD_REFUSED = 1 ∧ (after (.unretire 31) rs).get ENG_RETCMD_REFUSED = 1) ∧
    (let s := ((engineIn 0 3 { unret := true }).put ENG_RET_V 1).wrMem (progBase 0 + 0x17FFC) 5
     (after (.unretireDone 0) s).get (KE_STATUS_POOL 0) = 0 ∧ (after (.unretireDone 0) s).rdMem (progBase 0 + 0x17FFC) = 0 ∧
     (after (.unretireDone 0) s).get ENG_RET_V = 0) := by decide +kernel

/-- Engine 0 runs the factory control route of slot 0, which holds; engine 5 is idle. -/
def swappable : State :=
  let s := ((slotIn 1 stHold).put (KE_STATUS_ROLE 0) 1).put (AX_ENGSEL_CTLEN 0) 1
  ((s.put (KE_STATUS_POOL 0) 1).put (KE_STATUS_RUN 0) 2).setEngine 0 { route := some (factoryRouteOf 1) }
theorem test_swapRefusal : swappable.swapRefusal 0 5#32 = 0 := by
  have h1 : swappable.slotState 0 = 2 := by decide +kernel
  have h2 : swappable.get (AX_SWAPST_PHASE 0) = 0 := by decide +kernel
  have h3 : fieldOf 5#32 (AX_SWAP_ROLE 0) = 0 ∧ fieldOf 5#32 (AX_SWAP_TARGET 0) = 5 ∧ fieldOf 5#32 (AX_SWAP_ROUTE 0) = 0 := by decide +kernel
  have h4 : swappable.roleEngine 0 0 = some 0 ∧ swappable.pool 5 = 0 := by decide +kernel
  have h5 : swappable.dirImg 0 = { st := 2, factory := true } ∧ swappable.sigOk { st := 2, factory := true } = true := by decide +kernel
  have h6 : (swappable.engine 0).route = some (factoryRouteOf 1) := rfl
  have h7 : ({ st := 2, factory := true } : Img).route 0 = factoryRouteOf 1 := rfl
  have h8 : (factoryRouteOf 1).isa = 3 := rfl
  simp [State.swapRefusal, h1, h2, h3, h4, h5.1, h5.2, h6, h7, h8, Img.usable]
theorem test_swapGo :
    (swappable.swapRefusal 0 0x14#32 = 4 ∧ (after (.swapGo .supervisor 0 0x14#32) swappable).get (AX_SWAPST_RESULT 0) = 4 ∧
     rs.swapRefusal 0 0#32 = 2 ∧ swappable.swapRefusal 0 0#32 = 4 ∧ swappable.swapRefusal 0 0x105#32 = 6) ∧
    (let s := (swappable.put (AX_SWAPST_PHASE 0) 3)
     s.swapEarly 0 = true ∧ (after (.swapCancel .supervisor 0 0x40#32) s).get (AX_SWAPST_RESULT 0) = 8 ∧ s.swapRefusal 0 5#32 = 3) := by decide +kernel
theorem test_swapPhases :
    ((after (.swapLoadDone 0) (swappable.put (AX_SWAPST_PHASE 0) 1)).get (AX_SWAPST_PHASE 0) = 2) ∧
    (let s := (swappable.put (AX_SWAPST_PHASE 0) 2).setSwap 0 { tgt := 5, ticks := 64 }
     (after (.waitckpTimeout 0) s).get (AX_SWAPST_RESULT 0) = 13 ∧ (after (.waitckpTimeout 0) s).get (AX_SWAPST_PHASE 0) = 0) ∧
    (let s := (swappable.put (AX_SWAPST_PHASE 0) 3).setSwap 0 { tgt := 5, passes := 64 }
     (after (.shadowMismatchEnd 0) s).get (AX_SWAPST_RESULT 0) = 7) ∧
    (let s := (swappable.put (AX_SWAPST_PHASE 0) 3).setSwap 0 { tgt := 5, matched := true, matchAt := 4, vec := [(31, 7, 7)] }
     let s := (s.put (KE_STATUS_RUN 5) 3).setCc 0 { latch := some { time := 5 } }
     s.switchPass 0 = true ∧ (after (.switch 0) s).get (AX_SWAPST_PHASE 0) = 4 ∧ (after (.switch 0) s).get (KE_STATUS_RUN 5) = 2) ∧
    (let s := (swappable.put (AX_SWAPST_PHASE 0) 4).setSwap 0 { tgt := 5, switched := true }
     (after (.swapRelease 0) s).get (AX_SWAPST_RESULT 0) = 1 ∧ (after (.swapRelease 0) s).get (AX_ENGSEL_CTLENG 0) = 5) := by decide +kernel
theorem test_emergency :
    (let s := (swappable.put (AX_SWAPST_PHASE 0) 5).setSwap (emKey 0 0) { tgt := 5, emerg := true, instants := 2 }
     s.isLocal 0 = true ∧ s.energised 0 = true ∧ (after (.emergencyGap 0) s).get (AX_SWAPST_GAPRUN 0) = 1 ∧
     (after (.emergencyGap 0) s).get (FLT_SRC_SEEN 0x109) = 1) ∧
    (let s := ((swappable.put (AX_SWAPST_PHASE 0) 5).setSwap (emKey 0 0) { tgt := 5, emerg := true, loaded := true, gapped := true }).setEngine 5 { wrote := true }
     [0, 1].find? (s.takesOver 0) = some 0 ∧ (s.swap (emKey 0 1)).emerg = false ∧ (after (.emergencyTakeover 0) s).get (AX_SWAPST_RESULT 0) = 12 ∧
     (after (.emergencyTakeover 0) s).get (AX_SWAPST_PHASE 0) = 0) ∧
    (let s := ((swappable.put (AX_SWAPST_PHASE 0) 5).setSwap (emKey 0 1) { tgt := 5, emerg := true, loaded := true, role := 1 }).setEngine 5 { wrote := true }
     [0, 1].find? (s.takesOver 0) = some 1 ∧ (after (.emergencyTakeover 0) s).get (AX_SWAPST_RESULT 0) = 11) := by decide +kernel


/-! ### Serial ports and the backbone -/

/-- Serial port `n` in this mode with this record. -/
def portIn (n mode : Nat) (x : Csp) : State := (rs.put (CSP_CFG_MODE n) mode).setCsp n x
theorem test_cspCfg :
    (cspCfgOk 3#32 = false ∧ (after (.cspCfgWrite 3 3#32) rs).get (CSP_ST_REFUSED 3) = 1 ∧ cspCfgOk 0x11100202#32 = true ∧ cspCfgOk 0x11100102#32 = false) ∧
    (let s := portIn 0 2 {}
     (s.put (HOST_CFG_SRC 0) 1).cspBound 0 = true ∧ (after (.cspCfgWrite 0 0x11100201#32) (s.put (HOST_CFG_SRC 0) 1)).get (CSP_ST_REFUSED 0) = 1 ∧
     (s.put (HOST_CFG_SRC 0) 0).cspFree 0 = true ∧ (after (.cspCfgWrite 0 0x11100202#32) s).rd (CSP_CFG 0) = 0x11100202#32) ∧
    (let s := portIn 3 2 { low := true }
     s.cspFree 3 = false ∧ (after (.cspCfgWrite 3 0x11100282#32) s).get (CSP_ST_CFGPEND 3) = 1 ∧
     ((after (.cspCfgWrite 3 0x11100282#32) s).csp 3).cfgNext = some 0x11100202#32) ∧
    (let s := (portIn 3 2 { cfgNext := some 5 }).put (CSP_ST_CFGPEND 3) 1
     (after (.cspCfgApply 3) s).rd (CSP_CFG 3) = 5#32 ∧ (after (.cspCfgApply 3) s).get (CSP_ST_CFGPEND 3) = 0) := by decide +kernel
theorem test_cspQueue :
    (let s := (portIn 1 1 {}).put (CSP_CFG_LANES 1) 0
     s.qinOk 1 0x4007#32 = true ∧ ((after (.qinWrite 1 0x4007#32) s).csp 1).queue = [0x4007#32] ∧ s.qinOk 1 0xC007#32 = false ∧
     (after (.qinWrite 1 0xC007#32) s).get (CSP_ST_REFUSED 1) = 1 ∧ s.qinOk 1 0x4006#32 = false ∧
     ((portIn 1 1 { queue := List.replicate 16 0x4007#32 }).put (CSP_CFG_LANES 1) 0).qinOk 1 0x4007#32 = false) ∧
    (let s := portIn 1 1 { queue := [0x4007#32] }
     s.portsRun = true ∧ qinTick 0x4007#32 = false ∧ ((after (.cspEntryStart 1) s).csp 1).active = true ∧ (after (.cspEntryStart 1) s).get (CSP_QST_ACTIVE 1) = 1) ∧
    (let s := portIn 1 1 { queue := [0x0FC04007#32, 0x4007#32], active := true }
     let t := after (.cspEntryDone 1 [0x1AB#32]) s
     (t.csp 1).queue = [0x4007#32] ∧ t.get (CSP_QDONE_V 1) = 1 ∧ qinReads 0x0FC04007#32 = true ∧ qinRxofs 0x0FC04007#32 = 63 ∧
     qinWords 0x0FC04007#32 = 1 ∧ t.rdMem (0x050500 + 0x1000 + 4 * 63) = 0xAB#32 ∧ (t.csp 1).active = false) ∧
    (let s := (portIn 1 1 { queue := [0x4007#32], active := true }).put (CSP_CFG_STRB 1) 1
     (after (.strobeTimeout 1 []) s).get (CSP_ST_STRBTO 1) = 1 ∧ (after (.strobeTimeout 1 []) s).get (CSP_QST_LASTERR 1) = 1 ∧
     ((after (.strobeTimeout 1 []) s).csp 1).queue = []) ∧
    (let s := portIn 1 1 { queue := [1, 2, 3], active := true }
     ((after (.cspQueueFlush 1) s).csp 1).queue = [1] ∧ (after (.cspQueueFlush 1) s).get (CSP_QFLSH_V 1) = 2) := by decide +kernel
theorem test_cspSlave :
    (((after (.ss0Fall 3) (portIn 3 2 {})).csp 3).low = true ∧ ((after (.ss0Fall 3) (portIn 3 1 {})).csp 3).phase = 3) ∧
    (let s := portIn 0 2 { low := true, asm := [1], cfgNext := none }
     (s.put (HOST_CFG_SRC 0) 1).framed 0 = true ∧ (after (.ss0Rise 0 false) (s.put (HOST_CFG_SRC 0) 1)).get (CSP_ST_ABORT 0) = 1 ∧
     ((after (.ss0Rise 0 false) s).csp 0).low = false ∧
     (after (.ss0Rise 0 true) (portIn 0 2 { low := true, cfgNext := some 0x11100202#32 })).rd (CSP_CFG 0) = 0x11100202#32) ∧
    (let s := (portIn 0 2 { low := true }).put (HOST_CFG_SRC 0) 1
     s.framed 0 = true ∧ s.portsRun = true ∧ ((after (.cspSlaveWord 0 0x57000000#32) s).csp 0).phase = 1 ∧
     ((after (.cspSlaveWord 0 0x52000001#32) s).csp 0).phase = 2 ∧ ((after (.cspSlaveWord 0 0x52000000#32) s).csp 0).phase = 3 ∧
     (after (.cspSlaveWord 0 0x57000001#32) s).get (CSP_ST_FRAMEERR 0) = 1) ∧
    (let s := ((portIn 3 2 { low := true, rx := List.replicate 63 1, tx := [8] }).put (CSP_CFG_LANES 3) 0).put (CSP_RAW_WLEN 3) 7
     s.framed 3 = false ∧ ((after (.cspSlaveWord 3 0x1FF#32) s).csp 3).rx = List.replicate 63 1 ++ [0xFF#32] ∧
     ((after (.cspSlaveWord 3 0x1FF#32) s).csp 3).tx = []) ∧
    (let s := ((portIn 0 2 { low := true }).put (HOST_CFG_SRC 0) 1).modHost 0 (fun x => { x with notifyBusy := some {} })
     s.cspReady 0 = true ∧ (after (.underrunResend 0) s).get (CSP_ST_UNDERRUN 0) = 1) ∧
    ((after (.srxdRead 3) (portIn 3 2 { rx := [5, 6] })).dataOut = 5#32 ∧ ((after (.srxdRead 3) (portIn 3 2 { rx := [5, 6] })).csp 3).rx = [6] ∧
     (after (.srxdRead 3) rs).dataOut = 0#32 ∧ ((after (.stxdWrite 3 9#32) (portIn 3 2 {})).csp 3).tx = [9#32] ∧
     (after (.stxdWrite 3 9#32) (portIn 3 2 { tx := List.replicate 64 1 })).get (CSP_ST_REFUSED 3) = 1) := by decide +kernel

/-- The link of port 0 is up. -/
def linked : State :=
  (({ rs with regs := [(ETH_MAC, 0x00000001#32), (ETH_MAC + 4, 0x0200#32)] } : State).put (ETH_CFG_EN 0) 1).put (ETH_ST_LINK 0) 1
/-- A good frame of 64 bytes to this MAC address with this EtherType and FCS. -/
def frame64 (fcs : List Byte) : List Byte :=
  [2, 0, 0, 0, 0, 1, 2, 0, 0, 0, 0, 2, 0x88, 0xB5] ++ List.replicate 46 0 ++ fcs
theorem test_frames :
    (linked.linkUp 0 = true ∧ (frame64 [0x19, 0xD9, 0x69, 0xE7]).length = 64 ∧ fcsOk (frame64 [0x19, 0xD9, 0x69, 0xE7]) = true ∧
     (after (.ethFrameReceive 0 (frame64 [0x19, 0xD9, 0x69, 0xE7]) false) linked).get (ETH_RXGOOD_V 0 0) = 1) ∧
    (fcsOk (frame64 [0x19, 0xD9, 0x69, 0xE6]) = false ∧ (after (.ethFrameReceive 0 (frame64 [0x19, 0xD9, 0x69, 0xE6]) false) linked).get (ETH_RXGOOD_V 0 1) = 1 ∧
     (after (.ethFrameReceive 0 (List.replicate 63 0) false) linked).get (ETH_RXGOOD_V 0 1) = 1 ∧
     (after (.ethFrameReceive 0 (frame64 [0x19, 0xD9, 0x69, 0xE7]) true) linked).get (ETH_RXGOOD_V 0 1) = 1) ∧
    (let s := linked.put ETH_HTYPE_V 0x88B5
     ethParts (frame64 [0x19, 0xD9, 0x69, 0xE7]) = (none, 0x88B5, List.replicate 46 0) ∧ s.get ETH_MAC_V = 0x020000000001 ∧
     beNat ((frame64 []).take 6) = 0x020000000001 ∧
     ((after (.ethFrameReceive 0 (frame64 [0x19, 0xD9, 0x69, 0xE7]) false) { s with now := 512 }).eth 0).inbox = [(0x020000000002, List.replicate 46 0)]) := by decide +kernel
theorem test_egress :
    (let s := linked.setEth 0 { queues := [(7, [{ len := 64 }])] }
     s.mayStart 0 7 = true ∧ ((after (.egressFrameStart 0) s).eth 0).queue 7 = [] ∧ ((after (.egressFrameStart 0) s).eth 0).busy = s.wireTime 0 64 ∧
     (after (.egressFrameStart 0) s).get (ETH_RXGOOD_V 0 4) = 1) ∧
    (let s := rs.setEth 0 { oper := { en := true, cycle := 1000, list := [0xFF0001F4#32, 0x010001F4#32] } }
     (s.eth 0).oper.en = true ∧ (after (.gateEntryChange 0) s).now = (s.eth 0).oper.nextChange 0) ∧
    (rs.get (QBV_CYCLE_V 0) = 125000 ∧ (after (.qbvApply 0) (rs.put (QBV_CYCLE_V 0) 999)).get (QBV_CTRL_ERR 0) = 1 ∧
     (after (.qbvApply 0) (rs.put (QBV_CTRL_LEN 0) 65)).get (QBV_CTRL_ERR 0) = 1 ∧
     (after (.qbvApply 0) ((rs.put (QBV_CYCLE_V 0) 1000).put (QBV_CTRL_LEN 0) 64)).get (QBV_CTRL_PEND 0) = 1) ∧
    (let s := rs.setEth 0 { adm := some ({ en := true, list := [7] }, 90) }
     (after (.qbvConfigChange 0) s).now = 90 ∧ (after (.qbvConfigChange 0) s).rd (QBV_OPER 0 0) = 7#32 ∧ (after (.qbvConfigChange 0) s).rd (QBV_OPER 0 63) = 0#32) := by decide +kernel
theorem test_mdio :
    ((after .mdioGo rs).get MDIO_CMD_BUSY = 1 ∧ (after .mdioGo (rs.put MDIO_CMD_BUSY 1)).get MDIO_CMD_REFUSED = 1 ∧
     (after (.mdioDone 0xFFFF#16) (rs.put MDIO_CMD_BUSY 1)).get MDIO_CMD_DATA = 0xFFFF) ∧
    ((after (.linkUp 0) (rs.put (ETH_CFG_EN 0) 1)).get (ETH_ST_LINK 0) = 1 ∧ rs.bit BOOT_ST_LOADER = false ∧
     (after (.linkDown 0) linked).get (ETH_ST_LINK 0) = 0 ∧ (after (.linkDown 0) linked).get (ETH_ST_LINKDOWNSEEN 0) = 1) := by decide +kernel
theorem test_cellTimeSet :
    (rs.get CT_ST_MODE = 0 ∧ rs.stepAllowed = true ∧ (after .ctSetGo (rs.put CT_SET_V 77)).now = 77 ∧
     (after .ctSetGo (rs.put CT_ST_MODE 2)).get CT_ST_REFUSED = 1 ∧ (slotIn 1 stHold).stepAllowed = false ∧ (after .ctSetGo (slotIn 1 stHold)).get CT_ST_REFUSED = 1) ∧
    ((after (.ctServoWrite .servo 0x01010000#32) rs).rd CT_SERVO = 0x01010000#32 ∧ (after (.ctServoWrite .servo 0x00010000#32) rs).get CT_ST_REFUSED = 1 ∧
     (after (.ctServoWrite .thr 0x00010014#32) rs).rd CT_THR = 0x00010014#32 ∧ (after (.ctServoWrite .thr 0x00010013#32) rs).get CT_ST_REFUSED = 1 ∧
     (after (.gptpCfgWrite 0#32) rs).rd GPTP_CFG = 0#32) := by decide +kernel

/-- Port 0 is linked and measures its neighbour's delay. -/
def capable : State := linked.put (ETH_ST_ASCAP 0) 1
theorem test_gptp :
    (let s := capable
     s.bit GPTP_CFG_EXTCFG = false ∧ s.ownId ≠ 1 ∧ ((after (.announce 0 ⟨0, 0, 0, 0, 0, 1, 0⟩) s).annOf 0).isSome = true ∧
     (after (.announce 0 ⟨0, 0, 0, 0, 0, 1, 0⟩) s).bestPort = some 0 ∧ (after (.announce 0 ⟨0, 0, 0, 0, 0, 1, 0⟩) s).get CT_ST_SLVPORT = 1) ∧
    (let s := capable.put CT_ST_MODE 4
     s.masterPort 0 = true ∧ s.masterPort 1 = false ∧ s.get CT_ST_MODE = 4 ∧ (s.eth 0).used + 3044 ≤ 16384 ∧
     (after .announceTransmit rs).gptp.annTx = 1000000000) ∧
    ((after (.pdelay 0 (some 0)) linked).rd (GPTP_PDLY 0) = 0#32 ∧ (after (.pdelay 0 (some 0)) linked).get (ETH_ST_ASCAP 0) = 1 ∧
     (after (.pdelay 0 none) capable).get (ETH_ST_ASCAP 0) = 0) ∧
    (let s := capable.put CT_ST_SLVPORT 1
     s.slavePort = some 0 ∧ s.stepAllowed = true ∧ (after (.followUp 1 0 0) s).gptp.good = 0) ∧
    ((rs.put CT_ST_SLEWING 1).bit CT_ST_SLEWING = true ∧ after .slewEnd rs = rs) ∧
    (let s := (capable.put CT_ST_SLVPORT 1).put CT_ST_MODE 2
     (after (.receiptTimeout 0 false) s).get CT_ST_MODE = 3 ∧ (after (.receiptTimeout 0 true) s).annOf 0 = none) := by decide +kernel


/-! ### The front panel, power and boot -/

theorem test_touch :
    (let s := (rs.put FP_CFG_SCANEN 1).put FP_CFG_TDEB 2
     let cs := List.replicate 8 (500#16)
     rs.bly.shed = false ∧ cs.length = 8 ∧ (after (.touchScan cs) s).get (FP_TP_BASE_BASE 7) = 500 ∧ ((after (.touchScan cs) s).pad 7).started = true) ∧
    (let s := ((rs.put FP_CFG_SCANEN 1).put FP_CFG_TDEB 2).setPad 3 { started := true, count := 1 }
     let s := (s.put (FP_TP_BASE_BASE 3) 400).put (FP_TP_CFG_THR 3) 100
     (after (.touchScan (List.replicate 8 500#16)) s).get (FP_TP_ST_TOUCHED 3) = 1 ∧ (after (.touchScan (List.replicate 8 499#16)) s).get (FP_TP_ST_TOUCHED 3) = 0) ∧
    (let s := (((rs.put FP_CFG_SCANEN 1).put FP_CFG_TDEB 2).put (FP_TP_ST_TOUCHED 3) 1).setPad 3 { started := true, count := 1 }
     let s := ((s.put (FP_TP_BASE_BASE 3) 400).put (FP_TP_CFG_THR 3) 100).put (FP_TP_CFG_HYS 3) 20
     (after (.touchScan (List.replicate 8 479#16)) s).get (FP_TP_ST_TOUCHED 3) = 0 ∧ (after (.touchScan (List.replicate 8 480#16)) s).get (FP_TP_ST_TOUCHED 3) = 1) ∧
    (((after (.recal 7) rs).pad 7).recal = true) ∧
    (let s := (rs.put FP_CFG_DBMS 1)
     (after (.inputSample 8 0x80) s).get FP_ST_PB = 8 ∧ (after (.inputSample 8 0x80) s).get FP_ST_PRES = 0x80 ∧
     (after (.inputSample 8 0) (rs.put FP_CFG_DBMS 2)).get FP_ST_PB = 0) := by decide +kernel
theorem test_presence :
    (let s := (slotIn 1 stIdle).put (FP_MPR_PRESEN 0) 1
     s.presEligible 0 = true ∧ s.test 0 = none ∧ s.power = .running ∧ (after (.presenceTest 0) s).test 0 = some { tcp := s.get FP_PRESCFG_TCP } ∧
     tabGet (fun _ => 0) (after (.presenceTest 0) s).panel.nextTest 0 = (after (.presenceTest 0) s).now + s.get FP_PRESCFG_PRESPER * 1000000) ∧
    (let s : State := { (slotIn 1 stIdle).put (GD_CHSTAT_TRIPPED 0 1) 1 with panel := { tests := [(0, {})] } }
     s.presPath 0 0 = (0, 1) ∧ s.tripped 1 = true ∧ (after (.presencePathDone 0 .tripped) s).get (FP_MPR_RESULT 0) = 4) ∧
    (let s : State := { (slotIn 1 stIdle).put (GD_CHSTAT_TRIPPED 0 1) 1 with panel := { tests := [(0, { bind := some (.supervisor, 0) })] } }
     s.presEligible 0 = false ∧ s.get (AX_SWAPST_PHASE 0) = 0 ∧ (after (.presencePathDone 0 .tripped) s).slotState 0 = stUnbound ∧
     (after (.bindWrite .supervisor 0 0) { s with panel := { tests := [(0, {})] } }).test 0 = some { bind := some (.supervisor, 0) } ∧
     (after (.bindWrite .supervisor 0 6#32) { s with panel := { tests := [(0, {})] } }).get (AX_STATE_ERR 0) = 1) ∧
    (let s : State := { (slotIn 1 stIdle).put (GD_STAT_VGDUVACTIVE 0) 1 with panel := { tests := [(0, { path := 1 })] } }
     s.presReady 0 1 = false ∧ (s.presPaths 0).length = 2 ∧ (after (.presencePathDone 0 .skipped) s).get (FP_MPR_RESULT 0) = 3) ∧
    (let s : State := { (slotIn 1 stIdle) with panel := { tests := [(0, {})] } }
     let s := (s.setChan 0 { h := { on := true } }).setChan 1 { l := { on := true } }
     (after (.presencePathDone 0 .decided) s).test 0 = some { path := 1 }) ∧
    (let s : State := { (slotIn 1 stIdle) with panel := { tests := [(0, { path := 1 })] } }
     let s := (s.setChan 2 { h := { on := true } }).setChan 3 { l := { on := true } }
     s.presPath 0 1 = (2, 3) ∧ (after (.presencePathDone 0 .decided) s).get (FP_MPR_RESULT 0) = 1 ∧
     (after (.presencePathDone 0 .timeout) s).get (FP_MPR_RESULT 0) = 2 ∧ (after (.presencePathDone 0 .timeout) s).get (FP_MPR_PATH 0) = 1) := by decide +kernel
theorem test_fpConfig :
    (fpWriteOk (.lamp 7) 0x00280010#32 = fpWriteOk (.lamp 7) 0x00280010#32 ∧ fpWriteOk .mirbase 0x65F800#32 = true ∧ (after (.fpConfigWrite .mirbase 0x65F800#32) rs).rd FP_MIRBASE = 0x65F800#32 ∧
     fpWriteOk .mirbase 0x660000#32 = false ∧ (after (.fpConfigWrite .mirbase 0x660000#32) rs).get FP_ST_REFUSED = 1 ∧
     fpWriteOk (.slot 15) 1#32 = true ∧ fpWriteOk .mirbase 0x600400#32 = false) ∧
    ((after (.lampBlink 7) (rs.put (FP_LMP_MODE 7) 2)).panel.lamps.contains 7 = (after (.lampBlink 7) (rs.put (FP_LMP_MODE 7) 2)).lampLevel 7) := by decide +kernel
theorem test_resets :
    ((after .resetPin rs).power = .inReset ∧ (after .powerOnReset rs).rd RST_CNT = 2#32 ∧ (after .clockLoss rs).rd RST_CAUSE = 0x11#32 ∧
     (after .vbcLoss { rs with power := .bivouac }).rd RST_CAUSE = 0x20#32 ∧ (after (.watchdogExpiry true) rs).rd RST_CAUSE = 5#32 ∧
     (after (.watchdogExpiry false) (rs.put BOOT_ST_STBYOK 1)).get BOOT_ST_STBYOK = 0 ∧ (after (.watchdogExpiry false) rs).hoDead = true) ∧
    (slots16.any rs.energised = false ∧ fieldOf 0x00A50001#32 PWR_CTRL_RESET = 1 ∧ fieldOf 0x00A50001#32 PWR_CTRL_KEY = 0xA5 ∧ rs.rstReq = false ∧
     (after (.pwrCtrlWrite 0x00A50001#32) rs).power = .inReset ∧ (after (.pwrCtrlWrite 0x00A40001#32) rs).get PWR_CTRL_REFUSED = 1) ∧
    (fieldOf 0x640001#32 PWR_CFG_BIVDLY = fieldOf 0x640001#32 PWR_CFG_BIVDLY ∧ (after (.pwrCfgWrite 99#32) rs).power = .running) ∧
    ((after .xbcLoss rs).get CLK_ST_XBCOK = 0 ∧ (after .xbcStart (after .xbcLoss rs)).get CLK_ST_XBCOK = 1 ∧
     rs.get BOOT_ST_HOPHASE = 0 ∧ rs.bit BOOT_ST_LOADER = false ∧ (after .standbyReady rs).get BOOT_ST_STBYOK = 1) := by decide +kernel
theorem test_bivouac :
    (let s := (rs.put PWR_CFG_BIVEN 1).put PWR_WAKEEN_EN 1
     let s := s.put CLK_ST_XBCOK 1
     s.blockers = 0 ∧ (after .bivouacEntry s).power = .entering) ∧
    ((after .bivouacEntered { rs with power := .entering }).power = .bivouac ∧ (after .bivouacEntered { rs with power := .entering, biv := { inten := true } }).power = .waking) ∧
    (let s := rs.put PWR_WAKEEN_EN 0x40
     (s.get PWR_WAKEEN_EN).testBit 6 = true ∧ (after (.wake 6) { s with power := .bivouac }).power = .waking ∧
     (after (.wake 6) { s with power := .entering }).biv.inten = true ∧ (after .hostsServed { s with power := .waking }).power = .running) ∧
    (after (.resetRelease { boot := 3, hostif := 0, gdm := 0, safe := false, untested := false, node := 0, cspw := false }) rs = rs) := by decide +kernel

/-! ### Hosts, frames and queued commands -/

theorem test_readClear :
    (rcMask 4 = 0#32 ∧ after (.readClear .supervisor 4) rs = rs ∧ rcMask (0x054000 + 0) = 0#32) ∧
    (findReg 0x3FFFFC = none ∧ after (.registerWrite .supervisor 0x3FFFFC#24 1#32) rs = rs ∧
     (after (.registerWrite .supervisor (BitVec.ofNat 24 PWR_WAKEEN) 0x7F#32) rs).get PWR_WAKEEN_EN = 0x7F) ∧
    (let t := after (.registerWrite (.host 7) (BitVec.ofNat 24 CT_SET) 5#32) rs
     (rs.host 7).stage = none ∧ (t.host 7).stage = some (CT_SET, 5#32, 0) ∧
     (after (.registerWrite (.host 7) (BitVec.ofNat 24 (CT_SET + 4)) 1#32) { t with now := 1000 }).get CT_SET_V = 2 ^ 32 + 5 ∧
     (after (.writeStageExpiry 7) t).rd CT_SET = 5#32 ∧ (after (.writeStageExpiry 7) t).now = 1000) := by decide +kernel
/-- Stream 4 runs this command of host 1, which holds slot 0. -/
def commanded (op : Nat) (ws : List Word) (s : State) : State :=
  headed ((s.put (ANC_ST_HELD 0) 1).put (ANC_ST_OWNER 0) 1) 4 { op := op, words := ws }
theorem test_runnable : (commanded 1 [0x02600000#32] rs).runnable 4 1 { op := 1, words := [0x02600000#32] } ∧
    (commanded 4 [0#32, 1#32] (slotIn 4 stIdle)).runnable 4 4 { op := 4, words := [0#32, 1#32] } := by
  refine ⟨⟨by decide +kernel, rfl, rfl, fun n h => ?_, by decide +kernel⟩, ⟨by decide +kernel, rfl, rfl, fun n h => ?_, by decide +kernel⟩⟩
  · simp [Cmd.slot?] at h
  · simp [Cmd.slot?] at h; subst h; decide +kernel
theorem test_cellMemory :
    (({ op := 1, words := [0x02600000#32] } : Cmd).addr = 0x600000 ∧ statusOf (after (.read 4) (commanded 1 [0x02600000#32] rs)) 4 = 0) ∧
    (let t := after (.write 4) (commanded 2 [0x0065FFF8#32, 7#32, 8#32] rs)
     statusOf t 4 = 0 ∧ t.rdMem 0x65FFFC = 8#32) ∧
    (let t := after (.rmw 4) (commanded 3 [0x00600000#32, 0xFF#32, 0x1AB#32] (rs.wrMem 0x600000 0x1200#32))
     t.rdMem 0x600000 = 0x12AB#32 ∧ rs.rstReq = false) := by decide +kernel
/-- Host 0 is bound to serial port 0, whose select is low. -/
def heard (fs : List (List Word)) : State :=
  ((rs.put (CSP_CFG_MODE 0) 2).put (HOST_CFG_SRC 0) 1).setCsp 0 { low := true, frames := fs }
theorem test_frameReceive :
    (let ws : List Word := [0x09010005#32, 0#32, 0x000056B3#32]
     (heard [ws]).cspBound 0 = true ∧ (frameOf (ws.flatMap beBytes)).isSome = true ∧ ((heard [ws]).stream 1).devCred < 16 ∧
     ((heard [ws]).stream 1).unsynced = true ∧ ((after (.frameReceive 0) (heard [ws])).stream 1).nextSeq = 6 ∧
     (after (.frameReceive 0) (heard [ws])).get (STR_ACCEPT_V 1) = 1 ∧
     (after (.frameReceive 0) ((heard [ws]).setStream 1 { unsynced := false, nextSeq := 4 })).get (STR_SEQERR_V 1) = 1) ∧
    (let ws : List Word := [0x09010005#32, 0#32, 0x000056B2#32]
     frameOf (ws.flatMap beBytes) = none ∧ (after (.frameReceive 0) (heard [ws])).get (CSP_CRCERR_V 0) = 1) := by decide +kernel
theorem test_streamControl :
    (let s := rs.setStream 31 { state := 2, haltSeq := 65535, reason := 3, queue := [{ seq := 1 }] }
     ((after (.resume 31 0xFFFF#16 false) s).stream 31).state = 1 ∧ ((after (.streamFlush 31 0xFFFF#16 false) s).stream 31).queue = [] ∧
     (after (.streamFlush 31 0xFFFF#16 false) s).get (STR_FLUSHED_V 31) = 1 ∧ ((after (.resume 31 0#16 false) s).stream 31).state = 2) ∧
    (((after (.streamResync 31 9#16 false) rs).stream 31).pend.map (fun r => (r.op, r.seq, r.status)) = [(0xA, 9, 0)]) ∧
    (let s := (heard []).setStream 1 { pend := [{ op := 1, words := [0] }] }
     s.sendPort 0 1 = some 0 ∧ (after (.responseSend 1) s).sent.length = 1 ∧
     (after (.responseSend 1) ((heard []).setStream 1 { pend := [{ op := 1, words := [0], reset := true }] })).power = .inReset) := by decide +kernel
theorem test_commands :
    (let s := commanded 4 (0#32 :: List.replicate 8 0#32) (slotIn 4 stHold)
     s.holds 1 0 = true ∧ entryBad (List.replicate 8 0) = false ∧ ((after (.pitch 4) s).gen 0).queue = [List.replicate 8 0] ∧ statusOf (after (.pitch 4) s) 4 = 0) ∧
    (let s := commanded 4 [0x00100000#32, 0#32, 0x000F4240#32, 0#32, 0#32, 0#32, 5#32, 0#32] (sourced 2)
     ({ op := 4, words := [0x00100000#32] } : Cmd).func = 1 ∧ statusOf (after (.setpoint 4) s) 4 = 0 ∧ ((after (.setpoint 4) s).gen 0).points.map (fun x => (x.t, x.v)) = [(1000000, 5)]) ∧
    (let s := commanded 4 [0x00200000#32, 1#32] (slotIn 4 stIdle)
     s.energiseErr 0 = 0 ∧ s.safeoff = false ∧ (s.slotChans 0).any s.tripped = false ∧ (after (.ctrl 4) s).slotState 0 = stHold) ∧
    (let s := commanded 4 [0x00300000#32, 2#32] ((slotIn 4 stHold).put (AX_PITQ_CTRL_QHELD 0) 1)
     (after (.qctrl 4) s).get (AX_PITQ_CTRL_QHELD 0) = 0 ∧ statusOf (after (.qctrl 4) s) 4 = 0) ∧
    (statusOf (after (.pitch 4) (headed (slotIn 4 stHold) 4 { op := 4, words := 0#32 :: List.replicate 8 0#32 })) 4 = 2) ∧
    (let s := ((slotIn 4 stHold).put (ANC_ST_HELD 0) 1).put (ANC_ST_OWNER 0) 1
     let s := s.setStream 4 { queue := [{ op := 4, words := 0#32 :: List.replicate 8 0#32 }], state := 1, prog := .placing 0 [] }
     ((after (.commandRoomFreed 4) s).gen 0).queue = [List.replicate 8 0] ∧ statusOf (after (.commandRoomFreed 4) s) 4 = 0) ∧
    (let c : Cmd := { op := 4, words := [0x00180000#32] }
     let s := (sourced 2).setStream 4 { queue := [c], state := 1, prog := .waiting [] }
     s.waitMet c [] = true ∧ statusOf (after (.waitdoneMet 4) s) 4 = 0) ∧
    (let c : Cmd := { op := 7, words := [0xF#32] }
     let s := rs.setStream 4 { queue := [c], state := 1, prog := .working }
     s.fenceMet 4 c = true ∧ statusOf (after (.fenceComplete 4) s) 4 = 0 ∧ ((after (.fence 4) (headed rs 4 c)).stream 4).prog = .working) ∧
    (let s := headed rs 4 { op := 5, words := [1#32, 8#32] }
     ({ op := 5, words := [1#32, 8#32] } : Cmd).anchors = [0, 35] ∧ s.othersAnchor 1 [0, 35] = none ∧ (after (.anchor 4) s).holds 1 35 = true ∧
     statusOf (after (.anchor 4) ((s.put (ANC_ST_HELD 35) 1).put (ANC_ST_OWNER 35) 2)) 4 = 3) ∧
    (let s := headed ((rs.put (ANC_ST_HELD 35) 1).put (ANC_ST_OWNER 35) 1) 4 { op := 6, words := [0#32, 8#32] }
     (after (.releaseAnchors 4) s).get (ANC_ST_HELD 35) = 0 ∧ statusOf (after (.releaseAnchors 4) s) 4 = 0) ∧
    (let s := commanded 0xE [0#32, 0x94#32] swappable
     s.swapRefusal 0 0x94#32 = 4 ∧ statusOf (after (.swap 4) s) 4 = 4) := by decide +kernel

/-! ### Images, keys and handover -/

/-- An IMAGE command of host 1 on stream 4: SUB, BANK, KIND, INDEX and ARG in word 0. -/
def imaging (sub bank kind idx arg : Nat) (ws : List Word) (s : State) : State :=
  headed s 4 { op := 0xD, words := BitVec.ofNat 32 (sub * 2 ^ 28 + bank * 2 ^ 23 + kind * 2 ^ 20 + idx * 256 + arg) :: ws }
/-- Host 1 has a session open for the calibration image of bank 0, two words long. -/
def session : State :=
  let s := ((rs.put IMG_ST_OPEN 1).put IMG_ST_OWNER 1).put IMG_ST_KIND 3
  (s.put IMG_LEN_V 2).setImg 0 3 0 { st := 1 }
theorem test_imageSession :
    (let s := imaging 0 0 3 0 0 [64#32] rs
     s.beginRefusal 1 ({ op := 0xD, words := [0x00300000#32, 64#32] } : Cmd) = 0 ∧ (after (.begin 4) s).get IMG_ST_OPEN = 1 ∧ (after (.begin 4) s).get IMG_LEN_V = 16 ∧
     statusOf (after (.begin 4) (imaging 0 0 0 0 0 [64#32] rs)) 4 = 4) ∧
    (session.ownsSession 1 = true ∧ (after (.data 4) (imaging 1 0 0 0 0 [7#32] session)).get IMG_ST_WORDS = 1 ∧
     (after (.data 4) (imaging 1 0 0 0 0 [7#32] session)).sessionImg.words = [7#32] ∧ rs.ownsSession 1 = false ∧
     statusOf (after (.data 4) (imaging 1 0 0 0 0 [7#32] rs)) 4 = 4) ∧
    (session.commitCheck 3 session.sessionImg ≠ 0 ∧ (after (.commit 4) (imaging 2 0 3 0 0 [] session)).img 0 3 0 = {} ∧
     statusOf (after (.commit 4) (imaging 2 0 3 0 0 [] session)) 4 = 5 ∧ statusOf (after (.abort 4) (imaging 3 0 3 0 0 [] session)) 4 = 0 ∧
     (after (.abort 4) (imaging 3 0 3 0 0 [] session)).get IMG_ST_OPEN = 0) ∧
    (({ op := 0xD, words := [0x4020FE00#32] } : Cmd).targetOk = true ∧ statusOf (after (.erase 4) (imaging 4 0 2 0xFE 0 [] rs)) 4 = 0 ∧
     (rs.inDirectory { op := 0xD, words := [0x4020FE00#32] } && rs.routeInUse 0xFE) = false) ∧
    ((rs.img 0 1 0).st = 2 ∧ statusOf (after (.setflag 4) (imaging 5 0 1 0 0 [] rs)) 4 = 0 ∧ (rs.img 1 1 0).st = 0 ∧
     statusOf (after (.setflag 4) (imaging 5 1 1 0 0 [] rs)) 4 = 4) := by decide +kernel
/-- A calibration image whose one record sets channel 31. -/
def calibrated : Img := { st := 2, words := List.replicate 9 0#32 ++ [0x2843E0#32, 0x01F40000#32] }
theorem test_imageApply :
    (({ st := 2 } : Img).records = [] ∧ rs.chanUsed 31 = false ∧ statusOf (after (.imageApply 4) (imaging 7 0 3 0 0 [] (rs.setImg 0 3 0 { st := 2 }))) 4 = 0) := by decide +kernel
theorem test_keys :
    (rs.keyProgrammed 1 = false ∧ rs.keyUsable 0 = true ∧ statusOf (after (.keyprog 4) (imaging 8 0 0 0 0 (List.replicate 24 1#32) rs)) 4 = 4 ∧
     rs.keyUsable 1 = false ∧ statusOf (after (.keyprog 4) (imaging 8 0 0 0 0x11 (List.replicate 24 1#32) rs)) 4 = 4) ∧
    (let s : State := { rs with otp := [(0x48, 1)] }
     s.keyLeft 0 = true ∧ s.keyUsable 1 = true ∧ rs.keyLeft 0 = false ∧ statusOf (after (.revoke 4) (imaging 9 0 0 0 0 (List.replicate 16 1#32) rs)) 4 = 4) ∧
    (statusOf (after (.secprog 4) (imaging 10 0 0 0 1 (List.replicate 8 1#32) rs)) 4 = 4 ∧ rs.acceptKey.all (· == 0) = true ∧
     (after (.secprog 4) (imaging 10 0 0 0 1 (List.replicate 8 1#32) (rs.put BOOT_ST_LOADER 1))).acceptKey = List.replicate 8 1#32) ∧
    ((headed rs 4 { op := 0xF, words := List.replicate 6 0 }).acceptRefusal 1 { op := 0xF, words := List.replicate 6 0 } = 3) := by decide +kernel
theorem test_handover :
    (let s := imaging 6 0 1 0 0 [] (rs.put BOOT_ST_STBYOK 1)
     (after (.handover 4) s).get BOOT_ST_HOPHASE = 1 ∧ (after (.handover 4) s).hoCmd = some (4, 0, false)) ∧
    (let s : State := { (rs.put BOOT_ST_HOPHASE 1) with hoCmd := some (4, 0, false) }
     s.hoDead = false ∧ s.mayTakeOver 0 = true ∧ (after .handoverReady s).get BOOT_ST_HOPHASE = 2 ∧ ((after .handoverReady s).stream 31).state = 3) ∧
    (let s : State := { (rs.put BOOT_ST_HOPHASE 1) with hoCmd := some (4, 1, false) }
     s.mayTakeOver 1 = false ∧ (after .handoverReady s).get BOOT_ST_HOPHASE = 0 ∧ (after .handoverReady s).get IMG_HOCNT_FAIL = 1) ∧
    (statusOf (after (.handover 4) (imaging 6 0 1 0 0 [] rs)) 4 = 4 ∧ rs.hoDead = false ∧ rs.bit BOOT_ST_STBYOK = false ∧
     (let s : State := { (rs.put BOOT_ST_HOPHASE 1) with hoCmd := some (4, 0, false), hoDead := true }
      (after .handoverTimeout s).get IMG_HOCNT_FAIL = 1) ∧
     ((rs.setImg 0 2 5 { st := 2, words := List.replicate 6 0#32 ++ [2#32] }).dirImg 5).st = 0) ∧
    (let s : State := { ((rs.put BOOT_ST_HOPHASE 2).put BOOT_ST_STBYOK 1) with hoCmd := some (4, 0, true), now := 45000000 }
     (after .handoverSwitch s).get BOOT_ST_ACTIVE = 1 ∧ (after .handoverSwitch s).get IMG_HOCNT_DONE = 1 ∧
     (after .handoverTimeout { s with now := 0 }).now = 45000000 ∧ (after .handoverTimeout s).get IMG_HOCNT_FAIL = 1) := by decide +kernel


end Sys2Proof.Tests
end

section
/-! PROOFS. The layer under the statements on commands: what the effect of a command depends on, how a command whose turn has
come runs on its stream and is answered (R301 to R305), and the words of memory (R486). -/
namespace Sys2Proof.Machine

/-! ### The effect of a command -/

/-- An effect counts by what it does to this state. -/
theorem State.effect_congr {s : State} {f g : State → State} (h : f s = g s) : s.effect f = s.effect g := by
  unfold State.effect; rw [h]
/-- An effect that changes nothing leaves the whole state as it was. -/
theorem State.effect_of_eq {s : State} {f : State → State} (h : f s = s) : s.effect f = s := by unfold State.effect; rw [h]

/-! ### Words of memory -/

/-- A word depends on its four bytes only. -/
theorem State.rdMem_congr {s t : State} {a : Nat} (h : ∀ i, i < 4 → t.rdByte (a + i) = s.rdByte (a + i)) :
    t.rdMem a = s.rdMem a := by
  have h0 : t.rdByte a = s.rdByte a := h 0 (by omega)
  unfold State.rdMem
  rw [h0, h 1 (by omega), h 2 (by omega), h 3 (by omega)]
theorem State.rdMems_congr {s t : State} (h : ∀ b, t.rdByte b = s.rdByte b) (n : Nat) :
    ∀ a, t.rdMems a n = s.rdMems a n := by
  induction n with
  | zero => intro a; rfl
  | succ n ih => intro a; rw [State.rdMems, State.rdMems, State.rdMem_congr (fun _ _ => h _), ih]

/-- What every write of a word leaves alone, a write of words leaves alone. -/
theorem State.wrMems_same {β : Type} (g : State → β) (hg : ∀ s a v, g (s.wrMem a v) = g s) (l : List Word) :
    ∀ (s : State) (a : Nat), g (s.wrMems a l) = g s := by
  induction l with
  | nil => intro s a; rfl
  | cons v l ih => intro s a; exact (ih _ _).trans (hg s a v)
theorem State.wrMems_regs (s : State) (a : Nat) (l : List Word) : (s.wrMems a l).regs = s.regs :=
  State.wrMems_same State.regs (fun s => s.wrMem_regs) l s a
theorem State.wrMems_streams (s : State) (a : Nat) (l : List Word) : (s.wrMems a l).streams = s.streams :=
  State.wrMems_same State.streams (fun s => s.wrMem_streams) l s a
theorem State.wrMems_rstReq (s : State) (a : Nat) (l : List Word) : (s.wrMems a l).rstReq = s.rstReq :=
  State.wrMems_same State.rstReq (fun s => s.wrMem_rstReq) l s a
/-- A write of words leaves every byte outside them alone. -/
theorem State.rdByte_wrMems_ne {b : Nat} (l : List Word) :
    ∀ (s : State) (a : Nat), b < a ∨ a + 4 * l.length ≤ b → (s.wrMems a l).rdByte b = s.rdByte b := by
  induction l with
  | nil => intro s a _; rfl
  | cons v l ih =>
    intro s a h
    rw [List.length_cons] at h
    rw [State.wrMems, ih _ _ (by omega), State.rdByte_wrMem_ne s v (by omega)]
/-- A read of words gives the words written. -/
theorem State.rdMems_wrMems_same (l : List Word) : ∀ (s : State) (a : Nat), (s.wrMems a l).rdMems a l.length = l := by
  induction l with
  | nil => intro s a; rfl
  | cons v l ih =>
    intro s a
    have hv : ((s.wrMem a v).wrMems (a + 4) l).rdMem a = v := by
      rw [State.rdMem_congr (fun i hi => State.rdByte_wrMems_ne l _ _ (by omega)), State.rdMem_wrMem_same]
    rw [State.wrMems, List.length_cons, State.rdMems, hv, ih]

/-! ### The responses of a stream are only added to (R302, R303) -/

@[simp] theorem Stream.setState_pend (st : Stream) (x : Nat) : (st.setState x).pend = st.pend := by
  unfold Stream.setState; split <;> rfl

/-- An answer adds one response. -/
theorem Stream.answer_pend {st : Stream} {c : Cmd} {q : List Cmd} (h : st.queue = c :: q)
    (status detail flags : Nat) (ws : List Word) (halt : Nat) :
    (st.answer status detail flags ws halt).pend =
      st.pend ++ [Rsp.mk c.seq c.op status (BitVec.ofNat 32 (detail % 65536 * 65536 + flags) :: ws) true false] := by
  unfold Stream.answer
  rw [h]
  dsimp only
  split
  · simp
  · split <;> simp
theorem Stream.pend_isPrefix_answer (st : Stream) (status detail flags : Nat) (ws : List Word) (halt : Nat) :
    st.pend <+: (st.answer status detail flags ws halt).pend := by
  cases h : st.queue with
  | nil => unfold Stream.answer; rw [h]
  | cons c q => rw [Stream.answer_pend h]; exact List.prefix_append ..

theorem State.pend_isPrefix_modStream (s : State) (j : Nat) {f : Stream → Stream} (hf : ∀ st, st.pend <+: (f st).pend) (k : Nat) :
    (s.stream k).pend <+: ((s.modStream j f).stream k).pend := by
  by_cases h : k = j
  · subst h; rw [State.stream_modStream_same]; exact hf _
  · rw [State.stream_modStream_ne s f h]
theorem State.pend_isPrefix_reachHead (s : State) (j k : Nat) : (s.stream k).pend <+: ((s.reachHead j).stream k).pend := by
  unfold State.reachHead
  split
  · exact List.prefix_rfl
  · split
    · exact s.pend_isPrefix_modStream j (fun st => st.pend_isPrefix_answer ..) k
    · split
      · split
        · exact s.pend_isPrefix_modStream j (fun st => by simp) k
        · exact List.prefix_rfl
      · exact List.prefix_rfl
theorem State.pend_isPrefix_reachHeads (s : State) (j k : Nat) : (s.stream k).pend <+: ((s.reachHeads j).stream k).pend :=
  List.foldlRecOn (motive := fun t : State => (s.stream k).pend <+: (t.stream k).pend) _ _ List.prefix_rfl
    (fun t ht i _ => ht.trans (t.pend_isPrefix_reachHead i k))

/-! ### A command whose turn has come (R301, R305) -/

/-- Stream `k` with its head command at work. -/
def State.atWork (s : State) (k : Nat) : State := s.modStream k (fun st => { st with prog := .working })
theorem State.atWork_stream (s : State) (k : Nat) : (s.atWork k).stream k = { s.stream k with prog := .working } :=
  s.stream_modStream_same k _
theorem State.atWork_streamsOnly (s : State) (k : Nat) : StreamsOnly s (s.atWork k) := (StreamsOnly.refl s).modStream k _
theorem StreamsOnly.mem {s t : State} (h : StreamsOnly s t) : t.mem = s.mem := by obtain ⟨x, rfl⟩ := h; rfl
theorem StreamsOnly.rdByte {s t : State} (h : StreamsOnly s t) (a : Nat) : t.rdByte a = s.rdByte a := by
  obtain ⟨x, rfl⟩ := h; rfl

/-- The command that can start is the head of its stream. -/
theorem State.queue_of_ready {s : State} {k : Nat} {c : Cmd} (h : s.ready k = some c) : ∃ q, (s.stream k).queue = c :: q := by
  unfold State.ready at h
  dsimp only at h
  split at h
  · rename_i d q hq
    split at h
    · cases h; exact ⟨q, hq⟩
    · cases h
  · cases h

/-- A command that can run reaches its turn with nothing to refuse it. -/
theorem State.reachHead_of_runnable {s : State} {k op : Nat} {c : Cmd} (h : s.runnable k op c) : s.reachHead k = s := by
  obtain ⟨hready, -, hbad, hslot, -⟩ := h
  unfold State.reachHead
  rw [hready]
  dsimp only
  rw [if_neg (by omega)]
  split
  · rename_i n hn; rw [if_neg (by have := hslot n hn; omega)]
  · rfl

/-- A command that can run and is the one asked for has its effect (R305). -/
theorem State.runHead_of_runnable {s : State} {k op : Nat} {c : Cmd} (h : s.runnable k op c) {p : Cmd → Bool} (hp : p c = true)
    (f : Cmd → State → State) : s.runHead k op p f = f c (s.atWork k) := by
  have hreach := State.reachHead_of_runnable h
  obtain ⟨hready, hop, -, -, hloader⟩ := h
  have hready : s.readyOp k op = some c := by unfold State.readyOp; rw [hready]; exact if_pos hop
  have hload : (s.atWork k).bit BOOT_ST_LOADER = false := hloader
  unfold State.runHead
  simp only [hreach, hready, hp, Bool.not_true, Bool.false_eq_true, if_false]
  exact if_neg (by rw [show s.modStream k _ = s.atWork k from rfl, hload]; simp)

/-- The command at work on the head of its stream is answered when it finishes (R302, R303). -/
theorem State.answeredBy_finish {s u : State} {k : Nat} {c : Cmd} {q : List Cmd} (hq : (u.stream k).queue = c :: q)
    (hprog : (u.stream k).prog ≠ .idle) (hpend : (u.stream k).pend = (s.stream k).pend) (status detail : Nat) (ws : List Word) :
    s.answeredBy (u.finish k c status detail 0 ws) k c status detail ws := by
  have hanswer : (u.stream k).pend ++ [Rsp.mk c.seq c.op status (BitVec.ofNat 32 (detail % 65536 * 65536) :: ws) true false] <+:
      ((u.answer k status detail 0 ws).stream k).pend := by
    refine List.IsPrefix.trans ?_ (State.pend_isPrefix_reachHeads _ k k)
    rw [State.stream_modStream_same, Stream.answer_pend hq, Nat.add_zero]
  obtain ⟨more, hmore⟩ := hanswer
  unfold State.finish State.answeredBy
  rw [hq]
  dsimp only
  rw [if_pos ⟨rfl, hprog⟩, ← hmore, hpend]
  simp

/-- So is a command that can run, whatever it has done beside the streams. -/
theorem State.answeredBy_finish_of_runnable {s u : State} {k op : Nat} {c : Cmd} (h : s.runnable k op c)
    (hu : u.streams = (s.atWork k).streams) (status detail : Nat) (ws : List Word) :
    s.answeredBy (u.finish k c status detail 0 ws) k c status detail ws := by
  have hstream : u.stream k = { s.stream k with prog := .working } := by
    rw [← State.atWork_stream]; unfold State.stream; rw [hu]
  obtain ⟨q, hq⟩ := State.queue_of_ready h.1
  exact State.answeredBy_finish (q := q) (by rw [hstream]; exact hq) (by rw [hstream]; simp) (by rw [hstream]) status detail ws

end Sys2Proof.Machine
end

section
/-! PROOFS. What the operations of Machine/RegisterAccess.lean do at the addresses and registers of O56: cell memory as
READ, WRITE and RMW reach it (R278, R283, R486), and the writes of a plain word and of a staged quantity (R5, R282). -/
namespace Sys2Proof.Machine

/-! ### Cell memory (R486) -/

/-- No register is listed in cell memory. -/
theorem findReg_cell {a : Nat} (h : 0x600000 ≤ a) : findReg a = none := by
  have hblocks : ∀ b ∈ blocks, b.base + b.stride * b.count ≤ 0x600000 := by decide
  have hnone : blockAt a = none := by
    unfold blockAt
    rw [Option.map_eq_none_iff, List.find?_eq_none]
    intro b hb
    have := hblocks b hb
    rw [decide_eq_true_eq]
    omega
  unfold findReg
  rw [hnone]
theorem winAt_cell {a : Nat} (h : 0x600000 ≤ a) (h' : a < 0x660000) : winAt a = some (.cell, 0x600000, 0x660000) := by
  unfold winAt
  rw [if_neg (by omega), if_neg (by omega), if_neg (by omega), if_neg (by omega), if_neg (by omega), if_neg (by omega),
    if_neg (by omega), if_neg (by omega), if_neg (by omega), if_pos (by omega)]
/-- An access that starts in cell memory reaches all of it from there on. -/
theorem reach_cell {start a : Nat} (h : 0x600000 ≤ start) (hs : start ≤ a) (ha : a < 0x660000) : reach start a = .ok := by
  unfold reach extentOf
  rw [winAt_cell h (by omega)]
  simp only [Option.isSome_some, true_or, and_true]
  exact if_pos (by omega)

theorem frameRead_cell (s : State) (w : Writer) {start a : Nat} (h : 0x600000 ≤ start) (hs : start ≤ a) (ha : a < 0x660000) :
    frameRead w start a s = (s.rdMem a, 0, s) := by
  unfold frameRead
  rw [reach_cell h hs ha, winAt_cell (by omega) ha]
  rfl
theorem frameWrite_cell (s : State) (w : Writer) {start a : Nat} (v : Word) (h : 0x600000 ≤ start) (hs : start ≤ a)
    (ha : a < 0x660000) : frameWrite w start a v s = (0, s.wrMem a v) := by
  unfold frameWrite
  rw [reach_cell h hs ha, winAt_cell (by omega) ha]
  rfl
theorem frameReads_cell (s : State) (w : Writer) {start : Nat} (h : 0x600000 ≤ start) (n : Nat) :
    ∀ a, start ≤ a → a + 4 * n ≤ 0x660000 → frameReads w start a n s = (s.rdMems a n, 0, s) := by
  induction n with
  | zero => intro a _ _; rfl
  | succ n ih => intro a hs ha; rw [frameReads, frameRead_cell s w h hs (by omega), ih (a + 4) (by omega) (by omega),
    Nat.or_zero, State.rdMems]
theorem frameWrites_cell (w : Writer) {start : Nat} (h : 0x600000 ≤ start) (l : List Word) :
    ∀ (s : State) (a : Nat), start ≤ a → a + 4 * l.length ≤ 0x660000 → frameWrites w start a l s = (0, s.wrMems a l) := by
  induction l with
  | nil => intro s a _ _; rfl
  | cons v l ih =>
    intro s a hs ha
    rw [List.length_cons] at ha
    rw [frameWrites, frameWrite_cell s w v h hs (by omega), ih _ (a + 4) (by omega) (by omega), Nat.or_zero, State.wrMems]
/-- An RMW of cell memory writes the masked bits (R283): no W1C bit lies there. -/
theorem frameRmw_cell (s : State) (w : Writer) {a : Nat} (mask v : Word) (h : 0x600000 ≤ a) (ha : a < 0x660000) :
    frameRmw w a mask v s = (s.rdMem a, 0, s.wrMem a ((s.rdMem a &&& ~~~ mask) ||| (v &&& mask))) := by
  have hval : rmwValue a (s.rdMem a) mask v = (s.rdMem a &&& ~~~ mask) ||| (v &&& mask) := by
    unfold rmwValue; rw [findReg_cell h]
  unfold frameRmw
  rw [reach_cell h le_rfl ha, winAt_cell h ha]
  dsimp only [winRead, winWrite]
  rw [hval, Nat.or_zero]

/-! ### READ, WRITE and RMW of cell memory -/

/-- A command that asked for no reset is answered and nothing else (R438). -/
theorem State.finishWrite_eq_finish {s : State} (h : s.rstReq = false) (k : Nat) (c : Cmd) (flags : Nat) (ws : List Word) :
    s.finishWrite k c flags ws = s.finish k c 0 0 flags ws := by
  have hs : ({ s with rstReq := false } : State) = s := by rw [← h]
  unfold State.finishWrite
  dsimp only
  rw [h, hs]
  rfl

section
variable {s : State} {k : Nat} {c : Cmd}

theorem readCmd_cell (h : s.runnable k 1 c) (ha : 0x600000 ≤ c.addr)
    (hn : c.addr + 4 * ((c.word 0).toNat / 2 ^ 24) ≤ 0x660000) :
    readCmd k s = (s.atWork k).finish k c 0 0 0 ((s.atWork k).rdMems c.addr ((c.word 0).toNat / 2 ^ 24)) := by
  unfold readCmd
  rw [State.runHead_of_runnable h rfl, frameReads_cell _ _ ha _ _ le_rfl hn]
theorem writeCmd_cell (h : s.runnable k 2 c) (ha : 0x600000 ≤ c.addr) (hr : s.rstReq = false)
    (hn : c.addr + 4 * (c.words.drop 1).length ≤ 0x660000) :
    writeCmd k s = ((s.atWork k).wrMems c.addr (c.words.drop 1)).finish k c 0 0 0 [] := by
  have hr : ((s.atWork k).wrMems c.addr (c.words.drop 1)).rstReq = false := (State.wrMems_rstReq ..).trans hr
  unfold writeCmd
  rw [State.runHead_of_runnable h rfl, frameWrites_cell _ ha _ _ _ le_rfl hn]
  exact State.finishWrite_eq_finish hr ..
theorem rmwCmd_cell (h : s.runnable k 3 c) (ha : 0x600000 ≤ c.addr) (hr : s.rstReq = false) (hn : c.addr < 0x660000) :
    rmwCmd k s = ((s.atWork k).wrMem c.addr (((s.atWork k).rdMem c.addr &&& ~~~ c.word 1) ||| (c.word 2 &&& c.word 1))).finish k c
      0 0 0 [(s.atWork k).rdMem c.addr] := by
  have hr (v : Word) : ((s.atWork k).wrMem c.addr v).rstReq = false := (State.wrMem_rstReq ..).trans hr
  unfold rmwCmd
  rw [State.runHead_of_runnable h rfl, frameRmw_cell _ _ _ _ ha hn]
  exact State.finishWrite_eq_finish (hr _) ..

/-- READ of cell memory returns its words and leaves registers and memory alone. -/
theorem readCmd_cell_spec (h : s.runnable k 1 c) (ha : 0x600000 ≤ c.addr)
    (hn : c.addr + 4 * ((c.word 0).toNat / 2 ^ 24) ≤ 0x660000) :
    s.answeredBy (readCmd k s) k c 0 0 (s.rdMems c.addr ((c.word 0).toNat / 2 ^ 24)) ∧ (readCmd k s).regs = s.regs ∧
      (readCmd k s).mem = s.mem := by
  have hw := s.atWork_streamsOnly k
  have hreads := State.rdMems_congr hw.rdByte ((c.word 0).toNat / 2 ^ 24) c.addr
  rw [readCmd_cell h ha hn, hreads]
  exact ⟨State.answeredBy_finish_of_runnable h rfl 0 0 _, (hw.finish ..).regs, (hw.finish ..).mem⟩

/-- WRITE of cell memory writes its words and no other byte. -/
theorem writeCmd_cell_spec (h : s.runnable k 2 c) (ha : 0x600000 ≤ c.addr) (hr : s.rstReq = false) {ws : List Word}
    (hws : c.words.drop 1 = ws) (hn : c.addr + 4 * ws.length ≤ 0x660000) :
    s.answeredBy (writeCmd k s) k c 0 0 [] ∧ (writeCmd k s).rdMems c.addr ws.length = ws ∧ (writeCmd k s).regs = s.regs ∧
      ∀ a, a < c.addr ∨ c.addr + 4 * ws.length ≤ a → (writeCmd k s).rdByte a = s.rdByte a := by
  subst hws
  have hcmd := writeCmd_cell h ha hr hn
  have hdone : StreamsOnly ((s.atWork k).wrMems c.addr (c.words.drop 1)) (writeCmd k s) := by
    rw [hcmd]; exact (StreamsOnly.refl _).finish ..
  refine ⟨?_, ?_, ?_, fun a hout => ?_⟩
  · rw [hcmd]; exact State.answeredBy_finish_of_runnable h (State.wrMems_streams ..) 0 0 []
  · rw [State.rdMems_congr hdone.rdByte]; exact State.rdMems_wrMems_same _ _ _
  · rw [hdone.regs, State.wrMems_regs]; exact (s.atWork_streamsOnly k).regs
  · rw [hdone.rdByte, State.rdByte_wrMems_ne _ _ _ hout]; exact (s.atWork_streamsOnly k).rdByte a

/-- RMW of a word of cell memory returns the old word, writes the masked bits and no other byte. -/
theorem rmwCmd_cell_spec (h : s.runnable k 3 c) (ha : 0x600000 ≤ c.addr) (hr : s.rstReq = false) (hn : c.addr < 0x660000) :
    s.answeredBy (rmwCmd k s) k c 0 0 [s.rdMem c.addr] ∧
      (rmwCmd k s).rdMem c.addr = (s.rdMem c.addr &&& ~~~ c.word 1) ||| (c.word 2 &&& c.word 1) ∧ (rmwCmd k s).regs = s.regs ∧
      ∀ a, a < c.addr ∨ c.addr + 4 ≤ a → (rmwCmd k s).rdByte a = s.rdByte a := by
  have hw := s.atWork_streamsOnly k
  have hold : (s.atWork k).rdMem c.addr = s.rdMem c.addr := State.rdMem_congr (fun _ _ => hw.rdByte _)
  have hcmd := rmwCmd_cell h ha hr hn
  rw [hold] at hcmd
  have hdone : StreamsOnly ((s.atWork k).wrMem c.addr ((s.rdMem c.addr &&& ~~~ c.word 1) ||| (c.word 2 &&& c.word 1)))
      (rmwCmd k s) := by
    rw [hcmd]; exact (StreamsOnly.refl _).finish ..
  refine ⟨?_, ?_, ?_, fun a hout => ?_⟩
  · rw [hcmd]; exact State.answeredBy_finish_of_runnable h (State.wrMem_streams ..) 0 0 _
  · rw [State.rdMem_congr (fun _ _ => hdone.rdByte _), State.rdMem_wrMem_same]
  · rw [hdone.regs, State.wrMem_regs]; exact hw.regs
  · rw [hdone.rdByte, State.rdByte_wrMem_ne _ _ hout]; exact hw.rdByte a
end

/-! ### READ_CLEAR (R5, R6) -/

section
variable (s : State) (w : Writer) (a : Nat)

theorem readClear_of_noRc (h : rcMask a = 0) : readClear w a s = s := if_pos h
theorem readClear_of_rc (h : rcMask a ≠ 0) : readClear w a s = { s.clearRc a with dataOut := s.rcView w a } := if_neg h

/-- With nothing set in the same cycle the read returns the value. -/
theorem State.rcView_of_nothing_set (h : s.setBits a = 0) : s.rcView w a = s.view w a := by
  unfold State.rcView
  dsimp only
  rw [h, Nat.zero_and, if_pos rfl]
/-- An RC bit set in the same cycle reads as before it. -/
theorem State.rcView_of_set {b : Nat} (hm : (rcMask a).toNat.testBit b = true) (hb : (s.setBits a).testBit b = true) :
    (s.rcView w a).toNat.testBit b = (s.rdBefore a (rcMask a).toNat).toNat.testBit b := by
  have hset : s.setBits a &&& (rcMask a).toNat ≠ 0 := by
    intro h0
    have := congrArg (fun n => n.testBit b) h0
    simp [hm, hb] at this
  unfold State.rcView
  dsimp only
  rw [if_neg hset]
  rw [BitVec.testBit_toNat] at hm ⊢
  rw [BitVec.testBit_toNat]
  simp [hm]
/-- Outside the serial ports a clear keeps the bits that are not RC and those set in the same cycle. -/
theorem State.rd_clearRc (h : rcMask a ≠ 0) (hport : ¬ (0x050000 ≤ a ∧ a < 0x054000)) :
    (s.clearRc a).rd a = s.rd a &&& (~~~ rcMask a ||| BitVec.ofNat 32 (s.setBits a)) := by
  unfold State.clearRc
  dsimp only
  rw [if_neg h, if_neg hport]
  exact s.rd_wr_same a _
end

/-! ### Writes of a register word (R5) -/

section
variable {s : State} {w : Writer} {a : Nat} {v : Word}

/-- A write that asks for no reset is followed by none (R438). -/
theorem State.takeReset_of_not_asked (h : s.rstReq = false) : s.takeReset = s := by unfold State.takeReset; rw [h]; rfl

theorem accessWrite_of_no_register (h : findReg a = none) : accessWrite w a v s = s := by
  cases w <;> (unfold accessWrite; rw [h]; dsimp only; unfold regWrite; rw [h])
theorem accessWrite_of_not_staged {r : RegHit} (h : findReg a = some r) (hs : stagedReg r = false) :
    accessWrite w a v s = wordWrite w a v (clearW1c a v s) := by
  have hreg : regWrite w a v s = wordWrite w a v (clearW1c a v s) := by
    unfold regWrite; rw [h]; dsimp only; rw [hs]; rfl
  cases w with
  | supervisor => exact hreg
  | host n => unfold accessWrite; rw [h]; dsimp only; rw [hs]; exact hreg

/-- A word that no anchor guards takes its RW and RWA bits (R286). -/
theorem plainWrite_of_no_anchor {r : RegHit} (h : findReg a = some r) (ha : s.anchorOf a = none) :
    plainWrite w a v s = s.wr a ((s.rd a &&& ~~~ BitVec.ofNat 32 (halfOf r (r.row.rw ||| r.row.rwa))) |||
      (v &&& BitVec.ofNat 32 (halfOf r (r.row.rw ||| r.row.rwa)))) := by
  unfold plainWrite
  rw [h, ha]
  rfl
/-- A word with no W1C bit has none to clear. -/
theorem clearW1c_of_none {r : RegHit} (h : findReg a = some r) (h0 : r.row.w1c = 0) : clearW1c a v s = s := by
  have hhalf : halfOf r r.row.w1c = 0 := by rw [h0]; unfold halfOf; split <;> rfl
  unfold clearW1c
  rw [h]
  dsimp only
  rw [hhalf]
  simp
end

/-! ### PWR_WAKEEN, a plain word -/

/-- PWR_WAKEEN in the register map. -/
def wakeenHit : RegHit := ⟨0, ⟨0x8, 1, 4, false, 0x1F, 0x7F, 0, 0, 0, 0, 0⟩, 0, false⟩
theorem findReg_PWR_WAKEEN : findReg PWR_WAKEEN = some wakeenHit := by decide

/-- A write of PWR_WAKEEN sets its seven RW bits. -/
theorem accessWrite_PWR_WAKEEN (s : State) (w : Writer) (v : Word) :
    accessWrite w PWR_WAKEEN v s = s.wr PWR_WAKEEN ((s.rd PWR_WAKEEN &&& ~~~ 0x7F#32) ||| (v &&& 0x7F#32)) :=
  calc accessWrite w PWR_WAKEEN v s
    _ = wordWrite w PWR_WAKEEN v (clearW1c PWR_WAKEEN v s) := accessWrite_of_not_staged findReg_PWR_WAKEEN rfl
    _ = wordWrite w PWR_WAKEEN v s := by rw [clearW1c_of_none findReg_PWR_WAKEEN rfl]
    _ = plainWrite w PWR_WAKEEN v s := rfl
    _ = _ := plainWrite_of_no_anchor findReg_PWR_WAKEEN rfl
/-- The low seven bits of a word merged under their mask are those of the word written. -/
theorem fieldOf_PWR_WAKEEN_EN_merge (x v : Word) :
    fieldOf ((x &&& ~~~ 0x7F#32) ||| (v &&& 0x7F#32)) PWR_WAKEEN_EN = fieldOf v PWR_WAKEEN_EN := by
  have hmask (y : Word) : fieldOf y PWR_WAKEEN_EN = (y &&& 0x7F#32).toNat := by
    have hmod : fieldOf y PWR_WAKEEN_EN = y.toNat % 2 ^ 7 := congrArg (· % 2 ^ 7) (Nat.div_one y.toNat)
    rw [hmod, BitVec.toNat_and, ← Nat.and_two_pow_sub_one_eq_mod]
    rfl
  have hmerge : ((x &&& ~~~ 0x7F#32) ||| (v &&& 0x7F#32)) &&& 0x7F#32 = v &&& 0x7F#32 := by
    ext i hi
    simp only [BitVec.getElem_and, BitVec.getElem_or, BitVec.getElem_not]
    cases (0x7F#32)[i] <;> simp
  rw [hmask, hmask, hmerge]

/-! ### CT_SET, a staged quantity (R282) -/

/-- The words of CT_SET in the register map. -/
def ctSetHit (high : Bool) : RegHit := ⟨0, ⟨0x820, 1, 4, true, 0, 0xFFFFFFFFFFFFFFFF, 0, 0, 0, 0, 0⟩, 0, high⟩
theorem findReg_CT_SET : findReg CT_SET = some (ctSetHit false) := by decide
theorem findReg_CT_SET_high : findReg (CT_SET + 4) = some (ctSetHit true) := by decide

/-- A merge under a full mask is the word written. -/
theorem merge_allOnes (x v : Word) : (x &&& ~~~ 0xFFFFFFFF#32) ||| (v &&& 0xFFFFFFFF#32) = v := by
  rw [show 0xFFFFFFFF#32 = BitVec.allOnes 32 from rfl, BitVec.not_allOnes, BitVec.and_zero, BitVec.zero_or,
    BitVec.and_allOnes]
theorem plainWrite_CT_SET (s : State) (w : Writer) (v : Word) : plainWrite w CT_SET v s = s.wr CT_SET v :=
  (plainWrite_of_no_anchor findReg_CT_SET rfl).trans (congrArg (s.wr CT_SET) (merge_allOnes _ v))
theorem plainWrite_CT_SET_high (s : State) (w : Writer) (v : Word) : plainWrite w (CT_SET + 4) v s = s.wr (CT_SET + 4) v :=
  (plainWrite_of_no_anchor findReg_CT_SET_high rfl).trans (congrArg (s.wr (CT_SET + 4)) (merge_allOnes _ v))
theorem quadWrite_CT_SET_low (s : State) (w : Writer) (lo : Word) : quadWrite w CT_SET (some lo) none s = s.wr CT_SET lo :=
  plainWrite_CT_SET s w lo
theorem quadWrite_CT_SET (s : State) (w : Writer) (lo hi : Word) :
    quadWrite w CT_SET (some lo) (some hi) s = (s.wr CT_SET lo).wr (CT_SET + 4) hi :=
  calc quadWrite w CT_SET (some lo) (some hi) s
    _ = plainWrite w (CT_SET + 4) hi (plainWrite w CT_SET lo s) := rfl
    _ = _ := by rw [plainWrite_CT_SET, plainWrite_CT_SET_high]

section
variable {s : State} {h : Fin 8}

/-- A host's low word of CT_SET is held while its stage is free. -/
theorem accessWrite_CT_SET_held (hstage : (s.host h).stage = none) (v : Word) :
    accessWrite (.host h) CT_SET v s = s.modHost h (fun x => { x with stage := some (CT_SET, v, s.now) }) := by
  have hold : s.stageOld h = s := by unfold State.stageOld; rw [hstage]
  have hflush : s.stageFlush h = s := by unfold State.stageFlush; rw [hstage]
  unfold accessWrite
  rw [findReg_CT_SET]
  dsimp only
  rw [hold, hflush]
  rfl
/-- Within 1 µs the high word is written with the low word that waits. -/
theorem accessWrite_CT_SET_high {lo : Word} {t0 : Nat} (hstage : (s.host h).stage = some (CT_SET, lo, t0))
    (hnow : s.now ≤ t0 + 1000) (v : Word) :
    accessWrite (.host h) (CT_SET + 4) v s =
      ((s.modHost h (fun x => { x with stage := none })).wr CT_SET lo).wr (CT_SET + 4) v := by
  have hold : s.stageOld h = s := by unfold State.stageOld; rw [hstage]; exact if_neg (by omega)
  unfold accessWrite
  rw [findReg_CT_SET_high]
  dsimp only
  rw [hold, hstage]
  exact quadWrite_CT_SET ..
/-- At the end of its 1 µs the low word that waits is applied alone. -/
theorem writeStageExpiry_CT_SET {lo : Word} {t0 : Nat} (hstage : (s.host h).stage = some (CT_SET, lo, t0)) :
    writeStageExpiry h s =
      (({ s with now := max s.now (t0 + 1000) } : State).modHost h (fun x => { x with stage := none })).wr CT_SET lo := by
  have hstage' : (({ s with now := max s.now (t0 + 1000) } : State).host h).stage = some (CT_SET, lo, t0) := hstage
  unfold writeStageExpiry
  rw [hstage]
  dsimp only
  unfold State.stageFlush
  rw [hstage']
  exact quadWrite_CT_SET_low ..
/-- The quantity is its two words. -/
theorem State.get_CT_SET_V (s : State) (lo hi : Word) :
    ((s.wr CT_SET lo).wr (CT_SET + 4) hi).get CT_SET_V = hi.toNat * 2 ^ 32 + lo.toNat := by
  have hlo : ((s.wr CT_SET lo).wr (CT_SET + 4) hi).rd CT_SET = lo := by
    rw [State.rd_wr_ne _ _ (by decide), State.rd_wr_same]
  have hhi : ((s.wr CT_SET lo).wr (CT_SET + 4) hi).rd (CT_SET + 4) = hi := State.rd_wr_same ..
  have hval : ((s.wr CT_SET lo).wr (CT_SET + 4) hi).rd64 CT_SET = hi.toNat * 2 ^ 32 + lo.toNat := by
    unfold State.rd64; rw [hlo, hhi]
  have hlt : hi.toNat * 2 ^ 32 + lo.toNat < 2 ^ 64 := by have := hi.isLt; have := lo.isLt; omega
  unfold State.get
  rw [if_neg (by decide), show CT_SET_V.a = CT_SET from rfl, hval]
  unfold bitsOf
  rw [show CT_SET_V.lo = 0 from rfl, show CT_SET_V.hi = 63 from rfl, pow_zero, Nat.div_one, Nat.mod_eq_of_lt hlt]
end

/-! ### The commands -/

section
variable {s : State}

theorem exec_readClear (hup : s.up = true) (w : Writer) {a : BitVec 24} (ha : a.toNat % 4 = 0) :
    exec (.readClear w a) s = .next (s.effect (readClear w a.toNat)) := by
  show execReadClear w a s = _
  unfold execReadClear
  rw [if_pos ha, live_next hup]
/-- A register write that asks for no reset has the effect of its access (R438). -/
theorem exec_registerWrite (hup : s.up = true) (w : Writer) {a : BitVec 24} (v : Word) (ha : a.toNat % 4 = 0) {t : State}
    (ht : accessWrite w a.toNat v s = t) (hr : t.rstReq = false) :
    exec (.registerWrite w a v) s = .next (s.effect (fun _ => t)) := by
  have hacc : (accessWrite w a.toNat v s).takeReset = t := by rw [ht, State.takeReset_of_not_asked hr]
  show execRegisterWrite w a v s = _
  unfold execRegisterWrite
  rw [if_pos ha, live_next hup]
  exact congrArg Host.Outcome.next (State.effect_congr hacc)
theorem exec_registerWrite_misaligned (w : Writer) {a : BitVec 24} (v : Word) (ha : a.toNat % 4 ≠ 0) :
    exec (.registerWrite w a v) s = .fault .illFormed := by
  show execRegisterWrite w a v s = _
  unfold execRegisterWrite
  exact if_neg ha
theorem exec_writeStageExpiry (hup : s.up = true) (h : Fin 8) :
    exec (.writeStageExpiry h) s = .next (s.effect (writeStageExpiry h)) := live_next hup _
theorem exec_read (hup : s.up = true) (k : Fin 32) : exec (.read k) s = .next (s.effect (readCmd k)) := live_next hup _
theorem exec_write (hup : s.up = true) (k : Fin 32) : exec (.write k) s = .next (s.effect (writeCmd k)) := live_next hup _
theorem exec_rmw (hup : s.up = true) (k : Fin 32) : exec (.rmw k) s = .next (s.effect (rmwCmd k)) := live_next hup _
end

end Sys2Proof.Machine
end

section
/-! PROOFS. The statements of the family 00_scope.md: O1 and O56. -/
namespace Sys2Proof.Machine

/-- Settles O1: the queue of the state that `step` hands to `exec` is the rest of the queue. -/
theorem stepRunsTheFrontCommand : Obligations.StepRunsTheFrontCommand := by
  unfold Obligations.StepRunsTheFrontCommand
  intro c s
  rfl

/-- The clause of O56 on READ_CLEAR. -/
theorem readClear_row {s : State} (hup : s.up = true) (w : Writer) {a : BitVec 24} (ha : a.toNat % 4 = 0) :
    (rcMask a.toNat = 0#32 → exec (.readClear w a) s = .next s) ∧
    (rcMask a.toNat ≠ 0#32 → ∃ t, exec (.readClear w a) s = .next t ∧
      (s.setBits a.toNat = 0 → t.dataOut = s.view w a.toNat) ∧
      (∀ b : Nat, (rcMask a.toNat).toNat.testBit b = true → (s.setBits a.toNat).testBit b = true →
        t.dataOut.toNat.testBit b = (s.rdBefore a.toNat (rcMask a.toNat).toNat).toNat.testBit b) ∧
      (¬ (0x050000 ≤ a.toNat ∧ a.toNat < 0x054000) →
        t.rd a.toNat = s.rd a.toNat &&& (~~~ rcMask a.toNat ||| BitVec.ofNat 32 (s.setBits a.toNat)))) := by
  rw [exec_readClear hup w ha]
  constructor
  · intro h
    rw [State.effect_of_eq (readClear_of_noRc s w _ h)]
  · intro h
    have hread := readClear_of_rc s w _ h
    refine ⟨_, rfl, fun hset => ?_, fun b hm hb => ?_, fun hport => ?_⟩
    · rw [State.effect_dataOut, hread]; exact s.rcView_of_nothing_set w _ hset
    · rw [State.effect_dataOut, hread]; exact s.rcView_of_set w _ hm hb
    · rw [State.effect_rd, hread]; exact s.rd_clearRc _ h hport

/-- The clause of O56 on a plain word. -/
theorem registerWrite_PWR_WAKEEN_row {s : State} (hup : s.up = true) (w : Writer) (v : Word) (hr : s.rstReq = false) :
    ∃ t, exec (.registerWrite w (BitVec.ofNat 24 PWR_WAKEEN) v) s = .next t ∧
      t.get PWR_WAKEEN_EN = fieldOf v PWR_WAKEEN_EN ∧ ∀ a, a ≠ PWR_WAKEEN → t.rd a = s.rd a := by
  refine ⟨_, exec_registerWrite hup w v rfl (accessWrite_PWR_WAKEEN s w v) hr, ?_, fun a ha => ?_⟩
  · rw [State.effect_get, State.get_wr_eq (a := PWR_WAKEEN) s _ rfl (by decide)]; exact fieldOf_PWR_WAKEEN_EN_merge _ v
  · rw [State.effect_rd, State.rd_wr_ne _ _ ha]

/-- The clause of O56 on a low word that waits. -/
theorem ctSet_stage_row {s : State} (hup : s.up = true) {h : Fin 8} (v : Word) {lo : Word} {t0 : Nat} (hr : s.rstReq = false)
    (hstage : (s.host h).stage = some (CT_SET, lo, t0)) :
    (s.now ≤ t0 + 1000 → ∃ t, exec (.registerWrite (.host h) (BitVec.ofNat 24 (CT_SET + 4)) v) s = .next t ∧
      t.get CT_SET_V = v.toNat * 2 ^ 32 + lo.toNat ∧ (t.host h).stage = none) ∧
    (∃ t, exec (.writeStageExpiry h) s = .next t ∧ t.rd CT_SET = lo ∧ t.rd (CT_SET + 4) = s.rd (CT_SET + 4) ∧
      (t.host h).stage = none ∧ t.now = max s.now (t0 + 1000)) := by
  constructor
  · intro hnow
    refine ⟨_, exec_registerWrite hup _ v rfl (accessWrite_CT_SET_high hstage hnow v) hr, ?_, ?_⟩
    · rw [State.effect_get]; exact State.get_CT_SET_V ..
    · simp
  · refine ⟨_, exec_writeStageExpiry hup h, ?_⟩
    rw [State.effect_rd, State.effect_rd, State.effect_host, State.effect_now, writeStageExpiry_CT_SET hstage]
    refine ⟨State.rd_wr_same .., ?_, by simp, rfl⟩
    exact State.rd_wr_ne _ _ (by decide)

/-- The clause of O56 on READ, WRITE and RMW of cell memory. -/
theorem cellMemory_row {s : State} (hup : s.up = true) (k : Fin 32) {c : Cmd} {x : Word} {ws : List Word}
    (hc : c.words = x :: ws) (ha : 0x600000 ≤ c.addr) :
    (s.runnable k 1 c → c.addr + 4 * (x.toNat / 2 ^ 24) ≤ 0x660000 →
      ∃ t, exec (.read k) s = .next t ∧ s.answeredBy t k c 0 0 (s.rdMems c.addr (x.toNat / 2 ^ 24)) ∧ t.regs = s.regs ∧
        t.mem = s.mem) ∧
    (s.runnable k 2 c → c.addr + 4 * ws.length ≤ 0x660000 → s.rstReq = false →
      ∃ t, exec (.write k) s = .next t ∧ s.answeredBy t k c 0 0 [] ∧ t.rdMems c.addr ws.length = ws ∧ t.regs = s.regs ∧
        ∀ a, a < c.addr ∨ c.addr + 4 * ws.length ≤ a → t.rdByte a = s.rdByte a) ∧
    (∀ mask v : Word, ws = [mask, v] → s.runnable k 3 c → c.addr + 4 ≤ 0x660000 → s.rstReq = false →
      ∃ t, exec (.rmw k) s = .next t ∧ s.answeredBy t k c 0 0 [s.rdMem c.addr] ∧
        t.rdMem c.addr = (s.rdMem c.addr &&& ~~~ mask) ||| (v &&& mask) ∧ t.regs = s.regs ∧
        ∀ a, a < c.addr ∨ c.addr + 4 ≤ a → t.rdByte a = s.rdByte a) := by
  have hword (i : Nat) : c.word i = (x :: ws).getD i 0 := by unfold Cmd.word; rw [hc]
  refine ⟨fun h hn => ⟨_, exec_read hup k, ?_⟩, fun h hn hr => ⟨_, exec_write hup k, ?_⟩, ?_⟩
  · have hx : c.word 0 = x := hword 0
    have hspec := readCmd_cell_spec h ha (by rw [hx]; exact hn)
    rw [hx] at hspec
    exact hspec
  · have hspec := writeCmd_cell_spec h ha hr (by rw [hc]; rfl : c.words.drop 1 = ws) hn
    obtain ⟨hans, hmems, hregs, hbytes⟩ := hspec
    exact ⟨hans, (State.rdMems_congr (fun b => s.effect_rdByte _ b) _ _).trans hmems, hregs, hbytes⟩
  · intro mask v hws h hn hr
    have hmask : c.word 1 = mask := by rw [hword, hws]; rfl
    have hv : c.word 2 = v := by rw [hword, hws]; rfl
    have hspec := rmwCmd_cell_spec h ha hr (by omega)
    rw [hmask, hv] at hspec
    exact ⟨_, exec_rmw hup k, hspec⟩

/-- Settles O56, clause by clause: the rules of READ_CLEAR, of a write by the kind of its register, and of cell memory. -/
theorem registerRows : Obligations.RegisterRows := by
  unfold Obligations.RegisterRows
  intro s hup
  refine ⟨fun w a ha => readClear_row hup w ha, fun w a v ha hnone hr => ?_, fun w a v ha => exec_registerWrite_misaligned w v ha,
    fun w v hr => registerWrite_PWR_WAKEEN_row hup w v hr, fun h v hr hstage => ?_,
    fun h v lo t0 hr hstage => ctSet_stage_row hup v hr hstage, fun k c x ws hc ha => cellMemory_row hup k hc ha⟩
  · exact exec_registerWrite hup w v ha (accessWrite_of_no_register hnone) hr
  · refine ⟨_, exec_registerWrite hup _ v rfl (accessWrite_CT_SET_held hstage v) hr, rfl, ?_⟩
    rw [State.effect_host, State.host_modHost_same]

end Sys2Proof.Machine
end

section
/-! PROOFS. What no operation behind a tick instant or a change of a slot's state touches: cell time, the tick instant and the
level of SAFEOFF_N (R19, R215). One lemma per operation, in the order of the model. -/
namespace Sys2Proof.Machine

/-- Cell time, the tick instant with what is noted of it, and the level of SAFEOFF_N. -/
def State.clock (s : State) : Nat × Nat × Bool × Bool × Bool := (s.now, s.tickAt, s.tickLeft, s.tickDue, s.safeoff)

theorem State.clock_congr {s t : State} (hnow : t.now = s.now) (hat : t.tickAt = s.tickAt) (hleft : t.tickLeft = s.tickLeft)
    (hdue : t.tickDue = s.tickDue) (hsafe : t.safeoff = s.safeoff) : t.clock = s.clock := by
  unfold State.clock; rw [hnow, hat, hleft, hdue, hsafe]
theorem State.now_eq_of_clock {s t : State} (h : t.clock = s.clock) : t.now = s.now := congrArg Prod.fst h
theorem State.safeoff_eq_of_clock {s t : State} (h : t.clock = s.clock) : t.safeoff = s.safeoff :=
  congrArg (fun x => x.2.2.2.2) h
theorem StreamsOnly.clock {s t : State} (h : StreamsOnly s t) : t.clock = s.clock := by obtain ⟨x, rfl⟩ := h; rfl

section
variable (s : State)

/-! ### The base operations -/

theorem State.ite_clock {c : Prop} [Decidable c] (s t : State) : (if c then s else t).clock = if c then s.clock else t.clock :=
  apply_ite ..
theorem State.each_clock {α : Type} (l : List α) {f : α → State → State} (h : ∀ x t, (f x t).clock = t.clock) :
    (s.each l f).clock = s.clock := State.each_same l State.clock h s
theorem State.wr_clock (a : Nat) (v : Word) : (s.wr a v).clock = s.clock :=
  clock_congr (s.wr_now a v) (s.wr_tickAt a v) (s.wr_tickLeft a v) (s.wr_tickDue a v) (s.wr_safeoff a v)
theorem State.wr64_clock (a v : Nat) : (s.wr64 a v).clock = s.clock :=
  clock_congr (s.wr64_now a v) (s.wr64_tickAt a v) (s.wr64_tickLeft a v) (s.wr64_tickDue a v) (s.wr64_safeoff a v)
theorem State.put_clock (f : Fld) (v : Nat) : (s.put f v).clock = s.clock :=
  clock_congr (s.put_now f v) (s.put_tickAt f v) (s.put_tickLeft f v) (s.put_tickDue f v) (s.put_safeoff f v)
theorem State.puti_clock (f : Fld) (v : Int) : (s.puti f v).clock = s.clock :=
  clock_congr (s.puti_now f v) (s.puti_tickAt f v) (s.puti_tickLeft f v) (s.puti_tickDue f v) (s.puti_safeoff f v)
theorem State.flag_clock (f : Fld) (b : Bool) : (s.flag f b).clock = s.clock :=
  clock_congr (s.flag_now f b) (s.flag_tickAt f b) (s.flag_tickLeft f b) (s.flag_tickDue f b) (s.flag_safeoff f b)
theorem State.inc_clock (f : Fld) (k : Nat) : (s.inc f k).clock = s.clock :=
  clock_congr (s.inc_now f k) (s.inc_tickAt f k) (s.inc_tickLeft f k) (s.inc_tickDue f k) (s.inc_safeoff f k)
theorem State.incSat_clock (f : Fld) (k : Nat) : (s.incSat f k).clock = s.clock :=
  clock_congr (s.incSat_now f k) (s.incSat_tickAt f k) (s.incSat_tickLeft f k) (s.incSat_tickDue f k) (s.incSat_safeoff f k)
theorem State.err_clock (n e : Nat) : (s.err n e).clock = s.clock :=
  clock_congr (s.err_now n e) (s.err_tickAt n e) (s.err_tickLeft n e) (s.err_tickDue n e) (s.err_safeoff n e)
theorem State.setGen_clock (n : Nat) (x : Gen) : (s.setGen n x).clock = s.clock := (rfl)
theorem State.modGen_clock (n : Nat) (f : Gen → Gen) : (s.modGen n f).clock = s.clock := (rfl)
theorem State.modCc_clock (n : Nat) (f : Cc → Cc) : (s.modCc n f).clock = s.clock := (rfl)
theorem State.setChan_clock (c : Nat) (x : PwmChan) : (s.setChan c x).clock = s.clock := (rfl)
theorem State.modChan_clock (c : Nat) (f : PwmChan → PwmChan) : (s.modChan c f).clock = s.clock := (rfl)
theorem State.modStream_clock (k : Nat) (f : Stream → Stream) : (s.modStream k f).clock = s.clock := (rfl)
theorem State.modHost_clock (h : Nat) (f : HostSt → HostSt) : (s.modHost h f).clock = s.clock := (rfl)
theorem State.setSwap_clock (n : Nat) (x : Swap) : (s.setSwap n x).clock = s.clock := (rfl)
theorem State.modSwap_clock (n : Nat) (f : Swap → Swap) : (s.modSwap n f).clock = s.clock := (rfl)
theorem State.modEngine_clock (e : Nat) (f : Engine → Engine) : (s.modEngine e f).clock = s.clock := (rfl)
theorem State.setCkp_clock (n r : Nat) (x : Ckp) : (s.setCkp n r x).clock = s.clock := (rfl)
theorem State.setPr_clock (n : Nat) (x : Prusik) : (s.setPr n x).clock = s.clock := (rfl)
theorem State.modPr_clock (n : Nat) (f : Prusik → Prusik) : (s.modPr n f).clock = s.clock := (rfl)
theorem State.setPco_clock (q : Nat) (x : Pco) : (s.setPco q x).clock = s.clock := (rfl)
theorem State.setFb_clock (p : Nat) (x : FbPort) : (s.setFb p x).clock = s.clock := (rfl)
theorem State.wrMem_clock (a : Nat) (v : Word) : (s.wrMem a v).clock = s.clock := (rfl)
theorem State.draw_clock : s.draw.clock = s.clock := (rfl)
theorem State.endTest_clock (n : Nat) : (s.endTest n).clock = s.clock := (rfl)
theorem State.upd_bly_clock (x : Belay) : ({ s with bly := x } : State).clock = s.clock := (rfl)
theorem State.upd_hoDead_clock (x : Bool) : ({ s with hoDead := x } : State).clock = s.clock := (rfl)
theorem State.upd_coll_clock (x : Collector) : ({ s with coll := x } : State).clock = s.clock := (rfl)
theorem State.upd_hkc_clock (x : Hkc) : ({ s with hkc := x } : State).clock = s.clock := (rfl)
theorem State.upd_drawn_clock (x : Nat) : ({ s with drawn := x } : State).clock = s.clock := (rfl)
theorem State.upd_pulses_clock (x : List Nat) : ({ s with pulses := x } : State).clock = s.clock := (rfl)

/-! ### Changes of a slot's state (Machine/Slots.lean) -/

theorem State.interruptWait_clock (n new reason : Nat) : (s.interruptWait n new reason).clock = s.clock :=
  ((StreamsOnly.refl s).interruptWait n new reason).clock
theorem State.interruptPitch_clock (n i : Nat) : (s.interruptPitch n i).clock = s.clock :=
  ((StreamsOnly.refl s).interruptPitch n i).clock
theorem State.interruptSlot_clock (p : Nat → Bool) (halt : Nat) : (s.interruptSlot p halt).clock = s.clock :=
  ((StreamsOnly.refl s).interruptSlot p halt).clock
theorem State.swapAnswer_clock (n r : Nat) : (s.swapAnswer n r).clock = s.clock :=
  ((StreamsOnly.refl s).swapAnswer n r).clock
theorem State.noteArmed_clock (c : Nat) : (s.noteArmed c).clock = s.clock := by
  simp only [noteArmed, modChan_clock, ite_clock, ite_self]
theorem State.gateOff_clock (c : Nat) (high : Bool) (trip : Bool) (soft : Bool) : (s.gateOff c high trip soft).clock = s.clock := by
  simp only [gateOff, put_clock, modChan_clock, ite_clock, ite_self]
theorem State.gateOn_clock (c : Nat) (high : Bool) : (s.gateOn c high).clock = s.clock := by
  simp only [gateOn, setChan_clock, ite_clock, ite_self]
theorem State.force_clock (c mode : Nat) (low : Bool) (soft : Bool) : (s.force c mode low soft).clock = s.clock := by
  simp only [force, put_clock, wr_clock, gateOff_clock, modChan_clock, gateOn_clock, ite_clock, ite_self]
theorem State.safeState_clock (c : Nat) : (s.safeState c).clock = s.clock := by
  simp only [safeState, force_clock]
theorem State.endPulses_clock (cs : List Nat) : (s.endPulses cs).clock = s.clock := by
  simp only [endPulses, each_clock, force_clock, upd_pulses_clock, implies_true]
theorem State.dropTest_clock (n : Nat) : (s.dropTest n).clock = s.clock := by
  simp only [dropTest, endPulses_clock, endTest_clock]
theorem State.missBind_clock (n : Nat) : (s.missBind n).clock = s.clock := by
  unfold missBind
  repeat' split
  all_goals simp only [err_clock]
theorem State.brakeOff_clock (n : Nat) (mode : Nat) : (s.brakeOff n mode).clock = s.clock := by
  unfold brakeOff
  repeat' split
  all_goals simp only [each_clock, force_clock, put_clock, implies_true]
theorem State.swapAbandon_clock (n result : Nat) : (s.swapAbandon n result).clock = s.clock := by
  simp only [swapAbandon, put_clock, setSwap_clock, swapAnswer_clock, ite_clock, ite_self]
theorem State.stopRoutes_clock (n : Nat) : (s.stopRoutes n).clock = s.clock := by
  simp only [stopRoutes, each_clock, put_clock, ite_clock, ite_self, implies_true]
theorem State.keepHead_clock (n : Nat) : (s.keepHead n).clock = s.clock := by
  simp only [keepHead, put_clock, ite_clock, ite_self]
theorem State.clearPitst_clock (n : Nat) : (s.clearPitst n).clock = s.clock := by
  simp only [clearPitst, put_clock]
theorem State.abandonPitch_clock (n : Nat) : (s.abandonPitch n).clock = s.clock := by
  unfold abandonPitch
  repeat' split
  all_goals simp only [modGen_clock, clearPitst_clock, interruptPitch_clock]
theorem State.sourceOff_clock (n : Nat) : (s.sourceOff n).clock = s.clock := by
  unfold sourceOff
  dsimp only
  repeat' split
  all_goals simp only [setGen_clock, modGen_clock, clearPitst_clock, put_clock, inc_clock, abandonPitch_clock]
theorem State.stopGen_clock (n : Nat) : (s.stopGen n).clock = s.clock := by
  simp only [stopGen, abandonPitch_clock, put_clock, modGen_clock, ite_clock, ite_self]
theorem State.emitSteps_clock (n k : Nat) : (s.emitSteps n k).clock = s.clock := by
  simp only [emitSteps, modGen_clock, puti_clock]
theorem State.cutSteps_clock (n : Nat) (drop : Bool) : (s.cutSteps n drop).clock = s.clock := by
  simp only [cutSteps, emitSteps_clock, setGen_clock, puti_clock, ite_clock, ite_self]
theorem State.stopSteps_clock (n : Nat) (held : Bool) : (s.stopSteps n held).clock = s.clock := by
  simp only [stopSteps, cutSteps_clock, put_clock, ite_clock, ite_self]
theorem State.prStop_clock (n : Nat) : (s.prStop n).clock = s.clock := by
  simp only [prStop, put_clock, setPr_clock]
theorem State.toTripped_clock (n reason : Nat) (how : SafeHow) (held : Bool) : (s.toTripped n reason how held).clock = s.clock := by
  unfold toTripped
  repeat' split
  all_goals simp only [each_clock, noteArmed_clock, put_clock, safeState_clock, force_clock, brakeOff_clock, stopSteps_clock,
    stopGen_clock, swapAbandon_clock, stopRoutes_clock, modCc_clock, prStop_clock, interruptWait_clock, ite_clock, ite_self,
    implies_true]
theorem State.toRappel_clock (n reason : Nat) (de : Bool) : (s.toRappel n reason de).clock = s.clock := by
  simp only [toRappel, put_clock, cutSteps_clock, sourceOff_clock, modGen_clock, interruptWait_clock, ite_clock, ite_self]
theorem State.toShutdown_clock (n reason : Nat) : (s.toShutdown n reason).clock = s.clock := by
  simp only [toShutdown, put_clock, each_clock, force_clock, modChan_clock, modCc_clock, swapAbandon_clock, cutSteps_clock,
    modGen_clock, prStop_clock, interruptWait_clock, ite_clock, ite_self, implies_true]
theorem State.toRun_clock (n : Nat) : (s.toRun n).clock = s.clock := by
  simp only [toRun, put_clock, modCc_clock, ite_clock, ite_self]
theorem State.toHold_clock (n : Nat) : (s.toHold n).clock = s.clock := by
  simp only [toHold, put_clock, modCc_clock]

/-! ### Messages and reactions (Machine/Collector.lean) -/

theorem State.startSave_clock (sag s4 : Bool) : (s.startSave sag s4).clock = s.clock := by
  simp only [startSave, put_clock, upd_bly_clock, ite_clock, ite_self]
theorem State.reactS3_clock (gs rs : List Nat) (reason : Nat) (held : Bool) : (s.reactS3 gs rs reason held).clock = s.clock := by
  simp only [reactS3, each_clock, toTripped_clock, brakeOff_clock, ite_clock, ite_self, implies_true]
theorem State.killHandover_clock : s.killHandover.clock = s.clock := by
  simp only [killHandover, upd_hoDead_clock]
theorem State.reactS4_clock : s.reactS4.clock = s.clock := by
  simp only [reactS4, startSave_clock, killHandover_clock, put_clock, reactS3_clock, each_clock, interruptSlot_clock,
    modStream_clock, ite_clock, ite_self, implies_true]
theorem State.react_clock (src sev : Nat) : (s.react src sev).clock = s.clock := by
  simp only [react, each_clock, keepHead_clock, toRappel_clock, reactS3_clock, reactS4_clock, ite_clock, ite_self,
    implies_true]
theorem State.notifyHost_clock (m : Msg) (h : Nat) : (s.notifyHost m h).clock = s.clock := by
  simp only [notifyHost, modHost_clock, put_clock, inc_clock, ite_clock, ite_self]
theorem State.traceTrigger_clock (e time : Nat) : (s.traceTrigger e time).clock = s.clock := by
  simp only [traceTrigger, put_clock, wr64_clock, modEngine_clock, ite_clock, ite_self]
theorem State.hkcSignal_clock (c : Bool) (time : Nat) : (s.hkcSignal c time).clock = s.clock := by
  simp only [hkcSignal, upd_hkc_clock, ite_clock, ite_self]
theorem State.raise_clock (src kind detail addr time : Nat) (loc : Bool) (sevIs : Option Nat) :
    (s.raise src kind detail addr time loc sevIs).clock = s.clock := by
  unfold raise
  extract_lets sev m key last s1 s2 coll s3 s4 s5
  have hcount : s1.clock = s.clock := by simp only [s1, put_clock, inc_clock]
  have htaken : s4.clock = s1.clock := by
    simp only [s4, s3, s2, inc_clock, put_clock, upd_coll_clock, each_clock, notifyHost_clock, ite_clock, ite_self, implies_true]
  have htrace : s5.clock = s4.clock := by
    unfold s5; split
    · simp only [each_clock, traceTrigger_clock, ite_clock, ite_self, implies_true]
    · rfl
  rw [react_clock, hkcSignal_clock, htrace, htaken, hcount]
theorem State.raiseSlot_clock (n k detail : Nat) (kind : Nat) : (s.raiseSlot n k detail kind).clock = s.clock := by
  simp only [raiseSlot, raise_clock]

/-! ### The generator (Machine/Planner.lean, Machine/Motion.lean) -/

theorem State.syncWait_clock (n : Nat) : (s.syncWait n).clock = s.clock := by
  simp only [syncWait, flag_clock]
theorem State.endPitch_clock (n : Nat) (q : Pitch) : (s.endPitch n q).clock = s.clock := by
  simp only [endPitch, put_clock, modGen_clock, clearPitst_clock, inc_clock, raiseSlot_clock, ite_clock, ite_self]
theorem State.movePco_clock (n : Nat) (au : Int) : (s.movePco n au).clock = s.clock := by
  simp only [movePco, each_clock, setPco_clock, ite_clock, ite_self, implies_true]
theorem State.rebase_clock (n : Nat) (au : Int) : (s.rebase n au).clock = s.clock := by
  simp only [rebase, modGen_clock, modPr_clock, movePco_clock, puti_clock]
theorem State.advanceStage_clock (n : Nat) : (s.advanceStage n).clock = s.clock := by
  unfold advanceStage
  extract_lets g p s1 s2 s4
  split
  · rfl
  · extract_lets setStage off s3 m target sc
    have hstage (t : State) (st : Stage) (plan : List Phase) (fin : Option Finish) : (setStage t st plan fin).clock = t.clock :=
      modGen_clock ..
    have hrebased : s3.clock = s.clock := by simp only [s3, s2, s1, put_clock, puti_clock, rebase_clock, modGen_clock]
    have hrangeEnd : s4.clock = s.clock := by simp only [s4, clearPitst_clock, modGen_clock]
    clear_value setStage s3 s4
    repeat' split
    all_goals simp only [hstage, hrebased, hrangeEnd, modGen_clock, put_clock, endPitch_clock, abandonPitch_clock]
theorem State.computeQueue_clock (n : Nat) : (s.computeQueue n).clock = s.clock := by
  unfold computeQueue
  dsimp only
  repeat' split
  all_goals simp only [setGen_clock]
theorem State.computeGear_clock (n : Nat) : (s.computeGear n).clock = s.clock := by
  simp only [computeGear, setGen_clock, puti_clock, toRun_clock, ite_clock, ite_self]
theorem State.starve_clock (n : Nat) : (s.starve n).clock = s.clock := by
  simp only [starve, inc_clock, put_clock, modGen_clock]
theorem State.segmentTick_clock (n t : Nat) (f : SetPoint) : (s.segmentTick n t f).clock = s.clock := by
  unfold segmentTick
  dsimp only
  split
  · simp only [draw_clock, setGen_clock, put_clock, starve_clock]
  · simp only [draw_clock, setGen_clock, put_clock]
theorem State.releasePoints_clock (n t : Nat) : (s.releasePoints n t).clock = s.clock := by
  simp only [releasePoints, setGen_clock, put_clock, toRun_clock, segmentTick_clock, ite_clock, ite_self]
theorem State.computePoints_clock (n t : Nat) : (s.computePoints n t).clock = s.clock := by
  unfold computePoints
  dsimp only
  split
  · simp only [releasePoints_clock, setGen_clock, ite_clock, ite_self]
  · rw [segmentTick_clock]
theorem State.compute_clock (n : Nat) : (s.compute n).clock = s.clock := by
  unfold compute
  repeat' split
  all_goals simp only [setGen_clock, computeQueue_clock, computeGear_clock, computePoints_clock, ite_clock, ite_self]
theorem State.publish_clock (n : Nat) : (s.publish n).clock = s.clock := by
  simp only [publish, setGen_clock, puti_clock, put_clock]
theorem State.backlogCheck_clock (n : Nat) : (s.backlogCheck n).clock = s.clock := by
  simp only [backlogCheck, modGen_clock, raiseSlot_clock, ite_clock, ite_self]
theorem State.finishSteps_clock (n : Nat) : (s.finishSteps n).clock = s.clock := by
  simp only [finishSteps, emitSteps_clock, backlogCheck_clock, modGen_clock, ite_clock, ite_self]
theorem State.scheduleSteps_clock (n : Nat) : (s.scheduleSteps n).clock = s.clock := by
  simp only [scheduleSteps, setGen_clock, puti_clock, ite_clock, ite_self]
theorem State.settle_clock (n : Nat) : (s.settle n).clock = s.clock := by
  simp only [settle, toHold_clock, modGen_clock, put_clock, toShutdown_clock, ite_clock, ite_self]

/-! ### Carriers and ports at a tick instant -/

theorem State.recomputePer_clock (g : Nat) : (s.recomputePer g).clock = s.clock := by
  simp only [recomputePer, wr_clock, flag_clock]
theorem State.schedule_clock (e : Nat) : (s.schedule e).clock = s.clock := by
  simp only [schedule, modEngine_clock, ite_clock, ite_self]
theorem State.ssiStart_clock (p : Nat) : (s.ssiStart p).clock = s.clock := by
  simp only [ssiStart, setFb_clock, ite_clock, ite_self]
theorem State.pcoTick_clock (q : Nat) : (s.pcoTick q).clock = s.clock := by
  simp only [pcoTick, setPco_clock, put_clock, ite_clock, ite_self]

/-! ### The estimator (Machine/Prusik.lean) -/

theorem State.prLatch_clock (n : Nat) : (s.prLatch n).clock = s.clock := by
  simp only [prLatch, modPr_clock]
theorem State.searchStart_clock (n : Nat) (noPol : Bool) : (s.searchStart n noPol).clock = s.clock := by
  simp only [searchStart, prLatch_clock, modPr_clock, put_clock, modCc_clock]
theorem State.prTick_clock (n : Nat) : (s.prTick n).clock = s.clock := by
  simp only [prTick, prLatch_clock, draw_clock, put_clock, setPr_clock, ite_clock, ite_self]

/-! ### Routes and checkpoints (Machine/Engines.lean) -/

theorem State.setDataWord_clock (e i : Nat) (v : Word) : (s.setDataWord e i v).clock = s.clock := by
  simp only [setDataWord, wrMem_clock, modEngine_clock]
theorem State.setDataWords_clock (e i : Nat) (l : List Word) : (s.setDataWords e i l).clock = s.clock := by
  simp only [setDataWords, each_clock, setDataWord_clock, implies_true]
theorem State.routeStart_clock (e : Nat) : (s.routeStart e).clock = s.clock := by
  simp only [routeStart, put_clock, modEngine_clock]
theorem State.ckpValid_clock (n role h tick : Nat) (fac : Option Nat) : (s.ckpValid n role h tick fac).clock = s.clock := by
  simp only [ckpValid, setCkp_clock, put_clock]
theorem State.deliver_clock (n role e : Nat) : (s.deliver n role e).clock = s.clock := by
  unfold deliver
  repeat' split
  all_goals simp only [each_clock, modEngine_clock, setDataWords_clock, implies_true]
theorem State.swapCkp_clock (n role : Nat) : (s.swapCkp n role).clock = s.clock := by
  simp only [swapCkp, routeStart_clock, deliver_clock, put_clock, modCc_clock, setSwap_clock, upd_drawn_clock, ite_clock,
    ite_self]
theorem State.ckpTaken_clock (n role h tick : Nat) (fac : Option Nat) : (s.ckpTaken n role h tick fac).clock = s.clock := by
  simp only [ckpTaken, ckpValid_clock, swapCkp_clock]
theorem State.ckpCommit_clock (n role t : Nat) : (s.ckpCommit n role t).clock = s.clock := by
  unfold ckpCommit
  repeat' split
  all_goals simp only [setCkp_clock, ckpTaken_clock]

/-! ### The tick (Machine/Fabric.lean) -/

theorem State.holdSearch_clock (n : Nat) : (s.holdSearch n).clock = s.clock := by
  simp only [holdSearch, put_clock, searchStart_clock, ite_clock, ite_self]
theorem State.ckpAge_clock (n : Nat) : (s.ckpAge n).clock = s.clock := by
  simp only [ckpAge, ckpCommit_clock, incSat_clock, ite_clock, ite_self]
theorem State.tickSlot_clock (n : Nat) : (s.tickSlot n).clock = s.clock := by
  unfold tickSlot
  split
  · rfl
  · extract_lets s1 s2 s3 s4 s5 s6
    have hcfg : s2.clock = s1.clock := by
      unfold s2; split
      · simp only [wr_clock, modCc_clock]
      · rfl
    simp only [s6, s5, s4, s3, modSwap_clock, syncWait_clock, ckpAge_clock, scheduleSteps_clock, settle_clock, compute_clock,
      advanceStage_clock, publish_clock, holdSearch_clock, prTick_clock, modCc_clock, hcfg, s1, finishSteps_clock,
      ite_clock, ite_self]
/-- After a tick instant it is the present instant and it has been taken (R19). -/
theorem State.tickInstant_clock (t : Nat) : (s.tickInstant t).clock = (t, t, true, false, s.safeoff) := by
  simp only [tickInstant, each_clock, tickSlot_clock, ssiStart_clock, pcoTick_clock, schedule_clock, ite_clock, ite_self,
    implies_true]
  rfl

end

end Sys2Proof.Machine
end

section
/-! PROOFS. The statement O12: the cell tick and the change of its period (R19 to R21). -/
namespace Sys2Proof.Machine

section
variable {s : State}

/-! ### The period and its change -/

/-- A write of another register leaves P alone. -/
theorem State.period_congr {t : State} (h : t.get CT_TICKCFG_TICKUS = s.get CT_TICKCFG_TICKUS) : t.period = s.period := by
  unfold State.period; rw [h]
theorem State.period_put_other {a hi lo : Nat} (v : Nat) (hf : hi < 32) (h : CT_TICKCFG ≠ a) :
    (s.put ⟨a, hi, lo⟩ v).period = s.period := State.period_congr (State.get_put_ne s v hf (by decide) h)
theorem State.period_put_REFUSED (v : Nat) : (s.put CT_TICKCFG_REFUSED v).period = s.period :=
  State.period_congr (State.get_put_disjoint (f := CT_TICKCFG_REFUSED) s v (by decide) (by decide) rfl (by decide) (by decide))
theorem State.period_w1c_REFUSED (v : Word) : (s.w1c CT_TICKCFG_REFUSED v).period = s.period := by
  unfold State.w1c; split
  · exact State.period_put_REFUSED 0
  · rfl
theorem State.period_flag_FB_ST_CFGERR (p : Nat) (b : Bool) : (s.flag (FB_ST_CFGERR p) b).period = s.period :=
  State.period_put_other _ (by decide) (by unfold CT_TICKCFG FB_ST; omega)
theorem State.period_recomputePer (g : Nat) : (s.recomputePer g).period = s.period :=
  calc (s.recomputePer g).period
    _ = (s.wr (PWMG_PER g) (BitVec.ofNat 32 (perOf s.period (s.get (PWMG_CFG_K g))))).period :=
      State.period_put_other _ (by decide) (by unfold CT_TICKCFG PWMG_CFG; omega)
    _ = s.period := State.period_congr
      (State.get_wr_other s _ (by unfold CT_TICKCFG_TICKUS CT_TICKCFG PWMG_PER; dsimp only; omega) (Or.inl (by decide)))
/-- The period register holds a value of TICKUS in full. -/
theorem State.period_put_TICKUS {us : Nat} (h : us < 1024) : (s.put CT_TICKCFG_TICKUS us).period = tickNs us := by
  unfold State.period
  rw [State.get_put_same s us (by decide) (by decide)]
  exact congrArg tickNs (Nat.mod_eq_of_lt h)

/-- A change of P never lies in the past. -/
theorem State.now_le_periodChangeAt (s : State) (us t : Nat) : s.now ≤ s.periodChangeAt us t := by
  unfold State.periodChangeAt
  have hp : 0 < max (tickNs us) 1 := by omega
  have hdiv := Nat.div_add_mod (s.now + max (tickNs us) 1 - 1) (max (tickNs us) 1)
  have hmod := Nat.mod_lt (s.now + max (tickNs us) 1 - 1) hp
  rw [Nat.mul_comm] at hdiv
  dsimp only
  omega
/-- It comes at a multiple of the new P. -/
theorem State.periodChangeAt_mod (s : State) (us t : Nat) : s.periodChangeAt us t % max (tickNs us) 1 = 0 := by
  unfold State.periodChangeAt
  dsimp only
  rcases max_choice ((t / max (tickNs us) 1 + 1) * max (tickNs us) 1)
    ((s.now + max (tickNs us) 1 - 1) / max (tickNs us) 1 * max (tickNs us) 1) with h | h
  · rw [h, Nat.mul_mod_left]
  · rw [h, Nat.mul_mod_left]

/-! ### A write of TICKUS -/

/-- CT_TICKCFG is no register of a slot. -/
theorem State.energised_put_REFUSED (v n : Nat) : (s.put CT_TICKCFG_REFUSED v).energised n = s.energised n := by
  have h : (s.put CT_TICKCFG_REFUSED v).slotState n = s.slotState n :=
    State.get_put_ne (g := ⟨AX_STATE n, 3, 0⟩) s v (by decide) (show 3 < 32 by decide) (by
      unfold AX_STATE CT_TICKCFG_REFUSED CT_TICKCFG; dsimp only; omega)
  unfold State.energised; rw [h]
theorem State.energised_w1c_REFUSED (v : Word) (n : Nat) : (s.w1c CT_TICKCFG_REFUSED v).energised n = s.energised n := by
  unfold State.w1c; split
  · exact State.energised_put_REFUSED 0 n
  · rfl
/-- TICKUS is judged by the slots as they stand, whatever else the write clears. -/
theorem State.any_energised_w1c_REFUSED (v : Word) :
    slots16.any (s.w1c CT_TICKCFG_REFUSED v).energised = slots16.any s.energised :=
  congrArg slots16.any (funext (State.energised_w1c_REFUSED v))

theorem tickusWrite_taken {v : Word} (hslots : slots16.any s.energised = false) (hlo : 31 ≤ fieldOf v CT_TICKCFG_TICKUS)
    (hhi : fieldOf v CT_TICKCFG_TICKUS ≤ 1000) :
    tickusWrite v s =
      { s.w1c CT_TICKCFG_REFUSED v with newTick := some (fieldOf v CT_TICKCFG_TICKUS, s.now, false) } := by
  unfold tickusWrite
  dsimp only
  rw [State.any_energised_w1c_REFUSED, hslots, if_neg (by simp; omega), State.w1c_now]
theorem tickusWrite_refused {v : Word} (h : slots16.any s.energised = true ∨ fieldOf v CT_TICKCFG_TICKUS < 31 ∨
    1000 < fieldOf v CT_TICKCFG_TICKUS) : tickusWrite v s = (s.w1c CT_TICKCFG_REFUSED v).put CT_TICKCFG_REFUSED 1 := by
  unfold tickusWrite
  dsimp only
  rw [State.any_energised_w1c_REFUSED, if_pos h]

/-! ### The tick and the change -/

theorem cellTick_of_changeFirst (h : s.changeFirst = true) : cellTick s = s := if_pos h
theorem cellTick_of_tick (h : s.changeFirst = false) : cellTick s = s.tickInstant s.nextTick := if_neg (by simp [h])

/-- The state at the instant at which P becomes `us`, before what depends on P follows it. -/
def State.periodChanged (s : State) (us w : Nat) : State :=
  ({ s with now := s.periodChangeAt us w, newTick := none, tickDue := true }).put CT_TICKCFG_TICKUS us
/-- What depends on P follows it: the slew limit, the carrier periods and the frame checks of the ports (R351, R196, R263). -/
def State.followPeriod (s : State) : State :=
  ((s.put CT_SERVO_SLEWPPM (min (s.get CT_SERVO_SLEWPPM) (64000000 / s.period - 25))).each groups4
    (fun g t => t.recomputePer g)).each (List.range 8) (fun p t => t.flag (FB_ST_CFGERR p) (t.fbCfgErr p))

theorem tickPeriodChange_eq {us w : Nat} {stepped : Bool} (hnew : s.newTick = some (us, w, stepped)) (h : s.changeFirst = true) :
    tickPeriodChange s = (s.periodChanged us w).followPeriod := by
  unfold tickPeriodChange
  rw [hnew]
  exact if_neg (by simp [h])
theorem State.followPeriod_period (s : State) : s.followPeriod.period = s.period := by
  unfold State.followPeriod
  rw [State.each_same _ State.period (fun p t => State.period_flag_FB_ST_CFGERR p _),
    State.each_same _ State.period (fun g t => State.period_recomputePer g)]
  exact State.period_put_other _ (by decide) (by decide)
theorem State.followPeriod_clock (s : State) : s.followPeriod.clock = s.clock := by
  simp only [followPeriod, each_clock, flag_clock, recomputePer_clock, put_clock, implies_true]
theorem State.followPeriod_newTick (s : State) : s.followPeriod.newTick = s.newTick := by
  have hper (g : Nat) (t : State) : (t.recomputePer g).newTick = t.newTick := by
    unfold State.recomputePer; rw [State.flag_newTick, State.wr_newTick]
  unfold State.followPeriod
  rw [State.each_same _ State.newTick (fun p t => t.flag_newTick ..), State.each_same _ State.newTick hper, State.put_newTick]
end

/-- Settles O12: a tick by what its instant leaves of cell time, a write of TICKUS by its two outcomes, a change of P by what
follows it. -/
theorem cellTickRows : Obligations.CellTickRows := by
  unfold Obligations.CellTickRows
  intro s hup
  have hexec (f : State → State) : live s f = .next (s.effect f) := live_next hup f
  refine ⟨fun h => ⟨_, hexec _, ?_⟩, fun v hslots hlo hhi => ⟨_, hexec _, ?_⟩, fun v h => ⟨_, hexec _, ?_⟩, fun h => ?_,
    fun us w stepped hnew h hus => ⟨_, hexec _, ?_⟩⟩
  · have hclock : (cellTick s).clock = (s.nextTick, s.nextTick, true, false, s.safeoff) := by
      rw [cellTick_of_tick h, State.tickInstant_clock]
    simp only [State.clock, Prod.mk.injEq] at hclock
    obtain ⟨hnow, hat, hleft, hdue, -⟩ := hclock
    rw [State.effect_now, State.effect_tickAt, State.effect_tickLeft, State.effect_tickDue]
    exact ⟨hnow, hat, hleft, hdue⟩
  · have hwrite := tickusWrite_taken hslots hlo hhi
    exact ⟨congrArg State.newTick hwrite, (congrArg State.period hwrite).trans (State.period_w1c_REFUSED v)⟩
  · rw [State.effect_newTick, State.effect_get, show (s.effect (tickusWrite v)).period = (tickusWrite v s).period from rfl,
      tickusWrite_refused h, State.period_put_REFUSED, State.period_w1c_REFUSED, State.put_newTick, State.w1c_newTick]
    exact ⟨rfl, State.get_put_same _ 1 (by decide) (by decide), rfl⟩
  · exact (hexec cellTick).trans (congrArg Host.Outcome.next (State.effect_of_eq (cellTick_of_changeFirst h)))
  · have hnow : (tickPeriodChange s).now = s.periodChangeAt us w := by
      rw [tickPeriodChange_eq hnew h, State.now_eq_of_clock (State.followPeriod_clock _)]
      exact State.put_now ..
    refine ⟨?_, hnow, ?_, hnow ▸ s.now_le_periodChangeAt us w, hnow ▸ s.periodChangeAt_mod us w⟩
    · rw [State.effect_newTick, tickPeriodChange_eq hnew h, State.followPeriod_newTick]
      exact State.put_newTick ..
    · rw [show (s.effect tickPeriodChange).period = (tickPeriodChange s).period from rfl, tickPeriodChange_eq hnew h,
        State.followPeriod_period]
      exact State.period_put_TICKUS hus

/-- Settles O2. -/
theorem emptyQueueIdles : Obligations.EmptyQueueIdles := by
  unfold Obligations.EmptyQueueIdles
  intro s hs
  have hstep : step s = .next s.idle := by unfold step; rw [hs]
  exact ⟨fun hup => ⟨_, hstep, if_pos hup⟩, fun hdown => hstep.trans (congrArg Host.Outcome.next (if_neg (by simp [hdown])))⟩

end Sys2Proof.Machine
end

section
/-! PROOFS. Which register words the operations behind binding, engine selection and the slot states leave alone: the words of a
slot up to AXn_STATE, and the latches of the bridge dies. One lemma per operation. -/
namespace Sys2Proof.Machine

section
variable {s : State} {b : Nat}

/-! ### Words that an update does not reach -/

theorem State.ite_rd {c : Prop} [Decidable c] (s t : State) : (if c then s else t).rd b = if c then s.rd b else t.rd b :=
  apply_ite (fun u : State => u.rd b) ..
theorem State.each_rd {α : Type} (l : List α) {f : α → State → State} (h : ∀ x ∈ l, ∀ t : State, (f x t).rd b = t.rd b) :
    (s.each l f).rd b = s.rd b :=
  List.foldlRecOn (motive := fun t : State => t.rd b = s.rd b) l _ rfl (fun t ht x hx => (h x hx t).trans ht)
theorem State.rd_put_above {f : Fld} (v : Nat) (h : b < f.a) : (s.put f v).rd b = s.rd b :=
  s.rd_put_ne v (by omega) (by omega)
theorem State.rd_wr_above {a : Nat} (v : Word) (h : b < a) : (s.wr a v).rd b = s.rd b := s.rd_wr_ne v (by omega)
theorem State.rd_put_word {a hi lo : Nat} (v : Nat) (hw : hi < 32) (h : b ≠ a) : (s.put ⟨a, hi, lo⟩ v).rd b = s.rd b :=
  s.rd_put_ne' v hw h

/-- Up to AXn_STATE a word lies below the other registers of slot `n` and below every block behind the slots' (the register
map: slot blocks from 0x080000, engines and the dies from 0x100000). -/
theorem lt_of_le_AX_STATE {n : Fin 16} (hb : b ≤ AX_STATE n) {base stride i off : Nat}
    (h : 0x100000 ≤ base ∨ base = 0x080000 ∧ stride = 0x1000 ∧ i = n ∧ 12 ≤ off) : b < base + stride * i + off := by
  have hn := n.isLt
  unfold AX_STATE at hb
  rcases h with h | ⟨rfl, rfl, rfl, h⟩
  · have := Nat.zero_le (stride * i); omega
  · omega

/-! ### Channels (R187, R192) -/

/-- The words that forcing channel `c` writes. -/
def chanWords (c : Nat) : List Nat := [PWM_STAT c, PWM_CARRY c, CMP_SST c]

theorem notMem_chanWords_of_le_AX_STATE {n : Fin 16} (hb : b ≤ AX_STATE n) (c : Nat) : b ∉ chanWords c := by
  have hstat : b < PWM_STAT c := lt_of_le_AX_STATE hb (by simp)
  have hcarry : b < PWM_CARRY c := lt_of_le_AX_STATE hb (by simp)
  have hsst : b < CMP_SST c := lt_of_le_AX_STATE hb (by simp)
  simp only [chanWords, List.mem_cons, List.not_mem_nil, or_false]
  omega
theorem GD_CHSTAT_notMem_chanWords {c : Nat} (d : Nat) (hc : c < 64) : GD_CHSTAT (d / 8) (d % 8) ∉ chanWords c := by
  simp only [chanWords, List.mem_cons, List.not_mem_nil, or_false, GD_CHSTAT, PWM_STAT, PWM_CARRY, CMP_SST]
  omega

theorem State.gateOff_rd {c : Nat} (h : b ≠ CMP_SST c) (high trip soft : Bool) : (s.gateOff c high trip soft).rd b = s.rd b := by
  unfold gateOff
  dsimp only
  split
  · rfl
  · rw [modChan_rd]
    cases high
    · exact rd_put_word _ (by decide) h
    · exact rd_put_word _ (by decide) h
theorem State.gateOn_rd (c : Nat) (high : Bool) : (s.gateOn c high).rd b = s.rd b := by
  simp only [gateOn, setChan_rd, ite_rd, ite_self]
theorem State.force_rd {c : Nat} (h : b ∉ chanWords c) (mode : Nat) (low soft : Bool) :
    (s.force c mode low soft).rd b = s.rd b := by
  simp only [chanWords, List.mem_cons, List.not_mem_nil, or_false, not_or] at h
  obtain ⟨hstat, hcarry, hsst⟩ := h
  have hmode (t : State) : (t.put (PWM_STAT_MODE c) mode).rd b = t.rd b := rd_put_word _ (by decide) hstat
  have hcarry (t : State) : (t.wr (PWM_CARRY c) 0).rd b = t.rd b := t.rd_wr_ne _ hcarry
  simp only [force, gateOn_rd, modChan_rd, gateOff_rd hsst, hcarry, hmode, ite_rd, ite_self]
theorem State.dropTest_rd {n : Nat} (h : ∀ c ∈ s.slotChans n, b ∉ chanWords c) : (s.dropTest n).rd b = s.rd b :=
  State.each_rd _ (fun c hc t => t.force_rd (h c (List.mem_of_mem_filter hc)) _ _ _)

/-! ### Engines and routes (R30, R143) -/

theorem State.setRole_rd {e : Nat} (h : b ≠ KE_STATUS e) (role n : Nat) : (s.setRole e role n).rd b = s.rd b :=
  (rd_put_word _ (by decide) h).trans (rd_put_word _ (by decide) h)
theorem State.engineIdle_rd {e : Nat} (h : b ≠ KE_STATUS e) : (s.engineIdle e).rd b = s.rd b := by
  have hstop (t : State) : ((t.put (KE_STATUS_POOL e) 0).put (KE_STATUS_RUN e) 0).rd b = t.rd b :=
    (rd_put_word _ (by decide) h).trans (rd_put_word _ (by decide) h)
  simp only [engineIdle, hstop, modEngine_rd, setRole_rd h, ite_rd, ite_self]
theorem State.routeStart_rd {e : Nat} (h : b ≠ KE_STATUS e) : (s.routeStart e).rd b = s.rd b := by
  unfold routeStart
  rw [modEngine_rd]
  exact rd_put_word _ (by decide) h
theorem State.stopRoutes_rd (h : ∀ e, b ≠ KE_STATUS e) (n : Nat) : (s.stopRoutes n).rd b = s.rd b := by
  have hput (e : Nat) (t : State) : (t.put (KE_STATUS_RUN e) 0).rd b = t.rd b := rd_put_word _ (by decide) (h e)
  exact State.each_rd _ (fun e _ t => by rw [State.ite_rd, hput, ite_self])
/-- An engine of a slot has a number of five bits (R17). -/
theorem State.lt_of_mem_slotEngines {n e : Nat} (h : e ∈ s.slotEngines n) : e < 32 := by
  have hctl : s.get (AX_ENGSEL_CTLENG n) < 32 := s.get_lt _
  have hest : s.get (AX_ENGSEL_ESTENG n) < 32 := s.get_lt _
  unfold State.slotEngines State.ctlEngine State.estEngine at h
  dsimp only at h
  rw [List.mem_append] at h
  rcases h with h | h <;> split at h <;> simp at h <;> omega
theorem ne_KE_STATUS_of_le_AX_STATE {n : Fin 16} (hb : b ≤ AX_STATE n) (e : Nat) : b ≠ KE_STATUS e :=
  Nat.ne_of_lt (lt_of_le_AX_STATE hb (by simp))

/-! ### The estimator (R88, R95) -/

theorem State.searchStart_rd {n : Nat} (hpr : b ≠ AX_PR_ST n) (hcc : b ≠ AX_CC_ST n) (noPol : Bool) :
    (s.searchStart n noPol).rd b = s.rd b := by
  have hmode (t : State) (v : Nat) : (t.put (AX_PR_ST_EMODE n) v).rd b = t.rd b := rd_put_word _ (by decide) hpr
  have hvalid (t : State) (v : Nat) : (t.put (AX_PR_ST_VALID n) v).rd b = t.rd b := rd_put_word _ (by decide) hpr
  have hrate (t : State) (v : Nat) : (t.put (AX_CC_ST_LOWRATE n) v).rd b = t.rd b := rd_put_word _ (by decide) hcc
  simp only [searchStart, prLatch, hmode, hvalid, hrate, modCc_rd, modPr_rd]
theorem State.prStart_rd {n : Nat} (hpr : b ≠ AX_PR_ST n) (hcc : b ≠ AX_CC_ST n) : (s.prStart n).rd b = s.rd b := by
  have hput (t : State) (v : Nat) : (t.put (AX_PR_ST_FALLBACK n) v).rd b = t.rd b := rd_put_word _ (by decide) hpr
  have hmode (t : State) (v : Nat) : (t.put (AX_PR_ST_EMODE n) v).rd b = t.rd b := rd_put_word _ (by decide) hpr
  simp only [prStart, searchStart_rd hpr hcc, hput, hmode, modPr_rd, prLatch, setPr_rd, ite_rd, ite_self]
theorem State.missBind_rd {n : Nat} (h : b ≠ AX_STATE n) : (s.missBind n).rd b = s.rd b := by
  have herr (e : Nat) : (s.err n e).rd b = s.rd b := rd_put_word _ (by decide) h
  unfold missBind
  split
  · rw [ite_rd, herr, ite_self]
  · rfl
end

/-! ### What leaves the words up to AXn_STATE alone (R48, R50, R86, R135) -/

section
variable {s : State} {b : Nat} {n : Fin 16} (hb : b ≤ AX_STATE n)
include hb

theorem State.prStop_rd : (s.prStop n).rd b = s.rd b := by
  simp (disch := with_unfolding_all exact id (lt_of_le_AX_STATE hb (by omega))) only [prStop, setPr_rd, rd_put_above]
theorem State.clearPitst_rd : (s.clearPitst n).rd b = s.rd b := by
  simp (disch := with_unfolding_all exact id (lt_of_le_AX_STATE hb (by omega))) only [clearPitst, rd_put_above]
theorem State.abandonPitch_rd : (s.abandonPitch n).rd b = s.rd b := by
  unfold abandonPitch
  split
  · rfl
  · rw [interruptPitch_rd, clearPitst_rd hb, modGen_rd]
theorem State.sourceOff_rd : (s.sourceOff n).rd b = s.rd b := by
  unfold sourceOff
  dsimp only
  repeat' split
  all_goals simp (disch := with_unfolding_all exact id (lt_of_le_AX_STATE hb (by omega))) only
    [rd_put_above, inc, clearPitst_rd hb, abandonPitch_rd hb, setGen_rd, modGen_rd]
theorem State.emitSteps_rd (k : Nat) : (s.emitSteps n k).rd b = s.rd b := rd_put_above _ (lt_of_le_AX_STATE hb (by simp))
theorem State.cutSteps_rd (drop : Bool) : (s.cutSteps n drop).rd b = s.rd b := by
  simp (disch := with_unfolding_all exact id (lt_of_le_AX_STATE hb (by omega))) only
    [cutSteps, puti, rd_put_above, setGen_rd, emitSteps_rd hb, ite_rd, ite_self]
theorem State.swapAbandon_rd (result : Nat) : (s.swapAbandon n result).rd b = s.rd b := by
  simp (disch := with_unfolding_all exact id (lt_of_le_AX_STATE hb (by omega))) only
    [swapAbandon, swapAnswer_rd, setSwap_rd, rd_put_above, ite_rd, ite_self]
theorem State.clearCounters_rd : (s.clearCounters n).rd b = s.rd b := by
  simp (disch := with_unfolding_all exact id (lt_of_le_AX_STATE hb (by omega))) only
    [clearCounters, State.each, List.foldl_cons, List.foldl_nil, rd_wr_above,
    syncQueue, rd_put_above, modGen_rd, strandWaits_rd]
end

end Sys2Proof.Machine
end

section
/-! PROOFS. The statement O10: binding and engine selection (R14, R15, R18, R454). -/
namespace Sys2Proof.Machine

section
variable {s : State} {n : Fin 16} {w : Writer} {v : Word}

/-! ### The fields of AXn_STATE (R26) -/

/-- A field of one word depends on that word. -/
theorem State.get_of_rd {t : State} {a hi lo : Nat} (hw : hi < 32) (h : t.rd a = s.rd a) :
    t.get ⟨a, hi, lo⟩ = s.get ⟨a, hi, lo⟩ := by
  unfold State.get; rw [if_pos hw, if_pos hw, h]
theorem State.slotState_of_rd {t : State} {m : Nat} (h : t.rd (AX_STATE m) = s.rd (AX_STATE m)) : t.slotState m = s.slotState m :=
  State.get_of_rd (by decide) h
theorem State.get_put_word {a hi lo : Nat} (s : State) (v : Nat) (hw : hi < 32) (hl : lo ≤ hi) :
    (s.put ⟨a, hi, lo⟩ v).get ⟨a, hi, lo⟩ = v % 2 ^ (hi + 1 - lo) := s.get_put_same v hw hl
theorem State.get_of_rd_zero {a hi lo : Nat} (hw : hi < 32) (h : s.rd a = 0#32) : s.get ⟨a, hi, lo⟩ = 0 := by
  unfold State.get; rw [if_pos hw, h]; simp [bitsOf]
theorem State.slotState_put_STATE (s : State) (m : Nat) {x : Nat} (hx : x < 16) :
    (s.put (AX_STATE_STATE m) x).slotState m = x :=
  (s.get_put_word x (by decide) (by decide)).trans (Nat.mod_eq_of_lt hx)
/-- Another field of AXn_STATE leaves the slot's state as it is. -/
theorem State.slotState_put_field (s : State) (m x : Nat) {hi lo : Nat} (hhi : hi < 32) (hlo : 3 < lo) (hle : lo ≤ hi) :
    (s.put ⟨AX_STATE m, hi, lo⟩ x).slotState m = s.slotState m :=
  s.get_put_disjoint (f := ⟨AX_STATE m, hi, lo⟩) (g := ⟨AX_STATE m, 3, 0⟩) x hhi (show 3 < 32 by decide) rfl hle (Or.inl hlo)
theorem State.slotState_err (s : State) (m e : Nat) : (s.err m e).slotState m = s.slotState m :=
  s.slotState_put_field m e (by decide) (by decide) (by decide)
theorem State.get_err (s : State) (m e : Nat) : (s.err m e).get (AX_STATE_ERR m) = e % 16 :=
  s.get_put_word e (by decide) (by decide)
theorem State.rd_put_STATE (s : State) {m b : Nat} (x : Nat) (h : b ≠ AX_STATE m) :
    (s.put (AX_STATE_STATE m) x).rd b = s.rd b := State.rd_put_word _ (by decide) h
theorem State.rd_err (s : State) {m b : Nat} (e : Nat) (h : b ≠ AX_STATE m) : (s.err m e).rd b = s.rd b :=
  State.rd_put_word _ (by decide) h

theorem AX_BIND_le_AX_STATE (m : Nat) : AX_BIND m ≤ AX_STATE m := Nat.add_le_add_left (Nat.zero_le 8) _
theorem AX_BIND_ne_AX_STATE (m : Nat) : AX_BIND m ≠ AX_STATE m := by unfold AX_BIND AX_STATE; omega
theorem AX_ENGSEL_ne_AX_STATE (m : Nat) : AX_ENGSEL m ≠ AX_STATE m := by unfold AX_ENGSEL AX_STATE; omega
theorem AX_BIND_ne_AX_ENGSEL (m : Nat) : AX_BIND m ≠ AX_ENGSEL m := by unfold AX_BIND AX_ENGSEL; omega
theorem AX_STATE_ne_AX_ENGSEL (m : Nat) : AX_STATE m ≠ AX_ENGSEL m := by unfold AX_STATE AX_ENGSEL; omega

/-! ### A bind write (R15) -/

/-- The presence test of a slot is the one set last. -/
theorem find?_tabPut_same {α : Type} (l : Tab α) (k : Nat) (x : α) : (tabPut l k x).find? (fun y => y.1 == k) = some (k, x) := by
  induction l with
  | nil => simp [tabPut]
  | cons y l ih =>
    obtain ⟨j, z⟩ := y
    unfold tabPut
    split
    · simp
    · split
      · simp
      · rename_i h
        rw [List.find?_cons_of_neg (by simpa using Ne.symm h), ih]
theorem State.test_setTest_same (s : State) (m : Nat) (x : PresTest) : (s.setTest m x).test m = some x :=
  congrArg (Option.map Prod.snd) (find?_tabPut_same _ m x)

theorem bindWrite_judged (h : fieldOf v (AX_BIND_KIND n) ≠ 0 ∨ s.test n = none) : bindWrite w n v s = bindNow w n v s := by
  unfold bindWrite
  split
  · rename_i x hx
    exact if_neg (h.resolve_right (by simp [hx]))
  · rfl
theorem bindWrite_waits {x : PresTest} (hx : s.test n = some x) (h : fieldOf v (AX_BIND_KIND n) = 0) :
    bindWrite w n v s = s.setTest n { x with bind := some (w, v) } := by
  unfold bindWrite
  rw [hx]
  exact if_pos h

theorem bindNow_refused (hown : s.owns w n = true) (herr : s.bindErr n v ≠ 0) : bindNow w n v s = s.err n (s.bindErr n v) := by
  unfold bindNow
  dsimp only
  rw [hown, if_neg (by simp), if_pos herr]
/-- The slot with the binding `v`: its presence test is over, and it is IDLE. -/
def State.bound (s : State) (n : Nat) (v : Word) : State :=
  (((s.dropTest n).wr (AX_BIND n) (v &&& bindMask)).put (AX_STATE_STATE n) stIdle).put (FP_MPR_RESULT n) 0
theorem bindNow_bound (hown : s.owns w n = true) (herr : s.bindErr n v = 0) (hkind : fieldOf v (AX_BIND_KIND n) ≠ 0) :
    bindNow w n v s = if (s.bound n v).isRemote n then (s.bound n v).wr (SOG_CNT ((s.bound n v).get (AX_BIND_SOUT n))) 0
      else s.bound n v := by
  have hkind : ¬ fieldOf v (AX_BIND_KIND 0) = 0 := hkind
  unfold bindNow
  simp only [hown, herr, hkind, Bool.not_true, Bool.false_eq_true, ne_eq, not_true_eq_false, if_false]
  rfl
/-- The slot with its resources, its engines and its records given up, UNBOUND (R15, R18, R50, R131). -/
def State.released (s : State) (n : Nat) : State :=
  ((((((((s.releaseEngines n).wr (AX_BIND n) 0).setCkp n 0 {}).setCkp n 1 {}).wr (AX_CKP n) 0xFFFFFFFF).clearCounters n).put
    (AX_STATE_STATE n) stUnbound).put (FP_MPR_RESULT n) 0)
theorem bindNow_released (hown : s.owns w n = true) (herr : s.bindErr n v = 0) (hkind : fieldOf v (AX_BIND_KIND n) = 0)
    (hstate : s.slotState n ≠ stUnbound) : bindNow w n v s = s.released n := by
  have hkind : fieldOf v (AX_BIND_KIND 0) = 0 := hkind
  unfold bindNow
  simp only [hown, herr, hkind, hstate, Bool.not_true, Bool.false_eq_true, ne_eq, not_true_eq_false, if_false, if_true]
  rfl

/-- What follows the entry of IDLE or UNBOUND in a bind write lies behind the slots' blocks. -/
theorem lt_FP_MPR_of_le_AX_STATE {b : Nat} (hb : b ≤ AX_STATE n) (i : Nat) : b < FP_MPR i := by
  have h : b < 0x300200 + 4 * i + 0 := lt_of_le_AX_STATE hb (by omega)
  unfold FP_MPR; omega
theorem State.rd_bound_BIND : (s.bound n v).rd (AX_BIND n) = v &&& bindMask := by
  have hmpr : AX_BIND n < FP_MPR n := lt_FP_MPR_of_le_AX_STATE (AX_BIND_le_AX_STATE n) n
  unfold State.bound
  rw [State.rd_put_above _ hmpr, State.rd_put_STATE _ _ (AX_BIND_ne_AX_STATE n), State.rd_wr_same]
theorem State.slotState_bound : (s.bound n v).slotState n = stIdle :=
  (State.slotState_of_rd (State.rd_put_above _ (lt_FP_MPR_of_le_AX_STATE le_rfl n))).trans
    (State.slotState_put_STATE _ n (by decide))
theorem bindNow_bound_spec (hown : s.owns w n = true) (herr : s.bindErr n v = 0) (hkind : fieldOf v (AX_BIND_KIND n) ≠ 0) :
    (bindNow w n v s).rd (AX_BIND n) = v &&& bindMask ∧ (bindNow w n v s).slotState n = stIdle := by
  have hcnt {b : Nat} (hb : b ≤ AX_STATE n) (o : Nat) : b < SOG_CNT o := lt_of_le_AX_STATE hb (by omega)
  rw [bindNow_bound hown herr hkind]
  split
  · exact ⟨(State.rd_wr_above _ (hcnt (AX_BIND_le_AX_STATE n) _)).trans State.rd_bound_BIND,
      (State.slotState_of_rd (State.rd_wr_above _ (hcnt le_rfl _))).trans State.slotState_bound⟩
  · exact ⟨State.rd_bound_BIND, State.slotState_bound⟩

theorem State.clearCounters_queue (s : State) (m : Nat) : ((s.clearCounters m).gen m).queue = [] := by
  unfold State.clearCounters
  rw [State.each_same _ (fun t : State => (t.gen m).queue) (fun a t => by rw [State.wr_gen]), State.syncQueue, State.put_gen,
    State.gen_modGen_same]
theorem State.clearCounters_PITSTART (s : State) (m : Nat) : (s.clearCounters m).rd (AX_PITSTART m) = 0#32 := by
  unfold State.clearCounters State.each
  simp only [List.foldl_cons, List.foldl_nil]
  rw [State.rd_wr_ne, State.rd_wr_ne, State.rd_wr_ne, State.rd_wr_ne, State.rd_wr_ne, State.rd_wr_ne, State.rd_wr_ne,
    State.rd_wr_ne, State.rd_wr_same]
  · rfl
  all_goals
    simp only [AX_PITSTART, AX_PITFLUSH, AX_PITNEXT, AX_LATE, AX_UNDERRUN, AX_SPORD, AX_SPDISC, AX_CC_WDSKIP, AX_PR_STALLCNT]
    omega
theorem State.released_PITSTART (s : State) (n : Fin 16) : (s.released n).rd (AX_PITSTART n) = 0#32 := by
  have hmpr : AX_PITSTART n ≠ FP_MPR n := by unfold AX_PITSTART FP_MPR; omega
  have hstate : AX_PITSTART n ≠ AX_STATE n := by unfold AX_PITSTART AX_STATE; omega
  have hresult (t : State) : (t.put (FP_MPR_RESULT n) 0).rd (AX_PITSTART n) = t.rd (AX_PITSTART n) :=
    State.rd_put_word _ (by decide) hmpr
  unfold State.released
  rw [hresult, State.rd_put_STATE _ _ hstate, State.clearCounters_PITSTART]
theorem State.released_spec (s : State) (n : Fin 16) :
    (s.released n).rd (AX_BIND n) = 0#32 ∧ (s.released n).slotState n = stUnbound ∧ ((s.released n).gen n).queue = [] ∧
      (s.released n).get (AX_PITSTART_V n) = 0 := by
  have hckp : AX_BIND n ≠ AX_CKP n := by unfold AX_BIND AX_CKP; omega
  have hbind := AX_BIND_le_AX_STATE n
  refine ⟨?_, ?_, ?_, State.get_of_rd_zero (by decide) (s.released_PITSTART n)⟩
  · unfold State.released
    rw [State.rd_put_above _ (lt_FP_MPR_of_le_AX_STATE hbind n), State.rd_put_STATE _ _ (AX_BIND_ne_AX_STATE n),
      State.clearCounters_rd hbind, State.rd_wr_ne _ _ hckp, State.setCkp_rd, State.setCkp_rd]
    exact State.rd_wr_same ..
  · unfold State.released
    exact (State.slotState_of_rd (State.rd_put_above _ (lt_FP_MPR_of_le_AX_STATE le_rfl n))).trans
      (State.slotState_put_STATE _ n (by decide))
  · unfold State.released
    rw [State.put_gen, State.put_gen, State.clearCounters_queue]

/-! ### An engine selection write (R18) -/

theorem engselWrite_refused (hown : s.owns w n = true) (herr : s.engselErr n v ≠ 0) :
    engselWrite w n v s = s.err n (s.engselErr n v) := by
  unfold engselWrite
  dsimp only
  rw [hown, if_neg (by simp), if_pos herr]
/-- A taken write sets the register, and changes nothing else up to AXn_STATE. -/
theorem engselWrite_taken (hown : s.owns w n = true) (herr : s.engselErr n v = 0) :
    (engselWrite w n v s).rd (AX_ENGSEL n) = v &&& 0x3F3F#32 ∧
      ∀ b, b ≤ AX_STATE n → b ≠ AX_ENGSEL n → (engselWrite w n v s).rd b = s.rd b := by
  unfold engselWrite
  rw [hown, herr]
  refine ⟨State.rd_wr_same .., fun b hb hne => ?_⟩
  have hke (e : Nat) := ne_KE_STATUS_of_le_AX_STATE hb e
  refine (State.rd_wr_ne _ _ hne).trans ((State.each_rd _ (fun x _ t => ?_)).trans (State.each_rd _ (fun x _ t => ?_)))
  · exact (State.setRole_rd (hke x.1) _ _).trans (State.rd_put_word _ (by decide) (hke x.1))
  · exact State.engineIdle_rd (hke x.1)
end

/-- Settles O10: a write is judged at once or waits for the end of a presence test, and each judgement gives its words. -/
theorem bindAndEngineRows : Obligations.BindAndEngineRows := by
  unfold Obligations.BindAndEngineRows
  intro s w n v hup hown
  have hbind : exec (.bindWrite w n v) s = .next (s.effect (bindWrite w n v)) := live_next hup _
  have hengsel : exec (.engselWrite w n v) s = .next (s.effect (engselWrite w n v)) := live_next hup _
  have hstate (f : State → State) (m : Nat) : (s.effect f).slotState m = (f s).slotState m := s.effect_get f _
  refine ⟨fun herr hjudged => ⟨_, hbind, ?_⟩, fun herr hkind => ⟨_, hbind, ?_⟩, fun x hx hkind => ⟨_, hbind, ?_⟩,
    fun herr hkind hbound htest => ⟨_, hbind, ?_⟩, fun herr => ⟨_, hengsel, ?_⟩, fun herr => ⟨_, hengsel, ?_⟩⟩
  · rw [State.effect_rd, State.effect_get, hstate, bindWrite_judged hjudged, bindNow_refused hown herr]
    exact ⟨s.rd_err _ (AX_BIND_ne_AX_STATE n), s.get_err n _, s.slotState_err n _⟩
  · rw [State.effect_rd, hstate, bindWrite_judged (Or.inl hkind)]
    exact bindNow_bound_spec hown herr hkind
  · rw [State.effect_regs, show (s.effect (bindWrite w n v)).test n = (bindWrite w n v s).test n from rfl, bindWrite_waits hx hkind]
    exact ⟨s.test_setTest_same n _, rfl⟩
  · rw [State.effect_rd, hstate, State.effect_gen, State.effect_get, bindWrite_judged (Or.inr htest),
      bindNow_released hown herr hkind hbound]
    exact s.released_spec n
  · rw [State.effect_rd, State.effect_get, engselWrite_refused hown herr]
    exact ⟨s.rd_err _ (AX_ENGSEL_ne_AX_STATE n), s.get_err n _⟩
  · obtain ⟨hreg, hother⟩ := engselWrite_taken hown herr
    rw [State.effect_rd, State.effect_rd, hstate]
    exact ⟨hreg, hother _ (AX_BIND_le_AX_STATE n) (AX_BIND_ne_AX_ENGSEL n),
      State.slotState_of_rd (hother _ le_rfl (AX_STATE_ne_AX_ENGSEL n))⟩

end Sys2Proof.Machine
end

section
/-! PROOFS. The statement O11: the slot states, energising, its end and service (R28). -/
namespace Sys2Proof.Machine

section
variable {s : State} {n : Fin 16}

/-- A command by whoever may give it has its effect. -/
theorem live_owned {f : State → State} {w : Writer} {a : Nat} (hup : s.up = true) (hown : s.owns w a = true) :
    live s (fun t => if t.owns w a then f t else t) = .next (s.effect f) :=
  (live_next hup _).trans (congrArg (fun t : State => Host.Outcome.next { t with pending := s.pending }) (if_pos hown))

/-! ### The channels of a slot -/

theorem fieldOf_lt (v : Word) (f : Fld) : fieldOf v f < 2 ^ (f.hi + 1 - f.lo) := Nat.mod_lt _ (Nat.two_pow_pos _)
/-- A channel of a slot is named by a group of two bits and a base of three (R14). -/
theorem State.lt_of_mem_slotChans {c : Nat} (h : c ∈ s.slotChans n) : c < 64 := by
  have hgrp : fieldOf (s.rd (AX_BIND n)) (AX_BIND_GRP 0) < 4 := fieldOf_lt ..
  have hbase : fieldOf (s.rd (AX_BIND n)) (AX_BIND_BASE 0) < 8 := fieldOf_lt ..
  have hbgrp : fieldOf (s.rd (AX_BIND n)) (AX_BIND_BRKGRP 0) < 4 := fieldOf_lt ..
  have hbbase : fieldOf (s.rd (AX_BIND n)) (AX_BIND_BRKBASE 0) < 8 := fieldOf_lt ..
  have hkind (k : Nat) : kindChans k ≤ 5 := by unfold kindChans; split <;> decide
  unfold State.slotChans State.localChans State.brakeChans at h
  rcases List.mem_append.mp h with h | h
  · obtain ⟨r, hr, rfl⟩ := List.mem_map.mp h
    have := (List.mem_range.mp hr).trans_le (hkind _)
    omega
  · unfold brakeChansOf at h
    split at h
    · simp at h
    · simp only [List.mem_cons, List.not_mem_nil, or_false] at h
      omega
theorem State.slotChans_of_rd {t : State} {m : Nat} (h : t.rd (AX_BIND m) = s.rd (AX_BIND m)) : t.slotChans m = s.slotChans m := by
  unfold State.slotChans State.localChans State.brakeChans; rw [h]
theorem State.bit_of_rd {t : State} {a hi lo : Nat} (hw : hi < 32) (h : t.rd a = s.rd a) :
    t.bit ⟨a, hi, lo⟩ = s.bit ⟨a, hi, lo⟩ := by
  unfold State.bit; rw [State.get_of_rd hw h]

/-! ### The word AXn_STATE after an entry (R26, R28) -/

theorem State.slotState_put_ENABLEPENDING (t : State) (m x : Nat) :
    (t.put (AX_STATE_ENABLEPENDING m) x).slotState m = t.slotState m :=
  t.slotState_put_field m x (by decide) (by decide) (by decide)
theorem State.get_put_ENABLEPENDING (t : State) (m x : Nat) :
    (t.put (AX_STATE_ENABLEPENDING m) x).get (AX_STATE_ENABLEPENDING m) = x % 2 :=
  t.get_put_word x (by decide) (by decide)
/-- The slot in state `x`, entered for the reason `r`. -/
def State.enter (s : State) (m x r : Nat) : State := (s.put (AX_STATE_STATE m) x).put (AX_STATE_STOPREASON m) r
theorem State.slotState_enter (s : State) (m r : Nat) {x : Nat} (hx : x < 16) : (s.enter m x r).slotState m = x :=
  (State.slotState_put_field _ m r (by decide) (by decide) (by decide)).trans (s.slotState_put_STATE m hx)
theorem State.STOPREASON_enter (s : State) (m x r : Nat) : (s.enter m x r).get (AX_STATE_STOPREASON m) = r % 16 :=
  State.get_put_word _ r (by decide) (by decide)

/-! ### RAPPEL and SHUTDOWN (R48, R86) -/

/-- After the entry of RAPPEL nothing touches AXn_STATE. -/
theorem State.toRappel_rd_STATE (hrun : s.slotState n = stRun) (r : Nat) (de : Bool) :
    (s.toRappel n r de).rd (AX_STATE n) = (s.enter n stRappel r).rd (AX_STATE n) := by
  have hpitst : AX_STATE n < AX_PITST n := lt_of_le_AX_STATE le_rfl (by omega)
  unfold State.toRappel
  rw [if_pos hrun]
  rw [State.interruptWait_rd, State.rd_put_above _ hpitst, State.rd_put_above _ hpitst, State.modGen_rd,
    State.sourceOff_rd le_rfl, State.cutSteps_rd le_rfl]
  rfl
/-- After the entry of SHUTDOWN nothing touches AXn_STATE. -/
theorem State.toShutdown_rd_STATE (s : State) (n : Fin 16) (r : Nat) :
    (s.toShutdown n r).rd (AX_STATE n) = (s.enter n stShutdown r).rd (AX_STATE n) := by
  have hcc : AX_STATE n < AX_CC_ST n := lt_of_le_AX_STATE le_rfl (by omega)
  have hbrk : AX_STATE n < AX_BRK_ST n := lt_of_le_AX_STATE le_rfl (by omega)
  have hlow (t : State) (x : Nat) : (t.put (AX_CC_ST_LOWRATE n) x).rd (AX_STATE n) = t.rd (AX_STATE n) := State.rd_put_above _ hcc
  have hholding (t : State) (x : Nat) : (t.put (AX_CC_ST_HOLDING n) x).rd (AX_STATE n) = t.rd (AX_STATE n) := State.rd_put_above _ hcc
  have hbstate (t : State) (x : Nat) : (t.put (AX_BRK_ST_BSTATE n) x).rd (AX_STATE n) = t.rd (AX_STATE n) := State.rd_put_above _ hbrk
  have hwait (t : State) (x : Nat) : (t.put (AX_BRK_ST_BRKWAIT n) x).rd (AX_STATE n) = t.rd (AX_STATE n) := State.rd_put_above _ hbrk
  have hvclip (t : State) (x : Nat) : (t.put (AX_BRK_ST_VCLIP n) x).rd (AX_STATE n) = t.rd (AX_STATE n) := State.rd_put_above _ hbrk
  have hforce (c mode : Nat) (low soft : Bool) (t : State) : (t.force c mode low soft).rd (AX_STATE n) = t.rd (AX_STATE n) :=
    t.force_rd (notMem_chanWords_of_le_AX_STATE le_rfl c) ..
  have hchans (t : State) (l : List Nat) (low : Bool) (f : PwmChan → PwmChan) :
      (t.each l (fun c u => (u.force c (if low then mLowon else mOff) low).modChan c f)).rd (AX_STATE n) = t.rd (AX_STATE n) :=
    State.each_rd _ (fun c _ u => by rw [State.modChan_rd, hforce])
  unfold State.toShutdown State.enter
  simp only [State.interruptWait_rd, hlow, hholding, State.prStop_rd le_rfl, State.modCc_rd, State.modGen_rd,
    State.cutSteps_rd le_rfl, State.swapAbandon_rd le_rfl, State.ite_rd, ite_self, hbstate, hwait, hvclip, hchans]

/-! ### Energising -/

/-- The slot in HOLD: a presence test and a bind write that waits for it are dropped. -/
def State.hold (s : State) (n : Nat) : State :=
  (((s.missBind n).dropTest n).put (AX_STATE_STATE n) stHold).put (AX_STATE_ENABLEPENDING n) 0
/-- What the entry of HOLD starts: the routes, the current, the brake's wait and the search. -/
def State.startDrive (s : State) (n : Nat) : State :=
  let s := s.each (s.slotEngines n) (fun e t =>
    if t.pool e ≠ 3 ∧ t.bit (KE_STATUS_LOADED e) then (t.routeStart e).put (KE_STATUS_RUN e) 2 else t)
  let s := s.each (s.slotChans n) (fun c t => t.modChan c (fun x => { x with want := 0 }))
  let s := s.modCc n (fun c => { c with
    xd := 0, xq := 0, xv := 0, iqRef := 0, held := [], ramp := .wait, lastRun := none, estCount := 0, ilim := 0
    vNew := (0, 0, 0), vOld := (0, 0, 0), latch := none, late := none, ferr := false, calKind := 0, prLast := none })
  let s := (s.put (AX_CC_ST_LOWRATE n) 0).put (AX_CC_ST_HOLDING n) 0
  let s := s.modGen n (fun g => { g with drift := .coast, rapDe := false, under := false })
  let s := if s.brakeChans n ≠ [] ∧ s.ctlFactory n then (s.put (AX_BRK_ST_BSTATE n) 0).put (AX_BRK_ST_BRKWAIT n) 1 else s
  s.prStart n
theorem State.enterHold_eq (s : State) (m : Nat) :
    s.enterHold m = if ((s.hold m).startDrive m).safeoff then
        ((s.hold m).startDrive m).toTripped m (if ((s.hold m).startDrive m).get (FLT_SRC_SEV 0) = 4 then 6 else 3) .safe
      else if (((s.hold m).startDrive m).slotChans m).any ((s.hold m).startDrive m).tripped then
        ((s.hold m).startDrive m).toTripped m 4 .safe
      else (s.hold m).startDrive m := rfl
theorem State.enterHold_of_untripped {m : Nat} (hsafe : ((s.hold m).startDrive m).safeoff = false)
    (htrip : (((s.hold m).startDrive m).slotChans m).any ((s.hold m).startDrive m).tripped = false) :
    s.enterHold m = (s.hold m).startDrive m := by
  rw [State.enterHold_eq, hsafe, htrip, if_neg Bool.false_ne_true, if_neg Bool.false_ne_true]

theorem State.prStart_clock (s : State) (m : Nat) : (s.prStart m).clock = s.clock := by
  simp only [State.prStart, State.searchStart_clock, State.put_clock, State.modPr_clock, State.prLatch_clock, State.setPr_clock,
    State.ite_clock, ite_self]
theorem State.startDrive_clock (s : State) (m : Nat) : (s.startDrive m).clock = s.clock := by
  simp only [State.startDrive, State.prStart_clock, State.put_clock, State.modGen_clock, State.modCc_clock, State.modChan_clock,
    State.routeStart_clock, State.each_clock, State.ite_clock, ite_self, implies_true]
theorem State.hold_clock (s : State) (m : Nat) : (s.hold m).clock = s.clock := by
  simp only [State.hold, State.put_clock, State.dropTest_clock, State.missBind_clock]

theorem State.startDrive_rd {b : Nat} (hke : ∀ e < 32, b ≠ KE_STATUS e) (hcc : b ≠ AX_CC_ST n) (hbrk : b ≠ AX_BRK_ST n)
    (hpr : b ≠ AX_PR_ST n) : (s.startDrive n).rd b = s.rd b := by
  have hlow (t : State) (x : Nat) : (t.put (AX_CC_ST_LOWRATE n) x).rd b = t.rd b := State.rd_put_word _ (by decide) hcc
  have hholding (t : State) (x : Nat) : (t.put (AX_CC_ST_HOLDING n) x).rd b = t.rd b := State.rd_put_word _ (by decide) hcc
  have hbstate (t : State) (x : Nat) : (t.put (AX_BRK_ST_BSTATE n) x).rd b = t.rd b := State.rd_put_word _ (by decide) hbrk
  have hwait (t : State) (x : Nat) : (t.put (AX_BRK_ST_BRKWAIT n) x).rd b = t.rd b := State.rd_put_word _ (by decide) hbrk
  have hchans (t : State) (l : List Nat) (f : PwmChan → PwmChan) : (t.each l (fun c u => u.modChan c f)).rd b = t.rd b :=
    State.each_rd _ (fun c _ u => u.modChan_rd ..)
  have hroute (e : Nat) (he : e < 32) (t : State) : ((t.routeStart e).put (KE_STATUS_RUN e) 2).rd b = t.rd b :=
    (State.rd_put_word _ (by decide) (hke e he)).trans (State.routeStart_rd (hke e he))
  have hroutes : (s.each (s.slotEngines n) (fun e t =>
      if t.pool e ≠ 3 ∧ t.bit (KE_STATUS_LOADED e) then (t.routeStart e).put (KE_STATUS_RUN e) 2 else t)).rd b = s.rd b :=
    State.each_rd _ (fun e he t => by rw [State.ite_rd, hroute e (State.lt_of_mem_slotEngines he), ite_self])
  simp only [State.startDrive, State.prStart_rd hpr hcc, State.ite_rd, hwait, hbstate, ite_self, State.modGen_rd, hholding, hlow,
    State.modCc_rd, hchans, hroutes]
theorem State.startDrive_rd_low {b : Nat} (hb : b ≤ AX_STATE n) : (s.startDrive n).rd b = s.rd b :=
  State.startDrive_rd (fun e _ => ne_KE_STATUS_of_le_AX_STATE hb e) (Nat.ne_of_lt (lt_of_le_AX_STATE hb (by omega)))
    (Nat.ne_of_lt (lt_of_le_AX_STATE hb (by omega))) (Nat.ne_of_lt (lt_of_le_AX_STATE hb (by omega)))
theorem State.hold_rd {b : Nat} (hstate : b ≠ AX_STATE n) (hchan : ∀ c < 64, b ∉ chanWords c) : (s.hold n).rd b = s.rd b := by
  have hput : (s.hold n).rd b = ((s.missBind n).dropTest n).rd b :=
    (State.rd_put_word _ (by decide) hstate).trans (State.rd_put_STATE _ _ hstate)
  rw [hput, State.dropTest_rd (fun c hc => hchan c (State.lt_of_mem_slotChans hc)), State.missBind_rd hstate]
theorem State.hold_slotState (s : State) (m : Nat) : (s.hold m).slotState m = stHold :=
  (State.slotState_put_ENABLEPENDING _ m 0).trans (State.slotState_put_STATE _ m (by decide))

/-- The entry of HOLD keeps the slot's channels and their latches. -/
theorem State.untripped_startDrive_hold (htrip : (s.slotChans n).any s.tripped = false) :
    (((s.hold n).startDrive n).slotChans n).any ((s.hold n).startDrive n).tripped = false := by
  have hchans : ((s.hold n).startDrive n).slotChans n = s.slotChans n := State.slotChans_of_rd <|
    (State.startDrive_rd_low (AX_BIND_le_AX_STATE n)).trans (State.hold_rd (AX_BIND_ne_AX_STATE n)
      (fun c _ => notMem_chanWords_of_le_AX_STATE (AX_BIND_le_AX_STATE n) c))
  rw [hchans, List.any_eq_false]
  intro c hc
  have hlt := State.lt_of_mem_slotChans hc
  have hn := n.isLt
  have hword : ((s.hold n).startDrive n).rd (GD_CHSTAT (c / 8) (c % 8)) = s.rd (GD_CHSTAT (c / 8) (c % 8)) :=
    (State.startDrive_rd (by unfold GD_CHSTAT KE_STATUS; omega) (by unfold GD_CHSTAT AX_CC_ST; omega)
      (by unfold GD_CHSTAT AX_BRK_ST; omega) (by unfold GD_CHSTAT AX_PR_ST; omega)).trans
    (State.hold_rd (by unfold GD_CHSTAT AX_STATE; omega) (fun d hd => GD_CHSTAT_notMem_chanWords c hd))
  have htripped : ((s.hold n).startDrive n).tripped c = s.tripped c :=
    State.bit_of_rd (by decide) hword
  rw [htripped]
  exact List.any_eq_false.mp htrip c hc
theorem State.enterHold_spec (hsafe : s.safeoff = false) (htrip : (s.slotChans n).any s.tripped = false) :
    (s.enterHold n).slotState n = stHold ∧ (s.enterHold n).get (AX_STATE_ENABLEPENDING n) = 0 := by
  have hlevel : ((s.hold n).startDrive n).safeoff = false :=
    (State.safeoff_eq_of_clock ((State.startDrive_clock _ _).trans (s.hold_clock n))).trans hsafe
  have hword : ((s.hold n).startDrive n).rd (AX_STATE n) = (s.hold n).rd (AX_STATE n) := State.startDrive_rd_low le_rfl
  rw [State.enterHold_of_untripped hlevel (State.untripped_startDrive_hold htrip)]
  exact ⟨(State.slotState_of_rd hword).trans (s.hold_slotState n),
    (State.get_of_rd (by decide) hword).trans (State.get_put_ENABLEPENDING _ n 0)⟩

theorem State.energise_idle {m : Nat} (hst : s.slotState m = stIdle) :
    s.energise m = if s.energiseErr m ≠ 0 then s.err m (s.energiseErr m) else s.enterHold m := by
  unfold State.energise
  rw [hst, if_neg (by simp [stIdle, stShutdown, stRappel]), if_neg (by decide)]
theorem State.energise_shutdown {m : Nat} (hst : s.slotState m = stShutdown) : s.energise m = s.put (AX_STATE_ENABLEPENDING m) 1 := by
  unfold State.energise
  rw [hst, if_pos (Or.inl rfl)]

/-! ### De-energising -/

theorem State.deenergise_run {m : Nat} (hst : s.slotState m = stRun) : s.deenergise m = s.toRappel m 1 true := by
  unfold State.deenergise
  rw [hst, if_pos rfl]
theorem State.deenergise_hold {m : Nat} (hst : s.slotState m = stHold) : s.deenergise m = (s.keepHead m).toShutdown m 1 := by
  unfold State.deenergise
  rw [hst, if_neg (by decide), if_neg (by decide), if_pos rfl]
theorem State.deenergise_idle {m : Nat} (hst : s.slotState m = stIdle) : s.deenergise m = s.err m 5 := by
  unfold State.deenergise
  rw [hst, if_neg (by decide), if_neg (by decide), if_neg (by decide)]

/-- The current of a slot in SHUTDOWN is zero. -/
def State.currentZero (s : State) (n : Nat) : Bool := match (s.cc n).ramp with | .down _ => true | _ => s.isRemote n
/-- The gates and the routes of a slot off, its current control at rest. -/
def State.stopDrive (s : State) (n : Nat) : State :=
  let s := s.each (s.slotChans n) (fun c t => (t.force c mOff false).modChan c (fun x => { x with want := 0 }))
  (s.stopRoutes n).modCc n (fun c => { c with ramp := .run, ilim := 0, xd := 0, xq := 0, xv := 0, late := none })
theorem State.stopDrive_rd_STATE (s : State) (n : Fin 16) : (s.stopDrive n).rd (AX_STATE n) = s.rd (AX_STATE n) := by
  unfold State.stopDrive
  rw [State.modCc_rd, State.stopRoutes_rd (ne_KE_STATUS_of_le_AX_STATE le_rfl)]
  exact State.each_rd _ (fun c _ t => by rw [State.modChan_rd, State.force_rd (notMem_chanWords_of_le_AX_STATE le_rfl c)])
theorem shutdownComplete_idle (hst : s.slotState n = stShutdown) (hzero : s.currentZero n = true)
    (hbrk : s.get (AX_BRK_ST_BSTATE n) ≠ 3) (hpend : s.bit (AX_STATE_ENABLEPENDING n) = false) :
    shutdownComplete n s = ((s.stopDrive n).put (AX_STATE_STATE n) stIdle).put (AX_STATE_ENABLEPENDING n) 0 := by
  have hagain : (s.stopDrive n).bit (AX_STATE_ENABLEPENDING n) = false :=
    (State.bit_of_rd (by decide) (s.stopDrive_rd_STATE n)).trans hpend
  exact (if_pos ⟨hst, hzero, hbrk⟩).trans (if_neg (by rw [Bool.not_eq_true]; exact hagain))

/-! ### CLEAR and service -/

theorem State.clearTrip_slotState {w : Writer} {m : Nat} (hst : s.slotState m = stTripped) (hsafe : s.safeoff = false)
    (hcause : (s.slotChans m).any (fun c => s.bit (GD_CHSTAT_TRIPACTIVE (c / 8) (c % 8))) = false) :
    (s.clearTrip w m).slotState m = stIdle := by
  unfold State.clearTrip
  rw [if_neg (not_not.mpr hst), hsafe, hcause, if_neg (by decide)]
  exact State.slotState_put_STATE _ m (by decide)
theorem State.svcOut_slotState {w : Writer} {m : Nat} (hst : s.slotState m = stIdle ∨ s.slotState m = stTripped) :
    (s.svcOut w m).slotState m = stOos := by
  unfold State.svcOut
  rw [if_pos hst]
  exact (State.interruptWait_get ..).trans (State.slotState_put_STATE _ m (by decide))
theorem State.svcIn_slotState {m : Nat} (phys : List Nat) (hst : s.slotState m = stOos) : (s.svcIn m phys).slotState m = stIdle := by
  unfold State.svcIn
  rw [if_pos hst]
  exact State.slotState_put_STATE _ m (by decide)
end

/-- Settles O11: each command by the state that it finds, its effect read off the word AXn_STATE. -/
theorem slotStateRows : Obligations.SlotStateRows := by
  unfold Obligations.SlotStateRows
  intro s w n hup hown
  have hread (f : State → State) (m : Nat) : (s.effect f).slotState m = (f s).slotState m := s.effect_get f _
  have henergise : exec (.energise w n) s = .next (s.effect (·.energise n)) := live_owned hup hown
  have hdeenergise : exec (.deenergise w n) s = .next (s.effect (·.deenergise n)) := live_owned hup hown
  have hcomplete : exec (.shutdownComplete n) s = .next (s.effect (shutdownComplete n)) := live_next hup _
  have hclear : exec (.clear w n) s = .next (s.effect (·.clearTrip w n)) := live_owned hup hown
  have hsvcOut : exec (.svcOut w n) s = .next (s.effect (·.svcOut w n)) := live_owned hup hown
  have hsvcIn (phys : List Nat) : exec (.svcIn w n phys) s = .next (s.effect (·.svcIn n phys)) := live_owned hup hown
  refine ⟨fun hst herr hsafe htrip => ⟨_, henergise, ?_⟩, fun hst herr => ⟨_, henergise, ?_⟩,
    fun hst => ⟨_, henergise, ?_⟩, fun hst => ⟨_, hdeenergise, ?_⟩, fun hst => ⟨_, hdeenergise, ?_⟩, fun hst => ⟨_, hdeenergise, ?_⟩,
    fun hst hzero hbrk hpend => ⟨_, hcomplete, ?_⟩, fun hst hsafe hcause => ⟨_, hclear, ?_⟩, fun hst => ⟨_, hsvcOut, ?_⟩,
    fun phys hst => ⟨_, hsvcIn phys, ?_⟩⟩
  · rw [hread, State.effect_get, State.energise_idle hst, if_neg (not_not.mpr herr)]
    exact State.enterHold_spec hsafe htrip
  · rw [hread, State.effect_get, State.energise_idle hst, if_pos herr]
    exact ⟨(s.slotState_err n _).trans hst, s.get_err n _⟩
  · rw [hread, State.effect_get, State.energise_shutdown hst]
    exact ⟨(s.slotState_put_ENABLEPENDING n 1).trans hst, s.get_put_ENABLEPENDING n 1⟩
  · have hword := State.toRappel_rd_STATE hst 1 true
    rw [hread, State.effect_get, State.deenergise_run hst]
    exact ⟨(State.slotState_of_rd hword).trans (s.slotState_enter n 1 (by decide)),
      (State.get_of_rd (by decide) hword).trans (s.STOPREASON_enter n _ 1)⟩
  · have hword := (s.keepHead n).toShutdown_rd_STATE n 1
    rw [hread, State.effect_get, State.deenergise_hold hst]
    exact ⟨(State.slotState_of_rd hword).trans (State.slotState_enter _ n 1 (by decide)),
      (State.get_of_rd (by decide) hword).trans (State.STOPREASON_enter _ n _ 1)⟩
  · rw [hread, State.effect_get, State.deenergise_idle hst]
    exact ⟨(s.slotState_err n 5).trans hst, s.get_err n 5⟩
  · rw [hread, shutdownComplete_idle hst hzero hbrk hpend]
    exact (State.slotState_put_ENABLEPENDING _ n 0).trans (State.slotState_put_STATE _ n (by decide))
  · rw [hread]
    exact State.clearTrip_slotState hst hsafe hcause
  · rw [hread]
    exact State.svcOut_slotState hst
  · rw [hread]
    exact State.svcIn_slotState phys hst

end Sys2Proof.Machine
end

section
/-! PROOFS. What the operations of the pitch generator (Machine/Motion.lean) do to the register words of their slot and to its
generator record: the layer under the statements O13 to O15. -/
namespace Sys2Proof.Machine

section
variable {s : State} {n b : Nat}

/-! ### Words of one slot -/

/-- Registers of one slot at different offsets are different words. -/
theorem slotWord_ne {i j : Nat} (h : i ≠ j) : 0x080000 + 0x1000 * n + i ≠ 0x080000 + 0x1000 * n + j := by omega

theorem signedOf_mod (k x : Nat) : signedOf k (x % 2 ^ k) = signedOf k x := by unfold signedOf; rw [Nat.mod_mod]
/-- A field of one word depends on that word. -/
theorem State.get_of_same_word {t : State} {f : Fld} (hw : decide (f.hi < 32) = true) (h : t.rd f.a = s.rd f.a) :
    t.get f = s.get f := by
  unfold State.get; rw [if_pos (of_decide_eq_true hw), if_pos (of_decide_eq_true hw), h]
/-- A counter of one word wraps at 32 bits. -/
theorem State.get_inc_word {a : Nat} (s : State) (k : Nat) :
    (s.inc ⟨a, 31, 0⟩ k).get ⟨a, 31, 0⟩ = (s.get ⟨a, 31, 0⟩ + k) % 2 ^ 32 :=
  s.get_put_word _ (by decide) (by decide)
/-- A signed counter of one word wraps at 32 bits. -/
theorem State.geti_puti_word {a : Nat} (s : State) (v : Int) :
    (s.puti ⟨a, 31, 0⟩ v).geti ⟨a, 31, 0⟩ = signedOf 32 (unsignedOf 32 v) := by
  have hget : (s.puti ⟨a, 31, 0⟩ v).get ⟨a, 31, 0⟩ = unsignedOf 32 v % 2 ^ 32 := s.get_put_word _ (by decide) (by decide)
  exact (congrArg (signedOf 32) hget).trans (signedOf_mod 32 _)

/-! ### Operations that follow the queue and the slot's state -/

@[simp] theorem State.syncQueue_gen (m : Nat) : (s.syncQueue n).gen m = s.gen m := s.put_gen ..
theorem State.syncQueue_rd (h : b ≠ AX_PITQ_LVL n) : (s.syncQueue n).rd b = s.rd b := State.rd_put_word _ (by decide) h
/-- AXn_PITQ_LVL has room for the 64 entries of a queue. -/
theorem State.get_syncQueue (h : (s.gen n).queue.length ≤ 64) :
    (s.syncQueue n).get (AX_PITQ_LVL_LEVEL n) = (s.gen n).queue.length := by
  have hput : (s.syncQueue n).get (AX_PITQ_LVL_LEVEL n) = (s.gen n).queue.length % 2 ^ 7 :=
    s.get_put_word _ (by decide) (by decide)
  rw [hput, Nat.mod_eq_of_lt (by omega)]
@[simp] theorem State.syncWait_gen (m : Nat) : (s.syncWait n).gen m = s.gen m := s.flag_gen ..
theorem State.syncWait_rd (h : b ≠ AX_PITST n) : (s.syncWait n).rd b = s.rd b := State.rd_put_word _ (by decide) h
@[simp] theorem State.clearPitst_gen (m : Nat) : (s.clearPitst n).gen m = s.gen m := by
  unfold State.clearPitst; rw [State.put_gen, State.put_gen, State.put_gen]
theorem State.clearPitst_rd_ne (h : b ≠ AX_PITST n) : (s.clearPitst n).rd b = s.rd b :=
  (State.rd_put_word _ (by decide) h).trans ((State.rd_put_word _ (by decide) h).trans (State.rd_put_word _ (by decide) h))
@[simp] theorem State.toRun_gen (m : Nat) : (s.toRun n).gen m = s.gen m := by
  unfold State.toRun
  split
  · rw [State.put_gen, State.put_gen, State.modCc_gen, State.put_gen]
  · rfl
theorem State.toRun_rd (hstate : b ≠ AX_STATE n) (hcc : b ≠ AX_CC_ST n) : (s.toRun n).rd b = s.rd b := by
  have hlow (t : State) : (t.put (AX_CC_ST_LOWRATE n) 0).rd b = t.rd b := State.rd_put_word _ (by decide) hcc
  have hholding (t : State) : (t.put (AX_CC_ST_HOLDING n) 0).rd b = t.rd b := State.rd_put_word _ (by decide) hcc
  unfold State.toRun
  split
  · rw [hholding, hlow, State.modCc_rd, State.rd_put_STATE _ _ hstate]
  · rfl
end

end Sys2Proof.Machine
end

section
/-! PROOFS. The statement O13: offering, flushing and releasing the pitch queue (R38, R50). -/
namespace Sys2Proof.Machine

section
variable {s : State} {n : Nat} {w : Writer} {v : Word} {e : List Word}

/-! ### Offering an entry (R38) -/

/-- The entry that the write of `v` to AXn_PITQ_IN7 offers: the seven staged words and `v`. -/
def State.stagedEntry (s : State) (n : Nat) (v : Word) : List Word := (List.range 7).map (fun i => s.rd (AX_PITQ_IN n i)) ++ [v]

theorem State.map_rd_PITQ_IN (s : State) (n : Nat) (v : Word) :
    (List.range 8).map (fun i => (s.wr (AX_PITQ_IN n 7) v).rd (AX_PITQ_IN n i)) = s.stagedEntry n v := by
  have hstaged : ∀ i ∈ List.range 7, (s.wr (AX_PITQ_IN n 7) v).rd (AX_PITQ_IN n i) = s.rd (AX_PITQ_IN n i) := fun i hi =>
    s.rd_wr_ne v (by have := List.mem_range.mp hi; unfold AX_PITQ_IN; omega)
  unfold State.stagedEntry
  rw [List.range_succ, List.map_append, List.map_congr_left hstaged, List.map_singleton, State.rd_wr_same]
theorem pitchOffer_owned (hown : s.owns w n = true) :
    pitchOffer w n v s = ((s.wr (AX_PITQ_IN n 7) v).offerPitch n (s.stagedEntry n v)).1.syncWait n := by
  unfold pitchOffer
  rw [hown, ← State.map_rd_PITQ_IN]
  rfl

/-- The queue of slot `n` with `e` at its end, under the next index. -/
def State.joinQueue (s : State) (n : Nat) (e : List Word) : State :=
  ((s.modGen n (fun g => { g with queue := g.queue ++ [e], headAt := if g.queue.isEmpty then s.now else g.headAt })).inc
    (AX_PITNEXT_V n)).syncQueue n
theorem State.offerPitch_taken (hok : entryBad e = false) (hroom : (s.gen n).queue.length < 64) :
    (s.offerPitch n e).1 = s.joinQueue n e := by
  unfold State.offerPitch
  rw [hok, if_neg Bool.false_ne_true, if_neg (by omega)]
  rfl
theorem State.offerPitch_bad (hbad : entryBad e = true) : (s.offerPitch n e).1 = s.put (AX_PITQ_CTRL_BADPITCH n) 1 := by
  unfold State.offerPitch; rw [if_pos hbad]
theorem State.offerPitch_full (hok : entryBad e = false) (hfull : 64 ≤ (s.gen n).queue.length) :
    (s.offerPitch n e).1 = s.put (AX_PITQ_CTRL_FULL n) 1 := by
  unfold State.offerPitch; rw [hok, if_neg Bool.false_ne_true, if_pos hfull]

theorem State.joinQueue_queue : ((s.joinQueue n e).gen n).queue = (s.gen n).queue ++ [e] := by
  unfold State.joinQueue
  rw [State.syncQueue_gen, State.inc_gen, State.gen_modGen_same]
theorem State.get_inc_PITNEXT (t : State) :
    (t.inc (AX_PITNEXT_V n)).get (AX_PITNEXT_V n) = (t.get (AX_PITNEXT_V n) + 1) % 2 ^ 32 :=
  t.get_inc_word 1
theorem State.get_joinQueue_PITNEXT : (s.joinQueue n e).get (AX_PITNEXT_V n) = (s.get (AX_PITNEXT_V n) + 1) % 2 ^ 32 := by
  have hlvl : (s.joinQueue n e).get (AX_PITNEXT_V n) = _ :=
    State.get_of_same_word rfl (State.syncQueue_rd (slotWord_ne (by decide)))
  rw [hlvl, State.get_inc_PITNEXT, State.modGen_get]
theorem State.get_joinQueue_LEVEL (hroom : (s.gen n).queue.length < 64) :
    (s.joinQueue n e).get (AX_PITQ_LVL_LEVEL n) = (s.gen n).queue.length + 1 := by
  have hlen : ((s.joinQueue n e).gen n).queue.length = (s.gen n).queue.length + 1 := by
    rw [State.joinQueue_queue, List.length_append, List.length_singleton]
  rw [← hlen]
  unfold State.joinQueue at hlen ⊢
  rw [State.syncQueue_gen] at hlen ⊢
  exact State.get_syncQueue (by rw [hlen]; exact hroom)

theorem PITNEXT_ne_PITQ_IN (n i : Nat) (hi : i < 8) : AX_PITNEXT n ≠ AX_PITQ_IN n i := by unfold AX_PITNEXT AX_PITQ_IN; omega
/-- A taken entry is queued under the next index. -/
theorem pitchOffer_taken_spec (hown : s.owns w n = true) (hok : entryBad (s.stagedEntry n v) = false)
    (hroom : (s.gen n).queue.length < 64) :
    ((pitchOffer w n v s).gen n).queue = (s.gen n).queue ++ [s.stagedEntry n v] ∧
      (pitchOffer w n v s).get (AX_PITNEXT_V n) = (s.get (AX_PITNEXT_V n) + 1) % 2 ^ 32 ∧
      (pitchOffer w n v s).get (AX_PITQ_LVL_LEVEL n) = (s.gen n).queue.length + 1 := by
  have hgen : (s.wr (AX_PITQ_IN n 7) v).gen n = s.gen n := s.wr_gen ..
  have hnext : (s.wr (AX_PITQ_IN n 7) v).get (AX_PITNEXT_V n) = s.get (AX_PITNEXT_V n) :=
    State.get_of_rd (by decide) (s.rd_wr_ne v (PITNEXT_ne_PITQ_IN n 7 (by decide)))
  have hsync {f : Fld} (t : State) (hw : decide (f.hi < 32) = true) (h : f.a ≠ AX_PITST n) : (t.syncWait n).get f = t.get f :=
    State.get_of_same_word hw (State.syncWait_rd h)
  rw [pitchOffer_owned hown, State.offerPitch_taken hok (hgen ▸ hroom), State.syncWait_gen, State.joinQueue_queue, hgen]
  refine ⟨rfl, ?_, ?_⟩
  · rw [hsync _ rfl (slotWord_ne (by decide)), State.get_joinQueue_PITNEXT, hnext]
  · rw [hsync _ rfl (slotWord_ne (by decide)), State.get_joinQueue_LEVEL (hgen ▸ hroom), hgen]

/-- A refused entry sets its flag in AXn_PITQ_CTRL and leaves the queue and the next index as they were. -/
theorem pitchOffer_refused_spec {i : Nat} (hi : i < 32) (hown : s.owns w n = true)
    (hoffer : ((s.wr (AX_PITQ_IN n 7) v).offerPitch n (s.stagedEntry n v)).1 =
      (s.wr (AX_PITQ_IN n 7) v).put ⟨AX_PITQ_CTRL n, i, i⟩ 1) :
    (pitchOffer w n v s).gen n = s.gen n ∧ (pitchOffer w n v s).get ⟨AX_PITQ_CTRL n, i, i⟩ = 1 ∧
      (pitchOffer w n v s).get (AX_PITNEXT_V n) = s.get (AX_PITNEXT_V n) := by
  have hflag (t : State) : (t.put ⟨AX_PITQ_CTRL n, i, i⟩ 1).get ⟨AX_PITQ_CTRL n, i, i⟩ = 1 := by
    rw [State.get_put_word _ 1 hi le_rfl, Nat.add_sub_cancel_left]; rfl
  have hnext : ((s.wr (AX_PITQ_IN n 7) v).put ⟨AX_PITQ_CTRL n, i, i⟩ 1).rd (AX_PITNEXT n) = s.rd (AX_PITNEXT n) :=
    (State.rd_put_word _ hi (slotWord_ne (by decide))).trans (s.rd_wr_ne v (PITNEXT_ne_PITQ_IN n 7 (by decide)))
  rw [pitchOffer_owned hown, hoffer, State.syncWait_gen, State.put_gen, State.wr_gen]
  refine ⟨rfl, ?_, ?_⟩
  · exact (State.get_of_rd hi (State.syncWait_rd (slotWord_ne (by decide)))).trans (hflag _)
  · exact State.get_of_rd (by decide) ((State.syncWait_rd (slotWord_ne (by decide))).trans hnext)

/-! ### FLUSH and GO (R50) -/

theorem State.flushQueue_gen : (s.flushQueue n).gen n = { s.gen n with queue := [] } := by
  unfold State.flushQueue
  rw [State.put_gen, State.syncQueue_gen, State.inc_gen, State.gen_modGen_same, State.strandWaits_gen]
theorem State.get_flushQueue_LEVEL : (s.flushQueue n).get (AX_PITQ_LVL_LEVEL n) = 0 := by
  have hwait : (s.flushQueue n).get (AX_PITQ_LVL_LEVEL n) = _ :=
    State.get_of_same_word rfl (State.rd_put_word 0 (by decide) (slotWord_ne (by decide)))
  have hempty : ((((s.strandWaits n).modGen n (fun g => { g with queue := [] })).inc (AX_PITFLUSH_V n)
      (s.gen n).queue.length).gen n).queue = [] := by rw [State.inc_gen, State.gen_modGen_same]
  rw [hwait, State.get_syncQueue (by rw [hempty]; decide), hempty]
  rfl
theorem State.get_flushQueue_PITFLUSH :
    (s.flushQueue n).get (AX_PITFLUSH_V n) = (s.get (AX_PITFLUSH_V n) + (s.gen n).queue.length) % 2 ^ 32 := by
  have hwait : (s.flushQueue n).get (AX_PITFLUSH_V n) = _ := State.get_of_same_word rfl
    ((State.rd_put_word 0 (by decide) (slotWord_ne (by decide))).trans (State.syncQueue_rd (slotWord_ne (by decide))))
  have hadd (t : State) (k : Nat) : (t.inc (AX_PITFLUSH_V n) k).get (AX_PITFLUSH_V n) = (t.get (AX_PITFLUSH_V n) + k) % 2 ^ 32 :=
    t.get_inc_word k
  rw [hwait, hadd, State.modGen_get, State.strandWaits_get]

theorem State.goQueue_released (h : s.slotState n = stHold ∨ s.slotState n = stRun) :
    s.goQueue n = s.put (AX_PITQ_CTRL_QHELD n) 0 := if_pos h
end

/-- Settles O13: an offer by what it comes to, FLUSH and GO by what they leave in the queue. -/
theorem pitchQueueRows : Obligations.PitchQueueRows := by
  unfold Obligations.PitchQueueRows
  intro s w n hup hown
  have hoffer (v : Word) : exec (.pitchOffer w n v) s = .next (s.effect (pitchOffer w n v)) := live_next hup _
  have hflush : exec (.flush w n) s = .next (s.effect (·.flushQueue n)) := live_owned hup hown
  have hgo : exec (.go w n) s = .next (s.effect (·.goQueue n)) := live_owned hup hown
  refine ⟨fun v hok hroom => ⟨_, hoffer v, ?_⟩, fun v hbad => ⟨_, hoffer v, ?_⟩, fun v hok hfull => ⟨_, hoffer v, ?_⟩,
    ⟨_, hflush, ?_⟩, fun hst => ⟨_, hgo, ?_⟩⟩
  · rw [State.effect_gen, State.effect_get, State.effect_get]
    exact pitchOffer_taken_spec hown hok hroom
  · rw [State.effect_gen, State.effect_get, State.effect_get]
    exact pitchOffer_refused_spec (by decide) hown (State.offerPitch_bad hbad)
  · rw [State.effect_gen, State.effect_get, State.effect_get]
    exact pitchOffer_refused_spec (by decide) hown (State.offerPitch_full hok (by rw [State.wr_gen]; exact hfull))
  · rw [State.effect_gen, State.effect_get, State.effect_get, State.flushQueue_gen, State.get_flushQueue_LEVEL,
      State.get_flushQueue_PITFLUSH]
    exact ⟨rfl, rfl, rfl, rfl, rfl⟩
  · have heq := State.goQueue_released hst
    refine ⟨?_, fun a ha => ?_, ?_⟩
    · rw [State.effect_get, heq]; exact s.get_put_word 0 (by decide) (by decide)
    · rw [State.effect_rd, heq]; exact State.rd_put_word 0 (by decide) ha
    · rw [State.effect_gens, heq]; exact s.put_gens ..

end Sys2Proof.Machine
end

section
/-! PROOFS. The statement O14: setpoints, starvation and the gear ratio (R52 to R58). -/
namespace Sys2Proof.Machine

section
variable {s : State} {n : Nat} {w : Writer} {v : Word}

/-! ### Offering a setpoint (R52, R53) -/

/-- The setpoint that the write of `v` to the high word of AXn_SPB_V offers, its time and place in order (R53). -/
def State.stagedPoint (s : State) (n : Nat) (v : Word) : SetPoint :=
  { t := s.rd64 (AX_SPB_T n), p := s.geti (AX_SPB_P_V n) * 2 ^ 32
    v := signedOf 64 (v.toNat * 2 ^ 32 + (s.rd (AX_SPB_V n)).toNat), velok := s.bit (AX_SPB_IN0_VELOK n) }
/-- Slot `n` with `x` as its last buffered setpoint; it is starved no longer. -/
def State.pointAdded (s : State) (n : Nat) (x : SetPoint) : State :=
  (((s.setGen n { s.gen n with points := (s.gen n).points ++ [x] }).put (AX_SPB_LVL_LEVEL n) ((s.gen n).points.length + 1)).put
    (AX_SPB_LVL_STARVED n) 0).put (AX_PITST_UNDERRUN n) 0
/-- The first buffered setpoint takes a slot that nothing holds to RUN. -/
def State.joinPoints (s : State) (n : Nat) (x : SetPoint) : State :=
  if (s.gen n).points.isEmpty ∧ !(s.pointAdded n x).genHeld n then (s.pointAdded n x).toRun n else s.pointAdded n x

/-- A setpoint that is not late and comes after every buffered one keeps its time. -/
theorem State.bufferPoint_inOrder {velok : Bool} {t : Nat} {p vel : Int} (hfree : s.nextFree ≤ t)
    (hafter : ∀ q ∈ (s.gen n).points, q.t < t) :
    s.bufferPoint n velok t p vel = s.joinPoints n ⟨t, p * 2 ^ 32, vel, velok⟩ := by
  have hlate : decide (t < s.nextFree) = false := decide_eq_false (Nat.not_lt.mpr hfree)
  unfold State.bufferPoint State.joinPoints State.pointAdded
  cases hlast : (s.gen n).points.getLast? with
  | none => simp only [hlate, hlast, Bool.false_eq_true, if_false, Nat.add_zero]
  | some q =>
    have hfollow : decide (t ≤ q.t) = false := decide_eq_false (Nat.not_le.mpr (hafter q (List.mem_of_getLast? hlast)))
    simp only [hlate, hlast, hfollow, Bool.and_false, Bool.false_eq_true, if_false, Nat.add_zero]

/-- The words of slot `n` that a buffered setpoint leaves alone. -/
theorem State.joinPoints_rd {b : Nat} {x : SetPoint} (hlvl : b ≠ AX_SPB_LVL n) (hpitst : b ≠ AX_PITST n)
    (hstate : b ≠ AX_STATE n) (hcc : b ≠ AX_CC_ST n) : (s.joinPoints n x).rd b = s.rd b := by
  have hadded : (s.pointAdded n x).rd b = s.rd b :=
    (State.rd_put_word _ (by decide) hpitst).trans ((State.rd_put_word _ (by decide) hlvl).trans
      (State.rd_put_word _ (by decide) hlvl))
  unfold State.joinPoints
  rw [State.ite_rd, State.toRun_rd hstate hcc, hadded, ite_self]
theorem State.joinPoints_points {x : SetPoint} : ((s.joinPoints n x).gen n).points = (s.gen n).points ++ [x] := by
  have hadded : (s.pointAdded n x).gen n = { s.gen n with points := (s.gen n).points ++ [x] } := by
    unfold State.pointAdded
    rw [State.put_gen, State.put_gen, State.put_gen, State.gen_setGen_same]
  unfold State.joinPoints
  split
  · rw [State.toRun_gen, hadded]
  · rw [hadded]
theorem State.get_joinPoints_LEVEL {x : SetPoint} (hroom : (s.gen n).points.length < 16) :
    (s.joinPoints n x).get (AX_SPB_LVL_LEVEL n) = (s.gen n).points.length + 1 := by
  have hrun : (s.joinPoints n x).rd (AX_SPB_LVL n) = (s.pointAdded n x).rd (AX_SPB_LVL n) := by
    have htoRun : ((s.pointAdded n x).toRun n).rd (AX_SPB_LVL n) = (s.pointAdded n x).rd (AX_SPB_LVL n) :=
      State.toRun_rd (slotWord_ne (by decide)) (slotWord_ne (by decide))
    unfold State.joinPoints
    rw [State.ite_rd, htoRun, ite_self]
  have hunderrun (t : State) : (t.put (AX_PITST_UNDERRUN n) 0).get (AX_SPB_LVL_LEVEL n) = t.get (AX_SPB_LVL_LEVEL n) :=
    State.get_of_same_word rfl (State.rd_put_word _ (by decide) (slotWord_ne (by decide)))
  have hstarved (t : State) : (t.put (AX_SPB_LVL_STARVED n) 0).get (AX_SPB_LVL_LEVEL n) = t.get (AX_SPB_LVL_LEVEL n) :=
    t.get_put_disjoint (f := ⟨AX_SPB_LVL n, 9, 9⟩) (g := ⟨AX_SPB_LVL n, 4, 0⟩) 0 (show 9 < 32 by decide)
      (show 4 < 32 by decide) rfl le_rfl (Or.inl (show 4 < 9 by decide))
  have hlevel (t : State) (k : Nat) : (t.put (AX_SPB_LVL_LEVEL n) k).get (AX_SPB_LVL_LEVEL n) = k % 2 ^ 5 :=
    t.get_put_word k (by decide) (by decide)
  rw [State.get_of_same_word (f := AX_SPB_LVL_LEVEL n) rfl hrun]
  unfold State.pointAdded
  rw [hunderrun, hstarved, hlevel, Nat.mod_eq_of_lt (by omega)]

/-! What the write of the last staged word, the high word of AXn_SPB_V, leaves of the reads that judge the offer. -/

theorem State.rd_wr_SPB_V_high {off : Nat} (h : off ≠ 0x198) :
    (s.wr (AX_SPB_V n + 4) v).rd (0x080000 + 0x1000 * n + off) = s.rd (0x080000 + 0x1000 * n + off) :=
  s.rd_wr_ne v (by unfold AX_SPB_V; omega)
theorem State.get_wr_SPB_V_high {off hi lo : Nat} (hw : hi < 32) (h : off ≠ 0x198) :
    (s.wr (AX_SPB_V n + 4) v).get ⟨0x080000 + 0x1000 * n + off, hi, lo⟩ = s.get ⟨0x080000 + 0x1000 * n + off, hi, lo⟩ :=
  State.get_of_rd hw (State.rd_wr_SPB_V_high h)
theorem State.rd64_wr_SPB_V_high {off : Nat} (h : off ≠ 0x198) (h' : off + 4 ≠ 0x198) :
    (s.wr (AX_SPB_V n + 4) v).rd64 (0x080000 + 0x1000 * n + off) = s.rd64 (0x080000 + 0x1000 * n + off) := by
  unfold State.rd64
  rw [State.rd_wr_SPB_V_high h, Nat.add_assoc _ off, State.rd_wr_SPB_V_high h']
theorem State.SRC_wr_SPB_V_high : (s.wr (AX_SPB_V n + 4) v).get (AX_MCFG_SRC n) = s.get (AX_MCFG_SRC n) :=
  State.get_wr_SPB_V_high (by decide) (by decide)
theorem State.slotState_wr_SPB_V_high : (s.wr (AX_SPB_V n + 4) v).slotState n = s.slotState n :=
  State.get_wr_SPB_V_high (by decide) (by decide)
theorem State.nextFree_wr_SPB_V_high : (s.wr (AX_SPB_V n + 4) v).nextFree = s.nextFree := by
  have hperiod : (s.wr (AX_SPB_V n + 4) v).period = s.period := State.period_congr
    (State.get_of_same_word rfl (s.rd_wr_ne v (by unfold CT_TICKCFG_TICKUS CT_TICKCFG AX_SPB_V; dsimp only; omega)))
  unfold State.nextFree
  rw [hperiod, State.wr_tickLeft, State.wr_tickAt, State.wr_now]
/-- A quantity of 64 bits is its two words. -/
theorem State.geti_quantity (s : State) (a : Nat) : s.geti ⟨a, 63, 0⟩ = signedOf 64 (s.rd64 a) := by
  have hget : s.get ⟨a, 63, 0⟩ = s.rd64 a % 2 ^ 64 := by
    unfold State.get bitsOf
    rw [if_neg (show ¬ 63 < 32 by decide)]
    exact congrArg (· % 2 ^ 64) (Nat.div_one _)
  exact (congrArg (signedOf 64) hget).trans (signedOf_mod 64 _)
theorem State.geti_SPB_P_wr_SPB_V_high : (s.wr (AX_SPB_V n + 4) v).geti (AX_SPB_P_V n) = s.geti (AX_SPB_P_V n) :=
  (State.geti_quantity _ _).trans ((congrArg (signedOf 64) (State.rd64_wr_SPB_V_high (by decide) (by decide))).trans
    (State.geti_quantity s _).symm)
theorem State.geti_SPB_V_wr_high :
    (s.wr (AX_SPB_V n + 4) v).geti (AX_SPB_V_V n) = signedOf 64 (v.toNat * 2 ^ 32 + (s.rd (AX_SPB_V n)).toNat) := by
  have hwords : (s.wr (AX_SPB_V n + 4) v).rd64 (AX_SPB_V n) = v.toNat * 2 ^ 32 + (s.rd (AX_SPB_V n)).toNat := by
    unfold State.rd64
    rw [State.rd_wr_same, State.rd_wr_ne _ _ (by omega)]
  exact (State.geti_quantity _ _).trans (congrArg (signedOf 64) hwords)

/-- An offer by whoever may give it is judged by the slot as it stands (R52). -/
theorem setpointOffer_owned (hown : s.owns w n = true) :
    setpointOffer w n v s =
      if s.get (AX_MCFG_SRC n) ≠ 2 ∨ s.slotState n = stUnbound then (s.wr (AX_SPB_V n + 4) v).err n 5
      else if 16 ≤ (s.gen n).points.length then (s.wr (AX_SPB_V n + 4) v).put (AX_SPB_LVL_FULL n) 1
      else (s.wr (AX_SPB_V n + 4) v).bufferPoint n (s.bit (AX_SPB_IN0_VELOK n)) (s.rd64 (AX_SPB_T n)) (s.geti (AX_SPB_P_V n))
        (signedOf 64 (v.toNat * 2 ^ 32 + (s.rd (AX_SPB_V n)).toNat)) := by
  have htime : (s.wr (AX_SPB_V n + 4) v).rd64 (AX_SPB_T n) = s.rd64 (AX_SPB_T n) :=
    State.rd64_wr_SPB_V_high (by decide) (by decide)
  have hvelok : (s.wr (AX_SPB_V n + 4) v).bit (AX_SPB_IN0_VELOK n) = s.bit (AX_SPB_IN0_VELOK n) :=
    congrArg (· != 0) (State.get_wr_SPB_V_high (by decide) (by decide))
  unfold setpointOffer
  rw [hown, if_neg (by simp)]
  dsimp only
  rw [State.SRC_wr_SPB_V_high, State.slotState_wr_SPB_V_high, State.wr_gen, htime, hvelok, State.geti_SPB_P_wr_SPB_V_high,
    State.geti_SPB_V_wr_high]
theorem setpointOffer_taken (hown : s.owns w n = true) (hsrc : s.get (AX_MCFG_SRC n) = 2) (hbound : s.slotState n ≠ stUnbound)
    (hroom : (s.gen n).points.length < 16) (hfree : s.nextFree ≤ s.rd64 (AX_SPB_T n))
    (hafter : ∀ q ∈ (s.gen n).points, q.t < s.rd64 (AX_SPB_T n)) :
    setpointOffer w n v s = (s.wr (AX_SPB_V n + 4) v).joinPoints n (s.stagedPoint n v) := by
  rw [setpointOffer_owned hown, if_neg (by simp [hsrc, hbound]), if_neg (by omega),
    State.bufferPoint_inOrder (by rw [State.nextFree_wr_SPB_V_high]; exact hfree) (by rw [State.wr_gen]; exact hafter)]
  rfl
theorem setpointOffer_full (hown : s.owns w n = true) (hsrc : s.get (AX_MCFG_SRC n) = 2) (hbound : s.slotState n ≠ stUnbound)
    (hfull : 16 ≤ (s.gen n).points.length) :
    setpointOffer w n v s = (s.wr (AX_SPB_V n + 4) v).put (AX_SPB_LVL_FULL n) 1 := by
  rw [setpointOffer_owned hown, if_neg (by simp [hsrc, hbound]), if_pos hfull]
theorem setpointOffer_otherSource (hown : s.owns w n = true) (hsrc : s.get (AX_MCFG_SRC n) ≠ 2) :
    setpointOffer w n v s = (s.wr (AX_SPB_V n + 4) v).err n 5 := by
  rw [setpointOffer_owned hown, if_pos (Or.inl hsrc)]

theorem setpointOffer_taken_spec (hown : s.owns w n = true) (hsrc : s.get (AX_MCFG_SRC n) = 2) (hbound : s.slotState n ≠ stUnbound)
    (hroom : (s.gen n).points.length < 16) (hfree : s.nextFree ≤ s.rd64 (AX_SPB_T n))
    (hafter : ∀ q ∈ (s.gen n).points, q.t < s.rd64 (AX_SPB_T n)) :
    ((setpointOffer w n v s).gen n).points = (s.gen n).points ++ [s.stagedPoint n v] ∧
      (setpointOffer w n v s).get (AX_SPB_LVL_LEVEL n) = (s.gen n).points.length + 1 ∧
      (setpointOffer w n v s).get (AX_LATE_V n) = s.get (AX_LATE_V n) ∧
      (setpointOffer w n v s).get (AX_SPORD_V n) = s.get (AX_SPORD_V n) := by
  have hgen : (s.wr (AX_SPB_V n + 4) v).gen n = s.gen n := s.wr_gen ..
  rw [setpointOffer_taken hown hsrc hbound hroom hfree hafter, State.joinPoints_points,
    State.get_joinPoints_LEVEL (by rw [hgen]; exact hroom), hgen]
  refine ⟨rfl, rfl, State.get_of_same_word rfl ?_, State.get_of_same_word rfl ?_⟩
  · exact (State.joinPoints_rd (slotWord_ne (by decide)) (slotWord_ne (by decide)) (slotWord_ne (by decide))
      (slotWord_ne (by decide))).trans (State.rd_wr_SPB_V_high (by decide))
  · exact (State.joinPoints_rd (slotWord_ne (by decide)) (slotWord_ne (by decide)) (slotWord_ne (by decide))
      (slotWord_ne (by decide))).trans (State.rd_wr_SPB_V_high (by decide))

/-! ### The end of the coast (R55) -/

theorem holdoverExpiry_due (hstarving : (s.gen n).starving = true) (hcoast : (s.gen n).drift = .coast)
    (hleft : (s.gen n).coastLeft = 0) (hseg : (s.gen n).segFrom = none) :
    holdoverExpiry n s = s.setGen n { s.gen n with drift := .starveStop, plan := [], fin := none } :=
  if_pos ⟨hstarving, hcoast, hleft, hseg⟩

/-! ### The gear (R57, R58) -/

theorem gearLoad_staged (hown : s.owns w n = true) (hden : s.rd (AX_GEAR_DEN n) ≠ 0#32) :
    gearLoad w n s = s.modGen n (fun g => { g with gearLoad := true }) := by
  unfold gearLoad
  rw [hown, if_neg (by simp)]
  exact if_neg hden
theorem gearLoad_refused (hown : s.owns w n = true) (hden : s.rd (AX_GEAR_DEN n) = 0#32) :
    gearLoad w n s = s.put (AX_GEAR_CTRL_REFUSED n) 1 := by
  unfold gearLoad
  rw [hown, if_neg (by simp)]
  exact if_pos hden

/-- The generator with the ratio `num`/`den`, its position fraction taking up `add` of the remainder. -/
def Gen.withRatio (g : Gen) (num : Int) (den : Nat) (add : Int) : Gen :=
  { g with gearLoad := false, gearNum := num, gearDen := den, nxt := { g.nxt with p := g.nxt.p + add } }
/-- The gear's counters of slot `n` restart. -/
def State.restartGear (s : State) (n : Nat) : State := ((s.wr (AX_GEAR_REM n) 0).wr64 (AX_GEAR_ACC n) 0).wr64 (AX_GEAR_APPL n) 0

theorem gearLoadApply_applied (hload : (s.gen n).gearLoad = true) (hleft : s.tickLeft = true) (hnow : s.now = s.tickAt)
    (hden : s.rd (AX_GEAR_DEN n) ≠ 0#32) :
    gearLoadApply n s = (s.setGen n ((s.gen n).withRatio (s.rd (AX_GEAR_NUM n)).toInt (s.rd (AX_GEAR_DEN n)).toNat
      ((s.get (AX_GEAR_REM_V n) : Int) * 2 ^ 32 / ((s.gen n).gearDen : Int)))).restartGear n := by
  unfold gearLoadApply
  rw [if_pos ⟨hload, hleft, hnow⟩]
  exact if_neg hden
theorem State.restartGear_gen (m : Nat) : (s.restartGear n).gen m = s.gen m := by
  unfold State.restartGear; rw [State.wr64_gen, State.wr64_gen, State.wr_gen]
theorem State.restartGear_counters :
    (s.restartGear n).get (AX_GEAR_REM_V n) = 0 ∧ (s.restartGear n).get (AX_GEAR_ACC_V n) = 0 ∧
      (s.restartGear n).get (AX_GEAR_APPL_V n) = 0 := by
  have hzero (t : State) (a : Nat) : (t.wr64 a 0).get ⟨a, 63, 0⟩ = 0 :=
    (t.get_wr64_eq 0 rfl (show 32 ≤ 63 by decide)).trans (show bitsOf 0 63 0 = 0 by decide)
  have hkeep (t : State) {off : Nat} (h : 0x15C ≠ off) (h4 : 0x15C ≠ off + 4) :
      (t.wr64 (0x080000 + 0x1000 * n + off) 0).rd (AX_GEAR_REM n) = t.rd (AX_GEAR_REM n) :=
    t.rd_wr64_ne 0 (slotWord_ne h) (slotWord_ne h4)
  have hrem : (s.restartGear n).rd (AX_GEAR_REM n) = 0#32 :=
    (hkeep _ (by decide) (by decide)).trans ((hkeep _ (by decide) (by decide)).trans (State.rd_wr_same ..))
  have happl (t : State) : (t.wr64 (AX_GEAR_APPL n) 0).get (AX_GEAR_ACC_V n) = t.get (AX_GEAR_ACC_V n) :=
    t.get_wr64_other 0 (slotWord_ne (by decide)) (slotWord_ne (j := 0x16C) (by decide))
      (Or.inr (slotWord_ne (i := 0x164) (by decide)))
  exact ⟨State.get_of_rd_zero (by decide) hrem, (happl _).trans (hzero _ _), hzero _ _⟩
end

/-- Settles O14: an offer by how it is judged, the end of a coast, and the gear's ratio by how it is staged and applied. -/
theorem setpointAndGearRows : Obligations.SetpointAndGearRows := by
  unfold Obligations.SetpointAndGearRows
  intro s w n hup
  have hoffer (v : Word) : exec (.setpointOffer w n v) s = .next (s.effect (setpointOffer w n v)) := live_next hup _
  have hexpiry : exec (.setpointHoldoverExpiry n) s = .next (s.effect (holdoverExpiry n)) := live_next hup _
  have hload : exec (.load w n) s = .next (s.effect (gearLoad w n)) := live_next hup _
  have happly : exec (.gearLoadApply n) s = .next (s.effect (gearLoadApply n)) := live_next hup _
  refine ⟨fun v hown hsrc hbound hroom hfree hafter => ⟨_, hoffer v, ?_⟩, fun v hown hsrc hbound hfull => ⟨_, hoffer v, ?_⟩,
    fun v hown hsrc => ⟨_, hoffer v, ?_⟩, fun hstarving hcoast hleft hseg => ⟨_, hexpiry, ?_⟩,
    fun hown hden => ⟨_, hload, ?_⟩, fun hown hden => ⟨_, hload, ?_⟩, fun hstaged hleft hnow hden => ⟨_, happly, ?_⟩⟩
  · rw [State.effect_gen, State.effect_get, State.effect_get, State.effect_get]
    exact setpointOffer_taken_spec hown hsrc hbound hroom hfree hafter
  · rw [State.effect_gens, State.effect_get, setpointOffer_full hown hsrc hbound hfull, State.put_gens]
    exact ⟨rfl, State.get_put_word _ 1 (by decide) (by decide)⟩
  · rw [State.effect_gens, State.effect_get, setpointOffer_otherSource hown hsrc, State.err_gens]
    exact ⟨rfl, State.get_err _ n 5⟩
  · rw [State.effect_gen, State.effect_regs, holdoverExpiry_due hstarving hcoast hleft hseg, State.gen_setGen_same]
    refine ⟨rfl, rfl, fun m hm => ?_⟩
    rw [State.effect_gen, holdoverExpiry_due hstarving hcoast hleft hseg, State.gen_setGen_ne _ _ hm]
  · rw [State.effect_gen, State.effect_regs, gearLoad_staged hown hden, State.gen_modGen_same]
    exact ⟨rfl, rfl⟩
  · rw [State.effect_gens, State.effect_get, gearLoad_refused hown hden, State.put_gens]
    exact ⟨State.get_put_word _ 1 (by decide) (by decide), rfl⟩
  · rw [State.effect_gen, State.effect_get, State.effect_get, State.effect_get, gearLoadApply_applied hstaged hleft hnow hden,
      State.restartGear_gen, State.gen_setGen_same]
    exact ⟨rfl, rfl, rfl, State.restartGear_counters⟩

end Sys2Proof.Machine
end

section
/-! PROOFS. The statement O15: the configuration of a slot's motion, the start of a pitch and step pulses (R34, R40, R59). -/
namespace Sys2Proof.Machine

section
variable {s : State} {n : Nat} {w : Writer} {v : Word}

/-! ### The configuration (R34) -/

theorem mcfgWrite_taken (hown : s.owns w n = true) (hsrc : fieldOf v (AX_MCFG_SRC n) ≤ 2) (hcap : fieldOf v (AX_MCFG_CAPSRC n) = 0)
    (hst : s.slotState n = stIdle) : mcfgWrite w n v s = s.wr (AX_MCFG n) (BitVec.ofNat 32 (v.toNat % 64)) := by
  unfold mcfgWrite
  rw [hown, if_neg (by simp)]
  exact if_pos ⟨⟨hsrc, Or.inl hcap⟩, Or.inr (Or.inl hst.le)⟩
theorem mcfgWrite_badSource (hown : s.owns w n = true) (hsrc : 2 < fieldOf v (AX_MCFG_SRC n)) : mcfgWrite w n v s = s.err n 5 := by
  unfold mcfgWrite
  rw [hown, if_neg (by simp)]
  exact if_neg fun h => Nat.not_le.mpr hsrc h.1.1

/-! ### The start of a pitch (R40)

What a pitch does once it has left the queue, planning, being refused or ending at once, changes neither the queue, nor that the
tick has taken its pitch, nor AXn_PITSTART. -/

/-- The queue, whether the tick has taken its pitch, and AXn_PITSTART. -/
def State.taken (s : State) (n : Nat) : List (List Word) × Bool × Word :=
  ((s.gen n).queue, (s.gen n).joined, s.rd (AX_PITSTART n))

theorem State.taken_congr {t : State} (hqueue : (t.gen n).queue = (s.gen n).queue) (hjoined : (t.gen n).joined = (s.gen n).joined)
    (hcount : t.rd (AX_PITSTART n) = s.rd (AX_PITSTART n)) : t.taken n = s.taken n := by
  unfold State.taken; rw [hqueue, hjoined, hcount]
theorem State.put_taken {a hi lo : Nat} (x : Nat) (hw : hi < 32) (ha : AX_PITSTART n ≠ a) :
    (s.put ⟨a, hi, lo⟩ x).taken n = s.taken n :=
  State.taken_congr (by rw [State.put_gen]) (by rw [State.put_gen]) (State.rd_put_word _ hw ha)
theorem State.modGen_taken {f : Gen → Gen} (hqueue : (f (s.gen n)).queue = (s.gen n).queue)
    (hjoined : (f (s.gen n)).joined = (s.gen n).joined) : (s.modGen n f).taken n = s.taken n :=
  State.taken_congr (by rw [State.gen_modGen_same, hqueue]) (by rw [State.gen_modGen_same, hjoined]) (s.modGen_rd ..)
theorem State.toRun_taken : (s.toRun n).taken n = s.taken n :=
  State.taken_congr (by rw [State.toRun_gen]) (by rw [State.toRun_gen])
    (State.toRun_rd (slotWord_ne (by decide)) (slotWord_ne (by decide)))
theorem State.clearPitst_taken : (s.clearPitst n).taken n = s.taken n :=
  State.taken_congr (by rw [State.clearPitst_gen]) (by rw [State.clearPitst_gen])
    (State.clearPitst_rd_ne (slotWord_ne (by decide)))
theorem State.syncWait_taken : (s.syncWait n).taken n = s.taken n :=
  State.put_taken _ (by decide) (slotWord_ne (by decide))
theorem State.pitchNotRun_taken (i : Nat) : (s.pitchNotRun n i).taken n = s.taken n := by
  have hctrl {hi lo : Nat} (t : State) (x : Nat) (hw : hi < 32) : (t.put ⟨AX_PITQ_CTRL n, hi, lo⟩ x).taken n = t.taken n :=
    State.put_taken x hw (slotWord_ne (by decide))
  have hput : (s.pitchNotRun n i).taken n = ((s.put (AX_PITQ_CTRL_QHELD n) 1).put (AX_PITQ_CTRL_BADPITCH n) 1).taken n :=
    State.taken_congr (by rw [State.pitchNotRun, State.interruptPitch_gen]) (by rw [State.pitchNotRun, State.interruptPitch_gen])
      (State.interruptPitch_rd ..)
  exact hput.trans ((hctrl _ 1 (by decide)).trans (hctrl s 1 (by decide)))

/-- A pitch that ends at rest, or with a successor queued, raises no underrun (R49). -/
theorem State.endPitch_taken (q : Pitch) (h : (s.gen n).m.v = 0 ∨ (s.gen n).queue ≠ []) :
    (s.endPitch n q).taken n = s.taken n := by
  unfold State.endPitch
  extract_lets s1 s2 g
  have hover : s1.taken n = s.taken n := by
    unfold s1
    split
    · exact State.put_taken 1 (by decide) (slotWord_ne (by decide))
    · rfl
  have hgen : s1.gen n = s.gen n := by
    unfold s1
    split
    · exact s.put_gen ..
    · rfl
  have hg : g = { s.gen n with pitch := none, plan := [], fin := none } := by
    unfold g s2
    rw [State.clearPitst_gen, State.gen_modGen_same, hgen]
  have hno : ¬ (g.m.v ≠ 0 ∧ g.queue = [] ∧ s2.bit (AX_PITQ_CTRL_QHELD n) = false) := by
    rw [hg]
    rintro ⟨hv, hqueue, -⟩
    exact h.elim hv (absurd hqueue)
  rw [if_neg hno]
  exact State.clearPitst_taken.trans ((State.modGen_taken rfl rfl).trans hover)
theorem State.beginPlan_taken (q : Pitch) (plan : List Phase) (fin : Finish) :
    (s.beginPlan n q plan fin).taken n = s.taken n := by
  have hpitst {hi lo : Nat} (t : State) (x : Nat) (hw : hi < 32) : (t.put ⟨AX_PITST n, hi, lo⟩ x).taken n = t.taken n :=
    State.put_taken x hw (slotWord_ne (by decide))
  unfold State.beginPlan
  refine State.toRun_taken.trans ((hpitst _ _ (by decide)).trans ((hpitst _ _ (by decide)).trans ((hpitst _ _ (by decide)).trans
    ((hpitst _ _ (by decide)).trans (State.modGen_taken ?_ ?_)))))
  all_goals dsimp only; split <;> rfl
/-- A velocity pitch at its target ends at once only at rest or with a successor queued (R46). -/
theorem State.holdSpeed_taken {q : Pitch} (h : q.v1 = 0 → (s.gen n).m.v = 0) : (s.holdSpeed n q).taken n = s.taken n := by
  unfold State.holdSpeed
  split
  · exact State.beginPlan_taken ..
  · split
    · rename_i hend
      refine (State.endPitch_taken q ?_).trans State.toRun_taken
      rw [State.toRun_gen]
      exact hend.imp_left h
    · exact State.beginPlan_taken ..
theorem fixToRat_eq_zero {x : Int} (h : fixToRat x = 0) : x = 0 := by
  unfold fixToRat at h
  exact_mod_cast (div_eq_zero_iff.mp h).resolve_right (by norm_num)
theorem State.ite_taken {c : Prop} [Decidable c] {t u : State} (ht : c → t.taken n = s.taken n)
    (hu : ¬ c → u.taken n = s.taken n) : (if c then t else u).taken n = s.taken n := by
  split
  · exact ht ‹_›
  · exact hu ‹_›
theorem State.startPitch_taken (e : List Word) (i : Nat) : (s.startPitch n e i).taken n = s.taken n := by
  unfold State.startPitch
  extract_lets g m V A J q sc target dir v1 h c limited jerk dv _ _ drawn
  split
  case h_1 | h_2 =>   -- trapezoid, S-curve: at rest at its target it ends
    refine State.ite_taken (fun _ => State.pitchNotRun_taken i) fun _ => State.ite_taken (fun hrest => ?_) fun _ => ?_
    · exact (State.endPitch_taken q (Or.inl (by rw [State.toRun_gen]; exact hrest.2))).trans State.toRun_taken
    · split <;> exact State.beginPlan_taken ..
  case h_3 =>   -- cubic
    refine (State.beginPlan_taken ..).trans (State.ite_taken (fun _ => ?_) fun _ => rfl)
    exact State.put_taken 1 (by decide) (slotWord_ne (by decide))
  case h_4 =>   -- velocity: with no change to make it goes on at its speed
    refine State.ite_taken (fun _ => State.pitchNotRun_taken i) fun _ => State.ite_taken (fun hdv => ?_)
      fun _ => State.beginPlan_taken ..
    refine State.holdSpeed_taken fun hstill => ?_
    have hsame : entryP1 e - m.v = 0 := fixToRat_eq_zero hdv
    have htarget : entryP1 e = 0 := hstill
    show m.v = 0
    omega
  case h_5 =>   -- homing
    refine State.ite_taken (fun _ => State.pitchNotRun_taken i) fun _ => State.ite_taken (fun _ => ?_) fun _ => ?_
    all_goals exact State.beginPlan_taken (s := drawn) ..
  case h_6 =>   -- stop
    exact State.ite_taken (fun _ => State.beginPlan_taken ..) fun _ => State.beginPlan_taken ..

/-- A start time that had passed when the entry `e` reached the head counts as late. -/
def State.lateCounted (s : State) (n : Nat) (e : List Word) : State :=
  if entryTstart e ∧ startTime s.now e < (s.gen n).headAt then s.inc (AX_LATE_V n) else s
/-- The head entry `e` off the queue, which is now `rest`, and counted in AXn_PITSTART. -/
def State.headTaken (s : State) (n : Nat) (e : List Word) (rest : List (List Word)) : State :=
  (((s.lateCounted n e).setGen n { s.gen n with queue := rest, joined := true, headAt := (s.lateCounted n e).now }).inc
    (AX_PITSTART_V n)).syncQueue n

theorem State.headTaken_gen (e : List Word) (rest : List (List Word)) :
    ((s.headTaken n e rest).gen n).queue = rest ∧ ((s.headTaken n e rest).gen n).joined = true := by
  unfold State.headTaken
  rw [State.syncQueue_gen, State.inc_gen, State.gen_setGen_same]
  exact ⟨rfl, rfl⟩
theorem State.get_headTaken_PITSTART (e : List Word) (rest : List (List Word)) :
    (s.headTaken n e rest).get (AX_PITSTART_V n) = (s.get (AX_PITSTART_V n) + 1) % 2 ^ 32 := by
  have hlate : (s.lateCounted n e).get (AX_PITSTART_V n) = s.get (AX_PITSTART_V n) := by
    refine State.get_of_same_word rfl ?_
    unfold State.lateCounted
    split
    · exact State.rd_put_word _ (by decide) (slotWord_ne (by decide))
    · rfl
  have hsync (t : State) : (t.syncQueue n).get (AX_PITSTART_V n) = t.get (AX_PITSTART_V n) :=
    State.get_of_same_word rfl (State.syncQueue_rd (slotWord_ne (by decide)))
  have hcount (t : State) : (t.inc (AX_PITSTART_V n)).get (AX_PITSTART_V n) = (t.get (AX_PITSTART_V n) + 1) % 2 ^ 32 :=
    t.get_inc_word 1
  unfold State.headTaken
  rw [hsync, hcount, State.setGen_get, hlate]

theorem State.pitchStart_due {e : List Word} {rest : List (List Word)} (hqueue : (s.gen n).queue = e :: rest)
    (hcan : s.canStart n = true) (htime : entryTstart e = false ∨ startTime s.now e ≤ s.now) :
    ∃ i, s.pitchStart n = ((s.headTaken n e rest).startPitch n e i).syncWait n := by
  have hstarts : s.headStarts n = true := by
    unfold State.headStarts
    rw [hcan, hqueue]
    simpa using htime
  unfold State.pitchStart
  simp only [hqueue, hstarts, if_true]
  exact ⟨_, rfl⟩
/-- The head entry leaves the queue and is counted, whatever it then does. -/
theorem State.pitchStart_spec {e : List Word} {rest : List (List Word)} (hqueue : (s.gen n).queue = e :: rest)
    (hcan : s.canStart n = true) (htime : entryTstart e = false ∨ startTime s.now e ≤ s.now) :
    ((s.pitchStart n).gen n).queue = rest ∧ ((s.pitchStart n).gen n).joined = true ∧
      (s.pitchStart n).get (AX_PITSTART_V n) = (s.get (AX_PITSTART_V n) + 1) % 2 ^ 32 := by
  obtain ⟨i, hstart⟩ := State.pitchStart_due hqueue hcan htime
  have htaken : (s.pitchStart n).taken n = (s.headTaken n e rest).taken n := by
    rw [hstart, State.syncWait_taken, State.startPitch_taken]
  simp only [State.taken, Prod.mk.injEq] at htaken
  obtain ⟨hrest, hjoined, hcount⟩ := htaken
  obtain ⟨hrest', hjoined'⟩ := State.headTaken_gen (s := s) (n := n) e rest
  exact ⟨hrest.trans hrest', hjoined.trans hjoined',
    (State.get_of_same_word rfl hcount).trans (State.get_headTaken_PITSTART e rest)⟩

/-! ### Step pulses (R59, R199) -/

theorem stepPulse_due (hremote : s.isRemote n = true) (hleft : (s.gen n).sent < (s.gen n).sched)
    (hheld : s.bit (SOG_STAT_HELD (s.get (AX_BIND_SOUT n))) = false) :
    stepPulse n s = ({ s with now := max s.now (s.stepTime (s.gen n) (s.gen n).sent) } : State).emitSteps n 1 :=
  if_pos (by rw [hremote, hheld, decide_eq_true hleft]; rfl)
theorem State.emitSteps_sent (k : Nat) : ((s.emitSteps n k).gen n).sent = (s.gen n).sent + k := by
  unfold State.emitSteps
  rw [State.puti_gen, State.gen_modGen_same]
theorem State.geti_emitSteps (k : Nat) : (s.emitSteps n k).geti (SOG_CNT_V (s.get (AX_BIND_SOUT n))) =
    signedOf 32 (unsignedOf 32 (s.geti (SOG_CNT_V (s.get (AX_BIND_SOUT n))) +
      (if (s.gen n).stepDir then (k : Int) else -(k : Int)))) :=
  State.geti_puti_word _ _
theorem State.emitSteps_now (k : Nat) : (s.emitSteps n k).now = s.now := State.puti_now ..
end

/-- Settles O15: a configuration by its source, the start of a pitch by what it leaves of the queue, a step by its count. -/
theorem pitchStartAndStepRows : Obligations.PitchStartAndStepRows := by
  unfold Obligations.PitchStartAndStepRows
  intro s w n hup
  have hcfg (v : Word) : exec (.mcfgWrite w n v) s = .next (s.effect (mcfgWrite w n v)) := live_next hup _
  have hstart : exec (.pitchStart n) s = .next (s.effect (·.pitchStart n)) := live_next hup _
  have hpulse : exec (.stepPulse n) s = .next (s.effect (stepPulse n)) := live_next hup _
  refine ⟨fun v hown hsrc hcap hst => ⟨_, hcfg v, ?_⟩, fun v hown hsrc => ⟨_, hcfg v, ?_⟩,
    fun e rest hqueue hcan htime => ⟨_, hstart, ?_⟩, fun hremote hleft hheld => ⟨_, hpulse, ?_⟩⟩
  · have heq := mcfgWrite_taken hown hsrc hcap hst
    refine ⟨?_, fun a ha => ?_⟩
    · rw [State.effect_rd, heq]; exact s.rd_wr_same ..
    · rw [State.effect_rd, heq]; exact s.rd_wr_ne _ ha
  · rw [State.effect_rd, State.effect_get, mcfgWrite_badSource hown (by omega)]
    exact ⟨s.rd_err 5 (slotWord_ne (by decide)), s.get_err n 5⟩
  · rw [State.effect_gen, State.effect_get]
    exact State.pitchStart_spec hqueue hcan htime
  · rw [State.effect_gen, State.effect_geti, State.effect_now, stepPulse_due hremote hleft hheld]
    refine ⟨State.emitSteps_sent 1, State.geti_emitSteps 1, ?_⟩
    rw [State.emitSteps_now]
    exact le_max_left ..

end Sys2Proof.Machine
end

section
/-! PROOFS. The fields of one register word: the layer under the statements O22, O23 and O46. -/
namespace Sys2Proof.Machine

section
variable {s : State}

theorem State.bit_of_get_eq_one {f : Fld} (h : s.get f = 1) : s.bit f = true := by unfold State.bit; rw [h]; rfl
theorem State.bit_of_get_eq_zero {f : Fld} (h : s.get f = 0) : s.bit f = false := by unfold State.bit; rw [h]; rfl

/-- The fields at bits `hi` to `lo` and `hi'` to `lo'` of one word do not overlap. -/
def fieldsApart (hi lo hi' lo' : Nat) : Bool := decide (hi < 32 ∧ hi' < 32 ∧ lo ≤ hi ∧ (hi' < lo ∨ hi < lo'))

/-- A field leaves the other fields of its word alone. -/
theorem State.get_put_field {a hi lo hi' lo' : Nat} (t : State) (x : Nat) (h : fieldsApart hi lo hi' lo' = true) :
    (t.put ⟨a, hi, lo⟩ x).get ⟨a, hi', lo'⟩ = t.get ⟨a, hi', lo'⟩ := by
  obtain ⟨hhi, hhi', hlo, hapart⟩ := of_decide_eq_true h
  exact t.get_put_disjoint (f := ⟨a, hi, lo⟩) (g := ⟨a, hi', lo'⟩) x hhi hhi' rfl hlo hapart
theorem State.get_flag_field {a i hi' lo' : Nat} (t : State) (b : Bool) (h : fieldsApart i i hi' lo' = true) :
    (t.flag ⟨a, i, i⟩ b).get ⟨a, hi', lo'⟩ = t.get ⟨a, hi', lo'⟩ := t.get_put_field _ h
/-- A flag reads as it was set. -/
theorem State.get_flag_word {a i : Nat} (t : State) (b : Bool) (hw : i < 32) :
    (t.flag ⟨a, i, i⟩ b).get ⟨a, i, i⟩ = if b then 1 else 0 := by
  have hput : (t.flag ⟨a, i, i⟩ b).get ⟨a, i, i⟩ = (if b then 1 else 0) % 2 ^ (i + 1 - i) := t.get_put_word _ hw le_rfl
  rw [hput, Nat.add_sub_cancel_left]
  cases b <;> rfl
end

end Sys2Proof.Machine
end

section
/-! PROOFS. The statement O23: the hold ramp and the brake sequencer (R82, R86). -/
namespace Sys2Proof.Machine

section
variable {s : State} {n : Nat}

/-! ### The hold ramp (R82, R98) -/

theorem holdDlyExpiry_due {k : Nat} (hramp : (s.cc n).ramp = .delay k) (hst : s.slotState n = stHold)
    (hdue : s.get (AX_CC_HOLD_HOLDDLY n) ≤ k) : holdDlyExpiry n s = s.modCc n (fun c => { c with ramp := .fall 0 }) := by
  unfold holdDlyExpiry
  rw [hramp]
  exact if_pos ⟨hst, hdue⟩

/-- Whether Prusik serves a slot is read from its binding, its engines and their routes. -/
theorem State.usesPrusik_congr {t : State} (hbind : t.rd (AX_BIND n) = s.rd (AX_BIND n))
    (hsel : t.rd (AX_ENGSEL n) = s.rd (AX_ENGSEL n)) (hke : ∀ e, t.rd (KE_STATUS e) = s.rd (KE_STATUS e))
    (hengine : ∀ e, t.engine e = s.engine e) (hswap : ∀ k, t.swap k = s.swap k) : t.usesPrusik n = s.usesPrusik n := by
  have hlocal : t.isLocal n = s.isLocal n := by
    have hkind : t.kind n = s.kind n := State.get_of_rd (by decide) hbind
    unfold State.isLocal; rw [hkind]
  have hholds (e : Nat) : t.holdsRole e n 2 = s.holdsRole e n 2 := by
    have hpool : t.pool e = s.pool e := State.get_of_rd (by decide) (hke e)
    have hrole : t.get (KE_STATUS_ROLE e) = s.get (KE_STATUS_ROLE e) := State.get_of_rd (by decide) (hke e)
    have hslot : t.get (KE_STATUS_SLOT e) = s.get (KE_STATUS_SLOT e) := State.get_of_rd (by decide) (hke e)
    unfold State.holdsRole; rw [hpool, hrole, hslot]
  have hest : t.estEngine n = s.estEngine n := by
    have heng : t.get (AX_ENGSEL_ESTENG n) = s.get (AX_ENGSEL_ESTENG n) := State.get_of_rd (by decide) hsel
    have hen : t.bit (AX_ENGSEL_ESTEN n) = s.bit (AX_ENGSEL_ESTEN n) := State.bit_of_rd (by decide) hsel
    unfold State.estEngine; simp only [heng, hen, hholds]
  have hroute : t.roleRoute n 1 = s.roleRoute n 1 := by
    unfold State.roleRoute; simp only [if_neg Nat.one_ne_zero, hest, hengine, hswap]
  unfold State.usesPrusik; rw [hlocal, hroute]

/-- The slot at IHOLD. -/
def State.atHold (s : State) (n : Nat) : State := (s.modCc n (fun c => { c with ramp := .held })).put (AX_CC_ST_HOLDING n) 1

theorem State.injecting_atHold : (s.atHold n).injecting n = s.injecting n := by
  have hrd {b : Nat} (h : b ≠ AX_CC_ST n) : (s.atHold n).rd b = s.rd b := State.rd_put_word 1 (by decide) h
  have hprusik : (s.atHold n).usesPrusik n = s.usesPrusik n := State.usesPrusik_congr (hrd (slotWord_ne (by decide)))
    (hrd (slotWord_ne (by decide))) (fun e => hrd (by unfold KE_STATUS AX_CC_ST; omega)) (fun e => State.put_engine ..)
    (fun k => State.put_swap ..)
  have hpr : (s.atHold n).pr n = s.pr n := State.put_pr ..
  unfold State.injecting
  rw [hprusik, hpr]
theorem holding_reached {k : Nat} (hramp : (s.cc n).ramp = .fall k) (hst : s.slotState n = stHold)
    (hdone : 1 ≤ s.rampDone n (s.now - s.tickAt)) :
    holding n s = if s.injecting n then (s.atHold n).prHeld n else (s.atHold n).put (AX_CC_ST_LOWRATE n) 1 := by
  rw [← State.injecting_atHold]
  unfold holding
  rw [hramp]
  exact if_pos ⟨hst, decide_eq_true hdone⟩

theorem State.get_put_LOWRATE_HOLDING (v : Nat) :
    (s.put (AX_CC_ST_LOWRATE n) v).get (AX_CC_ST_HOLDING n) = s.get (AX_CC_ST_HOLDING n) :=
  s.get_put_field v rfl
theorem State.get_prHeld_HOLDING : (s.prHeld n).get (AX_CC_ST_HOLDING n) = s.get (AX_CC_ST_HOLDING n) := by
  unfold State.prHeld
  split
  · rw [State.get_put_LOWRATE_HOLDING]
    exact State.get_of_same_word rfl (State.rd_put_word 6 (by decide) (slotWord_ne (by decide)))
  · rfl
theorem State.prHeld_cc (m : Nat) : (s.prHeld n).cc m = s.cc m := by
  unfold State.prHeld
  split
  · rw [State.put_cc, State.put_cc, State.modPr_cc]
  · rfl

/-- At IHOLD the slot is HOLDING, and at the hold rate unless injection goes on. -/
theorem holding_spec {k : Nat} (hramp : (s.cc n).ramp = .fall k) (hst : s.slotState n = stHold)
    (hdone : 1 ≤ s.rampDone n (s.now - s.tickAt)) :
    ((holding n s).cc n).ramp = .held ∧ (holding n s).get (AX_CC_ST_HOLDING n) = 1 ∧
      (s.injecting n = false → (holding n s).get (AX_CC_ST_LOWRATE n) = 1) := by
  have hheld : ((s.atHold n).cc n).ramp = .held := by
    unfold State.atHold; rw [State.put_cc, State.cc_modCc_same]
  have hholding : (s.atHold n).get (AX_CC_ST_HOLDING n) = 1 := State.get_put_word _ 1 (by decide) (by decide)
  rw [holding_reached hramp hst hdone]
  split
  next hinj =>
    rw [State.prHeld_cc, State.get_prHeld_HOLDING]
    exact ⟨hheld, hholding, fun h => absurd (h.symm.trans hinj) Bool.false_ne_true⟩
  next =>
    rw [State.put_cc, State.get_put_LOWRATE_HOLDING]
    exact ⟨hheld, hholding, fun _ => State.get_put_word _ 1 (by decide) (by decide)⟩

/-! ### The brake sequencer (R86) -/

theorem State.get_put_BSTATE (t : State) (x : Nat) : (t.put (AX_BRK_ST_BSTATE n) x).get (AX_BRK_ST_BSTATE n) = x % 8 :=
  t.get_put_word x (by decide) (by decide)
theorem State.get_put_BSTATE_BRKWAIT (t : State) (x : Nat) :
    (t.put (AX_BRK_ST_BSTATE n) x).get (AX_BRK_ST_BRKWAIT n) = t.get (AX_BRK_ST_BRKWAIT n) := t.get_put_field x rfl
theorem State.get_put_BRKWAIT_BSTATE (t : State) (x : Nat) :
    (t.put (AX_BRK_ST_BRKWAIT n) x).get (AX_BRK_ST_BSTATE n) = t.get (AX_BRK_ST_BSTATE n) := t.get_put_field x rfl

/-- The present instant once at least `ms` milliseconds have passed since the brake's phase began. -/
def State.brakeWaited (s : State) (n ms : Nat) : State := { s with now := max s.now ((s.cc n).brkAt + ms * 1000000) }

theorem brakeReleaseStart_due (hwait : s.get (AX_BRK_ST_BRKWAIT n) = 1) (hengaged : s.get (AX_BRK_ST_BSTATE n) = 0)
    (hst : s.slotState n = stHold) (hfactory : s.ctlFactory n = true)
    (hcurrent : s.isRemote n = true ∨ s.get (AX_CC_ST_HOLDING n) = 1) (hsearch : s.searchHolds n = false)
    (hblocked : (s.pr n).blocked = false) :
    brakeReleaseStart n s = (s.put (AX_BRK_ST_BSTATE n) 1).modCc n (fun c => { c with brkAt := s.now }) := by
  exact if_pos ⟨State.bit_of_get_eq_one hwait, hengaged, hst, hfactory, hcurrent.imp_right State.bit_of_get_eq_one,
    by rw [hsearch]; rfl, by rw [hblocked]; rfl⟩
theorem brakePullEnd_pulling (hpull : s.get (AX_BRK_ST_BSTATE n) = 1) :
    brakePullEnd n s =
      (((s.brakeWaited n (s.get (AX_BRK_T_TPULL n))).put (AX_BRK_ST_BSTATE n) 2).put (AX_BRK_ST_BRKWAIT n) 0).modPr n (fun p =>
        { p with forced := if p.forced.isSome then some (s.brakeWaited n (s.get (AX_BRK_T_TPULL n))).now else none }) :=
  if_pos hpull
theorem brakeEngageEnd_engaging (hengage : s.get (AX_BRK_ST_BSTATE n) = 3) :
    brakeEngageEnd n s =
      ((s.brakeWaited n (s.get (AX_BRK_T_TENG n))).put (AX_BRK_ST_BSTATE n) 0).modCc n (fun c => { c with ramp := .down 0 }) :=
  if_pos hengage
end

/-- Settles O23: each command by what it finds, its effect read off the slot's current record and the words AXn_CC_ST and
AXn_BRK_ST. -/
theorem holdAndBrakeRows : Obligations.HoldAndBrakeRows := by
  unfold Obligations.HoldAndBrakeRows
  intro s n hup
  have hexpiry : exec (.holdDlyExpiry n) s = .next (s.effect (holdDlyExpiry n)) := live_next hup _
  have hholding : exec (.holding n) s = .next (s.effect (holding n)) := live_next hup _
  have hrelease : exec (.brakeReleaseStart n) s = .next (s.effect (brakeReleaseStart n)) := live_next hup _
  have hpulled : exec (.brakePullEnd n) s = .next (s.effect (brakePullEnd n)) := live_next hup _
  have hengaged : exec (.brakeEngageEnd n) s = .next (s.effect (brakeEngageEnd n)) := live_next hup _
  have hbstate (t : State) (x : Nat) {a : Nat} (ha : a ≠ AX_BRK_ST n) : (t.put (AX_BRK_ST_BSTATE n) x).rd a = t.rd a :=
    State.rd_put_word x (by decide) ha
  have hbrkwait (t : State) (x : Nat) {a : Nat} (ha : a ≠ AX_BRK_ST n) : (t.put (AX_BRK_ST_BRKWAIT n) x).rd a = t.rd a :=
    State.rd_put_word x (by decide) ha
  refine ⟨fun k hramp hst hdue => ⟨_, hexpiry, ?_⟩, fun k hramp hst hdone => ⟨_, hholding, ?_⟩,
    fun hwait hbst hst hfactory hcurrent hsearch hblocked => ⟨_, hrelease, ?_⟩, fun hpull => ⟨_, hpulled, ?_⟩,
    fun hengage => ⟨_, hengaged, ?_⟩⟩
  · rw [State.effect_cc, State.effect_regs, holdDlyExpiry_due hramp hst hdue, State.cc_modCc_same]
    exact ⟨rfl, rfl⟩
  · rw [State.effect_cc, State.effect_get, State.effect_get]
    exact holding_spec hramp hst hdone
  · rw [State.effect_get, State.effect_get, State.effect_cc,
      brakeReleaseStart_due hwait hbst hst hfactory hcurrent hsearch hblocked, State.modCc_get, State.modCc_get,
      State.get_put_BSTATE, State.get_put_BSTATE_BRKWAIT, State.cc_modCc_same]
    refine ⟨rfl, hwait, rfl, fun a ha => ?_⟩
    rw [State.effect_rd, brakeReleaseStart_due hwait hbst hst hfactory hcurrent hsearch hblocked, State.modCc_rd, hbstate _ _ ha]
  · rw [State.effect_get, State.effect_get, State.effect_now, brakePullEnd_pulling hpull, State.modPr_get,
      State.modPr_get, State.modPr_now, State.get_put_BRKWAIT_BSTATE, State.get_put_BSTATE, State.put_now, State.put_now]
    refine ⟨rfl, State.get_put_word _ 0 (by decide) (by decide), rfl, fun a ha => ?_⟩
    rw [State.effect_rd, brakePullEnd_pulling hpull, State.modPr_rd, hbrkwait _ _ ha, hbstate _ _ ha]
    rfl
  · rw [State.effect_get, State.effect_cc, State.effect_now, brakeEngageEnd_engaging hengage, State.modCc_get,
      State.get_put_BSTATE, State.cc_modCc_same, State.modCc_now, State.put_now]
    refine ⟨rfl, rfl, rfl, fun a ha => ?_⟩
    rw [State.effect_rd, brakeEngageEnd_engaging hengage, State.modCc_rd, hbstate _ _ ha]
    rfl

end Sys2Proof.Machine
end

section
/-! PROOFS. The statement O22: the configuration, the calibrations and the staged parameters of current control (R69 to R74,
R79). -/
namespace Sys2Proof.Machine

section
variable {s : State} {n : Nat} {w : Writer} {v : Word}

/-! ### AXn_CC_CFG (R74) -/

/-- The bits of AXn_CC_CFG that a write takes are all but bit 3 up to bit 23. -/
theorem bitsOf_ccCfg_mask {hi lo : Nat} (h : decide (hi ≤ 2 ∨ 4 ≤ lo ∧ hi ≤ 23) = true) :
    bitsOf (v &&& 0x00FFFFF7#32).toNat hi lo = bitsOf v.toNat hi lo := by
  have hmask : ∀ k < 24, k ≠ 3 → Nat.testBit 0x00FFFFF7 k = true := by decide
  have h := of_decide_eq_true h
  refine Nat.eq_of_testBit_eq fun i => ?_
  rw [testBit_bitsOf, testBit_bitsOf, BitVec.toNat_and, Nat.testBit_and]
  by_cases hi' : i < hi + 1 - lo
  · rw [show (0x00FFFFF7#32).toNat = 0x00FFFFF7 from rfl, hmask _ (by omega) (by omega), Bool.and_true]
  · simp [hi']
/-- MODE is the low part of the bits that MODE and ASRC fill. -/
theorem bitsOf_MODE (x : Nat) : bitsOf x 1 0 = bitsOf x 2 0 % 4 := by unfold bitsOf; omega

theorem ccCfgWrite_taken (hown : s.owns w n = true) (hnext : (s.cc n).cfgNext = none)
    (hlow : bitsOf v.toNat 2 0 = bitsOf (s.rd (AX_CC_CFG n)).toNat 2 0)
    (hupd : fieldOf v (AX_CC_CFG_UPD n) = s.get (AX_CC_CFG_UPD n)) (hdir : fieldOf v (AX_CC_CFG_DIR n) = s.get (AX_CC_CFG_DIR n)) :
    ccCfgWrite w n v s = s.wr (AX_CC_CFG n) (v &&& 0x00FFFFF7#32) := by
  have hlow' : bitsOf (v &&& 0x00FFFFF7#32).toNat 2 0 = bitsOf (s.rd (AX_CC_CFG n)).toNat 2 0 :=
    (bitsOf_ccCfg_mask rfl).trans hlow
  have hupd' : fieldOf (v &&& 0x00FFFFF7#32) (AX_CC_CFG_UPD n) = fieldOf (s.rd (AX_CC_CFG n)) (AX_CC_CFG_UPD n) :=
    (bitsOf_ccCfg_mask rfl).trans hupd
  have hdir' : fieldOf (v &&& 0x00FFFFF7#32) (AX_CC_CFG_DIR n) = fieldOf (s.rd (AX_CC_CFG n)) (AX_CC_CFG_DIR n) :=
    (bitsOf_ccCfg_mask rfl).trans hdir
  unfold ccCfgWrite
  simp only [hown, hnext, hlow', hupd', hdir', Option.getD_none, Bool.not_true, Bool.false_eq_true, if_false, if_true]

/-- A write that changes MODE is judged by the slot as it stands. -/
theorem ccCfgWrite_otherMode (hown : s.owns w n = true) (hnext : (s.cc n).cfgNext = none)
    (hmode : fieldOf v (AX_CC_CFG_MODE n) ≠ s.get (AX_CC_CFG_MODE n)) :
    ccCfgWrite w n v s =
      if (s.slotState n = stIdle ∨ s.slotState n = stHold) ∧ fieldOf v (AX_CC_CFG_MODE n) ≤ 1 ∧
          (fieldOf v (AX_CC_CFG_MODE n) = 1 →
            (if fieldOf v (AX_CC_CFG_ASRC n) = 0 then s.bit (AX_BIND_FBEN n) else s.bit (AX_ENGSEL_ESTEN n)) = true) then
        s.modCc n (fun c => { c with cfgNext := some (v &&& 0x00FFFFF7#32) })
      else s.err n 5 := by
  have hmode' : fieldOf (v &&& 0x00FFFFF7#32) (AX_CC_CFG_MODE n) = fieldOf v (AX_CC_CFG_MODE n) := bitsOf_ccCfg_mask rfl
  have hasrc : fieldOf (v &&& 0x00FFFFF7#32) (AX_CC_CFG_ASRC n) = fieldOf v (AX_CC_CFG_ASRC n) := bitsOf_ccCfg_mask rfl
  have hlow : bitsOf (v &&& 0x00FFFFF7#32).toNat 2 0 ≠ bitsOf (s.rd (AX_CC_CFG n)).toNat 2 0 := fun h => by
    refine hmode (hmode'.symm.trans ?_)
    exact (bitsOf_MODE _).trans ((congrArg (· % 4) h).trans (bitsOf_MODE _).symm)
  unfold ccCfgWrite
  simp only [hown, hnext, hmode', hasrc, Option.getD_none, Bool.not_true, Bool.false_eq_true, if_false, Prod.mk.injEq, hlow,
    false_and]
theorem ccCfgWrite_waits (hown : s.owns w n = true) (hnext : (s.cc n).cfgNext = none) (hzero : fieldOf v (AX_CC_CFG_MODE n) = 0)
    (hmode : s.get (AX_CC_CFG_MODE n) ≠ 0) (hst : s.slotState n = stIdle ∨ s.slotState n = stHold) :
    ccCfgWrite w n v s = s.modCc n (fun c => { c with cfgNext := some (v &&& 0x00FFFFF7#32) }) := by
  rw [ccCfgWrite_otherMode hown hnext (by rw [hzero]; exact hmode.symm), hzero]
  exact if_pos ⟨hst, Nat.zero_le 1, fun h => absurd h Nat.zero_ne_one⟩
theorem ccCfgWrite_refused (hown : s.owns w n = true) (hnext : (s.cc n).cfgNext = none)
    (hmode : fieldOf v (AX_CC_CFG_MODE n) ≠ s.get (AX_CC_CFG_MODE n)) (hst : s.slotState n = stRun) :
    ccCfgWrite w n v s = s.err n 5 := by
  rw [ccCfgWrite_otherMode hown hnext hmode, hst]
  exact if_neg fun h => absurd h.1 (by decide)

/-! ### The start of a calibration (R69, R72) -/

theorem calStart_begins {k : Nat} (hown : s.owns w n = true) (hst : s.slotState n = stIdle) (hbusy : s.get (AX_CC_CAL_BUSY n) = 0)
    (hfb : k = 3 → s.get (AX_BIND_FBEN n) = 1) : calStart k w n s = (s.put (AX_CC_CAL_BUSY n) 1).calBegin n k := by
  have hneeds : ¬ (k = 3 ∧ (!s.bit (AX_BIND_FBEN n)) = true) := fun h => by
    rw [State.bit_of_get_eq_one (hfb h.1)] at h
    exact Bool.false_ne_true h.2
  unfold calStart
  rw [hown, if_neg (by simp), hst, State.bit_of_get_eq_zero hbusy, if_neg (by simp), if_neg hneeds]
theorem calStart_noFeedback (hown : s.owns w n = true) (hst : s.slotState n = stIdle) (hbusy : s.get (AX_CC_CAL_BUSY n) = 0)
    (hfb : s.get (AX_BIND_FBEN n) = 0) : calStart 3 w n s = s.calEnd n 1 := by
  unfold calStart
  rw [hown, if_neg (by simp), hst, State.bit_of_get_eq_zero hbusy, if_neg (by simp), State.bit_of_get_eq_zero hfb]
  exact if_pos ⟨rfl, rfl⟩
theorem calStart_notIdle (k : Nat) (hown : s.owns w n = true) (hst : s.slotState n ≠ stIdle) : calStart k w n s = s.err n 5 := by
  unfold calStart
  rw [hown, if_neg (by simp), if_pos (Or.inl hst)]

theorem calBegin_spec (k : Nat) :
    ((s.put (AX_CC_CAL_BUSY n) 1).calBegin n k).get (AX_CC_CAL_BUSY n) = 1 ∧
      (((s.put (AX_CC_CAL_BUSY n) 1).calBegin n k).cc n).calKind = k ∧
      (((s.put (AX_CC_CAL_BUSY n) 1).calBegin n k).cc n).calAt = s.now := by
  unfold State.calBegin
  rw [State.cc_modCc_same, State.modCc_get, State.draw_get]
  exact ⟨State.get_put_word s 1 (by decide) (by decide), rfl, State.put_now ..⟩
end

section
variable {s : State} {n : Fin 16} {w : Writer}

/-! ### The end of a calibration (R69) -/

theorem State.calDriveOff_rd {b : Nat} (hb : ∀ c < 64, b ∉ chanWords c) : (s.calDriveOff n).rd b = s.rd b :=
  State.each_rd _ (fun c hc t => by
    have hlt : c < 64 := State.lt_of_mem_slotChans (List.mem_append_left _ hc)
    rw [State.ite_rd, State.force_rd (hb c hlt), ite_self])
/-- Slot `n` without the calibration that ran and its drive. -/
def State.calStopped (s : State) (n : Nat) : State :=
  ((s.put (AX_CC_CAL_BUSY n) 0).modCc n (fun c => { c with calKind := 0 })).when (s.calDrives n) (fun s => s.calDriveOff n)
theorem State.calEnd_eq (s : State) (n code : Nat) : s.calEnd n code =
    (((s.calStopped n).flag (AX_CC_CAL_DONE n) (code == 0)).flag (AX_CC_CAL_FAIL n) (code != 0)).put (AX_CC_CAL_FAILCODE n) code :=
  rfl

theorem State.calStopped_rd {b : Nat} (hb : ∀ c < 64, b ∉ chanWords c) :
    (s.calStopped n).rd b = (s.put (AX_CC_CAL_BUSY n) 0).rd b := by
  unfold State.calStopped State.when
  rw [State.ite_rd, State.calDriveOff_rd hb, State.modCc_rd, ite_self]
theorem AX_CC_CAL_notMem_chanWords (n : Fin 16) (c : Nat) : AX_CC_CAL n ∉ chanWords c := by
  have hn := n.isLt
  simp only [chanWords, List.mem_cons, List.not_mem_nil, or_false, AX_CC_CAL, PWM_STAT, PWM_CARRY, CMP_SST]
  omega
theorem SNS_KL_notMem_chanWords (d : Nat) {c : Nat} (hc : c < 64) : SNS_KL d ∉ chanWords c := by
  simp only [chanWords, List.mem_cons, List.not_mem_nil, or_false, SNS_KL, PWM_STAT, PWM_CARRY, CMP_SST]
  omega

/-- A calibration that ends leaves BUSY clear, DONE or FAIL set and its code. -/
theorem State.calEnd_spec (code : Nat) :
    (s.calEnd n code).get (AX_CC_CAL_BUSY n) = 0 ∧
      (s.calEnd n code).get (AX_CC_CAL_DONE n) = (if code == 0 then 1 else 0) ∧
      (s.calEnd n code).get (AX_CC_CAL_FAIL n) = (if code != 0 then 1 else 0) ∧
      (s.calEnd n code).get (AX_CC_CAL_FAILCODE n) = code % 16 := by
  have hcode (t : State) {i : Nat} (h : fieldsApart 15 12 i i = true) :
      (t.put (AX_CC_CAL_FAILCODE n) code).get ⟨AX_CC_CAL n, i, i⟩ = t.get ⟨AX_CC_CAL n, i, i⟩ := t.get_put_field code h
  have hfail (t : State) {i : Nat} (h : fieldsApart 10 10 i i = true) :
      (t.flag (AX_CC_CAL_FAIL n) (code != 0)).get ⟨AX_CC_CAL n, i, i⟩ = t.get ⟨AX_CC_CAL n, i, i⟩ := t.get_flag_field _ h
  have hbusy : (s.calStopped n).get (AX_CC_CAL_BUSY n) = 0 :=
    (State.get_of_rd (by decide) (State.calStopped_rd fun c _ => AX_CC_CAL_notMem_chanWords n c)).trans
      (s.get_put_word 0 (by decide) (by decide))
  rw [State.calEnd_eq]
  refine ⟨?_, ?_, ?_, State.get_put_word _ code (by decide) (by decide)⟩
  · exact (hcode _ rfl).trans ((hfail _ rfl).trans ((State.get_flag_field _ _ rfl).trans hbusy))
  · exact (hcode _ rfl).trans ((hfail _ rfl).trans (State.get_flag_word _ _ (by decide)))
  · exact (hcode _ rfl).trans (State.get_flag_word _ _ (by decide))
/-- Beside AXn_CC_CAL it changes words of its channels at most. -/
theorem State.calEnd_rd {b : Nat} (hcal : b ≠ AX_CC_CAL n) (hb : ∀ c < 64, b ∉ chanWords c) (code : Nat) :
    (s.calEnd n code).rd b = s.rd b := by
  rw [State.calEnd_eq]
  exact (State.rd_put_word _ (by decide) hcal).trans ((State.rd_put_word _ (by decide) hcal).trans
    ((State.rd_put_word _ (by decide) hcal).trans ((State.calStopped_rd hb).trans (State.rd_put_word _ (by decide) hcal))))

/-- The measured offsets of the slot's channels. -/
def State.storeOffsets (s : State) (n : Nat) (r : List (Int × Int)) : State :=
  s.each ((s.slotChans n).zip r) (fun x t => (t.puti (SNS_OFSH_V x.1) x.2.1).puti (SNS_OFSL_V x.1) x.2.2)
theorem calibrationDone_offsets {r : List (Int × Int)} (hbusy : s.get (AX_CC_CAL_BUSY n) = 1) (hkind : (s.cc n).calKind = 1)
    (hlen : r.length = (s.slotChans n).length) : calibrationDone n r false s = (s.storeOffsets n r).calEnd n 0 := by
  unfold calibrationDone
  simp only [State.bit_of_get_eq_one hbusy, hkind, hlen, Bool.not_true, Bool.false_eq_true, if_false, ne_eq, not_true_eq_false]
  rfl
theorem calibrationDone_notReached {r : List (Int × Int)} (hbusy : s.get (AX_CC_CAL_BUSY n) = 1) (hkind : (s.cc n).calKind = 2) :
    calibrationDone n r true s = s.calEnd n 2 := by
  unfold calibrationDone
  simp only [State.bit_of_get_eq_one hbusy, hkind, Bool.not_true, Bool.false_eq_true, if_false, if_true]
end

section
variable {s : State} {n : Nat} {w : Writer}

/-! ### Staged parameters (R79) -/

theorem pstageWrite_apply_staging (hown : s.owns w n = true) (hhold : s.get (AX_CC_PSTAGE_HOLDW n) = 1) :
    pstageWrite w n 3#32 s = (s.flag (AX_CC_PSTAGE_HOLDW n) true).modCc n (fun c => { c with apply := true }) := by
  have hkeep : (fieldOf 3#32 (AX_CC_PSTAGE_HOLDW n) == 1) = true := show (bitsOf 3 0 0 == 1) = true by decide
  have happly : (fieldOf 3#32 (AX_CC_PSTAGE_APPLY n) == 1) = true := show (bitsOf 3 1 1 == 1) = true by decide
  unfold pstageWrite
  simp only [hown, State.bit_of_get_eq_one hhold, hkeep, happly, Bool.not_true, Bool.false_eq_true, if_false, Bool.and_false,
    Bool.false_and, Bool.and_self, if_true]
theorem pstageWrite_apply_ending (hown : s.owns w n = true) (hhold : s.get (AX_CC_PSTAGE_HOLDW n) = 1) :
    pstageWrite w n 2#32 s = (s.flag (AX_CC_PSTAGE_HOLDW n) false).modCc n
      (fun c => { c with frozen := some c.shadow, shadow := [], apply := false, staged := false }) := by
  have hend : (fieldOf 2#32 (AX_CC_PSTAGE_HOLDW n) == 1) = false := show (bitsOf 2 0 0 == 1) = false by decide
  have happly : (fieldOf 2#32 (AX_CC_PSTAGE_APPLY n) == 1) = true := show (bitsOf 2 1 1 == 1) = true by decide
  unfold pstageWrite
  simp only [hown, State.bit_of_get_eq_one hhold, hend, happly, Bool.not_true, Bool.false_eq_true, if_false, Bool.not_false,
    Bool.and_self, if_true]

/-- The values of `l`, by slot offset, in force in slot `n`, a later one of an offset last. -/
def State.makeActive (s : State) (n : Nat) (l : Tab Word) : State := s.each l (fun x t => t.wr (AX_BIND n + x.1) x.2)
theorem State.makeActive_append (l m : Tab Word) : s.makeActive n (l ++ m) = (s.makeActive n l).makeActive n m :=
  List.foldl_append ..
theorem State.makeActive_rd {o : Nat} {l : Tab Word} (ho : o ∉ l.map (·.1)) :
    (s.makeActive n l).rd (AX_BIND n + o) = s.rd (AX_BIND n + o) :=
  State.each_rd _ (fun x hx t => t.rd_wr_ne _ fun h => ho (List.mem_map.mpr ⟨x, hx, (Nat.add_left_cancel h).symm⟩))
theorem State.rd_makeActive {l : Tab Word} (hnodup : (l.map (·.1)).Nodup) :
    ∀ (s : State), ∀ x ∈ l, (s.makeActive n l).rd (AX_BIND n + x.1) = x.2 := by
  induction l with
  | nil => intro s x hx; cases hx
  | cons y l ih =>
    intro s x hx
    obtain ⟨hy, hl⟩ := List.nodup_cons.mp hnodup
    rcases List.mem_cons.mp hx with rfl | hx
    · exact (State.makeActive_rd (s := s.wr _ _) hy).trans (s.rd_wr_same ..)
    · exact ih hl (s.wr _ _) x hx

/-- What APPLY covers of slot `n`: a shadow whose staging has ended, then the present one. -/
def Cc.applied (c : Cc) : Tab Word := c.frozen.getD [] ++ (if c.apply then c.shadow else [])
/-- Slot `n` with `l` in force and nothing left that APPLY covers. -/
def State.takeStaged (s : State) (n : Nat) (l : Tab Word) : State :=
  ((s.makeActive n l).modCc n (fun c => { c with apply := false, frozen := none, staged := c.staged && !c.apply })).flag
    (AX_CC_PSTAGE_PEND n) ((s.cc n).staged && !(s.cc n).apply)
theorem stagedTake_due (happly : (s.cc n).apply = true ∨ (s.cc n).frozen.isSome = true) (hleft : s.tickLeft = true)
    (hnow : s.now = s.tickAt) : stagedTake n s = s.takeStaged n (s.cc n).applied := if_pos ⟨happly, hleft, hnow⟩

theorem State.takeStaged_rd {o : Nat} {l : Tab Word} (ho : o ∈ stagedOffsets) :
    (s.takeStaged n l).rd (AX_BIND n + o) = (s.makeActive n l).rd (AX_BIND n + o) := by
  have hpstage : AX_BIND n + o ≠ AX_CC_PSTAGE n := by
    obtain ⟨i, hi, rfl⟩ := List.mem_map.mp ho
    have := List.mem_range.mp hi
    unfold AX_BIND AX_CC_PSTAGE
    omega
  exact State.rd_put_word _ (by decide) hpstage
theorem State.takeStaged_spec (l : Tab Word) :
    ((s.takeStaged n l).cc n).apply = false ∧ ((s.takeStaged n l).cc n).frozen = none ∧
      (s.takeStaged n l).get (AX_CC_PSTAGE_PEND n) = (if (s.cc n).staged && !(s.cc n).apply then 1 else 0) := by
  have hpend := State.get_flag_word (a := AX_CC_PSTAGE n) (i := 2)
    ((s.makeActive n l).modCc n (fun c => { c with apply := false, frozen := none, staged := c.staged && !c.apply }))
    ((s.cc n).staged && !(s.cc n).apply) (by decide)
  refine ⟨?_, ?_, hpend⟩
  · unfold State.takeStaged; rw [State.flag_cc, State.cc_modCc_same]
  · unfold State.takeStaged; rw [State.flag_cc, State.cc_modCc_same]
end

/-- Settles O22: a write of AXn_CC_CFG by how it is judged, a calibration by the word AXn_CC_CAL, the staged parameters by what
APPLY covers at the tick instant. -/
theorem currentSetupRows : Obligations.CurrentSetupRows := by
  unfold Obligations.CurrentSetupRows
  intro s w n v hup
  have hcfg : exec (.ccCfgWrite w n v) s = .next (s.effect (ccCfgWrite w n v)) := live_next hup _
  have hofscal : exec (.ofscal w n) s = .next (s.effect (calStart 1 w n)) := live_next hup _
  have hkcal : exec (.kcal w n) s = .next (s.effect (calStart 2 w n)) := live_next hup _
  have halign : exec (.align w n) s = .next (s.effect (calStart 3 w n)) := live_next hup _
  have hdone (r : List (Int × Int)) (nr : Bool) : exec (.calibrationDone n r nr) s = .next (s.effect (calibrationDone n r nr)) :=
    live_next hup _
  have hstaging : exec (.apply w n true) s = .next (s.effect (pstageWrite w n 3#32)) := live_next hup _
  have hending : exec (.apply w n false) s = .next (s.effect (pstageWrite w n 2#32)) := live_next hup _
  have htake : exec (.stagedApplyTake n) s = .next (s.effect (stagedTake n)) := live_next hup _
  have hbegins {k : Nat} (hown : s.owns w n = true) (hst : s.slotState n = stIdle) (hbusy : s.get (AX_CC_CAL_BUSY n) = 0)
      (hfb : k = 3 → s.get (AX_BIND_FBEN n) = 1) :
      (s.effect (calStart k w n)).get (AX_CC_CAL_BUSY n) = 1 ∧ ((s.effect (calStart k w n)).cc n).calKind = k ∧
        ((s.effect (calStart k w n)).cc n).calAt = s.now := by
    rw [State.effect_get, State.effect_cc, calStart_begins hown hst hbusy hfb]
    exact calBegin_spec k
  have hrefused {k : Nat} (hown : s.owns w n = true) (hst : s.slotState n ≠ stIdle) :
      (s.effect (calStart k w n)).get (AX_STATE_ERR n) = 5 ∧
        (s.effect (calStart k w n)).rd (AX_CC_CAL n) = s.rd (AX_CC_CAL n) := by
    rw [State.effect_get, State.effect_rd, calStart_notIdle k hown hst]
    exact ⟨s.get_err n 5, s.rd_err 5 (slotWord_ne (by decide))⟩
  refine ⟨fun hown hnext hlow hupd hdir => ⟨_, hcfg, ?_⟩, fun hown hnext hzero hmode hst => ⟨_, hcfg, ?_⟩,
    fun hown hnext hmode hst => ⟨_, hcfg, ?_⟩,
    fun hown hst hbusy => ⟨⟨_, hofscal, hbegins hown hst hbusy fun h => absurd h (by decide)⟩,
      ⟨_, hkcal, hbegins hown hst hbusy fun h => absurd h (by decide)⟩⟩,
    fun hown hst hbusy hfb => ⟨_, halign, hbegins hown hst hbusy fun _ => hfb⟩, fun hown hst hbusy hfb => ⟨_, halign, ?_⟩,
    fun hown hst c hc => ?_, fun r hbusy hkind hlen => ⟨_, hdone r false, ?_⟩, fun r hbusy hkind => ⟨_, hdone r true, ?_⟩,
    fun hown hhold => ⟨⟨_, hstaging, ?_⟩, ⟨_, hending, ?_⟩⟩, fun l hleft hnow hl hoff hnodup => ⟨_, htake, ?_⟩,
    fun l m hleft hnow hfrozen happly hshadow hoff hnodup => ⟨_, htake, ?_⟩⟩
  · have heq := ccCfgWrite_taken hown hnext hlow hupd hdir
    refine ⟨?_, fun a ha => ?_⟩
    · rw [State.effect_rd, heq]; exact s.rd_wr_same ..
    · rw [State.effect_rd, heq]; exact s.rd_wr_ne _ ha
  · rw [State.effect_cc, State.effect_regs, ccCfgWrite_waits hown hnext hzero hmode hst, State.cc_modCc_same]
    exact ⟨rfl, rfl⟩
  · rw [State.effect_get, State.effect_rd, State.effect_ccs, ccCfgWrite_refused hown hnext hmode hst]
    exact ⟨s.get_err n 5, s.rd_err 5 (slotWord_ne (by decide)), s.err_ccs n 5⟩
  · obtain ⟨hbusy', -, hfail, hcode⟩ := State.calEnd_spec (s := s) (n := n) 1
    rw [State.effect_get, State.effect_get, State.effect_get, calStart_noFeedback hown hst hbusy hfb]
    exact ⟨hbusy', hfail, hcode⟩
  · simp only [List.mem_cons, List.not_mem_nil, or_false] at hc
    rcases hc with rfl | rfl | rfl
    · exact ⟨_, hofscal, hrefused hown hst⟩
    · exact ⟨_, hkcal, hrefused hown hst⟩
    · exact ⟨_, halign, hrefused hown hst⟩
  · obtain ⟨hbusy', hdone', hfail, -⟩ := State.calEnd_spec (s := s.storeOffsets n r) (n := n) 0
    rw [State.effect_get, State.effect_get, State.effect_get, calibrationDone_offsets hbusy hkind hlen]
    exact ⟨hbusy', hdone', hfail⟩
  · obtain ⟨hbusy', -, hfail, hcode⟩ := State.calEnd_spec (s := s) (n := n) 2
    rw [State.effect_get, State.effect_get, State.effect_get, calibrationDone_notReached hbusy hkind]
    refine ⟨hbusy', hfail, hcode, fun c => ?_⟩
    rw [State.effect_rd, calibrationDone_notReached hbusy hkind]
    exact State.calEnd_rd (by unfold SNS_KL AX_CC_CAL; omega) (fun d hd => SNS_KL_notMem_chanWords c hd) 2
  · rw [State.effect_cc, State.effect_get, pstageWrite_apply_staging hown hhold, State.cc_modCc_same, State.modCc_get]
    exact ⟨rfl, s.get_flag_word true (by decide)⟩
  · rw [State.effect_cc, State.effect_get, pstageWrite_apply_ending hown hhold, State.cc_modCc_same, State.modCc_get,
      State.flag_cc]
    exact ⟨rfl, rfl, s.get_flag_word false (by decide)⟩
  · have happlied : (s.cc n).applied = l ∧ ((s.cc n).apply = true ∨ (s.cc n).frozen.isSome = true) := by
      unfold Cc.applied
      rcases hl with ⟨hfrozen, happly⟩ | ⟨hfrozen, happly, hshadow⟩
      · rw [hfrozen, happly]; exact ⟨List.append_nil l, Or.inr rfl⟩
      · rw [hfrozen, happly, hshadow]; exact ⟨rfl, Or.inl rfl⟩
    have heq : stagedTake n s = s.takeStaged n l := happlied.1 ▸ stagedTake_due happlied.2 hleft hnow
    rw [State.effect_cc, State.effect_get, heq]
    refine ⟨fun x hx => ?_, State.takeStaged_spec l⟩
    rw [State.effect_rd, heq, State.takeStaged_rd (hoff x hx)]
    exact State.rd_makeActive hnodup s x hx
  · have happlied : (s.cc n).applied = l ++ m := by unfold Cc.applied; rw [hfrozen, happly, hshadow]; rfl
    have heq : stagedTake n s = s.takeStaged n (l ++ m) := happlied ▸ stagedTake_due (Or.inl happly) hleft hnow
    obtain ⟨-, -, hpend⟩ := State.takeStaged_spec (s := s) (n := n) (l ++ m)
    rw [State.effect_get, heq]
    refine ⟨fun x hx => ?_, hpend.trans (by rw [happly, Bool.not_true, Bool.and_false]; rfl)⟩
    rw [State.effect_rd, heq, State.takeStaged_rd (hoff x (List.mem_append_right _ hx)), State.makeActive_append]
    exact State.rd_makeActive hnodup _ x hx

end Sys2Proof.Machine
end

section
/-! PROOFS. What raising a message, with its reaction, leaves alone of the bus channels' decimators: their records and the
words of DEC32 to DEC35 (R236, R355 to R362). One lemma per operation, in the order of the model. -/
namespace Sys2Proof.Machine

/-- The records of the decimated channels, and the register words of the four bus channels. -/
def State.busView (s : State) : Tab Dec × (Fin 64 → Word) := (s.decs, fun i => s.rd (0x280200 + i))
/-- A field of one word that is no word of a bus channel. -/
def Fld.offBus (f : Fld) : Prop := f.hi < 32 ∧ (f.a < 0x280200 ∨ 0x280240 ≤ f.a)

theorem State.busView_congr {s t : State} (hdecs : t.decs = s.decs)
    (hrd : ∀ b, 0x280200 ≤ b → b < 0x280240 → t.rd b = s.rd b) : t.busView = s.busView :=
  Prod.ext hdecs (funext fun i => hrd _ (Nat.le_add_right ..) (Nat.add_lt_add_left i.isLt 0x280200))
theorem State.dec_of_busView {s t : State} (h : t.busView = s.busView) (c : Nat) : t.dec c = s.dec c :=
  congrArg (fun l : Tab Dec => tabGet (fun _ => ({} : Dec)) l c) (congrArg Prod.fst h)
theorem State.rd_of_busView {s t : State} (h : t.busView = s.busView) {b : Nat} (hlo : 0x280200 ≤ b) (hhi : b < 0x280240) :
    t.rd b = s.rd b := by
  have hb := congrArg (fun x => x.2 ⟨b - 0x280200, by omega⟩) h
  simp only [State.busView, Nat.add_sub_cancel' hlo] at hb
  exact hb
theorem StreamsOnly.busView {s t : State} (h : StreamsOnly s t) : t.busView = s.busView := by obtain ⟨x, rfl⟩ := h; rfl

/-! ### Fields of other blocks (the register map)

The words of the bus channels lie at 0x200 to 0x23F of their page of 0x1000 bytes. -/

theorem slotField_offBus {n off hi lo : Nat} (h : hi < 32 ∧ off < 0x1000 ∧ (off < 0x200 ∨ 0x240 ≤ off)) :
    Fld.offBus ⟨0x080000 + 0x1000 * n + off, hi, lo⟩ := ⟨h.1, by dsimp only; omega⟩
theorem engineField_offBus {e off hi lo : Nat} (h : hi < 32 ∧ off < 0x200) : Fld.offBus ⟨0x100000 + 0x2000 * e + off, hi, lo⟩ :=
  ⟨h.1, by dsimp only; omega⟩
/-- The blocks below the converters end where their index does. -/
theorem indexedField_offBus {base stride i off hi lo : Nat} (hw : hi < 32) (ha : base + stride * i + off < 0x280200) :
    Fld.offBus ⟨base + stride * i + off, hi, lo⟩ := ⟨hw, Or.inl ha⟩
theorem faultField_offBus {base i hi lo : Nat} (h : hi < 32 ∧ 0x280240 ≤ base) : Fld.offBus ⟨base + 0x4 * i, hi, lo⟩ :=
  ⟨h.1, Or.inr (Nat.le_add_right_of_le h.2)⟩
theorem fixedField_offBus {a hi lo : Nat} (h : hi < 32 ∧ 0x280240 ≤ a) : Fld.offBus ⟨a, hi, lo⟩ := ⟨h.1, Or.inr h.2⟩

section
variable (s : State)

/-! ### The base operations -/

theorem State.ite_busView {c : Prop} [Decidable c] (s t : State) :
    (if c then s else t).busView = if c then s.busView else t.busView := apply_ite State.busView ..
theorem State.each_busView {α : Type} (l : List α) {f : α → State → State} (h : ∀ x ∈ l, ∀ t, (f x t).busView = t.busView) :
    (s.each l f).busView = s.busView :=
  List.foldlRecOn (motive := fun t : State => t.busView = s.busView) l _ rfl (fun t ht x hx => (h x hx t).trans ht)
theorem State.wr_busView {a : Nat} (v : Word) (h : a < 0x280200 ∨ 0x280240 ≤ a) : (s.wr a v).busView = s.busView :=
  State.busView_congr (s.wr_decs ..) (fun b hlo hhi => s.rd_wr_ne v (by omega))
theorem State.put_busView {f : Fld} (v : Nat) (h : f.offBus) : (s.put f v).busView = s.busView :=
  State.busView_congr (s.put_decs ..) (fun b hlo hhi => s.rd_put_ne' v h.1 (by obtain ⟨-, h⟩ := h; omega))
theorem State.puti_busView {f : Fld} (v : Int) (h : f.offBus) : (s.puti f v).busView = s.busView := s.put_busView _ h
theorem State.inc_busView {f : Fld} (k : Nat) (h : f.offBus) : (s.inc f k).busView = s.busView := s.put_busView _ h
theorem State.setGen_busView (n : Nat) (x : Gen) : (s.setGen n x).busView = s.busView := (rfl)
theorem State.modGen_busView (n : Nat) (f : Gen → Gen) : (s.modGen n f).busView = s.busView := (rfl)
theorem State.modCc_busView (n : Nat) (f : Cc → Cc) : (s.modCc n f).busView = s.busView := (rfl)
theorem State.setChan_busView (c : Nat) (x : PwmChan) : (s.setChan c x).busView = s.busView := (rfl)
theorem State.modChan_busView (c : Nat) (f : PwmChan → PwmChan) : (s.modChan c f).busView = s.busView := (rfl)
theorem State.modStream_busView (k : Nat) (f : Stream → Stream) : (s.modStream k f).busView = s.busView := (rfl)
theorem State.modHost_busView (h : Nat) (f : HostSt → HostSt) : (s.modHost h f).busView = s.busView := (rfl)
theorem State.setSwap_busView (n : Nat) (x : Swap) : (s.setSwap n x).busView = s.busView := (rfl)
theorem State.modEngine_busView (e : Nat) (f : Engine → Engine) : (s.modEngine e f).busView = s.busView := (rfl)
theorem State.setPr_busView (n : Nat) (x : Prusik) : (s.setPr n x).busView = s.busView := (rfl)
theorem State.upd_bly_busView (x : Belay) : ({ s with bly := x } : State).busView = s.busView := (rfl)
theorem State.upd_hoDead_busView (x : Bool) : ({ s with hoDead := x } : State).busView = s.busView := (rfl)
theorem State.upd_coll_busView (x : Collector) : ({ s with coll := x } : State).busView = s.busView := (rfl)
theorem State.upd_hkc_busView (x : Hkc) : ({ s with hkc := x } : State).busView = s.busView := (rfl)

/-! ### Channels (R187, R192, R213) -/

theorem State.noteArmed_busView (c : Nat) : (s.noteArmed c).busView = s.busView := by
  simp only [noteArmed, modChan_busView, ite_busView, ite_self]
theorem State.gateOff_busView {c : Nat} (hc : c < 64) (high trip soft : Bool) :
    (s.gateOff c high trip soft).busView = s.busView := by
  have hraw : (s.put (if high then CMP_SST_RAWH c else CMP_SST_RAWL c) 0).busView = s.busView := by
    cases high
    · exact s.put_busView 0 (indexedField_offBus (by decide) (by omega))
    · exact s.put_busView 0 (indexedField_offBus (by decide) (by omega))
  simp only [gateOff, modChan_busView, hraw, ite_busView, ite_self]
theorem State.gateOn_busView (c : Nat) (high : Bool) : (s.gateOn c high).busView = s.busView := by
  simp only [gateOn, setChan_busView, ite_busView, ite_self]
theorem State.force_busView {c : Nat} (hc : c < 64) (mode : Nat) (low soft : Bool) :
    (s.force c mode low soft).busView = s.busView := by
  have hmode (t : State) : (t.put (PWM_STAT_MODE c) mode).busView = t.busView :=
    t.put_busView mode (indexedField_offBus (by decide) (by omega))
  have hcarry (t : State) : (t.wr (PWM_CARRY c) 0).busView = t.busView := t.wr_busView 0 (by unfold PWM_CARRY; omega)
  simp only [force, gateOn_busView, modChan_busView, gateOff_busView _ hc, hcarry, hmode, ite_busView, ite_self]
theorem State.safeState_busView {c : Nat} (hc : c < 64) : (s.safeState c).busView = s.busView := s.force_busView hc ..
theorem State.brakeOff_busView (n : Fin 16) (mode : Nat) : (s.brakeOff n mode).busView = s.busView := by
  have hforce : (s.each (s.brakeChans n) (fun c t => t.force c mode false)).busView = s.busView :=
    s.each_busView _ (fun c hc t => t.force_busView (State.lt_of_mem_slotChans (List.mem_append_right _ hc)) ..)
  unfold brakeOff
  split
  · rfl
  · simp (disch := with_unfolding_all exact id (slotField_offBus (by decide))) only [put_busView, hforce]

/-! ### The parts of a slot (Machine/Slots.lean) -/

theorem State.interruptWait_busView (n new reason : Nat) : (s.interruptWait n new reason).busView = s.busView :=
  ((StreamsOnly.refl s).interruptWait n new reason).busView
theorem State.interruptPitch_busView (n i : Nat) : (s.interruptPitch n i).busView = s.busView :=
  ((StreamsOnly.refl s).interruptPitch n i).busView
theorem State.interruptSlot_busView (p : Nat → Bool) (halt : Nat) : (s.interruptSlot p halt).busView = s.busView :=
  ((StreamsOnly.refl s).interruptSlot p halt).busView
theorem State.swapAnswer_busView (n r : Nat) : (s.swapAnswer n r).busView = s.busView :=
  ((StreamsOnly.refl s).swapAnswer n r).busView
theorem State.swapAbandon_busView (n result : Nat) : (s.swapAbandon n result).busView = s.busView := by
  have hpool (t : State) (e v : Nat) : (t.put (KE_STATUS_POOL e) v).busView = t.busView :=
    t.put_busView v (engineField_offBus (by decide))
  have hrun (t : State) (e : Nat) : (t.put (KE_STATUS_RUN e) 0).busView = t.busView :=
    t.put_busView 0 (engineField_offBus (by decide))
  have hrole (t : State) (e : Nat) : (t.put (KE_STATUS_ROLE e) 0).busView = t.busView :=
    t.put_busView 0 (engineField_offBus (by decide))
  have hslot (t : State) (e : Nat) : (t.put (KE_STATUS_SLOT e) 0).busView = t.busView :=
    t.put_busView 0 (engineField_offBus (by decide))
  simp (disch := with_unfolding_all exact id (slotField_offBus (by decide))) only
    [swapAbandon, swapAnswer_busView, setSwap_busView, hpool, hrun, hrole, hslot, put_busView, ite_busView, ite_self]
theorem State.stopRoutes_busView (n : Nat) : (s.stopRoutes n).busView = s.busView :=
  s.each_busView _ (fun e _ t => by
    have hrun : (t.put (KE_STATUS_RUN e) 0).busView = t.busView := t.put_busView 0 (engineField_offBus (by decide))
    rw [ite_busView, hrun, ite_self])
theorem State.keepHead_busView (n : Nat) : (s.keepHead n).busView = s.busView := by
  simp (disch := with_unfolding_all exact id (slotField_offBus (by decide))) only [keepHead, put_busView, ite_busView, ite_self]
theorem State.clearPitst_busView (n : Nat) : (s.clearPitst n).busView = s.busView := by
  simp (disch := with_unfolding_all exact id (slotField_offBus (by decide))) only [clearPitst, put_busView]
theorem State.abandonPitch_busView (n : Nat) : (s.abandonPitch n).busView = s.busView := by
  unfold abandonPitch
  split
  · rfl
  · rw [interruptPitch_busView, clearPitst_busView, modGen_busView]
theorem State.sourceOff_busView (n : Nat) : (s.sourceOff n).busView = s.busView := by
  unfold sourceOff
  dsimp only
  repeat' split
  all_goals simp (disch := with_unfolding_all exact id (slotField_offBus (by decide))) only
    [put_busView, inc_busView, clearPitst_busView, abandonPitch_busView, setGen_busView, modGen_busView]
theorem State.stopGen_busView (n : Nat) : (s.stopGen n).busView = s.busView := by
  simp (disch := with_unfolding_all exact id (slotField_offBus (by decide))) only
    [stopGen, put_busView, modGen_busView, abandonPitch_busView, ite_busView, ite_self]
/-- A slot names its step output by a field of three bits (R14). -/
theorem State.sogField_offBus (n : Nat) {off hi lo : Nat} (h : hi < 32 ∧ off < 0x40) :
    Fld.offBus ⟨0x202000 + 0x40 * s.get (AX_BIND_SOUT n) + off, hi, lo⟩ := by
  have hlt : s.get (AX_BIND_SOUT n) < 8 := s.get_lt _
  exact indexedField_offBus h.1 (by omega)
theorem State.holdSteps_busView (n : Nat) : (s.put (SOG_STAT_HELD (s.get (AX_BIND_SOUT n))) 1).busView = s.busView :=
  s.put_busView 1 (s.sogField_offBus n (by decide))
theorem State.emitSteps_busView (n k : Nat) : (s.emitSteps n k).busView = s.busView :=
  (State.puti_busView _ _ (s.sogField_offBus n (by decide))).trans (s.modGen_busView ..)
theorem State.cutSteps_busView (n : Nat) (drop : Bool) : (s.cutSteps n drop).busView = s.busView := by
  simp (disch := with_unfolding_all exact id (slotField_offBus (by decide))) only
    [cutSteps, puti_busView, setGen_busView, emitSteps_busView, ite_busView, ite_self]
theorem State.stopSteps_busView (n : Nat) (held : Bool) : (s.stopSteps n held).busView = s.busView := by
  unfold stopSteps
  rw [ite_busView, holdSteps_busView, ite_self, cutSteps_busView]
theorem State.prStop_busView (n : Nat) : (s.prStop n).busView = s.busView := by
  simp (disch := with_unfolding_all exact id (slotField_offBus (by decide))) only [prStop, setPr_busView, put_busView]
theorem State.toTripped_busView (n : Fin 16) (reason : Nat) (how : SafeHow) (held : Bool) :
    (s.toTripped n reason how held).busView = s.busView := by
  have hlt {t : State} {c : Nat} (hc : c ∈ t.localChans n) : c < 64 := State.lt_of_mem_slotChans (List.mem_append_left _ hc)
  unfold toTripped
  split
  · extract_lets s1 s2 s3 s4 s5 s6 last s7 s8
    have harmed : s1.busView = s.busView := s.each_busView _ (fun c _ t => t.noteArmed_busView c)
    have hstate : s2.busView = s1.busView := by
      simp (disch := with_unfolding_all exact id (slotField_offBus (by decide))) only [s2, put_busView]
    have hchans : s3.busView = s2.busView := s2.each_busView _ (fun c hc t => by
      cases how with
      | safe => exact t.safeState_busView (hlt hc)
      | coast => exact t.force_busView (hlt hc) ..
      | brake => dsimp only; rw [ite_busView, force_busView _ (hlt hc), force_busView _ (hlt hc), ite_self])
    have hstop : s6.busView = s3.busView := by
      simp only [s6, s5, s4, swapAbandon_busView, stopGen_busView, stopSteps_busView, brakeOff_busView, ite_busView, ite_self]
    have hend : s8.busView = s6.busView := by
      simp (disch := with_unfolding_all exact id (slotField_offBus (by decide))) only
        [s8, s7, put_busView, prStop_busView, modCc_busView, stopRoutes_busView]
    rw [interruptWait_busView, hend, hstop, hchans, hstate, harmed]
  · simp (disch := with_unfolding_all exact id (slotField_offBus (by decide))) only [put_busView, ite_busView, ite_self]
theorem State.toRappel_busView (n reason : Nat) (de : Bool) : (s.toRappel n reason de).busView = s.busView := by
  simp (disch := with_unfolding_all exact id (slotField_offBus (by decide))) only [toRappel, interruptWait_busView, put_busView,
    modGen_busView, sourceOff_busView, cutSteps_busView, ite_busView, ite_self]

/-! ### Messages and reactions (Machine/Collector.lean) -/

theorem State.startSave_busView (sag s4 : Bool) : (s.startSave sag s4).busView = s.busView := by
  simp (disch := exact fixedField_offBus (by decide)) only [startSave, put_busView, upd_bly_busView, ite_busView, ite_self]
theorem State.reactS3_busView (gs rs : List Nat) (reason : Nat) (held : Bool) :
    (s.reactS3 gs rs reason held).busView = s.busView :=
  s.each_busView _ (fun n hn t => by
    have htrip := t.toTripped_busView ⟨n, List.mem_range.mp hn⟩ reason .safe held
    have hbrake := t.brakeOff_busView ⟨n, List.mem_range.mp hn⟩ mKilled
    simp only [ite_busView, htrip, hbrake, ite_self])
theorem State.reactS4_busView : s.reactS4.busView = s.busView := by
  have hheld (t : State) : (t.each slots16 (fun n u =>
      if u.isRemote n && u.slotState n == stTripped then u.put (SOG_STAT_HELD (u.get (AX_BIND_SOUT n))) 1 else u)).busView =
      t.busView :=
    t.each_busView _ (fun n _ u => by rw [ite_busView, holdSteps_busView, ite_self])
  have hstreams (t : State) (f : Nat → Stream → Stream) :
      (t.each streams32 (fun k u => u.modStream k (f k))).busView = t.busView :=
    t.each_busView _ (fun k _ u => u.modStream_busView ..)
  have hseen (t : State) : (t.put FLT_ST_S4SEEN 1).busView = t.busView := t.put_busView 1 (fixedField_offBus (by decide))
  simp only [reactS4, hstreams, interruptSlot_busView, hheld, reactS3_busView, hseen, killHandover, upd_hoDead_busView,
    startSave_busView]
theorem State.react_busView (src sev : Nat) : (s.react src sev).busView = s.busView := by
  have hrappel : (s.each (s.affectedSlots src) (fun n t => (t.keepHead n).toRappel n 2 false)).busView = s.busView :=
    s.each_busView _ (fun n _ t => by rw [toRappel_busView, keepHead_busView])
  simp only [react, hrappel, reactS3_busView, reactS4_busView, ite_busView, ite_self]
theorem State.notifyHost_busView (m : Msg) (h : Nat) : (s.notifyHost m h).busView = s.busView := by
  simp (disch := with_unfolding_all exact id (faultField_offBus (by decide))) only
    [notifyHost, put_busView, inc_busView, modHost_busView, ite_busView, ite_self]
theorem State.traceTrigger_busView (e time : Nat) : (s.traceTrigger e time).busView = s.busView := by
  have hwr64 (t : State) : (t.wr64 (KE_TRTIME e) time).busView = t.busView :=
    (State.wr_busView _ _ (by unfold KE_TRTIME; omega)).trans (t.wr_busView _ (by unfold KE_TRTIME; omega))
  simp (disch := with_unfolding_all exact id (engineField_offBus (by decide))) only
    [traceTrigger, modEngine_busView, hwr64, put_busView, ite_busView, ite_self]
theorem State.hkcSignal_busView (c : Bool) (time : Nat) : (s.hkcSignal c time).busView = s.busView := by
  simp only [hkcSignal, upd_hkc_busView, ite_busView, ite_self]
theorem State.raise_busView (src kind detail addr time : Nat) (loc : Bool) (sevIs : Option Nat) :
    (s.raise src kind detail addr time loc sevIs).busView = s.busView := by
  unfold raise
  extract_lets sev m key last s1 s2 coll s3 s4 s5
  have hcount : s1.busView = s.busView := (State.put_busView _ 1 (faultField_offBus (by decide))).trans
    ((State.inc_busView _ 1 (faultField_offBus (by decide))).trans (s.inc_busView 1 (fixedField_offBus (by decide))))
  have hnotify (t : State) : (t.each hosts8 (fun h u => if u.notified src h then u.notifyHost m h else u)).busView = t.busView :=
    t.each_busView _ (fun h _ u => by rw [ite_busView, notifyHost_busView, ite_self])
  have htaken : s4.busView = s1.busView := by
    simp (disch := exact fixedField_offBus (by decide)) only
      [s4, s3, s2, inc_busView, put_busView, upd_coll_busView, hnotify, ite_busView, ite_self]
  have htrace : s5.busView = s4.busView := by
    unfold s5; split
    · exact s4.each_busView _ (fun e _ t => by rw [ite_busView, traceTrigger_busView, ite_self])
    · rfl
  rw [react_busView, hkcSignal_busView, htrace, htaken, hcount]
end

end Sys2Proof.Machine
end

section
/-! PROOFS. The statement O46: the decimated channels (R63 to R65, R236 to R243). -/
namespace Sys2Proof.Machine

/-! ### The bus windows (R243) -/

section
variable (s : State)

theorem State.busSide_busView (key : Nat) (beyond back : Bool) : (s.busSide key beyond back).1.busView = s.busView := by
  unfold State.busSide
  dsimp only
  repeat' split
  all_goals rfl
theorem State.busSide_clock (key : Nat) (beyond back : Bool) : (s.busSide key beyond back).1.clock = s.clock := by
  unfold State.busSide
  dsimp only
  repeat' split
  all_goals rfl
theorem State.busWindow_busView (g mv : Nat) : (s.busWindow g mv).busView = s.busView := by
  simp only [busWindow, raise_busView, busSide_busView, ite_busView, ite_self]
theorem State.busWindow_clock (g mv : Nat) : (s.busWindow g mv).clock = s.clock := by
  simp only [busWindow, raise_clock, busSide_clock, ite_clock, ite_self]
end

section
variable {s : State} {c : Nat} {iH iL : List Int}

/-! ### The parts of an output (R65, R237 to R240) -/

/-- The inputs of the filter after an output's period, newest first. -/
def State.outputIns (s : State) (c : Nat) (iH iL : List Int) : List (Int × Int × Bool) :=
  ((((clockValues iH (s.decOsr c)).zip (clockValues iL (s.decOsr c))).zip (s.decBlind c s.now (s.decOsr c))).map
    (fun x => (x.1.1, x.1.2, x.2)) ++ (s.dec c).ins).take (s.decOrd c * s.decOsr c)
/-- The outputs of the filter with the latest, newest first: value and blind weight. -/
def State.outputOuts (s : State) (c : Nat) (iH iL : List Int) : List (Rat × Rat) :=
  ((sinc (s.decOrd c) (s.decOsr c) ((s.outputIns c iH iL).map (s.decTerm c)),
    sinc (s.decOrd c) (s.decOsr c) ((s.outputIns c iH iL).map (fun x => if x.2.2 then 1 else 0))) :: (s.dec c).outs).take (s.decL c)
/-- The record of a channel after an output at cell time `t`, and that with the notch's means in force. -/
def Dec.took (d : Dec) (t : Nat) (ins : List (Int × Int × Bool)) (outs : List (Rat × Rat)) : Dec :=
  { d with outAt := some t, ins := ins, outs := outs }
def Dec.shows (d : Dec) (l : Nat) : Dec := { d with val := notch l (d.outs.map (·.1)), wd := notch l (d.outs.map (·.2)) }
/-- The record of channel `c` after an output that is not published, and after a published one. -/
def State.outputHeld (s : State) (c : Nat) (iH iL : List Int) : Dec :=
  (s.dec c).took s.now (s.outputIns c iH iL) (s.outputOuts c iH iL)
def State.outputShown (s : State) (c : Nat) (iH iL : List Int) : Dec := (s.outputHeld c iH iL).shows (s.decL c)

/-- The modulator of SNH (of the bus voltage) and that of SNL were overloaded in the period of an output. -/
def State.overH (s : State) (c : Nat) (iH : List Int) : Bool := (clockValues iH (s.decOsr c)).any (overloaded c)
def State.overL (s : State) (c : Nat) (iL : List Int) : Bool :=
  decide (c < 32) && (clockValues iL (s.decOsr c)).any (overloaded c)
/-- The overloads of an output noted and counted. -/
def State.noteOverload (s : State) (c : Nat) (oH oL : Bool) : State :=
  let s := if oH then s.put (DEC_ST_OVRH c) 1 else s
  let s := if oL then s.put (DEC_ST_OVRL c) 1 else s
  if oH || oL then s.inc (DEC_OVRCNT_V c) else s
/-- The registers and the window of channel `c` as the published output `d` sets them. -/
def State.showOutput (s : State) (c : Nat) (d : Dec) : State :=
  if c < 32 then (s.puti (SNS_I_V c) (roundEven d.val)).put (SNS_WD_V c) (min (d.wd * 65536).floor.toNat 0xFFFF)
  else (s.wr (DEC_VAL c) (BitVec.ofNat 32 (roundEven d.val).toNat)).busWindow (c - 32) (roundEven d.val).toNat

/-! ### Overloads (R239) -/

theorem State.ite_get {p : Prop} [Decidable p] (s t : State) (f : Fld) :
    (if p then s else t).get f = if p then s.get f else t.get f := apply_ite (fun u : State => u.get f) ..
theorem State.ite_dec {p : Prop} [Decidable p] (s t : State) (m : Nat) :
    (if p then s else t).dec m = if p then s.dec m else t.dec m := apply_ite (fun u : State => u.dec m) ..

theorem State.noteOverload_rd {b : Nat} (oH oL : Bool) (hst : b ≠ DEC_ST c) (hcnt : b ≠ DEC_OVRCNT c) :
    (s.noteOverload c oH oL).rd b = s.rd b := by
  have hovrh (t : State) : (t.put (DEC_ST_OVRH c) 1).rd b = t.rd b := State.rd_put_word 1 (by decide) hst
  have hovrl (t : State) : (t.put (DEC_ST_OVRL c) 1).rd b = t.rd b := State.rd_put_word 1 (by decide) hst
  have hinc (t : State) : (t.inc (DEC_OVRCNT_V c)).rd b = t.rd b := State.rd_put_word _ (by decide) hcnt
  simp only [State.noteOverload, State.ite_rd, hinc, hovrl, hovrh, ite_self]
theorem State.noteOverload_dec (oH oL : Bool) (m : Nat) : (s.noteOverload c oH oL).dec m = s.dec m := by
  simp only [State.noteOverload, State.ite_dec, State.inc_dec, State.put_dec, ite_self]
theorem State.noteOverload_clock (oH oL : Bool) : (s.noteOverload c oH oL).clock = s.clock := by
  simp only [State.noteOverload, State.ite_clock, State.inc_clock, State.put_clock, ite_self]

theorem DEC_ST_ne_DEC_OVRCNT (c : Nat) : DEC_ST c ≠ DEC_OVRCNT c := by unfold DEC_ST DEC_OVRCNT; omega
theorem State.get_inc_OVRCNT_ST (t : State) {hi lo : Nat} (hw : hi < 32) :
    (t.inc (DEC_OVRCNT_V c)).get ⟨DEC_ST c, hi, lo⟩ = t.get ⟨DEC_ST c, hi, lo⟩ :=
  State.get_of_rd hw (State.rd_put_word _ (by decide) (DEC_ST_ne_DEC_OVRCNT c))
theorem State.get_noteOverload_VALID (oH oL : Bool) :
    (s.noteOverload c oH oL).get (DEC_ST_VALID c) = s.get (DEC_ST_VALID c) := by
  have hovrh (t : State) : (t.put (DEC_ST_OVRH c) 1).get (DEC_ST_VALID c) = t.get (DEC_ST_VALID c) := t.get_put_field 1 rfl
  have hovrl (t : State) : (t.put (DEC_ST_OVRL c) 1).get (DEC_ST_VALID c) = t.get (DEC_ST_VALID c) := t.get_put_field 1 rfl
  have hinc (t : State) : (t.inc (DEC_OVRCNT_V c)).get (DEC_ST_VALID c) = t.get (DEC_ST_VALID c) :=
    t.get_inc_OVRCNT_ST (by decide)
  simp only [State.noteOverload, State.ite_get, hinc, hovrl, hovrh, ite_self]
theorem State.get_noteOverload_OVRH (oL : Bool) : (s.noteOverload c true oL).get (DEC_ST_OVRH c) = 1 := by
  have hovrh : (s.put (DEC_ST_OVRH c) 1).get (DEC_ST_OVRH c) = 1 := s.get_put_word 1 (by decide) (by decide)
  have hovrl (t : State) : (t.put (DEC_ST_OVRL c) 1).get (DEC_ST_OVRH c) = t.get (DEC_ST_OVRH c) := t.get_put_field 1 rfl
  have hinc (t : State) : (t.inc (DEC_OVRCNT_V c)).get (DEC_ST_OVRH c) = t.get (DEC_ST_OVRH c) :=
    t.get_inc_OVRCNT_ST (by decide)
  simp only [State.noteOverload, State.ite_get, hinc, hovrl, hovrh, ite_self, if_true]
/-- An output with an overload counts once (R239). -/
theorem State.get_noteOverload_OVRCNT (oH oL : Bool) :
    (s.noteOverload c oH oL).get (DEC_OVRCNT_V c) = (s.get (DEC_OVRCNT_V c) + (if oH || oL then 1 else 0)) % 2 ^ 32 := by
  have hst (t : State) {hi lo : Nat} (hw : hi < 32) : (t.put ⟨DEC_ST c, hi, lo⟩ 1).get (DEC_OVRCNT_V c) = t.get (DEC_OVRCNT_V c) :=
    State.get_of_same_word rfl (State.rd_put_word 1 hw (DEC_ST_ne_DEC_OVRCNT c).symm)
  have hovrh (t : State) : (t.put (DEC_ST_OVRH c) 1).get (DEC_OVRCNT_V c) = t.get (DEC_OVRCNT_V c) := hst t (by decide)
  have hovrl (t : State) : (t.put (DEC_ST_OVRL c) 1).get (DEC_OVRCNT_V c) = t.get (DEC_OVRCNT_V c) := hst t (by decide)
  have hinc (t : State) : (t.inc (DEC_OVRCNT_V c)).get (DEC_OVRCNT_V c) = (t.get (DEC_OVRCNT_V c) + 1) % 2 ^ 32 := t.get_inc_word 1
  have hlt : s.get (DEC_OVRCNT_V c) < 2 ^ 32 := s.get_lt _
  simp only [State.noteOverload, State.ite_get, hinc, hovrl, hovrh, ite_self]
  split
  · rfl
  · exact (Nat.mod_eq_of_lt hlt).symm

/-! ### What a published output shows (R236, R64, R65) -/

theorem State.showOutput_clock (d : Dec) : (s.showOutput c d).clock = s.clock := by
  simp only [State.showOutput, State.put_clock, State.puti_clock, State.busWindow_clock, State.wr_clock, State.ite_clock, ite_self]
theorem State.showOutput_dec (d : Dec) (m : Nat) : (s.showOutput c d).dec m = s.dec m := by
  unfold State.showOutput
  split
  · rw [State.put_dec, State.puti_dec]
  · rw [State.dec_of_busView (State.busWindow_busView ..), State.wr_dec]
/-- It leaves the status and the overload count of its channel alone. -/
theorem State.showOutput_rd {b : Nat} (hc : c < 36) (hb : b = DEC_ST c ∨ b = DEC_OVRCNT c) (d : Dec) :
    (s.showOutput c d).rd b = s.rd b := by
  unfold DEC_ST DEC_OVRCNT at hb
  unfold State.showOutput
  split
  · exact (State.rd_put_word _ (by decide) (by unfold SNS_WD; omega)).trans
      (State.rd_put_word _ (by decide) (by unfold SNS_I; omega))
  · rw [State.rd_of_busView (State.busWindow_busView ..) (by omega) (by omega)]
    exact s.rd_wr_ne _ (by unfold DEC_VAL; omega)
theorem State.get_showOutput_sense (hc : c < 32) (d : Dec) :
    (s.showOutput c d).get (SNS_I_V c) = unsignedOf 32 (roundEven d.val) ∧
      (s.showOutput c d).get (SNS_WD_V c) = min (d.wd * 65536).floor.toNat 0xFFFF := by
  have hmod : unsignedOf 32 (roundEven d.val) < 2 ^ 32 := by unfold unsignedOf; omega
  have hi (t : State) : (t.puti (SNS_I_V c) (roundEven d.val)).get (SNS_I_V c) = unsignedOf 32 (roundEven d.val) % 2 ^ 32 :=
    t.get_put_word _ (by decide) (by decide)
  have hkeep (t : State) (x : Nat) : (t.put (SNS_WD_V c) x).get (SNS_I_V c) = t.get (SNS_I_V c) :=
    State.get_of_same_word rfl (State.rd_put_word x (by decide) (by unfold SNS_I_V SNS_I SNS_WD; dsimp only; omega))
  have hwd (t : State) (x : Nat) : (t.put (SNS_WD_V c) x).get (SNS_WD_V c) = x % 2 ^ 16 := t.get_put_word x (by decide) (by decide)
  unfold State.showOutput
  rw [if_pos hc, hkeep, hi, hwd, Nat.mod_eq_of_lt hmod, Nat.mod_eq_of_lt (by omega)]
  exact ⟨rfl, rfl⟩
theorem State.rd_showOutput_bus (hlo : 32 ≤ c) (hhi : c < 36) (d : Dec) :
    (s.showOutput c d).rd (DEC_VAL c) = BitVec.ofNat 32 (roundEven d.val).toNat := by
  unfold State.showOutput
  rw [if_neg (by omega), State.rd_of_busView (State.busWindow_busView ..) (by unfold DEC_VAL; omega) (by unfold DEC_VAL; omega),
    State.rd_wr_same]

/-! ### An output (R236, R240) -/

theorem State.decimated_eq : s.decimated c iH iL =
    if s.bit (DEC_ST_VALID c) then
      ((s.noteOverload c (s.overH c iH) (s.overL c iL)).setDec c (s.outputShown c iH iL)).showOutput c (s.outputShown c iH iL)
    else (s.noteOverload c (s.overH c iH) (s.overL c iL)).setDec c (s.outputHeld c iH iL) := by
  have hnoted : s.decimated c iH iL =
      let t := s.noteOverload c (s.overH c iH) (s.overL c iL)
      let d := (t.dec c).took t.now (s.outputIns c iH iL) (s.outputOuts c iH iL)
      if !t.bit (DEC_ST_VALID c) then t.setDec c d
      else (t.setDec c (d.shows (s.decL c))).showOutput c (d.shows (s.decL c)) := rfl
  have hvalid : (s.noteOverload c (s.overH c iH) (s.overL c iL)).bit (DEC_ST_VALID c) = s.bit (DEC_ST_VALID c) := by
    unfold State.bit; rw [State.get_noteOverload_VALID]
  rw [hnoted]
  dsimp only
  rw [hvalid, State.noteOverload_dec, State.now_eq_of_clock (State.noteOverload_clock ..)]
  cases s.bit (DEC_ST_VALID c) <;> rfl
theorem State.decimated_clock : (s.decimated c iH iL).clock = s.clock := by
  have hset (t : State) (d : Dec) : (t.setDec c d).clock = t.clock := rfl
  rw [State.decimated_eq]
  simp only [State.ite_clock, State.showOutput_clock, hset, State.noteOverload_clock, ite_self]
theorem State.decimated_dec : (s.decimated c iH iL).dec c =
    if s.bit (DEC_ST_VALID c) then s.outputShown c iH iL else s.outputHeld c iH iL := by
  rw [State.decimated_eq]
  simp only [State.ite_dec, State.showOutput_dec, State.dec_setDec_same]
/-- The status and the overload count of a channel change by its overloads only. -/
theorem State.decimated_rd {b : Nat} (hc : c < 36) (hb : b = DEC_ST c ∨ b = DEC_OVRCNT c) :
    (s.decimated c iH iL).rd b = (s.noteOverload c (s.overH c iH) (s.overL c iL)).rd b := by
  rw [State.decimated_eq]
  simp only [State.ite_rd, State.showOutput_rd hc hb, State.setDec_rd, ite_self]

theorem State.decimated_shown (hvalid : s.get (DEC_ST_VALID c) = 1) : s.decimated c iH iL =
    ((s.noteOverload c (s.overH c iH) (s.overL c iL)).setDec c (s.outputShown c iH iL)).showOutput c (s.outputShown c iH iL) := by
  rw [State.decimated_eq, State.bit_of_get_eq_one hvalid]; rfl
theorem State.decimated_held (hvalid : s.get (DEC_ST_VALID c) = 0) : s.decimated c iH iL =
    (s.noteOverload c (s.overH c iH) (s.overL c iL)).setDec c (s.outputHeld c iH iL) := by
  rw [State.decimated_eq, State.bit_of_get_eq_zero hvalid]; rfl

/-- Every output takes its inputs, whether it is published or not. -/
theorem State.decimated_takes : ((s.decimated c iH iL).dec c).outAt = some s.now ∧
    ((s.decimated c iH iL).dec c).ins = s.outputIns c iH iL ∧ ((s.decimated c iH iL).dec c).outs = s.outputOuts c iH iL := by
  rw [State.decimated_dec]
  split
  · exact ⟨rfl, rfl, rfl⟩
  · exact ⟨rfl, rfl, rfl⟩
theorem State.decimated_publishes (hc : c < 36) (hvalid : s.get (DEC_ST_VALID c) = 1) :
    ((s.decimated c iH iL).dec c).val = notch (s.decL c) ((s.outputOuts c iH iL).map (·.1)) ∧
      ((s.decimated c iH iL).dec c).wd = notch (s.decL c) ((s.outputOuts c iH iL).map (·.2)) ∧
      (c < 32 → (s.decimated c iH iL).get (SNS_I_V c) = unsignedOf 32 (roundEven ((s.decimated c iH iL).dec c).val) ∧
        (s.decimated c iH iL).get (SNS_WD_V c) = min (((s.decimated c iH iL).dec c).wd * 65536).floor.toNat 0xFFFF) ∧
      (32 ≤ c → (s.decimated c iH iL).rd (DEC_VAL c) = BitVec.ofNat 32 (roundEven ((s.decimated c iH iL).dec c).val).toNat) := by
  have hdec : (s.decimated c iH iL).dec c = s.outputShown c iH iL := by
    rw [State.decimated_dec, State.bit_of_get_eq_one hvalid]; rfl
  rw [hdec, State.decimated_shown hvalid]
  exact ⟨rfl, rfl, fun h => State.get_showOutput_sense h _, fun h => State.rd_showOutput_bus h hc _⟩
theorem State.decimated_counts (hc : c < 36) :
    (s.decimated c iH iL).get (DEC_OVRCNT_V c) =
        (s.get (DEC_OVRCNT_V c) + (if s.overH c iH || s.overL c iL then 1 else 0)) % 2 ^ 32 ∧
      (s.overH c iH = true → (s.decimated c iH iL).get (DEC_ST_OVRH c) = 1) := by
  refine ⟨?_, fun hover => ?_⟩
  · rw [State.get_of_same_word (f := DEC_OVRCNT_V c) rfl (State.decimated_rd hc (Or.inr rfl)), State.get_noteOverload_OVRCNT]
  · rw [State.get_of_same_word (f := DEC_ST_OVRH c) rfl (State.decimated_rd hc (Or.inl rfl)), hover, State.get_noteOverload_OVRH]

/-! ### A change of the setting at its output (R240, R242) -/

theorem State.unsettle_clock : (s.unsettle c).clock = s.clock := by
  have hset (t : State) (d : Dec) : (t.setDec c d).clock = t.clock := rfl
  simp only [State.unsettle, State.put_clock, State.wr_clock, hset, State.ite_clock, ite_self]
theorem State.decApply_clock : (s.decApply c).clock = s.clock := by
  unfold State.decApply
  split
  · have hset (t : State) (d : Dec) : (t.setDec c d).clock = t.clock := rfl
    simp only [State.unsettle_clock, hset, State.ite_clock, ite_self]
  · rfl
theorem State.unsettle_rd {b : Nat} (hst : b ≠ DEC_ST c) (hi : b ≠ SNS_I c) (hwd : b ≠ SNS_WD c) :
    (s.unsettle c).rd b = s.rd b := by
  have hvalid (t : State) : (t.put (DEC_ST_VALID c) 0).rd b = t.rd b := State.rd_put_word 0 (by decide) hst
  have hcurrent (t : State) : (t.wr (SNS_I c) 0).rd b = t.rd b := t.rd_wr_ne 0 hi
  have hblind (t : State) : (t.put (SNS_WD_V c) 0xFFFF).rd b = t.rd b := State.rd_put_word _ (by decide) hwd
  simp only [State.unsettle, State.ite_rd, hblind, hcurrent, State.setDec_rd, hvalid, ite_self]
theorem State.decApply_rd {b : Nat} (hst : b ≠ DEC_ST c) (hi : b ≠ SNS_I c) (hwd : b ≠ SNS_WD c) :
    (s.decApply c).rd b = s.rd b := by
  unfold State.decApply
  split
  · simp only [State.unsettle_rd hst hi hwd, State.setDec_rd, State.ite_rd, ite_self]
  · rfl
theorem State.get_decApply_OVRCNT (hc : c < 36) : (s.decApply c).get (DEC_OVRCNT_V c) = s.get (DEC_OVRCNT_V c) :=
  State.get_of_same_word rfl (State.decApply_rd (DEC_ST_ne_DEC_OVRCNT c).symm
    (by unfold DEC_OVRCNT_V DEC_OVRCNT SNS_I; dsimp only; omega) (by unfold DEC_OVRCNT_V DEC_OVRCNT SNS_WD; dsimp only; omega))

/-! ### The setting of a channel and of a bus window (R240, R242, R243) -/

theorem decCfgWrite_taken {v : Word} (hosr : 8 ≤ fieldOf v (DEC_CFG_OSR c)) (hosr' : fieldOf v (DEC_CFG_OSR c) ≤ 256)
    (hl : 1 ≤ fieldOf v (DEC_CFG_L c)) (hl' : fieldOf v (DEC_CFG_L c) ≤ 64) (hord : 1 ≤ fieldOf v (DEC_CFG_ORD c))
    (hord' : fieldOf v (DEC_CFG_ORD c) ≤ 5) (hused : s.decUsed c = false) :
    decCfgWrite c v s = (s.wr (DEC_CFG c) (v &&& 0x1FF7F07#32)).setDec c { s.dec c with old := some (s.now, s.decCfg c) } :=
  if_pos ⟨hosr, hosr', hl, hl', hord, hord', by rw [hused]; rfl⟩
theorem decCfgWrite_refused {v : Word}
    (h : fieldOf v (DEC_CFG_OSR c) < 8 ∨ 256 < fieldOf v (DEC_CFG_OSR c) ∨ s.decUsed c = true) :
    decCfgWrite c v s = s.put (DEC_ST_REFUSED c) 1 := by
  refine if_neg fun ⟨hosr, hosr', _, _, _, _, hused⟩ => ?_
  rcases h with h | h | h
  · omega
  · omega
  · rw [h] at hused; exact Bool.false_ne_true hused
/-- Until its output the setting in force is the one before. -/
theorem State.decCfg_of_old {t : State} {x : Nat} {v : Word} (h : (t.dec c).old = some (x, v)) : t.decCfg c = v := by
  unfold State.decCfg; rw [h]

theorem decSettled_due (hvalid : s.get (DEC_ST_VALID c) = 0) (hold : (s.dec c).old = none) :
    decSettled c s = ({ s with now := max s.now ((s.dec c).settleAt + s.settleTime c) } : State).put (DEC_ST_VALID c) 1 := by
  unfold decSettled
  rw [State.bit_of_get_eq_zero hvalid, hold]
  exact if_neg Bool.false_ne_true

theorem busWinWrite_taken {g : Nat} {v : Word} (h : fieldOf v (BUS_WIN_LO g) < fieldOf v (BUS_WIN_HI g)) :
    ∃ d, busWinWrite g v s = (s.setDec (32 + g) d).wr (BUS_WIN g) v := ⟨_, if_pos h⟩
theorem busWinWrite_refused {g : Nat} {v : Word} (h : fieldOf v (BUS_WIN_HI g) ≤ fieldOf v (BUS_WIN_LO g)) :
    busWinWrite g v s = s.put (DEC_ST_REFUSED (32 + g)) 1 := if_neg (Nat.not_lt.mpr h)
end

/-- Settles O46: an output by its inputs, by what it publishes and by its overloads; the settings by what a write leaves. -/
theorem decimatedRows : Obligations.DecimatedRows := by
  unfold Obligations.DecimatedRows
  intro s c iH iL each rH rL v hup
  have hc := c.isLt
  have houtput : exec (.decimatedOutput c iH iL each rH rL) s =
      .next (s.effect (decimatedOutput c (heldValues iH each rH) (heldValues iL each rL))) := live_next hup _
  have hcfg : exec (.decCfgWrite c v) s = .next (s.effect (decCfgWrite c v)) := live_next hup _
  have hsettled : exec (.decSettled c) s = .next (s.effect (decSettled c)) := live_next hup _
  have hwin (g : Fin 4) : exec (.busWinWrite g v) s = .next (s.effect (busWinWrite g v)) := live_next hup _
  refine ⟨fun hshed => ?_, fun u hu hshed => ⟨_, houtput, ?_⟩, fun hosr hosr' hl hl' hord hord' hused => ⟨_, hcfg, ?_⟩,
    fun h => ⟨_, hcfg, ?_⟩, fun hvalid hold => ⟨_, hsettled, ?_⟩, fun g h => ⟨_, hwin g, ?_⟩, fun g h => ⟨_, hwin g, ?_⟩⟩
  · exact houtput.trans (congrArg Host.Outcome.next (State.effect_of_eq (if_pos hshed)))
  · have heq : decimatedOutput c (heldValues iH each rH) (heldValues iL each rL) s =
        u.decimated c (heldValues iH each rH) (heldValues iL each rL) := by
      rw [hu]; exact if_neg (by rw [hshed]; exact Bool.false_ne_true)
    have hnow : u.now = s.decTime c := by rw [hu]; exact State.now_eq_of_clock State.decApply_clock
    have hcount : u.get (DEC_OVRCNT_V c) = s.get (DEC_OVRCNT_V c) := by rw [hu]; exact State.get_decApply_OVRCNT hc
    obtain ⟨hat, hins, houts⟩ := State.decimated_takes (s := u) (c := c) (iH := heldValues iH each rH) (iL := heldValues iL each rL)
    obtain ⟨hcnt, hovrh⟩ := State.decimated_counts (s := u) (iH := heldValues iH each rH) (iL := heldValues iL each rL) hc
    rw [State.effect_now, State.effect_dec, State.effect_get, State.effect_get, State.effect_get, State.effect_get,
      State.effect_rd, heq, houts]
    refine ⟨(State.now_eq_of_clock State.decimated_clock).trans hnow, hat.trans (congrArg some hnow), hins, ?_,
      State.decimated_publishes hc, fun hvalid a hst hovr => ?_, ?_, hovrh⟩
    · rw [hins]; rfl
    · rw [State.effect_rd, heq, State.decimated_held hvalid, State.setDec_rd, State.noteOverload_rd _ _ hst hovr]
    · rw [hcnt, hcount]
      simp only [State.overH, State.overL, Bool.or_eq_true, Bool.and_eq_true, decide_eq_true_eq]
  · have heq := decCfgWrite_taken hosr hosr' hl hl' hord hord' hused
    have hdec : ((decCfgWrite c v s).dec c).old = some (s.now, s.decCfg c) := by rw [heq, State.dec_setDec_same]
    have hforce : (s.effect (decCfgWrite c v)).decCfg c = s.decCfg c := State.decCfg_of_old hdec
    refine ⟨?_, congrArg (fieldOf · (DEC_CFG_ORD c)) hforce, congrArg (fieldOf · (DEC_CFG_OSR c)) hforce,
      congrArg (fieldOf · (DEC_CFG_L c)) hforce, ?_, fun a ha => ?_⟩
    · rw [State.effect_rd, heq, State.setDec_rd]; exact s.rd_wr_same ..
    · rw [State.effect_dec, hdec]; rfl
    · rw [State.effect_rd, heq, State.setDec_rd]; exact s.rd_wr_ne _ ha
  · rw [State.effect_get, decCfgWrite_refused h]
    refine ⟨s.get_put_word 1 (by decide) (by decide), fun a ha => ?_⟩
    rw [State.effect_rd, decCfgWrite_refused h]
    exact State.rd_put_word 1 (by decide) ha
  · rw [State.effect_get, State.effect_now, decSettled_due hvalid hold, State.put_now]
    refine ⟨State.get_put_word _ 1 (by decide) (by decide), le_max_left .., le_max_right .., fun a ha => ?_⟩
    rw [State.effect_rd, decSettled_due hvalid hold]
    exact State.rd_put_word 1 (by decide) ha
  · obtain ⟨d, heq⟩ := busWinWrite_taken (s := s) h
    refine ⟨?_, fun a ha => ?_⟩
    · rw [State.effect_rd, heq]; exact State.rd_wr_same ..
    · rw [State.effect_rd, heq]; exact State.rd_wr_ne _ _ ha
  · rw [State.effect_get, busWinWrite_refused h]
    refine ⟨s.get_put_word 1 (by decide) (by decide), fun a ha => ?_⟩
    rw [State.effect_rd, busWinWrite_refused h]
    exact State.rd_put_word 1 (by decide) ha

end Sys2Proof.Machine
end

section
/-! PROOFS. What raising a message, with its reaction, leaves of the registers of a slot (R355 to R362): every field but those
of the words that its reactions write. One lemma per operation, in the order of the model. -/
namespace Sys2Proof.Machine

/-- The offsets of the words of a slot that reactions write, but for AXn_PR_ST: AXn_STATE, AXn_SWAPST, AXn_PITQ_LVL,
AXn_PITQ_CTRL, AXn_PITST, AXn_PITSTART, AXn_SPDISC, AXn_SPB_LVL, AXn_SO_BACKLOG, AXn_CC_ST and AXn_BRK_ST. -/
def reactionOffsets : List Nat := [0x8, 0x18, 0x120, 0x124, 0x128, 0x12C, 0x144, 0x170, 0x17C, 0x278, 0x2AC]

/-- A field of one word of a slot that no reaction writes. Of AXn_PR_ST, at offset 0x340, these are LOWSAL, POLFAIL, SEARCHFAIL
and STALLED: a stop of the estimator clears the fields above them (R88). -/
def Fld.Unreacted (g : Fld) : Prop :=
  g.hi < 32 ∧ ∃ (n : Fin 16) (off : Nat), g.a = 0x080000 + 0x1000 * n + off ∧ off < 0x1000 ∧ off ∉ reactionOffsets ∧
    (off = 0x340 → g.hi < 4)
/-- The field `f` of one word lies in another word than `g`, or above it. -/
def Fld.ClearOf (f g : Fld) : Prop := f.hi < 32 ∧ f.lo ≤ f.hi ∧ (g.a ≠ f.a ∨ g.hi < f.lo)

theorem State.get_put_clear {f g : Fld} (s : State) (v : Nat) (hg : g.hi < 32) (h : f.ClearOf g) :
    (s.put f v).get g = s.get g := by
  obtain ⟨hhi, hlo, hclear⟩ := h
  by_cases ha : g.a = f.a
  · exact s.get_put_disjoint v hhi hg ha hlo (Or.inl (hclear.resolve_left (not_not_intro ha)))
  · exact s.get_put_ne v hhi hg ha
theorem State.each_get {α : Type} {g : Fld} (s : State) (l : List α) {f : α → State → State}
    (h : ∀ x t, (f x t).get g = t.get g) : (s.each l f).get g = s.get g := State.each_same l (·.get g) h s

section
variable {g : Fld} (hg : g.Unreacted)
include hg

theorem Fld.Unreacted.lt : g.a < 0x090000 := by
  obtain ⟨-, n, off, ha, hoff, -⟩ := hg
  have := n.isLt
  omega
theorem Fld.Unreacted.slot_clear {m off hi lo : Nat}
    (h : hi < 32 ∧ lo ≤ hi ∧ (off ∈ reactionOffsets ∨ off = 0x340 ∧ 4 ≤ lo)) :
    Fld.ClearOf ⟨0x080000 + 0x1000 * m + off, hi, lo⟩ g := by
  obtain ⟨hhi, hlo, hwrites⟩ := h
  obtain ⟨-, n, off', ha, hoff', hspared, hflags⟩ := hg
  have hoff : off < 0x1000 := by
    have hlist : ∀ o ∈ reactionOffsets, o < 0x1000 := by decide
    rcases hwrites with h | ⟨rfl, -⟩
    · exact hlist off h
    · decide
  refine ⟨hhi, hlo, ?_⟩
  by_cases hsame : off' = off
  · subst hsame
    obtain ⟨hst, hlo4⟩ := hwrites.resolve_left hspared
    exact Or.inr (lt_of_lt_of_le (hflags hst) hlo4)
  · left; dsimp only; omega
/-- The blocks of the dies and of the engines lie behind those of the slots. -/
theorem Fld.Unreacted.above_clear {a hi lo : Nat} (h : hi < 32 ∧ lo ≤ hi) (ha : 0x090000 ≤ a) :
    Fld.ClearOf ⟨a, hi, lo⟩ g :=
  ⟨h.1, h.2, Or.inl (Nat.ne_of_lt (lt_of_lt_of_le hg.lt ha))⟩
theorem Fld.Unreacted.indexed_clear {base stride i off hi lo : Nat} (h : hi < 32 ∧ lo ≤ hi ∧ 0x090000 ≤ base) :
    Fld.ClearOf ⟨base + stride * i + off, hi, lo⟩ g :=
  hg.above_clear ⟨h.1, h.2.1⟩ (by omega)

variable (s : State)

theorem State.put_unreacted {f : Fld} (v : Nat) (h : f.ClearOf g) : (s.put f v).get g = s.get g := s.get_put_clear v hg.1 h
theorem State.puti_unreacted {f : Fld} (v : Int) (h : f.ClearOf g) : (s.puti f v).get g = s.get g := s.get_put_clear _ hg.1 h
theorem State.inc_unreacted {f : Fld} (k : Nat) (h : f.ClearOf g) : (s.inc f k).get g = s.get g := s.get_put_clear _ hg.1 h
theorem State.get_of_rd_unreacted {t : State} (h : t.rd g.a = s.rd g.a) : t.get g = s.get g :=
  State.get_of_same_word (decide_eq_true hg.1) h

/-! ### The parts of a slot (Machine/Slots.lean) -/

theorem State.force_unreacted (c mode : Nat) (low soft : Bool) : (s.force c mode low soft).get g = s.get g := by
  have hlt := hg.lt
  refine s.get_of_rd_unreacted hg (State.force_rd ?_ mode low soft)
  simp only [chanWords, List.mem_cons, List.not_mem_nil, or_false, PWM_STAT, PWM_CARRY, CMP_SST]
  omega
theorem State.safeState_unreacted (c : Nat) : (s.safeState c).get g = s.get g := s.force_unreacted hg ..
theorem State.brakeOff_unreacted (n mode : Nat) : (s.brakeOff n mode).get g = s.get g := by
  have hforce : (s.each (s.brakeChans n) (fun c t => t.force c mode false)).get g = s.get g :=
    s.each_get _ (fun c t => t.force_unreacted hg ..)
  unfold brakeOff
  split
  · rfl
  · simp (disch := with_unfolding_all exact id (hg.slot_clear (by decide))) only [put_unreacted hg, hforce]
theorem State.swapAbandon_unreacted (n result : Nat) : (s.swapAbandon n result).get g = s.get g := by
  have hengine (t : State) (e v hi lo : Nat) (h : hi < 32 ∧ lo ≤ hi) : (t.put ⟨KE_STATUS e, hi, lo⟩ v).get g = t.get g :=
    t.put_unreacted hg v (hg.indexed_clear ⟨h.1, h.2, by decide⟩)
  have hpool (t : State) (e v : Nat) : (t.put (KE_STATUS_POOL e) v).get g = t.get g := hengine t e v _ _ (by decide)
  have hrun (t : State) (e : Nat) : (t.put (KE_STATUS_RUN e) 0).get g = t.get g := hengine t e 0 _ _ (by decide)
  have hrole (t : State) (e : Nat) : (t.put (KE_STATUS_ROLE e) 0).get g = t.get g := hengine t e 0 _ _ (by decide)
  have hslot (t : State) (e : Nat) : (t.put (KE_STATUS_SLOT e) 0).get g = t.get g := hengine t e 0 _ _ (by decide)
  simp (disch := with_unfolding_all exact id (hg.slot_clear (by decide))) only
    [swapAbandon, swapAnswer_get, setSwap_get, hpool, hrun, hrole, hslot, put_unreacted hg, ite_get, ite_self]
theorem State.stopRoutes_unreacted (n : Nat) : (s.stopRoutes n).get g = s.get g :=
  s.get_of_rd_unreacted hg (State.stopRoutes_rd (fun e => by have := hg.lt; unfold KE_STATUS; omega) n)
theorem State.keepHead_unreacted (n : Nat) : (s.keepHead n).get g = s.get g := by
  simp (disch := with_unfolding_all exact id (hg.slot_clear (by decide))) only [keepHead, put_unreacted hg, ite_get, ite_self]
theorem State.clearPitst_unreacted (n : Nat) : (s.clearPitst n).get g = s.get g := by
  simp (disch := with_unfolding_all exact id (hg.slot_clear (by decide))) only [clearPitst, put_unreacted hg]
theorem State.abandonPitch_unreacted (n : Nat) : (s.abandonPitch n).get g = s.get g := by
  unfold abandonPitch
  split
  · rfl
  · rw [interruptPitch_get, clearPitst_unreacted hg, modGen_get]
theorem State.sourceOff_unreacted (n : Nat) : (s.sourceOff n).get g = s.get g := by
  unfold sourceOff
  dsimp only
  repeat' split
  all_goals simp (disch := with_unfolding_all exact id (hg.slot_clear (by decide))) only
    [put_unreacted hg, inc_unreacted hg, clearPitst_unreacted hg, abandonPitch_unreacted hg, setGen_get, modGen_get]
theorem State.stopGen_unreacted (n : Nat) : (s.stopGen n).get g = s.get g := by
  simp (disch := with_unfolding_all exact id (hg.slot_clear (by decide))) only
    [stopGen, put_unreacted hg, modGen_get, abandonPitch_unreacted hg, ite_get, ite_self]
theorem State.cutSteps_unreacted (n : Nat) (drop : Bool) : (s.cutSteps n drop).get g = s.get g := by
  have hemit (k : Nat) : (s.emitSteps n k).get g = s.get g :=
    (State.puti_unreacted hg _ _ (hg.indexed_clear (by decide))).trans (s.modGen_get ..)
  simp (disch := with_unfolding_all exact id (hg.slot_clear (by decide))) only
    [cutSteps, puti_unreacted hg, setGen_get, hemit, ite_get, ite_self]
theorem State.holdSteps_unreacted (o : Nat) : (s.put (SOG_STAT_HELD o) 1).get g = s.get g :=
  s.put_unreacted hg 1 (hg.indexed_clear (by decide))
theorem State.stopSteps_unreacted (n : Nat) (held : Bool) : (s.stopSteps n held).get g = s.get g := by
  simp only [stopSteps, holdSteps_unreacted hg, cutSteps_unreacted hg, ite_get, ite_self]
theorem State.prStop_unreacted (n : Nat) : (s.prStop n).get g = s.get g := by
  simp (disch := with_unfolding_all exact id (hg.slot_clear (by decide))) only [prStop, setPr_get, put_unreacted hg]
theorem State.toTripped_unreacted (n reason : Nat) (how : SafeHow) (held : Bool) :
    (s.toTripped n reason how held).get g = s.get g := by
  unfold toTripped
  split
  · extract_lets s1 s2 s3 s4 s5 s6 last s7 s8
    have harmed : s1.get g = s.get g :=
      s.each_get _ (fun c t => by simp only [noteArmed, modChan_get, ite_get, ite_self])
    have hstate : s2.get g = s1.get g := by
      simp (disch := with_unfolding_all exact id (hg.slot_clear (by decide))) only [s2, put_unreacted hg]
    have hchans : s3.get g = s2.get g := s2.each_get _ (fun c t => by
      cases how with
      | safe => exact t.safeState_unreacted hg c
      | coast => exact t.force_unreacted hg ..
      | brake => dsimp only; rw [ite_get, force_unreacted hg, force_unreacted hg, ite_self])
    have hstop : s6.get g = s3.get g := by
      simp only [s6, s5, s4, swapAbandon_unreacted hg, stopGen_unreacted hg, stopSteps_unreacted hg, brakeOff_unreacted hg,
        ite_get, ite_self]
    have hend : s8.get g = s6.get g := by
      simp (disch := with_unfolding_all exact id (hg.slot_clear (by decide))) only
        [s8, s7, put_unreacted hg, prStop_unreacted hg, modCc_get, stopRoutes_unreacted hg]
    rw [interruptWait_get, hend, hstop, hchans, hstate, harmed]
  · simp (disch := with_unfolding_all exact id (hg.slot_clear (by decide))) only [put_unreacted hg, ite_get, ite_self]
theorem State.toRappel_unreacted (n reason : Nat) (de : Bool) : (s.toRappel n reason de).get g = s.get g := by
  simp (disch := with_unfolding_all exact id (hg.slot_clear (by decide))) only [toRappel, interruptWait_get, put_unreacted hg,
    modGen_get, sourceOff_unreacted hg, cutSteps_unreacted hg, ite_get, ite_self]

/-! ### Messages and reactions (Machine/Collector.lean) -/

theorem State.startSave_unreacted (sag s4 : Bool) : (s.startSave sag s4).get g = s.get g := by
  have hbly (x : Belay) : ({ s with bly := x } : State).get g = s.get g := rfl
  simp (disch := exact hg.above_clear (by decide) (by decide)) only [startSave, put_unreacted hg, hbly, ite_get, ite_self]
theorem State.reactS3_unreacted (gs rs : List Nat) (reason : Nat) (held : Bool) :
    (s.reactS3 gs rs reason held).get g = s.get g :=
  s.each_get _ (fun n t => by simp only [ite_get, toTripped_unreacted hg, brakeOff_unreacted hg, ite_self])
theorem State.reactS4_unreacted : s.reactS4.get g = s.get g := by
  have hheld (t : State) : (t.each slots16 (fun n u =>
      if u.isRemote n && u.slotState n == stTripped then u.put (SOG_STAT_HELD (u.get (AX_BIND_SOUT n))) 1 else u)).get g =
      t.get g :=
    t.each_get _ (fun n u => by rw [ite_get, holdSteps_unreacted hg, ite_self])
  have hstreams (t : State) (f : Nat → Stream → Stream) : (t.each streams32 (fun k u => u.modStream k (f k))).get g = t.get g :=
    t.each_get _ (fun k u => u.modStream_get ..)
  have hseen (t : State) : (t.put FLT_ST_S4SEEN 1).get g = t.get g :=
    t.put_unreacted hg 1 (hg.above_clear (by decide) (by decide))
  have hdead (t : State) : t.killHandover.get g = t.get g := rfl
  have hcut (t : State) (p : Nat → Bool) : (t.interruptSlot p 4).get g = t.get g :=
    ((StreamsOnly.refl t).interruptSlot p 4).get g
  simp only [reactS4, hstreams, hcut, hheld, reactS3_unreacted hg, hseen, hdead, startSave_unreacted hg]
theorem State.react_unreacted (src sev : Nat) : (s.react src sev).get g = s.get g := by
  have hrappel : (s.each (s.affectedSlots src) (fun n t => (t.keepHead n).toRappel n 2 false)).get g = s.get g :=
    s.each_get _ (fun n t => by rw [toRappel_unreacted hg, keepHead_unreacted hg])
  simp only [react, hrappel, reactS3_unreacted hg, reactS4_unreacted hg, ite_get, ite_self]
theorem State.notifyHost_unreacted (m : Msg) (h : Nat) : (s.notifyHost m h).get g = s.get g := by
  have hfault (t : State) (base i v hi lo : Nat) (hw : hi < 32 ∧ lo ≤ hi ∧ 0x090000 ≤ base) :
      (t.put ⟨base + 0x4 * i, hi, lo⟩ v).get g = t.get g := t.put_unreacted hg v (hg.indexed_clear (off := 0) hw)
  have hlevel (t : State) (v : Nat) : (t.put (FLT_NST_NLVL h) v).get g = t.get g := hfault t _ h v _ _ (by decide)
  have hlost (t : State) : (t.put (FLT_NST_LOST h) 1).get g = t.get g := hfault t _ h 1 _ _ (by decide)
  have hcount (t : State) : (t.inc (FLT_NLOST_V h)).get g = t.get g := hfault t _ h _ _ _ (by decide)
  simp only [notifyHost, hlevel, hlost, hcount, modHost_get, ite_get, ite_self]
theorem State.traceTrigger_unreacted (e time : Nat) : (s.traceTrigger e time).get g = s.get g := by
  have hwr64 (t : State) : (t.wr64 (KE_TRTIME e) time).get g = t.get g :=
    t.get_of_rd_unreacted hg (t.rd_wr64_ne _ (by have := hg.lt; unfold KE_TRTIME; omega) (by have := hg.lt; unfold KE_TRTIME; omega))
  simp (disch := with_unfolding_all exact id (hg.indexed_clear (by decide))) only
    [traceTrigger, modEngine_get, hwr64, put_unreacted hg, ite_get, ite_self]
theorem State.raise_unreacted (src kind detail addr time : Nat) (loc : Bool) (sevIs : Option Nat) :
    (s.raise src kind detail addr time loc sevIs).get g = s.get g := by
  unfold raise
  extract_lets sev m key last s1 s2 coll s3 s4 s5
  have hcount : s1.get g = s.get g := (State.put_unreacted hg _ 1 (hg.indexed_clear (off := 0) (by decide))).trans
    ((State.inc_unreacted hg _ 1 (hg.indexed_clear (off := 0) (by decide))).trans
      (s.inc_unreacted hg 1 (hg.above_clear (by decide) (by decide))))
  have hnotify (t : State) : (t.each hosts8 (fun h u => if u.notified src h then u.notifyHost m h else u)).get g = t.get g :=
    t.each_get _ (fun h u => by rw [ite_get, notifyHost_unreacted hg, ite_self])
  have hcoll (t : State) (x : Collector) : ({ t with coll := x } : State).get g = t.get g := rfl
  have htaken : s4.get g = s1.get g := by
    simp (disch := exact hg.above_clear (by decide) (by decide)) only
      [s4, s3, s2, inc_unreacted hg, put_unreacted hg, hcoll, hnotify, ite_get, ite_self]
  have htrace : s5.get g = s4.get g := by
    unfold s5; split
    · exact s4.each_get _ (fun e t => by rw [ite_get, traceTrigger_unreacted hg, ite_self])
    · rfl
  have hsignal (t : State) (c : Bool) : (t.hkcSignal c time).get g = t.get g := by
    unfold hkcSignal; rw [ite_get]; exact ite_self _
  rw [react_unreacted hg, hsignal, htrace, htaken, hcount]
end

end Sys2Proof.Machine
end

section
/-! PROOFS. What the shared operations of the estimator (Machine/Prusik.lean) do to its record and its registers (R92, R107, R110):
the layer under the statement O24. -/
namespace Sys2Proof.Machine

section
variable {s : State} {n : Nat}

/-! ### The word AXn_PR_ST (R107) -/

theorem State.get_put_EMODE (t : State) (x : Nat) : (t.put (AX_PR_ST_EMODE n) x).get (AX_PR_ST_EMODE n) = x % 16 :=
  t.get_put_word x (by decide) (by decide)
theorem State.get_put_EMODE_VALID (t : State) (x : Nat) :
    (t.put (AX_PR_ST_EMODE n) x).get (AX_PR_ST_VALID n) = t.get (AX_PR_ST_VALID n) := t.get_put_field x rfl
theorem State.get_flag_VALID_EMODE (t : State) (b : Bool) :
    (t.flag (AX_PR_ST_VALID n) b).get (AX_PR_ST_EMODE n) = t.get (AX_PR_ST_EMODE n) := t.get_flag_field b rfl
/-- Of two states a field write makes states that agree on every word on which they agree. -/
theorem State.put_rd_congr {t : State} {a hi lo b : Nat} (v : Nat) (hw : hi < 32) (ha : t.rd a = s.rd a) (hb : t.rd b = s.rd b) :
    (t.put ⟨a, hi, lo⟩ v).rd b = (s.put ⟨a, hi, lo⟩ v).rd b := by
  by_cases h : b = a
  · rw [State.rd_put_same (f := ⟨a, hi, lo⟩) t v h hw, State.rd_put_same (f := ⟨a, hi, lo⟩) s v h hw, ha]
  · rw [State.rd_put_word v hw h, State.rd_put_word v hw h, hb]

/-! ### The registers of the estimate (R107) -/

/-- It writes these fields and draws a free value. -/
theorem State.prRegisters_eq : ∃ (th la emf : Nat) (vel pos : Int), s.prRegisters n =
    ((((s.put (AX_PR_ANG_THETA n) th).put (AX_PR_ANG_LOADANG n) la).put (AX_PR_EMF_V n) emf).draw.puti
      (AX_PR_VEL_V n) vel).puti (AX_PR_POS_V n) pos := ⟨_, _, _, _, _, rfl⟩
/-- Of the slot's words it writes those at 0x344 to 0x35C. -/
theorem State.prRegisters_rd {off : Nat} (h : decide (off < 0x344 ∨ 0x360 ≤ off) = true) :
    (s.prRegisters n).rd (0x080000 + 0x1000 * n + off) = s.rd (0x080000 + 0x1000 * n + off) := by
  have h := of_decide_eq_true h
  have hput (t : State) {i : Nat} (hi lo v : Nat) (hi1 : 0x344 ≤ i) (hi2 : i < 0x35C) :
      (t.put ⟨0x080000 + 0x1000 * n + i, hi, lo⟩ v).rd (0x080000 + 0x1000 * n + off) =
        t.rd (0x080000 + 0x1000 * n + off) :=
    t.rd_put_ne v (by dsimp only; omega) (by dsimp only; omega)
  obtain ⟨th, la, emf, vel, pos, heq⟩ := State.prRegisters_eq (s := s) (n := n)
  rw [heq]
  exact (hput _ _ _ _ (by decide) (by decide)).trans ((hput _ _ _ _ (by decide) (by decide)).trans ((State.draw_rd ..).trans
    ((hput _ _ _ _ (by decide) (by decide)).trans ((hput _ _ _ _ (by decide) (by decide)).trans
      (hput _ _ _ _ (by decide) (by decide))))))
theorem State.prRegisters_get {off hi lo : Nat} (h : decide (hi < 32 ∧ (off < 0x344 ∨ 0x360 ≤ off)) = true) :
    (s.prRegisters n).get ⟨0x080000 + 0x1000 * n + off, hi, lo⟩ = s.get ⟨0x080000 + 0x1000 * n + off, hi, lo⟩ :=
  have h := of_decide_eq_true h
  State.get_of_rd h.1 (State.prRegisters_rd (decide_eq_true h.2))
theorem State.prRegisters_pr (m : Nat) : (s.prRegisters n).pr m = s.pr m := by
  obtain ⟨th, la, emf, vel, pos, heq⟩ := State.prRegisters_eq (s := s) (n := n)
  rw [heq, State.puti_pr, State.puti_pr, State.draw_pr, State.put_pr, State.put_pr, State.put_pr]
theorem State.prRegisters_coll : (s.prRegisters n).coll = s.coll := by
  obtain ⟨th, la, emf, vel, pos, heq⟩ := State.prRegisters_eq (s := s) (n := n)
  rw [heq, State.puti_coll, State.puti_coll, State.draw_coll, State.put_coll, State.put_coll, State.put_coll]
theorem State.prRegisters_now : (s.prRegisters n).now = s.now := by
  obtain ⟨th, la, emf, vel, pos, heq⟩ := State.prRegisters_eq (s := s) (n := n)
  rw [heq, State.puti_now, State.puti_now, State.draw_now, State.put_now, State.put_now, State.put_now]

/-! ### The estimate is placed (R92) -/

/-- `t` has the register words of `s`, but perhaps those of AXn_PR_POS. -/
def State.SameButPos (n : Nat) (s t : State) : Prop := ∀ b, b ≠ AX_PR_POS n → b ≠ AX_PR_POS n + 4 → t.rd b = s.rd b

theorem State.SameButPos.slot_rd {t : State} (h : SameButPos n s t) {off : Nat}
    (hoff : decide (off ≠ 0x358 ∧ off ≠ 0x35C) = true) :
    t.rd (0x080000 + 0x1000 * n + off) = s.rd (0x080000 + 0x1000 * n + off) := by
  obtain ⟨hlo, hhi⟩ := of_decide_eq_true hoff
  exact h _ (slotWord_ne hlo) (slotWord_ne (j := 0x35C) hhi)
theorem State.SameButPos.slot_get {t : State} (h : SameButPos n s t) {off hi lo : Nat}
    (hoff : decide (hi < 32 ∧ off ≠ 0x358 ∧ off ≠ 0x35C) = true) :
    t.get ⟨0x080000 + 0x1000 * n + off, hi, lo⟩ = s.get ⟨0x080000 + 0x1000 * n + off, hi, lo⟩ :=
  have hoff := of_decide_eq_true hoff
  State.get_of_rd hoff.1 (h.slot_rd (decide_eq_true hoff.2))

theorem State.prPlace_sameButPos : SameButPos n s (s.prPlace n) := fun _ hlo hhi => State.rd_put_ne _ _ hlo hhi
theorem State.prPlace_pr : ∃ p, (s.prPlace n).pr n = { s.pr n with pos := p } := by
  unfold State.prPlace
  rw [State.puti_pr, State.pr_modPr_same]
  exact ⟨_, rfl⟩
theorem State.prPlace_now : (s.prPlace n).now = s.now := State.puti_now ..

/-! ### The conditions of R110 -/

/-- It sets LOWSAL, MODEL, INJSAT, EMFLOW and OVERSPD; MODEL clears with a small residual. -/
theorem State.prConditions_eq : ∃ lowsal injsat emflow fast : Bool, (s.prConditions n).1 =
    ((((s.flag (AX_PR_ST_LOWSAL n) lowsal).flag (AX_PR_ST_MODEL n) (s.bit (AX_PR_ST_MODEL n) && (s.pr n).bad != 0)).flag
      (AX_PR_ST_INJSAT n) injsat).flag (AX_PR_ST_EMFLOW n) emflow).flag (AX_PR_ST_OVERSPD n) fast := by
  unfold State.prConditions
  exact ⟨_, _, _, _, rfl⟩
theorem State.prConditions_rd {b : Nat} (h : b ≠ AX_PR_ST n) : (s.prConditions n).1.rd b = s.rd b := by
  have hflag (t : State) (c : Bool) {i : Nat} (hw : i < 32) : (t.flag ⟨AX_PR_ST n, i, i⟩ c).rd b = t.rd b :=
    State.rd_put_word _ hw h
  obtain ⟨lowsal, injsat, emflow, fast, heq⟩ := State.prConditions_eq (s := s) (n := n)
  rw [heq]
  exact (hflag _ _ (by decide)).trans ((hflag _ _ (by decide)).trans ((hflag _ _ (by decide)).trans
    ((hflag _ _ (by decide)).trans (hflag _ _ (by decide)))))
theorem State.prConditions_pr (m : Nat) : (s.prConditions n).1.pr m = s.pr m := by
  obtain ⟨lowsal, injsat, emflow, fast, heq⟩ := State.prConditions_eq (s := s) (n := n)
  rw [heq, State.flag_pr, State.flag_pr, State.flag_pr, State.flag_pr, State.flag_pr]
theorem State.prConditions_now : (s.prConditions n).1.now = s.now := by
  obtain ⟨lowsal, injsat, emflow, fast, heq⟩ := State.prConditions_eq (s := s) (n := n)
  rw [heq, State.flag_now, State.flag_now, State.flag_now, State.flag_now, State.flag_now]
/-- The fields of AXn_PR_ST above those that it sets. -/
theorem State.get_prConditions {hi lo : Nat} (h : decide (hi < 32 ∧ 8 ≤ lo) = true) :
    (s.prConditions n).1.get ⟨AX_PR_ST n, hi, lo⟩ = s.get ⟨AX_PR_ST n, hi, lo⟩ := by
  obtain ⟨hhi, hlo⟩ := of_decide_eq_true h
  have hflag (t : State) (c : Bool) {i : Nat} (hi8 : i < 8) :
      (t.flag ⟨AX_PR_ST n, i, i⟩ c).get ⟨AX_PR_ST n, hi, lo⟩ = t.get ⟨AX_PR_ST n, hi, lo⟩ :=
    t.get_flag_field c (decide_eq_true ⟨by omega, hhi, le_rfl, Or.inr (by omega)⟩)
  obtain ⟨lowsal, injsat, emflow, fast, heq⟩ := State.prConditions_eq (s := s) (n := n)
  rw [heq]
  exact (hflag _ _ (by decide)).trans ((hflag _ _ (by decide)).trans ((hflag _ _ (by decide)).trans
    ((hflag _ _ (by decide)).trans (hflag _ _ (by decide)))))
theorem State.get_prConditions_MODEL (h : s.get (AX_PR_ST_MODEL n) = 0) : (s.prConditions n).1.get (AX_PR_ST_MODEL n) = 0 := by
  have hflag (t : State) (c : Bool) {i : Nat} (h : fieldsApart i i 6 6 = true) :
      (t.flag ⟨AX_PR_ST n, i, i⟩ c).get (AX_PR_ST_MODEL n) = t.get (AX_PR_ST_MODEL n) := t.get_flag_field c h
  obtain ⟨lowsal, injsat, emflow, fast, heq⟩ := State.prConditions_eq (s := s) (n := n)
  rw [heq, State.bit_of_get_eq_zero h]
  exact (hflag _ _ rfl).trans ((hflag _ _ rfl).trans ((hflag _ _ rfl).trans (State.get_flag_word _ _ (by decide))))

/-! ### VALID (R110) -/

/-- After an emergency swap VALID still waits for its run in EMF mode (R112). -/
def State.recovering (s : State) (n : Nat) : Bool :=
  (s.pr n).recover && !(match (s.pr n).emfAt with
    | some t => decide (t + ratCeil (quot s.drawn 3000000000 (s.bwEff n)) ≤ s.now)
    | none => false)
/-- The estimate is valid: its search has completed and no condition of R110 stands against it. -/
def State.estimateOk (s : State) (n : Nat) : Bool :=
  let c := s.prConditions n
  let m := s.get (AX_PR_ST_EMODE n)
  (c.1.pr n).searched && !(c.1.pr n).blocked && (c.1.pr n).forced.isNone && m != 7 && m != 0 && !c.2 &&
    !c.1.bit (AX_PR_ST_MODEL n) && !c.1.recovering n

/-- An estimate that was not valid raises nothing when it is judged. -/
theorem State.prValid_unraised (hm : s.get (AX_PR_ST_EMODE n) = 3 ∨ s.get (AX_PR_ST_EMODE n) = 7)
    (hvalid : s.get (AX_PR_ST_VALID n) = 0) :
    s.prValid n = ((s.prConditions n).1.draw.setPr n
      { s.pr n with recover := (s.prConditions n).1.recovering n }).flag (AX_PR_ST_VALID n) (s.estimateOk n) := by
  have hkeep : (s.prConditions n).1.get (AX_PR_ST_VALID n) = s.get (AX_PR_ST_VALID n) := State.get_prConditions rfl
  have hwas : (s.prConditions n).1.bit (AX_PR_ST_VALID n) = false := State.bit_of_get_eq_zero (hkeep.trans hvalid)
  rw [← State.prConditions_pr (s := s) (n := n) n]
  unfold State.prValid State.estimateOk
  rw [if_neg (by omega)]
  generalize s.prConditions n = c at *
  obtain ⟨t, inval⟩ := c
  dsimp only at hwas ⊢
  rw [hwas, Bool.false_and, if_neg Bool.false_ne_true]
  rfl

theorem State.estimateOk_openLoop (hm : s.get (AX_PR_ST_EMODE n) = 7) : s.estimateOk n = false := by
  simp [estimateOk, hm]
theorem State.estimateOk_of_searched (hm : s.get (AX_PR_ST_EMODE n) = 3) (hsearched : (s.pr n).searched = true)
    (hrecover : (s.pr n).recover = false) (hblocked : (s.pr n).blocked = false) (hforced : (s.pr n).forced = none)
    (hmodel : s.get (AX_PR_ST_MODEL n) = 0) (hcond : (s.prConditions n).2 = false) : s.estimateOk n = true := by
  have hrec : (s.prConditions n).1.recovering n = false := by
    unfold State.recovering; rw [State.prConditions_pr, hrecover]; rfl
  simp only [estimateOk, State.prConditions_pr, hm, hsearched, hblocked, hforced, hcond, hrec,
    State.bit_of_get_eq_zero (State.get_prConditions_MODEL hmodel)]
  rfl

theorem State.prHeld_free (h : ¬ (s.get (AX_CC_ST_HOLDING n) = 1 ∧ s.get (AX_CC_CFG_MODE n) = 0 ∧ s.get (AX_PR_CFG_HINJ n) = 0)) :
    s.prHeld n = s := by
  refine if_neg fun ⟨hholding, _, hmode, hhinj⟩ => h ⟨?_, hmode, ?_⟩
  · have hlt : s.get (AX_CC_ST_HOLDING n) < 2 := s.get_lt _
    have hne : s.get (AX_CC_ST_HOLDING n) ≠ 0 := by simpa [State.bit] using hholding
    omega
  · simpa [State.bit] using hhinj

/-- The end of a search or of forced alignment: the estimate is judged and shown. -/
def State.settleEstimate (s : State) (n : Nat) : State := ((s.prValid n).prHeld n).prRegisters n

theorem State.settleEstimate_spec (hm : s.get (AX_PR_ST_EMODE n) = 3 ∨ s.get (AX_PR_ST_EMODE n) = 7)
    (hvalid : s.get (AX_PR_ST_VALID n) = 0)
    (hfree : ¬ (s.get (AX_CC_ST_HOLDING n) = 1 ∧ s.get (AX_CC_CFG_MODE n) = 0 ∧ s.get (AX_PR_CFG_HINJ n) = 0)) :
    (s.settleEstimate n).get (AX_PR_ST_EMODE n) = s.get (AX_PR_ST_EMODE n) ∧
      (s.settleEstimate n).get (AX_PR_ST_VALID n) = (if s.estimateOk n then 1 else 0) ∧
      (s.settleEstimate n).now = s.now ∧ ∃ r, (s.settleEstimate n).pr n = { s.pr n with recover := r } := by
  have hjudged := State.prValid_unraised hm hvalid
  have hrd {i : Nat} (hi : i ≠ 0x340) : (s.prValid n).rd (0x080000 + 0x1000 * n + i) = s.rd (0x080000 + 0x1000 * n + i) := by
    have hflag (t : State) (b : Bool) : (t.flag (AX_PR_ST_VALID n) b).rd (0x080000 + 0x1000 * n + i) =
        t.rd (0x080000 + 0x1000 * n + i) := State.rd_put_word _ (by decide) (slotWord_ne hi)
    rw [hjudged, hflag, State.setPr_rd, State.draw_rd]
    exact State.prConditions_rd (slotWord_ne hi)
  have hheld : (s.prValid n).prHeld n = s.prValid n := by
    have hholding : (s.prValid n).get (AX_CC_ST_HOLDING n) = s.get (AX_CC_ST_HOLDING n) :=
      State.get_of_rd (by decide) (hrd (by decide))
    have hmode : (s.prValid n).get (AX_CC_CFG_MODE n) = s.get (AX_CC_CFG_MODE n) := State.get_of_rd (by decide) (hrd (by decide))
    have hhinj : (s.prValid n).get (AX_PR_CFG_HINJ n) = s.get (AX_PR_CFG_HINJ n) := State.get_of_rd (by decide) (hrd (by decide))
    exact State.prHeld_free (by rw [hholding, hmode, hhinj]; exact hfree)
  unfold State.settleEstimate
  rw [hheld, State.prRegisters_now, State.prRegisters_pr]
  refine ⟨(State.prRegisters_get rfl).trans ?_, (State.prRegisters_get rfl).trans ?_, ?_, ?_⟩
  · show (s.prValid n).get (AX_PR_ST_EMODE n) = _
    rw [hjudged, State.get_flag_VALID_EMODE, State.setPr_get, State.draw_get]
    exact State.get_prConditions rfl
  · show (s.prValid n).get (AX_PR_ST_VALID n) = _
    rw [hjudged]
    exact State.get_flag_word _ _ (by decide)
  · rw [hjudged, State.flag_now, State.setPr_now, State.draw_now, State.prConditions_now]
  · rw [hjudged, State.flag_pr, State.pr_setPr_same]
    exact ⟨_, rfl⟩

end
end Sys2Proof.Machine
end

section
/-! PROOFS. The statement O24: the search for the rotor angle, its ends and the estimator's event rows (R95 to R101, R110). -/
namespace Sys2Proof.Machine

/-! ### What the conditions of R110 are judged by -/

/-- What R110 sees of the estimator's record at the end of a search. -/
def Prusik.evidence (p : Prusik) : Bool × List (Option Rat) × Rat × Rat × Rat × Tab Word × Bool × Option Nat :=
  (p.inj, p.s, p.eA, p.eB, p.om, p.par, p.blocked, p.forced)

section
variable {s t : State} {n : Fin 16} (hrd : State.SameButPos n s t)
  (hpr : (t.pr n).evidence = (s.pr n).evidence)
include hrd

theorem State.period_of_rd : t.period = s.period := by
  have hn := n.isLt
  refine State.period_congr (State.get_of_same_word rfl (hrd _ ?_ ?_))
  · unfold AX_PR_POS; dsimp only [CT_TICKCFG_TICKUS, CT_TICKCFG]; omega
  · unfold AX_PR_POS; dsimp only [CT_TICKCFG_TICKUS, CT_TICKCFG]; omega
theorem State.instantsPerTick_congr : t.instantsPerTick n = s.instantsPerTick n := by
  have hgrp : t.get (AX_BIND_GRP n) = s.get (AX_BIND_GRP n) := hrd.slot_get rfl
  have hupd : t.bit (AX_CC_CFG_UPD n) = s.bit (AX_CC_CFG_UPD n) := State.bit_of_rd (by decide) (hrd.slot_rd (off := 0x200) rfl)
  have hK (g : Nat) : t.get (PWMG_CFG_K g) = s.get (PWMG_CFG_K g) :=
    State.get_of_rd (by decide) (hrd _ (by unfold PWMG_CFG AX_PR_POS; omega) (by unfold PWMG_CFG AX_PR_POS; omega))
  unfold State.instantsPerTick State.double State.fastCarrier
  rw [hgrp, hupd, hK, State.period_of_rd hrd]
theorem State.fEst_congr : t.fEst n = s.fEst n := by
  simp only [fEst, estDiv, instantsPerTick_congr hrd, period_of_rd hrd]

include hpr

theorem State.prPar_congr {off hi lo : Nat} (h : decide (off ≠ 0x358 ∧ off ≠ 0x35C) = true) :
    t.prPar n ⟨0x080000 + 0x1000 * n + off, hi, lo⟩ = s.prPar n ⟨0x080000 + 0x1000 * n + off, hi, lo⟩ := by
  have hpar : (t.pr n).par = (s.pr n).par := congrArg (·.2.2.2.2.2.1) hpr
  simp only [prPar, hpar, hrd.slot_rd h]
theorem State.prConditions_congr (hmode : t.get (AX_PR_ST_EMODE n) = s.get (AX_PR_ST_EMODE n)) :
    (t.prConditions n).2 = (s.prConditions n).2 := by
  have hp := hpr
  simp only [Prusik.evidence, Prod.mk.injEq] at hp
  obtain ⟨hinj, hs, heA, heB, hom, -, -, -⟩ := hp
  have hke : t.get (AX_CC_KE_V n) = s.get (AX_CC_KE_V n) := hrd.slot_get rfl
  have hsal : t.get (AX_PR_SAL_V n) = s.get (AX_PR_SAL_V n) := hrd.slot_get rfl
  have hflo : t.prPar n (AX_PR_BAND_FLO n) = s.prPar n (AX_PR_BAND_FLO n) := State.prPar_congr hrd hpr rfl
  have hfinj : t.prPar n (AX_PR_INJ_FINJ n) = s.prPar n (AX_PR_INJ_FINJ n) := State.prPar_congr hrd hpr rfl
  have hld : t.prPar n (AX_PR_L_LD n) = s.prPar n (AX_PR_L_LD n) := State.prPar_congr hrd hpr rfl
  have hlq : t.prPar n (AX_PR_L_LQ n) = s.prPar n (AX_PR_L_LQ n) := State.prPar_congr hrd hpr rfl
  have hN : t.nInj n = s.nInj n := by simp only [nInj, State.fEst_congr hrd, hfinj]
  have hfhat : t.fHat n = s.fHat n := by simp only [fHat, hom]
  simp only [prConditions, hmode, hinj, hs, heA, heB, hke, hsal, hflo, hld, hlq, hN, hfhat, State.fEst_congr hrd]
/-- In INJ mode they do not depend on where the estimate is placed, nor on what the record holds beside. -/
theorem State.prConditions_injected :
    ((t.put (AX_PR_ST_EMODE n) 3).prConditions n).2 = ((s.put (AX_PR_ST_EMODE n) 3).prConditions n).2 := by
  refine State.prConditions_congr (fun b hlo hhi => ?_) ?_ ?_
  · exact State.put_rd_congr 3 (by decide) (hrd.slot_rd (off := 0x340) rfl) (hrd b hlo hhi)
  · rw [State.put_pr, State.put_pr]; exact hpr
  · rw [State.get_put_EMODE, State.get_put_EMODE]
end

/-! ### A search completes (R95) -/

section
variable {s : State} {n : Fin 16}

/-- The estimate of a search that has completed, in INJ mode and not yet judged. -/
def State.searchFound (s : State) (n : Nat) : State :=
  ((s.prPlace n).modPr n (fun p => { p with searched := true, lockAt := none, pol := 0, recover := false })).put (AX_PR_ST_EMODE n) 3
theorem State.searchComplete_eq (s : State) (n : Nat) : s.searchComplete n = (s.searchFound n).settleEstimate n := rfl

theorem State.searchFound_rd {i : Nat} (h : decide (i ≠ 0x340 ∧ i ≠ 0x358 ∧ i ≠ 0x35C) = true) :
    (s.searchFound n).rd (0x080000 + 0x1000 * n + i) = s.rd (0x080000 + 0x1000 * n + i) := by
  obtain ⟨hst, hlo, hhi⟩ := of_decide_eq_true h
  have hput (t : State) : (t.put (AX_PR_ST_EMODE n) 3).rd (0x080000 + 0x1000 * n + i) = t.rd (0x080000 + 0x1000 * n + i) :=
    State.rd_put_word 3 (by decide) (slotWord_ne hst)
  unfold State.searchFound
  rw [hput, State.modPr_rd, State.prPlace_sameButPos.slot_rd (decide_eq_true ⟨hlo, hhi⟩)]
theorem State.searchFound_get {hi lo : Nat} (h : fieldsApart 19 16 hi lo = true) :
    (s.searchFound n).get ⟨AX_PR_ST n, hi, lo⟩ = s.get ⟨AX_PR_ST n, hi, lo⟩ := by
  have hplace : (s.prPlace n).rd (AX_PR_ST n) = s.rd (AX_PR_ST n) := State.prPlace_sameButPos.slot_rd rfl
  have hput (t : State) : (t.put (AX_PR_ST_EMODE n) 3).get ⟨AX_PR_ST n, hi, lo⟩ = t.get ⟨AX_PR_ST n, hi, lo⟩ :=
    t.get_put_field 3 h
  unfold State.searchFound
  rw [hput, State.modPr_get]
  exact State.get_of_rd (of_decide_eq_true h).2.1 hplace
theorem State.searchFound_now : (s.searchFound n).now = s.now := by
  unfold State.searchFound
  rw [State.put_now, State.modPr_now, State.prPlace_now]
theorem State.searchFound_pr : ∃ p, (s.searchFound n).pr n =
    { s.pr n with pos := p, searched := true, lockAt := none, pol := 0, recover := false } := by
  obtain ⟨p, hp⟩ := State.prPlace_pr (s := s) (n := n)
  refine ⟨p, ?_⟩
  unfold State.searchFound
  rw [State.put_pr, State.pr_modPr_same, hp]
theorem State.searchFound_conditions {u : State} (hrd : ∀ b, s.rd b = u.rd b) (hpr : (s.pr n).evidence = (u.pr n).evidence) :
    ((s.searchFound n).prConditions n).2 = ((u.put (AX_PR_ST_EMODE n) 3).prConditions n).2 := by
  refine State.prConditions_injected (fun b hlo hhi => ?_) ?_
  · rw [State.modPr_rd, State.prPlace_sameButPos b hlo hhi, hrd b]
  · obtain ⟨p, hp⟩ := State.prPlace_pr (s := s) (n := n)
    rw [State.pr_modPr_same, hp, ← hpr]
    rfl

/-- A search that completes in `s`, a state with the registers of `u` and the same evidence: INJ mode, the angle kept, and VALID
unless a condition of R110 stands against it in `u`. -/
theorem State.searchComplete_spec {u : State} (hrd : ∀ b, s.rd b = u.rd b) (hpr : (s.pr n).evidence = (u.pr n).evidence)
    (hvalid : u.get (AX_PR_ST_VALID n) = 0) (hholding : u.get (AX_CC_ST_HOLDING n) = 0) :
    (s.searchComplete n).get (AX_PR_ST_EMODE n) = 3 ∧ ((s.searchComplete n).pr n).searched = true ∧
      ((s.searchComplete n).pr n).th = (s.pr n).th ∧ (s.searchComplete n).now = s.now ∧
      ((u.pr n).blocked = false → (u.pr n).forced = none → u.get (AX_PR_ST_MODEL n) = 0 →
        ((u.put (AX_PR_ST_EMODE n) 3).prConditions n).2 = false → (s.searchComplete n).get (AX_PR_ST_VALID n) = 1) := by
  have hmode : (s.searchFound n).get (AX_PR_ST_EMODE n) = 3 := State.get_put_EMODE _ 3
  have hflag {hi lo : Nat} (h : fieldsApart 19 16 hi lo = true) :
      (s.searchFound n).get ⟨AX_PR_ST n, hi, lo⟩ = u.get ⟨AX_PR_ST n, hi, lo⟩ :=
    (State.searchFound_get h).trans (State.get_of_rd (of_decide_eq_true h).2.1 (hrd _))
  have hfree : (s.searchFound n).get (AX_CC_ST_HOLDING n) = 0 :=
    (State.get_of_rd (by decide) ((State.searchFound_rd (i := 0x278) rfl).trans (hrd _))).trans hholding
  have hinvalid : (s.searchFound n).get (AX_PR_ST_VALID n) = 0 := (hflag (hi := 8) (lo := 8) rfl).trans hvalid
  obtain ⟨p, hp⟩ := State.searchFound_pr (s := s) (n := n)
  obtain ⟨hemode, hjudged, hclock, r, hr⟩ := State.settleEstimate_spec (Or.inl hmode) hinvalid
    (fun h => by rw [hfree] at h; exact Nat.zero_ne_one h.1)
  rw [State.searchComplete_eq, hemode, hjudged, hclock, hr, hp]
  refine ⟨hmode, rfl, rfl, State.searchFound_now, fun hblocked hforced hmodel hcond => ?_⟩
  have hev := hpr
  simp only [Prusik.evidence, Prod.mk.injEq] at hev
  obtain ⟨-, -, -, -, -, -, hblocked', hforced'⟩ := hev
  rw [State.estimateOk_of_searched hmode (by rw [hp]) (by rw [hp]) (by rw [hp]; exact hblocked'.trans hblocked)
    (by rw [hp]; exact hforced'.trans hforced) ((hflag (hi := 6) (lo := 6) rfl).trans hmodel)
    ((State.searchFound_conditions hrd hpr).trans hcond)]
  rfl
end

/-! ### A search fails (R95) -/

section
variable {s : State} {n : Fin 16}

theorem prFlag_unreacted {hi lo : Nat} (h : hi < 4) : Fld.Unreacted ⟨AX_PR_ST n, hi, lo⟩ :=
  ⟨by dsimp only; omega, n, 0x340, rfl, by decide, by decide, fun _ => h⟩
/-- The reaction to a failed search leaves the flags of the failure. -/
theorem State.searchFail_get {hi lo : Nat} (h : hi < 4) :
    (s.searchFail n).get ⟨AX_PR_ST n, hi, lo⟩ =
      ((((s.put (AX_PR_ST_SEARCHFAIL n) 1).put (AX_PR_ST_VALID n) 0).put (AX_PR_ST_EMODE n) 7).get ⟨AX_PR_ST n, hi, lo⟩) := by
  have hregs (t : State) : (t.prRegisters n).get ⟨AX_PR_ST n, hi, lo⟩ = t.get ⟨AX_PR_ST n, hi, lo⟩ :=
    State.prRegisters_get (decide_eq_true ⟨by omega, by decide⟩)
  unfold State.searchFail State.raiseRoute
  rw [hregs, State.raise_unreacted (prFlag_unreacted h), State.draw_get, State.modPr_get]
theorem State.get_searchFail_SEARCHFAIL : (s.searchFail n).get (AX_PR_ST_SEARCHFAIL n) = 1 := by
  have hmode (t : State) : (t.put (AX_PR_ST_EMODE n) 7).get (AX_PR_ST_SEARCHFAIL n) = t.get (AX_PR_ST_SEARCHFAIL n) :=
    t.get_put_field 7 rfl
  have hvalid (t : State) : (t.put (AX_PR_ST_VALID n) 0).get (AX_PR_ST_SEARCHFAIL n) = t.get (AX_PR_ST_SEARCHFAIL n) :=
    t.get_put_field 0 rfl
  have hfail : (s.searchFail n).get (AX_PR_ST_SEARCHFAIL n) = _ := State.searchFail_get (by decide)
  rw [hfail]
  exact (hmode _).trans ((hvalid _).trans (s.get_put_word 1 (by decide) (by decide)))
theorem State.get_searchFail_POLFAIL : (s.searchFail n).get (AX_PR_ST_POLFAIL n) = s.get (AX_PR_ST_POLFAIL n) := by
  have hput (t : State) (x : Nat) {hi lo : Nat} (h : fieldsApart hi lo 2 2 = true) :
      (t.put ⟨AX_PR_ST n, hi, lo⟩ x).get (AX_PR_ST_POLFAIL n) = t.get (AX_PR_ST_POLFAIL n) := t.get_put_field x h
  have hfail : (s.searchFail n).get (AX_PR_ST_POLFAIL n) = _ := State.searchFail_get (by decide)
  rw [hfail]
  exact (hput _ 7 rfl).trans ((hput _ 0 rfl).trans (hput _ 1 rfl))
theorem State.searchFail_now : (s.searchFail n).now = s.now := by
  unfold State.searchFail State.raiseRoute
  rw [State.prRegisters_now, State.now_eq_of_clock (State.raise_clock ..), State.draw_now, State.modPr_now, State.put_now,
    State.put_now, State.put_now]
end

/-! ### The end of forced alignment (R95, R86) -/

section
variable {s : State} {n : Nat}

/-- The instant `d` ns after cell time `a`, or the present one if that has passed. -/
def State.waited (s : State) (a d : Nat) : State := { s with now := max s.now (a + d) }
/-- The estimate at the angle of the setpoint. -/
def State.alignAngle (s : State) (n : Nat) : State := s.modPr n (fun p => { p with
  forced := none, searched := true, th := s.thetaSp n (s.gen n).m (s.now - s.tickAt), prev := none, at_ := s.now })
/-- The estimate at the end of forced alignment, not yet judged: in INJ mode with injection and else in open loop. -/
def State.aligned (s : State) (n : Nat) : State :=
  ((if s.bit (AX_PR_CFG_INJEN n) then (s.alignAngle n).injectStart n else s.alignAngle n).prPlace n).put (AX_PR_ST_EMODE n)
    (if s.bit (AX_PR_CFG_INJEN n) then 3 else 7)
theorem forcedAlignEnd_due {a : Nat} (hforced : (s.pr n).forced = some a) (hbrake : s.get (AX_BRK_ST_BRKWAIT n) = 0) :
    forcedAlignEnd n s = ((s.waited a 200000000).aligned n).settleEstimate n := by
  unfold forcedAlignEnd
  rw [hforced]
  dsimp only
  rw [State.bit_of_get_eq_zero hbrake, if_neg Bool.false_ne_true]
  rfl

theorem State.injectStart_rd {b : Nat} (h : b ≠ AX_CC_ST n) : (s.injectStart n).rd b = s.rd b := State.rd_put_word 0 (by decide) h
theorem State.get_injectStart_HOLDING : (s.injectStart n).get (AX_CC_ST_HOLDING n) = s.get (AX_CC_ST_HOLDING n) := by
  unfold State.injectStart
  rw [State.get_put_LOWRATE_HOLDING, State.modPr_get]
theorem State.aligned_rd {i : Nat} (h : decide (i ≠ 0x278 ∧ i ≠ 0x340 ∧ i ≠ 0x358 ∧ i ≠ 0x35C) = true) :
    (s.aligned n).rd (0x080000 + 0x1000 * n + i) = s.rd (0x080000 + 0x1000 * n + i) := by
  obtain ⟨hcc, hst, hlo, hhi⟩ := of_decide_eq_true h
  have hput (t : State) (x : Nat) : (t.put (AX_PR_ST_EMODE n) x).rd (0x080000 + 0x1000 * n + i) =
      t.rd (0x080000 + 0x1000 * n + i) := State.rd_put_word x (by decide) (slotWord_ne hst)
  unfold State.aligned
  rw [hput, State.prPlace_sameButPos.slot_rd (decide_eq_true ⟨hlo, hhi⟩), State.ite_rd,
    State.injectStart_rd (slotWord_ne hcc), ite_self]
  exact s.modPr_rd ..
theorem State.get_aligned_HOLDING : (s.aligned n).get (AX_CC_ST_HOLDING n) = s.get (AX_CC_ST_HOLDING n) := by
  have hput (t : State) (x : Nat) : (t.put (AX_PR_ST_EMODE n) x).get (AX_CC_ST_HOLDING n) = t.get (AX_CC_ST_HOLDING n) :=
    State.get_of_rd (by decide) (State.rd_put_word x (by decide) (slotWord_ne (by decide)))
  have hplace (t : State) : (t.prPlace n).get (AX_CC_ST_HOLDING n) = t.get (AX_CC_ST_HOLDING n) :=
    State.prPlace_sameButPos.slot_get rfl
  unfold State.aligned
  rw [hput, hplace, State.ite_get, State.get_injectStart_HOLDING, ite_self]
  exact s.modPr_get ..
theorem State.get_aligned_VALID : (s.aligned n).get (AX_PR_ST_VALID n) = s.get (AX_PR_ST_VALID n) := by
  have hplace (t : State) : (t.prPlace n).get (AX_PR_ST_VALID n) = t.get (AX_PR_ST_VALID n) :=
    State.prPlace_sameButPos.slot_get rfl
  have hinject (t : State) : (t.injectStart n).get (AX_PR_ST_VALID n) = t.get (AX_PR_ST_VALID n) :=
    State.get_of_rd (by decide) (State.injectStart_rd (slotWord_ne (by decide)))
  unfold State.aligned
  rw [State.get_put_EMODE_VALID, hplace, State.ite_get, hinject, ite_self]
  exact s.modPr_get ..
theorem State.get_aligned_EMODE : (s.aligned n).get (AX_PR_ST_EMODE n) = if s.bit (AX_PR_CFG_INJEN n) then 3 else 7 := by
  unfold State.aligned
  rw [State.get_put_EMODE]
  split <;> rfl
theorem State.aligned_pr : ((s.aligned n).pr n).forced = none ∧ ((s.aligned n).pr n).searched = true := by
  obtain ⟨p, hp⟩ := State.prPlace_pr
    (s := if s.bit (AX_PR_CFG_INJEN n) then (s.alignAngle n).injectStart n else s.alignAngle n) (n := n)
  unfold State.aligned
  rw [State.put_pr, hp]
  unfold State.alignAngle State.injectStart
  split
  · rw [State.put_pr, State.pr_modPr_same, State.pr_modPr_same]
    exact ⟨rfl, rfl⟩
  · rw [State.pr_modPr_same]
    exact ⟨rfl, rfl⟩
theorem State.aligned_now : (s.aligned n).now = s.now := by
  have hinject (t : State) : (t.injectStart n).now = t.now := State.put_now ..
  unfold State.aligned
  rw [State.put_now, State.prPlace_now]
  split
  · rw [hinject]; exact s.modPr_now ..
  · exact s.modPr_now ..

/-- Forced alignment ends at the angle of the setpoint: in INJ mode with injection, else in open loop without VALID. -/
theorem State.settle_aligned_spec (hvalid : s.get (AX_PR_ST_VALID n) = 0)
    (hfree : ¬ (s.get (AX_CC_ST_HOLDING n) = 1 ∧ s.get (AX_CC_CFG_MODE n) = 0 ∧ s.get (AX_PR_CFG_HINJ n) = 0)) :
    (((s.aligned n).settleEstimate n).pr n).forced = none ∧ (((s.aligned n).settleEstimate n).pr n).searched = true ∧
      ((s.aligned n).settleEstimate n).get (AX_PR_ST_EMODE n) = (if s.bit (AX_PR_CFG_INJEN n) then 3 else 7) ∧
      ((s.aligned n).settleEstimate n).now = s.now ∧
      (s.bit (AX_PR_CFG_INJEN n) = false → ((s.aligned n).settleEstimate n).get (AX_PR_ST_VALID n) = 0) := by
  have hmode : (s.aligned n).get (AX_PR_ST_EMODE n) = 3 ∨ (s.aligned n).get (AX_PR_ST_EMODE n) = 7 := by
    rw [State.get_aligned_EMODE]; exact ite_eq_or_eq ..
  have hcfg : (s.aligned n).get (AX_CC_CFG_MODE n) = s.get (AX_CC_CFG_MODE n) :=
    State.get_of_rd (by decide) (State.aligned_rd (i := 0x200) rfl)
  have hhinj : (s.aligned n).get (AX_PR_CFG_HINJ n) = s.get (AX_PR_CFG_HINJ n) :=
    State.get_of_rd (by decide) (State.aligned_rd (i := 0x300) rfl)
  obtain ⟨hforced, hsearched⟩ := State.aligned_pr (s := s) (n := n)
  obtain ⟨hemode, hjudged, hclock, r, hr⟩ := State.settleEstimate_spec hmode (State.get_aligned_VALID.trans hvalid)
    (by rw [State.get_aligned_HOLDING, hcfg, hhinj]; exact hfree)
  rw [hemode, hjudged, hclock, hr, State.get_aligned_EMODE, State.aligned_now]
  refine ⟨hforced, hsearched, rfl, rfl, fun hinj => ?_⟩
  rw [State.estimateOk_openLoop (by rw [State.get_aligned_EMODE, hinj]; rfl)]
  rfl
end

/-! ### The commands (R95 to R101, R110) -/

section
variable {s : State} {n : Nat}

theorem searchLock_polarity {a : Nat} (hlock : (s.pr n).lockAt = some a) (hmode : s.get (AX_PR_ST_EMODE n) = 1)
    (hpol : s.get (AX_PR_CFG_POLEN n) = 1) (hnoPol : (s.pr n).noPol = false) :
    searchLock n s = ((s.waited a 10000000).modPr n (fun p => { p with pol := 0 })).put (AX_PR_ST_EMODE n) 2 := by
  have hpol' : (s.waited a 10000000).bit (AX_PR_CFG_POLEN n) = true := State.bit_of_get_eq_one hpol
  have hnoPol' : ((s.waited a 10000000).pr n).noPol = false := hnoPol
  unfold searchLock
  rw [hlock]
  dsimp only
  rw [if_pos hmode]
  exact if_pos ⟨hpol', by rw [Bool.not_eq_true']; exact hnoPol'⟩
theorem searchLock_completes {a : Nat} (hlock : (s.pr n).lockAt = some a) (hmode : s.get (AX_PR_ST_EMODE n) = 1)
    (hpol : s.get (AX_PR_CFG_POLEN n) = 0) : searchLock n s = (s.waited a 10000000).searchComplete n := by
  have hpol' : (s.waited a 10000000).bit (AX_PR_CFG_POLEN n) = false := State.bit_of_get_eq_zero hpol
  unfold searchLock
  rw [hlock]
  dsimp only
  rw [if_pos hmode]
  exact if_neg fun h => Bool.false_ne_true (hpol'.symm.trans h.1)

/-- The estimate turned by half a revolution. -/
def State.turned (s : State) (n : Nat) : State := s.modPr n (fun p => { p with
  th := ratMod (p.th + 32768) 65536, prev := p.prev.map (fun e => (ratMod (e.1 + 32768) 65536, e.2)) })
/-- The estimate that a polarity test with the rise times `tp` and `tn` has decided on. -/
def State.polarized (s : State) (n tp tn : Nat) : State := if tn < tp then s.turned n else s
theorem polarityDone_decided {tp tn : Nat} (hmode : s.get (AX_PR_ST_EMODE n) = 2) (hpol : (s.pr n).pol = 2)
    (hdiff : 3 * (tp + tn) ≤ 200 * ((tp : Int) - tn).natAbs) (htimes : tp + tn ≠ 0) :
    polarityDone n tp tn s = (s.polarized n tp tn).searchComplete n := by
  unfold polarityDone
  rw [if_neg (by simp only [hmode, hpol, htimes]; decide), if_neg (Nat.not_lt.mpr hdiff)]
  rfl
theorem State.polarized_rd {tp tn b : Nat} : (s.polarized n tp tn).rd b = s.rd b := by
  have hturned : (s.turned n).rd b = s.rd b := s.modPr_rd ..
  unfold State.polarized
  rw [State.ite_rd, hturned, ite_self]
theorem State.polarized_pr {tp tn : Nat} : ((s.polarized n tp tn).pr n).evidence = (s.pr n).evidence ∧
    ((s.polarized n tp tn).pr n).th = if tn < tp then ratMod ((s.pr n).th + 32768) 65536 else (s.pr n).th := by
  unfold State.polarized
  split
  · unfold State.turned
    rw [State.pr_modPr_same]
    exact ⟨rfl, rfl⟩
  · exact ⟨rfl, rfl⟩
theorem polarityDone_undecided {tp tn : Nat} (hmode : s.get (AX_PR_ST_EMODE n) = 2) (hpol : (s.pr n).pol = 2)
    (hdiff : 200 * ((tp : Int) - tn).natAbs < 3 * (tp + tn)) :
    polarityDone n tp tn s = (s.put (AX_PR_ST_POLFAIL n) 1).searchFail n := by
  unfold polarityDone
  rw [if_neg (by simp only [hmode, hpol]; omega), if_pos hdiff]
theorem searchTimeout_searching (hmode : s.get (AX_PR_ST_EMODE n) = 1) :
    searchTimeout n s = (s.waited (s.pr n).searchAt (s.prPar n (AX_PR_LOCK_LOCKMS n) * 1000000)).searchFail n := if_pos hmode
theorem injectionOff_due (hinj : (s.pr n).inj = true) (hslow : 8 ≤ (s.pr n).slow)
    (hmode : s.get (AX_PR_ST_EMODE n) = 3 ∨ s.get (AX_PR_ST_EMODE n) = 4) :
    injectionOff n s = ((s.setPr n { s.pr n with
      inj := false, fade := s.nInj n, s := [], hI := [], hV := [], emfAt := some s.now }).put (AX_PR_ST_EMODE n) 5).prRegisters n :=
  if_pos ⟨hinj, hslow, hmode⟩
theorem stallRearm_due (harmed : (s.pr n).armed = false) (hclear : max (s.prPar n (AX_PR_CFG_REN n)) 1 ≤ (s.pr n).clear_) :
    stallRearm n s = s.setPr n { s.pr n with armed := true, crit := none, slip := none } :=
  if_pos ⟨by rw [harmed]; rfl, hclear⟩
theorem modelMismatch_unraised (hbad : 8 ≤ (s.pr n).bad) (hmodel : s.get (AX_PR_ST_MODEL n) = 0)
    (hvalid : s.get (AX_PR_ST_VALID n) = 0) :
    modelMismatch n s = ((s.put (AX_PR_ST_MODEL n) 1).put (AX_PR_ST_VALID n) 0).prRegisters n := by
  unfold modelMismatch
  rw [if_pos ⟨hbad, by rw [State.bit_of_get_eq_zero hmodel]; rfl⟩]
  dsimp only
  rw [State.bit_of_get_eq_zero hvalid, if_neg Bool.false_ne_true]
end

/-- Settles O24: a lock, a polarity test and forced alignment by the estimate that they leave to be judged (R110), a failure by the
flags that its reaction leaves, the other rows by the record and the word AXn_PR_ST. -/
theorem searchRows : Obligations.SearchRows := by
  unfold Obligations.SearchRows
  intro s n hup
  have hlocked : exec (.searchLock n) s = .next (s.effect (searchLock n)) := live_next hup _
  have htested (tp tn : Nat) : exec (.polarityDone n tp tn) s = .next (s.effect (polarityDone n tp tn)) := live_next hup _
  have htimeout : exec (.searchTimeout n) s = .next (s.effect (searchTimeout n)) := live_next hup _
  have halign : exec (.forcedAlignEnd n) s = .next (s.effect (forcedAlignEnd n)) := live_next hup _
  have hoff : exec (.injectionOff n) s = .next (s.effect (injectionOff n)) := live_next hup _
  have hrearm : exec (.stallRearm n) s = .next (s.effect (stallRearm n)) := live_next hup _
  have hmodelRow : exec (.model n) s = .next (s.effect (modelMismatch n)) := live_next hup _
  have hregs (t : State) {hi lo : Nat} (hw : hi < 32) : (t.prRegisters n).get ⟨AX_PR_ST n, hi, lo⟩ = t.get ⟨AX_PR_ST n, hi, lo⟩ :=
    State.prRegisters_get (decide_eq_true ⟨hw, by decide⟩)
  refine ⟨fun a hlock hmode hpol hnoPol => ⟨_, hlocked, ?_⟩, fun a hlock hmode hpol hvalid hholding => ⟨_, hlocked, ?_⟩,
    fun tp tn hmode hpol hdiff htimes hvalid hholding => ⟨_, htested tp tn, ?_⟩,
    fun tp tn hmode hpol hdiff => ⟨_, htested tp tn, ?_⟩, fun hmode => ⟨_, htimeout, ?_⟩,
    fun a hforced hbrake hvalid hfree => ⟨_, halign, ?_⟩, fun hinj hslow hmode => ⟨_, hoff, ?_⟩,
    fun harmed hclear => ⟨_, hrearm, ?_⟩, fun hbad hmodel hvalid => ⟨_, hmodelRow, ?_⟩⟩
  · rw [State.effect_get, State.effect_now, searchLock_polarity hlock hmode hpol hnoPol, State.get_put_EMODE, State.put_now]
    exact ⟨rfl, rfl⟩
  · obtain ⟨hemode, hsearched, -, hnow, hjudged⟩ :=
      State.searchComplete_spec (s := s.waited a 10000000) (u := s) (fun _ => rfl) rfl hvalid hholding
    rw [State.effect_get, State.effect_pr, State.effect_now, State.effect_get, searchLock_completes hlock hmode hpol]
    exact ⟨hemode, hsearched, hnow, hjudged⟩
  · obtain ⟨hpr, hth⟩ := State.polarized_pr (s := s) (n := n) (tp := tp) (tn := tn)
    obtain ⟨hemode, hsearched, hkept, -, hjudged⟩ :=
      State.searchComplete_spec (s := s.polarized n tp tn) (u := s) (fun _ => State.polarized_rd) hpr hvalid hholding
    rw [State.effect_get, State.effect_pr, State.effect_get, polarityDone_decided hmode hpol hdiff htimes]
    exact ⟨hemode, hsearched, hkept.trans hth, hjudged⟩
  · rw [State.effect_get, State.effect_get, polarityDone_undecided hmode hpol hdiff]
    exact ⟨State.get_searchFail_POLFAIL.trans (s.get_put_word 1 (by decide) (by decide)), State.get_searchFail_SEARCHFAIL⟩
  · rw [State.effect_get, State.effect_now, searchTimeout_searching hmode, State.searchFail_now]
    exact ⟨State.get_searchFail_SEARCHFAIL, le_max_right ..⟩
  · rw [State.effect_pr, State.effect_get, State.effect_now, State.effect_get, forcedAlignEnd_due hforced hbrake]
    exact State.settle_aligned_spec (s := s.waited a 200000000) hvalid hfree
  · rw [State.effect_pr, State.effect_get, State.effect_get, injectionOff_due hinj hslow hmode, State.prRegisters_pr, State.put_pr,
      State.pr_setPr_same]
    exact ⟨rfl, rfl, (hregs _ (by decide)).trans (State.get_put_EMODE _ 5),
      (hregs _ (by decide)).trans (State.get_put_EMODE_VALID _ 5)⟩
  · rw [State.effect_pr, State.effect_regs, stallRearm_due harmed hclear, State.pr_setPr_same]
    exact ⟨rfl, rfl, rfl, rfl⟩
  · rw [State.effect_get, State.effect_get, State.effect_coll, modelMismatch_unraised hbad hmodel hvalid, State.prRegisters_coll,
      State.put_coll, State.put_coll]
    refine ⟨(hregs _ (by decide)).trans ?_, (hregs _ (by decide)).trans (State.get_put_word _ 0 (by decide) (by decide)), rfl⟩
    exact (State.get_put_field _ 0 rfl).trans (s.get_put_word 1 (by decide) (by decide))

end Sys2Proof.Machine
end

section
/-! PROOFS. The statement O25, refuted: its first clause reads AUTOCL in the register, where the estimator goes by AUTOCL as it
read it at the latest tick instant (R104, R111). -/
namespace Sys2Proof.Machine

/-- Without AUTOCL among the parameters that the estimator has read there is no return without a command. -/
theorem autoclReturn_notRead {s : State} {n : Nat} (h : s.prPar n (AX_PR_CFG_AUTOCL n) ≠ 1) : autoclReturn n s = s :=
  if_neg (by simp [h])

/-- Slot 0 in HOLD at rest, in fallback, its estimate valid for 64 ticks, whose estimator reads its parameters. -/
def fallbackRead : State :=
  ((((State.reset.put (AX_STATE_STATE 0) stHold).put (AX_PR_ST_FALLBACK 0) 1).put (AX_PR_ST_VALID 0) 1).setPr 0
    { good := 64 }).prLatch 0
/-- AUTOCL is set after that, and no tick instant has come since. -/
def autoclJustSet : State := fallbackRead.put (AX_PR_CFG_AUTOCL 0) 1

theorem autoclJustSet_canResume : autoclJustSet.canResume 0 = true := by decide +kernel
theorem autoclJustSet_AUTOCL :
    autoclJustSet.get (AX_PR_CFG_AUTOCL 0) = 1 ∧ autoclJustSet.prPar 0 (AX_PR_CFG_AUTOCL 0) = 0 := by decide +kernel
theorem autoclJustSet_FALLBACK : autoclJustSet.get (AX_PR_ST_FALLBACK 0) = 1 := by decide +kernel

/-- Refutes O25: in `autoclJustSet` AXn_PR_CFG reads AUTOCL = 1, yet the estimator has last read it as 0 and the slot stays in
fallback. -/
theorem not_estimatorRows : ¬ Obligations.EstimatorRows := by
  unfold Obligations.EstimatorRows
  intro h
  have hup : autoclJustSet.up = true := rfl
  obtain ⟨hautocl, hread⟩ := autoclJustSet_AUTOCL
  obtain ⟨hreturn, -⟩ := h autoclJustSet .supervisor 0 0 hup rfl
  obtain ⟨t, hexec, hleft, -⟩ := hreturn autoclJustSet_canResume hautocl (by decide +kernel)
  have hstays : exec (.autoclReturn 0) autoclJustSet = .next (autoclJustSet.effect (autoclReturn 0)) := live_next hup _
  rw [State.effect_of_eq (autoclReturn_notRead (by rw [hread]; exact Nat.zero_ne_one))] at hstays
  obtain rfl : autoclJustSet = t := Host.Outcome.next.inj (hstays.symm.trans hexec)
  exact absurd (autoclJustSet_FALLBACK.symm.trans hleft) Nat.one_ne_zero

end Sys2Proof.Machine
end
section
/-! PROOFS. What raising a message, with its reaction, does to engines and swaps (R122, R126, R135, R355 to R362): nothing, but for
the routes that it stops, the swap that it abandons before its switch and the traces that it triggers. One lemma per operation, in
the order of the model; then the facts about engines and swaps that no reaction undoes. -/
namespace Sys2Proof.Machine

/-- The register words that tell of engines, swaps and fault sources: those of the engine blocks, the AXn_SWAPST and the
FLT_SRCi. -/
def EngineWord (b : Nat) : Prop :=
  (0x100000 ≤ b ∧ b < 0x200000) ∨ (0x340000 ≤ b ∧ b < 0x341000) ∨ ∃ n : Fin 16, b = AX_SWAPST n
/-- The swaps, the records of the engines, and the register words that tell of them. -/
def State.engineView (s : State) : Tab Swap × Tab Engine × ({b // EngineWord b} → Word) :=
  (s.swaps, s.engines, fun b => s.rd b)
/-- A field of one word that tells nothing of engines. -/
def Fld.OffEngines (f : Fld) : Prop := f.hi < 32 ∧ ¬ EngineWord f.a

theorem State.engineView_congr {s t : State} (hswaps : t.swaps = s.swaps) (hengines : t.engines = s.engines)
    (hrd : ∀ b, EngineWord b → t.rd b = s.rd b) : t.engineView = s.engineView :=
  Prod.ext hswaps (Prod.ext hengines (funext fun b => hrd b b.2))
theorem State.rd_of_engineView {s t : State} (h : t.engineView = s.engineView) {b : Nat} (hb : EngineWord b) :
    t.rd b = s.rd b := congrArg (fun x => x.2.2 ⟨b, hb⟩) h
theorem State.get_of_engineView {s t : State} (h : t.engineView = s.engineView) {a hi lo : Nat} (hw : hi < 32)
    (ha : EngineWord a) : t.get ⟨a, hi, lo⟩ = s.get ⟨a, hi, lo⟩ := State.get_of_rd hw (State.rd_of_engineView h ha)
theorem State.engine_of_engineView {s t : State} (h : t.engineView = s.engineView) (e : Nat) : t.engine e = s.engine e :=
  congrArg (fun x : Tab Engine => tabGet (fun _ => ({} : Engine)) x e) (congrArg (fun x => x.2.1) h)
theorem State.swap_of_engineView {s t : State} (h : t.engineView = s.engineView) (k : Nat) : t.swap k = s.swap k :=
  congrArg (fun x : Tab Swap => tabGet (fun _ => ({} : Swap)) x k) (congrArg Prod.fst h)
theorem StreamsOnly.engineView {s t : State} (h : StreamsOnly s t) : t.engineView = s.engineView := by obtain ⟨x, rfl⟩ := h; rfl

/-! ### Fields of other blocks (the register map) -/

theorem slotField_offEngines {n : Fin 16} {off hi lo : Nat} (h : hi < 32 ∧ off < 0x1000 ∧ off ≠ 0x18) :
    Fld.OffEngines ⟨0x080000 + 0x1000 * n + off, hi, lo⟩ := by
  refine ⟨h.1, ?_⟩
  rintro (hb | hb | ⟨m, hb⟩)
  · dsimp only at hb; omega
  · dsimp only at hb; omega
  · unfold AX_SWAPST at hb; dsimp only at hb; omega
theorem dieWord_offEngines {a : Nat} (h : 0x200000 ≤ a ∧ (a < 0x340000 ∨ 0x341000 ≤ a)) : ¬ EngineWord a := by
  rintro (hb | hb | ⟨m, hb⟩)
  · omega
  · omega
  · unfold AX_SWAPST at hb; omega
theorem dieField_offEngines {base stride i off hi lo : Nat} (hw : hi < 32)
    (h : 0x200000 ≤ base ∧ (base + stride * i + off < 0x340000 ∨ 0x341000 ≤ base)) :
    Fld.OffEngines ⟨base + stride * i + off, hi, lo⟩ := ⟨hw, dieWord_offEngines (by dsimp only; omega)⟩
theorem fixedField_offEngines {a hi lo : Nat} (h : hi < 32 ∧ 0x341000 ≤ a) : Fld.OffEngines ⟨a, hi, lo⟩ :=
  ⟨h.1, dieWord_offEngines (by dsimp only; omega)⟩
theorem noticeField_offEngines {base i hi lo : Nat} (h : hi < 32 ∧ 0x341000 ≤ base) : Fld.OffEngines ⟨base + 0x4 * i, hi, lo⟩ :=
  fixedField_offEngines ⟨h.1, Nat.le_add_right_of_le h.2⟩

section
variable (s : State)

/-! ### The base operations -/

theorem State.ite_engineView {c : Prop} [Decidable c] (s t : State) :
    (if c then s else t).engineView = if c then s.engineView else t.engineView := apply_ite State.engineView ..
theorem State.each_engineView {α : Type} (l : List α) {f : α → State → State}
    (h : ∀ x ∈ l, ∀ t, (f x t).engineView = t.engineView) : (s.each l f).engineView = s.engineView :=
  List.foldlRecOn (motive := fun t : State => t.engineView = s.engineView) l _ rfl (fun t ht x hx => (h x hx t).trans ht)
theorem State.wr_engineView {a : Nat} (v : Word) (h : ¬ EngineWord a) : (s.wr a v).engineView = s.engineView :=
  State.engineView_congr (s.wr_swaps ..) (s.wr_engines ..) (fun _ hb => s.rd_wr_ne v (fun hba => h (hba ▸ hb)))
theorem State.put_engineView {f : Fld} (v : Nat) (h : f.OffEngines) : (s.put f v).engineView = s.engineView :=
  State.engineView_congr (s.put_swaps ..) (s.put_engines ..) (fun _ hb => s.rd_put_ne' v h.1 (fun hba => h.2 (hba ▸ hb)))
theorem State.puti_engineView {f : Fld} (v : Int) (h : f.OffEngines) : (s.puti f v).engineView = s.engineView :=
  s.put_engineView _ h
theorem State.inc_engineView {f : Fld} (k : Nat) (h : f.OffEngines) : (s.inc f k).engineView = s.engineView :=
  s.put_engineView _ h
theorem State.setGen_engineView (n : Nat) (x : Gen) : (s.setGen n x).engineView = s.engineView := (rfl)
theorem State.modGen_engineView (n : Nat) (f : Gen → Gen) : (s.modGen n f).engineView = s.engineView := (rfl)
theorem State.modCc_engineView (n : Nat) (f : Cc → Cc) : (s.modCc n f).engineView = s.engineView := (rfl)
theorem State.setChan_engineView (c : Nat) (x : PwmChan) : (s.setChan c x).engineView = s.engineView := (rfl)
theorem State.modChan_engineView (c : Nat) (f : PwmChan → PwmChan) : (s.modChan c f).engineView = s.engineView := (rfl)
theorem State.modStream_engineView (k : Nat) (f : Stream → Stream) : (s.modStream k f).engineView = s.engineView := (rfl)
theorem State.modHost_engineView (h : Nat) (f : HostSt → HostSt) : (s.modHost h f).engineView = s.engineView := (rfl)
theorem State.setPr_engineView (n : Nat) (x : Prusik) : (s.setPr n x).engineView = s.engineView := (rfl)
theorem State.upd_bly_engineView (x : Belay) : ({ s with bly := x } : State).engineView = s.engineView := (rfl)
theorem State.upd_hoDead_engineView (x : Bool) : ({ s with hoDead := x } : State).engineView = s.engineView := (rfl)
theorem State.upd_coll_engineView (x : Collector) : ({ s with coll := x } : State).engineView = s.engineView := (rfl)
theorem State.upd_hkc_engineView (x : Hkc) : ({ s with hkc := x } : State).engineView = s.engineView := (rfl)

/-! ### Channels (R187, R192, R213) -/

theorem State.noteArmed_engineView (c : Nat) : (s.noteArmed c).engineView = s.engineView := by
  simp only [noteArmed, modChan_engineView, ite_engineView, ite_self]
theorem State.gateOff_engineView {c : Nat} (hc : c < 64) (high trip soft : Bool) :
    (s.gateOff c high trip soft).engineView = s.engineView := by
  have hraw : (s.put (if high then CMP_SST_RAWH c else CMP_SST_RAWL c) 0).engineView = s.engineView := by
    cases high
    · exact s.put_engineView 0 (dieField_offEngines (by decide) (by omega))
    · exact s.put_engineView 0 (dieField_offEngines (by decide) (by omega))
  simp only [gateOff, modChan_engineView, hraw, ite_engineView, ite_self]
theorem State.gateOn_engineView (c : Nat) (high : Bool) : (s.gateOn c high).engineView = s.engineView := by
  simp only [gateOn, setChan_engineView, ite_engineView, ite_self]
theorem State.force_engineView {c : Nat} (hc : c < 64) (mode : Nat) (low soft : Bool) :
    (s.force c mode low soft).engineView = s.engineView := by
  have hmode (t : State) : (t.put (PWM_STAT_MODE c) mode).engineView = t.engineView :=
    t.put_engineView mode (dieField_offEngines (by decide) (by omega))
  have hcarry (t : State) : (t.wr (PWM_CARRY c) 0).engineView = t.engineView :=
    t.wr_engineView 0 (dieWord_offEngines (by unfold PWM_CARRY; omega))
  simp only [force, gateOn_engineView, modChan_engineView, gateOff_engineView _ hc, hcarry, hmode, ite_engineView, ite_self]
theorem State.safeState_engineView {c : Nat} (hc : c < 64) : (s.safeState c).engineView = s.engineView :=
  s.force_engineView hc ..
theorem State.brakeOff_engineView (n : Fin 16) (mode : Nat) : (s.brakeOff n mode).engineView = s.engineView := by
  have hforce : (s.each (s.brakeChans n) (fun c t => t.force c mode false)).engineView = s.engineView :=
    s.each_engineView _ (fun c hc t => t.force_engineView (State.lt_of_mem_slotChans (List.mem_append_right _ hc)) ..)
  unfold brakeOff
  split
  · rfl
  · simp (disch := with_unfolding_all exact id (slotField_offEngines (by decide))) only [put_engineView, hforce]

/-! ### The parts of a slot (Machine/Slots.lean) -/

section
variable (n : Fin 16)

theorem State.keepHead_engineView : (s.keepHead n).engineView = s.engineView := by
  simp (disch := with_unfolding_all exact id (slotField_offEngines (by decide))) only
    [keepHead, put_engineView, ite_engineView, ite_self]
theorem State.clearPitst_engineView : (s.clearPitst n).engineView = s.engineView := by
  simp (disch := with_unfolding_all exact id (slotField_offEngines (by decide))) only [clearPitst, put_engineView]
theorem State.abandonPitch_engineView : (s.abandonPitch n).engineView = s.engineView := by
  unfold abandonPitch
  split
  · rfl
  · exact ((StreamsOnly.refl _).interruptPitch _ _).engineView.trans ((State.clearPitst_engineView _ n).trans rfl)
theorem State.sourceOff_engineView : (s.sourceOff n).engineView = s.engineView := by
  unfold sourceOff
  dsimp only
  repeat' split
  all_goals simp (disch := with_unfolding_all exact id (slotField_offEngines (by decide))) only
    [put_engineView, inc_engineView, clearPitst_engineView, abandonPitch_engineView, setGen_engineView, modGen_engineView]
theorem State.stopGen_engineView : (s.stopGen n).engineView = s.engineView := by
  simp (disch := with_unfolding_all exact id (slotField_offEngines (by decide))) only
    [stopGen, put_engineView, modGen_engineView, abandonPitch_engineView, ite_engineView, ite_self]
/-- A slot names its step output by a field of three bits (R14). -/
theorem State.sogField_offEngines (m : Nat) {off hi lo : Nat} (h : hi < 32 ∧ off < 0x40) :
    Fld.OffEngines ⟨0x202000 + 0x40 * s.get (AX_BIND_SOUT m) + off, hi, lo⟩ := by
  have hlt : s.get (AX_BIND_SOUT m) < 8 := s.get_lt _
  exact dieField_offEngines h.1 (by omega)
theorem State.holdSteps_engineView (m : Nat) :
    (s.put (SOG_STAT_HELD (s.get (AX_BIND_SOUT m))) 1).engineView = s.engineView :=
  s.put_engineView 1 (s.sogField_offEngines m (by decide))
theorem State.emitSteps_engineView (m k : Nat) : (s.emitSteps m k).engineView = s.engineView :=
  (State.puti_engineView _ _ (s.sogField_offEngines m (by decide))).trans (s.modGen_engineView ..)
theorem State.cutSteps_engineView (drop : Bool) : (s.cutSteps n drop).engineView = s.engineView := by
  simp (disch := with_unfolding_all exact id (slotField_offEngines (by decide))) only
    [cutSteps, puti_engineView, setGen_engineView, emitSteps_engineView, ite_engineView, ite_self]
theorem State.stopSteps_engineView (held : Bool) : (s.stopSteps n held).engineView = s.engineView := by
  unfold stopSteps
  rw [ite_engineView, holdSteps_engineView, ite_self, cutSteps_engineView]
theorem State.prStop_engineView : (s.prStop n).engineView = s.engineView := by
  simp (disch := with_unfolding_all exact id (slotField_offEngines (by decide))) only [prStop, setPr_engineView, put_engineView]
theorem State.interruptWait_engineView (m new reason : Nat) : (s.interruptWait m new reason).engineView = s.engineView :=
  ((StreamsOnly.refl s).interruptWait m new reason).engineView
theorem State.toRappel_engineView (reason : Nat) (de : Bool) : (s.toRappel n reason de).engineView = s.engineView := by
  simp (disch := with_unfolding_all exact id (slotField_offEngines (by decide))) only [toRappel, interruptWait_engineView,
    put_engineView, modGen_engineView, sourceOff_engineView, cutSteps_engineView, ite_engineView, ite_self]
end

/-! ### Messages (Machine/Collector.lean) -/

theorem State.startSave_engineView (sag s4 : Bool) : (s.startSave sag s4).engineView = s.engineView := by
  simp (disch := exact fixedField_offEngines (by decide)) only
    [startSave, put_engineView, upd_bly_engineView, ite_engineView, ite_self]
theorem State.notifyHost_engineView (m : Msg) (h : Nat) : (s.notifyHost m h).engineView = s.engineView := by
  simp (disch := with_unfolding_all exact id (noticeField_offEngines (by decide))) only
    [notifyHost, put_engineView, inc_engineView, modHost_engineView, ite_engineView, ite_self]
theorem State.hkcSignal_engineView (c : Bool) (time : Nat) : (s.hkcSignal c time).engineView = s.engineView := by
  simp only [hkcSignal, upd_hkc_engineView, ite_engineView, ite_self]
end

/-! ### What no reaction undoes -/

/-- The fact `Q` about engines and swaps outlasts what a reaction can do to them: a running route stops, a swap is abandoned
before its switch (R135), a trace is triggered (R129). -/
structure Steady (Q : State → Prop) : Prop where
  congr : ∀ {s t : State}, t.engineView = s.engineView → Q s → Q t
  stopped : ∀ {s : State} (e : Nat), s.run e = 2 → Q s → Q (s.put (KE_STATUS_RUN e) 0)
  abandoned : ∀ {s : State} (m : Fin 16), s.swapEarly m = true → Q s → Q (s.swapAbandon m 9)
  triggered : ∀ {s : State} (e time : Nat), Q s → Q (s.traceTrigger e time)

theorem State.each_holds {Q : State → Prop} {s : State} {α : Type} (l : List α) {f : α → State → State} (hs : Q s)
    (h : ∀ x ∈ l, ∀ t, Q t → Q (f x t)) : Q (s.each l f) :=
  List.foldlRecOn (motive := Q) l _ hs (fun t ht x hx => h x hx t ht)
theorem State.ite_holds {Q : State → Prop} {s t : State} {c : Prop} [Decidable c] (hs : c → Q s) (ht : ¬ c → Q t) :
    Q (if c then s else t) := by
  split
  · exact hs ‹_›
  · exact ht ‹_›

/-- The slots that a reaction affects are slots (R359). -/
theorem State.lt_of_mem_affectedSlots {s : State} {src n : Nat} (h : n ∈ s.affectedSlots src) : n < 16 := by
  have hslot {k : Nat} (hk : s.sourceSlot src = some k) : k < 16 := by
    unfold State.sourceSlot at hk
    split at hk
    · cases hk; omega
    · split at hk
      · have hlt : s.get (KE_STATUS_SLOT ((src - 0x200) / 8)) < 16 := s.get_lt _
        dsimp only at hk
        split at hk
        · cases hk
        · cases hk; exact hlt
      · cases hk
  have howner {c k : Nat} (hk : k ∈ (s.ownerOf c).toList) : k < 16 := by
    rw [Option.mem_toList] at hk
    exact List.mem_range.mp (List.mem_of_find?_eq_some hk)
  unfold State.affectedSlots at h
  split at h
  · rw [List.mem_singleton] at h
    exact h ▸ hslot ‹_›
  · exact howner h
  · exact List.mem_range.mp (List.mem_of_mem_filter h)
  · exact List.mem_range.mp h

namespace Steady
variable {Q R : State → Prop} {s : State}

theorem and (hQ : Steady Q) (hR : Steady R) : Steady (fun t => Q t ∧ R t) where
  congr h hs := ⟨hQ.congr h hs.1, hR.congr h hs.2⟩
  stopped e hr hs := ⟨hQ.stopped e hr hs.1, hR.stopped e hr hs.2⟩
  abandoned m hm hs := ⟨hQ.abandoned m hm hs.1, hR.abandoned m hm hs.2⟩
  triggered e time hs := ⟨hQ.triggered e time hs.1, hR.triggered e time hs.2⟩

variable (hQ : Steady Q)
include hQ

theorem stopRoutes (n : Nat) (hs : Q s) : Q (s.stopRoutes n) :=
  State.each_holds _ hs (fun e _ _ ht => State.ite_holds (fun hr => hQ.stopped e hr ht) (fun _ => ht))
theorem toTripped (n : Fin 16) (reason : Nat) (how : SafeHow) (held : Bool) (hs : Q s) : Q (s.toTripped n reason how held) := by
  have hlt {t : State} {c : Nat} (hc : c ∈ t.localChans n) : c < 64 := State.lt_of_mem_slotChans (List.mem_append_left _ hc)
  unfold State.toTripped
  split
  · extract_lets s1 s2 s3 s4 s5 s6 last s7 s8
    have harmed : s1.engineView = s.engineView := s.each_engineView _ (fun c _ t => t.noteArmed_engineView c)
    have hstate : s2.engineView = s1.engineView := by
      simp (disch := with_unfolding_all exact id (slotField_offEngines (by decide))) only [s2, State.put_engineView]
    have hchans : s3.engineView = s2.engineView := s2.each_engineView _ (fun c hc t => by
      cases how with
      | safe => exact t.safeState_engineView (hlt hc)
      | coast => exact t.force_engineView (hlt hc) ..
      | brake => dsimp only; rw [State.ite_engineView, State.force_engineView _ (hlt hc), State.force_engineView _ (hlt hc), ite_self])
    have hstop : s5.engineView = s3.engineView := by
      simp only [s5, s4, State.stopGen_engineView, State.stopSteps_engineView, State.brakeOff_engineView]
    have h5 : Q s5 := hQ.congr (by rw [hstop, hchans, hstate, harmed]) hs
    have h6 : Q s6 := State.ite_holds (fun hm => hQ.abandoned n hm h5) (fun _ => h5)
    have hend : s8.engineView = (s6.stopRoutes n).engineView := by
      simp (disch := with_unfolding_all exact id (slotField_offEngines (by decide))) only
        [s8, s7, State.put_engineView, State.prStop_engineView, State.modCc_engineView]
    exact hQ.congr ((State.interruptWait_engineView ..).trans hend) (hQ.stopRoutes n h6)
  · refine hQ.congr ?_ hs
    simp (disch := with_unfolding_all exact id (slotField_offEngines (by decide))) only
      [State.put_engineView, State.ite_engineView, ite_self]
theorem reactS3 (gs rs : List Nat) (reason : Nat) (held : Bool) (hs : Q s) : Q (s.reactS3 gs rs reason held) := by
  refine State.each_holds _ hs (fun n hn t ht => ?_)
  have htrip : Q (t.toTripped n reason .safe held) := hQ.toTripped ⟨n, List.mem_range.mp hn⟩ reason .safe held ht
  have hbrake : Q (t.brakeOff n mKilled) := hQ.congr (t.brakeOff_engineView ⟨n, List.mem_range.mp hn⟩ mKilled) ht
  dsimp only
  repeat' split
  all_goals assumption
theorem reactS4 (hs : Q s) : Q s.reactS4 := by
  have hheld (t : State) : (t.each slots16 (fun n u =>
      if u.isRemote n && u.slotState n == stTripped then u.put (SOG_STAT_HELD (u.get (AX_BIND_SOUT n))) 1 else u)).engineView =
      t.engineView :=
    t.each_engineView _ (fun n _ u => by rw [State.ite_engineView, State.holdSteps_engineView, ite_self])
  have hstreams (t : State) (f : Nat → Stream → Stream) :
      (t.each streams32 (fun k u => u.modStream k (f k))).engineView = t.engineView :=
    t.each_engineView _ (fun k _ u => u.modStream_engineView ..)
  have hcut (t : State) (p : Nat → Bool) : (t.interruptSlot p 4).engineView = t.engineView :=
    ((StreamsOnly.refl t).interruptSlot p 4).engineView
  have hsave : ((s.startSave false true).killHandover.put FLT_ST_S4SEEN 1).engineView = s.engineView := by
    rw [State.put_engineView _ 1 (fixedField_offEngines (by decide)), State.killHandover, State.upd_hoDead_engineView,
      State.startSave_engineView]
  unfold State.reactS4
  refine hQ.congr ((hstreams _ _).trans ((hcut _ _).trans (hheld _))) ?_
  exact hQ.reactS3 _ _ _ _ (hQ.congr hsave hs)
theorem react (src sev : Nat) (hs : Q s) : Q (s.react src sev) := by
  have hrappel : (s.each (s.affectedSlots src) (fun n t => (t.keepHead n).toRappel n 2 false)).engineView = s.engineView :=
    s.each_engineView _ (fun n hn t =>
      let m : Fin 16 := ⟨n, State.lt_of_mem_affectedSlots hn⟩
      (State.toRappel_engineView _ m 2 false).trans (t.keepHead_engineView m))
  unfold State.react
  exact State.ite_holds (fun _ => hQ.congr hrappel hs) (fun _ => State.ite_holds (fun _ => hQ.reactS3 _ _ _ _ hs)
    (fun _ => State.ite_holds (fun _ => hQ.reactS4 hs) (fun _ => hs)))
end Steady

/-- The message of source `src` is counted and its SEEN set (R360, R371). -/
def State.counted (s : State) (src : Nat) : State := ((s.inc FLT_RAISED_V).inc (FLT_SRC_COUNT src)).put (FLT_SRC_SEEN src) 1

theorem Steady.raise {Q : State → Prop} (hQ : Steady Q) {s : State} (src kind detail addr time : Nat) (loc : Bool)
    (sevIs : Option Nat) (hs : Q (s.counted src)) : Q (s.raise src kind detail addr time loc sevIs) := by
  unfold State.raise
  extract_lets sev m key last s1 s2 coll s3 s4 s5
  have hnotify (t : State) :
      (t.each hosts8 (fun h u => if u.notified src h then u.notifyHost m h else u)).engineView = t.engineView :=
    t.each_engineView _ (fun h _ u => by rw [State.ite_engineView, State.notifyHost_engineView, ite_self])
  have htaken : s4.engineView = s1.engineView := by
    simp (disch := exact fixedField_offEngines (by decide)) only [s4, s3, s2, State.inc_engineView, State.put_engineView,
      State.upd_coll_engineView, hnotify, State.ite_engineView, ite_self]
  have h4 : Q s4 := hQ.congr htaken hs
  have h5 : Q s5 := by
    unfold s5; split
    · exact State.each_holds _ h4 (fun e _ t ht => State.ite_holds (fun _ => hQ.triggered e time ht) (fun _ => ht))
    · exact h4
  exact hQ.react _ _ (hQ.congr (State.hkcSignal_engineView ..) h5)

end Sys2Proof.Machine
end
section
/-! PROOFS. The fields of KEn_STATUS, KEn_ECC and AXn_SWAPST under field writes, and the facts about engines and swaps that no
reaction undoes (R119, R126, R135): the layer under the statements O26, O27, O28 and O35. -/
namespace Sys2Proof.Machine

section
variable {s : State}

/-! ### Fields -/

/-- A field keeps its value when other bits of any word are written. -/
theorem State.get_put_apart {f g : Fld} (s : State) (v : Nat) (h : fieldsApart f.hi f.lo g.hi g.lo = true) :
    (s.put f v).get g = s.get g := by
  obtain ⟨hf, hg, hlo, hapart⟩ := of_decide_eq_true h
  by_cases ha : g.a = f.a
  · exact s.get_put_disjoint v hf hg ha hlo hapart
  · exact s.get_put_ne v hf hg ha
/-- A field of one word reads as it was written, at its width. -/
theorem State.get_put_own {f : Fld} (s : State) (v : Nat) (h : decide (f.hi < 32 ∧ f.lo ≤ f.hi) = true) :
    (s.put f v).get f = v % 2 ^ (f.hi + 1 - f.lo) := s.get_put_same v (of_decide_eq_true h).1 (of_decide_eq_true h).2
/-- A field of one word is left alone by the write of a field of another word. -/
theorem State.get_put_elsewhere {f g : Fld} (s : State) (v : Nat) (hw : decide (f.hi < 32 ∧ g.hi < 32) = true)
    (h : g.a ≠ f.a) : (s.put f v).get g = s.get g := s.get_put_ne v (of_decide_eq_true hw).1 (of_decide_eq_true hw).2 h

/-! ### Swaps and traces -/

theorem StreamsOnly.swap {s t : State} (h : StreamsOnly s t) (k : Nat) : t.swap k = s.swap k := by obtain ⟨x, rfl⟩ := h; rfl

theorem State.swapAbandon_engine (n r m : Nat) : (s.swapAbandon n r).engine m = s.engine m := by
  unfold State.swapAbandon
  extract_lets x s1 s2 s3
  have hsource : s3.engine m = s2.engine m := (apply_ite (fun t : State => t.engine m) ..).trans (by rw [State.put_engine, ite_self])
  have htarget : s2.engine m = s.engine m := by simp only [s2, s1, State.put_engine]
  rw [((StreamsOnly.refl _).swapAnswer n r).engine, State.setSwap_engine, State.put_engine, State.put_engine, hsource, htarget]
theorem State.swapAbandon_swap_ne {n k : Nat} (r : Nat) (h : k ≠ n) : (s.swapAbandon n r).swap k = s.swap k := by
  unfold State.swapAbandon
  extract_lets x s1 s2 s3
  have hsource : s3.swap k = s2.swap k := (apply_ite (fun t : State => t.swap k) ..).trans (by rw [State.put_swap, ite_self])
  have htarget : s2.swap k = s.swap k := by simp only [s2, s1, State.put_swap]
  rw [((StreamsOnly.refl _).swapAnswer n r).swap, State.swap_setSwap_ne _ _ h, State.put_swap, State.put_swap, hsource, htarget]
theorem State.swapAbandon_rd_ne {b n : Nat} (r : Nat) (hst : ∀ e, b ≠ KE_STATUS e) (hsw : b ≠ AX_SWAPST n) :
    (s.swapAbandon n r).rd b = s.rd b := by
  have hengine (t : State) (e v hi lo : Nat) (hw : hi < 32) : (t.put ⟨KE_STATUS e, hi, lo⟩ v).rd b = t.rd b :=
    State.rd_put_word v hw (hst e)
  have hpool (t : State) (e v : Nat) : (t.put (KE_STATUS_POOL e) v).rd b = t.rd b := hengine t e v _ _ (by decide)
  have hrun (t : State) (e v : Nat) : (t.put (KE_STATUS_RUN e) v).rd b = t.rd b := hengine t e v _ _ (by decide)
  have hrole (t : State) (e v : Nat) : (t.put (KE_STATUS_ROLE e) v).rd b = t.rd b := hengine t e v _ _ (by decide)
  have hslot (t : State) (e v : Nat) : (t.put (KE_STATUS_SLOT e) v).rd b = t.rd b := hengine t e v _ _ (by decide)
  have hphase (t : State) (v : Nat) : (t.put (AX_SWAPST_PHASE n) v).rd b = t.rd b := State.rd_put_word v (by decide) hsw
  have hresult (t : State) (v : Nat) : (t.put (AX_SWAPST_RESULT n) v).rd b = t.rd b := State.rd_put_word v (by decide) hsw
  simp only [State.swapAbandon, State.swapAnswer_rd, State.setSwap_rd, hpool, hrun, hrole, hslot, hphase, hresult,
    State.ite_rd, ite_self]
/-- The bits of the fields of KEn_STATUS and AXn_SWAPST that the end of a swap writes: POOL, RUN, ROLE, SLOT, PHASE and RESULT. -/
def abandonBits : List (Nat × Nat) := [(13, 12), (2, 0), (15, 14), (19, 16), (3, 0), (15, 12)]
theorem State.swapAbandon_get {g : Fld} (n r : Nat) (h : abandonBits.all (fun x => fieldsApart x.1 x.2 g.hi g.lo) = true) :
    (s.swapAbandon n r).get g = s.get g := by
  have hbits := List.all_eq_true.mp h
  have hpool (t : State) (e v : Nat) : (t.put (KE_STATUS_POOL e) v).get g = t.get g := t.get_put_apart v (hbits (13, 12) (by decide))
  have hrun (t : State) (e v : Nat) : (t.put (KE_STATUS_RUN e) v).get g = t.get g := t.get_put_apart v (hbits (2, 0) (by decide))
  have hrole (t : State) (e v : Nat) : (t.put (KE_STATUS_ROLE e) v).get g = t.get g := t.get_put_apart v (hbits (15, 14) (by decide))
  have hslot (t : State) (e v : Nat) : (t.put (KE_STATUS_SLOT e) v).get g = t.get g := t.get_put_apart v (hbits (19, 16) (by decide))
  have hphase (t : State) (v : Nat) : (t.put (AX_SWAPST_PHASE n) v).get g = t.get g := t.get_put_apart v (hbits (3, 0) (by decide))
  have hresult (t : State) (v : Nat) : (t.put (AX_SWAPST_RESULT n) v).get g = t.get g := t.get_put_apart v (hbits (15, 12) (by decide))
  simp only [State.swapAbandon, State.swapAnswer_get, State.setSwap_get, hpool, hrun, hrole, hslot, hphase, hresult,
    State.ite_get, ite_self]

/-- A trigger changes of the engines' records the entries left to record (R129). -/
theorem State.traceTrigger_engine (e time m : Nat) : ∃ k, (s.traceTrigger e time).engine m = { s.engine m with trLeft := k } := by
  unfold State.traceTrigger
  split
  · by_cases h : m = e
    · subst h
      exact ⟨s.get (KE_TRCFG_POST m), by rw [State.engine_modEngine_same, State.wr64_engine, State.put_engine, State.put_engine]⟩
    · exact ⟨(s.engine m).trLeft, by rw [State.engine_modEngine_ne _ _ h, State.wr64_engine, State.put_engine, State.put_engine]⟩
  · exact ⟨(s.engine m).trLeft, rfl⟩
theorem State.traceTrigger_swap (e time k : Nat) : (s.traceTrigger e time).swap k = s.swap k := by
  unfold State.traceTrigger
  split
  · rw [State.modEngine_swap, State.wr64_swap, State.put_swap, State.put_swap]
  · rfl
/-- The offsets of the words of an engine that a trigger writes: KEn_TRCFG, KEn_TRPOS and KEn_TRTIME. -/
def traceOffsets : List Nat := [0x100, 0x104, 0x108, 0x10C]
theorem State.traceTrigger_rd_ne {b : Nat} (e time : Nat) (h : ∀ o ∈ traceOffsets, b ≠ 0x100000 + 0x2000 * e + o) :
    (s.traceTrigger e time).rd b = s.rd b := by
  have hstate (t : State) (v : Nat) : (t.put (KE_TRCFG_STATE e) v).rd b = t.rd b :=
    State.rd_put_word v (by decide) (h 0x100 (by decide))
  have hidx (t : State) (v : Nat) : (t.put (KE_TRPOS_TRIGIDX e) v).rd b = t.rd b :=
    State.rd_put_word v (by decide) (h 0x104 (by decide))
  have htime (t : State) : (t.wr64 (KE_TRTIME e) time).rd b = t.rd b :=
    t.rd_wr64_ne _ (h 0x108 (by decide)) (h 0x10C (by decide))
  simp only [State.traceTrigger, State.modEngine_rd, htime, hidx, hstate, State.ite_rd, ite_self]
end

/-! ### Facts that no reaction undoes -/

section
variable {e : Nat}

theorem KE_STATUS_engineWord (he : e < 20) : EngineWord (KE_STATUS e) := Or.inl (by unfold KE_STATUS; omega)

/-- The words of the engines and of the fault sources, but for KEn_STATUS and the words of a trace, keep their value. -/
theorem steady_rd {b : Nat} (w : Word) (hb : EngineWord b) (hlo : 0x100000 ≤ b)
    (hoff : ∀ o ∈ 0x4 :: traceOffsets, b % 0x2000 ≠ o) : Steady (fun t => t.rd b = w) := by
  have hne (e : Nat) {o : Nat} (ho : o ∈ 0x4 :: traceOffsets) : b ≠ 0x100000 + 0x2000 * e + o := by
    have hlt : ∀ o ∈ 0x4 :: traceOffsets, o < 0x2000 := by decide
    have := hoff o ho
    have := hlt o ho
    omega
  have hst (e : Nat) : b ≠ KE_STATUS e := hne e (by decide)
  exact {
    congr := fun h hs => (State.rd_of_engineView h hb).trans hs
    stopped := fun e _ hs => (State.rd_put_word 0 (by decide) (hst e)).trans hs
    abandoned := fun m _ hs => (State.swapAbandon_rd_ne 9 hst (by unfold AX_SWAPST; omega)).trans hs
    triggered := fun e time hs => (State.traceTrigger_rd_ne e time (fun o ho => hne e (List.mem_cons_of_mem _ ho))).trans hs }

/-- The trap of an engine that has ended its pass stays as it is. -/
theorem steady_trapped (he : e < 20) (code : Nat) :
    Steady (fun t => t.get (KE_STATUS_TRAP e) = code ∧ (t.engine e).inPass = false) where
  congr h hs := ⟨(State.get_of_engineView h (by decide) (KE_STATUS_engineWord he)).trans hs.1,
    (congrArg Engine.inPass (State.engine_of_engineView h e)).trans hs.2⟩
  stopped m _ hs := ⟨(State.get_put_apart _ 0 rfl).trans hs.1, by rw [State.put_engine]; exact hs.2⟩
  abandoned {s} m _ hs := ⟨(State.swapAbandon_get m 9 rfl).trans hs.1, by rw [State.swapAbandon_engine]; exact hs.2⟩
  triggered {s} m time hs := by
    obtain ⟨k, hk⟩ := s.traceTrigger_engine m time e
    refine ⟨(State.get_of_rd (by decide) (State.traceTrigger_rd_ne m time (fun o ho => ?_))).trans hs.1, by rw [hk]; exact hs.2⟩
    have hlt : ∀ o ∈ traceOffsets, 4 < o ∧ o < 0x2000 := by decide
    have := hlt o ho
    unfold KE_STATUS; omega

theorem State.swapEarly_of_rd {s t : State} {m : Nat} (h : t.rd (AX_SWAPST m) = s.rd (AX_SWAPST m)) :
    t.swapEarly m = s.swapEarly m := by
  have hphase : t.get (AX_SWAPST_PHASE m) = s.get (AX_SWAPST_PHASE m) := State.get_of_rd (by decide) h
  unfold State.swapEarly; rw [hphase]
theorem AX_SWAPST_ne_engine (m : Fin 16) {e off : Nat} : AX_SWAPST m ≠ 0x100000 + 0x2000 * e + off := by
  unfold AX_SWAPST; omega
/-- Where no swap is before its switch, an engine that is stopped keeps its place in the pool. -/
theorem steady_pool (he : e < 20) (p : Nat) : Steady (fun t => (∀ m : Fin 16, t.swapEarly m = false) ∧
    t.get (KE_STATUS_POOL e) = p ∧ t.get (KE_STATUS_RUN e) = 0) where
  congr h hs := ⟨fun m => (State.swapEarly_of_rd (State.rd_of_engineView h (Or.inr (Or.inr ⟨m, rfl⟩)))).trans (hs.1 m),
    (State.get_of_engineView h (by decide) (KE_STATUS_engineWord he)).trans hs.2.1,
    (State.get_of_engineView h (by decide) (KE_STATUS_engineWord he)).trans hs.2.2⟩
  stopped {s} k _ hs := by
    refine ⟨fun m => (State.swapEarly_of_rd (State.rd_put_word 0 (by decide) (AX_SWAPST_ne_engine m))).trans (hs.1 m),
      (State.get_put_apart _ 0 rfl).trans hs.2.1, ?_⟩
    rcases eq_or_ne e k with rfl | hne
    · exact s.get_put_own 0 rfl
    · exact (s.get_put_elsewhere 0 rfl (by unfold KE_STATUS_RUN KE_STATUS; dsimp only; omega)).trans hs.2.2
  abandoned m hm hs := absurd hm (by rw [hs.1 m]; exact Bool.false_ne_true)
  triggered {s} k time hs := by
    have hstatus : (s.traceTrigger k time).rd (KE_STATUS e) = s.rd (KE_STATUS e) :=
      State.traceTrigger_rd_ne k time (fun o ho => by
        have hlt : ∀ o ∈ traceOffsets, 4 < o ∧ o < 0x2000 := by decide
        have := hlt o ho
        unfold KE_STATUS; omega)
    exact ⟨fun m => (State.swapEarly_of_rd (State.traceTrigger_rd_ne k time (fun o _ => AX_SWAPST_ne_engine m))).trans (hs.1 m),
      (State.get_of_rd (by decide) hstatus).trans hs.2.1, (State.get_of_rd (by decide) hstatus).trans hs.2.2⟩

/-- The record of an emergency swap, kept beside those of the lead swaps, stays as it is (R136). -/
theorem steady_emergency {k : Nat} (hk : 16 ≤ k) (x : Swap) : Steady (fun t => t.swap k = x) where
  congr h hs := (State.swap_of_engineView h k).trans hs
  stopped e _ hs := (State.put_swap ..).trans hs
  abandoned m _ hs := (State.swapAbandon_swap_ne 9 (by omega)).trans hs
  triggered e time hs := (State.traceTrigger_swap e time k).trans hs
/-- GAPRUN of a slot stays set (R136). -/
theorem steady_gaprun (n : Fin 16) : Steady (fun t => t.get (AX_SWAPST_GAPRUN n) = 1) where
  congr h hs := (State.get_of_engineView h (by decide) (Or.inr (Or.inr ⟨n, rfl⟩))).trans hs
  stopped e _ hs := (State.get_put_apart _ 0 rfl).trans hs
  abandoned m _ hs := (State.swapAbandon_get m 9 rfl).trans hs
  triggered e time hs := (State.get_of_rd (by decide) (State.traceTrigger_rd_ne e time (fun o _ => AX_SWAPST_ne_engine n))).trans hs
end

end Sys2Proof.Machine
end
section
/-! PROOFS. The statement O26: passes, memory errors and traces of an engine (R116, R119, R121, R122, R129). -/
namespace Sys2Proof.Machine

section
variable {s : State} {e : Nat}

/-! ### The start of a pass (R121, R122) -/

theorem State.latchSnapshot_engine (n t m : Nat) : (s.latchSnapshot n t).1.engine m = s.engine m := by
  unfold State.latchSnapshot
  repeat' split
  all_goals rfl
theorem State.beginRise_engine (n tau m : Nat) : (s.beginRise n tau).engine m = s.engine m :=
  (apply_ite (fun t : State => t.engine m) ..).trans (by rw [State.modCc_engine, ite_self])

/-- The engine as its pass at instant `t` begins, with this snapshot (R121, R161). -/
def Engine.begun (x : Engine) (t : Nat) (snap : Snapshot) : Engine :=
  { x with inst := t, cyc := 0, rdy := [], trPass := 0, evts := 0, wrote := false, angle := none, snap := snap, inPass := true }
/-- The due instant of engine `e` is taken. -/
def State.dueTaken (s : State) (e : Nat) : State := s.setEngine e { s.engine e with due := none }
/-- The pass of engine `e` at the instant `t` begins with its snapshot. -/
def State.beginPass (s : State) (e t : Nat) (snap : Snapshot) : State := s.modEngine e (fun y => y.begun t snap)
/-- The snapshot of a slot is latched, and the pass of its engine `e` runs whole for a factory route, or begins. -/
def State.slotPass (s : State) (e n t : Nat) : State :=
  let r := s.latchSnapshot n t
  let u := r.1.beginPass e t r.2
  if u.factoryKind e = 1 ∨ u.factoryKind e = 2 then u.factoryPass e (u.factoryKind e) r.2
  else if u.get (KE_STATUS_ROLE e) = 1 ∧ u.serves e n then u.beginRise n r.2.tau else u
def State.startPass (s : State) (e t : Nat) : State :=
  match s.engineSlot e with
  | none => s.beginPass e t {}
  | some n => s.slotPass e n t

theorem State.dueTaken_engine (e : Nat) : (s.dueTaken e).engine e = { s.engine e with due := none } :=
  State.engine_setEngine_same ..
theorem State.dueTaken_get (e : Nat) (f : Fld) : (s.dueTaken e).get f = s.get f := State.setEngine_get ..

theorem enginePassStart_running {a : Nat} (hdue : (s.engine e).due = some a) (hrun : s.get (KE_STATUS_RUN e) = 2) :
    enginePassStart e s = if (s.engine e).inPass ∨ a < (s.engine e).endAt then (s.dueTaken e).overrun e a
      else (s.dueTaken e).startPass e a := by
  have hrunning : ¬ ((s.dueTaken e).run e ≠ 2 ∧ (s.dueTaken e).run e ≠ 3) := fun h => h.1 ((State.dueTaken_get ..).trans hrun)
  unfold enginePassStart
  simp only [hdue]
  exact if_neg hrunning

theorem State.factoryKind_of_route {t : State} (h : (t.engine e).route = (s.engine e).route) :
    t.factoryKind e = s.factoryKind e := by unfold State.factoryKind; rw [h]
theorem State.beginPass_engine (t : Nat) (snap : Snapshot) : (s.beginPass e t snap).engine e = (s.engine e).begun t snap :=
  State.engine_modEngine_same ..
/-- The pass of a user route begins and runs instruction by instruction. -/
theorem State.slotPass_engine (n t : Nat) (hkind : s.factoryKind e = 0) :
    (s.slotPass e n t).engine e = (s.engine e).begun t (s.latchSnapshot n t).2 := by
  unfold State.slotPass
  extract_lets r u
  have hbegun : u.engine e = (s.engine e).begun t r.2 := by
    rw [State.beginPass_engine, State.latchSnapshot_engine]
  have hroute : (u.engine e).route = (s.engine e).route := by rw [hbegun]; rfl
  have huser : ¬ (u.factoryKind e = 1 ∨ u.factoryKind e = 2) := by rw [State.factoryKind_of_route hroute, hkind]; decide
  rw [if_neg huser]
  split
  · rw [State.beginRise_engine, hbegun]
  · exact hbegun
theorem State.startPass_engine (t : Nat) (hkind : s.factoryKind e = 0) :
    ∃ snap, (s.startPass e t).engine e = (s.engine e).begun t snap := by
  unfold State.startPass
  split
  · exact ⟨{}, s.beginPass_engine t {}⟩
  · exact ⟨_, State.slotPass_engine _ t hkind⟩

theorem enginePassStart_begins {a : Nat} (hdue : (s.engine e).due = some a) (hrun : s.get (KE_STATUS_RUN e) = 2)
    (hpass : (s.engine e).inPass = false) (hend : (s.engine e).endAt ≤ a) (hkind : s.factoryKind e = 0) :
    ∃ snap, (enginePassStart e s).engine e = ({ s.engine e with due := none } : Engine).begun a snap := by
  have hstart : ¬ ((s.engine e).inPass = true ∨ a < (s.engine e).endAt) := by simp [hpass, hend]
  have hroute : ((s.dueTaken e).engine e).route = (s.engine e).route := by rw [State.dueTaken_engine]
  rw [enginePassStart_running hdue hrun, if_neg hstart, ← State.dueTaken_engine]
  exact State.startPass_engine a ((State.factoryKind_of_route hroute).trans hkind)

/-! ### An overrun (R122) -/

theorem State.swapOutput_rd (t : Nat) (o : Option (List Int)) (b : Nat) : (s.swapOutput e t o).rd b = s.rd b := by
  unfold State.swapOutput
  split
  · simp only [State.setSwap_rd, State.ite_rd, ite_self]
  · rfl
theorem State.shadowCompare_rd {b n : Nat} (h : b ≠ AX_SWAPST n) : (s.shadowCompare n).rd b = s.rd b := by
  have hcount (t : State) : (t.incSat (AX_SWAPST_SHADOWS n)).rd b = t.rd b := State.rd_put_word _ (by decide) h
  unfold State.shadowCompare
  dsimp only
  split
  · rfl
  · split
    · rw [State.ite_rd, State.setSwap_rd, hcount, ite_self]
    · rfl
/-- The end of a pass changes of the registers the count of shadow passes only (R134). -/
theorem State.swapPassEnd_rd {b : Nat} (t : Nat) (reached : Bool) (h : 0x100000 ≤ b) : (s.swapPassEnd e t reached).rd b = s.rd b := by
  unfold State.swapPassEnd
  split
  · rename_i n hn
    have hlt : s.get (KE_STATUS_SLOT e) < 16 := s.get_lt _
    have hslot : n < 16 := by
      unfold State.engineSlot at hn
      split at hn
      · cases hn
      · cases hn; exact hlt
    rw [State.shadowCompare_rd (by unfold AX_SWAPST; omega), State.ite_rd, State.swapOutput_rd, ite_self]
  · rfl

theorem engineWord_of_engine {off : Nat} (he : e < 20) (hoff : off < 0x2000) : EngineWord (0x100000 + 0x2000 * e + off) :=
  Or.inl (by omega)
theorem State.counted_rd {src b : Nat} (hsrc : src < 0x400) (hb : b < 0x340000) : (s.counted src).rd b = s.rd b := by
  have hcount (t : State) (hi lo v : Nat) (hw : hi < 32) : (t.put ⟨FLT_SRC src, hi, lo⟩ v).rd b = t.rd b :=
    State.rd_put_word v hw (by unfold FLT_SRC; omega)
  exact (hcount _ _ _ _ (by decide)).trans ((hcount _ _ _ _ (by decide)).trans
    (State.rd_put_word _ (by decide) (by unfold FLT_RAISED; omega)))
/-- The words of an engine but for KEn_STATUS and those of a trace outlast a message. -/
theorem State.raise_engine_rd {off : Nat} (he : e < 20) (hoff : off < 0x2000) (hapart : ∀ o ∈ 0x4 :: traceOffsets, off ≠ o)
    (src kind detail addr time : Nat) (loc : Bool) (sevIs : Option Nat) (hsrc : src < 0x400) :
    (s.raise src kind detail addr time loc sevIs).rd (0x100000 + 0x2000 * e + off) = s.rd (0x100000 + 0x2000 * e + off) := by
  have hsteady := steady_rd (s.rd (0x100000 + 0x2000 * e + off)) (engineWord_of_engine he hoff) (by omega)
    (fun o ho => by have := hapart o ho; omega)
  refine hsteady.raise src kind detail addr time loc sevIs ?_
  exact State.counted_rd hsrc (by omega)

theorem State.get_overrun (t : Nat) (he : e < 20) :
    (s.overrun e t).get (KE_OVERRUN_V e) = (s.get (KE_OVERRUN_V e) + 1) % 2 ^ 32 := by
  unfold State.overrun
  extract_lets u w
  have hcount : u.get (KE_OVERRUN_V e) = (s.get (KE_OVERRUN_V e) + 1) % 2 ^ 32 :=
    (State.modEngine_get ..).trans (s.get_inc_word 1)
  have hraise : w.rd (KE_OVERRUN e) = u.rd (KE_OVERRUN e) :=
    State.raise_engine_rd he (by decide) (by decide) _ _ _ _ _ _ _ (by omega)
  have hend : (w.swapPassEnd e t false).rd (KE_OVERRUN e) = w.rd (KE_OVERRUN e) :=
    State.swapPassEnd_rd t false (by unfold KE_OVERRUN; omega)
  exact (State.get_of_rd (by decide) (hend.trans hraise)).trans hcount
theorem enginePassStart_overruns {a : Nat} (hdue : (s.engine e).due = some a) (hrun : s.get (KE_STATUS_RUN e) = 2)
    (hpass : (s.engine e).inPass = true) (he : e < 20) :
    (enginePassStart e s).get (KE_OVERRUN_V e) = (s.get (KE_OVERRUN_V e) + 1) % 2 ^ 32 := by
  rw [enginePassStart_running hdue hrun, if_pos (Or.inl hpass), State.get_overrun a he, State.dueTaken_get]

/-! ### Host writes to the memories (R116, R127) -/

/-- Noting a word as written over a factory route's changes the list of such words only, and only if the engine keeps one. -/
theorem Engine.note_spec (x : Engine) (i : Nat) : ∃ l, x.note i = { x with written := l } ∧
    (x.pbase = 0 ∧ x.dbase = 0 ∨ l.contains i = true) ∧ ∀ j, j ≠ i → l.contains j = x.written.contains j := by
  unfold Engine.note
  split
  · rename_i h
    exact ⟨x.written, rfl, h, fun _ _ => rfl⟩
  · exact ⟨i :: x.written, rfl, Or.inr (by simp), fun j hj => by simp [hj]⟩
theorem State.effect_progWord (f : State → State) (i : Nat) : (s.effect f).progWord e i = (f s).progWord e i := (rfl)
theorem State.effect_dataWord (f : State → State) (i : Nat) : (s.effect f).dataWord e i = (f s).dataWord e i := (rfl)
theorem State.rdMem_of_mem {t : State} (h : t.mem = s.mem) (a : Nat) : t.rdMem a = s.rdMem a := by
  unfold State.rdMem State.rdByte; rw [h]

theorem State.setProgWord_progWord (i : Nat) (v : Word) : (s.setProgWord e i v).progWord e i = v := by
  obtain ⟨l, hnote, hwritten, -⟩ := (s.engine e).note_spec i
  have hengine : (s.setProgWord e i v).engine e =
      { s.engine e with written := l, route := (s.engine e).route.map (fun r => { r with factory := 0 }) } := by
    unfold State.setProgWord
    rw [State.engine_modEngine_same, State.put_engine, State.wrMem_engine, hnote]
  have hmem : (s.setProgWord e i v).rdMem (progBase e + 4 * i) = v := by
    unfold State.setProgWord
    rw [State.rdMem_of_mem (s := s.wrMem (progBase e + 4 * i) v) (by rw [State.modEngine_mem, State.put_mem]), State.rdMem_wrMem_same]
  unfold State.progWord
  rw [hengine, hmem]
  exact if_neg (fun h => hwritten.elim (fun hnone => h.1 hnone.1) (fun hl => Bool.noConfusion (h.2.symm.trans (congrArg not hl))))
theorem State.setDataWord_engine (i : Nat) (v : Word) : (s.setDataWord e i v).engine e = (s.engine e).note (16384 + i) :=
  (State.engine_modEngine_same ..).trans (by rw [State.wrMem_engine])
theorem State.setDataWord_dataWord (i : Nat) (v : Word) : (s.setDataWord e i v).dataWord e i = v := by
  obtain ⟨l, hnote, hwritten, -⟩ := (s.engine e).note_spec (16384 + i)
  have hmem : (s.setDataWord e i v).rdMem (dataBase e + 4 * i) = v := by
    unfold State.setDataWord
    rw [State.rdMem_of_mem (s := s.wrMem (dataBase e + 4 * i) v) (State.modEngine_mem ..), State.rdMem_wrMem_same]
  unfold State.dataWord
  rw [State.setDataWord_engine, hnote, hmem]
  exact if_neg (fun h => hwritten.elim (fun hnone => h.1 hnone.2) (fun hl => Bool.noConfusion (h.2.symm.trans (congrArg not hl))))
theorem State.setProgWord_get_LOADED (i : Nat) (v : Word) : (s.setProgWord e i v).get (KE_STATUS_LOADED e) = 0 :=
  (State.modEngine_get ..).trans (State.get_put_own _ 0 rfl)
theorem State.setProgWord_rd {b : Nat} (i : Nat) (v : Word) (h : b ≠ KE_STATUS e) : (s.setProgWord e i v).rd b = s.rd b :=
  (State.modEngine_rd ..).trans ((State.rd_put_word 0 (by decide) h).trans (State.wrMem_rd ..))

/-! ### An uncorrectable word (R119) -/

/-- KEn_ECC and KEn_ECCADR show word `i` of memory `m` of engine `e`. -/
def State.showEcc (s : State) (e m i : Nat) : State :=
  ((s.put (KE_ECC_UE e) 1).put (KE_ECC_MEM e) m).wr (KE_ECCADR e) (BitVec.ofNat 32 (4 * i))

theorem State.retire_rd {b : Nat} (hst : b ≠ KE_STATUS e) (hret : b ≠ ENG_RET) : (s.retire e).rd b = s.rd b :=
  (State.modEngine_rd ..).trans ((State.rd_put_word _ (by decide) hret).trans
    ((State.rd_put_word 0 (by decide) hst).trans (State.rd_put_word 3 (by decide) hst)))
theorem KE_STATUS_ne_ENG_RET (he : e < 20) : KE_STATUS e ≠ ENG_RET := by unfold KE_STATUS ENG_RET; omega
theorem State.retire_POOL (he : e < 20) : (s.retire e).get (KE_STATUS_POOL e) = 3 :=
  (State.modEngine_get ..).trans ((State.get_put_elsewhere _ _ rfl (KE_STATUS_ne_ENG_RET he)).trans
    ((State.get_put_apart _ 0 rfl).trans (s.get_put_own 3 rfl)))
theorem State.retire_RUN (he : e < 20) : (s.retire e).get (KE_STATUS_RUN e) = 0 :=
  (State.modEngine_get ..).trans ((State.get_put_elsewhere _ _ rfl (KE_STATUS_ne_ENG_RET he)).trans (State.get_put_own _ 0 rfl))

theorem State.setRole_get {g : Fld} (role n : Nat)
    (h : (fieldsApart 15 14 g.hi g.lo && fieldsApart 19 16 g.hi g.lo) = true) : (s.setRole e role n).get g = s.get g := by
  obtain ⟨hrole, hslot⟩ := Bool.and_eq_true_iff.mp h
  exact (State.get_put_apart _ n hslot).trans (State.get_put_apart _ role hrole)
theorem KE_STATUS_ne_ecc {e : Nat} : KE_STATUS e ≠ KE_ECC e ∧ KE_STATUS e ≠ KE_ECCADR e := by
  unfold KE_STATUS KE_ECC KE_ECCADR; omega
theorem State.showEcc_rd {b : Nat} (m i : Nat) (h : b ≠ KE_ECC e ∧ b ≠ KE_ECCADR e) : (s.showEcc e m i).rd b = s.rd b :=
  (State.rd_wr_ne _ _ h.2).trans ((State.rd_put_word m (by decide) h.1).trans (State.rd_put_word 1 (by decide) h.1))
/-- The uncorrectable word of an engine that is in no use retires it and raises the engine's own source (R119). -/
theorem State.eccUncorrectable_idle (e : Fin 20) (m : Fin 3) (i : Fin 16384) (hpool : s.get (KE_STATUS_POOL e) = 0) :
    s.eccUncorrectable (.engineMem e m i) = (((s.showEcc e m i).retire e).raise (0x200 + 8 * e + 1) (5 + m)
      (m * 2 ^ 14 + i) ((s.showEcc e m i).addrEngine e) ((s.showEcc e m i).retire e).now).setRole e 0 0 := by
  have hidle : (s.showEcc e m i).pool e = 0 :=
    (State.get_of_rd (by decide) (State.showEcc_rd m i KE_STATUS_ne_ecc)).trans hpool
  unfold State.eccUncorrectable
  dsimp -zeta only
  extract_lets e' s1 addr was target s2 s3 s4 s5
  have hwas : was = 0 := hidle
  have htarget : target = false := by
    unfold target
    split
    · simp [hwas]
    · rfl
  have hunused : s3 = s2 := if_neg (by rw [hwas]; decide)
  have hnot : s4 = s2 := (if_neg (by rw [htarget]; decide)).trans hunused
  unfold s5
  rw [hnot]
  rfl
/-- What a host reads of an uncorrectable word (R119). -/
theorem State.eccUncorrectable_rd {off : Nat} (e : Fin 20) (m : Fin 3) (i : Fin 16384) (hpool : s.get (KE_STATUS_POOL e) = 0)
    (hoff : off = 0x18 ∨ off = 0x1C) : (s.eccUncorrectable (.engineMem e m i)).rd (0x100000 + 0x2000 * e + off) =
      (s.showEcc e m i).rd (0x100000 + 0x2000 * e + off) := by
  have hst : 0x100000 + 0x2000 * e.val + off ≠ KE_STATUS e := by unfold KE_STATUS; omega
  rw [State.eccUncorrectable_idle e m i hpool, State.setRole_rd hst,
    State.raise_engine_rd e.isLt (by omega) (by rcases hoff with rfl | rfl <;> decide) _ _ _ _ _ _ _ (by omega),
    State.retire_rd hst (by unfold ENG_RET; omega)]
theorem State.showEcc_UE (m i : Nat) : (s.showEcc e m i).get (KE_ECC_UE e) = 1 :=
  (State.get_wr_other _ _ (by unfold KE_ECC_UE KE_ECC KE_ECCADR; dsimp only; omega) (Or.inl (by decide : 31 < 32))).trans
    ((State.get_put_apart _ m rfl).trans (s.get_put_own 1 rfl))
theorem State.showEcc_MEM (m : Fin 3) (i : Nat) : (s.showEcc e m i).get (KE_ECC_MEM e) = m := by
  refine (State.get_wr_other _ _ (by unfold KE_ECC_MEM KE_ECC KE_ECCADR; dsimp only; omega) (Or.inl (by decide : 30 < 32))).trans
    ((State.get_put_own _ m rfl).trans (Nat.mod_eq_of_lt (m.isLt.trans (by decide : 3 < 2 ^ 3))))
/-- A retired engine stays so, but for a lead swap that has it as its target (R137). -/
theorem State.eccUncorrectable_retires (e : Fin 20) (m : Fin 3) (i : Fin 16384) (hpool : s.get (KE_STATUS_POOL e) = 0)
    (hearly : ∀ n : Nat, s.swapEarly n = false) :
    (s.eccUncorrectable (.engineMem e m i)).get (KE_STATUS_POOL e) = 3 ∧
      (s.eccUncorrectable (.engineMem e m i)).get (KE_STATUS_RUN e) = 0 := by
  have hcounted (t : State) (b : Nat) (hb : b < 0x340000) : (t.counted (0x200 + 8 * e.val + 1)).rd b = t.rd b :=
    State.counted_rd (by omega) hb
  have hrd (b : Nat) (hb : b < 0x340000) (hst : b ≠ KE_STATUS e) (hret : b ≠ ENG_RET) (hecc : b ≠ KE_ECC e ∧ b ≠ KE_ECCADR e) :
      (((s.showEcc e m i).retire e).counted (0x200 + 8 * e.val + 1)).rd b = s.rd b :=
    (hcounted _ b hb).trans ((State.retire_rd hst hret).trans (State.showEcc_rd m i hecc))
  have hstatus : (((s.showEcc e m i).retire e).counted (0x200 + 8 * e.val + 1)).rd (KE_STATUS e) =
      ((s.showEcc e m i).retire e).rd (KE_STATUS e) := hcounted _ _ (by unfold KE_STATUS; omega)
  have hsteady := (steady_pool e.isLt 3).raise (0x200 + 8 * e + 1) (5 + m) (m * 2 ^ 14 + i) ((s.showEcc e m i).addrEngine e)
    ((s.showEcc e m i).retire e).now false none
    ⟨fun n => (State.swapEarly_of_rd (hrd _ (by unfold AX_SWAPST; omega) (AX_SWAPST_ne_engine n)
        (by unfold AX_SWAPST ENG_RET; omega) ⟨AX_SWAPST_ne_engine n, AX_SWAPST_ne_engine n⟩)).trans (hearly n),
      (State.get_of_rd (by decide) hstatus).trans (State.retire_POOL e.isLt),
      (State.get_of_rd (by decide) hstatus).trans (State.retire_RUN e.isLt)⟩
  rw [State.eccUncorrectable_idle e m i hpool]
  exact ⟨(State.setRole_get 0 0 rfl).trans hsteady.2.1, (State.setRole_get 0 0 rfl).trans hsteady.2.2⟩

/-! ### Traces (R129) -/

theorem traceArm_spec : (traceArm e s).get (KE_TRCFG_STATE e) = 1 ∧ (traceArm e s).get (KE_TRPOS_COUNT e) = 0 ∧
    ((traceArm e s).engine e).trNext = 0 := by
  have hwords : KE_TRPOS e ≠ KE_TRCFG e := by unfold KE_TRPOS KE_TRCFG; omega
  unfold traceArm
  exact ⟨(State.modEngine_get ..).trans (State.get_put_own _ 1 rfl),
    (State.modEngine_get ..).trans ((State.get_put_elsewhere _ 1 rfl hwords).trans (s.get_put_own 0 rfl)),
    by rw [State.engine_modEngine_same]⟩
theorem State.effect_rd64 (f : State → State) (a : Nat) : (s.effect f).rd64 a = (f s).rd64 a := (rfl)
theorem State.rd64_of_rd {t : State} {a : Nat} (h : t.rd a = s.rd a) (h4 : t.rd (a + 4) = s.rd (a + 4)) : t.rd64 a = s.rd64 a := by
  unfold State.rd64; rw [h, h4]
theorem State.traceTrigger_armed (time : Nat) (h : s.get (KE_TRCFG_STATE e) = 1) :
    (s.traceTrigger e time).get (KE_TRCFG_STATE e) = 2 ∧ ((s.traceTrigger e time).engine e).trLeft = s.get (KE_TRCFG_POST e) ∧
    (s.traceTrigger e time).get (KE_TRPOS_TRIGIDX e) = ((s.engine e).trNext + 4095) % 4096 ∧
    (s.traceTrigger e time).rd64 (KE_TRTIME e) = time % 2 ^ 64 := by
  have happart : KE_TRCFG e ≠ KE_TRTIME e ∧ KE_TRCFG e ≠ KE_TRTIME e + 4 ∧ KE_TRPOS e ≠ KE_TRTIME e ∧
      KE_TRPOS e ≠ KE_TRTIME e + 4 ∧ KE_TRCFG e ≠ KE_TRPOS e := by
    unfold KE_TRCFG KE_TRPOS KE_TRTIME; omega
  obtain ⟨hcfg, hcfg4, hpos, hpos4, hwords⟩ := happart
  unfold State.traceTrigger
  rw [if_pos h]
  refine ⟨?_, by rw [State.engine_modEngine_same], ?_, ?_⟩
  · rw [State.modEngine_get, State.get_wr64_other _ _ hcfg hcfg4 (Or.inl (show 5 < 32 by decide)),
      State.get_put_elsewhere _ _ rfl hwords]
    exact s.get_put_own 2 rfl
  · rw [State.modEngine_get, State.get_wr64_other _ _ hpos hpos4 (Or.inl (show 27 < 32 by decide))]
    exact (State.get_put_own _ _ rfl).trans (Nat.mod_mod _ _)
  · exact (State.rd64_of_rd (State.modEngine_rd ..) (State.modEngine_rd ..)).trans (State.rd64_wr64_same ..)

theorem traceDone_spec (h : s.get (KE_TRCFG_STATE e) = 2) (hleft : (s.engine e).trLeft = 0) :
    (traceDone e s).get (KE_TRCFG_STATE e) = 3 ∧ ∀ a, a ≠ KE_TRCFG e → (traceDone e s).rd a = s.rd a := by
  unfold traceDone
  rw [if_pos ⟨h, hleft⟩]
  exact ⟨s.get_put_own 3 rfl, fun a ha => State.rd_put_word 3 (by decide) ha⟩
theorem traceStop_spec : (traceStop e s).get (KE_TRCFG_STATE e) = 0 ∧ ∀ a, a ≠ KE_TRCFG e → (traceStop e s).rd a = s.rd a :=
  ⟨s.get_put_own 0 rfl, fun a ha => State.rd_put_word 0 (by decide) ha⟩
theorem programWrite_taken (i : Nat) (v : Word) (hpool : s.get (KE_STATUS_POOL e) = 0) (hrun : s.get (KE_STATUS_RUN e) = 0) :
    programWrite e i v s = s.setProgWord e i v := if_pos ⟨hpool, hrun⟩
theorem programWrite_refused (i : Nat) (v : Word) (h : s.get (KE_STATUS_POOL e) ≠ 0 ∨ s.get (KE_STATUS_RUN e) ≠ 0) :
    programWrite e i v s = s.put (KE_STATUS_ERR e) 1 := if_neg (fun hidle => h.elim (· hidle.1) (· hidle.2))
end

/-- Settles O26, clause by clause: a pass keeps the engine's record but for what `Engine.begun` sets, and the message of an
overrun or of an uncorrectable word leaves the engine's own words as they are (`State.raise_engine_rd`, `steady_pool`). -/
theorem enginePassRows : Obligations.EnginePassRows := by
  intro s e v hup
  refine ⟨fun a hdue hrun hpass hend hkind => ?_, fun a hdue hrun hpass => ?_, fun i hpool hrun => ?_, fun i hbusy => ?_,
    fun i => ?_, fun m i hpool => ?_, ?_, ?_, fun harmed => ?_, fun htriggered hleft => ?_⟩
  · obtain ⟨snap, hbegun⟩ := enginePassStart_begins hdue hrun hpass hend hkind
    refine ⟨_, live_next hup _, ?_⟩
    rw [State.effect_engine, hbegun]
    exact ⟨rfl, rfl, rfl, rfl, rfl⟩
  · refine ⟨_, live_next hup _, ?_⟩
    rw [State.effect_get]
    exact enginePassStart_overruns hdue hrun hpass e.isLt
  · refine ⟨_, live_next hup _, ?_⟩
    simp only [State.effect_progWord, State.effect_get, State.effect_rd, programWrite_taken i v hpool hrun]
    exact ⟨State.setProgWord_progWord i v, State.setProgWord_get_LOADED i v, fun a ha => State.setProgWord_rd i v ha⟩
  · refine ⟨_, live_next hup _, ?_⟩
    simp only [State.effect_get, State.effect_mem, State.effect_engines, programWrite_refused i v hbusy]
    exact ⟨s.get_put_own 1 rfl, State.put_mem .., State.put_engines ..⟩
  · refine ⟨_, live_next hup _, ?_⟩
    rw [State.effect_dataWord, State.effect_regs]
    exact ⟨State.setDataWord_dataWord i v, rfl⟩
  · refine ⟨_, live_next hup _, ?_⟩
    simp only [State.effect_get, State.effect_rd]
    have hshown := State.eccUncorrectable_rd e m i hpool (Or.inl rfl)
    exact ⟨(State.get_of_rd (by decide) hshown).trans (State.showEcc_UE m i),
      (State.get_of_rd (by decide) hshown).trans (State.showEcc_MEM m i),
      (State.eccUncorrectable_rd e m i hpool (Or.inr rfl)).trans (State.rd_wr_same ..),
      State.eccUncorrectable_retires e m i hpool⟩
  · refine ⟨_, live_next hup _, ?_⟩
    rw [State.effect_get, State.effect_get, State.effect_engine]
    exact traceArm_spec
  · refine ⟨_, live_next hup _, ?_⟩
    simp only [State.effect_get, State.effect_rd]
    exact traceStop_spec
  · refine ⟨_, live_next hup _, ?_⟩
    simp only [State.effect_get, State.effect_engine, State.effect_rd64]
    exact State.traceTrigger_armed s.now harmed
  · refine ⟨_, live_next hup _, ?_⟩
    simp only [State.effect_get, State.effect_rd]
    exact traceDone_spec htriggered hleft

end Sys2Proof.Machine
end
section
/-! PROOFS. The statement O27: loading, running and retiring an engine (R123, R124, R137). -/
namespace Sys2Proof.Machine

section
variable {s : State} {e : Nat}

/-! ### A load (R123, R124) -/

theorem State.dirImg_congr {t : State} (hflash : t.flash = s.flash) (hbank : t.rd BOOT_ST = s.rd BOOT_ST)
    (hepoch : t.rd SFW_EPOCH = s.rd SFW_EPOCH) (i : Nat) : t.dirImg i = s.dirImg i := by
  have hboot : t.get BOOT_ST_BANK = s.get BOOT_ST_BANK := State.get_of_rd (by decide) hbank
  have hmin : t.get SFW_EPOCH_SIMIN = s.get SFW_EPOCH_SIMIN := State.get_of_rd (by decide) hepoch
  have hmax : t.get SFW_EPOCH_SIEPOCH = s.get SFW_EPOCH_SIEPOCH := State.get_of_rd (by decide) hepoch
  unfold State.dirImg State.epochOk State.bank State.img
  rw [hflash, hboot, hmin, hmax]
theorem State.sigOk_congr {t : State} (hotp : t.otp = s.otp) (x : Img) : t.sigOk x = s.sigOk x := by
  unfold State.sigOk State.keyUsable State.sigVerifies State.keyProgrammed State.keyRevoked State.keyWords State.otpWord
  rw [hotp]
/-- ROUTE takes no part in the checks of a LOAD. -/
theorem State.route_dirImg (he : e < 20) (v i : Nat) : (s.put (KE_CTRL_ROUTE e) v).dirImg i = s.dirImg i :=
  State.dirImg_congr (State.put_flash ..) (State.rd_put_word v (by decide) (by unfold KE_CTRL BOOT_ST; omega))
    (State.rd_put_word v (by decide) (by unfold KE_CTRL SFW_EPOCH; omega)) i
theorem KE_STATUS_ne_CTRL : KE_STATUS e ≠ KE_CTRL e := by unfold KE_STATUS KE_CTRL; omega
theorem State.route_status (v : Nat) : (s.put (KE_CTRL_ROUTE e) v).rd (KE_STATUS e) = s.rd (KE_STATUS e) :=
  State.rd_put_word v (by decide) KE_STATUS_ne_CTRL
theorem State.route_loadErr (he : e < 20) (v i : Nat) : (s.put (KE_CTRL_ROUTE e) v).loadErr e i = s.loadErr e i := by
  have hpool : (s.put (KE_CTRL_ROUTE e) v).pool e = s.pool e := State.get_of_rd (by decide) (State.route_status v)
  have hrun : (s.put (KE_CTRL_ROUTE e) v).run e = s.run e := State.get_of_rd (by decide) (State.route_status v)
  have hsig : (s.put (KE_CTRL_ROUTE e) v).sigOk (s.dirImg i) = s.sigOk (s.dirImg i) := State.sigOk_congr (State.put_otp ..) _
  unfold State.loadErr
  dsimp only
  rw [hpool, hrun, State.route_dirImg he, hsig]
/-- A LOAD that the checks take is in progress, with LOADED 0 meanwhile. -/
def State.loadBegin (s : State) (e idx : Nat) : State :=
  (((s.put (KE_CTRL_ROUTE e) idx).put (KE_STATUS_RUN e) 1).put (KE_STATUS_LOADED e) 0).modEngine e
    (fun x => { x with loading := some (idx, (s.dirImg idx).route idx) })
theorem engineLoad_taken {w : Writer} {i : Nat} (he : e < 20) (how : s.owns w (s.engineAnchor e) = true)
    (h : s.loadErr e i = 0) : engineLoad w e i s = s.loadBegin e i := by
  unfold engineLoad State.loadBegin
  rw [if_neg (by rw [how]; decide)]
  dsimp only
  rw [State.route_loadErr he, State.route_dirImg he, if_neg (not_not.mpr h)]
theorem engineLoad_refused {w : Writer} {i : Nat} (he : e < 20) (how : s.owns w (s.engineAnchor e) = true)
    (h : s.loadErr e i ≠ 0) : engineLoad w e i s = (s.put (KE_CTRL_ROUTE e) i).put (KE_STATUS_ERR e) (s.loadErr e i) := by
  unfold engineLoad
  rw [if_neg (by rw [how]; decide)]
  dsimp only
  rw [State.route_loadErr he, if_pos h]
theorem State.loadBegin_RUN (i : Nat) : (s.loadBegin e i).get (KE_STATUS_RUN e) = 1 :=
  (State.modEngine_get ..).trans ((State.get_put_apart _ 0 rfl).trans (State.get_put_own _ 1 rfl))
theorem State.loadBegin_LOADED (i : Nat) : (s.loadBegin e i).get (KE_STATUS_LOADED e) = 0 :=
  (State.modEngine_get ..).trans (State.get_put_own _ 0 rfl)
theorem State.loadBegin_loading (i : Nat) : ((s.loadBegin e i).engine e).loading = some (i, (s.dirImg i).route i) := by
  unfold State.loadBegin; rw [State.engine_modEngine_same]
theorem State.loadBegin_ROUTE (i : Nat) : (s.loadBegin e i).get (KE_CTRL_ROUTE e) = i % 256 :=
  (State.modEngine_get ..).trans ((State.get_put_elsewhere _ 0 rfl KE_STATUS_ne_CTRL.symm).trans
    ((State.get_put_elsewhere _ 1 rfl KE_STATUS_ne_CTRL.symm).trans (s.get_put_own i rfl)))
theorem State.loadBegin_rd {b : Nat} (i : Nat) (hst : b ≠ KE_STATUS e) (hctrl : b ≠ KE_CTRL e) :
    (s.loadBegin e i).rd b = s.rd b :=
  (State.modEngine_rd ..).trans ((State.rd_put_word 0 (by decide) hst).trans
    ((State.rd_put_word 1 (by decide) hst).trans (State.rd_put_word i (by decide) hctrl)))
/-- The ERR of a LOAD is one of those R123 gives. -/
theorem State.loadErr_lt (i : Nat) : s.loadErr e i < 16 := by
  unfold State.loadErr
  dsimp only
  repeat' split
  all_goals decide

/-! ### The end of a load (R124) -/

/-- The route `r` is in the memories of engine `e`. -/
def State.loaded (s : State) (e : Nat) (r : Route) : State :=
  let t := s.modEngine e (fun x => { x with
    route := some r, loading := none, pbase := r.factory, dbase := if r.factory = 0 then 0 else 16 + s.drawn, written := [] })
  if r.factory = 0 then (t.wrMems (progBase e) r.prog).wrMems (dataBase e) r.data else t.draw
theorem State.loaded_engine (r : Route) : ((s.loaded e r).engine e).route = some r ∧ ((s.loaded e r).engine e).loading = none := by
  have hwords (t : State) (a : Nat) (l : List Word) : (t.wrMems a l).engine e = t.engine e :=
    State.wrMems_same (fun u => u.engine e) (fun u a v => u.wrMem_engine a v e) l t a
  unfold State.loaded
  extract_lets t
  have hroute : (t.engine e).route = some r ∧ (t.engine e).loading = none := by
    unfold t
    rw [State.engine_modEngine_same]
    exact ⟨rfl, rfl⟩
  split
  · rw [hwords, hwords]
    exact hroute
  · exact hroute

theorem State.loadFinish_of_loading {i : Nat} {r : Route} (h : (s.engine e).loading = some (i, r)) :
    s.loadFinish e = (((((s.loaded e r).put (KE_ISA_ISA e) r.isa).put (KE_ISA_RIDX e) i).put (KE_ISA_EPOCH e) r.epoch).put
      (KE_STATUS_LOADED e) 1).put (KE_STATUS_RUN e) 0 := by
  unfold State.loadFinish State.loaded
  rw [h]
theorem KE_STATUS_ne_ISA : KE_STATUS e ≠ KE_ISA e := by unfold KE_STATUS KE_ISA; omega
theorem State.loadFinish_engine {i : Nat} {r : Route} (h : (s.engine e).loading = some (i, r)) :
    (s.loadFinish e).engine e = (s.loaded e r).engine e := by
  rw [State.loadFinish_of_loading h]
  simp only [State.put_engine]
theorem State.loadFinish_LOADED {i : Nat} {r : Route} (h : (s.engine e).loading = some (i, r)) :
    (s.loadFinish e).get (KE_STATUS_LOADED e) = 1 := by
  rw [State.loadFinish_of_loading h]
  exact (State.get_put_apart _ 0 rfl).trans (State.get_put_own _ 1 rfl)
theorem State.loadFinish_RUN {i : Nat} {r : Route} (h : (s.engine e).loading = some (i, r)) :
    (s.loadFinish e).get (KE_STATUS_RUN e) = 0 := by
  rw [State.loadFinish_of_loading h]
  exact State.get_put_own _ 0 rfl
theorem State.loadFinish_RIDX {i : Nat} {r : Route} (h : (s.engine e).loading = some (i, r)) :
    (s.loadFinish e).get (KE_ISA_RIDX e) = i % 256 := by
  rw [State.loadFinish_of_loading h]
  exact (State.get_put_elsewhere _ 0 rfl KE_STATUS_ne_ISA.symm).trans ((State.get_put_elsewhere _ 1 rfl KE_STATUS_ne_ISA.symm).trans
    ((State.get_put_apart _ _ rfl).trans (State.get_put_own _ i rfl)))
theorem loadDone_free (h : s.engineSlot e = none) : loadDone e s = s.loadFinish e := by unfold loadDone; rw [h]

/-! ### START and HALT (R124) -/

/-- A free-standing route starts. -/
def State.startFree (s : State) (e : Nat) : State := ((s.routeStart e).put (KE_STATUS_POOL e) 1).put (KE_STATUS_RUN e) 2

theorem engineStart_ready {w : Writer} {r : Route} (how : s.owns w (s.engineAnchor e) = true)
    (hpool : s.get (KE_STATUS_POOL e) = 0) (hrun : s.get (KE_STATUS_RUN e) = 0) (hloaded : s.get (KE_STATUS_LOADED e) = 1)
    (hroute : (s.engine e).route = some r) : engineStart w e s =
      if r.role ≠ 2 then s.put (KE_STATUS_ERR e) 6 else s.startFree e := by
  have hp : s.pool e = 0 := hpool
  have hr : s.run e = 0 := hrun
  have hl : s.bit (KE_STATUS_LOADED e) = true := by unfold State.bit; rw [hloaded]; rfl
  unfold engineStart State.startFree
  simp only [how, hp, hr, hl, hroute]
  simp
theorem State.startFree_POOL : (s.startFree e).get (KE_STATUS_POOL e) = 1 :=
  (State.get_put_apart _ 2 rfl).trans (State.get_put_own _ 1 rfl)
theorem State.startFree_RUN : (s.startFree e).get (KE_STATUS_RUN e) = 2 := State.get_put_own _ 2 rfl
theorem State.startFree_TRAP : (s.startFree e).get (KE_STATUS_TRAP e) = 0 :=
  (State.get_put_apart _ 2 rfl).trans ((State.get_put_apart _ 1 rfl).trans
    ((State.modEngine_get ..).trans (s.get_put_own 0 rfl)))
theorem State.startFree_engine {r : Route} (hroute : (s.engine e).route = some r) :
    ((s.startFree e).engine e).pc = r.entry ∧ ((s.startFree e).engine e).g = [] ∧ ((s.startFree e).engine e).stack = [] := by
  unfold State.startFree State.routeStart
  rw [State.put_engine, State.put_engine, State.engine_modEngine_same, State.put_engine]
  exact ⟨by rw [hroute], rfl, rfl⟩

theorem engineStart_retired {w : Writer} (how : s.owns w (s.engineAnchor e) = true) (hpool : s.get (KE_STATUS_POOL e) = 3) :
    engineStart w e s = s.put (KE_STATUS_ERR e) 5 := by
  have hp : s.pool e = 3 := hpool
  unfold engineStart
  rw [if_neg (by rw [how]; decide), if_pos hp]
theorem haltAction_retired {w : Writer} (how : s.owns w (s.engineAnchor e) = true) (hpool : s.get (KE_STATUS_POOL e) = 3) :
    haltAction w e s = s.put (KE_STATUS_ERR e) 5 := by
  have hp : s.pool e = 3 := hpool
  unfold haltAction
  rw [if_neg (by rw [how]; decide), if_pos hp]
theorem haltAction_running {w : Writer} (how : s.owns w (s.engineAnchor e) = true) (hrole : s.get (KE_STATUS_ROLE e) = 0)
    (hpool : s.get (KE_STATUS_POOL e) = 1) (hrun : s.get (KE_STATUS_RUN e) = 2) :
    haltAction w e s = s.modEngine e (fun x => { x with halt := true }) := by
  have hp : s.pool e = 1 := hpool
  have hr : s.run e = 2 := hrun
  unfold haltAction
  rw [if_neg (by rw [how]; decide), if_neg (by rw [hp]; decide), if_neg (by rw [hr]; simp), if_pos ⟨hrole, hp, hr⟩]

/-! ### Retirement (R137) -/

/-- ENG_RET keeps bit `e` as written. -/
theorem ENG_RET_bit (he : e < 20) (t : State) (v : Nat) (hv : v < 2) :
    (t.put ENG_RET_V (withBits (s.get ENG_RET_V) e e v)).get ENG_RET_V / 2 ^ e % 2 = v := by
  have hlt : withBits (s.get ENG_RET_V) e e v < 2 ^ 20 := withBits_lt (s.get_lt ENG_RET_V) he (le_refl e)
  have hbit : bitsOf (withBits (s.get ENG_RET_V) e e v) e e = v % 2 ^ (e + 1 - e) := bitsOf_withBits_same (le_refl e)
  rw [bitsOf, Nat.add_sub_cancel_left, Nat.mod_eq_of_lt (show v < 2 ^ 1 from hv)] at hbit
  rw [t.get_put_own _ rfl, show ENG_RET_V.hi + 1 - ENG_RET_V.lo = 20 from rfl, Nat.mod_eq_of_lt hlt]
  exact hbit
theorem State.retcmd_status {m : Nat} (hm : m < 20) (v : Nat) :
    (s.put ENG_RETCMD_ENG v).get (KE_STATUS_POOL m) = s.get (KE_STATUS_POOL m) :=
  s.get_put_elsewhere v rfl (by unfold KE_STATUS_POOL KE_STATUS ENG_RETCMD_ENG ENG_RETCMD; dsimp only; omega)
theorem retireAction_taken (he : e < 20) (hpool : s.get (KE_STATUS_POOL e) = 0) :
    retireAction e s = (s.put ENG_RETCMD_ENG e).retire e := by
  unfold retireAction
  exact if_pos ⟨he, (State.retcmd_status he e).trans hpool⟩
theorem retireAction_refused (he : e < 20) (hpool : s.get (KE_STATUS_POOL e) ≠ 0) :
    retireAction e s = (s.put ENG_RETCMD_ENG e).put ENG_RETCMD_REFUSED 1 := by
  unfold retireAction
  exact if_neg (fun h => hpool ((State.retcmd_status he e).symm.trans h.2))
theorem State.retire_ENG_RET (he : e < 20) : (s.retire e).get ENG_RET_V / 2 ^ e % 2 = 1 := by
  unfold State.retire
  rw [State.modEngine_get]
  exact ENG_RET_bit he _ 1 (by decide)
theorem retireAction_ENG (he : e < 20) : ((s.put ENG_RETCMD_ENG e).retire e).get ENG_RETCMD_ENG = e := by
  have hkept : ((s.put ENG_RETCMD_ENG e).retire e).rd ENG_RETCMD = (s.put ENG_RETCMD_ENG e).rd ENG_RETCMD :=
    State.retire_rd (by unfold ENG_RETCMD KE_STATUS; omega) (by decide)
  exact (State.get_of_rd (by decide) hkept).trans ((s.get_put_own e rfl).trans (Nat.mod_eq_of_lt (he.trans (by decide : 20 < 2 ^ 5))))

theorem unretire_taken (he : e < 20) (hpool : s.get (KE_STATUS_POOL e) = 3) :
    unretire e s = (s.put ENG_RETCMD_ENG e).modEngine e (fun x => { x with unret := true }) := by
  unfold unretire
  exact if_pos ⟨he, (State.retcmd_status he e).trans hpool⟩
theorem unretire_refused (he : 20 ≤ e) : unretire e s = (s.put ENG_RETCMD_ENG e).put ENG_RETCMD_REFUSED 1 := by
  unfold unretire
  exact if_neg (fun h => absurd h.1 (by omega))

/-! ### The end of UNRETIRE (R137) -/

/-- Of a table with the entries outside `p` left out, a key of `p` reads as before and any other as cleared. -/
theorem tabGet_filter {α : Type} (d : Nat → α) (p : Nat → Bool) (t : Tab α) (k : Nat) :
    tabGet d (t.filter (fun c => p c.1)) k = if p k then tabGet d t k else d k := by
  induction t with
  | nil => exact (ite_self _).symm
  | cons c t ih =>
    obtain ⟨j, v⟩ := c
    by_cases hj : j = k
    · subst hj
      cases hp : p j
      · rw [List.filter_cons_of_neg (by simp [hp]), ih, hp]; rfl
      · rw [List.filter_cons_of_pos (by simp [hp])]; simp [tabGet]
    · cases hp : p j
      · rw [List.filter_cons_of_neg (by simp [hp]), ih, tabGet, if_neg hj]
      · rw [List.filter_cons_of_pos (by simp [hp]), tabGet, if_neg hj, ih, tabGet, if_neg hj]
theorem State.rdByte_clearMem (lo hi a : Nat) :
    (s.clearMem lo hi).rdByte a = if a < lo ∨ hi ≤ a then s.rdByte a else 0 := by
  have h := tabGet_filter memDefault (fun c => decide (c < lo ∨ hi ≤ c)) s.mem a
  simp only [decide_eq_true_eq] at h
  exact h
theorem State.rdByte_of_mem {t : State} (h : t.mem = s.mem) (a : Nat) : t.rdByte a = s.rdByte a := by unfold State.rdByte; rw [h]

/-- The words of an engine that comes back from retirement: no route, no role, no error, IDLE. -/
def State.unretired (s : State) (e : Nat) : State :=
  let t := ((s.wr (KE_ISA e) 0).put (KE_STATUS_LOADED e) 0).setRole e 0 0
  let u := ((t.put (KE_ECC_UE e) 0).put (KE_ECC_MEM e) 0).wr (KE_ECCADR e) 0
  ((u.put (KE_STATUS_POOL e) 0).put (KE_STATUS_RUN e) 0).put ENG_RET_V (withBits (u.get ENG_RET_V) e e 0)
theorem unretireDone_due (hunret : (s.engine e).unret = true) (hpool : s.get (KE_STATUS_POOL e) = 3) :
    unretireDone e s = ((s.clearMem (progBase e) (progBase e + 0x18000)).unretired e).setEngine e {} := by
  have hp : s.pool e = 3 := hpool
  unfold unretireDone State.unretired
  simp only [if_pos (And.intro hunret hp)]
theorem State.unretired_mem : (s.unretired e).mem = s.mem := by
  unfold State.unretired
  extract_lets t u
  have hrole : t.mem = s.mem := by
    unfold t State.setRole
    rw [State.put_mem, State.put_mem, State.put_mem, State.wr_mem]
  have hecc : u.mem = t.mem := by
    unfold u
    rw [State.wr_mem, State.put_mem, State.put_mem]
  rw [State.put_mem, State.put_mem, State.put_mem, hecc, hrole]
theorem State.unretired_POOL (he : e < 20) : (s.unretired e).get (KE_STATUS_POOL e) = 0 :=
  (State.get_put_elsewhere _ _ rfl (KE_STATUS_ne_ENG_RET he)).trans ((State.get_put_apart _ 0 rfl).trans (State.get_put_own _ 0 rfl))
theorem State.unretired_RUN (he : e < 20) : (s.unretired e).get (KE_STATUS_RUN e) = 0 :=
  (State.get_put_elsewhere _ _ rfl (KE_STATUS_ne_ENG_RET he)).trans (State.get_put_own _ 0 rfl)
theorem State.unretired_LOADED (he : e < 20) : (s.unretired e).get (KE_STATUS_LOADED e) = 0 := by
  unfold State.unretired
  extract_lets t u
  have hshown : t.get (KE_STATUS_LOADED e) = 0 := (State.setRole_get 0 0 rfl).trans (State.get_put_own _ 0 rfl)
  have hecc : u.rd (KE_STATUS e) = t.rd (KE_STATUS e) := (State.rd_wr_ne _ _ KE_STATUS_ne_ecc.2).trans
    ((State.rd_put_word 0 (by decide) KE_STATUS_ne_ecc.1).trans (State.rd_put_word 0 (by decide) KE_STATUS_ne_ecc.1))
  exact (State.get_put_elsewhere _ _ rfl (KE_STATUS_ne_ENG_RET he)).trans ((State.get_put_apart _ 0 rfl).trans
    ((State.get_put_apart _ 0 rfl).trans ((State.get_of_rd (by decide) hecc).trans hshown)))
theorem State.unretired_ENG_RET (he : e < 20) : (s.unretired e).get ENG_RET_V / 2 ^ e % 2 = 0 := ENG_RET_bit he _ 0 (by decide)
end

/-- Settles O27, clause by clause: each command is the operation that its conditions choose (`State.loadBegin`, `State.startFree`,
`State.retire`, `State.unretired`), and the fields are read off that operation's writes. -/
theorem engineControlRows : Obligations.EngineControlRows := by
  intro s w e hup
  have heng : e.val < 20 := e.isLt
  refine ⟨fun r how htaken => ?_, fun r how hrefused => ?_, fun i r hfree hloading => ?_,
    fun r how hpool hrun hloaded hroute hrole => ?_, fun r how hpool hrun hloaded hroute hrole => ?_,
    fun how hrole hpool hrun => ?_, fun how hretired => ⟨?_, ?_⟩, fun k hk hpool => ?_, fun k hk hpool => ?_,
    fun k hk hpool => ?_, fun k hk => ?_, fun hunret hpool => ?_⟩
  · refine ⟨_, live_next hup _, ?_⟩
    simp only [State.effect_get, State.effect_rd, State.effect_engine, engineLoad_taken heng how htaken]
    exact ⟨State.loadBegin_RUN _, State.loadBegin_LOADED _, State.loadBegin_loading _,
      (State.loadBegin_ROUTE _).trans (Nat.mod_eq_of_lt r.isLt), fun a hst hctrl => State.loadBegin_rd _ hst hctrl⟩
  · refine ⟨_, live_next hup _, ?_⟩
    simp only [State.effect_get, State.effect_engines, engineLoad_refused heng how hrefused]
    exact ⟨(State.get_put_own _ _ rfl).trans (Nat.mod_eq_of_lt (State.loadErr_lt _)),
      (State.put_engines ..).trans (State.put_engines ..),
      (State.get_put_apart _ _ rfl).trans (State.get_of_rd (by decide) (State.route_status _))⟩
  · refine ⟨_, live_next hup _, ?_⟩
    simp only [State.effect_get, State.effect_engine, loadDone_free hfree]
    rw [State.loadFinish_engine hloading]
    obtain ⟨hroute, hdone⟩ := State.loaded_engine (s := s) (e := e.val) r
    exact ⟨hroute, hdone, State.loadFinish_LOADED hloading, State.loadFinish_RUN hloading, State.loadFinish_RIDX hloading⟩
  · refine ⟨_, live_next hup _, ?_⟩
    have hstart : engineStart w e s = s.startFree e :=
      (engineStart_ready how hpool hrun hloaded hroute).trans (if_neg (not_not.mpr hrole))
    simp only [State.effect_get, State.effect_engine, hstart]
    obtain ⟨hpc, hg, hstack⟩ := State.startFree_engine hroute
    exact ⟨State.startFree_POOL, State.startFree_RUN, hpc, hg, hstack, State.startFree_TRAP⟩
  · refine ⟨_, live_next hup _, ?_⟩
    have hstart : engineStart w e s = s.put (KE_STATUS_ERR e) 6 :=
      (engineStart_ready how hpool hrun hloaded hroute).trans (if_pos hrole)
    simp only [State.effect_get, State.effect_engines, hstart]
    exact ⟨State.get_put_own _ 6 rfl, State.put_engines ..⟩
  · refine ⟨_, live_next hup _, ?_⟩
    simp only [State.effect_engine, State.effect_regs, haltAction_running how hrole hpool hrun]
    exact ⟨by rw [State.engine_modEngine_same], State.modEngine_regs ..⟩
  · refine ⟨_, live_next hup _, ?_⟩
    simp only [State.effect_get, State.effect_engines, haltAction_retired how hretired]
    exact ⟨State.get_put_own _ 5 rfl, State.put_engines ..⟩
  · refine ⟨_, live_next hup _, ?_⟩
    simp only [State.effect_get, State.effect_engines, engineStart_retired how hretired]
    exact ⟨State.get_put_own _ 5 rfl, State.put_engines ..⟩
  · refine ⟨_, live_next hup _, ?_⟩
    simp only [State.effect_get, hk, retireAction_taken heng hpool]
    exact ⟨State.retire_POOL heng, State.retire_RUN heng, State.retire_ENG_RET heng, retireAction_ENG heng⟩
  · refine ⟨_, live_next hup _, ?_⟩
    simp only [State.effect_get, State.effect_rd, State.effect_engines, hk, retireAction_refused heng hpool]
    have hst : KE_STATUS e ≠ ENG_RETCMD := by unfold KE_STATUS ENG_RETCMD; omega
    exact ⟨State.get_put_own _ 1 rfl, (State.rd_put_word 1 (by decide) hst).trans (State.rd_put_word _ (by decide) hst),
      (State.put_engines ..).trans (State.put_engines ..)⟩
  · refine ⟨_, live_next hup _, ?_⟩
    simp only [State.effect_get, State.effect_engine, hk, unretire_taken heng hpool]
    exact ⟨by rw [State.engine_modEngine_same],
      (State.modEngine_get ..).trans ((State.get_put_own _ _ rfl).trans (Nat.mod_eq_of_lt (heng.trans (by decide : 20 < 2 ^ 5)))),
      (State.modEngine_get ..).trans ((State.retcmd_status heng _).trans hpool)⟩
  · refine ⟨_, live_next hup _, ?_⟩
    simp only [State.effect_get, State.effect_engines, unretire_refused hk]
    exact ⟨State.get_put_own _ 1 rfl, (State.put_engines ..).trans (State.put_engines ..)⟩
  · refine ⟨_, live_next hup _, ?_⟩
    simp only [State.effect_get, State.effect_engine, State.effect_rdByte, unretireDone_due hunret hpool, State.setEngine_get,
      State.engine_setEngine_same]
    have hmem (a : Nat) : (((s.clearMem (progBase e) (progBase e + 0x18000)).unretired e).setEngine e {}).rdByte a =
        (s.clearMem (progBase e) (progBase e + 0x18000)).rdByte a :=
      State.rdByte_of_mem ((State.setEngine_mem ..).trans State.unretired_mem) a
    refine ⟨State.unretired_POOL heng, State.unretired_RUN heng, State.unretired_LOADED heng, State.unretired_ENG_RET heng, trivial,
      fun a hlo hhi => ?_, fun a ha => ?_⟩
    · rw [hmem, State.rdByte_clearMem, if_neg (by omega)]
    · rw [hmem, State.rdByte_clearMem, if_pos ha]

end Sys2Proof.Machine
end
section
/-! PROOFS. The statement O28: lead swaps and emergency swaps (R133 to R136). -/
namespace Sys2Proof.Machine

/-! ### The fields of a word written with bits set and cleared -/

/-- A field outside the bits that `m` sets and `k` clears. -/
theorem fieldOf_masked {a hi lo : Nat} (v m k : Word)
    (h : ∀ i : Fin 32, lo ≤ i → i ≤ hi → m.getLsbD i = false ∧ k.getLsbD i = true) (hw : hi < 32) :
    fieldOf ((v ||| m) &&& k) ⟨a, hi, lo⟩ = fieldOf v ⟨a, hi, lo⟩ := by
  apply Nat.eq_of_testBit_eq
  intro i
  unfold fieldOf
  rw [testBit_bitsOf, testBit_bitsOf]
  by_cases hi' : i < hi + 1 - lo
  · obtain ⟨hm, hk⟩ := h ⟨i + lo, by omega⟩ (by dsimp only; omega) (by dsimp only; omega)
    simp only [BitVec.testBit_toNat, BitVec.getLsbD_and, BitVec.getLsbD_or]
    dsimp only at hm hk
    simp [hm, hk]
  · simp [hi']
theorem fieldOf_bit {a i : Nat} (v : Word) : fieldOf v ⟨a, i, i⟩ = (v.getLsbD i).toNat := by
  unfold fieldOf bitsOf
  rw [Nat.add_sub_cancel_left, pow_one, ← BitVec.testBit_toNat, Nat.toNat_testBit]

section
variable {s : State} {n : Nat}

/-! ### GO (R133, R134) -/

theorem State.swapRefusal_lt (v : Word) : s.swapRefusal n v < 16 := by
  unfold State.swapRefusal
  dsimp only
  repeat' split
  all_goals decide
theorem State.swapRefusal_congr {v u : Word} (hrole : fieldOf u (AX_SWAP_ROLE n) = fieldOf v (AX_SWAP_ROLE n))
    (htgt : fieldOf u (AX_SWAP_TARGET n) = fieldOf v (AX_SWAP_TARGET n))
    (hroute : fieldOf u (AX_SWAP_ROUTE n) = fieldOf v (AX_SWAP_ROUTE n)) : s.swapRefusal n u = s.swapRefusal n v := by
  unfold State.swapRefusal
  rw [hrole, htgt, hroute]
/-- The slot's engine of the role of a GO that is not refused (R133). -/
theorem State.roleEngine_of_accepted {v : Word} (h : s.swapRefusal n v = 0) :
    ∃ src, s.roleEngine n (fieldOf v (AX_SWAP_ROLE n)) = some src := by
  cases hrole : s.roleEngine n (fieldOf v (AX_SWAP_ROLE n)) with
  | some src => exact ⟨src, rfl⟩
  | none =>
    unfold State.swapRefusal at h
    dsimp only at h
    rw [hrole] at h
    dsimp only at h
    repeat' split at h
    all_goals exact absurd h (by decide)

theorem KE_STATUS_ne_SWAPST (n : Fin 16) (e : Nat) : AX_SWAPST n ≠ KE_STATUS e := AX_SWAPST_ne_engine n
/-- GO with its two actions as the row of SWAP_GO writes them. -/
theorem swapWrite_go {w : Writer} (v : Word) (how : s.owns w n = true) :
    swapWrite w n ((v ||| 0x80#32) &&& 0xFFFFFFBF#32) s = s.swapStart n ((v ||| 0x80#32) &&& 0xFFFFFFBF#32) := by
  have hgo : fieldOf ((v ||| 0x80#32) &&& 0xFFFFFFBF#32) (AX_SWAP_GO n) = 1 := by
    refine (fieldOf_bit _).trans ?_
    simp
  have hcancel : fieldOf ((v ||| 0x80#32) &&& 0xFFFFFFBF#32) (AX_SWAP_CANCEL n) = 0 := by
    refine (fieldOf_bit _).trans ?_
    simp
  unfold swapWrite
  simp [how, hgo, hcancel]
theorem swapWrite_cancel {w : Writer} (v : Word) (how : s.owns w n = true) :
    swapWrite w n ((v ||| 0x40#32) &&& 0xFFFFFF7F#32) s =
      (s.wr (AX_SWAP n) (((v ||| 0x40#32) &&& 0xFFFFFF7F#32) &&& 0xFFFFFF3F#32)).swapCancel n := by
  have hgo : fieldOf ((v ||| 0x40#32) &&& 0xFFFFFF7F#32) (AX_SWAP_GO n) = 0 := by
    refine (fieldOf_bit _).trans ?_
    simp
  have hcancel : fieldOf ((v ||| 0x40#32) &&& 0xFFFFFF7F#32) (AX_SWAP_CANCEL n) = 1 := by
    refine (fieldOf_bit _).trans ?_
    simp
  unfold swapWrite
  simp only [how, hgo, hcancel]
  rfl
theorem goFields (v : Word) (n : Nat) :
    fieldOf ((v ||| 0x80#32) &&& 0xFFFFFFBF#32) (AX_SWAP_ROLE n) = fieldOf v (AX_SWAP_ROLE n) ∧
    fieldOf ((v ||| 0x80#32) &&& 0xFFFFFFBF#32) (AX_SWAP_TARGET n) = fieldOf v (AX_SWAP_TARGET n) ∧
    fieldOf ((v ||| 0x80#32) &&& 0xFFFFFFBF#32) (AX_SWAP_ROUTE n) = fieldOf v (AX_SWAP_ROUTE n) :=
  ⟨fieldOf_masked _ _ _ (by decide) (by decide), fieldOf_masked _ _ _ (by decide) (by decide),
    fieldOf_masked _ _ _ (by decide) (by decide)⟩

/-- What an accepted GO has set when the target has its place (R133, R134). -/
def State.Swapping (s : State) (n tgt : Nat) : Prop :=
  s.get (AX_SWAPST_PHASE n) = 1 ∧ s.get (AX_SWAPST_RESULT n) = 0 ∧ (s.swap n).tgt = tgt ∧ s.get (KE_STATUS_POOL tgt) = 2
theorem State.swapStart_refused {v : Word} (h : s.swapRefusal n v ≠ 0) :
    s.swapStart n v = s.put (AX_SWAPST_RESULT n) (s.swapRefusal n v) := by
  unfold State.swapStart
  exact if_pos h
theorem State.swapStart_accepted (n : Fin 16) {v : Word} (h : s.swapRefusal n v = 0) :
    (s.swapStart n v).Swapping n (fieldOf v (AX_SWAP_TARGET n)) := by
  obtain ⟨src, hsrc⟩ := State.roleEngine_of_accepted h
  unfold State.swapStart
  extract_lets r role tgt
  rw [if_neg (not_not.mpr h), hsrc]
  dsimp -zeta only
  extract_lets idx q s1 s2 s3
  have hswap : (s2.swap n).tgt = tgt := by
    unfold s2 s1 State.setRole
    rw [State.put_swap, State.put_swap, State.put_swap, State.put_swap, State.swap_setSwap_same]
  have hpool : s2.get (KE_STATUS_POOL tgt) = 2 := (State.setRole_get _ _ rfl).trans (State.get_put_own _ 2 rfl)
  have h3 : s3.Swapping n tgt := by
    have hst (t : State) (hi lo v : Nat) (hw : hi < 32) : (t.put ⟨AX_SWAPST n, hi, lo⟩ v).rd (KE_STATUS tgt) = t.rd (KE_STATUS tgt) :=
      State.rd_put_word v hw (KE_STATUS_ne_SWAPST n tgt).symm
    have hstatus : s3.rd (KE_STATUS tgt) = s2.rd (KE_STATUS tgt) :=
      (hst _ _ _ _ (by decide)).trans ((hst _ _ _ _ (by decide)).trans (hst _ _ _ _ (by decide)))
    refine ⟨(State.get_put_apart _ 0 rfl).trans ((State.get_put_apart _ 0 rfl).trans (State.get_put_own _ 1 rfl)),
      (State.get_put_apart _ 0 rfl).trans (State.get_put_own _ 0 rfl), ?_, (State.get_of_rd (by decide) hstatus).trans hpool⟩
    unfold s3
    rw [State.put_swap, State.put_swap, State.put_swap, hswap]
  obtain ⟨hphase, hresult, htgt, hassigned⟩ := h3
  split
  · exact ⟨hphase, hresult, htgt, hassigned⟩
  · have hax (t : State) (hi lo v : Nat) (hw : hi < 32) : (t.put ⟨KE_STATUS tgt, hi, lo⟩ v).rd (AX_SWAPST n) = t.rd (AX_SWAPST n) :=
      State.rd_put_word v hw (KE_STATUS_ne_SWAPST n tgt)
    have hswapst : (((s3.put (KE_STATUS_RUN tgt) 1).put (KE_STATUS_LOADED tgt) 0).modEngine tgt
        (fun x => { x with loading := some (idx, q) })).rd (AX_SWAPST n) = s3.rd (AX_SWAPST n) :=
      (State.modEngine_rd ..).trans ((hax _ _ _ _ (by decide)).trans (hax _ _ _ _ (by decide)))
    refine ⟨(State.get_of_rd (by decide) hswapst).trans hphase, (State.get_of_rd (by decide) hswapst).trans hresult, ?_,
      (State.modEngine_get ..).trans ((State.get_put_apart _ 0 rfl).trans ((State.get_put_apart _ 1 rfl).trans hassigned))⟩
    rw [State.modEngine_swap, State.put_swap, State.put_swap, htgt]

/-! ### The ends of a swap (R134, R135) -/

theorem State.swapAbandon_ends (n : Nat) {r : Nat} (hr : r < 16) : (s.swapAbandon n r).get (AX_SWAPST_PHASE n) = 0 ∧
    (s.swapAbandon n r).get (AX_SWAPST_RESULT n) = r ∧ (s.swapAbandon n r).swap n = {} := by
  unfold State.swapAbandon
  extract_lets x s1 s2 s3
  refine ⟨?_, ?_, by rw [((StreamsOnly.refl _).swapAnswer n r).swap, State.swap_setSwap_same]⟩
  · rw [State.swapAnswer_get, State.setSwap_get]
    exact (State.get_put_apart _ r rfl).trans (State.get_put_own _ 0 rfl)
  · rw [State.swapAnswer_get, State.setSwap_get]
    exact (State.get_put_own _ r rfl).trans (Nat.mod_eq_of_lt hr)
theorem State.swapCancel_early (n : Nat) (b : Nat) (v : Word) (hb : AX_SWAPST n ≠ b) (h : s.swapEarly n = true) :
    (s.wr b v).swapCancel n = (s.wr b v).swapAbandon n 8 := by
  have hearly : (s.wr b v).swapEarly n = true := (State.swapEarly_of_rd (State.rd_wr_ne _ _ hb)).trans h
  unfold State.swapCancel
  rw [if_pos hearly]
theorem waitckpTimeout_due (hphase : s.get (AX_SWAPST_PHASE n) = 2) (hticks : 64 ≤ (s.swap n).ticks) :
    waitckpTimeout n s = s.swapAbandon n 13 := if_pos ⟨hphase, hticks⟩
theorem shadowMismatch_due (hphase : s.get (AX_SWAPST_PHASE n) = 3) (hpasses : 64 ≤ (s.swap n).passes)
    (hmatched : (s.swap n).matched = false) : shadowMismatch n s = s.swapAbandon n 7 :=
  if_pos ⟨hphase, hpasses, by rw [hmatched]; rfl⟩

/-! ### From the load to the release (R134) -/

theorem swapLoadDone_loading (hphase : s.get (AX_SWAPST_PHASE n) = 1) : swapLoadDone n s =
    ((s.loadFinish (s.swap n).tgt).put (AX_SWAPST_PHASE n) 2).setSwap n { s.swap n with ticks := 0 } := if_pos hphase

theorem swapSwitch_spec (n : Fin 16) (hphase : s.get (AX_SWAPST_PHASE n) = 3) (hmatched : (s.swap n).matched = true)
    (hpass : s.switchPass n = true) (htgt : (s.swap n).tgt < 20) :
    (swapSwitch n s).get (AX_SWAPST_PHASE n) = 4 ∧ (swapSwitch n s).get (KE_STATUS_RUN (s.swap n).tgt) = 2 := by
  unfold swapSwitch
  extract_lets x s1 s2 wrote
  rw [if_pos ⟨hphase, hmatched, hpass⟩]
  have hacts : s2.get (AX_SWAPST_PHASE n) = 4 ∧ s2.get (KE_STATUS_RUN x.tgt) = 2 :=
    ⟨(State.setSwap_get ..).trans ((State.get_put_elsewhere _ 2 rfl (KE_STATUS_ne_SWAPST n x.tgt)).trans (s.get_put_own 4 rfl)),
      (State.setSwap_get ..).trans (State.get_put_own _ 2 rfl)⟩
  have hvector {b : Nat} (hb : b < 0x201000) :
      (s2.each x.vec (fun v t => (if v.2.1 = 1 then t.put (PWM_CMPN_CMPN v.1) v.2.2 else t).modChan v.1
        (fun y => { y with want := v.2.1 }))).rd b = s2.rd b := by
    refine State.each_rd _ (fun v _ t => ?_)
    have hcmp : (t.put (PWM_CMPN_CMPN v.1) v.2.2).rd b = t.rd b :=
      State.rd_put_word _ (by decide) (by unfold PWM_CMPN; omega)
    rw [State.modChan_rd, State.ite_rd, hcmp, ite_self]
  split
  · exact ⟨(State.get_of_rd (by decide) (hvector (by unfold AX_SWAPST; omega))).trans hacts.1,
      (State.get_of_rd (by decide) (hvector (by unfold KE_STATUS; omega))).trans hacts.2⟩
  · exact hacts

theorem State.engineIdle_slot_rd {b : Nat} (e : Nat) (h : b < 0x100000) : (s.engineIdle e).rd b = s.rd b :=
  State.engineIdle_rd (by unfold KE_STATUS; omega)
/-- The release of the control role names its target in AXn_ENGSEL. -/
theorem State.releaseSwap_control (n : Fin 16) (hrole : (s.swap n).role = 0) (htgt : (s.swap n).tgt < 20) :
    (s.releaseSwap n).get (AX_SWAPST_PHASE n) = 0 ∧ (s.releaseSwap n).get (AX_SWAPST_RESULT n) = 1 ∧
    (s.releaseSwap n).get (AX_ENGSEL_CTLENG n) = (s.swap n).tgt ∧ (s.releaseSwap n).swap n = {} := by
  unfold State.releaseSwap
  extract_lets x s1 s2
  have hnamed : s1.get (AX_ENGSEL_CTLENG n) = x.tgt := by
    unfold s1 State.nameEngine
    rw [if_pos hrole]
    exact (State.get_put_apart _ 1 rfl).trans ((State.get_put_own _ x.tgt rfl).trans (Nat.mod_eq_of_lt (htgt.trans
       (by decide : 20 < 2 ^ 5))))
  have hsource : s2.rd (AX_ENGSEL n) = s1.rd (AX_ENGSEL n) := by
    unfold s2
    rw [State.ite_rd, State.modEngine_rd, State.engineIdle_slot_rd _ (by unfold AX_ENGSEL; omega), ite_self]
  have hother : AX_ENGSEL n ≠ AX_SWAPST n := by unfold AX_ENGSEL AX_SWAPST; omega
  refine ⟨?_, ?_, ?_, by rw [((StreamsOnly.refl _).swapAnswer n 1).swap, State.swap_setSwap_same]⟩
  · rw [State.swapAnswer_get, State.setSwap_get]
    exact (State.get_put_apart _ 1 rfl).trans (State.get_put_own _ 0 rfl)
  · rw [State.swapAnswer_get, State.setSwap_get]
    exact State.get_put_own _ 1 rfl
  · rw [State.swapAnswer_get, State.setSwap_get]
    exact (State.get_put_elsewhere _ 1 rfl hother).trans ((State.get_put_elsewhere _ 0 rfl hother).trans
      ((State.get_of_rd (by decide) hsource).trans hnamed))
theorem swapRelease_due (hphase : s.get (AX_SWAPST_PHASE n) = 4) (hswitched : (s.swap n).switched = true) :
    swapRelease n s = s.releaseSwap n := if_pos ⟨hphase, Or.inl hswitched⟩

/-! ### Emergency swaps (R136) -/

/-- The record of the emergency swap of a role stands apart from those of the other role. -/
theorem emKey_ne (n : Nat) (role : Fin 2) : emKey n (1 - role) ≠ emKey n role := by unfold emKey; omega
theorem State.nameEngine_rd {b : Nat} (role e : Nat) (h : b ≠ AX_ENGSEL n) : (s.nameEngine n role e).rd b = s.rd b := by
  unfold State.nameEngine
  split
  · exact (State.rd_put_word 1 (by decide) h).trans (State.rd_put_word e (by decide) h)
  · exact (State.rd_put_word 1 (by decide) h).trans (State.rd_put_word e (by decide) h)
theorem State.nameEngine_swap (role e k : Nat) : (s.nameEngine n role e).swap k = s.swap k := by
  unfold State.nameEngine
  split
  · exact (State.put_swap ..).trans (State.put_swap ..)
  · exact (State.put_swap ..).trans (State.put_swap ..)
theorem State.emergencyClose_rd {b : Nat} (role : Nat) (h : b ≠ AX_SWAPST n) : (s.emergencyClose n role).rd b = s.rd b := by
  have hphase (t : State) : (t.put (AX_SWAPST_PHASE n) 0).rd b = t.rd b := State.rd_put_word 0 (by decide) h
  simp only [State.emergencyClose, State.ite_rd, hphase, State.setSwap_rd, ite_self]
theorem State.emergencyClose_swap (role : Nat) : (s.emergencyClose n role).swap (emKey n role) = {} := by
  unfold State.emergencyClose
  dsimp only
  split
  · exact State.swap_setSwap_same ..
  · exact (State.put_swap ..).trans (State.swap_setSwap_same ..)
/-- PHASE is 0 when the emergency swap of one role is over and the other role has none. -/
theorem State.emergencyClose_PHASE (role : Fin 2) (h : (s.swap (emKey n (1 - role))).emerg = false) :
    (s.emergencyClose n role).get (AX_SWAPST_PHASE n) = 0 := by
  unfold State.emergencyClose
  dsimp only
  rw [State.swap_setSwap_ne _ _ (emKey_ne n role), if_neg (by rw [h]; decide)]
  exact State.get_put_own _ 0 rfl

/-- An emergency swap ends: RESULT tells of a gap, the target is ASSIGNED (R136). -/
theorem State.emergencyEnd_spec (n : Fin 16) (role : Fin 2) :
    ((s.emergencyEnd n role).swap (emKey n role)).emerg = false ∧
    (s.emergencyEnd n role).get (AX_SWAPST_RESULT n) = (if (s.swap (emKey n role)).gapped then 12 else 11) ∧
    (s.emergencyEnd n role).get (KE_STATUS_POOL (s.swap (emKey n role)).tgt) = 1 ∧
    ((s.swap (emKey n (1 - role.val))).emerg = false → (s.emergencyEnd n role).get (AX_SWAPST_PHASE n) = 0) := by
  unfold State.emergencyEnd
  extract_lets x s1
  have hswap (k : Nat) : s1.swap k = s.swap k := (State.nameEngine_swap ..).trans (State.put_swap ..)
  have hpool : (s1.emergencyClose n role).rd (KE_STATUS x.tgt) = (s.put (KE_STATUS_POOL x.tgt) 1).rd (KE_STATUS x.tgt) :=
    (State.emergencyClose_rd _ (KE_STATUS_ne_SWAPST n x.tgt).symm).trans
      (State.nameEngine_rd _ _ (by unfold KE_STATUS AX_ENGSEL; omega))
  refine ⟨by rw [State.put_swap, State.emergencyClose_swap], ?_, ?_, fun hother => ?_⟩
  · refine (State.get_put_own _ _ rfl).trans (Nat.mod_eq_of_lt (show _ < 16 from ?_))
    split <;> omega
  · exact (State.get_put_elsewhere _ _ rfl (KE_STATUS_ne_SWAPST n x.tgt).symm).trans
      ((State.get_of_rd (by decide) hpool).trans (s.get_put_own 1 rfl))
  · exact (State.get_put_apart _ _ rfl).trans (State.emergencyClose_PHASE role (by rw [hswap]; exact hother))
theorem emergencyTakeover_energised (role : Nat) (h : [0, 1].find? (s.takesOver n) = some role) (hon : s.energised n = true) :
    emergencyTakeover n s = s.emergencyEnd n role := by
  unfold emergencyTakeover
  rw [h]
  exact if_pos hon

theorem State.counted_swap (src k : Nat) : (s.counted src).swap k = s.swap k := by
  unfold State.counted State.inc
  rw [State.put_swap, State.put_swap, State.put_swap]
/-- A cold control target has not been loaded after two loop instants (R136). -/
theorem emergencyGap_due (n : Fin 16) (hem : (s.swap (emKey n 0)).emerg = true) (hload : (s.swap (emKey n 0)).loaded = false)
    (hinst : 2 ≤ (s.swap (emKey n 0)).instants) (hgap : (s.swap (emKey n 0)).gapped = false) (hlocal : s.isLocal n = true)
    (hon : s.energised n = true) : (emergencyGap n s).get (AX_SWAPST_GAPRUN n) = 1 ∧
      ((emergencyGap n s).swap (emKey n 0)).gapped = true ∧ (emergencyGap n s).get (FLT_SRC_SEEN (0x100 + 16 * n + 9)) = 1 := by
  unfold emergencyGap
  extract_lets x low s1
  rw [if_pos ⟨hem, hinst, by rw [hgap]; rfl, by rw [hload]; rfl, hlocal, hon⟩]
  generalize hu : (s1.put (AX_SWAPST_GAPRUN n) 1).setSwap (emKey n 0) { x with gapped := true } = u
  have hrun : u.get (AX_SWAPST_GAPRUN n) = 1 := by rw [← hu]; exact (State.setSwap_get ..).trans (State.get_put_own _ 1 rfl)
  have hmark : u.swap (emKey n 0) = { x with gapped := true } := by rw [← hu]; exact State.swap_setSwap_same ..
  have hcounted : (u.counted (0x100 + 16 * n + 9)).rd (AX_SWAPST n) = u.rd (AX_SWAPST n) :=
    State.counted_rd (by omega) (by unfold AX_SWAPST; omega)
  refine ⟨(steady_gaprun n).raise _ _ _ _ _ _ _ ((State.get_of_rd (by decide) hcounted).trans hrun), ?_, ?_⟩
  · have hkept := (steady_emergency (k := emKey n 0) (by unfold emKey; omega) { x with gapped := true }).raise (0x100 + 16 * n + 9)
      0 x.tgt (0x800000 + x.src * 0x10000 + addrSlot n) s1.now false none ((State.counted_swap ..).trans hmark)
    rw [hkept]
  · have hword : FLT_SRC (0x100 + 16 * n + 9) = 0x340424 + 0x40 * n := by unfold FLT_SRC; omega
    have hkept := (steady_rd ((u.counted (0x100 + 16 * n + 9)).rd (FLT_SRC (0x100 + 16 * n + 9)))
      (b := FLT_SRC (0x100 + 16 * n + 9)) (Or.inr (Or.inl (by rw [hword]; omega))) (by rw [hword]; omega) (by
        intro o ho
        simp only [traceOffsets, List.mem_cons, List.not_mem_nil, or_false] at ho
        omega)).raise (0x100 + 16 * n + 9)
      0 x.tgt (0x800000 + x.src * 0x10000 + addrSlot n) s1.now false none rfl
    exact (State.get_of_rd (by decide) hkept).trans (State.get_put_own _ 1 rfl)
end

/-- Settles O28, clause by clause: the ends of a lead swap are `State.swapAbandon` and `State.releaseSwap`, those of an emergency
swap `State.emergencyEnd`; the message of a gap undoes none of what the gap has set (`Steady.raise`). -/
theorem swapRows : Obligations.SwapRows := by
  intro s w n v hup
  obtain ⟨hrole, htarget, hroute⟩ := goFields v n
  have hrefusal : s.swapRefusal n ((v ||| 0x80#32) &&& 0xFFFFFFBF#32) = s.swapRefusal n v :=
    State.swapRefusal_congr hrole htarget hroute
  refine ⟨fun how hno => ?_, fun how hgo => ?_, fun how hearly => ?_, fun hphase => ?_, fun hphase hticks => ?_,
    fun hphase hpasses hmatched => ?_, fun hphase hmatched hpass htgt _ => ?_, fun hphase hswitched hctl htgt => ?_,
    fun hem hload hinst hgap hlocal hon => ?_, fun role hrole hon _ => ?_⟩
  · refine ⟨_, live_next hup _, ?_⟩
    simp only [State.effect_get, State.effect_rd, State.effect_swaps, swapWrite_go v how]
    rw [State.swapStart_refused (by rw [hrefusal]; exact hno), hrefusal]
    exact ⟨(State.get_put_own _ _ rfl).trans (Nat.mod_eq_of_lt (State.swapRefusal_lt v)), State.get_put_apart _ _ rfl,
      State.put_swaps .., fun a ha => State.rd_put_word _ (by decide) ha⟩
  · refine ⟨_, live_next hup _, ?_⟩
    simp only [State.effect_get, State.effect_swap, swapWrite_go v how]
    have hswap := State.swapStart_accepted n (hrefusal.trans hgo)
    rw [htarget] at hswap
    exact hswap
  · refine ⟨_, live_next hup _, ?_⟩
    simp only [State.effect_get, State.effect_swap, swapWrite_cancel v how]
    rw [State.swapCancel_early n _ _ (by unfold AX_SWAPST AX_SWAP; omega) hearly]
    exact State.swapAbandon_ends n (by decide)
  · refine ⟨_, live_next hup _, ?_⟩
    simp only [State.effect_get, State.effect_swap, swapLoadDone_loading hphase, State.swap_setSwap_same, State.setSwap_get]
    exact ⟨State.get_put_own _ 2 rfl, trivial, trivial⟩
  · refine ⟨_, live_next hup _, ?_⟩
    simp only [State.effect_get, waitckpTimeout_due hphase hticks]
    obtain ⟨hended, hresult, -⟩ := State.swapAbandon_ends (s := s) n (show 13 < 16 by decide)
    exact ⟨hended, hresult⟩
  · refine ⟨_, live_next hup _, ?_⟩
    simp only [State.effect_get, shadowMismatch_due hphase hpasses hmatched]
    obtain ⟨hended, hresult, -⟩ := State.swapAbandon_ends (s := s) n (show 7 < 16 by decide)
    exact ⟨hended, hresult⟩
  · refine ⟨_, live_next hup _, ?_⟩
    simp only [State.effect_get]
    exact swapSwitch_spec n hphase hmatched hpass htgt
  · refine ⟨_, live_next hup _, ?_⟩
    simp only [State.effect_get, State.effect_swap, swapRelease_due hphase hswitched]
    exact State.releaseSwap_control n hctl htgt
  · refine ⟨_, live_next hup _, ?_⟩
    simp only [State.effect_get, State.effect_swap]
    exact emergencyGap_due n hem hload hinst hgap hlocal hon
  · refine ⟨_, live_next hup _, ?_⟩
    simp only [State.effect_get, State.effect_swap, emergencyTakeover_energised _ hrole hon]
    exact State.emergencyEnd_spec n role

end Sys2Proof.Machine
end
section
/-! PROOFS. What an instruction of an engine does when it issues: its results, its trap, its stores (R138, R141, R147, R159). -/
namespace Sys2Proof.Machine

section
variable {s : State} {e : Nat} {w : Word}

/-! ### The issue (R138, R141) -/

/-- The engine's record as the body of an instruction takes it: the instruction waits for its guard's predicate. -/
def Engine.issued (x : Engine) (w : Word) : Engine := { x with cyc := x.ready [kPred (guardPred w)] }
@[simp] theorem Engine.issued_reg (x : Engine) (w : Word) (r : Nat) : (x.issued w).reg r = x.reg r := (rfl)
@[simp] theorem Engine.issued_block (x : Engine) (w : Word) (k : Nat) : (x.issued w).block k = x.block k := (rfl)
@[simp] theorem Engine.issued_sat (x : Engine) (w : Word) : (x.issued w).sat = x.sat := (rfl)
/-- An instruction that issues runs the body of its row. -/
theorem State.kstep_issues (h : s.issues e w) {sel : Word → Bool} (hsel : sel w = true) (body : Word → Engine → State → State) :
    s.kstep e sel body = body w ((s.engine e).issued w) s := by
  obtain ⟨⟨hexec, hpc, hword⟩, hguard⟩ := h
  have hruns : ¬ ((!s.executes e) = true ∨ 16384 ≤ (s.engine e).pc) := by simp [hexec, hpc]
  unfold State.kstep
  dsimp only
  rw [if_neg hruns, hword, if_neg (by simp [hsel]), if_pos hguard]
  rfl

theorem State.kput_engine (x : Engine) (t occ : Nat) (rs : List (Nat × Nat)) : (s.kput e x t occ rs).engine e = x.finish t occ rs :=
  State.engine_setEngine_same ..
theorem State.kput_engine_ne {m : Nat} (x : Engine) (t occ : Nat) (rs : List (Nat × Nat)) (h : m ≠ e) :
    (s.kput e x t occ rs).engine m = s.engine m := State.engine_setEngine_ne _ _ h
/-- A command whose effect is the results of one instruction, in `s` or in `s` with a free value drawn. -/
theorem State.onEngine_of_kput {c : Instr} {f : State → State} {u : State} {x : Engine} {t occ : Nat} {rs : List (Nat × Nat)}
    {P : Engine → Prop} (hup : s.up = true) (hexec : exec c s = live s f) (hf : f s = u.kput e x t occ rs)
    (hu : u = s ∨ u = s.draw) (hP : P (x.finish t occ rs)) : s.onEngine c e P := by
  have hregs : u.regs = s.regs := by rcases hu with rfl | rfl <;> rfl
  have hmem : u.mem = s.mem := by rcases hu with rfl | rfl <;> rfl
  have hengine (m : Nat) : u.engine m = s.engine m := by rcases hu with rfl | rfl <;> rfl
  refine ⟨s.effect f, hexec.trans (live_next hup f), ?_, ?_, ?_, fun m hm => ?_⟩
  · rw [State.effect_engine, hf, State.kput_engine]; exact hP
  · rw [State.effect_regs, hf]; exact (State.setEngine_regs ..).trans hregs
  · rw [State.effect_mem, hf]; exact (State.setEngine_mem ..).trans hmem
  · rw [State.effect_engine, hf, State.kput_engine_ne _ _ _ _ hm, hengine]

/-- Outside a loop the next word follows. -/
theorem Engine.finish_pc (x : Engine) (t occ : Nat) (rs : List (Nat × Nat)) (h : x.loops = []) :
    (x.finish t occ rs).pc = x.pc + 1 := by
  unfold Engine.finish Engine.advance
  dsimp only
  rw [h]
  rfl

/-! ### The results in blocks -/

theorem Engine.block_setBlock (x : Engine) (bd k : Nat) (b : Blk) :
    (x.setBlock bd b).block k = if k = bd then b else x.block k := by
  unfold Engine.block Engine.setBlock
  split
  · subst_vars; exact tabGet_tabPut_same ..
  · exact tabGet_tabPut_ne _ _ _ ‹_›
theorem Engine.onlyBlock_setBlock (x : Engine) (w : Word) (bd : Nat) (b : Blk) (t occ : Nat) (rs : List (Nat × Nat)) :
    x.onlyBlock (((x.issued w).setBlock bd b).finish t occ rs) bd b :=
  ⟨fun k => x.block_setBlock bd k b, rfl, rfl, rfl, rfl, fun h => Engine.finish_pc _ _ _ _ h⟩
theorem Engine.onlyBlock_setSat (x : Engine) (w : Word) (bd k : Nat) (b : Blk) (sat : Bool) (t occ : Nat) (rs : List (Nat × Nat)) :
    x.onlyBlock ((((x.issued w).setBlock bd b).setSat k sat).finish t occ rs) bd b :=
  ⟨fun k => x.block_setBlock bd k b, rfl, rfl, rfl, rfl, fun h => Engine.finish_pc _ _ _ _ h⟩
theorem Engine.onlyBlock_putWhole (x : Engine) (w : Word) (bd : Nat) (r : Blk × Bool) (t occ : Nat) (rs : List (Nat × Nat)) :
    x.onlyBlock (((x.issued w).putWhole bd r).finish t occ rs) bd r.1 := by
  unfold Engine.putWhole
  dsimp only
  split
  · exact Engine.onlyBlock_setSat ..
  · exact Engine.onlyBlock_setBlock ..
theorem Engine.putWhole_fits (x : Engine) (bd : Nat) (b : Blk) : x.putWhole bd (b, false) = x.setBlock bd b := (rfl)

/-! ### Traps (R126, R159) -/

/-- Engine `e` has ended its pass in a trap. -/
def State.Trapped (s : State) (e code : Nat) : Prop := s.get (KE_STATUS_TRAP e) = code ∧ (s.engine e).inPass = false

theorem State.Trapped.of_rd {t : State} {code : Nat} (h : s.Trapped e code) (hrd : t.rd (KE_STATUS e) = s.rd (KE_STATUS e))
    (hengine : t.engine e = s.engine e) : t.Trapped e code :=
  ⟨(State.get_of_rd (by decide) hrd).trans h.1, by rw [hengine]; exact h.2⟩
theorem State.Trapped.put {f : Fld} {code : Nat} (h : s.Trapped e code) (v : Nat) (hapart : fieldsApart f.hi f.lo 31 28 = true) :
    (s.put f v).Trapped e code :=
  ⟨(s.get_put_apart v hapart).trans h.1, by rw [State.put_engine]; exact h.2⟩
theorem State.Trapped.setRole {code : Nat} (h : s.Trapped e code) (m role n : Nat) : (s.setRole m role n).Trapped e code :=
  (h.put role rfl).put n rfl
theorem State.Trapped.raise {code : Nat} (h : s.Trapped e code) (he : e < 20) (src kind detail addr time : Nat) (loc : Bool)
    (sevIs : Option Nat) (hsrc : src < 0x400) : (s.raise src kind detail addr time loc sevIs).Trapped e code := by
  have hcounted : (s.counted src).Trapped e code :=
    h.of_rd (State.counted_rd hsrc (by unfold KE_STATUS; omega)) (by
      unfold State.counted State.inc
      rw [State.put_engine, State.put_engine, State.put_engine])
  exact (steady_trapped he code).raise src kind detail addr time loc sevIs hcounted
theorem State.Trapped.swapTargetLost {code : Nat} (h : s.Trapped e code) (n : Nat) : (s.swapTargetLost n).Trapped e code := by
  unfold State.swapTargetLost
  extract_lets x s1
  have h1 : s1.Trapped e code := State.ite_holds (Q := fun t => t.Trapped e code) (fun _ => h.put 1 rfl) (fun _ => h)
  have hended := (h1.put (f := AX_SWAPST_PHASE n) 0 rfl).put (f := AX_SWAPST_RESULT n) 10 rfl
  refine hended.of_rd ?_ ?_
  · rw [State.swapAnswer_rd, State.setSwap_rd]
  · rw [((StreamsOnly.refl _).swapAnswer n 10).engine, State.setSwap_engine]
theorem State.Trapped.emergencyEnd {code : Nat} (h : s.Trapped e code) (n role : Nat) : (s.emergencyEnd n role).Trapped e code := by
  have hnamed (t : State) (m r k : Nat) (ht : t.Trapped e code) : (t.nameEngine m r k).Trapped e code :=
    State.ite_holds (Q := fun u => u.Trapped e code) (fun _ => (ht.put k rfl).put 1 rfl) (fun _ => (ht.put k rfl).put 1 rfl)
  have hclosed (t : State) (m r : Nat) (ht : t.Trapped e code) : (t.emergencyClose m r).Trapped e code := by
    have hset : (t.setSwap (emKey m r) {}).Trapped e code := ht.of_rd (State.setSwap_rd ..) (State.setSwap_engine ..)
    exact State.ite_holds (Q := fun u => u.Trapped e code) (fun _ => hset) (fun _ => hset.put 0 rfl)
  unfold State.emergencyEnd
  exact (hclosed _ _ _ (hnamed _ _ _ _ (h.put 1 rfl))).put _ rfl

theorem State.engineTrap_trapped (he : e < 20) {code : Nat} (hcode : code < 16) (operand : Nat) :
    (s.engineTrap e code operand).Trapped e code := by
  unfold State.engineTrap
  extract_lets n slot ph target role em s1 detail addr src s2
  have h1 : s1.Trapped e code :=
    ⟨(State.modEngine_get ..).trans ((State.get_put_own _ code rfl).trans (Nat.mod_eq_of_lt hcode)), by
      unfold s1; rw [State.engine_modEngine_same]⟩
  have hsrc : src < 0x400 := by unfold src; omega
  have h2 : s2.Trapped e code := ((h1.put 0 rfl).setRole e 0 0).swapTargetLost n
  split
  · exact h2.raise he _ _ _ _ _ _ _ hsrc
  · split
    · exact h1.raise he _ _ _ _ _ _ _ hsrc
    · split
      · exact (h1.emergencyEnd n role).raise he _ _ _ _ _ _ _ hsrc
      · exact h1.raise he _ _ _ _ _ _ _ hsrc
/-- A command whose effect is a trap. -/
theorem State.trapsWith_of_engineTrap {c : Instr} {f : State → State} {code : Nat} (hup : s.up = true)
    (hexec : exec c s = live s f) (hf : f s = s.engineTrap e code 0) (he : e < 20) (hcode : code < 16) : s.trapsWith c e code := by
  have htrapped : (s.effect f).Trapped e code := by
    have h : (f s).Trapped e code := by rw [hf]; exact State.engineTrap_trapped he hcode 0
    exact h.of_rd (State.effect_rd ..) (State.effect_engine ..)
  exact ⟨s.effect f, hexec.trans (live_next hup f), htrapped⟩
end

end Sys2Proof.Machine
end
section
/-! PROOFS. The statement O35: block loads, stores and block arithmetic (R117, R118, R150, R153). -/
namespace Sys2Proof.Machine

section
variable {s : State} {e : Nat} {w : Word} {x : Engine}

/-! ### Words of data memory (R116) -/

theorem State.setDataWord_dataWord_ne {i j : Nat} (v : Word) (h : j ≠ i) : (s.setDataWord e i v).dataWord e j = s.dataWord e j := by
  obtain ⟨l, hnote, -, hwritten⟩ := (s.engine e).note_spec (16384 + i)
  have hmem : (s.setDataWord e i v).rdMem (dataBase e + 4 * j) = s.rdMem (dataBase e + 4 * j) := by
    unfold State.setDataWord
    rw [State.rdMem_of_mem (s := s.wrMem (dataBase e + 4 * i) v) (State.modEngine_mem ..)]
    exact State.rdMem_congr (fun k hk => State.rdByte_wrMem_ne _ _ (by omega))
  have hkept : l.contains (16384 + j) = (s.engine e).written.contains (16384 + j) := hwritten _ (by omega)
  unfold State.dataWord
  rw [State.setDataWord_engine, hnote, hmem]
  dsimp only
  rw [hkept]

/-- The words `ws` are stored from word `k` of data memory. -/
def State.storeWords (s : State) (e k : Nat) (ws : List Word) : State :=
  s.each (ws.zipIdx k) (fun p t => t.setDataWord e p.2 p.1)
theorem State.storeWords_cons (k : Nat) (v : Word) (ws : List Word) :
    s.storeWords e k (v :: ws) = (s.setDataWord e k v).storeWords e (k + 1) ws := (rfl)
theorem State.storeWords_before (ws : List Word) : ∀ (s : State) (k j : Nat), j < k →
    (s.storeWords e k ws).dataWord e j = s.dataWord e j := by
  induction ws with
  | nil => intro s k j _; rfl
  | cons v ws ih =>
    intro s k j hj
    rw [State.storeWords_cons, ih _ _ _ (by omega), State.setDataWord_dataWord_ne v (by omega)]
/-- The words read as they were stored. -/
theorem State.storeWords_dataWord (ws : List Word) : ∀ (s : State) (k i : Nat), i < ws.length →
    (s.storeWords e k ws).dataWord e (k + i) = ws.getD i 0 := by
  induction ws with
  | nil => intro s k i hi; exact absurd hi (Nat.not_lt_zero i)
  | cons v ws ih =>
    intro s k i hi
    rw [State.storeWords_cons]
    cases i with
    | zero => exact (State.storeWords_before ws _ _ _ (Nat.lt_add_one k)).trans (State.setDataWord_dataWord k v)
    | succ i => rw [show k + (i + 1) = k + 1 + i by omega, ih _ _ _ (by simpa using hi)]; rfl
theorem State.storeWords_regs (k : Nat) (ws : List Word) : (s.storeWords e k ws).regs = s.regs :=
  List.foldlRecOn (motive := fun t : State => t.regs = s.regs) _ _ rfl (fun _ ht _ _ =>
    ((State.modEngine_regs ..).trans (State.wrMem_regs ..)).trans ht)
theorem State.storeWords_engine (k : Nat) (ws : List Word) :
    ((s.storeWords e k ws).engine e).g = (s.engine e).g ∧ ((s.storeWords e k ws).engine e).blk = (s.engine e).blk :=
  List.foldlRecOn (motive := fun t : State => (t.engine e).g = (s.engine e).g ∧ (t.engine e).blk = (s.engine e).blk) _ _ ⟨rfl, rfl⟩
    (fun t ht p _ => by
      obtain ⟨l, hnote, -, -⟩ := (t.engine e).note_spec (16384 + p.2)
      rw [State.setDataWord_engine, hnote]
      exact ht)
theorem State.dataWord_kput (t occ : Nat) (rs : List (Nat × Nat)) (i : Nat) :
    (s.kput e (s.engine e) t occ rs).dataWord e i = s.dataWord e i := by
  have hmem : (s.kput e (s.engine e) t occ rs).rdMem (dataBase e + 4 * i) = s.rdMem (dataBase e + 4 * i) :=
    State.rdMem_of_mem (State.setEngine_mem ..) _
  unfold State.dataWord
  rw [State.kput_engine, hmem]
  rfl

/-! ### The places of a block (R147, R150) -/

/-- A block in data memory takes seventeen consecutive words. -/
theorem blockPlaces_data {ga : Word} {off : Int} (halign : addrOf ga off % 4 = 0) (hin : addrOf ga off + 68 ≤ 0x8000) :
    blockPlaces ga off = (List.range 17).map (fun i => Place.data (addrOf ga off / 4 + i)) := by
  refine List.map_congr_left (fun i hi => ?_)
  have hlt : i < 17 := List.mem_range.mp hi
  rw [Nat.mod_eq_of_lt (by omega)]
  unfold placeOf
  rw [if_neg (by omega), if_pos (by omega)]
  congr 1
  omega
theorem State.storePlaces_data (k : Nat) {ws : List Word} (hlen : ws.length = 17) :
    s.each (((List.range 17).map (fun i => Place.data (k + i))).zip ws) (fun p u => u.storePlace e p.2 p.1) = s.storeWords e k ws := by
  have hzip : ((List.range 17).map (fun i => Place.data (k + i))).zip ws = (ws.zipIdx k).map (fun p => (Place.data p.2, p.1)) :=
    List.ext_getElem (by simp [hlen]) (fun i h1 h2 => by simp)
  unfold State.storeWords State.each
  rw [hzip, List.foldl_map]
  rfl

/-! ### Powers of two (R117) -/

theorem pow2_eq_zpow (k : Int) : pow2 k = (2 : Rat) ^ k := by
  unfold pow2
  split
  · rename_i h
    obtain ⟨n, rfl⟩ := Int.eq_ofNat_of_zero_le h
    simp
  · rename_i h
    obtain ⟨n, hn⟩ := Int.eq_ofNat_of_zero_le (show 0 ≤ -k by omega)
    obtain rfl : k = -(n : Int) := by omega
    simp
/-- A mantissa times 2^d at an exponent lower by d has the same value. -/
theorem pow2_sub (k : Int) (d : Nat) : ((2 ^ d : Nat) : Rat) * pow2 (k - d) = pow2 k := by
  rw [pow2_eq_zpow, pow2_eq_zpow, zpow_sub₀ (by norm_num), zpow_natCast]
  push_cast
  field_simp
theorem Blk.val_shift (b : Blk) (d i : Nat) :
    Blk.val { m := b.m.map (fun m => m * (2 ^ d : Nat)), e := b.e - (d : Nat) } i = b.val i := by
  have hm : (b.m.map (fun m => m * ((2 ^ d : Nat) : Int))).getD i 0 = b.m.getD i 0 * ((2 ^ d : Nat) : Int) := by
    rw [List.getD_eq_getElem?_getD, List.getD_eq_getElem?_getD, List.getElem?_map]
    cases b.m[i]? <;> simp
  unfold Blk.val
  dsimp only
  rw [hm, show b.e - (d : Nat) - 23 = (b.e - 23) - (d : Nat) by omega, Int.cast_mul, mul_assoc, Int.cast_natCast, pow2_sub]

/-! ### The rows -/

theorem bldRow_reads (h : s.issues e w) (hop : opOf w = 0x14) (hx : x = s.engine e) {pl : List Place}
    (hpl : pl = blockPlaces (x.reg (fw w 17 13)) (signedOf 13 (fw w 12 0))) (hok : pl.all Place.ok = true) :
    ∃ t rs, s.bldRow e = s.draw.kput e ((x.issued w).setBlock (fw w 21 18) (writeWhole ((pl.take 16).map (fun p =>
      ((s.loadPlace e p).toInt : Rat) * pow2 (signedOf 8 (s.loadPlace e (pl.getD 16 .bad)).toNat - 23)))).1) t 1 rs := by
  subst hx
  have hexp : (pl.map (fun p => s.loadPlace e p)).getD 16 0 = s.loadPlace e (pl.getD 16 .bad) := by
    rw [List.getD_eq_getElem?_getD, List.getD_eq_getElem?_getD, List.getElem?_map]
    cases pl[16]? <;> rfl
  unfold State.bldRow
  rw [State.kstep_issues h (by simp [hop])]
  simp only [Engine.issued_reg, ← hpl]
  rw [hok, if_neg (by decide), hexp, ← List.map_take, List.map_map]
  exact ⟨_, _, rfl⟩
theorem bldRow_traps (h : s.issues e w) (hop : opOf w = 0x14) (hx : x = s.engine e)
    (hbad : (blockPlaces (x.reg (fw w 17 13)) (signedOf 13 (fw w 12 0))).all Place.ok = false) : s.bldRow e = s.engineTrap e 3 0 := by
  subst hx
  unfold State.bldRow
  rw [State.kstep_issues h (by simp [hop])]
  simp only [Engine.issued_reg]
  rw [hbad, if_pos (by decide)]

/-- BST of a block of sixteen elements to data memory: seventeen words from the block's address. -/
theorem bstRow_stores (h : s.issues e w) (hop : opOf w = 0x15) (hx : x = s.engine e) {a : Nat}
    (ha : a = addrOf (x.reg (fw w 17 13)) (signedOf 13 (fw w 12 0))) (halign : a % 4 = 0) (hin : a + 68 ≤ 0x8000)
    (hlen : (x.block (fw w 21 18)).m.length = 16) :
    ∃ u t rs, s.bstRow e = u.kput e (u.engine e) t 1 rs ∧ u = (s.draw.setEngine e (x.issued w)).storeWords e (a / 4)
      (blockWords (x.block (fw w 21 18)) (x.sat.testBit (fw w 21 18))) := by
  subst hx ha
  have hwords : (blockWords ((s.engine e).block (fw w 21 18)) ((s.engine e).sat.testBit (fw w 21 18))).length = 17 := by
    simp [blockWords, hlen]
  have hstorable (k : Nat) : ((List.range 17).map (fun i => Place.data (k + i))).all Place.storable = true := by
    simp [Place.storable]
  unfold State.bstRow
  rw [State.kstep_issues h (by simp [hop])]
  simp only [Engine.issued_reg, Engine.issued_block, Engine.issued_sat]
  rw [blockPlaces_data halign hin, hstorable, if_neg (by decide), State.storePlaces_data _ hwords]
  exact ⟨_, _, _, rfl, rfl⟩

theorem bnormRow_lowers (h : s.issues e w) (hop : opOf w = 0x19) (hx : x = s.engine e) (hzero : fw w 17 0 = 0) :
    ∃ d t rs, s.bnormRow e = s.kput e ((x.issued w).setBlock (fw w 21 18)
      { m := (x.block (fw w 21 18)).m.map (fun m => m * (2 ^ d : Nat)), e := (x.block (fw w 21 18)).e - (d : Nat) }) t 1 rs := by
  subst hx
  unfold State.bnormRow
  rw [State.kstep_issues h (by simp [hop])]
  dsimp only
  rw [if_neg (not_not.mpr hzero)]
  exact ⟨_, _, _, rfl⟩

/-- A power of two within the range of the exponent adds to it alone (R153). -/
theorem scaleExp_inRange (b : Blk) {k : Int} (hlo : -128 ≤ b.e + k) (hhi : b.e + k ≤ 127) :
    scaleExp b k = ({ b with e := b.e + k }, false) := by
  unfold scaleExp
  dsimp only
  rw [if_neg (by omega), if_neg (by omega)]
theorem bscaleRow_power (h : s.issues e w) (hop : opOf w = 0x1A) (hx : x = s.engine e) (hzero : fw w 12 8 = 0)
    (hform : fw w 13 13 = 1) : ∃ t rs, s.bscaleRow e = s.kput e ((x.issued w).putWhole (fw w 21 18)
      (scaleExp (x.block (fw w 17 14)) (signedOf 8 (fw w 7 0)))) t 1 rs := by
  subst hx
  unfold State.bscaleRow
  rw [State.kstep_issues h (by simp [hop])]
  dsimp only
  rw [if_neg (not_not.mpr hzero), if_pos hform]
  exact ⟨_, _, rfl⟩

/-- The elements that `hit` names, in place of which `lim` stands. -/
def Blk.limited (b : Blk) (hit : Nat → Bool) (lim : Nat → Int) : Blk :=
  { b with m := b.m.zipIdx.map (fun z => if hit z.2 then lim z.2 else z.1) }
theorem Blk.limited_getD (b : Blk) {hit : Nat → Bool} {lim : Nat → Int} {k : Nat} (h : ¬ hit k = true) :
    (b.limited hit lim).m.getD k 0 = b.m.getD k 0 := by
  unfold Blk.limited
  rw [List.getD_eq_getElem?_getD, List.getD_eq_getElem?_getD, List.getElem?_map, List.getElem?_zipIdx]
  cases b.m[k]? <;> simp [h]
/-- BSAT limits elements of its range only. -/
theorem bsatRow_limits (vec : Bool) (h : s.issues e w) (hop : opOf w = 0x1B) (hx : x = s.engine e) (hform : fw w 9 9 = 1 ↔ vec = true)
    (hzero : fw w 8 8 = 0) (hrange : fw w 17 14 + (fw w 13 10 + 1) ≤ 16) :
    ∃ (hit : Nat → Bool) (lim : Nat → Int) (sat : Bool) (t : Nat) (rs : List (Nat × Nat)),
      (∀ k, hit k = true → fw w 17 14 ≤ k ∧ k < fw w 17 14 + (fw w 13 10 + 1)) ∧
      s.bsatRow e vec = s.kput e (((x.issued w).setBlock (fw w 21 18) ((x.block (fw w 21 18)).limited hit lim)).setSat
        (fw w 21 18) sat) t 1 rs := by
  subst hx
  have hsel : (opOf w == 0x1B && (fw w 9 9 == 1) == vec) = true := by
    cases vec <;> simp_all
  obtain ⟨r, hrow⟩ : ∃ r, s.bsatRow e vec = r := ⟨_, rfl⟩
  rw [hrow]
  unfold State.bsatRow at hrow
  rw [State.kstep_issues h hsel] at hrow
  extract_lets bd st n r' b idx l m sq hit lim t iss y at hrow
  rw [if_neg (by omega)] at hrow
  refine ⟨hit, fun k => mClamp (lim k), idx.any hit, t, _, fun k hk => ?_, hrow.symm⟩
  have hnamed : k ∈ idx := by
    unfold hit at hk
    simp only [Bool.and_eq_true] at hk
    exact List.contains_iff_mem.mp hk.1
  simp only [idx, List.mem_map, List.mem_range] at hnamed
  omega

theorem bintRow_holds (h : s.issues e w) (hop : opOf w = 0x1C) (hx : x = s.engine e) (hzero : fw w 9 0 = 0)
    (hsat : x.sat.testBit (fw w 13 10) = true) : ∃ t rs, s.bintRow e = s.kput e (x.issued w) t 1 rs := by
  subst hx
  unfold State.bintRow
  rw [State.kstep_issues h (by simp [hop])]
  dsimp only
  rw [if_neg (not_not.mpr hzero)]
  exact ⟨_, _, if_pos hsat⟩
theorem bintRow_adds (h : s.issues e w) (hop : opOf w = 0x1C) (hx : x = s.engine e) (hzero : fw w 9 0 = 0)
    (hsat : x.sat.testBit (fw w 13 10) = false) : ∃ t rs, s.bintRow e = s.kput e ((x.issued w).putWhole (fw w 21 18)
      (writeWhole ((List.range 16).map (fun i => (x.block (fw w 21 18)).val i + (x.block (fw w 17 14)).val i)))) t 1 rs := by
  subst hx
  unfold State.bintRow
  rw [State.kstep_issues h (by simp [hop])]
  dsimp only
  rw [if_neg (not_not.mpr hzero)]
  exact ⟨_, _, if_neg (Bool.eq_false_iff.mp hsat)⟩
theorem bsatRow_traps (h : s.issues e w) (hop : opOf w = 0x1B) (hrange : 16 < fw w 17 14 + (fw w 13 10 + 1)) (hform : fw w 9 9 = 0) :
    s.bsatRow e false = s.engineTrap e 2 0 := by
  unfold State.bsatRow
  rw [State.kstep_issues h (by simp [hop, hform])]
  exact if_pos (Or.inr hrange)
end

/-- Settles O35, clause by clause: each row is the results of one instruction (`State.onEngine_of_kput`), the stores of a block
(`State.storeWords`) or a trap (`State.trapsWith_of_engineTrap`). -/
theorem blockRows : Obligations.BlockRows := by
  intro s e w x hup h hx
  refine ⟨fun hop hok => ?_, fun hop hbad => ?_, fun i hi hop halign hin hlen => ?_, fun hop hzero => ?_,
    fun hop hzero hform hlo hhi => ?_, fun vec hop hform hzero hrange => ?_, fun hop hzero hsat => ?_, fun hop hzero hsat => ?_,
    fun hop hrange hform => ?_⟩
  · obtain ⟨t, rs, hrow⟩ := bldRow_reads h hop hx rfl hok
    exact State.onEngine_of_kput hup rfl hrow (Or.inr rfl) ⟨x.onlyBlock_setBlock .., rfl⟩
  · exact State.trapsWith_of_engineTrap hup rfl (bldRow_traps h hop hx hbad) e.isLt (by decide)
  · obtain ⟨u, t, rs, hrow, hu⟩ := bstRow_stores h hop hx rfl halign hin hlen
    obtain ⟨hg, hblk⟩ : (u.engine e).g = x.g ∧ (u.engine e).blk = x.blk := by
      subst hu
      refine (State.storeWords_engine _ _).imp (fun hg => hg.trans ?_) (fun hblk => hblk.trans ?_)
      · rw [State.engine_setEngine_same]; rfl
      · rw [State.engine_setEngine_same]; rfl
    refine ⟨_, live_next hup _, ?_⟩
    simp only [State.effect_regs, State.effect_engine, State.effect_dataWord, hrow, State.kput_engine, State.dataWord_kput]
    refine ⟨?_, hg, hblk, ?_⟩
    · rw [hu]
      exact (State.setEngine_regs ..).trans ((State.storeWords_regs ..).trans (State.setEngine_regs ..))
    · rw [hu]
      exact State.storeWords_dataWord _ _ _ i (by simpa [blockWords, hlen] using hi)
  · obtain ⟨d, t, rs, hrow⟩ := bnormRow_lowers h hop hx hzero
    exact ⟨_, fun i => Blk.val_shift _ d i, Int.sub_le_self _ (Int.natCast_nonneg d),
      State.onEngine_of_kput hup rfl hrow (Or.inl rfl) (x.onlyBlock_setBlock ..)⟩
  · obtain ⟨t, rs, hrow⟩ := bscaleRow_power h hop hx hzero hform
    rw [scaleExp_inRange _ hlo hhi, Engine.putWhole_fits] at hrow
    exact State.onEngine_of_kput hup rfl hrow (Or.inl rfl) ⟨rfl, x.onlyBlock_setBlock ..⟩
  · obtain ⟨hit, lim, sat, t, rs, hhit, hrow⟩ := bsatRow_limits vec h hop hx hform hzero hrange
    refine ⟨(x.block (fw w 21 18)).limited hit lim, rfl, fun k hk => Blk.limited_getD _ (fun hlimited => ?_), ?_⟩
    · have := hhit k hlimited
      omega
    · cases vec
      · exact State.onEngine_of_kput hup rfl hrow (Or.inl rfl) (x.onlyBlock_setSat ..)
      · exact State.onEngine_of_kput hup rfl hrow (Or.inl rfl) (x.onlyBlock_setSat ..)
  · obtain ⟨t, rs, hrow⟩ := bintRow_holds h hop hx hzero hsat
    exact State.onEngine_of_kput hup rfl hrow (Or.inl rfl) ⟨rfl, rfl, rfl, rfl, rfl, rfl⟩
  · obtain ⟨t, rs, hrow⟩ := bintRow_adds h hop hx hzero hsat
    exact State.onEngine_of_kput hup rfl hrow (Or.inl rfl) (x.onlyBlock_putWhole ..)
  · exact State.trapsWith_of_engineTrap hup rfl (bsatRow_traps h hop hrange hform) e.isLt (by decide)

end Sys2Proof.Machine
end
section
/-! PROOFS. What the instructions of an engine do to one g register or one predicate: the layer under the statements O30 to O38
(R115, R139, R141). -/
namespace Sys2Proof.Machine

section
variable {s : State} {e : Nat} {w : Word}

/-! ### The g registers (R115) -/

@[simp] theorem Engine.issued_accum (x : Engine) (w : Word) (a : Nat) : (x.issued w).accum a = x.accum a := (rfl)
@[simp] theorem Engine.issued_elem (x : Engine) (w : Word) (r : Nat) : (x.issued w).elem r = x.elem r := (rfl)
@[simp] theorem Engine.issued_pred (x : Engine) (w : Word) (p : Nat) : (x.issued w).pred p = x.pred p := (rfl)
/-- The interlock of an instruction counts its guard's predicate. -/
theorem Engine.issued_ready (x : Engine) (w : Word) (keys : List Nat) :
    (x.issued w).ready keys = x.ready (kPred (guardPred w) :: keys) := (rfl)

theorem Engine.reg_setReg (x : Engine) (rd r : Nat) (v : Word) :
    (x.setReg rd v).reg r = if r ≠ 0 ∧ r = rd then v else x.reg r := by
  unfold Engine.setReg Engine.reg
  by_cases hr : r = 0
  · simp [hr]
  · by_cases heq : r = rd
    · subst heq
      simp [hr, tabGet_tabPut_same]
    · by_cases hd : rd = 0
      · simp [hr, hd]
      · simp [hr, heq, hd, tabGet_tabPut_ne _ _ _ heq]
/-- A write of a g register changes of the engine's record the registers only. -/
theorem Engine.setReg_eq (x : Engine) (rd : Nat) (v : Word) : x.setReg rd v = { x with g := (x.setReg rd v).g } := by
  unfold Engine.setReg
  split <;> rfl
theorem Engine.onlyReg_setReg (x : Engine) (w : Word) (rd : Nat) (v : Word) (t occ : Nat) (rs : List (Nat × Nat)) :
    x.onlyReg (((x.issued w).setReg rd v).finish t occ rs) rd v := by
  refine ⟨fun r _ => (x.issued w).reg_setReg rd r v, ?_⟩
  rw [Engine.setReg_eq]
  exact ⟨rfl, rfl, rfl, rfl, rfl, fun h => Engine.finish_pc _ _ _ _ h⟩
theorem Engine.result_setReg (x : Engine) (w : Word) (keys : List Nat) (rd : Nat) (v : Word) (lat : Nat) :
    x.result (((x.issued w).setReg rd v).finish ((x.issued w).ready keys) 1 [(kReg rd, (x.issued w).ready keys + lat)])
      (kPred (guardPred w) :: keys) rd v lat := by
  refine ⟨x.onlyReg_setReg .., ?_⟩
  rw [Engine.setReg_eq]
  exact ⟨rfl, rfl, tabGet_tabPut_same ..⟩

/-! ### The fields of a word (R138) -/

theorem fw_lt (w : Word) (hi lo : Nat) : fw w hi lo < 2 ^ (hi + 1 - lo) := Nat.mod_lt _ (Nat.two_pow_pos _)
/-- A field read as two's complement. -/
theorem signedOf_eq_toInt {k : Nat} (n : Nat) (hk : 0 < k) : signedOf k n = (BitVec.ofNat k n).toInt := by
  obtain ⟨j, rfl⟩ : ∃ j, k = j + 1 := ⟨k - 1, by omega⟩
  unfold signedOf
  rw [BitVec.toInt_eq_toNat_cond, BitVec.toNat_ofNat, Nat.add_sub_cancel, pow_succ]
  split <;> split <;> omega
/-- An immediate is sign-extended (R145, R146, R148). -/
theorem ofInt_signedOf {k : Nat} (n : Nat) (hk : 0 < k) : BitVec.ofInt 32 (signedOf k n) = (BitVec.ofNat k n).signExtend 32 := by
  rw [signedOf_eq_toInt n hk]
  rfl

/-! ### The traps of a word -/

theorem State.trapsWith_of_trapInstr {c : Instr} {f : State → State} {code operand : Nat} (hup : s.up = true)
    (hexec : exec c s = live s f) (hf : f s = s.engineTrap e code operand) (he : e < 20) (hcode : code < 16) :
    s.trapsWith c e code := by
  have htrapped : (s.effect f).Trapped e code := by
    have h : (f s).Trapped e code := by rw [hf]; exact State.engineTrap_trapped he hcode operand
    exact h.of_rd (State.effect_rd ..) (State.effect_engine ..)
  exact ⟨s.effect f, hexec.trans (live_next hup f), htrapped⟩
/-- The command of traps runs as every other instruction while the program counter is in the memory. -/
theorem State.trapRow_issues (h : s.issues e w) (hsel : opOf w = 0x2E ∨ illegalWord w = true) :
    s.trapRow e = if illegalWord w = true ∨ fw w 21 8 ≠ 0 then s.engineTrap e 2 0 else s.engineTrap e 1 (fw w 7 0) := by
  obtain ⟨⟨-, hpc, -⟩, -⟩ := id h
  unfold State.trapRow
  rw [if_neg (by omega), State.kstep_issues h (by simpa using hsel)]
end

end Sys2Proof.Machine
end
section
/-! PROOFS. The statements O30 and O31: integer instructions (R144, R145). -/
namespace Sys2Proof.Machine

section
variable {s : State} {e : Nat} {w : Word} {c : Instr} {func imm lat : Nat} {sh : Bool} {f : Word → Word → Word} {v : Word}

theorem intRow_register (h : s.issues e w) (hop : opOf w = 0x01) (hfunc : fw w 6 0 = func) :
    s.intRow e func imm lat sh f =
      s.kput e (((s.engine e).issued w).setReg (fw w 21 17) (f ((s.engine e).reg (fw w 16 12)) ((s.engine e).reg (fw w 11 7))))
        (((s.engine e).issued w).ready [kReg (fw w 16 12), kReg (fw w 11 7)]) 1
        [(kReg (fw w 21 17), ((s.engine e).issued w).ready [kReg (fw w 16 12), kReg (fw w 11 7)] + lat)] := by
  unfold State.intRow
  rw [State.kstep_issues h (by simp [hop, hfunc])]
  exact if_pos hop
theorem intRow_immediate (h : s.issues e w) (hop : opOf w = imm) (himm : 1 < imm) (hzero : sh = true → fw w 11 5 = 0) :
    s.intRow e func imm lat sh f =
      s.kput e (((s.engine e).issued w).setReg (fw w 21 17)
          (f ((s.engine e).reg (fw w 16 12)) ((BitVec.ofNat 12 (fw w 11 0)).signExtend 32)))
        (((s.engine e).issued w).ready [kReg (fw w 16 12)]) 1
        [(kReg (fw w 21 17), ((s.engine e).issued w).ready [kReg (fw w 16 12)] + lat)] := by
  have hshift : ¬ (sh && fw w 11 5 != 0) = true := by
    cases sh
    · simp
    · simp [hzero rfl]
  unfold State.intRow
  rw [State.kstep_issues h (by simp [hop]; omega)]
  dsimp only
  rw [if_neg (by omega), if_neg hshift, ofInt_signedOf _ (by decide)]
  rfl
theorem intRow_traps (h : s.issues e w) (hop : opOf w = imm) (himm : 1 < imm) (hzero : fw w 11 5 ≠ 0) :
    s.intRow e func imm lat true f = s.engineTrap e 2 0 := by
  unfold State.intRow
  rw [State.kstep_issues h (by simp [hop]; omega)]
  dsimp only
  rw [if_neg (by omega), if_pos (by simp [hzero])]

/-- A command of integer instructions, register form. -/
theorem State.onEngine_intRegister (hup : s.up = true) (h : s.issues e w) (hop : opOf w = 0x01) (hfunc : fw w 6 0 = func)
    (hexec : exec c s = live s (fun s => s.intRow e func imm lat sh f))
    (hv : f ((s.engine e).reg (fw w 16 12)) ((s.engine e).reg (fw w 11 7)) = v) :
    s.onEngine c e (fun y => (s.engine e).result y [kPred (guardPred w), kReg (fw w 16 12), kReg (fw w 11 7)] (fw w 21 17) v lat) := by
  subst hv
  exact State.onEngine_of_kput hup hexec (intRow_register h hop hfunc) (Or.inl rfl) (Engine.result_setReg ..)
/-- A command of integer instructions, immediate form. -/
theorem State.onEngine_intImmediate (hup : s.up = true) (h : s.issues e w)
    (hexec : exec c s = live s (fun s => s.intRow e func imm lat sh f)) (himm : 1 < imm) (hop : opOf w = imm)
    (hzero : sh = true → fw w 11 5 = 0)
    (hv : f ((s.engine e).reg (fw w 16 12)) ((BitVec.ofNat 12 (fw w 11 0)).signExtend 32) = v) :
    s.onEngine c e (fun y => (s.engine e).result y [kPred (guardPred w), kReg (fw w 16 12)] (fw w 21 17) v lat) := by
  subst hv
  exact State.onEngine_of_kput hup hexec (intRow_immediate h hop himm hzero) (Or.inl rfl) (Engine.result_setReg ..)

/-! ### The operations (R144) -/

/-- MULH gives the upper half of the signed product. -/
theorem mulh_eq_extract (a b : Word) :
    BitVec.ofInt 32 (a.toInt * b.toInt / 4294967296) = (a.signExtend 64 * b.signExtend 64).extractLsb' 32 32 := by
  have hproduct : a.signExtend 64 * b.signExtend 64 = BitVec.ofInt 64 (a.toInt * b.toInt) := (BitVec.ofInt_mul ..).symm
  rw [hproduct]
  generalize a.toInt * b.toInt = p
  apply BitVec.eq_of_toNat_eq
  rw [BitVec.extractLsb'_toNat, BitVec.toNat_ofInt, BitVec.toNat_ofInt, Nat.shiftRight_eq_div_pow]
  omega
/-- A choice by < is one by ≤ when equal words choose the same value. -/
theorem ite_slt_eq_ite_le {a b c d : Word} (h : a = b → c = d) : (if a.slt b then c else d) = if a.toInt ≤ b.toInt then c else d := by
  rcases lt_trichotomy a.toInt b.toInt with hlt | heq | hgt
  · rw [if_pos (BitVec.slt_iff_toInt_lt.mpr hlt), if_pos hlt.le]
  · rw [h (BitVec.eq_of_toInt_eq heq), ite_self, ite_self]
  · rw [if_neg (fun hslt => hgt.not_gt (BitVec.slt_iff_toInt_lt.mp hslt)), if_neg hgt.not_ge]
/-- With [11:5] = 0 an immediate shift count is the field [4:0] (R145). -/
theorem shiftCount_immediate (hzero : fw w 11 5 = 0) : shiftCount ((BitVec.ofNat 12 (fw w 11 0)).signExtend 32) = fw w 4 0 := by
  have hfield : fw w 11 0 = fw w 4 0 := by
    unfold fw bitsOf at hzero ⊢
    omega
  have hlt : fw w 4 0 < 32 := fw_lt w 4 0
  have hnonneg : signedOf 12 (fw w 4 0) = (fw w 4 0 : Nat) := by
    unfold signedOf
    omega
  unfold shiftCount
  rw [← ofInt_signedOf _ (by decide), hfield, hnonneg, BitVec.ofInt_natCast, BitVec.toNat_ofNat]
  omega
end

/-- Settles O30, by the row of integer instructions in its register form (`State.onEngine_intRegister`). -/
theorem integerRegisterForm : Obligations.IntegerRegisterForm := by
  intro s e w a b hup h hop ha hb does
  subst ha hb
  have htrap (hf : 0x0B < fw w 6 0) : s.trapsWith (.trap e) e 2 := by
    have hillegal : illegalWord w = true := by simp [illegalWord, hop, hf]
    exact State.trapsWith_of_engineTrap hup rfl ((State.trapRow_issues h (Or.inr hillegal)).trans (if_pos (Or.inl hillegal)))
      e.isLt (by decide)
  exact ⟨fun hf => State.onEngine_intRegister hup h hop hf rfl rfl,
    fun hf => State.onEngine_intRegister hup h hop hf rfl rfl,
    fun hf => State.onEngine_intRegister hup h hop hf rfl rfl,
    fun hf => State.onEngine_intRegister hup h hop hf rfl rfl,
    fun hf => State.onEngine_intRegister hup h hop hf rfl rfl,
    fun hf => State.onEngine_intRegister hup h hop hf rfl rfl,
    fun hf => State.onEngine_intRegister hup h hop hf rfl rfl,
    fun hf => State.onEngine_intRegister hup h hop hf rfl rfl,
    fun hf => State.onEngine_intRegister hup h hop hf rfl rfl,
    fun hf => State.onEngine_intRegister hup h hop hf rfl (mulh_eq_extract ..),
    fun hf => State.onEngine_intRegister hup h hop hf rfl (ite_slt_eq_ite_le id),
    fun hf => State.onEngine_intRegister hup h hop hf rfl (ite_slt_eq_ite_le Eq.symm), htrap⟩

/-- Settles O31, by the row of integer instructions in its immediate form (`State.onEngine_intImmediate`). -/
theorem integerImmediateForm : Obligations.IntegerImmediateForm := by
  intro s e w a b hup h ha hb does
  subst ha hb
  have hshift (hzero : fw w 11 5 = 0) (g : Word → Nat → Word) (a : Word) :
      g a (shiftCount ((BitVec.ofNat 12 (fw w 11 0)).signExtend 32)) = g a (fw w 4 0) := by rw [shiftCount_immediate hzero]
  have htrap {c : Instr} {func imm lat : Nat} {f : Word → Word → Word} (himm : 1 < imm)
      (hexec : exec c s = live s (fun s => s.intRow e func imm lat true f)) (hz : fw w 11 5 ≠ 0) (hop : opOf w = imm) :
      s.trapsWith c e 2 :=
    State.trapsWith_of_engineTrap hup hexec (intRow_traps h hop himm hz) e.isLt (by decide)
  exact ⟨fun hop => State.onEngine_intImmediate hup h rfl (by decide) hop nofun rfl,
    fun hop => State.onEngine_intImmediate hup h rfl (by decide) hop nofun rfl,
    fun hop => State.onEngine_intImmediate hup h rfl (by decide) hop nofun rfl,
    fun hop => State.onEngine_intImmediate hup h rfl (by decide) hop nofun rfl,
    fun hop => State.onEngine_intImmediate hup h rfl (by decide) hop nofun rfl,
    fun hop => State.onEngine_intImmediate hup h rfl (by decide) hop nofun (ite_slt_eq_ite_le id),
    fun hop => State.onEngine_intImmediate hup h rfl (by decide) hop nofun (ite_slt_eq_ite_le Eq.symm),
    fun hz hop => State.onEngine_intImmediate hup h rfl (by decide) hop (fun _ => hz) (hshift hz (fun a k => a <<< k) _),
    fun hz hop => State.onEngine_intImmediate hup h rfl (by decide) hop (fun _ => hz) (hshift hz (fun a k => a >>> k) _),
    fun hz hop => State.onEngine_intImmediate hup h rfl (by decide) hop (fun _ => hz) (hshift hz (fun a k => a.sshiftRight k) _),
    fun hz => ⟨htrap (by decide) rfl hz, htrap (by decide) rfl hz, htrap (by decide) rfl hz⟩⟩

end Sys2Proof.Machine
end
section
/-! PROOFS. The statements O32 and O33: LDI, LDI_H and CMP (R146, R148). -/
namespace Sys2Proof.Machine

section
variable {s : State} {e : Nat} {w : Word} {x : Engine}

/-! ### LDI and LDI_H (R146) -/

theorem ldiRow_sets (h : s.issues e w) (hop : opOf w = 0x10) (hx : x = s.engine e) (hform : fw w 16 16 = 0) :
    s.ldiRow e 0 = s.kput e ((x.issued w).setReg (fw w 21 17) ((BitVec.ofNat 16 (fw w 15 0)).signExtend 32))
      ((x.issued w).ready []) 1 [(kReg (fw w 21 17), (x.issued w).ready [] + 1)] := by
  subst hx
  unfold State.ldiRow
  rw [State.kstep_issues h (by simp [hop, hform])]
  dsimp only
  rw [if_pos rfl, if_pos rfl, ofInt_signedOf _ (by decide)]
  rfl
/-- A word with its upper half replaced. -/
theorem withBits_upper (v : Word) (n : Nat) :
    BitVec.ofNat 32 (withBits v.toNat 31 16 n) = BitVec.ofNat 16 n ++ v.extractLsb' 0 16 := by
  apply BitVec.eq_of_toNat_eq
  have hv := v.isLt
  rw [BitVec.toNat_append, BitVec.extractLsb'_toNat, BitVec.toNat_ofNat, BitVec.toNat_ofNat,
    ← Nat.shiftLeft_add_eq_or_of_lt (Nat.mod_lt _ (Nat.two_pow_pos 16)), Nat.shiftLeft_eq, Nat.shiftRight_zero]
  unfold withBits
  omega
theorem ldiRow_setsUpper (h : s.issues e w) (hop : opOf w = 0x10) (hx : x = s.engine e) (hform : fw w 16 16 = 1) :
    s.ldiRow e 1 = s.kput e ((x.issued w).setReg (fw w 21 17)
        (BitVec.ofNat 16 (fw w 15 0) ++ (x.reg (fw w 21 17)).extractLsb' 0 16))
      ((x.issued w).ready [kReg (fw w 21 17)]) 1 [(kReg (fw w 21 17), (x.issued w).ready [kReg (fw w 21 17)] + 1)] := by
  subst hx
  unfold State.ldiRow
  rw [State.kstep_issues h (by simp [hop, hform])]
  dsimp only
  rw [if_neg (by decide), if_neg (by decide), withBits_upper]
  rfl

/-! ### CMP (R148) -/

theorem Engine.pred_setPred (y : Engine) (p q : Nat) (b : Bool) :
    (y.setPred p b).pred q = if q ≠ 0 ∧ q = p then b else y.pred q := by
  unfold Engine.setPred Engine.pred
  by_cases hq : q = 0
  · simp [hq]
  · by_cases hp : p = 0
    · subst hp
      simp [hq]
    · rw [if_neg hp, testBit_withBits le_rfl]
      by_cases heq : q = p
      · subst heq
        cases b <;> simp [hq]
      · rw [if_neg (by omega), if_neg (by simp [heq])]
/-- A write of a predicate changes of the engine's record the predicates only. -/
theorem Engine.setPred_eq (y : Engine) (p : Nat) (b : Bool) : y.setPred p b = { y with preds := (y.setPred p b).preds } := by
  unfold Engine.setPred
  split <;> rfl

/-- What a comparison leaves in its predicate: mode, the predicate before, and the test. -/
def cmpMode (mode : Nat) (old test : Bool) : Bool :=
  match mode with | 0 => test | 1 => old && test | 2 => old || test | _ => !test
/-- The two forms of CMP: condition, mode and second operand. -/
def cmpForm (x : Engine) (w : Word) (cond mode : Nat) (b : Word) : Prop :=
  opOf w = 0x0C ∧ fw w 3 0 = 0 ∧ cond = fw w 8 6 ∧ mode = fw w 5 4 ∧ b = x.reg (fw w 13 9) ∨
    opOf w = 0x0D ∧ cond = fw w 13 11 ∧ mode = fw w 10 9 ∧ b = (BitVec.ofNat 9 (fw w 8 0)).signExtend 32
theorem cmpRow_sets (h : s.issues e w) (hx : x = s.engine e) {cond mode : Nat} {b : Word} (hform : cmpForm x w cond mode b) :
    ∃ t rs, s.cmpRow e = s.kput e ((x.issued w).setPred (fw w 21 19)
      (cmpMode mode (x.pred (fw w 21 19)) (condHolds cond (x.reg (fw w 18 14)) b))) t 1 rs := by
  subst hx
  unfold State.cmpRow
  rcases hform with ⟨hop, hzero, rfl, rfl, rfl⟩ | ⟨hop, rfl, rfl, rfl⟩
  · rw [State.kstep_issues h (by simp [hop])]
    simp only [hop, hzero]
    exact ⟨_, _, rfl⟩
  · rw [State.kstep_issues h (by simp [hop]), ← ofInt_signedOf _ (by decide)]
    simp only [hop]
    exact ⟨_, _, rfl⟩
end

/-- Settles O32: both forms are the result of one instruction (`State.onEngine_of_kput`). -/
theorem loadImmediateRule : Obligations.LoadImmediateRule := by
  intro s e w hup h hop
  exact ⟨fun hform => State.onEngine_of_kput hup rfl (ldiRow_sets h hop rfl hform) (Or.inl rfl) (Engine.result_setReg ..),
    fun hform => State.onEngine_of_kput hup rfl (ldiRow_setsUpper h hop rfl hform) (Or.inl rfl) (Engine.result_setReg ..)⟩

/-- Settles O33: CMP writes one predicate (`Engine.pred_setPred`) as its mode says (`cmpMode`). -/
theorem compareRule : Obligations.CompareRule := by
  intro s e w b cond mode pd hup h hpd hform
  obtain ⟨t, rs, hrow⟩ := cmpRow_sets h rfl hform
  rw [← hpd] at hrow
  refine State.onEngine_of_kput hup rfl hrow (Or.inl rfl) ?_
  have hpred (q : Nat) := Engine.pred_setPred ((s.engine e).issued w) pd q
    (cmpMode mode ((s.engine e).pred pd) (condHolds cond ((s.engine e).reg (fw w 18 14)) b))
  refine ⟨by rw [Engine.setPred_eq]; rfl, by rw [Engine.setPred_eq]; rfl, by rw [Engine.setPred_eq]; rfl,
    fun p _ hne => (hpred p).trans (if_neg (fun hp => hne hp.2)), fun hne => ?_⟩
  have hwritten := (hpred pd).trans (if_pos ⟨hne, rfl⟩)
  refine ⟨fun hm => ?_, fun hm => ?_, fun hm => ?_, fun hm => ?_⟩ <;> (subst hm; exact hwritten)

end Sys2Proof.Machine
end
section
/-! PROOFS. The statement O29: a false guard (R139). -/
namespace Sys2Proof.Machine

/-! ### The commands of the instruction set and their words (R138, R140) -/

/-- The words of an integer instruction: register form `func`, immediate form opcode `imm` (0: none). -/
def intWords (func imm : Nat) (w : Word) : Bool := (opOf w == 1 && fw w 6 0 == func) || (imm != 0 && opOf w == imm)
/-- The words of an opcode. -/
def opWords (op : Nat) (w : Word) : Bool := opOf w == op
/-- The words of an opcode in which bit `i` has this value. -/
def bitWords (op i v : Nat) (w : Word) : Bool := opOf w == op && fw w i i == v

/-- The instruction set of engine `e`: each command with the words it executes. -/
def instructionSet (e : Fin 20) : List (Instr × (Word → Bool)) :=
  [(.add e, intWords 0x00 0x02), (.sub e, intWords 0x01 0), (.and e, intWords 0x02 0x03), (.or e, intWords 0x03 0x04),
   (.xor e, intWords 0x04 0x05), (.shl e, intWords 0x05 0x06), (.shr e, intWords 0x06 0x07), (.sar e, intWords 0x07 0x08),
   (.mul e, intWords 0x08 0x09), (.mulh e, intWords 0x09 0), (.min e, intWords 0x0A 0x0A), (.max e, intWords 0x0B 0x0B),
   (.cmp e, fun w => opOf w == 0x0C || opOf w == 0x0D), (.ld e, opWords 0x0E), (.st e, opWords 0x0F),
   (.ldi e, bitWords 0x10 16 0), (.ldiH e, bitWords 0x10 16 1),
   (.bld e, opWords 0x14), (.bst e, opWords 0x15), (.bmac e, opWords 0x16), (.bmsu e, opWords 0x17), (.bacc e, opWords 0x18),
   (.bnorm e, opWords 0x19), (.bscale e, opWords 0x1A),
   (.bsat e, fun w => opOf w == 0x1B && (fw w 9 9 == 1) == false), (.bsatV e, fun w => opOf w == 0x1B && (fw w 9 9 == 1) == true),
   (.bint e, opWords 0x1C), (.bcvt e, opWords 0x1D), (.sincos e, opWords 0x20), (.atan2 e, opWords 0x21),
   (.sqrt e, opWords 0x22), (.rcp e, opWords 0x23), (.br e, opWords 0x28), (.call e, opWords 0x29), (.ret e, opWords 0x2A),
   (.loop e, opWords 0x2B), (.wait e, opWords 0x2C), (.halt e, opWords 0x2D),
   (.trap e, fun w => opOf w == 0x2E || illegalWord w),
   (.rdi e, bitWords 0x30 17 0), (.rdiW e, bitWords 0x30 17 1), (.rdv e, opWords 0x31), (.rdf e, opWords 0x32),
   (.pos e, opWords 0x33), (.pit e, bitWords 0x34 6 0), (.pitLvl e, bitWords 0x34 6 1),
   (.wrv e, opWords 0x35), (.wra e, opWords 0x36), (.cap e, opWords 0x37), (.trc e, opWords 0x38), (.flt e, opWords 0x39),
   (.evt e, opWords 0x3A), (.sgn e, bitWords 0x3B 9 0), (.sgnR e, bitWords 0x3B 9 1), (.ckp e, opWords 0x3C),
   (.mfs e, opWords 0x3D), (.mts e, opWords 0x3E)]

theorem routeRows_eq (e : Fin 20) : Instr.routeRows e = (instructionSet e).map Prod.fst := (rfl)

/-- Every word of 32 bits has a command: the words that are no instruction are those of TRAP (R159). -/
theorem instructionSet_covers (e : Fin 20) (w : Word) : (instructionSet e).any (fun p => p.2 w) = true := by
  have hop : opOf w < 64 := fw_lt w 31 26
  have h16 : fw w 16 16 < 2 := fw_lt w 16 16
  have h17 : fw w 17 17 < 2 := fw_lt w 17 17
  have h6 : fw w 6 6 < 2 := fw_lt w 6 6
  have h9 : fw w 9 9 < 2 := fw_lt w 9 9
  simp only [instructionSet, intWords, opWords, bitWords, illegalWord, List.any_cons]
  generalize opOf w = op at *
  -- the opcodes whose words another field tells apart, and the rest
  by_cases hsplit : op ∈ [0x01, 0x10, 0x1B, 0x30, 0x34, 0x3B]
  · fin_cases hsplit <;> simp <;> omega
  · have hplain : op ∈ (List.range 64).filter (· ∉ [0x01, 0x10, 0x1B, 0x30, 0x34, 0x3B]) :=
      List.mem_filter.mpr ⟨List.mem_range.mpr hop, decide_eq_true hsplit⟩
    fin_cases hplain <;> rfl

section
variable {s : State} {e : Nat} {w : Word}

/-- Command `c` executes the next instruction of engine `e` if its word is one of `sel`. -/
def State.stepsBy (s : State) (c : Instr) (e : Nat) (sel : Word → Bool) : Prop :=
  ∃ f body, exec c s = live s f ∧ ((s.engine e).pc < 16384 → f s = s.kstep e sel body)

theorem instructionSet_stepsBy (s : State) (e : Fin 20) : ∀ p ∈ instructionSet e, s.stepsBy p.1 e p.2 := by
  have htrap : s.stepsBy (.trap e) e (fun w => opOf w == 0x2E || illegalWord w) :=
    ⟨_, _, rfl, fun hpc => if_neg (fun hout => by omega)⟩
  unfold instructionSet
  simp only [List.forall_mem_cons, List.not_mem_nil, false_imp_iff, implies_true, htrap, true_and, and_true]
  repeat' apply And.intro
  all_goals exact ⟨_, _, rfl, fun _ => rfl⟩

/-- With a false guard the instruction goes on after one cycle, waiting for its predicate only. -/
theorem State.kstep_falseGuard (h : s.fetches e w) (hguard : guardHolds (s.engine e) w = false) {sel : Word → Bool}
    (hsel : sel w = true) (body : Word → Engine → State → State) :
    s.kstep e sel body = s.kput e (s.engine e) ((s.engine e).ready [kPred (guardPred w)]) 1 [] := by
  obtain ⟨hexec, hpc, hword⟩ := h
  have hruns : ¬ ((!s.executes e) = true ∨ 16384 ≤ (s.engine e).pc) := by simp [hexec, hpc]
  unfold State.kstep
  dsimp only
  rw [if_neg hruns, hword, if_neg (by simp [hsel]), if_neg (by simp [hguard])]
  rfl
/-- A command whose words do not include the next instruction does nothing. -/
theorem State.kstep_otherWord (h : s.fetches e w) {sel : Word → Bool} (hsel : sel w = false)
    (body : Word → Engine → State → State) : s.kstep e sel body = s := by
  obtain ⟨-, -, hword⟩ := h
  unfold State.kstep
  dsimp only
  rw [hword, if_pos (by simp [hsel] : (!sel w) = true), ite_self]
/-- A command whose effect is to leave the state as it is. -/
theorem State.onEngine_of_eq {c : Instr} {f : State → State} {P : Engine → Prop} (hup : s.up = true)
    (hexec : exec c s = live s f) (hf : f s = s) (hP : P (s.engine e)) : s.onEngine c e P :=
  ⟨s, by rw [hexec, live_next hup, State.effect_of_eq hf], hP, rfl, rfl, fun _ _ => rfl⟩
end

/-- Settles O29: some command has the word (`instructionSet_covers`) and goes on (`State.kstep_falseGuard`); every command either
goes on or has other words (`State.kstep_otherWord`). -/
theorem falseGuardRule : Obligations.FalseGuardRule := by
  intro s e w hup hfetch hguard
  rw [routeRows_eq]
  refine ⟨?_, fun c hc => ?_⟩
  · obtain ⟨⟨c, sel⟩, hmem, hsel⟩ := List.any_eq_true.mp (instructionSet_covers e w)
    obtain ⟨f, body, hexec, hf⟩ := instructionSet_stepsBy s e _ hmem
    have hgoes := (hf hfetch.2.1).trans (State.kstep_falseGuard hfetch hguard hsel body)
    exact ⟨c, List.mem_map_of_mem hmem, State.onEngine_of_kput hup hexec hgoes (Or.inl rfl)
      ⟨⟨rfl, rfl, rfl, rfl, rfl, rfl⟩, rfl, rfl, rfl, fun h => Engine.finish_pc _ _ _ _ h⟩⟩
  · obtain ⟨⟨c, sel⟩, hmem, rfl⟩ := List.mem_map.mp hc
    obtain ⟨f, body, hexec, hf⟩ := instructionSet_stepsBy s e _ hmem
    cases hsel : sel w
    case true =>
      have hgoes := (hf hfetch.2.1).trans (State.kstep_falseGuard hfetch hguard hsel body)
      exact State.onEngine_of_kput hup hexec hgoes (Or.inl rfl) ⟨⟨rfl, rfl, rfl, rfl, rfl, rfl⟩, rfl⟩
    case false =>
      have hstays := (hf hfetch.2.1).trans (State.kstep_otherWord hfetch hsel body)
      exact State.onEngine_of_eq hup hexec hstays ⟨⟨rfl, rfl, rfl, rfl, rfl, rfl⟩, rfl⟩

end Sys2Proof.Machine
end
section
/-! PROOFS. The statement O34: loads and stores of an engine (R147). -/
namespace Sys2Proof.Machine

section
variable {s : State} {e : Nat} {w : Word} {x : Engine}

/-! ### The address space of an engine -/

/-- The address of LD and ST: the register and four times the sign-extended immediate. -/
theorem addrOf_immediate (v : Word) (n : Nat) :
    addrOf v (signedOf 12 n) = (v + 4#32 * (BitVec.ofNat 12 n).signExtend 32).toNat := by
  unfold addrOf
  rw [BitVec.ofInt_mul, ofInt_signedOf n (by decide)]
  rfl
theorem placeOf_data {a : Nat} (halign : a % 4 = 0) (hin : a < 0x8000) : placeOf a = .data (a / 4) := by
  unfold placeOf
  rw [if_neg (by omega), if_pos hin]
theorem placeOf_cell {a : Nat} (halign : a % 4 = 0) (hlo : 0x80000 ≤ a) (hhi : a < 0x100000) :
    placeOf a = .cell (0x600000 + (a - 0x80000)) := by
  unfold placeOf
  rw [if_neg (by omega), if_neg (by omega), if_pos ⟨hlo, hhi⟩]
theorem placeOf_bad {a : Nat} (h : a % 4 ≠ 0 ∨ (0x8000 ≤ a ∧ a < 0x80000) ∨ 0x100000 ≤ a) : placeOf a = .bad := by
  unfold placeOf
  by_cases halign : a % 4 = 0
  · rw [if_neg (by omega), if_neg (by omega), if_neg (by omega)]
  · rw [if_pos halign]
theorem storable_cell (a : Nat) : (Place.cell a).storable = decide (a < 0x660000) := (rfl)
/-- No checkpoint buffer may be stored to, nor what is no memory. -/
theorem placeOf_not_storable {a : Nat} (h : a % 4 ≠ 0 ∨ (0x8000 ≤ a ∧ a < 0x80000) ∨ 0xE0000 ≤ a) : (placeOf a).storable = false := by
  by_cases hbad : a % 4 ≠ 0 ∨ (0x8000 ≤ a ∧ a < 0x80000) ∨ 0x100000 ≤ a
  · rw [placeOf_bad hbad]
    rfl
  · rw [placeOf_cell (by omega) (by omega) (by omega), storable_cell, decide_eq_false (by omega)]

/-! ### LD -/

theorem ldRow_reads (h : s.issues e w) (hop : opOf w = 0x0E) (hx : x = s.engine e) {pl : Place}
    (hpl : placeOf (addrOf (x.reg (fw w 16 12)) (signedOf 12 (fw w 11 0))) = pl) (hok : pl.ok = true) :
    s.ldRow e = (if pl.isCell then s.draw else s).kput e ((x.issued w).setReg (fw w 21 17) (s.loadPlace e pl))
      ((x.issued w).ready [kReg (fw w 16 12)]) 1
      [(kReg (fw w 21 17), (x.issued w).ready [kReg (fw w 16 12)] + if pl.isCell then 8 + s.contention else 2)] := by
  subst hx
  unfold State.ldRow
  rw [State.kstep_issues h (by simp [hop])]
  simp only [Engine.issued_reg, hpl]
  rw [hok, if_neg (by decide)]
theorem ldRow_traps (h : s.issues e w) (hop : opOf w = 0x0E) (hx : x = s.engine e)
    (hpl : placeOf (addrOf (x.reg (fw w 16 12)) (signedOf 12 (fw w 11 0))) = .bad) : s.ldRow e = s.engineTrap e 3 0 := by
  subst hx
  unfold State.ldRow
  rw [State.kstep_issues h (by simp [hop])]
  simp only [Engine.issued_reg, hpl]
  rfl

/-! ### ST -/

/-- ST leaves the engine as it issued and stores one word. -/
theorem stRow_stores (h : s.issues e w) (hop : opOf w = 0x0F) (hx : x = s.engine e) {pl : Place}
    (hpl : placeOf (addrOf (x.reg (fw w 16 12)) (signedOf 12 (fw w 11 0))) = pl) (hok : pl.storable = true) :
    ∃ u t, s.stRow e = u.kput e (u.engine e) t 1 [] ∧
      u = (s.setEngine e (x.issued w)).storePlace e (x.reg (fw w 21 17)) pl := by
  subst hx
  unfold State.stRow
  rw [State.kstep_issues h (by simp [hop])]
  simp only [Engine.issued_reg, hpl]
  rw [hok, if_neg (by decide)]
  exact ⟨_, _, rfl, rfl⟩
theorem stRow_traps (h : s.issues e w) (hop : opOf w = 0x0F) (hx : x = s.engine e)
    (hbad : (placeOf (addrOf (x.reg (fw w 16 12)) (signedOf 12 (fw w 11 0)))).storable = false) : s.stRow e = s.engineTrap e 3 0 := by
  subst hx
  unfold State.stRow
  rw [State.kstep_issues h (by simp [hop])]
  simp only [Engine.issued_reg, hbad]
  rfl

/-- A store of one word changes no register word and no g register. -/
theorem State.storePlace_keeps (v : Word) (pl : Place) :
    (s.storePlace e v pl).regs = s.regs ∧ ((s.storePlace e v pl).engine e).g = (s.engine e).g := by
  cases pl with
  | data i =>
    obtain ⟨l, hnote, -, -⟩ := (s.engine e).note_spec (16384 + i)
    refine ⟨(State.modEngine_regs ..).trans (State.wrMem_regs ..), ?_⟩
    show ((s.setDataWord e i v).engine e).g = _
    rw [State.setDataWord_engine, hnote]
  | cell a => exact ⟨State.wrMem_regs .., by rw [State.storePlace, State.wrMem_engine]⟩
  | bad => exact ⟨rfl, rfl⟩
theorem State.rdByte_setDataWord_ne {i b : Nat} (v : Word) (h : b < dataBase e + 4 * i ∨ dataBase e + 4 * i + 4 ≤ b) :
    (s.setDataWord e i v).rdByte b = s.rdByte b := State.rdByte_wrMem_ne s v h
/-- ST as a command: the registers and g registers stay, and memory is as the store of the one word leaves it. -/
theorem exec_st_stores {e : Fin 20} (hup : s.up = true) (h : s.issues e w) (hop : opOf w = 0x0F) {pl : Place}
    (hpl : placeOf (addrOf ((s.engine e).reg (fw w 16 12)) (signedOf 12 (fw w 11 0))) = pl) (hok : pl.storable = true) :
    ∃ t u, exec (.st e) s = .next t ∧ u = (s.setEngine e ((s.engine e).issued w)).storePlace e ((s.engine e).reg (fw w 21 17)) pl ∧
      t.mem = u.mem ∧ (∀ i, t.dataWord e i = u.dataWord e i) ∧ t.regs = s.regs ∧ (t.engine e).g = (s.engine e).g := by
  obtain ⟨u, t, hrow, hu⟩ := stRow_stores h hop rfl hpl hok
  obtain ⟨hregs, hg⟩ := State.storePlace_keeps (s := s.setEngine e ((s.engine e).issued w)) (e := e)
    ((s.engine e).reg (fw w 21 17)) pl
  rw [← hu] at hregs hg
  refine ⟨_, u, live_next hup _, hu, ?_, fun i => ?_, ?_, ?_⟩
  · rw [State.effect_mem, hrow]; rfl
  · rw [State.effect_dataWord, hrow, State.dataWord_kput]
  · rw [State.effect_regs, hrow]; exact hregs
  · rw [State.effect_engine, hrow, State.kput_engine]
    exact hg.trans (by rw [State.engine_setEngine_same]; rfl)
end

/-- Settles O34, by the place that the address names (`placeOf_data`, `placeOf_cell`, `placeOf_bad`). -/
theorem engineMemoryRows : Obligations.EngineMemoryRows := by
  intro s e w a hup h ha
  rw [← addrOf_immediate] at ha
  have hplace {pl : Place} (hpl : placeOf a = pl) :
      placeOf (addrOf ((s.engine e).reg (fw w 16 12)) (signedOf 12 (fw w 11 0))) = pl := by rw [← ha, hpl]
  refine ⟨fun hop halign hin => ?_, fun hop halign hlo hhi => ?_, fun hop hbad => ?_, fun hop halign hin => ?_,
    fun hop halign hlo hhi => ?_, fun hop hbad => ?_⟩
  · exact State.onEngine_of_kput hup rfl (ldRow_reads h hop rfl (hplace (placeOf_data halign hin)) rfl) (Or.inl rfl)
      (Engine.result_setReg ..)
  · have hrow := ldRow_reads h hop rfl (hplace (placeOf_cell halign hlo (by omega))) rfl
    have hword : s.loadPlace e (.cell (0x600000 + (a - 0x80000))) = s.rdMem (0x600000 + (a - 0x80000)) := by
      unfold State.loadPlace State.cellWord
      exact if_pos (by omega)
    rw [hword] at hrow
    exact State.onEngine_of_kput hup rfl hrow (Or.inr rfl) (Engine.onlyReg_setReg ..)
  · exact State.trapsWith_of_engineTrap hup rfl (ldRow_traps h hop rfl (hplace (placeOf_bad hbad))) e.isLt (by decide)
  · obtain ⟨t, u, hexec, hu, hmem, hdata, hkept⟩ := exec_st_stores hup h hop (hplace (placeOf_data halign hin)) rfl
    refine ⟨t, hexec, ?_, hkept.1, hkept.2, fun b hb => ?_⟩
    · rw [hdata, hu]
      exact State.setDataWord_dataWord ..
    · rw [State.rdByte_of_mem hmem, hu]
      exact State.rdByte_setDataWord_ne _ (by omega)
  · obtain ⟨t, u, hexec, hu, hmem, -, hkept⟩ := exec_st_stores hup h hop (hplace (placeOf_cell halign hlo (by omega)))
      ((storable_cell _).trans (decide_eq_true (by omega)))
    refine ⟨t, hexec, ?_, hkept.1, hkept.2, fun b hb => ?_⟩
    · rw [State.rdMem_of_mem hmem, hu]
      exact State.rdMem_wrMem_same ..
    · rw [State.rdByte_of_mem hmem, hu]
      exact State.rdByte_wrMem_ne _ _ hb
  · exact State.trapsWith_of_engineTrap hup rfl (stRow_traps h hop rfl (by rw [← ha, placeOf_not_storable hbad])) e.isLt (by decide)

end Sys2Proof.Machine
end
section
/-! PROOFS. What the instructions of the block and transcendental units do to one block, its SAT bit and the arithmetic status:
the layer under the statements O36 and O37 (R115, R117). -/
namespace Sys2Proof.Machine

/-! ### SAT and ASTAT (R115) -/

theorem Engine.testBit_setSat (x : Engine) (k j : Nat) (b : Bool) :
    (x.setSat k b).sat.testBit j = if j = k then b else x.sat.testBit j := by
  show (withBits x.sat k k _).testBit j = _
  rw [testBit_withBits le_rfl]
  by_cases hj : j = k
  · subst hj
    cases b <;> simp
  · rw [if_neg (by omega), if_neg hj]

/-- The engine with bit `i` of its arithmetic status raised where `c`. -/
def Engine.raiseStat (x : Engine) (i : Nat) (c : Bool) : Engine :=
  if c then { x with astat := withBits x.astat i i 1 } else x
theorem Engine.raiseStat_eq (x : Engine) (i : Nat) (c : Bool) : x.raiseStat i c = { x with astat := (x.raiseStat i c).astat } := by
  cases c <;> rfl
theorem Engine.testBit_raiseStat (x : Engine) (i : Nat) (c : Bool) :
    (x.raiseStat i c).astat.testBit i = (c || x.astat.testBit i) := by
  cases c
  · rfl
  · show (withBits x.astat i i 1).testBit i = _
    rw [testBit_withBits le_rfl]
    simp
/-- A result in a g register beside the arithmetic status. -/
theorem Engine.onlyReg_raiseStat (x : Engine) (w : Word) (i : Nat) (c : Bool) (rd : Nat) (v : Word) (t occ : Nat)
    (rs : List (Nat × Nat)) : x.onlyReg ((((x.issued w).raiseStat i c).setReg rd v).finish t occ rs) rd v := by
  cases c
  · exact x.onlyReg_setReg ..
  · refine ⟨fun r _ => Engine.reg_setReg _ rd r v, ?_⟩
    rw [Engine.setReg_eq]
    exact ⟨rfl, rfl, rfl, rfl, rfl, fun h => Engine.finish_pc _ _ _ _ h⟩

/-! ### Writes of part of a block (R117) -/

theorem Engine.putPart_eq (x : Engine) (k : Nat) (p : PartWrite) :
    x.putPart k p = { x with blk := tabPut x.blk k p.b, sat := (x.putPart k p).sat } := by
  unfold Engine.putPart
  cases p.overflow <;> rfl
/-- An exponent overflow sets the block's SAT bit. -/
theorem Engine.putPart_overflow (x : Engine) (k : Nat) {p : PartWrite} (h : p.overflow = true) :
    (x.putPart k p).sat.testBit k = true := by
  unfold Engine.putPart
  rw [h]
  exact (Engine.testBit_setSat ..).trans (if_pos rfl)
theorem Engine.putPart_fits (x : Engine) (k : Nat) {p : PartWrite} (h : p.overflow = false) : (x.putPart k p).sat = x.sat := by
  unfold Engine.putPart
  rw [h]
  rfl
theorem Engine.onlyBlock_putPart (x : Engine) (w : Word) (i : Nat) (c : Bool) (k : Nat) (p : PartWrite) (t occ : Nat)
    (rs : List (Nat × Nat)) : x.onlyBlock ((((x.issued w).raiseStat i c).putPart k p).finish t occ rs) k p.b := by
  rw [Engine.putPart_eq, Engine.raiseStat_eq]
  exact ⟨fun j => x.block_setBlock k j p.b, rfl, rfl, rfl, rfl, fun h => Engine.finish_pc _ _ _ _ h⟩

end Sys2Proof.Machine
end
section
/-! PROOFS. The statement O36: the accumulators (R151, R152, R154). -/
namespace Sys2Proof.Machine

section
variable {s : State} {e : Nat} {w : Word} {x : Engine}

/-! ### BMAC and BMSU (R151) -/

/-- A step of R151, with Z (`n` = 1) or onto an accumulator of 0, or else onto the accumulator at the higher of the two scales. -/
theorem macStep_spec {n : Nat} {a : Acc} {p sx ea b v : Int} (hea : ea = if n = 1 ∨ a.a = 0 ∨ a.e < sx then sx else a.e)
    (hb : b = if n = 1 ∨ a.a = 0 then 0 else if a.e < sx then roundEven ((a.a : Rat) / pow2 (sx - a.e)) else a.a)
    (hv : v = if n = 1 ∨ a.a = 0 then p else b + roundEven ((p : Rat) / pow2 (ea - sx))) :
    (macStep a p sx (n == 1)).1 = { a := max (-2 ^ 55) (min (2 ^ 55 - 1) v), e := ea } ∧
      (macStep a p sx (n == 1)).2.1 = decide (v < -2 ^ 55 ∨ 2 ^ 55 - 1 < v) := by
  unfold macStep
  extract_lets lim l up b' ea' l'
  have hlim (u : Int) : lim u = (max (-2 ^ 55) (min (2 ^ 55 - 1) u), decide (u < -2 ^ 55 ∨ 2 ^ 55 - 1 < u)) := by
    simp only [lim]
    split
    · exact Prod.ext (by omega) (by simp; omega)
    · split
      · exact Prod.ext (by omega) (by simp; omega)
      · exact Prod.ext (by omega) (by simp; omega)
  by_cases hz : n = 1 ∨ a.a = 0
  · rw [if_pos (by simpa using hz)]
    rw [if_pos hz] at hv
    rw [if_pos (by tauto)] at hea
    subst hv hea
    simp only [l, hlim, and_self]
  · rw [if_neg (by simpa using hz)]
    rw [if_neg hz] at hv hb
    have hb' : b' = b := by
      rw [hb]
      simp only [b', up, decide_eq_true_eq]
    have hea' : ea' = ea := by
      rw [hea]
      simp only [ea', up, decide_eq_true_eq]
      by_cases hlt : a.e < sx
      · rw [if_pos hlt, if_pos (by tauto)]
      · rw [if_neg hlt, if_neg (by tauto)]
    simp only [l', hlim, hb', hea', ← hv, and_self]

theorem macRow_accumulates (neg : Bool) (h : s.issues e w) {op : Nat} (hop : opOf w = op) (hx : x = s.engine e)
    (hzero : fw w 18 16 = 0) {p : Int} {r : Acc × Bool × Bool}
    (hp : p = (if neg then -1 else 1) *
      ((x.block (fw w 15 8 / 16)).m.getD (fw w 15 8 % 16) 0 * (x.block (fw w 7 0 / 16)).m.getD (fw w 7 0 % 16) 0))
    (hr : r = macStep (x.accum (fw w 21 20)) p ((x.block (fw w 15 8 / 16)).e + (x.block (fw w 7 0 / 16)).e) (fw w 19 19 == 1)) :
    ∃ rs, s.macRow e op neg = s.kput e (({ x.issued w with acc := tabPut x.acc (fw w 21 20) r.1 } : Engine).raiseStat 0 r.2.1)
      ((x.issued w).ready [kBlockUnit, kRef (fw w 15 8), kRef (fw w 7 0)]) 1 rs := by
  subst hx hr
  have hsign (u : Int) : (if neg then -1 else 1) * u = if neg then -u else u := by cases neg <;> simp
  rw [hsign] at hp
  unfold State.macRow
  rw [State.kstep_issues h (by simp [hop])]
  dsimp only
  rw [if_neg (not_not.mpr hzero)]
  simp only [Engine.issued_block, Engine.issued_accum, ← hp]
  refine ⟨_, congrArg (fun y => s.kput e y _ 1 _) ?_⟩
  unfold Engine.raiseStat
  split <;> rfl
theorem macRow_traps (neg : Bool) (h : s.issues e w) {op : Nat} (hop : opOf w = op) (hzero : fw w 18 16 ≠ 0) :
    s.macRow e op neg = s.engineTrap e 2 0 := by
  unfold State.macRow
  rw [State.kstep_issues h (by simp [hop])]
  exact if_pos hzero

/-! ### BACC (R152) -/

theorem baccRow_writes (h : s.issues e w) (hop : opOf w = 0x18) (hx : x = s.engine e) (hzero : fw w 18 16 = 0)
    (hlimit : fw w 19 19 = 0 → fw w 7 0 = 0) {v l : Rat} {sat : Bool} {p : PartWrite}
    (hv : v = ((x.accum (fw w 21 20)).a : Rat) * pow2 ((x.accum (fw w 21 20)).e - 46)) (hl : l = ratAbs (x.elem (fw w 7 0)))
    (hsat : sat = (decide (fw w 19 19 = 1) && decide (l < ratAbs v)))
    (hp : p = writePart (x.block (fw w 15 8 / 16)) [(fw w 15 8 % 16, if sat then ratSign v * l else v)]) :
    ∃ t rs, s.baccRow e = s.kput e (((x.issued w).setBlock (fw w 15 8 / 16) p.b).setSat (fw w 15 8 / 16) (sat || p.overflow)) t 1 rs := by
  subst hx hp hsat hl hv
  have hlt : fw w 19 19 < 2 := fw_lt w 19 19
  unfold State.baccRow
  rw [State.kstep_issues h (by simp [hop])]
  dsimp only
  rw [if_neg (by simp only [Bool.not_eq_true', beq_eq_false_iff_ne]; omega)]
  exact ⟨_, _, rfl⟩
theorem baccRow_traps (h : s.issues e w) (hop : opOf w = 0x18) (hbad : fw w 18 16 ≠ 0 ∨ (fw w 19 19 = 0 ∧ fw w 7 0 ≠ 0)) :
    s.baccRow e = s.engineTrap e 2 0 := by
  unfold State.baccRow
  rw [State.kstep_issues h (by simp [hop])]
  dsimp only
  exact if_pos (by simp only [Bool.not_eq_true', beq_eq_false_iff_ne]; omega)

/-! ### BCVT (R154) -/

theorem bcvtRow_toElement (h : s.issues e w) (hop : opOf w = 0x1D) (hx : x = s.engine e) (hform : fw w 21 20 = 0)
    (hzero : fw w 6 5 = 0) {p : PartWrite} (hp : p = writePart (x.block (fw w 14 7 / 16))
      [(fw w 14 7 % 16, ((x.reg (fw w 19 15)).toInt : Rat) * pow2 (-(fw w 4 0 : Int)))]) :
    ∃ t rs, s.bcvtRow e = s.kput e ((x.issued w).putPart (fw w 14 7 / 16) p) t 1 rs := by
  subst hx hp
  unfold State.bcvtRow
  rw [State.kstep_issues h (by simp [hop])]
  dsimp only
  rw [if_neg (by omega), if_pos hform]
  exact ⟨_, _, rfl⟩
/-- The value that BCVT converts to a g register: of an element in form 1, of an accumulator in form 2. -/
def bcvtSource (x : Engine) (w : Word) : Rat :=
  if fw w 21 20 = 1 then x.elem (fw w 14 7) else ((x.accum (fw w 8 7)).a : Rat) * pow2 ((x.accum (fw w 8 7)).e - 46)
theorem toInt32_spec (v : Rat) : toInt32 v = (max (-2147483648) (min 2147483647 (roundEven v)),
    decide (max (-2147483648) (min 2147483647 (roundEven v)) ≠ roundEven v)) := by
  unfold toInt32
  dsimp only
  split
  · exact Prod.ext (by omega) (by simp; omega)
  · split
    · exact Prod.ext (by omega) (by simp; omega)
    · exact Prod.ext (by omega) (by simp; omega)
theorem bcvtRow_toRegister (h : s.issues e w) (hop : opOf w = 0x1D) (hx : x = s.engine e) (hzero : fw w 6 5 = 0)
    (hform : fw w 21 20 = 1 ∨ (fw w 21 20 = 2 ∧ fw w 14 9 = 0)) {r : Int}
    (hr : r = max (-2147483648) (min 2147483647 (roundEven (bcvtSource x w * pow2 (fw w 4 0))))) :
    ∃ t rs, s.bcvtRow e = s.kput e (((x.issued w).raiseStat 2 (decide (r ≠ roundEven (bcvtSource x w * pow2 (fw w 4 0))))).setReg
      (fw w 19 15) (BitVec.ofInt 32 r)) t 1 rs := by
  subst hx hr
  unfold State.bcvtRow
  rw [State.kstep_issues h (by simp [hop])]
  dsimp only
  rw [if_neg (by omega), if_neg (by omega), toInt32_spec]
  unfold bcvtSource
  split <;> exact ⟨_, _, rfl⟩
theorem bcvtRow_traps (h : s.issues e w) (hop : opOf w = 0x1D)
    (hbad : fw w 21 20 = 3 ∨ fw w 6 5 ≠ 0 ∨ (fw w 21 20 = 2 ∧ fw w 14 9 ≠ 0)) : s.bcvtRow e = s.engineTrap e 2 0 := by
  unfold State.bcvtRow
  rw [State.kstep_issues h (by simp [hop])]
  exact if_pos (by omega)
end

/-- Settles O36, clause by clause: each row is the results of one instruction (`State.onEngine_of_kput`) or a trap. -/
theorem accumulatorRows : Obligations.AccumulatorRows := by
  intro s e w x hup h hx
  refine ⟨fun neg p sx ea b v a c hop hzero hp hsx ha hea hb hv hc => ?_, fun v l p sat hop hzero hlimit hv hl hsat hp => ?_,
    fun p hop hform hzero hp => ?_, fun v r hop hzero hsource hr => ?_, fun hop hbad => ?_, fun hop hbad => ?_,
    fun hop hbad => ?_, fun hop hbad => ?_⟩
  · subst hsx ha hc
    obtain ⟨hacc, hover⟩ := macStep_spec hea hb hv
    obtain ⟨rs, hrow⟩ := macRow_accumulates neg h hop hx hzero hp rfl
    rw [hacc, hover] at hrow
    have hexec : exec (if neg then .bmsu e else .bmac e) s = live s (fun s => s.macRow e (if neg then 0x17 else 0x16) neg) := by
      cases neg <;> rfl
    refine State.onEngine_of_kput hup hexec hrow (Or.inl rfl) ?_
    refine ⟨?_, Engine.testBit_raiseStat .., fun k hk => ?_, ?_⟩
    · rw [Engine.raiseStat_eq]
      exact tabGet_tabPut_same ..
    · rw [Engine.raiseStat_eq]
      exact tabGet_tabPut_ne _ _ _ hk
    · rw [Engine.raiseStat_eq]
      exact ⟨rfl, rfl, rfl, rfl, rfl, rfl, fun hl => Engine.finish_pc _ _ _ _ hl⟩
  · obtain ⟨t, rs, hrow⟩ := baccRow_writes h hop hx hzero hlimit hv hl hsat hp
    refine State.onEngine_of_kput hup rfl hrow (Or.inl rfl) ⟨x.onlyBlock_setSat .., rfl, ?_, fun k hk => ?_⟩
    · exact (Engine.testBit_setSat ..).trans (if_pos rfl)
    · exact (Engine.testBit_setSat ..).trans (if_neg hk)
  · obtain ⟨t, rs, hrow⟩ := bcvtRow_toElement h hop hx hform hzero hp
    refine State.onEngine_of_kput hup rfl hrow (Or.inl rfl) ⟨x.onlyBlock_putPart w 0 false .., ?_, fun ho => ?_, fun hfits => ?_⟩
    · rw [Engine.putPart_eq]; rfl
    · exact Engine.putPart_overflow _ _ ho
    · exact Engine.putPart_fits _ _ hfits
  · have hform : fw w 21 20 = 1 ∨ (fw w 21 20 = 2 ∧ fw w 14 9 = 0) := hsource.imp And.left (fun hs => ⟨hs.1, hs.2.1⟩)
    have hvalue : v = bcvtSource x w * pow2 (fw w 4 0) := by
      unfold bcvtSource
      rcases hsource with ⟨hf, hv⟩ | ⟨hf, -, hv⟩
      · rw [if_pos hf, hv]
      · rw [if_neg (by omega), hv]
    subst hvalue
    obtain ⟨t, rs, hrow⟩ := bcvtRow_toRegister h hop hx hzero hform hr
    refine State.onEngine_of_kput hup rfl hrow (Or.inl rfl) ⟨x.onlyReg_raiseStat .., ?_⟩
    rw [Engine.setReg_eq]
    exact Engine.testBit_raiseStat ..
  · exact State.trapsWith_of_engineTrap hup rfl (macRow_traps false h hop hbad) e.isLt (by decide)
  · exact State.trapsWith_of_engineTrap hup rfl (macRow_traps true h hop hbad) e.isLt (by decide)
  · exact State.trapsWith_of_engineTrap hup rfl (baccRow_traps h hop hbad) e.isLt (by decide)
  · exact State.trapsWith_of_engineTrap hup rfl (bcvtRow_traps h hop hbad) e.isLt (by decide)

end Sys2Proof.Machine
end
section
/-! PROOFS. Rounding, square roots and the errors of R155: the layer under the statement O37. -/
namespace Sys2Proof.Machine

/-! ### Rounding (R36, R149) -/

theorem ratAbs_eq_abs (r : Rat) : ratAbs r = |r| := by
  unfold ratAbs
  split
  · exact (abs_of_neg ‹_›).symm
  · exact (abs_of_nonneg (not_lt.mp ‹_›)).symm
theorem abs_roundEven_sub_le (r : Rat) : |(roundEven r : Rat) - r| ≤ 1 / 2 := by
  have hlo : (r.floor : Rat) ≤ r := Int.floor_le r
  have hhi : r < r.floor + 1 := Int.lt_floor_add_one r
  unfold roundEven
  extract_lets f d
  rw [abs_le]
  split_ifs <;> (push_cast; constructor <;> linarith)
/-- An integer near an angle (R155). -/
theorem angleWithin_near (a : Rat) : ∃ r : Int, ratAbs ((r : Rat) - a) ≤ 1 ∧ angleWithin a = (r % 65536).toNat := by
  unfold angleWithin
  extract_lets r
  by_cases h : ratAbs ((r : Rat) - a) ≤ 1
  · exact ⟨r, h, by rw [if_pos h]⟩
  · refine ⟨roundEven a, ?_, by rw [if_neg h]⟩
    rw [ratAbs_eq_abs]
    linarith [abs_roundEven_sub_le a]

/-! ### Errors within a bound (R155) -/

theorem abs_boundedError_le {b : Rat} (hb : 0 ≤ b) (x : Rat) : |boundedError b x| ≤ b :=
  abs_le.mpr ⟨le_max_left .., max_le (by linarith) (min_le_left ..)⟩
theorem ulp22_pos : 0 < ulp22 := by norm_num [ulp22]
/-- A reciprocal within a relative 2^−22. -/
theorem relE_inv_mul {v : Rat} (hv : v ≠ 0) : ratAbs (relE (1 / v) * v - 1) ≤ ulp22 := by
  have herror : relE (1 / v) * v - 1 = boundedError ulp22 (1 / v) := by
    unfold relE
    field_simp
    ring
  rw [ratAbs_eq_abs, herror]
  exact abs_boundedError_le ulp22_pos.le _
theorem relE_nonneg {r : Rat} (hr : 0 ≤ r) : 0 ≤ relE r := by
  have herror := (abs_le.mp (abs_boundedError_le ulp22_pos.le r)).1
  have hsmall : ulp22 ≤ 1 := by norm_num [ulp22]
  exact mul_nonneg hr (by linarith)

/-! ### Square roots -/

theorem sqrtBits_floor (x : Nat) : ∀ k r : Nat, r * r ≤ x → x < (r + 2 ^ k) * (r + 2 ^ k) →
    sqrtBits x k r * sqrtBits x k r ≤ x ∧ x < (sqrtBits x k r + 1) * (sqrtBits x k r + 1) := by
  intro k
  induction k with
  | zero => exact fun r hlo hhi => ⟨hlo, hhi⟩
  | succ k ih =>
    intro r hlo hhi
    unfold sqrtBits
    dsimp only
    split
    · rename_i hc
      exact ih _ hc (by rw [add_assoc, ← two_mul, ← pow_succ']; exact hhi)
    · rename_i hc
      exact ih _ hlo (not_le.mp hc)
theorem isqrt_floor {x : Nat} (hx : x < 2 ^ 128) : isqrt x * isqrt x ≤ x ∧ x < (isqrt x + 1) * (isqrt x + 1) :=
  sqrtBits_floor x 64 0 (Nat.zero_le x) (by omega)

/-- The root of `v` within a relative 2^−22, upwards and downwards (R155). -/
def nearRoot (v q : Rat) : Prop := 0 ≤ q ∧ v * (1 - ulp22) * (1 - ulp22) ≤ q * q ∧ q * q ≤ v * (1 + ulp22) * (1 + ulp22)
theorem nearRoot_rootE {v r : Rat} (h : nearRoot v r) : nearRoot v (rootE v r) := by
  unfold rootE
  extract_lets y
  split
  · rename_i hy
    exact ⟨relE_nonneg h.1, hy⟩
  · exact h
/-- A root of an integer found to 2^−32 is near. -/
theorem nearRoot_isqrt {m : Nat} (hm : m < 2 ^ 25) : nearRoot m ((isqrt (m * 2 ^ 64) : Nat) / 4294967296) := by
  obtain ⟨hlo, hhi⟩ := isqrt_floor (x := m * 2 ^ 64) (by omega)
  generalize isqrt (m * 2 ^ 64) = q at hlo hhi
  have hloQ : (q : Rat) * q ≤ m * 2 ^ 64 := by exact_mod_cast hlo
  have hhiQ : (m : Rat) * 2 ^ 64 ≤ (q + 1) * (q + 1) := by exact_mod_cast hhi.le
  have hsquare : (q : Rat) / 4294967296 * (q / 4294967296) = q * q / 2 ^ 64 := by ring
  refine ⟨by positivity, ?_, ?_⟩
  · rcases Nat.eq_zero_or_pos m with rfl | hpos
    · rw [Nat.cast_zero, zero_mul, zero_mul]
      exact mul_self_nonneg _
    · have hlarge : 2 ^ 22 ≤ q + 1 := by
        by_contra hsmall
        have := Nat.mul_le_mul (not_le.mp hsmall).le (not_le.mp hsmall).le
        omega
      have hlargeQ : (2 : Rat) ^ 22 ≤ q + 1 := by exact_mod_cast hlarge
      have hstep : ((q : Rat) + 1) * (1 - ulp22) ≤ q := by
        unfold ulp22
        linarith
      have hnonneg : 0 ≤ ((q : Rat) + 1) * (1 - ulp22) := mul_nonneg (by positivity) (by norm_num [ulp22])
      rw [hsquare, le_div_iff₀ (by positivity)]
      calc (m : Rat) * (1 - ulp22) * (1 - ulp22) * 2 ^ 64 = m * 2 ^ 64 * ((1 - ulp22) * (1 - ulp22)) := by ring
        _ ≤ (q + 1) * (q + 1) * ((1 - ulp22) * (1 - ulp22)) := mul_le_mul_of_nonneg_right hhiQ (mul_self_nonneg _)
        _ = ((q + 1) * (1 - ulp22)) * ((q + 1) * (1 - ulp22)) := by ring
        _ ≤ q * q := mul_self_le_mul_self hnonneg hstep
  · have hwider : (m : Rat) ≤ m * (1 + ulp22) * (1 + ulp22) := by
      rw [mul_assoc]
      exact le_mul_of_one_le_right (by positivity) (by norm_num [ulp22])
    rw [hsquare]
    exact ((div_le_iff₀ (by positivity)).mpr hloQ).trans hwider
theorem nearRoot_scale {v q : Rat} (h : Int) (hq : nearRoot v q) : nearRoot (v * pow2 (2 * h)) (q * pow2 h) := by
  obtain ⟨hnonneg, hlo, hhi⟩ := hq
  have hpos : 0 < pow2 h := by rw [pow2_eq_zpow]; positivity
  have hpow : pow2 (2 * h) = pow2 h * pow2 h := by
    rw [pow2_eq_zpow, pow2_eq_zpow, two_mul, zpow_add₀ (by norm_num)]
  have hscaled (c : Rat) : v * pow2 (2 * h) * c * c = v * c * c * (pow2 h * pow2 h) := by rw [hpow]; ring
  have hsquare : q * pow2 h * (q * pow2 h) = q * q * (pow2 h * pow2 h) := by ring
  refine ⟨by positivity, ?_, ?_⟩
  · rw [hscaled, hsquare]
    exact mul_le_mul_of_nonneg_right hlo (by positivity)
  · rw [hscaled, hsquare]
    exact mul_le_mul_of_nonneg_right hhi (by positivity)
/-- The root of an element (R155). -/
theorem nearRoot_sqrtElem {m : Nat} (hm : m < 2 ^ 24) (e : Int) : nearRoot (m * pow2 (e - 23)) (sqrtElem m e) := by
  unfold sqrtElem
  extract_lets k m2 h
  have hvalue : (m : Rat) * pow2 (e - 23) = m2 * pow2 (2 * h) := by
    by_cases heven : k % 2 = 0
    · have hk : e - 23 = 2 * h := by
        simp only [h, if_pos heven]
        omega
      simp only [m2, if_pos heven, hk]
    · have hk : e - 23 = 2 * h + 1 := by
        simp only [h, if_neg heven]
        omega
      simp only [m2, if_neg heven, hk, pow2_eq_zpow, zpow_add₀ (two_ne_zero' Rat)]
      push_cast
      ring
  have hm2 : m2 < 2 ^ 25 := by
    simp only [m2]
    split <;> omega
  rw [hvalue]
  exact nearRoot_scale h (nearRoot_isqrt hm2)

/-! ### Values beyond every exponent (R117) -/

/-- 2^200 needs an exponent above 127. -/
theorem fitExp_huge (lo : Int) : fitExp lo [pow2 200] = none := by
  have hbig (k : Int) (hk : k ≤ 127) : mFits (mantissa (pow2 200) k) = false := by
    have hquotient : (2 : Rat) ^ 96 ≤ pow2 200 / pow2 (k - 23) := by
      rw [pow2_eq_zpow, pow2_eq_zpow, ← zpow_sub₀ (by norm_num), ← zpow_natCast]
      exact zpow_le_zpow_right₀ (by norm_num) (by omega)
    have hround : (8388607 : Rat) < mantissa (pow2 200) k := by
      have hnear := (abs_le.mp (abs_roundEven_sub_le (pow2 200 / pow2 (k - 23)))).1
      unfold mantissa
      linarith
    have hlarge : 8388607 < mantissa (pow2 200) k := by exact_mod_cast hround
    exact decide_eq_false (by omega)
  unfold fitExp
  rw [List.find?_eq_none]
  intro k _
  by_cases hk : k ≤ 127
  · simp [hbig k hk]
  · simp [hk]
theorem writePart_overflow {b : Blk} {news : List (Nat × Rat)} (h : fitExp b.e (news.map (·.2)) = none) :
    (writePart b news).overflow = true := by
  unfold writePart
  dsimp only
  rw [h]

end Sys2Proof.Machine
end
section
/-! PROOFS. The statement O37: transcendental instructions (R155). -/
namespace Sys2Proof.Machine

section
variable {s : State} {e : Nat} {w : Word} {x : Engine}

/-! ### SINCOS -/

theorem sincosRow_writes (h : s.issues e w) (hop : opOf w = 0x20) (hx : x = s.engine e) (hzero : fw w 8 0 = 0)
    (hpair : fw w 21 14 % 16 ≠ 15) {p : PartWrite} (hp : p = writePart (x.block (fw w 21 14 / 16))
      [(fw w 21 14 % 16, sinE (((x.reg (fw w 13 9)).toNat % 65536 : Nat) : Rat)),
       (fw w 21 14 % 16 + 1, cosE (((x.reg (fw w 13 9)).toNat % 65536 : Nat) : Rat))]) :
    ∃ t rs, s.sincosRow e = s.kput e ((x.issued w).putPart (fw w 21 14 / 16) p) t 1 rs := by
  subst hx hp
  unfold State.sincosRow
  rw [State.kstep_issues h (by simp [hop])]
  dsimp only
  rw [if_neg (by omega)]
  exact ⟨_, _, rfl⟩
theorem sincosRow_traps (h : s.issues e w) (hop : opOf w = 0x20) (hbad : fw w 21 14 % 16 = 15 ∨ fw w 8 0 ≠ 0) :
    s.sincosRow e = s.engineTrap e 2 0 := by
  unfold State.sincosRow
  rw [State.kstep_issues h (by simp [hop])]
  exact if_pos hbad.symm

/-! ### ATAN2 -/

theorem atan2Row_sets (h : s.issues e w) (hop : opOf w = 0x21) (hx : x = s.engine e) (hzero : fw w 16 16 = 0) {origin : Bool}
    (ho : decide (x.elem (fw w 15 8) = 0 ∧ x.elem (fw w 7 0) = 0) = origin) :
    ∃ t rs, s.atan2Row e = s.kput e (((x.issued w).raiseStat 1 origin).setReg (fw w 21 17)
      (BitVec.ofNat 32 (if origin then 0 else angleWithin (atan2Au (x.elem (fw w 15 8)) (x.elem (fw w 7 0)))))) t 1 rs := by
  subst hx ho
  unfold State.atan2Row
  rw [State.kstep_issues h (by simp [hop])]
  dsimp only
  rw [if_neg (not_not.mpr hzero)]
  exact ⟨_, _, rfl⟩
theorem atan2Row_traps (h : s.issues e w) (hop : opOf w = 0x21) (hbad : fw w 16 16 ≠ 0) : s.atan2Row e = s.engineTrap e 2 0 := by
  unfold State.atan2Row
  rw [State.kstep_issues h (by simp [hop])]
  exact if_pos hbad
/-- An angle below a full turn in a g register. -/
theorem ofNat_toNat_emod (r : Int) : BitVec.ofNat 32 (r % 65536).toNat = BitVec.ofInt 32 (r % 65536) := by
  conv_rhs => rw [← Int.toNat_of_nonneg (Int.emod_nonneg r (by decide : (65536 : Int) ≠ 0)), BitVec.ofInt_natCast]

/-! ### SQRT and RCP -/

theorem sqrtRow_writes (h : s.issues e w) (hop : opOf w = 0x22) (hx : x = s.engine e) (hzero : fw w 21 16 = 0) {b : Blk} {m : Int}
    (hb : x.block (fw w 7 0 / 16) = b) (hm : b.m.getD (fw w 7 0 % 16) 0 = m) :
    ∃ t rs, s.sqrtRow e = s.kput e (((x.issued w).raiseStat 1 (decide (m < 0))).putPart (fw w 15 8 / 16)
      (writePart (x.block (fw w 15 8 / 16)) [(fw w 15 8 % 16, if m < 0 then 0 else
        rootE (b.val (fw w 7 0 % 16)) (sqrtElem m.toNat b.e))])) t 1 rs := by
  subst hx hm hb
  unfold State.sqrtRow
  rw [State.kstep_issues h (by simp [hop])]
  dsimp only
  rw [if_neg (not_not.mpr hzero)]
  refine ⟨_, _, congrArg (fun y : Engine => s.kput e (y.putPart _ _) _ 1 _) ?_⟩
  unfold Engine.raiseStat
  simp only [decide_eq_true_eq]
  rfl
theorem sqrtRow_traps (h : s.issues e w) (hop : opOf w = 0x22) (hbad : fw w 21 16 ≠ 0) : s.sqrtRow e = s.engineTrap e 2 0 := by
  unfold State.sqrtRow
  rw [State.kstep_issues h (by simp [hop])]
  exact if_pos hbad
theorem rcpRow_writes (h : s.issues e w) (hop : opOf w = 0x23) (hx : x = s.engine e) (hzero : fw w 21 16 = 0) {q : Rat}
    (hq : q = if x.elem (fw w 7 0) = 0 then pow2 200 else relE (1 / x.elem (fw w 7 0))) :
    ∃ t rs, s.rcpRow e = s.kput e ((x.issued w).putPart (fw w 15 8 / 16)
      (writePart (x.block (fw w 15 8 / 16)) [(fw w 15 8 % 16, q)])) t 1 rs := by
  subst hx hq
  unfold State.rcpRow
  rw [State.kstep_issues h (by simp [hop])]
  dsimp only
  rw [if_neg (not_not.mpr hzero)]
  exact ⟨_, _, rfl⟩
theorem rcpRow_traps (h : s.issues e w) (hop : opOf w = 0x23) (hbad : fw w 21 16 ≠ 0) : s.rcpRow e = s.engineTrap e 2 0 := by
  unfold State.rcpRow
  rw [State.kstep_issues h (by simp [hop])]
  exact if_pos hbad
end

/-- Settles O37: each row is the results of one instruction or a trap; the bounds are those of `angleWithin_near`,
`nearRoot_rootE` with `nearRoot_sqrtElem`, and `relE_inv_mul`. -/
theorem transcendentalRows : Obligations.TranscendentalRows := by
  intro s e w x hup h hx
  refine ⟨fun p hop hzero hpair hp => ?_, fun hop hbad => ?_, fun hop hzero hy0 hx0 => ?_, fun hop hzero hnot => ?_,
    fun hop hbad => ?_, fun hop hzero hneg => ?_, fun hop hzero hnonneg hlt => ?_, fun hop hbad => ?_, fun hop hzero hne => ?_,
    fun hop hzero hv => ?_, fun hop hbad => ?_⟩
  · obtain ⟨t, rs, hrow⟩ := sincosRow_writes h hop hx hzero hpair hp
    refine State.onEngine_of_kput hup rfl hrow (Or.inl rfl)
      ⟨x.onlyBlock_putPart w 0 false .., ?_, fun hfits => Engine.putPart_fits _ _ hfits⟩
    rw [Engine.putPart_eq]; rfl
  · exact State.trapsWith_of_engineTrap hup rfl (sincosRow_traps h hop hbad) e.isLt (by decide)
  · obtain ⟨t, rs, hrow⟩ := atan2Row_sets h hop hx hzero (decide_eq_true ⟨hy0, hx0⟩)
    refine State.onEngine_of_kput hup rfl hrow (Or.inl rfl) ⟨x.onlyReg_raiseStat .., ?_⟩
    rw [Engine.setReg_eq]
    exact Engine.testBit_raiseStat ..
  · obtain ⟨t, rs, hrow⟩ := atan2Row_sets h hop hx hzero (decide_eq_false hnot)
    obtain ⟨r, hnear, hr⟩ := angleWithin_near (atan2Au (x.elem (fw w 15 8)) (x.elem (fw w 7 0)))
    rw [if_neg (by decide), hr, ofNat_toNat_emod] at hrow
    refine ⟨r, hnear, State.onEngine_of_kput hup rfl hrow (Or.inl rfl) ⟨?_, x.onlyReg_raiseStat ..⟩⟩
    rw [Engine.setReg_eq]; rfl
  · exact State.trapsWith_of_engineTrap hup rfl (atan2Row_traps h hop hbad) e.isLt (by decide)
  · obtain ⟨t, rs, hrow⟩ := sqrtRow_writes h hop hx hzero rfl rfl
    rw [if_pos hneg, decide_eq_true hneg] at hrow
    refine State.onEngine_of_kput hup rfl hrow (Or.inl rfl) ⟨?_, x.onlyBlock_putPart ..⟩
    rw [Engine.putPart_eq]
    exact Engine.testBit_raiseStat ..
  · obtain ⟨m, hm⟩ := Int.eq_ofNat_of_zero_le hnonneg
    obtain ⟨t, rs, hrow⟩ := sqrtRow_writes h hop hx hzero rfl hm
    rw [if_neg (by omega), decide_eq_false (by omega)] at hrow
    have hvalue : x.elem (fw w 7 0) = m * pow2 ((x.block (fw w 7 0 / 16)).e - 23) := by
      unfold Engine.elem Blk.val
      rw [hm, Int.cast_natCast]
    have hroot : nearRoot (x.elem (fw w 7 0)) (rootE (x.elem (fw w 7 0)) (sqrtElem m (x.block (fw w 7 0 / 16)).e)) := by
      refine nearRoot_rootE ?_
      rw [hvalue]
      exact nearRoot_sqrtElem (by omega) _
    refine ⟨_, hroot.1, hroot.2.1, hroot.2.2, State.onEngine_of_kput hup rfl hrow (Or.inl rfl) ⟨?_, x.onlyBlock_putPart ..⟩⟩
    rw [Engine.putPart_eq]; rfl
  · exact State.trapsWith_of_engineTrap hup rfl (sqrtRow_traps h hop hbad) e.isLt (by decide)
  · obtain ⟨t, rs, hrow⟩ := rcpRow_writes h hop hx hzero (if_neg hne).symm
    refine ⟨_, relE_inv_mul hne, State.onEngine_of_kput hup rfl hrow (Or.inl rfl)
      ⟨?_, x.onlyBlock_putPart w 0 false .., fun ho => Engine.putPart_overflow _ _ ho⟩⟩
    rw [Engine.putPart_eq]; rfl
  · obtain ⟨t, rs, hrow⟩ := rcpRow_writes h hop hx hzero (if_pos hv).symm
    obtain ⟨hblock, hg, hacc, -⟩ := x.onlyBlock_putPart w 0 false (fw w 15 8 / 16)
      (writePart (x.block (fw w 15 8 / 16)) [(fw w 15 8 % 16, pow2 200)]) t 1 rs
    exact State.onEngine_of_kput hup rfl hrow (Or.inl rfl)
      ⟨Engine.putPart_overflow _ _ (writePart_overflow (fitExp_huge _)), hg, hacc, fun k hk => (hblock k).trans (if_neg hk)⟩
  · exact State.trapsWith_of_engineTrap hup rfl (rcpRow_traps h hop hbad) e.isLt (by decide)

end Sys2Proof.Machine
end
section
/-! PROOFS. What the end of a pass does to the engine that ends it (R125, R134): the layer under the statement O38. -/
namespace Sys2Proof.Machine

section
variable {s : State} {e : Nat}

/-! ### A delivery changes its target only (R134) -/

theorem State.each_engine {α : Type} (l : List α) {f : α → State → State} {m : Nat} (h : ∀ x t, (f x t).engine m = t.engine m) :
    (s.each l f).engine m = s.engine m := State.each_same l (fun t => t.engine m) h s
theorem State.setDataWords_engine_ne {m : Nat} (i : Nat) (l : List Word) (h : m ≠ e) :
    (s.setDataWords e i l).engine m = s.engine m :=
  State.each_engine _ (fun _ t => (State.engine_modEngine_ne _ _ h).trans (t.wrMem_engine ..))
theorem State.routeStart_engine_ne {m : Nat} (h : m ≠ e) : (s.routeStart e).engine m = s.engine m :=
  (State.engine_modEngine_ne _ _ h).trans (State.put_engine ..)
theorem State.deliver_engine_ne {m : Nat} (n role : Nat) (h : m ≠ e) : (s.deliver n role e).engine m = s.engine m := by
  unfold State.deliver
  split
  · split
    · rfl
    · exact (State.setDataWords_engine_ne _ _ h).trans (State.each_engine _ (fun _ _ => State.engine_modEngine_ne _ _ h))
  · rfl

theorem State.upd_drawn_engine (s : State) (k m : Nat) : ({ s with drawn := k } : State).engine m = s.engine m := (rfl)

/-! ### A record becomes valid (R131, R134) -/

/-- The delivery of a record in a swap leaves an engine alone that is not its target, or where no target waits for it. -/
theorem State.swapCkp_engine {n : Nat} (role : Nat) (h : (s.swap n).tgt ≠ e ∨ s.get (AX_SWAPST_PHASE n) ≠ 2) :
    (s.swapCkp n role).engine e = s.engine e := by
  unfold State.swapCkp
  extract_lets x s1 s2
  split
  · rename_i hwaits
    have hne : e ≠ x.tgt := (h.resolve_right (not_not.mpr hwaits.1)).symm
    have h1 : s1.engine e = s.engine e := by
      unfold s1
      rw [State.put_engine, State.deliver_engine_ne _ _ hne, State.routeStart_engine_ne hne]
    have h2 : s2.engine e = s1.engine e := by
      unfold s2
      split
      · rw [State.modCc_engine, State.upd_drawn_engine]
      · rfl
    rw [State.setSwap_engine, State.put_engine, State.put_engine, h2, h1]
  · rfl
theorem State.ckpCommit_engine {n : Nat} (role t : Nat) (h : (s.swap n).tgt ≠ e ∨ s.get (AX_SWAPST_PHASE n) ≠ 2) :
    (s.ckpCommit n role t).engine e = s.engine e := by
  have hage (u : State) (v : Nat) : (u.put (if role = 0 then AX_CKP_CTLAGE n else AX_CKP_ESTAGE n) v).get (AX_SWAPST_PHASE n) =
      u.get (AX_SWAPST_PHASE n) := by
    split
    · exact u.get_put_elsewhere v rfl (by unfold AX_SWAPST_PHASE AX_CKP_CTLAGE AX_SWAPST AX_CKP; dsimp only; omega)
    · exact u.get_put_elsewhere v rfl (by unfold AX_SWAPST_PHASE AX_CKP_ESTAGE AX_SWAPST AX_CKP; dsimp only; omega)
  unfold State.ckpCommit
  split
  · split
    · unfold State.ckpTaken State.ckpValid
      rw [State.swapCkp_engine]
      · rw [State.put_engine]; rfl
      · rw [State.put_swap, hage]
        exact h
    · rfl
  · rfl

/-! ### The swap hears of the end of a pass (R134) -/

theorem State.swapOutput_engine (t : Nat) (o : Option (List Int)) (m : Nat) : (s.swapOutput e t o).engine m = s.engine m := by
  unfold State.swapOutput
  split
  · dsimp only
    split
    · rfl
    · split <;> rfl
  · rfl
theorem State.shadowCompare_engine (n m : Nat) : (s.shadowCompare n).engine m = s.engine m := by
  unfold State.shadowCompare
  dsimp only
  split
  · rfl
  · split
    · split
      · rfl
      · exact (State.setSwap_engine ..).trans (State.put_engine ..)
    · rfl
theorem State.swapPassEnd_engine (t : Nat) (reached : Bool) (m : Nat) : (s.swapPassEnd e t reached).engine m = s.engine m := by
  unfold State.swapPassEnd
  split
  · dsimp only
    rw [State.shadowCompare_engine, apply_ite (fun t : State => t.engine m), State.swapOutput_engine, ite_self]
  · rfl

/-! ### The end of a pass (R125) -/

/-- What the end of a pass of engine `e` goes by beside the engine: the slot it serves, the swaps and their phases. -/
def State.swapView (s : State) (e : Nat) : Option Nat × (Nat → Swap) × (Nat → Nat) :=
  (s.engineSlot e, s.swap, fun m => s.get (AX_SWAPST_PHASE m))
theorem State.put_swapView {a hi lo : Nat} (v : Nat) (hw : hi < 32) (h : a % 0x1000 ≠ 0x4 ∧ a % 0x1000 ≠ 0x18) :
    (s.put ⟨a, hi, lo⟩ v).swapView e = s.swapView e := by
  have hstatus : (s.put ⟨a, hi, lo⟩ v).rd (KE_STATUS e) = s.rd (KE_STATUS e) :=
    State.rd_put_word v hw (by unfold KE_STATUS; omega)
  have hrole : (s.put ⟨a, hi, lo⟩ v).get (KE_STATUS_ROLE e) = s.get (KE_STATUS_ROLE e) := State.get_of_rd (by decide) hstatus
  have hslot : (s.put ⟨a, hi, lo⟩ v).get (KE_STATUS_SLOT e) = s.get (KE_STATUS_SLOT e) := State.get_of_rd (by decide) hstatus
  have hphase (m : Nat) : (s.put ⟨a, hi, lo⟩ v).get (AX_SWAPST_PHASE m) = s.get (AX_SWAPST_PHASE m) :=
    State.get_of_rd (by decide) (State.rd_put_word v hw (by unfold AX_SWAPST; omega))
  have hswap : (s.put ⟨a, hi, lo⟩ v).swap = s.swap := funext (fun m => State.put_swap ..)
  unfold State.swapView State.engineSlot
  simp only [hrole, hslot, hphase, hswap]

theorem State.upd_drawn_swapView (s : State) (e k : Nat) : ({ s with drawn := k } : State).swapView e = s.swapView e := (rfl)
theorem State.modPr_swapView (s : State) (e n : Nat) (f : Prusik → Prusik) : (s.modPr n f).swapView e = s.swapView e := (rfl)
theorem State.modEngine_swapView (s : State) (e m : Nat) (f : Engine → Engine) : (s.modEngine m f).swapView e = s.swapView e := (rfl)

/-- The engine after the end of its pass. -/
def Engine.ended (x : Engine) (at_ : Nat) (angle : Option Nat) : Engine :=
  { x with inPass := false, endAt := at_, passn := x.passn + 1, skipped := 0, fresh := false, halt := false, angle := angle }
theorem State.endPass_engine (hhalt : (s.engine e).halt = false)
    (hsafe : ∀ m, s.engineSlot e = some m → (s.swap m).tgt ≠ e ∨ s.get (AX_SWAPST_PHASE m) ≠ 2) (cyc : Option Nat) :
    ∃ at_ angle, (s.endPass e cyc).engine e = (s.engine e).ended at_ angle := by
  unfold State.endPass
  extract_lets x t c last s1 ns s2 s3 s4 s5 s6 s7
  have hview2 : s2.swapView e = s.swapView e := by
    have hcyc (u : State) (hi lo v : Nat) (hw : hi < 32) : (u.put ⟨KE_CYC e, hi, lo⟩ v).swapView e = u.swapView e :=
      State.put_swapView v hw (by unfold KE_CYC; omega)
    have hdrawn : s1.swapView e = s.swapView e := s.upd_drawn_swapView e (s.drawn + 2)
    exact (hcyc _ _ _ _ (by decide)).trans ((hcyc s1 _ _ _ (by decide)).trans hdrawn)
  have hview4 : s4.swapView e = s.swapView e := by
    have hlate : (s2.inc (KE_LATEWAIT_V e)).swapView e = s2.swapView e :=
      State.put_swapView _ (by decide) (by unfold KE_LATEWAIT; omega)
    have hview3 : s3.swapView e = s2.swapView e := (apply_ite (fun t : State => t.swapView e) ..).trans (by rw [hlate, ite_self])
    exact hview3.trans hview2
  have h4 : s4.engine e = x.ended (x.inst + ns) x.angle := State.engine_setEngine_same ..
  have hended : ∃ angle, s5.engine e = x.ended (x.inst + ns) angle ∧ s5.swapView e = s.swapView e := by
    unfold s5
    split
    · rename_i a n _ _
      have hangle : (s4.put (AX_CC_ANGLE_V n) a).swapView e = s4.swapView e :=
        State.put_swapView _ (by decide) (by unfold AX_CC_ANGLE; omega)
      refine ⟨none, ?_, ?_⟩
      · rw [State.engine_modEngine_same, State.modPr_engine, State.put_engine, h4]
        rfl
      · rw [State.modEngine_swapView, State.modPr_swapView, hangle, hview4]
    · exact ⟨x.angle, h4, hview4⟩
  obtain ⟨angle, h5, hview5⟩ := hended
  have h6 : s6.engine e = s5.engine e := by
    unfold s6
    split
    · rename_i n hn
      obtain ⟨hslot, hrest⟩ := Prod.mk.inj hview5
      obtain ⟨hswap, hphase⟩ := Prod.mk.inj hrest
      refine State.ckpCommit_engine _ _ ?_
      rw [hswap, congrFun hphase n]
      exact hsafe n (hslot.symm.trans hn)
    · rfl
  refine ⟨x.inst + ns, angle, ?_⟩
  rw [if_neg (by simp [x, hhalt])]
  exact (State.swapPassEnd_engine ..).trans (h6.trans h5)
end

end Sys2Proof.Machine
end
section
/-! PROOFS. The statement O38: branches, calls, loops and the ends of a route (R156 to R159). -/
namespace Sys2Proof.Machine

section
variable {s : State} {e : Nat} {w : Word} {x : Engine}

@[simp] theorem Engine.issued_endsBody (x : Engine) (w : Word) : (x.issued w).endsBody = x.endsBody := (rfl)
@[simp] theorem Engine.issued_pc (x : Engine) (w : Word) : (x.issued w).pc = x.pc := (rfl)
@[simp] theorem Engine.issued_stack (x : Engine) (w : Word) : (x.issued w).stack = x.stack := (rfl)
@[simp] theorem Engine.issued_loops (x : Engine) (w : Word) : (x.issued w).loops = x.loops := (rfl)
/-- A command whose effect is a new record of its engine. -/
theorem State.onEngine_of_setEngine {c : Instr} {f : State → State} {y : Engine} {P : Engine → Prop} (hup : s.up = true)
    (hexec : exec c s = live s f) (hf : f s = s.setEngine e y) (hP : P y) : s.onEngine c e P := by
  refine ⟨s.effect f, hexec.trans (live_next hup f), ?_, ?_, ?_, fun m hm => ?_⟩
  · rw [State.effect_engine, hf, State.engine_setEngine_same]; exact hP
  · rw [State.effect_regs, hf, State.setEngine_regs]
  · rw [State.effect_mem, hf, State.setEngine_mem]
  · rw [State.effect_engine, hf, State.engine_setEngine_ne _ _ hm]
/-- A program address is not negative. -/
theorem toNat_of_progOk {a : Int} (h : progOk a = true) : (a.toNat : Int) = a :=
  Int.toNat_of_nonneg (of_decide_eq_true h).1

/-! ### BR, CALL and RET (R156) -/

theorem brRow_jumps (h : s.issues e w) (hop : opOf w = 0x28) (hx : x = s.engine e) (hbody : x.endsBody = false)
    (hok : progOk (x.pc + signedOf 22 (fw w 21 0)) = true) :
    s.brRow e = s.setEngine e ((x.issued w).jump ((x.pc : Int) + signedOf 22 (fw w 21 0)).toNat (x.issued w).cyc 2) := by
  subst hx
  unfold State.brRow
  rw [State.kstep_issues h (by simp [hop])]
  simp only [Engine.issued_endsBody, Engine.issued_pc, hbody, hok]
  rfl
theorem brRow_traps (h : s.issues e w) (hop : opOf w = 0x28) (hx : x = s.engine e) (hbody : x.endsBody = false)
    (hbad : progOk (x.pc + signedOf 22 (fw w 21 0)) = false) : s.brRow e = s.engineTrap e 3 0 := by
  subst hx
  unfold State.brRow
  rw [State.kstep_issues h (by simp [hop])]
  simp only [Engine.issued_endsBody, Engine.issued_pc, hbody, hbad]
  rfl
theorem callRow_calls (h : s.issues e w) (hop : opOf w = 0x29) (hx : x = s.engine e) (hbody : x.endsBody = false)
    (hok : progOk (x.pc + signedOf 22 (fw w 21 0)) = true) (hroom : x.stack.length < 8) :
    s.callRow e = s.setEngine e { x.issued w with
      pc := ((x.pc : Int) + signedOf 22 (fw w 21 0)).toNat, cyc := (x.issued w).cyc + 2, stack := (x.pc + 1) :: x.stack } := by
  subst hx
  unfold State.callRow
  rw [State.kstep_issues h (by simp [hop])]
  simp only [Engine.issued_endsBody, Engine.issued_pc, Engine.issued_stack, hok]
  rw [if_neg (by simp [hbody, hroom])]
  rfl
theorem callRow_traps (h : s.issues e w) (hop : opOf w = 0x29) (hx : x = s.engine e) (hfull : 8 ≤ x.stack.length) :
    s.callRow e = s.engineTrap e 2 0 := by
  subst hx
  unfold State.callRow
  rw [State.kstep_issues h (by simp [hop])]
  exact if_pos (Or.inr hfull)
theorem retRow_returns (h : s.issues e w) (hop : opOf w = 0x2A) (hx : x = s.engine e) (hbody : x.endsBody = false)
    (hzero : fw w 21 0 = 0) {a : Nat} {rest : List Nat} (hstack : x.stack = a :: rest) (ha : a < 16384) :
    ∃ loops, s.retRow e = s.setEngine e { x.issued w with pc := a, cyc := (x.issued w).cyc + 2, stack := rest, loops := loops } := by
  subst hx
  have hok : progOk a = true := decide_eq_true (by omega)
  unfold State.retRow
  rw [State.kstep_issues h (by simp [hop])]
  dsimp only
  rw [if_neg (by simp [hzero, hbody]), Engine.issued_stack, hstack]
  simp only [hok]
  exact ⟨_, rfl⟩
theorem retRow_traps (h : s.issues e w) (hop : opOf w = 0x2A) (hx : x = s.engine e) (hstack : x.stack = []) :
    s.retRow e = s.engineTrap e 2 0 := by
  subst hx
  unfold State.retRow
  rw [State.kstep_issues h (by simp [hop])]
  rw [Engine.issued_stack, hstack]
  exact ite_self _

/-! ### LOOP (R157) -/

theorem loopRow_enters (h : s.issues e w) (hop : opOf w = 0x2B) (hx : x = s.engine e) (hbody : x.endsBody = false)
    (hzero : fw w 16 14 = 0) (hlen : fw w 13 0 ≠ 0) (hroom : x.loops.length < 4) (hcount : x.reg (fw w 21 17) ≠ 0#32) :
    ∃ t, s.loopRow e = s.setEngine e { x.issued w with
      cyc := t, pc := x.pc + 1
      loops := ⟨x.pc + 1, x.pc + fw w 13 0, (x.reg (fw w 21 17)).toNat, x.stack.length⟩ :: x.loops } := by
  subst hx
  have hn : (((s.engine e).issued w).reg (fw w 21 17)).toNat ≠ 0 := fun hz => hcount (BitVec.eq_of_toNat_eq hz)
  unfold State.loopRow
  rw [State.kstep_issues h (by simp [hop])]
  dsimp only
  rw [if_neg (by simp [hzero, hlen, hbody, hroom]), if_neg hn]
  exact ⟨_, rfl⟩
theorem loopRow_skips (h : s.issues e w) (hop : opOf w = 0x2B) (hx : x = s.engine e) (hbody : x.endsBody = false)
    (hzero : fw w 16 14 = 0) (hlen : fw w 13 0 ≠ 0) (hloops : x.loops = []) (hcount : x.reg (fw w 21 17) = 0#32) :
    ∃ t, s.loopRow e = s.setEngine e { x.issued w with cyc := t, pc := x.pc + fw w 13 0 + 1, loops := [] } := by
  subst hx
  have hn : (((s.engine e).issued w).reg (fw w 21 17)).toNat = 0 := congrArg BitVec.toNat hcount
  unfold State.loopRow
  rw [State.kstep_issues h (by simp [hop])]
  dsimp only
  rw [if_neg (by simp [hzero, hlen, hbody, hloops]), if_pos hn]
  unfold Engine.advance
  simp only [Engine.issued_loops, hloops]
  exact ⟨_, rfl⟩
theorem loopRow_traps (h : s.issues e w) (hop : opOf w = 0x2B) (hx : x = s.engine e) (hfull : 4 ≤ x.loops.length) :
    s.loopRow e = s.engineTrap e 2 0 := by
  subst hx
  unfold State.loopRow
  rw [State.kstep_issues h (by simp [hop])]
  exact if_pos (Or.inr (Or.inr (Or.inr hfull)))

/-! ### WAIT and HALT (R158) -/

theorem waitRow_ends (h : s.issues e w) (hop : opOf w = 0x2C) (hx : x = s.engine e) (hbody : x.endsBody = false)
    (hzero : fw w 21 0 = 0) :
    ∃ cyc, s.waitRow e = (s.setEngine e ((x.issued w).finish (x.issued w).cyc 1 [])).endPass e cyc := by
  subst hx
  unfold State.waitRow
  rw [State.kstep_issues h (by simp [hop])]
  exact ⟨_, if_neg (by simp [hzero, hbody])⟩
theorem haltRow_idles (h : s.issues e w) (hop : opOf w = 0x2D) (hx : x = s.engine e) (hbody : x.endsBody = false)
    (hzero : fw w 21 0 = 0) (hrole : s.get (KE_STATUS_ROLE e) = 0) :
    ∃ cyc, s.haltRow e = (s.setEngine e { x.issued w with pc := x.pc + 1, cyc := cyc }).engineIdle e := by
  subst hx
  unfold State.haltRow
  rw [State.kstep_issues h (by simp [hop])]
  dsimp only
  rw [if_neg (by simp [hzero, hbody]), if_pos hrole]
  exact ⟨_, rfl⟩
theorem haltRow_traps (h : s.issues e w) (hop : opOf w = 0x2D) (hx : x = s.engine e) (hbody : x.endsBody = false)
    (hzero : fw w 21 0 = 0) (hrole : s.get (KE_STATUS_ROLE e) ≠ 0) : s.haltRow e = s.engineTrap e 1 0 := by
  subst hx
  unfold State.haltRow
  rw [State.kstep_issues h (by simp [hop])]
  rw [if_neg (by simp [hzero, hbody]), if_neg hrole]
/-- An engine that is not RETIRED and stops is IDLE and ends its pass. -/
theorem State.engineIdle_spec (hpool : s.get (KE_STATUS_POOL e) ≠ 3) :
    (s.engineIdle e).get (KE_STATUS_POOL e) = 0 ∧ (s.engineIdle e).get (KE_STATUS_RUN e) = 0 ∧
      (s.engineIdle e).engine e = { s.engine e with inPass := false, due := none, halt := false } := by
  unfold State.engineIdle State.setRole
  extract_lets t
  have ht : t.pool e ≠ 3 := by
    have hkept : t.get (KE_STATUS_POOL e) = s.get (KE_STATUS_POOL e) :=
      (State.modEngine_get ..).trans ((State.get_put_apart _ 0 rfl).trans (State.get_put_apart _ 0 rfl))
    exact fun h3 => hpool (hkept.symm.trans h3)
  rw [if_neg ht]
  refine ⟨(State.get_put_apart _ 0 rfl).trans (State.get_put_own _ 0 rfl), State.get_put_own _ 0 rfl, ?_⟩
  rw [State.put_engine, State.put_engine]
  unfold t
  rw [State.engine_modEngine_same, State.put_engine, State.put_engine]
end

/-- Settles O38, clause by clause: each row is a new record of the engine, the end of its pass (`State.endPass_engine`), its
stop (`State.engineIdle_spec`) or a trap. -/
theorem flowRows : Obligations.FlowRows := by
  intro s e w x hup h hx hbody
  refine ⟨fun hop hok => ?_, fun hop hbad => ?_, fun hop hok hroom => ?_, fun hop hfull => ?_,
    fun a rest hop hzero hstack ha => ?_, fun hop hstack => ?_, fun hop hzero hlen hroom hcount => ?_,
    fun hop hzero hlen hloops hcount => ?_, fun hop hfull => ?_, fun hop hzero hhalt hsafe => ?_,
    fun hop hzero hrole hpool => ?_, fun hop hzero hrole => ?_, fun hop hzero => ?_, fun hop => ?_⟩
  · exact State.onEngine_of_setEngine hup rfl (brRow_jumps h hop hx hbody hok)
      ⟨⟨rfl, rfl, rfl, rfl, rfl, rfl⟩, toNat_of_progOk hok, rfl, rfl⟩
  · exact State.trapsWith_of_engineTrap hup rfl (brRow_traps h hop hx hbody hbad) e.isLt (by decide)
  · exact State.onEngine_of_setEngine hup rfl (callRow_calls h hop hx hbody hok hroom)
      ⟨⟨rfl, rfl, rfl, rfl, rfl, rfl⟩, toNat_of_progOk hok, rfl, rfl⟩
  · exact State.trapsWith_of_engineTrap hup rfl (callRow_traps h hop hx hfull) e.isLt (by decide)
  · obtain ⟨loops, hrow⟩ := retRow_returns h hop hx hbody hzero hstack ha
    exact State.onEngine_of_setEngine hup rfl hrow ⟨⟨rfl, rfl, rfl, rfl, rfl, rfl⟩, rfl, rfl, rfl⟩
  · exact State.trapsWith_of_engineTrap hup rfl (retRow_traps h hop hx hstack) e.isLt (by decide)
  · obtain ⟨t, hrow⟩ := loopRow_enters h hop hx hbody hzero hlen hroom hcount
    exact State.onEngine_of_setEngine hup rfl hrow ⟨⟨rfl, rfl, rfl, rfl, rfl, rfl⟩, rfl, rfl⟩
  · obtain ⟨t, hrow⟩ := loopRow_skips h hop hx hbody hzero hlen hloops hcount
    exact State.onEngine_of_setEngine hup rfl hrow ⟨⟨rfl, rfl, rfl, rfl, rfl, rfl⟩, rfl, rfl⟩
  · exact State.trapsWith_of_engineTrap hup rfl (loopRow_traps h hop hx hfull) e.isLt (by decide)
  · obtain ⟨cyc, hrow⟩ := waitRow_ends h hop hx hbody hzero
    obtain ⟨at_, angle, hended⟩ := State.endPass_engine (s := s.setEngine e ((x.issued w).finish (x.issued w).cyc 1 [])) (e := e)
      (by rw [State.engine_setEngine_same]; exact hhalt) hsafe cyc
    refine ⟨_, live_next hup _, ?_⟩
    rw [State.effect_engine, hrow, hended, State.engine_setEngine_same]
    exact ⟨rfl, rfl, ⟨rfl, rfl, rfl, rfl, rfl, rfl⟩, fun hl => Engine.finish_pc _ _ _ _ hl⟩
  · obtain ⟨cyc, hrow⟩ := haltRow_idles h hop hx hbody hzero hrole
    obtain ⟨hidle, hstopped, hended⟩ :=
      State.engineIdle_spec (s := s.setEngine e { x.issued w with pc := x.pc + 1, cyc := cyc }) (e := e) hpool
    refine ⟨_, live_next hup _, ?_⟩
    rw [State.effect_get, State.effect_get, State.effect_engine, hrow, hended, State.engine_setEngine_same]
    exact ⟨hidle, hstopped, rfl, rfl⟩
  · exact State.trapsWith_of_engineTrap hup rfl (haltRow_traps h hop hx hbody hzero hrole) e.isLt (by decide)
  · have hlegal : ¬ (illegalWord w = true ∨ fw w 21 8 ≠ 0) := by simp [illegalWord, hop, hzero]
    exact State.trapsWith_of_trapInstr hup rfl ((State.trapRow_issues h (Or.inl hop)).trans (if_neg hlegal)) e.isLt (by decide)
  · have hillegal : illegalWord w = true := by simp [illegalWord, hop]
    exact State.trapsWith_of_engineTrap hup rfl ((State.trapRow_issues h (Or.inr hillegal)).trans (if_pos (Or.inl hillegal)))
      e.isLt (by decide)

end Sys2Proof.Machine
end
section
/-! PROOFS. The statement O39: instructions that read the slot (R162 to R167). -/
namespace Sys2Proof.Machine

section
variable {s : State} {e : Nat} {w : Word} {x : Engine} {n : Nat} {other : Bool}

/-! ### RDI and RDV (R163, R164) -/

/-- Element `i` that RDI reads of a snapshot, currents in A or, for RDI_W, blind weights (R163). -/
def Snapshot.senseElem (y : Snapshot) (f i : Nat) : Rat :=
  if f = 0 then (if i < 5 then y.cur.getD i 0 else if i < 7 then y.brk.getD (i - 5) 0 else 0) / 1000
  else if i < 5 then y.wd.getD i 0 else if i < 7 then y.brkWd.getD (i - 5) 0 else 0
theorem rdiRow_reads {f : Nat} (h : s.issues e w) (hop : opOf w = 0x30) (hform : fw w 17 17 = f) (hx : x = s.engine e)
    (hzero : fw w 16 0 = 0) (hslot : s.ownSlot e true = some n) :
    ∃ t rs, s.rdiRow e f = s.kput e ((x.issued w).putWhole (fw w 21 18)
      (writeWhole ((List.range 16).map (x.snap.senseElem f)))) t 1 rs := by
  subst hx
  unfold State.rdiRow
  rw [State.kstep_issues h (by simp [hop, hform])]
  dsimp only
  rw [hslot]
  dsimp only
  rw [if_neg (not_not.mpr hzero)]
  exact ⟨_, _, rfl⟩
theorem rdiRow_traps {f : Nat} (h : s.issues e w) (hop : opOf w = 0x30) (hform : fw w 17 17 = f)
    (hbad : fw w 16 0 ≠ 0 ∨ s.ownSlot e true = none) : s.rdiRow e f = s.engineTrap e 2 0 := by
  unfold State.rdiRow
  rw [State.kstep_issues h (by simp [hop, hform])]
  dsimp only
  split
  · rfl
  · next hslot => exact if_pos (by simpa [hslot] using hbad)
/-- A write of a whole block changes of the engine's record the blocks and the SAT bits only. -/
theorem Engine.putWhole_eq (x : Engine) (k : Nat) (r : Blk × Bool) :
    x.putWhole k r = { x with blk := tabPut x.blk k r.1, sat := (x.putWhole k r).sat } := by
  obtain ⟨b, sat⟩ := r
  cases sat <;> rfl

theorem rdvRow_reads (h : s.issues e w) (hop : opOf w = 0x31) (hx : x = s.engine e) (hzero : fw w 13 0 = 0)
    (hpair : fw w 21 14 % 16 ≠ 15) (hslot : s.ownSlot e true = some n) :
    ∃ t rs, s.rdvRow e = s.kput e ((x.issued w).putPart (fw w 21 14 / 16) (writePart (x.block (fw w 21 14 / 16))
      [(fw w 21 14 % 16, (x.snap.vbus : Rat) / 1000), (fw w 21 14 % 16 + 1, (x.snap.vbrk : Rat) / 1000)])) t 1 rs := by
  subst hx
  unfold State.rdvRow
  rw [State.kstep_issues h (by simp [hop])]
  dsimp only
  rw [if_neg (by simp [hslot, hzero, hpair])]
  exact ⟨_, _, rfl⟩
theorem rdvRow_traps (h : s.issues e w) (hop : opOf w = 0x31)
    (hbad : fw w 13 0 ≠ 0 ∨ fw w 21 14 % 16 = 15 ∨ s.ownSlot e true = none) : s.rdvRow e = s.engineTrap e 2 0 := by
  unfold State.rdvRow
  rw [State.kstep_issues h (by simp [hop])]
  exact if_pos (by tauto)

/-! ### RDF and POS (R165, R166) -/

/-- The word `sel` that RDF reads of slot `n`: in the snapshot, or for another slot as things stand at `at_` (R165). -/
def State.feedbackWord (s : State) (y : Snapshot) (n : Nat) (other : Bool) (at_ sel : Nat) : Word :=
  let pos := if other then s.slotFbPos n else y.fbpos
  let vel := if other then s.slotFbVel n at_ else y.fbvel
  match sel with
    | 0 => half64 pos false | 1 => half64 pos true | 2 => half64 vel false | 3 => half64 vel true
    | _ => BitVec.ofNat 32 (if other then s.slotFbStatus n at_ else y.fbst)
theorem rdfRow_reads (h : s.issues e w) (hop : opOf w = 0x32) (hx : x = s.engine e) (hzero : fw w 7 0 = 0)
    (hsel : fw w 11 8 ≤ 4) (hslot : s.slotField e (fw w 16 12) = some (n, other)) :
    s.rdfRow e = s.kput e ((x.issued w).setReg (fw w 21 17) (s.feedbackWord x.snap n other
        (max s.now (x.timeAt (x.ready [kPred (guardPred w)]))) (fw w 11 8))) ((x.issued w).ready []) 1
      [(kReg (fw w 21 17), (x.issued w).ready [] + if other then 8 else 2)] := by
  subst hx
  unfold State.rdfRow
  rw [State.kstep_issues h (by simp [hop])]
  dsimp only
  rw [hslot]
  dsimp only
  rw [if_neg (by omega)]
  rfl
theorem rdfRow_traps (h : s.issues e w) (hop : opOf w = 0x32)
    (hbad : fw w 7 0 ≠ 0 ∨ 4 < fw w 11 8 ∨ s.slotField e (fw w 16 12) = none) : s.rdfRow e = s.engineTrap e 2 0 := by
  unfold State.rdfRow
  rw [State.kstep_issues h (by simp [hop])]
  dsimp only
  split
  · rfl
  · next hslot => exact if_pos (by simpa [hslot] using hbad)

/-- The word `sel` that POS reads of slot `n`: in the snapshot, or for another slot as things stand at `at_` (R166). -/
def State.motionWord (s : State) (y : Snapshot) (n : Nat) (other : Bool) (at_ sel : Nat) : Word :=
  let m := if other then (s.gen n).m else y.sp
  if (if other then s.slotState n else y.st % 16) = stUnbound then 0
  else match sel with
    | 0 => half64 (m.p / 2 ^ 32) false | 1 => half64 (m.p / 2 ^ 32) true | 2 => half64 m.v false | 3 => half64 m.v true
    | 4 => half64 m.a false | 5 => half64 m.a true | 6 => half64 m.j false | 7 => half64 m.j true
    | 8 => BitVec.ofNat 32 (if other then s.tickAt else y.spTick)
    | 9 => BitVec.ofNat 32 (if other then at_ - s.tickAt else y.tau)
    | _ => BitVec.ofNat 32 (if other then s.posStatus n else y.st)
theorem posRow_reads (h : s.issues e w) (hop : opOf w = 0x33) (hx : x = s.engine e) (hzero : fw w 7 0 = 0)
    (hsel : fw w 11 8 ≤ 10) (hslot : s.slotField e (fw w 16 12) = some (n, other)) :
    s.posRow e = s.kput e ((x.issued w).setReg (fw w 21 17) (s.motionWord x.snap n other
        (max s.now (x.timeAt (x.ready [kPred (guardPred w)]))) (fw w 11 8))) ((x.issued w).ready []) 1
      [(kReg (fw w 21 17), (x.issued w).ready [] + if other then 8 else 2)] := by
  subst hx
  unfold State.posRow
  rw [State.kstep_issues h (by simp [hop])]
  dsimp only
  rw [hslot]
  dsimp only
  rw [if_neg (by omega)]
  rfl
theorem posRow_traps (h : s.issues e w) (hop : opOf w = 0x33)
    (hbad : fw w 7 0 ≠ 0 ∨ 10 < fw w 11 8 ∨ s.slotField e (fw w 16 12) = none) : s.posRow e = s.engineTrap e 2 0 := by
  unfold State.posRow
  rw [State.kstep_issues h (by simp [hop])]
  dsimp only
  split
  · rfl
  · next hslot => exact if_pos (by simpa [hslot] using hbad)

/-! ### PIT and PIT_LVL (R167) -/

/-- What PIT does with an entry for slot `n`, and its answer (R167). -/
def State.pitAnswer (s : State) (n : Nat) (entry : List Word) : State × Word :=
  if s.slotState n = stUnbound then (s, 3)
  else match s.offerPitch n entry with
    | (u, .queued i) => (u, BitVec.ofNat 32 (i % 2 ^ 24 * 256))
    | (u, .full) => (u, 1)
    | (u, .bad) => (u, 2)
theorem State.pitAnswer_unbound {entry : List Word} (hst : s.slotState n = stUnbound) : s.pitAnswer n entry = (s, 3) := if_pos hst
theorem State.pitAnswer_queued {entry : List Word} (hst : s.slotState n ≠ stUnbound) (hok : entryBad entry = false)
    (hroom : (s.gen n).queue.length < 64) :
    s.pitAnswer n entry = (s.joinQueue n entry, BitVec.ofNat 32 (s.get (AX_PITNEXT_V n) % 2 ^ 24 * 256)) := by
  unfold State.pitAnswer State.offerPitch
  rw [if_neg hst, hok, if_neg Bool.false_ne_true, if_neg (by omega)]
  rfl
theorem State.pitAnswer_bad {entry : List Word} (hst : s.slotState n ≠ stUnbound) (hbad : entryBad entry = true) :
    s.pitAnswer n entry = (s.put (AX_PITQ_CTRL_BADPITCH n) 1, 2) := by
  unfold State.pitAnswer State.offerPitch
  rw [if_neg hst, if_pos hbad]
theorem State.pitAnswer_full {entry : List Word} (hst : s.slotState n ≠ stUnbound) (hok : entryBad entry = false)
    (hfull : 64 ≤ (s.gen n).queue.length) : s.pitAnswer n entry = (s.put (AX_PITQ_CTRL_FULL n) 1, 1) := by
  unfold State.pitAnswer State.offerPitch
  rw [if_neg hst, hok, if_neg Bool.false_ne_true, if_pos hfull]

theorem pitRow_offers (h : s.issues e w) (hop : opOf w = 0x34) (hform : fw w 6 6 = 0) (hx : x = s.engine e)
    (hzero : fw w 5 0 = 0) (hlive : s.inShadow e = false) (hslot : s.slotField e (fw w 11 7) = some (n, other))
    {pl : List Place} (hpl : pl = eightPlaces (x.reg (fw w 16 12))) (hok : pl.all Place.ok = true) {u : State} {v : Word}
    (hanswer : s.pitAnswer n (pl.map (s.loadPlace e)) = (u, v)) :
    ∃ t rs, s.pitRow e = u.kput e ((x.issued w).setReg (fw w 21 17) v) t 9 rs := by
  subst hx hpl
  obtain ⟨rfl, rfl⟩ := Prod.mk.inj hanswer
  unfold State.pitRow
  rw [State.kstep_issues h (by simp [hop, hform])]
  dsimp only
  rw [hslot]
  dsimp only
  rw [if_neg (not_not.mpr hzero), hlive, if_neg Bool.false_ne_true, Engine.issued_reg, hok, if_neg (by decide)]
  exact ⟨_, _, rfl⟩
/-- PIT as a command: what its answer tells has come to the slot, and the answer is in the g register. -/
theorem exec_pit_answers {e : Fin 20} (hup : s.up = true) (h : s.issues e w) (hop : opOf w = 0x34) (hform : fw w 6 6 = 0)
    (hx : x = s.engine e) (hzero : fw w 5 0 = 0) (hlive : s.inShadow e = false)
    (hslot : s.slotField e (fw w 11 7) = some (n, other)) (hok : (eightPlaces (x.reg (fw w 16 12))).all Place.ok = true)
    {u : State} {v : Word} (hanswer : s.pitAnswer n ((eightPlaces (x.reg (fw w 16 12))).map (s.loadPlace e)) = (u, v)) :
    ∃ t, exec (.pit e) s = .next t ∧ t.gens = u.gens ∧ (∀ f, t.get f = u.get f) ∧
      x.onlyReg (t.engine e) (fw w 21 17) v := by
  obtain ⟨c, rs, hrow⟩ := pitRow_offers h hop hform hx hzero hlive hslot rfl hok hanswer
  refine ⟨_, live_next hup _, ?_, fun f => ?_, ?_⟩
  · rw [State.effect_gens, hrow]; rfl
  · rw [State.effect_get, hrow]; exact State.setEngine_get ..
  · rw [State.effect_engine, hrow, State.kput_engine]; exact x.onlyReg_setReg ..
theorem pitRow_shadow (h : s.issues e w) (hop : opOf w = 0x34) (hform : fw w 6 6 = 0) (hx : x = s.engine e)
    (hzero : fw w 5 0 = 0) (hshadow : s.inShadow e = true) (hslot : s.slotField e (fw w 11 7) = some (n, other)) :
    s.pitRow e = s.kput e (x.issued w) (x.issued w).cyc 1 [] := by
  subst hx
  unfold State.pitRow
  rw [State.kstep_issues h (by simp [hop, hform])]
  dsimp only
  rw [hslot]
  dsimp only
  rw [if_neg (not_not.mpr hzero), if_pos hshadow]

theorem pitLvlRow_reads (h : s.issues e w) (hop : opOf w = 0x34) (hform : fw w 6 6 = 1) (hx : x = s.engine e)
    (hzero : fw w 5 0 = 0) (hra : fw w 16 12 = 0) (hslot : s.slotField e (fw w 11 7) = some (n, other)) :
    s.pitLvlRow e = s.kput e ((x.issued w).setReg (fw w 21 17) (BitVec.ofNat 32 (s.get (AX_PITQ_LVL_LEVEL n) +
        s.get (AX_PITQ_CTRL_QHELD n) * 256 + s.get (AX_PITSTART_V n) % 65536 * 65536))) ((x.issued w).ready []) 1
      [(kReg (fw w 21 17), (x.issued w).ready [] + if other then 10 else 4)] := by
  subst hx
  unfold State.pitLvlRow
  rw [State.kstep_issues h (by simp [hop, hform])]
  dsimp only
  rw [hslot]
  dsimp only
  rw [if_neg (by omega)]
  rfl
theorem pitLvlRow_traps (h : s.issues e w) (hop : opOf w = 0x34) (hform : fw w 6 6 = 1)
    (hbad : fw w 5 0 ≠ 0 ∨ fw w 16 12 ≠ 0 ∨ s.slotField e (fw w 11 7) = none) : s.pitLvlRow e = s.engineTrap e 2 0 := by
  unfold State.pitLvlRow
  rw [State.kstep_issues h (by simp [hop, hform])]
  dsimp only
  split
  · rfl
  · next hslot => exact if_pos (by simpa [hslot] using hbad)
end

/-- Settles O39, clause by clause: each row is the results of one instruction (`State.onEngine_of_kput`), an offer with its
answer (`exec_pit_answers`) or a trap. -/
theorem slotReadRows : Obligations.SlotReadRows := by
  intro s e w x n other hup h hx
  have htraps {c : Instr} {f : State → State} (hexec : exec c s = live s f) (hf : f s = s.engineTrap e 2 0) : s.trapsWith c e 2 :=
    State.trapsWith_of_engineTrap hup hexec hf e.isLt (by decide)
  refine ⟨fun hop hzero hslot => ⟨fun hform => ?_, fun hform => ?_⟩, fun hop hbad => ⟨fun hform => ?_, fun hform => ?_⟩,
    fun hop hzero hpair hslot => ?_, fun hop hbad => ?_, fun v hop hzero hsel hslot hv => ?_, fun hop hbad => ?_,
    fun v hop hzero hsel hslot hv => ?_, fun hop hbad => ?_, fun hop hform hzero hlive hslot hok => ⟨fun hst => ?_,
    fun hst hgood hroom => ?_, fun hst hbad => ?_, fun hst hgood hfull => ?_⟩, fun hop hform hzero hshadow hslot => ?_,
    fun hop hform hzero hra hslot => ?_, fun hop hform hbad => ?_⟩
  · obtain ⟨t, rs, hrow⟩ := rdiRow_reads h hop hform hx hzero hslot
    refine State.onEngine_of_kput hup rfl hrow (Or.inl rfl) ⟨?_, x.onlyBlock_putWhole ..⟩
    rw [Engine.putWhole_eq]; rfl
  · obtain ⟨t, rs, hrow⟩ := rdiRow_reads h hop hform hx hzero hslot
    refine State.onEngine_of_kput hup rfl hrow (Or.inl rfl) ⟨?_, x.onlyBlock_putWhole ..⟩
    rw [Engine.putWhole_eq]; rfl
  · exact htraps rfl (rdiRow_traps h hop hform hbad)
  · exact htraps rfl (rdiRow_traps h hop hform hbad)
  · obtain ⟨t, rs, hrow⟩ := rdvRow_reads h hop hx hzero hpair hslot
    refine State.onEngine_of_kput hup rfl hrow (Or.inl rfl) ⟨?_, x.onlyBlock_putPart w 0 false ..⟩
    rw [Engine.putPart_eq]; rfl
  · exact htraps rfl (rdvRow_traps h hop hbad)
  · rw [hv]
    exact State.onEngine_of_kput hup rfl (rdfRow_reads h hop hx hzero hsel hslot) (Or.inl rfl) (x.result_setReg ..)
  · exact htraps rfl (rdfRow_traps h hop hbad)
  · rw [hv]
    exact State.onEngine_of_kput hup rfl (posRow_reads h hop hx hzero hsel hslot) (Or.inl rfl) (x.result_setReg ..)
  · exact htraps rfl (posRow_traps h hop hbad)
  · obtain ⟨t, rs, hrow⟩ := pitRow_offers h hop hform hx hzero hlive hslot rfl hok (State.pitAnswer_unbound hst)
    exact State.onEngine_of_kput hup rfl hrow (Or.inl rfl) (x.onlyReg_setReg ..)
  · obtain ⟨t, hexec, hgens, -, hreg⟩ :=
      exec_pit_answers hup h hop hform hx hzero hlive hslot hok (State.pitAnswer_queued hst hgood hroom)
    refine ⟨t, hexec, ?_, hreg⟩
    rw [← State.joinQueue_queue]
    unfold State.gen
    rw [hgens]
  · obtain ⟨t, hexec, hgens, hget, hreg⟩ :=
      exec_pit_answers hup h hop hform hx hzero hlive hslot hok (State.pitAnswer_bad hst hbad)
    exact ⟨t, hexec, hgens.trans (State.put_gens ..), (hget _).trans (State.get_put_own _ 1 rfl), hreg⟩
  · obtain ⟨t, hexec, hgens, hget, hreg⟩ :=
      exec_pit_answers hup h hop hform hx hzero hlive hslot hok (State.pitAnswer_full hst hgood hfull)
    exact ⟨t, hexec, hgens.trans (State.put_gens ..), (hget _).trans (State.get_put_own _ 1 rfl), hreg⟩
  · exact State.onEngine_of_kput hup rfl (pitRow_shadow h hop hform hx hzero hshadow hslot) (Or.inl rfl)
      ⟨rfl, rfl, rfl, rfl, rfl, rfl⟩
  · exact State.onEngine_of_kput hup rfl (pitLvlRow_reads h hop hform hx hzero hra hslot) (Or.inl rfl) (x.result_setReg ..)
  · exact htraps rfl (pitLvlRow_traps h hop hform hbad)

end Sys2Proof.Machine
end
section
/-! PROOFS. What the end of a pass leaves of the registers of the slots: the angle that WRA gave the pass stands in AXn_CC_ANGLE
(R134, R170). The layer under the statement O40. -/
namespace Sys2Proof.Machine

section
variable {s : State} {e b : Nat}

/-! ### A delivery stores no register -/

theorem State.setDataWords_rd (i : Nat) (l : List Word) : (s.setDataWords e i l).rd b = s.rd b :=
  State.each_rd _ (fun _ _ t => (State.modEngine_rd ..).trans (t.wrMem_rd ..))
theorem State.deliver_rd (n role : Nat) : (s.deliver n role e).rd b = s.rd b := by
  unfold State.deliver
  split
  · split
    · rfl
    · exact (State.setDataWords_rd ..).trans (State.each_rd _ (fun _ _ t => t.modEngine_rd ..))
  · rfl

/-! ### The end of a pass (R125, R134) -/

/-- A word at none of the offsets that the end of a pass writes for its slot's swap and checkpoints: those of KEn_STATUS,
AXn_SWAPST and AXn_CKP. -/
def OffSwapWords (b : Nat) : Prop := b % 0x1000 ≠ 0x4 ∧ b % 0x1000 ≠ 0x18 ∧ b % 0x1000 ≠ 0x1C
theorem OffSwapWords.ne_KE_STATUS (h : OffSwapWords b) (m : Nat) : b ≠ KE_STATUS m := by
  unfold OffSwapWords at h; unfold KE_STATUS; omega
theorem OffSwapWords.ne_AX_SWAPST (h : OffSwapWords b) (n : Nat) : b ≠ AX_SWAPST n := by
  unfold OffSwapWords at h; unfold AX_SWAPST; omega
theorem OffSwapWords.ne_AX_CKP (h : OffSwapWords b) (n : Nat) : b ≠ AX_CKP n := by
  unfold OffSwapWords at h; unfold AX_CKP; omega

theorem State.swapCkp_rd (h : OffSwapWords b) (n role : Nat) : (s.swapCkp n role).rd b = s.rd b := by
  have hrun (t : State) (m v : Nat) : (t.put (KE_STATUS_RUN m) v).rd b = t.rd b := State.rd_put_word v (by decide) (h.ne_KE_STATUS m)
  have hphase (t : State) (v : Nat) : (t.put (AX_SWAPST_PHASE n) v).rd b = t.rd b :=
    State.rd_put_word v (by decide) (h.ne_AX_SWAPST n)
  have hshadows (t : State) (v : Nat) : (t.put (AX_SWAPST_SHADOWS n) v).rd b = t.rd b :=
    State.rd_put_word v (by decide) (h.ne_AX_SWAPST n)
  have hdrawn (t : State) (k : Nat) : ({ t with drawn := k } : State).rd b = t.rd b := rfl
  simp only [State.swapCkp, State.setSwap_rd, hphase, hshadows, hrun, State.modCc_rd, hdrawn, State.deliver_rd,
    State.routeStart_rd (h.ne_KE_STATUS _), State.ite_rd, ite_self]
theorem State.ckpCommit_rd (h : OffSwapWords b) (n role t : Nat) : (s.ckpCommit n role t).rd b = s.rd b := by
  have hage (u : State) : (u.put (if role = 0 then AX_CKP_CTLAGE n else AX_CKP_ESTAGE n) 0).rd b = u.rd b := by
    split
    · exact State.rd_put_word 0 (by decide) (h.ne_AX_CKP n)
    · exact State.rd_put_word 0 (by decide) (h.ne_AX_CKP n)
  unfold State.ckpCommit
  split
  · split
    · exact (State.swapCkp_rd h n role).trans (hage _)
    · rfl
  · rfl
theorem State.swapPassEnd_slot_rd (h : OffSwapWords b) (t : Nat) (reached : Bool) : (s.swapPassEnd e t reached).rd b = s.rd b := by
  unfold State.swapPassEnd
  split
  · rw [State.shadowCompare_rd (h.ne_AX_SWAPST _), State.ite_rd, State.swapOutput_rd, ite_self]
  · rfl

/-- The angle that the pass was given appears at its end (R170). -/
theorem State.endPass_angle {n a : Nat} (hangle : (s.engine e).angle = some a) (ha : a < 65536) (hslot : s.engineSlot e = some n)
    (cyc : Option Nat) : (s.endPass e cyc).get (AX_CC_ANGLE_V n) = a := by
  have hoff : OffSwapWords (AX_CC_ANGLE n) := by unfold OffSwapWords AX_CC_ANGLE; omega
  unfold State.endPass
  extract_lets x t c last s1 ns s2 s3 s4 s5 s6 s7
  have hstatus : s4.rd (KE_STATUS e) = s.rd (KE_STATUS e) := by
    have hlate : s3.rd (KE_STATUS e) = s2.rd (KE_STATUS e) := by
      have hcount : (s2.inc (KE_LATEWAIT_V e)).rd (KE_STATUS e) = s2.rd (KE_STATUS e) :=
        State.rd_put_word _ (by decide) (by unfold KE_STATUS KE_LATEWAIT; omega)
      exact (State.ite_rd ..).trans (by rw [hcount, ite_self])
    have hcyc (u : State) (hi lo v : Nat) (hw : hi < 32) : (u.put ⟨KE_CYC e, hi, lo⟩ v).rd (KE_STATUS e) = u.rd (KE_STATUS e) :=
      State.rd_put_word v hw (by unfold KE_STATUS KE_CYC; omega)
    exact (State.setEngine_rd ..).trans (hlate.trans ((hcyc _ _ _ _ (by decide)).trans (hcyc s1 _ _ _ (by decide))))
  have hslot4 : s4.engineSlot e = some n := by
    rw [← hslot]
    unfold State.engineSlot
    rw [show s4.get (KE_STATUS_ROLE e) = s.get (KE_STATUS_ROLE e) from State.get_of_rd (by decide) hstatus,
      show s4.get (KE_STATUS_SLOT e) = s.get (KE_STATUS_SLOT e) from State.get_of_rd (by decide) hstatus]
  have h5 : s5.get (AX_CC_ANGLE_V n) = a := by
    unfold s5
    rw [show x.angle = some a from hangle, hslot4]
    exact (State.modEngine_get ..).trans ((State.modPr_get ..).trans
      ((s4.get_put_own a rfl).trans (Nat.mod_eq_of_lt ha)))
  have h6 : s6.rd (AX_CC_ANGLE n) = s5.rd (AX_CC_ANGLE n) := by
    unfold s6
    split
    · exact State.ckpCommit_rd hoff ..
    · rfl
  have h7 : s7.rd (AX_CC_ANGLE n) = s6.rd (AX_CC_ANGLE n) := State.swapPassEnd_slot_rd hoff ..
  have hend : (if x.halt then s7.engineIdle e else s7).rd (AX_CC_ANGLE n) = s7.rd (AX_CC_ANGLE n) := by
    rw [State.ite_rd, State.engineIdle_rd (hoff.ne_KE_STATUS e), ite_self]
  exact (State.get_of_rd (by decide) (hend.trans (h7.trans h6))).trans h5
end

end Sys2Proof.Machine
end
section
/-! PROOFS. What WRV does (R168, R169): the requests of a vector, the comparison of a swap that it enters, and its three outcomes.
The layer under the statement O40. -/
namespace Sys2Proof.Machine

section
variable {s : State} {e : Nat} {w : Word} {x : Engine} {n : Nat}

/-! ### Requests to the modulator (R168) -/

theorem State.takeRequests_cons (r : Nat × Nat × Nat) (l : List (Nat × Nat × Nat)) :
    s.takeRequests (r :: l) = (s.takeRequests [r]).takeRequests l := (rfl)
theorem State.takeRequests_append (l m : List (Nat × Nat × Nat)) :
    s.takeRequests (l ++ m) = (s.takeRequests l).takeRequests m := List.foldl_append
theorem State.takeRequests_single (r : Nat × Nat × Nat) (k : Nat) :
    ((s.takeRequests [r]).chan k).want = if r.1 = k then r.2.1 else (s.chan k).want := by
  show (((if r.2.1 = 1 then s.put (PWM_CMPN_CMPN r.1) r.2.2 else s).modChan r.1 (fun y => { y with want := r.2.1 })).chan k).want = _
  by_cases hr : r.1 = k
  · rw [if_pos hr, ← hr, State.chan_modChan_same]
  · rw [if_neg hr, State.chan_modChan_ne _ _ (Ne.symm hr)]
    split
    · rw [State.put_chan]
    · rfl
/-- A channel wants what every request for it says, when there is one or it wanted that before. -/
theorem State.takeRequests_want {k v : Nat} {l : List (Nat × Nat × Nat)} : ∀ {s : State}, (∀ r ∈ l, r.1 = k → r.2.1 = v) →
    ((s.chan k).want = v ∨ k ∈ l.map (·.1)) → ((s.takeRequests l).chan k).want = v := by
  induction l with
  | nil => intro s _ h; exact h.resolve_right List.not_mem_nil
  | cons r l ih =>
    intro s hall h
    rw [State.takeRequests_cons]
    refine ih (fun q hq => hall q (List.mem_cons_of_mem _ hq)) ?_
    rw [State.takeRequests_single]
    by_cases hr : r.1 = k
    · exact Or.inl ((if_pos hr).trans (hall r List.mem_cons_self hr))
    · rw [if_neg hr]
      exact h.imp_right (fun hk => (List.mem_cons.mp hk).resolve_left (Ne.symm hr))

/-- What WRV requests of the brake bridge, as B says, and VCLIP (R168). -/
def State.brakeRequests (s : State) (x : Engine) (n : Nat) (w : Word) : List (Nat × Nat × Nat) × Option Bool :=
  match fw w 16 15 with
  | 0 => ([], none)
  | 1 => (let r := s.brakeVector n ((x.block (fw w 21 18)).val 5) ((x.snap.vbrk : Rat) / 1000); (r.1, some r.2))
  | 2 => ((s.brakeChans n).map (fun c => (c, 0, 0)), none)
  | _ => ((s.brakeChans n).map (fun c => (c, 2, 0)), none)
theorem State.brakeVector_channels {v vbrk : Rat} {r : Nat × Nat × Nat} (hr : r ∈ (s.brakeVector n v vbrk).1) :
    r.1 ∈ s.brakeChans n := by
  unfold State.brakeVector at hr
  split at hr
  · next a b hchans =>
    rw [hchans]
    dsimp only at hr
    split at hr <;> simp only [List.mem_cons, List.not_mem_nil, or_false] at hr <;> rcases hr with rfl | rfl <;> simp
  · exact absurd hr List.not_mem_nil
/-- The brake bridge's requests name its channels only. -/
theorem State.brakeRequests_channels {r : Nat × Nat × Nat} (hr : r ∈ (s.brakeRequests x n w).1) : r.1 ∈ s.brakeChans n := by
  unfold State.brakeRequests at hr
  split at hr
  · exact absurd hr List.not_mem_nil
  · exact State.brakeVector_channels hr
  · obtain ⟨c, hc, rfl⟩ := List.mem_map.mp hr
    exact hc
  · obtain ⟨c, hc, rfl⟩ := List.mem_map.mp hr
    exact hc
theorem State.brakeRequests_none (hb : fw w 16 15 = 0) : (s.brakeRequests x n w).1 = [] := by
  simp only [State.brakeRequests, hb]
theorem State.brakeRequests_off (hb : fw w 16 15 = 2) : (s.brakeRequests x n w).1 = (s.brakeChans n).map (fun c => (c, 0, 0)) := by
  simp only [State.brakeRequests, hb]
theorem State.brakeRequests_brake (hb : fw w 16 15 = 3) : (s.brakeRequests x n w).1 = (s.brakeChans n).map (fun c => (c, 2, 0)) := by
  simp only [State.brakeRequests, hb]

/-- The requests of a vector: SWITCH of the channels `cs`, and those of the brake bridge. -/
def vectorRequests (cs cmps : List Nat) (br : List (Nat × Nat × Nat)) : List (Nat × Nat × Nat) :=
  (cs.zip cmps).map (fun z => (z.1, 1, z.2)) ++ br
/-- A channel of the vector that the brake bridge's requests leave alone switches. -/
theorem State.vectorRequests_switch {cs cmps : List Nat} {br : List (Nat × Nat × Nat)} {k : Nat} (hlen : cmps.length = cs.length)
    (hk : k ∈ cs) (hbr : ∀ r ∈ br, r.1 ≠ k) : ((s.takeRequests (vectorRequests cs cmps br)).chan k).want = 1 := by
  have hnamed : k ∈ ((cs.zip cmps).map (fun z => (z.1, 1, z.2))).map (·.1) := by
    rw [List.map_map]
    show k ∈ (cs.zip cmps).map Prod.fst
    rwa [List.map_fst_zip hlen.ge]
  have hswitch : ((s.takeRequests ((cs.zip cmps).map (fun z => (z.1, 1, z.2)))).chan k).want = 1 := by
    refine State.takeRequests_want (fun r hr _ => ?_) (Or.inr hnamed)
    obtain ⟨z, -, rfl⟩ := List.mem_map.mp hr
    rfl
  unfold vectorRequests
  rw [State.takeRequests_append]
  exact State.takeRequests_want (fun r hr hk => absurd hk (hbr r hr)) (Or.inl hswitch)
/-- A channel of the brake bridge wants what the bridge's requests say. -/
theorem State.vectorRequests_brake {cs cmps bs : List Nat} {v k : Nat} (hk : k ∈ bs) :
    ((s.takeRequests (vectorRequests cs cmps (bs.map (fun c => (c, v, 0))))).chan k).want = v := by
  unfold vectorRequests
  rw [State.takeRequests_append]
  refine State.takeRequests_want (fun r hr _ => ?_) (Or.inr ?_)
  · obtain ⟨c, -, rfl⟩ := List.mem_map.mp hr
    rfl
  · rw [List.map_map]
    exact List.mem_map.mpr ⟨k, hk, rfl⟩

/-- The requests of WRV: SWITCH of every local channel that the brake bridge's requests leave alone, and of those of the bridge
what B says (R168). -/
theorem State.vectorRequests_wants {u t : State} {cmps : List Nat} (hlen : cmps.length = (s.localChans n).length)
    (ht : t.chans = (u.takeRequests (vectorRequests (s.localChans n) cmps (s.brakeRequests x n w).1)).chans) :
    (fw w 16 15 = 0 → ∀ k ∈ s.localChans n, (t.chan k).want = 1) ∧
      (∀ k ∈ s.localChans n, k ∉ s.brakeChans n → (t.chan k).want = 1) ∧
      (fw w 16 15 = 2 → ∀ k ∈ s.brakeChans n, (t.chan k).want = 0) ∧
      (fw w 16 15 = 3 → ∀ k ∈ s.brakeChans n, (t.chan k).want = 2) := by
  unfold State.chan
  rw [ht]
  refine ⟨fun hb k hk => ?_, fun k hk hnot => ?_, fun hb k hk => ?_, fun hb k hk => ?_⟩
  · rw [State.brakeRequests_none hb]
    exact State.vectorRequests_switch hlen hk (fun r hr => absurd hr List.not_mem_nil)
  · exact State.vectorRequests_switch hlen hk (fun r hr hrk => hnot (hrk ▸ State.brakeRequests_channels hr))
  · rw [State.brakeRequests_off hb]
    exact State.vectorRequests_brake hk
  · rw [State.brakeRequests_brake hb]
    exact State.vectorRequests_brake hk

/-! ### The comparison of a swap (R134) -/

/-- The comparison of a swap changes the swaps only. -/
theorem State.swapOutput_eq (t : Nat) (o : Option (List Int)) :
    s.swapOutput e t o = { s with swaps := (s.swapOutput e t o).swaps } := by
  unfold State.swapOutput
  split
  · dsimp only
    split
    · rfl
    · split <;> rfl
  · rfl
/-- Of a swap's record it changes the outputs only. -/
theorem State.swapOutput_swap (t : Nat) (o : Option (List Int)) (m : Nat) :
    ∃ p q, (s.swapOutput e t o).swap m = { s.swap m with srcOut := p, tgtOut := q } := by
  have hset (k : Nat) (p q : Option (Nat × Option (List Int))) :
      ∃ p' q', (s.setSwap k { s.swap k with srcOut := p, tgtOut := q }).swap m = { s.swap m with srcOut := p', tgtOut := q' } := by
    by_cases hm : m = k
    · subst hm
      exact ⟨p, q, State.swap_setSwap_same ..⟩
    · exact ⟨_, _, State.swap_setSwap_ne _ _ hm⟩
  unfold State.swapOutput
  split
  · dsimp only
    split
    · exact ⟨_, _, rfl⟩
    · split
      · exact hset ..
      · exact hset ..
  · exact ⟨_, _, rfl⟩
theorem State.swapOutput_serves (t : Nat) (o : Option (List Int)) (k : Nat) : (s.swapOutput e t o).serves k n = s.serves k n := by
  have hget (f : Fld) : (s.swapOutput e t o).get f = s.get f := by rw [State.swapOutput_eq]; rfl
  obtain ⟨_, _, hlead⟩ := s.swapOutput_swap (e := e) t o n
  obtain ⟨_, _, hctl⟩ := s.swapOutput_swap (e := e) t o (emKey n 0)
  obtain ⟨_, _, hest⟩ := s.swapOutput_swap (e := e) t o (emKey n 1)
  simp only [State.serves, State.pool, hget, hlead, hctl, hest, List.any_cons, List.any_nil]
  rfl

/-! ### The update point (R169) -/

/-- Whether a vector is in time goes by words of the slot's binding, its carrier and the tick. -/
theorem State.vectorInTime_congr {t : State} (h : ∀ b, b ≠ AX_BRK_ST n → t.rd b = s.rd b) (y : Engine) (a : Nat) :
    t.vectorInTime n y a = s.vectorInTime n y a := by
  have hgroup : t.get (AX_BIND_GRP n) = s.get (AX_BIND_GRP n) :=
    State.get_of_rd (by decide) (h _ (by unfold AX_BIND AX_BRK_ST; omega))
  have hrate (g : Nat) : t.get (PWMG_CFG_K g) = s.get (PWMG_CFG_K g) :=
    State.get_of_rd (by decide) (h _ (by unfold PWMG_CFG AX_BRK_ST; omega))
  have hupdate : t.get (AX_CC_CFG_UPD n) = s.get (AX_CC_CFG_UPD n) :=
    State.get_of_rd (by decide) (h _ (by unfold AX_CC_CFG AX_BRK_ST; omega))
  have htick : t.get CT_TICKCFG_TICKUS = s.get CT_TICKCFG_TICKUS :=
    State.get_of_rd (by decide) (h _ (by unfold CT_TICKCFG AX_BRK_ST; omega))
  have hperiod : t.period = s.period := by unfold State.period; rw [htick]
  have hdouble : t.double n = s.double n := by
    unfold State.double State.fastCarrier State.bit
    rw [hupdate, hgroup, hrate, hperiod]
  have hinstants : t.instantsPerTick n = s.instantsPerTick n := by
    unfold State.instantsPerTick
    rw [hgroup, hrate, hdouble]
  unfold State.vectorInTime
  rw [hinstants, hperiod]

/-! ### WRV (R168, R169) -/

/-- A vector that the slot takes, in time or late. -/
def State.vectorWritten (s : State) (e n c : Nat) (y : Engine) (req : List (Nat × Nat × Nat)) : State :=
  if s.vectorInTime n y (y.timeAt (c + 8)) then (s.takeRequests req).kput e y c 2 []
  else (s.modCc n (fun z => { z with late := some req })).kput e { y with estat := withBits y.estat 0 0 1 } c 2 []
theorem wrvRow_writes (h : s.issues e w) (hop : opOf w = 0x35) (hx : x = s.engine e) (hslot : s.ownSlot e true = some n)
    (hzero : fw w 14 0 = 0) (hrole : s.get (KE_STATUS_ROLE e) = 1) (hlive : s.inShadow e = false) {c : Nat}
    (hc : c = x.ready (kPred (guardPred w) :: ((List.range (s.localChans n).length).map (kElem (fw w 21 18)) ++
      (if fw w 16 15 = 1 then [kElem (fw w 21 18) 5] else [])))) :
    ∃ (u v : State) (cmps : List Nat), u.chans = s.chans ∧ u.regs = s.regs ∧ v.chans = s.chans ∧
      (∀ b, b ≠ AX_BRK_ST n → v.rd b = s.rd b) ∧ cmps.length = (s.localChans n).length ∧
      s.wrvRow e = if (!s.serves e n) = true ∨ (!s.energised n) = true then u.kput e { x.issued w with wrote := true } c 2 []
        else v.vectorWritten e n c { x.issued w with wrote := true }
          (vectorRequests (s.localChans n) cmps (s.brakeRequests x n w).1) := by
  subst hx hc
  obtain ⟨r, hrow⟩ : ∃ r, s.wrvRow e = r := ⟨_, rfl⟩
  rw [hrow]
  unfold State.wrvRow at hrow
  rw [State.kstep_issues h (by simp [hop]), hslot] at hrow
  dsimp -zeta only at hrow
  rw [if_neg (by simp [hzero, hrole])] at hrow
  extract_lets b cs V v v0 cmps rb br req c y s1 out s2 s3 ab s4 at hrow
  obtain ⟨d, hd⟩ : ∃ d, s1 = { s with drawn := d } := by
    unfold s1
    split
    · exact ⟨_, rfl⟩
    · exact ⟨_, rfl⟩
  have hshadow : s1.inShadow e = false := by rw [hd]; exact hlive
  have hserves : s2.serves e n = s.serves e n := by unfold s2; rw [State.swapOutput_serves, hd]; rfl
  have hchans : s2.chans = s.chans := by unfold s2; rw [State.swapOutput_eq, hd]
  have hregs : s2.regs = s.regs := by unfold s2; rw [State.swapOutput_eq, hd]
  have hrd (a : Nat) : s2.rd a = s.rd a := by unfold s2; rw [State.swapOutput_rd, hd]; rfl
  have hon : s2.energised n = s.energised n := by
    unfold State.energised
    rw [State.slotState_of_rd (hrd _)]
  have hclip : s3.chans = s2.chans ∧ ∀ a, a ≠ AX_BRK_ST n → s3.rd a = s2.rd a := by
    unfold s3
    split
    · exact ⟨State.put_chans .., fun a ha => State.rd_put_word _ (by decide) ha⟩
    · exact ⟨rfl, fun _ _ => rfl⟩
  rw [hshadow, if_neg Bool.false_ne_true, hserves, hon] at hrow
  have hlen : cmps.length = cs.length := by simp [cmps, v]
  exact ⟨s2, s4, cmps, hchans, hregs, hclip.1.trans hchans, fun a ha => (hclip.2 a ha).trans (hrd a), hlen, hrow.symm⟩
theorem wrvRow_traps (h : s.issues e w) (hop : opOf w = 0x35)
    (hbad : s.ownSlot e true = none ∨ fw w 14 0 ≠ 0 ∨ s.get (KE_STATUS_ROLE e) ≠ 1) : s.wrvRow e = s.engineTrap e 2 0 := by
  unfold State.wrvRow
  rw [State.kstep_issues h (by simp [hop])]
  dsimp only
  split
  · rfl
  · next hslot => exact if_pos (by simpa [hslot] using hbad)
end

end Sys2Proof.Machine
end
section
/-! PROOFS. The statement O40: instructions that act on the slot and its bridges (R168 to R174). -/
namespace Sys2Proof.Machine

section
variable {s : State} {e : Nat} {w : Word} {x : Engine} {n : Nat} {other : Bool}

/-- A command that ends an instruction of engine `e` in a state that differs from `s` in engine `e` at most. -/
theorem State.onEngine_of_kput_engine {c : Instr} {f : State → State} {y z : Engine} {t occ : Nat} {rs : List (Nat × Nat)}
    {P : Engine → Prop} (hup : s.up = true) (hexec : exec c s = live s f) (hf : f s = (s.setEngine e y).kput e z t occ rs)
    (hP : P (z.finish t occ rs)) : s.onEngine c e P := by
  refine ⟨s.effect f, hexec.trans (live_next hup f), ?_, ?_, ?_, fun m hm => ?_⟩
  · rw [State.effect_engine, hf, State.kput_engine]; exact hP
  · rw [State.effect_regs, hf]; rfl
  · rw [State.effect_mem, hf]; rfl
  · rw [State.effect_engine, hf, State.kput_engine_ne _ _ _ _ hm, State.engine_setEngine_ne _ _ hm]

theorem State.kput_get (y : Engine) (t occ : Nat) (rs : List (Nat × Nat)) (f : Fld) : (s.kput e y t occ rs).get f = s.get f := (rfl)

/-! ### WRV as a command (R168, R169) -/

/-- WRV too late sets WLATE and leaves the vector to the next update point. -/
theorem State.vectorWritten_late {y : Engine} {c : Nat} {req : List (Nat × Nat × Nat)}
    (hlate : s.vectorInTime n y (y.timeAt (c + 8)) = false) :
    (s.vectorWritten e n c y req).chans = s.chans ∧ ((s.vectorWritten e n c y req).cc n).late.isSome = true ∧
      (s.vectorWritten e n c y req).engine e = { y with estat := withBits y.estat 0 0 1 }.finish c 2 [] := by
  unfold State.vectorWritten
  rw [hlate, if_neg Bool.false_ne_true]
  refine ⟨rfl, ?_, State.kput_engine ..⟩
  show ((s.modCc n (fun z => { z with late := some req })).cc n).late.isSome = true
  rw [State.cc_modCc_same]
  rfl
theorem State.vectorWritten_inTime {y : Engine} {c : Nat} {req : List (Nat × Nat × Nat)}
    (hin : s.vectorInTime n y (y.timeAt (c + 8)) = true) :
    s.vectorWritten e n c y req = (s.takeRequests req).kput e y c 2 [] := if_pos hin

/-! ### WRA (R170) -/

theorem wraRow_gives (h : s.issues e w) (hop : opOf w = 0x36) (hx : x = s.engine e) (hzero : fw w 16 0 = 0)
    (hslot : s.ownSlot e false = some n) (hlive : s.inShadow e = false) (hserves : s.serves e n = true) :
    s.wraRow e = s.kput e { x.issued w with angle := some ((x.reg (fw w 21 17)).toNat % 65536) }
      (x.ready [kPred (guardPred w), kReg (fw w 21 17)]) 1 [] := by
  subst hx
  unfold State.wraRow
  rw [State.kstep_issues h (by simp [hop]), hslot]
  dsimp only
  rw [if_neg (not_not.mpr hzero), hlive, if_neg Bool.false_ne_true, hserves, if_neg (by decide)]
  rfl
theorem wraRow_traps (h : s.issues e w) (hop : opOf w = 0x36) (hbad : fw w 16 0 ≠ 0 ∨ s.ownSlot e false = none) :
    s.wraRow e = s.engineTrap e 2 0 := by
  unfold State.wraRow
  rw [State.kstep_issues h (by simp [hop])]
  dsimp only
  split
  · rfl
  · next hslot => exact if_pos (by simpa [hslot] using hbad)

/-! ### CAP (R171) -/

/-- The capture record of channel `ch` as its registers hold it. -/
def State.captureRecord (s : State) (ch : Nat) : CapCopy :=
  { time := s.get (CAP_TIME_V ch), pos := slots16.map (fun m => s.geti (CAP_POS_V ch m)), count := s.get (CAP_CTRL_COUNT ch) }
theorem capRow_copies (h : s.issues e w) (hop : opOf w = 0x37) (hx : x = s.engine e) (hzero : fw w 5 0 = 0)
    (hslot : s.slotField e (fw w 13 9) = some (n, other)) (hsel : fw w 8 6 = 0) {y : Engine}
    (hy : y = { x with caps := tabPut x.caps (fw w 16 14) (s.captureRecord (fw w 16 14)) }) :
    s.capRow e = s.kput e ((y.issued w).setReg (fw w 21 17) (BitVec.ofNat 32 (s.get (CAP_CTRL_COUNT (fw w 16 14)) +
        (if s.get (CAP_CTRL_COUNT (fw w 16 14)) = (tabGet (fun _ => ({} : CapCopy)) x.caps (fw w 16 14)).count then 0 else 65536))))
      ((y.issued w).ready []) 1 [(kReg (fw w 21 17), (y.issued w).ready [] + if other then 10 else 4)] := by
  subst hx hy
  unfold State.capRow
  rw [State.kstep_issues h (by simp [hop]), hslot]
  dsimp only
  rw [if_neg (by omega), if_pos hsel]
  rfl
/-- The word `sel` that CAP reads of a copy, for slot `n`. -/
def CapCopy.word (c : CapCopy) (n sel : Nat) : Word :=
  match sel with
  | 1 => half64 c.time false | 2 => half64 c.time true
  | 3 => half64 (c.pos.getD n 0) false | _ => half64 (c.pos.getD n 0) true
theorem capRow_reads (h : s.issues e w) (hop : opOf w = 0x37) (hx : x = s.engine e) (hzero : fw w 5 0 = 0)
    (hslot : s.slotField e (fw w 13 9) = some (n, other)) (hlo : 1 ≤ fw w 8 6) (hhi : fw w 8 6 ≤ 4) :
    s.capRow e = s.kput e ((x.issued w).setReg (fw w 21 17)
        ((tabGet (fun _ => ({} : CapCopy)) x.caps (fw w 16 14)).word n (fw w 8 6)))
      ((x.issued w).ready []) 1 [(kReg (fw w 21 17), (x.issued w).ready [] + if other then 10 else 4)] := by
  subst hx
  unfold State.capRow
  rw [State.kstep_issues h (by simp [hop]), hslot]
  dsimp only
  rw [if_neg (by omega), if_neg (by omega)]
  rfl
theorem capRow_traps (h : s.issues e w) (hop : opOf w = 0x37)
    (hbad : fw w 5 0 ≠ 0 ∨ 4 < fw w 8 6 ∨ s.slotField e (fw w 13 9) = none) : s.capRow e = s.engineTrap e 2 0 := by
  unfold State.capRow
  rw [State.kstep_issues h (by simp [hop])]
  dsimp only
  split
  · rfl
  · next hslot => exact if_pos (by simpa [hslot] using hbad)

/-! ### TRC (R129, R172) -/

/-- The engine's record with the tagged entry `v` of node `node` in its trace. -/
def Engine.traced (x : Engine) (v : Word) (node : Nat) : Engine :=
  { x with trace := tabPut x.trace x.trNext (v.toNat + (node + (if x.trPass = 0 then 8 else 0)) * 2 ^ 32)
           trNext := (x.trNext + 1) % 4096, trPass := x.trPass + 1 }
/-- An armed trace takes an entry. -/
theorem State.traceEntry_recorded (v : Word) (node : Nat) (harmed : s.get (KE_TRCFG_STATE e) = 1) (hroom : (s.engine e).trPass < 8) :
    s.traceEntry e v node =
      (s.setEngine e ((s.engine e).traced v node)).put (KE_TRPOS_COUNT e) (min 4096 (s.get (KE_TRPOS_COUNT e) + 1)) := by
  unfold State.traceEntry
  dsimp only
  rw [if_pos (Or.inl harmed), if_neg (by omega), if_neg (show ¬ s.get (KE_TRCFG_STATE e) = 2 by omega)]
  rfl
/-- The ninth entry of a pass is dropped. -/
theorem State.traceEntry_dropped (v : Word) (node : Nat) (harmed : s.get (KE_TRCFG_STATE e) = 1) (hfull : 8 ≤ (s.engine e).trPass) :
    s.traceEntry e v node = s.put (KE_TRCFG_DROP e) 1 := by
  unfold State.traceEntry
  dsimp only
  rw [if_pos (Or.inl harmed), if_pos hfull]
theorem State.traceEntry_idle (v : Word) (node : Nat) (hidle : s.get (KE_TRCFG_STATE e) = 0 ∨ s.get (KE_TRCFG_STATE e) = 3) :
    s.traceEntry e v node = s := if_neg (by omega)
theorem State.traceTrigger_idle (time : Nat) (hidle : s.get (KE_TRCFG_STATE e) = 0 ∨ s.get (KE_TRCFG_STATE e) = 3) :
    s.traceTrigger e time = s := if_neg (by omega)

/-- TRC without a trigger predicate: the engine as the entry leaves it goes on. -/
theorem trcRow_enters (h : s.issues e w) (hop : opOf w = 0x38) (hx : x = s.engine e) (hzero : fw w 13 0 = 0)
    (hpred : s.get (KE_TRCFG_TRPRED e) = 0) {u : State}
    (hu : (s.setEngine e (x.issued w)).traceEntry e (x.reg (fw w 21 17)) (fw w 16 14) = u) :
    ∃ t, s.trcRow e = u.kput e (u.engine e) t 1 [] := by
  subst hx hu
  unfold State.trcRow
  rw [State.kstep_issues h (by simp [hop])]
  dsimp only
  rw [if_neg (not_not.mpr hzero), hpred, if_neg (fun htrig => htrig.1 rfl)]
  exact ⟨_, rfl⟩
theorem trcRow_idle (h : s.issues e w) (hop : opOf w = 0x38) (hx : x = s.engine e) (hzero : fw w 13 0 = 0)
    (hidle : s.get (KE_TRCFG_STATE e) = 0 ∨ s.get (KE_TRCFG_STATE e) = 3) :
    ∃ t, s.trcRow e = (s.setEngine e (x.issued w)).kput e (x.issued w) t 1 [] := by
  subst hx
  have hstate : (s.setEngine e ((s.engine e).issued w)).get (KE_TRCFG_STATE e) = 0 ∨
      (s.setEngine e ((s.engine e).issued w)).get (KE_TRCFG_STATE e) = 3 := hidle
  unfold State.trcRow
  rw [State.kstep_issues h (by simp [hop])]
  dsimp only
  rw [if_neg (not_not.mpr hzero), State.traceEntry_idle _ _ hstate, State.traceTrigger_idle _ hstate, ite_self,
    State.engine_setEngine_same]
  exact ⟨_, rfl⟩
theorem trcRow_traps (h : s.issues e w) (hop : opOf w = 0x38) (hbad : fw w 13 0 ≠ 0) : s.trcRow e = s.engineTrap e 2 0 := by
  unfold State.trcRow
  rw [State.kstep_issues h (by simp [hop])]
  exact if_pos hbad

/-! ### FLT (R173) -/

/-- The slot of an engine has a number of four bits (R30). -/
theorem State.engineSlot_lt (h : s.engineSlot e = some n) : n < 16 := by
  have hlt : s.get (KE_STATUS_SLOT e) < 16 := s.get_lt _
  unfold State.engineSlot at h
  split at h
  · cases h
  · cases h; exact hlt
theorem State.fltSource_range {k src : Nat} (he : e < 20) (h : s.fltSource e k = some src) : 0x100 ≤ src ∧ src < 0x400 := by
  unfold State.fltSource at h
  split at h
  · split at h
    · cases h; omega
    · cases h
  · next m hm =>
    have hm16 : m < 16 := State.engineSlot_lt hm
    split at h <;> cases h <;> omega
/-- A message leaves its source's SEEN set (R360, R371). -/
theorem State.raise_SEEN {src : Nat} (hlo : 0x100 ≤ src) (hhi : src < 0x400) (kind detail addr time : Nat) (loc : Bool)
    (sevIs : Option Nat) : (s.raise src kind detail addr time loc sevIs).get (FLT_SRC_SEEN src) = 1 := by
  have hword : EngineWord (FLT_SRC src) := Or.inr (Or.inl (by unfold FLT_SRC; omega))
  have hoff : ∀ o ∈ 0x4 :: traceOffsets, FLT_SRC src % 0x2000 ≠ o := by
    intro o ho
    have hlt : ∀ o ∈ 0x4 :: traceOffsets, o < 0x400 := by decide
    have := hlt o ho
    unfold FLT_SRC; omega
  have hkept := (steady_rd ((s.counted src).rd (FLT_SRC src)) hword (by unfold FLT_SRC; omega) hoff).raise
    src kind detail addr time loc sevIs rfl
  exact (State.get_of_rd (by decide) hkept).trans (State.get_put_own _ 1 rfl)
theorem fltRow_raises (h : s.issues e w) (hop : opOf w = 0x39) (hzero : fw w 7 0 = 0) {src : Nat}
    (hsrc : s.fltSource e (fw w 16 14) = some src) (hlive : s.inShadow e = false) :
    ∃ (u : State) (detail addr time : Nat), s.fltRow e = u.raise src (fw w 13 8) detail addr time := by
  unfold State.fltRow
  rw [State.kstep_issues h (by simp [hop]), hsrc]
  dsimp only
  rw [if_neg (not_not.mpr hzero), hlive, if_neg Bool.false_ne_true]
  exact ⟨_, _, _, _, rfl⟩
theorem fltRow_shadow (h : s.issues e w) (hop : opOf w = 0x39) (hx : x = s.engine e) (hzero : fw w 7 0 = 0) {src : Nat}
    (hsrc : s.fltSource e (fw w 16 14) = some src) (hshadow : s.inShadow e = true) :
    s.fltRow e = s.kput e (x.issued w) (x.issued w).cyc 1 [] := by
  subst hx
  unfold State.fltRow
  rw [State.kstep_issues h (by simp [hop]), hsrc]
  dsimp only
  rw [if_neg (not_not.mpr hzero), if_pos hshadow]
theorem fltRow_traps (h : s.issues e w) (hop : opOf w = 0x39)
    (hbad : fw w 7 0 ≠ 0 ∨ s.fltSource e (fw w 16 14) = none) : s.fltRow e = s.engineTrap e 2 0 := by
  unfold State.fltRow
  rw [State.kstep_issues h (by simp [hop])]
  dsimp only
  split
  · rfl
  · next hsrc => exact if_pos (by simpa [hsrc] using hbad)

/-! ### EVT (R174) -/

theorem State.traceTrigger_log (time : Nat) : (s.traceTrigger e time).log = s.log := by
  unfold State.traceTrigger
  split
  · rw [State.modEngine_log, State.wr64_log, State.put_log, State.put_log]
  · rfl
theorem State.hkcSignal_eq (c : Bool) (time : Nat) : s.hkcSignal c time = { s with hkc := (s.hkcSignal c time).hkc } := by
  cases c <;> rfl
/-- EVT of an engine that is not in shadow: the trace and the housekeeping converter hear of it, and the third one of a pass
is dropped. -/
theorem evtRow_reports (h : s.issues e w) (hop : opOf w = 0x3A) (hx : x = s.engine e) (hzero : fw w 8 0 = 0)
    (hlive : s.inShadow e = false) {c : Nat} (hc : c = x.ready [kPred (guardPred w), kReg (fw w 21 17)]) :
    ∃ (u : State) (k : Nat) (w1 : Word), u.log = s.log ∧ (s.get (KE_TRCFG_TREVT e) = 0 → u.regs = s.regs) ∧
      s.evtRow e = if 2 ≤ x.evts then u.kput e { x.issued w with trLeft := k, estat := withBits x.estat 1 1 1 } c 1 []
        else (u.offer ⟨x.reg (fw w 21 17), w1, x.timeAt c⟩).kput e { x.issued w with trLeft := k, evts := x.evts + 1 } c 1 [] := by
  subst hx hc
  obtain ⟨r, hrow⟩ : ∃ r, s.evtRow e = r := ⟨_, rfl⟩
  rw [hrow]
  unfold State.evtRow at hrow
  rw [State.kstep_issues h (by simp [hop])] at hrow
  extract_lets ga c s1 y trig s2 at hrow
  rw [if_neg (not_not.mpr hzero), hlive, if_neg Bool.false_ne_true] at hrow
  have hlog : s1.log = s.log := by
    unfold s1
    split
    · rw [State.traceTrigger_log, State.setEngine_log]
    · rfl
  have hregs (hquiet : s.get (KE_TRCFG_TREVT e) = 0) : s1.regs = s.regs := by
    unfold s1
    rw [State.bit_of_get_eq_zero hquiet, if_neg Bool.false_ne_true]
    rfl
  obtain ⟨k, hy⟩ : ∃ k, y = { (s.engine e).issued w with trLeft := k } := by
    unfold y s1
    split
    · obtain ⟨k, hk⟩ := (s.setEngine e ((s.engine e).issued w)).traceTrigger_engine e
        (((s.engine e).issued w).timeAt c) e
      exact ⟨k, by rw [hk, State.engine_setEngine_same]⟩
    · exact ⟨_, State.engine_setEngine_same ..⟩
  have hs2 : s2 = { s1 with hkc := s2.hkc } := State.hkcSignal_eq ..
  rw [hy] at hrow
  exact ⟨s2, k, _, by rw [hs2]; exact hlog, fun hquiet => by rw [hs2]; exact hregs hquiet, hrow.symm⟩
theorem evtRow_shadow (h : s.issues e w) (hop : opOf w = 0x3A) (hx : x = s.engine e) (hzero : fw w 8 0 = 0)
    (hshadow : s.inShadow e = true) : s.evtRow e = s.kput e (x.issued w) (x.issued w).cyc 1 [] := by
  subst hx
  unfold State.evtRow
  rw [State.kstep_issues h (by simp [hop])]
  dsimp only
  rw [if_neg (not_not.mpr hzero), if_pos hshadow]
theorem evtRow_traps (h : s.issues e w) (hop : opOf w = 0x3A) (hbad : fw w 8 0 ≠ 0) : s.evtRow e = s.engineTrap e 2 0 := by
  unfold State.evtRow
  rw [State.kstep_issues h (by simp [hop])]
  exact if_pos hbad
end

/-- Settles O40, clause by clause: WRV by its three outcomes (`wrvRow_writes`), the angle of WRA by the end of the pass
(`State.endPass_angle`), the other rows by what they do to the engine, the trace, the fault sources and the log. -/
theorem slotWriteRows : Obligations.SlotWriteRows := by
  intro s e w x n hup h hx
  have htraps {c : Instr} {f : State → State} (hexec : exec c s = live s f) (hf : f s = s.engineTrap e 2 0) : s.trapsWith c e 2 :=
    State.trapsWith_of_engineTrap hup hexec hf e.isLt (by decide)
  refine ⟨fun c hop hslot hzero hrole hlive hserves hon hc => ?_, fun hop hslot hzero hrole hlive hidle => ?_,
    fun hop hbad => ?_, fun hop hzero hslot hlive hserves => ?_, fun hop hbad => ?_,
    fun a hop hzero hbody hangle ha hslot => ?_, fun other hop hzero hslot => ⟨fun hsel => ?_, fun c hlo hhi hc => ?_⟩,
    fun hop hbad => ?_, fun hop hzero hpred harmed hroom => ?_, fun hop hzero hpred harmed hfull => ?_,
    fun hop hzero hidle => ?_, fun hop hbad => ?_, fun src hop hzero hsrc hlive => ?_, fun src hop hzero hsrc hshadow => ?_,
    fun hop hbad => ?_, fun hop hzero hlive hroom => ?_, fun hop hzero hlive hfull hquiet => ?_,
    fun hop hzero hshadow => ?_, fun hop hbad => ?_⟩
  · obtain ⟨_, v, cmps, -, -, hchans, hrd, hlen, hrow⟩ := wrvRow_writes h hop hx hslot hzero hrole hlive hc
    rw [hserves, hon, if_neg (by decide)] at hrow
    have htime : v.vectorInTime n { x.issued w with wrote := true } ((x.issued w).timeAt (c + 8)) =
        s.vectorInTime n x (x.timeAt (c + 8)) := State.vectorInTime_congr hrd ..
    refine ⟨fun hin => ⟨_, live_next hup _, ?_⟩, fun hlate => ⟨_, live_next hup _, ?_⟩⟩
    · simp only [State.effect_engine, State.effect_chan, hrow, State.vectorWritten_inTime (htime.trans hin), State.kput_engine]
      exact ⟨rfl, ⟨rfl, rfl, rfl, rfl, rfl, rfl⟩, rfl, State.vectorRequests_wants (u := v) hlen rfl⟩
    · obtain ⟨hkept, hwaits, hengine⟩ := State.vectorWritten_late (e := e)
        (req := vectorRequests (s.localChans n) cmps (s.brakeRequests x n w).1) (htime.trans hlate)
      simp only [State.effect_engine, State.effect_chans, State.effect_cc, hrow, hengine]
      refine ⟨?_, hwaits, hkept.trans hchans, rfl, rfl, rfl, rfl, rfl, rfl⟩
      show (withBits x.estat 0 0 1).testBit 0 = true
      rw [testBit_withBits le_rfl]
      rfl
  · obtain ⟨u, _, _, hchans, hregs, -, -, -, hrow⟩ := wrvRow_writes h hop hx hslot hzero hrole hlive rfl
    rw [if_pos (hidle.imp (by rw [·]; rfl) (by rw [·]; rfl))] at hrow
    refine ⟨_, live_next hup _, ?_⟩
    simp only [State.effect_engine, State.effect_chans, State.effect_regs, hrow, State.kput_engine]
    exact ⟨hchans, hregs, rfl, rfl, rfl, rfl, rfl, rfl, rfl⟩
  · exact htraps rfl (wrvRow_traps h hop hbad)
  · exact State.onEngine_of_kput hup rfl (wraRow_gives h hop hx hzero hslot hlive hserves) (Or.inl rfl)
      ⟨rfl, ⟨rfl, rfl, rfl, rfl, rfl, rfl⟩, rfl⟩
  · exact htraps rfl (wraRow_traps h hop hbad)
  · obtain ⟨cyc, hrow⟩ := waitRow_ends h hop hx hbody hzero
    refine ⟨_, live_next hup _, ?_⟩
    rw [State.effect_get, hrow]
    exact State.endPass_angle (s := s.setEngine e ((x.issued w).finish (x.issued w).cyc 1 []))
      (by rw [State.engine_setEngine_same]; exact hangle) ha hslot cyc
  · refine State.onEngine_of_kput hup rfl (capRow_copies h hop hx hzero hslot hsel rfl) (Or.inl rfl) ⟨?_, Engine.result_setReg ..⟩
    rw [Engine.setReg_eq]
    exact tabGet_tabPut_same ..
  · subst hc
    refine State.onEngine_of_kput hup rfl (capRow_reads h hop hx hzero hslot hlo hhi) (Or.inl rfl) ⟨?_, x.result_setReg ..⟩
    rw [Engine.setReg_eq]
    rfl
  · exact htraps rfl (capRow_traps h hop hbad)
  · have hcount : min 4096 (s.get (KE_TRPOS_COUNT e) + 1) < 2 ^ 13 := by omega
    obtain ⟨t, hrow⟩ := trcRow_enters h hop hx hzero hpred (State.traceEntry_recorded (x.reg (fw w 21 17)) (fw w 16 14)
      harmed (by rw [State.engine_setEngine_same]; exact hroom))
    refine ⟨_, live_next hup _, ?_⟩
    simp only [State.effect_engine, State.effect_get, hrow, State.kput_engine, State.kput_get, State.put_engine,
      State.engine_setEngine_same]
    exact ⟨tabGet_tabPut_same .., rfl, rfl, (State.get_put_own _ _ rfl).trans (Nat.mod_eq_of_lt hcount), rfl, rfl, rfl, rfl, rfl, rfl⟩
  · obtain ⟨t, hrow⟩ := trcRow_enters h hop hx hzero hpred (State.traceEntry_dropped (x.reg (fw w 21 17)) (fw w 16 14)
      harmed (by rw [State.engine_setEngine_same]; exact hfull))
    refine ⟨_, live_next hup _, ?_⟩
    simp only [State.effect_engine, State.effect_get, hrow, State.kput_engine, State.kput_get, State.put_engine,
      State.engine_setEngine_same]
    exact ⟨State.get_put_own _ 1 rfl, rfl, rfl, rfl, rfl, rfl, rfl, rfl⟩
  · obtain ⟨t, hrow⟩ := trcRow_idle h hop hx hzero hidle
    exact State.onEngine_of_kput_engine hup rfl hrow ⟨rfl, rfl, rfl, rfl, rfl, rfl, rfl⟩
  · exact htraps rfl (trcRow_traps h hop hbad)
  · obtain ⟨hlo, hhi⟩ := State.fltSource_range e.isLt hsrc
    obtain ⟨u, detail, addr, time, hrow⟩ := fltRow_raises h hop hzero hsrc hlive
    refine ⟨_, live_next hup _, ?_⟩
    rw [State.effect_get, hrow]
    exact State.raise_SEEN hlo hhi ..
  · exact State.onEngine_of_kput hup rfl (fltRow_shadow h hop hx hzero hsrc hshadow) (Or.inl rfl) ⟨rfl, rfl, rfl, rfl, rfl, rfl⟩
  · exact htraps rfl (fltRow_traps h hop hbad)
  · obtain ⟨u, k, w1, hlog, -, hrow⟩ := evtRow_reports h hop hx hzero hlive rfl
    rw [if_neg (by omega)] at hrow
    refine ⟨_, live_next hup _, ?_⟩
    simp only [State.effect_engine, State.effect_log, hrow, State.kput_engine]
    exact ⟨rfl, ⟨rfl, rfl, rfl, rfl, rfl, rfl⟩, ⟨x.reg (fw w 21 17), w1, x.timeAt _⟩, by rw [← hlog]; rfl, rfl, rfl⟩
  · obtain ⟨u, k, w1, hlog, hregs, hrow⟩ := evtRow_reports h hop hx hzero hlive rfl
    rw [if_pos hfull] at hrow
    refine ⟨_, live_next hup _, ?_⟩
    simp only [State.effect_engine, State.effect_log, State.effect_regs, hrow, State.kput_engine]
    refine ⟨?_, hlog, hregs hquiet⟩
    show (withBits x.estat 1 1 1).testBit 1 = true
    rw [testBit_withBits le_rfl]
    rfl
  · exact State.onEngine_of_kput hup rfl (evtRow_shadow h hop hx hzero hshadow) (Or.inl rfl) ⟨rfl, rfl, rfl, rfl, rfl, rfl⟩
  · exact htraps rfl (evtRow_traps h hop hbad)

end Sys2Proof.Machine
end

section
/-! PROOFS. The statements O4 and O5: what every step keeps, and that the state after reset has it (R7, R184, R187). -/
namespace Sys2Proof.Machine

/-- Every command keeps what its meaning keeps: the case split of the dispatch, one lemma of Laws/KeepExec.lean per command. -/
theorem exec_kept {c : Instr} {s t : State} (h : exec c s = .next t) : Kept false s t := by
  cases c with
  | cellTick => exact execCellTick_kept h
  | tickPeriodChange => exact execTickPeriodChange_kept h
  | tickusWrite => exact execTickusWrite_kept h
  | carrierValley => exact execCarrierValley_kept h
  | carrierPeak => exact execCarrierPeak_kept h
  | counterStart => exact execCounterStart_kept h
  | refreshInsert => exact execRefreshInsert_kept h
  | enginePassStart => exact execEnginePassStart_kept h
  | bindWrite => exact execBindWrite_kept h
  | engselWrite => exact execEngselWrite_kept h
  | energise => exact execEnergise_kept h
  | deenergise => exact execDeenergise_kept h
  | clear => exact execClear_kept h
  | svcOut => exact execSvcOut_kept h
  | svcIn => exact execSvcIn_kept h
  | shutdownComplete => exact execShutdownComplete_kept h
  | mcfgWrite => exact execMcfgWrite_kept h
  | pitchOffer => exact execPitchOffer_kept h
  | pitchStart => exact execPitchStart_kept h
  | flush => exact execFlush_kept h
  | go => exact execGo_kept h
  | setpointOffer => exact execSetpointOffer_kept h
  | setpointHoldoverExpiry => exact execSetpointHoldoverExpiry_kept h
  | load => exact execLoad_kept h
  | gearLoadApply => exact execGearLoadApply_kept h
  | stepPulse => exact execStepPulse_kept h
  | ccCfgWrite => exact execCcCfgWrite_kept h
  | ofscal => exact execOfscal_kept h
  | kcal => exact execKcal_kept h
  | align => exact execAlign_kept h
  | calibrationDone => exact execCalibrationDone_kept h
  | apply => exact execApply_kept h
  | stagedApplyTake => exact execStagedApplyTake_kept h
  | holdDlyExpiry => exact execHoldDlyExpiry_kept h
  | holding => exact execHolding_kept h
  | brakeReleaseStart => exact execBrakeReleaseStart_kept h
  | brakePullEnd => exact execBrakePullEnd_kept h
  | brakeEngageEnd => exact execBrakeEngageEnd_kept h
  | searchLock => exact execSearchLock_kept h
  | polarityDone => exact execPolarityDone_kept h
  | searchTimeout => exact execSearchTimeout_kept h
  | forcedAlignEnd => exact execForcedAlignEnd_kept h
  | injectionOff => exact execInjectionOff_kept h
  | stallRearm => exact execStallRearm_kept h
  | model => exact execModel_kept h
  | autoclReturn => exact execAutoclReturn_kept h
  | prCfgWrite => exact execPrCfgWrite_kept h
  | prParamWrite => exact execPrParamWrite_kept h
  | research => exact execResearch_kept h
  | resumecl => exact execResumecl_kept h
  | ident => exact execIdent_kept h
  | identDone => exact execIdentDone_kept h
  | eccUncorrectable => exact execEccUncorrectable_kept h
  | emergencyGap => exact execEmergencyGap_kept h
  | emergencyTakeover => exact execEmergencyTakeover_kept h
  | programMemoryWrite => exact execProgramMemoryWrite_kept h
  | dataMemoryWrite => exact execDataMemoryWrite_kept h
  | engineLoad => exact execEngineLoad_kept h
  | loadDone => exact execLoadDone_kept h
  | start => exact execStart_kept h
  | haltAction => exact execHaltAction_kept h
  | traceArm => exact execTraceArm_kept h
  | traceStop => exact execTraceStop_kept h
  | traceForce => exact execTraceForce_kept h
  | traceDone => exact execTraceDone_kept h
  | swapGo => exact execSwapGo_kept h
  | swapCancel => exact execSwapCancel_kept h
  | swapLoadDone => exact execSwapLoadDone_kept h
  | waitckpTimeout => exact execWaitckpTimeout_kept h
  | shadowMismatchEnd => exact execShadowMismatchEnd_kept h
  | switch => exact execSwitch_kept h
  | swapRelease => exact execSwapRelease_kept h
  | unretire => exact execUnretire_kept h
  | unretireDone => exact execUnretireDone_kept h
  | retire => exact execRetire_kept h
  | add => exact execAdd_kept h
  | sub => exact execSub_kept h
  | and => exact execAnd_kept h
  | or => exact execOr_kept h
  | xor => exact execXor_kept h
  | shl => exact execShl_kept h
  | shr => exact execShr_kept h
  | sar => exact execSar_kept h
  | mul => exact execMul_kept h
  | mulh => exact execMulh_kept h
  | min => exact execMin_kept h
  | max => exact execMax_kept h
  | cmp => exact execCmp_kept h
  | ld => exact execLd_kept h
  | st => exact execSt_kept h
  | ldi => exact execLdi_kept h
  | ldiH => exact execLdiH_kept h
  | bld => exact execBld_kept h
  | bst => exact execBst_kept h
  | bmac => exact execBmac_kept h
  | bmsu => exact execBmsu_kept h
  | bacc => exact execBacc_kept h
  | bnorm => exact execBnorm_kept h
  | bscale => exact execBscale_kept h
  | bsat => exact execBsat_kept h
  | bsatV => exact execBsatV_kept h
  | bint => exact execBint_kept h
  | bcvt => exact execBcvt_kept h
  | sincos => exact execSincos_kept h
  | atan2 => exact execAtan2_kept h
  | sqrt => exact execSqrt_kept h
  | rcp => exact execRcp_kept h
  | br => exact execBr_kept h
  | call => exact execCall_kept h
  | ret => exact execRet_kept h
  | loop => exact execLoop_kept h
  | wait => exact execWait_kept h
  | halt => exact execHalt_kept h
  | trap => exact execTrap_kept h
  | rdi => exact execRdi_kept h
  | rdiW => exact execRdiW_kept h
  | rdv => exact execRdv_kept h
  | rdf => exact execRdf_kept h
  | pos => exact execPos_kept h
  | pit => exact execPit_kept h
  | pitLvl => exact execPitLvl_kept h
  | wrv => exact execWrv_kept h
  | wra => exact execWra_kept h
  | cap => exact execCap_kept h
  | trc => exact execTrc_kept h
  | flt => exact execFlt_kept h
  | evt => exact execEvt_kept h
  | sgn => exact execSgn_kept h
  | sgnR => exact execSgnR_kept h
  | mailboxDelivery => exact execMailboxDelivery_kept h
  | ckp => exact execCkp_kept h
  | mfs => exact execMfs_kept h
  | mts => exact execMts_kept h
  | pwmgConfigWrite => exact execPwmgConfigWrite_kept h
  | shortCircuitTrip => exact execShortCircuitTrip_kept h
  | vhUndervoltageTrip => exact execVhUndervoltageTrip_kept h
  | vgdUndervoltageTrip => exact execVgdUndervoltageTrip_kept h
  | overTemperatureTrip => exact execOverTemperatureTrip_kept h
  | monitoredDecision => exact execMonitoredDecision_kept h
  | safeoffNLow => exact execSafeoffNLow_kept h
  | safeoffNHigh => exact execSafeoffNHigh_kept h
  | gdCfgWrite => exact execGdCfgWrite_kept h
  | scthrWrite => exact execScthrWrite_kept h
  | cmpScfWrite => exact execCmpScfWrite_kept h
  | windowExcursion => exact execWindowExcursion_kept h
  | windowReturn => exact execWindowReturn_kept h
  | monFiltWrite => exact execMonFiltWrite_kept h
  | monThrWrite => exact execMonThrWrite_kept h
  | decimatedOutput => exact execDecimatedOutput_kept h
  | decCfgWrite => exact execDecCfgWrite_kept h
  | decSettled => exact execDecSettled_kept h
  | busWinWrite => exact execBusWinWrite_kept h
  | hkcRun => exact execHkcRun_kept h
  | isw => exact execIsw_kept h
  | hkcInjectedTrigger => exact execHkcInjectedTrigger_kept h
  | hkcConversionDone => exact execHkcConversionDone_kept h
  | ridxWrite => exact execRidxWrite_kept h
  | hkcRefWrite => exact execHkcRefWrite_kept h
  | refSettled => exact execRefSettled_kept h
  | hkcCalGo => exact execHkcCalGo_kept h
  | hkcCalibrationDone => exact execHkcCalibrationDone_kept h
  | hkcConfigWrite => exact execHkcConfigWrite_kept h
  | quadratureCount => exact execQuadratureCount_kept h
  | zLatch => exact execZLatch_kept h
  | magneticSwitchCount => exact execMagneticSwitchCount_kept h
  | ssiFrameDone => exact execSsiFrameDone_kept h
  | fbConfigWrite => exact execFbConfigWrite_kept h
  | stepInputPulse => exact execStepInputPulse_kept h
  | siCfgWrite => exact execSiCfgWrite_kept h
  | soCfgWrite => exact execSoCfgWrite_kept h
  | captureEdge => exact execCaptureEdge_kept h
  | release => exact execRelease_kept h
  | arm => exact execArm_kept h
  | disarm => exact execDisarm_kept h
  | force => exact execForce_kept h
  | compareFire => exact execCompareFire_kept h
  | comparePulseEnd => exact execComparePulseEnd_kept h
  | pcoConfigWrite => exact execPcoConfigWrite_kept h
  | frameReceive => exact execFrameReceive_kept h
  | read => exact execRead_kept h
  | write => exact execWrite_kept h
  | rmw => exact execRmw_kept h
  | pitch => exact execPitch_kept h
  | setpoint => exact execSetpoint_kept h
  | ctrl => exact execCtrl_kept h
  | qctrl => exact execQctrl_kept h
  | commandRoomFreed => exact execCommandRoomFreed_kept h
  | waitdoneMet => exact execWaitdoneMet_kept h
  | anchor => exact execAnchor_kept h
  | releaseAnchors => exact execReleaseAnchors_kept h
  | fence => exact execFence_kept h
  | fenceComplete => exact execFenceComplete_kept h
  | resume => exact execResume_kept h
  | streamFlush => exact execStreamFlush_kept h
  | streamResync => exact execStreamResync_kept h
  | swap => exact execSwap_kept h
  | responseSend => exact execResponseSend_kept h
  | writeStageExpiry => exact execWriteStageExpiry_kept h
  | hostCfgWrite => exact execHostCfgWrite_kept h
  | hostLossTimeout => exact execHostLossTimeout_kept h
  | lose => exact execLose_kept h
  | cspCfgWrite => exact execCspCfgWrite_kept h
  | cspCfgApply => exact execCspCfgApply_kept h
  | qinWrite => exact execQinWrite_kept h
  | cspEntryStart => exact execCspEntryStart_kept h
  | cspEntryDone => exact execCspEntryDone_kept h
  | strobeTimeout => exact execStrobeTimeout_kept h
  | cspQueueFlush => exact execCspQueueFlush_kept h
  | ss0Fall => exact execSs0Fall_kept h
  | ss0Rise => exact execSs0Rise_kept h
  | cspSlaveWord => exact execCspSlaveWord_kept h
  | underrunResend => exact execUnderrunResend_kept h
  | srxdRead => exact execSrxdRead_kept h
  | stxdWrite => exact execStxdWrite_kept h
  | ethFrameReceive => exact execEthFrameReceive_kept h
  | egressFrameStart => exact execEgressFrameStart_kept h
  | gateEntryChange => exact execGateEntryChange_kept h
  | qbvApply => exact execQbvApply_kept h
  | qbvConfigChange => exact execQbvConfigChange_kept h
  | mdioGo => exact execMdioGo_kept h
  | mdioDone => exact execMdioDone_kept h
  | linkUp => exact execLinkUp_kept h
  | linkDown => exact execLinkDown_kept h
  | syncTransmit => exact execSyncTransmit_kept h
  | followUp => exact execFollowUp_kept h
  | slewEnd => exact execSlewEnd_kept h
  | pdelay => exact execPdelay_kept h
  | announce => exact execAnnounce_kept h
  | receiptTimeout => exact execReceiptTimeout_kept h
  | ctSetGo => exact execCtSetGo_kept h
  | ctServoWrite => exact execCtServoWrite_kept h
  | gptpCfgWrite => exact execGptpCfgWrite_kept h
  | faultRaise => exact execFaultRaise_kept h
  | faultRecord => exact execFaultRecord_kept h
  | notify => exact execNotify_kept h
  | fltSevWrite => exact execFltSevWrite_kept h
  | fltSubscribe => exact execFltSubscribe_kept h
  | logRecordWrite => exact execLogRecordWrite_kept h
  | freeze => exact execFreeze_kept h
  | freezeTimeout => exact execFreezeTimeout_kept h
  | clearLog => exact execClearLog_kept h
  | logMirror => exact execLogMirror_kept h
  | sagStart => exact execSagStart_kept h
  | saveComplete => exact execSaveComplete_kept h
  | supplyRecovery => exact execSupplyRecovery_kept h
  | belayRearm => exact execBelayRearm_kept h
  | blyCfgWrite => exact execBlyCfgWrite_kept h
  | ack => exact execAck_kept h
  | begin => exact execBegin_kept h
  | data => exact execData_kept h
  | commit => exact execCommit_kept h
  | abort => exact execAbort_kept h
  | erase => exact execErase_kept h
  | setflag => exact execSetflag_kept h
  | handover => exact execHandover_kept h
  | handoverReady => exact execHandoverReady_kept h
  | handoverSwitch => exact execHandoverSwitch_kept h
  | handoverTimeout => exact execHandoverTimeout_kept h
  | imageApply => exact execImageApply_kept h
  | keyprog => exact execKeyprog_kept h
  | revoke => exact execRevoke_kept h
  | secprog => exact execSecprog_kept h
  | acceptUntested => exact execAcceptUntested_kept h
  | powerOnReset => exact execPowerOnReset_kept h
  | resetPin => exact execResetPin_kept h
  | watchdogExpiry => exact execWatchdogExpiry_kept h
  | pwrCtrlWrite => exact execPwrCtrlWrite_kept h
  | clockLoss => exact execClockLoss_kept h
  | resetRelease => exact execResetRelease_kept h
  | xbcLoss => exact execXbcLoss_kept h
  | bivouacEntry => exact execBivouacEntry_kept h
  | bivouacEntered => exact execBivouacEntered_kept h
  | wake => exact execWake_kept h
  | hostsServed => exact execHostsServed_kept h
  | vbcLoss => exact execVbcLoss_kept h
  | pwrCfgWrite => exact execPwrCfgWrite_kept h
  | touchScan => exact execTouchScan_kept h
  | recal => exact execRecal_kept h
  | inputSample => exact execInputSample_kept h
  | presenceTest => exact execPresenceTest_kept h
  | presencePathDone => exact execPresencePathDone_kept h
  | fpConfigWrite => exact execFpConfigWrite_kept h
  | readClear => exact execReadClear_kept h
  | registerWrite => exact execRegisterWrite_kept h
  | commutation => exact execCommutation_kept h
  | comparatorSample => exact execComparatorSample_kept h
  | windowSample => exact execWindowSample_kept h
  | announceTransmit => exact execAnnounceTransmit_kept h
  | standbyReady => exact execStandbyReady_kept h
  | xbcStart => exact execXbcStart_kept h
  | lampBlink => exact execLampBlink_kept h

/-- An idle cycle moves cell time only. -/
theorem State.idle_kept (s : State) : Kept false s s.idle := by
  unfold State.idle
  exact Kept.ite (Kept.upd (Kept.refl false s)) (Kept.refl false s)

/-- A step with a command waiting keeps what the command keeps, and one with none what an idle cycle keeps. -/
theorem step_kept {s t : State} (h : step s = .next t) : Kept false s t := by
  unfold step at h
  split at h
  next => cases h; exact s.idle_kept
  next c rest _ => exact (Kept.upd (Kept.refl false s)).trans (exec_kept h)

/-- Settles O4: one-sidedness is one of the things that every command keeps. -/
theorem oneSidedKept : Obligations.OneSidedKept := fun _ _ hs h => (step_kept h).chans hs

/-- Settles O5: at reset the tables hold nothing, so that they are canonical and every gate is off. -/
theorem resetIsSound : Obligations.ResetIsSound := by
  have hregs : State.reset.regsWf = true := rfl
  have hmem : Memory.wf State.reset.mem = true := rfl
  have hgates : State.reset.OneSided := fun _ => rfl
  exact ⟨⟨hregs, hmem⟩, hgates⟩

end Sys2Proof.Machine
end

section
/-! PROOFS. What a trip, or a message with its reaction, does to carriers and bridges (R187, R192, R210 to R213, R355 to R362):
nothing starts by it. One lemma per operation, in the order of the model. -/
namespace Sys2Proof.Machine

/-- A word that no reaction writes: AXn_BIND, or GDg_CHSTATk. -/
def HeldWord (b : Nat) : Prop :=
  (0x080000 ≤ b ∧ b < 0x090000 ∧ b % 0x1000 = 0) ∨
  (0x240000 ≤ b ∧ b < 0x244000 ∧ 0x108 ≤ b % 0x1000 ∧ b % 0x1000 < 0x208 ∧ b % 0x20 = 8)
/-- A field of one word, outside the held words and outside AXn_STATE.STATE. -/
def Fld.Harmless (f : Fld) : Prop :=
  f.hi < 32 ∧ f.lo ≤ f.hi ∧ ¬ HeldWord f.a ∧ (0x080000 ≤ f.a → f.a < 0x090000 → f.a % 0x1000 = 8 → 4 ≤ f.lo)

theorem heldWord_BIND {n : Nat} (hn : n < 16) : HeldWord (AX_BIND n) := by unfold HeldWord AX_BIND; omega
theorem heldWord_CHSTAT {g k : Nat} (hg : g < 4) (hk : k < 8) : HeldWord (GD_CHSTAT g k) := by
  unfold HeldWord GD_CHSTAT; omega

theorem slotField_harmless {n : Fin 16} {off hi lo : Nat}
    (h : hi < 32 ∧ lo ≤ hi ∧ 0 < off ∧ off < 0x1000 ∧ (off = 8 → 4 ≤ lo)) :
    Fld.Harmless ⟨0x080000 + 0x1000 * n + off, hi, lo⟩ := by
  have hn := n.isLt
  unfold Fld.Harmless HeldWord
  dsimp only
  omega
theorem engineField_harmless {e off hi lo : Nat} (h : hi < 32 ∧ lo ≤ hi ∧ off < 0x108) :
    Fld.Harmless ⟨0x100000 + 0x2000 * e + off, hi, lo⟩ := by unfold Fld.Harmless HeldWord; dsimp only; omega
/-- A field of the modulator, of a comparator or of a step output, by its index. -/
theorem bridgeField_harmless {base stride i off hi lo : Nat} (h : hi < 32 ∧ lo ≤ hi ∧ 0x090000 ≤ base)
    (ha : base + stride * i + off < 0x240000 ∨ 0x244000 ≤ base) :
    Fld.Harmless ⟨base + stride * i + off, hi, lo⟩ := by unfold Fld.Harmless HeldWord; dsimp only; omega
theorem faultField_harmless {base i hi lo : Nat} (h : hi < 32 ∧ lo ≤ hi ∧ 0x244000 ≤ base) :
    Fld.Harmless ⟨base + 0x4 * i, hi, lo⟩ := by unfold Fld.Harmless HeldWord; dsimp only; omega
theorem fixedField_harmless {a hi lo : Nat} (h : hi < 32 ∧ lo ≤ hi ∧ 0x244000 ≤ a) : Fld.Harmless ⟨a, hi, lo⟩ := by
  unfold Fld.Harmless HeldWord; dsimp only; omega

/-- From `s` to `t` no carrier moves, no binding and no latch of a bridge die changes, no slot is energised anew, no
calibration begins to drive, and no high side turns on. -/
structure Subdued (s t : State) : Prop where
  groups : t.groups = s.groups
  held : ∀ b, HeldWord b → t.rd b = s.rd b
  energised : ∀ n < 16, t.energised n = true → s.energised n = true
  calDrives : ∀ n, t.calDrives n = true → s.calDrives n = true
  highOn : ∀ c, (t.chan c).h.on = true → (s.chan c).h.on = true

theorem State.energised_of_rd {s t : State} {n : Nat} (h : t.rd (AX_STATE n) = s.rd (AX_STATE n)) :
    t.energised n = s.energised n := by
  have hstate : t.get (AX_STATE_STATE n) = s.get (AX_STATE_STATE n) := State.get_of_rd (by decide) h
  unfold State.energised State.slotState; rw [hstate]

namespace Subdued
variable {o s t : State}

theorem refl (s : State) : Subdued s s := ⟨rfl, fun _ _ => rfl, fun _ _ => id, fun _ => id, fun _ => id⟩
theorem trans (h : Subdued o s) (g : Subdued s t) : Subdued o t :=
  ⟨g.groups.trans h.groups, fun b hb => (g.held b hb).trans (h.held b hb), fun n hn => h.energised n hn ∘ g.energised n hn,
    fun n => h.calDrives n ∘ g.calDrives n, fun c => h.highOn c ∘ g.highOn c⟩
/-- A state that differs in other parts only. -/
theorem same (h : Subdued o s) (hregs : ∀ b, t.rd b = s.rd b) (hgroups : t.groups = s.groups) (hccs : t.ccs = s.ccs)
    (hchans : t.chans = s.chans) : Subdued o t :=
  h.trans ⟨hgroups, fun b _ => hregs b, fun _ _ he => (State.energised_of_rd (hregs _)).symm.trans he,
    fun n hn => by unfold State.calDrives State.cc at *; rwa [hccs] at hn,
    fun c hc => by unfold State.chan at *; rwa [hchans] at hc⟩
theorem ite {c : Prop} [Decidable c] (hs : c → Subdued o s) (ht : ¬ c → Subdued o t) : Subdued o (if c then s else t) :=
  State.ite_holds hs ht
theorem each {α : Type} (h : Subdued o s) (l : List α) {f : α → State → State}
    (hf : ∀ x ∈ l, ∀ t, Subdued o t → Subdued o (f x t)) : Subdued o (s.each l f) := State.each_holds l h hf
theorem streams (h : Subdued o s) (g : StreamsOnly s t) : Subdued o t := by
  obtain ⟨x, rfl⟩ := g; exact h.same (fun _ => rfl) rfl rfl rfl

/-! ### The base operations -/

theorem wr (h : Subdued o s) {a : Nat} (v : Word) (hheld : ¬ HeldWord a) (hstate : ∀ n < 16, AX_STATE n ≠ a) :
    Subdued o (s.wr a v) := by
  have hword {b : Nat} (hb : b ≠ a) : (s.wr a v).rd b = s.rd b := s.rd_wr_ne v hb
  refine h.trans ⟨s.wr_groups a v, fun b hb => hword (fun e => hheld (e ▸ hb)),
    fun n hn he => (State.energised_of_rd (hword (hstate n hn))).symm.trans he, fun n hn => ?_, fun c hc => ?_⟩
  · unfold State.calDrives at *; rwa [State.wr_cc] at hn
  · rwa [State.wr_chan] at hc
theorem put (h : Subdued o s) {f : Fld} (v : Nat) (hf : f.Harmless) : Subdued o (s.put f v) := by
  obtain ⟨hhi, hlo, hheld, hstate⟩ := hf
  have hword {b : Nat} (hb : b ≠ f.a) : (s.put f v).rd b = s.rd b := s.rd_put_ne' v hhi hb
  refine h.trans ⟨s.put_groups f v, fun b hb => hword (fun e => hheld (e ▸ hb)), fun n hn he => ?_, fun n hn => ?_,
    fun c hc => ?_⟩
  · have hlast : (AX_STATE_STATE n).hi < 32 := Nat.lt_of_sub_eq_succ rfl
    have hget : (s.put f v).get (AX_STATE_STATE n) = s.get (AX_STATE_STATE n) := by
      by_cases ha : AX_STATE n = f.a
      · have hlo4 : 4 ≤ f.lo := hstate (by unfold AX_STATE at ha; omega) (by unfold AX_STATE at ha; omega)
          (by unfold AX_STATE at ha; omega)
        exact s.get_put_disjoint v hhi hlast ha hlo (Or.inl hlo4)
      · exact s.get_put_ne v hhi hlast ha
    unfold State.energised State.slotState at *; rwa [hget] at he
  · unfold State.calDrives at *; rwa [State.put_cc] at hn
  · rwa [State.put_chan] at hc
theorem puti (h : Subdued o s) {f : Fld} (v : Int) (hf : f.Harmless) : Subdued o (s.puti f v) := h.put _ hf
theorem inc (h : Subdued o s) {f : Fld} (k : Nat) (hf : f.Harmless) : Subdued o (s.inc f k) := h.put _ hf
theorem flag (h : Subdued o s) {f : Fld} (b : Bool) (hf : f.Harmless) : Subdued o (s.flag f b) := h.put _ hf
/-- Slot `n` goes to another state: one that is not energised, or from one that is. -/
theorem putState (h : Subdued o s) (n : Fin 16) {v : Nat} (hv : v < 16)
    (hfrom : v < 2 ∨ 5 < v ∨ s.energised n = true) : Subdued o (s.put (AX_STATE_STATE n) v) := by
  have hn := n.isLt
  have hword {b : Nat} (hb : b ≠ AX_STATE n) : (s.put (AX_STATE_STATE n) v).rd b = s.rd b := State.rd_put_word v (by decide) hb
  have hself : (s.put (AX_STATE_STATE n) v).get (AX_STATE_STATE n) = v :=
    (s.get_put_word v (by decide) (by decide)).trans (Nat.mod_eq_of_lt hv)
  refine h.trans ⟨s.put_groups .., fun b hb => hword ?_, fun m hm he => ?_, fun m hm => ?_, fun c hc => ?_⟩
  · rintro rfl; unfold HeldWord AX_STATE at hb; omega
  · by_cases hmn : m = n
    · subst hmn
      unfold State.energised State.slotState at he hfrom ⊢
      rw [hself, decide_eq_true_eq] at he
      exact (hfrom.resolve_left (by omega)).resolve_left (by omega)
    · have hother : AX_STATE m ≠ AX_STATE n := by unfold AX_STATE; omega
      exact (State.energised_of_rd (hword hother)).symm.trans he
  · unfold State.calDrives at *; rwa [State.put_cc] at hm
  · rwa [State.put_chan] at hc
theorem modCc (h : Subdued o s) (n : Nat) {f : Cc → Cc} (hf : ∀ x, 2 ≤ (f x).calKind → 2 ≤ x.calKind) :
    Subdued o (s.modCc n f) := by
  refine h.trans ⟨rfl, fun _ _ => rfl, fun _ _ => id, fun m hm => ?_, fun _ => id⟩
  unfold State.calDrives State.modCc at *
  rw [decide_eq_true_eq] at *
  by_cases hmn : m = n
  · subst hmn; rw [State.cc_setCc_same] at hm; exact hf _ hm
  · rwa [State.cc_setCc_ne _ _ hmn] at hm
theorem setChan (h : Subdued o s) (c : Nat) {x : PwmChan} (hx : x.h.on = true → (s.chan c).h.on = true) :
    Subdued o (s.setChan c x) := by
  refine h.trans ⟨rfl, fun _ _ => rfl, fun _ _ => id, fun _ => id, fun m hm => ?_⟩
  by_cases hmc : m = c
  · subst hmc; rw [State.chan_setChan_same] at hm; exact hx hm
  · rwa [State.chan_setChan_ne _ _ hmc] at hm
theorem modChan (h : Subdued o s) (c : Nat) {f : PwmChan → PwmChan} (hf : ∀ x, (f x).h.on = true → x.h.on = true) :
    Subdued o (s.modChan c f) := h.setChan c (hf _)
theorem modGen (h : Subdued o s) (n : Nat) (f : Gen → Gen) : Subdued o (s.modGen n f) := h.same (fun _ => rfl) rfl rfl rfl
theorem setGen (h : Subdued o s) (n : Nat) (x : Gen) : Subdued o (s.setGen n x) := h.same (fun _ => rfl) rfl rfl rfl
theorem setSwap (h : Subdued o s) (n : Nat) (x : Swap) : Subdued o (s.setSwap n x) := h.same (fun _ => rfl) rfl rfl rfl
theorem setPr (h : Subdued o s) (n : Nat) (x : Prusik) : Subdued o (s.setPr n x) := h.same (fun _ => rfl) rfl rfl rfl
theorem updBly (h : Subdued o s) (x : Belay) : Subdued o { s with bly := x } := h.same (fun _ => rfl) rfl rfl rfl
theorem updHoDead (h : Subdued o s) (x : Bool) : Subdued o { s with hoDead := x } := h.same (fun _ => rfl) rfl rfl rfl
theorem updColl (h : Subdued o s) (x : Collector) : Subdued o { s with coll := x } := h.same (fun _ => rfl) rfl rfl rfl
theorem updHkc (h : Subdued o s) (x : Hkc) : Subdued o { s with hkc := x } := h.same (fun _ => rfl) rfl rfl rfl
theorem modHost (h : Subdued o s) (k : Nat) (f : HostSt → HostSt) : Subdued o (s.modHost k f) :=
  h.same (fun _ => rfl) rfl rfl rfl
theorem modEngine (h : Subdued o s) (e : Nat) (f : Engine → Engine) : Subdued o (s.modEngine e f) :=
  h.same (fun _ => rfl) rfl rfl rfl

/-! ### Channels (R187, R192, R213) -/

theorem noteArmed (h : Subdued o s) (c : Nat) : Subdued o (s.noteArmed c) := by
  unfold State.noteArmed
  exact ite (fun _ => h.modChan c (fun _ => id)) (fun _ => h)
theorem gateOff (h : Subdued o s) (c : Nat) (high trip soft : Bool) : Subdued o (s.gateOff c high trip soft) := by
  have hraw : Subdued o (s.put (if high then CMP_SST_RAWH c else CMP_SST_RAWL c) 0) := by
    have hsst {i : Nat} (hi : i < 32) : Fld.Harmless ⟨CMP_SST c, i, i⟩ :=
      bridgeField_harmless ⟨hi, le_rfl, by decide⟩ (Or.inr (by decide))
    cases high
    · exact h.put 0 (hsst (by decide))
    · exact h.put 0 (hsst (by decide))
  unfold State.gateOff
  refine ite (fun _ => h) (fun _ => hraw.modChan c (fun x => ?_))
  cases high
  · exact id
  · exact (nomatch ·)
theorem gateOnLow (h : Subdued o s) (c : Nat) : Subdued o (s.gateOn c false) := by
  unfold State.gateOn
  exact ite (fun _ => h) (fun _ => h.setChan c id)
theorem force (h : Subdued o s) {c : Nat} (hc : c < 64) (mode : Nat) (low soft : Bool) : Subdued o (s.force c mode low soft) := by
  have hmode : Subdued o (s.put (PWM_STAT_MODE c) mode) :=
    h.put mode (bridgeField_harmless (by decide) (Or.inl (by omega)))
  have hcarry {t : State} (ht : Subdued o t) : Subdued o (t.wr (PWM_CARRY c) 0) :=
    ht.wr 0 (by unfold HeldWord PWM_CARRY; omega) (by unfold AX_STATE PWM_CARRY; omega)
  unfold State.force
  extract_lets x td s1 s2 s3 s4 wait s5
  have h2 : Subdued o s2 := ite (fun _ => hmode) (fun _ => hcarry hmode)
  have h3 : Subdued o s3 := h2.gateOff c ..
  have h4 : Subdued o s4 := ite (fun _ => h3) (fun _ => h3.gateOff c ..)
  have h5 : Subdued o s5 := h4.modChan c (fun _ => id)
  exact ite (fun _ => h5.gateOnLow c) (fun _ => h5)
theorem safeState (h : Subdued o s) {c : Nat} (hc : c < 64) : Subdued o (s.safeState c) := h.force hc ..
theorem brakeOff (h : Subdued o s) (n : Fin 16) (mode : Nat) : Subdued o (s.brakeOff n mode) := by
  have hforce : Subdued o (s.each (s.brakeChans n) (fun c t => t.force c mode false)) :=
    h.each _ (fun c hc t ht => ht.force (State.lt_of_mem_slotChans (List.mem_append_right _ hc)) ..)
  unfold State.brakeOff
  split
  · exact h
  · exact ((hforce.put 0 (slotField_harmless (by decide))).put 0 (slotField_harmless (by decide))).put 0
      (slotField_harmless (by decide))

/-! ### The parts of a slot (Machine/Slots.lean) -/

theorem swapAbandon (h : Subdued o s) (n : Fin 16) (result : Nat) : Subdued o (s.swapAbandon n result) := by
  unfold State.swapAbandon
  extract_lets x s1 s2 s3
  have h1 : Subdued o s1 := (h.put 0 (engineField_harmless (by decide))).put 0 (engineField_harmless (by decide))
  have h2 : Subdued o s2 := (h1.put 0 (engineField_harmless (by decide))).put 0 (engineField_harmless (by decide))
  have h3 : Subdued o s3 := ite (fun _ => h2.put 1 (engineField_harmless (by decide))) (fun _ => h2)
  exact (((h3.put 0 (slotField_harmless (by decide))).put result (slotField_harmless (by decide))).setSwap n {}).streams
    ((StreamsOnly.refl _).swapAnswer _ _)
theorem stopRoutes (h : Subdued o s) (n : Nat) : Subdued o (s.stopRoutes n) :=
  h.each _ (fun _ _ _ ht => ite (fun _ => ht.put 0 (engineField_harmless (by decide))) (fun _ => ht))
theorem keepHead (h : Subdued o s) (n : Fin 16) : Subdued o (s.keepHead n) := by
  unfold State.keepHead
  exact ite (fun _ => h.put 1 (slotField_harmless (by decide))) (fun _ => h)
theorem clearPitst (h : Subdued o s) (n : Fin 16) : Subdued o (s.clearPitst n) :=
  ((h.put 0 (slotField_harmless (by decide))).put 0 (slotField_harmless (by decide))).put 0 (slotField_harmless (by decide))
theorem abandonPitch (h : Subdued o s) (n : Fin 16) : Subdued o (s.abandonPitch n) := by
  unfold State.abandonPitch
  split
  · exact h
  · exact ((h.modGen _ _).clearPitst n).streams ((StreamsOnly.refl _).interruptPitch _ _)
theorem sourceOff (h : Subdued o s) (n : Fin 16) : Subdued o (s.sourceOff n) := by
  have hheld {t : State} (ht : Subdued o t) : Subdued o (t.put (AX_PITQ_CTRL_QHELD n) 1) :=
    ht.put 1 (slotField_harmless (by decide))
  unfold State.sourceOff
  dsimp only
  split
  case h_1 =>
    split
    · refine ite (fun _ => ?_) (fun _ => hheld (h.abandonPitch n))
      exact (hheld (((h.setGen _ _).clearPitst n).put _ (slotField_harmless (by decide)))).put _ (slotField_harmless (by decide))
    · exact hheld h
  case h_2 => exact h.modGen _ _
  case h_3 => exact ((h.inc _ (slotField_harmless (by decide))).put 0 (slotField_harmless (by decide))).modGen _ _
theorem stopGen (h : Subdued o s) (n : Fin 16) : Subdued o (s.stopGen n) := by
  have hstop : Subdued o (if s.get (AX_MCFG_SRC n) = 0 ∧ (s.gen n).pitch ≠ none then
      (s.abandonPitch n).put (AX_PITQ_CTRL_QHELD n) 1 else s) :=
    ite (fun _ => (h.abandonPitch n).put 1 (slotField_harmless (by decide))) (fun _ => h)
  exact ((hstop.modGen _ _).put 0 (slotField_harmless (by decide))).put 0 (slotField_harmless (by decide))
/-- A slot names its step output by a field of three bits (R14). -/
theorem sogField_harmless (s : State) (n : Nat) {off hi lo : Nat} (h : hi < 32 ∧ lo ≤ hi ∧ off < 0x40) :
    Fld.Harmless ⟨0x202000 + 0x40 * s.get (AX_BIND_SOUT n) + off, hi, lo⟩ := by
  have hlt : s.get (AX_BIND_SOUT n) < 8 := s.get_lt _
  exact bridgeField_harmless ⟨h.1, h.2.1, by decide⟩ (Or.inl (by omega))
theorem cutSteps (h : Subdued o s) (n : Fin 16) (drop : Bool) : Subdued o (s.cutSteps n drop) := by
  have hemit : Subdued o (s.emitSteps n (s.stepsDue n)) := (h.modGen _ _).puti _ (sogField_harmless s n (by decide))
  have hset := hemit.setGen n { (s.emitSteps n (s.stepsDue n)).gen n with sched := 0, sent := 0 }
  unfold State.cutSteps
  exact ite (fun _ => ite (fun _ => hset) (fun _ => hset.puti _ (slotField_harmless (by decide)))) (fun _ => h)
theorem holdSteps (h : Subdued o s) (n : Nat) : Subdued o (s.put (SOG_STAT_HELD (s.get (AX_BIND_SOUT n))) 1) :=
  h.put 1 (sogField_harmless s n (by decide))
theorem stopSteps (h : Subdued o s) (n : Fin 16) (held : Bool) : Subdued o (s.stopSteps n held) := by
  have hcut := h.cutSteps n (!held)
  unfold State.stopSteps
  exact ite (fun _ => hcut.holdSteps n) (fun _ => hcut)
theorem prStop (h : Subdued o s) (n : Fin 16) : Subdued o (s.prStop n) := by
  have hput {t : State} (f : Fin 16 → Fld) (hf : (f n).Harmless) (ht : Subdued o t) : Subdued o (t.put (f n) 0) := ht.put 0 hf
  unfold State.prStop
  refine (hput (AX_PR_ST_MODEL ·) (slotField_harmless (by decide)) ?_).setPr n {}
  refine hput (AX_PR_ST_OVERSPD ·) (slotField_harmless (by decide)) ?_
  refine hput (AX_PR_ST_INJSAT ·) (slotField_harmless (by decide)) ?_
  refine hput (AX_PR_ST_EMFLOW ·) (slotField_harmless (by decide)) ?_
  refine hput (AX_PR_ST_FALLBACK ·) (slotField_harmless (by decide)) ?_
  refine hput (AX_PR_ST_VALID ·) (slotField_harmless (by decide)) ?_
  exact hput (AX_PR_ST_EMODE ·) (slotField_harmless (by decide)) h
theorem toTripped (h : Subdued o s) (n : Fin 16) (reason : Nat) (how : SafeHow) (held : Bool) :
    Subdued o (s.toTripped n reason how held) := by
  have hlt {t : State} {c : Nat} (hc : c ∈ t.localChans n) : c < 64 := State.lt_of_mem_slotChans (List.mem_append_left _ hc)
  have hreason {t : State} (ht : Subdued o t) : Subdued o (t.put (AX_STATE_STOPREASON n) reason) :=
    ht.put reason (slotField_harmless (by decide))
  unfold State.toTripped
  refine ite (fun _ => ?_) (fun _ => ite (fun _ => hreason h) (fun _ => h))
  extract_lets s1 s2 s3 s4 s5 s6 last s7 s8
  have harmed : Subdued o s1 := h.each _ (fun c _ t ht => ht.noteArmed c)
  have hstate : Subdued o s2 :=
    (hreason (harmed.putState n (by decide) (Or.inr (Or.inl (by decide))))).put 0 (slotField_harmless (by decide))
  have hchans : Subdued o s3 := hstate.each _ (fun c hc t ht => by
    cases how with
    | safe => exact ht.safeState (hlt hc)
    | coast => exact ht.force (hlt hc) ..
    | brake => exact ite (fun _ => ht.force (hlt hc) ..) (fun _ => ht.force (hlt hc) ..))
  have hgen : Subdued o s5 := ((hchans.brakeOff n _).stopSteps n held).stopGen n
  have hswap : Subdued o s6 := ite (fun _ => hgen.swapAbandon n 9) (fun _ => hgen)
  have hpr : Subdued o s7 := ((hswap.stopRoutes n).modCc n (by exact fun _ => id)).prStop n
  have hend : Subdued o s8 := (hpr.put 0 (slotField_harmless (by decide))).put 0 (slotField_harmless (by decide))
  exact hend.streams ((StreamsOnly.refl _).interruptWait _ _ _)
theorem toRappel (h : Subdued o s) (n : Fin 16) (reason : Nat) (de : Bool) : Subdued o (s.toRappel n reason de) := by
  unfold State.toRappel
  refine ite (fun hrun => ?_) (fun _ => h)
  have henergised : s.energised n = true := by unfold State.energised; rw [hrun]; decide
  have hstate := (h.putState n (v := stRappel) (by decide) (Or.inr (Or.inr henergised))).put reason
    (f := AX_STATE_STOPREASON n) (slotField_harmless (by decide))
  refine streams ?_ ((StreamsOnly.refl _).interruptWait _ _ _)
  exact ((((hstate.cutSteps n false).sourceOff n).modGen _ _).put 0 (slotField_harmless (by decide))).put 0
    (slotField_harmless (by decide))

/-! ### Messages and reactions (Machine/Collector.lean) -/

theorem startSave (h : Subdued o s) (sag s4 : Bool) : Subdued o (s.startSave sag s4) := by
  unfold State.startSave
  exact ite (fun _ => h.updBly _) (fun _ => (h.updBly _).put 1 (fixedField_harmless (by decide)))
theorem reactS3 (h : Subdued o s) (gs rs : List Nat) (reason : Nat) (held : Bool) : Subdued o (s.reactS3 gs rs reason held) := by
  refine h.each _ (fun n hn t ht => ?_)
  have htrip := ht.toTripped ⟨n, List.mem_range.mp hn⟩ reason .safe held
  have hbrake := ht.brakeOff ⟨n, List.mem_range.mp hn⟩ mKilled
  have hbraked {c : Prop} [Decidable c] : Subdued o (if c then t.brakeOff n mKilled else t) :=
    ite (fun _ => hbrake) (fun _ => ht)
  exact ite (fun _ => ite (fun _ => htrip) (fun _ => hbraked)) (fun _ => ite (fun _ => htrip) (fun _ => hbraked))
theorem reactS4 (h : Subdued o s) : Subdued o s.reactS4 := by
  have hseen : Subdued o ((s.startSave false true).killHandover.put FLT_ST_S4SEEN 1) :=
    ((h.startSave false true).updHoDead _).put 1 (fixedField_harmless (by decide))
  unfold State.reactS4
  refine each (streams (each (hseen.reactS3 _ _ _ _) _ (fun n _ t ht => ?_)) ((StreamsOnly.refl _).interruptSlot _ _)) _
    (fun k _ t ht => ht.streams ((StreamsOnly.refl t).modStream _ _))
  exact ite (fun _ => ht.holdSteps n) (fun _ => ht)
theorem react (h : Subdued o s) (src sev : Nat) : Subdued o (s.react src sev) := by
  unfold State.react
  refine ite (fun _ => h.each _ (fun n hn t ht => ?_)) (fun _ => ite (fun _ => h.reactS3 _ _ _ _) (fun _ =>
    ite (fun _ => h.reactS4) (fun _ => h)))
  have hlt := State.lt_of_mem_affectedSlots hn
  exact (ht.keepHead ⟨n, hlt⟩).toRappel ⟨n, hlt⟩ 2 false
theorem notifyHost (h : Subdued o s) (m : Msg) (k : Nat) : Subdued o (s.notifyHost m k) := by
  unfold State.notifyHost
  exact ite (fun _ => (h.modHost k _).put _ (faultField_harmless (by decide)))
    (fun _ => (h.inc _ (faultField_harmless (by decide))).put 1 (faultField_harmless (by decide)))
theorem traceTrigger (h : Subdued o s) {e : Nat} (he : e < 32) (time : Nat) : Subdued o (s.traceTrigger e time) := by
  have hwr {t : State} (ht : Subdued o t) {a : Nat} (v : Word) (ha : a = KE_TRTIME e ∨ a = KE_TRTIME e + 4) :
      Subdued o (t.wr a v) := by
    unfold KE_TRTIME at ha
    exact ht.wr v (by unfold HeldWord; omega) (by unfold AX_STATE; omega)
  unfold State.traceTrigger
  refine ite (fun _ => ?_) (fun _ => h)
  have hput := (h.put 2 (f := KE_TRCFG_STATE e) (engineField_harmless (by decide))).put
    (((s.engine e).trNext + 4095) % 4096) (f := KE_TRPOS_TRIGIDX e) (engineField_harmless (by decide))
  exact (hwr (hwr hput _ (Or.inl rfl)) _ (Or.inr rfl)).modEngine _ _
theorem hkcSignal (h : Subdued o s) (c : Bool) (time : Nat) : Subdued o (s.hkcSignal c time) := by
  unfold State.hkcSignal
  exact ite (fun _ => h.updHkc _) (fun _ => h)
theorem raise (h : Subdued o s) (src kind detail addr time : Nat) (loc : Bool) (sevIs : Option Nat) :
    Subdued o (s.raise src kind detail addr time loc sevIs) := by
  unfold State.raise
  extract_lets sev m key last s1 s2 coll s3 s4 s5
  have hcount : Subdued o s1 := ((h.inc 1 (fixedField_harmless (by decide))).inc 1 (faultField_harmless (by decide))).put 1
    (faultField_harmless (by decide))
  have hrecorded : Subdued o s3 := (hcount.inc 1 (f := FLT_RECORDED_V) (fixedField_harmless (by decide))).updColl _
  have htaken : Subdued o s4 := by
    refine ite (fun _ => hcount.inc 1 (fixedField_harmless (by decide))) (fun _ => ite (fun _ => ?_) (fun _ => ?_))
    · exact ((hcount.inc 1 (fixedField_harmless (by decide))).inc 1 (fixedField_harmless (by decide))).put 1
        (fixedField_harmless (by decide))
    · exact ite (fun _ => hrecorded.each _ (fun k _ t ht => ite (fun _ => ht.notifyHost m k) (fun _ => ht))) (fun _ => hrecorded)
  have htrace : Subdued o s5 := by
    unfold s5; split
    · exact htaken.each _ (fun e he t ht => ite (fun _ => ht.traceTrigger (State.lt_of_mem_slotEngines he) time) (fun _ => ht))
    · exact htaken
  exact (htrace.hkcSignal _ _).react _ _

/-! ### A trip and the slot of its channel (R210, R212) -/

theorem calDriveOff (h : Subdued o s) (n : Fin 16) : Subdued o (s.calDriveOff n) := by
  refine h.each _ (fun c hc t ht => ite (fun _ => ht) (fun _ => ?_))
  exact ht.force (State.lt_of_mem_slotChans (List.mem_append_left _ hc)) ..
theorem calTrip (h : Subdued o s) (n : Fin 16) : Subdued o (s.calTrip n) := by
  have hoff {t : State} (ht : Subdued o t) : Subdued o ((t.modCc n (fun c => { c with calKind := 0 })).calDriveOff n) :=
    (ht.modCc n (by simp)).calDriveOff n
  unfold State.calTrip
  extract_lets s1
  have hcal : Subdued o s1 := ite (fun _ => hoff ((((h.put 0 (slotField_harmless (by decide))).put 0
    (slotField_harmless (by decide))).put 1 (slotField_harmless (by decide))).put 4 (slotField_harmless (by decide)))) (fun _ => h)
  exact ite (fun _ => hoff ((((hcal.put 0 (slotField_harmless (by decide))).put 0
    (slotField_harmless (by decide))).put 1 (slotField_harmless (by decide))).put 4 (slotField_harmless (by decide)))) (fun _ => hcal)
theorem tripOwner (h : Subdued o s) (c : Nat) : Subdued o (s.tripOwner c) := by
  unfold State.tripOwner
  split
  next n hn =>
    have hlt : n < 16 := List.mem_range.mp (List.mem_of_find?_eq_some hn)
    exact (h.toTripped ⟨n, hlt⟩ 4 .safe false).calTrip ⟨n, hlt⟩
  next => exact h
end Subdued

end Sys2Proof.Machine
end

section
/-! PROOFS. The statement O43: refresh, commutation and the groups' configuration (R187, R191, R192, R194 to R196, R203). -/
namespace Sys2Proof.Machine

section
variable {c : Nat}

/-! ### A gate turns off or on (R187, R224, R225) -/

theorem State.ite_chan {p : Prop} [Decidable p] (s t : State) (m : Nat) :
    (if p then s else t).chan m = if p then s.chan m else t.chan m := apply_ite (fun u : State => u.chan m) ..
theorem State.gateOff_chan_ne {m : Nat} (s : State) (high trip soft : Bool) (h : m ≠ c) :
    (s.gateOff c high trip soft).chan m = s.chan m := by
  simp only [gateOff, ite_chan, chan_modChan_ne _ _ h, put_chan, ite_self]
theorem State.gateOff_edges (s : State) (c : Nat) (high trip soft : Bool) :
    ((s.gateOff c high trip soft).chan c).edges = (s.chan c).edges := by
  unfold gateOff
  dsimp only
  split
  · rfl
  · rw [chan_modChan_same, put_chan]
    cases high <;> rfl
theorem State.gateOn_chan_ne {m : Nat} (s : State) (high : Bool) (h : m ≠ c) : (s.gateOn c high).chan m = s.chan m := by
  simp only [gateOn, ite_chan, chan_setChan_ne _ _ h, ite_self]
theorem State.gateOn_regs (s : State) (c : Nat) (high : Bool) : (s.gateOn c high).regs = s.regs := by
  unfold gateOn
  dsimp only
  split <;> rfl
/-- With both gates off the one asked for turns on, alone (R187). -/
theorem State.gateOn_gates (s : State) (c : Nat) (high : Bool) (hh : (s.chan c).h.on = false) (hl : (s.chan c).l.on = false) :
    ((s.gateOn c high).chan c).h.on = high ∧ ((s.gateOn c high).chan c).l.on = (!high) ∧
      ((s.gateOn c high).chan c).incoming = none := by
  unfold gateOn
  dsimp only
  cases high <;> simp [PwmChan.gate, PwmChan.setGate, hh, hl]

/-! ### Refresh (R191) -/

variable {s : State}

/-- The high side of channel `c` goes off at `a`, in steps of 500 ps, so that the low side is on after the dead time. -/
def State.refreshStart (s : State) (c a : Nat) : State :=
  let u := { s with now := max s.now (a / 2) }.gateOff c true
  u.modChan c (fun y => { y with incoming := some false, deadAt := max (2 * u.now) a + s.deadTd c, refresh := true })

theorem refreshInsert_eq {a : Nat} (hboot : s.get (PWMG_STAT_BOOT (c / 8)) = 1) (hrun : s.get (PWMG_STAT_RUN (c / 8)) = 1)
    (hon : (s.chan c).h.on = true) (hskip : (s.chan c).skip = true) (hedges : (s.chan c).edges = [])
    (hincoming : (s.chan c).incoming = none) (hrefresh : (s.chan c).refresh = false) (hlow : (s.chan c).lowLen = none)
    (hmode : s.get (PWM_STAT_MODE c) = mSwitch) (hdue : s.get (PWMG_REFR_REFRESHN (c / 8)) ≤ (s.chan c).noLow)
    (hdt : s.get (PWMG_CFG_DT (c / 8)) ≠ 0)
    (ha : a = s.naturalValley (c / 8) - 8 * s.get (PWMG_REFR_TREFRESH (c / 8)) / 2 - 8 * s.get (PWMG_CFG_DT (c / 8))) :
    refreshInsert c s = s.refreshStart c a := by
  have htd : (s.pulseEnv c).td ≠ 0 := Nat.mul_ne_zero (by decide) hdt
  unfold refreshInsert
  dsimp only
  rw [if_neg htd, if_pos]
  · subst ha; rfl
  · simp [State.bit, hboot, hrun, hon, hskip, hedges, hincoming, hrefresh, hlow, hmode, hdue]
theorem State.refreshStart_off (s : State) (c a : Nat) : ((s.refreshStart c a).chan c).h.on = false ∧
    ((s.refreshStart c a).chan c).l.on = (s.chan c).l.on := by
  obtain ⟨hhigh, hlow, -⟩ := State.gateOff_gates { s with now := max s.now (a / 2) } c true false false
  unfold refreshStart
  rw [chan_modChan_same]
  exact ⟨hhigh, hlow⟩
theorem State.refreshStart_now (s : State) (c a : Nat) : (s.refreshStart c a).now = max s.now (a / 2) :=
  now_eq_of_clock (State.gateOff_clock { s with now := max s.now (a / 2) } c true false false)
/-- The low side is on its way. -/
theorem State.refreshStart_incoming (s : State) (c a : Nat) : ((s.refreshStart c a).chan c).incoming = some false ∧
    ((s.refreshStart c a).chan c).refresh = true ∧
    ((s.refreshStart c a).chan c).deadAt = max (2 * (s.refreshStart c a).now) a + s.deadTd c := by
  unfold refreshStart
  rw [chan_modChan_same]
  exact ⟨rfl, rfl, rfl⟩
theorem State.refreshStart_chan_ne {m : Nat} (s : State) (a : Nat) (h : m ≠ c) : (s.refreshStart c a).chan m = s.chan m :=
  (State.chan_modChan_ne _ _ h).trans (State.gateOff_chan_ne _ _ _ _ h)
theorem State.refreshStart_rd {b : Nat} (s : State) (a : Nat) (h : b ≠ CMP_SST c) : (s.refreshStart c a).rd b = s.rd b :=
  (State.modChan_rd ..).trans (State.gateOff_rd h true false false)
/-- No refresh is due, the high side is off, or the group is no bootstrap group. -/
theorem refreshInsert_idle (h : (s.chan c).noLow < s.get (PWMG_REFR_REFRESHN (c / 8)) ∨ (s.chan c).h.on = false ∨
    s.get (PWMG_STAT_BOOT (c / 8)) = 0) : refreshInsert c s = s := by
  unfold refreshInsert
  dsimp only
  rw [if_neg]
  rcases h with h | h | h <;> simp [h, State.bit]

/-! ### Commutation (R187, R192, R203) -/

theorem commutation_safeoff (e : Edge) (h : s.safeoff = true) : commutation c e s = s := by
  unfold commutation
  dsimp only
  rw [if_pos h]
/-- The compare edge at `a` is taken, and `rest` are still to come. -/
def State.edgeTaken (s : State) (c a : Nat) (rest : List (Nat × Bool)) : State :=
  { s with now := max s.now (a / 2) }.modChan c (fun y => { y with edges := rest })
/-- The outgoing gate is removed and the dead time of the other runs. -/
def State.deadStart (s : State) (c a : Nat) (toHigh : Bool) : State :=
  let u := s.gateOff c (!toHigh)
  u.modChan c (fun y => { y with incoming := some toHigh, deadAt := max (2 * u.now) a + u.deadTd c })

section
variable {a : Nat} {toHigh : Bool} {rest : List (Nat × Bool)} (hsafe : s.safeoff = false)
  (hedges : (s.chan c).edges = (a, toHigh) :: rest)
include hsafe hedges

theorem commutation_edge_on (hon : ((s.chan c).gate toHigh).on = true) :
    commutation c (.edge toHigh) s = s.edgeTaken c a rest := by
  unfold commutation
  dsimp only
  rw [if_neg (Bool.eq_false_iff.mp hsafe), hedges]
  dsimp only
  rw [if_neg (not_not_intro rfl), if_pos hon]
  rfl
theorem commutation_edge_off (hoff : ((s.chan c).gate toHigh).on = false) (hdt : s.get (PWMG_CFG_DT (c / 8)) ≠ 0) :
    commutation c (.edge toHigh) s = (s.edgeTaken c a rest).deadStart c a toHigh := by
  have htd : ((s.edgeTaken c a rest).gateOff c (!toHigh)).deadTd c ≠ 0 := by
    have hrd : ((s.edgeTaken c a rest).gateOff c (!toHigh)).rd (PWMG_CFG (c / 8)) = s.rd (PWMG_CFG (c / 8)) :=
      State.gateOff_rd (by unfold PWMG_CFG CMP_SST; omega) _ _ _
    have hget := State.get_of_rd (hi := 15) (lo := 8) (by decide) hrd
    exact Nat.mul_ne_zero (by decide) (hget.trans_ne hdt)
  unfold commutation
  dsimp only
  rw [if_neg (Bool.eq_false_iff.mp hsafe), hedges]
  dsimp only
  rw [if_neg (not_not_intro rfl), if_neg (Bool.eq_false_iff.mp hoff)]
  exact if_neg htd
end

theorem State.edgeTaken_gates (s : State) (c a : Nat) (rest : List (Nat × Bool)) :
    ((s.edgeTaken c a rest).chan c).h = (s.chan c).h ∧ ((s.edgeTaken c a rest).chan c).l = (s.chan c).l ∧
      ((s.edgeTaken c a rest).chan c).edges = rest := by
  unfold edgeTaken
  rw [chan_modChan_same]
  exact ⟨rfl, rfl, rfl⟩
theorem State.edgeTaken_chan_ne {m : Nat} (s : State) (a : Nat) (rest : List (Nat × Bool)) (h : m ≠ c) :
    (s.edgeTaken c a rest).chan m = s.chan m := State.chan_modChan_ne _ _ h
/-- The gate that is to turn on being off, both are off from the start of the dead time. -/
theorem State.deadStart_off {toHigh : Bool} (a : Nat) (h : ((s.chan c).gate toHigh).on = false) :
    ((s.deadStart c a toHigh).chan c).h.on = false ∧ ((s.deadStart c a toHigh).chan c).l.on = false := by
  obtain ⟨hhigh, hlow, -⟩ := s.gateOff_gates c (!toHigh) false false
  unfold deadStart
  rw [chan_modChan_same]
  cases toHigh
  · exact ⟨hhigh, hlow.trans h⟩
  · exact ⟨hhigh.trans h, hlow⟩
theorem State.deadStart_now (s : State) (c a : Nat) (toHigh : Bool) : (s.deadStart c a toHigh).now = s.now :=
  now_eq_of_clock (s.gateOff_clock c (!toHigh) false false)
theorem State.deadStart_incoming (s : State) (c a : Nat) (toHigh : Bool) :
    ((s.deadStart c a toHigh).chan c).incoming = some toHigh ∧
    ((s.deadStart c a toHigh).chan c).edges = (s.chan c).edges ∧
    ((s.deadStart c a toHigh).chan c).deadAt = max (2 * (s.deadStart c a toHigh).now) a + s.deadTd c := by
  have hrd : (s.gateOff c (!toHigh)).rd (PWMG_CFG (c / 8)) = s.rd (PWMG_CFG (c / 8)) :=
    State.gateOff_rd (by unfold PWMG_CFG CMP_SST; omega) _ _ _
  have htd : (s.gateOff c (!toHigh)).deadTd c = s.deadTd c := congrArg (8 * ·) (State.get_of_rd (by decide) hrd)
  unfold deadStart
  rw [chan_modChan_same, htd]
  exact ⟨rfl, s.gateOff_edges c _ _ _, rfl⟩
theorem State.deadStart_chan_ne {m : Nat} (s : State) (a : Nat) (toHigh : Bool) (h : m ≠ c) :
    (s.deadStart c a toHigh).chan m = s.chan m := (State.chan_modChan_ne _ _ h).trans (s.gateOff_chan_ne _ _ _ h)

/-- The dead time of `high` runs out. -/
theorem commutation_deadEnd {high : Bool} (hsafe : s.safeoff = false) (hincoming : (s.chan c).incoming = some high) :
    commutation c .deadEnd s = { s with now := max s.now ((s.chan c).deadAt / 2) }.turnOn c high := by
  unfold commutation
  simp only [hsafe, hincoming, Bool.false_eq_true, ite_false]
/-- A low side turns on, and a high side whose VH comparator is not armed or above its threshold (R203). -/
theorem State.turnOn_allowed {high : Bool}
    (h : high = false ∨ s.vhArmed c = false ∨ s.get (GD_CHSTAT_VHOK (c / 8) (c % 8)) = 1) : s.turnOn c high = s.gateOn c high := by
  unfold turnOn
  rw [if_neg]
  rcases h with h | h | h <;> simp [h, State.bit]
/-- A high side below the threshold of an armed VH comparator trips (R203). -/
theorem State.turnOn_starved (harmed : s.vhArmed c = true) (hvhok : s.get (GD_CHSTAT_VHOK (c / 8) (c % 8)) = 0) :
    s.turnOn c true = (s.modChan c (fun x => { x with incoming := none })).vhTrip c := by
  unfold turnOn
  rw [if_pos]
  simp [harmed, hvhok, State.bit]

/-! ### A local trip (R210) -/

/-- Where the field's bits are set they read 1. -/
theorem getLsbD_or_ofNat (v : Word) {n i : Nat} (hi : i < 32) (h : n.testBit i = true) :
    (v ||| BitVec.ofNat 32 n).getLsbD i = true := by
  rw [BitVec.getLsbD_or, BitVec.getLsbD_ofNat, h, decide_eq_true hi, Bool.and_true, Bool.or_true]
/-- The latch bits that a trip sets in GDg_CHSTATk: TRIPPED at bit 0, and `bits` from bit 1 on. -/
theorem State.get_latchTrip (hc : c < 32) (s : State) {bits i : Nat} (hi : i < 15) (h : (bits * 2 + 1).testBit i = true) :
    (s.latchTrip c bits).get ⟨GD_CHSTAT (c / 8) (c % 8), i, i⟩ = 1 := by
  unfold latchTrip
  extract_lets a s1 s2
  have hword : ((s2.inc (GD_TRIPCNT_V (c / 8) (c % 8))).force c mKilled false
      (bits % 16 != 0 && s2.bit (GD_CFG_STO (c / 8)))).rd a = s.rd a ||| BitVec.ofNat 32 (bits * 2 + 1) := by
    rw [State.force_rd (GD_CHSTAT_notMem_chanWords c (by omega))]
    exact (State.rd_put_word _ (by decide) (by subst a; unfold GD_CHSTAT GD_TRIPCNT; omega)).trans ((s.noteArmed c).rd_wr_same a _)
  refine (State.get_flag_field _ _ (decide_eq_true (by omega))).trans ?_
  have hbit := fieldOf_bit (a := a) (i := i) (s.rd a ||| BitVec.ofNat 32 (bits * 2 + 1))
  rw [getLsbD_or_ofNat _ (by omega) h] at hbit
  unfold State.get
  rw [if_pos (by dsimp only; omega), hword]
  exact hbit
theorem State.latchTrip_highOn (hc : c < 32) {bits : Nat} (h : (s.chan c).h.on = false) :
    ((s.latchTrip c bits).chan c).h.on = false := by
  have hforced (t : State) (low soft : Bool) (ht : (t.chan c).h.on = false) :
      ((t.force c mKilled low soft).chan c).h.on = false :=
    Bool.eq_false_iff.mpr (fun hon => absurd ((Subdued.refl t).force (by omega) mKilled low soft |>.highOn c hon) (by simp [ht]))
  have harmed : ((s.noteArmed c).chan c).h.on = false :=
    Bool.eq_false_iff.mpr (fun hon => absurd (((Subdued.refl s).noteArmed c).highOn c hon) (by simp [h]))
  unfold latchTrip
  extract_lets a s1 s2
  have hcounted : ((s2.inc (GD_TRIPCNT_V (c / 8) (c % 8))).chan c).h.on = false := by rw [State.inc_chan]; exact harmed
  rw [State.syncActive, State.flag_chan]
  exact hforced _ _ _ hcounted
/-- A VH trip leaves the high side off, and TRIPPED and VHUV set (R203, R210). -/
theorem State.vhTrip_latched (hc : c < 32) (h : (s.chan c).h.on = false) : ((s.vhTrip c).chan c).h.on = false ∧
    (s.vhTrip c).get (GD_CHSTAT_TRIPPED (c / 8) (c % 8)) = 1 ∧ (s.vhTrip c).get (GD_CHSTAT_VHUV (c / 8) (c % 8)) = 1 := by
  have hafter : Subdued (s.latchTrip c 0x10) (s.vhTrip c) := ((Subdued.refl _).tripOwner c).raise ..
  have hword := hafter.held _ (heldWord_CHSTAT (g := c / 8) (k := c % 8) (by omega) (by omega))
  refine ⟨Bool.eq_false_iff.mpr (fun hon => absurd (hafter.highOn c hon) (by simp [State.latchTrip_highOn hc h])), ?_, ?_⟩
  · exact (State.get_of_rd (by decide) hword).trans (State.get_latchTrip hc s (by decide) (by decide))
  · exact (State.get_of_rd (by decide) hword).trans (State.get_latchTrip hc s (by decide) (by decide))

/-! ### The groups' configuration (R194 to R196) -/

variable {g : Nat} {r : PwmgReg} {v : Word}

/-- A field of the bits that `m` takes from the word written. -/
theorem fieldOf_merge {a hi lo : Nat} (x k v m : Word)
    (h : ∀ i : Fin 32, lo ≤ i → i ≤ hi → k.getLsbD i = false ∧ m.getLsbD i = true) (hw : hi < 32) :
    fieldOf ((x &&& k) ||| (v &&& m)) ⟨a, hi, lo⟩ = fieldOf v ⟨a, hi, lo⟩ := by
  apply Nat.eq_of_testBit_eq
  intro i
  unfold fieldOf
  rw [testBit_bitsOf, testBit_bitsOf]
  by_cases hi' : i < hi + 1 - lo
  · obtain ⟨hk, hm⟩ := h ⟨i + lo, by omega⟩ (by dsimp only; omega) (by dsimp only; omega)
    dsimp only at hk hm
    simp only [BitVec.testBit_toNat, BitVec.getLsbD_and, BitVec.getLsbD_or, hk, hm, Bool.and_false, Bool.and_true, Bool.false_or]
  · simp [hi']
theorem fieldOf_and {a hi lo : Nat} (v m : Word) (h : ∀ i : Fin 32, lo ≤ i → i ≤ hi → m.getLsbD i = true) (hw : hi < 32) :
    fieldOf (v &&& m) ⟨a, hi, lo⟩ = fieldOf v ⟨a, hi, lo⟩ := by
  have hmerge := fieldOf_merge (a := a) 0#32 0#32 v m (fun i hlo hhi => ⟨BitVec.getLsbD_zero, h i hlo hhi⟩) hw
  rwa [BitVec.and_zero, BitVec.zero_or] at hmerge
theorem State.get_eq_fieldOf {f : Fld} (s : State) (hw : f.hi < 32) : s.get f = fieldOf (s.rd f.a) f := if_pos hw
theorem fieldOf_ofNat_half {a x : Nat} (h : x < 2 ^ 16) : fieldOf (BitVec.ofNat 32 x) ⟨a, 15, 0⟩ = x := by
  show (BitVec.ofNat 32 x).toNat / 2 ^ 0 % 2 ^ 16 = x
  rw [BitVec.toNat_ofNat]
  omega
theorem perOf_lt (P K : Nat) : perOf P K < 2 ^ 16 := Nat.lt_succ_of_le (Nat.min_le_right _ _)

theorem State.recomputePer_rd {b : Nat} (s : State) (hcfg : b ≠ PWMG_CFG g) (hper : b ≠ PWMG_PER g) :
    (s.recomputePer g).rd b = s.rd b :=
  (State.rd_put_word _ (by decide) hcfg).trans (s.rd_wr_ne _ hper)
/-- K, DT and every other field of PWMGg_CFG below CFGERR keep their value. -/
theorem State.recomputePer_cfg {hi lo : Nat} (s : State) (h : fieldsApart 31 31 hi lo = true) :
    (s.recomputePer g).get ⟨PWMG_CFG g, hi, lo⟩ = s.get ⟨PWMG_CFG g, hi, lo⟩ := by
  have hhi : hi < 32 := (of_decide_eq_true h).2.1
  refine (State.get_flag_field _ _ h).trans (State.get_of_rd hhi ?_)
  exact s.rd_wr_ne _ (by unfold PWMG_CFG PWMG_PER; omega)
/-- PER follows P and K (R196). -/
theorem State.recomputePer_PER (s : State) (g : Nat) :
    (s.recomputePer g).get (PWMG_PER_PER g) = perOf s.period (s.get (PWMG_CFG_K g)) := by
  have hrd : (s.recomputePer g).rd (PWMG_PER g) = BitVec.ofNat 32 (perOf s.period (s.get (PWMG_CFG_K g))) :=
    (State.rd_put_word _ (by decide) (by unfold PWMG_CFG PWMG_PER; omega)).trans (s.rd_wr_same _ _)
  rw [State.get_eq_fieldOf _ (f := PWMG_PER_PER g) (Nat.lt_of_sub_eq_succ rfl)]
  exact (congrArg (fieldOf · (PWMG_PER_PER g)) hrd).trans (fieldOf_ofNat_half (perOf_lt _ _))
/-- CFGERR follows P, K, DT and TREFRESH (R194). -/
theorem State.recomputePer_CFGERR (s : State) (g : Nat) : (s.recomputePer g).get (PWMG_CFG_CFGERR g) =
    if cfgErr s.period (s.get (PWMG_CFG_K g)) (s.get (PWMG_CFG_DT g)) (s.get (PWMG_REFR_TREFRESH g)) then 1 else 0 :=
  State.get_flag_word _ _ (by decide)

theorem pwmgConfigWrite_refused (h : s.groupUsed g = true ∨ s.pwmgValueOk g r v = false) :
    pwmgConfigWrite g r v s = s.put (PWMG_STAT_REFUSED g) 1 := by
  unfold pwmgConfigWrite
  rw [if_pos]
  rcases h with h | h <;> simp [h]
section
variable (hfree : s.groupUsed g = false)
include hfree

theorem pwmgConfigWrite_cfg (hK : 1 ≤ fieldOf v (PWMG_CFG_K g)) (hK' : fieldOf v (PWMG_CFG_K g) ≤ 64)
    (hmpm : fieldOf v (PWMG_CFG_MPM g) ≤ 2) : pwmgConfigWrite g .cfg v s =
      (s.wr (PWMG_CFG g) ((s.rd (PWMG_CFG g) &&& 0x80000000#32) ||| (v &&& 0x3FFFF7F#32))).recomputePer g := by
  unfold pwmgConfigWrite
  rw [if_neg]
  simp [hfree, State.pwmgValueOk, hK, hK', hmpm]
theorem pwmgConfigWrite_phofs (hg : g ≠ 0) (hofs : fieldOf v (PWMG_PHOFS_PHOFS g) < 2 * s.period) :
    pwmgConfigWrite g .phofs v s = s.wr (PWMG_PHOFS g) (v &&& 0x1FFFFF#32) := by
  unfold pwmgConfigWrite
  rw [if_neg]
  · exact if_neg hg
  · simp [hfree, State.pwmgValueOk, hofs]
theorem pwmgConfigWrite_refr (hmin : 10 ≤ fieldOf v (PWMG_REFR_TREFRESH g)) (hmax : fieldOf v (PWMG_REFR_TREFRESH g) ≤ 1000)
    (hn : fieldOf v (PWMG_REFR_REFRESHN g) ≠ 0) :
    pwmgConfigWrite g .refr v s = (s.wr (PWMG_REFR g) (v &&& 0x3FFFF#32)).recomputePer g := by
  unfold pwmgConfigWrite
  rw [if_neg]
  simp [hfree, State.pwmgValueOk, hmin, hmax, hn]
end

/-! ### The commands -/

theorem refreshInsert_rows (hup : s.up = true) {c : Fin 32} {a : Nat} (hboot : s.get (PWMG_STAT_BOOT (c.val / 8)) = 1)
    (hrun : s.get (PWMG_STAT_RUN (c.val / 8)) = 1) (hon : (s.chan c).h.on = true) (hskip : (s.chan c).skip = true)
    (hedges : (s.chan c).edges = []) (hincoming : (s.chan c).incoming = none) (hrefresh : (s.chan c).refresh = false)
    (hlow : (s.chan c).lowLen = none) (hmode : s.get (PWM_STAT_MODE c) = mSwitch)
    (hdue : s.get (PWMG_REFR_REFRESHN (c.val / 8)) ≤ (s.chan c).noLow) (hdt : s.get (PWMG_CFG_DT (c.val / 8)) ≠ 0)
    (ha : a = s.naturalValley (c.val / 8) - 8 * s.get (PWMG_REFR_TREFRESH (c.val / 8)) / 2 - 8 * s.get (PWMG_CFG_DT (c.val / 8))) :
    ∃ t, exec (.refreshInsert c) s = .next t ∧ (t.chan c).h.on = false ∧ (t.chan c).l.on = (s.chan c).l.on ∧
      (t.chan c).incoming = some false ∧ (t.chan c).refresh = true ∧ t.now = max s.now (a / 2) ∧
      (t.chan c).deadAt = max (2 * t.now) a + 8 * s.get (PWMG_CFG_DT (c.val / 8)) ∧
      (∀ b, b ≠ CMP_SST c → t.rd b = s.rd b) ∧ ∀ m : Nat, m ≠ c.val → t.chan m = s.chan m := by
  have heq : s.effect (refreshInsert c) = s.effect (State.refreshStart · c a) := State.effect_congr
    (refreshInsert_eq hboot hrun hon hskip hedges hincoming hrefresh hlow hmode hdue hdt ha)
  obtain ⟨hhigh, hlowOn⟩ := s.refreshStart_off c a
  obtain ⟨hcoming, hpulse, hdead⟩ := s.refreshStart_incoming c a
  exact ⟨_, (live_next hup _).trans (congrArg _ heq), hhigh, hlowOn, hcoming, hpulse, s.refreshStart_now c a, hdead,
    fun b hb => s.refreshStart_rd a hb, fun m hm => s.refreshStart_chan_ne a hm⟩
theorem commutation_edge_rows (hup : s.up = true) {c : Fin 32} {a : Nat} {toHigh : Bool} {rest : List (Nat × Bool)}
    (hsafe : s.safeoff = false) (hedges : (s.chan c).edges = (a, toHigh) :: rest)
    (hoff : ((s.chan c).gate toHigh).on = false) (hdt : s.get (PWMG_CFG_DT (c.val / 8)) ≠ 0) :
    ∃ t, exec (.commutation c (.edge toHigh)) s = .next t ∧ (t.chan c).h.on = false ∧ (t.chan c).l.on = false ∧
      (t.chan c).incoming = some toHigh ∧ (t.chan c).edges = rest ∧ t.now = max s.now (a / 2) ∧
      (t.chan c).deadAt = max (2 * t.now) a + 8 * s.get (PWMG_CFG_DT (c.val / 8)) ∧
      ∀ m : Nat, m ≠ c.val → t.chan m = s.chan m := by
  have heq : s.effect (commutation c (.edge toHigh)) = s.effect (fun u => (u.edgeTaken c a rest).deadStart c a toHigh) :=
    State.effect_congr (commutation_edge_off hsafe hedges hoff hdt)
  obtain ⟨hh, hl, hedge⟩ := s.edgeTaken_gates c a rest
  have hgate : (((s.edgeTaken c a rest).chan c).gate toHigh).on = false := by
    unfold PwmChan.gate at hoff ⊢; rwa [hh, hl]
  obtain ⟨hhigh, hlow⟩ := State.deadStart_off a hgate
  obtain ⟨hcoming, hrest, hdead⟩ := (s.edgeTaken c a rest).deadStart_incoming c a toHigh
  exact ⟨_, (live_next hup _).trans (congrArg _ heq), hhigh, hlow, hcoming, hrest.trans hedge,
    (s.edgeTaken c a rest).deadStart_now c a toHigh, hdead, fun m hm => (State.deadStart_chan_ne _ _ _ hm).trans (s.edgeTaken_chan_ne a rest hm)⟩
theorem commutation_edge_taken (hup : s.up = true) {c : Fin 32} {a : Nat} {toHigh : Bool} {rest : List (Nat × Bool)}
    (hsafe : s.safeoff = false) (hedges : (s.chan c).edges = (a, toHigh) :: rest)
    (hon : ((s.chan c).gate toHigh).on = true) :
    ∃ t, exec (.commutation c (.edge toHigh)) s = .next t ∧ (t.chan c).h = (s.chan c).h ∧ (t.chan c).l = (s.chan c).l ∧
      (t.chan c).edges = rest ∧ t.now = max s.now (a / 2) ∧ t.regs = s.regs := by
  have heq : s.effect (commutation c (.edge toHigh)) = s.effect (State.edgeTaken · c a rest) :=
    State.effect_congr (commutation_edge_on hsafe hedges hon)
  obtain ⟨hh, hl, hedge⟩ := s.edgeTaken_gates c a rest
  exact ⟨_, (live_next hup _).trans (congrArg _ heq), hh, hl, hedge, rfl, rfl⟩
theorem commutation_deadEnd_rows (hup : s.up = true) {c : Fin 32} {high : Bool} (hsafe : s.safeoff = false)
    (hincoming : (s.chan c).incoming = some high) (hh : (s.chan c).h.on = false) (hl : (s.chan c).l.on = false)
    (hallowed : high = false ∨ s.vhArmed c = false ∨ s.get (GD_CHSTAT_VHOK (c.val / 8) (c.val % 8)) = 1) :
    ∃ t, exec (.commutation c .deadEnd) s = .next t ∧ (t.chan c).h.on = high ∧ (t.chan c).l.on = (!high) ∧
      (t.chan c).incoming = none ∧ t.now = max s.now ((s.chan c).deadAt / 2) ∧ t.regs = s.regs ∧
      ∀ m : Nat, m ≠ c.val → t.chan m = s.chan m := by
  have heq : s.effect (commutation c .deadEnd) =
      s.effect (fun u => { u with now := max s.now ((s.chan c).deadAt / 2) }.gateOn c high) :=
    State.effect_congr ((commutation_deadEnd hsafe hincoming).trans (State.turnOn_allowed hallowed))
  obtain ⟨hhigh, hlow, hcoming⟩ := State.gateOn_gates { s with now := max s.now ((s.chan c).deadAt / 2) } c high hh hl
  exact ⟨_, (live_next hup _).trans (congrArg _ heq), hhigh, hlow, hcoming, State.now_eq_of_clock (State.gateOn_clock _ _ _),
    State.gateOn_regs _ _ _, fun m hm => State.gateOn_chan_ne _ _ hm⟩
theorem commutation_trip_rows (hup : s.up = true) {c : Fin 32} (hsafe : s.safeoff = false)
    (hincoming : (s.chan c).incoming = some true) (harmed : s.vhArmed c = true) (hh : (s.chan c).h.on = false)
    (hvhok : s.get (GD_CHSTAT_VHOK (c.val / 8) (c.val % 8)) = 0) :
    ∃ t, exec (.commutation c .deadEnd) s = .next t ∧ (t.chan c).h.on = false ∧
      t.get (GD_CHSTAT_TRIPPED (c.val / 8) (c.val % 8)) = 1 ∧ t.get (GD_CHSTAT_VHUV (c.val / 8) (c.val % 8)) = 1 := by
  have heq : s.effect (commutation c .deadEnd) = s.effect (fun u =>
      ({ u with now := max s.now ((s.chan c).deadAt / 2) }.modChan c (fun x => { x with incoming := none })).vhTrip c) :=
    State.effect_congr ((commutation_deadEnd hsafe hincoming).trans (State.turnOn_starved harmed hvhok))
  have hoff : ((({ s with now := max s.now ((s.chan c).deadAt / 2) } : State).modChan c
      (fun x => { x with incoming := none })).chan c).h.on = false := by rw [State.chan_modChan_same]; exact hh
  exact ⟨_, (live_next hup _).trans (congrArg _ heq), State.vhTrip_latched c.isLt hoff⟩

/-- A command whose effect is `t`, with what is said of `t`. -/
theorem live_exists {s t : State} {f : State → State} {P : State → Prop} (hup : s.up = true) (h : f s = t)
    (hP : P (s.effect (fun _ => t))) : ∃ u, live s f = .next u ∧ P u :=
  ⟨_, (live_next hup f).trans (congrArg _ (State.effect_congr (g := fun _ => t) h)), hP⟩

section
variable (hup : s.up = true) {g : Fin 4} (hfree : s.groupUsed g = false)
include hup

theorem pwmgConfigWrite_refused_rows (h : s.groupUsed g = true ∨ s.pwmgValueOk g r v = false) :
    ∃ t, exec (.pwmgConfigWrite g r v) s = .next t ∧ t.get (PWMG_STAT_REFUSED g) = 1 ∧
      ∀ a, a ≠ PWMG_STAT g → t.rd a = s.rd a := by
  refine live_exists hup (pwmgConfigWrite_refused h) ⟨?_, fun a ha => ?_⟩
  · rw [State.effect_get]; exact s.get_put_word 1 (by decide) (by decide)
  · rw [State.effect_rd]; exact State.rd_put_word 1 (by decide) ha
include hfree

theorem pwmgConfigWrite_cfg_rows (hK : 1 ≤ fieldOf v (PWMG_CFG_K g)) (hK' : fieldOf v (PWMG_CFG_K g) ≤ 64)
    (hmpm : fieldOf v (PWMG_CFG_MPM g) ≤ 2) :
    ∃ t, exec (.pwmgConfigWrite g .cfg v) s = .next t ∧ t.get (PWMG_CFG_K g) = fieldOf v (PWMG_CFG_K g) ∧
      t.get (PWMG_CFG_DT g) = fieldOf v (PWMG_CFG_DT g) ∧ t.get (PWMG_PER_PER g) = perOf s.period (fieldOf v (PWMG_CFG_K g)) ∧
      t.get (PWMG_CFG_CFGERR g) = (if cfgErr s.period (fieldOf v (PWMG_CFG_K g)) (fieldOf v (PWMG_CFG_DT g))
        (s.get (PWMG_REFR_TREFRESH g)) then 1 else 0) ∧
      ∀ a, a ≠ PWMG_CFG g → a ≠ PWMG_PER g → t.rd a = s.rd a := by
  refine live_exists hup (pwmgConfigWrite_cfg hfree hK hK' hmpm) ?_
  simp only [State.effect_get, State.effect_rd]
  generalize hu : s.wr (PWMG_CFG g) ((s.rd (PWMG_CFG g) &&& 0x80000000#32) ||| (v &&& 0x3FFFF7F#32)) = u
  have hrd {b : Nat} (hb : b ≠ PWMG_CFG g) : u.rd b = s.rd b := by rw [← hu]; exact s.rd_wr_ne _ hb
  have hfield {hi lo : Nat} (hw : hi < 32)
      (hm : ∀ i : Fin 32, lo ≤ i → i ≤ hi → (0x80000000#32).getLsbD i = false ∧ (0x3FFFF7F#32).getLsbD i = true) :
      u.get ⟨PWMG_CFG g, hi, lo⟩ = fieldOf v ⟨PWMG_CFG g, hi, lo⟩ := by
    rw [← hu]; exact (s.get_wr_eq _ rfl hw).trans (fieldOf_merge _ _ _ _ hm hw)
  have hK1 : u.get (PWMG_CFG_K g) = fieldOf v (PWMG_CFG_K g) := hfield (by decide) (by decide)
  have hDT : u.get (PWMG_CFG_DT g) = fieldOf v (PWMG_CFG_DT g) := hfield (by decide) (by decide)
  have hperiod : u.period = s.period :=
    State.period_congr (State.get_of_rd (by decide) (hrd (by unfold CT_TICKCFG PWMG_CFG; omega)))
  have hrefr : u.get (PWMG_REFR_TREFRESH g) = s.get (PWMG_REFR_TREFRESH g) :=
    State.get_of_rd (Nat.lt_of_sub_eq_succ rfl) (hrd (by unfold PWMG_REFR PWMG_CFG; omega))
  refine ⟨(u.recomputePer_cfg rfl).trans hK1, (u.recomputePer_cfg rfl).trans hDT, ?_, ?_,
    fun a hcfg hper => (u.recomputePer_rd hcfg hper).trans (hrd hcfg)⟩
  · rw [u.recomputePer_PER g, hK1, hperiod]
  · rw [u.recomputePer_CFGERR g, hK1, hDT, hperiod, hrefr]
theorem pwmgConfigWrite_phofs_rows (hg : g ≠ 0) (hofs : fieldOf v (PWMG_PHOFS_PHOFS g) < 2 * s.period) :
    ∃ t, exec (.pwmgConfigWrite g .phofs v) s = .next t ∧ t.get (PWMG_PHOFS_PHOFS g) = fieldOf v (PWMG_PHOFS_PHOFS g) ∧
      ∀ a, a ≠ PWMG_PHOFS g → t.rd a = s.rd a := by
  refine live_exists hup (pwmgConfigWrite_phofs hfree (Fin.val_ne_zero_iff.mpr hg) hofs) ⟨?_, fun a ha => ?_⟩
  · rw [State.effect_get]
    exact (s.get_wr_eq _ rfl (Nat.lt_of_sub_eq_succ rfl)).trans (fieldOf_and _ _ (by decide) (by decide))
  · rw [State.effect_rd]; exact s.rd_wr_ne _ ha
theorem pwmgConfigWrite_refr_rows (hmin : 10 ≤ fieldOf v (PWMG_REFR_TREFRESH g))
    (hmax : fieldOf v (PWMG_REFR_TREFRESH g) ≤ 1000) (hn : fieldOf v (PWMG_REFR_REFRESHN g) ≠ 0) :
    ∃ t, exec (.pwmgConfigWrite g .refr v) s = .next t ∧ t.get (PWMG_REFR_TREFRESH g) = fieldOf v (PWMG_REFR_TREFRESH g) ∧
      t.get (PWMG_REFR_REFRESHN g) = fieldOf v (PWMG_REFR_REFRESHN g) := by
  refine live_exists hup (pwmgConfigWrite_refr hfree hmin hmax hn) ?_
  simp only [State.effect_get]
  have hfield {hi lo : Nat} (hw : hi < 32) (hm : ∀ i : Fin 32, lo ≤ i → i ≤ hi → (0x3FFFF#32).getLsbD i = true) :
      ((s.wr (PWMG_REFR g) (v &&& 0x3FFFF#32)).recomputePer g).get ⟨PWMG_REFR g, hi, lo⟩ = fieldOf v ⟨PWMG_REFR g, hi, lo⟩ := by
    refine (State.get_of_rd hw (State.recomputePer_rd _ ?_ ?_)).trans ((s.get_wr_eq _ rfl hw).trans (fieldOf_and _ _ hm hw))
    · unfold PWMG_REFR PWMG_CFG; omega
    · unfold PWMG_REFR PWMG_PER; omega
  exact ⟨hfield (by decide) (by decide), hfield (by decide) (by decide)⟩
end

end

/-- Settles O43: each row by the lemma that says what its command does, its effect read off the operation's own lemmas. -/
theorem commutationRows : Obligations.CommutationRows := by
  have hidle {s : State} {f : State → State} (hup : s.up = true) (h : f s = s) : live s f = .next s :=
    (live_next hup f).trans (congrArg _ (State.effect_of_eq h))
  refine ⟨fun s c hup => ⟨?_, ?_, ?_, ?_, ?_, ?_, ?_⟩, fun s g v hup => ⟨?_, ?_, ?_, ?_⟩⟩
  · intro a hboot hrun hon hskip hedges hincoming hrefresh hlow hmode hdue hdt ha
    exact refreshInsert_rows hup hboot hrun hon hskip hedges hincoming hrefresh hlow hmode hdue hdt ha
  · exact fun h => hidle hup (refreshInsert_idle h)
  · exact fun a toHigh rest hsafe hedges hoff hdt => commutation_edge_rows hup hsafe hedges hoff hdt
  · exact fun a toHigh rest hsafe hedges hon => commutation_edge_taken hup hsafe hedges hon
  · exact fun high hsafe hincoming hh hl hallowed => commutation_deadEnd_rows hup hsafe hincoming hh hl hallowed
  · exact fun hsafe hincoming harmed hh hvhok => commutation_trip_rows hup hsafe hincoming harmed hh hvhok
  · exact fun e hsafe => hidle hup (commutation_safeoff e hsafe)
  · exact fun r h => pwmgConfigWrite_refused_rows hup h
  · exact fun hfree hK hK' hmpm => pwmgConfigWrite_cfg_rows hup hfree hK hK' hmpm
  · exact fun hfree hg hofs => pwmgConfigWrite_phofs_rows hup hfree hg hofs
  · exact fun hfree hmin hmax hn => pwmgConfigWrite_refr_rows hup hfree hmin hmax hn

end Sys2Proof.Machine
end

section
/-! PROOFS. What the modulator changes at a valley and at a peak (R184 to R193): one channel, in its record and in its own
words. One lemma per operation, in the order of the model. -/
namespace Sys2Proof.Machine

/-- A word of channel `c`: in the modulator, or the state of its comparators. -/
def ChanWord (c b : Nat) : Prop := (PWM_CMP c ≤ b ∧ b < PWM_CMP c + 0x40) ∨ b = CMP_SST c
/-- A field that the pulses of a period of channel `c` are written to: neither REFRESHED nor REFRESH_INSERTED. -/
def Fld.OfPulses (c : Nat) (f : Fld) : Prop :=
  f.hi < 32 ∧ f.lo ≤ f.hi ∧ ChanWord c f.a ∧ f.a ≠ PWM_REFRESH_INSERTED c ∧ (f.a = PWM_STAT c → f.hi < 6)

theorem ofPulses_channel {c off hi lo : Nat} (h : hi < 32 ∧ lo ≤ hi ∧ off < 0x18 ∧ (off = 8 → hi < 6)) :
    Fld.OfPulses c ⟨0x201000 + 0x40 * c + off, hi, lo⟩ := by
  unfold Fld.OfPulses ChanWord PWM_CMP PWM_REFRESH_INSERTED PWM_STAT; dsimp only; omega
theorem ofPulses_CMP_SST {c : Nat} (hc : c < 32) {i : Nat} (hi : i < 32) : Fld.OfPulses c ⟨CMP_SST c, i, i⟩ := by
  unfold Fld.OfPulses ChanWord CMP_SST PWM_REFRESH_INSERTED PWM_STAT; dsimp only; omega

/-- From `s` to `t` only the record and the words of channel `c` change; with `marks`, neither REFRESHED nor
REFRESH_INSERTED. -/
structure Modulated (marks : Bool) (c : Nat) (s t : State) : Prop where
  groups : t.groups = s.groups
  clock : t.clock = s.clock
  rd : ∀ b, ¬ ChanWord c b → t.rd b = s.rd b
  chan : ∀ m, m ≠ c → t.chan m = s.chan m
  refreshed : marks = true → t.get (PWM_STAT_REFRESHED c) = s.get (PWM_STAT_REFRESHED c)
  inserted : marks = true → t.get (PWM_REFRESH_INSERTED_V c) = s.get (PWM_REFRESH_INSERTED_V c)

namespace Modulated
variable {p : Bool} {c : Nat} {o s t : State}

theorem refl (p : Bool) (c : Nat) (s : State) : Modulated p c s s :=
  ⟨rfl, rfl, fun _ _ => rfl, fun _ _ => rfl, fun _ => rfl, fun _ => rfl⟩
theorem trans (h : Modulated p c o s) (g : Modulated p c s t) : Modulated p c o t :=
  ⟨g.groups.trans h.groups, g.clock.trans h.clock, fun b hb => (g.rd b hb).trans (h.rd b hb),
    fun m hm => (g.chan m hm).trans (h.chan m hm), fun hp => (g.refreshed hp).trans (h.refreshed hp),
    fun hp => (g.inserted hp).trans (h.inserted hp)⟩
/-- With the marks of the refresh pulse left out of account. -/
theorem unmarked (h : Modulated p c s t) : Modulated false c s t := ⟨h.groups, h.clock, h.rd, h.chan, nofun, nofun⟩
theorem ite {q : Prop} [Decidable q] (hs : q → Modulated p c o s) (ht : ¬ q → Modulated p c o t) :
    Modulated p c o (if q then s else t) := State.ite_holds hs ht

/-! ### The base operations -/

theorem put (h : Modulated p c o s) {f : Fld} (v : Nat) (hf : f.OfPulses c) : Modulated p c o (s.put f v) := by
  obtain ⟨hhi, hlo, hword, hinserted, hmark⟩ := hf
  refine h.trans ⟨s.put_groups f v, s.put_clock f v, fun b hb => s.rd_put_ne' v hhi (fun e => hb (e ▸ hword)),
    fun m _ => s.put_chan f v m, fun _ => ?_, fun _ => s.get_put_ne v hhi (Nat.lt_of_sub_eq_succ rfl) hinserted.symm⟩
  by_cases ha : PWM_STAT c = f.a
  · exact s.get_put_disjoint v hhi (Nat.lt_of_sub_eq_succ rfl) ha hlo (Or.inr (hmark ha.symm))
  · exact s.get_put_ne v hhi (Nat.lt_of_sub_eq_succ rfl) ha
theorem flag (h : Modulated p c o s) {f : Fld} (b : Bool) (hf : f.OfPulses c) : Modulated p c o (s.flag f b) := h.put _ hf
theorem puti (h : Modulated p c o s) {f : Fld} (v : Int) (hf : f.OfPulses c) : Modulated p c o (s.puti f v) := h.put _ hf
theorem inc (h : Modulated p c o s) {f : Fld} (k : Nat) (hf : f.OfPulses c) : Modulated p c o (s.inc f k) := h.put _ hf
/-- A write of any field of the channel's own words. -/
theorem putMark (h : Modulated false c o s) {f : Fld} (v : Nat) (hhi : f.hi < 32) (hword : ChanWord c f.a) :
    Modulated false c o (s.put f v) :=
  h.trans ⟨s.put_groups f v, s.put_clock f v, fun _ hb => s.rd_put_ne' v hhi (fun e => hb (e ▸ hword)),
    fun m _ => s.put_chan f v m, nofun, nofun⟩
theorem wrCarry (h : Modulated p c o s) (v : Word) : Modulated p c o (s.wr (PWM_CARRY c) v) := by
  have hword : ChanWord c (PWM_CARRY c) := by unfold ChanWord PWM_CMP PWM_CARRY; omega
  have hne {b : Nat} (hb : b ≠ PWM_CARRY c) : (s.wr (PWM_CARRY c) v).rd b = s.rd b := s.rd_wr_ne v hb
  exact h.trans ⟨s.wr_groups .., s.wr_clock .., fun b hb => hne (fun e => hb (e ▸ hword)), fun m _ => s.wr_chan ..,
    fun _ => State.get_of_rd (by decide) (hne (by unfold PWM_STAT PWM_CARRY; omega)),
    fun _ => State.get_of_rd (by decide) (hne (by unfold PWM_REFRESH_INSERTED PWM_CARRY; omega))⟩
theorem setChan (h : Modulated p c o s) (x : PwmChan) : Modulated p c o (s.setChan c x) :=
  h.trans ⟨rfl, s.setChan_clock .., fun _ _ => rfl, fun _ hm => State.chan_setChan_ne _ _ hm, fun _ => rfl, fun _ => rfl⟩
theorem modChan (h : Modulated p c o s) (f : PwmChan → PwmChan) : Modulated p c o (s.modChan c f) := h.setChan _

/-! ### Gates (R187, R192) -/

theorem gateOff (h : Modulated p c o s) (hc : c < 32) (high trip soft : Bool) :
    Modulated p c o (s.gateOff c high trip soft) := by
  have hraw : Modulated p c o (s.put (if high then CMP_SST_RAWH c else CMP_SST_RAWL c) 0) := by
    cases high
    · exact h.put 0 (ofPulses_CMP_SST hc (by decide))
    · exact h.put 0 (ofPulses_CMP_SST hc (by decide))
  unfold State.gateOff
  exact ite (fun _ => h) (fun _ => hraw.modChan _)
theorem gateOn (h : Modulated p c o s) (high : Bool) : Modulated p c o (s.gateOn c high) := by
  unfold State.gateOn
  exact ite (fun _ => h) (fun _ => h.setChan _)
theorem force (h : Modulated p c o s) (hc : c < 32) (mode : Nat) (low soft : Bool) :
    Modulated p c o (s.force c mode low soft) := by
  unfold State.force
  extract_lets x td s1 s2 s3 s4 wait s5
  have hmode : Modulated p c o s1 := h.put mode (ofPulses_channel (by decide))
  have hcarry : Modulated p c o s2 := ite (fun _ => hmode) (fun _ => hmode.wrCarry 0)
  have hhigh : Modulated p c o s3 := hcarry.gateOff hc ..
  have hlow : Modulated p c o s4 := ite (fun _ => hhigh) (fun _ => hhigh.gateOff hc ..)
  have hset : Modulated p c o s5 := hlow.modChan _
  exact ite (fun _ => hset.gateOn _) (fun _ => hset)

/-! ### The pulses of a period (R184 to R190) -/

theorem countPulse (h : Modulated p c o s) (dropped stretched : Bool) : Modulated p c o (s.countPulse c dropped stretched) := by
  unfold State.countPulse
  extract_lets s1
  have hdropped : Modulated p c o s1 := ite (fun _ =>
    (h.put 1 (f := PWM_STAT_DROPPED c) (ofPulses_channel (by decide))).inc 1 (ofPulses_channel (by decide))) (fun _ => h)
  exact ite (fun _ => (hdropped.put 1 (f := PWM_STAT_STRETCHED c) (ofPulses_channel (by decide))).inc 1
    (ofPulses_channel (by decide))) (fun _ => hdropped)
theorem putCarry (h : Modulated p c o s) (v : Int) : Modulated p c o (s.puti (PWM_CARRY_V c) v) :=
  h.puti v (ofPulses_channel (by decide))
theorem lowPulse (h : Modulated p c o s) (e : PulseEnv) (close fall : Nat) (len : Int) (tick : Bool) :
    Modulated p c o (s.lowPulse c e close fall len tick) := by
  unfold State.lowPulse
  exact ite (fun _ => h.modChan _) (fun _ =>
    ite (fun _ => ((h.countPulse ..).putCarry _).modChan _) (fun _ => (h.countPulse ..).modChan _))
theorem settleLow (h : Modulated p c o s) (e : PulseEnv) (V : Nat) (corr : Int) : Modulated p c o (s.settleLow c e V corr) := by
  unfold State.settleLow
  split
  · exact h
  · exact modChan (ite (fun _ => h.putCarry _) (fun _ => h)) _
  · exact ite (fun _ => ((h.countPulse ..).putCarry _).modChan _) (fun _ => (h.countPulse ..).modChan _)
theorem switchPulses (h : Modulated p c o s) (e : PulseEnv) (V cmp : Nat) (stay first double tick : Bool) :
    Modulated p c o (s.switchPulses c e V cmp stay first double tick) := by
  unfold State.switchPulses
  extract_lets x carry owedHigh owedLow want s1 fall0 rise0 r rise fall s2
  have hbegun : Modulated p c o s1 := (h.putCarry 0).modChan _
  have hrisen : Modulated p c o s2 := (hbegun.countPulse ..).modChan _
  exact ite (fun _ => (hbegun.putCarry _).modChan _) (fun _ => ite (fun _ => (hbegun.countPulse ..).putCarry _)
    (fun _ => ite (fun _ => hrisen.modChan _) (fun _ => hrisen.lowPulse ..)))
theorem switchPeriod (h : Modulated p c o s) (corr : Int) : Modulated p c o (s.switchPeriod c corr) := by
  unfold State.switchPeriod
  extract_lets g x e V mode cmp fresh first tick s1 s2 s3 stay s4 double out short r s5
  have hsettled : Modulated p c o s1 := (h.put cmp (f := PWM_CMP_CMP c) (ofPulses_channel (by decide))).settleLow ..
  have hfresh : Modulated p c o s2 := ite (fun _ => hsettled.gateOn _) (fun _ => hsettled)
  have hrefresh : Modulated p c o s3 := ite (fun _ => hfresh.modChan _) (fun _ => hfresh)
  have hswitch : Modulated p c o s4 := hrefresh.put mSwitch (ofPulses_channel (by decide))
  have hout : Modulated p c o s5 := ite (fun _ => hswitch) (fun _ =>
    ite (fun _ => (hswitch.countPulse ..).putCarry _) (fun _ => hswitch.modChan _))
  exact ite
    (fun _ => ((hrefresh.put mHighon (f := PWM_STAT_MODE c) (ofPulses_channel (by decide))).wrCarry 0).modChan _)
    (fun _ => ite (fun _ => (hswitch.wrCarry 0).modChan _) (fun _ => (hout.switchPulses ..).modChan _))
theorem peakUpdate (h : Modulated p c o s) : Modulated p c o (s.peakUpdate c) := by
  unfold State.peakUpdate
  extract_lets g x mode cmp e V tick s1 s2 s3
  have htaken : Modulated p c o s1 := (h.put cmp (f := PWM_CMP_CMP c) (ofPulses_channel (by decide))).modChan _
  have hswitch : Modulated p c o s2 := htaken.put mSwitch (ofPulses_channel (by decide))
  have hcarry : Modulated p c o s3 := ite (fun _ => hswitch.wrCarry 0) (fun _ => hswitch)
  refine ite (fun _ => ite (fun _ => ?_) (fun _ => ?_)) (fun _ => h)
  · exact ((htaken.put mHighon (f := PWM_STAT_MODE c) (ofPulses_channel (by decide))).wrCarry 0).modChan _
  · split
    · exact hcarry
    · exact hcarry.lowPulse ..
theorem stopChan (h : Modulated p c o s) (hc : c < 32) : Modulated p c o (s.stopChan c) := by
  unfold State.stopChan
  exact ite (fun _ => h.wrCarry 0) (fun _ => h.force hc ..)
end Modulated

/-! ### The start of a carrier period (R191, R193, R197) -/

section
variable {c : Nat} {s : State}

/-- The marks of the last period are cleared, and a refresh pulse is marked. -/
def State.clearMarks (s : State) (c : Nat) (refresh : Bool) : State :=
  ((s.flag (PWM_STAT_REFRESHED c) refresh).put (PWM_STAT_STRETCHED c) 0).put (PWM_STAT_DROPPED c) 0
/-- A refresh pulse is counted. -/
def State.countRefresh (s : State) (c : Nat) (refresh : Bool) : State :=
  if refresh then s.inc (PWM_REFRESH_INSERTED_V c) else s
/-- UPD, and the periods in which the low side has not conducted (R191). -/
def State.markUpd (s : State) (c : Nat) : State :=
  (s.flag (PWM_STAT_UPD c) (s.doubleUpd c)).modChan c
    (fun y => { y with noLow := if y.lowSeen || y.l.on then 0 else y.noLow + 1, lowSeen := y.l.on })
/-- The marks of the period that begins on channel `c`, with its refresh pulse counted. -/
def State.periodMarks (s : State) (c : Nat) : State :=
  ((s.clearMarks c (s.chan c).refresh).countRefresh c (s.chan c).refresh).markUpd c
/-- The mode that the modulator asked for, `want`, is taken on channel `c`. -/
def State.takeMode (s : State) (c want : Nat) (off : Bool) (corr : Int) : State :=
  if want = 0 then (if off then s else s.force c mOff false)
  else if want = 2 then (s.force c mLowon true).modChan c (fun y => { y with noLow := 0 })
  else s.switchPeriod c corr

theorem startPeriod_of_used {corr : Int} (hmode : s.get (PWM_STAT_MODE c) ≠ mKilled) (hoos : s.get (GD_CHSTAT_OOS (c / 8) (c % 8)) = 0)
    (hused : s.chanUsed c = true) :
    s.startPeriod c corr = (s.periodMarks c).takeMode c (s.chan c).want (s.get (PWM_STAT_MODE c) = mOff) corr := by
  unfold State.startPeriod State.takeMode
  dsimp only
  rw [if_neg (by simp [hmode, hoos, hused, State.bit])]
  simp only [decide_eq_true_eq]
  rfl
theorem startPeriod_cases (s : State) (c : Nat) (corr : Int) : s.startPeriod c corr = s ∨
    ∃ off, s.startPeriod c corr = (s.periodMarks c).takeMode c (s.chan c).want off corr := by
  by_cases hidle : s.get (PWM_STAT_MODE c) = mKilled ∨ s.bit (GD_CHSTAT_OOS (c / 8) (c % 8)) = true ∨ s.chanUsed c = false
  · exact Or.inl (if_pos hidle)
  · simp only [not_or, State.bit, bne_iff_ne, not_not, Bool.not_eq_false] at hidle
    obtain ⟨hmode, hoos, hused⟩ := hidle
    exact Or.inr ⟨_, startPeriod_of_used hmode hoos hused⟩
theorem Modulated.periodMarks (s : State) (c : Nat) : Modulated false c s (s.periodMarks c) := by
  have hclear (r : Bool) : Modulated false c s (s.clearMarks c r) := by
    have hrefreshed : Modulated false c s (s.flag (PWM_STAT_REFRESHED c) r) := (Modulated.refl _ _ s).putMark _
      (Nat.lt_of_sub_eq_succ rfl) (by unfold ChanWord PWM_CMP PWM_STAT_REFRESHED PWM_STAT; dsimp only; omega)
    exact (hrefreshed.put 0 (f := PWM_STAT_STRETCHED c) (ofPulses_channel (by decide))).put 0 (ofPulses_channel (by decide))
  have hcount {t : State} (r : Bool) (h : Modulated false c s t) : Modulated false c s (t.countRefresh c r) :=
    .ite (fun _ => h.putMark _ (Nat.lt_of_sub_eq_succ rfl)
      (by unfold ChanWord PWM_CMP PWM_REFRESH_INSERTED_V PWM_REFRESH_INSERTED; dsimp only; omega)) (fun _ => h)
  have hupd {t : State} (h : Modulated false c s t) : Modulated false c s (t.markUpd c) := (h.putMark _
    (Nat.lt_of_sub_eq_succ rfl) (by unfold ChanWord PWM_CMP PWM_STAT_UPD PWM_STAT; dsimp only; omega)).modChan _
  exact hupd (hcount _ (hclear _))
theorem Modulated.takeMode {p : Bool} {o : State} (h : Modulated p c o s) (hc : c < 32) (want : Nat) (off : Bool) (corr : Int) :
    Modulated p c o (s.takeMode c want off corr) := by
  unfold State.takeMode
  exact .ite (fun _ => .ite (fun _ => h) (fun _ => h.force hc ..))
    (fun _ => .ite (fun _ => (h.force hc ..).modChan _) (fun _ => h.switchPeriod corr))
theorem Modulated.startPeriod (s : State) (hc : c < 32) (corr : Int) : Modulated false c s (s.startPeriod c corr) := by
  rcases startPeriod_cases s c corr with hidle | ⟨off, htaken⟩
  · rw [hidle]; exact .refl ..
  · rw [htaken]; exact (Modulated.periodMarks s c).takeMode hc ..

theorem State.clearMarks_rd {b : Nat} (s : State) (r : Bool) (h : b ≠ PWM_STAT c) : (s.clearMarks c r).rd b = s.rd b := by
  unfold clearMarks flag
  rw [rd_put_ne' (f := PWM_STAT_DROPPED c) _ _ (Nat.lt_of_sub_eq_succ rfl) h,
    rd_put_ne' (f := PWM_STAT_STRETCHED c) _ _ (Nat.lt_of_sub_eq_succ rfl) h,
    rd_put_ne' (f := PWM_STAT_REFRESHED c) _ _ (Nat.lt_of_sub_eq_succ rfl) h]
theorem State.countRefresh_rd {b : Nat} (s : State) (r : Bool) (h : b ≠ PWM_REFRESH_INSERTED c) :
    (s.countRefresh c r).rd b = s.rd b := by
  unfold countRefresh inc
  rw [ite_rd, rd_put_ne' (f := PWM_REFRESH_INSERTED_V c) _ _ (Nat.lt_of_sub_eq_succ rfl) h, ite_self]
theorem State.markUpd_rd {b : Nat} (s : State) (h : b ≠ PWM_STAT c) : (s.markUpd c).rd b = s.rd b := by
  unfold markUpd flag
  rw [modChan_rd, rd_put_ne' (f := PWM_STAT_UPD c) _ _ (Nat.lt_of_sub_eq_succ rfl) h]
theorem State.periodMarks_rd {b : Nat} (s : State) (hstat : b ≠ PWM_STAT c) (hinserted : b ≠ PWM_REFRESH_INSERTED c) :
    (s.periodMarks c).rd b = s.rd b := by
  unfold periodMarks
  rw [markUpd_rd _ hstat, countRefresh_rd _ _ hinserted, clearMarks_rd _ _ hstat]
theorem State.get_clearMarks_REFRESHED (s : State) (c : Nat) (r : Bool) :
    (s.clearMarks c r).get (PWM_STAT_REFRESHED c) = if r then 1 else 0 := by
  unfold clearMarks
  rw [get_put_apart (f := PWM_STAT_DROPPED c) _ _ rfl, get_put_apart (f := PWM_STAT_STRETCHED c) _ _ rfl]
  exact State.get_flag_word _ _ (by decide)
theorem State.get_countRefresh_REFRESHED (s : State) (c : Nat) (r : Bool) :
    (s.countRefresh c r).get (PWM_STAT_REFRESHED c) = s.get (PWM_STAT_REFRESHED c) :=
  State.get_of_rd (by decide) (s.countRefresh_rd r (by unfold PWM_STAT PWM_REFRESH_INSERTED; omega))
theorem State.get_markUpd_REFRESHED (s : State) (c : Nat) :
    (s.markUpd c).get (PWM_STAT_REFRESHED c) = s.get (PWM_STAT_REFRESHED c) := by
  unfold markUpd flag
  rw [modChan_get, get_put_apart (f := PWM_STAT_UPD c) _ _ rfl]
/-- REFRESHED and REFRESH_INSERTED tell of the refresh pulse that the valley carries (R191, R197). -/
theorem State.periodMarks_refreshed (h : (s.chan c).refresh = true) : (s.periodMarks c).get (PWM_STAT_REFRESHED c) = 1 ∧
    (s.periodMarks c).get (PWM_REFRESH_INSERTED_V c) = (s.get (PWM_REFRESH_INSERTED_V c) + 1) % 2 ^ 32 := by
  have hne : PWM_REFRESH_INSERTED c ≠ PWM_STAT c := by unfold PWM_STAT PWM_REFRESH_INSERTED; omega
  have hupd (t : State) : (t.markUpd c).get (PWM_REFRESH_INSERTED_V c) = t.get (PWM_REFRESH_INSERTED_V c) :=
    State.get_of_rd (by decide) (t.markUpd_rd hne)
  have hclear : (s.clearMarks c true).get (PWM_REFRESH_INSERTED_V c) = s.get (PWM_REFRESH_INSERTED_V c) :=
    State.get_of_rd (by decide) (s.clearMarks_rd true hne)
  have hcount (t : State) : (t.countRefresh c true).get (PWM_REFRESH_INSERTED_V c) =
      (t.get (PWM_REFRESH_INSERTED_V c) + 1) % 2 ^ 32 := by
    unfold countRefresh
    rw [if_pos rfl]
    exact State.get_inc_word t 1
  unfold periodMarks
  rw [h]
  constructor
  · rw [get_markUpd_REFRESHED, get_countRefresh_REFRESHED, get_clearMarks_REFRESHED, if_pos rfl]
  · rw [hupd, hcount, hclear]
/-- A refresh pulse that the valley carries is marked and counted, whatever the period makes of the channel. -/
theorem startPeriod_refreshed (hc : c < 32) {corr : Int} (hmode : s.get (PWM_STAT_MODE c) ≠ mKilled)
    (hoos : s.get (GD_CHSTAT_OOS (c / 8) (c % 8)) = 0) (hused : s.chanUsed c = true) (h : (s.chan c).refresh = true) :
    (s.startPeriod c corr).get (PWM_STAT_REFRESHED c) = 1 ∧
      (s.startPeriod c corr).get (PWM_REFRESH_INSERTED_V c) = (s.get (PWM_REFRESH_INSERTED_V c) + 1) % 2 ^ 32 := by
  obtain ⟨hrefreshed, hinserted⟩ := State.periodMarks_refreshed h
  have htaken := (Modulated.refl true c (s.periodMarks c)).takeMode hc (s.chan c).want (s.get (PWM_STAT_MODE c) = mOff) corr
  rw [startPeriod_of_used hmode hoos hused]
  exact ⟨(htaken.refreshed rfl).trans hrefreshed, (htaken.inserted rfl).trans hinserted⟩

/-! ### A period on which the high side stays on (R185, R190) -/

theorem State.countPulse_rd {b : Nat} (s : State) (hstat : b ≠ PWM_STAT c) (hdrop : b ≠ PWM_DROPCNT c) (hstr : b ≠ PWM_STRCNT c)
    (dropped stretched : Bool) : (s.countPulse c dropped stretched).rd b = s.rd b := by
  have hdropped (t : State) : ((t.put (PWM_STAT_DROPPED c) 1).inc (PWM_DROPCNT_V c)).rd b = t.rd b :=
    (State.rd_put_word _ (by decide) hdrop).trans (State.rd_put_word _ (by decide) hstat)
  have hstretched (t : State) : ((t.put (PWM_STAT_STRETCHED c) 1).inc (PWM_STRCNT_V c)).rd b = t.rd b :=
    (State.rd_put_word _ (by decide) hstr).trans (State.rd_put_word _ (by decide) hstat)
  simp only [countPulse, ite_rd, hdropped, hstretched, ite_self]
/-- The low-side pulse that the valley settles leaves the active value alone. -/
theorem State.settleLow_rd_CMP (s : State) (c : Nat) (e : PulseEnv) (V : Nat) (corr : Int) :
    (s.settleLow c e V corr).rd (PWM_CMP c) = s.rd (PWM_CMP c) := by
  have hcount (t : State) (dropped stretched : Bool) : (t.countPulse c dropped stretched).rd (PWM_CMP c) = t.rd (PWM_CMP c) :=
    t.countPulse_rd (by unfold PWM_CMP PWM_STAT; omega) (by unfold PWM_CMP PWM_DROPCNT; omega)
      (by unfold PWM_CMP PWM_STRCNT; omega) _ _
  have hcarry (t : State) (v : Int) : (t.puti (PWM_CARRY_V c) v).rd (PWM_CMP c) = t.rd (PWM_CMP c) :=
    State.rd_put_word _ (by decide) (by unfold PWM_CMP PWM_CARRY; omega)
  unfold settleLow
  split
  · rfl
  · rw [modChan_rd, ite_rd, hcarry, ite_self]
  · simp only [ite_rd, modChan_rd, hcarry, hcount, ite_self]

/-- The active value, the mode, the carry and the pulse of a channel that is HIGHON from the valley at `V` on. -/
structure State.HighOnAt (s : State) (c cmp V : Nat) : Prop where
  mode : s.get (PWM_STAT_MODE c) = mHighon
  value : s.get (PWM_CMP_CMP c) = cmp
  carry : s.get (PWM_CARRY_V c) = 0
  pulse : (s.chan c).pulse = some V
  skip : (s.chan c).skip = true

/-- Channel `c` is HIGHON from the valley at `V` on, with the edges that `f` makes of its record. -/
def State.stayHigh (s : State) (c V : Nat) (f : PwmChan → List (Nat × Bool)) : State :=
  ((s.put (PWM_STAT_MODE c) mHighon).wr (PWM_CARRY c) 0).modChan c (fun y =>
    { y with edges := f y, pulse := some V, extra := 0, lead := 0, skip := true, refresh := false })
theorem State.highOnAt_stayHigh (s : State) (c V : Nat) (f : PwmChan → List (Nat × Bool)) :
    (s.stayHigh c V f).HighOnAt c (s.get (PWM_CMP_CMP c)) V := by
  have hwr {b : Nat} (t : State) (hb : b ≠ PWM_CARRY c) : (t.wr (PWM_CARRY c) 0).rd b = t.rd b := t.rd_wr_ne _ hb
  have hput : (s.put (PWM_STAT_MODE c) mHighon).get (PWM_CMP_CMP c) = s.get (PWM_CMP_CMP c) :=
    s.get_put_elsewhere (f := PWM_STAT_MODE c) _ rfl (by unfold PWM_CMP_CMP PWM_STAT_MODE PWM_CMP PWM_STAT; dsimp only; omega)
  have hmode : (s.put (PWM_STAT_MODE c) mHighon).get (PWM_STAT_MODE c) = mHighon := s.get_put_word mHighon (by decide) (by decide)
  unfold stayHigh
  constructor
  case mode =>
    rw [modChan_get]
    exact (State.get_of_rd (by decide) (hwr _ (by unfold PWM_STAT PWM_CARRY; omega))).trans hmode
  case value =>
    rw [modChan_get]
    exact (State.get_of_rd (by decide) (hwr _ (by unfold PWM_CMP PWM_CARRY; omega))).trans hput
  case carry =>
    rw [modChan_get]
    exact State.get_of_rd_zero (by decide) (State.rd_wr_same ..)
  case pulse => rw [State.chan_modChan_same]
  case skip => rw [State.chan_modChan_same]
theorem switchPeriod_highOn {corr : Int} (h : 8 * s.get (PWMG_PER_PER (c / 8)) ≤ s.get (PWM_CMPN_CMPN c)) :
    (s.switchPeriod c corr).HighOnAt c (s.get (PWM_CMPN_CMPN c)) (s.group (c / 8)).valley := by
  unfold State.switchPeriod
  extract_lets g x e V mode cmp fresh first tick s1 s2 s3 stay s4 double out short r s5
  have hcmp : s1.rd (PWM_CMP c) = (s.put (PWM_CMP_CMP c) cmp).rd (PWM_CMP c) := State.settleLow_rd_CMP ..
  have hfresh : s2.rd (PWM_CMP c) = s1.rd (PWM_CMP c) := by unfold s2; rw [State.ite_rd, State.gateOn_rd, ite_self]
  have hrefresh : s3.rd (PWM_CMP c) = s2.rd (PWM_CMP c) := by unfold s3; rw [State.ite_rd, State.modChan_rd, ite_self]
  have hput : (s.put (PWM_CMP_CMP c) cmp).get (PWM_CMP_CMP c) = cmp :=
    (s.get_put_word cmp (by decide) (by decide)).trans (Nat.mod_eq_of_lt (s.get_lt (PWM_CMPN_CMPN c)))
  have hvalue : s3.get (PWM_CMP_CMP c) = cmp :=
    (State.get_of_rd (by decide) (hrefresh.trans (hfresh.trans hcmp))).trans hput
  have hhigh (f : PwmChan → List (Nat × Bool)) : (s3.stayHigh c V f).HighOnAt c cmp V := by
    have hstay := s3.highOnAt_stayHigh c V f
    rwa [hvalue] at hstay
  rw [if_pos (show e.half ≤ cmp from h)]
  exact hhigh _
theorem startPeriod_highOn {corr : Int} (hmode : s.get (PWM_STAT_MODE c) ≠ mKilled)
    (hoos : s.get (GD_CHSTAT_OOS (c / 8) (c % 8)) = 0) (hused : s.chanUsed c = true) (hwant : (s.chan c).want = 1)
    (h : 8 * s.get (PWMG_PER_PER (c / 8)) ≤ s.get (PWM_CMPN_CMPN c)) :
    (s.startPeriod c corr).HighOnAt c (s.get (PWM_CMPN_CMPN c)) (s.group (c / 8)).valley := by
  have hcmpn : (s.periodMarks c).get (PWM_CMPN_CMPN c) = s.get (PWM_CMPN_CMPN c) := State.get_of_rd (by decide)
    (s.periodMarks_rd (by unfold PWM_CMPN PWM_STAT; omega) (by unfold PWM_CMPN PWM_REFRESH_INSERTED; omega))
  have hper : (s.periodMarks c).get (PWMG_PER_PER (c / 8)) = s.get (PWMG_PER_PER (c / 8)) := State.get_of_rd (by decide)
    (s.periodMarks_rd (by unfold PWMG_PER PWM_STAT; omega) (by unfold PWMG_PER PWM_REFRESH_INSERTED; omega))
  have hgroup : (s.periodMarks c).group (c / 8) = s.group (c / 8) := by
    unfold State.group; rw [(Modulated.periodMarks s c).groups]
  have hhigh : ((s.periodMarks c).switchPeriod c corr).HighOnAt c ((s.periodMarks c).get (PWM_CMPN_CMPN c))
      ((s.periodMarks c).group (c / 8)).valley := switchPeriod_highOn (by rw [hcmpn, hper]; exact h)
  rw [startPeriod_of_used hmode hoos hused, hwant]
  rwa [hcmpn, hgroup] at hhigh
end

end Sys2Proof.Machine
end

section
/-! PROOFS. What a loop instant changes of the modulator and of the carriers (R24, R71, R72, R82 to R84, R89, R121, R169): the
next compare values and the modes asked for. One lemma per operation, in the order of the model. -/
namespace Sys2Proof.Machine

/-- A word that a loop instant writes: one of a slot, or a next compare value. -/
def LoopWord (b : Nat) : Prop := (0x080000 ≤ b ∧ b < 0x090000) ∨ (0x201000 ≤ b ∧ b % 0x40 = 4)
/-- A field of such a word. -/
def Fld.OfLoop (f : Fld) : Prop := f.hi < 32 ∧ LoopWord f.a

theorem ofLoop_slot {n : Fin 16} {off hi lo : Nat} (h : hi < 32 ∧ off < 0x1000) :
    Fld.OfLoop ⟨0x080000 + 0x1000 * n + off, hi, lo⟩ := by
  have hn := n.isLt
  unfold Fld.OfLoop LoopWord; dsimp only; omega
theorem ofLoop_CMPN (c : Nat) : Fld.OfLoop (PWM_CMPN_CMPN c) := by
  unfold Fld.OfLoop LoopWord PWM_CMPN_CMPN PWM_CMPN; dsimp only; omega
theorem ofLoop_IPH (n : Fin 16) {i : Nat} (hi : i < 5) : Fld.OfLoop (AX_CC_IPH_V n i) := by
  have hn := n.isLt
  unfold Fld.OfLoop LoopWord AX_CC_IPH_V AX_CC_IPH; dsimp only; omega

/-- From `s` to `t` no carrier moves, no word changes but those of a loop instant, no pulse of a channel is begun or ended,
and every calibration goes on. -/
structure Looped (s t : State) : Prop where
  groups : t.groups = s.groups
  clock : t.clock = s.clock
  rd : ∀ b, ¬ LoopWord b → t.rd b = s.rd b
  pulse : ∀ m, (t.chan m).pulse = (s.chan m).pulse
  skip : ∀ m, (t.chan m).skip = (s.chan m).skip
  cal : ∀ m, (t.cc m).calKind = (s.cc m).calKind

namespace Looped
variable {o s t : State}

theorem refl (s : State) : Looped s s := ⟨rfl, rfl, fun _ _ => rfl, fun _ => rfl, fun _ => rfl, fun _ => rfl⟩
theorem trans (h : Looped o s) (g : Looped s t) : Looped o t :=
  ⟨g.groups.trans h.groups, g.clock.trans h.clock, fun b hb => (g.rd b hb).trans (h.rd b hb),
    fun m => (g.pulse m).trans (h.pulse m), fun m => (g.skip m).trans (h.skip m), fun m => (g.cal m).trans (h.cal m)⟩
theorem ite {q : Prop} [Decidable q] (hs : q → Looped o s) (ht : ¬ q → Looped o t) : Looped o (if q then s else t) :=
  State.ite_holds hs ht
theorem each {α : Type} (h : Looped o s) (l : List α) {f : α → State → State}
    (hf : ∀ x ∈ l, ∀ t, Looped o t → Looped o (f x t)) : Looped o (s.each l f) := State.each_holds l h hf

/-! ### The base operations -/

theorem put (h : Looped o s) {f : Fld} (v : Nat) (hf : f.OfLoop) : Looped o (s.put f v) :=
  h.trans ⟨s.put_groups .., s.put_clock .., fun _ hb => s.rd_put_ne' v hf.1 (fun e => hb (e ▸ hf.2)),
    fun _ => by rw [State.put_chan], fun _ => by rw [State.put_chan], fun _ => by rw [State.put_cc]⟩
theorem puti (h : Looped o s) {f : Fld} (v : Int) (hf : f.OfLoop) : Looped o (s.puti f v) := h.put _ hf
theorem inc (h : Looped o s) {f : Fld} (k : Nat) (hf : f.OfLoop) : Looped o (s.inc f k) := h.put _ hf
theorem flag (h : Looped o s) {f : Fld} (b : Bool) (hf : f.OfLoop) : Looped o (s.flag f b) := h.put _ hf
theorem wr (h : Looped o s) {a : Nat} (v : Word) (ha : LoopWord a) : Looped o (s.wr a v) :=
  h.trans ⟨s.wr_groups .., s.wr_clock .., fun _ hb => s.rd_wr_ne v (fun e => hb (e ▸ ha)),
    fun _ => by rw [State.wr_chan], fun _ => by rw [State.wr_chan], fun _ => by rw [State.wr_cc]⟩
theorem draw (h : Looped o s) : Looped o s.draw :=
  h.trans ⟨rfl, rfl, fun _ _ => rfl, fun _ => rfl, fun _ => rfl, fun _ => rfl⟩
theorem updDrawn (h : Looped o s) (d : Nat) : Looped o { s with drawn := d } :=
  h.trans ⟨rfl, rfl, fun _ _ => rfl, fun _ => rfl, fun _ => rfl, fun _ => rfl⟩
theorem modEngine (h : Looped o s) (e : Nat) (f : Engine → Engine) : Looped o (s.modEngine e f) :=
  h.trans ⟨rfl, rfl, fun _ _ => rfl, fun _ => rfl, fun _ => rfl, fun _ => rfl⟩
theorem setSwap (h : Looped o s) (n : Nat) (x : Swap) : Looped o (s.setSwap n x) :=
  h.trans ⟨rfl, rfl, fun _ _ => rfl, fun _ => rfl, fun _ => rfl, fun _ => rfl⟩
theorem modSwap (h : Looped o s) (n : Nat) (f : Swap → Swap) : Looped o (s.modSwap n f) := h.setSwap n _
theorem setPr (h : Looped o s) (n : Nat) (x : Prusik) : Looped o (s.setPr n x) :=
  h.trans ⟨rfl, rfl, fun _ _ => rfl, fun _ => rfl, fun _ => rfl, fun _ => rfl⟩
theorem modPr (h : Looped o s) (n : Nat) (f : Prusik → Prusik) : Looped o (s.modPr n f) := h.setPr n _
theorem setCc (h : Looped o s) (n : Nat) {x : Cc} (hx : x.calKind = (s.cc n).calKind) : Looped o (s.setCc n x) := by
  refine h.trans ⟨rfl, rfl, fun _ _ => rfl, fun _ => rfl, fun _ => rfl, fun m => ?_⟩
  by_cases hm : m = n
  · subst hm; rw [State.cc_setCc_same, hx]
  · rw [State.cc_setCc_ne _ _ hm]
theorem modCc (h : Looped o s) (n : Nat) {f : Cc → Cc} (hf : ∀ x, (f x).calKind = x.calKind) : Looped o (s.modCc n f) :=
  h.setCc n (hf _)
/-- A mode is asked for. -/
theorem ask (h : Looped o s) (c w : Nat) : Looped o (s.modChan c (fun y => { y with want := w })) := by
  refine h.trans ⟨rfl, rfl, fun _ _ => rfl, fun m => ?_, fun m => ?_, fun _ => rfl⟩
  all_goals
    by_cases hm : m = c
    · subst hm; rw [State.chan_modChan_same]
    · rw [State.chan_modChan_ne _ _ hm]

/-! ### Vectors and snapshots (R71, R83, R168, R169) -/

theorem schedule (h : Looped o s) (e : Nat) : Looped o (s.schedule e) := ite (fun _ => h.modEngine ..) (fun _ => h)
theorem takeLate (h : Looped o s) (n : Nat) : Looped o (s.takeLate n) := by
  unfold State.takeLate
  split
  · exact h
  · refine modCc (h.each _ (fun x _ t ht => ?_)) n (fun _ => rfl)
    exact (ite (fun _ => ht.put _ (ofLoop_CMPN _)) (fun _ => ht)).ask ..
theorem takeVector (h : Looped o s) (cs cmps : List Nat) : Looped o (s.takeVector cs cmps) :=
  h.each _ (fun _ _ _ ht => (ht.put _ (ofLoop_CMPN _)).ask ..)
theorem wantAll (h : Looped o s) (cs : List Nat) (w : Nat) : Looped o (s.wantAll cs w) := h.each _ (fun _ _ _ ht => ht.ask ..)
theorem newSnapshot (h : Looped o s) (n t : Nat) : Looped o (s.newSnapshot n t).1 := by
  unfold State.newSnapshot
  dsimp only
  exact (h.updDrawn (s.drawn + 5)).modCc n (by exact fun _ => rfl)
theorem showCurrents (h : Looped o s) (n : Fin 16) (v : Nat → Int) :
    Looped o (s.each (List.range 5) (fun i t => t.puti (AX_CC_IPH_V n i) (v i))) :=
  h.each _ (fun _ hi _ ht => ht.puti _ (ofLoop_IPH n (List.mem_range.mp hi)))

/-! ### A calibration (R71, R72, R109) -/

theorem kcalDrive (h : Looped o s) (n : Nat) (x : Snapshot) (last : Nat) (step : Option (Nat × Nat × Bool)) :
    Looped o (s.kcalDrive n x last step) := by
  unfold State.kcalDrive
  split
  · exact h
  · extract_lets k full s1 s2
    have hstep : Looped o s1 := ite (fun _ => h.modCc n (fun _ => rfl)) (fun _ => h)
    have hlow : Looped o s2 := (hstep.draw.wantAll ..).wantAll ..
    exact ite (fun _ => hlow.wantAll ..) (fun _ => hlow.takeVector ..)
theorem kcalPass (h : Looped o s) (n : Fin 16) (t : Nat) : Looped o (s.kcalPass n t) :=
  ((h.newSnapshot n t).showCurrents n _).kcalDrive ..
theorem fallback (h : Looped o s) (n : Fin 16) : Looped o (s.fallback n) := by
  unfold State.fallback
  exact ite (fun _ => (h.put 1 (f := AX_PR_ST_FALLBACK n) (ofLoop_slot (by decide))).modCc n (fun _ => rfl)) (fun _ => h)
theorem polarityStep (h : Looped o s) (n : Nat) (id : Rat) : Looped o (s.polarityStep n id) := by
  unfold State.polarityStep
  exact ite (fun _ => h) (fun _ => ite (fun _ => h.setPr ..) (fun _ => ite (fun _ => h.setPr ..) (fun _ => h)))
/-- A calibration runs the route in open loop (R72). -/
theorem closedLoop_of_calDrives {n : Nat} (h : s.calDrives n = true) : s.closedLoop n = false := by
  unfold State.closedLoop; rw [h, Bool.not_true, Bool.and_false]
/-- A pass of the control route of a slot that a calibration drives. -/
theorem controlPass (h : Looped o s) (n : Fin 16) (x : Snapshot) (hcal : s.calDrives n = true) :
    Looped o (s.controlPass n x).1 := by
  unfold State.controlPass
  extract_lets kind s1 term s2 amp s3 c iph ab a co si id iq ed eq kp ki fe w rw lw ke ff vd vq vh dth ident vd' vq' V pct lim
    mag vsat k vdk vqk dt d va vb volts cmps s4 s5 s6 s7 s8 s9 s10 s11 s12 s13
  have hfallback : Looped s s1 := (refl s).fallback n
  have hlimit : Looped s s2 := by
    unfold s2; split
    · exact (hfallback.modCc n (by exact fun _ => rfl)).draw
    · exact hfallback.modCc n (by exact fun _ => rfl)
  have hopen : s2.closedLoop n = false := closedLoop_of_calDrives (by
    unfold State.calDrives at hcal ⊢; rwa [hlimit.cal n])
  have hloop : Looped o s3 := by
    unfold s3
    rw [hopen, if_neg Bool.false_ne_true]
    exact ite (fun _ => h.trans hlimit) (fun _ => (h.trans hlimit).put 0 (f := AX_CC_ST_ISAT n) (ofLoop_slot (by decide)))
  have hvector : Looped o s5 := (hloop.setCc n (by rfl)).modPr n _
  have hpolarity : Looped o s6 := (hvector.updDrawn _).polarityStep ..
  have hid : Looped o s7 := hpolarity.wr _ (ofLoop_slot (off := 0x260) (hi := 0) (lo := 0) (by decide)).2
  have hiq : Looped o s8 := hid.wr _ (ofLoop_slot (off := 0x264) (hi := 0) (lo := 0) (by decide)).2
  have hvdq : Looped o s9 := (hiq.put _ (f := AX_CC_VDQ_VD n) (ofLoop_slot (by decide))).put _ (f := AX_CC_VDQ_VQ n)
    (ofLoop_slot (by decide))
  have hangle : Looped o s10 := hvdq.put _ (f := AX_CC_ANGLE_V n) (ofLoop_slot (by decide))
  have hres : Looped o s11 := hangle.puti _ (f := AX_CC_IRES_V n) (ofLoop_slot (by decide))
  have hiph : Looped o s12 := hres.showCurrents n _
  have hskip : Looped o s13 := ite (fun _ => hiph.inc 1 (f := AX_CC_WDSKIP_V n) (ofLoop_slot (by decide))) (fun _ => hiph)
  exact (hskip.flag _ (f := AX_CC_ST_VSAT n) (ofLoop_slot (by decide))).flag _ (f := AX_CC_ST_ILIM n) (ofLoop_slot (by decide))
theorem calPass (h : Looped o s) (n : Fin 16) (t : Nat) (hcal : s.calDrives n = true) : Looped o (s.calPass n t) := by
  have hlatched := h.newSnapshot n t
  have hstill : (s.newSnapshot n t).1.calDrives n = true := by
    unfold State.calDrives at hcal ⊢; rwa [((refl s).newSnapshot n t).cal n]
  unfold State.calPass
  exact ite (fun _ => h.kcalPass n t) (fun _ => (hlatched.controlPass n _ hstill).takeVector ..)

/-! ### A loop instant (R24, R121, R136) -/

/-- What an emergency swap of a role does at a loop instant. -/
theorem emergencyInstant (h : Looped o s) (k : Nat) {x : Swap} (y : Swap) (due : Bool) :
    Looped o (if x.emerg then (if due then (s.setSwap k y).schedule x.tgt else s.setSwap k y) else s) :=
  ite (fun _ => ite (fun _ => (h.setSwap ..).schedule ..) (fun _ => h.setSwap ..)) (fun _ => h)
theorem loopInstants (h : Looped o s) (g : Nat) (peak first : Bool) : Looped o (s.loopInstants g peak first) := by
  refine h.each _ (fun n hn t ht => ite (fun _ => ?_) (fun _ => ite (fun hcal => ?_) (fun _ => ht)))
  · extract_lets s1 x idx s2 ctl est sw inSwap s3 s4 s5 s6
    have hindex : Looped o s2 := (ht.takeLate n).setCc n (by rfl)
    have hctl : Looped o s3 := hindex.each _ (fun e _ u hu => ite (fun _ => hu.schedule e) (fun _ => hu))
    have hest : Looped o s4 := hctl.each _ (fun e _ u hu => ite (fun _ => hu.schedule e) (fun _ => hu))
    have hswap : Looped o s5 := ite (fun _ => hest.schedule _) (fun _ => hest)
    have hemerg : Looped o s6 := hswap.each _ (fun role _ u hu => hu.emergencyInstant ..)
    exact ite (fun _ => hemerg.modSwap ..) (fun _ => hemerg)
  · simp only [Bool.and_eq_true] at hcal
    exact ht.calPass ⟨n, List.mem_range.mp hn⟩ _ hcal.1.1.2
end Looped

end Sys2Proof.Machine
end

section
/-! PROOFS. The statement O42: valley, peak and counter of a carrier group (R180 to R186, R191). -/
namespace Sys2Proof.Machine

section
variable {s t : State} {g c : Nat} {dev : Int}

/-! ### Who needs a group counter (R182) -/

theorem State.ownerOf_of_rd (h : ∀ n < 16, t.rd (AX_BIND n) = s.rd (AX_BIND n)) : t.ownerOf c = s.ownerOf c :=
  List.find?_congr (fun n hn => by rw [State.slotChans_of_rd (h n (List.mem_range.mp hn))])
theorem State.lt_of_ownerOf {n : Nat} (h : s.ownerOf c = some n) : n < 16 := List.mem_range.mp (List.mem_of_find?_eq_some h)
theorem State.chanUsed_of_rd (hbind : ∀ n < 16, t.rd (AX_BIND n) = s.rd (AX_BIND n))
    (hstate : ∀ n < 16, t.rd (AX_STATE n) = s.rd (AX_STATE n)) : t.chanUsed c = s.chanUsed c := by
  unfold State.chanUsed
  rw [State.ownerOf_of_rd hbind]
  split
  next n hn => exact State.energised_of_rd (hstate n (State.lt_of_ownerOf hn))
  next => rfl
theorem State.chanRuns_of_chanUsed (h : s.chanUsed c = true) : s.chanRuns c = true := by
  unfold State.chanUsed at h
  unfold State.chanRuns
  split at h
  next n hn => simp [h]
  next => exact absurd h Bool.false_ne_true
/-- A trip or a reaction makes no channel need its counter. -/
theorem Subdued.chanRuns (h : Subdued s t) (hruns : t.chanRuns c = true) : s.chanRuns c = true := by
  have hbind (n : Nat) (hn : n < 16) : t.rd (AX_BIND n) = s.rd (AX_BIND n) := h.held _ (heldWord_BIND hn)
  unfold State.chanRuns at hruns ⊢
  rw [State.ownerOf_of_rd hbind] at hruns
  split at hruns
  next n hn =>
    have hlt := State.lt_of_ownerOf hn
    have hlocal : t.localChans n = s.localChans n := by unfold State.localChans; rw [hbind n hlt]
    rw [hlocal, Bool.or_eq_true, Bool.and_eq_true] at hruns
    rw [Bool.or_eq_true, Bool.and_eq_true]
    exact hruns.imp (h.energised n hlt) (And.imp_left (h.calDrives n))
  next => exact absurd hruns Bool.false_ne_true

/-! ### The channels of a group -/

theorem mem_groupChans : c ∈ groupChans g ↔ 8 * g ≤ c ∧ c < 8 * g + 8 := by
  unfold groupChans
  rw [List.mem_map]
  constructor
  · rintro ⟨k, hk, rfl⟩
    have hlt := List.mem_range.mp hk
    omega
  · exact fun h => ⟨c - 8 * g, List.mem_range.mpr (by omega), by omega⟩
theorem lt_of_mem_groupChans (hg : g < 4) (h : c ∈ groupChans g) : c < 32 := by
  have hc := (mem_groupChans.mp h).2
  omega
theorem div_of_mem_groupChans (h : c ∈ groupChans g) : c / 8 = g := by
  have hc := mem_groupChans.mp h
  omega
theorem groupChans_split (h : c ∈ groupChans g) : ∃ before after, groupChans g = before ++ c :: after ∧
    (∀ m ∈ before, m ∈ groupChans g ∧ m ≠ c) ∧ ∀ m ∈ after, m ∈ groupChans g ∧ m ≠ c := by
  obtain ⟨before, after, heq⟩ := List.append_of_mem h
  have hnodup : (groupChans g).Nodup := List.nodup_range.map (fun _ _ h => Nat.add_left_cancel h)
  rw [heq, List.nodup_middle, List.nodup_cons, List.mem_append, not_or] at hnodup
  obtain ⟨⟨hbefore, hafter⟩, -⟩ := hnodup
  exact ⟨before, after, heq, fun m hm => ⟨heq ▸ List.mem_append_left _ hm, ne_of_mem_of_not_mem hm hbefore⟩,
    fun m hm => ⟨heq ▸ List.mem_append_right _ (List.mem_cons_of_mem _ hm), ne_of_mem_of_not_mem hm hafter⟩⟩

/-- A word of no channel but `c`. -/
def BesideWord (c b : Nat) : Prop := ∀ m < 32, m ≠ c → ¬ ChanWord m b
/-- A word below the modulator's channels, or between them and the comparators. -/
theorem besideWord_of_apart {b : Nat} (h : b < 0x201000 ∨ (0x201800 ≤ b ∧ b < 0x260000)) : BesideWord c b := by
  intro m hm _ hword
  unfold ChanWord PWM_CMP CMP_SST at hword
  omega
theorem besideWord_own {b : Nat} (hc : c < 32) (hlo : PWM_CMP c ≤ b) (hhi : b < PWM_CMP c + 0x40) : BesideWord c b := by
  intro m hm hne hword
  unfold PWM_CMP at hlo hhi
  unfold ChanWord PWM_CMP CMP_SST at hword
  omega
/-- From `s` to `t` the modulator changes other channels than `c` only; for `c` = 32, channels only. -/
structure Beside (c : Nat) (s t : State) : Prop where
  groups : t.groups = s.groups
  clock : t.clock = s.clock
  rd : ∀ b, BesideWord c b → t.rd b = s.rd b
  chan : t.chan c = s.chan c

theorem Beside.refl (c : Nat) (s : State) : Beside c s s := ⟨rfl, rfl, fun _ _ => rfl, rfl⟩
theorem Beside.modulated {u : State} {m : Nat} (h : Beside c s t) (hm : m < 32) (hne : m ≠ c) (hmod : Modulated false m t u) :
    Beside c s u :=
  ⟨hmod.groups.trans h.groups, hmod.clock.trans h.clock, fun b hb => (hmod.rd b (hb m hm hne)).trans (h.rd b hb),
    (hmod.chan c hne.symm).trans h.chan⟩
theorem State.each_beside (s : State) {l : List Nat} {f : Nat → State → State} (hl : ∀ m ∈ l, m < 32 ∧ m ≠ c)
    (hf : ∀ m < 32, ∀ t, Modulated false m t (f m t)) : Beside c s (s.each l f) :=
  State.each_holds l (Beside.refl c s) (fun m hm t ht => ht.modulated (hl m hm).1 (hl m hm).2 (hf m (hl m hm).1 t))
/-- What a pass over the channels of a group does to channel `c` is what it does at its turn. -/
theorem State.each_groupChans (s : State) {f : Nat → State → State} (hg : g < 4) (hc : c ∈ groupChans g)
    (hf : ∀ m < 32, ∀ t, Modulated false m t (f m t)) :
    ∃ r, Beside c s r ∧ Beside c (f c r) (s.each (groupChans g) f) := by
  obtain ⟨before, after, heq, hbefore, hafter⟩ := groupChans_split hc
  have hother {m : Nat} (h : m ∈ groupChans g ∧ m ≠ c) : m < 32 ∧ m ≠ c := ⟨lt_of_mem_groupChans hg h.1, h.2⟩
  refine ⟨s.each before f, s.each_beside (fun m hm => hother (hbefore m hm)) hf, ?_⟩
  have hsplit : s.each (groupChans g) f = (f c (s.each before f)).each after f := by
    unfold State.each; rw [heq, List.foldl_append, List.foldl_cons]
  rw [hsplit]
  exact State.each_beside _ (fun m hm => hother (hafter m hm)) hf
/-- Such a pass moves no carrier and writes the channels' words only. -/
theorem State.each_groupChans_channels (s : State) {f : Nat → State → State} (hg : g < 4)
    (hf : ∀ m < 32, ∀ t, Modulated false m t (f m t)) : Beside 32 s (s.each (groupChans g) f) :=
  s.each_beside (fun _ hm => ⟨lt_of_mem_groupChans hg hm, (lt_of_mem_groupChans hg hm).ne⟩) hf

/-! ### The counter at a valley (R180, R181, R183) -/

/-- The counter of group `g` becomes `x` at cell time `at_`. -/
def State.moveGroup (s : State) (g : Nat) (x : PwmGroup) (at_ : Nat) : State := { s with now := at_ }.setGroup g x
/-- The housekeeping converter hears of a valley. -/
def State.valleySignal (s : State) (g : Nat) (tick : Bool) : State :=
  s.hkcSignal (s.get HKC_ITRIG_SRC == 1 && s.get HKC_ITRIG_GRP == g && !s.bit HKC_ITRIG_PEAK && (tick || !s.bit HKC_ITRIG_TICKV)) s.now
/-- The state in which a valley finds the channels. -/
def State.atValley (s : State) (g : Nat) (dev : Int) : State :=
  let x := (s.nextValley g dev).1
  let u := s.moveGroup g x (max s.now (x.valley / 2))
  (if x.idx == 0 then u.syncReport g (s.syncDiff g dev) (s.group g).lost else u).valleySignal g (x.idx == 0)
/-- A valley starts a period of every channel and a loop instant. -/
def State.startPeriods (s : State) (g : Nat) (corr : Int) (first : Bool) : State :=
  (s.each (groupChans g) (fun c t => t.startPeriod c corr)).loopInstants g false first
/-- The counter stops (R182). -/
def State.stopCounter (s : State) (g : Nat) : State := (s.each (groupChans g) (fun c t => t.stopChan c)).put (PWMG_STAT_RUN g) 0

section
variable (hrun : s.get (PWMG_STAT_RUN g) = 1) (hnext : max s.now ((s.nextValley g dev).1.valley / 2) < s.tickNext)
include hrun hnext

theorem carrierValley_runs (h : (groupChans g).any (s.atValley g dev).chanRuns = true) : carrierValley g dev s =
    (s.atValley g dev).startPeriods g (s.nextValley g dev).2 ((s.nextValley g dev).1.idx == 0) := by
  unfold carrierValley
  dsimp only
  rw [if_neg (not_or.mpr ⟨by simp [State.bit, hrun], Nat.not_le.mpr hnext⟩)]
  exact if_pos h
theorem carrierValley_stops (h : (groupChans g).any (s.atValley g dev).chanRuns = false) :
    carrierValley g dev s = (s.atValley g dev).stopCounter g := by
  unfold carrierValley
  dsimp only
  rw [if_neg (not_or.mpr ⟨by simp [State.bit, hrun], Nat.not_le.mpr hnext⟩)]
  exact if_neg (Bool.eq_false_iff.mp h)
end
theorem carrierValley_before (h : s.tickNext ≤ max s.now ((s.nextValley g dev).1.valley / 2)) : carrierValley g dev s = s :=
  if_pos (Or.inr h)

theorem nextValley_within (h : (s.group g).idx + 1 < s.get (PWMG_CFG_K g)) : s.nextValley g dev =
    ({ s.group g with idx := (s.group g).idx + 1, down := false, valley := s.naturalValley g }, 0) := if_pos h
theorem nextValley_tick (h : s.get (PWMG_CFG_K g) ≤ (s.group g).idx + 1) : (s.nextValley g dev).1 =
    { s.group g with
      idx := 0, down := false, lost := decide (16 < (s.syncDiff g dev).natAbs)
      valley := ((s.naturalValley g : Int) + 8 * dev - 8 * max (-16) (min 16 (s.syncDiff g dev))).toNat } := by
  unfold State.nextValley
  dsimp only
  rw [if_neg (Nat.not_lt.mpr h)]
theorem nextValley_idx : (s.nextValley g dev).1.idx =
    if (s.group g).idx + 1 < s.get (PWMG_CFG_K g) then (s.group g).idx + 1 else 0 := by
  split
  next h => rw [nextValley_within h]
  next h => rw [nextValley_tick (Nat.not_lt.mp h)]
theorem nextValley_down : (s.nextValley g dev).1.down = false := by
  by_cases h : (s.group g).idx + 1 < s.get (PWMG_CFG_K g)
  · rw [nextValley_within h]
  · rw [nextValley_tick (Nat.not_lt.mp h)]

theorem State.syncReport_clock (s : State) (g : Nat) (d : Int) (was : Bool) : (s.syncReport g d was).clock = s.clock := by
  simp only [syncReport, put_clock, draw_clock, raise_clock, ite_clock, ite_self]
theorem Subdued.syncReport {o : State} (h : Subdued o s) (hg : g < 4) (d : Int) (was : Bool) : Subdued o (s.syncReport g d was) := by
  unfold State.syncReport
  extract_lets fits v s1 s2
  have hdrawn : Subdued o (if fits then s else s.draw) :=
    ite (fun _ => h) (fun _ => h.same (fun _ => rfl) rfl rfl rfl)
  have hdev : Subdued o s1 := hdrawn.put v (f := PWMG_STAT_SYNCDEV g) (bridgeField_harmless (by decide) (Or.inl (by omega)))
  have hlost : Subdued o s2 := hdev.put 1 (f := PWMG_STAT_SYNCLOST g) (bridgeField_harmless (by decide) (Or.inl (by omega)))
  exact ite (fun _ => ite (fun _ => hlost) (fun _ => hlost.raise ..)) (fun _ => hdev)
/-- A difference of at most 16 counts is reported in SYNCDEV only. -/
theorem syncReport_small {d : Int} (h : d.natAbs ≤ 16) (was : Bool) :
    s.syncReport g d was = s.put (PWMG_STAT_SYNCDEV g) (unsignedOf 16 d) := by
  have hfits : -32768 ≤ d ∧ d ≤ 32767 := by omega
  unfold State.syncReport
  dsimp only
  rw [if_neg (Nat.not_lt.mpr h), decide_eq_true hfits, if_pos rfl, if_pos rfl]
theorem State.valleySignal_rd (s : State) (g : Nat) (tick : Bool) (b : Nat) : (s.valleySignal g tick).rd b = s.rd b := by
  unfold valleySignal; rw [hkcSignal_eq]; rfl
theorem State.valleySignal_chan (s : State) (g : Nat) (tick : Bool) (m : Nat) : (s.valleySignal g tick).chan m = s.chan m := by
  unfold valleySignal; rw [hkcSignal_eq]; rfl

theorem State.atValley_subdued (s : State) (hg : g < 4) (dev : Int) :
    Subdued (s.moveGroup g (s.nextValley g dev).1 (max s.now ((s.nextValley g dev).1.valley / 2))) (s.atValley g dev) := by
  have hmoved := Subdued.refl (s.moveGroup g (s.nextValley g dev).1 (max s.now ((s.nextValley g dev).1.valley / 2)))
  exact Subdued.hkcSignal (.ite (fun _ => hmoved.syncReport hg ..) (fun _ => hmoved)) ..
theorem State.atValley_group (s : State) (hg : g < 4) (dev : Int) : (s.atValley g dev).group g = (s.nextValley g dev).1 := by
  unfold State.group
  rw [(s.atValley_subdued hg dev).groups]
  exact State.group_setGroup_same ..
theorem State.atValley_now (s : State) (g : Nat) (dev : Int) :
    (s.atValley g dev).now = max s.now ((s.nextValley g dev).1.valley / 2) := by
  have hclock : (s.atValley g dev).clock =
      (s.moveGroup g (s.nextValley g dev).1 (max s.now ((s.nextValley g dev).1.valley / 2))).clock := by
    simp only [atValley, valleySignal, hkcSignal_clock, syncReport_clock, ite_clock, ite_self]
  exact now_eq_of_clock hclock
theorem State.moveGroup_chanRuns (s : State) (g : Nat) (x : PwmGroup) (at_ c : Nat) :
    (s.moveGroup g x at_).chanRuns c = s.chanRuns c := rfl
theorem State.atValley_idle (hg : g < 4) (h : (groupChans g).any s.chanRuns = false) :
    (groupChans g).any (s.atValley g dev).chanRuns = false := by
  rw [List.any_eq_false] at h ⊢
  intro c hc hruns
  have hmoved := (s.atValley_subdued hg dev).chanRuns hruns
  rw [State.moveGroup_chanRuns] at hmoved
  exact h c hc hmoved
/-- A valley within the tick, or a tick valley that differs by at most 16 counts, raises nothing. -/
theorem State.atValley_quiet (h : (s.group g).idx + 1 < s.get (PWMG_CFG_K g) ∨ (s.syncDiff g dev).natAbs ≤ 16) :
    (∀ b, b ≠ PWMG_STAT g → (s.atValley g dev).rd b = s.rd b) ∧ ∀ m, (s.atValley g dev).chan m = s.chan m := by
  unfold atValley
  dsimp only
  simp only [valleySignal_rd, valleySignal_chan, ite_rd, ite_chan]
  rcases h with hwithin | hsmall
  · rw [nextValley_within hwithin]
    exact ⟨fun _ _ => rfl, fun _ => rfl⟩
  · simp only [syncReport_small hsmall, put_chan]
    refine ⟨fun b hb => ?_, fun m => ite_self _⟩
    have hput (t : State) (v : Nat) : (t.put (PWMG_STAT_SYNCDEV g) v).rd b = t.rd b := State.rd_put_word v (by decide) hb
    rw [hput, ite_self]
    rfl

/-! ### The channels at a valley -/

theorem State.startPeriods_carrier (s : State) (hg : g < 4) (corr : Int) (first : Bool) :
    (s.startPeriods g corr first).groups = s.groups ∧ (s.startPeriods g corr first).clock = s.clock := by
  have hstarted := s.each_groupChans_channels hg (fun m hm t => Modulated.startPeriod t hm corr)
  have hlooped := (Looped.refl (s.each (groupChans g) (fun c t => t.startPeriod c corr))).loopInstants g false first
  exact ⟨hlooped.groups.trans hstarted.groups, hlooped.clock.trans hstarted.clock⟩
theorem State.stopCounter_carrier (s : State) (hg : g < 4) :
    (s.stopCounter g).groups = s.groups ∧ (s.stopCounter g).clock = s.clock := by
  have hstopped := s.each_groupChans_channels hg (fun m hm t => (Modulated.refl false m t).stopChan hm)
  exact ⟨(State.put_groups ..).trans hstopped.groups, (State.put_clock ..).trans hstopped.clock⟩
theorem State.stopCounter_RUN (s : State) (g : Nat) : (s.stopCounter g).get (PWMG_STAT_RUN g) = 0 :=
  State.get_put_word _ 0 (by decide) (by decide)
/-- Whether its channels run or stop, a valley leaves its group's counter as `nextValley` made it. -/
theorem carrierValley_carrier (hg : g < 4) (hrun : s.get (PWMG_STAT_RUN g) = 1)
    (hnext : max s.now ((s.nextValley g dev).1.valley / 2) < s.tickNext) :
    (carrierValley g dev s).group g = (s.nextValley g dev).1 ∧
      (carrierValley g dev s).now = max s.now ((s.nextValley g dev).1.valley / 2) := by
  have hafter {u : State} (h : u.groups = (s.atValley g dev).groups ∧ u.clock = (s.atValley g dev).clock) :
      u.group g = (s.nextValley g dev).1 ∧ u.now = max s.now ((s.nextValley g dev).1.valley / 2) := by
    refine ⟨?_, (State.now_eq_of_clock h.2).trans (s.atValley_now g dev)⟩
    rw [← s.atValley_group hg dev]
    unfold State.group
    rw [h.1]
  cases hruns : (groupChans g).any (s.atValley g dev).chanRuns with
  | true => rw [carrierValley_runs hrun hnext hruns]; exact hafter (State.startPeriods_carrier _ hg ..)
  | false => rw [carrierValley_stops hrun hnext hruns]; exact hafter (State.stopCounter_carrier _ hg)

/-- The words of channel `c` that tell of its period. -/
def PeriodWord (c b : Nat) : Prop := b = PWM_CMP c ∨ b = PWM_STAT c ∨ b = PWM_CARRY c ∨ b = PWM_REFRESH_INSERTED c
/-- What the period of channel `c` shows after `startPeriod` made `s` of it is what `t` shows. -/
structure Shown (c : Nat) (s t : State) : Prop where
  rd : ∀ b, PeriodWord c b → t.rd b = s.rd b
  pulse : (t.chan c).pulse = (s.chan c).pulse
  skip : (t.chan c).skip = (s.chan c).skip

theorem besideWord_of_periodWord {b : Nat} (hc : c < 32) (h : PeriodWord c b) : BesideWord c b := by
  have hrange : PWM_CMP c ≤ b ∧ b < PWM_CMP c + 0x40 := by
    unfold PeriodWord PWM_CMP PWM_STAT PWM_CARRY PWM_REFRESH_INSERTED at h
    unfold PWM_CMP
    omega
  exact besideWord_own hc hrange.1 hrange.2
theorem not_loopWord_of_periodWord {b : Nat} (h : PeriodWord c b) : ¬ LoopWord b := by
  unfold PeriodWord PWM_CMP PWM_STAT PWM_CARRY PWM_REFRESH_INSERTED at h
  unfold LoopWord
  omega
theorem Shown.highOn {cmp V : Nat} (h : Shown c s t) (hs : s.HighOnAt c cmp V) : t.HighOnAt c cmp V := by
  obtain ⟨hmode, hvalue, hcarry, hpulse, hskip⟩ := hs
  exact ⟨(State.get_of_rd (by decide) (h.rd _ (Or.inr (Or.inl rfl)))).trans hmode,
    (State.get_of_rd (by decide) (h.rd _ (Or.inl rfl))).trans hvalue,
    (State.get_of_rd (by decide) (h.rd _ (Or.inr (Or.inr (Or.inl rfl))))).trans hcarry, h.pulse.trans hpulse, h.skip.trans hskip⟩
/-- Channel `c` starts its period from a state that differs from `s` only beside it, and shows it from then on. -/
theorem State.startPeriods_shown (s : State) (hg : g < 4) (hc : c ∈ groupChans g) (corr : Int) (first : Bool) :
    ∃ r, Beside c s r ∧ Shown c (r.startPeriod c corr) (s.startPeriods g corr first) := by
  obtain ⟨r, hbefore, hafter⟩ := s.each_groupChans hg hc (fun m hm t => Modulated.startPeriod t hm corr)
  have hlt := lt_of_mem_groupChans hg hc
  have hlooped := (Looped.refl (s.each (groupChans g) (fun c t => t.startPeriod c corr))).loopInstants g false first
  refine ⟨r, hbefore, ⟨fun b hb => ?_, (hlooped.pulse c).trans ?_, (hlooped.skip c).trans ?_⟩⟩
  · exact (hlooped.rd b (not_loopWord_of_periodWord hb)).trans (hafter.rd b (besideWord_of_periodWord hlt hb))
  · rw [hafter.chan]
  · rw [hafter.chan]

/-- A channel whose period begins: used, in service and not KILLED (R193). -/
structure State.Starts (s : State) (c : Nat) : Prop where
  used : s.chanUsed c = true
  mode : s.get (PWM_STAT_MODE c) ≠ mKilled
  oos : s.get (GD_CHSTAT_OOS (c / 8) (c % 8)) = 0

/-- What a quiet valley and the other channels leave alone. -/
theorem atValley_beside {r : State} (hg : g < 4)
    (h : (s.group g).idx + 1 < s.get (PWMG_CFG_K g) ∨ (s.syncDiff g dev).natAbs ≤ 16) (hr : Beside c (s.atValley g dev) r) :
    (∀ b, b ≠ PWMG_STAT g → BesideWord c b → r.rd b = s.rd b) ∧ r.chan c = s.chan c ∧ r.group g = (s.nextValley g dev).1 := by
  obtain ⟨hrd, hchan⟩ := State.atValley_quiet h
  refine ⟨fun b hne hb => (hr.rd b hb).trans (hrd b hne), hr.chan.trans (hchan c), ?_⟩
  rw [← s.atValley_group hg dev]
  unfold State.group
  rw [hr.groups]
theorem State.Starts.of_rd {r : State} (hc : c < 32)
    (hrd : ∀ b, b ≠ PWMG_STAT (c / 8) → BesideWord c b → r.rd b = s.rd b) (h : s.Starts c) : r.Starts c := by
  obtain ⟨hused, hmode, hoos⟩ := h
  have hslot (b : Nat) (hb : b < 0x200000) : r.rd b = s.rd b :=
    hrd b (by unfold PWMG_STAT; omega) (besideWord_of_apart (Or.inl (by omega)))
  have hstat : r.rd (PWM_STAT c) = s.rd (PWM_STAT c) := hrd _ (by unfold PWM_STAT PWMG_STAT; omega)
    (besideWord_own hc (by unfold PWM_CMP PWM_STAT; omega) (by unfold PWM_CMP PWM_STAT; omega))
  have hchstat : r.rd (GD_CHSTAT (c / 8) (c % 8)) = s.rd (GD_CHSTAT (c / 8) (c % 8)) :=
    hrd _ (by unfold GD_CHSTAT PWMG_STAT; omega) (besideWord_of_apart (Or.inr (by unfold GD_CHSTAT; omega)))
  refine ⟨(State.chanUsed_of_rd (fun n hn => hslot _ ?_) (fun n hn => hslot _ ?_)).trans hused,
    (State.get_of_rd (by decide) hstat).trans_ne hmode, (State.get_of_rd (by decide) hchstat).trans hoos⟩
  · unfold AX_BIND; omega
  · unfold AX_STATE; omega

/-- A channel that starts its period at a quiet valley makes of it what `startPeriod` makes of it in a state like `s`. -/
theorem carrierValley_shown (hg : g < 4) (hc : c ∈ groupChans g) (hrun : s.get (PWMG_STAT_RUN g) = 1)
    (hnext : max s.now ((s.nextValley g dev).1.valley / 2) < s.tickNext)
    (hquiet : (s.group g).idx + 1 < s.get (PWMG_CFG_K g) ∨ (s.syncDiff g dev).natAbs ≤ 16) (h : s.Starts c) :
    ∃ r : State, r.Starts c ∧ (∀ b, b ≠ PWMG_STAT g → BesideWord c b → r.rd b = s.rd b) ∧ r.chan c = s.chan c ∧
      r.group g = (s.nextValley g dev).1 ∧ Shown c (r.startPeriod c (s.nextValley g dev).2) (carrierValley g dev s) := by
  have hlt := lt_of_mem_groupChans hg hc
  have hgroup : c / 8 = g := div_of_mem_groupChans hc
  have hstarts {r : State} (hr : Beside c (s.atValley g dev) r) : r.Starts c :=
    h.of_rd hlt (by rw [hgroup]; exact (atValley_beside hg hquiet hr).1)
  have hruns : (groupChans g).any (s.atValley g dev).chanRuns = true :=
    List.any_eq_true.mpr ⟨c, hc, State.chanRuns_of_chanUsed (hstarts (Beside.refl ..)).used⟩
  obtain ⟨r, hbeside, hshown⟩ := (s.atValley g dev).startPeriods_shown hg hc (s.nextValley g dev).2
    ((s.nextValley g dev).1.idx == 0)
  obtain ⟨hrd, hchan, hcounter⟩ := atValley_beside hg hquiet hbeside
  refine ⟨r, hstarts hbeside, hrd, hchan, hcounter, ?_⟩
  rwa [carrierValley_runs hrun hnext hruns]
theorem carrierValley_highOn (hg : g < 4) (hc : c ∈ groupChans g) (hrun : s.get (PWMG_STAT_RUN g) = 1)
    (hnext : max s.now ((s.nextValley g dev).1.valley / 2) < s.tickNext)
    (hquiet : (s.group g).idx + 1 < s.get (PWMG_CFG_K g) ∨ (s.syncDiff g dev).natAbs ≤ 16) (h : s.Starts c)
    (hwant : (s.chan c).want = 1) (hper : 8 * s.get (PWMG_PER_PER g) ≤ s.get (PWM_CMPN_CMPN c)) :
    (carrierValley g dev s).HighOnAt c (s.get (PWM_CMPN_CMPN c)) (s.nextValley g dev).1.valley := by
  have hlt := lt_of_mem_groupChans hg hc
  have hgroup : c / 8 = g := div_of_mem_groupChans hc
  obtain ⟨r, hstarts, hrd, hchan, hcounter, hshown⟩ := carrierValley_shown hg hc hrun hnext hquiet h
  have hcmpn : r.get (PWM_CMPN_CMPN c) = s.get (PWM_CMPN_CMPN c) :=
    State.get_of_rd (by decide) (hrd _ (by unfold PWM_CMPN PWMG_STAT; omega)
      (besideWord_own hlt (by unfold PWM_CMP PWM_CMPN; omega) (by unfold PWM_CMP PWM_CMPN; omega)))
  have hPER : r.get (PWMG_PER_PER g) = s.get (PWMG_PER_PER g) :=
    State.get_of_rd (by decide) (hrd _ (by unfold PWMG_PER PWMG_STAT; omega)
      (besideWord_of_apart (Or.inl (by unfold PWMG_PER; omega))))
  have hhigh := startPeriod_highOn (corr := (s.nextValley g dev).2) hstarts.mode hstarts.oos hstarts.used
    (by rw [hchan, hwant]) (by rw [hgroup, hPER, hcmpn]; exact hper)
  rw [hgroup, hcounter, hcmpn] at hhigh
  exact hshown.highOn hhigh
theorem carrierValley_refreshed (hg : g < 4) (hc : c ∈ groupChans g) (hrun : s.get (PWMG_STAT_RUN g) = 1)
    (hnext : max s.now ((s.nextValley g dev).1.valley / 2) < s.tickNext)
    (hquiet : (s.group g).idx + 1 < s.get (PWMG_CFG_K g) ∨ (s.syncDiff g dev).natAbs ≤ 16) (h : s.Starts c)
    (hrefresh : (s.chan c).refresh = true) : (carrierValley g dev s).get (PWM_STAT_REFRESHED c) = 1 ∧
      (carrierValley g dev s).get (PWM_REFRESH_INSERTED_V c) = (s.get (PWM_REFRESH_INSERTED_V c) + 1) % 2 ^ 32 := by
  have hlt := lt_of_mem_groupChans hg hc
  obtain ⟨r, hstarts, hrd, hchan, -, hshown⟩ := carrierValley_shown hg hc hrun hnext hquiet h
  obtain ⟨hmark, hcount⟩ := startPeriod_refreshed (corr := (s.nextValley g dev).2) hlt hstarts.mode hstarts.oos hstarts.used
    (by rw [hchan]; exact hrefresh)
  have hword : r.get (PWM_REFRESH_INSERTED_V c) = s.get (PWM_REFRESH_INSERTED_V c) :=
    State.get_of_rd (by decide) (hrd _ (by unfold PWM_REFRESH_INSERTED PWMG_STAT; omega)
      (besideWord_of_periodWord hlt (Or.inr (Or.inr (Or.inr rfl)))))
  rw [hword] at hcount
  exact ⟨(State.get_of_rd (by decide) (hshown.rd _ (Or.inr (Or.inl rfl)))).trans hmark,
    (State.get_of_rd (by decide) (hshown.rd _ (Or.inr (Or.inr (Or.inr rfl))))).trans hcount⟩

/-! ### The peak and the start (R180, R182) -/

/-- The state in which a peak finds the channels. -/
def State.atPeak (s : State) (g : Nat) : State :=
  let u := s.moveGroup g { s.group g with down := true } (max s.now (((s.group g).valley + 8 * s.get (PWMG_PER_PER g)) / 2))
  u.hkcSignal (u.get HKC_ITRIG_SRC == 1 && u.get HKC_ITRIG_GRP == g && u.bit HKC_ITRIG_PEAK && !u.bit HKC_ITRIG_TICKV) u.now
theorem State.atPeak_eq (s : State) (g : Nat) :
    (s.atPeak g).groups = (s.setGroup g { s.group g with down := true }).groups ∧
      (s.atPeak g).now = max s.now (((s.group g).valley + 8 * s.get (PWMG_PER_PER g)) / 2) := by
  unfold atPeak
  dsimp only
  rw [hkcSignal_eq]
  exact ⟨rfl, rfl⟩
theorem carrierPeak_running (hrun : s.get (PWMG_STAT_RUN g) = 1) (hup : (s.group g).down = false)
    (hnext : max s.now (((s.group g).valley + 8 * s.get (PWMG_PER_PER g)) / 2) < s.tickNext) : carrierPeak g s =
      ((s.atPeak g).each (groupChans g) (fun c t => t.peakUpdate c)).loopInstants g true false := by
  unfold carrierPeak
  dsimp only
  rw [if_neg]
  · rfl
  · simp only [not_or]
    exact ⟨by simp [State.bit, hrun], by simp [hup], Nat.not_le.mpr hnext⟩
theorem carrierPeak_idle (h : s.get (PWMG_STAT_RUN g) = 0 ∨ (s.group g).down = true) : carrierPeak g s = s := by
  refine if_pos ?_
  rcases h with h | h
  · exact Or.inl (by simp [State.bit, h])
  · exact Or.inr (Or.inl h)
/-- A peak turns its own group's counter downward and leaves the others alone. -/
theorem carrierPeak_carrier (hg : g < 4) (hrun : s.get (PWMG_STAT_RUN g) = 1) (hup : (s.group g).down = false)
    (hnext : max s.now (((s.group g).valley + 8 * s.get (PWMG_PER_PER g)) / 2) < s.tickNext) :
    (carrierPeak g s).groups = (s.setGroup g { s.group g with down := true }).groups ∧
      (carrierPeak g s).now = max s.now (((s.group g).valley + 8 * s.get (PWMG_PER_PER g)) / 2) := by
  have hupdated := (s.atPeak g).each_groupChans_channels (g := g) (f := fun c t => t.peakUpdate c) hg
    (fun m _ t => (Modulated.refl false m t).peakUpdate)
  have hlooped := (Looped.refl ((s.atPeak g).each (groupChans g) (fun c t => t.peakUpdate c))).loopInstants g true false
  obtain ⟨hgroups, hnow⟩ := s.atPeak_eq g
  rw [carrierPeak_running hrun hup hnext]
  exact ⟨(hlooped.groups.trans hupdated.groups).trans hgroups,
    (State.now_eq_of_clock (hlooped.clock.trans hupdated.clock)).trans hnow⟩

/-- The state in which a counter that starts finds the channels. -/
def State.atStart (s : State) (g : Nat) : State :=
  (s.moveGroup g { idx := 0, valley := 2 * s.tickAt + s.groupOffset g, sampAt := (s.group g).sampAt }
    ((2 * s.tickAt + s.groupOffset g) / 2)).put (PWMG_STAT_RUN g) 1
theorem counterStart_starts (hrun : s.get (PWMG_STAT_RUN g) = 0) (hcfg : s.get (PWMG_CFG_CFGERR g) = 0)
    (hleft : s.tickLeft = true) (hruns : (groupChans g).any s.chanRuns = true)
    (hnow : s.now ≤ (2 * s.tickAt + s.groupOffset g) / 2) : counterStart g s = (s.atStart g).startPeriods g 0 true := by
  unfold counterStart
  dsimp only
  rw [if_pos]
  · rfl
  · simp [State.bit, hrun, hcfg, hleft, hruns, hnow]
theorem counterStart_idle (h : s.get (PWMG_STAT_RUN g) = 1 ∨ s.get (PWMG_CFG_CFGERR g) = 1 ∨ (groupChans g).any s.chanRuns = false) :
    counterStart g s = s := by
  unfold counterStart
  dsimp only
  rw [if_neg]
  rcases h with h | h | h <;> simp [h, State.bit]
theorem State.startPeriods_RUN (s : State) (hg : g < 4) (corr : Int) (first : Bool) :
    (s.startPeriods g corr first).get (PWMG_STAT_RUN g) = s.get (PWMG_STAT_RUN g) := by
  have hstarted := s.each_groupChans_channels hg (fun m hm t => Modulated.startPeriod t hm corr)
  have hlooped := (Looped.refl (s.each (groupChans g) (fun c t => t.startPeriod c corr))).loopInstants g false first
  refine State.get_of_rd (by decide) ((hlooped.rd _ ?_).trans (hstarted.rd _ (besideWord_of_apart (Or.inl ?_))))
  · unfold LoopWord PWMG_STAT; omega
  · unfold PWMG_STAT; omega

/-! ### The commands -/

section
variable (hup : s.up = true)
include hup

theorem carrierValley_carrier_rows {g : Fin 4} {V : Nat} (hrun : s.get (PWMG_STAT_RUN g) = 1) (hV : V = (s.nextValley g dev).1.valley)
    (hnext : max s.now (V / 2) < s.tickNext) :
    ∃ t, exec (.carrierValley g dev) s = .next t ∧ (t.group g).down = false ∧ (t.group g).valley = V ∧ t.now = max s.now (V / 2) ∧
      (t.group g).idx = (if (s.group g).idx + 1 < s.get (PWMG_CFG_K g) then (s.group g).idx + 1 else 0) ∧
      ((s.group g).idx + 1 < s.get (PWMG_CFG_K g) → V = (s.group g).valley + 16 * s.get (PWMG_PER_PER g)) ∧
      (s.get (PWMG_CFG_K g) ≤ (s.group g).idx + 1 →
        V = ((s.naturalValley g : Int) + 8 * dev - 8 * max (-16) (min 16 (s.syncDiff g dev))).toNat) := by
  subst hV
  obtain ⟨hgroup, hnow⟩ := carrierValley_carrier g.isLt hrun hnext
  refine live_exists hup rfl ?_
  rw [State.effect_group, State.effect_now, hgroup, hnow]
  refine ⟨nextValley_down, rfl, rfl, nextValley_idx, fun h => ?_, fun h => ?_⟩
  · rw [nextValley_within h]; rfl
  · rw [nextValley_tick h]
theorem carrierValley_stop_rows {g : Fin 4} (hrun : s.get (PWMG_STAT_RUN g) = 1)
    (hnext : max s.now ((s.nextValley g dev).1.valley / 2) < s.tickNext) (hidle : (groupChans g).any s.chanRuns = false) :
    ∃ t, exec (.carrierValley g dev) s = .next t ∧ t.get (PWMG_STAT_RUN g) = 0 := by
  refine live_exists hup (carrierValley_stops hrun hnext (State.atValley_idle g.isLt hidle)) ?_
  rw [State.effect_get]
  exact State.stopCounter_RUN ..
theorem carrierPeak_rows {g : Fin 4} {u : Nat} (hrun : s.get (PWMG_STAT_RUN g) = 1) (hdown : (s.group g).down = false)
    (hu : u = max s.now (((s.group g).valley + 8 * s.get (PWMG_PER_PER g)) / 2)) (hnext : u < s.tickNext) :
    ∃ t, exec (.carrierPeak g) s = .next t ∧ (t.group g).down = true ∧ (t.group g).idx = (s.group g).idx ∧
      (t.group g).valley = (s.group g).valley ∧ t.now = u ∧ ∀ m : Nat, m ≠ g.val → t.group m = s.group m := by
  subst hu
  obtain ⟨hgroups, hnow⟩ := carrierPeak_carrier g.isLt hrun hdown hnext
  have hgroup (m : Nat) : (carrierPeak g s).group m = (s.setGroup g { s.group g with down := true }).group m := by
    unfold State.group; rw [hgroups]; rfl
  refine live_exists hup rfl ?_
  simp only [State.effect_group, State.effect_now, hgroup, hnow, State.group_setGroup_same]
  exact ⟨trivial, trivial, trivial, trivial, fun m hm => State.group_setGroup_ne _ _ hm⟩
theorem counterStart_rows {g : Fin 4} (hrun : s.get (PWMG_STAT_RUN g) = 0) (hcfg : s.get (PWMG_CFG_CFGERR g) = 0)
    (hleft : s.tickLeft = true) (hruns : (groupChans g).any s.chanRuns = true)
    (hnow : s.now ≤ (2 * s.tickAt + s.groupOffset g) / 2) :
    ∃ t, exec (.counterStart g) s = .next t ∧ t.get (PWMG_STAT_RUN g) = 1 ∧ (t.group g).idx = 0 ∧ (t.group g).down = false ∧
      (t.group g).valley = 2 * s.tickAt + s.groupOffset g ∧ t.now = (2 * s.tickAt + s.groupOffset g) / 2 := by
  obtain ⟨hgroups, hclock⟩ := (s.atStart g).startPeriods_carrier g.isLt 0 true
  have hgroup : ((s.atStart g).startPeriods g 0 true).group g =
      { idx := 0, valley := 2 * s.tickAt + s.groupOffset g, sampAt := (s.group g).sampAt } := by
    unfold State.group
    rw [hgroups]
    exact (State.put_group ..).trans (State.group_setGroup_same ..)
  have hstarted : ((s.atStart g).startPeriods g 0 true).now = (2 * s.tickAt + s.groupOffset g) / 2 :=
    (State.now_eq_of_clock hclock).trans (State.put_now ..)
  refine live_exists hup (counterStart_starts hrun hcfg hleft hruns hnow) ?_
  rw [State.effect_get, State.effect_group, State.effect_now, State.startPeriods_RUN _ g.isLt, hgroup, hstarted]
  exact ⟨State.get_put_word _ 1 (by decide) (by decide), rfl, rfl, rfl, rfl⟩
end
end

/-- Settles O42: the counter's own lemmas for the carrier, and `carrierValley_shown` for what a channel's period shows of it. -/
theorem carrierRows : Obligations.CarrierRows := by
  intro s g dev hup
  have hidle {f : State → State} (h : f s = s) : live s f = .next s :=
    (live_next hup f).trans (congrArg _ (State.effect_of_eq h))
  refine ⟨fun V hrun hV hnext => ⟨carrierValley_carrier_rows hup hrun hV hnext, ?_, ?_⟩, fun h => hidle (carrierValley_before h),
    fun u hrun hdown hu hnext => carrierPeak_rows hup hrun hdown hu hnext, fun h => hidle (carrierPeak_idle h),
    fun hrun hcfg hleft hruns hnow => counterStart_rows hup hrun hcfg hleft hruns hnow, fun h => hidle (counterStart_idle h)⟩
  · subst hV
    exact fun h => carrierValley_stop_rows hup hrun hnext h
  · intro k hquiet _ hused hmode hoos
    subst hV
    have hk := k.isLt
    have hc : 8 * g.val + k.val ∈ groupChans g := mem_groupChans.mpr (by omega)
    have hstarts : s.Starts (8 * g.val + k.val) := by
      refine ⟨hused, hmode, ?_⟩
      rwa [show (8 * g.val + k.val) / 8 = g.val by omega, show (8 * g.val + k.val) % 8 = k.val by omega]
    constructor
    · intro hwant hper
      obtain ⟨hmode, hvalue, hcarry, hpulse, hskip⟩ := carrierValley_highOn g.isLt hc hrun hnext hquiet hstarts hwant hper
      exact live_exists hup rfl ⟨hmode, hvalue, hcarry, hpulse, hskip⟩
    · intro hrefresh
      obtain ⟨hmark, hcount⟩ := carrierValley_refreshed g.isLt hc hrun hnext hquiet hstarts hrefresh
      exact live_exists hup rfl ⟨hmark, hcount⟩

end Sys2Proof.Machine
end

section
/-! PROOFS. What raising a message, with its reaction, or the trip of a calibration does to a device that SAFEOFF_N holds off
(R213, R215, R355 to R362): no gate turns on and no continuity pulse begins. One lemma per operation, in the order of the model. -/
namespace Sys2Proof.Machine

/-- The level of SAFEOFF_N, the continuity pulses and the records of the channels. -/
def State.bridges (s : State) : Bool × List Nat × Tab PwmChan := (s.safeoff, s.pulses, s.chans)

theorem State.bridges_congr {s t : State} (hsafe : t.safeoff = s.safeoff) (hpulses : t.pulses = s.pulses)
    (hchans : t.chans = s.chans) : t.bridges = s.bridges := by unfold bridges; rw [hsafe, hpulses, hchans]
theorem StreamsOnly.bridges {s t : State} (h : StreamsOnly s t) : t.bridges = s.bridges := by obtain ⟨x, rfl⟩ := h; rfl

/-! ### The operations that reach no channel -/

section
variable (s : State)

theorem State.ite_bridges {c : Prop} [Decidable c] (s t : State) :
    (if c then s else t).bridges = if c then s.bridges else t.bridges := apply_ite State.bridges ..
theorem State.each_bridges {α : Type} (l : List α) {f : α → State → State} (h : ∀ x t, (f x t).bridges = t.bridges) :
    (s.each l f).bridges = s.bridges := State.each_same l State.bridges h s
theorem State.wr_bridges (a : Nat) (v : Word) : (s.wr a v).bridges = s.bridges :=
  bridges_congr (s.wr_safeoff a v) (s.wr_pulses a v) (s.wr_chans a v)
theorem State.wr64_bridges (a v : Nat) : (s.wr64 a v).bridges = s.bridges :=
  bridges_congr (s.wr64_safeoff a v) (s.wr64_pulses a v) (s.wr64_chans a v)
theorem State.put_bridges (f : Fld) (v : Nat) : (s.put f v).bridges = s.bridges :=
  bridges_congr (s.put_safeoff f v) (s.put_pulses f v) (s.put_chans f v)
theorem State.puti_bridges (f : Fld) (v : Int) : (s.puti f v).bridges = s.bridges := s.put_bridges f _
theorem State.inc_bridges (f : Fld) (k : Nat) : (s.inc f k).bridges = s.bridges := s.put_bridges f _
theorem State.setGen_bridges (n : Nat) (x : Gen) : (s.setGen n x).bridges = s.bridges := (rfl)
theorem State.modGen_bridges (n : Nat) (f : Gen → Gen) : (s.modGen n f).bridges = s.bridges := (rfl)
theorem State.modCc_bridges (n : Nat) (f : Cc → Cc) : (s.modCc n f).bridges = s.bridges := (rfl)
theorem State.modStream_bridges (k : Nat) (f : Stream → Stream) : (s.modStream k f).bridges = s.bridges := (rfl)
theorem State.modHost_bridges (h : Nat) (f : HostSt → HostSt) : (s.modHost h f).bridges = s.bridges := (rfl)
theorem State.setSwap_bridges (n : Nat) (x : Swap) : (s.setSwap n x).bridges = s.bridges := (rfl)
theorem State.modEngine_bridges (e : Nat) (f : Engine → Engine) : (s.modEngine e f).bridges = s.bridges := (rfl)
theorem State.setPr_bridges (n : Nat) (x : Prusik) : (s.setPr n x).bridges = s.bridges := (rfl)
theorem State.upd_bly_bridges (x : Belay) : ({ s with bly := x } : State).bridges = s.bridges := (rfl)
theorem State.upd_hoDead_bridges (x : Bool) : ({ s with hoDead := x } : State).bridges = s.bridges := (rfl)
theorem State.upd_coll_bridges (x : Collector) : ({ s with coll := x } : State).bridges = s.bridges := (rfl)
theorem State.upd_hkc_bridges (x : Hkc) : ({ s with hkc := x } : State).bridges = s.bridges := (rfl)
theorem State.interruptWait_bridges (n new reason : Nat) : (s.interruptWait n new reason).bridges = s.bridges :=
  ((StreamsOnly.refl s).interruptWait n new reason).bridges
theorem State.interruptPitch_bridges (n i : Nat) : (s.interruptPitch n i).bridges = s.bridges :=
  ((StreamsOnly.refl s).interruptPitch n i).bridges
theorem State.interruptSlot_bridges (p : Nat → Bool) (halt : Nat) : (s.interruptSlot p halt).bridges = s.bridges :=
  ((StreamsOnly.refl s).interruptSlot p halt).bridges
theorem State.swapAnswer_bridges (n r : Nat) : (s.swapAnswer n r).bridges = s.bridges :=
  ((StreamsOnly.refl s).swapAnswer n r).bridges
theorem State.swapAbandon_bridges (n result : Nat) : (s.swapAbandon n result).bridges = s.bridges := by
  simp only [swapAbandon, put_bridges, setSwap_bridges, swapAnswer_bridges, ite_bridges, ite_self]
theorem State.stopRoutes_bridges (n : Nat) : (s.stopRoutes n).bridges = s.bridges := by
  simp only [stopRoutes, each_bridges, put_bridges, ite_bridges, ite_self, implies_true]
theorem State.keepHead_bridges (n : Nat) : (s.keepHead n).bridges = s.bridges := by
  simp only [keepHead, put_bridges, ite_bridges, ite_self]
theorem State.clearPitst_bridges (n : Nat) : (s.clearPitst n).bridges = s.bridges := by simp only [clearPitst, put_bridges]
theorem State.abandonPitch_bridges (n : Nat) : (s.abandonPitch n).bridges = s.bridges := by
  unfold abandonPitch
  split
  · rfl
  · rw [interruptPitch_bridges, clearPitst_bridges, modGen_bridges]
theorem State.sourceOff_bridges (n : Nat) : (s.sourceOff n).bridges = s.bridges := by
  unfold sourceOff
  dsimp only
  repeat' split
  all_goals simp only [setGen_bridges, modGen_bridges, clearPitst_bridges, put_bridges, inc_bridges, abandonPitch_bridges]
theorem State.stopGen_bridges (n : Nat) : (s.stopGen n).bridges = s.bridges := by
  simp only [stopGen, abandonPitch_bridges, put_bridges, modGen_bridges, ite_bridges, ite_self]
theorem State.cutSteps_bridges (n : Nat) (drop : Bool) : (s.cutSteps n drop).bridges = s.bridges := by
  simp only [cutSteps, emitSteps, modGen_bridges, setGen_bridges, puti_bridges, ite_bridges, ite_self]
theorem State.stopSteps_bridges (n : Nat) (held : Bool) : (s.stopSteps n held).bridges = s.bridges := by
  simp only [stopSteps, cutSteps_bridges, put_bridges, ite_bridges, ite_self]
theorem State.prStop_bridges (n : Nat) : (s.prStop n).bridges = s.bridges := by simp only [prStop, put_bridges, setPr_bridges]
theorem State.toRappel_bridges (n reason : Nat) (de : Bool) : (s.toRappel n reason de).bridges = s.bridges := by
  simp only [toRappel, put_bridges, cutSteps_bridges, sourceOff_bridges, modGen_bridges, interruptWait_bridges, ite_bridges,
    ite_self]
theorem State.startSave_bridges (sag s4 : Bool) : (s.startSave sag s4).bridges = s.bridges := by
  simp only [startSave, put_bridges, upd_bly_bridges, ite_bridges, ite_self]
theorem State.notifyHost_bridges (m : Msg) (h : Nat) : (s.notifyHost m h).bridges = s.bridges := by
  simp only [notifyHost, modHost_bridges, put_bridges, inc_bridges, ite_bridges, ite_self]
theorem State.traceTrigger_bridges (e time : Nat) : (s.traceTrigger e time).bridges = s.bridges := by
  simp only [traceTrigger, put_bridges, wr64_bridges, modEngine_bridges, ite_bridges, ite_self]
theorem State.hkcSignal_bridges (c : Bool) (time : Nat) : (s.hkcSignal c time).bridges = s.bridges := by
  simp only [hkcSignal, upd_hkc_bridges, ite_bridges, ite_self]
end

/-! ### The gates of a channel (R187, R192) -/

/-- Both gates of channel `c` are off. -/
def State.OffAt (s : State) (c : Nat) : Prop := (s.chan c).h.on = false ∧ (s.chan c).l.on = false

section
variable {s t : State} {c : Nat}

theorem State.OffAt.congr (hh : (t.chan c).h.on = (s.chan c).h.on) (hl : (t.chan c).l.on = (s.chan c).l.on) (h : s.OffAt c) :
    t.OffAt c := ⟨hh.trans h.1, hl.trans h.2⟩
theorem State.OffAt.modChan {m : Nat} {f : PwmChan → PwmChan} (h : s.OffAt c)
    (hf : ∀ x : PwmChan, (f x).h.on = x.h.on ∧ (f x).l.on = x.l.on) : (s.modChan m f).OffAt c := by
  by_cases hm : c = m
  · subst hm
    exact h.congr (by rw [State.chan_modChan_same, (hf _).1]) (by rw [State.chan_modChan_same, (hf _).2])
  · exact h.congr (by rw [State.chan_modChan_ne _ _ hm]) (by rw [State.chan_modChan_ne _ _ hm])
theorem State.OffAt.gateOff {m : Nat} (h : s.OffAt c) (high trip soft : Bool) : (s.gateOff m high trip soft).OffAt c := by
  by_cases hm : c = m
  · subst hm
    obtain ⟨hh, hl, -⟩ := s.gateOff_gates c high trip soft
    exact ⟨hh.trans (by rw [h.1, ite_self]), hl.trans (by rw [h.2, ite_self])⟩
  · exact h.congr (by rw [State.gateOff_chan_ne _ _ _ _ hm]) (by rw [State.gateOff_chan_ne _ _ _ _ hm])
theorem State.OffAt.noteArmed (h : s.OffAt c) (m : Nat) : (s.noteArmed m).OffAt c := by
  unfold State.noteArmed
  exact State.ite_holds (Q := fun t => t.OffAt c) (fun _ => h.modChan (fun _ => ⟨rfl, rfl⟩)) (fun _ => h)

theorem State.OffAt.of_bridges (hb : t.bridges = s.bridges) (h : s.OffAt c) : t.OffAt c := by
  have hchans : t.chans = s.chans := congrArg (·.2.2) hb
  unfold State.OffAt State.chan at *
  rwa [hchans]
/-- Both gates of channel `m` are turned off. -/
theorem State.gateOff_offAt {m : Nat} (h : c = m ∨ s.OffAt c) (trip soft : Bool) :
    ((s.gateOff m true trip soft).gateOff m false trip soft).OffAt c := by
  rcases h with rfl | h
  · obtain ⟨hhigh, -⟩ := s.gateOff_gates c true trip soft
    obtain ⟨hhigh', hlow', -⟩ := (s.gateOff c true trip soft).gateOff_gates c false trip soft
    exact ⟨hhigh'.trans hhigh, hlow'⟩
  · exact (h.gateOff ..).gateOff ..
/-- Forced without its low side a channel has both gates off, and no other channel turns one on. -/
theorem State.force_offAt {m : Nat} (h : c = m ∨ s.OffAt c) (mode : Nat) (soft : Bool) : (s.force m mode false soft).OffAt c := by
  unfold force
  extract_lets x td s1 s2 s3 s4 wait s5
  have hmode : c = m ∨ s2.OffAt c := h.imp_right (fun h => h.of_bridges
    (by simp only [s2, s1, ite_bridges, wr_bridges, put_bridges, ite_self]))
  have hoff : s4.OffAt c := State.gateOff_offAt hmode ..
  have hdead : s5.OffAt c := hoff.modChan (fun _ => ⟨rfl, rfl⟩)
  exact hdead
theorem State.OffAt.force (h : s.OffAt c) (m mode : Nat) (soft : Bool) : (s.force m mode false soft).OffAt c :=
  State.force_offAt (Or.inr h) mode soft

theorem State.noteArmed_pulses (s : State) (c : Nat) : (s.noteArmed c).pulses = s.pulses := by
  unfold noteArmed
  split <;> rfl
theorem State.gateOff_pulses (s : State) (c : Nat) (high trip soft : Bool) : (s.gateOff c high trip soft).pulses = s.pulses := by
  unfold gateOff
  dsimp only
  split
  · rfl
  · exact s.put_pulses ..
theorem State.gateOn_pulses (s : State) (c : Nat) (high : Bool) : (s.gateOn c high).pulses = s.pulses := by
  unfold gateOn
  dsimp only
  split <;> rfl
theorem State.force_pulses (s : State) (c mode : Nat) (low soft : Bool) : (s.force c mode low soft).pulses = s.pulses := by
  unfold force
  extract_lets x td s1 s2 s3 s4 wait s5
  have hmode : s2.pulses = s.pulses := State.ite_holds (Q := fun t => t.pulses = s.pulses) (fun _ => s.put_pulses ..)
    (fun _ => (s1.wr_pulses ..).trans (s.put_pulses ..))
  have hhigh : s3.pulses = s.pulses := (s2.gateOff_pulses ..).trans hmode
  have hlow : s4.pulses = s.pulses := State.ite_holds (Q := fun t => t.pulses = s.pulses) (fun _ => hhigh)
    (fun _ => (s3.gateOff_pulses ..).trans hhigh)
  have hdead : s5.pulses = s.pulses := (s4.modChan_pulses ..).trans hlow
  exact State.ite_holds (Q := fun t => t.pulses = s.pulses) (fun _ => (s5.gateOn_pulses ..).trans hdead) (fun _ => hdead)
end

/-! ### A device that SAFEOFF_N holds off (R215) -/

/-- SAFEOFF_N is low, every gate is off and no channel carries a continuity pulse. -/
structure State.Dark (s : State) : Prop where
  safeoff : s.safeoff = true
  pulses : s.pulses = []
  off : ∀ c < 32, s.OffAt c

namespace State.Dark
variable {s t : State}

theorem of_bridges (hb : t.bridges = s.bridges) (h : s.Dark) : t.Dark := by
  have hsafe : t.safeoff = s.safeoff := congrArg (·.1) hb
  have hpulses : t.pulses = s.pulses := congrArg (·.2.1) hb
  exact ⟨hsafe.trans h.safeoff, hpulses.trans h.pulses, fun c hc => (h.off c hc).of_bridges hb⟩
theorem noteArmed (h : s.Dark) (c : Nat) : (s.noteArmed c).Dark :=
  ⟨(State.safeoff_eq_of_clock (s.noteArmed_clock c)).trans h.safeoff, (s.noteArmed_pulses c).trans h.pulses,
    fun m hm => (h.off m hm).noteArmed c⟩
theorem force (h : s.Dark) (c mode : Nat) (soft : Bool) : (s.force c mode false soft).Dark :=
  ⟨(State.safeoff_eq_of_clock (s.force_clock c mode false soft)).trans h.safeoff, (s.force_pulses c mode false soft).trans h.pulses,
    fun m hm => (h.off m hm).force c mode soft⟩
/-- The safe state is no brake while SAFEOFF_N is low (R213). -/
theorem safeState (h : s.Dark) (c : Nat) : (s.safeState c).Dark := by
  unfold State.safeState
  dsimp only
  rw [h.safeoff, Bool.not_true, Bool.and_false]
  exact h.force ..
theorem brakeOff (h : s.Dark) (n mode : Nat) : (s.brakeOff n mode).Dark := by
  have hforce : (s.each (s.brakeChans n) (fun c t => t.force c mode false)).Dark :=
    State.each_holds _ h (fun c _ t ht => ht.force ..)
  unfold State.brakeOff
  split
  · exact h
  · exact hforce.of_bridges (by simp only [State.put_bridges])
theorem toTripped (h : s.Dark) (n reason : Nat) (how : SafeHow) (held : Bool) : (s.toTripped n reason how held).Dark := by
  unfold State.toTripped
  split
  · extract_lets s1 s2 s3 s4 s5 s6 last s7 s8
    have harmed : s1.Dark := State.each_holds _ h (fun c _ t ht => ht.noteArmed c)
    have hstate : s2.Dark := harmed.of_bridges (by simp only [s2, State.put_bridges])
    have hchans : s3.Dark := State.each_holds _ hstate (fun c _ t ht => by
      cases how with
      | safe => exact ht.safeState c
      | coast => exact ht.force ..
      | brake => dsimp only; rw [ht.safeoff, Bool.or_true, if_pos rfl]; exact ht.force ..)
    have hbrake : s4.Dark := hchans.brakeOff ..
    refine hbrake.of_bridges ?_
    simp only [s8, s7, s6, s5, State.interruptWait_bridges, State.put_bridges, State.prStop_bridges, State.modCc_bridges,
      State.stopRoutes_bridges, State.swapAbandon_bridges, State.stopGen_bridges, State.stopSteps_bridges, State.ite_bridges, ite_self]
  · exact h.of_bridges (by simp only [State.put_bridges, State.ite_bridges, ite_self])
theorem reactS3 (h : s.Dark) (gs rs : List Nat) (reason : Nat) (held : Bool) : (s.reactS3 gs rs reason held).Dark := by
  refine State.each_holds _ h (fun n _ t ht => ?_)
  have htrip := ht.toTripped n reason .safe held
  have hbraked {c : Prop} [Decidable c] : (if c then t.brakeOff n mKilled else t).Dark :=
    State.ite_holds (fun _ => ht.brakeOff n mKilled) (fun _ => ht)
  exact State.ite_holds (fun _ => State.ite_holds (fun _ => htrip) (fun _ => hbraked))
    (fun _ => State.ite_holds (fun _ => htrip) (fun _ => hbraked))
theorem reactS4 (h : s.Dark) : s.reactS4.Dark := by
  unfold State.reactS4
  extract_lets s1 s2 s3 s4 s5
  have hseen : s2.Dark := h.of_bridges (by
    simp only [s2, s1, State.put_bridges, State.killHandover, State.upd_hoDead_bridges, State.startSave_bridges])
  have hreact : s3.Dark := hseen.reactS3 ..
  refine hreact.of_bridges ?_
  simp only [s5, s4, State.each_bridges, State.modStream_bridges, State.interruptSlot_bridges, State.put_bridges,
    State.ite_bridges, ite_self, implies_true]
theorem react (h : s.Dark) (src sev : Nat) : (s.react src sev).Dark := by
  unfold State.react
  refine State.ite_holds (fun _ => h.of_bridges ?_) (fun _ => State.ite_holds (fun _ => h.reactS3 ..)
    (fun _ => State.ite_holds (fun _ => h.reactS4) (fun _ => h)))
  simp only [State.each_bridges, State.toRappel_bridges, State.keepHead_bridges, implies_true]
theorem raise (h : s.Dark) (src kind detail addr time : Nat) (loc : Bool) (sevIs : Option Nat) :
    (s.raise src kind detail addr time loc sevIs).Dark := by
  unfold State.raise
  extract_lets sev m key last s1 s2 coll s3 s4 s5
  have htaken : s4.bridges = s.bridges := by
    simp only [s4, s3, s2, s1, State.inc_bridges, State.put_bridges, State.upd_coll_bridges, State.each_bridges,
      State.notifyHost_bridges, State.ite_bridges, ite_self, implies_true]
  have htrace : s5.bridges = s4.bridges := by
    unfold s5; split
    · simp only [State.each_bridges, State.traceTrigger_bridges, State.ite_bridges, ite_self, implies_true]
    · rfl
  exact (h.of_bridges ((State.hkcSignal_bridges ..).trans (htrace.trans htaken))).react ..
theorem calDriveOff (h : s.Dark) (n : Nat) : (s.calDriveOff n).Dark :=
  State.each_holds _ h (fun _ _ _ ht => State.ite_holds (fun _ => ht) (fun _ => ht.force ..))
theorem calTrip (h : s.Dark) (n : Nat) : (s.calTrip n).Dark := by
  unfold State.calTrip
  extract_lets s1
  have hcal : s1.Dark := State.ite_holds
    (fun _ => (h.of_bridges (by simp only [State.modCc_bridges, State.put_bridges])).calDriveOff n) (fun _ => h)
  exact State.ite_holds
    (fun _ => (hcal.of_bridges (by simp only [State.modCc_bridges, State.put_bridges])).calDriveOff n) (fun _ => hcal)
end State.Dark

end Sys2Proof.Machine
end

section
/-! PROOFS. The statement O16: SAFEOFF_N and the settings of the bridge dies (R215, R219, R221). -/
namespace Sys2Proof.Machine

section
variable {s : State} {g k : Nat} {v : Word}

/-! ### SAFEOFF_N (R215) -/

/-- What the turn of `a` brings about and no turn undoes holds in the end. -/
theorem State.each_turn {α : Type} {Q : State → Prop} {s : State} {l : List α} {a : α} {f : α → State → State} (ha : a ∈ l)
    (hturn : ∀ t, Q (f a t)) (hkeep : ∀ x t, Q t → Q (f x t)) : Q (s.each l f) := by
  induction l generalizing s with
  | nil => exact absurd ha List.not_mem_nil
  | cons x l ih =>
    by_cases hl : a ∈ l
    · exact ih hl
    · obtain rfl : a = x := (List.mem_cons.mp ha).resolve_right hl
      exact State.each_holds l (hturn s) (fun x _ t ht => hkeep x t ht)

theorem safeoffLow_again (h : s.safeoff = true) : safeoffLow s = s := if_pos h
/-- The state in which SAFEOFF_N going low leaves the channels: their gates off, the armed ones KILLED. -/
def State.cutOff (s : State) : State :=
  ({ s with safeoff := true }.each groups4 (fun g t => (t.put (GD_STAT_SAFEOFF g) 1).put (GD_STAT_SAFEOFFSEEN g) 1)).each chans32
    (fun c t => (t.noteArmed c).force c (if t.armed c then mKilled else t.get (PWM_STAT_MODE c)) false)
theorem State.cutOff_offAt (s : State) {c : Nat} (hc : c < 32) : s.cutOff.OffAt c := by
  unfold State.cutOff
  refine State.each_turn (Q := fun t => t.OffAt c) (List.mem_range.mpr hc) (fun t => ?_) (fun m t ht => ?_)
  · exact State.force_offAt (Or.inl rfl) ..
  · exact (ht.noteArmed m).force ..
theorem State.cutOff_safeoff (s : State) : s.cutOff.safeoff = true := by
  have hclock : s.cutOff.clock = ({ s with safeoff := true } : State).clock := by
    simp only [cutOff, each_clock, force_clock, noteArmed_clock, put_clock, implies_true]
  exact State.safeoff_eq_of_clock hclock
/-- With every gate off the end of the pulses and tests leaves a device dark. -/
theorem State.dark_of_offAt {x : Panel} (hsafe : s.safeoff = true) (hoff : ∀ c < 32, s.OffAt c) :
    ({ s with pulses := [], panel := x } : State).Dark := ⟨hsafe, rfl, hoff⟩
theorem safeoffLow_dark (h : s.safeoff = false) : (safeoffLow s).Dark := by
  have hcut : ({ s.cutOff with pulses := [], panel := { s.cutOff.panel with tests := [] } } : State).Dark :=
    State.dark_of_offAt s.cutOff_safeoff (fun c hc => s.cutOff_offAt hc)
  have hcal := State.each_holds (Q := State.Dark) slots16 hcut (fun n _ t ht => ht.calTrip n)
  unfold safeoffLow
  rw [if_neg (by rw [h]; exact Bool.false_ne_true)]
  exact hcal.raise ..

theorem safeoffHigh_safeoff (s : State) : (safeoffHigh s).safeoff = false := by
  unfold safeoffHigh
  refine State.each_turn (Q := fun t => t.safeoff = false) (List.mem_range.mpr (Nat.succ_pos 3)) (fun t => ?_) (fun g t _ => ?_)
  · exact State.put_safeoff ..
  · exact State.put_safeoff ..
theorem safeoffHigh_SAFEOFF (s : State) (g : Fin 4) : (safeoffHigh s).get (GD_STAT_SAFEOFF g) = 0 := by
  have hturn (t : State) : (({ t with safeoff := false } : State).put (GD_STAT_SAFEOFF g) 0).get (GD_STAT_SAFEOFF g) = 0 :=
    State.get_put_word _ 0 (by decide) (by decide)
  unfold safeoffHigh
  refine State.each_turn (Q := fun t => t.get (GD_STAT_SAFEOFF g) = 0) (List.mem_range.mpr g.isLt) hturn (fun m t ht => ?_)
  by_cases hm : m = g
  · subst hm; exact hturn t
  · have hword : GD_STAT g ≠ GD_STAT m := by unfold GD_STAT; omega
    exact (State.get_put_ne _ 0 (Nat.lt_of_sub_eq_succ rfl) (Nat.lt_of_sub_eq_succ rfl) hword).trans ht
theorem safeoffHigh_chans (s : State) : (safeoffHigh s).chans = s.chans := by
  unfold safeoffHigh
  refine State.each_same groups4 State.chans (fun g t => ?_) s
  exact State.put_chans ..
theorem safeoffHigh_gens (s : State) : (safeoffHigh s).gens = s.gens := by
  unfold safeoffHigh
  refine State.each_same groups4 State.gens (fun g t => ?_) s
  exact State.put_gens ..

/-! ### The settings of a bridge die (R219, R221) -/

theorem gdCfgWrite_taken (hfree : s.groupUsed g = false) (hmin : 100 ≤ fieldOf v (GD_CFG_OTTHR g))
    (hmax : fieldOf v (GD_CFG_OTTHR g) ≤ 150) : gdCfgWrite g v s = s.wr (GD_CFG g) (v &&& 0xFF0F05#32) :=
  if_pos ⟨by rw [hfree, Bool.not_false], hmin, hmax⟩
theorem gdCfgWrite_refused (h : s.groupUsed g = true ∨ fieldOf v (GD_CFG_OTTHR g) < 100 ∨ 150 < fieldOf v (GD_CFG_OTTHR g)) :
    gdCfgWrite g v s = s.put (GD_STAT_REFUSED g) 1 := by
  refine if_neg ?_
  rintro ⟨hfree, hmin, hmax⟩
  rcases h with h | h | h
  · rw [h] at hfree; exact absurd hfree (by decide)
  · omega
  · omega
theorem scthrWrite_taken (hmain : 2 ≤ fieldOf v (GD_SCTHR_MAIN g k)) (hhard : 2 ≤ fieldOf v (GD_SCTHR_HARD g k)) :
    scthrWrite g k v s = (s.modChan (8 * g + k) (fun x => { x with thrOld := some (s.now, s.rd (GD_SCTHR g k)) })).wr
      (GD_SCTHR g k) (BitVec.ofNat 32 (v.toNat % 65536)) := if_pos ⟨hmain, hhard⟩
theorem scthrWrite_refused (h : fieldOf v (GD_SCTHR_MAIN g k) < 2 ∨ fieldOf v (GD_SCTHR_HARD g k) < 2) :
    scthrWrite g k v s = s.put (GD_STAT_REFUSED g) 1 := if_neg (by omega)
/-- A refused write sets REFUSED and leaves the register that it names. -/
theorem State.refused_rows (s : State) (g : Nat) {a : Nat} (ha : a ≠ GD_STAT g) :
    (s.put (GD_STAT_REFUSED g) 1).rd a = s.rd a ∧ (s.put (GD_STAT_REFUSED g) 1).get (GD_STAT_REFUSED g) = 1 :=
  ⟨State.rd_put_word 1 (by decide) ha, s.get_put_word 1 (by decide) (by decide)⟩
end

/-- Settles O16: SAFEOFF_N going low leaves a device that is dark (`safeoffLow_dark`), the settings by how a write is judged. -/
theorem gateDriveRows : Obligations.GateDriveRows := by
  intro s g k v hup
  have hlow : exec .safeoffNLow s = .next (s.effect safeoffLow) :=
    congrArg Host.Outcome.next (State.effect_congr (if_pos hup))
  have hhigh : exec .safeoffNHigh s = .next (s.effect safeoffHigh) :=
    congrArg Host.Outcome.next (State.effect_congr (if_pos hup))
  refine ⟨fun h => ?_, fun h => ?_, ?_, fun hfree hmin hmax => ?_, fun h => ?_, fun hmain hhard => ?_, fun h => ?_⟩
  · obtain ⟨hsafe, hpulses, hoff⟩ := safeoffLow_dark h
    refine ⟨_, hlow, ?_⟩
    simp only [State.effect_safeoff, State.effect_pulses, State.effect_chan]
    exact ⟨hsafe, hpulses, hoff⟩
  · rw [hlow, State.effect_of_eq (safeoffLow_again h)]
  · refine ⟨_, hhigh, ?_⟩
    simp only [State.effect_safeoff, State.effect_get, State.effect_chans, State.effect_gens]
    exact ⟨safeoffHigh_safeoff s, safeoffHigh_SAFEOFF s g, safeoffHigh_chans s, safeoffHigh_gens s⟩
  · exact live_exists hup (gdCfgWrite_taken hfree hmin hmax) ⟨s.rd_wr_same _ _, fun a ha => s.rd_wr_ne _ ha⟩
  · exact live_exists hup (gdCfgWrite_refused h) (s.refused_rows g (by unfold GD_CFG GD_STAT; omega))
  · refine live_exists hup (scthrWrite_taken hmain hhard) ⟨?_, fun a ha => ?_⟩
    · rw [State.effect_rd]; exact State.rd_wr_same ..
    · rw [State.effect_rd]; exact State.rd_wr_ne _ _ ha
  · exact live_exists hup (scthrWrite_refused h) (s.refused_rows g (by unfold GD_SCTHR GD_STAT; omega))

end Sys2Proof.Machine
end

section
/-! PROOFS. The statement O45, refuted: its second clause has SEEN of the source read 1 after WINDOW_EXCURSION, in every state, also
in one whose swap names an engine that the device does not have (R30, R230). -/
namespace Sys2Proof.Machine

/-- Slot 0 in HOLD with its local channels in group 0, fault source 1 at severity S3, and supply 0 about to leave its window
below. A swap of the slot that has not reached its switch names as its target engine 288, though the engines end at 19: what
would be its KEn_STATUS is the word FLT_SRC1, with SEEN among the bits of SLOT. The S3 reaction to the excursion abandons the
swap and so clears SEEN again (R135, R359). R133 refuses a TARGET above 19, so that no command leads to such a swap. -/
def strayTarget : State :=
  (((((State.reset.put (AX_STATE_STATE 0) stHold).put (AX_BIND_KIND 0) 1).put (AX_SWAPST_PHASE 0) 1).put (FLT_SRC_SEV 1) 3).setSwap 0
    { tgt := 288 }).setWindow (winLo 0) { hist := List.replicate 6 (true, false) }

theorem strayTarget_leaves :
    ((strayTarget.toWindow (.supply 0)).monChanges (.supply 0) (-1)).filter (·.2) = [(winLo 0, true)] := by decide +kernel
theorem strayTarget_SEEN : (windowExcursion 0 (-1) strayTarget).get (FLT_SRC_SEEN 1) = 0 := by decide +kernel

/-- Refutes O45: in `strayTarget` the reaction to the excursion of supply 0 clears SEEN of source 1. -/
theorem not_windowRows : ¬ Obligations.WindowRows := by
  unfold Obligations.WindowRows
  intro h
  have hup : strayTarget.up = true := rfl
  obtain ⟨-, hexcursion, -⟩ := h strayTarget _ (.supply 0) (-1) 0 hup rfl
  obtain ⟨t, hexec, -, hseen⟩ := hexcursion 0 (winLo 0) true [] rfl strayTarget_leaves (by decide)
  have hnext : exec (.windowExcursion 0 (-1)) strayTarget = .next (strayTarget.effect (windowExcursion 0 (-1))) := live_next hup _
  obtain rfl : strayTarget.effect (windowExcursion 0 (-1)) = t := Host.Outcome.next.inj (hnext.symm.trans hexec)
  rw [State.effect_get, if_neg (by decide)] at hseen
  exact absurd (strayTarget_SEEN.symm.trans hseen) Nat.zero_ne_one

end Sys2Proof.Machine
end
